-- ==== Sys2Proof/Word.lean ====
section
/-! DEFINITION. The word types of the OHB-4832: bytes and 32-bit register words (R9). -/

namespace Sys2Proof

/-- One byte of the host address space. -/
abbrev Byte := BitVec 8

/-- One 32-bit register or SRAM word. -/
abbrev Word := BitVec 32

end Sys2Proof
end

