-- ==== Sys2Proof/Syntax.lean ====
section
/-! DEFINITION. The commands of the block: one constructor of `Instr` per row of spec/opcode_table.json, and the plain data
their operands are made of. An operand carries what the world decides: bytes on a bus, a pin or supply level, a count or a
bit stream the hardware measured, the HF counter value at which something falls. -/

namespace Sys2Proof

/-- An X32 edge as the time-stamp unit captures it: the HF counter value at the last HF rising edge at or before it and
the interpolator's tap code (R245, R247). Both are ignored while HF does not run. -/
structure Edge where
  n : Nat
  tap : BitVec 3
deriving DecidableEq, Repr

/-- The bounds of an I2C or I3C transfer: a repeated START begins it, a STOP ends it, the START or STOP after it cuts a byte, and
the HF counter at its end (Table 3.1). -/
structure Xfer where
  sr : Bool
  stop : Bool
  cut : Bool
  t : Nat
deriving DecidableEq, Repr

/-- How a row of the bus other than a private transfer begins and ends: after a repeated START, else after a START; with its STOP, else
with the repeated START of the row that follows (R55). A row that does not say stands between a START and a STOP of its own, and the
broadcast header before a START's next address. -/
structure Ends where
  sr : Bool
  stop : Bool
deriving DecidableEq, Repr

/-- How the bytes of an I3C private write came: every parity bit was right, and a START or STOP cut one more byte (R72, R77). -/
structure Framing where
  parityOk : Bool
  cut : Bool
deriving DecidableEq, Repr

/-- SETDASA: the static address it goes to, and the dynamic address it gives (R72). -/
structure Dasa where
  dev : BitVec 7
  addr : BitVec 7
deriving DecidableEq, Repr

/-- ENEC or DISEC: broadcast, or direct to a device, and whether its byte has ENINT set (R72). -/
structure Ibis where
  dev : Option (BitVec 7)
  enint : Bool
deriving DecidableEq, Repr

/-- The closing edge of a lock window: its HF counter value, and whether it is a rising X32 edge (R132). -/
structure Close where
  t : Nat
  rising : Bool
deriving DecidableEq, Repr

/-- What a TEDS device on an identification line answers (R323): its link ID, its Basic TEDS, the template ID, and from template 33 the
bridge type, the bridge impedance in ohms and the maximum excitation in volts, each a quotient; a denominator of 0 gives none. -/
structure Teds where
  romId : BitVec 64
  basic : BitVec 64
  template : Byte
  bridgeType : Byte
  ohmNum : Nat
  ohmDen : Nat
  voltNum : Nat
  voltDen : Nat
deriving DecidableEq, Repr

/-- What the decoder of one NV page operation finds in the nine words of the page (R293). -/
inductive Ecc where
  | clean
  | corrected
  | uncorrectable
deriving DecidableEq, Repr

/-- What a conversion delivers at its end: the modulator's bits since the last filter start, for an AUX code the value in the unit of
Table 8.6, and the sense voltage of the port's pair in uV, the reference of a ratiometric conversion (R156, R157). -/
structure ConvData where
  bits : List Bool
  value : Int
  senseUv : Nat
deriving DecidableEq, Repr

/-- A check of Table 8.7 that fires, on a port or a pair; the clip detector's with the modulator's input and the sense voltage in uV. -/
inductive Diag where
  | cmFault (port : BitVec 2)
  | overrange (port : BitVec 2) (inUv : Int) (senseUv : Nat)
  | senseLoss (pairB : Bool)
  | excLimit (pairB : Bool)
deriving DecidableEq, Repr

/-- What a calibration or self-test measured (R309 to R312, R347): tap counts; residual offsets in nV, 9k + g for Mk at pga g, with the trims
set; upper and lower thresholds in uV, EV0 to EV5 then SYNC, with the trims set; the tests that failed. -/
inductive Measured where
  | tdc (counts : List Nat)
  | mod (offsets : List Int) (trims : List Byte)
  | evt (thresholds : List (Nat × Nat)) (trims : List Byte)
  | selftest (failed : BitVec 11)
deriving DecidableEq, Repr

/-- What discovery measures while it holds a pair (Table 17.2, steps 4, 6 and 7): the last as the bits of its conversion, with the sense
voltage in uV. -/
structure DiscData where
  leakPa : Int
  zp : BitVec 16
  zn : BitVec 16
  bits : List Bool
  senseUv : Nat
deriving DecidableEq, Repr

/-- The cause of leaving SHIP (R52): a low pulse on WAKEN of so many microseconds, or supplies (VDD, VBAT in mV). -/
inductive ShipWake where
  | waken (us : Nat)
  | vddReturn (vdd : Nat)
deriving DecidableEq, Repr

/-- The commands: one constructor per row of spec/opcode_table.json. -/
inductive Instr where
  -- the host port (03)
  | spiWriteFrame (bytes : List Byte) (extra : BitVec 3) (t : Nat)
  | spiReadFrame (bytes : List Byte) (extra : BitVec 3) (t : Nat)
  | spiStatusPoll (bytes : List Byte) (extra : BitVec 3)
  | spiFrameDuringCommit
  | hifReset
  | i2cWriteTransfer (sr : Bool) (dev : BitVec 7) (bytes : List Byte) (cut : Bool) (stop : Bool) (t : Nat)
  | i2cReadTransfer (dev : BitVec 7) (len : Nat) (x : Xfer)
  | i3cPrivateWrite (sr : Bool) (dev : BitVec 7) (bytes : List Byte) (f : Framing) (stop : Bool) (t : Nat)
  | i3cPrivateRead (dev : BitVec 7) (len : Nat) (x : Xfer)
  | i3cBroadcastAddress (b : Ends := ⟨false, false⟩)
  | entdaa (addr : BitVec 7) (b : Ends := ⟨false, true⟩)
  | setdasa (a : Dasa) (b : Ends := ⟨false, true⟩)
  | rstdaa (b : Ends := ⟨false, true⟩)
  | enec (i : Ibis) (b : Ends := ⟨false, true⟩)
  | disec (i : Ibis) (b : Ends := ⟨false, true⟩)
  | getpid (b : Ends := ⟨false, true⟩)
  | getbcr (b : Ends := ⟨false, true⟩)
  | getdcr (b : Ends := ⟨false, true⟩)
  | getstatus (b : Ends := ⟨false, true⟩)
  | rstact (dev : Option (BitVec 7)) (defining : Byte) (b : Ends := ⟨false, true⟩)
  | enthdr (b : Ends := ⟨false, true⟩)
  | hdrExit
  | unacknowledgedCcc (b : Ends := ⟨false, true⟩)
  | targetResetPattern
  | ibiRequest
  | ibiAck (stop : Bool := true)
  | ibiNack (stop : Bool := true)
  | ibiReminder
  -- committed register and table writes
  | registerWrite (addr : BitVec 16) (data : List Byte) (t : Nat)
  | softReset
  | measReset (t : Nat)
  | measResetComplete (t : Nat)
  | castleModeWrite (w : Word)
  | firstCastlingClear
  | trickleWrite (w : Word)
  | timeWrite (w : Word)
  | calendarWrite (cal0 cal1 : Word)
  | localOffsetWrite (offset : BitVec 7) (dst : Bool)
  | dstFwd
  | dstBack
  | shiftWrite (v : BitVec 16)
  | rtcHalt
  | rtcRelease
  | trimWrite (v : BitVec 12)
  | alarmWrite (reg : BitVec 2) (w : Word)
  | countdownLoad (v : BitVec 24)
  | clkSrcWrite (w : Word)
  | clkPlanWrite (w : Word)
  | clkSpreadWrite (w : Word)
  | afeCtlWrite (w : Word)
  | seal (ch : BitVec 5) (b : Byte)
  | timetableWrite (tableB : Bool) (off : BitVec 12) (data : List Byte)
  | ttEnable
  | ttDisable
  | ttStartArm (sec : Word) (frac : Word)
  | ttKick (t : Nat)
  | resultTailWrite (tail : BitVec 9)
  | evtStatClear (hi : Bool) (w : Word)
  | evtMaskWrite (hi : Bool) (w : Word)
  | evtIncfgWrite (w : Word)
  | evtLogTailWrite (tail : BitVec 7)
  | smTableWrite (input : BitVec 3) (off : BitVec 5) (data : List Byte)
  | aoutCodeWrite (w : Word)
  | spanChange (w : Word)
  | generatorRestart (w : Word)
  | ledgerEnable (t : Nat)
  | ledgerDisable (t : Nat)
  | cmdCplTailWrite (tail : BitVec 5)
  -- the conductor's commands (18)
  | loadTt (t : Nat)
  | switchTt (t : Nat)
  | discover (teds : List Teds) (d : DiscData) (t : Nat)
  | slotBind (t : Nat)
  | calTdc (t : Nat)
  | calMod (t : Nat)
  | calEvt (t : Nat)
  | nvRead (t : Nat)
  | nvWrite (t : Nat)
  | nvClear (t : Nat)
  | nvSuspend (t : Nat)
  | nvResume (t : Nat)
  | nvAbandon (t : Nat)
  | ledgerLap (t : Nat)
  | ledgerCheckpoint (t : Nat)
  | saveConfig (t : Nat)
  | restoreConfig (t : Nat)
  | selftest (failed : BitVec 11) (t : Nat)
  | ship (t : Nat)
  | undefinedCommand (t : Nat)
  | commandStart (t : Nat)
  | watchdogExpiry
  | conductorRestart (t : Nat)
  -- power-on, resets and the main start (04)
  | mainPowerOn (vdd vbat : Nat)
  | rstn (lowNs : Nat)
  | mainResetRelease (ifsel addr : Bool)
  | mainStartHfrcRunning
  | journalRead
  | sramClearDone
  | configImageApply (present : BitVec 4) (t : Nat)
  | ledgerRecovery
  | bootRecord (t : Nat)
  | aonColdStart (vdd vbat : Nat)
  | x32RunDeclared
  | rtcStartingEdge (e : Edge)
  -- supplies, castling, SHIP (02)
  | selectorSwitch (vdd vbat : Nat)
  | castlingRegistered (e : Edge)
  | aonSupplyFallback (vdd vbat : Nat)
  | mainDomainOff (vdd vbat : Nat)
  | brownOutWarning (vdd : Nat) (e : Edge)
  | warningEnd (vdd : Nat) (e : Edge)
  | trickleDone (vbat : Nat)
  | trickleResume (vbat : Nat)
  | shipEntry (e : Edge)
  | shipExit (cause : ShipWake)
  -- the X32 edge and what falls on it (05, 06)
  | x32Edge (e : Edge)
  | secondTick (e : Edge)
  | trimWindowStart (e : Edge)
  | trimCorrection (e : Edge)
  | tempConversionStart (temp : BitVec 12) (e : Edge)
  | alarmCommitCheck (alarm1 : Bool) (e : Edge)
  | alarmFiring (alarm1 : Bool) (e : Edge)
  | ttStartFiring (e : Edge)
  | countdownTick (e : Edge)
  | countdownZero (e : Edge)
  | preWake (e : Edge)
  -- the clocks (07)
  | refinMissing (t : Nat)
  | lockWindowClose (count : Nat) (c : Close)
  | driftWindowClose (q : Nat) (t : Nat)
  | acquisitionRetry (e : Edge)
  | spreadPeriodWrap
  -- event inputs (12)
  | syncRise (e : Edge)
  | evTransition (pin : BitVec 3) (level : Bool) (at_ : Edge)
  | evChangeAccepted (input : BitVec 3) (e : Edge)
  -- frames and carriages (10, 08, 11)
  | frameStart (t : Nat)
  | excite (i : BitVec 7)
  | excOff (i : BitVec 7)
  | convert (i : BitVec 7)
  | aux (i : BitVec 7)
  | conversionEnd (i : BitVec 7) (d : ConvData)
  | diagCheckFire (d : Diag)
  | detachInConversion (port : BitVec 2) (t : Nat)
  | correct (i : BitVec 7)
  | couple (i : BitVec 7)
  | emit (i : BitVec 7)
  | aoutSet (i : BitVec 7)
  | ledgerAdd (i : BitVec 7)
  | mark (i : BitVec 7)
  | carriageEnd (i : BitVec 7)
  | frameEnd
  -- outputs (14)
  | generatorUpdate
  | spanChangeEnd (e : Edge)
  | aoutComplianceLoss
  -- ledger occasions (15)
  | intervalEnd (e : Edge)
  | checkpointDue (e : Edge)
  -- presence and discovery (17)
  | presenceSlot (port : BitVec 2) (present : Bool) (t : Nat)
  | attachRegistered (port : BitVec 2) (t : Nat)
  | detachRegistered (port : BitVec 2) (t : Nat)
  | idLineTimeout (t : Nat)
  | discoveryHoldBegin
  -- calibration and NV (16)
  | calHoldBegin
  | calResultApply (m : Measured) (t : Nat)
  | nvPageOperationEnd (ecc : Ecc) (t : Nat)
  -- rows added at the table's end
  | trickleHeadroomChange (vdd vbat : Nat)
  | vddioPresenceChange (mv : Nat)
  | aoutComplianceRecovery
deriving DecidableEq, Repr

end Sys2Proof
end

