-- ==== Sys2Proof/Decode.lean ====
section
/-! DEFINITION. The decoder of the block: the rows of spec/opcode_table.json give no bits, so no word spells a command. -/

namespace Sys2Proof

/-- The command a word spells by the table's bits. Every row's "fields" is empty and none has a pattern, so no word spells
one; commands come to the block through the queue `pending` alone (log entry 2). -/
def decodeTableWord (_nbits _w : Nat) : Option Instr := none

end Sys2Proof
end

