-- ==== Sys2Proof/Config.lean ====
section
/-! DEFINITION. What one part fixes (its package) and the free values the manual leaves open. -/

namespace Sys2Proof.Config

/-- SYS_ID[11:8], 0x1 for the WLCSP-49 and 0x2 for the QFN-48 (Table 4.8). The spec names both order codes; which of the
two a part is, is a constant without a body (log entry 3), so no proof may lean on one of them. -/
opaque isQfn : Bool

/-- Whether a low pulse on WAKEN of between 100 us and 1 ms wakes the device: the n-th such pulse (R52, free: log entry 7). -/
opaque wakenPulse : Nat → Bool

/-- Whether a low pulse on RSTN of between 200 ns and 1 us is taken as a reset: the n-th such pulse (R32, free: log entry 7). -/
opaque rstnPulse : Nat → Bool

/-- Whether the host port responds while VDDIO lies between 0.90 V and 1.10 V (R35, free: log entry 7). -/
opaque vddioBand : Nat → Bool

/-- The raw value of a ratiometric conversion whose sense voltage lies below 0.5 V, unspecified within
-8 388 607 ... +8 388 607 (R157, R3; free: log entry 8). The draw is folded into those bounds by its reader. -/
opaque rawDraw : Nat → Nat

/-- Whether the clip detector fires on such a conversion (R157, free: log entry 8). -/
opaque clipDraw : Nat → Bool

/-- The band code the MDLL holds at a lock: the n-th lock (R131; the manual gives the code no value, free: log entry 9). -/
opaque bandCode : Nat → BitVec 6

/-- What a page write in progress leaves when VDD collapses: 0 the old page, 1 the new one, 2 a page that fails its check, 3 one
with an uncorrectable word; the n-th such page (ch. 16 edge 1, R299: a clear leaves the old or the new; free: log entry 43). -/
opaque tornPage : Nat → BitVec 2

/-- Whether a CORRECT had read a word of its table before a host write to it committed: by the draw counter, the HF counter, the
carriage and the word's address (R225, free: log entry 10). -/
opaque tableRead : Nat → Nat → Nat → Nat → Bool

/-- Whether a carriage had read a word of its output-format entry before a host write to it committed in its start qtick: by the draw
counter, the HF counter, the carriage and the word's address (R234, free: log entry 75). -/
opaque formatRead : Nat → Nat → Nat → Nat → Bool

/-- How many DAC clocks the HFRC gave since the generator's last update, when the DAC moves to HF: the n-th such count, folded into its
bounds by its reader (R129, R274; the HFRC's phase and its 3 % are free: log entry 89). -/
opaque hfrcClocks : Nat → Nat

/-- The integral nonlinearity of AOUT in a span at a code, in units of the level, folded into 0.01 % of the span by its reader (R355, Table
19.8; free: log entry 72). -/
opaque aoutInl : Nat → Nat → Int

/-- How far AOUT in HOLD has moved from the level it keeps: by the draw counter and the kticks since the last DAC clock, folded into the
droop of R267 by its reader (R355, Table 19.8; free: log entry 57). -/
opaque aoutDroop : Nat → Nat → Int

/-- The residual of a CAL_MOD whose masks leave nothing to measure, M4 alone without gain 0, which the manual does not state (R310; free:
log entry 69). -/
opaque noResidual : Nat → Nat

end Sys2Proof.Config
end

