-- ==== Sys2Proof/Machine/State.lean ====
section
/-! DEFINITION. The state of the OHB-4832: every register, table, counter, mode and pin the manual gives it, as plain data,
in one sub-structure per unit, and the state after reset. Register latches keep their 32-bit word where the host reads and
writes them whole; named accessors in Machine/Ops.lean read their fields. -/

namespace Sys2Proof.Machine

/-- Why the block stops. -/
inductive Fault where
  /-- A supply operand lies beyond the absolute maximum of Table 19.1, where no behaviour is specified (R351). Raised by the
  rows that carry a supply level. Safe: the model stops where the manual says nothing. -/
  | beyondAbsoluteMaximum
deriving DecidableEq, Repr

/-- Why a command is refused by the model. -/
inductive Refusal where
  /-- No meaning yet for the command. Raised by the dispatch alone. Safe. -/
  | notModelled (mnemonic : String)
deriving DecidableEq, Repr

/-- A SEC:FRAC stamp and whether it is coarse (R4, R5). -/
structure Stamp where
  sec : Word
  frac : Word
  coarse : Bool
deriving DecidableEq, Repr

/-- A capture of a ktick edge at which the count changed (R245): HF counter, position within the cycle, count after it. -/
structure Capture where
  n : Nat
  m : Nat
  sec : Word
  presc : BitVec 15
deriving DecidableEq, Repr

/-- Where one pair's driver lies within the tolerances of Table 19.7 (R355): the level error in voltage mode in ppm and uV and its drift in
ppm per degree, the error in current mode in ppm and nA, and the current limit in uA. -/
structure ExcPart where
  vGain : Int
  vOff : Int
  vDrift : Int
  iGain : Int
  iOff : Int
  iLim : Nat
deriving DecidableEq, Repr

/-- Where one part lies within the tolerances of Tables 19.6 to 19.8 and 19.11 (R354, R355, R358): the error of VSW, V_WARN - V_OFF, the
COMPARE switching offset, the always-on release from reset, all in mV; the error of the trickle termination in thousandths; the internal
reference at 25 degrees in uV and its drift in ppm per degree; the error of the always-on temperature sensor in 1/16 degree (R357, Table
19.10); the drivers of the pairs; the full-scale errors of AOUT in V0 and I0 in ppm and its offsets in uV and nA. Readers fold a value
beyond its band into it. -/
structure Part where
  vswErr : Int
  warnGap : Nat
  cmpOff : Nat
  release : Nat
  termErr : Int
  vRef : Nat
  refDrift : Int
  tempErr : Int
  excA : ExcPart
  excB : ExcPart
  v0Gain : Int
  i0Gain : Int
  vOff : Int
  iOff : Int
deriving DecidableEq, Repr

/-- Supplies in mV, pin levels and the other quantities the world decides. -/
structure Pins where
  /-- VDD, VBAT and VDDIO in mV (Table 2.6). -/
  vdd : Nat
  vbat : Nat
  vddio : Nat
  /-- VDDIO counts as present for the host port (R35). -/
  vddioOk : Bool
  /-- Levels of EV0 to EV5 (R235). -/
  ev : BitVec 6
  /-- Level of SYNC (R240). -/
  sync : Bool
  /-- Level of WAKEN; low requests a wake in SHIP (R52). -/
  waken : Bool
  /-- What the always-on temperature sensor would read, signed 1/16 degree (R106). -/
  dieTemp : BitVec 12
  /-- The tolerances of the part (R354, R355, R358). -/
  part : Part
deriving DecidableEq, Repr

/-- Power, castling and SHIP (02). -/
structure Pwr where
  /-- PWR_CTL as written (Table 2.9). -/
  ctl : Word
  /-- castle_mode, force_vbat and vsw in force: changes take effect at the next ktick edge (R38). -/
  eff : Word
  /-- PWR_TRICKLE[6:0] (Table 2.11). -/
  trickle : Word
  trickleOn : Bool
  vbatFull : Bool
  /-- The always-on domain runs from VBAT (PWR_STAT.on_vbat). -/
  onVbat : Bool
  /-- The supply the castling mode last called for: true VBAT (R37); differs from `onVbat` under R41. -/
  wantVbat : Bool
  /-- The side of the last castling made (R38, R41). -/
  sideVbat : Bool
  /-- Castlings made and not yet registered, oldest first; true is a castle-back (R38). -/
  castlings : List Bool
  castleCount : Nat
  firstValid : Bool
  firstDir : Bool
  firstSec : Word
  firstFrac : Word
  /-- A write of 1 to PWR_STAT.first_valid awaits its clear edge (R40). -/
  clearPend : Bool
  aonCold : Bool
  /-- An AON cold start has come since the last main start (Table 4.4). -/
  coldNew : Bool
  /-- The always-on domain has a supply (R41, R90). -/
  aonOn : Bool
  /-- The main domain is on (R37). -/
  mainOn : Bool
  /-- The always-on domain ran from VBAT at some moment since the main domain was last switched off (Table 4.4). -/
  ranVbat : Bool
  /-- PWR_STAT.vdd_warn (R42), and the consecutive kticks above V_WARN + 50 mV (R43). -/
  warn : Bool
  warnAbove : Nat
  /-- In SHIP (R49 to R52). -/
  ship : Bool
  /-- VDD has fallen below 1.0 V since SHIP was entered (R52). -/
  shipVddLow : Bool
  /-- Kticks left until SHIP entry once the SHIP record is written (R49). -/
  shipIn : Option Nat
deriving DecidableEq, Repr

/-- How far the main start has come (Table 4.6). -/
inductive Phase where
  | off
  | held
  | released
  | hfrc
  | journal
  | cleared
  | config
  | ledger
  | ready
deriving DecidableEq, Repr

/-- SYS_STAT.pstate (Table 4.9). -/
inductive PState where
  | run
  | nap
  | idle
deriving DecidableEq, Repr

/-- System status and the main start (04). -/
structure Sys where
  phase : Phase
  /-- SYS_STAT.early_wr (R85). -/
  earlyWr : Bool
  /-- SYS_STAT.cfg_state (R86). -/
  cfgState : BitVec 2
  pstate : PState
  /-- A MEAS reset is in progress (SYS_STAT.meas_rst). -/
  measRst : Bool
  /-- SYS_RESETCAUSE[10:0] (Table 4.11) and wdog_count. -/
  cause : BitVec 11
  wdogCount : Nat
  /-- The bits of the cause that were set in the qtick `causeAt`: a W1C write of the same qtick leaves them set (R12). -/
  causeNew : BitVec 11
  causeAt : Nat
  /-- Commands running or queued at the reset, for the boot record (R84, R87). -/
  lostCmds : Nat
  /-- This main start followed an always-on cold start (Table 4.7 bit 6). -/
  bootCold : Bool
  /-- This main start is a soft reset's, which leaves the host port open; it follows a main power-on, which samples the
  straps (R31, R81). -/
  soft : Bool
  powerOn : Bool
  /-- An uncorrectable word was met during this main start (Table 4.7 bit 4). -/
  startUnc : Bool
  /-- The SRAM clear of this main start is done, which a restart under R89 does not repeat, and so are the first presence readings at
  its config step, which the restart takes again. -/
  sramDone : Bool
  cfgDone : Bool
  /-- X32 has been declared running (SYS_STAT.x32_run, R90). -/
  x32Run : Bool
deriving DecidableEq, Repr

/-- Timekeeping (05). -/
structure Rtc where
  sec : Word
  presc : BitVec 15
  /-- The starting edge of R90 has come. -/
  started : Bool
  /-- RTC_CTL as a word: halt as written, time_invalid, tc_en, tc_vbat, rej, temp (Table 5.4). -/
  ctl : Word
  /-- halt in effect since its edge (R99, R101). -/
  halted : Bool
  /-- A written time awaiting its edge (R100). -/
  timePend : Option Word
  /-- A shift awaiting its edge, in kticks (R102), and whether RTC_SHIFT still shows it. -/
  shiftPend : Option (BitVec 16)
  shiftShown : Bool
  /-- RTC_LOCAL offset and dst (Table 5.8). -/
  offset : BitVec 7
  dst : Bool
  /-- RTC_TRIM.trim, the current window's TC (R104), the TC of the last sample (R106) and sat (Table 5.9). -/
  trim : BitVec 12
  tc : BitVec 12
  tcHeld : BitVec 12
  sat : Bool
  /-- The trim window: edges of it so far, windows so far, its T and accumulator (R103). -/
  winEdge : Nat
  winCount : Nat
  trimT : Int
  trimAcc : Nat
  /-- A temperature conversion in progress (R106). -/
  conv : Option (BitVec 12)
  /-- X32 edges since the oscillator's start (R316). -/
  edges : Nat
deriving DecidableEq, Repr

/-- Alarms and countdown (06). -/
structure Alm where
  alm0 : Word
  alm1 : Word
  alctl : Word
  chk0 : Bool
  chk1 : Bool
  count : BitVec 24
  cdctl : Word
  /-- tsel in force: a change applies from the next edge (R125). -/
  tsel : BitVec 2
  loadPend : Option (BitVec 24)
  /-- One-second ticks since the last load or tsel change (R124). -/
  sub60 : Nat
deriving DecidableEq, Repr

/-- What a host transaction in progress holds (R55, R97): the register snapshot and its status byte, the RTC shadows, the
window bytes sent, the calendar words written (R110), whether it wrote RTC_SEC or RTC_LOCAL (R98), what it set anew of early_wr,
prot_hit and HIF_ERR (R11), a HIF reset due at its end (R69), and a rejected transfer in it. -/
structure Txn where
  snap : List Word
  status : Byte
  /-- The protocol-error flag at the opening edge, for the GETSTATUS reply (R55, R74). -/
  proto : Bool
  shadow : Option (List Word)
  sent : List Nat
  cal0 : Option Word
  cal1 : Option Word
  timeSet : Bool
  early : Bool
  prot : Bool
  newErr : BitVec 8
  rst : Bool
  bad : Bool
deriving DecidableEq, Repr

/-- The host interface (03). -/
structure Hif where
  crcEn : Bool
  /-- Straps sampled at the last main power-on (R31): I3C/I2C mode, SDO/ADDR high. -/
  i3c : Bool
  addrHi : Bool
  filtOn : Bool
  ibiEn : Bool
  dynAddr : BitVec 7
  /-- HIF_ERR flags [7:0], count and last_addr (Table 3.8). -/
  err : BitVec 8
  errCount : Nat
  lastAddr : BitVec 16
  /-- The I2C/I3C address pointer (R70). -/
  ptr : BitVec 16
  protoErr : Bool
  /-- The armed target reset action is 0x01 (R76), and a reset pattern came with no GETSTATUS since. -/
  armSoft : Bool
  patternSeen : Bool
  /-- After ENTHDR, until the HDR exit pattern (R72). -/
  hdr : Bool
  /-- The open transaction is so far a controller's START with the broadcast address, in whose header a request may begin (R75). -/
  header : Bool
  txn : Option Txn
  /-- What the device drove to the host in the last transfer: status and data bytes. -/
  reply : List Byte
  /-- What it acknowledged in the last I2C or I3C transfer: its address, then each byte of an I2C write (R59, R70, R72). -/
  acks : List Bool
  /-- The served set of the IBI (R259). -/
  served : BitVec 64
  /-- An IBI is being requested; kticks since the last ACKed IBI; the last request was NACKed (R259). -/
  ibiReq : Bool
  sinceAck : Option Nat
  nacked : Bool
  /-- X32 edges since SCL or SDA last moved, to 33 (R75, R259). -/
  busIdle : Nat
deriving DecidableEq, Repr

/-- Event latches and masks (13). -/
structure Evt where
  stat : BitVec 64
  mask : BitVec 64
  /-- The always-on copy of EVT_MASK0[15:8] (R258). -/
  copy : BitVec 8
  /-- The sources raised in the qtick `nowAt`, and those of the always-on domain raised since the last X32 edge: a W1C write
  that commits in the same qtick, or ktick, leaves them set (R12, R254). -/
  now : BitVec 64
  nowAt : Nat
  nowA : BitVec 64
deriving DecidableEq, Repr

/-- A change being confirmed by a glitch filter (R236, R237). -/
inductive Confirm where
  /-- Fast path: stamp of the raw transition, the HF counter from which a sample counts, s0, and where the pin left the new level since. -/
  | fast (stamp : Stamp) (n : Nat) (s0 : Nat) (away : Option Nat)
  /-- Slow path: samples so far and the coarse stamp of the first. -/
  | slow (samples : Nat) (stamp : Stamp)
deriving DecidableEq, Repr

/-- Event inputs and the event log (12). -/
structure Evin where
  incfg : Word
  level : BitVec 6
  syncLevel : Bool
  /-- Current states of the six state machines (R241). -/
  st : List (BitVec 3)
  /-- Filters of EV0 to EV5 and SYNC. -/
  conf : List (Option Confirm)
  head : BitVec 7
  tail : BitVec 7
  ovf : Nat
  seq : BitVec 16
  /-- A SYNC reset waits for the first qtick after lock (R147). -/
  syncHeld : Bool
  /-- A rise of SYNC accepted on the fast path, whose pin has moved again before its sync qtick: its stamp and that qtick (R240). -/
  rise : Option (Stamp × Nat)
  /-- Lock was declared at a rising X32 edge with this HF counter: the handover of R238 falls after the count of that edge. -/
  handAt : Option Nat
  /-- Inputs whose pin is compared at the first sample of the path now watching (R238), and the qtick of that sample where an en bit
  written from 0 to 1 finds the fast path watching. -/
  fresh : BitVec 6
  cmpAt : Option Nat
  /-- The registration qtick of the last registration on a locked HF clock, with the sources of the records it has written so far, in
  their order in the log (R252). -/
  recs : Option (Nat × List Nat)
deriving DecidableEq, Repr

/-- CLK_STAT.state (Table 7.7). -/
inductive ClkState where
  | off
  | acq
  | locked
  | parked
  | bypass
deriving DecidableEq, Repr

/-- The reference in use (CLK_STAT.ref). -/
inductive ClkRef where
  | none
  | refin
  | hfrc
  | fallback
deriving DecidableEq, Repr

/-- What an acquisition was started by (R148). -/
inductive AcqBy where
  | mainStart
  | measReset
  | clkSrc
  | clkPlan
  | clkBoth
  | retry
  | preWake
  | async
  | job
deriving DecidableEq, Repr

/-- An acquisition in progress (R131): its cause, whether it hops on a stored code, lock windows closed so far. -/
structure Acq where
  cause : AcqBy
  hop : Bool
  windows : Nat
  /-- HF ran when the acquisition started (Table 7.4, source 18). -/
  fromHf : Bool
  /-- The reference that the held Q and the drift window in progress belong to (R138). -/
  prev : ClkRef
deriving DecidableEq, Repr

/-- A frequency plan's definition (R149). -/
structure Plan where
  mult : BitVec 6
  fref : BitVec 16
  rel : Bool
deriving DecidableEq, Repr

/-- The spread parameters the unit works from (R145): triangle (depth, period) or profile points (depth, dwell). -/
inductive SpreadSet where
  | off
  | triangle (depth period : Nat)
  | profile (pts : List (Nat × Nat))
deriving DecidableEq, Repr

/-- High-frequency clocks (07). -/
structure Clk where
  /-- CLK_SRC, CLK_LIMITS, CLK_SPREAD words. -/
  src : Word
  limits : Word
  spread : Word
  active : BitVec 2
  view : BitVec 2
  plans : List Plan
  /-- Stored band codes of PLAN0 to PLAN3 and FB (R135). -/
  bands : List (Option (BitVec 6))
  state : ClkState
  ref : ClkRef
  /-- MEAS runs on the bypass clock (SYS_STAT.bypass). -/
  bypass : Bool
  /-- A bypass episode runs (R143): its end raises source 19. The first move to HF after a main start or MEAS reset counts. -/
  episode : Bool
  warn : Bool
  accErr : BitVec 3
  retries : Nat
  /-- Kticks until the next retry; the next lock must be verified by a drift window (R143); verifying now. -/
  retryIn : Option Nat
  verify : Bool
  verifying : Bool
  acq : Option Acq
  /-- CLK_DRIFT as a word. -/
  drift : Word
  /-- Q of the last closed window, Q_b of relative mode, and drift periods of the window in progress (R138, R139). -/
  q : Option Nat
  qb : Option Nat
  periods : Nat
  /-- The last ktick edge of this run in 1/256 HF cycles, and, newest first, the closing edge and the Q before it of each window
  that closed within the running frame (R246). -/
  lastEdge : Nat
  qHist : List (Nat × Option Nat)
  /-- A rising X32 edge has fallen in the present locked run, the last of them at HF counter `lastRise`; HF cycles counted over the
  periods of the window in progress (R138). -/
  runEdge : Bool
  lastRise : Nat
  winQ : Nat
  /-- The HF counter, a qtick edge of the present qtick grid, and the captured ktick edges of this run, newest first. -/
  hf : Nat
  qbase : Nat
  caps : List Capture
  /-- The HF counter at the start of the present run (R245: HF runs without a break from there). -/
  runFrom : Nat
  spreadFault : Bool
  spreadNew : Option SpreadSet
  spreadNow : SpreadSet
  /-- The HF counter at the start, s = 0 or point 0, of a spread period (R146). -/
  spreadFrom : Nat
deriving DecidableEq, Repr

/-- One excitation pair (R152 to R155): level setting (mode, code) and drive polarity while on; a pre-settle's channel. -/
structure Pair where
  on : Bool
  current : Bool
  code : BitVec 12
  drive : Bool
  presettle : Option (BitVec 5)
  /-- Reversal state of R155, and no frame started since the rev bit changed. -/
  rev : Bool
  revFresh : Bool
  /-- The driver regulates at the EX pins after a sense loss (R154). -/
  senseLost : Bool
deriving DecidableEq, Repr

/-- The settings applied to the input stage of a modulator (R180): port, pga with its gain 2^pga, and the reference. -/
structure Stage where
  port : BitVec 2
  pga : Nat
  ref : Bool
deriving DecidableEq, Repr

/-- The front end (08). -/
structure Afe where
  /-- AFE_CTL as written and as in force since the last frame start (R170). -/
  ctl : Word
  eff : Word
  /-- AFE_DIAG[21:0], and its bits that latched in the qtick `diagAt`: a W1C write of the same qtick leaves them set (R12). -/
  diag : BitVec 22
  diagNew : BitVec 22
  diagAt : Nat
  pairA : Pair
  pairB : Pair
  /-- The input stages of M0 to M3 as last set at a settle-start tick (R180). -/
  stages : List Stage
deriving DecidableEq, Repr

/-- A channel value: its number, stamp and value flags at the record's flag positions (R231, Table 10.8). -/
structure Val where
  v : Int
  stamp : Stamp
  flags : BitVec 16
deriving DecidableEq, Repr

/-- The roster (09): sealed copies of 32 bytes, resident depot channels, and the values that holds repeat (R185, R308). -/
structure Ros where
  sealed : List (List Byte)
  depot : List (BitVec 5)
  lastConv : List (Option Val)
  lastCorr : List (Option Val)
  /-- The first start group was fetched ahead of a frame (R178), so a seal may retarget its pre-settles (R179). -/
  ahead : Bool
deriving DecidableEq, Repr

/-- A carriage of a checked image (Table 10.2). -/
structure Carriage where
  start : Nat
  dur : Nat
  op : Nat
  ch : BitVec 5
  res : Nat
  needA : Option Nat
  needB : Option Nat
  arg : Byte
  aux : Byte
deriving DecidableEq, Repr

/-- A checked timetable image (Table 10.1). -/
structure Image where
  secTick : Bool
  sync : Bool
  freeRun : Bool
  body : Nat
  lead : Nat
  cars : List Carriage
deriving DecidableEq, Repr

/-- How far a carriage of the running frame has come. -/
inductive CarState where
  | waiting
  | running
  | done
deriving DecidableEq, Repr

/-- What a CORRECT reads from the correction-table store (R224, R225): the table's address, the raw value and the temperature it
consumes, and the bytes it read before a host write replaced them. -/
structure TableRead where
  addr : Nat
  raw : Val
  temp : Option Val
  old : List Host.Cell
deriving DecidableEq, Repr

/-- What an EMIT, AOUT_SET or LEDGER_ADD reads from its output-format entry (R233, R234): the entry's address, the value it delivers, the
bytes it read before a host write replaced them, and what it finds at its start of OUT_STAT.held, or of the note that a LEDGER_ADD has
added since the last record. -/
structure FmtRead where
  addr : Nat
  val : Val
  old : List Host.Cell
  was : Bool
deriving DecidableEq, Repr

/-- A carriage in flight: REF_WARN at its start, its reason so far (0 OK), the value it produces, the HF counter of its filter
start and whether a SYNC restarted it, a conversion not yet at T_conv, and DESC_LATE of a late seal (R182). -/
structure CarRun where
  state : CarState
  refWarn : Bool
  reason : Nat
  val : Option Val
  filter : Nat
  synced : Bool
  converting : Bool
  late : Bool
  /-- The modulator's clip detector has fired during it (R165). -/
  clip : Bool
  /-- It repeats the channel's last value: on a held modulator (R308), or while calibration is installed (R185). -/
  held : Bool
  /-- The table read of a CORRECT (R225). -/
  read : Option TableRead
  /-- The read of an output-format entry (R234). -/
  fmt : Option FmtRead
  /-- The stamp of its start qtick (R208). -/
  stamp : Stamp
deriving DecidableEq, Repr

/-- The running frame (10). -/
structure Frame where
  img : Image
  tableB : Bool
  /-- HF counter of qtick 0, stamp of qtick 0, trigger code and delay word of the MARK record. -/
  t0 : Nat
  stamp : Stamp
  code : BitVec 5
  delay : Nat
  lateStart : Bool
  coincident : Bool
  queued : Bool
  runs : List CarRun
  /-- Frame versions latched (R181), values (R207), channels with a late seal (R182). -/
  vers : List (BitVec 5 × List Byte)
  vals : List (BitVec 5 × Val)
  /-- Values produced by CONVERT and AUX alone, the inputs of CORRECT (R222). -/
  raws : List (BitVec 5 × Val)
  late : List (BitVec 5)
  revA : Bool
  revB : Bool
  /-- The frame was cut short, and the reason of a MARK that could not start (R211). -/
  cut : Bool
  /-- Cut by a drift fail: what still runs of it finishes on the bypass clock, with coarse stamps, and no qtick of it runs (R141, R176). -/
  slow : Bool
  markFail : Option (Nat × Stamp)
  nFailed : Nat
  qtick : Nat
  /-- The sync qtick after which a free-run successor aligns (R204). -/
  syncAt : Option Nat
  /-- Channels sealed in the last qtick before the body end, with the copies they had: such a seal registers at the body end (R176). -/
  seals : List (BitVec 5 × List Byte)
deriving DecidableEq, Repr

/-- Triggers accepted for one frame that has not started (R198): codes, stamp of the lowest, how it starts. -/
structure Await where
  code : BitVec 5
  stamp : Stamp
  /-- Started by a queued trigger, or with HF not locked: LATE_START. -/
  lateStart : Bool
  coincident : Bool
  queued : Bool
  /-- Waits for lock. -/
  needLock : Bool
  /-- Qtick 0 as an HF counter value (Table 10.6); none until a lock gives it. -/
  base : Option Nat
  /-- A free-run continuation: its delay is 0 (R198). -/
  cont : Bool
  /-- The registration qtick, in which a further trigger joins (R202); none while HF is not locked. -/
  reg : Option Nat
  /-- Channels sealed in the last qtick before qtick 0, with the copies they had: such a seal registers at qtick 0 (R176). -/
  seals : List (BitVec 5 × List Byte)
  /-- The target of a LATE TT_START among its triggers: the delay counts from there (R122, R198). -/
  lateFrom : Option Stamp
  /-- Its triggers, each of which raises source 46 where the frame starts no more (R142, R203); none of a continuation. -/
  trigs : List (Nat × Stamp)
  /-- The sync qtick of a SYNC that registered while the frame was awaited: its free-run successor aligns to it (R204). -/
  syncAt : Option Nat
deriving DecidableEq, Repr

/-- A queued trigger (R201, R202): its code and stamp, whether several coincided, the qtick it registered in; none while HF is not
locked; the target of a LATE TT_START among them (R122); and the triggers it stands for (R142). -/
structure Queued where
  code : BitVec 5
  stamp : Stamp
  many : Bool
  reg : Option Nat
  lateFrom : Option Stamp
  trigs : List (Nat × Stamp)
deriving DecidableEq, Repr

/-- An event-log record that reports a trigger: its address, its source and the stamp it would carry alone (R252). -/
structure LogMark where
  addr : Nat
  source : Nat
  own : Stamp
deriving DecidableEq, Repr

/-- The records of the triggers that registered for one frame in one qtick (R202, R252). -/
structure TrigGroup where
  qtick : Nat
  recs : List LogMark
deriving DecidableEq, Repr

/-- Timetables, frames and results (10). -/
structure Tt where
  ctl : Word
  startSec : Word
  startFrac : Word
  startChk : Bool
  instA : Option Image
  instB : Option Image
  active : Bool
  activeValid : Bool
  swPend : Option Bool
  halted : Bool
  protHit : Bool
  frames : BitVec 16
  frame : Option Frame
  await : Option Await
  /-- A queued trigger (R201), and the event-log records of the triggers that registered last for a frame (R252). -/
  queued : Option Queued
  group : Option TrigGroup
  /-- The HF counter of the last commit that changed an output-format entry, and the bytes it replaced (R234). -/
  fmtWas : Option (Nat × List Host.Cell)
  freeRun : Bool
deriving DecidableEq, Repr

/-- The result ring (10). -/
structure Res where
  head : BitVec 9
  tail : BitVec 9
  ovf : Nat
  settleDrop : Nat
  seq : BitVec 16
  cfg : Word
deriving DecidableEq, Repr

/-- The analogue output (14). -/
structure Out where
  code : BitVec 16
  staged : BitVec 16
  cfg : Word
  /-- The span being driven, and kticks left of a span-change interval (R270); waiting for a DAC clock after it. -/
  span : BitVec 2
  ivl : Option Nat
  safeWait : Bool
  gen : Word
  g : Nat
  dirUp : Bool
  lfsr : BitVec 23
  /-- The code the modulator holds, and the output code and VDD in mV at the last DAC clock, whose level HOLD keeps, with the ktick edges
  since then (R267). -/
  taken : BitVec 16
  lastOut : Nat
  lastVdd : Nat
  hold : Nat
  lowHr : Bool
  openLatch : Bool
  recBad : Bool
  fault : Bool
  held : Bool
  clamp : Bool
  failCnt : Nat
  /-- Kticks for which the DAC clock still runs after an alarm's aout action in NAP or IDLE (R268). -/
  wakeK : Nat
  /-- The code of an AOUT_SET in its first 4 qticks, with the HF counter at which it applies and whether the limit changed it (R268). -/
  due : Option (Nat × BitVec 16 × Bool)
  /-- The last writer of the code: its qtick, while HF is locked, and its rank in R269. -/
  lastAt : Option Nat
  lastRank : Nat
  /-- DAC clocks left to the generator's next update (R274), counted from the HF counter of a DAC clock; none while none runs on a locked
  HF clock. -/
  genCnt : Nat
  genRef : Option Nat
  /-- While the HFRC clocks the DAC (R274): whether it does, and since before the last ktick edge; the most DAC clocks it can have given,
  up to the next ktick edge, and the least, up to the last, less those of its updates, in units of 1/2097152; and the free counts of them
  drawn so far. -/
  genHfrc : Bool
  genWhole : Bool
  genRoom : Nat
  genLow : Nat
  genDraw : Nat
deriving DecidableEq, Repr

/-- A ledger snapshot to be written as a record (Table 15.2). -/
structure LdgRec where
  stamp : Stamp
  seq : BitVec 16
  kind : Nat
  flags : Byte
  lap : BitVec 16
  run : List (BitVec 64)
  cnt : List Word
  refused : Nat
  ivlStart : Word
  srcSeq : BitVec 16
  wfail : Nat
  cause : Nat
deriving DecidableEq, Repr

/-- A lap or checkpoint command waiting for its record (R289): op, tag. -/
structure LdgCmd where
  lap : Bool
  tag : Byte
deriving DecidableEq, Repr

/-- A ledger record in the course of its write: pages written, whether a page failed its verify, the commands it answers. -/
structure LdgJob where
  snap : LdgRec
  pages : Nat
  bad : Bool
  cmds : List LdgCmd
deriving DecidableEq, Repr

/-- Requests registered for the next instant (R281, R283, R289). -/
structure LdgReq where
  lap : Bool
  zero : Bool
  ckpt : Bool
  interval : Bool
  short : Bool
  timeSet : Bool
  cut : Bool
  cmds : List LdgCmd
deriving DecidableEq, Repr

/-- The last snapshot instant: its qtick, its occasions, and the sequence of its record (R280, R281). -/
structure LdgInst where
  qtick : Nat
  req : LdgReq
  seq : BitVec 16
deriving DecidableEq, Repr

/-- The ledger (15). -/
structure Ldg where
  ctl : Word
  run : List (BitVec 64)
  cnt : List Word
  lap : BitVec 16
  ivlStart : Word
  /-- Sequence of the next record, seq and kind of the newest valid one (LDG_STAT). -/
  seq : BitVec 16
  newSeq : BitVec 16
  newKind : BitVec 4
  restored : Bool
  empty : Bool
  wfail : Bool
  /-- The qtick in which wfail was last set: a W1C write of that qtick leaves it set (R12). -/
  wfailAt : Option Nat
  skipped : Nat
  refused : Nat
  wfailCnt : Nat
  /-- src_seq of a RESUME record: the seq of the record the last recovery restored (R287). -/
  srcSeq : BitVec 16
  /-- Second ticks since the last record, and whether a LEDGER_ADD has added since it (R283). -/
  sinceRec : Nat
  added : Bool
  /-- The interval in progress is short (R282). -/
  short : Bool
  /-- Direct commands committed and not yet registered: lap or checkpoint, zeroing, tag. -/
  wait : List (LdgCmd × Bool)
  /-- Lap requests of alarms and inputs that registered where no snapshot can be taken yet: in a MEAS reset, or while a recovery waits. -/
  laps : Nat
  /-- A CHECKPOINT record is owed for a write of en from 1 to 0 (R288). -/
  offPend : Bool
  /-- The last instant, while HF is locked: what registers later in its qtick belongs to it (R280). -/
  inst : Option LdgInst
  job : Option LdgJob
  jobs : List LdgJob
  /-- A recovery waits for the records still to be written, with the cause of its RESUME record (R287, Table 18.5). -/
  recovers : Option Nat
deriving DecidableEq, Repr

/-- One physical NV page (R291, R293): data, trailer, and what a decode of its words finds. -/
structure NvPage where
  data : List Byte
  check : BitVec 16
  kind : Byte
  gen : Byte
  ecc : Ecc
deriving DecidableEq, Repr

/-- A clear journal record (Table 16.4): state 1 RUNNING, 2 SUSPENDED, 0 none. -/
structure JRec where
  jseq : BitVec 16
  state : Byte
  cause : Byte
  first : Nat
  count : Nat
  next : Nat
  sec : Word
deriving DecidableEq, Repr

/-- A page write the conductor owes the array itself (R294, R296, R297). -/
inductive NvTask where
  /-- The rewrite of a page whose read corrected a word. -/
  | scrub (page : Nat)
  /-- The count of a physical page in the health table; with it NV_STAT may name a worn page. -/
  | count (phys n : Nat) (worn : Option Nat)
  /-- Step 1 of a relocation: a page's data to spare 448 + k, from the old physical page. -/
  | spare (page k old : Nat)
  /-- An entry of the relocation map. -/
  | entry (k value : Nat)
deriving DecidableEq, Repr

/-- The NV page operation in progress (R294): whether it belongs to a ledger record or to the running command, whether a
reset has taken its owner (R343), its logical page, what it writes: kind, gen and data, none for a read; and the array's own task it
carries out, if it does one. -/
structure NvOp where
  ledger : Bool
  orphan : Bool
  page : Nat
  write : Option (Byte × Byte × List Byte)
  task : Option NvTask
deriving DecidableEq, Repr

/-- The non-volatile array (16). -/
structure Nv where
  /-- Physical pages that differ from the shipped CLEARED page, by ascending physical page; pages 10 to 15 hold the relocation map and
  the health table (Table 16.3). -/
  pages : List (Nat × NvPage)
  op : Option NvOp
  /-- The page writes the array owes itself, first in, first out. -/
  todo : List NvTask
  /-- The journal has been read in this main start (Table 4.6); a clear runs. -/
  susp : Bool
  running : Bool
  spares : Nat
  wearPage : Nat
  wear : Bool
  unc : Bool
  noSpare : Bool
  /-- NV_SUSPEND commands waiting for the page boundary: their tags (R300). -/
  suspend : List Byte
deriving DecidableEq, Repr

/-- A command held by the conductor (R330). -/
structure Cmd where
  op : Nat
  tag : Byte
  a0 : Word
  a1 : Word
  a2 : Word
  auto : Bool
deriving DecidableEq, Repr

/-- What a discovery job has measured so far (Table 17.2): its LEAK in pA, its ARM in units of 2 ohms, its balance. -/
structure DiscFound where
  leakPa : Int
  zp : BitVec 16
  zn : BitVec 16
  balance : Int
deriving DecidableEq, Repr

/-- What a discovery job has found so far (17); of its hold's three measurements, how many are over (R322). -/
structure DiscJob where
  port : BitVec 2
  teds : List Teds
  mine : Option Teds
  ambiguous : Bool
  data : DiscFound
  done : Nat
  leak : Bool
  slot : Option Nat
  flags : BitVec 17
deriving DecidableEq, Repr

/-- Where the running command stands. -/
inductive Job where
  /-- Started, its row not yet carried out. -/
  | fresh
  /-- Waits for the frame boundary at which its hold begins; holds and measures. -/
  | waitHold
  | holding
  /-- An NV_READ or NV_WRITE with pages left: pages done, the masks it gathers, and what the reads met. -/
  | pages (todo : List Nat) (done : Nat) (data clear : BitVec 16) (anyUnc anyBad : Bool)
  /-- NV_CLEAR, NV_RESUME or NV_ABANDON: pages left, pages written, the journal record it stands at (0 RUNNING, 1 the pages,
  2 the end, 3 SUSPENDED by NV_SUSPEND, 4 abandoned, 5 SUSPENDED by the watchdog, 6 the write of a page that NV_RESUME has read),
  the range, SEC at its start, and an uncorrectable word met. -/
  | clear (todo : List Nat) (done stage first count : Nat) (sec : Word) (unc : Bool)
  /-- A config save: bytes of the pages left to write, gen, the new save_count, pages done. -/
  | save (todo : List (Nat × List Byte)) (gen : Byte) (count : Nat) (done : Nat)
  /-- A config image read and checked, awaiting its frame boundary. -/
  | restore
  /-- Discovery: 0 at the identification line (step 2), 1 identification read, 2 holding since an HF counter value, 3 installing with pages left. -/
  | disc (d : DiscJob) (stage : Nat) (left : Nat)
  /-- Slot binding with pages left. -/
  | bind (slot : Nat) (left : Nat)
  /-- Cut by the watchdog, with its detail word: its record awaits the ledger's (R341). -/
  | cut (detail : Word)
deriving DecidableEq, Repr

/-- The conductor (18). -/
structure Cond where
  arg0 : Word
  arg1 : Word
  arg2 : Word
  queue : List Cmd
  running : Option (Cmd × Job)
  /-- SWITCH_TT commands awaiting the boundary: their tags (R195); completions of them due during a watchdog reset. -/
  switches : List Byte
  switchDone : List (Byte × Option Bool)
  head : BitVec 5
  tail : BitVec 5
  seq : Byte
  ovf : Nat
  /-- The conductor runs; kticks since its last watchdog service (R340); it awaits its restart (R341). -/
  awake : Bool
  wdog : Nat
  inReset : Bool
  /-- The SHIP record has been written: later commands are refused (R50). -/
  shipped : Bool
deriving DecidableEq, Repr

/-- A bridge port (17): state of Table 17.1, readings in a row, binding, installed table, override, last report. -/
structure Port where
  state : BitVec 3
  present : Nat
  absent : Nat
  slot : Option Nat
  override : Bool
  table : Option (List Byte)
  installing : Bool
  /-- The TEDS device taken by the port. -/
  taken : Option (BitVec 64)
  report : Option (List Byte)
  detail : Word
  /-- The automatic jobs that wait outside the full queue, one for each attach (R321). -/
  jobWait : Nat
  /-- The X32 edge of the slot whose reading has been taken: a slot gives one (R316). -/
  slotAt : Option Nat
deriving DecidableEq, Repr

/-- Discovery (17). -/
structure Disc where
  ports : List Port
  /-- port_en as it applies to the sentinels (R315). -/
  en : BitVec 4
deriving DecidableEq, Repr

/-- Self-calibration (16): tap map, opaque trims, valid bits, CAL_QUALITY and the holds in force. -/
structure Cal where
  map : List Nat
  modTrim : List Byte
  evtTrim : List Byte
  calibrated : BitVec 3
  quality : Word
  /-- Modulators M0 to M4 held (R307, R322, R347), a discovery job's pair, A or B (R322), both EXC DAC channels by test 6 of a SELFTEST, which
  disconnects their pins (R347), inputs EV0 to EV5 and SYNC (R311). -/
  holdMod : BitVec 5
  holdPair : BitVec 2
  holdExc : Bool
  holdEv : BitVec 7
deriving DecidableEq, Repr

/-- The whole machine, and the queue of commands that wait. -/
structure State where
  pins : Pins
  pwr : Pwr
  sys : Sys
  rtc : Rtc
  alm : Alm
  hif : Hif
  evt : Evt
  evin : Evin
  clk : Clk
  afe : Afe
  ros : Ros
  tt : Tt
  res : Res
  out : Out
  ldg : Ldg
  nv : Nv
  cond : Cond
  disc : Disc
  cal : Cal
  /-- The mapped SRAM and the always-on RAM, 0x0100 to 0x7BFF, in canonical form (Table 4.1): an unlisted byte is 0x00. -/
  mem : List Host.Cell
  /-- The counter of the model's free draws (no field of the manual's). -/
  free : Nat
  /-- The commands that wait, first in, first out. -/
  pending : List Instr
deriving DecidableEq, Repr

/-- The typical driver of Table 19.7 (DESIGN CHOICE, log entry 72). -/
def ExcPart.typical : ExcPart := { vGain := 0, vOff := 0, vDrift := 0, iGain := 0, iOff := 0, iLim := 12000 }

/-- The typical part of Tables 19.6 to 19.8, 19.10 and 19.11 (DESIGN CHOICE, log entry 72). -/
def Part.typical : Part :=
  { vswErr := 0, warnGap := 150, cmpOff := 25, release := 1500, termErr := 0, vRef := 1200000, refDrift := 0, tempErr := 0,
    excA := ExcPart.typical, excB := ExcPart.typical, v0Gain := 0, i0Gain := 0, vOff := 0, iOff := 0 }

/-- Supplies of the model's reset (DESIGN CHOICE, log entry 1), pins at their unused levels. -/
def Pins.reset : Pins :=
  { vdd := 3000, vbat := 3000, vddio := 3000, vddioOk := true, ev := 0, sync := false, waken := true, dieTemp := 0,
    part := Part.typical }

/-- Power registers at their reset values (Tables 2.9 to 2.13), main domain on. -/
def Pwr.reset : Pwr :=
  { ctl := 0x11, eff := 0x11, trickle := 0x40, trickleOn := false, vbatFull := false, onVbat := false, wantVbat := false, sideVbat := false,
    castlings := [], castleCount := 0, firstValid := false, firstDir := false, firstSec := 0, firstFrac := 0,
    clearPend := false, aonCold := true, coldNew := false, aonOn := true, mainOn := true, ranVbat := false, warn := false, warnAbove := 0,
    ship := false, shipVddLow := false, shipIn := none }

/-- Main reset just released in the first main start after an AON cold start (log entry 1). -/
def Sys.reset : Sys :=
  { phase := .released, earlyWr := false, cfgState := 3, pstate := .run, measRst := false, cause := 0x003, wdogCount := 0, causeNew := 0, causeAt := 0,
    lostCmds := 0, bootCold := true, soft := false, powerOn := true, startUnc := false, sramDone := false, cfgDone := false, x32Run := false }

/-- RTC at its reset values (Tables 5.2 to 5.9): time_invalid set, the count not yet started. -/
def Rtc.reset : Rtc :=
  { sec := 0, presc := 0, started := false, ctl := 0x2, halted := false, timePend := none, shiftPend := none,
    shiftShown := false, offset := 0, dst := false, trim := 0, tc := 0, tcHeld := 0, sat := false, winEdge := 0, winCount := 0,
    trimT := 0, trimAcc := 0, conv := none, edges := 0 }

def Alm.reset : Alm :=
  { alm0 := 0, alm1 := 0, alctl := 0, chk0 := false, chk1 := false, count := 0, cdctl := 0, tsel := 0, loadPend := none,
    sub60 := 0 }

def Hif.reset : Hif :=
  { crcEn := false, i3c := false, addrHi := false, filtOn := true, ibiEn := false, dynAddr := 0, err := 0, errCount := 0,
    lastAddr := 0, ptr := 0, protoErr := false, armSoft := false, patternSeen := false, hdr := false, header := false, txn := none,
    reply := [], acks := [], served := 0, ibiReq := false, sinceAck := none, nacked := false, busIdle := 33 }

/-- No latch set, every source masked but 56 (Tables 13.3 to 13.6), the always-on copy 0xFF (R258). -/
def Evt.reset : Evt := { stat := 0, mask := 0xFEFFFFFFFFFFFFFF, copy := 0xFF, now := 0, nowAt := 0, nowA := 0 }

def Evin.reset : Evin :=
  { incfg := 0, level := 0, syncLevel := false, st := List.replicate 6 0, conf := List.replicate 7 none, head := 0,
    tail := 0, ovf := 0, seq := 0, syncHeld := false, rise := none, handAt := none, fresh := 0, cmpAt := none, recs := none }

/-- The four plans at their defaults (Table 7.2). -/
def Plan.defaults : List Plan :=
  [⟨16, 25000, false⟩, ⟨12, 32000, false⟩, ⟨15, 26000, false⟩, ⟨10, 38400, false⟩]

def Clk.reset : Clk :=
  { src := 0, limits := 0x19006402, spread := 0x00640081, active := 0, view := 0, plans := Plan.defaults,
    bands := List.replicate 5 none, state := .off, ref := .none, bypass := true, episode := true,
    warn := false, accErr := 0, retries := 0, retryIn := none, verify := false, verifying := false, acq := none, drift := 0,
    q := none, qb := none, periods := 0, lastEdge := 0, qHist := [], runEdge := false, lastRise := 0, winQ := 0,
    hf := 0, qbase := 0, caps := [], runFrom := 0, spreadFault := false, spreadNew := none,
    spreadNow := .off, spreadFrom := 0 }

def Pair.reset : Pair :=
  { on := false, current := false, code := 0, drive := false, presettle := none, rev := false, revFresh := true,
    senseLost := false }

/-- The input stages before the first settle-start tick: each modulator on its own port, gain 1, ratiometric (DESIGN CHOICE, log entry
77). -/
def Stage.initial : List Stage := (List.range 4).map (fun k => { port := BitVec.ofNat 2 k, pga := 0, ref := false })

def Afe.reset : Afe :=
  { ctl := 0x7030, eff := 0x7030, diag := 0, diagNew := 0, diagAt := 0,
    pairA := Pair.reset, pairB := Pair.reset, stages := Stage.initial }

def Ros.reset : Ros :=
  { sealed := List.replicate 32 (List.replicate 32 0), depot := [], lastConv := List.replicate 32 none,
    lastCorr := List.replicate 32 none, ahead := false }

def Tt.reset : Tt :=
  { ctl := 0x2, startSec := 0, startFrac := 0, startChk := false, instA := none, instB := none, active := false,
    activeValid := false, swPend := none, halted := false, protHit := false, frames := 0, frame := none, await := none,
    queued := none, group := none, fmtWas := none, freeRun := false }

def Res.reset : Res := { head := 0, tail := 0, ovf := 0, settleDrop := 0, seq := 0, cfg := 0 }

def Out.reset : Out :=
  { code := 0, staged := 0, cfg := 0, span := 0, ivl := none, safeWait := false, gen := 0, g := 0, dirUp := true,
    lfsr := 0x7FFFFF, taken := 0, lastOut := 0, lastVdd := 0, hold := 0, lowHr := false, openLatch := false, recBad := false, fault := false,
    held := false, clamp := false, failCnt := 0, wakeK := 0, due := none, lastAt := none,
    lastRank := 0, genCnt := 0, genRef := none, genHfrc := false, genWhole := false, genRoom := 0, genLow := 0,
    genDraw := 0 }

def Ldg.reset : Ldg :=
  { ctl := 0x004A03C0, run := List.replicate 8 0, cnt := List.replicate 8 0, lap := 0, ivlStart := 0, seq := 0,
    newSeq := 0, newKind := 0, restored := false, empty := false, wfail := false, wfailAt := none, skipped := 0, refused := 0,
    wfailCnt := 0, srcSeq := 0, sinceRec := 0, added := false, short := true, wait := [], laps := 0, offPend := false, inst := none, job := none,
    jobs := [], recovers := none }

/-- An array as shipped: every page CLEARED, nothing moved, nothing journalled (R291). -/
def Nv.reset : Nv :=
  { pages := [], op := none, todo := [], susp := false,
    running := false, spares := 0, wearPage := 0, wear := false, unc := false, noSpare := false, suspend := [] }

def Cond.reset : Cond :=
  { arg0 := 0, arg1 := 0, arg2 := 0, queue := [], running := none, switches := [], switchDone := [], head := 0, tail := 0,
    seq := 0, ovf := 0, awake := false, wdog := 0, inReset := false, shipped := false }

def Port.reset : Port :=
  { state := 0, present := 0, absent := 0, slot := none, override := false, table := none, installing := false,
    taken := none, report := none, detail := 0, jobWait := 0, slotAt := none }

def Disc.reset : Disc := { ports := List.replicate 4 Port.reset, en := 0 }

/-- The default tap map 32k + 16 (R247) and trims 0 (R304). -/
def Cal.reset : Cal :=
  { map := [16, 48, 80, 112, 144, 176, 208, 240], modTrim := List.replicate 45 0, evtTrim := List.replicate 7 0,
    calibrated := 0, quality := 0, holdMod := 0, holdPair := 0, holdExc := false, holdEv := 0 }

/-- The block right after main reset is released in the first main start after an AON cold start: every register at its
reset value, nothing listed in memory, nothing pending (log entry 1). -/
def State.reset : State :=
  { pins := Pins.reset, pwr := Pwr.reset, sys := Sys.reset, rtc := Rtc.reset, alm := Alm.reset, hif := Hif.reset,
    evt := Evt.reset, evin := Evin.reset, clk := Clk.reset, afe := Afe.reset, ros := Ros.reset, tt := Tt.reset,
    res := Res.reset, out := Out.reset, ldg := Ldg.reset, nv := Nv.reset, cond := Cond.reset, disc := Disc.reset,
    cal := Cal.reset, mem := [], free := 0, pending := [] }

end Sys2Proof.Machine
end

