-- ==== Sys2Proof/Machine/Ops.lean ====
section
/-! DEFINITION. The named operations every meaning is built from: fields of a register word, little-endian bytes, the byte
memory in its canonical form, and the liveness of the domains. -/

namespace Sys2Proof.Machine

/-! ## Fields of a word (R8, R9) -/

/-- Bits [lo + len - 1 : lo] of a word as a number. -/
def fld (w : Word) (lo len : Nat) : Nat := w.toNat / 2 ^ lo % 2 ^ len

/-- Bit i of a word. -/
def bitOf (w : Word) (i : Nat) : Bool := w.getLsbD i

/-- The bits of `mask` taken from `new`, the others from `old`. -/
def maskIn (mask old new : Word) : Word := (old &&& ~~~mask) ||| (new &&& mask)

/-- A word whose bits [lo + len - 1 : lo] are the low bits of v and whose other bits are 0. -/
def put (lo len v : Nat) : Word := BitVec.ofNat 32 (v % 2 ^ len * 2 ^ lo)

/-- The word with bits [lo + len - 1 : lo] replaced by the low bits of v. -/
def setFld (w : Word) (lo len v : Nat) : Word := maskIn (put lo len (2 ^ len - 1)) w (put lo len v)

/-- A word from a number, modulo 2^32. -/
def word (n : Nat) : Word := BitVec.ofNat 32 n

/-- A two's complement reading of the low `len` bits of n. -/
def signed (len n : Nat) : Int :=
  if n % 2 ^ len < 2 ^ (len - 1) then (n % 2 ^ len : Nat) else (n % 2 ^ len : Nat) - (2 ^ len : Nat)

/-- The two's complement code of an integer in `len` bits. -/
def code (len : Nat) (v : Int) : Nat := (v % (2 ^ len : Nat)).toNat

/-- A number folded into its tolerance band. -/
def within (lo hi x : Int) : Int := max lo (min hi x)

/-- A counter that stops at its bound. -/
def satAdd (bound n k : Nat) : Nat := min bound (n + k)

/-- Replaces element i of a list. -/
def setAt {α : Type} (l : List α) (i : Nat) (a : α) : List α := l.set i a

/-! ## Little-endian bytes (R9) -/

/-- A number from its bytes, the first the least significant. -/
def leNat : List Byte → Nat
  | [] => 0
  | b :: r => b.toNat + 256 * leNat r

/-- The low k bytes of a number, the least significant first. -/
def leBytes : Nat → Nat → List Byte
  | 0, _ => []
  | k + 1, n => BitVec.ofNat 8 n :: leBytes k (n / 256)

/-- The four bytes of a word. -/
def wordBytes (w : Word) : List Byte := leBytes 4 w.toNat

/-- The word at the head of a list of bytes; missing bytes read 0. -/
def bytesWord (l : List Byte) : Word := word (leNat (l.take 4))

/-- The byte at a position; 0 past the end. -/
def byteAt (l : List Byte) (i : Nat) : Byte := l.getD i 0

/-- The bytes of a list cut into words. -/
def wordsOf : Nat → List Byte → List Word
  | 0, _ => []
  | k + 1, l => bytesWord l :: wordsOf k (l.drop 4)

/-! ## The byte memory (Table 4.1) -/

/-- The byte at an address; an unlisted byte is 0x00. -/
def memByte : List Host.Cell → Nat → Byte
  | [], _ => 0
  | (k, v) :: r, a => if k = a then v else memByte r a

/-- Stores one byte, keeping the canonical form. -/
def memSet : List Host.Cell → Nat → Byte → List Host.Cell
  | [], a, v => if v = 0 then [] else [(a, v)]
  | (k, w) :: r, a, v =>
    if a < k then (if v = 0 then (k, w) :: r else (a, v) :: (k, w) :: r)
    else if a = k then (if v = 0 then r else (a, v) :: r)
    else (k, w) :: memSet r a v

/-- Stores bytes at ascending addresses. -/
def memStore (m : List Host.Cell) : Nat → List Byte → List Host.Cell
  | _, [] => m
  | a, b :: r => memStore (memSet m a b) (a + 1) r

/-- k bytes from an address. -/
def memLoad (m : List Host.Cell) (a : Nat) : Nat → List Byte
  | 0 => []
  | k + 1 => memByte m a :: memLoad m (a + 1) k

/-- The word at an address. -/
def memWord (m : List Host.Cell) (a : Nat) : Word := word (leNat (memLoad m a 4))

/-- Clears the bytes of lo up to, not including, hi. -/
def memClear (m : List Host.Cell) (lo hi : Nat) : List Host.Cell :=
  m.filter (fun c => !(decide (lo ≤ c.1) && decide (c.1 < hi)))

/-- Canonical form: addresses strictly rising, no listed byte equal to the unlisted one. -/
def memWfFrom : Option Nat → List Host.Cell → Bool
  | _, [] => true
  | lo, (k, v) :: r =>
    (match lo with | none => true | some b => decide (b < k)) && decide (v ≠ 0) && memWfFrom (some k) r

/-- The canonical form of a memory. -/
def Memory.wf (m : List Host.Cell) : Bool := memWfFrom none m

/-- Bytes stored to the mapped SRAM or always-on RAM. -/
def store (a : Nat) (bs : List Byte) (s : State) : State := { s with mem := memStore s.mem a bs }

/-- Words stored at ascending addresses. -/
def storeWords (a : Nat) (ws : List Word) (s : State) : State := store a (ws.flatMap wordBytes) s

/-! ## Domains (R15, R27, R84) -/

/-- The main domain is out of main reset. -/
def mainUp (s : State) : Bool := s.pwr.mainOn && s.sys.phase != .off && s.sys.phase != .held

/-- SYS_STAT.main_ready (Table 4.9). -/
def mainReady (s : State) : Bool := s.sys.phase == .ready

/-- The conductor has been started by the main start and is not held in a watchdog reset (Table 4.6). -/
def condRuns (s : State) : Bool := mainUp s && s.sys.phase != .released && !s.cond.inReset

/-- The HF clock runs, acquiring or locked (Table 7.7). -/
def hfRunning (s : State) : Bool := s.clk.state == .acq || s.clk.state == .locked

/-- The HF clock is locked (R19). -/
def hfLocked (s : State) : Bool := s.clk.state == .locked

/-- Applies f when a condition holds. -/
def when (c : Bool) (f : State → State) (s : State) : State := if c then f s else s

/-- Folds an operation over a list, in order. -/
def forAll {α : Type} (l : List α) (f : α → State → State) (s : State) : State := l.foldl (fun t a => f a t) s

end Sys2Proof.Machine
end

