-- ==== Sys2Proof/Machine/Calendar.lean ====
section
/-! DEFINITION. The calendar view and its inverse (R109, R110), the TC table and the trim (R103, R107). -/

namespace Sys2Proof.Machine

/-- leap(Y) of R110. -/
def leap (y : Nat) : Bool := (y % 4 == 0 && y % 100 != 0) || y % 400 == 0

/-- before[1..12] of R110; 0 elsewhere. -/
def daysBefore (m : Nat) : Nat := [0, 0, 31, 59, 90, 120, 151, 181, 212, 243, 273, 304, 334].getD m 0

/-- Days from 2000-01-01 to the first day of year 2000 + y, the year terms of R110. -/
def yearDays (y : Nat) : Nat := 365 * y + (y + 3) / 4 - (y + 99) / 100 + (y + 399) / 400

/-- Days from 2000-01-01 to the first of a month of year 2000 + y. -/
def monthDays (y m : Nat) : Nat := yearDays y + daysBefore m + (if m ≥ 3 && leap (2000 + y) then 1 else 0)

/-- The last local second of the calendar range, 2135-12-31T23:59:59 (R109). -/
def lastLocal : Int := 4291747199

/-- The greatest k below a bound whose p holds, 0 if none. -/
def lastWith (p : Nat → Bool) : Nat → Nat
  | 0 => 0
  | k + 1 => if p k then k else lastWith p k

/-- RTC_CAL0 and RTC_CAL1 of a local second L (R109). -/
def calendarOf (l : Int) : Word × Word :=
  if l < 0 ∨ l > lastLocal then (0, put 24 1 1)
  else
    let t := l.toNat
    let d := t / 86400
    let r := t % 86400
    let y := lastWith (fun k => decide (yearDays k ≤ d)) 136
    let m := lastWith (fun k => decide (1 ≤ k) && decide (monthDays y k ≤ d)) 13
    (put 0 6 (r % 60) ||| put 8 6 (r / 60 % 60) ||| put 16 5 (r / 3600) ||| put 24 3 ((d + 5) % 7 + 1),
     put 0 5 (d - monthDays y m + 1) ||| put 8 4 m ||| put 16 8 y)

/-- RTC_LOCAL.offset as quarter-hours. -/
def offsetOf (o : BitVec 7) : Int := signed 7 o.toNat

/-- The calendar conversion of R110: the SEC a written pair stands for, or the reject cause. -/
def calendarSec (cal0 cal1 : Word) (offset : Int) : Nat ⊕ Word :=
  let year := fld cal1 16 8
  let month := fld cal1 8 4
  if year ≥ 136 then .inl 1
  else if month = 0 ∧ year = 0 then .inl 1
  else
    let y := if month = 0 then year - 1 else if month ≥ 13 then year + 1 else year
    let m := if month = 0 then 12 else if month ≥ 13 then month - 12 else month
    if y ≥ 136 then .inl 1
    else
      let days : Int := (monthDays y m : Int) + fld cal1 0 5 - 1
      let l : Int := days * 86400 + fld cal0 16 5 * 3600 + fld cal0 8 6 * 60 + fld cal0 0 6
      if l > lastLocal then .inl 1
      else if l - 900 * offset < 0 then .inl 2
      else .inr (word (l - 900 * offset).toNat)

/-- Entry i of the TC table (R108). -/
def tcEntry (m : List Host.Cell) (i : Nat) : Int := signed 12 (leNat (memLoad m (0x100 + 2 * i) 2))

/-- TC of a temperature (R107). -/
def tcOf (m : List Host.Cell) (temp : BitVec 12) : Int :=
  let p := min (max (signed 12 temp.toNat + 640) 0) 1920
  if p = 1920 then tcEntry m 15
  else
    let i := p.toNat / 128
    let f : Int := p.toNat % 128
    tcEntry m i + ((tcEntry m (i + 1) - tcEntry m i) * f + 64) / 128

/-- sat12 of R103, and whether it limits. -/
def sat12 (v : Int) : Int × Bool := (min (max v (-2048)) 2047, decide (v < -2048) || decide (2047 < v))

/-- The length of a trim window in X32 edges (R103). -/
def windowEdges : Nat := 2097152

end Sys2Proof.Machine
end

