-- ==== Sys2Proof/Machine/Flags.lean ====
section
/-! DEFINITION. The 64 event sources, their masks, IRQN and the in-band interrupt (R254 to R260), and the status byte. -/

namespace Sys2Proof.Machine

/-- Bit n of a 64-bit set. -/
def src (n : Nat) : BitVec 64 := BitVec.ofNat 64 (2 ^ n)

/-- The sources of the always-on domain, 8 to 15 (R254). -/
def aonSources : BitVec 64 := 0xFF00

/-- The qtick of the present moment: the HF counter at the edge of the qtick grid that begins it. -/
def qtickNow (s : State) : Nat := s.clk.hf - (s.clk.hf - s.clk.qbase) % 8

/-- The sources, of one domain or the other, that a condition raises now: 8 to 15 always, the others while the main domain is out of
main reset (R254). -/
def raisable (n : Nat) (s : State) : BitVec 64 :=
  if mainUp s || (decide (8 ≤ n) && decide (n ≤ 15)) then src n else 0

/-- Latches a source when a condition holds, and notes the moment (R12, R254). -/
def raiseIf (c : Bool) (n : Nat) (s : State) : State :=
  let b := if c then raisable n s else 0
  { s with evt := { s.evt with
      stat := s.evt.stat ||| b
      now := if c then (if s.evt.nowAt = qtickNow s then s.evt.now else 0) ||| b else s.evt.now
      nowAt := if c then qtickNow s else s.evt.nowAt
      nowA := s.evt.nowA ||| (b &&& aonSources) } }

/-- Latches a source (R254). -/
def raise (n : Nat) (s : State) : State := raiseIf true n s

/-- The sources that a W1C write committed now leaves set (R12): those of the always-on domain raised in the present ktick, and,
while the HF clock gives qticks, those raised in the present one. -/
def keptNow (s : State) : BitVec 64 :=
  (s.evt.nowA &&& aonSources) |||
    (if hfRunning s && s.evt.nowAt == qtickNow s then s.evt.now &&& ~~~aonSources else 0)

/-- Source n was raised in the present qtick: the W1C flag set with it stays set (R12). -/
def isNow (n : Nat) (s : State) : Bool := (keptNow s).getLsbD n

/-- A qtick noted for a flag is the present one of a running HF clock (R12). -/
def isQtick (n : Nat) (s : State) : Bool := hfRunning s && n == qtickNow s

/-- Bits of SYS_RESETCAUSE are set, and the moment is noted (R12). -/
def setCause (b : BitVec 11) (s : State) : State :=
  { s with sys := { s.sys with
      cause := s.sys.cause ||| b
      causeNew := (if s.sys.causeAt = qtickNow s then s.sys.causeNew else 0) ||| b
      causeAt := qtickNow s } }

/-- The bits of SYS_RESETCAUSE that a W1C write committed now leaves set. -/
def causeKept (s : State) : BitVec 11 := if isQtick s.sys.causeAt s then s.sys.causeNew else 0

/-- Latches several sources in one moment. -/
def raiseAll (ns : List Nat) (s : State) : State := forAll ns raise s

/-- The mask in force: after main_ready EVT_MASK; from the release of main reset until then the copy decides for sources 8
to 15 (R258). -/
def maskInForce (s : State) : BitVec 64 :=
  if mainReady s then s.evt.mask
  else (s.evt.mask &&& ~~~aonSources) ||| (s.evt.copy.setWidth 64 <<< 8)

/-- The sources pending and unmasked by EVT_STAT and EVT_MASK (R256). -/
def pendingSet (s : State) : BitVec 64 := s.evt.stat &&& ~~~s.evt.mask

/-- IRQN is low (R257, R258, R51): released in main reset and in SHIP; while the main domain is off it follows the copy. -/
def irqnLow (s : State) : Bool :=
  if s.pwr.ship then false
  else if !s.pwr.mainOn then
    s.pwr.aonOn && (s.evt.stat &&& aonSources &&& ~~~(s.evt.copy.setWidth 64 <<< 8)) != 0
  else if mainUp s then (s.evt.stat &&& ~~~maskInForce s) != 0
  else false

/-- The lowest source of a set, if any. -/
def lowestOf (b : BitVec 64) : Option Nat := (List.range 64).find? (fun n => b.getLsbD n)

/-- The number of sources of a set. -/
def countOf (b : BitVec 64) : Nat := ((List.range 64).filter (fun n => b.getLsbD n)).length

/-- A source leaves the served set when it stops being pending and unmasked (R259). -/
def trimServed (s : State) : State := { s with hif := { s.hif with served := s.hif.served &&& pendingSet s } }

/-- The device may request in-band interrupts: a dynamic address and ibi_en (R75, R259). -/
def ibiEnabled (s : State) : Bool := s.hif.i3c && s.hif.dynAddr != 0 && s.hif.ibiEn && mainUp s

/-- A pending, unmasked source lies outside the served set (R259). -/
def ibiWanted (s : State) : Bool := ibiEnabled s && (pendingSet s &&& ~~~s.hif.served) != 0

/-- The device calls for a request: for a new source, or as the reminder 32 768 kticks after the last ACK (R75, R259). -/
def ibiCalled (s : State) : Bool :=
  ibiWanted s ||
    (ibiEnabled s && pendingSet s != 0 && (match s.hif.sinceAck with | some k => decide (32768 ≤ k) | none => false))

/-- A HIF_ERR flag bit with the frame's header address (Table 3.8). -/
def hifFlag (bit : Nat) (addr : BitVec 16) (s : State) : State :=
  { s with hif := { s.hif with err := s.hif.err ||| BitVec.ofNat 8 (2 ^ bit), lastAddr := addr } }

end Sys2Proof.Machine
end

