-- ==== Sys2Proof/Machine/Stamps.lean ====
section
/-! DEFINITION. Stamps (R4 to R6, R245 to R248) and the event log (R249 to R252). -/

namespace Sys2Proof.Machine

/-- divrhe: the quotient rounded to the nearest, ties to even (R220); 0 for a divisor of 0, which no rule reaches. -/
def divrhe (a b : Int) : Int :=
  if b = 0 then 0
  else
    let n := if b < 0 then -a else a
    let d := if b < 0 then -b else b
    let q := n / d
    let r := n % d
    if 2 * r > d then q + 1
    else if 2 * r = d then (if q % 2 = 0 then q else q + 1)
    else q

/-- The count C of R114, in kticks. -/
def countOfTime (sec : Word) (presc : BitVec 15) : Nat := sec.toNat * 32768 + presc.toNat

/-- The count at present. -/
def countNow (s : State) : Nat := countOfTime s.rtc.sec s.rtc.presc

/-- The coarse stamp of the last ktick edge (R248): while halted, and before the count runs, FRAC is 0 (R99). -/
def coarseNow (s : State) : Stamp :=
  { sec := s.rtc.sec, frac := if s.rtc.halted then 0 else word (s.rtc.presc.toNat * 131072), coarse := true }

/-- The coarse stamp of a ktick count. -/
def coarseAt (sec : Word) (presc : BitVec 15) : Stamp := { sec := sec, frac := word (presc.toNat * 131072), coarse := true }

/-- Stamps can be fine: HF locked and MEAS not on the bypass clock (R142, Table 12.5). -/
def fineClock (s : State) : Bool := hfLocked s && !s.clk.bypass

/-- The coarse form of a stamp: the count after the last ktick edge (R248). -/
def Stamp.coarsen (t : Stamp) : Stamp := { t with frac := t.frac &&& 0xFFFE0000, coarse := true }

/-- The stamp of a ktick edge taken at that edge: exact while HF is locked and the clock runs (R118, R248). It has fine part 0 at an edge
whose step is 0 too, as R118, R245 and R248 say of every ktick edge, though stamps of the ktick before it are then later, which R105
excludes (DESIGN CHOICE, log entry 94). -/
def edgeStamp (s : State) : Stamp := { coarseNow s with coarse := !fineClock s || s.rtc.halted }

/-- The position of a tap code (R247). -/
def tapPos (s : State) (tap : BitVec 3) : Nat := s.cal.map.getD tap.toNat 0

/-- f_nom in kHz of a plan on a reference; the fallback runs on HFRC x 16 (R130, R131). -/
def fNomOf (ref : ClkRef) (p : Plan) : Nat :=
  match ref with
  | .fallback => 400000
  | .hfrc => p.mult.toNat * 25000
  | _ => p.mult.toNat * p.fref.toNat

/-- The plan CLK_PLAN.active names. -/
def activePlan (s : State) : Plan := s.clk.plans.getD s.clk.active.toNat ⟨0, 0, false⟩

/-- f_nom of the reference and plan in use, in kHz. -/
def fNomKHz (s : State) : Nat := fNomOf s.clk.ref (activePlan s)

/-- Absolute mode: REFIN on a plan without rel (R139). -/
def absoluteMode (s : State) : Bool := s.clk.ref == .refin && !(activePlan s).rel

/-- The last captured edge at or before a point (R245). -/
def captureBefore : List Capture → Nat → Nat → Option Capture
  | [], _, _ => none
  | c :: r, n, m => if 256 * c.n + c.m ≤ 256 * n + m then some c else captureBefore r n m

/-- The Q of a point in 1/256 HF cycles: a window's Q holds for points after its closing edge (R246). -/
def qAtPoint : Option Nat → List (Nat × Option Nat) → Nat → Option Nat
  | q, [], _ => q
  | q, (e, old) :: r, p => if e < p then q else qAtPoint old r p

/-- Q as a rational, numerator over 32 (R246): the measured Q, or f_nom/32; the nominal value where `nominal` asks for it. -/
def ratioQ (nominal : Bool) (held : Option Nat) (s : State) : Option (Int × Int) :=
  match held with
  | some q => some (q, 524288)
  | none => if nominal || absoluteMode s then some ((fNomKHz s * 1000 : Nat), 16777216) else none

/-- The fine part of a point u / 256 HF cycles after its edge (R245). -/
def finePart (u : Int) (r : Int × Int) : Nat := (min (divrhe (u * r.2) r.1) 0x1FFFF).toNat

/-- The stamp of a time point given by its HF counter value and its position within the cycle (R245, R248). A point after
the last HF cycle, while HF does not run locked, is stamped by the present count. -/
def stampAt (n m : Nat) (s : State) : Stamp :=
  if s.rtc.halted then coarseNow s
  else
    match captureBefore s.clk.caps n m with
    | none => coarseNow s
    | some c =>
      if fineClock s && decide (s.clk.runFrom ≤ c.n) then
        match ratioQ false (qAtPoint s.clk.q s.clk.qHist (256 * n + m)) s with
        | none => coarseAt c.sec c.presc
        | some r =>
          let u : Int := ((256 * n + m : Nat) : Int) - ((256 * c.n + c.m : Nat) : Int)
          { sec := c.sec, frac := word (c.presc.toNat * 131072 + finePart u r), coarse := false }
      else if decide (n < s.clk.hf) then coarseAt c.sec c.presc
      else coarseNow s

/-- The stamp of the present moment (R5, R245). -/
def nowStamp (s : State) : Stamp := if fineClock s then stampAt s.clk.hf 0 s else coarseNow s

/-- The time of an HF counter value as 2^-32 s, fine by f_nom where no Q is held (R198, log entry 14). -/
def timeAt (n : Nat) (s : State) : Nat :=
  match captureBefore s.clk.caps n 0, ratioQ true s.clk.q s with
  | some c, some r =>
    c.sec.toNat * 4294967296 + c.presc.toNat * 131072 + finePart (256 * ((n : Int) - c.n) - c.m) r
  | _, _ => (coarseNow s).sec.toNat * 4294967296 + (coarseNow s).frac.toNat

/-- A stamp as a number of 2^-32 s (R6). -/
def stampNat (t : Stamp) : Nat := t.sec.toNat * 4294967296 + t.frac.toNat

/-! ## The event log -/

/-- Flags of an event-log record (Table 12.7). -/
structure LogFlags where
  coincident : Bool := false
  late : Bool := false
  skipped : Bool := false
  trig : Bool := false
deriving DecidableEq, Repr

/-- The address of the record of an index (R251). -/
def logAt (i : BitVec 7) : Nat := 0x7000 + 16 * (i.toNat % 64)

/-- The records the log holds (R251). -/
def logHeld (s : State) : Nat := (s.evin.head - s.evin.tail).toNat

/-- The records of higher sources that the same qtick has written already: one of this source goes before them (R252). -/
def logBehind (source : Nat) (s : State) : Nat :=
  match s.evin.recs with
  | some r => min (logHeld s) (r.2.filter (fun x => decide (source < x))).length
  | none => 0

/-- The index a record of a source takes; none where it is lost to a full log, none of whose records it goes before (R251, R252). -/
def logIndex (source : Nat) (s : State) : Option (BitVec 7) :=
  if !mainUp s || (decide (64 ≤ logHeld s) && logBehind source s == 0) then none
  else some (s.evin.head - BitVec.ofNat 7 (logBehind source s))

/-- The sources of a qtick's records, in log order, with one more; a full log loses the last of them (R251, R252). -/
def logSources (source : Nat) (s : State) : Option (Nat × List Nat) :=
  s.evin.recs.map (fun r =>
    let l := if 64 ≤ logHeld s then (if logBehind source s = 0 then [] else r.2.dropLast ++ [source]) else r.2 ++ [source]
    (r.1, (l.filter (fun x => decide (x ≤ source))) ++ l.filter (fun x => decide (source < x))))

/-- The record of the index before i moves to i; the place keeps its sequence number. -/
def logPass (i : BitVec 7) (s : State) : State :=
  let a := logAt (i - 1)
  storeWords (logAt i)
    [memWord s.mem a, memWord s.mem (a + 4), memWord s.mem (a + 8),
     setFld (memWord s.mem (a + 12)) 16 16 (fld (memWord s.mem (logAt i + 12)) 16 16)] s

/-- Appends an event-log record, or counts its loss (R250, R251); only while the main domain is out of main reset. Within one qtick the
records stand in ascending source number (R252): those of higher sources move up by one place. -/
def logRecord (source : Nat) (stamp : Stamp) (detail : Word) (fl : LogFlags) (s : State) : State :=
  if !mainUp s then s
  else
    let w3 := fun (n : Nat) => put 0 6 source ||| put 6 1 stamp.coarse.toNat ||| put 7 1 fl.coincident.toNat ||| put 8 1 fl.late.toNat |||
      put 9 1 fl.skipped.toNat ||| put 10 1 fl.trig.toNat ||| put 16 16 n
    let full := decide (64 ≤ logHeld s)
    let t := { s with evin := { s.evin with
      seq := s.evin.seq + 1, recs := logSources source s, ovf := if full then satAdd 255 s.evin.ovf 1 else s.evin.ovf
      head := if full then s.evin.head else s.evin.head + 1 } }
    let t := raiseIf full 43 t
    match logIndex source s with
    | none => t
    | some p =>
      let top := if full then s.evin.head - 1 else s.evin.head
      let u := if full then t else storeWords (logAt top) [stamp.frac, stamp.sec, detail, w3 s.evin.seq.toNat] t
      if p = top ∧ !full then u
      else
        let v := forAll (List.range (top - p).toNat) (fun i => logPass (top - BitVec.ofNat 7 i)) u
        storeWords (logAt p) [stamp.frac, stamp.sec, detail, w3 (fld (memWord v.mem (logAt p + 12)) 16 16)] v

/-- A registration on a locked HF clock at a qtick, with the records of its qtick so far (R252). -/
def openRecs (q : Option Nat) (s : State) : State :=
  { s with evin := { s.evin with
      recs := match q, s.evin.recs with
        | some n, some r => if r.1 = n then some r else some (n, [])
        | some n, none => some (n, [])
        | none, _ => none } }

end Sys2Proof.Machine
end

