-- ==== Sys2Proof/Machine/Arith.lean ====
section
/-! DEFINITION. Reason codes (Table 18.4) and the exact arithmetic of the device: primitives (R220), check words (R67, R192),
the decimation chain (R158, R159), correction tables (R223 to R229), coupling (R230) and output formats (R233). -/

namespace Sys2Proof.Machine

/-! ## Reason codes (Table 18.4) -/

abbrev rOk : Nat := 0x00
abbrev rPartial : Nat := 0x01
abbrev rArgs : Nat := 0x02
abbrev rState : Nat := 0x03
abbrev rSensorGone : Nat := 0x10
abbrev rNoCal : Nat := 0x11
abbrev rDiag : Nat := 0x12
abbrev rBypass : Nat := 0x20
abbrev rUnlocked : Nat := 0x21
abbrev rDep : Nat := 0x30
abbrev rResource : Nat := 0x31
abbrev rNeighbour : Nat := 0x40
abbrev rCore : Nat := 0x41
abbrev rPower : Nat := 0x42
abbrev rCheck : Nat := 0x50
abbrev rNvUnc : Nat := 0x51
abbrev rNvSusp : Nat := 0x52
abbrev rTimeout : Nat := 0x60

/-! ## Record and value flags (Table 10.8) -/

abbrev fSettling : BitVec 16 := 0x0020
abbrev fStale : BitVec 16 := 0x0040
abbrev fFailed : BitVec 16 := 0x0080
abbrev fDescLate : BitVec 16 := 0x0100
abbrev fRefWarn : BitVec 16 := 0x0200
abbrev fCoarse : BitVec 16 := 0x0400
abbrev fOver : BitVec 16 := 0x0800
abbrev fCoincident : BitVec 16 := 0x1000
abbrev fLateStart : BitVec 16 := 0x2000
abbrev fCalHold : BitVec 16 := 0x4000
abbrev fMark : BitVec 16 := 0x8000

/-- A flag word when a condition holds. -/
def flagIf (c : Bool) (f : BitVec 16) : BitVec 16 := if c then f else 0

/-! ## Primitives (R220, R221) -/

/-- rshr: v / 2^s to the nearest integer, a half to the even neighbour. -/
def rshr (v : Int) (s : Nat) : Int :=
  if s = 0 then v
  else
    let q := v / 2 ^ s
    let r := v - q * 2 ^ s
    let h : Int := 2 ^ (s - 1)
    if r > h ∨ (r = h ∧ q % 2 = 1) then q + 1 else q

/-- v limited to lo ... hi, and whether the limit changed it. -/
def limit (lo hi v : Int) : Int × Bool :=
  if v < lo then (lo, true) else if v > hi then (hi, true) else (v, false)

/-- sat32 of Table 11.1. -/
def sat32 (v : Int) : Int × Bool := limit (-2147483648) 2147483647 v

/-- satq of Table 11.1. -/
def satq (v : Int) : Int × Bool := limit (-1073741824) 1073741824 v

/-- sat24 of R158. -/
def sat24 (v : Int) : Int := (limit (-8388607) 8388607 v).1

/-- A signed 32-bit reading of a word. -/
def int32 (w : Word) : Int := w.toInt

/-! ## Check words -/

/-- One bit of a CRC taken most significant bit first: register width w, polynomial p. -/
def crcBit (w p r : Nat) (b : Bool) : Nat :=
  let top := (r / 2 ^ (w - 1) % 2 == 1) != b
  let sh := r * 2 % 2 ^ w
  if top then sh ^^^ p else sh

/-- One byte, most significant bit first. -/
def crcByte (w p r : Nat) (b : Byte) : Nat :=
  (List.range 8).foldl (fun r i => crcBit w p r (b.getLsbD (7 - i))) r

/-- CRC-8 of R67 over bytes from a running value: polynomial 0x07. -/
def crc8 (c : Byte) (bs : List Byte) : Byte := BitVec.ofNat 8 (bs.foldl (crcByte 8 0x07) c.toNat)

/-- One bit of the reflected CRC-32 register. -/
def crc32Bit (r : Nat) : Nat := if r % 2 = 1 then (r / 2) ^^^ 0xEDB88320 else r / 2

/-- One byte of the CRC-32 of R192: polynomial 0x04C11DB7 reflected. -/
def crc32Byte (r : Nat) (b : Byte) : Nat :=
  crc32Bit (crc32Bit (crc32Bit (crc32Bit (crc32Bit (crc32Bit (crc32Bit (crc32Bit (r ^^^ b.toNat))))))))

/-- The CRC-32 of R192. -/
def crc32 (bs : List Byte) : Word := word (bs.foldl crc32Byte 0xFFFFFFFF ^^^ 0xFFFFFFFF)

/-! ## The decimation chain (R158, R159) -/

/-- Sum of two coefficient lists. -/
def addL : List Int → List Int → List Int
  | [], b => b
  | a, [] => a
  | x :: a, y :: b => (x + y) :: addL a b

/-- Convolution of two coefficient lists. -/
def conv : List Int → List Int → List Int
  | [], _ => []
  | x :: a, b => addL (b.map (x * ·)) (0 :: conv a b)

/-- The weights w(0) ... w(4D - 4): four length-D boxcars convolved. -/
def sincWeights (d : Nat) : List Int :=
  let one := List.replicate d (1 : Int)
  conv (conv one one) (conv one one)

/-- Sum of products of two lists. -/
def dot : List Int → List Int → Int
  | [], _ => 0
  | _, [] => 0
  | x :: a, y :: b => x * y + dot a b

/-- x_m of R158 over the bits since the filter start; 0 for m = 0 (R159). -/
def sinc4 (l : Nat) (w : List Int) (bits : List Bool) (m : Nat) : Int :=
  if m = 0 then 0
  else
    let b := ((bits.take (m * 2 ^ l)).map (fun x => if x then (1 : Int) else -1)).reverse
    let s := dot w b
    if 4 * l ≤ 23 then sat24 (s * 2 ^ (23 - 4 * l)) else sat24 (rshr s (4 * l - 23))

/-- h_0 ... h_23 of Table 8.3. -/
def firTaps : List Int :=
  let h : List Int := [-105, -164, 269, 453, -716, -1091, 1610, 2352, -3463, -5355, 9514, 29464]
  h ++ h.reverse

/-- y_j of R159. -/
def firOut (l : Nat) (w : List Int) (bits : List Bool) (j : Nat) : Int :=
  sat24 (rshr (dot firTaps ((List.range 24).map (fun i => if i < 2 * j then sinc4 l w bits (2 * j - i) else 0))) 16)

/-! ## Correction tables (R223 to R229) -/

/-- The fields of a table header (Table 11.2). -/
structure TabHdr where
  type : Nat
  nx : Nat
  nt : Nat
  cfrac : Nat
  xOff : Int
  xGain : Int
  tOff : Int
  tGain : Int
  xSh : Nat
  tSh : Nat
  nwords : Nat
  reservedOk : Bool
deriving DecidableEq, Repr

/-- Bytes i ... i + 3 of a list as a word. -/
def wordAt (l : List Byte) (i : Nat) : Word := bytesWord (l.drop i)

/-- Bytes i and i + 1 of a list as a number. -/
def halfAt (l : List Byte) (i : Nat) : Nat := leNat ((l.drop i).take 2)

/-- The header of a table. -/
def tabHdr (l : List Byte) : TabHdr :=
  { type := (byteAt l 0).toNat, nx := (byteAt l 1).toNat, nt := (byteAt l 2).toNat, cfrac := (byteAt l 3).toNat,
    xOff := int32 (wordAt l 4), xGain := int32 (wordAt l 8), tOff := int32 (wordAt l 12), tGain := int32 (wordAt l 16),
    xSh := (byteAt l 20).toNat, tSh := (byteAt l 21).toNat, nwords := halfAt l 22,
    reservedOk := ((l.drop 24).take 8).all (· == 0) }

/-- The dimensions of Table 11.3. -/
def dimsOk (h : TabHdr) : Bool :=
  match h.type with
  | 1 => decide (1 ≤ h.nx) && decide (h.nx ≤ 4) && decide (1 ≤ h.nt) && decide (h.nt ≤ 4)
  | 2 => [2, 3, 5, 9, 17].contains h.nx && [1, 2, 3, 5, 9].contains h.nt
  | 3 => [2, 3, 5, 9, 17, 33].contains h.nx && h.nt == 1
  | _ => false

/-- Check 1 of R224, but for the end of the store. -/
def hdrOk (h : TabHdr) : Bool :=
  dimsOk h && decide (h.cfrac ≤ 30) && decide (h.xSh ≤ 62) && decide (h.tSh ≤ 62) && h.reservedOk &&
    decide (h.nwords = 9 + h.nx * h.nt)

/-- Both checks of R224 on a table of `room` bytes: the reason, or none when it passes. -/
def tableCheck (l : List Byte) (room : Nat) : Option Nat :=
  let h := tabHdr l
  if !hdrOk h || decide (room < 4 * h.nwords) then some rArgs
  else if wordAt l (4 * h.nwords - 4) ≠ crc32 (l.take (4 * h.nwords - 4)) then some rCheck
  else none

/-- Data word k of a table. -/
def tabWord (l : List Byte) (k : Nat) : Int := int32 (wordAt l (32 + 4 * k))

/-- The table forms a normalised temperature (R226). -/
def usesTemp (h : TabHdr) : Bool := (h.type == 1 || h.type == 2) && decide (1 < h.nt)

/-- A value and whether a step of it saturated. -/
abbrev Sat := Int × Bool

/-- One Horner step of R227: sat32(rshr(a * v, 30) + c). -/
def horner (v : Int) (a : Sat) (c : Int) : Sat :=
  let r := sat32 (rshr (a.1 * v) 30 + c)
  (r.1, a.2 || r.2)

/-- b[i] of R227: Horner along t over c[i][nt - 1] ... c[i][0]. -/
def polyRow (l : List Byte) (nt i : Nat) (t : Int) : Sat :=
  ((List.range (nt - 1)).map (fun k => tabWord l (i * nt + (nt - 2 - k)))).foldl (horner t)
    (tabWord l (i * nt + (nt - 1)), false)

/-- y of a POLY table (R227). -/
def evalPoly (l : List Byte) (h : TabHdr) (x t : Int) : Sat :=
  ((List.range (h.nx - 1)).map (fun k => polyRow l h.nt (h.nx - 2 - k) t)).foldl
    (fun y b => let r := horner x y b.1; (r.1, r.2 || b.2)) (polyRow l h.nt (h.nx - 1) t)

/-- cell(v, n) of R228: the cell, the place in it and the shift s. -/
def cell (v : Int) (n : Nat) : Nat × Int × Nat :=
  let s := 31 - (n - 1).log2
  let u := v + 1073741824
  let k := (u / 2 ^ s).toNat
  if k = n - 1 then (n - 2, 2 ^ s, s) else (k, u - k * 2 ^ s, s)

/-- sat32(a + rshr((b - a) * f, s)) of R228. -/
def lerp (a b f : Int) (s : Nat) : Sat := sat32 (a + rshr ((b - a) * f) s)

/-- y of a GRID or PWL table (R228). -/
def evalGrid (l : List Byte) (h : TabHdr) (x t : Int) : Sat :=
  let g := fun i j => tabWord l (j * h.nx + i)
  let cx := cell x h.nx
  let row := fun j => lerp (g cx.1 j) (g (cx.1 + 1) j) cx.2.1 cx.2.2
  if h.nt = 1 then row 0
  else
    let ct := cell t h.nt
    let r0 := row ct.1
    let r1 := row (ct.1 + 1)
    let y := lerp r0.1 r1.1 ct.2.1 ct.2.2
    (y.1, y.2 || r0.2 || r1.2)

/-- The engineering value of a checked table at a raw value and a temperature (R226 to R229), and whether a step
saturated. -/
def correctValue (l : List Byte) (r : Int) (temp : Option Int) : Sat :=
  let h := tabHdr l
  let x := satq (rshr ((r - h.xOff) * h.xGain) h.xSh)
  let t : Sat :=
    match temp with
    | some v => if usesTemp h then satq (rshr ((v - h.tOff) * h.tGain) h.tSh) else (0, false)
    | none => (0, false)
  let y := if h.type = 1 then evalPoly l h x.1 t.1 else evalGrid l h x.1 t.1
  let e : Sat := if h.cfrac ≥ 16 then (rshr y.1 (h.cfrac - 16), false) else sat32 (y.1 * 2 ^ (16 - h.cfrac))
  (e.1, x.2 || t.2 || y.2 || e.2)

/-! ## Coupling (R230) and output formats (R233) -/

/-- The result of a COUPLE. -/
def coupleValue (mode : Nat) (a b : Int) : Sat :=
  match mode with
  | 0 => sat32 (a + b)
  | 1 => sat32 (a - b)
  | 2 => sat32 (rshr (a * b) 16)
  | _ =>
    if b = 0 then (if a > 0 then 2147483647 else if a < 0 then -2147483648 else 0, true)
    else sat32 (divrhe (a * 65536) b)

/-- A format entry is active (Table 11.6). -/
def fmtActive (e : List Byte) : Bool := (byteAt e 10).getLsbD 0

/-- An active entry that makes its carriage end REJECTED_ARGS: a shift above 62 or a set reserved bit (R233). -/
def fmtBad (e : List Byte) : Bool :=
  fmtActive e && (decide ((byteAt e 8).toNat > 62) || decide ((byteAt e 9).toNat ≥ 64) ||
    decide ((byteAt e 10).toNat ≥ 2) || !((e.drop 11).take 5).all (· == 0))

/-- The delivered integer of a value through an entry, and whether a limit changed it (R233). -/
def formatValue (e : List Byte) (v : Int) : Sat :=
  if !fmtActive e then (v, false)
  else
    let w := rshr (v * int32 (wordAt e 0)) (byteAt e 8).toNat + int32 (wordAt e 4)
    let n := (byteAt e 9).toNat % 32 + 1
    if (byteAt e 9).getLsbD 5 then limit 0 (2 ^ n - 1) w else limit (-(2 ^ (n - 1))) (2 ^ (n - 1) - 1) w

/-- The low 32 bits of an integer. -/
def lowWord (v : Int) : Word := BitVec.ofInt 32 v

end Sys2Proof.Machine
end

