-- ==== Sys2Proof/Machine/Table.lean ====
section
/-! DEFINITION. Timetable images: layout (R189, R190), minimum durations (R193), the load checks (R194, R370), and the
auxiliary measurement codes (Table 8.6). -/

namespace Sys2Proof.Machine

/-! ## Auxiliary codes (Table 8.6) -/

/-- A code Table 8.6 lists. -/
def auxListed (c : Nat) : Bool := decide (c ≤ 0x10)

/-- The prefix of a code, in modulator periods. -/
def auxPrefix (c : Nat) : Nat :=
  if c = 0x07 ∨ c = 0x08 then 32 else if c = 0x09 ∨ c = 0x0A then 320
  else if 0x0B ≤ c ∧ c ≤ 0x0E then 160 else if c = 0x0F ∨ c = 0x10 then 480 else 0

/-- LEAK of pair A or B: the pair. -/
def auxLeak (c : Nat) : Option Bool := if c = 0x09 then some false else if c = 0x0A then some true else none

/-- ARM of port Bk: the port. -/
def auxArm (c : Nat) : Option Nat := if 0x0B ≤ c ∧ c ≤ 0x0E then some (c - 0x0B) else none

/-- A code with a fixed sequence (LEAK, ARM). -/
def auxFixed (c : Nat) : Bool := (auxLeak c).isSome || (auxArm c).isSome

/-- The pair a code uses: false A, true B. -/
def auxPair (c : Nat) : Option Bool :=
  match auxArm c with
  | some k => some (decide (2 ≤ k))
  | none => if c = 0x01 ∨ c = 0x03 ∨ c = 0x05 ∨ c = 0x09 then some false
            else if c = 0x02 ∨ c = 0x04 ∨ c = 0x06 ∨ c = 0x0A then some true else none

/-- A code that requires its pair excited. -/
def auxNeedsOn (c : Nat) : Bool := decide (0x03 ≤ c) && decide (c ≤ 0x06) || (auxArm c).isSome

/-- The identification line of an ID_THERM code: false ID0, true ID1. -/
def auxIdLine (c : Nat) : Option Bool := if c = 0x0F then some false else if c = 0x10 then some true else none

/-! ## Layout -/

/-- Carriage operation codes (Table 10.3). -/
abbrev oExcite : Nat := 1
abbrev oExcOff : Nat := 2
abbrev oConvert : Nat := 3
abbrev oAux : Nat := 4
abbrev oCorrect : Nat := 5
abbrev oCouple : Nat := 6
abbrev oEmit : Nat := 7
abbrev oAoutSet : Nat := 8
abbrev oLedgerAdd : Nat := 9
abbrev oMark : Nat := 10

/-- The base of a timetable range. -/
def ttBase (b : Bool) : Nat := if b then 0x3000 else 0x2000

/-- The carriage in 16 bytes (Table 10.2). -/
def carriageOf (l : List Byte) : Carriage :=
  { start := leNat (l.take 4) % 2 ^ 25, dur := leNat ((l.drop 4).take 4) % 2 ^ 25, op := (byteAt l 8).toNat,
    ch := (byteAt l 9).setWidth 5, res := (byteAt l 10).toNat % 16,
    needA := if (byteAt l 11).getLsbD 0 then some (byteAt l 12).toNat else none,
    needB := if (byteAt l 11).getLsbD 1 then some (byteAt l 13).toNat else none,
    arg := byteAt l 14, aux := byteAt l 15 }

/-- The k carriages of an image from its byte 32. -/
def carriagesOf : Nat → List Byte → List Carriage
  | 0, _ => []
  | k + 1, l => carriageOf (l.take 16) :: carriagesOf k (l.drop 16)

/-- The image in a range, read as Table 10.1. -/
def imageOf (l : List Byte) : Image :=
  { secTick := (byteAt l 6).getLsbD 0, sync := (byteAt l 6).getLsbD 1, freeRun := (byteAt l 6).getLsbD 2,
    body := leNat ((l.drop 8).take 4) % 2 ^ 25, lead := halfAt l 12,
    cars := carriagesOf (byteAt l 5).toNat (l.drop 32) }

/-! ## Durations (R193) -/

/-- Qticks per modulator period of a declared shape. -/
def shapeQ (arg : Byte) : Nat := if arg.getLsbD 5 then 16 else 32

/-- The declared dec of a shape. -/
def shapeDec (arg : Byte) : Nat := arg.toNat % 16

/-- T_conv of a shape (Table 8.4), in qticks. -/
def tConv (dec : Nat) (fir : Bool) (q : Nat) : Nat := (if fir then 28 else 4) * 2 ^ (dec + 4) * q

/-- T_ready of the declared shape. -/
def tReady (arg : Byte) : Nat := tConv (shapeDec arg) (arg.getLsbD 4) (shapeQ arg) + 4

/-- The minimum duration of a carriage (Table 10.4). -/
def minDur (c : Carriage) : Nat :=
  if c.op = oConvert then tReady c.arg
  else if c.op = oAux then
    if (auxLeak c.aux.toNat).isSome then 18436
    else if (auxArm c.aux.toNat).isSome then 21508
    else auxPrefix c.aux.toNat * shapeQ c.arg + tReady c.arg
  else if c.op = oCorrect then 400
  else if c.op = oCouple then 96
  else if c.op = oEmit ∨ c.op = oMark then 48
  else if c.op = oLedgerAdd then 32
  else 16

/-! ## Load checks (Table 10.5) -/

/-- The resources permitted for an operation (Table 10.3). -/
def resPermitted (op res : Nat) : Bool :=
  if op = oExcite ∨ op = oExcOff then res == 5 || res == 6
  else if op = oConvert then decide (res ≤ 3)
  else if op = oAux then res == 4
  else if op = oCorrect ∨ op = oCouple then res == 7
  else if op = oEmit ∨ op = oMark then res == 10
  else if op = oAoutSet then res == 8
  else if op = oLedgerAdd then res == 9
  else false

/-- Check 0x05 on carriage i with its 16 bytes: true when it fails. -/
def badCarriage (l : List Byte) (i : Nat) : Bool :=
  let c := carriageOf l
  let names := c.op != oExcOff && c.op != oMark
  let need := fun (o : Option Nat) => match o with | some k => decide (i ≤ k) | none => false
  decide (2 ^ 25 ≤ leNat (l.take 4)) || decide (2 ^ 25 ≤ leNat ((l.drop 4).take 4)) ||
    decide (32 ≤ (byteAt l 9).toNat) || decide (16 ≤ (byteAt l 10).toNat) || decide (4 ≤ (byteAt l 11).toNat) ||
    !(decide (1 ≤ c.op) && decide (c.op ≤ 10)) || !resPermitted c.op c.res || need c.needA || need c.needB ||
    (c.op == oAux && !auxListed c.aux.toNat) ||
    ((c.op == oConvert || c.op == oAux) && (decide (8 < shapeDec c.arg) || decide (64 ≤ c.arg.toNat))) ||
    (c.op == oLedgerAdd && decide (8 ≤ c.arg.toNat)) ||
    (!(c.op == oConvert || c.op == oAux || c.op == oLedgerAdd) && c.arg != 0) ||
    (c.op != oAux && c.aux != 0) || (!names && c.ch != 0)

/-- The end qtick of a carriage. -/
def Carriage.stop (c : Carriage) : Nat := c.start + c.dur

/-- Two carriages' intervals overlap (R190). -/
def overlaps (a b : Carriage) : Bool := decide (a.start < b.stop) && decide (b.start < a.stop)

/-- The first index below n at which p holds. -/
def firstIdx (n : Nat) (p : Nat → Bool) : Option Nat := (List.range n).find? p

/-- Carriage i of a list. -/
def carAt (cs : List Carriage) (i : Nat) : Carriage := cs.getD i ⟨0, 0, 0, 0, 0, none, none, 0, 0⟩

/-- Check 0x09 at carriage i. -/
def conflictAt (cs : List Carriage) (i : Nat) : Bool :=
  (cs.take i).any (fun b => b.res == (carAt cs i).res && overlaps b (carAt cs i))

/-- Check 0x0A at carriage i. -/
def needsAt (cs : List Carriage) (i : Nat) : Bool :=
  let late := fun (o : Option Nat) => match o with | some k => decide ((carAt cs i).start < (carAt cs k).stop) | none => false
  late (carAt cs i).needA || late (carAt cs i).needB

/-- A carriage names a channel (R180). -/
def Carriage.names (c : Carriage) : Bool := c.op != oExcOff && c.op != oMark

/-- The channels a start group names, over the carriages up to and with index i. -/
def groupChannels (cs : List Carriage) (i : Nat) : List (BitVec 5) :=
  (((cs.take (i + 1)).filter (fun b => b.start == (carAt cs i).start && b.names)).map (fun b => b.ch)).eraseDups

/-- Check 0x0C at carriage i: a ninth channel, or a group less than 16 qticks after the one before (R370). -/
def groupAt (cs : List Carriage) (i : Nat) : Bool :=
  decide (8 < (groupChannels cs i).length) ||
    (decide (0 < i) && decide ((carAt cs (i - 1)).start < (carAt cs i).start) &&
      decide ((carAt cs i).start < (carAt cs (i - 1)).start + 16))

/-- The end of the excited interval an EXCITE at index i opens: the next EXC_OFF on its pair, or body. -/
def excitedUntil (cs : List Carriage) (body i : Nat) : Nat :=
  match (cs.drop (i + 1)).find? (fun b => b.op == oExcOff && b.res == (carAt cs i).res) with
  | some b => b.start
  | none => body

/-- Check 0x0D at carriage i (R164). -/
def auxClashAt (cs : List Carriage) (body i : Nat) : Bool :=
  let c := carAt cs i
  if c.op != oAux then false
  else
    let onPair := fun (p : Bool) =>
      (List.range cs.length).any (fun j =>
        let e := carAt cs j
        e.op == oExcite && e.res == (if p then 6 else 5) && decide (c.start < excitedUntil cs body j) &&
          decide (e.start < c.stop))
    let converts := fun (k : Nat) => cs.any (fun b => b.op == oConvert && b.res == k && overlaps b c)
    match auxLeak c.aux.toNat with
    | some p => onPair p || (if p then converts 2 || converts 3 else converts 0 || converts 1)
    | none => match auxArm c.aux.toNat with
      | some k => converts k
      | none => false

/-- Check 0x0B: the offending carriage (R370). -/
def markFault (cs : List Carriage) : Option Nat :=
  match firstIdx (cs.length - 1) (fun i => (carAt cs i).op == oMark) with
  | some i => some i
  | none => if (carAt cs (cs.length - 1)).op == oMark then none else some (cs.length - 1)

/-- A failed header check, by its code. -/
def headerFault (l : List Byte) : Option Nat :=
  let n := (byteAt l 5).toNat
  if l.take 4 ≠ [0x4F, 0x48, 0x54, 0x54] ∨ n = 0 ∨ n > 128 ∨ halfAt l 14 ≠ 36 + 16 * n then some 1
  else if byteAt l 4 ≠ 1 then some 2
  else if wordAt l (32 + 16 * n) ≠ crc32 (l.take (32 + 16 * n)) then some 3
  else
    let body := leNat ((l.drop 8).take 4)
    if (byteAt l 6).toNat ≥ 8 ∨ byteAt l 7 ≠ 0 ∨ body < 48 ∨ body > 16777216 ∨ halfAt l 12 > 4095 ∨
        !((l.drop 20).take 12).all (· == 0) then some 4
    else none

/-- The first check of Table 10.5 that fails, with the carriage R370 names (0xFF for none). -/
def loadFault (l : List Byte) : Option (Nat × Nat) :=
  match headerFault l with
  | some c => some (c, 0xFF)
  | none =>
    let im := imageOf l
    let cs := im.cars
    let n := cs.length
    let tag := fun (c : Nat) (o : Option Nat) => o.map (fun i => (c, i))
    (tag 5 (firstIdx n (fun i => badCarriage ((l.drop (32 + 16 * i)).take 16) i))).orElse fun _ =>
    (tag 6 (firstIdx n (fun i => decide (0 < i) && decide ((carAt cs i).start < (carAt cs (i - 1)).start)))).orElse fun _ =>
    (tag 7 (firstIdx n (fun i => decide ((carAt cs i).dur < minDur (carAt cs i))))).orElse fun _ =>
    (tag 8 (firstIdx n (fun i => decide (im.body < (carAt cs i).stop)))).orElse fun _ =>
    (tag 9 (firstIdx n (conflictAt cs))).orElse fun _ =>
    (tag 10 (firstIdx n (needsAt cs))).orElse fun _ =>
    (tag 11 (markFault cs)).orElse fun _ =>
    (tag 12 (firstIdx n (groupAt cs))).orElse fun _ =>
    tag 13 (firstIdx n (auxClashAt cs im.body))

end Sys2Proof.Machine
end

