-- ==== Sys2Proof/Machine/Rings.lean ====
section
/-! DEFINITION. The result ring and the latest-value table (R213 to R216), the completion ring (R336 to R338). -/

namespace Sys2Proof.Machine

/-- A record for the result ring (R209 to R216): a SETTLING record is dropped unless kept; `latest` writes the latest-value
entry of its channel as well; a full ring counts the loss and raises source 43; the threshold raises source 42. -/
def resultRecord (ch : BitVec 5) (stamp : Stamp) (value : Word) (flags : BitVec 16) (latest : Bool) (s : State) : State :=
  let fl := (flags &&& ~~~fCoarse) ||| flagIf stamp.coarse fCoarse
  let w3 := put 0 5 ch.toNat ||| put 5 11 (fl.toNat / 32) ||| put 16 16 s.res.seq.toNat
  let ws := [stamp.frac, stamp.sec, value, w3]
  let s := { s with res := { s.res with seq := s.res.seq + 1 } }
  if fl &&& fSettling ≠ 0 ∧ !bitOf s.res.cfg 0 then
    { s with res := { s.res with settleDrop := satAdd 255 s.res.settleDrop 1 } }
  else
    let s := when latest (storeWords (0x1400 + 16 * ch.toNat) ws) s
    let n := (s.res.head - s.res.tail).toNat
    if n ≥ 256 then raise 43 { s with res := { s.res with ovf := satAdd 255 s.res.ovf 1 } }
    else
      let a := 0x6000 + 16 * (s.res.head.toNat % 256)
      raiseIf (fld s.res.cfg 8 8 != 0 && n + 1 == fld s.res.cfg 8 8) 42
        (storeWords a ws { s with res := { s.res with head := s.res.head + 1 } })

/-- A service of the watchdog, at a step of a command (R340). -/
def serve (s : State) : State := { s with cond := { s.cond with wdog := 0 } }

/-- A completion record (R336, R337): appended, or counted as lost with source 43; sources 56 and 57 as R338 states. -/
def cplRecord (op : Nat) (auto direct : Bool) (reason : Nat) (tag : Byte) (detail : Word) (s : State) : State :=
  let st := nowStamp s
  let w3 := put 0 6 op ||| put 6 1 auto.toNat ||| put 7 1 direct.toNat ||| put 8 8 reason ||| put 16 8 tag.toNat |||
    put 24 8 s.cond.seq.toNat
  let s := raiseIf (reason != rOk && reason != rPartial) 57 (raise 56 { s with cond := { s.cond with seq := s.cond.seq + 1 } })
  if (s.cond.head - s.cond.tail).toNat ≥ 16 then
    raise 43 { s with cond := { s.cond with ovf := satAdd 255 s.cond.ovf 1 } }
  else
    storeWords (0x7400 + 16 * (s.cond.head.toNat % 16)) [st.frac, st.sec, detail, w3]
      { s with cond := { s.cond with head := s.cond.head + 1 } }

end Sys2Proof.Machine
end

