-- ==== Sys2Proof/Machine/Out.lean ====
section
/-! DEFINITION. The analogue output AOUT (R262 to R277). -/

namespace Sys2Proof.Machine

/-- The span OUT_AOUT_CFG selects. -/
def cfgSpan (s : State) : BitVec 2 := s.out.cfg.setWidth 2

/-- OUT_GEN.mode. -/
def genMode (s : State) : Nat := fld s.out.gen 0 2

/-- The output code (R268, R274). -/
def outCode (s : State) : Nat := if genMode s = 0 then s.out.code.toNat else min (s.out.code.toNat + s.out.g) 65535

/-- A DAC clock runs: HF or the HFRC clocks it, in RUN and during every acquisition, out of a MEAS reset (R129, R262, R266). -/
def dacClock (s : State) : Bool :=
  mainUp s && s.sys.phase != .released && (s.sys.pstate == .run || s.clk.state == .acq) && !s.sys.measRst

/-- AOUT is driven to its safe value: main reset and the start up to the config step, an interval, the warning (Table 14.2). -/
def aoutSafe (s : State) : Bool :=
  !mainUp s || s.pwr.warn || s.out.ivl.isSome || s.out.safeWait || !s.sys.cfgDone

/-- OUT_STAT.state (Table 14.2). -/
def aoutState (s : State) : Nat :=
  if !s.pwr.mainOn || s.pwr.ship || (s.out.span == 3 && s.out.ivl.isNone && !s.out.safeWait && !s.pwr.warn) then 0
  else if aoutSafe s then 1
  else if dacClock s then 2
  else 3

/-- Compliance is supervised: I0, DRIVE and out at least 0x0100 (R273). -/
def supervised (s : State) : Bool := s.out.span == 2 && aoutState s == 2 && decide (0x100 ≤ outCode s)

/-- DAC clocks come every 64 HF cycles: MEAS runs on a locked HF clock (R262). -/
def dacFromHf (s : State) : Bool := dacClock s && fineClock s

/-- The HFRC clocks the DAC: a DAC clock runs and is not HF's (R129). -/
def dacFromHfrc (s : State) : Bool := dacClock s && !fineClock s

/-- The DAC clocks the HFRC gives in one ktick, at most and at least: 25.75 and 24.25 MHz over 64, in units of 1/2097152 (R356, Tables 7.1
and 19.9, R262). -/
def hfrcRoom : Nat := 25750000
def hfrcLow : Nat := 24250000

/-- The HFRC starts to clock the DAC: it gives at most a ktick's clocks up to the next edge. -/
def enterHfrc (s : State) : State :=
  if s.out.genHfrc then s
  else { s with out := { s.out with genHfrc := true, genWhole := false, genRoom := s.out.genRoom + hfrcRoom } }

/-- The DAC moves to HF: the HFRC's clocks since the last update count, a free number between the least and the most that it can have
given (R274, R356, log entry 89). -/
def foldHfrc (s : State) : State :=
  if s.out.genRoom = 0 then s
  else
    let most := min (s.out.genCnt - 1) (s.out.genRoom / 2097152)
    let least := min most (s.out.genLow / 2097152)
    { s with out := { s.out with
        genCnt := s.out.genCnt - (least + Config.hfrcClocks s.out.genDraw % (most - least + 1)), genRoom := 0, genLow := 0
        genDraw := s.out.genDraw + 1 } }

/-- A ktick edge while the HFRC clocks the DAC: a further ktick's clocks, of which none is older than the last update (R274). -/
def hfrcTick (s : State) : State :=
  if s.out.genHfrc then
    { s with out := { s.out with
        genRoom := min s.out.genRoom (s.out.genCnt * 2097152) + hfrcRoom, genWhole := true
        genLow := min s.out.genLow (s.out.genCnt * 2097152) + (if s.out.genWhole then hfrcLow else 0) } }
  else s

/-- A ktick edge without a DAC clock: the level that HOLD keeps is a ktick older (R267). -/
def holdTick (s : State) : State :=
  { s with out := { s.out with hold := if dacClock s then 0 else s.out.hold + 1 } }

/-- The generator restarts: g 0, dir +1, lfsr 0x7FFFFF, the next update at the next DAC clock (R274). -/
def genZero (s : State) : State :=
  { s with out := { s.out with
      g := 0, dirUp := true, lfsr := 0x7FFFFF, genCnt := 0, genRef := none, genHfrc := false, genRoom := 0
      genLow := 0 } }

/-- HF ceases to clock the DAC: its DAC clocks so far have counted (R274). -/
def leaveHf (s : State) : State :=
  match s.out.genRef with
  | some r => { s with out := { s.out with genCnt := s.out.genCnt - (s.clk.hf - r) / 64, genRef := none } }
  | none => s

/-- The generator's count of DAC clocks follows what clocks the DAC: it stands where no DAC clock comes (R267, R274). -/
def genSettle (s : State) : State :=
  if dacFromHf s then
    let t := foldHfrc s
    { t with out := { t.out with genRef := some (t.out.genRef.getD s.clk.hf), genHfrc := false } }
  else if dacFromHfrc s then enterHfrc (leaveHf s)
  else
    let t := leaveHf s
    { t with out := { t.out with genHfrc := false } }

/-- The modulator takes the code while a DAC clock runs, whose level HOLD then keeps; low_hr clears where no supervision runs; the
generator's count follows (R267, R273, R274). -/
def outSettle (s : State) : State :=
  let s := genSettle s
  { s with out := { s.out with
      taken := if dacClock s then s.out.code else s.out.taken
      lastOut := if dacClock s then outCode s else s.out.lastOut
      lastVdd := if dacClock s then s.pins.vdd else s.out.lastVdd
      hold := if dacClock s then 0 else s.out.hold
      safeWait := s.out.safeWait && !dacClock s
      lowHr := s.out.lowHr && supervised { s with out := { s.out with safeWait := s.out.safeWait && !dacClock s } } } }

/-- The writers of the code, in the order in which those of one qtick are applied (R269). -/
inductive Writer where
  | alarm
  | carriage
  | fault
  | host
deriving DecidableEq, Repr

/-- The place of a writer in that order. -/
def Writer.rank : Writer → Nat
  | .alarm => 1
  | .carriage => 2
  | .fault => 3
  | .host => 4

/-- A qtick, where HF is locked and gives one. -/
def lockedQ (q : Nat) (s : State) : Option Nat := if hfLocked s then some q else none

/-- A writer applies a code at the qtick q; every writer but the fault clears OUT_STAT.fault (R268). Of the writers of one qtick the
last in order stands (R269); writers whose rows name no common qtick act one after another (DESIGN CHOICE, log entry 80). -/
def applyAt (q : Option Nat) (w : Writer) (c : BitVec 16) (s : State) : State :=
  if q.isSome && s.out.lastAt == q && decide (w.rank < s.out.lastRank) then s
  else outSettle { s with out := { s.out with code := c, fault := w == .fault, lastAt := q, lastRank := w.rank } }

/-- A writer applies a code now. -/
def applyCode (w : Writer) (c : BitVec 16) (s : State) : State := applyAt (lockedQ (qtickNow s) s) w c s

/-- What follows is not in the qtick of an earlier writer. -/
def newWriter (s : State) : State := { s with out := { s.out with lastAt := none } }

/-- The fault code is applied (R272). -/
def faultCode (s : State) : State := applyCode .fault (BitVec.ofNat 16 (fld s.out.cfg 16 16)) s

/-- The sequencer halts: with fault_halt the fault code is applied (R272). -/
def haltFault (s : State) : State := if bitOf s.out.cfg 2 then faultCode s else s

/-- An AOUT_SET ended FAILED (R272). -/
def aoutFailed (s : State) : State :=
  let n := satAdd 7 s.out.failCnt 1
  let t := { s with out := { s.out with failCnt := n } }
  if fld s.out.cfg 3 3 ≠ 0 ∧ n ≥ fld s.out.cfg 3 3 then faultCode t else t

/-- The code of an AOUT_SET applies (R268, R271). -/
def applyDue (s : State) : State :=
  match s.out.due with
  | none => s
  | some (n, c, clamp) => applyAt (lockedQ n s) .carriage c { s with out := { s.out with due := none, held := false, clamp := clamp } }

/-- A code that is due by HF counter n applies. -/
def dueBy (n : Nat) (s : State) : State :=
  match s.out.due with
  | some (m, _, _) => if m ≤ n then applyDue s else s
  | none => s

/-- An AOUT_SET that runs from HF counter n on with delivered integer d and the value's flags: it holds, or its code applies 4 qticks
later (R268, R271). -/
def aoutSet (n : Nat) (d : Int) (flags : BitVec 16) (s : State) : State :=
  if flags &&& (fSettling ||| fStale ||| fCalHold) ≠ 0 then { s with out := { s.out with held := true } }
  else
    let c := limit 0 65535 d
    { s with out := { s.out with due := some (n + 32, BitVec.ofNat 16 c.1.toNat, c.2) } }

/-- An AOUT_SET ended OK (R272): its code stands, and the count of failures starts again. -/
def aoutOk (s : State) : State :=
  let t := applyDue s
  { t with out := { t.out with failCnt := 0 } }

/-- OUT_AOUT_CFG takes a value; a change of span starts, or restarts, a span-change interval (R270). -/
def setAoutCfg (w : Word) (s : State) : State :=
  let change := decide (cfgSpan s ≠ w.setWidth 2)
  outSettle { s with out := { s.out with cfg := w, ivl := if change then some 3 else s.out.ivl } }

/-- A ktick edge of a span-change interval: at the third the new span is entered (R270). -/
def spanEdge (s : State) : State :=
  match s.out.ivl with
  | none => s
  | some k =>
    if k ≤ 1 then
      outSettle { s with out := { s.out with ivl := none, span := cfgSpan s, safeWait := !dacClock s } }
    else { s with out := { s.out with ivl := some (k - 1) } }

/-- OUT_GEN is written: the generator restarts (R274). -/
def restartGen (w : Word) (s : State) : State :=
  outSettle (genZero { s with out := { s.out with gen := w } })

/-- The level at the pin AOUT: high impedance, a voltage above AOUTS in 1/65536 mV, or a current sourced in 1/65536 uA (Table 14.1). -/
inductive Level where
  | highZ
  | volts (n : Nat)
  | amps (n : Nat)
deriving DecidableEq, Repr

/-- A level with an offset of so many thousandths of its unit. -/
def levelOff (n off : Int) : Nat := (n + divrhe (off * 65536) 1000).toNat

/-- A line of levels with the nonlinearity of the part, at most a ten-thousandth of the span: as the levels of a DAC that stays monotonic,
a code's is not below that of any lower code (R355, Table 19.8). -/
def bentLine (span full out : Nat) (line : Nat → Int) : Int :=
  ((List.range (out + 1)).map (fun c => line c + within (-(full / 10000 : Nat)) (full / 10000 : Nat) (Config.aoutInl span c))).foldl max (line out - (full / 10000 : Nat))

/-- The level of a span for a code, at VDD in mV (Table 14.1): V1 is limited to VDD - 50 mV. The full-scale errors of V0 and I0, the
offsets and the nonlinearity are those of the part, within Table 19.8 (R355, log entry 72). -/
def spanLevel (p : Part) (span : BitVec 2) (vdd out : Nat) : Level :=
  let off := within (-500) 500 p.vOff
  match span.toNat with
  | 0 =>
    .volts (levelOff (bentLine 0 (1200 * 65536) out (fun c => divrhe (1200 * c * (1000000 + within (-1500) 1500 p.v0Gain)) 1000000)) off)
  | 1 => .volts (min (levelOff (bentLine 1 (vdd * 65536) out (fun c => vdd * c)) off) ((vdd - 50) * 65536))
  | 2 =>
    .amps (levelOff (bentLine 2 (2000 * 65536) out (fun c => divrhe (2000 * c * (1000000 + within (-3000) 3000 p.i0Gain)) 1000000))
      (within (-500) 500 p.iOff))
  | _ => .highZ

/-- A level that has drifted for so many kticks, and part of one: by at most 20 uV per ms, or 40 nA per ms, which are 40 and 80 units per
ktick (R267, R355, log entry 57). -/
def drooped (draw kticks : Nat) : Level → Level
  | .highZ => .highZ
  | .volts n => .volts (n + within (-(40 * (kticks + 1) : Nat)) (40 * (kticks + 1) : Nat) (Config.aoutDroop draw kticks)).toNat
  | .amps n => .amps (n + within (-(80 * (kticks + 1) : Nat)) (80 * (kticks + 1) : Nat) (Config.aoutDroop draw kticks)).toNat

/-- The safe value of a span (Table 14.1). -/
def safeLevel (span : BitVec 2) : Level := match span.toNat with | 2 => .amps 0 | 3 => .highZ | _ => .volts 0

/-- The level driven in SAFE: in an interval, and while its end waits for a DAC clock, 0 mA where the span being entered is I0, else
0 V (R270); before the config step that of V0; under the warning that of the span (R42). -/
def safeValue (s : State) : Level :=
  if s.out.ivl.isSome || s.out.safeWait then (if cfgSpan s == 2 then .amps 0 else .volts 0) else safeLevel s.out.span

/-- The level of the pin AOUT (R264, R266, R267, R270): in HOLD that of the last DAC clock, from which it drifts within the bounds of R267
(log entry 57). -/
def aoutLevel (s : State) : Level :=
  match aoutState s with
  | 0 => .highZ
  | 1 => safeValue s
  | 2 => spanLevel s.pins.part s.out.span s.pins.vdd (outCode s)
  | _ => drooped s.free s.out.hold (spanLevel s.pins.part s.out.span s.out.lastVdd s.out.lastOut)

/-- One update of the generator (R274). -/
def genStep (o : Out) : Out :=
  let st : Nat := 2 ^ fld o.gen 4 4
  let a := fld o.gen 16 16
  match fld o.gen 0 2 with
  | 1 =>
    let g : Int := if o.dirUp then (o.g : Int) + st else (o.g : Int) - st
    let top := decide (g ≥ a)
    let g := if top then (a : Int) else g
    let d := if top then false else o.dirUp
    if g ≤ 0 then { o with g := 0, dirUp := true } else { o with g := g.toNat, dirUp := d }
  | 2 => { o with g := if o.g + st > a then 0 else o.g + st }
  | 3 =>
    let fb := o.lfsr.getLsbD 22 != o.lfsr.getLsbD 17
    let l : BitVec 23 := (o.lfsr <<< 1) ||| BitVec.ofNat 23 fb.toNat
    { o with lfsr := l, g := Nat.land (l.toNat % 65536) a }
  | _ => o

end Sys2Proof.Machine
end

