-- ==== Sys2Proof/Machine/Roster.lean ====
section
/-! DEFINITION. Channel descriptors (Table 9.1), frame versions and late seals (R180 to R182), the depot (R177). -/

namespace Sys2Proof.Machine

/-! ## Fields of a descriptor -/

def dKind (d : List Byte) : Nat := (byteAt d 0).toNat % 4
def dPort (d : List Byte) : Nat := (byteAt d 0).toNat / 4 % 4
def dCurrent (d : List Byte) : Bool := (byteAt d 0).getLsbD 4
def dPol (d : List Byte) : Bool := (byteAt d 0).getLsbD 5
def dRef (d : List Byte) : Bool := (byteAt d 0).getLsbD 6
def dFir (d : List Byte) : Bool := (byteAt d 0).getLsbD 7
/-- pga, with codes 9 to 15 taken as 8: the gain is 2^pga (R151, Table 8.2). -/
def dPga (d : List Byte) : Nat := min ((byteAt d 1).toNat % 16) 8
/-- dec, with codes 9 to 15 taken as 8 (R151). -/
def dDec (d : List Byte) : Nat := min ((byteAt d 1).toNat / 16) 8
def dExcCode (d : List Byte) : Nat := halfAt d 2 % 4096
def dFast (d : List Byte) : Bool := (byteAt d 3).getLsbD 4
def dAux (d : List Byte) : Nat := (byteAt d 4).toNat
def dTempCh (d : List Byte) : BitVec 5 := (byteAt d 5).setWidth 5
def dTempEn (d : List Byte) : Bool := (byteAt d 5).getLsbD 5
def dCorrPtr (d : List Byte) : Nat := halfAt d 6 % 2048
def dCorrEn (d : List Byte) : Bool := (byteAt d 7).getLsbD 3
def dCalSlot (d : List Byte) : Bool := (byteAt d 7).getLsbD 4
def dFmt (d : List Byte) : Nat := (byteAt d 8).toNat % 16
def dOpA (d : List Byte) : BitVec 5 := (byteAt d 9).setWidth 5
def dOpB (d : List Byte) : BitVec 5 := (byteAt d 10).setWidth 5
def dMode (d : List Byte) : Nat := (byteAt d 10).toNat / 32 % 4
def dSlot (d : List Byte) : Nat := (byteAt d 11).toNat % 16
def dSlotChk (d : List Byte) : Bool := (byteAt d 11).getLsbD 4
def dEn (d : List Byte) : Bool := (byteAt d 31).getLsbD 7

/-- The sealed copy of a channel (R173). -/
def sealedOf (s : State) (c : BitVec 5) : List Byte := s.ros.sealed.getD c.toNat []

/-- The pair of a port: false A, true B (Table 8.1). -/
def pairOf (port : Nat) : Bool := decide (2 ≤ port)

/-! ## Settle-start ticks and latches (R180, R181) -/

/-- The pair whose EXCITE decides a carriage's settle-start tick (Table 9.2). -/
def settlePair (c : Carriage) : Option Bool :=
  if c.op = oConvert then some (pairOf c.res) else if c.op = oAux then auxPair c.aux.toNat else none

/-- The settle-start tick of a carriage of an image (Table 9.2). -/
def settleTick (cs : List Carriage) (c : Carriage) : Nat :=
  match settlePair c with
  | none => c.start
  | some p =>
    (((cs.filter (fun e => e.op == oExcite && e.res == (if p then 6 else 5) && decide (e.start ≤ c.start))).map
      (fun e => e.start)).max?).getD c.start

/-- The frame version of a channel, if latched. -/
def versionOf (f : Frame) (c : BitVec 5) : Option (List Byte) := (f.vers.find? (fun v => v.1 == c)).map (fun v => v.2)

/-- Latches the sealed copies of the channels whose latch tick lies at or before qtick q (R181). -/
def latchUpTo (sealed : List (List Byte)) (q : Nat) (f : Frame) : Frame :=
  f.img.cars.foldl (fun g c =>
    if c.names && decide (settleTick g.img.cars c ≤ q) && (versionOf g c.ch).isNone then
      { g with vers := g.vers ++ [(c.ch, sealed.getD c.ch.toNat [])] }
    else g) { f with qtick := max f.qtick q }

/-- The HF counter value at which a qtick of the frame falls. -/
def Frame.at (f : Frame) (q : Nat) : Nat := f.t0 + 8 * q

/-- The first qtick of a frame at or after an HF counter value. -/
def Frame.qtickOf (f : Frame) (n : Nat) : Nat := (n - f.t0 + 7) / 8

/-- The port, pga and ref settings of a descriptor. -/
def stageOf (d : List Byte) : Stage := { port := BitVec.ofNat 2 (dPort d), pga := dPga d, ref := dRef d }

/-- The settings of a CONVERT's channel apply to the input stage of its modulator, under a hold too, whose own measurements have their own
settings (R180). -/
def applyStage (f : Frame) (c : Carriage) (s : State) : State :=
  match versionOf f c.ch with
  | some d => { s with afe := { s.afe with stages := s.afe.stages.set c.res (stageOf d) } }
  | none => s

/-- A carriage is the first CONVERT of its modulator with its settle-start tick. -/
def leadsStage (cs : List Carriage) (c : Carriage) : Bool :=
  c.op == oConvert && cs.find? (fun e => e.op == oConvert && e.res == c.res && settleTick cs e == settleTick cs c) == some c

/-- The input stages take their settings at the settle-start ticks in [lo, hi] (R180). Of several CONVERTs of one modulator that share
their tick, R180 leaves open whose settings the stage holds from it: those of the first to start do, and each of the others takes the stage
at its own start, so that every conversion is made with its own (R22; DESIGN CHOICE, log entry 99). -/
def applyStages (lo hi : Nat) (f : Frame) (s : State) : State :=
  forAll (f.img.cars.filter (fun c =>
      leadsStage f.img.cars c && decide (lo ≤ settleTick f.img.cars c) && decide (settleTick f.img.cars c ≤ hi)))
    (applyStage f) s

/-- The running frame latches the descriptors due by an HF counter value, and its input stages take their settings; none while it finishes
on the bypass clock, where no qtick of it runs (R176). -/
def latchFrame (n : Nat) (s : State) : State :=
  match s.tt.frame with
  | none => s
  | some f =>
    if f.slow then s
    else
      let g := latchUpTo s.ros.sealed (f.qtickOf n) f
      applyStages (f.qtick + 1) g.qtick g { s with tt := { s.tt with frame := some g } }

/-- Port k (17). -/
def portAt (s : State) (k : Nat) : Port := s.disc.ports.getD k Port.reset

/-- The pair p, false A, true B. -/
def pairAt (s : State) (p : Bool) : Pair := if p then s.afe.pairB else s.afe.pairA

/-- Replaces pair p. -/
def setPair (p : Bool) (x : Pair) (s : State) : State :=
  { s with afe := { s.afe with pairA := if p then s.afe.pairA else x, pairB := if p then x else s.afe.pairB } }

/-- The length of the LEAK sequence, 576 periods of 256 HF cycles (Table 8.6). -/
def leakCycles : Nat := 576 * 256

/-- A discovery hold that began at HF counter h excites its pair once its LEAK is over: 0.900 V, normal polarity (R322 steps 4, 5). -/
def discExcites (s : State) : State :=
  match s.cond.running with
  | some (_, .disc j 2 h) =>
    let p := pairOf j.port.toNat
    if s.cal.holdPair.getLsbD p.toNat && !(pairAt s p).on && decide (h + leakCycles ≤ s.clk.hf) then
      setPair p { pairAt s p with on := true, current := false, code := 0, drive := false } s
    else s
  | _ => s

/-- The HF counter moves on to n while HF runs; a running frame latches up to that qtick, the pair of a discovery hold is excited in its
turn, and the code of an AOUT_SET that has come due by then applies. -/
def advance (n : Nat) (s : State) : State :=
  if hfRunning s then
    discExcites (dueBy (max s.clk.hf n) (latchFrame (max s.clk.hf n) { s with clk := { s.clk with hf := max s.clk.hf n } }))
  else s

/-- A carriage not started yet. -/
def CarRun.fresh : CarRun :=
  { state := .waiting, refWarn := false, reason := 0, val := none, filter := 0, synced := false, converting := false,
    late := false, clip := false, held := false, read := none, fmt := none, stamp := { sec := 0, frac := 0, coarse := false } }

/-- A late seal of channel c at the present qtick: carriages naming c that end after it carry DESC_LATE (R182); of a frame that finishes on
the bypass clock, all that still run (R176). -/
def markLate (c : BitVec 5) (f : Frame) : Frame :=
  { f with
    late := c :: f.late
    runs := (List.range f.runs.length).map (fun i =>
      let r := f.runs.getD i CarRun.fresh
      if (carAt f.img.cars i).names && (carAt f.img.cars i).ch == c && r.state != .done &&
          (f.slow || decide (f.qtick < (carAt f.img.cars i).stop)) then { r with late := true } else r) }

/-- A seal in the last qtick before an awaited frame's qtick 0 registers at qtick 0: the copy it replaces is kept (R176). -/
def holdSeal (c : BitVec 5) (s : State) : State :=
  { s with tt := { s.tt with await := s.tt.await.map (fun a =>
      match a.base with
      | some b =>
        if hfRunning s && decide (b < s.clk.hf + 8) && decide (s.clk.hf < b + 8) && !a.seals.any (fun x => x.1 == c) then
          { a with seals := (c, sealedOf s c) :: a.seals }
        else a
      | none => a) } }

/-- The scheduled end of the last carriage that runs. -/
def lastEnd (f : Frame) : Nat :=
  ((List.range f.runs.length).map (fun i =>
    if (f.runs.getD i CarRun.fresh).state == .running then (carAt f.img.cars i).stop else 0)).foldl max 0

/-- A seal committed now registers at the end of the running frame, or after it: at its body end, or at the end of the last carriage that
runs of a cut one. The frame is over by then (R176, R200). -/
def sealsNext (f : Frame) (s : State) : Bool :=
  !f.slow && decide ((if f.cut then lastEnd f else f.img.body) ≤ f.qtickOf s.clk.hf)

/-- A seal that registers at the body end: the copy it replaces is kept for the frame that follows there (R176). -/
def Frame.keepSeal (c : BitVec 5) (old : List Byte) (f : Frame) : Frame :=
  { f with seals := if f.seals.any (fun x => x.1 == c) then f.seals else (c, old) :: f.seals }

/-- What a seal of channel c means to the running frame: one of a latched channel is late, and the first such seal of a channel in a frame
raises source 47 (R182). -/
def sealInFrame (c : BitVec 5) (old : List Byte) (f : Frame) (s : State) : State :=
  if sealsNext f s then { s with tt := { s.tt with frame := some (f.keepSeal c old) } }
  else if (versionOf f c).isSome then
    raiseIf (!f.late.contains c) 47 { s with tt := { s.tt with frame := some (markLate c f) } }
  else s



/-- A seal (R173, R176, R177, R182): the running frame first latches up to the qtick in which the seal registers, with the copies that stood
before it; the sealed copy takes the host copy, and what registers late is late. -/
def sealChannel (c : BitVec 5) (s : State) : State :=
  let d := memLoad s.mem (0x1000 + 32 * c.toNat) 32
  let old := sealedOf s c
  let s := latchFrame s.clk.hf s
  let s := if s.tt.frame.isNone then holdSeal c s else s
  let s := { s with ros := { s.ros with sealed := s.ros.sealed.set c.toNat d } }
  match s.tt.frame with
  | none => s
  | some f => sealInFrame c old f s

/-! ## Descriptor checks at a carriage's start (Table 9.3) -/

/-- kind suits the operation. -/
def kindSuits (op kind : Nat) : Bool :=
  if op = oConvert then kind == 0
  else if op = oAux then kind == 1
  else if op = oCouple then kind == 2
  else if op = oExcite then kind == 0 || kind == 1
  else kind != 3

/-- The resource disagrees with the channel. -/
def resDisagrees (c : Carriage) (d : List Byte) : Bool :=
  (c.op == oConvert && c.res != dPort d) || (c.op == oExcite && c.res != (if pairOf (dPort d) then 6 else 5))

/-- The frame version of a channel, or its sealed copy where no carriage of the frame names it. -/
def versionOr (s : State) (f : Frame) (c : BitVec 5) : List Byte := (versionOf f c).getD (sealedOf s c)

/-- The checks of Table 9.3 on a carriage with its frame version: the reason, or none. -/
def descFault (s : State) (f : Frame) (c : Carriage) (d : List Byte) : Option Nat :=
  if !c.names then none
  else if !dEn d then some rState
  else if dKind d = 3 ∨ !kindSuits c.op (dKind d) then some rArgs
  else if resDisagrees c d then some rArgs
  else if c.op = oCouple ∧
      (dOpA d = c.ch ∨ dOpB d = c.ch ∨ dKind (versionOr s f (dOpA d)) > 1 ∨ dKind (versionOr s f (dOpB d)) > 1) then some rArgs
  else none

/-- The depot holds the channels of the latest fetches, at most eight, newest first (R177, R178). -/
def fetch (chs : List (BitVec 5)) (s : State) : State :=
  { s with ros := { s.ros with depot := (chs ++ s.ros.depot.filter (fun c => !chs.contains c)).take 8 } }

/-- The channels of the start group at a qtick. -/
def groupAtTick (cs : List Carriage) (q : Nat) : List (BitVec 5) :=
  ((cs.filter (fun c => c.start == q && c.names)).map (fun c => c.ch)).eraseDups

/-- The start of the group after qtick q, if any. -/
def nextGroup (cs : List Carriage) (q : Nat) : Option Nat := (cs.find? (fun c => decide (q < c.start))).map (fun c => c.start)

end Sys2Proof.Machine
end

