-- ==== Sys2Proof/Machine/Afe.lean ====
section
/-! DEFINITION. The front end: excitation pairs (R152 to R155, R179), AFE_DIAG and its sources (R165, R166, R168). -/

namespace Sys2Proof.Machine

/-- The pair switched off: high-Z, its DAC channel idle, no pre-settle (R153, R154). -/
def Pair.offed (x : Pair) : Pair := { x with on := false, drive := false, presettle := none, senseLost := false }

/-- A pair is held by a discovery job (R322). -/
def pairHeld (s : State) (p : Bool) : Bool := s.cal.holdPair.getLsbD p.toNat

/-- Every pair that is not held is switched off and its pre-settle withdrawn (R153, R179, R200). -/
def releasePairs (s : State) : State :=
  { s with afe := { s.afe with
      pairA := if pairHeld s false then s.afe.pairA else s.afe.pairA.offed
      pairB := if pairHeld s true then s.afe.pairB else s.afe.pairB.offed } }

/-- Both pairs off, held or not: the brown-out warning, resets (R42, R153). -/
def allPairsOff (s : State) : State :=
  { s with afe := { s.afe with pairA := s.afe.pairA.offed, pairB := s.afe.pairB.offed } }

/-- Both pre-settles withdrawn (R179). -/
def withdrawPresettles (s : State) : State :=
  { s with afe := { s.afe with
      pairA := { s.afe.pairA with presettle := none }, pairB := { s.afe.pairB with presettle := none } } }

/-- EXCITE drives its pair at the descriptor's level, polarity pol XOR the reversal state (R152). A driver that regulates at the EX pins
after a sense loss goes on so until the pair is off (R154). -/
def exciteBy (d : List Byte) (x : Pair) : Pair :=
  { x with
    on := true, current := dCurrent d,
    code := BitVec.ofNat 12 (min (dExcCode d) (if dCurrent d then 2360 else 3600)), drive := dPol d != x.rev,
    presettle := none, senseLost := x.on && x.senseLost }

/-- The reversal state at a frame start (R155): rev set flips it, but in the first frame after a change of rev. -/
def Pair.atFrame (rev : Bool) (x : Pair) : Pair :=
  { x with rev := rev && !x.revFresh && !x.rev, revFresh := false }

/-- AFE_CTL takes effect and the reversal states flip at a frame start (R155, R170). -/
def afeFrameStart (s : State) : State :=
  { s with afe := { s.afe with
      eff := s.afe.ctl
      pairA := s.afe.pairA.atFrame (bitOf s.afe.ctl 6)
      pairB := s.afe.pairB.atFrame (bitOf s.afe.ctl 7) } }

/-- Latches bits of AFE_DIAG, and notes the moment (R12). -/
def diagBits (b : Nat) (s : State) : State :=
  { s with afe := { s.afe with
      diag := s.afe.diag ||| BitVec.ofNat 22 b
      diagNew := (if s.afe.diagAt = qtickNow s then s.afe.diagNew else 0) ||| BitVec.ofNat 22 b, diagAt := qtickNow s } }

/-- The bits of AFE_DIAG that latched in the present qtick, which a W1C write committed now leaves set (R12). -/
def diagNow (s : State) : BitVec 22 := if hfRunning s && s.afe.diagAt == qtickNow s then s.afe.diagNew else 0

/-- A port bit latches, with source 24 + k (R168). -/
def diagPort (bit k : Nat) (s : State) : State := raise (24 + k) (diagBits (2 ^ (bit + k)) s)

/-- Overrange on port k: source 28 + k (R168). -/
def diagOver (k : Nat) (s : State) : State := raise (28 + k) (diagBits (2 ^ k) s)

/-- A pair bit latches, with the sources 24 + k of both its ports (R168). -/
def diagPair (bit : Nat) (p : Bool) (s : State) : State :=
  let k := if p then 2 else 0
  raise (25 + k) (raise (24 + k) (diagBits (2 ^ (bit + p.toNat)) s))

/-- The LEAK threshold in pA (Table 8.8). -/
def leakThr (ctl : Word) : Int :=
  match fld ctl 8 2 with | 0 => 200000 | 1 => 100000 | 2 => 400000 | _ => 1000000

/-- A LEAK value is classified (R166). -/
def classifyLeak (p : Bool) (v : Int) (s : State) : State :=
  if v ≥ leakThr s.afe.eff then diagPair 18 p s else s

/-- One node of an ARM: arm_open, else arm_short (R166); impedances in units of 2 ohms. -/
def armOpen (x y : Nat) : Bool := decide (x > 50000) || decide (2 * x > 3 * y)
def armShort (x y : Nat) : Bool := decide (x < 5) || decide (8 * x < y)

/-- An ARM value of port k is classified (R166). -/
def classifyArm (k : Nat) (zp zn : Nat) (s : State) : State :=
  let isOpen := armOpen zp zn || armOpen zn zp
  let short := (!armOpen zp zn && armShort zp zn) || (!armOpen zn zp && armShort zn zp)
  when short (diagPort 8 k) (when isOpen (diagPort 4 k) s)

/-- The overrange threshold of AFE_CTL.ovr_lvl is reached (Table 8.8). -/
def overLevel (ctl : Word) (v : Int) : Bool :=
  match fld ctl 10 2 with
  | 0 => false
  | 1 => decide (7340032 ≤ v.natAbs)
  | 2 => decide (6291456 ≤ v.natAbs)
  | _ => decide (4194304 ≤ v.natAbs)

/-- The temperature of the die in 1/16 degree: what the always-on sensor reads, less its error of at most 1.0 degree (Table 19.10). -/
def dieTrue (s : State) : Int := s.pins.dieTemp.toInt - within (-16) 16 s.pins.part.tempErr

/-- A quantity of 25 degrees at the die's temperature, by so many ppm per degree, at most 25 either way (Tables 19.6, 19.7; a line through
25 degrees: log entry 72). -/
def drifted (s : State) (ppm n : Int) : Int := n + divrhe (n * within (-25) 25 ppm * (dieTrue s - 400)) 16000000

/-- The internal reference of the part in uV, within Table 19.6 (R354). -/
def refUv (s : State) : Nat := (drifted s s.pins.part.refDrift (within 1198800 1201200 s.pins.part.vRef)).toNat

/-- The reference of a conversion in uV: the part's internal 1.200 V, or the sense voltage of the port's pair (R156, R354). -/
def vRef (s : State) (ref : Bool) (senseUv : Nat) : Nat := if ref then refUv s else senseUv

/-- The input full scale V_ref / 2^pga, as numerator and denominator (R157). -/
def fullScale (s : State) (g : Stage) (senseUv : Nat) : Nat × Nat := (vRef s g.ref senseUv, 2 ^ g.pga)

/-- The nominal raw value of an input in uV, 2^23 x input / FS (R157). -/
def nominalRaw (s : State) (g : Stage) (inUv : Int) (senseUv : Nat) : Int :=
  divrhe (8388608 * inUv * ((fullScale s g senseUv).2 : Int)) (fullScale s g senseUv).1

/-- An input beyond 1.05 FS, which the clip detector finds (R157). -/
def clips (s : State) (g : Stage) (inUv : Int) (senseUv : Nat) : Bool :=
  decide (105 * (fullScale s g senseUv).1 < 100 * inUv.natAbs * (fullScale s g senseUv).2)

/-- A ratiometric reference below 0.5 V: the full scale is not defined (R157). -/
def lowRef (g : Stage) (senseUv : Nat) : Bool := !g.ref && decide (senseUv < 500000)

/-- The input stage of modulator k. -/
def stageAt (s : State) (k : Nat) : Stage := s.afe.stages.getD k { port := BitVec.ofNat 2 k, pga := 0, ref := false }

/-- The driver of a pair in a part (Table 19.7). -/
def excPart (s : State) (p : Bool) : ExcPart := if p then s.pins.part.excB else s.pins.part.excA

/-- AFE_CTL.kelvin of a pair, in force. -/
def kelvinOf (s : State) (p : Bool) : Bool := bitOf s.afe.eff (if p then 5 else 4)

/-- The level an excited pair aims at: 0.900 V + 0.5 mV x code in uV, or 20 uA + 0.5 uA x code in nA (Table 8.2), with the driver's level
error, of at most 0.2 % + 1 mV with its drift, or 0.5 % + 0.2 uA (Table 19.7). -/
def pairTarget (s : State) (p : Bool) : Nat :=
  let x := pairAt s p
  let e := excPart s p
  let n : Int := (if x.current then 20000 else 900000) + 500 * (x.code.toNat : Int)
  if x.current then (divrhe (n * (1000000 + within (-5000) 5000 e.iGain)) 1000000 + within (-200) 200 e.iOff).toNat
  else (drifted s e.vDrift (divrhe (n * (1000000 + within (-2000) 2000 e.vGain)) 1000000 + within (-1000) 1000 e.vOff)).toNat

/-- The voltage-mode driver regulates its level at the sense pair: kelvin is set, and no sense loss has been found since the pair was
switched on (R154, R355); else at the EX pins. -/
def atSense (s : State) (p : Bool) : Bool := kelvinOf s p && !(pairAt s p).senseLost

/-- What a driver wants at its EX pins before a load and its leads in ohms, the load between the sense pins: in voltage mode the voltage in
uV that puts the level at the node it regulates, unbounded where that node is shorted; in current mode its current in nA. -/
def pairWants (s : State) (p : Bool) (ohms leads : Nat) : Option Nat :=
  let t := pairTarget s p
  if (pairAt s p).current || !atSense s p then some t
  else if ohms = 0 then none
  else some (t * (ohms + leads) / ohms)

/-- The limit of a driver across so many ohms between its EX pins (R152): in voltage mode the lower of VDD - 0.3 V and its current limit
through them, 12 mA within Table 19.7, in uV; in current mode the current in nA at which the high pin reaches VDD - 0.4 V, and none across
a short, where it never does. The low pin stands at 0 V there, which the spec does not state (DESIGN CHOICE, log entry 110). -/
def pairBound (s : State) (p : Bool) (ohms : Nat) : Option Nat :=
  if (pairAt s p).current then (if ohms = 0 then none else some ((s.pins.vdd - 400) * 1000000 / ohms))
  else some (min ((s.pins.vdd - 300) * 1000) ((within 10200 13800 (excPart s p).iLim).toNat * ohms))

/-- A pair drives its EX pins: it is on, and test 6 of a SELFTEST has not disconnected them (Table 18.6). -/
def pairDrives (s : State) (p : Bool) : Bool := (pairAt s p).on && !s.cal.holdExc

/-- What a pair drives at its EX pins, positive where EXxP is the high pin, in uV or in current mode in nA (R152 to R154, R355): nothing
while it does not drive. -/
def pairLevel (s : State) (p : Bool) (ohms leads : Nat) : Option Int :=
  let n : Nat := match pairWants s p ohms leads, pairBound s p (ohms + leads) with
    | some t, some b => min t b
    | some t, none => t
    | none, some b => b
    | none, none => 0
  if !pairDrives s p then none else some (if (pairAt s p).drive then -(n : Int) else n)

/-- What its drive puts across the load, at the sense pair, in uV. -/
def senseLevel (s : State) (p : Bool) (ohms leads : Nat) : Option Int :=
  (pairLevel s p ohms leads).map (fun n =>
    if (pairAt s p).current then n * (ohms : Int) / 1000 else if ohms + leads = 0 then 0 else n * (ohms : Int) / ((ohms + leads : Nat) : Int))

/-- A limit holds at a pair (R152): AFE_DIAG.exc_limit latches once it has held for more than 2 us, which DIAG_CHECK_FIRE reports. -/
def limitHolds (s : State) (p : Bool) (ohms leads : Nat) : Bool :=
  pairDrives s p && (match pairWants s p ohms leads, pairBound s p (ohms + leads) with
    | some t, some b => decide (b < t)
    | none, some _ => true
    | _, none => false)

/-- A port is enabled for carriages (Table 8.8). -/
def portOn (s : State) (k : Nat) : Bool := bitOf s.afe.eff k

/-- Replaces port k. -/
def setPort (k : Nat) (p : Port) (s : State) : State := { s with disc := { s.disc with ports := s.disc.ports.set k p } }

/-- A port is registered as detached: state ABSENT (R314, Table 17.1). -/
def portGone (s : State) (k : Nat) : Bool := (portAt s k).state == 1

/-- A port without its binding and its installed table (R320). -/
def Port.unbound (p : Port) : Port := { p with slot := none, override := false, table := none, installing := false }

/-- port_en applies to a port: a bit that becomes 0 disables it and drops its binding, one that becomes 1 makes it ABSENT
(R315). A job that waits outside the full queue goes on waiting (R321). -/
def Port.enable (now : Bool) (p : Port) : Port :=
  if !now then { p.unbound with state := 0, present := 0, absent := 0, taken := none }
  else if p.state = 0 then { p with state := 1, present := 0, absent := 0 }
  else p

/-- port_en applies to the sentinels and to discovery (R315). -/
def applyPortEn (en : BitVec 4) (s : State) : State :=
  { s with disc := { s.disc with
      en := en
      ports := (List.range 4).map (fun k => (portAt s k).enable (en.getLsbD k)) } }

end Sys2Proof.Machine
end

