-- ==== Sys2Proof/Machine/Acquire.lean ====
section
/-! DEFINITION. Acquisition of the HF clock (R130 to R133, R143, R148). -/

namespace Sys2Proof.Machine

/-- CLK_SRC.sel. -/
def clkSel (s : State) : Nat := fld s.clk.src 0 2

/-- A plan is valid on a reference (R130). -/
def planValid (ref : ClkRef) (p : Plan) : Bool :=
  let f := fNomOf ref p
  match ref with
  | .fallback => true
  | .hfrc => decide (360000 ≤ f) && decide (f ≤ 440000)
  | _ =>
    decide (12000 ≤ p.fref.toNat) && decide (p.fref.toNat ≤ 52000) && decide (4 ≤ p.mult.toNat) &&
      decide (p.mult.toNat ≤ 40) && decide (360000 ≤ f) && decide (f ≤ 440000)

/-- The place of the band code in use: the active plan, or FB under fallback (R131, R135). -/
def bandSlot (s : State) : Nat := if s.clk.ref == .fallback then 4 else s.clk.active.toNat

/-- The acquisition is a routine re-lock: no source, no new relative mode (R139, R148). -/
def AcqBy.routine : AcqBy → Bool
  | .preWake => true
  | .async => true
  | .job => true
  | _ => false

/-- The Q and the drift window of another reference or plan are discarded (R138, R144). -/
def discardQ (s : State) : State := { s with clk := { s.clk with q := none, qb := none, qHist := [], periods := 0, winQ := 0, runEdge := false } }

/-- The acquisition runs on another reference than the one the held Q belongs to (R138). -/
def otherRef (s : State) : Bool := match s.clk.acq with | some a => a.prev != s.clk.ref | none => false

/-- Q and the drift window are discarded where the reference has changed: a routine re-lock that finds REFIN missing again stays
under fallback (R138, R139). -/
def changeRef (s : State) : State := if otherRef s then discardQ s else s

/-- The reference has become the fallback: any but a routine re-lock, which may stay under it, goes on in relative mode without a Q (R139,
R246). -/
def underFallback (a : Acq) (s : State) : State := if a.cause.routine then changeRef s else discardQ s

/-- Changes the fast filters confirm are abandoned when HF stops or is bypassed (R238), and so is an accepted rise of SYNC whose sync qtick
no longer comes, which R240 leaves open (DESIGN CHOICE, log entry 107). -/
def dropFast (s : State) : State :=
  { s with evin := { s.evin with
      rise := none, handAt := none, cmpAt := none
      conf := s.evin.conf.map (fun c => match c with | some (.fast ..) => none | x => x) } }

/-- The state an acquisition runs in, from its start (R131): HF starts anew, and with it the spread (R146). In relative mode no Q holds
after any but a routine re-lock, until the first window closes (R139, R246). -/
def acqBegin (cause : AcqBy) (s : State) : State :=
  let ref : ClkRef := if clkSel s = 1 then .refin else .hfrc
  { s with
    clk := { s.clk with
      ref := ref
      state := .acq
      acq := some { cause := cause, hop := (s.clk.bands.getD s.clk.active.toNat none).isSome, windows := 0,
                    fromHf := s.clk.state == .locked, prev := s.clk.ref }
      caps := if s.tt.frame.isSome then s.clk.caps else []
      runFrom := s.clk.hf
      runEdge := false
      spreadNow := s.clk.spreadNew.getD s.clk.spreadNow, spreadNew := none, spreadFrom := s.clk.hf
      qb := if cause.routine then s.clk.qb else none
      q := if cause.routine || (ref == .refin && !(activePlan s).rel) then s.clk.q else none
      qHist := if cause.routine || (ref == .refin && !(activePlan s).rel) then s.clk.qHist else [] } }

/-- Pre-settles ahead of a frame that never starts are withdrawn (R179). -/
def dropAhead (s : State) : State :=
  let keep := s.tt.frame.isSome
  { s with
    ros := { s.ros with ahead := false }
    afe := { s.afe with
      pairA := if keep then s.afe.pairA else { s.afe.pairA with presettle := none }
      pairB := if keep then s.afe.pairB else { s.afe.pairB with presettle := none } } }

/-- On the bypass clock the sequencer is halted (R142). A failed acquisition is none of the halts of R134, R137 and R141 at which the fault
code applies (R272). -/
def haltOnBypass (s : State) : State := { s with tt := { s.tt with halted := true } }

/-- A source 46 record (Table 12.6): cause 0 dropped during a frame, 1 bypass, 2 TT_START skipped. -/
def lateTrigger (cause : Nat) (lateness : Nat) (fl : LogFlags) (g : Nat × Stamp) (s : State) : State :=
  logRecord 46 g.2 (put 0 5 g.1 ||| put 5 2 cause ||| put 8 24 (min lateness 0xFFFFFF)) fl (raise 46 s)

/-- A frame that awaits starts no more on the bypass clock: each of its triggers raises source 46 (R142, R203, R242). -/
def dropAwait (s : State) : State :=
  match s.tt.await with
  | some a => forAll a.trigs (lateTrigger 1 0 {}) { s with tt := { s.tt with await := none } }
  | none => s

/-- A trigger queued where no frame runs starts none on the bypass clock either (R142, R203). -/
def dropQueued (s : State) : State :=
  match s.tt.frame, s.tt.queued with
  | none, some x => forAll x.trigs (lateTrigger 1 0 {}) { s with tt := { s.tt with queued := none } }
  | _, _ => s

/-- A failed acquisition: MEAS on the bypass clock, source 17, and 18 when HF ran at its start; a frame that awaits the
lock is not started, its triggers raise source 46, and its pre-settles are withdrawn (R131, R142, R143, R148, R179). CLK_STAT.ref keeps the
reference of the last acquisition in BYPASS, as in PARKED: Table 7.7 says only "reference in use" (R149; DESIGN CHOICE, log entry 102). -/
def acqFailed (err : BitVec 3) (s : State) : State :=
  let from18 : Bool := match s.clk.acq with | some a => a.fromHf | none => false
  let s := changeRef s
  dropQueued <| dropAwait <| dropAhead (dropFast <| raiseIf from18 18 (raise 17 (haltOnBypass
    { s with
      clk := { s.clk with
        acq := none, state := .bypass, bypass := true, episode := true, accErr := err, periods := 0, winQ := 0, runEdge := false }
      tt := { s.tt with freeRun := false } })))

/-- A retry acquisition starts: it counts, and the next is due 8 192 kticks later (R143). A retry on an invalid plan fails
at once. -/
def retry (s : State) : State :=
  if clkSel s = 0 then s
  else
    let t := acqBegin .retry
      { s with clk := { s.clk with retries := satAdd 255 s.clk.retries 1, retryIn := some 8192 } }
    if planValid t.clk.ref (activePlan t) then t else acqFailed 3 t

/-- An acquisition fails; the first retry comes at once, a failed retry waits for its period (R143). -/
def acqFail (err : BitVec 3) (s : State) : State :=
  let again : Bool := match s.clk.acq with | some a => a.cause == .retry || s.clk.retryIn.isSome | none => false
  if again then acqFailed err s else retry (acqFailed err s)

/-- An acquisition starts, unless CLK_SRC.sel selects no reference (R131, R134); an invalid plan fails it at once (R130). -/
def acquire (cause : AcqBy) (s : State) : State :=
  if clkSel s = 0 then s
  else
    let t := acqBegin cause s
    if planValid t.clk.ref (activePlan t) then t else acqFail 3 t

/-- A start of the MDLL where it does not run yet (pre-wake, asynchronous trigger, a job that needs HF). -/
def wakeHf (cause : AcqBy) (s : State) : State :=
  if hfRunning s || s.clk.bypass then s else acquire cause s

/-- The MDLL stops and is parked with its band code (R136, R199). -/
def park (s : State) : State :=
  if s.clk.state == .locked then
    dropAhead <| dropFast { s with clk := { s.clk with state := if s.clk.bypass then .bypass else .parked, runEdge := false } }
  else s

/-- MEAS moves from HF to the bypass clock: source 18 (R134, R137, R141). -/
def bypassIn (s : State) : State :=
  dropFast <| raiseIf (!s.clk.bypass && s.clk.state == .locked) 18
    { s with clk := { s.clk with bypass := true, episode := s.clk.episode || (!s.clk.bypass && s.clk.state == .locked) } }

/-- MEAS moves to HF: source 19 at the end of a bypass episode, the sequencer resumes (R143). -/
def bypassOut (s : State) : State :=
  raiseIf (s.clk.bypass && s.clk.episode) 19
    { s with
      clk := { s.clk with bypass := false, episode := false, accErr := if s.clk.bypass then 0 else s.clk.accErr }
      tt := { s.tt with halted := false } }

end Sys2Proof.Machine
end

