-- ==== Sys2Proof/Machine/Ledger.lean ====
section
/-! DEFINITION. The ledger: additions, snapshot instants, laps and record contents (R278 to R289). -/

namespace Sys2Proof.Machine

/-- LDG_CTL.en. -/
def ldgEn (s : State) : Bool := bitOf s.ldg.ctl 0

/-- The recovery of this main start is done (R287). -/
def ldgStarted (s : State) : Bool := s.sys.phase == .ledger || s.sys.phase == .ready

/-- The ledger records: enabled, recovered, out of a MEAS reset (R287, R288, R373). -/
def ldgOn (s : State) : Bool := ldgEn s && ldgStarted s && !s.sys.measRst && s.ldg.recovers.isNone

/-- The interval in seconds, 0 for none (Table 15.4). -/
def ldgIvl (s : State) : Nat := min (fld s.ldg.ctl 4 12) 3600

/-- The checkpoint period in seconds, 0 for none (Table 15.4). -/
def ldgCkpt (s : State) : Nat := min (fld s.ldg.ctl 16 6) 60

/-- The device is in RUN from the registration of a cause (R47); the modulator takes a code that waited (R267). -/
def wakeMain (s : State) : State := outSettle { s with sys := { s.sys with pstate := .run } }

/-- LEDGER_ADD skips a value with these flags (R279). -/
def ldgSkips (flags : BitVec 16) (s : State) : Bool :=
  (flags &&& fSettling != 0 && !bitOf s.ldg.ctl 23) || (flags &&& (fStale ||| fCalHold) != 0 && !bitOf s.ldg.ctl 22)

/-- LEDGER_ADD of integer d with the value's flags to accumulator a (R279). -/
def ldgAdd (a : Nat) (d : Int) (flags : BitVec 16) (s : State) : State :=
  if ldgSkips flags s then { s with ldg := { s.ldg with skipped := satAdd 15 s.ldg.skipped 1 } }
  else
    { s with ldg := { s.ldg with
        run := s.ldg.run.set a (s.ldg.run.getD a 0 + BitVec.ofInt 64 (BitVec.ofInt 32 d).toInt)
        cnt := s.ldg.cnt.set a (s.ldg.cnt.getD a 0 + 1)
        added := true } }

/-- No occasion. -/
def LdgReq.none : LdgReq :=
  { lap := false, zero := false, ckpt := false, interval := false, short := false, timeSet := false, cut := false, cmds := [] }

/-- An occasion registers. -/
def LdgReq.any (r : LdgReq) : Bool := r.lap || r.ckpt || r.interval || r.cut

/-- The kind of a record: its highest-ranked occasion (Table 15.1). -/
def LdgReq.kind (r : LdgReq) : Nat := if r.cut then 4 else if r.lap then 3 else if r.interval then 2 else 1

/-- The flags of a record (Table 15.3). -/
def LdgReq.flags (r : LdgReq) (coarse prev : Bool) : Byte :=
  BitVec.ofNat 8 (r.cut.toNat + 2 * r.interval.toNat + 4 * r.lap.toNat + 8 * (r.interval && r.short).toNat +
    16 * r.timeSet.toNat + 32 * coarse.toNat + 64 * (r.lap && r.zero).toNat + 128 * prev.toNat)

/-- The NV page operation in progress belongs to a ledger record. -/
def nvLedger (s : State) : Bool := match s.nv.op with | some o => o.ledger && !o.orphan | none => false

/-- The page being written belongs to a ledger record with a page still to write (R284). -/
def ldgSetAside (s : State) : Bool :=
  nvLedger s && (match s.ldg.job with | some j => j.pages == 0 | none => false)

/-- A record joins the records to write: a cut record ahead of all but the page in progress (R284), others behind. -/
def ldgQueue (j : LdgJob) (cut : Bool) (l : Ldg) (busy : Bool) : Ldg :=
  match l.job with
  | none => { l with job := some j }
  | some k =>
    if cut then (if busy then { l with jobs := j :: l.jobs } else { l with job := some j, jobs := k :: l.jobs })
    else { l with jobs := l.jobs ++ [j] }

/-! ## Record contents (Table 15.2) -/

/-- Page 0 of a record. -/
def recPage0 (r : LdgRec) : List Byte :=
  leBytes 4 r.stamp.sec.toNat ++ leBytes 4 r.stamp.frac.toNat ++ leBytes 2 r.seq.toNat ++ leBytes 1 r.kind ++ [r.flags] ++
    leBytes 2 r.lap.toNat ++ leBytes 2 0 ++ (r.run.take 6).flatMap (fun v => leBytes 8 v.toNat)

/-- Page 1 of a record. -/
def recPage1 (r : LdgRec) : List Byte :=
  leBytes 2 r.seq.toNat ++ leBytes 1 r.kind ++ leBytes 1 r.refused ++ (r.run.drop 6).flatMap (fun v => leBytes 8 v.toNat) ++
    r.cnt.flatMap wordBytes ++ leBytes 4 r.ivlStart.toNat ++ leBytes 2 r.srcSeq.toNat ++ leBytes 1 r.wfail ++
    leBytes 1 r.cause ++ leBytes 4 0

/-! ## Instants -/

/-- The occasions of two registrations of one instant. -/
def LdgReq.merge (a b : LdgReq) : LdgReq :=
  { lap := a.lap || b.lap, zero := a.zero || b.zero, ckpt := a.ckpt || b.ckpt, interval := a.interval || b.interval
    short := a.short || b.short, timeSet := a.timeSet || b.timeSet, cut := a.cut || b.cut, cmds := a.cmds ++ b.cmds }

/-- A new snapshot instant, with its qtick if it has one (R280): one snapshot, the lap switch, one record queued for its two pages. -/
def ldgNew (q : Option Nat) (r : LdgReq) (stamp : Stamp) (s : State) : State :=
  let lap := if r.lap then s.ldg.lap + 1 else s.ldg.lap
  let ivlStart := if r.interval then s.rtc.sec else s.ldg.ivlStart
  let snap : LdgRec :=
    { stamp := stamp, seq := s.ldg.seq, kind := r.kind, flags := r.flags stamp.coarse (r.cut && ldgSetAside s), lap := lap,
      run := s.ldg.run, cnt := s.ldg.cnt, refused := s.ldg.refused, ivlStart := ivlStart, srcSeq := 0,
      wfail := s.ldg.wfailCnt, cause := 0 }
  let zero := r.lap && r.zero
  let l := { s.ldg with
    lap := lap, ivlStart := ivlStart, seq := s.ldg.seq + 1, refused := 0, wfailCnt := 0, sinceRec := 0, added := false
    short := if r.interval then false else s.ldg.short
    run := if zero then List.replicate 8 0 else s.ldg.run
    cnt := if zero then List.replicate 8 0 else s.ldg.cnt
    offPend := false, inst := q.map (fun n => { qtick := n, req := r, seq := s.ldg.seq }) }
  let j := ldgQueue { snap := snap, pages := 0, bad := false, cmds := r.cmds } r.cut l (nvLedger s)
  raiseIf r.interval 62 (wakeMain { s with ldg := j })

/-- The record of an instant that its qtick's later registration r joins. -/
def LdgRec.joined (x : LdgInst) (r : LdgReq) (aside : Bool) (sec : Word) (refused : Nat) (n : LdgRec) : LdgRec :=
  let m := x.req.merge r
  { n with
    kind := m.kind, flags := m.flags (n.flags.getLsbD 5) (n.flags.getLsbD 7 || aside)
    lap := if r.lap && !x.req.lap then n.lap + 1 else n.lap, refused := satAdd 255 n.refused refused
    ivlStart := if r.interval && !x.req.interval then sec else n.ivlStart }

/-- The record of an instant stands before all but the page in progress, once it is a cut record (R284). -/
def ldgPromote (seq : BitVec 16) (busy : Bool) (l : Ldg) : Ldg :=
  match l.jobs.find? (fun j => j.snap.seq == seq) with
  | some j => ldgQueue j true { l with jobs := l.jobs.filter (fun k => k.snap.seq != seq) } busy
  | none => l

/-- The record of an instant whose writing has not ended a page yet. -/
def instOpen (x : LdgInst) (s : State) : Bool := (s.ldg.job.toList ++ s.ldg.jobs).any (fun j => j.snap.seq == x.seq && j.pages == 0)

/-- The record of an instant is in hand. -/
def inHand (x : LdgInst) (s : State) : Bool := s.ldg.job.any (fun j => j.snap.seq == x.seq)

/-- The page of the record in hand that is being written takes the record's new contents. -/
def ldgRewrite (x : LdgInst) (s : State) : State :=
  if nvLedger s && inHand x s then
    { s with nv := { s.nv with op := s.nv.op.map (fun o =>
        { o with write := o.write.map (fun w => (w.1, w.2.1, (s.ldg.job.map (fun j => recPage0 j.snap)).getD w.2.2)) }) } }
  else s

/-- What registers later in the qtick of an instant belongs to it (R280, R281): one snapshot, one switch, one record. -/
def ldgJoin (x : LdgInst) (r : LdgReq) (s : State) : State :=
  let up := fun (j : LdgJob) =>
    if j.snap.seq = x.seq then
      { j with snap := j.snap.joined x r (r.cut && ldgSetAside s && !inHand x s) s.rtc.sec s.ldg.refused, cmds := j.cmds ++ r.cmds }
    else j
  let zero := r.lap && r.zero && !(x.req.lap && x.req.zero)
  let ends := r.interval && !x.req.interval
  let l := { s.ldg with
    lap := if r.lap && !x.req.lap then s.ldg.lap + 1 else s.ldg.lap
    ivlStart := if ends then s.rtc.sec else s.ldg.ivlStart
    short := if ends then false else s.ldg.short, refused := 0
    run := if zero then List.replicate 8 0 else s.ldg.run
    cnt := if zero then List.replicate 8 0 else s.ldg.cnt
    offPend := false, inst := some { x with req := x.req.merge r }, job := s.ldg.job.map up, jobs := s.ldg.jobs.map up }
  raiseIf ends 62 (wakeMain (ldgRewrite x { s with ldg := if r.cut then ldgPromote x.seq (nvLedger s) l else l }))

/-- A registration of occasions, with its qtick if it has one (R280): it makes a snapshot instant, or joins that of its qtick. -/
def ldgInstant (q : Option Nat) (r : LdgReq) (stamp : Stamp) (s : State) : State :=
  if !r.any then s
  else
    match s.ldg.inst with
    | some x => if q == some x.qtick && instOpen x s then ldgJoin x r s else ldgNew q r stamp s
    | none => ldgNew q r stamp s

/-- An alarm or EV lap request that cannot act: counted, and source 63 under the warning (R281, log entry 19). -/
def lapRefused (s : State) : State :=
  raiseIf s.pwr.warn 63 { s with ldg := { s.ldg with refused := satAdd 255 s.ldg.refused 1 } }

/-- An alarm or EV lap request can act: enabled, and no warning held before it (R281). In a MEAS reset, and while a recovery waits for records,
its switch waits with the ledger (DESIGN CHOICE, log entry 108). -/
def lapAllowed (s : State) : Bool := ldgEn s && !s.pwr.warn

/-- A direct ledger command fails with its completion record (R289). -/
def ldgCmdDone (reason : Nat) (detail : Word) (c : LdgCmd) (s : State) : State :=
  cplRecord (if c.lap then 0x0E else 0x0F) false true reason c.tag detail s

/-- Requests go on waiting, and so does a CHECKPOINT that is owed: in a MEAS reset (R345), before the recovery of a main start, and while a
recovery waits for records (DESIGN CHOICE, log entry 108). -/
def ldgBusy (s : State) : Bool := s.sys.measRst || s.ldg.recovers.isSome || (ldgEn s && !ldgStarted s)

/-- The direct commands that wait register, and the laps that wait with them (R281, R289); with the ledger off the commands complete
REJECTED_STATE. All of them were committed before a warning that holds, which refuses none of them (R284, `submitDirect`). -/
def ldgTakeCmds (r : LdgReq) (s : State) : LdgReq × State :=
  if ldgBusy s then (r, s)
  else
    let w := s.ldg.wait
    let t := { s with ldg := { s.ldg with wait := [], laps := 0 } }
    if ldgEn s then
      ({ r with
          lap := r.lap || decide (0 < s.ldg.laps) || w.any (fun c => c.1.lap), zero := r.zero || w.any (fun c => c.1.lap && c.2),
          ckpt := r.ckpt || w.any (fun c => !c.1.lap) || s.ldg.offPend, cmds := r.cmds ++ w.map (fun c => c.1) }, t)
    else
      ({ r with ckpt := r.ckpt || s.ldg.offPend },
        forAll (List.range s.ldg.laps) (fun _ => lapRefused) (forAll w (fun c => ldgCmdDone rState 0 c.1) t))

/-! ## Records read back -/

/-- The record two pages hold, with the flags of its stamp left in page 0 (Table 15.2). -/
def recOf (p0 p1 : List Byte) : LdgRec :=
  { stamp := { sec := wordAt p0 0, frac := wordAt p0 4, coarse := (byteAt p0 11).getLsbD 5 },
    seq := BitVec.ofNat 16 (halfAt p0 8), kind := (byteAt p0 10).toNat, flags := byteAt p0 11,
    lap := BitVec.ofNat 16 (halfAt p0 12),
    run := (List.range 6).map (fun a => BitVec.ofNat 64 (leNat ((p0.drop (16 + 8 * a)).take 8))) ++
      (List.range 2).map (fun a => BitVec.ofNat 64 (leNat ((p1.drop (4 + 8 * a)).take 8))),
    cnt := (List.range 8).map (fun a => wordAt p1 (20 + 4 * a)), refused := (byteAt p1 3).toNat,
    ivlStart := wordAt p1 52, srcSeq := BitVec.ofNat 16 (halfAt p1 56), wfail := (byteAt p1 58).toNat,
    cause := (byteAt p1 59).toNat }

/-- Both pages of a record agree and its kind is 1 to 5 (R286). -/
def recAgrees (p0 p1 : List Byte) : Bool :=
  halfAt p0 8 == halfAt p1 0 && byteAt p0 10 == byteAt p1 2 && decide (1 ≤ (byteAt p0 10).toNat) && decide ((byteAt p0 10).toNat ≤ 5)

end Sys2Proof.Machine
end

