-- ==== Sys2Proof/Machine/PageData.lean ====
section
/-! DEFINITION. What the pages of the non-volatile array hold: check words, the relocation map and the sensor slots (R291 to R293, R297,
R303). -/

namespace Sys2Proof.Machine

/-! ## Pages (R291 to R293) -/

/-- CRC-16 of R292. -/
def crc16 (bs : List Byte) : BitVec 16 := BitVec.ofNat 16 (bs.foldl (crcByte 16 0x1021) 0xFFFF)

/-- The check word of a logical page (R291). -/
def pageCheck (l : Nat) (kind gen : Byte) (data : List Byte) : BitVec 16 := crc16 (leBytes 2 l ++ [kind, gen] ++ data)

/-- Sixty-four bytes of a page. -/
def pad64 (data : List Byte) : List Byte := (data ++ List.replicate 64 0).take 64

/-- A page as a write of the device leaves it. -/
def madePage (l : Nat) (kind gen : Byte) (data : List Byte) (ecc : Ecc) : NvPage :=
  { data := pad64 data, check := pageCheck l kind gen (pad64 data), kind := kind, gen := gen, ecc := ecc }

/-- A page with a valid CLEARED check word (R291). -/
def clearedPage (l : Nat) : NvPage := madePage l 0xC3 0 [] .clean

/-- All nine words of a page decode. -/
def NvPage.reads (p : NvPage) : Bool := p.ecc != .uncorrectable

/-- The page carries a valid data check word (R291). -/
def validData (l : Nat) (p : NvPage) : Bool := p.reads && p.kind == 0x5A && p.check == pageCheck l p.kind p.gen p.data

/-- The page carries a valid CLEARED check word (R291). -/
def validCleared (l : Nat) (p : NvPage) : Bool :=
  p.reads && p.kind == 0xC3 && p.gen == 0 && p.data.all (· == 0) && p.check == pageCheck l p.kind p.gen p.data

/-- What a physical page holds; an unlisted one is as shipped. -/
def physPage (s : State) (k : Nat) : NvPage := match s.nv.pages.find? (fun p => p.1 == k) with | some p => p.2 | none => clearedPage k

/-! ## The relocation map (Table 16.3) -/

/-- The data of a page of the journal area, which is never relocated, if its check word is valid. -/
def areaData (s : State) (l : Nat) : Option (List Byte) := if validData l (physPage s l) then some (physPage s l).data else none

/-- The 32 map entries a page holds; all are free where it holds none. -/
def mapEntries : Option (List Byte) → List Nat
  | none => List.replicate 32 0xFFFF
  | some d => (List.range 32).map (fun k => halfAt d (2 * k))

/-- The 64 entries of the relocation map. -/
def mapTable (s : State) : List Nat := mapEntries (areaData s 10) ++ mapEntries (areaData s 11)

/-- The last spare from number k on whose entry names page l: the newer of two while a spare is itself relocated. -/
def findSpare (l : Nat) : List Nat → Nat → Option Nat
  | [], _ => none
  | e :: r, k => match findSpare l r (k + 1) with | some x => some x | none => if e = l then some k else none

/-- The physical page of a logical page: the spare that holds it, or the page of its number (R297). -/
def physOf (s : State) (l : Nat) : Nat := match findSpare l (mapTable s) 448 with | some k => k | none => l

/-- What a logical page holds. -/
def pageAt (s : State) (l : Nat) : NvPage :=
  match s.nv.pages.find? (fun p => p.1 == physOf s l) with | some p => p.2 | none => clearedPage l

/-! ## Sensor slots (R303) -/

/-- The header page of a slot. -/
def slotPage (k : Nat) : Nat := 48 + 25 * k

/-- The header's number of words, and the pages its table takes. -/
def slotWords (s : State) (k : Nat) : Nat := halfAt (pageAt s (slotPage k)).data 12
def slotPages (s : State) (k : Nat) : Nat := (4 * slotWords s k + 63) / 64

/-- The slot's table pages. -/
def slotTablePages (s : State) (k : Nat) : List Nat := (List.range (slotPages s k)).map (fun i => slotPage k + 1 + i)

/-- The pages of a slot that a reader of it reads. -/
def slotReads (s : State) (k : Nat) : List Nat :=
  slotPage k :: (if validData (slotPage k) (pageAt s (slotPage k)) && decide (slotPages s k ≤ 11) then slotTablePages s k else [])

/-- A page of the slot holds an uncorrectable word: its header, or a page of the table it names. -/
def slotUnc (s : State) (k : Nat) : Bool :=
  !(pageAt s (slotPage k)).reads ||
    (validData (slotPage k) (pageAt s (slotPage k)) && decide (slotPages s k ≤ 11) &&
      (slotTablePages s k).any (fun l => !(pageAt s l).reads))

/-- The slot holds a valid calibration (R303): a table takes at most 11 pages, and a header that names more is none (log entry 41). -/
def slotValid (s : State) (k : Nat) : Bool :=
  let h := pageAt s (slotPage k)
  validData (slotPage k) h && byteAt h.data 14 == 1 && decide (slotPages s k ≤ 11) &&
    (slotTablePages s k).all (fun l => validData l (pageAt s l))

/-- The table bytes of a slot. -/
def slotTable (s : State) (k : Nat) : List Byte :=
  ((slotTablePages s k).flatMap (fun l => (pageAt s l).data)).take (4 * slotWords s k)

/-- mfr, model and serial of a slot header (Table 16.6). -/
def slotIdent (s : State) (k : Nat) : Nat × Nat × Nat :=
  let d := (pageAt s (slotPage k)).data
  (halfAt d 0 % 16384, halfAt d 2 % 32768, leNat ((d.drop 8).take 3))

end Sys2Proof.Machine
end

