-- ==== Sys2Proof/Machine/Sequencer.lean ====
section
/-! DEFINITION. Triggers (R197 to R203), carriages and their outcomes (R206 to R212), cuts of a frame. -/

namespace Sys2Proof.Machine

/-! ## Triggers -/

/-- A trigger: its code (Table 10.10) and stamp. -/
abbrev Trig := Nat × Stamp

/-- TT_CTL.en. -/
def ttEn (s : State) : Bool := bitOf s.tt.ctl 0

/-- The installed image of a table. -/
def instOf (s : State) (b : Bool) : Option Image := if b then s.tt.instB else s.tt.instA

/-- The active table's image (R188). -/
def activeImage (s : State) : Option Image := if s.tt.activeValid then instOf s s.tt.active else none

/-- The header's lead of the active table, 0 where none is active. -/
def leadOf (s : State) : Nat := match activeImage s with | some im => im.lead | none => 0

/-- A trigger reaches the sequencer: enabled with an active table, no warning (R197, R42), no MEAS reset, no SHIP grace. -/
def trigReaches (s : State) : Bool :=
  mainUp s && ttEn s && (activeImage s).isSome && !s.pwr.warn && !s.sys.measRst && !s.cond.shipped


/-- The lowest trigger of a group (R202). -/
def lowestTrig : List Trig → Option Trig
  | [] => none
  | g :: r => match lowestTrig r with
    | some h => if h.1 < g.1 then some h else some g
    | none => some g

/-- Pre-settle of an EXCITE's pair from its fetched descriptor (R179): the pair off and not held, the copy passing. -/
def presettleFor (c : Carriage) (s : State) : State :=
  let d := sealedOf s c.ch
  let p := c.res == 6
  if c.op == oExcite && !(pairAt s p).on && !pairHeld s p && dEn d && kindSuits oExcite (dKind d) && !resDisagrees c d then
    setPair p { pairAt s p with presettle := some c.ch } s
  else s

/-- The depot fetches the start group at a qtick, and its EXCITEs pre-settle (R178, R179). -/
def fetchGroup (cs : List Carriage) (q : Nat) (s : State) : State :=
  forAll (cs.filter (fun c => c.start == q)) presettleFor (fetch (groupAtTick cs q) s)

/-- The first start group of the active table is fetched (R178). -/
def fetchFirst (s : State) : State :=
  match activeImage s with
  | some im => fetchGroup im.cars ((im.cars.map (fun c => c.start)).headD 0) { s with ros := { s.ros with ahead := true } }
  | none => s

/-- The moment at which triggers register: its stamp, its qtick while MEAS runs on a locked HF clock, and the frame qtick 0 that Table 10.6
gives a trigger that registers on a ktick edge, a SYNC, and any other one that registers then; and the EV triggers that register on the
edge itself. -/
structure Moment where
  stamp : Stamp
  qtick : Option Nat
  kt : Nat
  other : Nat
  sync : Nat
  onEdge : List Nat
deriving DecidableEq, Repr

/-- The moment at an HF counter value that is a qtick, where no ktick edge registers. -/
def momentAt (q : Nat) (s : State) : Moment :=
  { stamp := stampAt q 0 s, qtick := if fineClock s then some q else none, kt := q + 32, other := q + 32, sync := q + 32, onEdge := [] }

/-- Frame qtick 0 of a trigger code at a moment: countdown zero, the alarms, the second tick and TT_START are of the ktick domain, and
TT_KICK has an edge of its own too, as has an EV trigger that registers on a ktick edge; SYNC has its sync qtick, and an EV input that a
fast filter confirms registers at the qtick itself (R197, R236, R237, Table 10.6). -/
def Moment.zero (m : Moment) (code : Nat) : Nat :=
  if code = 10 then m.sync else if code ≤ 3 ∨ 11 ≤ code ∨ m.onEdge.contains code then m.kt else m.other

/-- Qticks of a fast filter code (Table 12.2). -/
def fastLen (c : Nat) : Nat := match c with | 0 => 0 | 1 => 2 | 2 => 8 | _ => 32

/-- The fast filter of an input, in qticks (R240 for SYNC). -/
def ffiltOf (w : Word) (k : Nat) : Nat := fastLen (if k = 6 then fld w 30 2 else fld w (4 * k) 2)

/-- The first qtick at or after an HF counter value. -/
def qtickAt (s : State) (n : Nat) : Nat := s.clk.qbase + (n - s.clk.qbase + 7) / 8 * 8

/-- A fast filter of so many qticks that samples on over a restart of the qtick divider at HF counter a: the samples before it stay as
they were, the others fall on the new grid, the first of them at a (R136, R236). -/
def Confirm.regrid (a len : Nat) (grid : Nat → Nat) (c : Confirm) : Confirm :=
  match c with
  | .fast st n s0 away =>
    if s0 + 8 * len < a then c
    else .fast st n (if s0 < a then a - (a - s0 + 7) / 8 * 8 else grid (max a n)) away
  | .slow .. => c

/-- The qtick divider restarts on the HF edge a (R136, Table 10.6): what registers in the qtick that would have come next registers there,
and what fell in the present qtick still does. -/
def restartDivider (a : Nat) (s : State) : State :=
  let t := { s with clk := { s.clk with qbase := a } }
  let move := fun (q : Nat) => if a ≤ q ∧ q < a + 8 then a else q
  let keep := fun (q : Nat) => if q = qtickNow s then qtickNow t else q
  { t with
    evin := { t.evin with
      conf := t.evin.conf.mapIdx (fun k c => c.map (Confirm.regrid a (ffiltOf t.evin.incfg k) (qtickAt t))), cmpAt := t.evin.cmpAt.map move
      rise := t.evin.rise.map (fun x => (x.1, move x.2)), recs := t.evin.recs.map (fun r => (move r.1, r.2)) }
    ldg := { t.ldg with inst := t.ldg.inst.map (fun x => { x with qtick := move x.qtick }) }
    tt := { t.tt with group := t.tt.group.map (fun g => { g with qtick := move g.qtick }) }
    out := { t.out with lastAt := t.out.lastAt.map keep }
    evt := { t.evt with nowAt := keep t.evt.nowAt } }

/-- A trigger that starts a frame on the locked clock is registered at its alignment edge, where the qtick divider restarts (R136,
Table 10.6). -/
def Moment.aligned (g : Trig) (s : State) (m : Moment) : Moment :=
  let a := m.zero g.1 - 32
  match m.qtick with
  | some r => if hfLocked s && r != a && g.1 != 10 then { m with qtick := some a, stamp := if m.stamp = stampAt r 0 s then stampAt a 0 s else m.stamp } else m
  | none => m

/-- A moment on the qtick grid as it stands, after a restart of the divider. -/
def Moment.onGrid (s : State) (m : Moment) : Moment :=
  match m.qtick with
  | some r =>
    let q := r - (r - s.clk.qbase) % 8
    if q = r then m else { m with qtick := some q, stamp := stampAt q 0 s }
  | none => m

/-- The qtick divider restarts on the alignment edge of a frame's trigger; the sync qtick of a SYNC is on the grid as it stands (R136,
Table 10.6). -/
def alignTo (m : Moment) (code : Nat) (s : State) : State := if code = 10 then s else restartDivider (m.zero code - 32) s

/-- The state after a group of triggers registered together was accepted for one frame (R198, R202). A trigger off the ktick edges that
registers while the MDLL acquires in a routine re-lock, HF neither locked nor stopped, starts its frame at that lock + 4 qticks with
LATE_START, as where HF is stopped (R20, Table 10.6; DESIGN CHOICE, log entry 87). -/
def awaitFrame (g : Trig) (gs : List Trig) (m : Moment) (s : State) : State :=
  let lockedNow := hfLocked s
  let a : Await :=
    { code := BitVec.ofNat 5 g.1, stamp := g.2, lateStart := !lockedNow, coincident := decide (1 < gs.length), queued := false,
      needLock := !lockedNow, base := if lockedNow then some (m.zero g.1) else none, cont := false, reg := m.qtick, seals := [],
      lateFrom := none, trigs := gs, syncAt := none }
  let t := wakeMain { s with tt := { s.tt with await := some a } }
  if lockedNow then alignTo m g.1 t else if hfRunning t then t else fetchFirst (wakeHf .async t)

/-- A group joins the frame that a trigger of the same qtick, or the body end in it, starts (R202). A frame without a queue takes its
qtick 0 from the trigger it is named by. -/
def joinAwait (g : Trig) (gs : List Trig) (m : Moment) (a : Await) (s : State) : State :=
  let low := decide (g.1 < a.code.toNat)
  let moves := low && !a.queued && !a.cont
  let t := { s with tt := { s.tt with await := some { a with
      code := if low then BitVec.ofNat 5 g.1 else a.code
      stamp := if low then g.2 else a.stamp
      base := if moves then some (m.zero g.1) else a.base
      cont := false, coincident := true, trigs := a.trigs ++ gs } } }
  if moves then alignTo m g.1 t else t

/-- A group joins the trigger that was queued in its qtick (R201, R202). -/
def joinQueued (g : Trig) (gs : List Trig) (x : Queued) (s : State) : State :=
  let low := decide (g.1 < x.code.toNat)
  { s with tt := { s.tt with queued := some { x with
      code := if low then BitVec.ofNat 5 g.1 else x.code, stamp := if low then g.2 else x.stamp, many := true, trigs := x.trigs ++ gs } } }

/-- What becomes of triggers that register now (R197, R201 to R203). -/
inductive Fate where
  | ignored
  | bypass
  | dropped
  | starts
  | queued
  | joins
  | joinsQueued
deriving DecidableEq, Repr

/-- A trigger is queued, joins one that was queued in the same qtick (R202), or is dropped (R201). -/
def queueFate (m : Moment) (s : State) : Fate :=
  match s.tt.queued with
  | some x => if x.reg.isSome && x.reg == m.qtick then .joinsQueued else .dropped
  | none => if bitOf s.tt.ctl 1 then .queued else .dropped

/-- The fate of triggers registered at a moment: no frame runs or awaits; one awaits whose own trigger, or body end, falls in the
same qtick (R202); a SYNC in the gap before a free-run continuation starts its frame anew (R204); else they are queued. R201 speaks of a
running frame: a trigger that registers while an accepted frame is only awaited (before its qtick 0, waiting for lock, in the gap of a free
run) is queued, or dropped with source 46, as it is while that frame runs (DESIGN CHOICE, log entry 103). -/
def fateOf (m : Moment) (gs : List Trig) (s : State) : Fate :=
  if !trigReaches s then .ignored
  else if s.clk.bypass then .bypass
  else
    match s.tt.frame, s.tt.await with
    | none, none => .starts
    | none, some a =>
      if a.reg.isSome && a.reg == m.qtick then .joins
      else if a.cont && gs.any (fun g => g.1 == 10) then .starts
      else queueFate m s
    | some _, _ => queueFate m s

/-- Triggers registered together start one frame with another trigger of their group or of the queue (R202). -/
def coincides (f : Fate) (n : Nat) : Bool :=
  match f with
  | .starts => decide (1 < n)
  | .queued => decide (1 < n)
  | .joins => decide (0 < n)
  | .joinsQueued => decide (0 < n)
  | _ => false

/-- The triggers will start a frame. -/
def Fate.taken (f : Fate) : Bool :=
  match f with
  | .starts => true
  | .queued => true
  | .joins => true
  | .joinsQueued => true
  | _ => false

/-- Triggers registered together reach the sequencer (R197, R198, R201 to R203): on the bypass clock each raises source
46; during a frame they are queued once or dropped; else they start one frame, with source 7 when there are several. -/
def deliver (gs : List Trig) (m : Moment) (s : State) : State :=
  match lowestTrig gs with
  | none => s
  | some g =>
    let many := decide (1 < gs.length)
    match fateOf m gs s with
    | .ignored => s
    | .bypass => forAll gs (lateTrigger 1 0 {}) s
    | .dropped => forAll gs (lateTrigger 0 0 {}) s
    | .starts => raiseIf many 7 (awaitFrame g gs m s)
    | .queued =>
      raiseIf many 7 { s with tt := { s.tt with queued := some { code := BitVec.ofNat 5 g.1, stamp := g.2, many := many, reg := m.qtick, lateFrom := none, trigs := gs } } }
    | .joins => match s.tt.await with | some a => raise 7 (joinAwait g gs m a s) | none => s
    | .joinsQueued => match s.tt.queued with | some x => raise 7 (joinQueued g gs x s) | none => s

/-! ## Events that register together (R242, R249, R252) -/

/-- An occurrence that registers: its source, the stamp its record would carry alone, its detail, whether it writes a
record, its trigger with the stamp the delay counts from, and its LATE and LATE_SKIPPED flags. -/
structure Occ where
  source : Nat
  stamp : Stamp
  detail : Word
  log : Bool
  trig : Option Trig
  late : Bool := false
  skipped : Bool := false
deriving DecidableEq, Repr

/-- The lead of a stamp to the registration, a difference of stamps modulo 2^64, saturating (R6, R252). -/
def leadTo (own reg : Stamp) : Nat := min ((stampNat reg + 2 ^ 64 - stampNat own) % 2 ^ 64) 0x3FFFFF

/-- The record of an occurrence (R252): COINCIDENT records carry the stamp of the registration. -/
def logOcc (reg : Stamp) (coin reached : Bool) (o : Occ) (s : State) : State :=
  if !o.log then s
  else
    let c := coin && o.trig.isSome
    let ev := decide (o.source ≤ 6)
    logRecord o.source (if c then reg else o.stamp)
      (o.detail ||| (if c && ev then put 10 22 (leadTo o.stamp reg) else 0))
      { coincident := c, late := o.late, skipped := o.skipped, trig := reached && o.trig.isSome && decide (o.source ≤ 5) } s

/-- The records that report triggers of the qtick q. -/
def trigRecs (q : Nat) (s : State) : List LogMark :=
  match s.tt.group with | some g => if g.qtick = q then g.recs else [] | none => []

/-- A noted record, where a record of a source is about to be written: it moves up with those behind it, and the last of a full log is
lost (R252). -/
def LogMark.moved (source : Nat) (s : State) (r : LogMark) : Option LogMark :=
  let back := (s.evin.head.toNat + 63 - (r.addr - 0x7000) / 16) % 64
  if logBehind source s ≤ back then some r
  else if 64 ≤ logHeld s ∧ back = 0 then none
  else some { r with addr := 0x7000 + (r.addr - 0x7000 + 16) % 1024 }

/-- The noted records as the record of an occurrence leaves them. -/
def moveMarks (o : Occ) (s : State) : State :=
  if o.log && mainUp s then
    { s with tt := { s.tt with group := s.tt.group.map (fun g => { g with recs := g.recs.filterMap (LogMark.moved o.source s) }) } }
  else s

/-- The record that an occurrence is about to write is noted with those of its qtick. -/
def noteOcc (q : Option Nat) (o : Occ) (s : State) : State :=
  match q, logIndex o.source s with
  | some n, some i =>
    if o.log && o.trig.isSome then
      { s with tt := { s.tt with
          group := some { qtick := n, recs := trigRecs n s ++ [{ addr := logAt i, source := o.source, own := o.stamp }] } } }
    else s
  | _, _ => s

/-- A record of a trigger that turns out to have registered together with another: COINCIDENT, the stamp of the registration, and its
lead (R252). -/
def amendOne (reg : Stamp) (r : LogMark) (s : State) : State :=
  let detail := memWord s.mem (r.addr + 8)
  let w3 := memWord s.mem (r.addr + 12)
  storeWords r.addr
    [reg.frac, reg.sec, if r.source ≤ 6 then setFld detail 10 22 (leadTo r.own reg) else detail,
     setFld (setFld w3 6 1 reg.coarse.toNat) 7 1 1] s

/-- The records of the triggers that registered earlier in the qtick of a group that joins them (R202, R252). -/
def amendGroup (f : Fate) (m : Moment) (s : State) : State :=
  match f, m.qtick with
  | .joins, some q => forAll (trigRecs q s) (amendOne m.stamp) s
  | .joinsQueued, some q => forAll (trigRecs q s) (amendOne m.stamp) s
  | _, _ => s

/-- The occurrences of one registration, in their order: their records, placed among those of their qtick (R252), then the fate of their triggers. -/
def register (m : Moment) (os : List Occ) (s : State) : State :=
  let gs := os.filterMap (fun o => o.trig)
  let f := fateOf m gs s
  let m := match f, lowestTrig gs with | .starts, some g => m.aligned g s | _, _ => m
  let q := if f.taken then m.qtick else none
  let s := openRecs m.qtick (amendGroup f m s)
  deliver gs m (forAll os (fun o u => logOcc m.stamp (coincides f gs.length) (f != .ignored) o (noteOcc q o (moveMarks o u))) s)

/-! ## Event state machines (R241 to R243) -/

/-- Input k is enabled (R235). -/
def evEn (s : State) (k : Nat) : Bool := bitOf s.evin.incfg (24 + k)

/-- The entry of input k for a state and condition (R241). -/
def smEntry (s : State) (k c : Nat) : Byte :=
  memByte s.mem (0x7500 + 32 * k + 4 * (s.evin.st.getD k 0).toNat + c)

/-- One step of input k under condition c: the occurrence, whether a lap is asked for, and the state after it. -/
def smStep (k c : Nat) (stamp : Stamp) (resumed : Bool) (s : State) : Occ × Bool × State :=
  let e := smEntry s k c
  let st := s.evin.st.getD k 0
  let nx : BitVec 3 := e.setWidth 3
  ({ source := k, stamp := stamp,
     detail := put 0 3 st.toNat ||| put 3 3 nx.toNat ||| put 6 2 c ||| put 8 1 (s.evin.level.getLsbD k).toNat |||
       put 9 1 resumed.toNat,
     log := e.getLsbD 3 || e.getLsbD 5, trig := if e.getLsbD 5 then some (4 + k, stamp) else none },
   e.getLsbD 6, raiseIf (e.getLsbD 4) k { s with evin := { s.evin with st := s.evin.st.set k nx } })

/-- Steps taken in order: their occurrences, the number of laps asked for, and the state after them (R242). -/
def smSteps (steps : List (Nat × Nat × Stamp × Bool)) (s : State) : List Occ × Nat × State :=
  steps.foldl (fun r p =>
    let x := smStep p.1 p.2.1 p.2.2.1 p.2.2.2 r.2.2
    (r.1 ++ [x.1], r.2.1 + x.2.1.toNat, x.2.2)) ([], 0, s)

/-! ## Frame start -/

/-- The time the delay of an awaited frame counts from: its trigger's stamp, or the target of a LATE TT_START among its triggers, also where
a lower code names the frame (R122, R198; DESIGN CHOICE, log entry 86). -/
def delayFrom (a : Await) : Stamp := a.lateFrom.getD a.stamp

/-- The delay word of Table 10.9 of a frame whose qtick 0 falls at HF counter t0. -/
def delayWord (a : Await) (t0 : Nat) (s : State) : Nat :=
  if a.cont then 0
  else
    let d := (timeAt t0 s + 2 ^ 64 - stampNat (delayFrom a)) % 2 ^ 64
    let f : Int := match s.clk.q with | some q => (q : Int) * 32 | none => (fNomKHz s * 1000 : Nat)
    let q := (divrhe ((d : Int) * f) 34359738368).toNat
    if q < 32768 then q else 0x8000 + min (divrhe d 131072).toNat 32767

/-- The sealed copies that stood before the seals that register at qtick 0 (R176). -/
def copiesBefore (seals : List (BitVec 5 × List Byte)) (sealed : List (List Byte)) : List (List Byte) :=
  seals.foldl (fun l x => l.set x.1.toNat x.2) sealed

/-- The frame with its seals of the last qtick before qtick 0: those of the channels latched at qtick 0 are late (R176, R182). -/
def lateAtZero (seals : List (BitVec 5 × List Byte)) (f : Frame) : List (BitVec 5) × Frame :=
  let cs := ((seals.map (fun x => x.1)).filter (fun c => (versionOf f c).isSome)).eraseDups
  (cs, cs.foldl (fun g c => markLate c g) f)

/-- Qtick 0 of the awaited frame (R198), with the settings it latches (R155, R170, R181). Its first start group is fetched, and pre-settles,
at the start of the acquisition that leads to it (R178); of a frame that no acquisition leads to (HF locked already, a queue, a free run, a
trigger in an acquisition under way) R178 gives no moment, and the model fetches at qtick 0 (DESIGN CHOICE, log entry 104). -/
def beginFrame (a : Await) (im : Image) (t0 : Nat) (s : State) : State :=
  let s := afeFrameStart { s with clk := { s.clk with hf := max s.clk.hf t0, qbase := t0, qHist := [] } }
  let f : Frame :=
    { img := im, tableB := s.tt.active, t0 := t0, stamp := stampAt t0 0 s, code := a.code, delay := delayWord a t0 s,
      lateStart := a.lateStart, coincident := a.coincident, queued := a.queued,
      runs := List.replicate im.cars.length CarRun.fresh, vers := [], vals := [], raws := [], late := [],
      revA := s.afe.pairA.rev, revB := s.afe.pairB.rev, cut := false, slow := false, markFail := none, nFailed := 0, qtick := 0,
      syncAt := if im.freeRun then a.syncAt else none, seals := [] }
  let x := lateAtZero a.seals (latchUpTo (copiesBefore a.seals s.ros.sealed) 0 f)
  let s := applyStages 0 0 x.2 s
  let t := fetchGroup im.cars ((im.cars.map (fun c => c.start)).headD 0) { s with ros := { s.ros with ahead := false } }
  raiseIf (!x.1.isEmpty) 47 (applyPortEn (s.afe.ctl.setWidth 4)
    { t with tt := { s.tt with
        frame := some x.2, await := none, frames := s.tt.frames + 1
        freeRun := im.freeRun } })

/-- FRAME_START: the awaited frame starts at its qtick 0 (R198, R203), once the HF counter t has reached it. -/
def frameStart (t : Nat) (s : State) : State :=
  match s.tt.await, activeImage s, s.tt.frame with
  | some a, some im, none =>
    match a.base with
    | some b => if a.needLock || !hfLocked s || s.pwr.warn || s.cond.shipped || s.clk.bypass || decide (t < b) then s else beginFrame a im b s
    | none => s
  | _, _, _ => s

/-! ## Carriages: values and outcomes -/

/-- Run i of a frame. -/
def runAt (f : Frame) (i : Nat) : CarRun := f.runs.getD i CarRun.fresh

/-- Replaces run i of the frame. -/
def setRun (i : Nat) (r : CarRun) (f : Frame) : Frame := { f with runs := f.runs.set i r }

/-- The frame value of a channel (R207). -/
def valOf (f : Frame) (c : BitVec 5) : Option Val := (f.vals.find? (fun v => v.1 == c)).map (fun v => v.2)

/-- The raw value of a channel (R222). -/
def rawOf (f : Frame) (c : BitVec 5) : Option Val := (f.raws.find? (fun v => v.1 == c)).map (fun v => v.2)

/-- The frame flags of a record (R210). -/
def frameFlags (f : Frame) (refWarn : Bool) : BitVec 16 :=
  flagIf f.lateStart fLateStart ||| flagIf f.coincident fCoincident ||| flagIf refWarn fRefWarn

/-- A stamp of a carriage of the frame as its record or value carries it: coarse where the carriage finishes on the bypass clock after a
drift fail (R141; DEDUCED, log entry 101: also the stamp of a value that an EMIT took before the cut, and the MARK record's). -/
def Frame.outStamp (f : Frame) (x : Stamp) : Stamp := if f.slow then x.coarsen else x

/-- The failure record of carriage i (R208), with source 41; a failed AOUT_SET counts (R272). -/
def failRecord (i : Nat) (reason : Nat) (stamp : Stamp) (started late : Bool) (f : Frame) (s : State) : State :=
  let c := carAt f.img.cars i
  let fl := fFailed ||| frameFlags f (started && (runAt f i).refWarn) ||| flagIf late fDescLate
  let t := raise 41 (resultRecord c.ch stamp (put 0 8 reason ||| put 8 8 i ||| put 16 4 c.op) fl (c.op == oEmit) s)
  if c.op == oAoutSet then aoutFailed t else t

/-- The MARK record (R211, Table 10.9). -/
def markRecord (i : Nat) (f : Frame) (s : State) : State :=
  let w := put 0 16 f.delay ||| put 16 7 (min f.nFailed 127) ||| put 23 1 f.tableB.toNat ||| put 24 1 f.revA.toNat |||
    put 25 1 f.revB.toNat ||| put 26 1 f.queued.toNat
  resultRecord f.code (f.outStamp f.stamp) w (fMark ||| frameFlags f (runAt f i).refWarn) false s

/-- The record of a MARK that could not start, or failed at its start, with the flags of its start where it had one (R210, R211). It raises
source 41, as every failure record does: R24 and R208 name the other carriages and a failed EMIT, and of a MARK only R345 says so (DESIGN
CHOICE, log entry 105). -/
def markFailRecord (f : Frame) (s : State) : State :=
  match f.markFail with
  | none => s
  | some (reason, stamp) =>
    raise 41 (resultRecord f.code stamp (put 0 8 reason ||| put 8 8 (f.img.cars.length - 1) ||| put 16 4 oMark)
      (fMark ||| fFailed ||| frameFlags f (runAt f (f.img.cars.length - 1)).refWarn) false s)

/-- The value of run r as it is delivered: with the DESC_LATE of the run that produced it (R182, R231), and its stamp as the frame has it
(R141). -/
def CarRun.outVal (f : Frame) (r : CarRun) (v : Val) : Val :=
  { v with flags := v.flags ||| flagIf r.late fDescLate, stamp := f.outStamp v.stamp }

/-- The frame with carriage i ended and its value, if OK, delivered (R207); a failed MARK waits to be the last record (R211). -/
def Frame.ended (f : Frame) (i : Nat) : Frame :=
  let c := carAt f.img.cars i
  let r := runAt f i
  let g := setRun i { r with state := .done } f
  if r.reason ≠ 0 then
    (if c.op = oMark then { g with markFail := some (r.reason, f.outStamp r.stamp) } else { g with nFailed := g.nFailed + 1 })
  else
    match r.val with
    | none => g
    | some v =>
      let v := r.outVal f v
      if c.op = oConvert ∨ c.op = oAux then
        { g with vals := (c.ch, v) :: g.vals, raws := (c.ch, v) :: g.raws }
      else if c.op = oCorrect ∨ c.op = oCouple then { g with vals := (c.ch, v) :: g.vals }
      else g

/-- The last values that holds repeat, those of holds apart (R185, R308); DESC_LATE passes into the same frame alone (R182). A value that a
CORRECT with corr_en = 0 passed through is the channel's last corrected value too: R185 does not say whether it is (DESIGN CHOICE, log entry
106). -/
def keepLast (f : Frame) (i : Nat) (s : State) : State :=
  let c := carAt f.img.cars i
  let r := runAt f i
  if r.reason ≠ 0 || r.held then s
  else
    let v := r.val
    { s with ros := { s.ros with
        lastConv := if c.op = oConvert ∨ c.op = oAux then s.ros.lastConv.set c.ch.toNat v else s.ros.lastConv
        lastCorr := if c.op = oCorrect then s.ros.lastCorr.set c.ch.toNat v else s.ros.lastCorr } }

/-- The records of carriage i at its end (R208, R210, R211), and the count of an AOUT_SET that ended OK (R272). -/
def endRecords (f : Frame) (i : Nat) (s : State) : State :=
  let c := carAt f.img.cars i
  let r := runAt f i
  if r.reason ≠ 0 then (if c.op = oMark then s else failRecord i r.reason (f.outStamp r.stamp) true r.late f s)
  else if c.op = oMark then markRecord i f s
  else if c.op = oEmit then
    match r.val with
    | some v => resultRecord c.ch (f.outStamp v.stamp) (lowWord v.v) (v.flags ||| frameFlags f r.refWarn ||| flagIf r.late fDescLate) true s
    | none => s
  else if c.op = oAoutSet then aoutOk s
  else s

/-- The stamp R161 and Table 8.6 give a conversion from its filter start: output m of its chain, or the fixed point of a
LEAK or ARM sequence; a qtick is 8 HF cycles. -/
def cogStamp (s : State) (c : Carriage) (d : List Byte) (filter m : Nat) : Stamp :=
  let q := if dFast d then 16 else 32
  let dd := 2 ^ (dDec d + 4)
  let centre : Int := if dFir d then 4 * (4 * (m : Int) - 27) * dd * q else 8 * ((m : Int) - 2) * dd * q
  if (auxLeak c.aux.toNat).isSome && c.op == oAux then stampAt (filter + 8 * 448 * 32) 0 s
  else if (auxArm c.aux.toNat).isSome && c.op == oAux then stampAt (filter + 8 * 336 * 32) 0 s
  else stampAt ((filter : Int) + centre).toNat 0 s

/-- The first valid output of a chain (Table 8.5). -/
def firstValid (d : List Byte) : Nat := if dFir d then 14 else 4

/-- The frame with the stamp of a held conversion that ends: the one R161 gives for its own start qtick (R308). -/
def heldStamp (s : State) (f : Frame) (i : Nat) : Frame :=
  let c := carAt f.img.cars i
  let r := runAt f i
  let d := versionOr s f c.ch
  if r.held && (c.op == oConvert || c.op == oAux) then
    setRun i { r with val := r.val.map (fun v => { v with stamp := cogStamp s c d r.filter (firstValid d) }) } f
  else f

/-- Carriage i ends (R208): running, and past T_conv. -/
def finish (i : Nat) (s : State) : State :=
  match s.tt.frame with
  | none => s
  | some f =>
    let r := runAt f i
    if r.state == .running && (!r.converting || r.reason != 0) then
      let f := heldStamp s f i
      keepLast f i (endRecords f i { s with tt := { s.tt with frame := some (f.ended i) } })
    else s

/-- An index takes its place in a list ordered by a key, before the first that does not come earlier. -/
def insertBy (key : Nat → Nat) (i : Nat) : List Nat → List Nat
  | [] => [i]
  | j :: r => if key i ≤ key j then i :: j :: r else j :: insertBy key i r

/-- Carriages due to end at or before qtick q, in order of their ends, then of their indices. -/
def dueEnds (f : Frame) (q : Nat) : List Nat :=
  let due := (List.range f.runs.length).filter (fun i =>
    (runAt f i).state == .running && decide ((carAt f.img.cars i).stop ≤ q))
  due.foldr (insertBy (fun i => (carAt f.img.cars i).stop)) []

/-- Every carriage due to end at or before qtick q ends. -/
def finishUpTo (q : Nat) (s : State) : State :=
  match s.tt.frame with
  | none => s
  | some f => forAll (dueEnds f q) finish s

/-- Ranks the reasons that arise while a CONVERT or AUX runs (R167): the lower number wins. -/
def reasonRank (r : Nat) : Nat :=
  if r = rSensorGone then 0 else if r = rPower then 1 else if r = rResource then 2 else if r = rDiag then 3 else 4

/-- A reason arises on run r: it stands where none of higher rank does. -/
def CarRun.blame (reason : Nat) (r : CarRun) : CarRun :=
  if r.reason = 0 ∨ (reasonRank r.reason < 4 ∧ reasonRank reason < reasonRank r.reason) then { r with reason := reason } else r

/-- Applies f to the runs of the frame whose carriage and run satisfy p. -/
def mapRuns (p : Carriage → CarRun → Bool) (g : Carriage → CarRun → CarRun) (s : State) : State :=
  { s with tt := { s.tt with frame := s.tt.frame.map (fun f =>
      { f with runs := (List.range f.runs.length).map (fun i =>
          let c := carAt f.img.cars i
          let r := runAt f i
          if p c r then g c r else r) }) } }

/-- A converting CONVERT on port k. -/
def convertsOn (k : Nat) (c : Carriage) (r : CarRun) : Bool := c.op == oConvert && c.res == k && r.converting && r.state == .running

/-- A CONVERT on a held modulator repeats a value; it watches for its port up to its T_conv as usual (R308). -/
def heldOn (k : Nat) (q : Nat) (c : Carriage) (r : CarRun) : Bool :=
  c.op == oConvert && c.res == k && r.state == .running && r.held &&
    decide (q < c.start + tConv (shapeDec c.arg) (c.arg.getLsbD 4) (shapeQ c.arg))

/-- An ARM of port k that converts, or on a held M4 repeats a value, before the end of its sequence (R167, R308). -/
def armOn (k q : Nat) (c : Carriage) (r : CarRun) : Bool :=
  c.op == oAux && auxArm c.aux.toNat == some k && r.state == .running &&
    (r.converting || (r.held && decide (q < c.start + 672 * 32)))

/-- Carriages that a detach of port k fails (R167): a CONVERT before T_conv, an ARM before its end. -/
def carriagesGone (k : Nat) (s : State) : State :=
  let q : Nat := match s.tt.frame with | some f => f.qtick | none => 0
  mapRuns (fun c r => convertsOn k c r || heldOn k q c r || armOn k q c r)
    (fun _ r => r.blame rSensorGone) s

/-- AUX carriages in progress whose requirement on pair p ends (R164). -/
def pairChanged (p : Bool) (s : State) : State :=
  mapRuns (fun c r => c.op == oAux && r.state == .running && auxPair c.aux.toNat == some p &&
      (auxNeedsOn c.aux.toNat || (auxLeak c.aux.toNat).isSome))
    (fun _ r => r.blame rResource) s

/-- Carriages whose pair the brown-out warning switches off (R167). -/
def pairPowered (p : Bool) (s : State) : State :=
  if !(pairAt s p).on then s
  else
    mapRuns (fun c r => r.state == .running &&
        ((c.op == oConvert && pairOf c.res == p) || (c.op == oAux && auxPair c.aux.toNat == some p)))
      (fun _ r => r.blame rPower) s

/-! ## Carriages: starts -/

/-- Carriage k of the frame ended FAILED. -/
def needFailed (f : Frame) (o : Option Nat) : Bool :=
  match o with | some k => (runAt f k).reason != 0 | none => false

/-- A value carriage c consumes was not produced OK in this frame (Table 10.7). -/
def lacksValue (f : Frame) (c : Carriage) (d : List Byte) : Bool :=
  if c.op = oCorrect then
    (rawOf f c.ch).isNone || (dTempEn d && dTempCh d != c.ch && (valOf f (dTempCh d)).isNone)
  else if c.op = oCouple then (valOf f (dOpA d)).isNone || (valOf f (dOpB d)).isNone
  else if c.op = oEmit ∨ c.op = oAoutSet ∨ c.op = oLedgerAdd then (valOf f c.ch).isNone
  else false

/-- The shape check of R206 step 5: true when it fails. -/
def shapeWrong (c : Carriage) (d : List Byte) : Bool :=
  let timed := c.op == oConvert || (c.op == oAux && !auxFixed c.aux.toNat)
  (timed && (shapeDec c.arg != dDec d || c.arg.getLsbD 4 != dFir d || c.arg.getLsbD 5 != dFast d)) ||
    (c.op == oAux && dAux d != c.aux.toNat)

/-- The modulator of a carriage is held (R307). -/
def modHeld (s : State) (c : Carriage) : Bool := s.cal.holdMod.getLsbD c.res

/-- An ID_THERM carriage of an identification line runs and measures: it holds the line to its end (R164). -/
def idThermOn (s : State) (line : Bool) : Bool :=
  match s.tt.frame with
  | none => false
  | some f => (List.range f.runs.length).any (fun i =>
      let c := carAt f.img.cars i
      c.op == oAux && (runAt f i).state == .running && (runAt f i).reason == 0 && !(runAt f i).held &&
        auxIdLine c.aux.toNat == some line)

/-- The conductor holds an identification line, false ID0, true ID1, once no carriage does (R164, R322 step 2). -/
def idLineHeld (s : State) (line : Bool) : Bool :=
  match s.cond.running with
  | some (_, .disc j 0 _) => pairOf j.port.toNat == line && !idThermOn s line
  | _ => false

/-- The memory a carriage sees that read some bytes before a commit replaced them. -/
def seenOver (old : List Host.Cell) (m : List Host.Cell) : List Host.Cell := old.foldl (fun u c => memSet u c.1 c.2) m

/-- The output-format entry a carriage read (R232, R234). -/
def FmtRead.entry (x : FmtRead) (m : List Host.Cell) : List Byte := memLoad (seenOver x.old m) x.addr 16

/-- What carriage i had read of an entry before a commit replaced the bytes `was`: of each word it is open (R234). -/
def readBefore (free hf i a : Nat) (was : List Host.Cell) : List Host.Cell :=
  was.filter (fun c => decide (a ≤ c.1) && decide (c.1 < a + 16) && Config.formatRead free hf i (c.1 / 4 * 4))

/-- The read of its output-format entry by carriage i at its start qtick n (R233, R234): of an entry that a commit of that qtick changed,
it is open which words it finds changed. -/
def fmtRead (s : State) (f : Frame) (i : Nat) (c : Carriage) (d : List Byte) : Option FmtRead :=
  let a := 0x7640 + 16 * dFmt d
  let n := f.at c.start
  (valOf f c.ch).map (fun v =>
    { addr := a, val := v, was := if c.op = oAoutSet then s.out.held else s.ldg.added
      old := match s.tt.fmtWas with
        | some w => if n ≤ w.1 ∧ w.1 < n + 8 then readBefore s.free w.1 i a w.2 else []
        | none => [] })

/-- The own reasons of CONVERT and AUX at their start (R156, R164, R167, R308). -/
def convertFault (s : State) (c : Carriage) (d : List Byte) : Option Nat :=
  let p := pairOf c.res
  if portGone s c.res then some rSensorGone
  else if !portOn s c.res then some rResource
  else if !dRef d && !(pairAt s p).on && !pairHeld s p then some rResource
  else none

/-- As convertFault, of an AUX. -/
def auxFault (s : State) (c : Carriage) : Option Nat :=
  let code := c.aux.toNat
  let p := (auxPair code).getD false
  match auxArm code with
  | some k =>
    if portGone s k then some rSensorGone
    else if !portOn s k then some rResource
    else if !(pairAt s p).on && !pairHeld s p then some rResource
    else none
  | none =>
    if auxNeedsOn code && !(pairAt s p).on && !pairHeld s p then some rResource
    else if (auxLeak code).isSome && (pairAt s p).on && !pairHeld s p then some rResource
    else match auxIdLine code with
      | some line => if idLineHeld s line then some rResource else none
      | none => none

/-- The bytes of the table a CORRECT reads, with the room they have, or the reason it has none: a bound slot that holds no valid
calibration any more is one (R184, R223). A page of the slot that no longer decodes is found without source 49, since the CORRECT reads
the installed copy (DESIGN CHOICE, log entry 88). -/
def correctTable (s : State) (d : List Byte) : (List Byte × Nat) ⊕ Nat :=
  if dCalSlot d then
    match s.disc.ports[dPort d]? with
    | some p =>
      match p.slot, p.table with
      | some k, some t => if !slotValid s k || (dSlotChk d && k != dSlot d) then .inr rNoCal else .inl (t, t.length)
      | _, _ => .inr rNoCal
    | none => .inr rNoCal
  else
    let a := 0x4000 + 4 * dCorrPtr d
    .inl (memLoad s.mem a (0x6000 - a), 0x6000 - a)

/-- The conductor installs calibration for the channel's port (R185). -/
def installing (s : State) (d : List Byte) : Bool :=
  dCalSlot d && (match s.disc.ports[dPort d]? with | some p => p.installing | none => false)

/-- The temperature a CORRECT consumes (R222). -/
def correctTemp (f : Frame) (c : Carriage) (d : List Byte) (r : Val) : Option Val :=
  if dTempEn d then (if dTempCh d = c.ch then some r else valOf f (dTempCh d)) else none

/-- The flags a CORRECT inherits (R231). -/
def correctFlags (r : Val) (temp : Option Val) : BitVec 16 :=
  (r.flags ||| (match temp with | some t => t.flags | none => 0)) &&& ~~~fCoarse

/-- A CORRECT by a table with the room it has: the reason of its check, or the value (R223 to R229). -/
def correctBy (t : List Byte) (room : Nat) (r : Val) (temp : Option Val) : Nat ⊕ Val :=
  match tableCheck t room with
  | some reason => .inl reason
  | none =>
    let e := correctValue t r.v (temp.map (fun v => v.v))
    .inr { v := e.1, stamp := r.stamp, flags := correctFlags r temp ||| flagIf e.2 fOver }

/-- The outcome of a CORRECT (R184, R185, R222 to R229): a reason or a value. -/
def correctOutcome (s : State) (f : Frame) (c : Carriage) (d : List Byte) : Nat ⊕ Val :=
  match rawOf f c.ch with
  | none => .inl rDep
  | some r =>
    let temp := correctTemp f c d r
    if !dCorrEn d then .inr { r with flags := correctFlags r temp }
    else
      if installing s d then
        match s.ros.lastCorr.getD c.ch.toNat none with
        | some v => .inr { v := v.v, stamp := r.stamp, flags := correctFlags r temp ||| fStale ||| fCalHold }
        | none => .inl rNoCal
      else
        match correctTable s d with
        | .inr reason => .inl reason
        | .inl (t, room) => correctBy t room r temp

/-- What a CORRECT reads from the store while host writes may commit to it (R225); nothing where its table is installed or it
uses none. -/
def correctReads (f : Frame) (c : Carriage) (d : List Byte) : Option TableRead :=
  if dCorrEn d && !dCalSlot d then
    (rawOf f c.ch).map (fun r => { addr := 0x4000 + 4 * dCorrPtr d, raw := r, temp := correctTemp f c d r, old := [] })
  else none

/-- The value of a COUPLE (R230, R231). -/
def coupleOutcome (f : Frame) (d : List Byte) : Nat ⊕ Val :=
  match valOf f (dOpA d), valOf f (dOpB d) with
  | some a, some b =>
    let r := coupleValue (dMode d) a.v b.v
    .inr { v := r.1, stamp := a.stamp, flags := ((a.flags ||| b.flags) &&& ~~~fCoarse) ||| flagIf r.2 fOver }
  | _, _ => .inl rDep

/-- The delivered value of EMIT, AOUT_SET and LEDGER_ADD by the entry they read (R233). -/
def deliveredBy (x : FmtRead) (m : List Host.Cell) : Nat ⊕ Val :=
  let e := x.entry m
  if fmtBad e then .inl rArgs
  else
    let o := formatValue e x.val.v
    .inr { v := (lowWord o.1).toInt, stamp := x.val.stamp, flags := x.val.flags ||| flagIf o.2 fOver }

/-- The delivered value of EMIT, AOUT_SET and LEDGER_ADD at the start of carriage i (R233). -/
def delivered (s : State) (f : Frame) (i : Nat) (c : Carriage) (d : List Byte) : Nat ⊕ Val :=
  match fmtRead s f i c d with
  | none => .inl rDep
  | some x => deliveredBy x s.mem

/-- A held CONVERT or AUX repeats the channel's last value (R308); its stamp follows at its end. -/
def heldOutcome (s : State) (f : Frame) (c : Carriage) : Nat ⊕ Val :=
  match s.ros.lastConv.getD c.ch.toNat none with
  | none => .inl rNoCal
  | some v => .inr { v := v.v, stamp := stampAt (f.at c.start) 0 s, flags := fStale ||| fCalHold }

end Sys2Proof.Machine
end

