-- ==== Sys2Proof/Machine/Starts.lean ====
section
/-! DEFINITION. The starts of carriages (R206) and what each operation does at its start; the times of a conversion (R158 to R161). -/

namespace Sys2Proof.Machine

/-! ## Times of a conversion -/

/-- The qtick of its frame at which a carriage's filter starts (R161, R372). -/
def filterQtick (c : Carriage) : Nat :=
  c.start + (if c.op = oAux ∧ !auxFixed c.aux.toNat then auxPrefix c.aux.toNat * shapeQ c.arg else 0)

/-- The qtick of T_conv: of the declared shape, or of a fixed sequence (Tables 8.4 and 8.6). -/
def convQtick (c : Carriage) : Nat :=
  if c.op = oAux ∧ (auxLeak c.aux.toNat).isSome then c.start + 576 * 32
  else if c.op = oAux ∧ (auxArm c.aux.toNat).isSome then c.start + 672 * 32
  else filterQtick c + tConv (shapeDec c.arg) (c.arg.getLsbD 4) (shapeQ c.arg)

/-- The number of the last output of the chain completed from a filter start to T_conv (R160, R162). -/
def outputsOf (f : Frame) (c : Carriage) (r : CarRun) : Nat :=
  let periods := (f.at (convQtick c) - r.filter) / (8 * shapeQ c.arg)
  periods / 2 ^ (shapeDec c.arg + 4) / (if c.arg.getLsbD 4 then 2 else 1)

/-! ## Starts -/

/-- The first carriage that has not started: starts go in carriage order (R206, Table 10.5 ORDER). -/
def nextWaiting (f : Frame) : Option Nat := firstIdx f.runs.length (fun i => (runAt f i).state == .waiting)

/-- A carriage still converts although its scheduled end lies at or before qtick q. -/
def overdue (f : Frame) (q : Nat) : Bool :=
  (List.range f.runs.length).any (fun i =>
    (runAt f i).state == .running && (runAt f i).converting && (runAt f i).reason == 0 &&
      decide ((carAt f.img.cars i).stop ≤ q))

/-- Carriage i is the next to start, and names the operation. -/
def mayStart (i op : Nat) (s : State) : Bool :=
  match s.tt.frame with
  | none => false
  | some f =>
    !f.cut && nextWaiting f == some i && (carAt f.img.cars i).op == op && !overdue f (carAt f.img.cars i).start

/-- At its start qtick (R206): time moves on, carriages due to end have ended, descriptors are latched. -/
def toStart (i : Nat) (s : State) : State :=
  match s.tt.frame with
  | none => s
  | some f => finishUpTo (carAt f.img.cars i).start (advance (f.at (carAt f.img.cars i).start) s)

/-- The reason of R206 steps 3 to 5, if any. -/
def startFault (s : State) (f : Frame) (c : Carriage) (d : List Byte) : Option Nat :=
  if needFailed f c.needA || needFailed f c.needB || lacksValue f c d then some rDep
  else match descFault s f c d with
    | some r => some r
    | none => if shapeWrong c d then some rArgs else none

/-- Run i of the frame takes its place: running, with REF_WARN and the stamp of its start (R208, R210), or failed for a
reason. -/
def placeRun (i : Nat) (g : CarRun → CarRun) (s : State) : State :=
  { s with tt := { s.tt with frame := s.tt.frame.map (fun f =>
      setRun i (g { runAt f i with
        state := .running, refWarn := s.clk.warn, stamp := stampAt (f.at (carAt f.img.cars i).start) 0 s }) f) } }

/-- Run i fails at its start: it does nothing and ends FAILED at its scheduled end (R183, R208). -/
def failRun (i reason : Nat) (s : State) : State := placeRun i (fun r => { r with reason := reason }) s

/-- A failed EXCITE withdraws its own pre-settle (R183). -/
def dropPresettle (c : Carriage) (s : State) : State :=
  let p := c.res == 6
  if c.op == oExcite && (pairAt s p).presettle == some c.ch then setPair p { pairAt s p with presettle := none } s else s

/-- The next start group is fetched once the last carriage of a group has started (R178). -/
def fetchNext (i : Nat) (s : State) : State :=
  match s.tt.frame with
  | none => s
  | some f =>
    let q := (carAt f.img.cars i).start
    if f.runs.length ≤ i + 1 then s
    else if (carAt f.img.cars (i + 1)).start = q then s
    else match nextGroup f.img.cars q with
      | some n => fetchGroup f.img.cars n s
      | none => s

/-- A carriage start: the outcome of R206 steps 3 to 5 or, where it passes them, the operation `act` on the frame, the
carriage and its frame version. -/
def startCarriage (i op : Nat) (act : Frame → Carriage → List Byte → State → State) (s : State) : State :=
  if !mayStart i op s then s
  else
    let s := toStart i s
    match s.tt.frame with
    | none => s
    | some f =>
      let c := carAt f.img.cars i
      let d := versionOr s f c.ch
      fetchNext i (match startFault s f c d with
        | some r => dropPresettle c (failRun i r s)
        | none => act f c d s)

/-- An operation whose outcome is a value or a reason, settled at its start. -/
def settleValue (i : Nat) (o : Nat ⊕ Val) (s : State) : State :=
  match o with
  | .inl r => failRun i r s
  | .inr v => placeRun i (fun r => { r with val := some v }) s

/-- CORRECT (R224): its outcome by the table as it stands, and what it reads (R225). -/
def actCorrect (i : Nat) (f : Frame) (c : Carriage) (d : List Byte) (s : State) : State :=
  let x := correctReads f c d
  match correctOutcome s f c d with
  | .inl r => placeRun i (fun y => { y with reason := r, read := x }) s
  | .inr v => placeRun i (fun y => { y with val := some v, read := x, held := dCorrEn d && installing s d }) s

/-- EXCITE (R152, R153): a held pair is left as it is (R322). -/
def actExcite (i : Nat) (_ : Frame) (c : Carriage) (d : List Byte) (s : State) : State :=
  let p := c.res == 6
  if pairHeld s p then placeRun i id s
  else
    let t := if (pairAt s p).on then s else pairChanged p s
    placeRun i id (setPair p (exciteBy d (pairAt s p)) t)

/-- EXC_OFF (R153): a held pair is left as it is (R322). -/
def actExcOff (i : Nat) (_ : Frame) (c : Carriage) (_ : List Byte) (s : State) : State :=
  let p := c.res == 6
  if pairHeld s p then placeRun i id s
  else
    let t := if (pairAt s p).on then pairChanged p s else s
    placeRun i id (setPair p (pairAt s p).offed t)

/-- CONVERT and AUX past R206 step 5: a reason of step 6, a held value (R308), or a conversion under way. -/
def actConvert (i : Nat) (fault : Option Nat) (f : Frame) (c : Carriage) (s : State) : State :=
  match fault with
  | some r => failRun i r s
  | none =>
    if modHeld s c then
      match heldOutcome s f c with
      | .inl r => failRun i r s
      | .inr v => placeRun i (fun r => { r with val := some v, held := true, filter := f.at (filterQtick c) }) s
    else placeRun i (fun r => { r with converting := true, filter := f.at (filterQtick c) }) s

/-- Run i with what it read from its output-format entry, and the reason it fails with, 0 for none. -/
def placeFmt (i reason : Nat) (x : FmtRead) (s : State) : State := placeRun i (fun r => { r with reason := reason, fmt := some x }) s

/-- EMIT by the entry it read (R233). -/
def emitBy (i : Nat) (x : FmtRead) (s : State) : State :=
  match deliveredBy x s.mem with
  | .inl r => placeFmt i r x s
  | .inr v => placeRun i (fun r => { r with reason := 0, fmt := some x, val := some v }) s

/-- AOUT_SET by the entry it read (R233, R271): a format that fails R206 step 5, its own reasons of step 6, then the code. -/
def aoutBy (i n : Nat) (x : FmtRead) (s : State) : State :=
  match deliveredBy x s.mem with
  | .inl r => placeFmt i r x s
  | .inr v =>
    if cfgSpan s = 3 then placeFmt i rState x s
    else if s.pwr.warn then placeFmt i rPower x s
    else aoutSet n v.v v.flags (placeFmt i 0 x s)

/-- LEDGER_ADD by the entry it read (R233, R279): as AOUT_SET, with its own reason. -/
def ledgerBy (i : Nat) (c : Carriage) (x : FmtRead) (s : State) : State :=
  match deliveredBy x s.mem with
  | .inl r => placeFmt i r x s
  | .inr v => if !ldgEn s then placeFmt i rState x s else ldgAdd (c.arg.toNat % 8) v.v v.flags (placeFmt i 0 x s)

/-- EMIT, AOUT_SET or LEDGER_ADD by the entry it read. -/
def deliverBy (i : Nat) (f : Frame) (c : Carriage) (x : FmtRead) (s : State) : State :=
  if c.op = oEmit then emitBy i x s
  else if c.op = oAoutSet then aoutBy i (f.at c.start) x s
  else ledgerBy i c x s

/-- EMIT, AOUT_SET and LEDGER_ADD at their start (R233, R234). -/
def actDeliver (i : Nat) (f : Frame) (c : Carriage) (d : List Byte) (s : State) : State :=
  match fmtRead s f i c d with
  | none => failRun i rDep s
  | some x => deliverBy i f c x s

/-- EMIT and MARK are one step with their record, where no other carriage starts before their end. -/
def endAtOnce (i : Nat) (s : State) : State :=
  match s.tt.frame with
  | none => s
  | some f =>
    let c := carAt f.img.cars i
    let clear : Bool := match nextWaiting f with | some j => decide (c.stop ≤ (carAt f.img.cars j).start) | none => true
    if clear && !overdue f c.stop && (runAt f i).state == .running then finishUpTo c.stop (advance (f.at c.stop) s) else s

/-- A CONVERT past R206 step 5 that does not fail takes the input stage, where another CONVERT with its settle-start tick holds it (R22,
R180). -/
def takeStage (fault : Option Nat) (f : Frame) (c : Carriage) (s : State) : State := if fault.isNone then applyStage f c s else s

/-- Carriage i starts with operation `op`, past R206 steps 3 to 5. -/
def actOp (i op : Nat) (f : Frame) (c : Carriage) (d : List Byte) (s : State) : State :=
  if op = oExcite then actExcite i f c d s
  else if op = oExcOff then actExcOff i f c d s
  else if op = oConvert then takeStage (convertFault s c d) f c (actConvert i (convertFault s c d) f c s)
  else if op = oAux then actConvert i (auxFault s c) f c s
  else if op = oCorrect then actCorrect i f c d s
  else if op = oCouple then settleValue i (coupleOutcome f d) s
  else if op = oEmit ∨ op = oAoutSet ∨ op = oLedgerAdd then actDeliver i f c d s
  else placeRun i id s

/-- A carriage of an operation starts. -/
def startOp (i op : Nat) (s : State) : State := startCarriage i op (actOp i op) s

/-- Carriage i starts if it is the next to start, at or before HF counter value n. -/
def startDue (n i : Nat) (s : State) : State :=
  match s.tt.frame with
  | none => s
  | some f => if nextWaiting f == some i && decide (f.at (carAt f.img.cars i).start ≤ n) then startOp i (carAt f.img.cars i).op s else s

/-- A LEDGER_ADD that has not started starts at HF counter value n. -/
def addFalls (n : Nat) (s : State) : Bool :=
  match s.tt.frame with
  | none => false
  | some f => (List.range f.runs.length).any (fun i =>
      (runAt f i).state == .waiting && (carAt f.img.cars i).op == oLedgerAdd && f.at (carAt f.img.cars i).start == n)

/-- Every LEDGER_ADD of the qtick n is applied before a snapshot taken then (R280): the carriages due by then start first. -/
def addsFirst (n : Nat) (s : State) : State :=
  match s.tt.frame with
  | none => s
  | some f => if hfRunning s && addFalls n s then forAll (List.range f.runs.length) (startDue n) s else s

/-- A snapshot instant at a qtick, or at a ktick edge while HF is not locked (R280). -/
def instantAt (m : Moment) (r : LdgReq) (stamp : Stamp) (s : State) : State :=
  ldgInstant m.qtick r stamp (match m.qtick with | some q => when r.any (addsFirst q) s | none => s)

end Sys2Proof.Machine
end

