-- ==== Sys2Proof/Machine/Filters.lean ====
section
/-! DEFINITION. The filters of the event inputs and SYNC (R236, R237, R240), and what registers in one qtick (R202, R242, R252, R280).
Input 6 is SYNC. -/

namespace Sys2Proof.Machine

/-- Kticks of a slow filter code, 0 for not watched (Table 12.2). -/
def slowLen (c : Nat) : Nat := match c with | 0 => 0 | 1 => 1 | 2 => 4 | _ => 32

/-- The slow filter of an input, in kticks; SYNC's is fixed at 1 (R240). -/
def sfiltOf (w : Word) (k : Nat) : Nat := if k = 6 then 1 else slowLen (fld w (4 * k + 2) 2)

/-- The input is watched: enabled, as SYNC always is (R235), and not held (R311). -/
def inEn (s : State) (k : Nat) : Bool := (k == 6 || evEn s k) && !s.cal.holdEv.getLsbD k

/-- The level of the pin. -/
def pinOf (s : State) (k : Nat) : Bool := if k = 6 then s.pins.sync else s.pins.ev.getLsbD k

/-- The accepted level. -/
def accepted (s : State) (k : Nat) : Bool := if k = 6 then s.evin.syncLevel else s.evin.level.getLsbD k

/-- Inputs are watched: after the main start, out of a MEAS reset and of SHIP (Table 12.1). -/
def watching (s : State) : Bool := mainReady s && !s.sys.measRst && !s.pwr.ship

/-- The fast path watches: MEAS on a locked HF clock (Table 12.1). -/
def fastPath (s : State) : Bool := watching s && hfLocked s && !s.clk.bypass

/-- The change an input confirms. -/
def confOf (s : State) (k : Nat) : Option Confirm := s.evin.conf.getD k none

/-- Sets the change an input confirms. -/
def setConf (k : Nat) (c : Option Confirm) (s : State) : State :=
  { s with evin := { s.evin with conf := s.evin.conf.set k c } }

/-- The accepted level of an input changes. -/
def setAccepted (k : Nat) (level : Bool) (s : State) : State :=
  { s with evin := { s.evin with
      level := if k = 6 then s.evin.level
        else (s.evin.level &&& ~~~(BitVec.ofNat 6 (2 ^ k))) ||| (if level then BitVec.ofNat 6 (2 ^ k) else 0)
      syncLevel := if k = 6 then level else s.evin.syncLevel
      conf := s.evin.conf.set k none } }

/-- The fast filter of an input has confirmed its change: the pin still shows the new level. -/
def fastReady (s : State) (k : Nat) : Option (Stamp × Nat) :=
  match confOf s k with
  | some (.fast stamp _ s0 none) =>
    if fastPath s && inEn s k && pinOf s k != accepted s k then some (stamp, s0 + 8 * ffiltOf s.evin.incfg k) else none
  | _ => none

/-- A sync qtick restarts the filters of conversions past their filter start and before T_conv (R162, R372). -/
def syncRestart (n : Nat) (s : State) : State :=
  { s with tt := { s.tt with frame := s.tt.frame.map (fun f =>
      { f with runs := (List.range f.runs.length).map (fun i =>
          let c := carAt f.img.cars i
          let r := runAt f i
          if r.converting && r.state == .running && !(c.op == oAux && auxFixed c.aux.toNat) && decide (r.filter < n) &&
              decide (n < f.at (convQtick c)) then
            { r with filter := n, synced := true }
          else r) }) } }

/-- A SYNC is a trigger (R197, R204): the header's sync bit, or a free-run table with no frame running, whether or not one is awaited. -/
def syncTriggers (s : State) : Bool :=
  match activeImage s with
  | some im => im.sync || (im.freeRun && s.tt.frame.isNone)
  | none => false

/-- The occurrence an accepted SYNC rise registers as (R240, Table 12.6). -/
def syncOcc (stamp : Stamp) (held : Bool) (s : State) : Occ :=
  { source := 6, stamp := stamp, detail := put 0 1 held.toNat, log := true,
    trig := if syncTriggers s then some (10, stamp) else none }

/-- The sync qtick n resets dividers and filters, and the frame phase of a free-run table (R147, R162, R204). Of a frame that is only
awaited, the phase that its successor keeps is reset (DESIGN CHOICE, log entry 103). -/
def syncReset (n : Nat) (s : State) : State :=
  let t := syncRestart n s
  { t with tt := { t.tt with
      frame := t.tt.frame.map (fun f => if t.tt.freeRun then { f with syncAt := some n } else f)
      await := t.tt.await.map (fun a => { a with syncAt := some n }) } }

/-- The moment at which a confirmed change registers: its registration qtick, or for SYNC its sync qtick (R147, R236, R240). -/
def registersAt (s : State) (k r : Nat) : Nat := if k = 6 then qtickAt s (r + 2) else r

/-- A change of SYNC that its fast filter has confirmed by HF counter n is accepted, whatever the pin does before its sync qtick: the level
changes, and a rise waits for that qtick (R236, R240). -/
def holdSync (n : Nat) (s : State) : State :=
  match fastReady s 6 with
  | some (stamp, r) =>
    if r ≤ n then
      let rises := !accepted s 6
      let t := setAccepted 6 rises s
      if rises then { t with evin := { t.evin with rise := some (stamp, registersAt s 6 r) } } else t
    else s
  | none => s

/-- The stamp of a rise of SYNC that was accepted before and registers at qtick q. -/
def heldRise (q : Nat) (s : State) : Option Stamp := (s.evin.rise.filter (fun x => x.2 == q)).map (fun x => x.1)

/-- The inputs whose confirmed changes register at qtick q, with the stamps of their transitions. -/
def fastGroup (q : Nat) (s : State) : List (Nat × Stamp) :=
  (List.range 7).filterMap (fun k =>
    match fastReady s k with
    | some (stamp, r) => if registersAt s k r = q then some (k, stamp) else none
    | none => none)

/-- An input whose pin is still to be compared is not followed by the interpolator. -/
def isFresh (s : State) (k : Nat) : Bool := decide (k < 6) && s.evin.fresh.getLsbD k

/-- These inputs have been compared. -/
def compared (ks : List Nat) (s : State) : State :=
  let f := s.evin.fresh &&& ~~~(BitVec.ofNat 6 ((ks.filter (fun k => decide (k < 6))).foldl (fun b k => b + 2 ^ k) 0))
  { s with evin := { s.evin with fresh := f, cmpAt := if f = 0 then none else s.evin.cmpAt } }

/-- An input whose pin differs from its accepted level where no confirmation runs (R238). -/
def resumes (s : State) (k : Nat) : Bool := inEn s k && (confOf s k).isNone && pinOf s k != accepted s k

/-- The inputs compared at qtick q, the first sample after their en bits were written 1 (R238). -/
def freshGroup (q : Nat) (s : State) : List Nat :=
  if fastPath s && s.evin.cmpAt == some q then (List.range 6).filter (isFresh s) else []

/-- A step of an input: its number, condition, stamp and resumed bit. -/
abbrev Step := Nat × Nat × Stamp × Bool

/-- The changes that register at qtick q: those the fast filters confirm for it, and those that its first sample finds, which carry its
coarse stamp and the resumed bit (R236, R238). -/
def changesAt (q : Nat) (s : State) : List (Nat × Stamp × Bool) :=
  (fastGroup q s).map (fun x => (x.1, x.2, false)) ++ ((freshGroup q s).filter (resumes s)).map (fun k => (k, coarseNow s, true))

/-- The stamp of a rise of SYNC that registers at a moment: one accepted before, or one among the changes accepted then, from state s to
t. -/
def risesAt (q : Option Nat) (xs : List (Nat × Stamp × Bool)) (s t : State) : Option Stamp :=
  match q.bind (fun r => heldRise r s) with
  | some x => some x
  | none => (xs.find? (fun x => x.1 == 6 && accepted t 6)).map (fun x => x.2.1)

/-- Behind the steps of the inputs at qtick r, a rise of SYNC with that stamp registers, if there is one (R240, R242). -/
def withRise (q : Option Nat) (rise : Option Stamp) (xs : List Occ) (laps : Nat) (s : State) : List Occ × Nat × State :=
  match q, rise with
  | some r, some x =>
    (xs ++ [syncOcc x false s], laps, raise 6 (syncReset r { s with evin := { s.evin with rise := none } }))
  | _, _ => (xs, laps, s)

/-- The inputs that are compared for the first time at a qtick have been (R238). -/
def comparedAt (q : Option Nat) (s : State) : State :=
  match q with
  | some r => when (!(freshGroup r s).isEmpty) (compared (freshGroup r s)) s
  | none => s

/-- The inputs at a moment: the changes that register at its qtick and the steps given, in ascending input and condition (R242), with a
rise of SYNC behind them. Answers the occurrences, the laps asked for and the state after the steps. -/
def inputsAt (q : Option Nat) (steps : List Step) (s : State) : List Occ × Nat × State :=
  let xs := (q.map (fun r => changesAt r s)).getD []
  let s := comparedAt q s
  let t := forAll xs (fun x u => setAccepted x.1 (!accepted u x.1) u) s
  let y := smSteps ((List.range 6).flatMap (fun k =>
    ((xs.filter (fun x => x.1 == k)).map (fun x => (k, (!accepted t k).toNat, x.2))) ++ steps.filter (fun p => p.1 == k))) t
  withRise q (risesAt q xs s t) y.1 y.2.1 y.2.2

/-- Lap requests of alarms and inputs (R281): n of them register at once, or wait with the ledger, or are each refused. -/
def lapReq (n : Nat) (r : LdgReq) (s : State) : LdgReq × State :=
  if n = 0 then (r, s)
  else if lapAllowed s then
    (if ldgOn s then ({ r with lap := true }, s) else (r, { s with ldg := { s.ldg with laps := s.ldg.laps + n } }))
  else (r, forAll (List.range n) (fun _ => lapRefused) s)

/-- The direct ledger commands that wait register in a qtick; with HF not locked they wait for the next ktick edge (R281). -/
def takeCmdsAt (m : Moment) (r : LdgReq) (s : State) : LdgReq × State := if m.qtick.isSome then ldgTakeCmds r s else (r, s)

/-- Everything that registers at a moment that is no ktick edge, in one registration (R202, R242, R252, R280): the inputs, other
occurrences, the laps they ask for and the ledger commands that wait. -/
def registerAt (m : Moment) (steps : List Step) (extra : List Occ) (s : State) : State :=
  let x := inputsAt m.qtick steps s
  let r := lapReq x.2.1 LdgReq.none (register m (x.1 ++ extra) x.2.2)
  let l := takeCmdsAt m r.1 r.2
  let m := m.onGrid l.2
  instantAt m l.1 m.stamp l.2

/-- Every change that the fast filters confirm for qtick q registers (R236, R240). -/
def acceptFast (q : Nat) (s : State) : State :=
  let s := advance q s
  registerAt (momentAt q s) [] [] s

end Sys2Proof.Machine
end

