-- ==== Sys2Proof/Machine/Carriages.lean ====
section
/-! DEFINITION. The carriages of a frame: their starts (R206), what each operation does, conversions to T_conv (R158 to R162),
the watching checks (R165), the cuts (R134, R137, R141, R42) and the end of the frame (R200). -/

namespace Sys2Proof.Machine

/-! ## Conversions -/

/-- The raw value a conversion delivers: output m of its chain (R158, R159). -/
def chainValue (d : List Byte) (bits : List Bool) (m : Nat) : Int :=
  let l := dDec d + 4
  let w := sincWeights (2 ^ l)
  if dFir d then firOut l w bits m else sinc4 l w bits m

/-- The bits of the stream that output m of a chain needs. -/
def bitsFor (d : List Byte) (m : Nat) : Nat := m * (if dFir d then 2 else 1) * 2 ^ (dDec d + 4)

/-- A pair is reversed in the frame (R155). -/
def reversedIn (f : Frame) (p : Bool) : Bool := if p then f.revB else f.revA

/-- The code measures the sense pair, so its sign is restored (R155, Table 8.6). -/
def auxSense (code : Nat) : Option Bool := if code = 1 then some false else if code = 2 then some true else none

/-- An unspecified raw value within R157's bounds. -/
def openRaw (k : Nat) : Int := (Config.rawDraw k % 16777215 : Nat) - 8388607

/-- The conversion of run i is over: its value stands. -/
def endRun (i : Nat) (v : Val) (s : State) : State :=
  { s with tt := { s.tt with frame := s.tt.frame.map (fun f =>
      setRun i { runAt f i with converting := false, val := some v } f) } }

/-- The stamp of a conversion: its centre of gravity, or the last restart where no output completed after it (R161, R162); coarse where it
finishes on the bypass clock after a drift fail (R141). -/
def convStamp (s : State) (f : Frame) (c : Carriage) (d : List Byte) (r : CarRun) (m : Nat) : Stamp :=
  f.outStamp (if m = 0 then stampAt r.filter 0 s else cogStamp s c d r.filter m)

/-- T_conv of a CONVERT (R157 to R162, R165): its value carries OVERRANGE where the clip detector fired during it, which latched then, or
where the value reaches the threshold, which latches now. -/
def endConvert (i : Nat) (x : ConvData) (f : Frame) (c : Carriage) (s : State) : State :=
  let d := versionOr s f c.ch
  let r := runAt f i
  let m := min (outputsOf f c r) (firstValid d)
  if x.bits.length < bitsFor d m then s
  else
    let free := lowRef (stageOf d) x.senseUv && decide (0 < m)
    let raw := if m = 0 then 0 else if free then openRaw s.free else chainValue d x.bits m
    let v := if reversedIn f (pairOf c.res) then -raw else raw
    let ovr := (free && Config.clipDraw s.free) || overLevel s.afe.eff v
    let fl := flagIf (decide (m < firstValid d)) fSettling ||| flagIf (r.clip || ovr) fOver
    when ovr (diagOver c.res)
      (endRun i { v := v, stamp := convStamp s f c d r m, flags := fl } { s with free := s.free + free.toNat })

/-- What a VBAT or VDD code delivers lies within 0.5 % of its supply, in uV, from 1.5 V to 3.6 V (Tables 8.6, 19.6). -/
def supplyValue (mv : Nat) (v : Int) : Int := if 1500 ≤ mv ∧ mv ≤ 3600 then within (995 * mv) (1005 * mv) v else (sat32 v).1

/-- What the DIE_TEMP code delivers lies within 1.0 degree of the die's temperature from -40 to 85 degrees, in 1/1024 degree (Tables 8.6,
19.6). -/
def dieValue (s : State) (v : Int) : Int :=
  if -640 ≤ dieTrue s ∧ dieTrue s ≤ 1360 then within (64 * dieTrue s - 1024) (64 * dieTrue s + 1024) v else (sat32 v).1

/-- What the M4 delivers for a code (Table 8.6): the value that it formed; of the die's temperature or of a supply, once the chain has
settled, within its accuracy (R354). -/
def auxFormed (s : State) (code : Nat) (settled : Bool) (v : Int) : Int :=
  if !settled then (sat32 v).1
  else
  match code with
  | 0 => dieValue s v
  | 7 => supplyValue s.pins.vbat v
  | 8 => supplyValue s.pins.vdd v
  | _ => (sat32 v).1

/-- T_conv of an AUX (Table 8.6, R166, R354, R372). -/
def endAux (i : Nat) (x : ConvData) (f : Frame) (c : Carriage) (s : State) : State :=
  let d := versionOr s f c.ch
  let r := runAt f i
  let a := c.aux.toNat
  let fixed := auxFixed a
  let m := if fixed then firstValid d else min (outputsOf f c r) (firstValid d)
  let w := auxFormed s a (decide (firstValid d ≤ m)) x.value
  let w := match auxSense a with | some p => if reversedIn f p then (sat32 (-w)).1 else w | none => w
  let v := if m = 0 then 0 else w
  let t := endRun i { v := v, stamp := convStamp s f c d r m, flags := flagIf (decide (m < firstValid d)) fSettling } s
  match auxLeak a with
  | some p => classifyLeak p v t
  | none => match auxArm a with
    | some k => classifyArm k ((lowWord v).toNat % 65536) ((lowWord v).toNat / 65536) t
    | none => t

/-- CONVERSION_END: run i converts, and the stream holds the bits its value needs. -/
def conversionEnd (i : Nat) (x : ConvData) (s : State) : State :=
  match s.tt.frame with
  | none => s
  | some f =>
    if !((runAt f i).state == .running && (runAt f i).converting) then s
    else
      let c := carAt f.img.cars i
      let s := when (!f.slow) (advance (f.at (convQtick c))) s
      let s := when (!f.slow) (finishUpTo (convQtick c)) s
      match s.tt.frame with
      | none => s
      | some f => if c.op = oConvert then endConvert i x f c s else endAux i x f c s

/-! ## Watching checks (R165, Table 8.7) -/

/-- The converting CONVERTs on pair p whose frame version satisfies q fail with DIAG_FAULT. -/
def blameDiag (onPort : Nat → Bool) (q : List Byte → Bool) (s : State) : State :=
  match s.tt.frame with
  | none => s
  | some f =>
    mapRuns (fun c r => c.op == oConvert && r.state == .running && r.converting && onPort c.res && q (versionOr s f c.ch))
      (fun _ r => r.blame rDiag) s

/-- A CONVERT converts on port k. -/
def converting (s : State) (k : Nat) : Bool :=
  match s.tt.frame with
  | none => false
  | some f => (List.range f.runs.length).any (fun i => convertsOn k (carAt f.img.cars i) (runAt f i))


/-- Step 7 of a discovery job may convert port k: its hold stands (R322). -/
def discConverts (s : State) (k : Nat) : Bool :=
  match s.cond.running with
  | some (_, .disc j 2 _) => j.port.toNat == k && (pairAt s (pairOf k)).on
  | _ => false

/-- The settings of the CONVERT that converts on port k, which are those of its own descriptor wholly (R22), or what the input stage
holds. -/
def convStage (s : State) (k : Nat) : Stage :=
  match s.tt.frame with
  | none => stageAt s k
  | some f =>
    match firstIdx f.runs.length (fun i => convertsOn k (carAt f.img.cars i) (runAt f i)) with
    | some i => stageOf (versionOr s f (carAt f.img.cars i).ch)
    | none => stageAt s k

/-- The clip detector of the modulator of port k fires during its conversion: overrange latches at once, whatever becomes of the
carriage, and a value it still delivers carries OVERRANGE (R165, R167). With a reference below 0.5 V it is open whether it fires (R157). -/
def clipFire (k : Nat) (inUv : Int) (senseUv : Nat) (s : State) : State :=
  let g : Stage := if discConverts s k then { port := BitVec.ofNat 2 k, pga := 0, ref := false } else convStage s k
  let free := lowRef g senseUv
  let fires := if free then Config.clipDraw s.free else clips s g inUv senseUv
  let t := { s with free := s.free + free.toNat }
  if fires then diagOver k (mapRuns (convertsOn k) (fun _ r => { r with clip := true }) t) else t

/-- DIAG_CHECK_FIRE: a watching check fires while it runs. -/
def diagFire (d : Diag) (s : State) : State :=
  match d with
  | .overrange port inUv senseUv =>
    if converting s port.toNat || discConverts s port.toNat then clipFire port.toNat inUv senseUv s else s
  | .cmFault port =>
    let k := port.toNat
    let p := pairOf k
    if (converting s k || discConverts s k) && (pairAt s p).on && bitOf s.afe.eff (if p then 13 else 12) then
      diagPort 12 k (blameDiag (fun j => j == k) (fun _ => true) s)
    else s
  | .senseLoss p =>
    let x := pairAt s p
    if x.on && bitOf s.afe.eff 14 then
      let volt := kelvinOf s p && !x.current
      diagPair 16 p (setPair p { x with senseLost := x.senseLost || volt }
        (blameDiag (fun j => pairOf j == p) (fun v => !dRef v || volt) s))
    else s
  | .excLimit p =>
    if (pairAt s p).on then diagPair 20 p (blameDiag (fun j => pairOf j == p) dRef s) else s

/-! ## Late seals and the depot (R176, R179) -/

/-- The start group fetched and not yet started, with its carriages. -/
def fetchedGroup (s : State) : List Carriage :=
  match s.tt.frame with
  | some f =>
    if f.cut then []
    else match nextWaiting f with
      | some i => f.img.cars.filter (fun c => c.start == (carAt f.img.cars i).start)
      | none => []
  | none =>
    if !s.ros.ahead then []
    else match activeImage s with
      | some im => im.cars.filter (fun c => c.start == ((im.cars.map (fun c => c.start)).headD 0))
      | none => []

/-- A seal of channel c (R173, R182), and the pre-settles of its fetched EXCITEs (R179). -/
def sealNow (c : BitVec 5) (s : State) : State :=
  let t := sealChannel c s
  let wd := fun (x : Pair) => if x.presettle == some c then { x with presettle := none } else x
  let u := { t with afe := { t.afe with pairA := wd t.afe.pairA, pairB := wd t.afe.pairB } }
  forAll ((fetchedGroup u).filter (fun e => e.ch == c)) presettleFor u

/-! ## The end of a frame (R195, R199, R200, R204, R205) -/

/-- A pending switch is applied at a frame boundary: source 44, and every SWITCH_TT that waits completes OK (R195). A free run, and
a continuation that awaits in its gap, end at a table without free_run (R205). -/
def applySwitch (s : State) : State :=
  match s.tt.swPend with
  | none => s
  | some b =>
    let goesOn : Bool := match instOf s b with | some i => i.freeRun | none => false
    let t := raise 44
      { s with tt := { s.tt with
          active := b, activeValid := true, swPend := none
          freeRun := s.tt.freeRun && goesOn
          await := if goesOn then s.tt.await else s.tt.await.filter (fun a => !a.cont) } }
    let u := { t with
      cond := { t.cond with
        switches := []
        switchDone := if t.cond.inReset then t.cond.switchDone ++ t.cond.switches.map (fun g => (g, some b)) else t.cond.switchDone } }
    if t.cond.inReset || t.cond.switches.isEmpty then u
    else forAll t.cond.switches (fun g => cplRecord 0x02 false false rOk g (put 0 1 b.toNat)) (serve u)

/-- Qtick 0 of a free-run continuation after a body end at n: on the grid of the last sync qtick + 4 qticks (R204). -/
def continueAt (f : Frame) (n : Nat) : Nat :=
  match f.syncAt with
  | none => n
  | some q =>
    let a := q + 32
    let l := 8 * f.img.body
    if n ≤ a then a else a + (n - a + l - 1) / l * l

/-- The frame that follows a body end at n: a continuation, a queued trigger, or both in one (R201, R202, R204, R205). Two rows of Table
10.6 apply where a queued trigger meets a continuation: the frame takes the qtick 0 of the continuation, without the queue's LATE_START
(which a LATE TT_START still gives it, R122), and it is COINCIDENT, with source 7 and the queued bit (DESIGN CHOICE, log entry 100). -/
def followUp (f : Frame) (n : Nat) (s : State) : State :=
  let ok := hfLocked s && !s.clk.bypass && !s.tt.halted && !s.pwr.warn && ttEn s && (activeImage s).isSome
  let run := ok && s.tt.freeRun
  let base := if run then continueAt f n else n + 32
  let seals := if base = n then f.seals else []
  match s.tt.queued with
  | some x =>
    let t := { s with tt := { s.tt with queued := none } }
    if s.tt.halted || s.clk.bypass then forAll x.trigs (lateTrigger 1 0 {}) t
    else if !ok then t
    else
      let a : Await :=
        { code := x.code, stamp := x.stamp, lateStart := !run || x.lateFrom.isSome, coincident := x.many || run, queued := true,
          needLock := false, base := some base, cont := false, reg := some n, seals := seals, lateFrom := x.lateFrom, trigs := x.trigs
          syncAt := none }
      raiseIf run 7 { t with tt := { t.tt with await := some a } }
  | none =>
    if run then
      let a : Await :=
        { code := 13, stamp := stampAt base 0 s, lateStart := false, coincident := false, queued := false,
          needLock := false, base := some base, cont := true, reg := some n, seals := seals, lateFrom := none, trigs := [], syncAt := none }
      { s with tt := { s.tt with await := some a } }
    else s

/-- The FRAME steps of the enabled inputs at a frame's end (R241, R242). -/
def frameSteps (n : Nat) (stamp : Stamp) (s : State) : State :=
  registerAt { momentAt n s with stamp := stamp } (((List.range 6).filter (evEn s)).map (fun k => (k, 3, stamp, false))) [] s

/-- The frame ends (R200): the MARK record of a cut, pairs and pre-settles released, source 40, the pending switch. -/
def closeFrame (f : Frame) (s : State) : State :=
  let s := markFailRecord f s
  applySwitch (raise 40 (releasePairs (withdrawPresettles { s with tt := { s.tt with frame := none } })))

/-- The frame ended at HF counter n, outside a MEAS reset: what follows it, and its FRAME steps. -/
def afterFrame (f : Frame) (n : Nat) (stamp : Stamp) (s : State) : State :=
  frameSteps n stamp (followUp f n s)

/-- No carriage of the frame waits or runs. -/
def allDone (f : Frame) : Bool := f.runs.all (fun r => r.state == .done)

/-- A cut frame ends when its last running carriage has ended (R200). -/
def closeIfCut (s : State) : State :=
  match s.tt.frame with
  | none => s
  | some f => if f.cut && allDone f then afterFrame f s.clk.hf (nowStamp s) (closeFrame f s) else s

/-- FRAME_END: at the body end every carriage has started and ends; a cut frame ends when nothing of it runs (R200). -/
def frameEndOp (s : State) : State :=
  match s.tt.frame with
  | none => s
  | some f =>
    if f.cut then closeIfCut (when (!f.slow) (fun u => finishUpTo f.img.body (advance (f.at (lastEnd f)) u)) s)
    else if (nextWaiting f).isSome || overdue f f.img.body then s
    else
      let t := finishUpTo f.img.body (advance (f.at f.img.body) s)
      match t.tt.frame with
      | none => t
      | some g => afterFrame g (g.at g.img.body) (stampAt (g.at g.img.body) 0 t) (closeFrame g t)

/-- CARRIAGE_END: carriage i ends at its scheduled end, after those due before it. -/
def carriageEndOp (i : Nat) (s : State) : State :=
  match s.tt.frame with
  | none => s
  | some f =>
    let c := carAt f.img.cars i
    let early : Bool := match nextWaiting f with | some j => decide ((carAt f.img.cars j).start < c.stop) | none => false
    if !((runAt f i).state == .running) || early || overdue f c.stop then s
    else if f.slow then closeIfCut (finish i s)
    else closeIfCut (finishUpTo c.stop (advance (f.at c.stop) s))

/-! ## Cuts -/

/-- The sequencer halts (R134, R137, R141): a frame that awaits is dropped, its triggers reported (R142), free-run stops, a fault code may
apply (R272). -/
def haltSeq (s : State) : State :=
  dropAwait (haltFault { s with tt := { s.tt with halted := true, freeRun := false } })

/-- The code that a running AOUT_SET has not applied yet is lost with it; one that has not started has none. -/
def dropDue (op : Nat) (started : Bool) (s : State) : State :=
  if op = oAoutSet ∧ started then { s with out := { s.out with due := none } } else s

/-- Carriage i fails at a cut with its record at once (R208, R211); a MARK waits for the frame's last carriage. -/
def cutOne (reason : Nat) (stamp : Stamp) (i : Nat) (s : State) : State :=
  match s.tt.frame with
  | none => s
  | some f =>
    let r := runAt f i
    let started := r.state == .running
    let st := if started then f.outStamp r.stamp else stamp
    let g := setRun i { r with state := .done, reason := reason } f
    if (carAt f.img.cars i).op == oMark then
      { s with tt := { s.tt with frame := some { g with markFail := some (reason, st) } } }
    else
      failRecord i reason st started r.late g
        (dropDue (carAt f.img.cars i).op started { s with tt := { s.tt with frame := some { g with nFailed := g.nFailed + 1 } } })

/-- The frame is cut: the carriages that satisfy p fail, in ascending index (R208). -/
def cutFrame (reason : Nat) (p : CarRun → Bool) (s : State) : State :=
  match s.tt.frame with
  | none => s
  | some f =>
    let stamp := nowStamp s
    forAll ((List.range f.runs.length).filter (fun i => p (runAt f i))) (cutOne reason stamp)
      { s with tt := { s.tt with frame := some { f with cut := true } } }

/-- R134, R137: running and unstarted carriages fail with CLOCK_UNLOCKED; the sequencer halts. -/
def cutAll (s : State) : State :=
  closeIfCut (dropQueued (haltSeq (cutFrame rUnlocked (fun r => r.state != .done) s)))

/-- The running carriages finish on the bypass clock, with coarse stamps (R141, `Frame.outStamp`). -/
def goSlow (s : State) : State := { s with tt := { s.tt with frame := s.tt.frame.map (fun f => { f with slow := true }) } }

/-- R141: unstarted carriages fail with CLOCK_BYPASS, running ones go on to coarse stamps; the sequencer halts. -/
def cutDrift (s : State) : State :=
  closeIfCut (dropQueued (haltSeq (goSlow (cutFrame rBypass (fun r => r.state == .waiting) s))))

/-- R42 steps 3 and 4: unstarted carriages fail with POWER_WARN; queued and awaiting triggers are dropped in silence. -/
def cutWarn (s : State) : State :=
  closeIfCut (cutFrame rPower (fun r => r.state == .waiting)
    { s with tt := { s.tt with queued := none, await := none, freeRun := false } })

/-! ## A host write to a table that is being read (R225) -/

/-- The memory a CORRECT sees: the bytes it read earlier stand over the present ones. -/
def readView (x : TableRead) (m : List Host.Cell) : List Host.Cell := seenOver x.old m

/-- The words of a table of n bytes at an address that a commit changed. -/
def wordsChanged (a n : Nat) (before after : List Host.Cell) : List Nat :=
  ((List.range (n / 4)).map (fun k => a + 4 * k)).filter (fun w => memLoad before w 4 != memLoad after w 4)

/-- The bytes of a word with their addresses. -/
def wordCells (m : List Host.Cell) (w : Nat) : List Host.Cell := (List.range 4).map (fun k => (w + k, memByte m (w + k)))

/-- The room from an address to the end of the store. -/
def roomAt (a : Nat) : Nat := 0x6000 - a

/-- The read after a commit took the memory from `before` to `after`: of each changed word it is open whether it had been read. That goes
for every word up to the store's end, since how many of them the table has may be told by an old header or by a new one. -/
def readOn (free hf i : Nat) (before after : List Host.Cell) (x : TableRead) : TableRead :=
  let kept := (wordsChanged x.addr (roomAt x.addr) before after).filter (fun w =>
    Config.tableRead free hf i w && !x.old.any (fun c => c.1 == w))
  { x with old := x.old ++ kept.flatMap (wordCells before) }

/-- The outcome by the words read; a mix whose check fails ends CHECKWORD. -/
def readOutcome (x : TableRead) (m : List Host.Cell) (r : CarRun) : CarRun :=
  match correctBy (memLoad (readView x m) x.addr (roomAt x.addr)) (roomAt x.addr) x.raw x.temp with
  | .inl _ => { r with reason := rCheck, val := none, read := some x }
  | .inr v => { r with reason := 0, val := some v, read := some x }

/-- The bytes of a table by the header that a CORRECT sees, within the store. -/
def tableSpan (x : TableRead) (m : List Host.Cell) : Nat :=
  min (max 32 (4 * (tabHdr (memLoad (readView x m) x.addr 32)).nwords)) (roomAt x.addr)

/-- Run i, where a commit changed its table, by the old header or by the one now seen, within the first 200 qticks of the carriage. -/
def raceRun (before : List Host.Cell) (s : State) (f : Frame) (i : Nat) (r : CarRun) : CarRun :=
  match r.read with
  | none => r
  | some x =>
    if r.state == .running && decide (s.clk.hf < f.at ((carAt f.img.cars i).start + 200)) then
      let y := readOn s.free s.clk.hf i before s.mem x
      if (wordsChanged x.addr (max (tableSpan x before) (tableSpan y s.mem)) before s.mem).isEmpty then { r with read := some y }
      else readOutcome y s.mem r
    else r

/-- Every CORRECT that reads its table while a host write commits to it (R225). -/
def raceTables (before : List Host.Cell) (s : State) : State :=
  { s with tt := { s.tt with frame := s.tt.frame.map (fun f =>
      { f with runs := f.runs.mapIdx (fun i r => raceRun before s f i r) }) } }

/-! ## A host write to an output-format entry that is being read (R234) -/

/-- A LEDGER_ADD of the value's flags is skipped (R279): it has added nothing. -/
def addSkips (s : State) (x : FmtRead) : Bool := ldgSkips x.val.flags s

/-- The reads of the LEDGER_ADDs that start together with carriage i, itself left out, with their reasons. -/
def addsBeside (i : Nat) (f : Frame) : List (FmtRead × Nat) :=
  (List.range f.runs.length).filterMap (fun j =>
    let c := carAt f.img.cars j
    if j ≠ i ∧ c.op = oLedgerAdd ∧ c.start = (carAt f.img.cars i).start then (runAt f j).fmt.map (fun x => (x, (runAt f j).reason)) else none)

/-- Whether a LEDGER_ADD has added since the last record, but for carriage i. -/
def addedBut (i : Nat) (f : Frame) (x : FmtRead) (s : State) : Bool :=
  let ys := addsBeside i f
  (x.was && ys.all (fun y => y.1.was)) || ys.any (fun y => y.2 == 0 && !addSkips s y.1)

/-- What a LEDGER_ADD that ended OK has added is taken back, before it is added anew. -/
def ledgerUndo (i : Nat) (f : Frame) (c : Carriage) (x : FmtRead) (before : List Host.Cell) (s : State) : State :=
  match deliveredBy x before with
  | .inl _ => s
  | .inr v =>
    let a := c.arg.toNat % 8
    { s with ldg := { s.ldg with
        run := s.ldg.run.set a (s.ldg.run.getD a 0 - BitVec.ofInt 64 (BitVec.ofInt 32 v.v).toInt)
        cnt := s.ldg.cnt.set a (s.ldg.cnt.getD a 0 - 1), added := addedBut i f x s } }

/-- A carriage of the frame reads its entry anew: what it did by the bytes it read before is taken back. -/
def rereadBy (before : List Host.Cell) (i : Nat) (f : Frame) (c : Carriage) (r : CarRun) (x y : FmtRead) (s : State) : State :=
  let t :=
    if c.op = oAoutSet then { s with out := { s.out with due := none, held := x.was } }
    else if c.op = oLedgerAdd ∧ r.reason = 0 then ledgerUndo i f c x before s
    else s
  deliverBy i f c y t

/-- Run i, where a commit of its start qtick changed the entry it reads: of each changed word it is open whether it had been read. A
LEDGER_ADD that is skipped, or in whose qtick a snapshot has been taken, has read its entry before. -/
def raceFormat (before : List Host.Cell) (i : Nat) (s : State) : State :=
  match s.tt.frame with
  | none => s
  | some f =>
    let c := carAt f.img.cars i
    let r := runAt f i
    let n := f.at c.start
    match r.fmt with
    | none => s
    | some x =>
      let was := (wordsChanged x.addr 16 before s.mem).flatMap (wordCells before)
      let kept := (readBefore s.free s.clk.hf i x.addr was).filter (fun w => !x.old.any (fun o => o.1 == w.1))
      let fixed := c.op == oLedgerAdd && (addSkips s x || s.ldg.inst.any (fun k => k.qtick == n))
      if r.state == .running && decide (n ≤ s.clk.hf) && decide (s.clk.hf < n + 8) && !was.isEmpty && !fixed then
        rereadBy before i f c r x { x with old := x.old ++ kept } s
      else s

/-- Every carriage that reads its output-format entry while a host write commits to it; carriages that start later in this qtick may still
find the bytes replaced (R234). -/
def raceFormats (before : List Host.Cell) (s : State) : State :=
  let was := (wordsChanged 0x7640 256 before s.mem).flatMap (wordCells before)
  let n := match s.tt.frame with | some f => f.runs.length | none => 0
  let t := forAll (List.range n) (raceFormat before) s
  if was.isEmpty || !hfRunning s then t
  else { t with free := t.free + 1, tt := { t.tt with fmtWas := some (s.clk.hf, was) } }

end Sys2Proof.Machine
end

