-- ==== Sys2Proof/Machine/Evin.lean ====
section
/-! DEFINITION. Event inputs: the fast and slow paths, the handover between them, SYNC (R235 to R240, R369). Input 6 is SYNC. -/

namespace Sys2Proof.Machine

/-- The HF counter from which a sample counts for a transition: at least 2 HF cycles after it (R236). -/
def sampleFrom (n m : Nat) : Nat := n + 2 + (decide (0 < m)).toNat

/-- A change that begins to be confirmed by samples at or after an HF counter value: s0 is the first qtick there (R236). -/
def confirmFrom (s : State) (stamp : Stamp) (n : Nat) : Confirm := .fast stamp n (qtickAt s n) none

/-- The pin was sampled at the old level between leaving at `a` and returning at `r`, from s0 on. -/
def sampledAway (s : State) (s0 a r : Nat) : Bool := decide (qtickAt s (max (a + 1) s0) ≤ r)

/-- A captured transition of an input on the fast path (R236). -/
def fastEdge (k : Nat) (level : Bool) (n m : Nat) (s : State) : State :=
  let stamp := stampAt n m s
  if level != accepted s k then
    match confOf s k with
    | none => setConf k (some (confirmFrom s stamp (sampleFrom n m))) s
    | some (.fast st n0 s0 away) =>
      match away with
      | none => s
      | some a =>
        if sampledAway s s0 a n then setConf k (some (confirmFrom s stamp (sampleFrom n m))) s
        else if n < s0 then setConf k (some (.fast stamp n0 s0 none)) s
        else setConf k (some (.fast st n0 s0 none)) s
    | some (.slow ..) => s
  else
    match confOf s k with
    | some (.fast st n0 s0 none) => setConf k (some (.fast st n0 s0 (some n))) s
    | _ => s

/-- One slow sample of an input at a ktick edge with that edge's coarse stamp: its confirmation after it, and the stamp of
a change accepted at it with its resumed bit (R237, R238). An input is sampled while the slow path watches it or still
confirms. -/
def slowSample (s : State) (stamp : Stamp) (k : Nat) : Option Confirm × Option (Stamp × Bool) :=
  let c := confOf s k
  let slowNow : Bool := match c with | some (.slow ..) => true | _ => false
  let len := sfiltOf s.evin.incfg k
  if !(watching s && inEn s k && decide (len ≠ 0) && (slowNow || !fastPath s)) then (c, none)
  else if pinOf s k == accepted s k then (none, none)
  else if decide (k < 6) && s.evin.fresh.getLsbD k then (none, some (stamp, true))
  else
    match c with
    | some (.slow 0 _) => if len ≤ 1 then (none, some (stamp, false)) else (some (.slow 1 stamp), none)
    | some (.slow n st) => if len ≤ n + 1 then (none, some (st, false)) else (some (.slow (n + 1) st), none)
    | _ => if len ≤ 1 then (none, some (stamp, false)) else (some (.slow 1 stamp), none)

/-- The inputs that have had their first sample need no comparison any more (R238). -/
def freshAfter (s : State) : BitVec 6 :=
  if !watching s then s.evin.fresh
  else if fastPath s then (if s.evin.cmpAt.isSome then s.evin.fresh else 0)
  else BitVec.ofNat 6 (((List.range 6).filter (fun k => s.evin.fresh.getLsbD k && sfiltOf s.evin.incfg k == 0)).foldl
    (fun b k => b + 2 ^ k) 0)

/-- Watching resumes on the fast path at qtick q: a pin that differs where no confirmation runs is one change, with the coarse
stamp of that sample and the resumed bit; all of them register there together, a rise of SYNC among them (R238, R311). -/
def resumeFast (q : Nat) (ks : List Nat) (s : State) : State :=
  let xs := ks.filter (resumes s)
  let s := forAll xs (fun k u => setAccepted k (!accepted u k) u) (compared ks s)
  if xs.isEmpty then s
  else
    let c := coarseNow s
    let rise := xs.contains 6 && accepted s 6
    let t := if rise then raise 6 (syncReset q (advance q s)) else s
    registerAt (momentAt q t) ((xs.filter (fun k => decide (k < 6))).map (fun k => (k, (!accepted s k).toNat, c, true)))
      (if rise then [syncOcc c false t] else []) t

/-- The comparison that an en bit written from 0 to 1 called for is made at its qtick, once the HF counter n has reached it: the pins
and the count are then still those of that sample (R238). -/
def takeFresh (n : Nat) (s : State) : State :=
  match s.evin.cmpAt with
  | some q => if fastPath s && decide (q ≤ n) then resumeFast q ((List.range 6).filter (fun k => s.evin.fresh.getLsbD k)) s else s
  | none => s

/-- EV_TRANSITION: the pin takes a level; the interpolator captures it on the fast path of a watched input. Pin 7 is WAKEN (log entry
79). -/
def transition (k : Nat) (level : Bool) (e : Edge) (s : State) : State :=
  if 6 < k then { s with pins := { s.pins with waken := level } }
  else
    let s := takeFresh e.n (advance e.n s)
    let s := if k = 6 ∧ level ≠ s.pins.sync then holdSync e.n s else s
    let t : State :=
      { s with pins := { s.pins with
          ev := if k = 6 then s.pins.ev else (s.pins.ev &&& ~~~(BitVec.ofNat 6 (2 ^ k))) ||| (if level then BitVec.ofNat 6 (2 ^ k) else 0)
          sync := if k = 6 then level else s.pins.sync } }
    if fastPath s && inEn s k && level != pinOf s k && !isFresh s k then fastEdge k level e.n (tapPos s e.tap) t else t

/-- The handover at a lock at HF counter t (R238): changes after the last slow sample are confirmed by the fast filter, with
s0 the first qtick; the others are resumed at once. -/
def handover (t : Nat) (s : State) : State :=
  if !fastPath s then s
  else
    let late := fun k => sfiltOf s.evin.incfg k != 0 && !(decide (k < 6) && s.evin.fresh.getLsbD k)
    let begun := (List.range 7).filter (fun k =>
      inEn s k && (confOf s k).isNone && pinOf s k != accepted s k && late k)
    let s := forAll begun (fun k => setConf k (some (confirmFrom s (coarseNow s) (t + 1)))) s
    resumeFast t (List.range 6) s

/-- The handover that waits for the count of the edge at which lock was declared. -/
def handoverHere (s : State) : State :=
  match s.evin.handAt with
  | some t => handover t { s with evin := { s.evin with handAt := none } }
  | none => s

/-- A write of EVT_INCFG (R369): counts of inputs whose own filter field changed restart from the first sample
after it, on the path that now watches where the slow one no longer does; an en bit from 0 to 1 returns its
machine to state 0 (R244) and has its pin compared at the first sample (R238). -/
def writeIncfg (w : Word) (s : State) : State :=
  let s := holdSync s.clk.hf (takeFresh s.clk.hf s)
  let old := s.evin.incfg
  let changed := fun k => if k = 6 then fld w 30 2 != fld old 30 2 else fld w (4 * k) 4 != fld old (4 * k) 4
  let went := fun k => decide (k < 6) && bitOf w (24 + k) && !bitOf old (24 + k)
  let gone := fun k => decide (k < 6) && !bitOf w (24 + k)
  let redo := fun (k : Nat) (c : Option Confirm) =>
    if gone k || went k then none
    else if changed k then
      match c with
      | some (.fast st n s0 away) =>
        if away.any (fun a => sampledAway s s0 a s.clk.hf) then none
        else some (.fast st (max n (s.clk.hf + 1)) (max s0 (qtickAt s (s.clk.hf + 1))) away)
      | some (.slow _ st) =>
        if sfiltOf w k != 0 then some (.slow 0 st)
        else if fastPath s then
          some (.fast st (s.clk.hf + 1) (qtickAt s (s.clk.hf + 1)) (if pinOf s k == accepted s k then some s.clk.hf else none))
        else none
      | none => none
    else c
  let ens := (List.range 6).filter went
  { s with evin := { s.evin with
      incfg := w
      conf := (List.range 7).map (fun k => redo k (confOf s k))
      fresh := s.evin.fresh ||| BitVec.ofNat 6 (ens.foldl (fun b k => b + 2 ^ k) 0)
      cmpAt := if fastPath s && !ens.isEmpty then some (qtickAt s (s.clk.hf + 1)) else s.evin.cmpAt
      st := (List.range 6).map (fun k => if went k then 0 else s.evin.st.getD k 0) } }

end Sys2Proof.Machine
end

