-- ==== Sys2Proof/Machine/Clocks.lean ====
section
/-! DEFINITION. Lock, loss of lock, drift, retries and spread (R131 to R149), pre-wake and the return to rest (R47, R127, R199). -/

namespace Sys2Proof.Machine

/-! ## Predictions (R127, R197) -/

/-- A_x of R114. -/
def alarmTarget (s : State) (x : Bool) : Nat :=
  (if x then s.alm.alm1 else s.alm.alm0).toNat * 32768 + fld s.alm.alctl (if x then 23 else 7) 6 * 512

/-- A field of an alarm's half of RTC_ALCTL (Table 6.6). -/
def alBit (s : State) (x : Bool) (i : Nat) : Bool := bitOf s.alm.alctl (i + if x then 16 else 0)

/-- The commit check of an alarm is pending (R116). -/
def alChk (s : State) (x : Bool) : Bool := if x then s.alm.chk1 else s.alm.chk0

/-- The kticks to a target: ahead, past with a commit check that will fire it at the next edge, or reached once the count has wrapped
(R118). -/
def targetDist (c target : Nat) (chk skip : Bool) : Option Nat :=
  if c < target then some (target - c)
  else if chk then (if skip then none else some 1)
  else some (target + 2 ^ 47 - c)

/-- The kticks to a frame trigger of an alarm. -/
def alarmDist (s : State) (x : Bool) : Option Nat :=
  if alBit s x 0 && alBit s x 4 then targetDist (countNow s) (alarmTarget s x) (alChk s x) (alBit s x 3) else none

/-- TT_START's target (R122). -/
def ttTarget (s : State) : Nat := s.tt.startSec.toNat * 32768 + s.tt.startFrac.toNat / 131072

/-- The kticks to TT_START. -/
def ttStartDist (s : State) : Option Nat :=
  if bitOf s.tt.ctl 3 then targetDist (countNow s) (ttTarget s) s.tt.startChk (bitOf s.tt.ctl 2) else none

/-- The ticks of P kticks of a tsel code; 60 s counts seconds (R124). -/
def tickLen (tsel : BitVec 2) : Nat := match tsel.toNat with | 0 => 8 | 1 => 512 | _ => 32768

/-- The kticks to the countdown's zero. -/
def countdownDist (s : State) : Option Nat :=
  if bitOf s.alm.cdctl 0 && bitOf s.alm.cdctl 4 && decide (s.alm.count ≠ 0) && s.alm.loadPend.isNone then
    let n := if s.alm.tsel = 3 then (60 - s.alm.sub60) + 60 * (s.alm.count.toNat - 1) else s.alm.count.toNat
    let p := tickLen s.alm.tsel
    some ((s.rtc.presc.toNat / p + n) * p - s.rtc.presc.toNat)
  else none

/-- The kticks to the second tick, where it is a trigger (R197). -/
def secDist (s : State) : Option Nat :=
  match activeImage s with
  | some im => if im.secTick then some (32768 - s.rtc.presc.toNat) else none
  | none => none

/-- A ktick-domain trigger is predicted within k kticks (R127, R199): a lead of 0 predicts nothing. R127 leaves open whether a prediction
stands where the trigger would be ignored: none is made while TT_CTL.en is 0, under the warning, in a MEAS reset or in the grace period of
SHIP, nor while RTC_CTL.halt stops the count (DESIGN CHOICE, log entry 29). -/
def predicted (k : Nat) (s : State) : Bool :=
  trigReaches s && decide (leadOf s ≠ 0) && s.rtc.started && !s.rtc.halted &&
    ([alarmDist s false, alarmDist s true, ttStartDist s, countdownDist s, secDist s].filterMap id).any (fun d => decide (d ≤ k))

/-! ## Rest (R47, R199, R332) -/

/-- The conductor holds no command, and no ledger record or other page remains to be written (R332). -/
def condIdle (s : State) : Bool :=
  s.cond.running.isNone && s.cond.queue.isEmpty && !s.cond.inReset && s.ldg.job.isNone && s.ldg.jobs.isEmpty &&
    s.ldg.wait.isEmpty && s.nv.suspend.isEmpty && s.nv.op.isNone && s.nv.todo.isEmpty

/-- Nothing keeps the device in RUN with its HF clock (R47, R199): a drift window whose last period has ended closes first (R138). -/
def mayRest (s : State) : Bool :=
  mainReady s && s.tt.frame.isNone && s.tt.await.isNone && s.tt.queued.isNone && s.clk.acq.isNone && !s.sys.measRst &&
    condIdle s && s.out.wakeK == 0 && !s.clk.verifying && !(hfLocked s && decide (1024 ≤ s.clk.periods)) &&
    s.evin.handAt.isNone && !predicted (leadOf s) s && !s.pwr.ship && s.pwr.shipIn.isNone

/-- The device parks the MDLL and goes from RUN to NAP or IDLE when nothing keeps it in RUN; there is no way between the two (R47,
R199). The conductor stops, and its watchdog with it (R332, R340). -/
def rest (s : State) : State :=
  let s := outSettle s
  let idle := mayRest s
  let t := if idle then park s else s
  let aw := condRuns t && !(mainReady t && condIdle t)
  outSettle { t with
    sys := { t.sys with pstate := if idle && t.sys.pstate == .run then (if bitOf t.pwr.ctl 8 then .idle else .nap) else t.sys.pstate }
    cond := { t.cond with awake := aw, wdog := if aw then t.cond.wdog else 0 } }

/-! ## Locking (R131 to R137) -/

/-- The lock-window test (R132). -/
def windowPasses (s : State) (count : Nat) : Bool :=
  decide (((count * 1048576 : Nat) - (fNomKHz s * 1000 : Nat) : Int).natAbs ≤ max (fld s.clk.limits 0 4) 1 * 1048576)

/-- The sources a lock raises by its cause (R148). A write of CLK_PLAN made in BYPASS, which is a retry of R143 too, raises 20 alone (DESIGN
CHOICE, log entry 95). -/
def lockSources (cause : AcqBy) (s : State) : State :=
  match cause with
  | .mainStart | .measReset | .clkSrc | .retry => raise 16 s
  | .clkPlan => raise 20 s
  | .clkBoth => raise 20 (raise 16 s)
  | _ => s

/-- MEAS moves to HF at qtick q: a held SYNC reset is applied there (R147), and the inputs hand over (R238), after the count of the
edge where the move falls on a rising X32 edge whose own row follows. -/
def toHf (q : Nat) (rising : Bool) (s : State) : State :=
  let s := bypassOut s
  let s := { (when s.evin.syncHeld (syncReset q) s) with evin := { s.evin with syncHeld := false } }
  if rising then { s with evin := { s.evin with handAt := some q } } else handover q s

/-- Lock is declared at HF counter t (R131): the band code is stored; MEAS moves to HF, but for a run that must be verified
after a drift fail (R143); an awaited frame gets its qtick 0 (R19). -/
def declareLock (a : Acq) (t : Nat) (rising : Bool) (s : State) : State :=
  let s := changeRef s
  let check := s.clk.verify
  let s := lockSources a.cause
    { s with
      free := s.free + 1
      clk := { s.clk with
        state := .locked, acq := none, bands := s.clk.bands.set (bandSlot s) (some (Config.bandCode s.free)), retries := 0,
        retryIn := if check then s.clk.retryIn else none, verifying := check, hf := t, qbase := t, runEdge := false }
      out := { s.out with lastAt := none }
      evin := { s.evin with recs := none } }
  if check then s
  else
    let s := toHf t rising s
    { s with tt := { s.tt with await := s.tt.await.map (fun w =>
        if w.needLock then { w with needLock := false, base := some (t + 32) } else w) } }

/-- A lock window closes in an acquisition without passing (R131): a second window, then a search, then failure. -/
def windowFails (a : Acq) (s : State) : State :=
  if a.windows = 0 then { s with clk := { s.clk with acq := some { a with windows := 1 } } }
  else if a.hop then
    { s with clk := { s.clk with
        acq := some { a with hop := false, windows := 0 }, bands := s.clk.bands.set (bandSlot s) none } }
  else acqFail 2 s

/-- Lock is lost (R137): the frame is cut, sources 17 and 18, and a retry at once. A run that was being verified after a drift fail is
still to be verified at its next lock, as after a retry that fails: of R143, "any other failure" is read as one with no drift fail before
it (DESIGN CHOICE, log entry 27). -/
def lockLost (err : BitVec 3) (s : State) : State :=
  let was := s.clk.verifying
  let t := cutAll (bypassIn s)
  retry (raise 17
    { t with clk := { t.clk with
        state := .bypass, accErr := err, verifying := false, verify := t.clk.verify || was, periods := 0, winQ := 0, runEdge := false,
        episode := true } })

/-- LOCK_WINDOW_CLOSE with count HF/64 edges (R132, R137). -/
def lockWindowClose (count : Nat) (c : Close) (s : State) : State :=
  match s.clk.acq with
  | some a =>
    if windowPasses s count then rest (declareLock a (max s.clk.hf c.t) c.rising s) else rest (windowFails a s)
  | none =>
    if hfLocked s then (if windowPasses s count then advance c.t s else rest (lockLost 5 (advance c.t s))) else s

/-- REFIN_MISSING: no REFIN edge for 1.28 us while REFIN is the reference (R131, R137). -/
def refinMissing (t : Nat) (s : State) : State :=
  if !(s.clk.ref == .refin && hfRunning s) then s
  else
    match s.clk.acq with
    | some a =>
      let s := raise 22 s
      if bitOf s.clk.src 3 then
        underFallback a { s with clk := { s.clk with
            ref := .fallback, acq := some { a with hop := (s.clk.bands.getD 4 none).isSome, windows := 0 } } }
      else rest (acqFail 1 s)
    | none => rest (lockLost 1 (raise 22 (advance t s)))

/-! ## Drift (R138 to R141, R143) -/

/-- The measured error and whether it is limited (R139). -/
def driftError (s : State) (q : Nat) : Int × Bool :=
  let e : Int :=
    if absoluteMode s then
      let f : Int := (fNomKHz s * 1000 : Nat)
      divrhe (16000000 * (32 * (q : Int) - f)) f
    else
      let b : Int := (s.clk.qb.getD q : Nat)
      divrhe (16000000 * ((q : Int) - b)) b
  limit (-8388607) 8388607 e

/-- CLK_DRIFT of an error (Table 7.8). -/
def driftWord (e : Int) (sat rel : Bool) : Word :=
  put 0 24 (code 24 e) ||| put 24 1 sat.toNat ||| put 25 1 1 ||| put 26 1 rel.toNat

/-- The close writes CLK_DRIFT and holds Q (R138, R139). -/
def driftTake (q : Nat) (s : State) : State :=
  let e := driftError s q
  { s with clk := { s.clk with
      drift := driftWord e.1 e.2 (!absoluteMode s), q := some q, qb := if absoluteMode s then none else some (s.clk.qb.getD q),
      qHist := if s.tt.frame.isSome then (s.clk.lastEdge, s.clk.q) :: s.clk.qHist else [], periods := 0, winQ := 0 } }

/-- The fail check (R141). -/
def driftFails (s : State) (e : Int) : Bool :=
  decide (fld s.clk.limits 20 12 ≠ 0) && decide (16 * fld s.clk.limits 20 12 < e.natAbs)

/-- The warn check (R140); 21 where it sets. A CLK_LIMITS.warn written 0 clears a standing warn here, at the next close of a window, not at
its commit (DESIGN CHOICE, log entry 96). -/
def driftWarn (raising : Bool) (e : Int) (s : State) : State :=
  let w := fld s.clk.limits 8 12
  let set := decide (w ≠ 0) && decide (16 * w < e.natAbs)
  let clear := decide (w = 0) || decide (e.natAbs ≤ 12 * w)
  raiseIf (raising && set && !s.clk.warn) 21
    { s with clk := { s.clk with warn := if set then true else if clear then false else s.clk.warn } }

/-- DRIFT_WINDOW_CLOSE with Q cycles, the count of the window's periods (R138), registered at HF counter t (R139 to R141, R143). -/
def driftWindowClose (q t : Nat) (s : State) : State :=
  if !(hfLocked s && decide (1024 ≤ s.clk.periods) && q == s.clk.winQ) then s
  else
    let s := advance t s
    let e := (driftError s q).1
    let s := driftTake q s
    if s.clk.verifying then
      if driftFails s e then
        rest (driftWarn false e (raise 21
          { s with clk := { s.clk with
              state := .bypass, accErr := 4, verifying := false, retryIn := some 8192, runEdge := false } }))
      else
        rest (driftWarn true e (toHf (qtickAt s s.clk.hf) false
          { s with clk := { s.clk with verifying := false, verify := false, retryIn := none } }))
    else if driftFails s e then
      let c := cutDrift (bypassIn s)
      rest (driftWarn false e (raise 21
        { c with clk := { c.clk with
            state := .bypass, accErr := 4, verify := true, retryIn := some 8192, runEdge := false } }))
    else driftWarn true e s

/-! ## Writes of CLK_SRC and CLK_PLAN (R134) -/

/-- An acquisition restarts after a committed write: MEAS on the bypass clock, the frame cut, the sequencer halted. After a drift fail the
write ends the verification, and its lock returns MEAS to HF with no drift window checked, which R134 step 4 and R143 leave open (DESIGN
CHOICE, log entry 27). SYS_STAT.pstate stays as it is where the MDLL starts in NAP or IDLE so, at a retry or at the end of a MEAS reset:
Table 2.8 names no such cause of RUN (R27, R47; DESIGN CHOICE, log entry 78). -/
def restartClock (cause : AcqBy) (s : State) : State :=
  let inBypass := s.clk.state == .bypass
  let s := discardQ (cutAll (withdrawPresettles (dropAhead (bypassIn
    { s with clk := { s.clk with acq := none, verify := false, verifying := false } }))))
  if clkSel s = 0 then
    { s with clk := { s.clk with state := .off, ref := .none, bypass := true, retryIn := none } }
  else
    acquire cause
      { s with clk := { s.clk with
          bypass := true
          retries := if inBypass then satAdd 255 s.clk.retries 1 else s.clk.retries
          retryIn := if inBypass then some 8192 else none } }

/-- CLK_SRC takes a value; a sel of 0b11 leaves the field as it was (Table 7.5). -/
def writeClkSrc (w : Word) (s : State) : State :=
  let v := if fld w 0 2 = 3 then setFld w 0 2 (fld s.clk.src 0 2) else w
  { s with clk := { s.clk with src := v &&& 0xF } }

/-- CLK_PLAN takes a value: active, view and the definition of the viewed plan (R149); a changed mult or fref drops its band
code (R135). -/
def writeClkPlan (w : Word) (s : State) : State :=
  let v := fld w 2 2
  let p : Plan := { mult := BitVec.ofNat 6 (fld w 4 6), fref := BitVec.ofNat 16 (fld w 10 16), rel := bitOf w 26 }
  let old := s.clk.plans.getD v ⟨0, 0, false⟩
  let keep := p.mult == old.mult && p.fref == old.fref
  { s with clk := { s.clk with
      active := BitVec.ofNat 2 (fld w 0 2), view := BitVec.ofNat 2 v, plans := s.clk.plans.set v p
      bands := if keep then s.clk.bands else s.clk.bands.set v none } }

/-! ## Retries and spread (R143, R145, R146) -/

/-- The retry period counts kticks while in BYPASS; at its end a retry acquisition starts (R143). It starts also while the conductor, which
makes it, is held in its watchdog reset, of which R143 and R341 say nothing (DESIGN CHOICE, log entry 113). -/
def retryTick (s : State) : State :=
  if clkSel s = 0 then s
  else
    match s.clk.retryIn with
    | none => s
    | some k =>
      if k ≤ 1 then
        (if s.clk.acq.isSome || s.clk.verifying then { s with clk := { s.clk with retryIn := some 8192 } } else retry s)
      else { s with clk := { s.clk with retryIn := some (k - 1) } }

/-- The used profile points (Table 7.11). -/
def profilePts (s : State) : List (Nat × Nat) :=
  (List.range (fld s.clk.spread 28 4 + 1)).map (fun k =>
    (leNat (memLoad s.mem (0x7600 + 4 * k) 2), leNat (memLoad s.mem (0x7602 + 4 * k) 2)))

/-- The parameters CLK_SPREAD asks for, or none for a spread fault (R145). -/
def spreadCopy (s : State) : Option SpreadSet :=
  if bitOf s.clk.spread 1 then
    let p := profilePts s
    if p.any (fun x => decide (1310 < x.1) || x.2 == 0) || decide ((p.map (fun x => x.2)).foldl (· + ·) 0 < 64) then none
    else some (.profile p)
  else if fld s.clk.spread 16 12 < 4 then none
  else some (.triangle (fld s.clk.spread 4 5) (fld s.clk.spread 16 12))

/-- New parameters wait for the next wrap, or the next HF start; with no spread period in progress there is no wrap to wait for
(R146, log entry 67). -/
def takeSpread (x : SpreadSet) (s : State) : State :=
  if hfRunning s && s.clk.spreadNow == .off then
    { s with clk := { s.clk with spreadNow := x, spreadNew := none, spreadFrom := s.clk.hf } }
  else { s with clk := { s.clk with spreadNew := some x } }

/-- The spread unit copies its parameters, or faults with source 23 (R145). A running spread that en 0 or a faulty copy turns off runs to
its next wrap: R145 says only that spread stays off (DESIGN CHOICE, log entry 112). -/
def copySpread (s : State) : State :=
  if !bitOf s.clk.spread 0 then takeSpread .off s
  else
    match spreadCopy s with
    | some x => takeSpread x { s with clk := { s.clk with spreadFault := false } }
    | none => raise 23 (takeSpread .off { s with clk := { s.clk with spreadFault := true } })

/-- The length of the spread period in HF cycles: tri_period x 16 qticks, or the dwells of the used points (Tables 7.10, 7.11). -/
def spreadLen : SpreadSet → Nat
  | .off => 0
  | .triangle _ period => 8 * (16 * period)
  | .profile pts => 8 * (pts.map (fun x => x.2)).foldl (· + ·) 0

/-- SPREAD_PERIOD_WRAP: the period in progress ends while HF runs; new parameters take effect (R146). -/
def spreadWrap (s : State) : State :=
  if !hfRunning s || s.clk.spreadNow == .off then s
  else
    let l := spreadLen s.clk.spreadNow
    let n := s.clk.spreadFrom + ((s.clk.hf - s.clk.spreadFrom) / l + 1) * l
    let t := advance n s
    { t with clk := { t.clk with
        spreadNow := t.clk.spreadNew.getD t.clk.spreadNow, spreadNew := none, spreadFrom := n } }

/-- CLK_STAT.spread_on: spread is off on the bypass clock (R142). -/
def spreadOn (s : State) : Bool := hfRunning s && !s.clk.bypass && s.clk.spreadNow != .off

end Sys2Proof.Machine
end

