-- ==== Sys2Proof/Machine/Nv.lean ====
section
/-! DEFINITION. The non-volatile array: page writes and reads, wear and relocation, the clear journal and the ledger's records (R291
to R302). -/

namespace Sys2Proof.Machine

/-! ## Writes and reads (R291 to R293) -/

/-- Replaces or adds a physical page, in ascending order. -/
def putPage (k : Nat) (p : NvPage) : List (Nat × NvPage) → List (Nat × NvPage)
  | [] => [(k, p)]
  | (j, q) :: r => if k < j then (k, p) :: (j, q) :: r else if k = j then (k, p) :: r else (j, q) :: putPage k p r

/-- An uncorrectable word was met: source 49 and NV_STAT.unc (R293). -/
def nvUnc (s : State) : State := raise 49 { s with nv := { s.nv with unc := true } }

/-! ## The health table (Table 16.3) -/

/-- The count of a physical page in the health table. -/
def healthOf (s : State) (k : Nat) : Nat :=
  match areaData s (12 + k / 128) with
  | none => 0
  | some d => (byteAt d (k % 128 / 2)).toNat / (if k % 2 = 0 then 1 else 16) % 16

/-- The health page of a physical page with its count replaced. -/
def healthWith (s : State) (k n : Nat) : List Byte :=
  let d := (areaData s (12 + k / 128)).getD (List.replicate 64 0)
  let b := (byteAt d (k % 128 / 2)).toNat
  d.set (k % 128 / 2) (BitVec.ofNat 8 (if k % 2 = 0 then b / 16 * 16 + n else b % 16 + 16 * n))

/-- The map page of a spare with its entry replaced. -/
def mapWith (s : State) (k v : Nat) : List Byte :=
  ((((mapTable s).set k v).drop (k / 32 * 32)).take 32).flatMap (leBytes 2)

/-! ## Wear (R294, R296, R297) -/

/-- A task that will fill spare k. -/
def NvTask.takes (k : Nat) : NvTask → Bool
  | .spare _ j _ => j == k
  | .entry j _ => j == k
  | _ => false

/-- The spares free, 0 to 63, in ascending order: their entry is free and no relocation under way takes them. -/
def freeSpares (s : State) : List Nat :=
  (List.range 64).filter (fun k => (mapTable s).getD k 0 == 0xFFFF && !s.nv.todo.any (NvTask.takes k))

/-- The count of a physical page, as the last task that waits will have written it. -/
def countDue (s : State) (k : Nat) : Nat :=
  s.nv.todo.foldl (fun n t => match t with | .count j m _ => if j = k then m else n | _ => n) (healthOf s k)

/-- Tasks join those that wait, while the main domain has its supply to carry them out. -/
def owe (ts : List NvTask) (s : State) : State := if s.pwr.mainOn then { s with nv := { s.nv with todo := s.nv.todo ++ ts } } else s

/-- A scrub of page l waits, or is being made. -/
def scrubDue (s : State) (l : Nat) : Bool :=
  s.nv.todo.any (· == .scrub l) || (match s.nv.op with | some o => o.task == some (.scrub l) | none => false)

/-- A page is to be scrubbed, once (R294). -/
def oweScrub (l : Nat) (s : State) : State := if scrubDue s l then s else owe [.scrub l] s

/-- Logical pages first ... first + count - 1. -/
def pageRange (first count : Nat) : List Nat := (List.range count).map (fun i => first + i)

/-- These pages are read: those with a single-bit error in a word are scrubbed (R293, R294, log entry 81). -/
def scrubAll (ls : List Nat) (s : State) : State := forAll (ls.filter (fun l => (pageAt s l).ecc == .corrected)) oweScrub s

/-- A verify of logical page l that corrected a word counts against its physical page (R296); at 8 the page is to be relocated to the
lowest free spare, or stays where it is (R297). -/
def wearCount (l phys : Nat) (s : State) : State :=
  let n := countDue s phys
  if 8 ≤ n then s
  else if n < 7 then owe [.count phys (n + 1) none] s
  else if (8 ≤ l ∧ l ≤ 15) ∨ (freeSpares s).isEmpty then owe [.count phys 8 (some l)] s
  else owe [.count phys 8 none, .spare l ((freeSpares s).headD 0) phys] s

/-- The physical page an operation works on. -/
def NvOp.phys (s : State) (o : NvOp) : Nat := match o.task with | some (.spare _ k _) => 448 + k | _ => physOf s o.page

/-- The page a write leaves where all goes well: one the device makes, or a copy of the page as it stands (R294, R297). -/
def NvOp.leaves (s : State) (o : NvOp) (kind gen : Byte) (data : List Byte) : NvPage :=
  match o.task with
  | some (.scrub l) => { pageAt s l with ecc := .clean }
  | some (.spare l _ _) => { pageAt s l with ecc := .clean }
  | _ => madePage o.page kind gen data .clean

/-- The operation that carries out a task. -/
def NvTask.op (s : State) (t : NvTask) : NvOp :=
  match t with
  | .scrub l =>
    { ledger := false, orphan := true, page := l, write := some ((pageAt s l).kind, (pageAt s l).gen, (pageAt s l).data), task := some t }
  | .count k n _ => { ledger := false, orphan := true, page := 12 + k / 128, write := some (0x5A, 0, healthWith s k n), task := some t }
  | .spare l _ _ =>
    { ledger := false, orphan := true, page := l, write := some ((pageAt s l).kind, (pageAt s l).gen, (pageAt s l).data), task := some t }
  | .entry k v => { ledger := false, orphan := true, page := 10 + k / 32, write := some (0x5A, 0, mapWith s k v), task := some t }

/-- What follows the end of a task (R297): the map entry after a spare that verifies, the mark of the old page after it, and the worn
page named last. A spare whose verify fails leaves the page where it is (log entry 71). -/
def taskDone (ecc : Ecc) (t : NvTask) (s : State) : State :=
  match t with
  | .scrub _ => s
  | .spare l k old =>
    if ecc = .uncorrectable || !s.pwr.mainOn then s
    else
      { s with nv := { s.nv with
          todo := .entry k l :: (if 448 ≤ old then [.entry (old - 448) 0xFFFE] else []) ++ .count old 15 (some l) :: s.nv.todo } }
  | .entry _ _ => s
  | .count _ n worn =>
    match worn with
    | some l => if !mainUp s then s else raise 48 { s with nv := { s.nv with wear := true, wearPage := l, noSpare := n == 8 } }
    | none => s

/-- A page write ends with what its verify found, which stays with the page (R294, R296, log entry 81). -/
def writePage (o : NvOp) (kind gen : Byte) (data : List Byte) (ecc : Ecc) (s : State) : State :=
  let k := o.phys s
  let p := { o.leaves s kind gen data with ecc := ecc }
  let t := { s with nv := { s.nv with pages := putPage k p s.nv.pages } }
  let t := match ecc with
    | .clean => t
    | .corrected => wearCount o.page k t
    | .uncorrectable => nvUnc t
  match o.task with
  | some x => taskDone ecc x t
  | none => t

/-- What a decode of a page finds: what a read of the row meets, or what stays with the page already. -/
def worstOf (a b : Ecc) : Ecc :=
  if a = .uncorrectable ∨ b = .uncorrectable then .uncorrectable else if a = .corrected ∨ b = .corrected then .corrected else .clean

/-- A page read: what its decode found stays with the page; a corrected word is scrubbed (R293, R294). -/
def readPage (l : Nat) (ecc : Ecc) (s : State) : State :=
  let p := pageAt s l
  let e := worstOf p.ecc ecc
  let t := { s with nv := { s.nv with pages := putPage (physOf s l) { p with ecc := e } s.nv.pages } }
  match e with
  | .uncorrectable => nvUnc t
  | .corrected => oweScrub l t
  | .clean => s

/-! ## The clear journal (R298) -/

/-- a is newer than b under the modular rule of R286. -/
def newerThan (a b : BitVec 16) : Bool := decide ((a - b).toNat < 32768)

/-- The record a journal page holds, if it is valid (Tables 16.3 and 16.4). -/
def journalAt (s : State) (l : Nat) : Option JRec :=
  let p := pageAt s l
  let d := p.data
  if validData l p then
    some { jseq := BitVec.ofNat 16 (halfAt d 0), state := byteAt d 2, cause := byteAt d 3, first := halfAt d 4,
           count := halfAt d 6, next := halfAt d 8, sec := wordAt d 12 }
  else none

/-- The record that holds: the newest valid copy (R298). -/
def journal (s : State) : Option JRec :=
  match journalAt s 8, journalAt s 9 with
  | some a, some b => if newerThan a.jseq b.jseq then some a else some b
  | some a, none => some a
  | none, some b => some b
  | none, none => none

/-- The contents of a journal record (Table 16.4). -/
def journalBytes (r : JRec) : List Byte :=
  leBytes 2 r.jseq.toNat ++ [r.state, r.cause] ++ leBytes 2 r.first ++ leBytes 2 r.count ++ leBytes 2 r.next ++ leBytes 2 0 ++
    wordBytes r.sec

/-- The next journal record: its sequence decides its page, 8 or 9. -/
def nextJournal (state cause : Byte) (first count next : Nat) (sec : Word) (s : State) : Nat × List Byte :=
  let j : BitVec 16 := match journal s with | some r => r.jseq + 1 | none => 0
  (if j.getLsbD 0 then 9 else 8,
   journalBytes { jseq := j, state := state, cause := cause, first := first, count := count, next := next, sec := sec })

/-- A clear stands in the journal, running or not (R298). -/
def journalled (s : State) : Bool :=
  match journal s with | some r => r.state == 1 || r.state == 2 | none => false

/-- A clear is journalled while none runs: SYS_STAT.journal, NV_STAT.clr_susp (R298). -/
def clearHeld (s : State) : Bool := s.nv.susp && journalled s && !s.nv.running

/-- The journalled range touches a page range [lo, hi). -/
def journalTouches (s : State) (lo hi : Nat) : Bool :=
  match journal s with | some r => decide (r.first < hi) && decide (lo < r.first + r.count) | none => false

/-! ## Ledger records in the array (R285 to R287) -/

/-- The valid record of a slot, if any (R286). -/
def recordAt (s : State) (i : Nat) : Option LdgRec :=
  let a := pageAt s (16 + 2 * i)
  let b := pageAt s (17 + 2 * i)
  if validData (16 + 2 * i) a && validData (17 + 2 * i) b && recAgrees a.data b.data then some (recOf a.data b.data) else none

/-- The valid records. -/
def records (s : State) : List LdgRec := (List.range 16).filterMap (recordAt s)

/-- The newest of some records: ahead of all others, or, where none is, the highest seq (R286). -/
def newestOf (rs : List LdgRec) : Option LdgRec :=
  match rs.find? (fun r => rs.all (fun q => decide ((r.seq - q.seq).toNat < 32768))) with
  | some r => some r
  | none => rs.foldl (fun b r => match b with | some q => if q.seq.toNat < r.seq.toNat then some r else some q | none => some r) none

/-- A word of a ledger page holds a double error. -/
def recordsUnc (s : State) : Bool := (List.range 32).any (fun i => !(pageAt s (16 + i)).reads)

/-- The newest valid record. -/
def newestRecord (s : State) : Option LdgRec := newestOf (records s)

/-- Recovery (R287): the sums of the newest valid record, or zero; the slots are read for it. -/
def recover (s : State) : State :=
  let t := scrubAll (pageRange 16 32) (if recordsUnc s then nvUnc s else s)
  match newestOf (records s) with
  | some r =>
    { t with ldg := { t.ldg with
        run := r.run, cnt := r.cnt, lap := r.lap, ivlStart := r.ivlStart, seq := r.seq + 1, newSeq := r.seq
        newKind := BitVec.ofNat 4 r.kind, restored := true, empty := false, added := false, sinceRec := 0, srcSeq := r.seq } }
  | none =>
    { t with ldg := { t.ldg with
        run := List.replicate 8 0, cnt := List.replicate 8 0, lap := 0, ivlStart := 0, seq := 0, newSeq := 0, newKind := 0
        restored := false, empty := true, added := false, sinceRec := 0, srcSeq := 0 } }

/-- The RESUME record after a recovery with en = 1 (R287): cause 0 main start, 1 MEAS reset, 2 enable. -/
def resume (cause : Nat) (s : State) : State :=
  if !ldgEn s then s
  else
    let stamp := nowStamp s
    let snap : LdgRec :=
      { stamp := stamp, seq := s.ldg.seq, kind := 5, flags := if stamp.coarse then 0x20 else 0, lap := s.ldg.lap,
        run := s.ldg.run, cnt := s.ldg.cnt, refused := s.ldg.refused, ivlStart := s.rtc.sec,
        srcSeq := s.ldg.srcSeq, wfail := s.ldg.wfailCnt, cause := cause }
    let l := { s.ldg with
      seq := s.ldg.seq + 1, refused := 0, wfailCnt := 0, sinceRec := 0, added := false, short := true
      ivlStart := s.rtc.sec, inst := none }
    { s with ldg := ldgQueue { snap := snap, pages := 0, bad := false, cmds := [] } false l (nvLedger s) }

/-! ## The config image (R304, R305) -/

/-- A config page is valid: its check word, the gen of page 0, and page 0's magic and version (R304). -/
def configValid (s : State) (l : Nat) : Bool :=
  let p0 := pageAt s 0
  validData l (pageAt s l) && (pageAt s l).gen == p0.gen && p0.data.take 5 == [0x4F, 0x48, 0x43, 0x46, 1]

/-- Every page of the image is valid (R86). -/
def imageValid (s : State) : Bool := (List.range 8).all (configValid s)

/-- All eight pages carry CLEARED (R86). -/
def imageEmpty (s : State) : Bool := (List.range 8).all (fun l => validCleared l (pageAt s l))

/-- A word of the image holds a double error. -/
def imageUnc (s : State) : Bool := (List.range 8).any (fun l => !(pageAt s l).reads)

/-- save_count of page 0, where it carries the magic; 0 otherwise. -/
def savedCount (s : State) : Nat :=
  let p := pageAt s 0
  if validData 0 p && p.data.take 5 == [0x4F, 0x48, 0x43, 0x46, 1] then halfAt p.data 6 else 0

end Sys2Proof.Machine
end

