-- ==== Sys2Proof/Machine/ConfigImage.lean ====
section
/-! DEFINITION. The writers of class N fields, and the config image as it is applied and saved (R86, R275, R304 to R306). -/

namespace Sys2Proof.Machine

/-! ## Writers shared by the host and the image -/

/-- AFE_CTL is written (R170, R155): port_en applies to the sentinels at once while TT_CTL.en is 0 (R315). -/
def writeAfeCtl (w : Word) (s : State) : State :=
  let v := w &&& 0x7FFF
  let fresh := fun (i : Nat) (x : Pair) => { x with revFresh := x.revFresh || bitOf v i != bitOf s.afe.ctl i }
  let t := { s with afe := { s.afe with ctl := v, pairA := fresh 6 s.afe.pairA, pairB := fresh 7 s.afe.pairB } }
  if ttEn s then t else applyPortEn (v.setWidth 4) t

/-- A CHECKPOINT record that is owed for en written 0 is written now (R288, log entry 68). -/
def ldgOwed (s : State) : State :=
  if s.ldg.offPend then ldgInstant none { LdgReq.none with ckpt := true } (nowStamp s) s else s

/-- Every record whose snapshot is taken has been written, or has failed. -/
def recordsDone (s : State) : Bool := s.ldg.job.isNone && s.ldg.jobs.isEmpty

/-- Recovery at a MEAS reset or a write of en, with its RESUME record behind a CHECKPOINT that is owed (R287, R288): it waits for the records
still to be written (Table 18.5, log entry 68). -/
def recoverBy (cause : Nat) (s : State) : State :=
  if recordsDone s then resume cause (ldgOwed (recover { s with ldg := { s.ldg with recovers := none } }))
  else { s with ldg := { s.ldg with recovers := some cause } }

/-- A recovery that waits for records is made once they are written, out of a MEAS reset. -/
def recoverDue (s : State) : State :=
  match s.ldg.recovers with
  | some c => if recordsDone s && !s.sys.measRst then recoverBy c s else s
  | none => s

/-- LDG_CTL is written: a change of ivl makes the interval in progress short, and one begins there (R282); en from 0 to 1 runs recovery and writes
a RESUME record (R287), after the CHECKPOINT that an earlier write still owes (log entry 68); from 1 to 0 owes one (R288). -/
def writeLdgCtl (w : Word) (s : State) : State :=
  let v := w &&& 0x00FFFFF1
  let was := ldgEn s
  let now := bitOf v 0
  let moved := decide (fld v 4 12 ≠ fld s.ldg.ctl 4 12)
  let t := { s with ldg := { s.ldg with
    ctl := v, short := s.ldg.short || moved, ivlStart := if moved then s.rtc.sec else s.ldg.ivlStart
    offPend := s.ldg.offPend || (was && !now && ldgStarted s) } }
  if now && !was && !s.sys.measRst then
    wakeMain (recoverBy 2 (if t.ldg.recovers.isSome then t else ldgOwed t))
  else t

/-- The CHECKPOINT owed for en written 0 is taken at the first qtick after the commit; with HF not locked it waits for the next ktick
edge (R280, R288). -/
def ledgerOff (s : State) : State :=
  if s.ldg.offPend && fineClock s then registerAt (momentAt (qtickAt s s.clk.hf) s) [] [] s else s

/-- EVT_MASK0 takes a value, and the always-on copy with it (R258). -/
def writeMask0 (w : Word) (s : State) : State :=
  trimServed { s with evt := { s.evt with
    mask := (s.evt.mask &&& 0xFFFFFFFF00000000) ||| w.setWidth 64, copy := BitVec.ofNat 8 (fld w 8 8) } }

/-- EVT_MASK1 takes a value. -/
def writeMask1 (w : Word) (s : State) : State :=
  trimServed { s with evt := { s.evt with mask := (s.evt.mask &&& 0xFFFFFFFF) ||| (w.setWidth 64 <<< 32) } }

/-- A CLK_PLAN word's plan definition (R149). -/
def planOf (w : Word) : Plan :=
  { mult := BitVec.ofNat 6 (fld w 4 6), fref := BitVec.ofNat 16 (fld w 10 16), rel := bitOf w 26 }

/-- The CLK_PLAN word of plan v, with band_valid (R149). -/
def planWord (s : State) (v : Nat) : Word :=
  let p := s.clk.plans.getD v ⟨0, 0, false⟩
  put 0 2 s.clk.active.toNat ||| put 2 2 v ||| put 4 6 p.mult.toNat ||| put 10 16 p.fref.toNat ||| put 26 1 p.rel.toNat |||
    put 27 1 (s.clk.bands.getD v none).isSome.toNat

/-! ## The image -/

/-- Word i of page 1 of the image. -/
def imgWord (s : State) (i : Nat) : Word := wordAt (pageAt s 1).data (4 * i)

/-- The trims and the tap map of page 6; a map that byte 60 does not mark calibrated is the default one (log entry 42). -/
def imgCal (s : State) : Cal :=
  let d := (pageAt s 6).data
  let b := byteAt d 60
  { s.cal with
    map := if b.getLsbD 0 then (d.take 8).map (fun x => x.toNat) else Cal.reset.map
    modTrim := (d.drop 8).take 45, evtTrim := (d.drop 53).take 7, calibrated := b.setWidth 3 }

/-- The clock fields of the image: a plan whose mult or fref changes loses its band code (R135). -/
def imgClk (s : State) : Clk :=
  let ps := (List.range 4).map (fun v => planOf (imgWord s (2 + v)))
  let old := fun v => s.clk.plans.getD v ⟨0, 0, false⟩
  let same := fun (v : Nat) => (ps.getD v ⟨0, 0, false⟩).mult == (old v).mult && (ps.getD v ⟨0, 0, false⟩).fref == (old v).fref
  let w := imgWord s 1
  { s.clk with
    src := (if fld w 0 2 = 3 then setFld w 0 2 (fld s.clk.src 0 2) else w) &&& 0xF
    plans := ps, active := BitVec.ofNat 2 (fld (imgWord s 2) 0 2)
    bands := (List.range 5).map (fun v => if v = 4 || same v then s.clk.bands.getD v none else none)
    limits := imgWord s 6 &&& 0xFFFFFF0F, spread := imgWord s 7 &&& 0xFFFF01F3 }

/-- The image changes CLK_PLAN's definitions or active plan. -/
def imgPlanChanges (s : State) : Bool := (imgClk s).plans != s.clk.plans || (imgClk s).active != s.clk.active

/-- The image changes CLK_SRC. -/
def imgSrcChanges (s : State) : Bool := (imgClk s).src != s.clk.src

/-- The bytes of pages 2 to 4 and of page 5. -/
def imgTables (s : State) : List Byte × List Byte :=
  ((pageAt s 2).data ++ (pageAt s 3).data ++ (pageAt s 4).data, (pageAt s 5).data)

/-- Every class N field and range takes the image's value at one time (R86, R304). -/
def setClassN (s : State) : State :=
  let t := { s with
    pwr := { s.pwr with ctl := maskIn 0x100 s.pwr.ctl (imgWord s 0) }
    clk := imgClk s
    res := { s.res with cfg := imgWord s 9 &&& 0xFF01 }
    cal := imgCal s
    mem := memStore (memStore s.mem 0x7500 (imgTables s).1) 0x7600 (imgTables s).2 }
  setAoutCfg (imgWord s 13 &&& 0xFFFF007F)
    (writeIncfg (imgWord s 12)
      (writeMask1 (imgWord s 11) (writeMask0 (imgWord s 10) (writeAfeCtl (imgWord s 8) t))))

/-- The AOUT record of page 0 (Table 14.4). -/
def aoutRec (s : State) : List Byte := ((pageAt s 0).data.drop 16).take 12

/-- The AOUT record passes its check and agrees with the restored OUT_AOUT_CFG (R275). -/
def aoutRecOk (s : State) : Bool :=
  let r := aoutRec s
  wordAt r 8 == crc32 (r.take 8) && halfAt r 2 == fld s.out.cfg 16 16 && (byteAt r 4).setWidth 2 == cfgSpan s

/-- The AOUT record at the config step of a main start, and at one that a conductor restart repeats (R89, R275). -/
def aoutAtStart (s : State) : State :=
  if aoutRecOk s then applyCode .host (BitVec.ofNat 16 (halfAt (aoutRec s) 0)) s
  else
    raise 61 (applyCode .host 0
      { s with out := { s.out with cfg := setFld s.out.cfg 16 16 0, recBad := true } })

/-- The config step of a main start (R86): the image is applied whole, or not at all with source 55. Repeated by a restart of the
conductor (R89) it reads the image anew; one no longer valid leaves the class N values of the first pass, beside the new cfg_state
(DESIGN CHOICE, log entry 91). -/
def configStep (s : State) : State :=
  let t := scrubAll (pageRange 0 8) (if imageUnc s then nvUnc { s with sys := { s.sys with startUnc := true } } else s)
  if imageValid s then
    let u := aoutAtStart (setClassN t)
    raise 54 { u with
      ldg := { u.ldg with ctl := imgWord s 14 &&& 0x00FFFFF1 }
      sys := { u.sys with phase := .config, cfgState := 0, cfgDone := true } }
  else
    raise 55 { t with
      sys := { t.sys with phase := .config, cfgState := if imageEmpty s then 2 else 1, cfgDone := true } }

/-- RESTORE_CONFIG's image is applied at the frame boundary (R306), with the effects of the host writes that would set it. -/
def restoreImage (s : State) : State :=
  let plan := imgPlanChanges s
  let src := imgSrcChanges s
  let t := ledgerOff (writeLdgCtl (imgWord s 14) (setClassN s))
  raise 54 (copySpread (
    if plan && src then restartClock .clkBoth t else if plan then restartClock .clkPlan t else if src then restartClock .clkSrc t else t))

/-! ## The image a SAVE_CONFIG writes (R305) -/

/-- The low 64 bytes of a list of words. -/
def pageOfWords (ws : List Word) : List Byte := pad64 (ws.flatMap wordBytes)

/-- Page 1 of a save: one register per word, as it reads (Table 16.7). -/
def savePage1 (s : State) : List Byte :=
  pageOfWords ([s.pwr.ctl, s.clk.src] ++ (List.range 4).map (planWord s) ++
    [s.clk.limits, s.clk.spread, s.afe.ctl, s.res.cfg, s.evt.mask.setWidth 32, (s.evt.mask >>> 32).setWidth 32, s.evin.incfg,
     s.out.cfg, s.ldg.ctl])

/-- Page 6 of a save. -/
def savePage6 (s : State) : List Byte :=
  pad64 (s.cal.map.map (fun n => BitVec.ofNat 8 n) ++ s.cal.modTrim ++ s.cal.evtTrim ++ [s.cal.calibrated.setWidth 8])

/-- Page 0 of a save with a new save_count (Table 16.7, R275). -/
def savePage0 (n : Nat) (s : State) : List Byte :=
  let r := leBytes 2 s.out.code.toNat ++ leBytes 2 (fld s.out.cfg 16 16) ++ [(cfgSpan s).setWidth 8, 0, 0, 0]
  pad64 ([0x4F, 0x48, 0x43, 0x46, 1, 0] ++ leBytes 2 n ++ wordBytes (nowStamp s).sec ++ wordBytes (nowStamp s).frac ++ r ++
    wordBytes (crc32 r))

/-- The pages of a save in the order they are written: 1 to 7, then 0 (R305). -/
def savePages (n : Nat) (s : State) : List (Nat × List Byte) :=
  [(1, savePage1 s), (2, memLoad s.mem 0x7500 64), (3, memLoad s.mem 0x7540 64), (4, memLoad s.mem 0x7580 64),
   (5, memLoad s.mem 0x7600 64), (6, savePage6 s), (7, pad64 []), (0, savePage0 n s)]

end Sys2Proof.Machine
end

