-- ==== Sys2Proof/Machine/Jobs.lean ====
section
/-! DEFINITION. The conductor's queue, completions, holds and cuts (R307, R322, R330 to R342). -/

namespace Sys2Proof.Machine

/-! ## Detail words of discovery (Table 17.3) -/

/-- A detail word of discovery; `flags` holds bits 10 to 16. -/
def portDetail (k st : Nat) (slot : Option Nat) (flags : BitVec 17) : Word :=
  put 0 2 k ||| put 2 3 st ||| put 5 1 slot.isSome.toNat ||| put 6 4 (slot.getD 0) ||| (flags.setWidth 32 &&& 0x1FC00)

/-- The detail word of a port as it stands. -/
def portWord (s : State) (k : Nat) : Word :=
  let p := portAt s k
  portDetail k p.state.toNat p.slot (if p.override then 0x10000 else 0)

/-- The detail word of a command that ends before it does anything (R328). -/
def restDetail (s : State) (c : Cmd) : Word := if c.op = 3 ∨ c.op = 4 then portWord s (fld c.a0 0 2) else 0

/-! ## The queue (R330, R331) -/

/-- Commands held: the running one and those that wait. -/
def cmdCount (s : State) : Nat := s.cond.queue.length + s.cond.running.isSome.toNat

/-- A command's own record. -/
def cmdRecord (c : Cmd) (direct : Bool) (reason : Nat) (detail : Word) (s : State) : State :=
  cplRecord c.op c.auto direct reason c.tag detail s

/-- A command of code 0x0B, 0x0E or 0x0F bypasses the queue (R333). -/
def isDirect (op : Nat) : Bool := op == 0x0B || op == 0x0E || op == 0x0F

/-- A command joins the queue, which wakes the device (Table 2.8). -/
def enqueue (c : Cmd) (s : State) : State :=
  wakeMain { s with cond := { s.cond with queue := s.cond.queue ++ [c], awake := true } }

/-- A direct command registers at its commit (R300, R333): NV_SUSPEND is refused where no clear runs; a lap or checkpoint completes
POWER_WARN under the warning (R42), else waits for its first qtick. -/
def submitDirect (c : Cmd) (s : State) : State :=
  if c.op = 0x0B then
    if s.nv.running then { s with nv := { s.nv with suspend := s.nv.suspend ++ [c.tag] } }
    else cmdRecord c true (if s.pwr.warn then rPower else rState) 0 s
  else if s.pwr.warn then cmdRecord c true rPower 0 s
  else
    { s with ldg := { s.ldg with
        wait := s.ldg.wait ++ [({ lap := c.op == 0x0E, tag := c.tag }, c.op == 0x0E && bitOf c.a0 0)] } }

/-- CMD_OP is written with an op, which wakes the device (R47, R330, R331, R333): after the SHIP record it is refused (R50), a direct
command registers at once, under the warning a queued one completes POWER_WARN (R42), a ninth command is refused. An op of 0 submits
nothing (R330) and wakes nothing, though Table 2.8 names a write of CMD_OP as the cause (DESIGN CHOICE, log entry 90). -/
def submit (c : Cmd) (s : State) : State :=
  if c.op = 0 then s
  else if s.cond.shipped then cmdRecord c (isDirect c.op) rState 0 (wakeMain s)
  else if isDirect c.op then submitDirect c (wakeMain s)
  else if s.pwr.warn then cmdRecord c false rPower (restDetail s c) (wakeMain s)
  else if 8 ≤ cmdCount s then cmdRecord c false rState 0x80000000 (wakeMain s)
  else enqueue c s

/-- The automatic discovery command of a port (R321). -/
def autoDiscover (k : Nat) : Cmd := { op := 3, tag := 0, a0 := word k, a1 := 0, a2 := 0, auto := true }

/-- An automatic job of port k is queued, or waits outside the full queue (R321); after the SHIP record it is refused as a command is
(R50, log entry 69), in a main start behind the boot record (R87). -/
def queueJob (k : Nat) (s : State) : State :=
  if s.cond.shipped && mainReady s then cmdRecord (autoDiscover k) false rState (portWord s k) s
  else if 8 ≤ cmdCount s then setPort k { portAt s k with jobWait := (portAt s k).jobWait + 1 } s else enqueue (autoDiscover k) s

/-- The jobs of a port that wait outside enter the queue as places free (R321). -/
def admitJob (k : Nat) (s : State) : State :=
  let n := min (portAt s k).jobWait (8 - cmdCount s)
  if n = 0 then s
  else forAll (List.range n) (fun _ => enqueue (autoDiscover k)) (setPort k { portAt s k with jobWait := (portAt s k).jobWait - n } s)

/-- Every job that waits outside, in port order, while places are free. -/
def admitJobs (s : State) : State := forAll (List.range 4) admitJob s

/-- A DISCOVER that runs a job: not one that asks for the last report alone (R326). -/
def Cmd.runsJob (c : Cmd) : Bool := c.op == 3 && (c.auto || !bitOf c.a0 9)

/-- A discovery job of port k is queued, waits or runs (R321). -/
def hasJob (s : State) (k : Nat) : Bool :=
  (portAt s k).jobWait != 0 || s.cond.queue.any (fun c => c.runsJob && fld c.a0 0 2 == k) ||
    (match s.cond.running with | some (c, _) => c.runsJob && fld c.a0 0 2 == k | none => false)

/-! ## Holds (R307, R311, R322, R347) -/

/-- Every hold ends: a discovery job's pair is switched off (R322 step 8), held inputs resume watching as after an en bit written from 0 to 1. -/
def endHolds (s : State) : State :=
  let p := s.cal.holdPair
  let e := s.cal.holdEv
  let t := { s with
    cal := { s.cal with holdMod := 0, holdPair := 0, holdExc := false, holdEv := 0 }
    afe := { s.afe with
      pairA := if p.getLsbD 0 then s.afe.pairA.offed else s.afe.pairA
      pairB := if p.getLsbD 1 then s.afe.pairB.offed else s.afe.pairB }
    evin := { s.evin with fresh := s.evin.fresh ||| e.setWidth 6 } }
  if fastPath t && e != 0 then resumeFast (qtickAt t t.clk.hf) ((List.range 7).filter (fun k => e.getLsbD k)) t else t

/-- Held inputs are not watched: what they confirm is dropped. -/
def holdInputs (e : BitVec 7) (s : State) : State :=
  { s with
    cal := { s.cal with holdEv := e }
    evin := { s.evin with conf := (List.range 7).map (fun k => if e.getLsbD k then none else confOf s k) } }

/-! ## The end of a command (R332, R336) -/

/-- The page operation of the running command belongs to nobody when the command ends before it (R343). -/
def orphanOp (s : State) : State :=
  { s with nv := { s.nv with op := s.nv.op.map (fun o => if o.ledger then o else { o with orphan := true }) } }

/-- A port's installation is over. -/
def stopInstalls (s : State) : State :=
  { s with disc := { s.disc with ports := s.disc.ports.map (fun p => { p with installing := false }) } }

/-- The running command ends with its record, a service of the watchdog (R340); its holds end. -/
def finishCmd (reason : Nat) (detail : Word) (s : State) : State :=
  match s.cond.running with
  | none => s
  | some (c, _) =>
    admitJobs (cmdRecord c false reason detail
      (endHolds (stopInstalls (orphanOp (serve { s with cond := { s.cond with running := none } })))))

/-- The first page of the range not cleared (Table 18.1). -/
def clearNext (todo : List Nat) (first count : Nat) : Nat := todo.headD (first + count)

/-- A running SELFTEST keeps its detail word so far in arg1, and in arg2 its tests not finished, bit k, with the outcome of tests 7 to 9
once they come to run, bit 16 + k set for a failure (R347, R348). -/
def testsLeft (c : Cmd) : Word := c.a2 &&& 0x7FF

/-- The failures among the tests 7 to 9 that are left. -/
def testsLate (c : Cmd) : Word := (c.a2 >>> 16) &&& c.a2 &&& 0x380

/-- The detail word of a command cut after it started (R342): a SELFTEST's tests not finished count as not run, a DISCOVER's port as
PRESENT. -/
def cutDetail (s : State) (c : Cmd) (j : Job) : Word :=
  if c.op = 0x01 then 1
  else if c.op = 0x12 then
    match j with
    | .fresh => (c.a0 &&& 0x7FF) <<< 16
    | _ => (c.a1 &&& ~~~testsLeft c) ||| (testsLeft c <<< 16)
  else
    match j with
    | .pages _ done data clear _ _ => if c.op = 8 then put 0 16 data.toNat ||| put 16 16 clear.toNat else put 0 5 done
    | .clear todo done st first count _ _ => if st = 4 then put 0 16 (clearNext todo first count) else put 0 16 done ||| put 16 16 (clearNext todo first count)
    | .save _ _ _ done => put 16 8 done
    | .disc d _ _ => portDetail d.port.toNat 2 none d.flags
    | .cut w => w
    | _ =>
      if c.op = 3 then portDetail (fld c.a0 0 2) 2 none 0
      else restDetail s c

/-- The running command is cut with a reason. A cut clear leaves its journal record as it stands (Table 16.5). -/
def cutCmd (reason : Nat) (s : State) : State :=
  match s.cond.running with
  | none => s
  | some (_, .cut _) => s
  | some (c, j) => finishCmd reason (cutDetail s c j) { s with nv := { s.nv with running := false } }

/-! ## The brown-out warning (R42 step 6) -/

/-- The automatic jobs that wait outside the queue, in port order (R321). -/
def waitingJobs (s : State) : List Cmd := (List.range 4).flatMap (fun k => List.replicate (portAt s k).jobWait (autoDiscover k))

/-- Every queued command completes with its reason, in queue order, and after them the jobs outside, for which the queue has room then
(R42, R49, R321; log entry 69). -/
def drainQueue (reason : Cmd → Nat) (s : State) : State :=
  forAll (s.cond.queue ++ waitingJobs s) (fun c u => cmdRecord c false (reason c) (restDetail u c) u)
    { s with
      cond := { s.cond with queue := [], wdog := 0 }
      disc := { s.disc with ports := s.disc.ports.map (fun p => { p with jobWait := 0 }) } }

/-! ## Refused arguments (R335) -/

/-- The arguments a calibration refuses (R310, R311). -/
def calArgsBad (c : Cmd) : Bool :=
  (c.op == 6 && (fld c.a0 4 5 == 0 || fld c.a0 16 9 == 0)) || (c.op == 7 && fld c.a0 8 7 == 0)

/-- NV_READ may read a page (Table 16.2). -/
def readable (l : Nat) : Bool := decide (l < 8) || (decide (16 ≤ l) && decide (l < 448))

/-- NV_WRITE may write a page (Table 16.2). -/
def writable (l : Nat) : Bool := decide (48 ≤ l) && decide (l < 448)

/-- The pages of an NV_READ or NV_WRITE, or none for refused arguments (R295, R302). -/
def nvPages (ok : Nat → Bool) (c : Cmd) : Option (List Nat) :=
  let count := fld c.a1 0 5
  let ps := pageRange (fld c.a0 0 9) count
  if count = 0 ∨ 16 < count ∨ 16 < fld c.a2 0 4 + count ∨ !ps.all ok then none else some ps

/-- The range an NV_CLEAR refuses (R299). -/
def clearArgsBad (c : Cmd) : Bool :=
  let first := fld c.a0 0 9
  let count := fld c.a1 0 9
  decide (count = 0 ∨ 448 < first + count ∨ (first < 16 ∧ 8 < first + count))

/-- The slot a SLOT_BIND refuses (R327). -/
def bindArgsBad (c : Cmd) : Bool := decide (16 ≤ fld c.a1 0 5 ∧ fld c.a1 0 5 ≤ 30)

/-- A command whose op is none, or whose arguments its rules refuse whatever the device's state (R335). -/
def argsBad (c : Cmd) : Bool :=
  match c.op with
  | 0x04 => bindArgsBad c
  | 0x06 | 0x07 => calArgsBad c
  | 0x08 => (nvPages readable c).isNone
  | 0x09 => (nvPages writable c).isNone
  | 0x0A => clearArgsBad c
  | 0x12 => c.a0 &&& 0x7FF == 0
  | n => decide (0x14 ≤ n)

/-- The reason of a command refused behind SHIP (R49): its arguments are judged first (R335). -/
def refusal (c : Cmd) : Nat := if argsBad c then rArgs else rState

/-- Every NV_SUSPEND that waits ends with a reason. -/
def endSuspends (reason : Nat) (detail : Word) (s : State) : State :=
  if s.nv.suspend.isEmpty then s
  else forAll s.nv.suspend (fun g => cplRecord 0x0B false true reason g detail) (serve { s with nv := { s.nv with suspend := [] } })

/-- The page operation in progress is the running command's. -/
def jobOpBusy (s : State) : Bool := match s.nv.op with | some o => !o.ledger && !o.orphan | none => false

/-- Under the warning and after the main start, the running command ends at its page boundary and the queue is emptied. A command that the
watchdog has ended ends first, a clear with the suspension that it is owed (R341, R344). -/
def warnCut (s : State) : State :=
  if !(s.pwr.warn && mainReady s) || s.cond.inReset then s
  else if s.cond.running.isSome && jobOpBusy s then s
  else
    match s.cond.running with
    | some (_, .cut _) | some (_, .clear _ _ 5 _ _ _ _) => s
    | _ =>
      if s.cond.running.isNone && s.cond.queue.isEmpty && (waitingJobs s).isEmpty then endSuspends rPower 0 s
      else drainQueue (fun _ => rPower) (endSuspends rPower 0 (cutCmd rPower s))

/-! ## The clock failures of a hold command (R307, R348) -/

/-- CAL_TDC, CAL_MOD or CAL_EVT. -/
def isCal (op : Nat) : Bool := op == 5 || op == 6 || op == 7

/-- The reason the clock gives: a drift fail is CLOCK_BYPASS, any other CLOCK_UNLOCKED. -/
def clockReason (s : State) : Nat := if s.clk.accErr = 4 ∧ clkSel s ≠ 0 then rBypass else rUnlocked

/-- SELFTEST ends with its failed and skipped tests (R348). -/
def finishSelftest (w : Word) (s : State) : State :=
  finishCmd (if fld w 0 11 ≠ 0 then rDiag else if fld w 16 11 ≠ 0 then rPartial else rOk) w s

/-- The detail word of a discovery job that ends with its port as it stands (R328). -/
def jobDetail (s : State) (d : DiscJob) : Word :=
  let p := portAt s d.port.toNat
  portDetail d.port.toNat p.state.toNat p.slot (d.flags ||| (if p.override then 0x10000 else 0))

/-- SELFTEST where the clock fails: a test 4 still in its acquisition has failed, one that waits for its frame boundary has run its HFRC
part alone, whose failure stands already; of the others 5 to 7 and 10 are not run, 8 and 9 are (R348). -/
def selftestNoClock (c : Cmd) (s : State) : State :=
  finishSelftest (c.a1 ||| (if bitOf c.a2 15 then testsLeft c &&& 0x10 else 0) |||
    (testsLate c &&& 0x300) ||| ((testsLeft c &&& 0x4E0) <<< 16)) s

/-- The clock a discovery job needs is gone (R307): not by a MEAS reset, whose acquisition a job in step 2 outlasts (R345). -/
def clockGone (s : State) : Bool :=
  s.clk.bypass && !s.sys.measRst && !(match s.clk.acq with | some a => a.cause == .measReset | none => false)

/-- A command that holds or awaits MEAS fails when the clock does; SELFTEST marks its tests as not run. One that the watchdog has ended
does not (R341). -/
def clockCut (s : State) : State :=
  if !s.clk.bypass || s.cond.inReset then s
  else
    match s.cond.running with
    | some (c, .waitHold) | some (c, .holding) =>
      if c.op = 0x12 then selftestNoClock c s
      else if isCal c.op then finishCmd (clockReason s) 0 s else s
    | some (_, .disc d _ _) => if clockGone s then finishCmd (clockReason s) (jobDetail s d) s else s
    | _ => s

/-- An awaited frame whose lock is given up for a new acquisition waits for the lock of that one (R19). -/
def awaitAgain (s : State) : State :=
  { s with tt := { s.tt with await := s.tt.await.map (fun a => { a with needLock := true, base := none, lateStart := true }) } }

/-- The acquisition that a running SELFTEST owes its test 4 may begin: between frames, with MEAS not on the bypass clock. -/
def testMayAcquire (c : Cmd) (j : Job) (s : State) : Bool :=
  c.op == 0x12 && (j == .waitHold || j == .holding) && bitOf (testsLeft c) 4 && !bitOf c.a2 15 && s.tt.frame.isNone &&
    !s.clk.bypass && !s.clk.verifying && !s.cond.inReset

/-- Test 4 of a SELFTEST makes its acquisition (R347): from PARKED, or afresh where HF is locked, at a frame boundary (log entry 70). Bit
15 of arg2 says that it has begun. -/
def selftestAcquire (s : State) : State :=
  match s.cond.running with
  | some (c, j) =>
    if testMayAcquire c j s then
      let t := { s with cond := { s.cond with running := some ({ c with a2 := c.a2 ||| 0x8000 }, j) } }
      if hfLocked t then acquire .job (awaitAgain (dropFast (serve t))) else wakeHf .job (serve t)
    else s
  | none => s

/-- Test 4 of a SELFTEST passes at the lock it waits for; where no test is left that holds, the rest run at once (R347). -/
def selftestLock (s : State) : State :=
  match s.cond.running with
  | some (c, j) =>
    if c.op = 0x12 ∧ (j = .waitHold ∨ j = .holding) ∧ hfLocked s ∧ !s.clk.bypass ∧ !s.cond.inReset ∧ (bitOf c.a2 15 ∨ !bitOf c.a2 4) then
      if testsLeft c &&& 0x460 = 0 then finishSelftest (c.a1 ||| testsLate c) s
      else { s with cond := { s.cond with running := some ({ c with a2 := c.a2 &&& 0xFFFFFFEF }, j), wdog := 0 } }
    else s
  | none => s

/-- A ktick of the watchdog (R340). The services of a wait are the conductor's own: WATCHDOG_EXPIRY says that they have ceased (log entry
69). -/
def watchTick (s : State) : Nat := if s.cond.awake && condRuns s then min 1639 (s.cond.wdog + 1) else s.cond.wdog

/-! ## NEIGHBOUR_RESET (R345) -/

/-- A command that holds or awaits MEAS, or installs, ends at a MEAS reset; a discovery job in step 2 does neither, nor a command
the watchdog has ended (R341). -/
def neighbourCut (s : State) : State :=
  if s.cond.inReset then s
  else
    match s.cond.running with
    | some (_, .disc _ 0 _) => s
    | some (_, .waitHold) | some (_, .holding) | some (_, .disc _ _ _) | some (_, .bind _ _) => cutCmd 0x40 s
    | _ => s

end Sys2Proof.Machine
end

