-- ==== Sys2Proof/Machine/Discovery.lean ====
section
/-! DEFINITION. Presence sentinels, attach and detach, and the discovery job (R314 to R329). -/

namespace Sys2Proof.Machine

/-! ## Attach and detach (R317, R320, R321) -/

/-- The port is attached: states 2 to 5 (R314). -/
def attached (s : State) (k : Nat) : Bool := decide (2 ≤ (portAt s k).state.toNat)

/-- The registration of an attach: PRESENT, source 32 + k, an automatic job (R321); it wakes the device (R317). -/
def attach (k : Nat) (s : State) : State :=
  queueJob k (wakeMain (raise (32 + k)
    (setPort k { portAt s k with state := 2, present := 0, absent := 0 } s)))

/-- A frame version or sealed copy of a channel names a port (R320). -/
def namesPort (s : State) (k : Nat) (c : Nat) : Bool :=
  dPort (sealedOf s (BitVec.ofNat 5 c)) == k ||
    (match s.tt.frame with
     | some f => (match versionOf f (BitVec.ofNat 5 c) with | some d => dPort d == k | none => false)
     | none => false)

/-- The last converted and corrected values of the channels that name a port are forgotten (R320). -/
def forgetPort (k : Nat) (s : State) : State :=
  let keep := fun (l : List (Option Val)) => (List.range 32).map (fun c => if namesPort s k c then none else l.getD c none)
  { s with ros := { s.ros with lastConv := keep s.ros.lastConv, lastCorr := keep s.ros.lastCorr } }

/-- A running discovery or binding job of a port ends SENSOR_GONE (R320), but one that the watchdog has ended (R341). -/
def endJobOf (k : Nat) (s : State) : State :=
  match s.cond.running with
  | some (c, j) =>
    if (c.op == 3 || c.op == 4) && fld c.a0 0 2 == k && !s.cond.inReset then
      (match j with
       | .fresh => if c.op = 3 ∧ !c.auto ∧ bitOf c.a0 9 then s else if c.op = 3 then cutCmd rSensorGone s else finishCmd rSensorGone (portWord s k) s
       | .disc _ _ _ => cutCmd rSensorGone s
       | .bind _ _ => finishCmd rSensorGone (portWord s k) s
       | _ => s)
    else s
  | none => s

/-- The registration of a detach (R320): ABSENT, source 36 + k, the binding, the table and the values dropped; carriages
settle SENSOR_GONE (R167). -/
def detach (k : Nat) (s : State) : State :=
  if !attached s k then s
  else
    let p := { (portAt s k).unbound with state := 1, present := 0, absent := 0, taken := none }
    wakeMain (endJobOf k (carriagesGone k (forgetPort k (raise (36 + k) (setPort k p s)))))

/-! ## Slots (R315, R316) -/

/-- X32 edge m is a slot edge of port k. -/
def isSlot (k m : Nat) : Bool :=
  (List.range 32).any (fun j => decide (2048 * k + 7 * j ≤ m) && (m - 2048 * k - 7 * j) % 8192 == 0 &&
    (m - 2048 * k - 7 * j) / 8192 % 32 == j)

/-- The sentinel of a port runs (R315). -/
def sentinelOn (s : State) (k : Nat) : Bool :=
  mainUp s && !s.pwr.ship && s.sys.cfgDone && (portAt s k).state != 0

/-- An AUX in progress uses a port or its pair (R169). -/
def auxOn (s : State) (k : Nat) : Bool :=
  match s.tt.frame with
  | none => false
  | some f => (List.range f.runs.length).any (fun i =>
      let c := carAt f.img.cars i
      c.op == oAux && (runAt f i).state == .running &&
        (auxPair c.aux.toNat == some (pairOf k) || auxArm c.aux.toNat == some k))

/-- A discovery job measures on a pair: its LEAK and ARM use the pair as the AUX codes do (R322). -/
def discMeasuring (s : State) (p : Bool) : Bool :=
  match s.cond.running with | some (_, .disc j 2 _) => pairOf j.port.toNat == p | _ => false

/-- The presence pulse is omitted (R169, R179): the port converts, its pair is excited or pre-settled, or an AUX or a discovery job
uses it. -/
def pulseOmitted (s : State) (k : Nat) : Bool :=
  let p := pairOf k
  converting s k || (pairAt s p).on || (pairAt s p).presettle.isSome || discMeasuring s p || auxOn s k

/-- A port that is PRESENT with no job gets one at a slot, where the clock is LOCKED or PARKED (R321). -/
def slotJob (k : Nat) (s : State) : State :=
  if (portAt s k).state == 2 && !hasJob s k && (s.clk.state == .locked || s.clk.state == .parked) && !s.cond.shipped then queueJob k s
  else s

/-- One reading of a sentinel counts, the only one of its slot (R316, R317). -/
def takeReading (k : Nat) (present : Bool) (s : State) : State :=
  let p := portAt s k
  setPort k { p with present := if present then min 2 (p.present + 1) else 0
                     absent := if present then 0 else min 2 (p.absent + 1), slotAt := some s.rtc.edges } s

/-- PRESENCE_SLOT of port k at its slot edge (R316). -/
def presenceSlot (k : Nat) (present : Bool) (s : State) : State :=
  if !(sentinelOn s k) || (portAt s k).slotAt == some s.rtc.edges then s
  else
    let t := slotJob k s
    if pulseOmitted t k then t else takeReading k present t

/-- An attach is due: ABSENT after two readings of present (R317). -/
def attachDue (s : State) (k : Nat) : Bool := (portAt s k).state == 1 && decide (2 ≤ (portAt s k).present)

/-- A detach is due: attached, after two readings of absent (R317). -/
def detachDue (s : State) (k : Nat) : Bool := attached s k && decide (2 ≤ (portAt s k).absent)

/-- The immediate reading of the config step (R318). -/
def firstReading (present : BitVec 4) (k : Nat) (s : State) : State :=
  if (portAt s k).state = 0 then s
  else if present.getLsbD k then attach k s
  else setPort k { portAt s k with state := 1, present := 0, absent := 0 } s

/-! ## The discovery job (R322 to R325) -/

/-- The fields of a Basic TEDS: mfr, model, serial; version letter and number (R323). -/
def tedsIdent (t : Teds) : Nat × Nat × Nat :=
  (t.basic.toNat % 16384, t.basic.toNat / 2 ^ 14 % 32768, t.basic.toNat / 2 ^ 40 % 2 ^ 24)

/-- Version letter and number of a Basic TEDS. -/
def tedsVersion (t : Teds) : Nat × Nat := (t.basic.toNat / 2 ^ 29 % 32, t.basic.toNat / 2 ^ 34 % 64)

/-- The port's device among those found, or none and the flag that says why (R323): bit 10 no_teds, bit 11 ambiguous. -/
def chooseTeds (found : List Teds) (other : Option (BitVec 64)) : Option Teds × BitVec 17 :=
  if 4 < found.length then (none, 0x800)
  else
    match found with
    | [t] => (some t, 0)
    | _ =>
      match found.filter (fun t => some t.romId != other) with
      | [] => (none, 0x400)
      | [t] => (some t, 0)
      | _ => (none, 0x800)

/-- The impedance the standard bridge-sensor template gives, as a quotient of ohms. -/
def tedsOhms (t : Teds) : Option (Nat × Nat) := if t.template = 33 ∧ t.ohmDen ≠ 0 then some (t.ohmNum, t.ohmDen) else none

/-- A value converted from TEDS: scaled, rounded half to even, saturated; 0 where the template gives none (R329). -/
def tedsScaled (scale num den : Nat) : Nat :=
  if den = 0 then 0 else min (divrhe ((num * scale : Nat) : Int) den).toNat 0xFFFFFFFF

/-- A discovery job without anything found. -/
def DiscJob.new (k : Nat) : DiscJob :=
  { port := BitVec.ofNat 2 k, teds := [], mine := none, ambiguous := false, data := { leakPa := 0, zp := 0, zn := 0, balance := 0 },
    done := 0, leak := false, slot := none, flags := 0 }

/-- The modulators of the hold of a discovery job: those of both ports of the pair, and M4 (R322). -/
def discMods (p : Bool) : BitVec 5 := if p then 0x1C else 0x13

/-- HF cycles from the begin of a discovery hold to the end of its ARM, and of its balance: the 100 µs of step 5 count in cycles of the
nominal HF rate (Table 17.2; log entry 109). -/
def armCycles (s : State) : Nat := leakCycles + (fNomKHz s + 9) / 10 + 672 * 256
def balanceCycles (s : State) : Nat := armCycles s + 1024 * 256

/-- The settings of step 7: pga 0, and the sense voltage as reference. -/
def balanceStage (port : BitVec 2) : Stage := { port := port, pga := 0, ref := false }

/-- What step 7 delivers: the first settled output of a sinc4 at D = 256 and pga 0, whose reference is the sense voltage; unspecified below
0.5 V (R157, R158, R322). -/
def balanceRaw (d : DiscData) (s : State) : Int :=
  if lowRef (balanceStage 0) d.senseUv then openRaw s.free else sinc4 8 (sincWeights 256) d.bits 4
/-- ARM found an open or a short at a node (R166). -/
def armFault (zp zn : Nat) : Bool :=
  armOpen zp zn || armOpen zn zp || (!armOpen zp zn && armShort zp zn) || (!armOpen zn zp && armShort zn zp)

/-- The slots that match an identity (R324). -/
def matching (s : State) (t : Teds) : List Nat :=
  (List.range 16).filter (fun k => slotValid s k && slotIdent s k == tedsIdent t)

/-- The slot a port binds: the lowest, or the second lowest for an odd port (R324). -/
def pickSlot (k : Nat) : List Nat → Option Nat
  | [] => none
  | [a] => some a
  | a :: b :: _ => some (if k % 2 = 1 then b else a)

/-- The header of a slot differs from a TEDS in its version. -/
def verDiffers (s : State) (slot : Nat) (t : Teds) : Bool :=
  let d := (pageAt s (slotPage slot)).data
  tedsVersion t != ((byteAt d 4).toNat, (byteAt d 5).toNat)

/-- The estimate of ARM differs from the template's impedance by more than 25 % (R324). -/
def impDiffers (t : Teds) (d : DiscFound) : Bool :=
  match tedsOhms t with
  | some r => decide (r.1 < 4 * (((2 * (d.zp.toNat + d.zn.toNat) * r.2 : Nat) : Int) - (r.1 : Int)).natAbs)
  | none => false

/-- The low 32 bits of a value that saturates as a signed word. -/
def satWord (v : Int) : Word := lowWord (sat32 v).1

/-- The report page of a job (Table 17.4). -/
def reportPage (k : Nat) (j : DiscJob) (detail : Word) (s : State) : List Byte :=
  let p := portAt s k
  let st := nowStamp s
  let teds := fun (f : Teds → Nat) => match j.mine with | some t => f t | none => 0
  let bridge := fun (f : Teds → Nat) => teds (fun t => if t.template = 33 then f t else 0)
  leBytes 1 k ++ [p.state.setWidth 8] ++ leBytes 1 (p.slot.getD 255) ++ leBytes 1 (min 255 j.teds.length) ++ wordBytes detail ++
    leBytes 8 (teds (fun t => t.romId.toNat)) ++ leBytes 8 (teds (fun t => t.basic.toNat)) ++
    leBytes 1 (teds (fun t => t.template.toNat)) ++ leBytes 1 (bridge (fun t => t.bridgeType.toNat)) ++ [0, 0] ++
    leBytes 4 (bridge (fun t => tedsScaled 1000 t.ohmNum t.ohmDen)) ++ leBytes 4 (bridge (fun t => tedsScaled 1000000 t.voltNum t.voltDen)) ++
    wordBytes (satWord j.data.leakPa) ++ leBytes 2 j.data.zp.toNat ++ leBytes 2 j.data.zn.toNat ++
    leBytes 4 (2 * (j.data.zp.toNat + j.data.zn.toNat)) ++ wordBytes (satWord j.data.balance) ++ wordBytes st.sec ++
    wordBytes st.frac ++ [0, 0, 0, 0]

/-- The report of a port with no completed job since the main start (R326). -/
def blankReport (k : Nat) (s : State) : List Byte := leBytes 1 k ++ [(portAt s k).state.setWidth 8] ++ List.replicate 62 0

/-- The job ends with the port in a state, and for a reason: the binding is replaced, the report kept and, if asked for, staged (R325,
R326). A port disabled and enabled again meanwhile is absent: the job ends as a cut does, its state field PRESENT (R342). -/
def endWith (reason : Nat) (c : Cmd) (j : DiscJob) (st : BitVec 3) (slot : Option Nat) (table : Option (List Byte)) (s : State) : State :=
  let k := j.port.toNat
  if (portAt s k).state = 0 then finishCmd rState (portWord s k) s
  else if !attached s k then finishCmd rSensorGone (portDetail k 2 none j.flags) s
  else
    let p := { (portAt s k).unbound with state := st, slot := slot, table := table, taken := j.mine.map (fun t => t.romId) }
    let t := setPort k p s
    let detail := portDetail k st.toNat slot j.flags
    let page := reportPage k j detail t
    let u := setPort k { p with report := some page, detail := detail } t
    finishCmd reason detail (when (!c.auto && bitOf c.a0 8) (store (0x7800 + 64 * fld c.a2 0 4) page) u)

/-- The job ends: OK where the port is BOUND, else PARTIAL (R325). -/
def endDiscovery (c : Cmd) (j : DiscJob) (st : BitVec 3) (slot : Option Nat) (table : Option (List Byte)) (s : State) : State :=
  endWith (if st = 3 then rOk else rPartial) c j st slot table s

/-- A slot is installed from its pages, if it still holds a valid calibration (R325). -/
def slotLoad (s : State) (slot : Nat) : Option (List Byte) := if slotValid s slot then some (slotTable s slot) else none

/-- Pages an installation reads: the header and the table, 12 at most (R325). -/
def installPages (s : State) (slot : Nat) : Nat := 1 + (if slotPages s slot ≤ 11 then slotPages s slot else 0)

/-- The conductor installs calibration for port k (R185, R325). -/
def setInstalling (k : Nat) (b : Bool) (s : State) : State := setPort k { portAt s k with installing := b } s

/-- The classification of R324 after the hold. -/
def classify (c : Cmd) (j : DiscJob) (s : State) : State :=
  let k := j.port.toNat
  if armFault j.data.zp.toNat j.data.zn.toNat then endDiscovery c j 5 none none s
  else
    match j.mine with
    | none => endDiscovery c j 4 none none s
    | some t =>
      let s := if (List.range 16).any (slotUnc s) then nvUnc s else s
      let s := scrubAll ((List.range 16).flatMap (slotReads s)) s
      match pickSlot k (matching s t) with
      | none => endDiscovery c { j with flags := j.flags ||| 0x1000 } 4 none none s
      | some slot =>
        let j := { j with
          slot := some slot
          flags := j.flags ||| (if verDiffers s slot t then 0x2000 else 0) }
        setInstalling k true
          { s with cond := { s.cond with running := some (c, .disc j 3 (installPages s slot)) } }

/-- The installation of a discovery job is complete (R325): it has met an uncorrectable word (R293), or the slot is no valid calibration
any more, and the port is UNMATCHED (log entry 41). -/
def installed (c : Cmd) (j : DiscJob) (s : State) : State :=
  let slot := j.slot.getD 0
  let bare := { j with flags := j.flags &&& ~~~(0x2000 : BitVec 17) }
  if slotUnc s slot then endWith rNvUnc c bare 4 none none (nvUnc s)
  else
    match slotLoad s slot with
    | some t => endDiscovery c j 3 (some slot) (some t) s
    | none => endDiscovery c bare 4 none none s

/-- The installation of a SLOT_BIND is complete (R327); a port disabled meanwhile is no longer attached. -/
def boundBy (c : Cmd) (slot : Nat) (s : State) : State :=
  let k := fld c.a0 0 2
  if !attached s k then finishCmd rState (portWord s k) s
  else if slotUnc s slot then finishCmd rNvUnc (portWord s k) (nvUnc s)
  else
    match slotLoad s slot with
    | none => finishCmd rNoCal (portWord s k) s
    | some t =>
      let p := { portAt s k with state := 3, slot := some slot, table := some t, override := true, installing := false }
      let u := setPort k p s
      finishCmd rOk (portWord u k) u

end Sys2Proof.Machine
end

