-- ==== Sys2Proof/Machine/Pages.lean ====
section
/-! DEFINITION. NV page operations one after another: ledger records first, then the running command, each advancing at the
end of its page (R280, R284, R285, R294, R299 to R302, R305, R325). -/

namespace Sys2Proof.Machine

/-! ## What is written or read next -/

/-- A page write. -/
def opWrite (ledger : Bool) (page : Nat) (kind gen : Byte) (data : List Byte) : NvOp :=
  { ledger := ledger, orphan := false, page := page, write := some (kind, gen, data), task := none }

/-- A page read of the running command. -/
def opRead (page : Nat) : NvOp := { ledger := false, orphan := false, page := page, write := none, task := none }

/-- Before its second page starts, a record takes the writes that failed before it (R286), and a cut record the refusals
counted by then (R284). -/
def lateCounts (s : State) : State :=
  match s.ldg.job with
  | some j =>
    if j.pages = 1 then
      { s with ldg := { s.ldg with
          wfailCnt := 0, refused := if j.snap.kind = 4 then 0 else s.ldg.refused
          job := some { j with snap := { j.snap with
            wfail := satAdd 255 j.snap.wfail s.ldg.wfailCnt
            refused := if j.snap.kind = 4 then satAdd 255 j.snap.refused s.ldg.refused else j.snap.refused } } } }
    else s
  | none => s

/-- The next page of the ledger record in hand (R285). -/
def ldgOp (s : State) : Option NvOp :=
  s.ldg.job.map (fun j =>
    opWrite true (16 + 2 * (j.snap.seq.toNat % 16) + j.pages) 0x5A 0
      (if j.pages = 0 then recPage0 j.snap else recPage1 j.snap))

/-- A journal record of the clear in hand. -/
def journalOp (state cause : Byte) (first count next : Nat) (sec : Word) (s : State) : NvOp :=
  let r := nextJournal state cause first count next sec s
  opWrite false r.1 0x5A 0 r.2

/-- The next page operation of a command (R299 to R302, R305, R325). -/
def jobOp (c : Cmd) (j : Job) (s : State) : Option NvOp :=
  match j with
  | .pages (l :: _) done _ _ _ _ =>
    some (if c.op = 8 then opRead l
      else opWrite false l 0x5A 0 (memLoad s.mem (0x7800 + 64 * (fld c.a2 0 4 + done)) 64))
  | .clear todo _ 0 first count sec _ => some (journalOp 1 0 first count (clearNext todo first count) sec s)
  | .clear (l :: _) _ 1 _ _ _ _ => some (if c.op = 0x0C then opRead l else opWrite false l 0xC3 0 [])
  | .clear (l :: _) _ 6 _ _ _ _ => some (opWrite false l 0xC3 0 [])
  | .clear todo _ 2 first count sec _ => some (journalOp 0 0 first count (clearNext todo first count) sec s)
  | .clear todo _ 3 first count sec _ => some (journalOp 2 1 first count (clearNext todo first count) sec s)
  | .clear todo _ 4 first count sec _ => some (journalOp 0 0 first count (clearNext todo first count) sec s)
  | .clear todo _ 5 first count sec _ => some (journalOp 2 2 first count (clearNext todo first count) sec s)
  | .save ((l, bs) :: _) gen _ _ => some (opWrite false l 0x5A gen bs)
  | .disc d 3 left => some (opRead (slotPage (d.slot.getD 0) + (installPages s (d.slot.getD 0) - left)))
  | .bind slot left => some (opRead (slotPage slot + (installPages s slot - left)))
  | _ => none

/-- A page operation of the running command, if it needs one. -/
def cmdOp (s : State) : Option NvOp := match s.cond.running with | some (c, j) => jobOp c j s | none => none

/-- The suspension a watchdog owes comes before every ledger page (R341). -/
def owesSuspension (s : State) : Bool :=
  match s.cond.running with | some (_, .clear _ _ 5 _ _ _ _) => true | _ => false

/-- The ledger's next page begins. -/
def ldgPage (s : State) : State :=
  let t := lateCounts s
  { t with nv := { t.nv with op := ldgOp t } }

/-- The record in hand is a cut record (R284). -/
def cutInHand (s : State) : Bool := s.ldg.job.any (fun j => j.snap.kind == 4)

/-- The next page operation begins where none is in progress: that of a cut record, the array's own, the ledger's, else the command's
(R280, R284, R294, R297). -/
def pump (s : State) : State :=
  if s.nv.op.isSome || !condRuns s then s
  else if owesSuspension s then { s with nv := { s.nv with op := cmdOp s } }
  else if cutInHand s then ldgPage s
  else
    match s.nv.todo with
    | t :: r => { s with nv := { s.nv with op := some (t.op s), todo := r } }
    | [] => if s.ldg.job.isSome then ldgPage s else { s with nv := { s.nv with op := cmdOp s } }

/-! ## The end of a ledger page (R284 to R286, R289) -/

/-- The records that wait: the next one comes into hand. -/
def nextRecord (l : Ldg) : Ldg :=
  match l.jobs with
  | [] => { l with job := none }
  | j :: r => { l with job := some j, jobs := r }

/-- A record is written whole, or failed its verify and is counted for the next with those it counted (R286, Table 15.2);
LDG_STAT names the newest valid record; the commands the record answers complete; a recovery that waits for the last record is made. -/
def recordDone (j : LdgJob) (s : State) : State :=
  let l :=
    if j.bad then { s.ldg with
      wfail := true, wfailAt := if hfRunning s then some (qtickNow s) else none, wfailCnt := satAdd 255 (satAdd 255 s.ldg.wfailCnt j.snap.wfail) 1 }
    else if s.ldg.newKind = 0 ∨ newerThan j.snap.seq s.ldg.newSeq = true then
      { s.ldg with newSeq := j.snap.seq, newKind := BitVec.ofNat 4 j.snap.kind }
    else s.ldg
  recoverDue (forAll j.cmds
    (ldgCmdDone (if j.bad then rNvUnc else rOk) (if j.bad then 0 else put 0 16 j.snap.seq.toNat ||| put 16 16 j.snap.lap.toNat))
    { s with ldg := nextRecord l })

/-- A page of the record in hand ends: its record is complete, or is set aside for a cut record (R284). While the conductor is in reset
the page counts, and the record completes at the restart (R341). -/
def ldgPageDone (ecc : Ecc) (s : State) : State :=
  match s.ldg.job with
  | none => s
  | some j =>
    let j := { j with pages := j.pages + 1, bad := j.bad || ecc == .uncorrectable }
    if s.cond.inReset then { s with ldg := { s.ldg with job := some j } }
    else if 2 ≤ j.pages then recordDone j s
    else
      match s.ldg.jobs with
      | k :: r =>
        if k.snap.kind = 4 ∧ j.snap.kind ≠ 4 then { s with ldg := { s.ldg with job := some k, jobs := j :: r } }
        else { s with ldg := { s.ldg with job := some j } }
      | [] => { s with ldg := { s.ldg with job := some j } }

/-! ## The end of a command's page -/

/-- The running command goes on with a job. -/
def setJob (c : Cmd) (j : Job) (s : State) : State := { s with cond := { s.cond with running := some (c, j) } }

/-- A page of an NV_READ (R302): staged, with its bits. -/
def readDone (c : Cmd) (l : Nat) (todo : List Nat) (done : Nat) (data clear : BitVec 16) (unc bad : Bool) (s : State) : State :=
  let p := pageAt s l
  let d := validData l p
  let z := validCleared l p
  let data := data ||| (if d then BitVec.ofNat 16 (2 ^ done) else 0)
  let clear := clear ||| (if z then BitVec.ofNat 16 (2 ^ done) else 0)
  let unc := unc || !p.reads
  let bad := bad || (p.reads && !d && !z)
  let t := store (0x7800 + 64 * (fld c.a2 0 4 + done)) (if d then p.data else List.replicate 64 0) s
  match todo with
  | [] => finishCmd (if unc then rNvUnc else if bad then rCheck else rOk) (put 0 16 data.toNat ||| put 16 16 clear.toNat) t
  | _ => setJob c (.pages todo (done + 1) data clear unc bad) t

/-- A page of an NV_WRITE (R302): it stops at a verify that finds an uncorrectable word. -/
def writeDone (c : Cmd) (l : Nat) (todo : List Nat) (done : Nat) (ecc : Ecc) (s : State) : State :=
  if ecc = .uncorrectable then finishCmd rNvUnc (put 0 5 done ||| put 16 9 l) s
  else
    match todo with
    | [] => finishCmd rOk (put 0 5 (done + 1)) s
    | _ => setJob c (.pages todo (done + 1) 0 0 false false) s

/-- A clear's detail word. -/
def clearWord (todo : List Nat) (done first count : Nat) : Word := put 0 16 done ||| put 16 16 (clearNext todo first count)

/-- The reason of a clear or abandonment that has come to its end (R293). -/
def clearReason (unc : Bool) : Nat := if unc then rNvUnc else rOk

/-- A page of a clear is dealt with: the next comes, or the record of the end. -/
def clearStep (c : Cmd) (wrote : Bool) (todo : List Nat) (done first count : Nat) (sec : Word) (unc : Bool) (s : State) : State :=
  setJob c (.clear todo.tail (done + wrote.toNat) (if todo.tail.isEmpty then 2 else 1) first count sec unc) s

/-- A page or journal record of a clear ends (R299 to R301). NV_RESUME skips a page it reads as CLEARED and writes any other. An
uncorrectable word on the way ends it NV_UNCORRECTABLE (R293, log entry 52). -/
def clearDone (c : Cmd) (wrote : Bool) (ecc : Ecc) (todo : List Nat) (done stage first count : Nat) (sec : Word) (unc : Bool) (s : State) : State :=
  let l := todo.headD 0
  let unc := unc || ecc == .uncorrectable || (!wrote && !(pageAt s l).reads)
  match stage with
  | 0 => setJob c (.clear todo done (if todo.isEmpty then 2 else 1) first count sec unc) s
  | 1 =>
    if wrote || validCleared l (pageAt s l) then clearStep c wrote todo done first count sec unc s
    else setJob c (.clear todo done 6 first count sec unc) s
  | 6 => clearStep c true todo done first count sec unc s
  | 2 =>
    endSuspends rState 0
      (finishCmd (clearReason unc) (clearWord todo done first count) (raise 50 { s with nv := { s.nv with running := false } }))
  | 3 =>
    endSuspends rOk (put 0 16 (clearNext todo first count))
      (finishCmd rNvSusp (clearWord todo done first count) { s with nv := { s.nv with running := false } })
  | 4 => finishCmd (clearReason unc) (put 0 16 (clearNext todo first count)) s
  | _ => setJob c (.cut (clearWord todo done first count)) (raise 51 { s with nv := { s.nv with running := false } })

/-- A page of a SAVE_CONFIG ends (R305). -/
def saveDone (c : Cmd) (todo : List (Nat × List Byte)) (gen : Byte) (count done : Nat) (ecc : Ecc) (s : State) : State :=
  if ecc = .uncorrectable then finishCmd rNvUnc (put 16 8 done) s
  else
    match todo with
    | [] => finishCmd rOk (put 0 16 count) s
    | _ => setJob c (.save todo gen count (done + 1)) s

/-- The running command advances at the end of its page. -/
def jobPageDone (o : NvOp) (ecc : Ecc) (s : State) : State :=
  match s.cond.running with
  | some (c, .pages (_ :: todo) done data clear unc bad) =>
    if c.op = 8 then readDone c o.page todo done data clear unc bad s else writeDone c o.page todo done ecc s
  | some (c, .clear todo done stage first count sec unc) => clearDone c o.write.isSome ecc todo done stage first count sec unc s
  | some (c, .save (_ :: todo) gen count done) => saveDone c todo gen count done ecc s
  | some (c, .disc d 3 left) => if left ≤ 1 then installed c d s else setJob c (.disc d 3 (left - 1)) s
  | some (c, .bind slot left) => if left ≤ 1 then boundBy c slot s else setJob c (.bind slot (left - 1)) s
  | _ => s

/-- A page of the running command ends while the conductor is in reset: it counts, and nothing else follows of it (R341). -/
def jobPageReset (o : NvOp) (s : State) : State :=
  match s.cond.running with
  | some (c, .pages (_ :: todo) done data clear unc bad) => setJob c (.pages todo (done + 1) data clear unc bad) s
  | some (c, .clear todo done stage first count sec unc) =>
    if stage = 6 ∨ (stage = 1 ∧ (o.write.isSome ∨ validCleared o.page (pageAt s o.page) = true)) then
      clearStep c o.write.isSome todo done first count sec unc s
    else s
  | some (c, .save (_ :: todo) gen count done) => setJob c (.save todo gen count (done + 1)) s
  | _ => s

/-- A clear that NV_SUSPEND stops writes its SUSPENDED record at the page boundary (R300). -/
def suspendHere (s : State) : State :=
  if s.nv.suspend.isEmpty || jobOpBusy s || s.cond.inReset then s
  else
    match s.cond.running with
    | some (c, .clear todo done stage first count sec unc) =>
      if s.nv.running && (stage == 1 || stage == 2 || stage == 6) then setJob c (.clear todo done 3 first count sec unc) (serve s) else s
    | _ => s

/-- A RESTORE_CONFIG applies at a frame boundary (R306), during a MEAS reset at its end (R344). -/
def restoreHere (s : State) : State :=
  if s.tt.frame.isSome || s.cond.inReset || s.sys.measRst then s
  else
    match s.cond.running with
    | some (_, .restore) => finishCmd rOk (put 0 16 (savedCount s)) (restoreImage s)
    | _ => s

/-- The record of a SWITCH_TT whose completion fell due during a watchdog reset: applied for a table, or cancelled (R196, R341). -/
def switchRecord (g : Byte × Option Bool) (s : State) : State :=
  cplRecord 0x02 false false (if g.2.isSome then rOk else rState) g.1 (put 0 1 (g.2.getD false).toNat) s

/-- SWITCH_TT completions that fell due during a watchdog reset (R341). -/
def flushSwitches (s : State) : State :=
  if s.cond.switchDone.isEmpty then s
  else forAll s.cond.switchDone switchRecord { s with cond := { s.cond with switchDone := [], wdog := 0 } }

/-- A command the watchdog cut completes once the ledger's record stands, and the SWITCH_TT completions that fell due during the reset
follow (R341). -/
def cutHere (s : State) : State :=
  if s.cond.inReset || s.ldg.job.isSome || s.nv.op.isSome then s
  else
    match s.cond.running with
    | some (_, .cut w) => flushSwitches (endSuspends 0x41 0 (finishCmd 0x41 w s))
    | some _ => s
    | none => flushSwitches s

/-- What follows any event at once: cuts, boundaries, the next page, and the return to rest. -/
def settle (s : State) : State :=
  rest (pump (suspendHere (warnCut (cutHere (restoreHere (selftestLock (selftestAcquire (clockCut s))))))))

/-- The owner of a page operation advances: the ledger record in hand, or the running command, unless the conductor is in reset. -/
def ownerAdvances (o : NvOp) (ecc : Ecc) (s : State) : State :=
  if o.orphan then s
  else if o.ledger then ldgPageDone ecc s
  else if s.cond.inReset then jobPageReset o s
  else jobPageDone o ecc s

/-- NV_PAGE_OPERATION_END: the page is written or read, and its owner advances (R294, R343). An uncorrectable word met in a main start
shows in its boot record (Table 4.7). -/
def pageOperationEnd (ecc : Ecc) (t : Nat) (s : State) : State :=
  match s.nv.op with
  | none => s
  | some o =>
    let s := advance t s
    let s := { s with
      nv := { s.nv with op := none }
      sys := { s.sys with startUnc := s.sys.startUnc ||
        (!mainReady s && (ecc == .uncorrectable || (o.write.isNone && !(pageAt s o.page).reads))) }
      cond := { s.cond with wdog := 0 } }
    let s := match o.write with
      | some (kind, gen, data) => writePage o kind gen data ecc s
      | none => readPage o.page ecc s
    settle (ownerAdvances o ecc s)

end Sys2Proof.Machine
end

