-- ==== Sys2Proof/Machine/Commands.lean ====
section
/-! DEFINITION. The conductor's commands, one by one (Table 18.1), its watchdog and its restart (R340, R341). -/

namespace Sys2Proof.Machine

/-! ## Starting (R332, R335) -/

/-- The running command, if it has just started with op code `op`. -/
def started (op : Nat) (s : State) : Option Cmd :=
  match s.cond.running with
  | some (c, .fresh) => if c.op = op ∧ condRuns s then some c else none
  | _ => none


/-- The row of a command that has started, at HF counter t. -/
def onStart (op t : Nat) (f : Cmd → State → State) (s : State) : State :=
  match started op s with
  | none => s
  | some c => settle (f c (serve (advance t s)))

/-- A table stops being installed (R188): a switch to it that waits is cancelled (R196), in a watchdog reset with its record after the
restart (R341). -/
def uninstall (b : Bool) (s : State) : State :=
  let t := { s with tt := { s.tt with
    instA := if b then s.tt.instA else none, instB := if b then none else s.tt.instB
    activeValid := s.tt.activeValid && s.tt.active != b } }
  if s.tt.swPend = some b then
    let u := { t with
      tt := { t.tt with swPend := none }
      cond := { t.cond with
        switches := []
        switchDone := if s.cond.inReset then s.cond.switchDone ++ s.cond.switches.map (fun g => (g, none)) else s.cond.switchDone } }
    if s.cond.inReset then u else forAll s.cond.switches (fun g => cplRecord 0x02 false false rState g 0) u
  else t

/-- LOAD_TT is refused for a table that is active while TT_CTL.en is 1 (R195). -/
def loadRefused (c : Cmd) (s : State) : Bool := s.tt.activeValid && s.tt.active == bitOf c.a0 0 && ttEn s

/-- The clock conditions of a command that needs HF (R307): the reason it fails with at its start. -/
def clockFault (s : State) : Option Nat :=
  if clkSel s = 0 then some rUnlocked else if s.clk.bypass then some rBypass else none

/-- A DISCOVER whose job passes the checks of its start (R307, R322, R327): an automatic job runs only from PRESENT. -/
def discoverRuns (c : Cmd) (s : State) : Bool :=
  let k := fld c.a0 0 2
  c.runsJob && attached s k && (!c.auto || (portAt s k).state == 2) && (clockFault s).isNone

/-- What a command does as it starts: a LOAD_TT that is not refused uninstalls its table (R188, R196); the job of a DISCOVER stands in
step 2, at its identification line, and has the HF clock started (R307, R322). -/
def atStart (c : Cmd) (s : State) : State :=
  if c.op = 0x01 ∧ !loadRefused c s then uninstall (bitOf c.a0 0) s
  else if discoverRuns c s then setJob c (.disc (DiscJob.new (fld c.a0 0 2)) 0 0) (wakeHf .job s)
  else s

/-- COMMAND_START (R332): the next queued command starts while none runs and the completion ring has room; under the warning
it completes POWER_WARN (R335). -/
def commandStart (t : Nat) (s : State) : State :=
  match s.cond.queue with
  | [] => s
  | c :: q =>
    if s.cond.running.isSome || !condRuns s || !mainReady s || s.cond.shipped ||
        !s.cond.switchDone.isEmpty || decide (16 ≤ (s.cond.head - s.cond.tail).toNat) then s
    else
      let s := serve (wakeMain (advance t s))
      let u := { s with cond := { s.cond with queue := q, running := some (c, .fresh) } }
      if s.pwr.warn then settle (finishCmd rPower (restDetail s c) u) else settle (atStart c u)

/-- An op that is not a command (R334). -/
def undefinedCommand (t : Nat) (s : State) : State :=
  match s.cond.running with
  | some (c, .fresh) => if 0x14 ≤ c.op ∧ condRuns s then settle (finishCmd rArgs 0 (serve (advance t s))) else s
  | _ => s

/-! ## Timetables (R194 to R196) -/

/-- LOAD_TT (R194, R195). -/
def loadTt (c : Cmd) (s : State) : State :=
  let b := bitOf c.a0 0
  if loadRefused c s then finishCmd rState 0 s
  else
    let t := uninstall b s
    let l := memLoad s.mem (ttBase b) 4096
    let n := (byteAt l 5).toNat
    match loadFault l with
    | some (code, i) => finishCmd rArgs (put 0 8 code ||| put 8 8 i ||| put 16 8 n) (raise 45 t)
    | none =>
      let im := some (imageOf l)
      finishCmd rOk (put 16 8 n)
        { t with tt := { t.tt with instA := if b then t.tt.instA else im, instB := if b then im else t.tt.instB } }

/-- SWITCH_TT (R195, R333): it no longer runs once it awaits its boundary, at which its record is written. -/
def switchTt (c : Cmd) (s : State) : State :=
  let b := bitOf c.a0 0
  if (instOf s b).isNone then finishCmd rState 0 s
  else
    let t := { s with
      tt := { s.tt with swPend := some b }
      cond := { s.cond with running := none, switches := s.cond.switches ++ [c.tag] } }
    admitJobs (if s.tt.frame.isNone then applySwitch t else t)

/-! ## Discovery (R322, R326, R327) -/

/-- Step 2 of a discovery job: the devices found at its identification line (R322, R323). -/
def discoverRead (c : Cmd) (teds : List Teds) (s : State) : State :=
  let k := fld c.a0 0 2
  let other := if attached s (Nat.xor k 1) then (portAt s (Nat.xor k 1)).taken else none
  let m := chooseTeds teds other
  setJob c (.disc { DiscJob.new k with teds := teds, mine := m.1, flags := m.2 } 1 0) s

/-- DISCOVER whose start ran no job: the report alone, or the check that fails (R322, R326). An automatic job runs only from PRESENT
(R327); elsewhere it ends REJECTED_STATE (log entry 69). Where nothing fails any more the job runs. -/
def discoverStart (c : Cmd) (teds : List Teds) (s : State) : State :=
  let k := fld c.a0 0 2
  if !c.auto && bitOf c.a0 9 then
    finishCmd rOk (portWord s k)
      (store (0x7800 + 64 * fld c.a2 0 4) ((portAt s k).report.getD (blankReport k s)) s)
  else if (portAt s k).state = 0 then finishCmd rState (portWord s k) s
  else if (portAt s k).state = 1 then finishCmd rSensorGone (portWord s k) s
  else if c.auto && (portAt s k).state != 2 then finishCmd rState (portWord s k) s
  else
    match clockFault s with
    | some r => finishCmd r (portWord s k) s
    | none => discoverRead c teds (wakeHf .job s)

/-- Steps 8 and 9 of the job, from what the hold measured (R322, R324). -/
def discoverEnd (c : Cmd) (j : DiscJob) (s : State) : State :=
  let imp := match j.mine with | some t => impDiffers t j.data | none => false
  classify c
    { j with flags := j.flags ||| (if j.leak then 0x8000 else 0) ||| (if imp then 0x4000 else 0) }
    (endHolds s)

/-- LEAK of the hold that began at HF counter h ends: AFE_DIAG latches as in a frame (R322 step 4, R166). -/
def discLeak (d : DiscData) (s : State) : State :=
  match s.cond.running with
  | some (c, .disc j 2 h) =>
    if j.done = 0 ∧ h + leakCycles ≤ s.clk.hf then
      setJob c
        (.disc { j with done := 1, data := { j.data with leakPa := d.leakPa }, leak := decide (leakThr s.afe.eff ≤ d.leakPa) } 2 h)
        (classifyLeak (pairOf j.port.toNat) d.leakPa (serve s))
    else s
  | _ => s

/-- ARM of the hold ends: AFE_DIAG latches as in a frame (R322 step 6, R166). -/
def discArm (d : DiscData) (s : State) : State :=
  match s.cond.running with
  | some (c, .disc j 2 h) =>
    if j.done = 1 ∧ h + armCycles s ≤ s.clk.hf then
      setJob c (.disc { j with done := 2, data := { j.data with zp := d.zp, zn := d.zn } } 2 h)
        (classifyArm j.port.toNat d.zp.toNat d.zn.toNat (serve s))
    else s
  | _ => s

/-- The balance of the hold ends, and with it the hold (R322 steps 7 to 9): a value at the overrange threshold latches now, a reference
below 0.5 V leaves value and clip open, as of a CONVERT (R157, R165). -/
def discBalance (d : DiscData) (s : State) : State :=
  match s.cond.running with
  | some (c, .disc j 2 h) =>
    if j.done = 2 ∧ h + balanceCycles s ≤ s.clk.hf ∧ 1024 ≤ d.bits.length then
      let v := balanceRaw d s
      let free := lowRef (balanceStage j.port) d.senseUv
      let ovr := (free && Config.clipDraw s.free) || overLevel s.afe.eff v
      discoverEnd c { j with data := { j.data with balance := v } }
        (when ovr (diagOver j.port.toNat) (serve { s with free := s.free + free.toNat }))
    else s
  | _ => s

/-- A job in step 2 waits for an ID_THERM carriage that holds its line (R164). -/
def waitsForLine (c : Cmd) (s : State) : Bool := idThermOn s (pairOf (fld c.a0 0 2))

/-- DISCOVER: the end of step 2, of a start that runs no job, or of the measurements of its hold that are over by HF counter t, each with
what it found: a job cut in its hold keeps what has latched by then (R322, log entry 109). -/
def discover (teds : List Teds) (d : DiscData) (t : Nat) (s : State) : State :=
  match s.cond.running with
  | some (c, .fresh) =>
    if c.op = 3 ∧ condRuns s ∧ !(discoverRuns c s && waitsForLine c s) then settle (discoverStart c teds (serve (advance t s))) else s
  | some (c, .disc _ 0 _) =>
    if condRuns s && !waitsForLine c s then settle (discoverRead c teds (serve (advance t s))) else s
  | some (_, .disc _ 2 _) =>
    if condRuns s && hfLocked s && !s.clk.bypass then settle (discBalance d (discArm d (discLeak d (advance t s)))) else s
  | _ => s

/-- DISCOVERY_HOLD_BEGIN (R322 steps 3 and 4): at a frame boundary the pair and its modulators are held, the pair off for its LEAK. -/
def discoveryHoldBegin (s : State) : State :=
  match s.cond.running with
  | some (c, .disc j 1 _) =>
    if s.tt.frame.isSome || !condRuns s || !hfLocked s || s.clk.bypass then s
    else
      let p := pairOf j.port.toNat
      let t := setPair p (pairAt s p).offed (setJob c (.disc j 2 s.clk.hf) (serve s))
      settle { t with cal := { t.cal with holdMod := discMods p, holdPair := if p then 2 else 1 } }
  | _ => s

/-- ID_LINE_TIMEOUT (R339): the identification line of the job's port stayed low. -/
def idLineTimeout (t : Nat) (s : State) : State :=
  match s.cond.running with
  | some (c, .disc _ 0 _) =>
    if condRuns s && !waitsForLine c s then settle (finishCmd rTimeout (portWord s (fld c.a0 0 2)) (serve (advance t s))) else s
  | _ => s

/-- SLOT_BIND (R327). -/
def slotBind (c : Cmd) (s : State) : State :=
  let k := fld c.a0 0 2
  let slot := fld c.a1 0 5
  if bindArgsBad c then finishCmd rArgs (portWord s k) s
  else if !attached s k then finishCmd rState (portWord s k) s
  else if slot = 31 then
    let t := setPort k { (portAt s k).unbound with state := 4, override := true } s
    finishCmd rOk (portWord t k) t
  else setInstalling k true (setJob c (.bind slot (installPages s slot)) s)

/-! ## Calibration and self-test (R307 to R312, R347, R348) -/

/-- Mode S: bit 0 of a calibration, bit 31 of SELFTEST. -/
def modeS (c : Cmd) : Bool := if c.op = 0x12 then bitOf c.a0 31 else bitOf c.a0 0


/-- The hold of a calibration or self-test begins (Table 16.8, Table 18.6). -/
def beginHold (c : Cmd) (s : State) : State :=
  let s := setJob c .holding s
  if c.op = 6 then { s with cal := { s.cal with holdMod := BitVec.ofNat 5 (fld c.a0 4 5) } }
  else if c.op = 7 then holdInputs (BitVec.ofNat 7 (fld c.a0 8 7)) s
  else if c.op = 0x12 then
    { s with cal := { s.cal with
        holdMod := if bitOf c.a0 5 then 0x1F else 0x10
        holdExc := bitOf c.a0 6 } }
  else s

/-- CAL_TDC, CAL_MOD or CAL_EVT at its start. -/
def calStart (c : Cmd) (s : State) : State :=
  if calArgsBad c then finishCmd rArgs 0 s
  else
    match clockFault s with
    | some r => finishCmd r 0 s
    | none =>
      let t := wakeHf .job s
      if modeS c then beginHold c t else setJob c .waitHold t

/-- CAL_HOLD_BEGIN: in mode B the hold begins at a frame boundary (Table 16.8). -/
def calHoldBegin (s : State) : State :=
  match s.cond.running with
  | some (c, .waitHold) => if s.tt.frame.isSome || !condRuns s then s else settle (beginHold c (serve s))
  | _ => s

/-- The tap map of code-density counts, and dnl (R309). -/
def tapMap (h : List Nat) : List Nat × Nat :=
  let at_ := fun k => h.getD k 0
  let below := fun k => (h.take k).foldl (· + ·) 0
  ((List.range 8).map (fun k => (divrhe ((2 * below k + at_ k) * 256 : Nat) 131072).toNat),
   (divrhe (((List.range 8).map (fun k => ((at_ k : Int) - 8192).natAbs)).foldl max 0 : Nat) 32).toNat)

/-- A calibration ends with its residual (R312). -/
def calDone (residual : Nat) (applied : Bool) (s : State) : State :=
  finishCmd (if applied then rOk else rPartial) (put 0 24 (min residual 0xFFFFFF) ||| put 31 1 applied.toNat)
    (raise (if applied then 52 else 53) s)

/-- CAL_QUALITY takes a residual in its field, and the valid bit of a part whose result was applied (Table 16.11). -/
def qualityOf (w : Word) (lo len residual part : Nat) (applied : Bool) : Word :=
  setFld w lo len (min residual (2 ^ len - 1)) ||| put (28 + part) 1 applied.toNat

/-- New trims where a calibration measured, the previous elsewhere. -/
def mergeTrims (sel : Nat → Bool) (old new : List Byte) : List Byte :=
  (List.range old.length).map (fun i => if sel i then new.getD i 0 else old.getD i 0)

/-- A CAL_TDC result. -/
def applyTdc (counts : List Nat) (s : State) : State :=
  let r := tapMap counts
  let ok := decide (r.2 ≤ 128)
  calDone r.2 ok { s with cal := { s.cal with
    map := if ok then r.1 else s.cal.map
    calibrated := if ok then s.cal.calibrated ||| 1 else s.cal.calibrated
    quality := qualityOf s.cal.quality 0 8 r.2 0 ok } }

/-- CAL_MOD measures modulator i / 9 at gain i mod 9: one that it holds, at a gain of its mask, M4 at gain 0 alone (R310). -/
def modMeasured (a0 : Word) (i : Nat) : Bool :=
  bitOf a0 (4 + i / 9) && bitOf a0 (16 + i % 9) && (decide (i / 9 < 4) || i % 9 == 0)

/-- The largest residual offset measured (Table 16.9); with nothing measured the manual states none: a free value (log entry 69). -/
def modResidual (a0 : Word) (offsets : List Int) (k : Nat) : Nat :=
  let ms := (List.range 45).filter (modMeasured a0)
  if ms.isEmpty then Config.noResidual k else (ms.map (fun i => (offsets.getD i 0).natAbs)).foldl max 0

/-- A CAL_MOD result: the trims of the modulators held at the gains measured (R310). -/
def applyMod (c : Cmd) (offsets : List Int) (trims : List Byte) (s : State) : State :=
  let sel := modMeasured c.a0
  let residual := modResidual c.a0 offsets s.free
  let s := { s with free := s.free + 1 }
  let ok := decide (residual ≤ 500)
  calDone residual ok { s with cal := { s.cal with
    modTrim := if ok then mergeTrims sel s.cal.modTrim trims else s.cal.modTrim
    calibrated := if ok then s.cal.calibrated ||| 2 else s.cal.calibrated
    quality := qualityOf s.cal.quality 8 12 residual 1 ok } }

/-- The margin of an input in uV: the smaller distance of its hysteresis to 8 % and to 14 % of VDDIO, which is in mV (R311). -/
def evtMargin (vddio : Nat) (th : Nat × Nat) : Nat :=
  let h : Int := (th.1 : Int) - th.2
  min (h - (80 * vddio : Nat)).natAbs (h - (140 * vddio : Nat)).natAbs

/-- The least margin over the held inputs, in whole mV rounded down (R311, log entry 69). -/
def leastMargin (a0 : Word) (vddio : Nat) (ths : List (Nat × Nat)) : Nat :=
  (((((List.range 7).filter (fun i => bitOf a0 (8 + i))).map (fun i => evtMargin vddio (ths.getD i (0, 0)))).min?).getD 0) / 1000

/-- A CAL_EVT result: the trims of the inputs held (R311). -/
def applyEvt (c : Cmd) (ths : List (Nat × Nat)) (trims : List Byte) (s : State) : State :=
  let margin := leastMargin c.a0 s.pins.vddio ths
  let ok := decide (10 ≤ margin)
  calDone margin ok { s with cal := { s.cal with
    evtTrim := if ok then mergeTrims (fun i => bitOf c.a0 (8 + i)) s.cal.evtTrim (trims.map (· &&& 0x0F)) else s.cal.evtTrim
    calibrated := if ok then s.cal.calibrated ||| 4 else s.cal.calibrated
    quality := qualityOf s.cal.quality 20 8 margin 2 ok } }

/-- What a hold measured, applied to the command that measured it; another measurement changes nothing. -/
def applyMeasured (c : Cmd) (m : Measured) (s : State) : State :=
  match m with
  | .tdc counts => if c.op = 5 ∧ counts.length = 8 ∧ counts.foldl (· + ·) 0 = 65536 then applyTdc counts s else s
  | .mod offsets trims => if c.op = 6 then applyMod c offsets trims s else s
  | .evt ths trims => if c.op = 7 then applyEvt c ths trims s else s
  | .selftest failed =>
    if c.op = 0x12 ∧ testsLeft c &&& 0x10 = 0 then
      finishSelftest (c.a1 ||| testsLate c ||| (failed.setWidth 32 &&& testsLeft c &&& 0x460)) s
    else s

/-- CAL_RESULT_APPLY: at the measurement's end, or in mode B at the frame boundary after it (Table 16.8). -/
def calResultApply (m : Measured) (t : Nat) (s : State) : State :=
  match s.cond.running with
  | some (c, .holding) =>
    if !condRuns s || !hfLocked s || s.clk.bypass || (!modeS c && s.tt.frame.isSome) then s
    else settle (applyMeasured c m (serve (advance t s)))
  | _ => s

/-- Test 3: a page of 8 to 15 that does not read, or one of 10 to 15 without a valid check word, fails it (Table 18.6). -/
def nvTestFails (s : State) : Bool :=
  (List.range 8).any (fun i => !(pageAt s (8 + i)).reads) ||
    (List.range 6).any (fun i => !(validData (10 + i) (pageAt s (10 + i)) || validCleared (10 + i) (pageAt s (10 + i))))

/-- The reads of test 3 meet an uncorrectable word: source 49 and NV_STAT.unc (R293). -/
def nvTestReads (s : State) : State :=
  scrubAll (pageRange 8 8) (if (List.range 8).any (fun i => !(pageAt s (8 + i)).reads) then nvUnc s else s)

/-- The HF clock that the later tests need is started (R307); with test 4 its own acquisition does it (`selftestAcquire`). -/
def testClock (c : Cmd) (s : State) : State := if bitOf (testsLeft c) 4 then s else wakeHf .job s

/-- SELFTEST at its start (R347, R348): tests 0 to 3 and the HFRC part of 4 run; `failed` is what the part finds. Tests that need the
clock where it fails are not run; the others wait for it, those of a hold for its begin. -/
def selftest (failed : BitVec 11) (c : Cmd) (s : State) : State :=
  let tests := c.a0 &&& 0x7FF
  if tests = 0 then finishCmd rArgs 0 s
  else
    let skip : Word := if (clockFault s).isSome then tests &&& 0x4E0 else 0
    let runs := tests &&& ~~~skip
    let bad := failed.setWidth 32 &&& runs
    let nv : Word := if bitOf runs 3 && nvTestFails s then 8 else 0
    let left := runs &&& (if (clockFault s).isSome then 0x7E0 else 0x7F0)
    let c := { c with a1 := (bad &&& 0x17) ||| nv ||| (skip <<< 16), a2 := left ||| ((bad &&& 0x380) <<< 16) }
    let s := when (bitOf runs 3) nvTestReads s
    if left &&& 0x4F0 = 0 then finishSelftest (c.a1 ||| testsLate c) s
    else
      let t := testClock c s
      if left &&& 0x460 = 0 then setJob c .holding t
      else if modeS c then beginHold c t
      else setJob c .waitHold t

/-! ## NV commands (R299 to R302, R305, R306) -/


/-- NV_READ at its start. -/
def nvRead (c : Cmd) (s : State) : State :=
  match nvPages readable c with
  | none => finishCmd rArgs 0 s
  | some ps => setJob c (.pages ps 0 0 0 false false) s

/-- NV_WRITE at its start. -/
def nvWrite (c : Cmd) (s : State) : State :=
  match nvPages writable c with
  | none => finishCmd rArgs 0 s
  | some ps =>
    if clearHeld s && journalTouches s (fld c.a0 0 9) (fld c.a0 0 9 + fld c.a1 0 5) then finishCmd rState 0 s
    else setJob c (.pages ps 0 0 0 false false) s

/-- A clear starts or goes on with its RUNNING record (R299, R301). -/
def startClear (c : Cmd) (todo : List Nat) (first count : Nat) (sec : Word) (s : State) : State :=
  setJob c (.clear todo 0 0 first count sec false) { s with nv := { s.nv with running := true } }

/-- NV_CLEAR at its start (R299). -/
def nvClear (c : Cmd) (s : State) : State :=
  let first := fld c.a0 0 9
  let count := fld c.a1 0 9
  if clearArgsBad c then finishCmd rArgs 0 s
  else if clearHeld s then finishCmd rState 0 s
  else startClear c (pageRange first count) first count (coarseNow s).sec s

/-- The pages a journalled clear has left. -/
def journalTodo (r : JRec) : List Nat := pageRange r.next (r.first + r.count - r.next)

/-- NV_RESUME at its start (R301). -/
def nvResume (c : Cmd) (s : State) : State :=
  match journal s with
  | some r => if clearHeld s then startClear c (journalTodo r) r.first r.count r.sec s else finishCmd rState 0 s
  | none => finishCmd rState 0 s

/-- NV_ABANDON at its start (R301). -/
def nvAbandon (c : Cmd) (s : State) : State :=
  match journal s with
  | some r =>
    if clearHeld s then setJob c (.clear (journalTodo r) 0 4 r.first r.count r.sec false) s else finishCmd rState 0 s
  | none => finishCmd rState 0 s

/-- NV_SUSPEND (R300): the NV_SUSPENDs committed and not yet registered; with no clear running they complete REJECTED_STATE. -/
def nvSuspend (t : Nat) (s : State) : State :=
  if s.nv.suspend.isEmpty || s.cond.inReset then s
  else
    let s := advance t s
    if s.pwr.warn && !s.nv.running then settle (endSuspends rPower 0 s)
    else if !s.nv.running then settle (endSuspends rState 0 s)
    else settle s

/-- SAVE_CONFIG at its start (R301, R305). -/
def saveConfig (c : Cmd) (s : State) : State :=
  if clearHeld s && journalTouches s 0 8 then finishCmd rState 0 s
  else
    let n := (savedCount s + 1) % 65536
    setJob c (.save (savePages n s) (BitVec.ofNat 8 n) n 0) s

/-- RESTORE_CONFIG at its start (R306). -/
def restoreConfig (c : Cmd) (s : State) : State :=
  let s := scrubAll (pageRange 0 8) s
  if imageValid s then setJob c .restore s
  else
    let unc := imageUnc s
    finishCmd (if unc then rNvUnc else rCheck) 0 (raise 55 (if unc then nvUnc s else s))

/-! ## Ledger commands (R281, R289) -/

/-- LEDGER_LAP and LEDGER_CHECKPOINT: the direct commands that wait register at the first qtick, with all else that registers there;
with HF not locked the next ktick edge takes them (R281). -/
def ledgerCommands (lap : Bool) (t : Nat) (s : State) : State :=
  if s.sys.measRst || !(s.ldg.wait.any (fun c => c.1.lap == lap)) || !fineClock s then s
  else
    let s := advance t s
    settle (registerAt (momentAt (qtickAt s s.clk.hf) s) [] [] s)

/-! ## SHIP (R49) -/

/-- SHIP at its start: the commands behind it are refused (R335, R49), its record is written, and 32 kticks are left. -/
def ship (_ : Cmd) (s : State) : State :=
  if !s.pins.waken then finishCmd rState 0 s
  else
    let v := finishCmd rOk 0 (drainQueue refusal s)
    { v with
      cond := { v.cond with shipped := true }
      tt := { v.tt with await := none, queued := none, freeRun := false }
      pwr := { v.pwr with shipIn := some 32 } }

/-! ## The watchdog (R340, R341) -/

/-- WATCHDOG_EXPIRY: 1 639 kticks without a service (R340, R341). The page writes the array owes itself are due for each verify (R296) and
outlast it (log entry 71). -/
def watchdogExpiry (s : State) : State :=
  if !(s.cond.awake && condRuns s && decide (1639 ≤ s.cond.wdog)) then s
  else
    let t := { s with
      sys := { s.sys with wdogCount := satAdd 255 s.sys.wdogCount 1 }
      cond := { s.cond with inReset := true, wdog := 0, awake := false } }
    raise 58 (endHolds (setCause 0x200 t))

/-- A record to be written again in full (R341). -/
def LdgJob.again (j : LdgJob) : LdgJob := { j with pages := 0, bad := false }

/-- A page operation whose owner is gone; it completes all the same (R343). -/
def NvOp.orphaned (o : NvOp) : NvOp := { o with orphan := true }

/-- The ledger at the restart (R341): a record whose pages were all written completes, any other is written again. -/
def ledgerRestart (s : State) : State :=
  let t := match s.ldg.job with
    | some j => if 2 ≤ j.pages then recordDone j s else s
    | none => s
  { t with ldg := { t.ldg with job := t.ldg.job.map LdgJob.again, jobs := t.ldg.jobs.map LdgJob.again } }

/-- A page operation without an owner that carries out no task of the array: it was in progress at an earlier reset (R343). -/
def orphanBusy (s : State) : Bool := s.nv.op.any (fun o => o.orphan && o.task.isNone)

/-- A page operation that has not ended by the restart had not begun when the conductor stopped: the pages of R341 step 3 end before it
(log entry 82). A task is still owed. -/
def dropUnbegun (s : State) : State :=
  { s with nv := { s.nv with op := none, todo := (s.nv.op.bind (fun o => o.task)).toList ++ s.nv.todo } }

/-- CONDUCTOR_RESTART (R341), once the page operation of the expiry is complete: a running clear is suspended, a torn ledger record is
written again, the command that ran is cut; during a main start the restart goes back to the journal read (R89). -/
def conductorRestart (t : Nat) (s : State) : State :=
  if !s.cond.inReset || orphanBusy s then s
  else
    let s := dropUnbegun (advance t s)
    let u := ledgerRestart { s with cond := { s.cond with inReset := false, wdog := 0 } }
    if !mainReady s then settle { u with sys := { u.sys with phase := .hfrc } }
    else
      match u.cond.running with
      | none => settle u
      | some (c, .clear todo done st first count sec unc) =>
        if u.nv.running then settle (setJob c (.clear todo done 5 first count sec unc) u)
        else settle (setJob c (.cut (cutDetail u c (.clear todo done st first count sec unc))) u)
      | some (c, j) => settle (setJob c (.cut (cutDetail u c j)) (stopInstalls u))

end Sys2Proof.Machine
end

