-- ==== Sys2Proof/Machine/Resets.lean ====
section
/-! DEFINITION. Resets and the main start (R81 to R90, R343 to R346, Tables 4.4 to 4.7). -/

namespace Sys2Proof.Machine

/-! ## What a reset of the main domain leaves (Table 4.5) -/

/-- Commands running or queued, the ones that await only their record included (R87): a SWITCH_TT that awaits its boundary and direct
commands that wait count too, which R331, R333 and Table 18.5 leave open against R338 (DESIGN CHOICE, log entry 83). -/
def cmdsInFlight (s : State) : Nat :=
  let jobs := s.ldg.job.toList ++ s.ldg.jobs
  cmdCount s + s.cond.switches.length + s.cond.switchDone.length + s.nv.suspend.length + s.ldg.wait.length +
    (jobs.map (fun j => j.cmds.length)).foldl (· + ·) 0

/-- The class H fields at reset (R69). The straps are kept (R31), what has been driven to the host stands (R64), and so does a reset
pattern that awaits its GETSTATUS: R76 leaves open whether one seen before an RSTN still counts (DESIGN CHOICE, log entry 66). The
protocol-error flag, which the manual gives no class, clears too (log entry 66). A transaction that a reset cuts is dropped without the
effects of its end, a complete calendar pair unconverted (R110; DESIGN CHOICE, log entry 7). -/
def hifCleared (h : Hif) : Hif :=
  { Hif.reset with i3c := h.i3c, addrHi := h.addrHi, reply := h.reply, acks := h.acks, patternSeen := h.patternSeen }

/-- The array at a reset of the main domain: its page operation goes on without an owner (R343), and the writes it owes itself stay due
(R296, log entry 71); the rest is class V. -/
def nvReset (n : Nv) : Nv :=
  { n with
    op := n.op.map NvOp.orphaned, susp := false, running := false, spares := 0, wearPage := 0, wear := false, unc := false
    noSpare := false, suspend := [] }

/-- Every class N and V field and range returns to its reset value; class A, the array and the pins stay (R82). A loss of VDD cancels a SHIP
entry in its grace period (DESIGN CHOICE, log entry 73); a reset with VDD present does not (`keepShip`). A reset pattern seen before it
still counts (`hifCleared`; DESIGN CHOICE, log entry 66), but after a loss of VDD. -/
def clearMain (keepHif : Bool) (s : State) : State :=
  { s with
    pwr := { s.pwr with
      ctl := maskIn (if keepHif then 0x100 else 0x1100) s.pwr.ctl 0, warn := false, warnAbove := 0, shipIn := none }
    sys := { s.sys with
      earlyWr := false, cfgState := 3, pstate := .run, measRst := false, wdogCount := 0, startUnc := false, sramDone := false
      cfgDone := false }
    rtc := { s.rtc with shiftShown := false }
    hif := if keepHif then { s.hif with served := 0 } else hifCleared s.hif
    evt := { s.evt with stat := s.evt.stat &&& aonSources, mask := Evt.reset.mask }
    evin := Evin.reset, clk := Clk.reset, afe := Afe.reset, ros := Ros.reset, tt := Tt.reset, res := Res.reset
    out := Out.reset, ldg := Ldg.reset, nv := nvReset s.nv, cond := Cond.reset, disc := Disc.reset, cal := Cal.reset
    mem := memClear (memClear s.mem 0x7500 0x75C0) 0x7600 0x7640 }

/-- A main start begins at tick 0 with main reset asserted (R84, R88): its cause bits are set alone, or added where a main
start was not complete. -/
def beginStart (bits : BitVec 11) (soft powerOn : Bool) (lost : Nat) (s : State) : State :=
  let again := !mainReady s && s.sys.phase != .off
  let cause := if again then s.sys.cause ||| bits else bits
  let pon := powerOn || (s.sys.powerOn && s.sys.phase == .held)
  let n := if powerOn then 0 else min 255 (lost + if again then s.sys.lostCmds else 0)
  let t := clearMain soft s
  { t with sys := { t.sys with
      phase := .held, cause := cause, lostCmds := n, soft := soft, powerOn := pon
      bootCold := bits.getLsbD 0 || (again && s.sys.bootCold) } }

/-- A reset in the grace period of SHIP takes effect, and the device enters SHIP regardless, exactly 32 kticks after the record (R49): one
that the host commands, and RSTN (log entry 73). -/
def keepShip (s t : State) : State :=
  { t with pwr := { t.pwr with shipIn := s.pwr.shipIn }, cond := { t.cond with shipped := s.cond.shipped } }

/-- A soft reset (R81, R93). -/
def softReset (s : State) : State :=
  if !s.pwr.mainOn || s.pwr.ship then s else keepShip s (beginStart 0x020 true false (cmdsInFlight s) s)

/-- A HIF reset at the end of its transaction (R69): class H fields and HIF_ERR; PWR_CTL.io_slew_fast is class H. -/
def hifReset (s : State) : State :=
  setCause 0x400 { s with
    pwr := { s.pwr with ctl := maskIn 0x1000 s.pwr.ctl 0 }
    hif := hifCleared s.hif }

/-- The target reset action 0x01 (R76): a soft reset together with a HIF reset. -/
def rstactReset (s : State) : State :=
  if !s.pwr.mainOn || s.pwr.ship then s else keepShip s (beginStart 0x440 false false (cmdsInFlight s) s)

/-- A low pulse on RSTN that counts (R32): at least 1 us; between 200 ns and 1 us the part decides (log entry 7). -/
def rstnCounts (lowNs : Nat) (s : State) : Bool :=
  decide (1000 ≤ lowNs) || (decide (200 ≤ lowNs) && Config.rstnPulse s.free)

/-- RSTN (R81): the main start begins at the rising edge. -/
def rstn (lowNs : Nat) (s : State) : State :=
  let open_ : Bool := decide (200 ≤ lowNs) && decide (lowNs < 1000)
  let t := { s with free := s.free + open_.toNat }
  if rstnCounts lowNs s && s.pwr.mainOn && !s.pwr.ship then keepShip t (beginStart 0x010 false false (cmdsInFlight s) t) else t

/-! ## The main start (Table 4.6) -/

/-- MAIN_RESET_RELEASE: after a main power-on the straps are sampled (R31); a soft reset's host port stayed open. -/
def mainResetRelease (ifsel addr : Bool) (s : State) : State :=
  if !(s.pwr.mainOn && s.sys.phase == .held) then s
  else
    let t := { s with sys := { s.sys with phase := .released, powerOn := false, soft := false } }
    if s.sys.powerOn then { t with hif := { t.hif with i3c := ifsel, addrHi := addr } } else t

/-- MAIN_START_HFRC_RUNNING: the conductor starts. -/
def hfrcRunning (s : State) : State :=
  if !(s.pwr.mainOn && s.sys.phase == .released) then s
  else outSettle { s with
    sys := { s.sys with phase := .hfrc }
    cond := { s.cond with awake := true, wdog := 0 } }

/-- JOURNAL_READ: pages 8 to 15; the free spares are counted (Table 16.10). -/
def journalRead (s : State) : State :=
  if !(condRuns s && s.sys.phase == .hfrc) then s
  else
    let unc := (List.range 8).any (fun i => !(pageAt s (8 + i)).reads)
    let s := scrubAll (pageRange 8 8) s
    let t := { s with
      nv := { s.nv with susp := true, spares := (freeSpares s).length }
      sys := { s.sys with phase := if s.sys.sramDone then .cleared else .journal, startUnc := s.sys.startUnc || unc } }
    serve (if unc then nvUnc t else t)

/-- SRAM_CLEAR_DONE: the class V ranges read 0x00 (Table 4.1), and every sealed copy is all zeros (R186). -/
def sramClearDone (s : State) : State :=
  if !(mainUp s && s.sys.phase == .journal) then s
  else
    { s with
      mem := memClear (memClear (memClear s.mem 0x1000 0x7500) 0x7640 0x7740) 0x7800 0x7C00
      ros := { s.ros with sealed := Ros.reset.sealed }
      sys := { s.sys with phase := .cleared, sramDone := true } }

/-- CONFIG_IMAGE_APPLY: the config step, and the first presence readings (R86, R275, R318). -/
def configImageApply (present : BitVec 4) (t : Nat) (s : State) : State :=
  if !(condRuns s && s.sys.phase == .cleared) then s
  else
    let first := !s.sys.cfgDone
    serve (when first (forAll (List.range 4) (firstReading present)) (configStep (advance t s)))

/-- LEDGER_RECOVERY at the main start (R287). -/
def ledgerRecovery (s : State) : State :=
  if !(condRuns s && s.sys.phase == .config) then s
  else
    let t := recover s
    serve { t with sys := { t.sys with phase := .ledger, startUnc := t.sys.startUnc || recordsUnc s } }

/-- The detail word of the boot record (Table 4.7). -/
def bootDetail (s : State) : Word :=
  put 0 1 (s.sys.cfgState == 0).toNat ||| put 1 1 (s.sys.cfgState == 1).toNat ||| put 2 1 (s.sys.cfgState == 2).toNat |||
    put 3 1 (clearHeld s).toNat ||| put 4 1 s.sys.startUnc.toNat ||| put 5 1 (bitOf s.rtc.ctl 1).toNat |||
    put 6 1 s.sys.bootCold.toNat ||| put 8 8 s.sys.lostCmds ||| put 16 8 (s.sys.cause.toNat % 256)

/-- The accepted levels of the inputs at the end of a main start are the levels of their pins. -/
def takeLevels (s : State) : State :=
  { s with evin := { s.evin with level := s.pins.ev, syncLevel := s.pins.sync, conf := List.replicate 7 none, fresh := 0 } }

/-- BOOT_RECORD (R87): slot 0, its events, main_ready, in the grace period of SHIP the refusal of the jobs behind it (R50); then the
spread copy (R145), the RESUME record (R287) and the acquisition of the restored CLK_SRC. -/
def bootRecord (t : Nat) (s : State) : State :=
  if !(condRuns s && s.sys.phase == .ledger) then s
  else
    let s := serve (advance t s)
    let d := bootDetail s
    let s := cplRecord 0 false false (if fld d 1 4 = 0 then rOk else rPartial) 0 d s
    let s := raiseIf (bitOf d 4) 49 (raiseIf (bitOf d 3) 51 s)
    let s := when s.cond.shipped (drainQueue (fun _ => rState)) s
    let s := { s with
      sys := { s.sys with phase := .ready }
      evt := { s.evt with copy := BitVec.ofNat 8 (s.evt.mask.toNat / 256) }
      hif := { s.hif with served := 0 } }
    let s := takeLevels (if bitOf s.clk.spread 0 then copySpread s else s)
    settle (acquire .mainStart (resume 0 s))

/-! ## The MEAS reset (R83, R345) -/

/-- Carriage i fails with NEIGHBOUR_RESET at the stamp of the commit; a MARK waits to be the last (R345). -/
def neighbourOne (stamp : Stamp) (i : Nat) (s : State) : State :=
  match s.tt.frame with
  | none => s
  | some f =>
    let r := runAt f i
    let g := setRun i { r with state := .done, reason := 0x40 } f
    if (carAt f.img.cars i).op == oMark then
      { s with tt := { s.tt with frame := some { g with markFail := some (0x40, stamp) } } }
    else
      failRecord i 0x40 stamp (r.state == .running) r.late g
        { s with tt := { s.tt with frame := some { g with nFailed := g.nFailed + 1 } } }

/-- The frame in flight at a MEAS reset (R345). -/
def neighbourFrame (s : State) : State :=
  match s.tt.frame with
  | none => s
  | some f =>
    let stamp := nowStamp s
    let t := forAll ((List.range f.runs.length).filter (fun i => (runAt f i).state != .done)) (neighbourOne stamp) s
    match t.tt.frame with
    | none => t
    | some g => raise 40 (markFailRecord g { t with tt := { t.tt with frame := none } })

/-- Direct ledger commands that have registered without their snapshot, and lap requests of alarms and inputs, which are counted as refused
(R345). -/
def neighbourLedger (s : State) : State :=
  forAll s.ldg.wait (fun c => ldgCmdDone 0x40 0 c.1)
    { s with ldg := { s.ldg with wait := [], laps := 0, refused := satAdd 255 s.ldg.refused s.ldg.laps } }

/-- The MEAS-owned registers and what MEAS holds return to reset (R83, R135, R153, R186). TT_STAT.halted is 0 on the bypass clock that
follows, until a halt of R134, R137 or R141, a failed acquisition or a write of the clock registers sets it (Tables 7.5 and 10.12; DESIGN
CHOICE, log entry 97). -/
def clearMeas (s : State) : State :=
  let s := genZero s
  setCause 0x100 { s with
    clk := { s.clk with
      state := .off, ref := .none, bypass := true, episode := true, warn := false, accErr := 0, retries := 0, retryIn := none
      verify := false, verifying := false, acq := none, drift := 0, q := none, qb := none, lastEdge := 0, qHist := [], periods := 0
      winQ := 0, runEdge := false
      bands := List.replicate 5 none, spreadFault := false, caps := [] }
    afe := { s.afe with diag := 0, pairA := Pair.reset, pairB := Pair.reset, stages := Stage.initial }
    ros := { s.ros with depot := [], ahead := false }
    tt := { s.tt with
      await := none, queued := none, group := none, fmtWas := none, freeRun := false, halted := false, protHit := false, frames := 0 }
    out := { s.out with
      lowHr := false, openLatch := false, recBad := false, fault := false, held := false, clamp := false, failCnt := 0, due := none,
      lastAt := none }
    ldg := { s.ldg with
      newSeq := 0, newKind := 0, restored := false, empty := false, wfail := false, wfailAt := none, skipped := 0, inst := none }
    evin := { s.evin with conf := List.replicate 7 none, syncHeld := false, rise := none, handAt := none, cmpAt := none, recs := none }
    sys := { s.sys with measRst := true } }

/-- A committed MEAS reset (R93, R345). One committed while a soft reset holds main reset, with the host port open, does nothing (DESIGN
CHOICE, log entry 73). -/
def measReset (t : Nat) (s : State) : State :=
  if !mainUp s then s
  else clearMeas (neighbourLedger (neighbourCut (neighbourFrame (outSettle (advance t s)))))

/-- MEAS_RESET_COMPLETE (R83): the pending switch, the ledger's recovery, the CHECKPOINT that a write of en during the reset owes
(R288), the inputs' watching (R238), and an acquisition where CLK_SRC selects a reference. -/
def measResetComplete (t : Nat) (s : State) : State :=
  if !s.sys.measRst then s
  else
    let s := applySwitch { (advance t s) with sys := { s.sys with measRst := false } }
    let s := if mainReady s || s.sys.phase == .ledger then recoverBy 1 s else s
    let s := { s with
      evin := { s.evin with fresh := BitVec.ofNat 6 (fld s.evin.incfg 24 6) } }
    settle (acquire .measReset (outSettle s))

end Sys2Proof.Machine
end

