-- ==== Sys2Proof/Machine/Power.lean ====
section
/-! DEFINITION. Supplies, castling, the main domain's switch, the trickle charger, SHIP (R35 to R52). -/

namespace Sys2Proof.Machine

/-! ## Levels (Table 2.7) -/

/-- The castling mode in force: 0 COMPARE, 1 LEVEL, 2 FORCE. -/
def castleMode (s : State) : Nat := fld s.pwr.eff 0 2

/-- VSW in mV, within 30 mV of its setting (Table 19.11). -/
def vsw (s : State) : Nat := ((1600 + 200 * fld s.pwr.eff 4 2 : Nat) + within (-30) 30 s.pins.part.vswErr).toNat

/-- The COMPARE switching offset in mV, 15 to 35 (Table 19.11). -/
def cmpOff (s : State) : Nat := max 15 (min 35 s.pins.part.cmpOff)

/-- V_OFF in mV (Table 2.7). Table 2.7 calls V_OFF + 50 mV the castle-back crossing of COMPARE, which it is with the offset of 25 mV alone;
of a part with another offset the main domain starts at V_OFF + 50 mV, VBAT - offset + 50 mV, and the castle-back comes at VBAT + offset
(R37, Table 19.11; DESIGN CHOICE, log entry 111). -/
def vOff (s : State) : Nat := if castleMode s = 0 then max (s.pins.vbat - cmpOff s) 1600 else vsw s

/-- V_WARN in mV, 130 to 170 mV above V_OFF (Table 19.11). -/
def vWarn (s : State) : Nat := vOff s + max 130 (min 170 s.pins.part.warnGap)

/-- The supply the castling mode calls for: true VBAT. Within the hysteresis it stays what it was. -/
def calledVbat (s : State) : Bool :=
  match castleMode s with
  | 0 => if s.pins.vdd + cmpOff s < s.pins.vbat then true else if s.pins.vbat + cmpOff s < s.pins.vdd then false else s.pwr.wantVbat
  | 1 => if s.pins.vdd < vsw s then true else if vsw s + 50 < s.pins.vdd then false else s.pwr.wantVbat
  | _ => bitOf s.pwr.eff 2

/-- The level of a side. -/
def sideLevel (s : State) (vbat : Bool) : Nat := if vbat then s.pins.vbat else s.pins.vdd

/-- Both supplies lie below 1.40 V (R41). -/
def bothLow (s : State) : Bool := decide (s.pins.vdd < 1400) && decide (s.pins.vbat < 1400)

/-! ## The selector (R38, R41) -/

/-- A castling the mode calls for is made where the supply allows it, and waits for its registration; a fallback move
registers nothing (R41). Where a fallback has already moved the domain to a supply, a later call of the mode for that supply is
registered as a castling although the selector makes no switch (DESIGN CHOICE, log entry 73). -/
def select (s : State) : State :=
  let want := calledVbat s
  let move := want != s.pwr.sideVbat && decide (1400 ≤ sideLevel s want)
  let side := if move then want else s.pwr.sideVbat
  let on_ := if decide (1400 ≤ sideLevel s side) then side else !side
  { s with pwr := { s.pwr with
      wantVbat := want, sideVbat := side, onVbat := on_
      castlings := if move then s.pwr.castlings ++ [!want] else s.pwr.castlings
      ranVbat := s.pwr.ranVbat || (!s.pwr.mainOn && on_) } }

/-! ## The trickle charger (R45) -/

/-- The termination voltage in mV (Table 2.11), within 2 % of its setting (Table 19.11). -/
def vTerm (s : State) : Nat :=
  ((match fld s.pwr.trickle 4 2 with | 0 => 2800 | 1 => 3000 | _ => (3300 : Int)) * (1000 + within (-20) 20 s.pins.part.termErr) / 1000).toNat

/-- The charger's state at the present supplies. -/
def trickleEval (s : State) : State :=
  let vt := vTerm s
  let done := s.pwr.trickleOn && decide (vt ≤ s.pins.vbat)
  let full := (s.pwr.vbatFull || done) && decide (vt - 100 ≤ s.pins.vbat)
  let on_ := bitOf s.pwr.trickle 0 && s.pwr.mainOn && decide (s.pins.vbat + 200 ≤ s.pins.vdd) && decide (s.pins.vbat < vt) && !full
  raiseIf done 14 { s with pwr := { s.pwr with vbatFull := full, trickleOn := on_ } }

/-! ## The main domain (R37, R47) -/

/-- A page write in progress when VDD is lost (ch. 16 edge 1, R299, R343). -/
def tearOp (s : State) : State :=
  match s.nv.op with
  | none => s
  | some o =>
    match o.write with
    | none => { s with nv := { s.nv with op := none } }
    | some (kind, gen, data) =>
      let k := Config.tornPage s.free
      let p := o.leaves s kind gen data
      let bad := kind != 0xC3
      let q : NvPage :=
        if k = 0 then (match s.nv.pages.find? (fun x => x.1 == o.phys s) with | some x => x.2 | none => clearedPage o.page)
        else if k = 2 && bad then { p with check := ~~~p.check }
        else if k = 3 && bad then { p with ecc := .uncorrectable }
        else p
      { s with
        free := s.free + 1
        nv := { s.nv with op := none, pages := putPage (o.phys s) q s.nv.pages } }

/-- The main domain's power is gone: everything but class A, the array and the pins is lost, what was driven to the host too. A SHIP
entry in its grace period is cancelled (R49, DESIGN CHOICE, log entry 73). -/
def mainDown (s : State) : State :=
  let t := clearMain false s
  { t with
    pwr := { t.pwr with mainOn := false, trickleOn := false, ranVbat := t.pwr.onVbat }
    hif := { t.hif with reply := [], acks := [], patternSeen := false }
    nv := { t.nv with todo := [] }
    sys := { t.sys with phase := .off, cause := 0, lostCmds := 0, soft := false, powerOn := false } }

/-- The main domain is switched off by the loss of VDD: a page write in progress may be torn (R343). -/
def mainOff (s : State) : State := mainDown (tearOp s)

/-- The main domain starts where VDD lies above V_OFF + 50 mV (R37): Table 4.4's cause. -/
def mainOn (ship : Bool) (s : State) : State :=
  let bits : BitVec 11 := if ship then 0x008 else if s.pwr.coldNew then 0x003 else if s.pwr.ranVbat then 0x006 else 0x002
  let t := beginStart bits false true 0 { s with pwr := { s.pwr with mainOn := true, coldNew := false, ranVbat := false } }
  { t with sys := { t.sys with cause := bits } }

/-- The always-on domain loses its supply (R41): nothing of it is kept. -/
def aonOff (s : State) : State :=
  let t := if s.pwr.mainOn then mainOff s else s
  { t with
    pwr := { t.pwr with aonOn := false, mainOn := false, trickleOn := false, ship := false, castlings := [] }
    sys := { t.sys with x32Run := false, phase := .off }
    rtc := { t.rtc with started := false } }

/-- SHIP is left (R52): X32 restarts and time_invalid is set; with VDD present a main start follows, else BACKUP. A supply that the mode
calls for anew is taken as a castling, stamped at the next ktick edge (DESIGN CHOICE, log entry 73). -/
def leaveShip (s : State) : State :=
  let t := { s with
    pwr := { s.pwr with ship := false, shipVddLow := false }
    rtc := { s.rtc with ctl := s.rtc.ctl ||| 2, edges := 0 } }
  let u := select t
  trickleEval (if vOff u + 50 < u.pins.vdd then mainOn true u else u)

/-- In SHIP only the level of VDD is watched (R52): below V_OFF a page operation still in progress loses its supply (R343), below 1.0 V
the way out is armed, and above V_OFF + 50 mV after that SHIP is left. -/
def shipEval (s : State) : State :=
  let t := if s.pins.vdd < vOff s then tearOp s else s
  let u := { t with pwr := { t.pwr with shipVddLow := t.pwr.shipVddLow || decide (t.pins.vdd < 1000) } }
  if u.pwr.shipVddLow && decide (vOff u + 50 < u.pins.vdd) then leaveShip u else u

/-! ## The always-on cold start (R90) -/

/-- The supply in mV above which the always-on domain leaves reset, 1.45 to 1.55 V (R90, Table 19.11). -/
def aonRelease (s : State) : Nat := max 1450 (min 1550 s.pins.part.release)

/-- A supply lies above the release level of the always-on domain. -/
def aonSupplied (s : State) : Bool := decide (aonRelease s < s.pins.vdd) || decide (aonRelease s < s.pins.vbat)

/-- The always-on domain leaves reset at a supply above its release level, whichever row brings it; every class A field and the always-on
RAM take their reset values (R41, R79, R90, R108, R258). -/
def aonColdStart (s : State) : State :=
  if s.pwr.aonOn || !aonSupplied s then s
  else
    let side := decide (s.pins.vdd ≤ aonRelease s)
    { s with
      pwr := { Pwr.reset with mainOn := false, onVbat := side, wantVbat := side, sideVbat := side, coldNew := true, ranVbat := side }
      rtc := Rtc.reset, alm := Alm.reset
      evt := { s.evt with stat := 0, copy := 0xFF }
      sys := { s.sys with x32Run := false, phase := .off }
      mem := memClear s.mem 0x100 0x140 }

/-- What the present supplies bring about where the always-on domain runs: the loss of both, the selector, the main domain, the charger. -/
def railsEval (s : State) : State :=
  if bothLow s then aonOff s
  else if s.pwr.ship then shipEval s
  else
    let t := select s
    let t :=
      if t.pwr.mainOn && decide (t.pins.vdd < vOff t) then mainOff t
      else if !t.pwr.mainOn && decide (vOff t + 50 < t.pins.vdd) then mainOn false t
      else t
    trickleEval t

/-- What the present supplies bring about. -/
def powerEval (s : State) : State :=
  let t := aonColdStart s
  if t.pwr.aonOn then railsEval t else t

/-- Supplies take levels. -/
def setSupplies (vdd vbat : Nat) (s : State) : State :=
  outSettle (powerEval { s with pins := { s.pins with vdd := vdd, vbat := vbat } })

/-- A level beyond the absolute maximum of Table 19.1, 4.0 V. -/
def beyond (mv : Nat) : Bool := decide (4000 < mv)

/-! ## SHIP (R49 to R52) -/

/-- SHIP is entered: the main domain is lost, X32 stops, class A is kept (R51); a page operation in progress completes, since VDD is
there (R343). -/
def enterShip (s : State) : State :=
  let t := mainDown s
  { t with
    pwr := { t.pwr with ship := true, shipVddLow := false, shipIn := none }
    sys := { t.sys with x32Run := false } }

/-- SHIP_EXIT: a low pulse on WAKEN (at least 1 ms; from 100 us on the part decides), or the return of VDD (R52). -/
def shipExit (w : ShipWake) (s : State) : State :=
  match w with
  | .waken us =>
    let open_ : Bool := decide (100 ≤ us) && decide (us < 1000)
    let t := { s with free := s.free + (s.pwr.ship && open_).toNat }
    if s.pwr.ship && (decide (1000 ≤ us) || (open_ && Config.wakenPulse s.free)) then leaveShip t else t
  | .vddReturn vdd => setSupplies vdd s.pins.vbat s

/-! ## VDDIO (R35) -/

/-- VDDIO takes a level: below 0.90 V it is absent, above 1.10 V present, between them the part decides (log entry 7). A transaction that
stands open when it goes absent never ends: it is dropped without the effects of its end, its RC clears and calendar pair among them,
which R35 leaves open (DESIGN CHOICE, log entry 7). -/
def vddioChange (mv : Nat) (s : State) : State :=
  let open_ : Bool := decide (900 ≤ mv) && decide (mv ≤ 1100)
  let ok := if open_ then Config.vddioBand s.free else decide (1100 < mv)
  { s with
    free := s.free + open_.toNat
    pins := { s.pins with vddio := mv, vddioOk := ok }
    hif := if ok then s.hif else { s.hif with txn := none, header := false } }

end Sys2Proof.Machine
end

