-- ==== Sys2Proof/Machine/Timebase.lean ====
section
/-! DEFINITION. The X32 edge in the always-on domain: the count, trim and temperature (R94 to R108), the countdown (R124, R125)
and the matching of alarms and TT_START (R114 to R119, R122). -/

namespace Sys2Proof.Machine

/-! ## Trim (R103 to R107) -/

/-- The evaluation at the first edge of a window: a due temperature sample, TC, and T (R103, R106, R107). What is held over VBAT is the R107
value of the last sample, also where tc_en was 0 when it was taken and TC was 0 (DESIGN CHOICE, log entry 93). -/
def windowStart (m : List Host.Cell) (first : Bool) (r : Rtc) : Rtc :=
  let held : Int := match r.conv with | some t => tcOf m t | none => signed 12 r.tcHeld.toNat
  let ctl := match r.conv with | some t => setFld r.ctl 20 12 t.toNat | none => r.ctl
  let tc : Int := if bitOf r.ctl 2 then held else 0
  let T := sat12 (signed 12 r.trim.toNat + tc)
  { r with
    ctl := ctl, conv := none, tcHeld := BitVec.ofNat 12 (code 12 held), tc := BitVec.ofNat 12 (code 12 tc), sat := T.2
    trimT := T.1, trimAcc := 0, winEdge := 1, winCount := if first then 0 else r.winCount + 1 }

/-- An edge of the window: whether a trim correction falls on it (R103). -/
def trimEdge (m : List Host.Cell) (first : Bool) (r : Rtc) : Bool × Rtc :=
  let r := if first || decide (windowEdges ≤ r.winEdge) then windowStart m first r else { r with winEdge := r.winEdge + 1 }
  let a := r.trimAcc + r.trimT.natAbs
  let due := decide (r.trimT ≠ 0) && decide (windowEdges ≤ a)
  (due, { r with trimAcc := if due then a - windowEdges else a })

/-- The edge of its window at which a temperature conversion starts: 4 096 kticks before the next window. -/
def convEdge : Nat := windowEdges + 1 - 4096

/-- A sample is due for the coming boundary (Table 5.1). -/
def sampleDue (onVbat : Bool) (r : Rtc) : Bool :=
  !onVbat || (bitOf r.ctl 2 && bitOf r.ctl 3 && (r.winCount + 1) % 4 == 0)

/-- The conversion for the coming boundary starts at this edge (R106). -/
def convStart (onVbat : Bool) (temp : BitVec 12) (r : Rtc) : Rtc :=
  if r.winEdge = convEdge ∧ sampleDue onVbat r then { r with conv := some temp } else r

/-! ## The count (R94 to R102) -/

/-- What an X32 edge did to the count. -/
structure Tick where
  /-- The edge performed the advance of R94, with a step of so many kticks. -/
  adv : Bool
  step : Nat
  /-- It applied a shift or a written time. -/
  moved : Bool
  /-- A second tick (R95). -/
  second : Bool
  /-- The prescaler and the count before, and the count after. -/
  presc : Nat
  cOld : Nat
  cNew : Nat
  /-- The count after, as it stands before SEC is taken modulo 2^32: where SEC wraps it says which way the count moved (R96). -/
  cTo : Int
deriving DecidableEq, Repr

/-- No edge of the count. -/
def Tick.none (s : State) : Tick :=
  { adv := false, step := 0, moved := false, second := false, presc := s.rtc.presc.toNat, cOld := countNow s, cNew := countNow s,
    cTo := countNow s }

/-- The starting edge of R90: the count starts, a written time takes effect, trim window 0 begins. -/
def startEdge (s : State) : Tick × State :=
  let r := (trimEdge s.mem true s.rtc).2
  let sec := r.timePend.getD r.sec
  let n : Rtc := { r with
    started := true, sec := sec, presc := 0, halted := bitOf r.ctl 0, timePend := none
    ctl := if r.timePend.isSome then r.ctl &&& 0xFFFFFFFD else r.ctl }
  ({ Tick.none s with moved := r.timePend.isSome, cNew := countOfTime sec 0, cTo := countOfTime sec 0 }, { s with rtc := n })

/-- The RTC_CTL a step of the count leaves: a written time clears time_invalid (R100), a withdrawn shift sets rej (R102). -/
def ctlAfter (timed reject : Bool) (w : Word) : Word :=
  let v := if timed then w &&& 0xFFFFFFFD else w
  if reject then setFld v 8 3 4 else v

/-- An edge of the running count (R94), of its halt (R99) and of its release (R101). -/
def countEdge (s : State) : Tick × State :=
  let x := trimEdge s.mem false s.rtc
  let r := convStart s.pwr.onVbat s.pins.dieTemp x.2
  let halt := bitOf r.ctl 0
  let adv := !halt && !r.halted
  let release := !halt && r.halted
  let step : Nat := if x.1 then (if 0 < r.trimT then 2 else 0) else 1
  let shift : Int := match r.shiftPend with | some v => signed 16 v.toNat | none => 0
  let n : Int := (r.presc.toNat : Int) + step + shift
  let base := r.timePend.getD r.sec
  let sec : Word := if adv then base + BitVec.ofInt 32 (n / 32768) else base
  let presc : BitVec 15 := if adv then BitVec.ofInt 15 (n % 32768) else if halt then 0 else r.presc
  let reject := halt && r.shiftPend.isSome
  let second := adv && decide (0 < n / 32768)
  let m : Rtc := { r with
    sec := sec, presc := presc, halted := halt, timePend := none
    shiftPend := if release then r.shiftPend else none
    shiftShown := release && r.shiftShown
    ctl := ctlAfter r.timePend.isSome reject r.ctl }
  ({ adv := adv, step := step, moved := (adv && r.shiftPend.isSome) || r.timePend.isSome, second := second,
     presc := r.presc.toNat, cOld := countNow s, cNew := countOfTime sec presc
     cTo := if adv then base.toNat * 32768 + n else countOfTime sec presc },
   raiseIf reject 15 (raiseIf second 11 { s with rtc := m }))

/-- The count at a ktick edge: it takes no part before X32 is declared running (R90). -/
def rtcEdge (s : State) : Tick × State :=
  if !s.sys.x32Run then (Tick.none s, s) else if s.rtc.started then countEdge s else startEdge s

/-! ## The countdown (R124, R125) -/

/-- The P of a tsel code, in kticks; 60 s counts one-second ticks. -/
def cdTick (k : Tick) (tsel : BitVec 2) : Bool :=
  k.adv && decide (k.presc / tickLen tsel < (k.presc + k.step) / tickLen tsel)

/-- An edge of the countdown: whether it ticked, whether it reached zero, and the registers after it. The tsel of the last edge decides
whether the sub-count restarts: one changed and changed back between two edges does not restart it (R124; DESIGN CHOICE, log entry 56). -/
def cdEdge (k : Tick) (a : Alm) : Bool × Bool × Alm :=
  let want : BitVec 2 := BitVec.ofNat 2 (fld a.cdctl 1 2)
  match a.loadPend with
  | some v => (false, false, { a with count := v, loadPend := none, sub60 := 0, tsel := want })
  | none =>
    let sub := if want = a.tsel then a.sub60 else 0
    let t := cdTick k want
    let whole := t && (want != 3 || sub + 1 == 60)
    let live := whole && bitOf a.cdctl 0 && a.count != 0
    let zero := live && a.count == 1
    let reload := zero && bitOf a.cdctl 3 && fld a.cdctl 8 24 != 0
    (whole, zero,
     { a with
       tsel := want
       sub60 := if want = 3 ∧ t then (sub + 1) % 60 else sub
       count := if reload then BitVec.ofNat 24 (fld a.cdctl 8 24) else if live then a.count - 1 else a.count })

/-! ## Alarms and TT_START (R114 to R119, R122) -/

/-- A firing: late, its lateness in kticks, and skipped. -/
structure Firing where
  late : Bool
  lateness : Nat
  skip : Bool
deriving DecidableEq, Repr

/-- The edge passes or reaches a target: C_old < A <= C_new (R115). Where SEC wraps forward a target at or before the new count is
reached after the count's own wrap, on time (R96, R118); a count that a backward move takes below 0 passes nothing (R123, log entry 84). -/
def passedAt (k : Tick) (a : Nat) : Option Nat :=
  if (k.cOld : Int) < a ∧ (a : Int) ≤ k.cTo then some (k.cTo - a).toNat
  else if (k.cOld : Int) < (a : Int) + 2 ^ 47 ∧ (a : Int) + 2 ^ 47 ≤ k.cTo then some (k.cTo - a - 2 ^ 47).toNat
  else none

/-- Whether a target fires at an edge (R115 to R117). A forward written time while RTC_CTL.halt is 1 fires a passed target LATE at that
edge: row 1 of Table 6.3 over its row 3 (DESIGN CHOICE, log entry 74). -/
def matchTarget (k : Tick) (a : Nat) (en chk skip : Bool) : Option Firing :=
  if !en then none
  else if chk && decide (a ≤ k.cOld) then some { late := true, lateness := min (k.cTo - a).toNat 0xFFFFFF, skip := skip }
  else
    match passedAt k a with
    | some d =>
      let late := k.moved && decide (0 < d)
      some { late := late, lateness := if late then min d 0xFFFFFF else 0, skip := late && skip }
    | none => none

/-- The firing of alarm x at an edge. -/
def almFires (k : Tick) (s : State) (x : Bool) : Option Firing :=
  matchTarget k (alarmTarget s x) (alBit s x 0) (alChk s x) (alBit s x 3)

/-- The firing of TT_START at an edge. -/
def ttFires (k : Tick) (s : State) : Option Firing :=
  matchTarget k (ttTarget s) (bitOf s.tt.ctl 3) s.tt.startChk (bitOf s.tt.ctl 2)

/-- The repeat period of an ax_rep code in seconds (Table 6.1). -/
def repeatSecs (rep : Nat) : Nat := match rep with | 0 => 0 | 1 => 60 | 2 => 3600 | _ => 86400

/-- The seconds of a repeating alarm after a firing (R118 step 5): at least one period on (R119), until its target lies ahead
of the count, which may have wrapped at the edge, or an addition wraps. -/
def advanceSec (sec : Word) (target : Nat) (cTo : Int) (p : Nat) : Word :=
  let c := if 2 ^ 47 ≤ cTo then cTo - 2 ^ 47 else cTo
  let n := (c - target).toNat / (p * 32768) + 1
  word (sec.toNat + min n ((0xFFFFFFFF - sec.toNat) / p + 1) * p)

/-- The fields of alarm x after a firing (R118). -/
def almDone (x : Bool) (f : Firing) (miss : Bool) (target : Nat) (cTo : Int) (a : Alm) : Alm :=
  let b := if x then 16 else 0
  let rep := fld a.alctl (b + 1) 2
  let w := setFld (setFld (setFld a.alctl (b + 13) 1 f.late.toNat) (b + 14) 1 f.skip.toNat) (b + 15) 1 miss.toNat
  { a with
    alctl := if rep = 0 then setFld w b 1 0 else w
    alm0 := if !x && rep != 0 then advanceSec a.alm0 target cTo (repeatSecs rep) else a.alm0
    alm1 := if x && rep != 0 then advanceSec a.alm1 target cTo (repeatSecs rep) else a.alm1 }

end Sys2Proof.Machine
end

