-- ==== Sys2Proof/Machine/Edge.lean ====
section
/-! DEFINITION. The whole of a ktick edge: the count, the firings and event steps that register at it (R121, R126, R237, R242,
R252), castlings (R38 to R40), the brown-out warning (R42, R43), the ledger's instant (R280 to R284), what counts kticks, and
the pre-wake (R127). One order serves every row that names an occurrence of an edge. -/

namespace Sys2Proof.Machine

/-! ## Captures and drift periods (R138, R245) -/

/-- The edge is captured while HF runs; stamps count from it if the count changed at it. The HF counter then stands behind it, so that
what follows is stamped after it (R97). -/
def captureEdge (e : Edge) (k : Tick) (s : State) : State :=
  if !hfRunning s then s
  else if k.cNew == k.cOld then
    { s with clk := { s.clk with lastEdge := 256 * e.n + tapPos s e.tap, hf := max s.clk.hf (e.n + 1) } }
  else
    let c : Capture := { n := e.n, m := tapPos s e.tap, sec := s.rtc.sec, presc := s.rtc.presc }
    let caps := c :: (if s.tt.frame.isSome || s.tt.await.isSome then s.clk.caps else s.clk.caps.take 1)
    { s with clk := { s.clk with lastEdge := 256 * e.n + tapPos s e.tap, hf := max s.clk.hf (e.n + 1), caps := caps } }

/-- A rising X32 edge within a locked run ends a drift period, whose HF cycles count, or begins the first (R138). -/
def driftEdge (e : Edge) (s : State) : State :=
  if !hfLocked s then s
  else
    let counts := s.clk.runEdge && decide (s.clk.periods < 1024)
    { s with clk := { s.clk with
      runEdge := true, lastRise := e.n
      periods := if counts then s.clk.periods + 1 else s.clk.periods
      winQ := if counts then s.clk.winQ + (e.n - s.clk.lastRise) else s.clk.winQ } }

/-! ## Slow samples (R237 to R239) -/

/-- The changes accepted at a ktick edge, in input order: input, stamp and resumed bit. -/
def slowChanges (stamp : Stamp) (s : State) : List (Nat × Stamp × Bool) :=
  (List.range 7).filterMap (fun k => (slowSample s stamp k).2.map (fun x => (k, x.1, x.2)))

/-- Every input takes its sample; accepted levels change. -/
def slowTake (stamp : Stamp) (s : State) : State :=
  let t := { s with evin := { s.evin with
    conf := (List.range 7).map (fun k => (slowSample s stamp k).1), fresh := freshAfter s } }
  forAll (slowChanges stamp s) (fun x u => setAccepted x.1 (!accepted u x.1) u) t

/-- The steps of the inputs at a ktick edge: changes, then SEC conditions, in ascending input (R242). -/
def edgeSteps (second : Bool) (stamp own : Stamp) (before after : State) : List (Nat × Nat × Stamp × Bool) :=
  (List.range 6).flatMap (fun k =>
    ((slowChanges stamp before).filter (fun x => x.1 == k)).map (fun x => (k, (!accepted after k).toNat, x.2.1, x.2.2)) ++
      (if second && watching before && evEn before k then [(k, 2, own, false)] else []))

/-- A SEC step that keeps its state and sets no action wakes nothing (R239). -/
def secWakes (s : State) : Bool :=
  watching s && (List.range 6).any (fun k =>
    evEn s k && ((smEntry s k 2).setWidth 3 != s.evin.st.getD k 0 || (smEntry s k 2).toNat / 8 % 16 != 0))

/-- An accepted rise of SYNC on the slow path: its reset falls at its sync qtick, or, where no qtick runs, waits for the first one
after lock (R142, R147, R240). -/
def slowSync (a : Nat) (stamp : Stamp) (s : State) : List Occ × State :=
  let held := !fineClock s
  let t := if held then { s with evin := { s.evin with syncHeld := true } } else syncReset (qtickAt s (a + 2)) s
  ([syncOcc stamp held s], raise 6 t)

/-! ## What registers at an edge (R121, R122, R126, R249, R252) -/

/-- A firing's occurrence in the event log, with its frame trigger. -/
def almOcc (x : Bool) (stamp : Stamp) (frame : Bool) (f : Firing) : Occ :=
  { source := if x then 9 else 8, stamp := stamp, detail := word f.lateness, log := true,
    trig := if frame && !f.skip then some (if x then 2 else 1, stamp) else none, late := f.late, skipped := f.skip }

/-- The second tick triggers a frame (R197). -/
def secTriggers (s : State) : Bool :=
  ttEn s && (match activeImage s with | some im => im.secTick | none => false)

/-- A SEC and FRAC pair of a ktick count. -/
def stampOfCount (c : Nat) : Stamp := { sec := word (c / 32768), frac := word (c % 32768 * 131072), coarse := false }

/-- The trigger of TT_START (R122). -/
def ttOcc (stamp : Stamp) (f : Firing) : Occ :=
  { source := 46, stamp := stamp, detail := 0, log := false, trig := if f.skip then none else some (12, stamp) }

/-- A LATE TT_START makes the frame its trigger was accepted for a LATE_START frame, whose delay counts from the target, whichever trigger
names it (R122, R198; log entry 86). -/
def lateTtStart (f : Option Firing) (target : Nat) (fate : Fate) (s : State) : State :=
  let c := some (stampOfCount target)
  match f, fate with
  | some ⟨true, _, false⟩, .starts => { s with tt := { s.tt with
      await := s.tt.await.map (fun a => { a with lateStart := true, lateFrom := c }) } }
  | some ⟨true, _, false⟩, .joins => { s with tt := { s.tt with
      await := s.tt.await.map (fun a => { a with lateStart := true, lateFrom := c }) } }
  | some ⟨true, _, false⟩, .queued => { s with tt := { s.tt with queued := s.tt.queued.map (fun q => { q with lateFrom := c }) } }
  | some ⟨true, _, false⟩, .joinsQueued => { s with tt := { s.tt with queued := s.tt.queued.map (fun q => { q with lateFrom := c }) } }
  | _, _ => s

/-- A skipped TT_START is reported while TT_CTL.en is 1 (R122). -/
def skippedTtStart (stamp : Stamp) (f : Option Firing) (s : State) : State :=
  match f with
  | some x => if x.skip && ttEn s then lateTrigger 2 x.lateness { late := true, skipped := true } (12, stamp) s else s
  | none => s

/-- TT_START's enable and check after an edge (R217); a substitute ktick makes no check (R90). -/
def ttAfter (f : Option Firing) (s : State) : State :=
  { s with tt := { s.tt with
    startChk := s.tt.startChk && !s.sys.x32Run, ctl := if f.isSome then s.tt.ctl &&& 0xFFFFFFF7 else s.tt.ctl } }

/-- The staged code is applied by an alarm's action; in NAP or IDLE, where the device is found at the edge, the DAC clock then runs
for 8 kticks (R268). -/
def alarmAout (asleep : Bool) (s : State) : State :=
  wakeMain (applyCode .alarm s.out.staged { s with out := { s.out with wakeK := if asleep then 9 else s.out.wakeK } })

/-- An action bit of a firing alarm that is not skipped: 0 frame, 1 aout, 2 lap. -/
def actOf (s : State) (x : Bool) (f : Option Firing) (i : Nat) : Bool :=
  match f with | some y => !y.skip && alBit s x (4 + i) | none => false

/-- What a firing alarm leaves undone (R120, Table 6.2). -/
def almMiss (s : State) (x : Bool) (f : Option Firing) (reached aout lap : Bool) : Bool :=
  (actOf s x f 0 && !reached) || (actOf s x f 1 && !aout) || (actOf s x f 2 && !lap)

/-- The alarms' registers after an edge. -/
def almAfter (k : Tick) (f0 f1 : Option Firing) (miss0 miss1 : Bool) (s : State) : State :=
  let a := { s.alm with chk0 := false, chk1 := false }
  let a := match f0 with | some f => almDone false f miss0 (alarmTarget s false) k.cTo a | none => a
  let a := match f1 with | some f => almDone true f miss1 (alarmTarget s true) k.cTo a | none => a
  { s with alm := a }

/-- The countdown's miss bit at a zero (R125). -/
def cdMiss (zero reached : Bool) (s : State) : State :=
  if !zero then s
  else { s with alm := { s.alm with cdctl := setFld s.alm.cdctl 5 1 (bitOf s.alm.cdctl 4 && !reached).toNat } }

/-- What fires at an edge: alarm 0, alarm 1, TT_START, and the countdown (its tick, its zero, its registers after it). -/
structure Fires where
  f0 : Option Firing
  f1 : Option Firing
  ft : Option Firing
  cd : Bool × Bool × Alm
deriving DecidableEq, Repr

/-- The firings of an edge: none on substitute kticks (R90). -/
def edgeFires (k : Tick) (s : State) : Fires :=
  if s.sys.x32Run then
    { f0 := almFires k s false, f1 := almFires k s true, ft := ttFires k s, cd := cdEdge k s.alm }
  else { f0 := none, f1 := none, ft := none, cd := (false, false, s.alm) }

/-- The stamp of a rise of SYNC accepted at an edge. -/
def slowRise (cs : Stamp) (before after : State) : Option Stamp :=
  ((slowChanges cs before).find? (fun c => c.1 == 6 && accepted after 6)).map (fun c => c.2.1)

/-- A rise of SYNC accepted by the slow path at an edge whose first HF edge is a, if there is one. -/
def syncAtEdge (a : Nat) (o : Option Stamp) (s : State) : List Occ × State :=
  match o with
  | some c => slowSync a c s
  | none => ([], s)

/-- The first HF rising edge at or after a ktick edge: its alignment edge (R136). -/
def alignEdge (e : Edge) (s : State) : Nat := e.n + (decide (0 < tapPos s e.tap)).toNat

/-- The moment of a ktick edge (R136, R198, R252): its stamp, but the registration qtick's where changes of inputs register in that
qtick. -/
def edgeMoment (e : Edge) (s : State) : Moment :=
  let r := qtickAt s (alignEdge e s)
  { stamp := if (changesAt r s).isEmpty && (heldRise r s).isNone && (trigRecs r s).isEmpty then edgeStamp s else stampAt r 0 s
    qtick := if fineClock s then some r else none, kt := alignEdge e s + 32, other := r + 32, sync := r + 32, onEdge := [] }

/-- The moment with what registers on the edge itself (R198, R237, R240, R241): a SYNC whose sync qtick follows the edge by 2 HF cycles, and
the EV triggers of SEC steps and of changes that the slow path accepts. -/
def edgeZeros (e : Edge) (ins : List Occ) (s : State) (m : Moment) : Moment :=
  let cs := slowChanges (coarseNow s) s
  let here := ins.filter (fun o => o.trig.isSome && decide (o.source ≤ 5) && (fld o.detail 6 2 == 2 || cs.any (fun c => c.1 == o.source)))
  { m with
    sync := if cs.any (fun c => c.1 == 6) then qtickAt s (alignEdge e s + 2) + 32 else m.sync, onEdge := here.map (fun o => 4 + o.source) }

/-- The inputs at an edge: their occurrences, their lap requests, the state after their steps. -/
def edgeInputs (e : Edge) (k : Tick) (s : State) : List Occ × Nat × State :=
  let cs := coarseNow s
  let t := slowTake cs s
  let x := inputsAt (edgeMoment e s).qtick (edgeSteps k.second cs (edgeStamp s) s t) t
  let y := syncAtEdge (alignEdge e s) (slowRise cs s t) x.2.2
  (x.1 ++ y.1, x.2.1, when (!(slowChanges cs s).isEmpty || (k.second && secWakes s)) wakeMain y.2)

/-- The sources of the firings (R118, R125), and the countdown's registers. -/
def edgeLatch (f : Fires) (s : State) : State :=
  raiseIf f.cd.2.1 10 (raiseIf f.f1.isSome 9 (raiseIf f.f0.isSome 8 { s with alm := f.cd.2.2 }))

/-- The occurrences of the firings and of the second tick, in the order of R252, as the state before them asks for. -/
def edgeOccs (k : Tick) (f : Fires) (s : State) : List Occ :=
  let own := edgeStamp s
  (f.f0.map (almOcc false own (alBit s false 4))).toList ++ (f.f1.map (almOcc true own (alBit s true 4))).toList ++
    (if f.cd.2.1 then [{ source := 10, stamp := own, detail := 0, log := true,
                         trig := if bitOf s.alm.cdctl 4 then some (0, own) else none }] else []) ++
    (if k.second && secTriggers s then [{ source := 11, stamp := own, detail := 0, log := true, trig := some (3, own) }] else []) ++
    (f.ft.map (ttOcc own)).toList

/-- The records and triggers of an edge (R121, R122, R252); `s` is the state before them. -/
def edgeDeliver (m : Moment) (k : Tick) (f : Fires) (ins : List Occ) (s u : State) : State :=
  let os := ins ++ edgeOccs k f s
  let fate := fateOf m (os.filterMap (fun o => o.trig)) u
  skippedTtStart (edgeStamp s) f.ft (lateTtStart f.ft (ttTarget s) fate (register m os u))

/-- The other actions of alarms are carried out: the main domain is up and no warning is pending (R120). -/
def edgeLive (s : State) : Bool := mainUp s && !s.pwr.warn

/-- The aout action of the alarms that fire (R268). -/
def edgeAout (f : Fires) (s u : State) : State :=
  when (edgeLive s && (actOf s false f.f0 1 || actOf s true f.f1 1)) (alarmAout (s.sys.pstate != .run || s.out.wakeK != 0)) u

/-- The lap requests of inputs and alarms (R281). -/
def edgeLaps (n : Nat) (f : Fires) (s u : State) : LdgReq × State :=
  if mainUp s then lapReq (n + (actOf s false f.f0 2).toNat + (actOf s true f.f1 2).toNat) LdgReq.none u else (LdgReq.none, u)

/-- The registers of the alarms, the countdown and TT_START after an edge. -/
def edgeDone (k : Tick) (f : Fires) (reached lap : Bool) (s u : State) : State :=
  let a := fun v => almAfter k f.f0 f.f1 (almMiss s false f.f0 reached (edgeLive s) lap) (almMiss s true f.f1 reached (edgeLive s) lap) v
  ttAfter f.ft (cdMiss f.cd.2.1 reached (when s.sys.x32Run a u))

/-- Everything that registers at an edge, with the lap requests it made. -/
def edgeRegister (e : Edge) (k : Tick) (s : State) : LdgReq × State :=
  let f := edgeFires k s
  let x := edgeInputs e k s
  let m := edgeZeros e x.1 s (edgeMoment e s)
  let u := edgeLatch f x.2.2
  let gs := (x.1 ++ edgeOccs k f s).filterMap (fun o => o.trig)
  let v := edgeAout f s (edgeDeliver m k f x.1 s u)
  let l := edgeLaps x.2.1 f s v
  (l.1, edgeDone k f (fateOf m gs u != .ignored) (mainUp s && lapAllowed v) s l.2)

/-! ## Castlings (R38 to R40) -/

/-- One castling registers: its source, and the first stamp or the count (R39). -/
def registerCastling (sec frac : Word) (back : Bool) (s : State) : State :=
  let first := !s.pwr.firstValid
  raise (if back then 13 else 12)
    { s with pwr := { s.pwr with
      firstValid := true, firstDir := if first then back else s.pwr.firstDir
      firstSec := if first then sec else s.pwr.firstSec, firstFrac := if first then frac else s.pwr.firstFrac
      castleCount := if first then s.pwr.castleCount else satAdd 255 s.pwr.castleCount 1 } }

/-- The first-castling fields cleared together (R40). -/
def clearFirst (s : State) : State :=
  { s with pwr := { s.pwr with
    firstValid := false, firstDir := false, firstSec := 0, firstFrac := 0, castleCount := 0, clearPend := false } }

/-- The clear edge, then the castlings made since the last edge; on substitute kticks their stamps are 0 (R90). -/
def castleEdge (s : State) : State :=
  let c := coarseNow s
  let t := if s.pwr.clearPend then clearFirst s else s
  let u := forAll s.pwr.castlings
    (registerCastling (if s.sys.x32Run then c.sec else 0) (if s.sys.x32Run then c.frac else 0)) t
  { u with pwr := { u.pwr with castlings := [] } }

/-! ## The brown-out warning (R42, R43) -/

/-- The warning latches at this edge. -/
def warnLatches (s : State) : Bool := mainUp s && !s.pwr.warn && decide (s.pins.vdd < vWarn s)

/-- The warning ends at this edge. -/
def warnEnds (s : State) : Bool := s.pwr.warn && decide (vWarn s + 50 < s.pins.vdd) && decide (31 ≤ s.pwr.warnAbove)

/-- Steps 1 to 4 of R42. -/
def warnBegin (s : State) : State :=
  let t := pairPowered true (pairPowered false (raise 63 { s with pwr := { s.pwr with warn := true, warnAbove := 0 } }))
  cutWarn (outSettle (dropAhead (allPairsOff t)))

/-- A ktick of a warning that holds (R43). VDD is sampled at the ktick edges alone: a dip between two of them restarts no count (DESIGN
CHOICE, log entry 73). -/
def warnCount (s : State) : State :=
  let above := decide (vWarn s + 50 < s.pins.vdd)
  let t := { s with pwr := { s.pwr with
    warn := !(above && decide (31 ≤ s.pwr.warnAbove))
    warnAbove := if above && decide (s.pwr.warnAbove < 31) then s.pwr.warnAbove + 1 else 0 } }
  outSettle t

/-! ## The ledger's instant (R280 to R284) -/

/-- An interval ends at this edge (R282). -/
def intervalEnds (k : Tick) (s : State) : Bool :=
  ldgOn s && !s.rtc.halted && decide (ldgIvl s ≠ 0) &&
    decide (k.cOld / 32768 / ldgIvl s ≠ k.cNew / 32768 / ldgIvl s)

/-- A checkpoint is due at this edge (R283). -/
def checkpointFalls (k : Tick) (s : State) : Bool :=
  ldgOn s && k.second && decide (ldgCkpt s ≠ 0) && decide (ldgCkpt s ≤ s.ldg.sinceRec + 1) && s.ldg.added

/-- The stamp of an instant at a ktick edge: of the first qtick at or after it while HF runs. -/
def instantStamp (e : Edge) (s : State) : Stamp :=
  if hfRunning s then stampAt (qtickAt s (e.n + (decide (0 < tapPos s e.tap)).toNat)) 0 s else edgeStamp s

/-- The ledger at a ktick edge, with the lap requests that registered at it and the cut of a warning. A warning latched before the ledger's
recovery is complete makes no cut record (R373): before a main start's, in a MEAS reset, and while one waits for records; the laps committed
by then are applied once it is (R284). -/
def ledgerEdge (e : Edge) (k : Tick) (r : LdgReq) (cut : Bool) (s : State) : State :=
  let ivl := intervalEnds k s
  let r := { r with
    interval := ivl, short := s.ldg.short || (ivl && k.moved), timeSet := ivl && k.moved, ckpt := checkpointFalls k s
    cut := cut && ldgOn s }
  let t := { s with ldg := { s.ldg with sinceRec := if k.second then min 60 (s.ldg.sinceRec + 1) else s.ldg.sinceRec } }
  let x := if mainUp t then ldgTakeCmds r t else (r, t)
  instantAt (edgeMoment e s) x.1 (instantStamp e x.2) x.2

/-! ## What counts kticks -/

/-- A count of kticks towards an idle bus or a reminder (R75, R259). -/
def bumpTo (bound : Nat) (o : Option Nat) : Option Nat := o.map (fun n => min bound (n + 1))

/-- The address header of a controller's START with the broadcast address is over by the edge; its transaction stays open (R55, R75, log
entry 65). -/
def headerEnds (s : State) : State :=
  if s.hif.header && !s.hif.ibiReq then { s with hif := { s.hif with header := false } } else s

/-- The bus's idle kticks after an edge: none inside a transaction (R75). -/
def idleNext (h : Hif) : Nat := if h.txn.isNone then min 33 (h.busIdle + 1) else 0

/-- The counters of kticks: the watchdog (R340), the in-band interrupt, whose wait after a NACK ends at 32 idle kticks (R259), the DAC clock
after an alarm (R268). -/
def countKtick (s : State) : State :=
  { s with
    cond := { s.cond with wdog := watchTick s }
    hif := { s.hif with
      sinceAck := bumpTo 32768 s.hif.sinceAck, busIdle := idleNext s.hif, nacked := s.hif.nacked && decide (idleNext s.hif < 33) }
    out := { s.out with wakeK := s.out.wakeK - 1 }
    rtc := { s.rtc with edges := s.rtc.edges + 1 } }

/-- The kticks of the SHIP grace period (R49). -/
def shipCount (s : State) : State :=
  match s.pwr.shipIn with
  | none => s
  | some n => if n ≤ 1 then enterShip s else { s with pwr := { s.pwr with shipIn := some (n - 1) } }

/-- A pre-wake starts at this edge (R127, R199). -/
def preWakeDue (s : State) : Bool :=
  mainReady s && predicted (leadOf s) s && !hfRunning s && !s.clk.bypass && s.tt.frame.isNone && s.tt.await.isNone &&
    decide (clkSel s ≠ 0)

/-- The MDLL starts and the depot fetches the first start group (R127, R178). -/
def preWakeEdge (s : State) : State := if preWakeDue s then fetchFirst (wakeHf .preWake (wakeMain s)) else s

/-! ## The edge -/

/-- Kticks occur: X32 runs, or the main domain on its substitute (R90); none in SHIP (R51). -/
def ktickRuns (s : State) : Bool := s.pwr.aonOn && !s.pwr.ship && (s.sys.x32Run || s.pwr.mainOn)

/-- A new ktick: what latched before it can be cleared (R12). -/
def newKtick (s : State) : State := { s with evt := { s.evt with nowA := 0 } }

/-- The edge up to what registers at it. -/
def edgeCount (e : Edge) (s : State) : Tick × State :=
  let x := rtcEdge (newKtick (takeFresh e.n (advance e.n s)))
  (x.1, if s.sys.x32Run then driftEdge e (captureEdge e x.1 x.2) else x.2)

/-- From the castlings on. -/
def edgeRest (e : Edge) (k : Tick) (r : LdgReq) (s : State) : State :=
  let s := castleEdge s
  let warn := warnLatches s
  let held := s.pwr.warn
  let s := ledgerEdge e k r warn s
  let s := if warn then warnBegin s else if held then warnCount s else s
  let s := powerEval { s with pwr := { s.pwr with eff := s.pwr.ctl } }
  let s := retryTick (countKtick (hfrcTick (holdTick (headerEnds (spanEdge s)))))
  settle (preWakeEdge (shipCount s))

/-- The whole of a ktick edge. -/
def ktick (e : Edge) (s : State) : State :=
  if !ktickRuns s then s
  else
    let x := edgeCount e s
    let y := edgeRegister e x.1 (handoverHere x.2)
    edgeRest e x.1 y.1 y.2

/-- A row that names an occurrence of an edge: the edge, where that occurrence falls at it. -/
def ktickIf (p : State → Bool) (e : Edge) (s : State) : State := if ktickRuns s && p s then ktick e s else s

/-! ## The occurrences rows name -/

/-- What the count does at the coming edge. -/
def nextTick (e : Edge) (s : State) : Tick × State := edgeCount e s

/-- The coming edge is the first of a trim window. -/
def windowFalls (s : State) : Bool := s.sys.x32Run && (!s.rtc.started || decide (windowEdges ≤ s.rtc.winEdge))

/-- A trim correction falls on the coming edge. -/
def correctionFalls (s : State) : Bool :=
  s.sys.x32Run && s.rtc.started && (trimEdge s.mem false s.rtc).1

/-- A temperature conversion starts at the coming edge. -/
def conversionFalls (s : State) : Bool :=
  s.sys.x32Run && s.rtc.started && s.rtc.winEdge + 1 == convEdge && sampleDue s.pwr.onVbat s.rtc

/-- A change of an input is accepted by the slow path, or in a handover that waits, at the coming edge (R237, R238). -/
def slowFalls (k : Nat) (e : Edge) (s : State) : Bool :=
  let t := (nextTick e s).2
  let u := handoverHere t
  accepted u k != accepted t k || (slowChanges (coarseNow u) u).any (fun c => c.1 == k)

/-- The pre-wake starts at the coming edge. -/
def preWakeFalls (e : Edge) (s : State) : Bool :=
  let x := edgeCount e s
  preWakeDue (edgeRegister e x.1 x.2).2

/-- A retry acquisition starts at the coming edge. -/
def retryFalls (s : State) : Bool :=
  decide (clkSel s ≠ 0) && (match s.clk.retryIn with | some k => decide (k ≤ 1) | none => false) && s.clk.acq.isNone &&
    !s.clk.verifying

/-- The comparison of an input's pin at its first sample on the fast path is due and finds it changed (R238). -/
def freshFalls (k : Nat) (s : State) : Bool :=
  s.evin.cmpAt.isSome && fastPath s && isFresh s k && inEn s k && (confOf s k).isNone && pinOf s k != accepted s k

/-- A change confirmed on the fast path, with all that register in its qtick, one found there at the first sample, or the slow path's at
its edge (R236 to R238, R252). -/
def acceptChange (k : Nat) (e : Edge) (s : State) : State :=
  if freshFalls k s then
    let q := s.evin.cmpAt.getD 0
    settle (takeFresh q (advance q s))
  else
    match fastReady s k with
    | some (_, r) => settle (acceptFast (registersAt s k r) s)
    | none => ktickIf (slowFalls k e) e s

/-- The row of a change accepted at an input: of SYNC, a rise that was accepted before and waits for its sync qtick registers there first
(R240). -/
def acceptRow (k : Nat) (e : Edge) (s : State) : State :=
  match s.evin.rise with
  | some x => if k = 6 ∧ fastPath s then settle (acceptFast x.2 s) else acceptChange k e s
  | none => acceptChange k e s

/-- SYNC_RISE: an accepted change of SYNC to high. -/
def syncRise (e : Edge) (s : State) : State := if accepted s 6 && s.evin.rise.isNone then s else acceptRow 6 e s

end Sys2Proof.Machine
end

