-- ==== Sys2Proof/Machine/Regs.lean ====
section
/-! DEFINITION. The register window as the host reads it (R10, R13, R62, R80), the transaction snapshot, the RTC shadows
(R55, R97, R98) and what a transaction clears at its end (R11). -/

namespace Sys2Proof.Machine

/-! ## Register words -/

/-- A bit as a word. -/
def bit (i : Nat) (b : Bool) : Word := put i 1 b.toNat

/-- SYS_STAT.pstate's code (Table 4.9). -/
def PState.code (p : PState) : Nat := match p with | .run => 0 | .nap => 1 | .idle => 2

/-- CLK_STAT.state's code (Table 7.7). -/
def ClkState.code (c : ClkState) : Nat :=
  match c with | .off => 0 | .acq => 1 | .locked => 2 | .parked => 3 | .bypass => 4

/-- CLK_STAT.ref's code (Table 7.7). -/
def ClkRef.code (c : ClkRef) : Nat := match c with | .none => 0 | .refin => 1 | .hfrc => 2 | .fallback => 3

/-- SYS_ID (Table 4.8). -/
def sysId : Word := if Config.isQfn then 0x48320201 else 0x48320101

/-- SYS_STAT (Table 4.9). -/
def sysStat (s : State) : Word :=
  bit 0 (mainReady s) ||| bit 1 s.sys.earlyWr ||| put 2 2 s.sys.pstate.code |||
    bit 4 (hfLocked s && !s.clk.bypass) ||| bit 5 s.clk.bypass ||| bit 6 s.cond.awake ||| bit 7 s.sys.x32Run |||
    put 8 2 s.sys.cfgState.toNat ||| bit 10 (clearHeld s) ||| bit 11 s.sys.measRst

/-- HIF_CFG.mode (Table 3.7). -/
def hifMode (s : State) : Nat := if !s.hif.i3c then 0 else if s.hif.dynAddr = 0 then 1 else 2

/-- HIF_CFG (Table 3.7). -/
def hifCfg (s : State) : Word :=
  bit 0 s.hif.crcEn ||| put 16 2 (hifMode s) ||| bit 18 s.hif.filtOn ||| bit 19 s.hif.ibiEn ||| put 24 7 s.hif.dynAddr.toNat

/-- HIF_ERR (Table 3.8). -/
def hifErr (s : State) : Word := put 0 8 s.hif.err.toNat ||| put 8 8 s.hif.errCount ||| put 16 16 s.hif.lastAddr.toNat

/-- PWR_STAT (Table 2.10). -/
def pwrStat (s : State) : Word :=
  bit 0 s.pwr.onVbat ||| bit 1 s.pwr.warn ||| bit 2 s.pwr.trickleOn ||| bit 3 s.pwr.vbatFull ||| put 8 8 s.pwr.castleCount |||
    bit 16 s.pwr.firstValid ||| bit 17 s.pwr.firstDir ||| bit 18 s.pwr.aonCold

/-- The fine part of RTC_FRAC while HF is locked (R98). -/
def rtcFine (s : State) : Nat := if fineClock s then (nowStamp s).frac.toNat % 131072 else 0

/-- RTC_FRAC (Table 5.3). -/
def rtcFrac (s : State) : Word := if s.rtc.halted then 0 else put 17 15 s.rtc.presc.toNat ||| put 0 17 (rtcFine s)

/-- RTC_SHIFT (Table 5.5): a pending value shows until it applies or a main-domain reset (R102). -/
def rtcShift (s : State) : Word :=
  match s.rtc.shiftPend with
  | some v => if s.rtc.shiftShown then put 0 16 v.toNat ||| bit 16 true else 0
  | none => 0

/-- The calendar pair shown (R109). -/
def rtcCal (s : State) : Word × Word := calendarOf ((s.rtc.sec.toNat : Int) + 900 * offsetOf s.rtc.offset)

/-- RTC_LOCAL (Table 5.8). -/
def rtcLocal (s : State) : Word := put 0 7 s.rtc.offset.toNat ||| bit 7 s.rtc.dst

/-- RTC_TRIM (Table 5.9). -/
def rtcTrim (s : State) : Word := put 0 12 s.rtc.trim.toNat ||| put 16 12 s.rtc.tc.toNat ||| bit 31 s.rtc.sat

/-- A plan holds a band code. -/
def hasBand (s : State) (v : Nat) : Bool := (s.clk.bands.getD v none).isSome

/-- CLK_STAT (Table 7.7). -/
def clkStat (s : State) : Word :=
  put 0 3 s.clk.state.code ||| put 3 2 s.clk.ref.code ||| bit 5 s.clk.warn ||| bit 6 s.clk.bypass ||| bit 7 (spreadOn s) |||
    bit 8 s.clk.spreadFault ||| put 9 3 s.clk.accErr.toNat ||| put 12 6 ((s.clk.bands.getD (bandSlot s) none).getD 0).toNat ||| bit 18 (hasBand s 0) |||
    bit 19 (hasBand s 1) ||| bit 20 (hasBand s 2) ||| bit 21 (hasBand s 3) ||| bit 22 (hasBand s 4) |||
    bit 23 s.clk.q.isSome ||| put 24 8 s.clk.retries

/-- CLK_PLAN (Table 7.6). -/
def clkPlan (s : State) : Word := planWord s s.clk.view.toNat ||| bit 27 (hasBand s s.clk.view.toNat)

/-- AFE_DIAG (Table 8.9). -/
def afeDiag (s : State) : Word :=
  put 0 22 s.afe.diag.toNat ||| bit 22 s.afe.pairA.on ||| bit 23 s.afe.pairB.on ||| bit 24 (s.afe.pairA.on && s.afe.pairA.drive) |||
    bit 25 (s.afe.pairB.on && s.afe.pairB.drive)

/-- TT_STAT (Table 10.12). -/
def ttStat (s : State) : Word :=
  bit 0 s.tt.active ||| bit 1 s.tt.activeValid ||| bit 2 s.tt.instA.isSome ||| bit 3 s.tt.instB.isSome |||
    bit 4 s.tt.swPend.isSome ||| bit 5 s.tt.frame.isSome ||| bit 6 s.tt.queued.isSome ||| bit 7 s.tt.halted |||
    bit 8 s.tt.protHit ||| put 16 16 s.tt.frames.toNat

/-- RES_HEAD (Table 10.16). -/
def resHead (s : State) : Word := put 0 9 s.res.head.toNat ||| put 16 8 s.res.ovf ||| put 24 8 s.res.settleDrop

/-- EVT_LOG_HEAD (Table 12.9). -/
def logHead (s : State) : Word :=
  put 0 7 s.evin.head.toNat ||| put 8 8 s.evin.ovf ||| put 16 6 s.evin.level.toNat ||| bit 22 s.evin.syncLevel

/-- EVT_LOG_TAIL (Table 12.10). -/
def logTail (s : State) : Word :=
  put 0 7 s.evin.tail.toNat |||
    (List.range 6).foldl (fun w k => w ||| put (8 + 3 * k) 3 (s.evin.st.getD k 0).toNat) 0

/-- OUT_STAT (Table 14.9). -/
def outStat (s : State) : Word :=
  put 0 2 (aoutState s) ||| bit 2 s.out.lowHr ||| bit 3 s.out.openLatch ||| bit 4 s.out.recBad ||| bit 5 s.out.fault |||
    bit 6 s.out.held ||| bit 7 s.out.clamp ||| bit 8 (s.out.taken != s.out.code) ||| bit 9 (genMode s != 0) |||
    put 10 3 s.out.failCnt ||| put 16 16 (outCode s)

/-- LDG_STAT (Table 15.5). -/
def ldgStat (s : State) : Word :=
  put 0 16 s.ldg.newSeq.toNat ||| put 16 4 s.ldg.newKind.toNat ||| bit 20 s.ldg.job.isSome ||| bit 21 s.ldg.restored |||
    bit 22 s.ldg.empty ||| bit 23 s.ldg.wfail ||| put 28 4 s.ldg.skipped

/-- NV_STAT (Table 16.10). -/
def nvStat (s : State) : Word :=
  bit 0 s.nv.op.isSome ||| bit 1 s.nv.running ||| bit 2 (clearHeld s) ||| put 4 7 s.nv.spares |||
    put 16 9 s.nv.wearPage ||| bit 25 s.nv.wear ||| bit 26 s.nv.unc ||| bit 27 s.nv.noSpare

/-- CMD_STAT (Table 18.11). -/
def cmdStat (s : State) : Word :=
  (match s.cond.running with
    | some (c, _) => put 0 6 c.op ||| bit 6 true ||| bit 7 c.auto ||| put 8 8 c.tag.toNat
    | none => 0) |||
    put 16 4 (cmdCount s) ||| bit 20 (cmdCount s == 8) ||| put 24 8 s.cond.ovf

/-- The word a register holds (Table 4.3); WO registers and reserved addresses read 0 (R10, R13). -/
def regRead (s : State) (k : Nat) : Word :=
  match k with
  | 0 => sysId
  | 1 => sysStat s
  | 3 => put 0 11 s.sys.cause.toNat ||| put 16 8 s.sys.wdogCount
  | 4 => hifCfg s
  | 5 => hifErr s
  | 6 => s.pwr.ctl
  | 7 => pwrStat s
  | 8 => s.pwr.trickle
  | 9 => s.pwr.firstSec
  | 10 => s.pwr.firstFrac
  | 11 => s.rtc.sec
  | 12 => rtcFrac s
  | 13 => s.rtc.ctl
  | 14 => rtcShift s
  | 15 => (rtcCal s).1
  | 16 => (rtcCal s).2
  | 17 => rtcLocal s
  | 18 => rtcTrim s
  | 19 => s.alm.alm0
  | 20 => s.alm.alm1
  | 21 => s.alm.alctl
  | 22 => put 0 24 s.alm.count.toNat
  | 23 => s.alm.cdctl
  | 24 => s.clk.src
  | 25 => clkPlan s
  | 26 => clkStat s
  | 27 => s.clk.drift
  | 28 => s.clk.limits
  | 29 => s.clk.spread
  | 30 => s.afe.ctl
  | 31 => afeDiag s
  | 32 => s.tt.ctl
  | 33 => ttStat s
  | 35 => s.tt.startSec
  | 36 => s.tt.startFrac
  | 37 => resHead s
  | 38 => put 0 9 s.res.tail.toNat
  | 39 => s.res.cfg
  | 40 => s.evt.stat.setWidth 32
  | 41 => (s.evt.stat >>> 32).setWidth 32
  | 42 => s.evt.mask.setWidth 32
  | 43 => (s.evt.mask >>> 32).setWidth 32
  | 44 => s.evin.incfg
  | 45 => logHead s
  | 46 => logTail s
  | 47 => put 0 16 s.out.code.toNat ||| put 16 16 s.out.staged.toNat
  | 48 => s.out.cfg
  | 49 => s.out.gen
  | 50 => outStat s
  | 51 => s.ldg.ctl
  | 52 => ldgStat s
  | 53 => nvStat s
  | 54 => s.cond.arg0
  | 55 => s.cond.arg1
  | 56 => s.cond.arg2
  | 58 => cmdStat s
  | 59 => put 0 5 s.cond.tail.toNat ||| put 8 5 s.cond.head.toNat
  | 60 => s.cal.quality
  | _ => 0

/-- The RW bits of a register: they read their latched value, the others the snapshot (R10, R62). -/
def rwMask (k : Nat) : Word :=
  match k with
  | 4 => 0x1
  | 6 => 0x1137
  | 8 => 0x77
  | 13 => 0xD
  | 14 => 0xFFFF
  | 18 => 0xFFF
  | 19 => 0xFFFFFFFF
  | 20 => 0xFFFFFFFF
  | 21 => 0x1FFF1FFF
  | 22 => 0xFFFFFF
  | 23 => 0xFFFFFF1F
  | 24 => 0xF
  | 25 => 0x07FFFFFF
  | 28 => 0xFFFFFF0F
  | 29 => 0xFFFF01F3
  | 30 => 0x7FFF
  | 32 => 0xF
  | 35 => 0xFFFFFFFF
  | 36 => 0xFFFE0000
  | 38 => 0x1FF
  | 39 => 0xFF01
  | 42 => 0xFFFFFFFF
  | 43 => 0xFFFFFFFF
  | 44 => 0xFFFFFFFF
  | 46 => 0x7F
  | 47 => 0xFFFFFFFF
  | 48 => 0xFFFF007F
  | 49 => 0xFFFFFFF3
  | 51 => 0x00FFFFF1
  | 54 => 0xFFFFFFFF
  | 55 => 0xFFFFFFFF
  | 56 => 0xFFFFFFFF
  | 59 => 0x1F
  | _ => 0

/-! ## The status byte and the snapshot (R55, R65) -/

/-- The SPI status byte (Table 3.3). -/
def statusByte (s : State) : Byte :=
  BitVec.ofNat 8 (1 + 4 * (bitOf s.rtc.ctl 1).toNat + 8 * (hifErr s != 0).toNat +
    16 * (s.cond.running.isSome || !s.cond.queue.isEmpty).toNat + 32 * (s.cond.head != s.cond.tail).toNat +
    64 * (s.res.head != s.res.tail).toNat + 128 * (pendingSet s != 0).toNat)

/-- A transaction opens: its snapshot (R55). -/
def Txn.new (s : State) : Txn :=
  { snap := (List.range 64).map (regRead s), status := statusByte s, proto := s.hif.protoErr, shadow := none, sent := [], cal0 := none, cal1 := none,
    timeSet := false, early := false, prot := false, newErr := 0, rst := false, bad := false }

/-- The opening edge. -/
def openTxn (s : State) : State := { s with hif := { s.hif with txn := some (Txn.new s) } }

/-- The snapshot of the open transaction, or the present word. -/
def snapWord (s : State) (k : Nat) : Word :=
  match s.hif.txn with | some t => t.snap.getD k 0 | none => regRead s k

/-- The transaction opened before main_ready (R85), as its snapshot says: one opened with main_ready 1 stays unrestricted where an earlier
transfer of it has begun a main start (DESIGN CHOICE, log entry 92). -/
def earlyTxn (s : State) : Bool := !bitOf (snapWord s 1) 0

/-- Notes something in the open transaction. -/
def note (f : Txn → Txn) (s : State) : State := { s with hif := { s.hif with txn := s.hif.txn.map f } }

/-- A HIF_ERR flag of the open transaction, with its frame's header address where it has one (R66, R77). -/
def flagErr (b : Nat) (addr : Option (BitVec 16)) (s : State) : State :=
  { s with hif := { s.hif with
      err := s.hif.err ||| BitVec.ofNat 8 (2 ^ b)
      lastAddr := addr.getD s.hif.lastAddr
      txn := s.hif.txn.map (fun t => { t with newErr := t.newErr ||| BitVec.ofNat 8 (2 ^ b) }) } }

/-- A rejected frame counts once (R66). -/
def countRejected (s : State) : State :=
  { s with hif := { s.hif with
      errCount := satAdd 255 s.hif.errCount 1
      txn := s.hif.txn.map (fun t => { t with bad := true }) } }

/-! ## Reads (R61, R62, R85, R97) -/

/-- The place of a shadowed RTC register among the five (R97). -/
def shadowIdx (k : Nat) : Option Nat :=
  match k with | 11 => some 0 | 12 => some 1 | 15 => some 2 | 16 => some 3 | 17 => some 4 | _ => none

/-- The five RTC registers at one instant (R97): the present one, or that of the opening edge in a transaction that has itself
written RTC_SEC or RTC_LOCAL, since no write of a transaction shows in its own shadows (R98). -/
def rtcShadow (s : State) : List Word :=
  match s.hif.txn with
  | some t =>
    if t.timeSet then [11, 12, 15, 16, 17].map (fun k => t.snap.getD k 0)
    else [s.rtc.sec, rtcFrac s, (rtcCal s).1, (rtcCal s).2, rtcLocal s]
  | none => [s.rtc.sec, rtcFrac s, (rtcCal s).1, (rtcCal s).2, rtcLocal s]

/-- The first read of an RTC register captures the shadows. -/
def captureShadow (s : State) : State :=
  note (fun t => { t with shadow := some (t.shadow.getD (rtcShadow s)) }) s

/-- The word a transaction reads at a window word. -/
def txnWord (s : State) (k : Nat) : Word :=
  match shadowIdx k, s.hif.txn with
  | some i, some t => (t.shadow.getD (rtcShadow s)).getD i 0
  | some i, none => (rtcShadow s).getD i 0
  | none, _ => maskIn (rwMask k) (snapWord s k) (regRead s k)

/-- A class A range (Table 4.1): the always-on RAM. -/
def inAonRam (a : Nat) : Bool := decide (0x100 ≤ a) && decide (a < 0x140)

/-- A class N range (Table 4.1). -/
def inClassN (a : Nat) : Bool := (decide (0x7500 ≤ a) && decide (a < 0x75C0)) || (decide (0x7600 ≤ a) && decide (a < 0x7640))

/-- A class V range (Table 4.1). -/
def inClassV (a : Nat) : Bool :=
  (decide (0x1000 ≤ a) && decide (a < 0x1600)) || (decide (0x2000 ≤ a) && decide (a < 0x7500)) ||
    (decide (0x7640 ≤ a) && decide (a < 0x7740)) || (decide (0x7800 ≤ a) && decide (a < 0x7C00))

/-- A mapped address (Table 4.1). -/
def mapped (a : Nat) : Bool := decide (a < 0x100) || inAonRam a || inClassN a || inClassV a

/-- Byte i of a word. -/
def byteOf (w : Word) (i : Nat) : Byte := BitVec.ofNat 8 (w.toNat / 256 ^ i)

/-- The byte a transaction reads at an address (R61, R62, R85). -/
def readByte (s : State) (a : Nat) : Byte :=
  if a < 0x100 then byteOf (txnWord s (a / 4)) (a % 4)
  else if !mapped a then 0
  else if inClassV a && earlyTxn s then 0
  else memByte s.mem a

/-- The addresses of a transfer, wrapping at 0xFFFF (R64). -/
def xferAddrs (a n : Nat) : List Nat := (List.range n).map (fun i => (a + i) % 65536)

/-- A read of n bytes: its data, the shadows captured, the unmapped flag, and the window bytes sent (R11, R61, R97). R17 gives no
atomicity across words; the model reads all of them at one instant, and commits a write at one (log entry 63). -/
def readBytes (header : BitVec 16) (a n : Nat) (s : State) : List Byte × State :=
  let as := xferAddrs a n
  let s := when (as.any (fun x => decide (x < 0x100) && (shadowIdx (x / 4)).isSome)) captureShadow s
  let s := when (as.any (fun x => !mapped x)) (flagErr 6 (some header)) s
  (as.map (readByte s), note (fun t => { t with sent := as.filter (fun x => decide (x < 0x100)) ++ t.sent }) s)

/-! ## The end of a transaction (R11, R69, R77, R110, R111) -/

/-- CAL_REJECT with its cause (R111). -/
def calReject (rej : Nat) (s : State) : State :=
  raise 15 { s with rtc := { s.rtc with ctl := setFld s.rtc.ctl 8 3 rej } }

/-- A time value is held pending (R100). -/
def holdTime (w : Word) (s : State) : State := { s with rtc := { s.rtc with timePend := some w } }

/-- The calendar words of a transaction are converted, or rejected, which leaves SEC and what is pending as it stands (R110,
R111). A pair that is taken replaces what the same transaction wrote to RTC_SEC; a rejected one does not (log entry 39). -/
def endCalendar (c0 c1 : Option Word) (s : State) : State :=
  match c0, c1 with
  | none, none => s
  | some a, some b =>
    match calendarSec a b (offsetOf s.rtc.offset) with
    | .inl rej => calReject rej s
    | .inr sec => holdTime sec s
  | _, _ => calReject 3 s

/-- A field of the snapshot of a transaction. -/
def Txn.fld (t : Txn) (k lo len : Nat) : Nat := Machine.fld (t.snap.getD k 0) lo len

/-- Whether byte a of the window was sent. -/
def Txn.has (t : Txn) (a : Nat) : Bool := t.sent.contains a

/-- RC fields read whole in a transaction without a framing or CRC error clear at its end: flags to what the transaction set
anew, counters by subtraction (R11). HIF_ERR clears only where the transaction set none of its flags (R77). -/
def clearRc (t : Txn) (s : State) : State :=
  if t.bad then s
  else
    { s with
      sys := { s.sys with earlyWr := if t.has 0x04 then t.early else s.sys.earlyWr }
      hif := { s.hif with
        err := if t.has 0x14 && t.newErr == 0 then 0 else s.hif.err
        errCount := if t.has 0x15 && t.newErr == 0 then s.hif.errCount - t.fld 5 8 8 else s.hif.errCount
        lastAddr := if t.has 0x16 && t.has 0x17 && t.newErr == 0 then 0 else s.hif.lastAddr }
      tt := { s.tt with protHit := if t.has 0x85 then t.prot else s.tt.protHit }
      res := { s.res with
        ovf := if t.has 0x96 then s.res.ovf - t.fld 37 16 8 else s.res.ovf
        settleDrop := if t.has 0x97 then s.res.settleDrop - t.fld 37 24 8 else s.res.settleDrop }
      evin := { s.evin with ovf := if t.has 0xB5 then s.evin.ovf - t.fld 45 8 8 else s.evin.ovf }
      ldg := { s.ldg with skipped := if t.has 0xD3 then s.ldg.skipped - t.fld 52 28 4 else s.ldg.skipped }
      cond := { s.cond with ovf := if t.has 0xEB then s.cond.ovf - t.fld 58 24 8 else s.cond.ovf } }

/-- A flag of HIF_ERR became set in the transaction (R77). -/
def Txn.errRose (t : Txn) : Bool := t.newErr &&& ~~~(t.snap.getD 5 0).setWidth 8 != 0

/-- The closing edge: the calendar, the RC clears, source 59 (R77), a HIF reset that is due (R69); the shadows are released. -/
def closeTxn (s : State) : State :=
  match s.hif.txn with
  | none => s
  | some t =>
    let u := raiseIf t.errRose 59 (clearRc t (endCalendar t.cal0 t.cal1 s))
    let u := { u with hif := { u.hif with txn := none, header := false } }
    if t.rst then hifReset u else u

end Sys2Proof.Machine
end

