-- ==== Sys2Proof/Machine/Commit.lean ====
section
/-! DEFINITION. The commit of a host write (R57 to R61, R85): each register word's effect, SRAM bytes with the seals and the
uninstalling they cause, and what falls at the end of the whole commit sequence. -/

namespace Sys2Proof.Machine

/-- One place of a commit: a whole register word, or a byte outside the window. -/
inductive Item where
  | reg (k : Nat) (w : Word)
  | byte (a : Nat) (b : Byte)
deriving DecidableEq, Repr

/-- The bytes of a transfer from address a in their order, window words taken whole (R57, R60); `held` are the bytes of the
present window word so far. -/
def itemsOf : Nat → List Byte → List Byte → List Item
  | _, _, [] => []
  | a, held, b :: r =>
    if a % 65536 < 0x100 then
      if held.length = 3 then .reg (a % 65536 / 4) (bytesWord (held ++ [b])) :: itemsOf (a + 1) [] r
      else itemsOf (a + 1) (held ++ [b]) r
    else .byte (a % 65536) b :: itemsOf (a + 1) [] r

/-- A transfer of n bytes covers a window word only in part (R60). -/
def partialWrite (a n : Nat) : Bool :=
  decide (0 < n) && ((decide (a < 0x100) && a % 4 != 0) || (decide ((a + n) % 65536 < 0x100) && (a + n) % 4 != 0))

/-! ## Register words -/

/-- PWR_CTL is written; a castle_mode of 0b11 leaves the field (Table 2.9). -/
def writePwrCtl (w : Word) (s : State) : State :=
  let v := if fld w 0 2 = 3 then setFld w 0 2 (fld s.pwr.ctl 0 2) else w
  { s with pwr := { s.pwr with ctl := maskIn 0x1137 s.pwr.ctl v } }

/-- PWR_TRICKLE is written: only under its key; 0b11 leaves i_sel or vterm (R46, Table 2.11). -/
def writeTrickle (w : Word) (s : State) : State :=
  if fld w 24 8 ≠ 0x5C then s
  else
    let v := if fld w 1 2 = 3 then setFld w 1 2 (fld s.pwr.trickle 1 2) else w
    let v := if fld w 4 2 = 3 then setFld v 4 2 (fld s.pwr.trickle 4 2) else v
    trickleEval { s with pwr := { s.pwr with trickle := v &&& 0x77 } }

/-- RTC_SEC is written: held pending (R100), and applied by an X32 edge that comes before a calendar pair of its transaction is complete
(R111; DESIGN CHOICE, log entry 39). -/
def writeSec (w : Word) (s : State) : State :=
  holdTime w (note (fun t => { t with timeSet := true }) s)

/-- RTC_CTL is written: halt, tc_en and tc_vbat, and a W1C bit (Table 5.4). -/
def writeRtcCtl (w : Word) (s : State) : State :=
  { s with rtc := { s.rtc with ctl := maskIn 0xD s.rtc.ctl w &&& ~~~(w &&& 2) } }

/-- RTC_SHIFT is written: held pending, withdrawn by 0, or rejected (R102). -/
def writeShift (v : BitVec 16) (s : State) : State :=
  if v = 0x8000 ∨ bitOf s.rtc.ctl 0 ∨ !s.rtc.started then calReject 4 s
  else { s with rtc := { s.rtc with shiftPend := if v = 0 then none else some v, shiftShown := v != 0 } }

/-- RTC_LOCAL is written: offset and dst, or a DST command (R112). -/
def writeLocal (w : Word) (s : State) : State :=
  let o := offsetOf s.rtc.offset
  match bitOf w 8, bitOf w 9 with
  | false, false => { s with rtc := { s.rtc with offset := BitVec.ofNat 7 (fld w 0 7), dst := bitOf w 7 } }
  | true, false =>
    if !s.rtc.dst && decide (o ≤ 59) then { s with rtc := { s.rtc with offset := s.rtc.offset + 4, dst := true } }
    else calReject 5 s
  | false, true =>
    if s.rtc.dst && decide (-60 ≤ o) then { s with rtc := { s.rtc with offset := s.rtc.offset - 4, dst := false } }
    else calReject 5 s
  | true, true => calReject 5 s

/-- TT_CTL is written: en stays 0 without an active table (R197); en written 0 drops the queued trigger and ends a free run
(R201, R205), and from then on port_en applies at once (R315). -/
def writeTtCtl (w : Word) (s : State) : State :=
  let on_ := bitOf w 0 && s.tt.activeValid
  let v := setFld (w &&& 0xF) 0 1 on_.toNat
  let was := ttEn s
  let t := { s with tt := { s.tt with
    ctl := v
    queued := if on_ then s.tt.queued else none
    freeRun := s.tt.freeRun && on_
    await := if on_ then s.tt.await else s.tt.await.filter (fun a => !a.cont) } }
  if was && !on_ then applyPortEn (s.afe.ctl.setWidth 4) t else t

/-- A ring's tail takes a value unless the count would exceed its size (R214, R251, R337). -/
def tailOk (head tail size m : Nat) : Bool := decide ((head + m - tail % m) % m ≤ size)

/-- OUT_AOUT_CODE is written: code and staged together (R268). -/
def writeAoutCode (w : Word) (s : State) : State :=
  applyCode .host (w.setWidth 16) { s with out := { s.out with staged := BitVec.ofNat 16 (fld w 16 16) } }

/-- W1C of latched sources: one raised in the commit's qtick, or ktick, stays (R12, R254); the others leave the served set
(R259). -/
def clearSources (b : BitVec 64) (s : State) : State :=
  trimServed { s with evt := { s.evt with stat := s.evt.stat &&& ~~~(b &&& ~~~keptNow s) } }

/-- The effect of a committed register word but for what waits for the end of the commit sequence (R10, R13). -/
def regWrite (k : Nat) (w : Word) (s : State) : State :=
  match k with
  | 3 => { s with sys := { s.sys with cause := s.sys.cause &&& ~~~(w.setWidth 11 &&& ~~~causeKept s) } }
  | 4 => note (fun t => { t with rst := t.rst || bitOf w 8 }) { s with hif := { s.hif with crcEn := bitOf w 0 } }
  | 6 => writePwrCtl w s
  | 7 => { s with pwr := { s.pwr with clearPend := s.pwr.clearPend || bitOf w 16, aonCold := s.pwr.aonCold && !bitOf w 18 } }
  | 8 => writeTrickle w s
  | 11 => writeSec w s
  | 13 => writeRtcCtl w s
  | 14 => writeShift (w.setWidth 16) s
  | 15 => note (fun t => { t with cal0 := some w }) s
  | 16 => note (fun t => { t with cal1 := some w }) s
  | 17 => writeLocal w (note (fun t => { t with timeSet := true }) s)
  | 18 => { s with rtc := { s.rtc with trim := w.setWidth 12 } }
  | 19 => { s with alm := { s.alm with alm0 := w } }
  | 20 => { s with alm := { s.alm with alm1 := w } }
  | 21 => { s with alm := { s.alm with alctl := maskIn 0x1FFF1FFF s.alm.alctl w } }
  | 22 => { s with alm := { s.alm with loadPend := some (w.setWidth 24) } }
  | 23 => { s with alm := { s.alm with cdctl := maskIn 0xFFFFFF1F s.alm.cdctl w } }
  | 24 => writeClkSrc w s
  | 25 => writeClkPlan w s
  | 28 => { s with clk := { s.clk with limits := w &&& 0xFFFFFF0F } }
  | 29 => copySpread { s with clk := { s.clk with spread := w &&& 0xFFFF01F3 } }
  | 30 => writeAfeCtl w s
  | 31 => { s with afe := { s.afe with diag := s.afe.diag &&& ~~~(w.setWidth 22 &&& ~~~diagNow s) } }
  | 32 => writeTtCtl w s
  | 35 => { s with tt := { s.tt with startSec := w } }
  | 36 => { s with tt := { s.tt with startFrac := w &&& 0xFFFE0000 } }
  | 38 => { s with res := { s.res with
      tail := if tailOk s.res.head.toNat (fld w 0 9) 256 512 then w.setWidth 9 else s.res.tail } }
  | 39 => { s with res := { s.res with cfg := w &&& 0xFF01 } }
  | 40 => clearSources (w.setWidth 64) s
  | 41 => clearSources (w.setWidth 64 <<< 32) s
  | 42 => writeMask0 w s
  | 43 => writeMask1 w s
  | 44 => writeIncfg w s
  | 46 => { s with evin := { s.evin with
      tail := if tailOk s.evin.head.toNat (fld w 0 7) 64 128 then w.setWidth 7 else s.evin.tail } }
  | 47 => writeAoutCode w s
  | 48 => setAoutCfg (w &&& 0xFFFF007F) s
  | 49 => restartGen (w &&& 0xFFFFFFF3) s
  | 50 => { s with out := { s.out with
      openLatch := s.out.openLatch && (!bitOf w 3 || isNow 60 s), recBad := s.out.recBad && (!bitOf w 4 || isNow 61 s) } }
  | 51 => writeLdgCtl w s
  | 52 => { s with ldg := { s.ldg with wfail := s.ldg.wfail && (!bitOf w 23 || s.ldg.wfailAt.any (isQtick · s)) } }
  | 53 => { s with nv := { s.nv with wear := s.nv.wear && (!bitOf w 25 || isNow 48 s), unc := s.nv.unc && (!bitOf w 26 || isNow 49 s) } }
  | 54 => { s with cond := { s.cond with arg0 := w } }
  | 55 => { s with cond := { s.cond with arg1 := w } }
  | 56 => { s with cond := { s.cond with arg2 := w } }
  | 59 => { s with cond := { s.cond with
      tail := if tailOk s.cond.head.toNat (fld w 0 5) 16 32 then w.setWidth 5 else s.cond.tail } }
  | _ => s

/-! ## SRAM bytes (R57, R173, R188, R244) -/

/-- The table whose range holds an address. -/
def tableAt (a : Nat) : Option Bool :=
  if 0x2000 ≤ a ∧ a < 0x3000 then some false else if 0x3000 ≤ a ∧ a < 0x4000 then some true else none

/-- A byte of a timetable range: discarded while its table is active and enabled, else it uninstalls the table (R188). -/
def tableByte (b : Bool) (a : Nat) (v : Byte) (s : State) : State :=
  if s.tt.activeValid && s.tt.active == b && ttEn s then
    note (fun t => { t with prot := true }) { s with tt := { s.tt with protHit := true } }
  else store a [v] (uninstall b s)

/-- A byte of the roster; byte 31 of a descriptor seals it (R173, R174). -/
def rosterByte (a : Nat) (v : Byte) (s : State) : State :=
  when (a % 32 == 31) (sealNow (BitVec.ofNat 5 ((a - 0x1000) / 32))) (store a [v] s)

/-- A byte of a state-machine table returns its input to state 0 (R244). -/
def smByte (a : Nat) (v : Byte) (s : State) : State :=
  store a [v] { s with evin := { s.evin with st := s.evin.st.set ((a - 0x7500) / 32) 0 } }

/-- A committed byte outside the window; unmapped bytes are ignored (R61). -/
def byteWrite (a : Nat) (v : Byte) (s : State) : State :=
  if !mapped a || decide (a < 0x100) then s
  else
    match tableAt a with
    | some b => tableByte b a v s
    | none =>
      if 0x1000 ≤ a ∧ a < 0x1400 then rosterByte a v s
      else if 0x7500 ≤ a ∧ a < 0x75C0 then smByte a v s
      else store a [v] s

/-! ## Before main_ready (R85) -/

/-- A register whose every field a transaction before main_ready may write: class A and H, SYS_CTL, SYS_RESETCAUSE, and the
reserved addresses. -/
def earlyOk (k : Nat) : Bool :=
  [2, 3, 4, 5, 9, 10, 11, 12, 13, 15, 16, 17, 18, 19, 20, 21, 22, 23, 61, 62, 63].contains k

/-- The part of a word that commits before main_ready in a register with other classes as well. -/
def earlyWord (k : Nat) (w : Word) (s : State) : Option Word :=
  match k with
  | 6 => some (maskIn 0x1037 s.pwr.ctl w)
  | 7 => some w
  | 8 => some w
  | 40 => some (w &&& 0xFF00)
  | _ => none

/-- A write was discarded: SYS_STAT.early_wr. -/
def noteEarly (s : State) : State :=
  note (fun t => { t with early := true }) { s with sys := { s.sys with earlyWr := true } }

/-- One place of a commit. -/
def commitItem (early : Bool) (i : Item) (s : State) : State :=
  match i with
  | .reg k w =>
    if !early || earlyOk k then regWrite k w s
    else match earlyWord k w s with
      | some v => regWrite k v (noteEarly s)
      | none => noteEarly s
  | .byte a b =>
    if !early || inAonRam a || !mapped a then byteWrite a b s else noteEarly s

/-! ## The end of the commit sequence -/

/-- The words a commit sequence wrote whole. -/
def wordsIn (early : Bool) (is : List Item) : List (Nat × Word) :=
  is.filterMap (fun i => match i with
    | .reg k w => if !early || earlyOk k then some (k, w) else none
    | .byte _ _ => none)

/-- A commit sequence wrote one of these registers. -/
def wrote (ws : List (Nat × Word)) (ks : List Nat) : Bool := ws.any (fun x => ks.contains x.1)

/-- The last word written to a register. -/
def lastWord (ws : List (Nat × Word)) (k : Nat) : Option Word := ((ws.filter (fun x => x.1 == k)).map (fun x => x.2)).getLast?

/-- Commit checks arm (R116, R217). -/
def armChecks (ws : List (Nat × Word)) (s : State) : State :=
  let al := wrote ws [19, 20, 21]
  { s with
    alm := { s.alm with
      chk0 := s.alm.chk0 || (al && bitOf s.alm.alctl 0), chk1 := s.alm.chk1 || (al && bitOf s.alm.alctl 16) }
    tt := { s.tt with startChk := s.tt.startChk || (wrote ws [32, 35, 36] && bitOf s.tt.ctl 3) } }

/-- A write of CLK_SRC or CLK_PLAN restarts acquisition at the end of the commit, once (R134). -/
def clockEnd (ws : List (Nat × Word)) (s : State) : State :=
  match wrote ws [24], wrote ws [25] with
  | true, true => restartClock .clkBoth s
  | true, false => restartClock .clkSrc s
  | false, true => restartClock .clkPlan s
  | false, false => s

/-- TT_KICK.kick = 1 is one asynchronous trigger (R218): it registers at the end of the commit, together with the changes that the
fast filters confirm for its qtick; its own alignment edge is the first HF rising edge from then on (Table 10.6). -/
def kick (s : State) : State :=
  registerAt { momentAt (qtickAt s s.clk.hf) s with kt := s.clk.hf + 32 } []
    [{ source := 46, stamp := nowStamp s, detail := 0, log := false, trig := some (11, nowStamp s) }] s

/-- CMD_OP submits one command, with the arguments as they stand (R330). -/
def submitWord (w : Word) (s : State) : State :=
  submit { op := fld w 0 6, tag := BitVec.ofNat 8 (fld w 8 8), a0 := s.cond.arg0, a1 := s.cond.arg1, a2 := s.cond.arg2,
           auto := false } s

/-- SYS_CTL acts under its key; with both bits the soft reset alone (R93). -/
def sysControl (w : Word) (s : State) : State :=
  if fld w 0 8 ≠ 0xA5 then s
  else if bitOf w 8 then softReset s
  else if bitOf w 9 then measReset s.clk.hf s
  else s

/-- What falls at the end of a commit sequence, and at once after it. -/
def commitEnd (ws : List (Nat × Word)) (s : State) : State :=
  let s := clockEnd ws (armChecks ws s)
  let s := if wrote ws [51] then ledgerOff s else s
  let s := match lastWord ws 34 with | some w => if bitOf w 0 then kick s else s | none => s
  let s := match lastWord ws 57 with | some w => submitWord w s | none => s
  let s := match lastWord ws 2 with | some w => sysControl w s | none => s
  if wrote ws [2, 24, 25, 34, 51, 57] then settle s else s

/-- A byte of the correction-table store. -/
def Item.inStore : Item → Bool
  | .reg _ _ => false
  | .byte a _ => decide (0x4000 ≤ a) && decide (a < 0x6000)

/-- A byte of the output-format entries. -/
def Item.inFormats : Item → Bool
  | .reg _ _ => false
  | .byte a _ => decide (0x7640 ≤ a) && decide (a < 0x7740)

/-- A write whose effect at the end of the commit cuts or halts what MEAS runs: SYS_CTL, CLK_SRC or CLK_PLAN. -/
def Item.actsOnMeas : Item → Bool
  | .reg k _ => k == 2 || k == 24 || k == 25
  | .byte _ _ => false

/-- The commit sequence of an accepted transfer (R57, R225, R234). A code that such a cut applies shares the commit's qtick with the
host's code of the same commit alone (R269; log entry 80). -/
def commit (is : List Item) (s : State) : State :=
  let early := earlyTxn s
  let t := forAll is (commitItem early) (when (is.any Item.actsOnMeas) newWriter s)
  commitEnd (wordsIn early is)
    (when (is.any Item.inFormats) (raceFormats s.mem) (when (is.any Item.inStore) (raceTables s.mem) t))

/-! ## Transfers -/

/-- HIF_ERR flags that reject a write transfer for its extent: long, partial (R59, R60). -/
def extentErrs (a n : Nat) : List Nat := (if 256 < n then [3] else []) ++ (if partialWrite a n then [4] else [])

/-- A transfer is rejected with these flags; with none it is not (R66). -/
def reject (es : List Nat) (addr : Option (BitVec 16)) (s : State) : State :=
  countRejected (forAll es (fun b => flagErr b addr) s)

/-- A write transfer that passed its framing: it commits, or is rejected for its extent; unmapped bytes of a write that commits
are flagged (R61), those of a rejected one are not written and not flagged (log entry 64). -/
def writeBytes (addr : BitVec 16) (data : List Byte) (s : State) : State :=
  let es := extentErrs addr.toNat data.length
  if es ≠ [] then reject es (some addr) s
  else
    let s := when ((xferAddrs addr.toNat data.length).any (fun x => !mapped x)) (flagErr 6 (some addr)) s
    commit (itemsOf addr.toNat [] data) s

/-- The address pointer takes a value (R70). -/
def setPtr (a : BitVec 16) (s : State) : State := { s with hif := { s.hif with ptr := a } }

/-! ## The host port (R15, R35, R63, R84) -/

/-- The host port responds: VDDIO present, the main domain on and out of main reset, which a soft reset leaves it (R81). -/
def portOpen (s : State) : Bool :=
  s.pins.vddioOk && s.pwr.mainOn && s.pwr.aonOn && !s.pwr.ship && (mainUp s || (s.sys.phase == .held && s.sys.soft))

/-- It hears what the host sends: in I3C mode not after ENTHDR, until the exit pattern (R72). -/
def portHears (s : State) : Bool := portOpen s && !(s.hif.i3c && s.hif.hdr)

/-- A write transfer has moved the bus: in I2C and I3C mode the address pointer stands at a, behind its last byte where it commits and at
its header address where it is rejected, and the idle kticks start again (R70, R75). -/
def busMoved (a : Nat) (s : State) : State :=
  { s with hif := { s.hif with
      ptr := if s.hif.i3c then BitVec.ofNat 16 a else s.hif.ptr, busIdle := if s.hif.i3c then 0 else s.hif.busIdle } }

/-- A transaction of its own: what stood open is closed first. -/
def ownTxn (a : Nat) (f : State → State) (s : State) : State :=
  if portHears s then closeTxn (f (openTxn (busMoved a (closeTxn s)))) else s

/-- The address behind a place of a commit. -/
def Item.behind : Item → Nat
  | .reg k _ => 4 * k + 4
  | .byte a _ => a + 1

/-- A committed write of these places in a transaction of its own, where the host port responds. -/
def hostItems (is : List Item) (s : State) : State :=
  ownTxn ((is.getLast?.map Item.behind).getD s.hif.ptr.toNat) (commit is) s

/-- A committed write of one register. -/
def hostWord (k : Nat) (w : Word) (s : State) : State := hostItems [.reg k w] s

/-- A write transfer of bytes in a transaction of its own. -/
def hostBytes (a : Nat) (data : List Byte) (s : State) : State :=
  ownTxn (if extentErrs a data.length = [] then a + data.length else a) (writeBytes (BitVec.ofNat 16 a) data) s

end Sys2Proof.Machine
end

