-- ==== Sys2Proof/Machine/HostPort.lean ====
section
/-! DEFINITION. The host port on its wires: SPI frames with their status byte and optional CRC-8 (R64 to R69), I2C and I3C
transfers (R70 to R72), the common commands (R72 to R74), the target reset (R76) and the in-band interrupt (R75, R259). -/

namespace Sys2Proof.Machine

/-! ## SPI frames -/

/-- The port is in SPI mode and responds (R31, R63). -/
def spiOpen (s : State) : Bool := portOpen s && !s.hif.i3c

/-- What the device drove in a transfer. -/
def answer (bs : List Byte) (s : State) : State := { s with hif := { s.hif with reply := bs } }

/-- The header address of a frame. -/
def headerAddr (bytes : List Byte) : BitVec 16 := BitVec.ofNat 16 ((byteAt bytes 1).toNat * 256 + (byteAt bytes 2).toNat)

/-- The flag bits for a frame that is not whole bytes. -/
def bitsErr (extra : BitVec 3) : List Nat := if extra = 0 then [] else [1]

/-- SDO of a frame of n bytes that sends nothing but its status byte. -/
def statusOnly (n : Nat) (st : Byte) : List Byte := (st :: List.replicate n 0).take n

/-- A write frame with data bytes that passed as far as its framing errors: rejected with every flag that applies, or
committed (R57, R59, R60, R66). -/
def spiWrite (errs : List Nat) (addr : BitVec 16) (data : List Byte) (s : State) : State :=
  if errs = [] then writeBytes addr data s
  else reject (errs ++ extentErrs addr.toNat data.length) (some addr) s

/-- A write frame (Tables 3.2 and 3.4). A CRC is checked over whole frames only (log entry 64). -/
def spiWriteFrame (bytes : List Byte) (extra : BitVec 3) (s : State) : State :=
  let a := headerAddr bytes
  if s.hif.crcEn then
    spiWrite (bitsErr extra ++ if extra = 0 ∧ crc8 0 bytes ≠ 0 then [0] else []) a ((bytes.drop 3).dropLast) s
  else spiWrite (bitsErr extra) a (bytes.drop 3) s

/-- Groups of four data bytes with the running CRC after each; complemented where the header CRC was wrong (Table 3.4). -/
def crcGroups (inv : Bool) : Nat → Byte → List Byte → List Byte
  | 0, _, _ => []
  | g + 1, c, d =>
    let q := d.take 4
    let c' := crc8 c q
    q ++ [if inv then ~~~c' else c'] ++ crcGroups inv g c' (d.drop 4)

/-- A read frame without CRC: status, three zeros and the data (Table 3.2). -/
def spiReadPlain (bytes : List Byte) (extra : BitVec 3) (s : State) : State :=
  let a := headerAddr bytes
  let r := readBytes a a.toNat (bytes.length - 4) s
  let t := answer ([statusByte s, 0, 0, 0] ++ r.1) r.2
  if extra = 0 then t else reject (bitsErr extra) (some a) t

/-- A read frame under CRC (R67); k data bytes are sent. -/
def spiReadCrc (bytes : List Byte) (extra : BitVec 3) (s : State) : State :=
  let a := headerAddr bytes
  let n := bytes.length
  let g := (n - 5 + 4) / 5
  let k := 4 * ((n - 5) / 5) + min 4 ((n - 5) % 5)
  let hdr := bytes.take 3
  let good := crc8 0 hdr == byteAt bytes 3
  let odd := extra != 0 || n < 10 || n % 5 != 0
  let r := if good then readBytes a a.toNat k s else (List.replicate k 0, s)
  let t := answer (([statusByte s, 0, 0, 0, 0] ++ crcGroups (!good) g (crc8 0 hdr) r.1).take n) r.2
  let es := (if odd then [1] else []) ++ (if good then [] else [0])
  if es = [] then t else reject es (some a) t

/-- A read frame. -/
def spiReadFrame (bytes : List Byte) (extra : BitVec 3) (s : State) : State :=
  if s.hif.crcEn then spiReadCrc bytes extra s else spiReadPlain bytes extra s

/-- A frame of at least 64 one-bits, a multiple of 8 (R69). -/
def resetFrame (bytes : List Byte) (extra : BitVec 3) : Bool :=
  extra == 0 && decide (8 ≤ bytes.length) && bytes.all (· == 0xFF)

/-- What an SPI frame does between its opening and closing edges. A frame cut before its two address bytes are whole has no header
address, and last_addr keeps its value (R77 gives none; log entry 64). Table 3.4 gives a frame with an unknown command byte no
check: it sets cmd and no crc, also under crc_en (log entry 64). -/
def spiBody (bytes : List Byte) (extra : BitVec 3) (s : State) : State :=
  let n := bytes.length
  let st := statusByte s
  if resetFrame bytes extra then answer (statusOnly n st) (note (fun t => { t with rst := true }) s)
  else if n < 4 then
    if extra = 0 then answer (statusOnly n st) s
    else reject [1] (if n = 3 then some (headerAddr bytes) else none) (answer (statusOnly n st) s)
  else if byteAt bytes 0 = 0x3C then spiWriteFrame bytes extra (answer (statusOnly n st) s)
  else if byteAt bytes 0 = 0x5A then spiReadFrame bytes extra s
  else reject (bitsErr extra ++ [2]) (some (headerAddr bytes)) (answer (statusOnly n st) s)

/-- An SPI frame of whole bytes and `extra` bits more, from CSN fall to CSN rise. -/
def spiFrame (bytes : List Byte) (extra : BitVec 3) (s : State) : State :=
  if !spiOpen s || (bytes.isEmpty && extra == 0) then s else closeTxn (spiBody bytes extra (openTxn (closeTxn s)))

/-- A CSN fall inside the commit time of a write (R58): the frame counts as rejected and names no header address. -/
def spiBusy (s : State) : State :=
  if !spiOpen s then s
  else
    raiseIf (!s.hif.err.getLsbD 5) 59 { s with hif := { s.hif with
      err := s.hif.err ||| 0x20, errCount := satAdd 255 s.hif.errCount 1, reply := [] } }

/-! ## I2C and I3C transfers (R55, R70, R71) -/

/-- The port is in I3C/I2C mode and follows the bus. -/
def busOpen (s : State) : Bool := portOpen s && s.hif.i3c && !s.hif.hdr

/-- The static address: the strap sampled high gives 0x2D (R31). -/
def staticAddr (s : State) : BitVec 7 := if s.hif.addrHi then 0x2D else 0x2C

/-- It responds at its static address, and at no other, while it has no dynamic one (R70, R71). -/
def atStatic (dev : BitVec 7) (s : State) : Bool := s.hif.dynAddr == 0 && dev == staticAddr s

/-- It responds at its dynamic address. -/
def atDynamic (dev : BitVec 7) (s : State) : Bool := s.hif.dynAddr != 0 && dev == s.hif.dynAddr

/-- What the device acknowledged in a transfer. -/
def acked (bs : List Bool) (s : State) : State := { s with hif := { s.hif with acks := bs } }

/-- A START opens a transaction, whichever device it addresses; a repeated START goes on with the open one and takes no new snapshot
(R55). The bus is no longer idle. -/
def beginXfer (sr : Bool) (s : State) : State :=
  let t := if sr && s.hif.txn.isSome then s else openTxn (closeTxn s)
  { t with hif := { t.hif with busIdle := 0, header := false } }


/-- A transfer on the bus at its moment, between its START and, where one ends it, its STOP (Table 3.1). -/
def onBus (x : Xfer) (f : State → State) (s : State) : State :=
  if !busOpen s then s
  else
    let t := f (beginXfer x.sr (advance x.t s))
    if x.stop then closeTxn t else t

/-- A common command at the present moment, between its START or repeated START and its STOP or the repeated START after it (R55). -/
def onCcc (b : Ends) (f : State → State) (s : State) : State := onBus ⟨b.sr, b.stop, false, s.clk.hf⟩ f s

/-- A transfer that addresses this device under a condition; otherwise nobody answers. -/
def addressed (c : State → Bool) (f : State → State) (s : State) : State :=
  if c s then f s else answer [] (acked [false] s)


/-- The header address of a write transfer, where both of its bytes came whole. -/
def busAddr (bytes : List Byte) : Option (BitVec 16) :=
  match bytes with | h :: l :: _ => some (BitVec.ofNat 16 (h.toNat * 256 + l.toNat)) | _ => none

/-- A write transfer: the pointer, then the data, unless framing errors or its extent reject it (R59, R70). A transfer that ends
inside its header address has none to put into the pointer (log entry 64). -/
def busWrite (errs : List Nat) (bytes : List Byte) (s : State) : State :=
  match busAddr bytes with
  | none => if errs = [] then s else reject errs none s
  | some addr =>
    let data := bytes.drop 2
    let es := errs ++ extentErrs addr.toNat data.length
    if es ≠ [] then setPtr addr (reject es (some addr) s)
    else if data.isEmpty then setPtr addr s
    else writeBytes addr data (setPtr (addr + BitVec.ofNat 16 data.length) s)

/-- A read transfer from the pointer (R70). It has no header address: last_addr of unmapped bytes in it is the pointer it began at
(log entry 64). -/
def busRead (len : Nat) (s : State) : State :=
  let a := s.hif.ptr
  let r := readBytes a a.toNat len s
  answer r.1 (setPtr (a + BitVec.ofNat 16 len) r.2)

/-- What the device acknowledges of an I2C write: its address and every byte but the 257th of the data and what follows it (R59,
R70). -/
def writeAcks (bytes : List Byte) : List Bool := true :: (List.range bytes.length).map (fun i => decide (i < 258))

/-- An I2C write transfer of the whole bytes after the device address; `cut` says that a START or STOP cut one more (R70). -/
def i2cWrite (dev : BitVec 7) (bytes : List Byte) (x : Xfer) (s : State) : State :=
  onBus x (addressed (atStatic dev) (fun u =>
    acked (writeAcks bytes) (answer [] (busWrite (if x.cut then [1] else []) bytes u)))) s

/-- A read transfer of so many whole bytes; one that a START or STOP cuts inside a byte is a rejected frame (Table 3.8). -/
def readXfer (len : Nat) (cut : Bool) (s : State) : State :=
  acked [true] (if cut then reject [1] (some s.hif.ptr) (busRead len s) else busRead len s)

/-- An I2C read transfer. -/
def i2cRead (dev : BitVec 7) (len : Nat) (x : Xfer) (s : State) : State :=
  onBus x (addressed (atStatic dev) (readXfer len x.cut)) s

/-- A parity error sets the protocol-error flag (R74). -/
def parityMark (ok : Bool) (s : State) : State := { s with hif := { s.hif with protoErr := s.hif.protoErr || !ok } }

/-- An I3C private write; a parity error rejects it and sets the protocol-error flag (R72, R74). -/
def i3cWrite (dev : BitVec 7) (bytes : List Byte) (parityOk : Bool) (x : Xfer) (s : State) : State :=
  onBus x (addressed (atDynamic dev) (fun u =>
    parityMark parityOk (acked [true] (answer []
      (busWrite ((if x.cut then [1] else []) ++ if parityOk then [] else [7]) bytes u))))) s

/-- An I3C private read. -/
def i3cRead (dev : BitVec 7) (len : Nat) (x : Xfer) (s : State) : State :=
  onBus x (addressed (atDynamic dev) (readXfer len x.cut)) s

/-! ## Common commands (R71 to R74) -/

/-- The broadcast address 0x7E is acknowledged and switches the spike filter off (R71). -/
def broadcastAddress (s : State) : State :=
  answer [] (acked [true] { s with hif := { s.hif with filtOn := false } })

/-- I3C_BROADCAST_ADDRESS: the broadcast address, in whose header after a START a request may begin until the next X32 edge (R75, log entry
65). Without its STOP its transaction stays open for the transfers that a repeated START adds. -/
def broadcastHeader (b : Ends) (s : State) : State :=
  onCcc b (fun u => let t := broadcastAddress u; { t with hif := { t.hif with header := !b.sr } }) s

/-- A broadcast common command. -/
def broadcastCcc (b : Ends) (f : State → State) (s : State) : State := onCcc b (fun u => f (broadcastAddress u)) s

/-- A direct common command: the broadcast address, then the device's own under a condition. -/
def directCcc (b : Ends) (c : State → Bool) (f : State → State) (s : State) : State :=
  onCcc b (fun u =>
    let t := broadcastAddress u
    if c t then f (acked [true, true] t) else acked [true, false] t) s

/-- A common command in broadcast form, or in direct form to a device. -/
def eitherCcc (dev : Option (BitVec 7)) (b : Ends) (f : State → State) (s : State) : State :=
  match dev with
  | none => broadcastCcc b f s
  | some d => directCcc b (atDynamic d) f s

/-- A direct common command to this device: it has a dynamic address (R72). -/
def hasAddress (s : State) : Bool := s.hif.dynAddr != 0

/-- BCR and DCR (Table 3.6). -/
def bcr : Byte := 0x06
def dcr : Byte := 0x00

/-- The PID, most significant byte first (Table 3.6). -/
def pidBytes (s : State) : List Byte :=
  (leBytes 6 (0x0391 * 2 ^ 33 + 0x4832 * 2 ^ 16 + s.hif.addrHi.toNat * 2 ^ 12 + 1)).reverse

/-- A dynamic address is taken by a device without one. -/
def takeAddress (a : BitVec 7) (s : State) : State := { s with hif := { s.hif with dynAddr := a } }

/-- ENTDAA: a device without a dynamic address arbitrates with PID, BCR and DCR and takes the address. -/
def arbitrate (a : BitVec 7) (s : State) : State :=
  if s.hif.dynAddr == 0 then takeAddress a (answer (pidBytes s ++ [bcr, dcr]) s) else s

/-- ENTDAA on the bus. -/
def entdaa (a : BitVec 7) (b : Ends) (s : State) : State := broadcastCcc b (arbitrate a) s

/-- SETDASA to the static address. -/
def setdasa (x : Dasa) (b : Ends) (s : State) : State := directCcc b (atStatic x.dev) (takeAddress x.addr) s

/-- RSTDAA: the address is dropped, the spike filter is on again, and no request stands. -/
def rstdaa (b : Ends) (s : State) : State :=
  broadcastCcc b (fun u => { u with hif := { u.hif with dynAddr := 0, filtOn := true, ibiReq := false } }) s

/-- ENEC and DISEC with ENINT (R72, R75). -/
def setIbi (i : Ibis) (on_ : Bool) (b : Ends) (s : State) : State :=
  eitherCcc i.dev b (fun u => { u with hif := { u.hif with
    ibiEn := if i.enint then on_ else u.hif.ibiEn, ibiReq := u.hif.ibiReq && (on_ || !i.enint) } }) s

/-- A direct read command answers bytes. -/
def directAnswer (b : Ends) (bs : State → List Byte) (s : State) : State := directCcc b hasAddress (fun u => answer (bs u) u) s

/-- The pending unmasked sources of the snapshot (R55, R74). -/
def snapPending (s : State) : BitVec 64 :=
  match s.hif.txn with
  | some t =>
    (((t.snap.getD 40 0).setWidth 64 ||| ((t.snap.getD 41 0).setWidth 64 <<< 32)) &&&
      ~~~((t.snap.getD 42 0).setWidth 64 ||| ((t.snap.getD 43 0).setWidth 64 <<< 32)))
  | none => pendingSet s

/-- The protocol-error flag of the snapshot (R55, R74). -/
def snapProto (s : State) : Bool := match s.hif.txn with | some t => t.proto | none => s.hif.protoErr

/-- The status byte of the snapshot. -/
def snapStatus (s : State) : Byte := match s.hif.txn with | some t => t.status | none => statusByte s

/-- The two bytes of GETSTATUS (R74). -/
def statusBytes (s : State) : List Byte :=
  [snapStatus s, BitVec.ofNat 8 (32 * (snapProto s).toNat + min 15 (countOf (snapPending s)))]

/-- GETSTATUS: two bytes; the protocol-error flag that it reports clears, and a reset pattern before it does not count (R74, R76). -/
def getstatus (b : Ends) (s : State) : State :=
  directCcc b hasAddress (fun u =>
    let t := answer (statusBytes u) u
    { t with hif := { t.hif with protoErr := t.hif.protoErr && !snapProto u, patternSeen := false } }) s

/-- A direct common command to this device that is not acknowledged sets the protocol-error flag (R72, R74). -/
def unacknowledged (s : State) : State := acked [true, false] { s with hif := { s.hif with protoErr := true } }

/-- A direct common command outside Table 3.5. -/
def unacknowledgedCcc (b : Ends) (s : State) : State := directCcc b hasAddress unacknowledged s

/-- RSTACT: 0x00 or 0x01 arms the action; another byte is ignored, or not acknowledged in direct form (R72, R76). -/
def armAction (direct : Bool) (d : Byte) (s : State) : State :=
  if d = 0 ∨ d = 1 then { s with hif := { s.hif with armSoft := d == 1 } }
  else if direct then unacknowledged s
  else s

/-- RSTACT on the bus. -/
def rstact (dev : Option (BitVec 7)) (d : Byte) (b : Ends) (s : State) : State := eitherCcc dev b (armAction dev.isSome d) s

/-- A broadcast ENTHDR: the bus is ignored until the exit pattern (R72). -/
def enthdr (b : Ends) (s : State) : State := broadcastCcc b (fun u => { u with hif := { u.hif with hdr := true } }) s

/-- The HDR exit pattern, with the STOP that ends it. -/
def hdrExit (s : State) : State :=
  if !(portOpen s && s.hif.i3c) then s else closeTxn { s with hif := { s.hif with hdr := false, busIdle := 0 } }

/-- HIF_RESET: what stood open ends with its own effects (R11, R77), and the reset falls at that end (R69). -/
def hifResetRow (s : State) : State := if portHears s then hifReset (closeTxn s) else s

/-- The target reset pattern: the armed action, or 0x01 on a further pattern with no GETSTATUS between (R76). -/
def targetReset (s : State) : State :=
  if !busOpen s then s
  else
    let t := closeTxn s
    let u := if s.hif.armSoft || s.hif.patternSeen then rstactReset t else hifReset t
    { u with hif := { u.hif with patternSeen := true, busIdle := 0 } }

/-! ## The in-band interrupt (R75, R259) -/

/-- SCL and SDA have both been high for so many whole kticks: one more edge bounds them. -/
def idleFor (k : Nat) (s : State) : Bool := s.hif.txn.isNone && decide (k < s.hif.busIdle)

/-- The device may begin a request: in the address header after a controller's START at once; by driving SDA after a whole idle
ktick, and after a NACK only when the bus has been idle for 32 (R75, R259). A request that wins the header of another START is sent
as I3C_BROADCAST_ADDRESS and IBI_REQUEST (log entry 65). -/
def ibiWay (s : State) : Bool := s.hif.header || idleFor (if s.hif.nacked then 32 else 1) s

/-- A request begins; driving SDA low on an idle bus is a START (R55). -/
def ibiBegin (s : State) : State :=
  let t := if s.hif.header then s else beginXfer false s
  { t with hif := { t.hif with ibiReq := true } }

/-- A request begins where one is called for. -/
def ibiRequest (s : State) : State :=
  if busOpen s && ibiCalled s && !s.hif.ibiReq && ibiWay s then ibiBegin s else s

/-- A request is over, with a STOP, or with the repeated START of the row that follows (R55). -/
def ibiOver (stop : Bool) (s : State) : State :=
  let t := { s with hif := { s.hif with ibiReq := false, header := false, busIdle := 0 } }
  if stop then closeTxn t else t

/-- The controller ACKs: the lowest pending unmasked source is sent, and the served set becomes the pending set. -/
def ibiAck (stop : Bool) (s : State) : State :=
  if busOpen s && s.hif.ibiReq && ibiCalled s then
    ibiOver stop { s with hif := { s.hif with
      reply := [BitVec.ofNat 8 ((lowestOf (pendingSet s)).getD 0)], served := pendingSet s, sinceAck := some 0, nacked := false } }
  else s

/-- The controller NACKs: the served set stays; driving SDA waits for 32 idle kticks. -/
def ibiNack (stop : Bool) (s : State) : State :=
  if busOpen s && s.hif.ibiReq then ibiOver stop { s with hif := { s.hif with nacked := true } } else s

/-- The reminder is due. -/
def reminderDue (s : State) : Bool :=
  ibiEnabled s && pendingSet s != 0 && (match s.hif.sinceAck with | some k => decide (32768 ≤ k) | none => false)

/-- IBI_REMINDER: a request begins 32 768 kticks after the last ACK. -/
def ibiReminder (s : State) : State :=
  if busOpen s && reminderDue s && !s.hif.ibiReq && ibiWay s then ibiBegin s else s

end Sys2Proof.Machine
end

