-- ==== Sys2Proof/Machine/BusRows.lean ====
section
/-! DEFINITION. The host port's rows: frames, transfers, common commands and the in-band interrupt (03). -/

namespace Sys2Proof.Machine

/-- SPI_WRITE_FRAME (R57): the frame from CSN fall to CSN rise, at HF counter t. -/
def execSpiWriteFrame (bytes : List Byte) (extra : BitVec 3) (t : Nat) (s : State) : Host.Outcome State Fault Refusal :=
  .next (spiFrame bytes extra (advance t s))

/-- SPI_READ_FRAME (R62). -/
def execSpiReadFrame (bytes : List Byte) (extra : BitVec 3) (t : Nat) (s : State) : Host.Outcome State Fault Refusal :=
  .next (spiFrame bytes extra (advance t s))

/-- SPI_STATUS_POLL (R65). -/
def execSpiStatusPoll (bytes : List Byte) (extra : BitVec 3) (s : State) : Host.Outcome State Fault Refusal :=
  .next (spiFrame bytes extra s)

/-- SPI_FRAME_DURING_COMMIT (R58). -/
def execSpiFrameDuringCommit (s : State) : Host.Outcome State Fault Refusal := .next (spiBusy s)

/-- HIF_RESET (R69): at the end of the transaction that brings it, which what stood open gets its own effects of first. -/
def execHifReset (s : State) : Host.Outcome State Fault Refusal := .next (hifResetRow s)

/-- I2C_WRITE_TRANSFER (R70). -/
def execI2cWriteTransfer (sr : Bool) (dev : BitVec 7) (bytes : List Byte) (cut stop : Bool) (t : Nat) (s : State) :
    Host.Outcome State Fault Refusal := .next (i2cWrite dev bytes ⟨sr, stop, cut, t⟩ s)

/-- I2C_READ_TRANSFER (R70). -/
def execI2cReadTransfer (dev : BitVec 7) (len : Nat) (x : Xfer) (s : State) : Host.Outcome State Fault Refusal :=
  .next (i2cRead dev len x s)

/-- I3C_PRIVATE_WRITE (R57, R72). -/
def execI3cPrivateWrite (sr : Bool) (dev : BitVec 7) (bytes : List Byte) (f : Framing) (stop : Bool) (t : Nat) (s : State) :
    Host.Outcome State Fault Refusal := .next (i3cWrite dev bytes f.parityOk ⟨sr, stop, f.cut, t⟩ s)

/-- I3C_PRIVATE_READ (R62, R72). -/
def execI3cPrivateRead (dev : BitVec 7) (len : Nat) (x : Xfer) (s : State) : Host.Outcome State Fault Refusal :=
  .next (i3cRead dev len x s)

/-- I3C_BROADCAST_ADDRESS (R71). -/
def execI3cBroadcastAddress (s : State) (b : Ends := ⟨false, false⟩) : Host.Outcome State Fault Refusal := .next (broadcastHeader b s)

/-- ENTDAA (R72). -/
def execEntdaa (addr : BitVec 7) (s : State) (b : Ends := ⟨false, true⟩) : Host.Outcome State Fault Refusal := .next (entdaa addr b s)

/-- SETDASA (R72). -/
def execSetdasa (a : Dasa) (s : State) (b : Ends := ⟨false, true⟩) : Host.Outcome State Fault Refusal := .next (setdasa a b s)

/-- RSTDAA (R72). -/
def execRstdaa (s : State) (b : Ends := ⟨false, true⟩) : Host.Outcome State Fault Refusal := .next (rstdaa b s)

/-- ENEC (R72). -/
def execEnec (i : Ibis) (s : State) (b : Ends := ⟨false, true⟩) : Host.Outcome State Fault Refusal := .next (setIbi i true b s)

/-- DISEC (R72). -/
def execDisec (i : Ibis) (s : State) (b : Ends := ⟨false, true⟩) : Host.Outcome State Fault Refusal := .next (setIbi i false b s)

/-- GETPID (R73). -/
def execGetpid (s : State) (b : Ends := ⟨false, true⟩) : Host.Outcome State Fault Refusal := .next (directAnswer b pidBytes s)

/-- GETBCR (R73). -/
def execGetbcr (s : State) (b : Ends := ⟨false, true⟩) : Host.Outcome State Fault Refusal := .next (directAnswer b (fun _ => [bcr]) s)

/-- GETDCR (R73). -/
def execGetdcr (s : State) (b : Ends := ⟨false, true⟩) : Host.Outcome State Fault Refusal := .next (directAnswer b (fun _ => [dcr]) s)

/-- GETSTATUS (R74). -/
def execGetstatus (s : State) (b : Ends := ⟨false, true⟩) : Host.Outcome State Fault Refusal := .next (getstatus b s)

/-- RSTACT (R76). -/
def execRstact (dev : Option (BitVec 7)) (defining : Byte) (s : State) (b : Ends := ⟨false, true⟩) : Host.Outcome State Fault Refusal :=
  .next (rstact dev defining b s)

/-- ENTHDR (R72). -/
def execEnthdr (s : State) (b : Ends := ⟨false, true⟩) : Host.Outcome State Fault Refusal := .next (enthdr b s)

/-- HDR_EXIT (R72). -/
def execHdrExit (s : State) : Host.Outcome State Fault Refusal := .next (hdrExit s)

/-- UNACKNOWLEDGED_CCC (R72). -/
def execUnacknowledgedCcc (s : State) (b : Ends := ⟨false, true⟩) : Host.Outcome State Fault Refusal := .next (unacknowledgedCcc b s)

/-- TARGET_RESET_PATTERN (R76). -/
def execTargetResetPattern (s : State) : Host.Outcome State Fault Refusal := .next (targetReset s)

/-- IBI_REQUEST (R75, R259). -/
def execIbiRequest (s : State) : Host.Outcome State Fault Refusal := .next (ibiRequest s)

/-- IBI_ACK (R259). -/
def execIbiAck (s : State) (stop : Bool := true) : Host.Outcome State Fault Refusal := .next (ibiAck stop s)

/-- IBI_NACK (R259). -/
def execIbiNack (s : State) (stop : Bool := true) : Host.Outcome State Fault Refusal := .next (ibiNack stop s)

/-- IBI_REMINDER (R259). -/
def execIbiReminder (s : State) : Host.Outcome State Fault Refusal := .next (ibiReminder s)

end Sys2Proof.Machine
end

