-- ==== Sys2Proof/Machine/CommandRows.lean ====
section
/-! DEFINITION. The conductor's rows: each command once it has started, its start, the watchdog, holds and page operations (16 to 18). -/

namespace Sys2Proof.Machine

/-- LOAD_TT (R194). -/
def execLoadTt (t : Nat) (s : State) : Host.Outcome State Fault Refusal := .next (onStart 0x01 t loadTt s)

/-- SWITCH_TT (R195). -/
def execSwitchTt (t : Nat) (s : State) : Host.Outcome State Fault Refusal := .next (onStart 0x02 t switchTt s)

/-- DISCOVER (R322): its start with what the identification line answers, or the end of its hold with what that measured. -/
def execDiscover (teds : List Teds) (d : DiscData) (t : Nat) (s : State) : Host.Outcome State Fault Refusal :=
  .next (discover teds d t s)

/-- SLOT_BIND (R327). -/
def execSlotBind (t : Nat) (s : State) : Host.Outcome State Fault Refusal := .next (onStart 0x04 t slotBind s)

/-- CAL_TDC (R309). -/
def execCalTdc (t : Nat) (s : State) : Host.Outcome State Fault Refusal := .next (onStart 0x05 t calStart s)

/-- CAL_MOD (R310). -/
def execCalMod (t : Nat) (s : State) : Host.Outcome State Fault Refusal := .next (onStart 0x06 t calStart s)

/-- CAL_EVT (R311). -/
def execCalEvt (t : Nat) (s : State) : Host.Outcome State Fault Refusal := .next (onStart 0x07 t calStart s)

/-- NV_READ (R302). -/
def execNvRead (t : Nat) (s : State) : Host.Outcome State Fault Refusal := .next (onStart 0x08 t nvRead s)

/-- NV_WRITE (R302). -/
def execNvWrite (t : Nat) (s : State) : Host.Outcome State Fault Refusal := .next (onStart 0x09 t nvWrite s)

/-- NV_CLEAR (R299). -/
def execNvClear (t : Nat) (s : State) : Host.Outcome State Fault Refusal := .next (onStart 0x0A t nvClear s)

/-- NV_SUSPEND (R300). -/
def execNvSuspend (t : Nat) (s : State) : Host.Outcome State Fault Refusal := .next (nvSuspend t s)

/-- NV_RESUME (R301). -/
def execNvResume (t : Nat) (s : State) : Host.Outcome State Fault Refusal := .next (onStart 0x0C t nvResume s)

/-- NV_ABANDON (R301). -/
def execNvAbandon (t : Nat) (s : State) : Host.Outcome State Fault Refusal := .next (onStart 0x0D t nvAbandon s)

/-- LEDGER_LAP (R281). -/
def execLedgerLap (t : Nat) (s : State) : Host.Outcome State Fault Refusal := .next (ledgerCommands true t s)

/-- LEDGER_CHECKPOINT (R289). -/
def execLedgerCheckpoint (t : Nat) (s : State) : Host.Outcome State Fault Refusal := .next (ledgerCommands false t s)

/-- SAVE_CONFIG (R305). -/
def execSaveConfig (t : Nat) (s : State) : Host.Outcome State Fault Refusal := .next (onStart 0x10 t saveConfig s)

/-- RESTORE_CONFIG (R306). -/
def execRestoreConfig (t : Nat) (s : State) : Host.Outcome State Fault Refusal :=
  .next (onStart 0x11 t restoreConfig s)

/-- SELFTEST (R347): `failed` are the tests the part finds failing. -/
def execSelftest (failed : BitVec 11) (t : Nat) (s : State) : Host.Outcome State Fault Refusal :=
  .next (onStart 0x12 t (selftest failed) s)

/-- SHIP (R49). -/
def execShip (t : Nat) (s : State) : Host.Outcome State Fault Refusal := .next (onStart 0x13 t ship s)

/-- UNDEFINED_COMMAND (R334). -/
def execUndefinedCommand (t : Nat) (s : State) : Host.Outcome State Fault Refusal := .next (undefinedCommand t s)

/-- COMMAND_START (R332). -/
def execCommandStart (t : Nat) (s : State) : Host.Outcome State Fault Refusal := .next (commandStart t s)

/-- WATCHDOG_EXPIRY (R340, R341). -/
def execWatchdogExpiry (s : State) : Host.Outcome State Fault Refusal := .next (watchdogExpiry s)

/-- CONDUCTOR_RESTART (R341). -/
def execConductorRestart (t : Nat) (s : State) : Host.Outcome State Fault Refusal := .next (conductorRestart t s)

/-- ID_LINE_TIMEOUT (R339). -/
def execIdLineTimeout (t : Nat) (s : State) : Host.Outcome State Fault Refusal := .next (idLineTimeout t s)

/-- DISCOVERY_HOLD_BEGIN (R322). -/
def execDiscoveryHoldBegin (s : State) : Host.Outcome State Fault Refusal := .next (discoveryHoldBegin s)

/-- CAL_HOLD_BEGIN (R307). -/
def execCalHoldBegin (s : State) : Host.Outcome State Fault Refusal := .next (calHoldBegin s)

/-- CAL_RESULT_APPLY (R312). -/
def execCalResultApply (m : Measured) (t : Nat) (s : State) : Host.Outcome State Fault Refusal :=
  .next (calResultApply m t s)

/-- NV_PAGE_OPERATION_END (R294). -/
def execNvPageOperationEnd (ecc : Ecc) (t : Nat) (s : State) : Host.Outcome State Fault Refusal :=
  .next (pageOperationEnd ecc t s)

end Sys2Proof.Machine
end

