-- ==== Sys2Proof/Machine/EdgeRows.lean ====
section
/-! DEFINITION. The rows of the X32 edge and of what falls at it, and of the clocks (05 to 07, 12, 14, 15). -/

namespace Sys2Proof.Machine

/-- X32_EDGE (R94): the whole of a ktick edge. -/
def execX32Edge (e : Edge) (s : State) : Host.Outcome State Fault Refusal := .next (ktick e s)

/-- SECOND_TICK (R95). -/
def execSecondTick (e : Edge) (s : State) : Host.Outcome State Fault Refusal :=
  .next (ktickIf (fun u => (nextTick e u).1.second) e s)

/-- TRIM_WINDOW_START (R103). -/
def execTrimWindowStart (e : Edge) (s : State) : Host.Outcome State Fault Refusal := .next (ktickIf windowFalls e s)

/-- TRIM_CORRECTION (R103). -/
def execTrimCorrection (e : Edge) (s : State) : Host.Outcome State Fault Refusal :=
  .next (ktickIf correctionFalls e s)

/-- TEMP_CONVERSION_START (R106): the die temperature is what the sensor would read. -/
def execTempConversionStart (temp : BitVec 12) (e : Edge) (s : State) : Host.Outcome State Fault Refusal :=
  .next (ktickIf conversionFalls e { s with pins := { s.pins with dieTemp := temp } })

/-- ALARM_COMMIT_CHECK (R116). -/
def execAlarmCommitCheck (alarm1 : Bool) (e : Edge) (s : State) : Host.Outcome State Fault Refusal :=
  .next (ktickIf (fun u => u.sys.x32Run && alChk u alarm1 && alBit u alarm1 0) e s)

/-- ALARM_FIRING (R118). -/
def execAlarmFiring (alarm1 : Bool) (e : Edge) (s : State) : Host.Outcome State Fault Refusal :=
  .next (ktickIf (fun u => u.sys.x32Run && (almFires (nextTick e u).1 (nextTick e u).2 alarm1).isSome) e s)

/-- TT_START_FIRING (R122). -/
def execTtStartFiring (e : Edge) (s : State) : Host.Outcome State Fault Refusal :=
  .next (ktickIf (fun u => u.sys.x32Run && (ttFires (nextTick e u).1 (nextTick e u).2).isSome) e s)

/-- COUNTDOWN_TICK (R124). -/
def execCountdownTick (e : Edge) (s : State) : Host.Outcome State Fault Refusal :=
  .next (ktickIf (fun u => u.sys.x32Run && (cdEdge (nextTick e u).1 u.alm).1) e s)

/-- COUNTDOWN_ZERO (R125). -/
def execCountdownZero (e : Edge) (s : State) : Host.Outcome State Fault Refusal :=
  .next (ktickIf (fun u => u.sys.x32Run && (cdEdge (nextTick e u).1 u.alm).2.1) e s)

/-- PRE_WAKE (R127). -/
def execPreWake (e : Edge) (s : State) : Host.Outcome State Fault Refusal := .next (ktickIf (preWakeFalls e) e s)

/-- REFIN_MISSING (R131, R137). -/
def execRefinMissing (t : Nat) (s : State) : Host.Outcome State Fault Refusal := .next (settle (refinMissing t s))

/-- LOCK_WINDOW_CLOSE (R132). -/
def execLockWindowClose (count : Nat) (c : Close) (s : State) : Host.Outcome State Fault Refusal :=
  .next (settle (lockWindowClose count c s))

/-- DRIFT_WINDOW_CLOSE (R139). -/
def execDriftWindowClose (q t : Nat) (s : State) : Host.Outcome State Fault Refusal :=
  .next (settle (driftWindowClose q t s))

/-- ACQUISITION_RETRY (R143). -/
def execAcquisitionRetry (e : Edge) (s : State) : Host.Outcome State Fault Refusal := .next (ktickIf retryFalls e s)

/-- SPREAD_PERIOD_WRAP (R146). -/
def execSpreadPeriodWrap (s : State) : Host.Outcome State Fault Refusal := .next (spreadWrap s)

/-- SYNC_RISE (R240). -/
def execSyncRise (e : Edge) (s : State) : Host.Outcome State Fault Refusal := .next (syncRise e s)

/-- EV_TRANSITION (R236): input 6 is SYNC. DESIGN CHOICE: pin 7 is WAKEN, whose level R49 tests and which no row of the table
names (log entry 79). -/
def execEvTransition (pin : BitVec 3) (level : Bool) (at_ : Edge) (s : State) : Host.Outcome State Fault Refusal :=
  .next (transition pin.toNat level at_ s)

/-- EV_CHANGE_ACCEPTED (R236, R237): input 6 is SYNC. -/
def execEvChangeAccepted (input : BitVec 3) (e : Edge) (s : State) : Host.Outcome State Fault Refusal :=
  .next (acceptRow input.toNat e s)

/-- SPAN_CHANGE_END (R270). -/
def execSpanChangeEnd (e : Edge) (s : State) : Host.Outcome State Fault Refusal :=
  .next (ktickIf (fun u => match u.out.ivl with | some k => decide (k ≤ 1) | none => false) e s)

/-- INTERVAL_END (R282). -/
def execIntervalEnd (e : Edge) (s : State) : Host.Outcome State Fault Refusal :=
  .next (ktickIf (fun u => intervalEnds (nextTick e u).1 (nextTick e u).2) e s)

/-- CHECKPOINT_DUE (R283). -/
def execCheckpointDue (e : Edge) (s : State) : Host.Outcome State Fault Refusal :=
  .next (ktickIf (fun u => checkpointFalls (nextTick e u).1 (nextTick e u).2) e s)

end Sys2Proof.Machine
end

