-- ==== Sys2Proof/Machine/FrameRows.lean ====
section
/-! DEFINITION. The rows of frames and carriages, outputs and presence (08, 10, 11, 14, 17). -/

namespace Sys2Proof.Machine

/-- A CONVERT on a held modulator stands before its T_conv: it watches as it would converting (R308). -/
def heldConverts (s : State) (k : Nat) : Bool :=
  match s.tt.frame with
  | none => false
  | some f => (List.range f.runs.length).any (fun i => heldOn k f.qtick (carAt f.img.cars i) (runAt f i))

/-- A CONVERT on an excited pair watches its port (R319). -/
def watchesPort (s : State) (k : Nat) : Bool := (converting s k || heldConverts s k) && (pairAt s (pairOf k)).on

/-- A detach found in a conversion (R319). -/
def detachInConversion (k t : Nat) (s : State) : State :=
  let u := advance t s
  if watchesPort u k then settle (detach k u) else s

/-- The HF counter of the update that comes: the next DAC clock, or so many DAC clocks of 64 HF cycles after the last update as are left
of div + 1; while no DAC clock ran none was counted (R262, R274). -/
def updateAt (s : State) : Nat :=
  match s.out.genRef with
  | some r => if s.out.genCnt = 0 then s.clk.hf else r + 64 * s.out.genCnt
  | none => s.clk.hf

/-- The DAC clocks an update uses up: div + 1, and for the first one its own (R274), in units of 1/2097152. -/
def updateUses (s : State) : Nat := max 1 s.out.genCnt * 2097152

/-- The update can come: at HF always (R274 gives its HF cycle), and on the HFRC where so many DAC clocks can have come since the last. -/
def updateComes (s : State) : Bool := dacClock s && genMode s != 0 && (fineClock s || decide (updateUses s ≤ s.out.genRoom))

/-- One generator update, where a generator and a DAC clock run (R274). -/
def generatorUpdate (s : State) : State :=
  if updateComes s then
    let n := updateAt s
    let t := advance n s
    outSettle { t with out := { genStep t.out with
      genCnt := fld s.out.gen 8 8 + 1, genRef := if dacFromHf s then some n else none
      genRoom := if dacFromHf s then 0 else s.out.genRoom - updateUses s
      genLow := if dacFromHf s then 0 else s.out.genLow - updateUses s } }
  else s

/-- Loss of compliance where it is supervised and not yet low (R272, R273). -/
def complianceLoss (s : State) : State :=
  if supervised s && !s.out.lowHr then
    let s := newWriter s
    let t := raise 60 { s with out := { s.out with lowHr := true, openLatch := true } }
    if bitOf s.out.cfg 6 then faultCode t else t
  else s

/-- Compliance recovers: low_hr clears, open stays (R273). -/
def complianceRecovery (s : State) : State := { s with out := { s.out with lowHr := false } }

/-- A presence reading at a slot edge of the port (R316). -/
def slotReading (k : Nat) (present : Bool) (t : Nat) (s : State) : State :=
  if ktickRuns s && isSlot k s.rtc.edges then settle (presenceSlot k present (advance t s)) else s

/-- FRAME_START (R198): at HF counter t. -/
def execFrameStart (t : Nat) (s : State) : Host.Outcome State Fault Refusal := .next (frameStart t s)

/-- EXCITE (R152). -/
def execExcite (i : BitVec 7) (s : State) : Host.Outcome State Fault Refusal := .next (startOp i.toNat oExcite s)

/-- EXC_OFF (R153). -/
def execExcOff (i : BitVec 7) (s : State) : Host.Outcome State Fault Refusal := .next (startOp i.toNat oExcOff s)

/-- CONVERT (R160). -/
def execConvert (i : BitVec 7) (s : State) : Host.Outcome State Fault Refusal := .next (startOp i.toNat oConvert s)

/-- AUX (R163). -/
def execAux (i : BitVec 7) (s : State) : Host.Outcome State Fault Refusal := .next (startOp i.toNat oAux s)

/-- CONVERSION_END (R160). -/
def execConversionEnd (i : BitVec 7) (d : ConvData) (s : State) : Host.Outcome State Fault Refusal :=
  .next (conversionEnd i.toNat d s)

/-- DIAG_CHECK_FIRE (R165). -/
def execDiagCheckFire (d : Diag) (s : State) : Host.Outcome State Fault Refusal := .next (diagFire d s)

/-- DETACH_IN_CONVERSION (R319). -/
def execDetachInConversion (port : BitVec 2) (t : Nat) (s : State) : Host.Outcome State Fault Refusal :=
  .next (detachInConversion port.toNat t s)

/-- CORRECT (R224). -/
def execCorrect (i : BitVec 7) (s : State) : Host.Outcome State Fault Refusal := .next (startOp i.toNat oCorrect s)

/-- COUPLE (R230). -/
def execCouple (i : BitVec 7) (s : State) : Host.Outcome State Fault Refusal := .next (startOp i.toNat oCouple s)

/-- EMIT (R210): with its record, where no other carriage starts before its end. -/
def execEmit (i : BitVec 7) (s : State) : Host.Outcome State Fault Refusal := .next (endAtOnce i.toNat (startOp i.toNat oEmit s))

/-- AOUT_SET (R271). -/
def execAoutSet (i : BitVec 7) (s : State) : Host.Outcome State Fault Refusal := .next (startOp i.toNat oAoutSet s)

/-- LEDGER_ADD (R279). -/
def execLedgerAdd (i : BitVec 7) (s : State) : Host.Outcome State Fault Refusal := .next (startOp i.toNat oLedgerAdd s)

/-- MARK (R211): with its record, where no other carriage starts before its end. -/
def execMark (i : BitVec 7) (s : State) : Host.Outcome State Fault Refusal := .next (endAtOnce i.toNat (startOp i.toNat oMark s))

/-- CARRIAGE_END (R208). -/
def execCarriageEnd (i : BitVec 7) (s : State) : Host.Outcome State Fault Refusal :=
  .next (settle (carriageEndOp i.toNat s))

/-- FRAME_END (R200). -/
def execFrameEnd (s : State) : Host.Outcome State Fault Refusal := .next (settle (frameEndOp s))

/-- GENERATOR_UPDATE (R274). -/
def execGeneratorUpdate (s : State) : Host.Outcome State Fault Refusal := .next (generatorUpdate s)

/-- AOUT_COMPLIANCE_LOSS (R273). -/
def execAoutComplianceLoss (s : State) : Host.Outcome State Fault Refusal := .next (complianceLoss s)

/-- AOUT_COMPLIANCE_RECOVERY (R273). -/
def execAoutComplianceRecovery (s : State) : Host.Outcome State Fault Refusal := .next (complianceRecovery s)

/-- PRESENCE_SLOT (R316). -/
def execPresenceSlot (port : BitVec 2) (present : Bool) (t : Nat) (s : State) : Host.Outcome State Fault Refusal :=
  .next (slotReading port.toNat present t s)

/-- ATTACH_REGISTERED (R317, R321). -/
def execAttachRegistered (port : BitVec 2) (t : Nat) (s : State) : Host.Outcome State Fault Refusal :=
  .next (if attachDue s port.toNat then settle (attach port.toNat (advance t s)) else s)

/-- DETACH_REGISTERED (R317, R320). -/
def execDetachRegistered (port : BitVec 2) (t : Nat) (s : State) : Host.Outcome State Fault Refusal :=
  .next (if detachDue s port.toNat then settle (detach port.toNat (advance t s)) else s)

end Sys2Proof.Machine
end

