-- ==== Sys2Proof/Machine/PowerRows.lean ====
section
/-! DEFINITION. The rows of resets, the main start, supplies, castling, the charger and SHIP (02, 04). -/

namespace Sys2Proof.Machine

/-- A command that carries supply levels: beyond the absolute maximum nothing is specified (R351). -/
def atLevels (mv : List Nat) (f : State → State) (s : State) : Host.Outcome State Fault Refusal :=
  if mv.any beyond then .fault .beyondAbsoluteMaximum else .next (f s)

/-- X32 is declared running (R90). -/
def declareX32 (s : State) : State :=
  if s.pwr.aonOn && !s.pwr.ship && !s.sys.x32Run then
    { s with
      sys := { s.sys with x32Run := true }
      rtc := { s.rtc with edges := 1024 }
      disc := { s.disc with ports := s.disc.ports.map (fun p => { p with slotAt := none }) } }
  else s

/-- VDD takes a level at an edge at which p holds. -/
def edgeAt (vdd : Nat) (p : State → Bool) (e : Edge) (s : State) : State := ktickIf p e (setSupplies vdd s.pins.vbat s)

/-- The level a cause of leaving SHIP carries. -/
def wakeLevel (w : ShipWake) : Nat := match w with | .waken _ => 0 | .vddReturn v => v

/-- MAIN_POWER_ON (R84): the supplies take levels. -/
def execMainPowerOn (vdd vbat : Nat) (s : State) : Host.Outcome State Fault Refusal :=
  atLevels [vdd, vbat] (setSupplies vdd vbat) s

/-- RSTN (R81). -/
def execRstn (lowNs : Nat) (s : State) : Host.Outcome State Fault Refusal := .next (rstn lowNs s)

/-- MAIN_RESET_RELEASE (R84). -/
def execMainResetRelease (ifsel addr : Bool) (s : State) : Host.Outcome State Fault Refusal :=
  .next (mainResetRelease ifsel addr s)

/-- MAIN_START_HFRC_RUNNING (R84). -/
def execMainStartHfrcRunning (s : State) : Host.Outcome State Fault Refusal := .next (hfrcRunning s)

/-- JOURNAL_READ (R84). -/
def execJournalRead (s : State) : Host.Outcome State Fault Refusal := .next (journalRead s)

/-- SRAM_CLEAR_DONE (R84). -/
def execSramClearDone (s : State) : Host.Outcome State Fault Refusal := .next (sramClearDone s)

/-- CONFIG_IMAGE_APPLY (R86). -/
def execConfigImageApply (present : BitVec 4) (t : Nat) (s : State) : Host.Outcome State Fault Refusal :=
  .next (configImageApply present t s)

/-- LEDGER_RECOVERY (R287). -/
def execLedgerRecovery (s : State) : Host.Outcome State Fault Refusal := .next (ledgerRecovery s)

/-- BOOT_RECORD (R87). -/
def execBootRecord (t : Nat) (s : State) : Host.Outcome State Fault Refusal := .next (bootRecord t s)

/-- AON_COLD_START (R90). -/
def execAonColdStart (vdd vbat : Nat) (s : State) : Host.Outcome State Fault Refusal :=
  atLevels [vdd, vbat] (setSupplies vdd vbat) s

/-- X32_RUN_DECLARED (R90). -/
def execX32RunDeclared (s : State) : Host.Outcome State Fault Refusal := .next (declareX32 s)

/-- RTC_STARTING_EDGE (R90). -/
def execRtcStartingEdge (e : Edge) (s : State) : Host.Outcome State Fault Refusal :=
  .next (ktickIf (fun u => u.sys.x32Run && !u.rtc.started) e s)

/-- SELECTOR_SWITCH (R38). -/
def execSelectorSwitch (vdd vbat : Nat) (s : State) : Host.Outcome State Fault Refusal :=
  atLevels [vdd, vbat] (setSupplies vdd vbat) s

/-- CASTLING_REGISTERED (R39). -/
def execCastlingRegistered (e : Edge) (s : State) : Host.Outcome State Fault Refusal :=
  .next (ktickIf (fun u => !u.pwr.castlings.isEmpty) e s)

/-- AON_SUPPLY_FALLBACK (R41). -/
def execAonSupplyFallback (vdd vbat : Nat) (s : State) : Host.Outcome State Fault Refusal :=
  atLevels [vdd, vbat] (setSupplies vdd vbat) s

/-- MAIN_DOMAIN_OFF (R37). -/
def execMainDomainOff (vdd vbat : Nat) (s : State) : Host.Outcome State Fault Refusal :=
  atLevels [vdd, vbat] (setSupplies vdd vbat) s

/-- BROWN_OUT_WARNING (R42). -/
def execBrownOutWarning (vdd : Nat) (e : Edge) (s : State) : Host.Outcome State Fault Refusal :=
  atLevels [vdd] (edgeAt vdd warnLatches e) s

/-- WARNING_END (R43). -/
def execWarningEnd (vdd : Nat) (e : Edge) (s : State) : Host.Outcome State Fault Refusal :=
  atLevels [vdd] (edgeAt vdd warnEnds e) s

/-- TRICKLE_DONE (R45). -/
def execTrickleDone (vbat : Nat) (s : State) : Host.Outcome State Fault Refusal :=
  atLevels [vbat] (setSupplies s.pins.vdd vbat) s

/-- TRICKLE_RESUME (R45). -/
def execTrickleResume (vbat : Nat) (s : State) : Host.Outcome State Fault Refusal :=
  atLevels [vbat] (setSupplies s.pins.vdd vbat) s

/-- SHIP_ENTRY (R49). -/
def execShipEntry (e : Edge) (s : State) : Host.Outcome State Fault Refusal :=
  .next (ktickIf (fun u => match u.pwr.shipIn with | some k => decide (k ≤ 1) | none => false) e s)

/-- SHIP_EXIT (R52). -/
def execShipExit (cause : ShipWake) (s : State) : Host.Outcome State Fault Refusal :=
  atLevels [wakeLevel cause] (shipExit cause) s

/-- TRICKLE_HEADROOM_CHANGE (R45). -/
def execTrickleHeadroomChange (vdd vbat : Nat) (s : State) : Host.Outcome State Fault Refusal :=
  atLevels [vdd, vbat] (setSupplies vdd vbat) s

/-- VDDIO_PRESENCE_CHANGE (R35). -/
def execVddioPresenceChange (mv : Nat) (s : State) : Host.Outcome State Fault Refusal :=
  atLevels [mv] (vddioChange mv) s

end Sys2Proof.Machine
end

