-- ==== Sys2Proof/Machine/WriteRows.lean ====
section
/-! DEFINITION. The rows of committed register and table writes, each a host transaction of its own (R57). -/

namespace Sys2Proof.Machine

/-- REGISTER_WRITE (R10): any bytes at any address, at HF counter t. -/
def execRegisterWrite (addr : BitVec 16) (data : List Byte) (t : Nat) (s : State) : Host.Outcome State Fault Refusal :=
  .next (hostBytes addr.toNat data (advance t s))

/-- SOFT_RESET (R93): SYS_CTL := key and soft_reset. -/
def execSoftReset (s : State) : Host.Outcome State Fault Refusal := .next (hostWord 2 0x1A5 s)

/-- MEAS_RESET (R93, R345): SYS_CTL := key and meas_reset. -/
def execMeasReset (t : Nat) (s : State) : Host.Outcome State Fault Refusal := .next (hostWord 2 0x2A5 (advance t s))

/-- MEAS_RESET_COMPLETE (R83). -/
def execMeasResetComplete (t : Nat) (s : State) : Host.Outcome State Fault Refusal := .next (measResetComplete t s)

/-- CASTLE_MODE_WRITE (R38): PWR_CTL := w. -/
def execCastleModeWrite (w : Word) (s : State) : Host.Outcome State Fault Refusal := .next (hostWord 6 w s)

/-- FIRST_CASTLING_CLEAR (R40): PWR_STAT.first_valid written 1. -/
def execFirstCastlingClear (s : State) : Host.Outcome State Fault Refusal := .next (hostWord 7 0x10000 s)

/-- TRICKLE_WRITE (R46): PWR_TRICKLE := w. -/
def execTrickleWrite (w : Word) (s : State) : Host.Outcome State Fault Refusal := .next (hostWord 8 w s)

/-- TIME_WRITE (R100): RTC_SEC := w. -/
def execTimeWrite (w : Word) (s : State) : Host.Outcome State Fault Refusal := .next (hostWord 11 w s)

/-- CALENDAR_WRITE (R110): RTC_CAL0 and RTC_CAL1 in one transaction. -/
def execCalendarWrite (cal0 cal1 : Word) (s : State) : Host.Outcome State Fault Refusal :=
  .next (hostItems [.reg 15 cal0, .reg 16 cal1] s)

/-- LOCAL_OFFSET_WRITE (R112): RTC_LOCAL with no DST bit. -/
def execLocalOffsetWrite (offset : BitVec 7) (dst : Bool) (s : State) : Host.Outcome State Fault Refusal :=
  .next (hostWord 17 (put 0 7 offset.toNat ||| bit 7 dst) s)

/-- DST_FWD (R112): RTC_LOCAL.dst_fwd alone. -/
def execDstFwd (s : State) : Host.Outcome State Fault Refusal := .next (hostWord 17 0x100 s)

/-- DST_BACK (R112): RTC_LOCAL.dst_back alone. -/
def execDstBack (s : State) : Host.Outcome State Fault Refusal := .next (hostWord 17 0x200 s)

/-- SHIFT_WRITE (R102): RTC_SHIFT.shift := v. -/
def execShiftWrite (v : BitVec 16) (s : State) : Host.Outcome State Fault Refusal :=
  .next (hostWord 14 (v.setWidth 32) s)

/-- RTC_HALT (R99): RTC_CTL.halt := 1, the other RW fields as they are. -/
def execRtcHalt (s : State) : Host.Outcome State Fault Refusal := .next (hostWord 13 (s.rtc.ctl &&& 0xC ||| 1) s)

/-- RTC_RELEASE (R101): RTC_CTL.halt := 0, the other RW fields as they are. -/
def execRtcRelease (s : State) : Host.Outcome State Fault Refusal := .next (hostWord 13 (s.rtc.ctl &&& 0xC) s)

/-- TRIM_WRITE (R104): RTC_TRIM.trim := v. -/
def execTrimWrite (v : BitVec 12) (s : State) : Host.Outcome State Fault Refusal :=
  .next (hostWord 18 (v.setWidth 32) s)

/-- ALARM_WRITE (R116): 0 RTC_ALM0, 1 RTC_ALM1, 2 RTC_ALCTL; a fourth register does not exist. -/
def execAlarmWrite (reg : BitVec 2) (w : Word) (s : State) : Host.Outcome State Fault Refusal :=
  .next (if reg = 3 then s else hostWord (19 + reg.toNat) w s)

/-- COUNTDOWN_LOAD (R125): RTC_CDN.count := v. -/
def execCountdownLoad (v : BitVec 24) (s : State) : Host.Outcome State Fault Refusal :=
  .next (hostWord 22 (v.setWidth 32) s)

/-- CLK_SRC_WRITE (R134): CLK_SRC := w. -/
def execClkSrcWrite (w : Word) (s : State) : Host.Outcome State Fault Refusal := .next (hostWord 24 w s)

/-- CLK_PLAN_WRITE (R134, R149): CLK_PLAN := w. -/
def execClkPlanWrite (w : Word) (s : State) : Host.Outcome State Fault Refusal := .next (hostWord 25 w s)

/-- CLK_SPREAD_WRITE (R145): CLK_SPREAD := w. -/
def execClkSpreadWrite (w : Word) (s : State) : Host.Outcome State Fault Refusal := .next (hostWord 29 w s)

/-- AFE_CTL_WRITE (R170): AFE_CTL := w. -/
def execAfeCtlWrite (w : Word) (s : State) : Host.Outcome State Fault Refusal := .next (hostWord 30 w s)

/-- SEAL (R173): byte 31 of the descriptor of channel ch := b. -/
def execSeal (ch : BitVec 5) (b : Byte) (s : State) : Host.Outcome State Fault Refusal :=
  .next (hostItems [.byte (0x1000 + 32 * ch.toNat + 31) b] s)

/-- TIMETABLE_WRITE (R188): bytes of a timetable range. -/
def execTimetableWrite (tableB : Bool) (off : BitVec 12) (data : List Byte) (s : State) : Host.Outcome State Fault Refusal :=
  .next (hostBytes (ttBase tableB + off.toNat) data s)

/-- TT_ENABLE (R197): TT_CTL.en := 1, the other fields as they are. -/
def execTtEnable (s : State) : Host.Outcome State Fault Refusal := .next (hostWord 32 (s.tt.ctl ||| 1) s)

/-- TT_DISABLE (R201, R205): TT_CTL.en := 0, the other fields as they are. -/
def execTtDisable (s : State) : Host.Outcome State Fault Refusal := .next (hostWord 32 (s.tt.ctl &&& 0xE) s)

/-- TT_START_ARM (R217): TT_START_SEC and TT_START_FRAC. -/
def execTtStartArm (sec frac : Word) (s : State) : Host.Outcome State Fault Refusal :=
  .next (hostItems [.reg 35 sec, .reg 36 frac] s)

/-- TT_KICK (R218): TT_KICK.kick := 1. -/
def execTtKick (t : Nat) (s : State) : Host.Outcome State Fault Refusal := .next (hostWord 34 1 (advance t s))

/-- RESULT_TAIL_WRITE (R214): RES_TAIL := tail. -/
def execResultTailWrite (tail : BitVec 9) (s : State) : Host.Outcome State Fault Refusal :=
  .next (hostWord 38 (tail.setWidth 32) s)

/-- EVT_STAT_CLEAR (R254): EVT_STAT0 or EVT_STAT1 := w. -/
def execEvtStatClear (hi : Bool) (w : Word) (s : State) : Host.Outcome State Fault Refusal :=
  .next (hostWord (40 + hi.toNat) w s)

/-- EVT_MASK_WRITE (R256, R258): EVT_MASK0 or EVT_MASK1 := w. -/
def execEvtMaskWrite (hi : Bool) (w : Word) (s : State) : Host.Outcome State Fault Refusal :=
  .next (hostWord (42 + hi.toNat) w s)

/-- EVT_INCFG_WRITE (R369): EVT_INCFG := w. -/
def execEvtIncfgWrite (w : Word) (s : State) : Host.Outcome State Fault Refusal := .next (hostWord 44 w s)

/-- EVT_LOG_TAIL_WRITE (R251): EVT_LOG_TAIL := tail. -/
def execEvtLogTailWrite (tail : BitVec 7) (s : State) : Host.Outcome State Fault Refusal :=
  .next (hostWord 46 (tail.setWidth 32) s)

/-- SM_TABLE_WRITE (R244): bytes of the table of one of the six inputs. -/
def execSmTableWrite (input : BitVec 3) (off : BitVec 5) (data : List Byte) (s : State) : Host.Outcome State Fault Refusal :=
  .next (if 6 ≤ input.toNat then s else hostBytes (0x7500 + 32 * input.toNat + off.toNat) data s)

/-- AOUT_CODE_WRITE (R268): OUT_AOUT_CODE := w. -/
def execAoutCodeWrite (w : Word) (s : State) : Host.Outcome State Fault Refusal := .next (hostWord 47 w s)

/-- SPAN_CHANGE (R270): OUT_AOUT_CFG := w. -/
def execSpanChange (w : Word) (s : State) : Host.Outcome State Fault Refusal := .next (hostWord 48 w s)

/-- GENERATOR_RESTART (R274): OUT_GEN := w. -/
def execGeneratorRestart (w : Word) (s : State) : Host.Outcome State Fault Refusal := .next (hostWord 49 w s)

/-- LEDGER_ENABLE (R287): LDG_CTL.en := 1, the other fields as they are. -/
def execLedgerEnable (t : Nat) (s : State) : Host.Outcome State Fault Refusal :=
  .next (hostWord 51 (s.ldg.ctl ||| 1) (advance t s))

/-- LEDGER_DISABLE (R288): LDG_CTL.en := 0, the other fields as they are. -/
def execLedgerDisable (t : Nat) (s : State) : Host.Outcome State Fault Refusal :=
  .next (hostWord 51 (s.ldg.ctl &&& 0x00FFFFF0) (advance t s))

/-- CMD_CPL_TAIL_WRITE (R337): CMD_CPL_TAIL := tail. -/
def execCmdCplTailWrite (tail : BitVec 5) (s : State) : Host.Outcome State Fault Refusal :=
  .next (hostWord 59 (tail.setWidth 32) s)

end Sys2Proof.Machine
end

