-- ==== Sys2Proof/Machine/Dispatch.lean ====
section
/-! DEFINITION. The dispatch: one arm per command, each a direct call of that command's meaning. -/

namespace Sys2Proof.Machine

def exec (i : Instr) (s : State) : Host.Outcome State Fault Refusal :=
  match i with
  | .spiWriteFrame bytes extra t => Sys2Proof.Machine.execSpiWriteFrame bytes extra t s
  | .spiReadFrame bytes extra t => Sys2Proof.Machine.execSpiReadFrame bytes extra t s
  | .spiStatusPoll bytes extra => Sys2Proof.Machine.execSpiStatusPoll bytes extra s
  | .spiFrameDuringCommit => Sys2Proof.Machine.execSpiFrameDuringCommit s
  | .hifReset => Sys2Proof.Machine.execHifReset s
  | .i2cWriteTransfer sr dev bytes cut stop t => Sys2Proof.Machine.execI2cWriteTransfer sr dev bytes cut stop t s
  | .i2cReadTransfer dev len x => Sys2Proof.Machine.execI2cReadTransfer dev len x s
  | .i3cPrivateWrite sr dev bytes parityOk stop t => Sys2Proof.Machine.execI3cPrivateWrite sr dev bytes parityOk stop t s
  | .i3cPrivateRead dev len x => Sys2Proof.Machine.execI3cPrivateRead dev len x s
  | .i3cBroadcastAddress b => Sys2Proof.Machine.execI3cBroadcastAddress s b
  | .entdaa addr b => Sys2Proof.Machine.execEntdaa addr s b
  | .setdasa a b => Sys2Proof.Machine.execSetdasa a s b
  | .rstdaa b => Sys2Proof.Machine.execRstdaa s b
  | .enec what b => Sys2Proof.Machine.execEnec what s b
  | .disec what b => Sys2Proof.Machine.execDisec what s b
  | .getpid b => Sys2Proof.Machine.execGetpid s b
  | .getbcr b => Sys2Proof.Machine.execGetbcr s b
  | .getdcr b => Sys2Proof.Machine.execGetdcr s b
  | .getstatus b => Sys2Proof.Machine.execGetstatus s b
  | .rstact dev defining b => Sys2Proof.Machine.execRstact dev defining s b
  | .enthdr b => Sys2Proof.Machine.execEnthdr s b
  | .hdrExit => Sys2Proof.Machine.execHdrExit s
  | .unacknowledgedCcc b => Sys2Proof.Machine.execUnacknowledgedCcc s b
  | .targetResetPattern => Sys2Proof.Machine.execTargetResetPattern s
  | .ibiRequest => Sys2Proof.Machine.execIbiRequest s
  | .ibiAck stop => Sys2Proof.Machine.execIbiAck s stop
  | .ibiNack stop => Sys2Proof.Machine.execIbiNack s stop
  | .ibiReminder => Sys2Proof.Machine.execIbiReminder s
  | .registerWrite addr data t => Sys2Proof.Machine.execRegisterWrite addr data t s
  | .softReset => Sys2Proof.Machine.execSoftReset s
  | .measReset t => Sys2Proof.Machine.execMeasReset t s
  | .measResetComplete t => Sys2Proof.Machine.execMeasResetComplete t s
  | .castleModeWrite w => Sys2Proof.Machine.execCastleModeWrite w s
  | .firstCastlingClear => Sys2Proof.Machine.execFirstCastlingClear s
  | .trickleWrite w => Sys2Proof.Machine.execTrickleWrite w s
  | .timeWrite w => Sys2Proof.Machine.execTimeWrite w s
  | .calendarWrite cal0 cal1 => Sys2Proof.Machine.execCalendarWrite cal0 cal1 s
  | .localOffsetWrite offset dst => Sys2Proof.Machine.execLocalOffsetWrite offset dst s
  | .dstFwd => Sys2Proof.Machine.execDstFwd s
  | .dstBack => Sys2Proof.Machine.execDstBack s
  | .shiftWrite v => Sys2Proof.Machine.execShiftWrite v s
  | .rtcHalt => Sys2Proof.Machine.execRtcHalt s
  | .rtcRelease => Sys2Proof.Machine.execRtcRelease s
  | .trimWrite v => Sys2Proof.Machine.execTrimWrite v s
  | .alarmWrite reg w => Sys2Proof.Machine.execAlarmWrite reg w s
  | .countdownLoad v => Sys2Proof.Machine.execCountdownLoad v s
  | .clkSrcWrite w => Sys2Proof.Machine.execClkSrcWrite w s
  | .clkPlanWrite w => Sys2Proof.Machine.execClkPlanWrite w s
  | .clkSpreadWrite w => Sys2Proof.Machine.execClkSpreadWrite w s
  | .afeCtlWrite w => Sys2Proof.Machine.execAfeCtlWrite w s
  | .seal ch b => Sys2Proof.Machine.execSeal ch b s
  | .timetableWrite tableB off data => Sys2Proof.Machine.execTimetableWrite tableB off data s
  | .ttEnable => Sys2Proof.Machine.execTtEnable s
  | .ttDisable => Sys2Proof.Machine.execTtDisable s
  | .ttStartArm sec frac => Sys2Proof.Machine.execTtStartArm sec frac s
  | .ttKick t => Sys2Proof.Machine.execTtKick t s
  | .resultTailWrite tail => Sys2Proof.Machine.execResultTailWrite tail s
  | .evtStatClear hi w => Sys2Proof.Machine.execEvtStatClear hi w s
  | .evtMaskWrite hi w => Sys2Proof.Machine.execEvtMaskWrite hi w s
  | .evtIncfgWrite w => Sys2Proof.Machine.execEvtIncfgWrite w s
  | .evtLogTailWrite tail => Sys2Proof.Machine.execEvtLogTailWrite tail s
  | .smTableWrite input off data => Sys2Proof.Machine.execSmTableWrite input off data s
  | .aoutCodeWrite w => Sys2Proof.Machine.execAoutCodeWrite w s
  | .spanChange w => Sys2Proof.Machine.execSpanChange w s
  | .generatorRestart w => Sys2Proof.Machine.execGeneratorRestart w s
  | .ledgerEnable t => Sys2Proof.Machine.execLedgerEnable t s
  | .ledgerDisable t => Sys2Proof.Machine.execLedgerDisable t s
  | .cmdCplTailWrite tail => Sys2Proof.Machine.execCmdCplTailWrite tail s
  | .loadTt t => Sys2Proof.Machine.execLoadTt t s
  | .switchTt t => Sys2Proof.Machine.execSwitchTt t s
  | .discover teds d t => Sys2Proof.Machine.execDiscover teds d t s
  | .slotBind t => Sys2Proof.Machine.execSlotBind t s
  | .calTdc t => Sys2Proof.Machine.execCalTdc t s
  | .calMod t => Sys2Proof.Machine.execCalMod t s
  | .calEvt t => Sys2Proof.Machine.execCalEvt t s
  | .nvRead t => Sys2Proof.Machine.execNvRead t s
  | .nvWrite t => Sys2Proof.Machine.execNvWrite t s
  | .nvClear t => Sys2Proof.Machine.execNvClear t s
  | .nvSuspend t => Sys2Proof.Machine.execNvSuspend t s
  | .nvResume t => Sys2Proof.Machine.execNvResume t s
  | .nvAbandon t => Sys2Proof.Machine.execNvAbandon t s
  | .ledgerLap t => Sys2Proof.Machine.execLedgerLap t s
  | .ledgerCheckpoint t => Sys2Proof.Machine.execLedgerCheckpoint t s
  | .saveConfig t => Sys2Proof.Machine.execSaveConfig t s
  | .restoreConfig t => Sys2Proof.Machine.execRestoreConfig t s
  | .selftest failed t => Sys2Proof.Machine.execSelftest failed t s
  | .ship t => Sys2Proof.Machine.execShip t s
  | .undefinedCommand t => Sys2Proof.Machine.execUndefinedCommand t s
  | .commandStart t => Sys2Proof.Machine.execCommandStart t s
  | .watchdogExpiry => Sys2Proof.Machine.execWatchdogExpiry s
  | .conductorRestart t => Sys2Proof.Machine.execConductorRestart t s
  | .mainPowerOn vdd vbat => Sys2Proof.Machine.execMainPowerOn vdd vbat s
  | .rstn lowNs => Sys2Proof.Machine.execRstn lowNs s
  | .mainResetRelease ifsel addr => Sys2Proof.Machine.execMainResetRelease ifsel addr s
  | .mainStartHfrcRunning => Sys2Proof.Machine.execMainStartHfrcRunning s
  | .journalRead => Sys2Proof.Machine.execJournalRead s
  | .sramClearDone => Sys2Proof.Machine.execSramClearDone s
  | .configImageApply present t => Sys2Proof.Machine.execConfigImageApply present t s
  | .ledgerRecovery => Sys2Proof.Machine.execLedgerRecovery s
  | .bootRecord t => Sys2Proof.Machine.execBootRecord t s
  | .aonColdStart vdd vbat => Sys2Proof.Machine.execAonColdStart vdd vbat s
  | .x32RunDeclared => Sys2Proof.Machine.execX32RunDeclared s
  | .rtcStartingEdge e => Sys2Proof.Machine.execRtcStartingEdge e s
  | .selectorSwitch vdd vbat => Sys2Proof.Machine.execSelectorSwitch vdd vbat s
  | .castlingRegistered e => Sys2Proof.Machine.execCastlingRegistered e s
  | .aonSupplyFallback vdd vbat => Sys2Proof.Machine.execAonSupplyFallback vdd vbat s
  | .mainDomainOff vdd vbat => Sys2Proof.Machine.execMainDomainOff vdd vbat s
  | .brownOutWarning vdd e => Sys2Proof.Machine.execBrownOutWarning vdd e s
  | .warningEnd vdd e => Sys2Proof.Machine.execWarningEnd vdd e s
  | .trickleDone vbat => Sys2Proof.Machine.execTrickleDone vbat s
  | .trickleResume vbat => Sys2Proof.Machine.execTrickleResume vbat s
  | .shipEntry e => Sys2Proof.Machine.execShipEntry e s
  | .shipExit cause => Sys2Proof.Machine.execShipExit cause s
  | .x32Edge e => Sys2Proof.Machine.execX32Edge e s
  | .secondTick e => Sys2Proof.Machine.execSecondTick e s
  | .trimWindowStart e => Sys2Proof.Machine.execTrimWindowStart e s
  | .trimCorrection e => Sys2Proof.Machine.execTrimCorrection e s
  | .tempConversionStart temp e => Sys2Proof.Machine.execTempConversionStart temp e s
  | .alarmCommitCheck alarm1 e => Sys2Proof.Machine.execAlarmCommitCheck alarm1 e s
  | .alarmFiring alarm1 e => Sys2Proof.Machine.execAlarmFiring alarm1 e s
  | .ttStartFiring e => Sys2Proof.Machine.execTtStartFiring e s
  | .countdownTick e => Sys2Proof.Machine.execCountdownTick e s
  | .countdownZero e => Sys2Proof.Machine.execCountdownZero e s
  | .preWake e => Sys2Proof.Machine.execPreWake e s
  | .refinMissing t => Sys2Proof.Machine.execRefinMissing t s
  | .lockWindowClose count c => Sys2Proof.Machine.execLockWindowClose count c s
  | .driftWindowClose q t => Sys2Proof.Machine.execDriftWindowClose q t s
  | .acquisitionRetry e => Sys2Proof.Machine.execAcquisitionRetry e s
  | .spreadPeriodWrap => Sys2Proof.Machine.execSpreadPeriodWrap s
  | .syncRise e => Sys2Proof.Machine.execSyncRise e s
  | .evTransition pin level at_ => Sys2Proof.Machine.execEvTransition pin level at_ s
  | .evChangeAccepted input e => Sys2Proof.Machine.execEvChangeAccepted input e s
  | .frameStart t => Sys2Proof.Machine.execFrameStart t s
  | .excite k => Sys2Proof.Machine.execExcite k s
  | .excOff k => Sys2Proof.Machine.execExcOff k s
  | .convert k => Sys2Proof.Machine.execConvert k s
  | .aux k => Sys2Proof.Machine.execAux k s
  | .conversionEnd k d => Sys2Proof.Machine.execConversionEnd k d s
  | .diagCheckFire d => Sys2Proof.Machine.execDiagCheckFire d s
  | .detachInConversion port t => Sys2Proof.Machine.execDetachInConversion port t s
  | .correct k => Sys2Proof.Machine.execCorrect k s
  | .couple k => Sys2Proof.Machine.execCouple k s
  | .emit k => Sys2Proof.Machine.execEmit k s
  | .aoutSet k => Sys2Proof.Machine.execAoutSet k s
  | .ledgerAdd k => Sys2Proof.Machine.execLedgerAdd k s
  | .mark k => Sys2Proof.Machine.execMark k s
  | .carriageEnd k => Sys2Proof.Machine.execCarriageEnd k s
  | .frameEnd => Sys2Proof.Machine.execFrameEnd s
  | .generatorUpdate => Sys2Proof.Machine.execGeneratorUpdate s
  | .spanChangeEnd e => Sys2Proof.Machine.execSpanChangeEnd e s
  | .aoutComplianceLoss => Sys2Proof.Machine.execAoutComplianceLoss s
  | .intervalEnd e => Sys2Proof.Machine.execIntervalEnd e s
  | .checkpointDue e => Sys2Proof.Machine.execCheckpointDue e s
  | .presenceSlot port present t => Sys2Proof.Machine.execPresenceSlot port present t s
  | .attachRegistered port t => Sys2Proof.Machine.execAttachRegistered port t s
  | .detachRegistered port t => Sys2Proof.Machine.execDetachRegistered port t s
  | .idLineTimeout t => Sys2Proof.Machine.execIdLineTimeout t s
  | .discoveryHoldBegin => Sys2Proof.Machine.execDiscoveryHoldBegin s
  | .calHoldBegin => Sys2Proof.Machine.execCalHoldBegin s
  | .calResultApply m t => Sys2Proof.Machine.execCalResultApply m t s
  | .nvPageOperationEnd ecc t => Sys2Proof.Machine.execNvPageOperationEnd ecc t s
  | .trickleHeadroomChange vdd vbat => Sys2Proof.Machine.execTrickleHeadroomChange vdd vbat s
  | .vddioPresenceChange mv => Sys2Proof.Machine.execVddioPresenceChange mv s
  | .aoutComplianceRecovery => Sys2Proof.Machine.execAoutComplianceRecovery s

end Sys2Proof.Machine
end

