-- ==== Sys2Proof/WellFormed.lean ====
section
/-! DEFINITION. Which commands are well formed: the operand ranges the manual gives and the operand types do not. -/

namespace Sys2Proof

/-- A command whose operands name something that exists: an accepted change on EV0 to EV5 or SYNC (Table 12.1), one of the three alarm
registers (Table 6.1), bytes inside one state-machine table (Table 12.3) or one timetable range (Table 4.1), a frame of at
least one bit (R64), a dynamic address (R72), eight code-density counts (R309). -/
def wellFormed : Instr → Bool
  | .spiWriteFrame bytes extra _ => !bytes.isEmpty || extra != 0
  | .spiReadFrame bytes extra _ => !bytes.isEmpty || extra != 0
  | .spiStatusPoll bytes extra => !bytes.isEmpty || extra != 0
  | .entdaa addr _ => addr != 0
  | .setdasa a _ => a.addr != 0
  | .alarmWrite reg _ => reg != 3
  | .timetableWrite _ off data => decide (off.toNat + data.length ≤ 4096)
  | .smTableWrite input off data => decide (input.toNat < 6) && decide (off.toNat + data.length ≤ 32)
  | .evChangeAccepted input _ => input != 7
  | .calResultApply (.tdc counts) _ => counts.length == 8
  | _ => true

end Sys2Proof
end

