-- ==== Sys2Proof/Safety.lean ====
section
/-! DEFINITION. What a safe command and a safe run are, and the words statements are written in: a command that completes with
what it leaves, the state of the host port a committed write needs, the invariant every step keeps. -/

namespace Sys2Proof.Machine

/-- The supply levels a command carries, in mV. -/
def levelsOf : Instr → List Nat
  | .mainPowerOn a b => [a, b]
  | .aonColdStart a b => [a, b]
  | .selectorSwitch a b => [a, b]
  | .aonSupplyFallback a b => [a, b]
  | .mainDomainOff a b => [a, b]
  | .brownOutWarning a _ => [a]
  | .warningEnd a _ => [a]
  | .trickleDone b => [b]
  | .trickleResume b => [b]
  | .shipExit w => [wakeLevel w]
  | .trickleHeadroomChange a b => [a, b]
  | .vddioPresenceChange v => [v]
  | _ => []

/-- A command within the absolute maximum ratings of Table 19.1 (R351). -/
def safeCommand (c : Instr) : Bool := wellFormed c && (levelsOf c).all (fun v => decide (v ≤ 4000))

/-- A run is safe when every command of its queue is. -/
def safeRun (s : State) : Bool := s.pending.all safeCommand

/-- Supplies within the absolute maximum ratings. -/
def withinRatings (p : Pins) : Bool := decide (p.vdd ≤ 4000) && decide (p.vbat ≤ 4000) && decide (p.vddio ≤ 4000)

/-- The invariant of the machine: the memory is in canonical form, the supplies lie within their ratings. -/
abbrev Invariant (s : State) : Prop := Memory.wf s.mem = true ∧ withinRatings s.pins = true

/-- A RESTORE_CONFIG runs only while a frame, a MEAS reset or a reset of the conductor keeps it from its boundary (R306, R341, R344). -/
def restoreWaits (s : State) : Bool :=
  match s.cond.running with
  | some (_, .restore) => s.tt.frame.isSome || s.cond.inReset || s.sys.measRst
  | _ => true

/-- No RESTORE_CONFIG runs. -/
def noRestore (s : State) : Bool := match s.cond.running with | some (_, .restore) => false | _ => true

/-- Command c completes in s: it answers a next state, of which P holds. -/
def Completes (c : Instr) (s : State) (P : State → Prop) : Prop := ∃ t, exec c s = .next t ∧ P t

/-- The host port responds and hears what the host sends, the main start is complete, and no transaction is open, not even its address header: a committed write
acts at once (R57, R85). -/
abbrev HostReady (s : State) : Prop :=
  portHears s = true ∧ mainReady s = true ∧ s.hif.txn = none ∧ s.hif.header = false

/-- A committed write of register k alone has moved the bus: in I2C and I3C mode the pointer stands behind the register, and the bus is no
longer idle (R70, R75). -/
def moved (k : Nat) (s : State) : State := busMoved (4 * k + 4) s

/-- No command runs, no record of a switch waits and no warning is pending, so that nothing is cut or recorded after an event. -/
abbrev nothingRuns (s : State) : Prop := s.cond.running = none ∧ s.cond.switchDone = [] ∧ s.pwr.warn = false

/-- No lap and no direct ledger command waits for the ledger (R281). -/
abbrev nothingWaits (s : State) : Prop := s.ldg.wait = [] ∧ s.ldg.laps = 0

/-- No input confirms a change, and no rise of SYNC waits for its qtick (R202, R240). -/
abbrev quietInputs (s : State) : Prop := s.evin.conf.all Option.isNone = true ∧ s.evin.rise = none

/-- Nothing else registers beside a command: no change of an input, and nothing that waits for the ledger (R202, R281). -/
abbrev quietMoment (s : State) : Prop := quietInputs s ∧ nothingWaits s

/-- The reference that CLK_SRC.sel selects first (R129). -/
def selRef (s : State) : ClkRef := if clkSel s = 1 then .refin else .hfrc

/-- What a reset of the main domain leaves PWR: its class A fields, and of PWR_CTL what the masked bits do not hold (R82). -/
def pwrKept (mask : Word) (s : State) : Pwr := { s.pwr with ctl := maskIn mask s.pwr.ctl 0, warn := false, warnAbove := 0 }

/-- The supplies carry both domains, nothing they call for is outstanding, and SHIP is not due: an edge switches no domain. -/
abbrev supplied (s : State) : Prop :=
  s.pwr.aonOn = true ∧ s.pwr.mainOn = true ∧ s.pwr.ship = false ∧ s.pwr.shipIn = none ∧ s.pwr.eff = s.pwr.ctl ∧
    bothLow s = false ∧ vOff s ≤ s.pins.vdd

/-- A source is latched in EVT_STAT. -/
def latched (n : Nat) (s : State) : Bool := s.evt.stat.getLsbD n

/-- Spread parameters x await the next wrap, or take effect at once where HF runs without a spread period (R146, log entry 67). -/
def spreadTakes (x : SpreadSet) (s t : State) : Prop :=
  if hfRunning s && s.clk.spreadNow == .off then t.clk.spreadNow = x ∧ t.clk.spreadNew = none
  else t.clk.spreadNow = s.clk.spreadNow ∧ t.clk.spreadNew = some x

/-- The bytes a to a + n - 1 lie in the correction tables, or in the staging and report pages (Table 4.1). -/
def inertRange (a n : Nat) : Bool :=
  (decide (0x4000 ≤ a) && decide (a + n ≤ 0x6000)) || (decide (0x7800 ≤ a) && decide (a + n ≤ 0x7C00))

/-- They lie in the output formats. -/
def formatRange (a n : Nat) : Bool := decide (0x7640 ≤ a) && decide (a + n ≤ 0x7740)

/-- They lie in SRAM whose bytes the host reads as it wrote them. -/
def plainRange (a n : Nat) : Bool := inertRange a n || formatRange a n

/-- What a whole read of register k leaves of its RC fields: no flag, and no count but what came after the snapshot (R11; Tables 3.8,
4.9, 10.12, 10.16, 12.9, 15.5 and 18.11). -/
def readClears (k : Nat) (s : State) : State :=
  let was := regRead s k
  match k with
  | 1 => { s with sys := { s.sys with earlyWr := false } }
  | 5 => { s with hif := { s.hif with err := 0, errCount := s.hif.errCount - fld was 8 8, lastAddr := 0 } }
  | 33 => { s with tt := { s.tt with protHit := false } }
  | 37 => { s with res := { s.res with ovf := s.res.ovf - fld was 16 8, settleDrop := s.res.settleDrop - fld was 24 8 } }
  | 45 => { s with evin := { s.evin with ovf := s.evin.ovf - fld was 8 8 } }
  | 52 => { s with ldg := { s.ldg with skipped := s.ldg.skipped - fld was 28 4 } }
  | 58 => { s with cond := { s.cond with ovf := s.cond.ovf - fld was 24 8 } }
  | _ => s

/-- Bits of SYS_RESETCAUSE were added, and of the reset registers nothing else changed but the note of when (R12, R93). -/
def causeSet (b : BitVec 11) (s t : State) : Prop :=
  t.sys = { s.sys with cause := s.sys.cause ||| b, causeNew := t.sys.causeNew, causeAt := t.sys.causeAt }

/-- Memory m after bytes bs were stored at a: those bytes, and every other byte as before. -/
def storedAt (a : Nat) (bs : List Byte) (old new : List Host.Cell) : Prop :=
  ∀ x, memByte new x = if a ≤ x ∧ x < a + bs.length then bs.getD (x - a) 0 else memByte old x

/-- An SPI header: command byte and address, most significant byte first (Table 3.2). -/
def spiHeader (cmd : Byte) (a : BitVec 16) : List Byte := [cmd, BitVec.ofNat 8 (a.toNat / 256), BitVec.ofNat 8 a.toNat]

/-- A rejected frame: its flag, the count of rejected frames, its header address, source 59 where the flag rises; nothing else of
the machine changes but what the frame answers (R66, R77). -/
def rejectedWith (bit : Nat) (a : BitVec 16) (s t : State) : Prop :=
  t.hif.err.getLsbD bit = true ∧ t.hif.errCount = min 255 (s.hif.errCount + 1) ∧ t.hif.lastAddr = a ∧
  (s.hif.err.getLsbD bit = false → latched 59 t = true) ∧
  t.mem = s.mem ∧ t.hif.txn = none ∧ { t with hif := s.hif, evt := s.evt } = s

/-- The bytes of a bus transfer that sets the address pointer, before its data (R70). -/
def busBytes (a : BitVec 16) (data : List Byte) : List Byte := BitVec.ofNat 8 (a.toNat / 256) :: BitVec.ofNat 8 a.toNat :: data

/-- No transaction is open, not even its address header. -/
abbrev noTxn (s : State) : Prop := s.hif.txn = none ∧ s.hif.header = false

/-- The open transaction, if one is open, has noted nothing: it sent no window byte, holds no calendar word, saw no error. -/
def bareTxn (s : State) : Bool :=
  match s.hif.txn with
  | none => true
  | some x => x.sent.isEmpty && x.cal0.isNone && x.cal1.isNone && x.newErr == 0 && !x.rst

/-- The state between two transactions. -/
def betweenTxns (s : State) : State := { s with hif := { s.hif with txn := none, header := false } }

/-- The transaction in which a command of the bus acts at state u: the open one where a repeated START goes on with it, else its own
(R55). -/
def busTxn (b : Ends) (u : State) : Txn := if b.sr = true then u.hif.txn.getD (Txn.new (betweenTxns u)) else Txn.new (betweenTxns u)

/-- The host port after a common command at state u, but for what the command does: the broadcast address switched the spike filter off, the
bus is not idle, these acknowledges were given, and its transaction stays open unless a STOP ended it (R55, R71, R72). -/
def cccHif (b : Ends) (u : State) (acks : List Bool) : Hif :=
  { u.hif with
    filtOn := false, busIdle := 0, reply := [], acks := acks, header := false, txn := if b.stop = true then none else some (busTxn b u) }

/-- What the passing of time to a moment leaves as it was: the HF counter, the running frame's latched descriptors, the input stages
and pairs it sets, and an AOUT_SET's code that falls due may change, nothing else (R176, R180, R268). -/
def besideMoment (s t : State) : Prop :=
  { t with clk := { t.clk with hf := s.clk.hf }, tt := { t.tt with frame := s.tt.frame }, afe := s.afe, out := s.out } = s

/-- The completion ring has room for one record more (R337). -/
abbrev ringRoom (s : State) : Prop := (s.cond.head - s.cond.tail).toNat < 16

/-- Nothing is held by a calibration or a discovery job, and no port waits with a job or installs. -/
abbrev noHolds (s : State) : Prop :=
  s.cal.holdMod = 0 ∧ s.cal.holdPair = 0 ∧ s.cal.holdExc = false ∧ s.cal.holdEv = 0 ∧ s.disc.ports.all (fun p => p.jobWait == 0 && !p.installing) = true

/-- The running command is c, just started; the conductor runs, no warning is pending, its completion record has room, and no
earlier command has left a hold or a record that waits. -/
abbrev startedAs (c : Cmd) (s : State) : Prop :=
  s.cond.running = some (c, .fresh) ∧ condRuns s = true ∧ s.pwr.warn = false ∧ ringRoom s ∧ noHolds s ∧
    s.cond.switchDone = [] ∧ Memory.wf s.mem = true

/-- As in `startedAs`, of the end of an installation, whose port is the one that installs: no calibration holds anything and no job waits. -/
abbrev installEnds (s : State) : Prop :=
  condRuns s = true ∧ s.pwr.warn = false ∧ ringRoom s ∧ s.cond.switchDone = [] ∧ s.clk.bypass = false ∧ Memory.wf s.mem = true ∧
    s.cal.holdMod = 0 ∧ s.cal.holdPair = 0 ∧ s.cal.holdExc = false ∧ s.cal.holdEv = 0 ∧
    s.disc.ports.all (fun p => p.jobWait == 0) = true ∧ s.disc.ports.length = 4

/-- The page operation in progress is one of the running command. -/
abbrev ownPage (o : NvOp) : Prop := o.task = none ∧ o.ledger = false ∧ o.orphan = false

/-- The pages of the config image hold 64 bytes each, as every page of the array does (R291). -/
def imageWhole (s : State) : Bool := (List.range 8).all (fun l => (pageAt s l).data.length == 64)

/-- Every class N field and range of t, but OUT_AOUT_CFG and LDG_CTL, is what the config image of s gives it (R86, R304, R306, Table 16.7):
the registers of page 1, the state tables of pages 2 to 4, the spread profile of page 5, the map, the trims and the calibrated bits of page
6. A map that byte 60 does not mark calibrated is the default one (the model's reading, log entry 42). -/
def imageApplied (s t : State) : Prop :=
  t.pwr.ctl = maskIn 0x100 s.pwr.ctl (imgWord s 0) ∧
  t.clk.src = (if fld (imgWord s 1) 0 2 = 3 then setFld (imgWord s 1) 0 2 (clkSel s) else imgWord s 1) &&& 0xF ∧
  t.clk.plans = [planOf (imgWord s 2), planOf (imgWord s 3), planOf (imgWord s 4), planOf (imgWord s 5)] ∧
  t.clk.active = (imgWord s 2).setWidth 2 ∧ t.clk.limits = imgWord s 6 &&& 0xFFFFFF0F ∧ t.clk.spread = imgWord s 7 &&& 0xFFFF01F3 ∧
  t.afe.ctl = imgWord s 8 &&& 0x7FFF ∧ t.res.cfg = imgWord s 9 &&& 0xFF01 ∧
  regRead t 42 = imgWord s 10 ∧ regRead t 43 = imgWord s 11 ∧ t.evt.copy = BitVec.ofNat 8 (fld (imgWord s 10) 8 8) ∧
  t.evin.incfg = imgWord s 12 ∧
  (imageWhole s = true → Memory.wf s.mem = true →
    (∀ i < 192, memByte t.mem (0x7500 + i) = byteAt (pageAt s (2 + i / 64)).data (i % 64)) ∧
    ∀ i < 64, memByte t.mem (0x7600 + i) = byteAt (pageAt s 5).data i) ∧
  t.cal.map = (if (byteAt (pageAt s 6).data 60).getLsbD 0 then ((pageAt s 6).data.take 8).map (fun b => b.toNat) else State.reset.cal.map) ∧
  t.cal.modTrim = ((pageAt s 6).data.drop 8).take 45 ∧ t.cal.evtTrim = ((pageAt s 6).data.drop 53).take 7 ∧
  t.cal.calibrated = (byteAt (pageAt s 6).data 60).setWidth 3

/-- The AOUT record of the config image is valid and agrees with the OUT_AOUT_CFG that the image restores (R275, Table 14.4). -/
def aoutRecordGood (s : State) : Bool :=
  let r := aoutRec s
  wordAt r 8 == crc32 (r.take 8) && halfAt r 2 == fld (imgWord s 13) 16 16 && (byteAt r 4).setWidth 2 == (imgWord s 13).setWidth 2

/-- The job j of command c, a DISCOVER, stands at its identification line; as in `startedAs` nothing else is under way, and the clock it
needs is not gone. -/
abbrev atLine (c : Cmd) (j : DiscJob) (l : Nat) (s : State) : Prop :=
  s.cond.running = some (c, .disc j 0 l) ∧ condRuns s = true ∧ s.pwr.warn = false ∧ s.clk.bypass = false ∧ ringRoom s ∧ noHolds s ∧
    s.cond.switchDone = [] ∧ Memory.wf s.mem = true

/-- The array owes itself a write, or makes it (R294, R296, R297). -/
def owed (x : NvTask) (s : State) : Prop := x ∈ s.nv.todo ∨ s.nv.op.bind (fun o => o.task) = some x

/-- The ring place of the next completion record. -/
def nextRecordAt (s : State) : Nat := 0x7400 + 16 * (s.cond.head.toNat % 16)

/-- A completion record of the sequence number seq stands at the ring place of the index head: its detail word and its fourth word
(Table 18.3). -/
def recordStands (op : Nat) (auto direct : Bool) (reason : Nat) (tag : Byte) (detail : Word) (head : BitVec 5) (seq : BitVec 8)
    (m : List Host.Cell) : Prop :=
  memWord m (0x7400 + 16 * (head.toNat % 16) + 8) = detail ∧
  memWord m (0x7400 + 16 * (head.toNat % 16) + 12) =
    (put 0 6 op ||| put 6 1 auto.toNat ||| put 7 1 direct.toNat ||| put 8 8 reason ||| put 16 8 tag.toNat ||| put 24 8 seq.toNat)

/-- A completion record stands in the ring where the head was, with source 56, and source 57 for a reason that is neither OK nor PARTIAL
(R336 to R338). -/
def answered (op : Nat) (auto direct : Bool) (reason : Nat) (tag : Byte) (detail : Word) (s t : State) : Prop :=
  t.cond.head = s.cond.head + 1 ∧ t.cond.seq = s.cond.seq + 1 ∧ t.cond.ovf = s.cond.ovf ∧
  recordStands op auto direct reason tag detail s.cond.head s.cond.seq t.mem ∧
  latched 56 t = true ∧ (reason ≠ rOk → reason ≠ rPartial → latched 57 t = true)

/-- The commands cs ended with a reason, none of them started: their records stand in the ring in that order from where the head was, each
with the detail word of a command that ends before it does anything, with sources 56 and 57 (R335, R338, R342). -/
def emptied (reason : Nat) (cs : List Cmd) (s t : State) : Prop :=
  t.cond.head = s.cond.head + BitVec.ofNat 5 cs.length ∧ t.cond.seq = s.cond.seq + BitVec.ofNat 8 cs.length ∧ t.cond.ovf = s.cond.ovf ∧
  (∀ p ∈ cs.zipIdx, recordStands p.1.op p.1.auto false reason p.1.tag (restDetail s p.1) (s.cond.head + BitVec.ofNat 5 p.2)
    (s.cond.seq + BitVec.ofNat 8 p.2) t.mem) ∧
  latched 56 t = true ∧ latched 57 t = true

/-- Command c ended: nothing runs, and its record stands in the ring. -/
def ended (c : Cmd) (reason : Nat) (detail : Word) (s t : State) : Prop :=
  t.cond.running = none ∧ answered c.op c.auto false reason c.tag detail s t

/-- The always-on domain, the host interface, the result ring and the queue are as before, and so are the registers the host
wrote to the clocks, the front end, the sequencer, the output and the ledger, its sums and the sealed copies. -/
def besideConductor (s t : State) : Prop :=
  t.pins = s.pins ∧ t.pwr = s.pwr ∧ t.rtc = s.rtc ∧ t.alm = s.alm ∧ t.hif = s.hif ∧ t.res = s.res ∧ t.free = s.free ∧
  t.pending = s.pending ∧ t.clk.src = s.clk.src ∧ t.clk.plans = s.clk.plans ∧ t.afe.ctl = s.afe.ctl ∧ t.tt.ctl = s.tt.ctl ∧
  (s.out.due = none → t.out.code = s.out.code) ∧ t.out.cfg = s.out.cfg ∧ t.ldg.ctl = s.ldg.ctl ∧ t.ldg.run = s.ldg.run ∧
  t.ldg.cnt = s.ldg.cnt ∧
  t.ros.sealed = s.ros.sealed ∧ t.sys.phase = s.sys.phase ∧ t.sys.cause = s.sys.cause

/-- As besideConductor, where holds of inputs end: what these then register takes along what waits for the ledger (R281, R311). -/
def besideHolds (s t : State) : Prop :=
  besideConductor s { t with ldg := s.ldg } ∧ t.ldg.ctl = s.ldg.ctl ∧
    (nothingWaits s → t.ldg.run = s.ldg.run ∧ t.ldg.cnt = s.ldg.cnt)

/-- Every byte of memory outside a to a + n - 1 is as before. -/
def onlyBytes (a n : Nat) (s t : State) : Prop := ∀ x, x < a ∨ a + n ≤ x → memByte t.mem x = memByte s.mem x

/-- What no edge of X32 changes: the pins, the registers the host wrote to every unit, the sealed copies, the calibration, the
array's pages, the host port's pointer and errors, the start and the queue. -/
def besideEdge (s t : State) : Prop :=
  t.pins = s.pins ∧ t.pwr.ctl = s.pwr.ctl ∧ t.pwr.trickle = s.pwr.trickle ∧ t.rtc.offset = s.rtc.offset ∧ t.rtc.dst = s.rtc.dst ∧
  t.rtc.trim = s.rtc.trim ∧ t.hif.ptr = s.hif.ptr ∧ t.hif.err = s.hif.err ∧ t.evt.mask = s.evt.mask ∧
  t.evin.incfg = s.evin.incfg ∧ t.clk.src = s.clk.src ∧ t.clk.plans = s.clk.plans ∧ t.clk.limits = s.clk.limits ∧
  t.afe.ctl = s.afe.ctl ∧ t.ros.sealed = s.ros.sealed ∧ t.res.cfg = s.res.cfg ∧ t.out.cfg = s.out.cfg ∧ t.out.gen = s.out.gen ∧
  t.out.staged = s.out.staged ∧ t.ldg.ctl = s.ldg.ctl ∧ t.cal.map = s.cal.map ∧ t.nv.pages = s.nv.pages ∧
  t.sys.phase = s.sys.phase ∧ t.sys.cause = s.sys.cause ∧ t.sys.x32Run = s.sys.x32Run ∧ t.pending = s.pending

/-- The count runs: X32 is declared running, the count has started, no halt is asked for or in force. -/
abbrev counts (s : State) : Prop :=
  s.sys.x32Run = true ∧ s.rtc.started = true ∧ bitOf s.rtc.ctl 0 = false ∧ s.rtc.halted = false

/-- The kticks of the committed shift (R97). -/
def shiftOf (s : State) : Int := match s.rtc.shiftPend with | some v => signed 16 v.toNat | none => 0

/-- The coming edge advances the count by one ktick and by nothing else. -/
abbrev plainEdge (s : State) : Prop :=
  counts s ∧ s.rtc.timePend = none ∧ s.rtc.shiftPend = none ∧ correctionFalls s = false

/-- The repeat code and the seconds of an alarm (Table 6.1). -/
def alarmRep (s : State) (x : Bool) : Nat := fld s.alm.alctl (if x then 17 else 1) 2

/-- The seconds of an alarm's target. -/
def alarmSec (s : State) (x : Bool) : Word := if x then s.alm.alm1 else s.alm.alm0

/-- What an occurrence of the clocks or of an input leaves as it was: the pins, the always-on domain, the registers the host
wrote to every unit, the sealed copies, the calibration, the array's pages, the host port and the queue. -/
def besideInputs (s t : State) : Prop :=
  t.pins = s.pins ∧ t.pwr = s.pwr ∧ t.rtc = s.rtc ∧ t.alm = s.alm ∧ t.hif = s.hif ∧ t.evt.mask = s.evt.mask ∧
  t.evin.incfg = s.evin.incfg ∧ t.clk.src = s.clk.src ∧ t.clk.plans = s.clk.plans ∧ t.clk.limits = s.clk.limits ∧
  t.afe.ctl = s.afe.ctl ∧ t.tt.ctl = s.tt.ctl ∧ t.ros.sealed = s.ros.sealed ∧ t.out.cfg = s.out.cfg ∧ t.out.gen = s.out.gen ∧
  t.out.staged = s.out.staged ∧ t.ldg.ctl = s.ldg.ctl ∧ t.cal.map = s.cal.map ∧
  t.nv.pages = s.nv.pages ∧ t.sys.phase = s.sys.phase ∧ t.sys.cause = s.sys.cause ∧ t.pending = s.pending

/-- Run i of the frame. -/
def runOf (s : State) (i : BitVec 7) : CarRun := match s.tt.frame with | some f => runAt f i.toNat | none => CarRun.fresh

/-- Carriage i of s, c with frame version d, is the next to start; u is the machine at its start qtick and f its frame there. -/
abbrev startsAt (i : BitVec 7) (s u : State) (f : Frame) (c : Carriage) (d : List Byte) : Prop :=
  u = toStart i.toNat s ∧ u.tt.frame = some f ∧ c = carAt f.img.cars i.toNat ∧ d = versionOr u f c.ch ∧
    mayStart i.toNat c.op s = true

/-- The row of an operation (Table 10.2). -/
def startRows (i : BitVec 7) (op : Nat) : List Instr :=
  if op = oExcite then [.excite i] else if op = oExcOff then [.excOff i] else if op = oConvert then [.convert i]
  else if op = oAux then [.aux i] else if op = oCorrect then [.correct i] else if op = oCouple then [.couple i]
  else if op = oEmit then [.emit i] else if op = oAoutSet then [.aoutSet i] else if op = oLedgerAdd then [.ledgerAdd i]
  else if op = oMark then [.mark i] else []

/-- Memory words stand one behind another at an address. -/
def wordsAt (a : Nat) (ws : List Word) (m : List Host.Cell) : Prop := ∀ k < ws.length, memWord m (a + 4 * k) = ws.getD k 0

/-- A record for the result ring was produced (R209, R210, R213 to R216): its sequence number is spent; a SETTLING record is counted and
dropped unless kept; else it stands in the latest values where it goes there, and in the ring where the head was, unless the ring is
full, which counts the loss. -/
def recorded (ch : BitVec 5) (stamp : Stamp) (value : Word) (flags : BitVec 16) (latest : Bool) (s t : State) : Prop :=
  ∀ (fl : BitVec 16) (ws : List Word), fl = (flags &&& ~~~fCoarse) ||| flagIf stamp.coarse fCoarse →
    ws = [stamp.frac, stamp.sec, value, put 0 5 ch.toNat ||| put 5 11 (fl.toNat / 32) ||| put 16 16 s.res.seq.toNat] →
    t.res.seq = s.res.seq + 1 ∧ t.res.tail = s.res.tail ∧ t.res.cfg = s.res.cfg ∧
    (fl &&& fSettling ≠ 0 ∧ bitOf s.res.cfg 0 = false →
      t.res.settleDrop = min 255 (s.res.settleDrop + 1) ∧ t.res.head = s.res.head ∧ t.mem = s.mem) ∧
    (fl &&& fSettling = 0 ∨ bitOf s.res.cfg 0 = true →
      (latest = true → wordsAt (0x1400 + 16 * ch.toNat) ws t.mem) ∧
      ((s.res.head - s.res.tail).toNat < 256 →
        t.res.head = s.res.head + 1 ∧ t.res.ovf = s.res.ovf ∧ wordsAt (0x6000 + 16 * (s.res.head.toNat % 256)) ws t.mem ∧
        (fld s.res.cfg 8 8 ≠ 0 → (s.res.head - s.res.tail).toNat + 1 = fld s.res.cfg 8 8 → latched 42 t = true)) ∧
      (256 ≤ (s.res.head - s.res.tail).toNat →
        t.res.head = s.res.head ∧ t.res.ovf = min 255 (s.res.ovf + 1) ∧ latched 43 t = true) ∧
      ∀ x, ¬(latest = true ∧ 0x1400 + 16 * ch.toNat ≤ x ∧ x < 0x1410 + 16 * ch.toNat) →
        ¬(0x6000 + 16 * (s.res.head.toNat % 256) ≤ x ∧ x < 0x6010 + 16 * (s.res.head.toNat % 256)) →
        memByte t.mem x = memByte s.mem x)

/-- A record of an occurrence, with the flags of bits 15 to 7 of its fourth word, was written to the event log where its head was, or its
loss to a full log counted (R249 to R251). -/
def loggedAs (fl : Word) (source : Nat) (stamp : Stamp) (detail : Word) (s t : State) : Prop :=
  t.evin.seq = s.evin.seq + 1 ∧ t.evin.tail = s.evin.tail ∧
  ((s.evin.head - s.evin.tail).toNat < 64 → t.evin.head = s.evin.head + 1 ∧ t.evin.ovf = s.evin.ovf ∧
    wordsAt (0x7000 + 16 * (s.evin.head.toNat % 64))
      [stamp.frac, stamp.sec, detail, put 0 6 source ||| put 6 1 stamp.coarse.toNat ||| fl ||| put 16 16 s.evin.seq.toNat] t.mem ∧
    ∀ x, ¬(0x7000 + 16 * (s.evin.head.toNat % 64) ≤ x ∧ x < 0x7010 + 16 * (s.evin.head.toNat % 64)) →
      memByte t.mem x = memByte s.mem x) ∧
  (64 ≤ (s.evin.head - s.evin.tail).toNat → t.evin.head = s.evin.head ∧ t.evin.ovf = min 255 (s.evin.ovf + 1) ∧
    latched 43 t = true ∧ t.mem = s.mem)

/-- A record of an occurrence that starts no frame and has no flag. -/
def logged (source : Nat) (stamp : Stamp) (detail : Word) (s t : State) : Prop := loggedAs 0 source stamp detail s t

/-- Nothing registers at the coming edge but firings of the alarms and of the countdown: the inputs are off and SYNC stands, no frame or ledger
command is under way, TT_START is off, a second tick triggers nothing, and no record of the present qtick stands. -/
abbrev firingsAlone (s : State) : Prop :=
  fld s.evin.incfg 24 6 = 0 ∧ s.pins.sync = s.evin.syncLevel ∧ quietMoment s ∧ s.evin.handAt = none ∧
    s.evin.cmpAt = none ∧ s.evin.recs = none ∧ s.evin.fresh = 0 ∧ s.tt.frame = none ∧ s.tt.await = none ∧ bitOf s.tt.ctl 3 = false ∧
    secTriggers s = false ∧ s.cond.running = none ∧ s.cond.switchDone = []

/-- The stamp of the coming edge, where it advances the count by one ktick: its fine part is 0 (R118). -/
def nextStamp (s : State) : Stamp :=
  { sec := word ((countNow s + 1) / 32768), frac := word ((countNow s + 1) % 32768 * 131072), coarse := !fineClock s }

/-- An action bit of alarm x: 0 frame, 1 aout, 2 lap (Table 6.2). -/
def alAct (s : State) (x : Bool) (i : Nat) : Bool := alBit s x (4 + i)

/-- The actions alarm x asks for of which at least one is not performed (R120, Table 6.2): without the main domain, under the warning, or
where no trigger reaches the sequencer or the ledger takes no lap. That a trigger merely ignored, with TT_CTL.en 0, no active table, MEAS in
reset or the grace of SHIP running, counts as one not performed is the model's choice (log entry 29); which lap the ledger takes is as log
entry 19 reads R281. -/
def actionMissed (s : State) (x : Bool) : Bool :=
  (alAct s x 0 && !trigReaches s) || (alAct s x 1 && !(mainUp s && !s.pwr.warn)) || (alAct s x 2 && !(mainUp s && lapAllowed s))

/-- Memory is as before but for the latest values and the result ring (Table 4.1). -/
def besideResults (s t : State) : Prop :=
  ∀ x, ¬(0x1400 ≤ x ∧ x < 0x1600) → ¬(0x6000 ≤ x ∧ x < 0x7000) → memByte t.mem x = memByte s.mem x

end Sys2Proof.Machine
end

