-- ==== Sys2Proof/Certificates/Slice0/Obligations.lean ====
section
/-! DEFINITION. The statements about the machine, one definition each; nothing here is proved. -/

open Sys2Proof Sys2Proof.Machine

/-- TIME_WRITE and CALENDAR_WRITE hold a time pending (R100, R110); a calendar pair that cannot be converted is rejected with
its cause (R111): nothing else changes. -/
def Obligations.TimeAndCalendarWrites : Prop :=
  ∀ z, HostReady z →
    (∀ s, s = moved 11 z → ∀ w, exec (.timeWrite w) z = .next { s with rtc := { s.rtc with timePend := some w } }) ∧
    (∀ s, s = moved 16 z → ∀ c0 c1 sec, calendarSec c0 c1 (offsetOf s.rtc.offset) = .inr sec →
      exec (.calendarWrite c0 c1) z = .next { s with rtc := { s.rtc with timePend := some sec } }) ∧
    (∀ s, s = moved 16 z → ∀ c0 c1 rej, calendarSec c0 c1 (offsetOf s.rtc.offset) = .inl rej →
      exec (.calendarWrite c0 c1) z = .next (raise 15 { s with rtc := { s.rtc with ctl := setFld s.rtc.ctl 8 3 rej } }))

/-- LOCAL_OFFSET_WRITE, DST_FWD and DST_BACK (R112): the offset and dst as written; one hour on or back where dst and the offset
allow it; any other command, and a write of RTC_LOCAL with both DST bits, changes nothing and is rejected with cause 5. -/
def Obligations.LocalTimeAndDaylightSaving : Prop :=
  ∀ z, HostReady z →
    (∀ s, s = moved 17 z → ∀ o d, exec (.localOffsetWrite o d) z = .next { s with rtc := { s.rtc with offset := o, dst := d } }) ∧
    (∀ s, s = moved 17 z → s.rtc.dst = false → offsetOf s.rtc.offset ≤ 59 →
      exec .dstFwd z = .next { s with rtc := { s.rtc with offset := s.rtc.offset + 4, dst := true } }) ∧
    (∀ s, s = moved 17 z → (s.rtc.dst = true ∨ 59 < offsetOf s.rtc.offset) →
      exec .dstFwd z = .next (raise 15 { s with rtc := { s.rtc with ctl := setFld s.rtc.ctl 8 3 5 } })) ∧
    (∀ s, s = moved 17 z → s.rtc.dst = true → -60 ≤ offsetOf s.rtc.offset →
      exec .dstBack z = .next { s with rtc := { s.rtc with offset := s.rtc.offset - 4, dst := false } }) ∧
    (∀ s, s = moved 17 z → (s.rtc.dst = false ∨ offsetOf s.rtc.offset < -60) →
      exec .dstBack z = .next (raise 15 { s with rtc := { s.rtc with ctl := setFld s.rtc.ctl 8 3 5 } })) ∧
    (∀ s, s = moved 17 z → ∀ (w : Word) (n : Nat), bitOf w 8 = true → bitOf w 9 = true →
      Completes (.registerWrite 0x44 (leBytes 4 w.toNat) n) z (fun t =>
        t.rtc = { s.rtc with ctl := setFld s.rtc.ctl 8 3 5 } ∧ latched 15 t = true ∧ t.alm = s.alm ∧
        besideMoment s { t with rtc := s.rtc, evt := s.evt }))

/-- SHIFT_WRITE, RTC_HALT, RTC_RELEASE and TRIM_WRITE (R99, R101, R102, R104). -/
def Obligations.ShiftHaltTrim : Prop :=
  ∀ z, HostReady z →
    (∀ s, s = moved 14 z → ∀ v, v ≠ 0x8000 → bitOf s.rtc.ctl 0 = false → s.rtc.started = true →
      exec (.shiftWrite v) z =
        .next { s with rtc := { s.rtc with shiftPend := if v = 0 then none else some v, shiftShown := v != 0 } }) ∧
    (∀ s, s = moved 14 z → ∀ v, (v = 0x8000 ∨ bitOf s.rtc.ctl 0 = true ∨ s.rtc.started = false) →
      exec (.shiftWrite v) z = .next (raise 15 { s with rtc := { s.rtc with ctl := setFld s.rtc.ctl 8 3 4 } })) ∧
    (∀ s, s = moved 13 z → exec .rtcHalt z = .next { s with rtc := { s.rtc with ctl := s.rtc.ctl ||| 1 } }) ∧
    (∀ s, s = moved 13 z → exec .rtcRelease z = .next { s with rtc := { s.rtc with ctl := s.rtc.ctl &&& ~~~1 } }) ∧
    (∀ s, s = moved 18 z → ∀ v, exec (.trimWrite v) z = .next { s with rtc := { s.rtc with trim := v } })

/-- ALARM_WRITE and COUNTDOWN_LOAD: the register takes its bits, an enabled alarm is checked at the next edge (R116), the
countdown's load waits for it (R125). -/
def Obligations.AlarmWrites : Prop :=
  ∀ z, HostReady z →
    (∀ s, s = moved 19 z → ∀ w, exec (.alarmWrite 0 w) z = .next { s with alm := { s.alm with
      alm0 := w, chk0 := s.alm.chk0 || bitOf s.alm.alctl 0, chk1 := s.alm.chk1 || bitOf s.alm.alctl 16 } }) ∧
    (∀ s, s = moved 20 z → ∀ w, exec (.alarmWrite 1 w) z = .next { s with alm := { s.alm with
      alm1 := w, chk0 := s.alm.chk0 || bitOf s.alm.alctl 0, chk1 := s.alm.chk1 || bitOf s.alm.alctl 16 } }) ∧
    (∀ s, s = moved 21 z → ∀ w, exec (.alarmWrite 2 w) z = .next { s with alm := { s.alm with
      alctl := maskIn 0x1FFF1FFF s.alm.alctl w, chk0 := s.alm.chk0 || bitOf w 0, chk1 := s.alm.chk1 || bitOf w 16 } }) ∧
    (∀ s, s = moved 22 z → ∀ v, exec (.countdownLoad v) z = .next { s with alm := { s.alm with loadPend := some v } })

/-- RESULT_TAIL_WRITE, EVT_LOG_TAIL_WRITE and CMD_CPL_TAIL_WRITE: the tail takes the value unless the count would exceed the
ring (R214, R251, R337). -/
def Obligations.RingTails : Prop :=
  ∀ z, HostReady z →
    (∀ s, s = moved 38 z → ∀ v, exec (.resultTailWrite v) z =
      .next { s with res := { s.res with tail := if (s.res.head - v).toNat ≤ 256 then v else s.res.tail } }) ∧
    (∀ s, s = moved 46 z → ∀ v, exec (.evtLogTailWrite v) z =
      .next { s with evin := { s.evin with tail := if (s.evin.head - v).toNat ≤ 64 then v else s.evin.tail } }) ∧
    (∀ s, s = moved 59 z → ∀ v, exec (.cmdCplTailWrite v) z =
      .next { s with cond := { s.cond with tail := if (s.cond.head - v).toNat ≤ 16 then v else s.cond.tail } })


/-- CASTLE_MODE_WRITE, FIRST_CASTLING_CLEAR and TRICKLE_WRITE: PWR_CTL takes its bits, a castle_mode of 0b11 leaving that field
(Table 2.9); the first-castling fields await their clear edge (R40); PWR_TRICKLE takes a value only under its key (R46). -/
def Obligations.PowerWrites : Prop :=
  ∀ z, HostReady z →
    (∀ s, s = moved 6 z → ∀ w, fld w 0 2 ≠ 3 → exec (.castleModeWrite w) z =
      .next { s with pwr := { s.pwr with ctl := maskIn 0x1137 s.pwr.ctl w } }) ∧
    (∀ s, s = moved 6 z → ∀ w, fld w 0 2 = 3 → exec (.castleModeWrite w) z =
      .next { s with pwr := { s.pwr with ctl := maskIn 0x1134 s.pwr.ctl w } }) ∧
    (∀ s, s = moved 7 z → exec .firstCastlingClear z = .next { s with pwr := { s.pwr with clearPend := true } }) ∧
    (∀ s, s = moved 8 z → ∀ w, fld w 24 8 ≠ 0x5C → exec (.trickleWrite w) z = .next s) ∧
    (∀ s, s = moved 8 z → ∀ w, fld w 24 8 = 0x5C → fld w 1 2 ≠ 3 → fld w 4 2 ≠ 3 →
      Completes (.trickleWrite w) z (fun t =>
        t.pwr.trickle = w &&& 0x77 ∧ t.pwr.ctl = s.pwr.ctl ∧ { t with pwr := s.pwr, evt := s.evt } = s)) ∧
    (∀ s, s = moved 8 z → ∀ w, fld w 24 8 = 0x5C →
      Completes (.trickleWrite w) z (fun t =>
        (fld w 1 2 = 3 → fld t.pwr.trickle 1 2 = fld s.pwr.trickle 1 2) ∧
        (fld w 4 2 = 3 → fld t.pwr.trickle 4 2 = fld s.pwr.trickle 4 2) ∧ { t with pwr := s.pwr, evt := s.evt } = s))

/-- EVT_STAT_CLEAR and EVT_MASK_WRITE: the sources written 1 are cleared and leave the served set, but for one raised in the very
qtick or ktick of the write (R12, R254, R259); a mask word is
taken whole, the always-on copy with EVT_MASK0 (R256, R258). IRQN is low while a source is pending and unmasked (R257): by the always-on copy
for sources 8 to 15 while the main domain is off, and from the release of main reset until main_ready (R258); it is released in main reset and
in SHIP (R51). -/
def Obligations.EventWrites : Prop :=
  (∀ z, HostReady z →
    (∀ s, s = moved 40 z → ∀ w, Completes (.evtStatClear false w) z (fun t =>
      (∀ n, latched n t = (latched n s && (isNow n s || !(decide (n < 32) && w.getLsbD n)))) ∧
      t.evt.mask = s.evt.mask ∧ t.evt.copy = s.evt.copy ∧
      t.hif = { s.hif with served := s.hif.served &&& pendingSet t } ∧ { t with evt := s.evt, hif := s.hif } = s)) ∧
    (∀ s, s = moved 41 z → ∀ w, Completes (.evtStatClear true w) z (fun t =>
      (∀ n, latched n t = (latched n s && (isNow n s || !(decide (32 ≤ n) && w.getLsbD (n - 32))))) ∧
      t.evt.mask = s.evt.mask ∧ t.evt.copy = s.evt.copy ∧
      t.hif = { s.hif with served := s.hif.served &&& pendingSet t } ∧ { t with evt := s.evt, hif := s.hif } = s)) ∧
    (∀ s, s = moved 42 z → ∀ w, Completes (.evtMaskWrite false w) z (fun t =>
      regRead t 42 = w ∧ regRead t 43 = regRead s 43 ∧ t.evt.copy = BitVec.ofNat 8 (fld w 8 8) ∧ t.evt.stat = s.evt.stat ∧
      t.hif = { s.hif with served := s.hif.served &&& pendingSet t } ∧ { t with evt := s.evt, hif := s.hif } = s)) ∧
    (∀ s, s = moved 43 z → ∀ w, Completes (.evtMaskWrite true w) z (fun t =>
      regRead t 43 = w ∧ regRead t 42 = regRead s 42 ∧ t.evt.copy = s.evt.copy ∧ t.evt.stat = s.evt.stat ∧
      t.hif = { s.hif with served := s.hif.served &&& pendingSet t } ∧ { t with evt := s.evt, hif := s.hif } = s))) ∧
  (∀ v : State,
    (v.pwr.ship = true → irqnLow v = false) ∧
    (v.pwr.ship = false → v.pwr.aonOn = true → v.pwr.mainOn = false →
      (irqnLow v = true ↔ ∃ n ∈ List.range' 8 8, latched n v = true ∧ v.evt.copy.getLsbD (n - 8) = false)) ∧
    (v.pwr.mainOn = true → v.sys.phase = .held → irqnLow v = false) ∧
    (v.pwr.ship = false → mainUp v = true → mainReady v = false →
      (irqnLow v = true ↔ ∃ n ∈ List.range 64, latched n v = true ∧
        (if 8 ≤ n ∧ n ≤ 15 then v.evt.copy.getLsbD (n - 8) else v.evt.mask.getLsbD n) = false)) ∧
    (v.pwr.ship = false → mainUp v = true → mainReady v = true →
      (irqnLow v = true ↔ ∃ n ∈ List.range 64, latched n v = true ∧ v.evt.mask.getLsbD n = false)))

/-- AOUT_CODE_WRITE, SPAN_CHANGE and GENERATOR_RESTART: code and staged apply together and clear the fault (R268); a changed span
starts an interval of three ktick edges (R270); the generator restarts from 0 (R274). -/
def Obligations.OutputWrites : Prop :=
  ∀ z, HostReady z →
    (∀ s, s = moved 47 z → ∀ w, Completes (.aoutCodeWrite w) z (fun t =>
      t.out.code = w.setWidth 16 ∧ t.out.staged = BitVec.ofNat 16 (fld w 16 16) ∧ t.out.fault = false ∧
      t.out.taken = (if dacClock s = true then w.setWidth 16 else s.out.taken) ∧ t.out.cfg = s.out.cfg ∧
      { t with out := s.out } = s)) ∧
    (∀ s, s = moved 48 z → ∀ w, Completes (.spanChange w) z (fun t =>
      t.out.cfg = w &&& 0xFFFF007F ∧ t.out.ivl = (if cfgSpan s = w.setWidth 2 then s.out.ivl else some 3) ∧
      t.out.span = s.out.span ∧ t.out.code = s.out.code ∧ { t with out := s.out } = s)) ∧
    (∀ s, s = moved 49 z → ∀ w, Completes (.generatorRestart w) z (fun t =>
      t.out.gen = w &&& 0xFFFFFFF3 ∧ t.out.g = 0 ∧ t.out.dirUp = true ∧ t.out.lfsr = 0x7FFFFF ∧ t.out.code = s.out.code ∧
      { t with out := s.out } = s))

/-- CLK_SPREAD_WRITE copies the spread parameters, in profile mode the used points of the profile table (Table 7.11), or faults with
source 23 (R145); where no spread period is in progress they take effect at once (log entry 67); AFE_CTL_WRITE takes effect with the next
frame, port_en at once while the sequencer is off (R170, R315); EVT_INCFG_WRITE takes the whole word (R369). -/
def Obligations.FrontEndWrites : Prop :=
  ∀ z, HostReady z →
    (∀ s, s = moved 29 z → ∀ w, Completes (.clkSpreadWrite w) z (fun t =>
      t.clk.spread = w &&& 0xFFFF01F3 ∧ t.clk.src = s.clk.src ∧ t.clk.state = s.clk.state ∧
      (bitOf w 0 = false → spreadTakes .off s t ∧ t.evt = s.evt) ∧
      (bitOf w 0 = true → bitOf w 1 = false → 4 ≤ fld w 16 12 →
        spreadTakes (.triangle (fld w 4 5) (fld w 16 12)) s t ∧ t.clk.spreadFault = false ∧ t.evt = s.evt) ∧
      (bitOf w 0 = true → bitOf w 1 = false → fld w 16 12 < 4 →
        spreadTakes .off s t ∧ t.clk.spreadFault = true ∧ latched 23 t = true) ∧
      (bitOf w 0 = true → bitOf w 1 = true →
        (∀ x ∈ profilePts t, x.1 ≤ 1310 ∧ x.2 ≠ 0) ∧ 64 ≤ ((profilePts t).map (fun x => x.2)).sum →
        spreadTakes (.profile (profilePts t)) s t ∧ t.clk.spreadFault = false ∧ t.evt = s.evt) ∧
      (bitOf w 0 = true → bitOf w 1 = true →
        ((∃ x ∈ profilePts t, 1310 < x.1 ∨ x.2 = 0) ∨ ((profilePts t).map (fun x => x.2)).sum < 64) →
        spreadTakes .off s t ∧ t.clk.spreadFault = true ∧ latched 23 t = true) ∧
      { t with clk := s.clk, evt := s.evt } = s)) ∧
    (∀ s, s = moved 30 z → ∀ w, Completes (.afeCtlWrite w) z (fun t =>
      t.afe.ctl = w &&& 0x7FFF ∧ t.afe.eff = s.afe.eff ∧ t.afe.diag = s.afe.diag ∧ t.afe.pairA.on = s.afe.pairA.on ∧
      (ttEn s = true → t.disc = s.disc) ∧ (ttEn s = false → t.disc.en = w.setWidth 4) ∧
      { t with afe := s.afe, disc := s.disc } = s)) ∧
    (∀ s, s = moved 44 z → ∀ w, Completes (.evtIncfgWrite w) z (fun t =>
      t.evin.incfg = w ∧ t.rtc = s.rtc ∧ t.alm = s.alm ∧ t.pwr = s.pwr ∧ t.pins = s.pins ∧
      t.nv = s.nv ∧ t.disc = s.disc ∧ t.cal = s.cal ∧ t.hif = s.hif ∧ (nothingWaits s → t.cond = s.cond) ∧ t.pending = s.pending))

/-- TT_ENABLE, TT_DISABLE and TT_START_ARM: en stays 0 without an active table (R197); en written 0 drops a queued trigger and
ends a free run (R201, R205); a written TT_START target is checked at the next edge (R217). -/
def Obligations.SequencerWrites : Prop :=
  ∀ z, HostReady z →
    (∀ s, s = moved 32 z → s.tt.activeValid = true → Completes .ttEnable z (fun t =>
      ttEn t = true ∧ t.tt.queued = s.tt.queued ∧ t.tt.frame = s.tt.frame ∧ t.tt.await = s.tt.await ∧
      { t with tt := s.tt } = s)) ∧
    (∀ s, s = moved 32 z → s.tt.activeValid = false → Completes .ttEnable z (fun t => ttEn t = false)) ∧
    (∀ s, s = moved 32 z → Completes .ttDisable z (fun t =>
      ttEn t = false ∧ t.tt.queued = none ∧ t.tt.freeRun = false ∧ t.tt.frame = s.tt.frame ∧
      (ttEn s = true → t.disc.en = s.afe.ctl.setWidth 4) ∧ (ttEn s = false → t.disc = s.disc) ∧
      { t with tt := s.tt, disc := s.disc } = s)) ∧
    (∀ s, s = moved 36 z → ∀ sec frac, exec (.ttStartArm sec frac) z = .next { s with tt := { s.tt with
      startSec := sec, startFrac := frac &&& 0xFFFE0000, startChk := s.tt.startChk || bitOf s.tt.ctl 3 } })


/-- REGISTER_WRITE of bytes that only hold data: every byte takes its value and every other byte of memory keeps its own, in
ascending order of address (R57); a transfer of more than 256 bytes is rejected whole (R59). A carriage that reads no table
keeps its outcome; a CORRECT whose table the bytes meet keeps it, ends CHECKWORD, or has a value (R225); a carriage in the qtick of
whose start its output-format entry is written may act by either content of each word (R234, log entry 75), and where none runs only
memory changes. The moment of a command moves the HF counter on, with what falls due by then, and nothing else. -/
def Obligations.RegisterWriteBytes : Prop :=
  (∀ (s : State) (n : Nat), besideMoment s (advance n s)) ∧
  (∀ (z : State) (a : BitVec 16) (data : List Byte) (n : Nat), HostReady z → Memory.wf z.mem = true →
    ∀ u, u = busMoved (a.toNat + data.length) (advance n z) →
    (inertRange a.toNat data.length = true → data.length ≤ 256 →
      Completes (.registerWrite a data n) z (fun t =>
        storedAt a.toNat data z.mem t.mem ∧ { t with mem := u.mem, tt := u.tt } = u ∧
        (∀ i, (runOf u i).read = none → runOf t i = runOf u i) ∧
        (∀ i, runOf t i = runOf u i ∨ ((runOf t i).reason = rCheck ∧ (runOf t i).val = none) ∨
          ((runOf t i).reason = rOk ∧ (runOf t i).val ≠ none)))) ∧
    (formatRange a.toNat data.length = true → data.length ≤ 256 →
      Completes (.registerWrite a data n) z (fun t =>
        storedAt a.toNat data z.mem t.mem ∧
        { t with mem := u.mem, tt := u.tt, out := u.out, ldg := u.ldg, free := u.free } = u ∧
        { t.tt with frame := u.tt.frame, fmtWas := u.tt.fmtWas } = u.tt ∧
        ((∀ i : BitVec 7, (runOf u i).fmt = none ∨ (runOf u i).state ≠ .running) →
          t.out = u.out ∧ t.ldg = u.ldg ∧ t.tt.frame = u.tt.frame))) ∧
    (256 < data.length → ∀ v, v = busMoved a.toNat (advance n z) →
      Completes (.registerWrite a data n) z (fun t => rejectedWith 3 a v t ∧ t.hif.ptr = v.hif.ptr)))

/-- SPI_WRITE_FRAME (R57): without CRC the data bytes are committed at the header address and SDO sends the status byte, then
zeros; under CRC a frame whose CRC is wrong is rejected (R66). -/
def Obligations.SpiWriteFrame : Prop :=
  ∀ (s : State) (n : Nat), HostReady s → s.hif.i3c = false → ∀ u, u = advance n s →
    (∀ (a : BitVec 16) (data : List Byte), s.hif.crcEn = false → Memory.wf s.mem = true → data ≠ [] → data.length ≤ 256 →
      inertRange a.toNat data.length = true →
      Completes (.spiWriteFrame (spiHeader 0x3C a ++ data) 0 n) s (fun t =>
        storedAt a.toNat data s.mem t.mem ∧
        t.hif = { s.hif with reply := statusByte u :: List.replicate (data.length + 2) 0 } ∧
        { t with mem := s.mem, hif := s.hif, tt := u.tt } = u)) ∧
    (∀ (a : BitVec 16) (data : List Byte), s.hif.crcEn = true → data ≠ [] → crc8 0 (spiHeader 0x3C a ++ data) ≠ 0 →
      Completes (.spiWriteFrame (spiHeader 0x3C a ++ data) 0 n) s (fun t => rejectedWith 0 a u t))

/-- SPI_READ_FRAME and SPI_STATUS_POLL (R10, R11, R62, R65, R98): after the header and the dummy byte the bytes at the header address
follow, of memory or of a register of the window; a frame of one to three bytes sends the status byte alone. A register read whole
clears its RC flags and takes the value sent from its RC counters, and nothing else changes; a frame that is not whole bytes is
rejected, sends the same and clears nothing. -/
def Obligations.SpiReads : Prop :=
  ∀ (s : State), HostReady s → s.hif.i3c = false →
    (∀ (a : BitVec 16) (dummy : Byte) (rest : List Byte) (n : Nat), s.hif.crcEn = false →
      plainRange a.toNat rest.length = true → ∀ u, u = advance n s →
      exec (.spiReadFrame (spiHeader 0x5A a ++ dummy :: rest) 0 n) s = .next { u with
        hif := { u.hif with reply := [statusByte u, 0, 0, 0] ++ memLoad s.mem a.toNat rest.length } }) ∧
    (∀ (k : Nat) (dummy b0 b1 b2 b3 : Byte) (n : Nat), s.hif.crcEn = false → k < 64 → ∀ u, u = advance n s →
      exec (.spiReadFrame (spiHeader 0x5A (BitVec.ofNat 16 (4 * k)) ++ [dummy, b0, b1, b2, b3]) 0 n) s =
        .next { readClears k u with hif := { (readClears k u).hif with
          reply := [statusByte u, 0, 0, 0] ++ leBytes 4 (regRead u k).toNat } } ∧
      ∀ extra : BitVec 3, extra ≠ 0 →
        Completes (.spiReadFrame (spiHeader 0x5A (BitVec.ofNat 16 (4 * k)) ++ [dummy, b0, b1, b2, b3]) extra n) s (fun t =>
          rejectedWith 1 (BitVec.ofNat 16 (4 * k)) u t ∧
          t.hif.reply = [statusByte u, 0, 0, 0] ++ leBytes 4 (regRead u k).toNat)) ∧
    (∀ bytes : List Byte, 0 < bytes.length → bytes.length < 4 →
      exec (.spiStatusPoll bytes 0) s =
        .next { s with hif := { s.hif with reply := statusByte s :: List.replicate (bytes.length - 1) 0 } })

/-- SPI_FRAME_DURING_COMMIT is rejected as busy (R58) and names no address (log entry 36), and HIF_RESET, at the end of what stood
open, returns the class H fields and HIF_ERR to reset, sets SYS_RESETCAUSE.hif and leaves every other register (R69); what was driven
to the host stands, and so does a reset pattern, while the protocol-error flag clears (log entry 66). -/
def Obligations.BusyAndHifReset : Prop :=
  ∀ s, portHears s = true →
    (s.hif.i3c = false → Completes .spiFrameDuringCommit s (fun t =>
      t.hif.err.getLsbD 5 = true ∧ t.hif.errCount = min 255 (s.hif.errCount + 1) ∧ t.hif.lastAddr = s.hif.lastAddr ∧
      (s.hif.err.getLsbD 5 = false → mainUp s = true → latched 59 t = true) ∧ { t with hif := s.hif, evt := s.evt } = s)) ∧
    ∀ u, u = closeTxn s → Completes .hifReset s (fun t =>
      t.hif = { Hif.reset with
        i3c := u.hif.i3c, addrHi := u.hif.addrHi, reply := u.hif.reply, acks := u.hif.acks, patternSeen := u.hif.patternSeen } ∧
      causeSet 0x400 u t ∧
      t.pwr = { u.pwr with ctl := maskIn 0x1000 u.pwr.ctl 0 } ∧ { t with hif := u.hif, sys := u.sys, pwr := u.pwr } = u)

/-- I2C and I3C transfers to this device's address in a transaction of their own (R31, R59, R70, R72): written bytes are acknowledged
and committed and the pointer moves past them; of more than 256 data bytes the 257th and all after it are not acknowledged and
nothing is committed; a parity error rejects the transfer and sets the protocol-error flag (R74); a read gives the bytes at
the pointer, which moves past them, and a transfer cut inside a byte is a rejected frame; another address is not acknowledged. A
rejected write leaves the pointer at its header address, and last_addr of a cut read is the pointer (log entry 64). A register read
after a repeated START is the one snapshot of the open transaction where it is not RW (R10, R55), and of the five time registers the
shadows, captured at the first such read (R97, R98). -/
def Obligations.BusTransfers : Prop :=
  (∀ (s : State) (n : Nat), HostReady s → busOpen s = true → Memory.wf s.mem = true → ∀ u, u = advance n s →
    (∀ (a : BitVec 16) (data : List Byte), data ≠ [] →
      (data.length ≤ 256 → inertRange a.toNat data.length = true →
        (s.hif.dynAddr = 0 → Completes (.i2cWriteTransfer false (staticAddr s) (busBytes a data) false true n) s (fun t =>
          storedAt a.toNat data s.mem t.mem ∧ t.hif = { u.hif with
            ptr := a + BitVec.ofNat 16 data.length, reply := [], acks := List.replicate (data.length + 3) true, busIdle := 0 } ∧
          { t with mem := s.mem, hif := u.hif, tt := u.tt } = u)) ∧
        (s.hif.dynAddr ≠ 0 → Completes (.i3cPrivateWrite false s.hif.dynAddr (busBytes a data) ⟨true, false⟩ true n) s (fun t =>
          storedAt a.toNat data s.mem t.mem ∧ t.hif = { u.hif with
            ptr := a + BitVec.ofNat 16 data.length, reply := [], acks := [true], busIdle := 0 } ∧
          { t with mem := s.mem, hif := u.hif, tt := u.tt } = u))) ∧
      (256 < data.length → s.hif.dynAddr = 0 →
        Completes (.i2cWriteTransfer false (staticAddr s) (busBytes a data) false true n) s (fun t => rejectedWith 3 a u t ∧
          t.hif.acks = List.replicate 259 true ++ List.replicate (data.length - 256) false)) ∧
      (s.hif.dynAddr ≠ 0 →
        Completes (.i3cPrivateWrite false s.hif.dynAddr (busBytes a data) ⟨false, false⟩ true n) s (fun t =>
          rejectedWith 7 a u t ∧ t.hif.protoErr = true ∧ t.hif.ptr = a) ∧
        Completes (.i3cPrivateWrite false s.hif.dynAddr (busBytes a data) ⟨true, true⟩ true n) s (fun t =>
          rejectedWith 1 a u t ∧ t.hif.protoErr = s.hif.protoErr ∧ t.hif.ptr = a)) ∧
      (s.hif.dynAddr = 0 → Completes (.i2cWriteTransfer false (staticAddr s) (busBytes a data) true true n) s (fun t =>
        rejectedWith 1 a u t ∧ t.hif.ptr = a))) ∧
    (∀ len : Nat, plainRange s.hif.ptr.toNat len = true →
      (s.hif.dynAddr = 0 → exec (.i2cReadTransfer (staticAddr s) len ⟨false, true, false, n⟩) s = .next { u with
        hif := { u.hif with reply := memLoad s.mem s.hif.ptr.toNat len, ptr := s.hif.ptr + BitVec.ofNat 16 len
                            acks := [true], busIdle := 0 } }) ∧
      (s.hif.dynAddr = 0 → Completes (.i2cReadTransfer (staticAddr s) len ⟨false, true, true, n⟩) s (fun t =>
        rejectedWith 1 s.hif.ptr u t)) ∧
      (s.hif.dynAddr ≠ 0 → Completes (.i3cPrivateRead s.hif.dynAddr len ⟨false, true, true, n⟩) s (fun t =>
        rejectedWith 1 s.hif.ptr u t)) ∧
      (s.hif.dynAddr ≠ 0 → exec (.i3cPrivateRead s.hif.dynAddr len ⟨false, true, false, n⟩) s = .next { u with
        hif := { u.hif with reply := memLoad s.mem s.hif.ptr.toNat len, ptr := s.hif.ptr + BitVec.ofNat 16 len
                            acks := [true], busIdle := 0 } })) ∧
    (∀ (dev : BitVec 7) (bytes : List Byte) (c : Bool), (s.hif.dynAddr ≠ 0 ∨ dev ≠ staticAddr s) →
      exec (.i2cWriteTransfer false dev bytes c true n) s = .next { u with
        hif := { u.hif with reply := [], acks := [false], busIdle := 0 } })) ∧
  (∀ (s : State) (n k : Nat) (x : Txn), busOpen s = true → s.hif.txn = some x → s.hif.dynAddr = 0 → k < 64 →
    s.hif.ptr = BitVec.ofNat 16 (4 * k) → ∀ u, u = advance n s →
    Completes (.i2cReadTransfer (staticAddr s) 4 ⟨true, false, false, n⟩) s (fun t =>
      (shadowIdx k = none → t.hif.reply = leBytes 4 (maskIn (rwMask k) (x.snap.getD k 0) (regRead u k)).toNat) ∧
      (∀ i, shadowIdx k = some i →
        (∀ w, x.shadow = some w → t.hif.reply = leBytes 4 (w.getD i 0).toNat) ∧
        (x.shadow = none → x.timeSet = false → ∃ y, t.hif.txn = some y ∧
          y.shadow = some [u.rtc.sec, rtcFrac u, (rtcCal u).1, (rtcCal u).2, rtcLocal u] ∧
          t.hif.reply = leBytes 4 ([u.rtc.sec, rtcFrac u, (rtcCal u).1, (rtcCal u).2, rtcLocal u].getD i 0).toNat)) ∧
      t.hif.ptr = BitVec.ofNat 16 (4 * k + 4) ∧ t.hif.acks = [true] ∧ { t with hif := u.hif } = u))

/-- The dynamic address (R31, R71, R72): ENTDAA gives it to a device without one after the device sent PID, BCR and DCR, SETDASA to
the one at the static address; RSTDAA takes it away; the broadcast address switches the spike filter off. Each opens a transaction, or
behind a repeated START goes on with the open one, and its STOP closes it (R55); no other part of the machine changes but with the
passing of time. The order of the PID's bytes and which device takes part are the model's reading (log entry 37); so are the forms of a
command whose STOP is missing or whose START is a repeated one (log entry 65). -/
def Obligations.DynamicAddress : Prop :=
  ∀ s, busOpen s = true → bareTxn s = true → ∀ u, u = advance s.clk.hf s → ∀ b : Ends,
    (∀ d, s.hif.dynAddr = 0 → exec (.entdaa d b) s =
      .next { u with hif := { cccHif b u [true] with dynAddr := d, reply := pidBytes s ++ [0x06, 0x00] } }) ∧
    (∀ d, s.hif.dynAddr ≠ 0 → exec (.entdaa d b) s = .next { u with hif := cccHif b u [true] }) ∧
    (∀ d, s.hif.dynAddr = 0 → exec (.setdasa ⟨staticAddr s, d⟩ b) s =
      .next { u with hif := { cccHif b u [true, true] with dynAddr := d } }) ∧
    (∀ dev d, (s.hif.dynAddr ≠ 0 ∨ dev ≠ staticAddr s) →
      exec (.setdasa ⟨dev, d⟩ b) s = .next { u with hif := cccHif b u [true, false] }) ∧
    exec (.rstdaa b) s = .next { u with hif := { cccHif b u [true] with dynAddr := 0, filtOn := true, ibiReq := false } } ∧
    exec (.i3cBroadcastAddress b) s = .next { u with hif := { cccHif b u [true] with header := !b.sr && !b.stop } }

/-- The commands that read what the device is (R73, R74) and those that enable its requests (R72, R75); behind a repeated START GETSTATUS
answers from the one snapshot of the open transaction, and clears the flag that it reports (R55, R74). The PID's byte order and the dynamic
address that a direct command needs are the model's reading (log entry 37), and so are the forms of a command whose STOP is missing or whose
START is a repeated one (log entry 65). -/
def Obligations.CommonCommands : Prop :=
  ∀ s, busOpen s = true → s.hif.dynAddr ≠ 0 → bareTxn s = true → ∀ u, u = advance s.clk.hf s → ∀ b : Ends,
    (exec (.getpid b) s = .next { u with hif := { cccHif b u [true, true] with reply := pidBytes s } } ∧
     exec (.getbcr b) s = .next { u with hif := { cccHif b u [true, true] with reply := [0x06] } } ∧
     exec (.getdcr b) s = .next { u with hif := { cccHif b u [true, true] with reply := [0x00] } }) ∧
    (b.sr = false ∨ s.hif.txn = none → exec (.getstatus b) s = .next { u with hif := { cccHif b u [true, true] with
      reply := [statusByte (betweenTxns u), BitVec.ofNat 8 (32 * s.hif.protoErr.toNat + min 15 (countOf (pendingSet s)))]
      protoErr := false, patternSeen := false } }) ∧
    (b.sr = true → ∀ x, s.hif.txn = some x → exec (.getstatus b) s = .next { u with hif := { cccHif b u [true, true] with
      reply := [x.status, BitVec.ofNat 8 (32 * x.proto.toNat + min 15 (countOf (snapPending s)))]
      protoErr := s.hif.protoErr && !x.proto, patternSeen := false } }) ∧
    (exec (.enec ⟨none, true⟩ b) s = .next { u with hif := { cccHif b u [true] with ibiEn := true } } ∧
     exec (.enec ⟨some s.hif.dynAddr, true⟩ b) s = .next { u with hif := { cccHif b u [true, true] with ibiEn := true } }) ∧
    (exec (.disec ⟨none, true⟩ b) s = .next { u with hif := { cccHif b u [true] with ibiEn := false, ibiReq := false } } ∧
     exec (.disec ⟨some s.hif.dynAddr, true⟩ b) s =
       .next { u with hif := { cccHif b u [true, true] with ibiEn := false, ibiReq := false } }) ∧
    (exec (.enec ⟨none, false⟩ b) s = .next { u with hif := cccHif b u [true] } ∧
     exec (.disec ⟨none, false⟩ b) s = .next { u with hif := cccHif b u [true] })

/-- RSTACT, ENTHDR, HDR_EXIT and a common command that is not acknowledged (R72, R74, R76); after ENTHDR what the host sends is ignored
until the exit pattern. Each opens a transaction, or behind a repeated START goes on with the open one, and its STOP closes it (R55, log
entry 65); a direct one needs a dynamic address (log entry 37). -/
def Obligations.BusControl : Prop :=
  (∀ s, busOpen s = true → bareTxn s = true → ∀ u, u = advance s.clk.hf s → ∀ b : Ends,
    (exec (.rstact none 0 b) s = .next { u with hif := { cccHif b u [true] with armSoft := false } } ∧
     exec (.rstact none 1 b) s = .next { u with hif := { cccHif b u [true] with armSoft := true } }) ∧
    (∀ d, d ≠ 0 → d ≠ 1 → exec (.rstact none d b) s = .next { u with hif := cccHif b u [true] }) ∧
    (s.hif.dynAddr ≠ 0 →
      (∀ d, d ≠ 0 → d ≠ 1 → exec (.rstact (some s.hif.dynAddr) d b) s =
        .next { u with hif := { cccHif b u [true, false] with protoErr := true } }) ∧
      exec (.rstact (some s.hif.dynAddr) 1 b) s = .next { u with hif := { cccHif b u [true, true] with armSoft := true } } ∧
      exec (.unacknowledgedCcc b) s = .next { u with hif := { cccHif b u [true, false] with protoErr := true } }) ∧
    exec (.enthdr b) s = .next { u with hif := { cccHif b u [true] with hdr := true } }) ∧
  (∀ s, portOpen s = true → s.hif.i3c = true → bareTxn s = true → (s.hif.txn = none → s.hif.header = false) →
    exec .hdrExit s = .next (betweenTxns { s with hif := { s.hif with hdr := false, busIdle := 0 } })) ∧
  (∀ s, s.hif.i3c = true → s.hif.hdr = true →
    exec .hifReset s = .next s ∧ (∀ d b, exec (.entdaa d b) s = .next s) ∧ (∀ w, exec (.timeWrite w) s = .next s) ∧
    (∀ dev bytes c stop n, exec (.i3cPrivateWrite false dev bytes c stop n) s = .next s) ∧
    (∀ a data n, exec (.registerWrite a data n) s = .next (advance n s)))

/-- The target reset pattern (R76): with action 0x00 armed and none before it, a HIF reset; with action 0x01 armed, or a second
pattern with no GETSTATUS between, main reset, which keeps class A, the fields of PWR among it, and the array. The causes are
those of log entry 46; that the protocol-error flag clears is the model's choice (log entry 66), and so is the grace period of SHIP,
which the reset leaves running (log entry 73). -/
def Obligations.TargetReset : Prop :=
  ∀ s, busOpen s = true → s.pwr.mainOn = true → s.pwr.ship = false → noTxn s →
    (s.hif.armSoft = false → s.hif.patternSeen = false →
      Completes .targetResetPattern s (fun t =>
        t.hif = { Hif.reset with
          i3c := s.hif.i3c, addrHi := s.hif.addrHi, reply := s.hif.reply, acks := s.hif.acks, patternSeen := true, busIdle := 0 } ∧
        causeSet 0x400 s t ∧
        t.pwr = { s.pwr with ctl := maskIn 0x1000 s.pwr.ctl 0 } ∧ { t with hif := s.hif, sys := s.sys, pwr := s.pwr } = s)) ∧
    ((s.hif.armSoft = true ∨ s.hif.patternSeen = true) →
      Completes .targetResetPattern s (fun t =>
        t.sys.phase = .held ∧ (mainReady s = true → t.sys.cause = 0x440) ∧
        t.hif = { Hif.reset with
          i3c := s.hif.i3c, addrHi := s.hif.addrHi, reply := s.hif.reply, acks := s.hif.acks, patternSeen := true, busIdle := 0 } ∧
        t.tt = Tt.reset ∧ t.cond = { Cond.reset with shipped := s.cond.shipped } ∧ t.clk = Clk.reset ∧
        t.pwr = pwrKept 0x1100 s ∧
        t.rtc = { s.rtc with shiftShown := false } ∧ t.alm = s.alm ∧ t.pins = s.pins ∧
        t.nv.pages = s.nv.pages ∧ t.evt.copy = s.evt.copy ∧ t.sys.x32Run = s.sys.x32Run))

/-- The in-band interrupt (R55, R75, R259): a request where a source outside the served set is pending, or as a reminder 32 768
kticks after the last ACK; it begins in a controller's address header at once, or by driving SDA once the bus has been idle
for a whole ktick, for 32 after a NACK, and not before; an ACK sends the lowest source and serves the pending set; a NACK
keeps the served set. Driving SDA opens a transaction (R55), which the STOP of the ACK or NACK closes; without it a repeated START goes on
with that one (log entry 65). -/
def Obligations.InBandInterrupt : Prop :=
  ∀ s, busOpen s = true →
    (s.hif.ibiReq = false →
      (∀ i ∈ [(ibiCalled s, Instr.ibiRequest), (ibiEnabled s && pendingSet s != 0 && s.hif.sinceAck == some 32768, .ibiReminder)],
        i.1 = true →
        (s.hif.header = true → exec i.2 s = .next { s with hif := { s.hif with ibiReq := true } }) ∧
        (s.hif.header = false → s.hif.txn = none → (if s.hif.nacked then 32 else 1) < s.hif.busIdle →
          exec i.2 s = .next { s with hif := { s.hif with
            ibiReq := true, busIdle := 0, txn := some (Txn.new (betweenTxns s)) } }) ∧
        (s.hif.header = false → (s.hif.txn ≠ none ∨ s.hif.busIdle ≤ (if s.hif.nacked then 32 else 1)) →
          exec i.2 s = .next s))) ∧
    (s.hif.ibiReq = true → ∀ stop : Bool, (stop = true → bareTxn s = true) →
      (ibiCalled s = true → exec (.ibiAck stop) s = .next { s with hif := { s.hif with
        reply := [BitVec.ofNat 8 ((lowestOf (pendingSet s)).getD 0)], served := pendingSet s, ibiReq := false
        sinceAck := some 0, nacked := false, busIdle := 0, header := false
        txn := if stop = true then none else s.hif.txn } }) ∧
      exec (.ibiNack stop) s = .next { s with hif := { s.hif with
        ibiReq := false, nacked := true, busIdle := 0, header := false
        txn := if stop = true then none else s.hif.txn } })

/-- One step carries out the command at the front of the queue on the rest; the block idles on an empty queue (model's own
queue, log entry 2). -/
def Obligations.StepRunsTheFrontCommand : Prop :=
  (∀ (c : Instr) (rest : List Instr) (s : State), step { s with pending := c :: rest } = exec c { s with pending := rest }) ∧
  (∀ s : State, s.pending = [] → step s = .next s)

/-- The registers whose reset value the manual gives as a number read it after reset (Tables 2.9 to 18.12), and RSTN returns those of
classes H, N and V to it from any state, RTC_SHIFT too (R102), but that HIF_CFG.mode shows the strap (R31) and NV_STAT.busy a page
operation that goes on (R343); those of class A read as before (R81, R82). -/
def Obligations.ResetRegisters : Prop :=
  regRead State.reset 6 = 0x11 ∧ regRead State.reset 8 = 0x40 ∧ regRead State.reset 13 = 0x2 ∧
  regRead State.reset 28 = 0x19006402 ∧ regRead State.reset 29 = 0x00640081 ∧ regRead State.reset 30 = 0x7030 ∧
  regRead State.reset 32 = 0x2 ∧ regRead State.reset 42 = 0xFFFFFFFF ∧ regRead State.reset 43 = 0xFEFFFFFF ∧
  regRead State.reset 4 = 0x40000 ∧ regRead State.reset 26 = 0x40 ∧ regRead State.reset 50 = 1 ∧
  regRead State.reset 51 = 0x004A03C0 ∧ regRead State.reset 25 = 0x0186A100 ∧ regRead State.reset 15 = 0x06000000 ∧
  regRead State.reset 16 = 0x101 ∧ pwrStat State.reset = 0x00040000 ∧ sysStat State.reset = 0x320 ∧
  (∀ k ∈ [2, 5, 9, 10, 11, 12, 14, 17, 18, 19, 20, 21, 22, 23, 24, 27, 31, 33, 34, 35, 36, 37, 38, 39, 40, 41, 44, 45, 46, 47, 48,
    49, 52, 53, 54, 55, 56, 57, 58, 59, 60], regRead State.reset k = 0) ∧
  (∀ (w : Nat) (s : State), 1000 ≤ w → s.pwr.mainOn = true → s.pwr.ship = false → Completes (.rstn w) s (fun t =>
    (∀ k ∈ [5, 14, 24, 25, 26, 27, 28, 29, 30, 31, 32, 33, 35, 36, 37, 38, 39, 41, 42, 43, 44, 45, 46, 47, 48, 49, 50, 51, 52, 54, 55,
      56, 58, 59, 60], regRead t k = regRead State.reset k) ∧
    regRead t 4 = (if s.hif.i3c = true then 0x50000 else 0x40000) ∧ regRead t 53 = (if s.nv.op.isSome = true then 1 else 0) ∧
    (∀ k ∈ [8, 9, 10, 11, 13, 15, 16, 17, 18, 19, 20, 21, 22, 23], regRead t k = regRead s k)))

/-- The state after reset meets the invariant with nothing in its queue, and so does every state that commands sent to it from there
lead to. -/
def Obligations.ResetMeetsInvariant : Prop :=
  (Invariant State.reset ∧ restoreWaits State.reset = true ∧ State.reset.pending = []) ∧
  (∀ (cs : List Instr) (run : Nat → State) (n : Nat), run 0 = { State.reset with pending := cs } →
    (∀ k : Nat, k < n → step (run k) = .next (run (k + 1))) → Invariant (run n) ∧ restoreWaits (run n) = true)

/-- Every step keeps the invariant: the memory stays in its canonical form and the supplies stay within their ratings; and every step
keeps it true that a RESTORE_CONFIG runs only while a frame, a MEAS reset or a reset of the conductor keeps it from its
boundary (R306, R341, R344). -/
def Obligations.StepKeepsInvariant : Prop :=
  (∀ s t : State, Invariant s → step s = .next t → Invariant t) ∧
  (∀ s t : State, restoreWaits s = true → step s = .next t → restoreWaits t = true)

/-- No command changes the queue of those that wait behind it: that queue, in which the transactions of R55 and the occurrences stand one
behind another, is the model's own (log entry 2). -/
def Obligations.ExecKeepsQueue : Prop := ∀ (c : Instr) (s t : State), exec c s = .next t → t.pending = s.pending

/-- A command stops the block exactly where it carries a supply level beyond the absolute maximum, where nothing is specified
(R351) and the model stops (log entry 58); every other command completes, one whose occurrence cannot come about with no effect (log
entry 4), and none is refused. -/
def Obligations.OnlyLevelsBeyondTheMaximumStop : Prop :=
  ∀ (c : Instr) (s : State),
    ((levelsOf c).any (fun v => decide (4000 < v)) = true → exec c s = .fault .beyondAbsoluteMaximum) ∧
    ((levelsOf c).any (fun v => decide (4000 < v)) = false → ∃ t, exec c s = .next t)

/-- SEAL, TIMETABLE_WRITE and SM_TABLE_WRITE: a seal stores byte 31 and copies the 32 bytes of the descriptor (R173); a table
that is not active and enabled takes the bytes and is no longer installed, one that is takes none (R188); bytes of a
state-machine table return its input to state 0 (R244). -/
def Obligations.TableWrites : Prop :=
  ∀ z, HostReady z → Memory.wf z.mem = true →
    (∀ ch b, ∀ s, s = busMoved (0x1000 + 32 * ch.toNat + 32) z → Completes (.seal ch b) z (fun t =>
      storedAt (0x1000 + 32 * ch.toNat + 31) [b] s.mem t.mem ∧
      t.ros.sealed = s.ros.sealed.set ch.toNat (memLoad t.mem (0x1000 + 32 * ch.toNat) 32) ∧ t.ros.depot = s.ros.depot ∧
      t.tt.ctl = s.tt.ctl ∧ t.afe.ctl = s.afe.ctl ∧
      { t with mem := s.mem, ros := s.ros, afe := s.afe, tt := s.tt, evt := s.evt } = s)) ∧
    (∀ b (off : BitVec 12) data, 0 < data.length → data.length ≤ 256 → off.toNat + data.length ≤ 4096 →
      ∀ s, s = busMoved (ttBase b + off.toNat + data.length) z → (s.tt.activeValid = false ∨ s.tt.active ≠ b ∨ ttEn s = false) → s.tt.swPend ≠ some b →
      Completes (.timetableWrite b off data) z (fun t =>
        storedAt (ttBase b + off.toNat) data s.mem t.mem ∧ instOf t b = none ∧ instOf t (!b) = instOf s (!b) ∧
        t.tt.activeValid = (s.tt.activeValid && s.tt.active != b) ∧ t.tt.ctl = s.tt.ctl ∧
        { t with mem := s.mem, tt := s.tt } = s)) ∧
    (∀ b (off : BitVec 12) data, 0 < data.length → data.length ≤ 256 → off.toNat + data.length ≤ 4096 →
      ∀ s, s = busMoved (ttBase b + off.toNat + data.length) z → s.tt.activeValid = true → s.tt.active = b → ttEn s = true →
      exec (.timetableWrite b off data) z = .next { s with tt := { s.tt with protHit := true } }) ∧
    (∀ input (off : BitVec 5) data, input.toNat < 6 → 0 < data.length → off.toNat + data.length ≤ 32 →
      ∀ s, s = busMoved (0x7500 + 32 * input.toNat + off.toNat + data.length) z →
      Completes (.smTableWrite input off data) z (fun t =>
        storedAt (0x7500 + 32 * input.toNat + off.toNat) data s.mem t.mem ∧
        t.evin = { s.evin with st := s.evin.st.set input.toNat 0 } ∧ { t with mem := s.mem, evin := s.evin } = s))

/-- CLK_SRC_WRITE and CLK_PLAN_WRITE (R129, R130, R134, R149): the register takes its value, a sel of 0b11 leaving that field; MEAS
is on the bypass clock and the sequencer halted; with sel = 0 the clock is OFF, else an acquisition of the selected reference
by the plan in use starts, or on an invalid plan fails. -/
def Obligations.ClockSourceWrites : Prop :=
  ∀ z, HostReady z → nothingRuns z →
    (∀ s, s = moved 24 z → ∀ (w v : Word), v = (if fld w 0 2 = 3 then setFld w 0 2 (clkSel s) else w) &&& 0xF →
      ∀ r, r = selRef { s with clk := { s.clk with src := v } } → Completes (.clkSrcWrite w) z (fun t =>
        t.clk.src = v ∧ t.clk.bypass = true ∧ t.tt.halted = true ∧ t.clk.plans = s.clk.plans ∧ t.clk.active = s.clk.active ∧
        (clkSel t = 0 → t.clk.state = .off ∧ t.clk.ref = .none ∧ t.clk.acq = none) ∧
        (clkSel t ≠ 0 → planValid r (activePlan s) = true → t.clk.state = .acq ∧ t.clk.ref = r ∧ t.clk.acq.isSome = true) ∧
        (clkSel t ≠ 0 → planValid r (activePlan s) = false → t.clk.state = .bypass ∧ t.clk.accErr = 3 ∧ t.clk.acq = none ∧
          latched 17 t = true) ∧
        t.pins = s.pins ∧ t.pwr = s.pwr ∧ t.rtc = s.rtc ∧ t.alm = s.alm ∧ t.hif = s.hif ∧ t.pending = s.pending)) ∧
    (∀ s, s = moved 25 z → ∀ (w : Word) (ps : List Plan), ps = s.clk.plans.set (fld w 2 2) (planOf w) →
      ∀ p, p = ps.getD (fld w 0 2) ⟨0, 0, false⟩ → Completes (.clkPlanWrite w) z (fun t =>
        t.clk.active = w.setWidth 2 ∧ t.clk.view = BitVec.ofNat 2 (fld w 2 2) ∧ t.clk.plans = ps ∧ t.clk.bypass = true ∧
        t.tt.halted = true ∧ t.clk.src = s.clk.src ∧ (clkSel s = 0 → t.clk.state = .off ∧ t.clk.ref = .none) ∧
        (clkSel s ≠ 0 → planValid (selRef s) p = true → t.clk.state = .acq ∧ t.clk.ref = selRef s ∧ t.clk.acq.isSome = true) ∧
        (clkSel s ≠ 0 → planValid (selRef s) p = false → t.clk.state = .bypass ∧ t.clk.accErr = 3 ∧ t.clk.acq = none ∧
          latched 17 t = true) ∧
        t.pins = s.pins ∧ t.pwr = s.pwr ∧ t.rtc = s.rtc ∧ t.alm = s.alm ∧ t.hif = s.hif ∧ t.pending = s.pending))

/-- TT_KICK (R197, R201, R203, R218): with no frame running or awaited a frame with trigger code 11 is awaited, and where HF does not
run its acquisition on the selected reference starts; during a frame the trigger is queued once, or dropped with source 46; on
the bypass clock source 46 reports it; one that registers in the qtick of the queued trigger joins it (R202); without an active, enabled
table, in a MEAS reset and in the grace period of SHIP it has no effect, the last two by log entry 29. A trigger that comes while HF is
neither locked nor stopped is treated as log entry 87 says. -/
def Obligations.AsynchronousTrigger : Prop :=
  ∀ (z : State) (n : Nat), HostReady z → ∀ s, s = moved 34 z → nothingRuns s → quietMoment s → ∀ u, u = moved 34 (advance n z) →
    (trigReaches s = true → s.clk.bypass = false → s.tt.frame = none → s.tt.await = none →
      (hfRunning s = true ∨ (clkSel s ≠ 0 ∧ planValid (selRef s) (activePlan s) = true)) → Completes (.ttKick n) z (fun t =>
        (∃ a, t.tt.await = some a ∧ a.code = 11 ∧ a.coincident = false ∧ a.needLock = (!hfLocked s) ∧
          a.lateStart = (!hfLocked s)) ∧
        (hfRunning s = true → t.clk.state = s.clk.state ∧ t.clk.ref = s.clk.ref) ∧
        (hfRunning s = false → t.clk.state = .acq ∧ t.clk.ref = selRef s) ∧
        t.tt.frame = none ∧ t.tt.queued = s.tt.queued ∧ t.tt.ctl = s.tt.ctl ∧ { t.evt with nowAt := s.evt.nowAt } = s.evt ∧
        { t.evin with cmpAt := s.evin.cmpAt, recs := s.evin.recs } = s.evin ∧ t.pins = s.pins ∧ t.rtc = s.rtc ∧ t.alm = s.alm ∧ t.mem = s.mem ∧ t.hif = s.hif)) ∧
    (trigReaches s = true → s.clk.bypass = false → s.tt.frame ≠ none → Completes (.ttKick n) z (fun t =>
      (bitOf s.tt.ctl 1 = true → s.tt.queued = none →
        t.tt.queued.map (fun q => q.code) = some 11 ∧ t.evt = u.evt ∧ { t.evin with recs := s.evin.recs } = s.evin) ∧
      (∀ x, s.tt.queued = some x → hfLocked s = true → x.reg = some (qtickAt u u.clk.hf) → latched 7 t = true ∧
        t.tt.queued.map (fun q => (q.code.toNat, q.many)) = some (min 11 x.code.toNat, true)) ∧
      ((s.tt.queued = none ∧ bitOf s.tt.ctl 1 = false) ∨
          (∃ x, s.tt.queued = some x ∧ (x.reg = none ∨ x.reg ≠ some (qtickAt u u.clk.hf))) →
        t.tt.queued = s.tt.queued ∧ latched 46 t = true) ∧
      t.tt.frame = u.tt.frame ∧ t.tt.await = s.tt.await ∧ t.clk = u.clk ∧ t.tt.ctl = s.tt.ctl ∧ t.rtc = s.rtc ∧
      t.hif = s.hif)) ∧
    (trigReaches s = true → s.clk.bypass = true → Completes (.ttKick n) z (fun t =>
      latched 46 t = true ∧ t.tt.await = s.tt.await ∧ t.tt.queued = s.tt.queued ∧ t.tt.frame = u.tt.frame ∧ t.rtc = s.rtc ∧
      t.hif = s.hif)) ∧
    (trigReaches s = false → Completes (.ttKick n) z (fun t =>
      t.tt = u.tt ∧ t.evt = u.evt ∧ { t.evin with recs := s.evin.recs } = s.evin ∧ t.mem = s.mem ∧ (mayRest u = false → t.clk = u.clk) ∧
      t.clk.src = s.clk.src ∧ t.rtc = s.rtc ∧ t.hif = s.hif))

/-- LEDGER_ENABLE and LEDGER_DISABLE (R280, R287, R288): en from 0 to 1 recovers the sums and owes a RESUME record of cause 2, where
records still to be written are waited for first (log entries 51 and 68); en from 1 to 0 keeps the sums and takes a CHECKPOINT snapshot, at once on a locked clock and else at the next ktick edge, or where a MEAS reset
ends (log entry 68). -/
def Obligations.LedgerSwitch : Prop :=
  ∀ (z : State) (n : Nat), HostReady z → ∀ s, s = moved 51 z → nothingRuns s → ∀ u, u = moved 51 (advance n z) →
    (ldgEn s = false → s.sys.measRst = false → s.ldg.job = none → s.ldg.jobs = [] → s.ldg.offPend = false →
      Completes (.ledgerEnable n) z (fun t =>
        t.ldg.ctl = (s.ldg.ctl ||| 1) &&& 0x00FFFFF1 ∧ t.ldg.run = (recover s).ldg.run ∧ t.ldg.cnt = (recover s).ldg.cnt ∧
        (∃ j, t.ldg.job = some j ∧ j.snap.kind = 5 ∧ j.snap.cause = 2 ∧ j.snap.seq = (recover s).ldg.seq) ∧
        t.pins = s.pins ∧ t.pwr = s.pwr ∧ t.rtc = s.rtc ∧ t.alm = s.alm ∧ t.hif = s.hif ∧ t.nv.pages = s.nv.pages)) ∧
    (ldgEn s = false → s.sys.measRst = false → recordsDone s = false → s.ldg.offPend = false → Completes (.ledgerEnable n) z (fun t =>
      t.ldg.ctl = (s.ldg.ctl ||| 1) &&& 0x00FFFFF1 ∧ t.ldg.recovers = some 2 ∧ t.ldg.run = s.ldg.run ∧ t.ldg.cnt = s.ldg.cnt ∧
      t.ldg.seq = s.ldg.seq ∧ ldgOn t = false ∧ t.nv.pages = s.nv.pages)) ∧
    Completes (.ledgerDisable n) z (fun t =>
      t.ldg.ctl = s.ldg.ctl &&& 0x00FFFFF0 ∧ t.ldg.run = s.ldg.run ∧ t.ldg.cnt = s.ldg.cnt ∧
      (ldgEn s = false ∨ ldgStarted s = false → s.ldg.offPend = false → t.ldg.offPend = false ∧ t.ldg.seq = s.ldg.seq) ∧
      (ldgEn s = true → ldgStarted s = true → fineClock s = false → t.ldg.offPend = true ∧ t.ldg.seq = s.ldg.seq) ∧
      (ldgOn s = true → fineClock s = true → quietMoment s → s.ldg.job = none → s.ldg.jobs = [] →
        t.ldg.offPend = false ∧ t.ldg.seq = s.ldg.seq + 1 ∧
        (∃ j, t.ldg.job = some j ∧ j.snap.kind = 1 ∧ j.snap.run = s.ldg.run ∧ j.snap.cnt = s.ldg.cnt)) ∧
      t.pins = s.pins ∧ t.pwr = s.pwr ∧ t.rtc = s.rtc ∧ t.alm = s.alm ∧ t.hif = s.hif ∧ t.nv.pages = s.nv.pages)

/-- SOFT_RESET, MEAS_RESET and MEAS_RESET_COMPLETE (R81 to R83, R93, R345): a soft reset holds the main domain in reset with its
cause, keeps class A, the fields of PWR among it, and the host interface, and returns the rest to reset (the cause by log entry
46, the grace period of SHIP by log entry 73); a MEAS reset stops the clock and the frame, starts the generator anew (R274) and keeps what the
host wrote (that TT_STAT.halted is 0 then by log entry 97); its completion starts an acquisition. -/
def Obligations.CommandedResets : Prop :=
  ∀ (z : State) (n : Nat), HostReady z → ∀ s, s = moved 2 z →
    Completes .softReset z (fun t =>
      t.sys.phase = .held ∧ t.sys.cause = 0x020 ∧ t.sys.soft = true ∧ t.tt = Tt.reset ∧ t.clk = Clk.reset ∧
      t.cond = { Cond.reset with shipped := s.cond.shipped } ∧ t.pwr = pwrKept 0x100 s ∧ t.sys.x32Run = s.sys.x32Run ∧
      t.ldg = Ldg.reset ∧ t.res = Res.reset ∧ t.cal = Cal.reset ∧
      t.hif = { s.hif with served := 0 } ∧ t.rtc = { s.rtc with shiftShown := false } ∧ t.alm = s.alm ∧
      t.pins = s.pins ∧ t.nv.pages = s.nv.pages ∧ t.evt.stat = s.evt.stat &&& 0xFF00 ∧ t.pending = s.pending) ∧
    (nothingRuns s → Completes (.measReset n) z (fun t =>
      t.sys.measRst = true ∧ t.sys.cause = s.sys.cause ||| 0x100 ∧ t.clk.state = .off ∧ t.clk.bypass = true ∧
      t.tt.frame = none ∧ t.tt.await = none ∧ t.afe.diag = 0 ∧ t.out.g = 0 ∧ t.out.dirUp = true ∧ t.out.lfsr = 0x7FFFFF ∧
      t.tt.halted = false ∧ t.tt.ctl = s.tt.ctl ∧ t.tt.instA = s.tt.instA ∧
      t.clk.src = s.clk.src ∧ t.clk.plans = s.clk.plans ∧ t.afe.ctl = s.afe.ctl ∧ t.rtc = s.rtc ∧ t.alm = s.alm ∧
      t.pwr = s.pwr ∧ t.pins = s.pins ∧ t.nv.pages = s.nv.pages)) ∧
    (nothingRuns s → s.sys.measRst = true → s.tt.swPend = none → Completes (.measResetComplete n) z (fun t =>
      t.sys.measRst = false ∧
      (clkSel s = 1 → planValid .refin (activePlan s) = true → t.clk.state = .acq) ∧
      t.rtc = s.rtc ∧ t.alm = s.alm ∧ t.pwr = s.pwr ∧ t.pins = s.pins ∧ t.hif = z.hif))

/-- COMMAND_START and UNDEFINED_COMMAND: the front command starts where none runs and its record has room (R332), a LOAD_TT that is not
refused uninstalling its table (R188, R195), the job of a DISCOVER on a port in whatever state (R326) standing at its identification
line with the HF clock started where it is parked (R307, R322), or under a warning it and every command behind it end FAILED/POWER_WARN, in
their order, each with its record (R42, R335, R338); an op that is no command ends
REJECTED_ARGS (R334). -/
def Obligations.CommandStarts : Prop :=
  ∀ (c : Cmd) (s : State) (n : Nat),
    (s.cond.queue.head? = some c → s.cond.running = none → condRuns s = true → mainReady s = true → s.cond.shipped = false →
      s.cond.switchDone = [] → ringRoom s →
      (s.pwr.warn = false → discoverRuns c s = false → Completes (.commandStart n) s (fun t =>
        t.cond.running = some (c, .fresh) ∧ t.cond.queue = s.cond.queue.tail ∧ t.sys.pstate = .run ∧
        (c.op ≠ 1 → t.cond.head = s.cond.head ∧ t.mem = s.mem ∧ t.evt = s.evt ∧ t.tt.instA = s.tt.instA ∧
          t.tt.instB = s.tt.instB) ∧
        (c.op = 1 → instOf t (bitOf c.a0 0) = (if loadRefused c s then instOf s (bitOf c.a0 0) else none) ∧
          instOf t (!bitOf c.a0 0) = instOf s (!bitOf c.a0 0)) ∧ besideConductor s t)) ∧
      (s.pwr.warn = false → discoverRuns c s = true → (hfRunning s = true ∨ planValid (selRef s) (activePlan s) = true) →
        Completes (.commandStart n) s (fun t =>
          t.cond.running = some (c, .disc (DiscJob.new (fld c.a0 0 2)) 0 0) ∧ t.cond.queue = s.cond.queue.tail ∧
          t.sys.pstate = .run ∧ (hfRunning s = true → t.clk.state = s.clk.state) ∧
          (hfRunning s = false → t.clk.state = .acq ∧ t.clk.ref = selRef s) ∧
          t.cond.head = s.cond.head ∧ t.mem = s.mem ∧ t.disc = s.disc ∧ besideConductor s t)) ∧
      (∀ k : Nat, c.op = 3 → c.auto = false → bitOf c.a0 9 = false → fld c.a0 0 2 = k → attached s k = true → clockFault s = none →
        discoverRuns c s = true) ∧
      (s.pwr.warn = true → Completes (.commandStart n) s (fun t =>
        t.cond.running = none ∧ t.cond.queue = [] ∧ besideConductor s t ∧
        (noHolds s → s.nv.suspend = [] → Memory.wf s.mem = true → (s.cond.head - s.cond.tail).toNat + s.cond.queue.length ≤ 16 →
          emptied rPower s.cond.queue s t ∧
          ∀ x, x < 0x7400 ∨ 0x7500 ≤ x → memByte t.mem x = memByte s.mem x)))) ∧
    (startedAs c s → 0x14 ≤ c.op → Completes (.undefinedCommand n) s (fun t =>
      ended c rArgs 0 s t ∧ onlyBytes (nextRecordAt s) 16 s t ∧ besideConductor s t))

/-- LOAD_TT (R194, R195): an image that passes its checks is installed, one that fails names the check and the carriage, the
active and enabled table is refused. -/
def Obligations.TimetableLoad : Prop :=
  ∀ (c : Cmd) (s : State) (n : Nat), startedAs c s → c.op = 1 →
    ((s.tt.activeValid = true ∧ s.tt.active = bitOf c.a0 0 ∧ ttEn s = true) → Completes (.loadTt n) s (fun t =>
      ended c rState 0 s t ∧ onlyBytes (nextRecordAt s) 16 s t ∧ besideConductor s t ∧ t.tt.instA = s.tt.instA ∧
      t.tt.instB = s.tt.instB)) ∧
    ((s.tt.activeValid = false ∨ s.tt.active ≠ bitOf c.a0 0 ∨ ttEn s = false) → s.tt.swPend ≠ some (bitOf c.a0 0) →
      (loadFault (memLoad s.mem (ttBase (bitOf c.a0 0)) 4096) = none → Completes (.loadTt n) s (fun t =>
        ended c rOk (put 16 8 (memByte s.mem (ttBase (bitOf c.a0 0) + 5)).toNat) s t ∧
        onlyBytes (nextRecordAt s) 16 s t ∧ besideConductor s t ∧
        instOf t (bitOf c.a0 0) = some (imageOf (memLoad s.mem (ttBase (bitOf c.a0 0)) 4096)) ∧
        instOf t (!bitOf c.a0 0) = instOf s (!bitOf c.a0 0))) ∧
      (∀ e, loadFault (memLoad s.mem (ttBase (bitOf c.a0 0)) 4096) = some e → Completes (.loadTt n) s (fun t =>
        ended c rArgs (put 0 8 e.1 ||| put 8 8 e.2 ||| put 16 8 (memByte s.mem (ttBase (bitOf c.a0 0) + 5)).toNat) s t ∧
        onlyBytes (nextRecordAt s) 16 s t ∧ besideConductor s t ∧ latched 45 t = true ∧
        instOf t (bitOf c.a0 0) = none ∧ instOf t (!bitOf c.a0 0) = instOf s (!bitOf c.a0 0))))

/-- SWITCH_TT (R195, R196): a table not installed is refused; between frames the switch applies at once with source 44 and the
command's record; during a frame it awaits the frame's end and runs no longer. -/
def Obligations.TimetableSwitch : Prop :=
  ∀ (c : Cmd) (s : State) (n : Nat), startedAs c s → c.op = 2 →
    (instOf s (bitOf c.a0 0) = none → Completes (.switchTt n) s (fun t =>
      ended c rState 0 s t ∧ onlyBytes (nextRecordAt s) 16 s t ∧ besideConductor s t ∧ t.tt.active = s.tt.active)) ∧
    (instOf s (bitOf c.a0 0) ≠ none → s.tt.frame = none → s.cond.switches = [] → Completes (.switchTt n) s (fun t =>
      t.tt.active = bitOf c.a0 0 ∧ t.tt.activeValid = true ∧ t.tt.swPend = none ∧ latched 44 t = true ∧
      t.cond.running = none ∧ answered 2 false false rOk c.tag (put 0 1 (bitOf c.a0 0).toNat) s t ∧
      onlyBytes (nextRecordAt s) 16 s t ∧ besideConductor s t)) ∧
    (instOf s (bitOf c.a0 0) ≠ none → s.tt.frame ≠ none → Completes (.switchTt n) s (fun t =>
      t.tt.swPend = some (bitOf c.a0 0) ∧ t.cond.switches = s.cond.switches ++ [c.tag] ∧ t.cond.running = none ∧
      t.tt.active = s.tt.active ∧ t.cond.head = s.cond.head ∧ t.mem = s.mem ∧ besideConductor s t))

/-- The starts of NV_READ, NV_WRITE, NV_CLEAR, NV_RESUME and NV_ABANDON (R295, R299 to R302): refused arguments and states end
the command, others give it its pages, and the array is unchanged until a page ends. That a refused NV_CLEAR, which has no range, has
detail 0 is the model's choice (log entry 85). -/
def Obligations.NvCommandStarts : Prop :=
  ∀ (c : Cmd) (s : State) (n : Nat), startedAs c s →
    (c.op = 8 → nvPages readable c = none → Completes (.nvRead n) s (fun t => ended c rArgs 0 s t ∧ besideConductor s t)) ∧
    (∀ ps, nvPages readable c = some ps → c.op = 8 → Completes (.nvRead n) s (fun t =>
      t.cond.running = some (c, .pages ps 0 0 0 false false) ∧ t.nv.pages = s.nv.pages ∧ t.mem = s.mem ∧ t.evt = s.evt ∧
      (s.nv.op = none → s.nv.todo = [] → s.ldg.job = none → t.nv.op = some (opRead (ps.headD 0))) ∧ besideConductor s t)) ∧
    (c.op = 9 → nvPages writable c = none → Completes (.nvWrite n) s (fun t => ended c rArgs 0 s t ∧ besideConductor s t)) ∧
    (∀ ps, nvPages writable c = some ps → c.op = 9 →
      (clearHeld s && journalTouches s (fld c.a0 0 9) (fld c.a0 0 9 + fld c.a1 0 5)) = false →
      Completes (.nvWrite n) s (fun t =>
        t.cond.running = some (c, .pages ps 0 0 0 false false) ∧ t.nv.pages = s.nv.pages ∧ t.mem = s.mem ∧ besideConductor s t)) ∧
    (∀ ps, nvPages writable c = some ps → c.op = 9 → clearHeld s = true →
      journalTouches s (fld c.a0 0 9) (fld c.a0 0 9 + fld c.a1 0 5) = true →
      Completes (.nvWrite n) s (fun t => ended c rState 0 s t ∧ t.nv.pages = s.nv.pages ∧ besideConductor s t)) ∧
    (c.op = 10 → (fld c.a1 0 9 = 0 ∨ 448 < fld c.a0 0 9 + fld c.a1 0 9 ∨ (fld c.a0 0 9 < 16 ∧ 8 < fld c.a0 0 9 + fld c.a1 0 9)) →
      Completes (.nvClear n) s (fun t => ended c rArgs 0 s t ∧ besideConductor s t)) ∧
    (c.op = 10 → 0 < fld c.a1 0 9 → fld c.a0 0 9 + fld c.a1 0 9 ≤ 448 →
      (16 ≤ fld c.a0 0 9 ∨ fld c.a0 0 9 + fld c.a1 0 9 ≤ 8) →
      (clearHeld s = true → Completes (.nvClear n) s (fun t => ended c rState 0 s t ∧ besideConductor s t)) ∧
      (clearHeld s = false → Completes (.nvClear n) s (fun t =>
        t.cond.running = some (c, .clear (pageRange (fld c.a0 0 9) (fld c.a1 0 9)) 0 0 (fld c.a0 0 9) (fld c.a1 0 9) s.rtc.sec
          false) ∧
        t.nv.running = true ∧ t.nv.pages = s.nv.pages ∧ t.mem = s.mem ∧ besideConductor s t))) ∧
    (∀ r, journal s = some r → clearHeld s = true →
      (c.op = 12 → Completes (.nvResume n) s (fun t =>
        t.cond.running = some (c, .clear (journalTodo r) 0 0 r.first r.count r.sec false) ∧ t.nv.running = true ∧
        t.nv.pages = s.nv.pages ∧ t.mem = s.mem ∧ besideConductor s t)) ∧
      (c.op = 13 → Completes (.nvAbandon n) s (fun t =>
        t.cond.running = some (c, .clear (journalTodo r) 0 4 r.first r.count r.sec false) ∧ t.nv.running = s.nv.running ∧
        t.nv.pages = s.nv.pages ∧ t.mem = s.mem ∧ besideConductor s t))) ∧
    (clearHeld s = false →
      (c.op = 12 → Completes (.nvResume n) s (fun t => ended c rState 0 s t ∧ besideConductor s t)) ∧
      (c.op = 13 → Completes (.nvAbandon n) s (fun t => ended c rState 0 s t ∧ besideConductor s t)))

/-- SAVE_CONFIG and RESTORE_CONFIG (R301, R304 to R306): a save gives the command the image's eight pages with the next save count;
a valid image is applied whole at a frame boundary with source 54, every class N field and range of Table 16.7, the tap map as log entry 42
reads it; another ends the command with source 55. -/
def Obligations.ConfigCommands : Prop :=
  ∀ (c : Cmd) (s : State) (n : Nat), startedAs c s →
    (c.op = 16 → (clearHeld s && journalTouches s 0 8) = true → Completes (.saveConfig n) s (fun t =>
      ended c rState 0 s t ∧ besideConductor s t)) ∧
    (c.op = 16 → (clearHeld s && journalTouches s 0 8) = false → Completes (.saveConfig n) s (fun t =>
      t.cond.running = some (c, .save (savePages ((savedCount s + 1) % 65536) (advance n s))
        (BitVec.ofNat 8 ((savedCount s + 1) % 65536)) ((savedCount s + 1) % 65536) 0) ∧
      t.nv.pages = s.nv.pages ∧ t.mem = s.mem ∧ besideConductor s t)) ∧
    (c.op = 17 → imageValid s = false → Completes (.restoreConfig n) s (fun t =>
      ended c (if imageUnc s then rNvUnc else rCheck) 0 s t ∧ latched 55 t = true ∧ besideConductor s t)) ∧
    (c.op = 17 → imageValid s = true → (s.tt.frame ≠ none ∨ s.sys.measRst = true) → Completes (.restoreConfig n) s (fun t =>
      t.cond.running = some (c, .restore) ∧ t.mem = s.mem ∧ besideConductor s t)) ∧
    (c.op = 17 → imageValid s = true → s.tt.frame = none → s.sys.measRst = false → Completes (.restoreConfig n) s (fun t =>
      (nothingWaits s → ended c rOk (put 0 16 (savedCount s)) s t) ∧ t.cond.running = none ∧ latched 54 t = true ∧ imageApplied s t ∧
      t.out.cfg = imgWord s 13 &&& 0xFFFF007F ∧ t.ldg.ctl = imgWord s 14 &&& 0x00FFFFF1 ∧ t.pins = s.pins ∧ t.rtc = s.rtc ∧ t.alm = s.alm ∧ t.nv.pages = s.nv.pages))

/-- SLOT_BIND (R327): slots 16 to 30 and ports without a sensor are refused, slot 31 drops the binding as an override, and a
slot 0 to 15 starts the read of its pages. -/
def Obligations.SlotBinding : Prop :=
  ∀ (c : Cmd) (s : State) (n : Nat), startedAs c s → c.op = 4 → s.disc.ports.length = 4 →
    (16 ≤ fld c.a1 0 5 → fld c.a1 0 5 ≤ 30 → Completes (.slotBind n) s (fun t =>
      ended c rArgs (portWord s (fld c.a0 0 2)) s t ∧ t.disc = s.disc ∧ besideConductor s t)) ∧
    (fld c.a1 0 5 < 16 ∨ fld c.a1 0 5 = 31 → attached s (fld c.a0 0 2) = false → Completes (.slotBind n) s (fun t =>
      ended c rState (portWord s (fld c.a0 0 2)) s t ∧ t.disc = s.disc ∧ besideConductor s t)) ∧
    (fld c.a1 0 5 = 31 → attached s (fld c.a0 0 2) = true → Completes (.slotBind n) s (fun t =>
      (portAt t (fld c.a0 0 2)).state = 4 ∧ (portAt t (fld c.a0 0 2)).slot = none ∧
      (portAt t (fld c.a0 0 2)).table = none ∧ (portAt t (fld c.a0 0 2)).override = true ∧
      ended c rOk (portWord t (fld c.a0 0 2)) s t ∧ besideConductor s t)) ∧
    (fld c.a1 0 5 < 16 → attached s (fld c.a0 0 2) = true → Completes (.slotBind n) s (fun t =>
      t.cond.running = some (c, .bind (fld c.a1 0 5) (installPages s (fld c.a1 0 5))) ∧
      (portAt t (fld c.a0 0 2)).installing = true ∧ (portAt t (fld c.a0 0 2)).state = (portAt s (fld c.a0 0 2)).state ∧
      t.mem = s.mem ∧ besideConductor s t))

/-- DISCOVER at the end of its step 2 or of a start that runs no job, and ID_LINE_TIMEOUT (R164, R307, R322, R323, R326, R339): a report
alone is staged; ports disabled or absent end the command with their reason, and on a port with a sensor, whatever its state, a clock
failure does; the job, which stands at its identification line, waits for an ID_THERM carriage on that line, ends TIMEOUT where the
line stays low, and else its device is chosen. An automatic job of a port no longer PRESENT ends REJECTED_STATE (log entry 69). -/
def Obligations.DiscoveryStarts : Prop :=
  (∀ (c : Cmd) (s : State) (teds : List Teds) (d : DiscData) (n : Nat), startedAs c s → c.op = 3 →
    (c.auto = false → bitOf c.a0 9 = true → Completes (.discover teds d n) s (fun t =>
      ended c rOk (portWord s (fld c.a0 0 2)) s t ∧ t.disc = s.disc ∧ besideConductor s t ∧
      (portAt s (fld c.a0 0 2)).report.getD (blankReport (fld c.a0 0 2) s) =
        memLoad t.mem (0x7800 + 64 * fld c.a2 0 4) ((portAt s (fld c.a0 0 2)).report.getD (blankReport (fld c.a0 0 2) s)).length)) ∧
    ((c.auto = true ∨ bitOf c.a0 9 = false) →
      ((portAt s (fld c.a0 0 2)).state = 0 → Completes (.discover teds d n) s (fun t =>
        ended c rState (portWord s (fld c.a0 0 2)) s t ∧ t.disc = s.disc ∧ besideConductor s t)) ∧
      ((portAt s (fld c.a0 0 2)).state = 1 → Completes (.discover teds d n) s (fun t =>
        ended c rSensorGone (portWord s (fld c.a0 0 2)) s t ∧ t.disc = s.disc ∧ besideConductor s t)) ∧
      (c.auto = true → attached s (fld c.a0 0 2) = true → (portAt s (fld c.a0 0 2)).state ≠ 2 →
        Completes (.discover teds d n) s (fun t =>
          ended c rState (portWord s (fld c.a0 0 2)) s t ∧ t.disc = s.disc ∧ besideConductor s t)) ∧
      (∀ r, clockFault s = some r → attached s (fld c.a0 0 2) = true →
        (c.auto = false ∨ (portAt s (fld c.a0 0 2)).state = 2) → Completes (.discover teds d n) s (fun t =>
          ended c r (portWord s (fld c.a0 0 2)) s t ∧ t.disc = s.disc ∧ besideConductor s t)))) ∧
  (∀ (c : Cmd) (j : DiscJob) (l : Nat) (s : State) (teds : List Teds) (d : DiscData) (n : Nat), atLine c j l s →
    (waitsForLine c s = true → exec (.discover teds d n) s = .next s ∧ exec (.idLineTimeout n) s = .next s) ∧
    (waitsForLine c s = false →
      ∀ m, m = chooseTeds teds (if attached s (Nat.xor (fld c.a0 0 2) 1) then (portAt s (Nat.xor (fld c.a0 0 2) 1)).taken else none) →
      Completes (.discover teds d n) s (fun t =>
        t.cond.running = some (c, .disc { DiscJob.new (fld c.a0 0 2) with teds := teds, mine := m.1, flags := m.2 } 1 0) ∧
        t.disc = s.disc ∧ t.mem = s.mem ∧ besideConductor s t) ∧
      Completes (.idLineTimeout n) s (fun t =>
        ended c rTimeout (portWord s (fld c.a0 0 2)) s t ∧ t.disc = s.disc ∧ besideConductor s t)))

/-- DISCOVERY_HOLD_BEGIN and the measurements of the hold (R166, R168, R322, R324): at a frame boundary the pair is held, off for its LEAK
and excited after it at 0.900 V; LEAK and ARM latch AFE_DIAG with the port sources each as it ends, before the job goes on, the balance at its
end (the cycles of the wait of 100 us by log entry 109); an open or shorted arm makes the port FAULTY, no identified device UNCALIBRATED, and no
hold stays. An identified device that no slot matches leaves the port UNMATCHED, with the flag of Table 17.3; of the slots that match, the
lowest, or on an odd port the second lowest where two match, begins to be installed. -/
def Obligations.DiscoveryHold : Prop :=
  ∀ (s : State) (c : Cmd) (j : DiscJob) (l : Nat), s.pwr.warn = false → condRuns s = true → hfLocked s = true →
    s.clk.bypass = false → s.disc.ports.length = 4 →
    (s.cond.running = some (c, .disc j 1 l) → s.tt.frame = none → Completes .discoveryHoldBegin s (fun t =>
      t.cond.running = some (c, .disc j 2 s.clk.hf) ∧ t.cal = { s.cal with
        holdMod := discMods (pairOf j.port.toNat), holdPair := if pairOf j.port.toNat then 2 else 1 } ∧
      (pairAt t (pairOf j.port.toNat)).on = false ∧ (pairAt t (pairOf j.port.toNat)).drive = false ∧
      pairAt t (!pairOf j.port.toNat) = pairAt s (!pairOf j.port.toNat) ∧ t.mem = s.mem ∧ besideConductor s t)) ∧
    (∀ n : Nat, s.cond.running = some (c, .disc j 2 l) → s.cal.holdPair = (if pairOf j.port.toNat then 2 else 1) →
      (pairAt s (pairOf j.port.toNat)).on = false → l + leakCycles ≤ max s.clk.hf n →
        (pairAt (advance n s) (pairOf j.port.toNat)).on = true ∧ (pairAt (advance n s) (pairOf j.port.toNat)).code = 0 ∧
        (pairAt (advance n s) (pairOf j.port.toNat)).current = false ∧
        (pairAt (advance n s) (pairOf j.port.toNat)).drive = false) ∧
    (∀ (teds : List Teds) (d : DiscData) (n : Nat), s.cond.running = some (c, .disc j 2 l) →
      (j.done = 0 → max s.clk.hf n < l + leakCycles → Completes (.discover teds d n) s (fun t =>
        t.cond.running = s.cond.running ∧ t.afe.diag = s.afe.diag ∧ t.cal = s.cal ∧ t.mem = s.mem ∧ besideConductor s t)) ∧
      (j.done = 0 → l + leakCycles ≤ max s.clk.hf n → max s.clk.hf n < l + armCycles s → ∀ x : Bool, x = decide (leakThr s.afe.eff ≤ d.leakPa) →
        Completes (.discover teds d n) s (fun t =>
          t.cond.running = some (c, .disc { j with done := 1, data := { j.data with leakPa := d.leakPa }, leak := x } 2 l) ∧
          t.afe.diag = s.afe.diag ||| (if x then BitVec.ofNat 22 (2 ^ (18 + (pairOf j.port.toNat).toNat)) else 0) ∧
          (x = true → latched (if pairOf j.port.toNat then 26 else 24) t = true ∧ latched (if pairOf j.port.toNat then 27 else 25) t = true) ∧
          t.cal = s.cal ∧ t.mem = s.mem ∧ besideConductor s t)) ∧
      (j.done = 1 → l + armCycles s ≤ max s.clk.hf n → max s.clk.hf n < l + balanceCycles s →
        ∀ x y : Bool, x = (armOpen d.zp.toNat d.zn.toNat || armOpen d.zn.toNat d.zp.toNat) →
        y = ((!armOpen d.zp.toNat d.zn.toNat && armShort d.zp.toNat d.zn.toNat) || (!armOpen d.zn.toNat d.zp.toNat && armShort d.zn.toNat d.zp.toNat)) →
        Completes (.discover teds d n) s (fun t =>
          t.cond.running = some (c, .disc { j with done := 2, data := { j.data with zp := d.zp, zn := d.zn } } 2 l) ∧
          t.afe.diag = s.afe.diag ||| (if x then BitVec.ofNat 22 (2 ^ (4 + j.port.toNat)) else 0) |||
            (if y then BitVec.ofNat 22 (2 ^ (8 + j.port.toNat)) else 0) ∧
          (x = true ∨ y = true → latched (24 + j.port.toNat) t = true) ∧ t.cal = s.cal ∧ t.mem = s.mem ∧ besideConductor s t)) ∧
      (j.done = 2 → l + balanceCycles s ≤ max s.clk.hf n → 1024 ≤ d.bits.length → attached s j.port.toNat = true →
        ∀ z : State, z = { s with free := s.free + (lowRef (balanceStage j.port) d.senseUv).toNat } → ∀ f : Bool,
        f = armFault j.data.zp.toNat j.data.zn.toNat →
        (lowRef (balanceStage j.port) d.senseUv = false → Completes (.discover teds d n) s (fun t =>
          t.afe.diag = s.afe.diag |||
            (if overLevel s.afe.eff (sinc4 8 (sincWeights 256) d.bits 4) then BitVec.ofNat 22 (2 ^ j.port.toNat) else 0) ∧
          (overLevel s.afe.eff (sinc4 8 (sincWeights 256) d.bits 4) = true → latched (28 + j.port.toNat) t = true))) ∧
        (f = true → Completes (.discover teds d n) s (fun t =>
          (portAt t j.port.toNat).state = 5 ∧ (portAt t j.port.toNat).slot = none ∧ (portAt t j.port.toNat).table = none ∧
          (portAt t j.port.toNat).detail.getLsbD 15 = (j.leak || j.flags.getLsbD 15) ∧
          t.cond.running = none ∧ t.cal.holdMod = 0 ∧ t.cal.holdPair = 0 ∧ t.cal.holdEv = 0 ∧ besideHolds z t)) ∧
        (f = false → j.mine = none → Completes (.discover teds d n) s (fun t =>
          (portAt t j.port.toNat).state = 4 ∧ (portAt t j.port.toNat).slot = none ∧ (portAt t j.port.toNat).table = none ∧
          t.cond.running = none ∧ t.cal.holdMod = 0 ∧ t.cal.holdPair = 0 ∧ t.cal.holdEv = 0 ∧ besideHolds z t)) ∧
        (∀ x : Teds, f = false → j.mine = some x →
          (matching s x = [] → Completes (.discover teds d n) s (fun t =>
            (portAt t j.port.toNat).state = 4 ∧ (portAt t j.port.toNat).slot = none ∧ (portAt t j.port.toNat).table = none ∧
            (portAt t j.port.toNat).detail.getLsbD 12 = true ∧ (portAt t j.port.toNat).taken = some x.romId ∧
            t.cond.running = none ∧ t.cal.holdMod = 0 ∧ t.cal.holdPair = 0 ∧ t.cal.holdEv = 0 ∧ besideHolds z t)) ∧
          (∀ a r m, matching s x = a :: r → m = (if j.port.toNat % 2 = 1 then r.headD a else a) →
            Completes (.discover teds d n) s (fun t =>
              (∃ y, t.cond.running = some (c, .disc y 3 (installPages s m)) ∧ y.slot = some m ∧ y.port = j.port ∧ y.mine = j.mine ∧
                (verDiffers s m x = true → y.flags.getLsbD 13 = true) ∧ (impDiffers x j.data = true → y.flags.getLsbD 14 = true)) ∧
              (portAt t j.port.toNat).installing = true ∧ (portAt t j.port.toNat).state = (portAt s j.port.toNat).state ∧
              (portAt t j.port.toNat).slot = (portAt s j.port.toNat).slot ∧
              t.cal.holdMod = 0 ∧ t.cal.holdPair = 0 ∧ t.cal.holdEv = 0 ∧ besideHolds z t)))))

/-- CAL_TDC, CAL_MOD and CAL_EVT at their start and CAL_HOLD_BEGIN (R307, R310, R311): refused arguments and clock failures end
the command; in mode S the hold begins at once, in mode B at a frame boundary; where HF is parked its acquisition starts. -/
def Obligations.CalibrationStarts : Prop :=
  (∀ (c : Cmd) (s : State) (n : Nat), startedAs c s →
    ∀ i ∈ [(5, Instr.calTdc n), (6, .calMod n), (7, .calEvt n)], c.op = i.1 →
      (calArgsBad c = true → Completes i.2 s (fun t => ended c rArgs 0 s t ∧ t.cal = s.cal ∧ besideConductor s t)) ∧
      (∀ r, clockFault s = some r → calArgsBad c = false → Completes i.2 s (fun t =>
        ended c r 0 s t ∧ t.cal = s.cal ∧ besideConductor s t)) ∧
      (clockFault s = none → calArgsBad c = false → (hfRunning s = true ∨ planValid (selRef s) (activePlan s) = true) →
        (modeS c = true → Completes i.2 s (fun t =>
          t.cond.running = some (c, .holding) ∧
          t.cal = { s.cal with
            holdMod := if c.op = 6 then BitVec.ofNat 5 (fld c.a0 4 5) else 0
            holdEv := if c.op = 7 then BitVec.ofNat 7 (fld c.a0 8 7) else 0 } ∧
          (hfRunning s = false → t.clk.state = .acq ∧ t.clk.ref = selRef s) ∧ t.mem = s.mem ∧ besideConductor s t)) ∧
        (modeS c = false → Completes i.2 s (fun t =>
          t.cond.running = some (c, .waitHold) ∧ t.cal = s.cal ∧
          (hfRunning s = false → t.clk.state = .acq ∧ t.clk.ref = selRef s) ∧ t.mem = s.mem ∧ besideConductor s t)))) ∧
  (∀ (c : Cmd) (s : State), s.cond.running = some (c, .waitHold) → s.tt.frame = none → condRuns s = true →
    s.clk.bypass = false → s.pwr.warn = false → (c.op = 5 ∨ c.op = 6 ∨ c.op = 7) → Completes .calHoldBegin s (fun t =>
      t.cond.running = some (c, .holding) ∧
      t.cal = { s.cal with
        holdMod := if c.op = 6 then BitVec.ofNat 5 (fld c.a0 4 5) else s.cal.holdMod
        holdEv := if c.op = 7 then BitVec.ofNat 7 (fld c.a0 8 7) else s.cal.holdEv } ∧ t.mem = s.mem ∧ besideConductor s t))

/-- CAL_RESULT_APPLY (R309 to R312): a result within its limit replaces the map, or the trims of what it measured, sets its calibrated
bit with source 52 and ends OK; one beyond it leaves them, with source 53, and ends PARTIAL; the detail word carries the
residual, and the hold ends. The margin of CAL_EVT is the model's reading (log entry 69). -/
def Obligations.CalibrationResults : Prop :=
  ∀ (c : Cmd) (s : State) (n : Nat), s.cond.running = some (c, .holding) → condRuns s = true → hfLocked s = true →
    s.clk.bypass = false → s.pwr.warn = false → (modeS c = true ∨ s.tt.frame = none) → ringRoom s → s.cond.switchDone = [] →
    Memory.wf s.mem = true →
    (∀ counts : List Nat, c.op = 5 → counts.length = 8 → counts.foldl (· + ·) 0 = 65536 →
      Completes (.calResultApply (.tdc counts) n) s (fun t =>
        t.cal = { s.cal with
          map := if (tapMap counts).2 ≤ 128 then (tapMap counts).1 else s.cal.map
          calibrated := if (tapMap counts).2 ≤ 128 then s.cal.calibrated ||| 1 else s.cal.calibrated
          quality := qualityOf s.cal.quality 0 8 (tapMap counts).2 0 (decide ((tapMap counts).2 ≤ 128))
          holdMod := 0, holdPair := 0, holdExc := false, holdEv := 0 } ∧
        latched (if (tapMap counts).2 ≤ 128 then 52 else 53) t = true ∧
        ended c (if (tapMap counts).2 ≤ 128 then rOk else rPartial)
          (put 0 24 (min (tapMap counts).2 0xFFFFFF) ||| put 31 1 (decide ((tapMap counts).2 ≤ 128)).toNat) s t ∧
        besideHolds s t)) ∧
    (∀ (offsets : List Int) (trims : List Byte), c.op = 6 → (List.range 45).any (modMeasured c.a0) = true →
      ∀ r, r = modResidual c.a0 offsets s.free → ∀ ok, ok = decide (r ≤ 500) →
      Completes (.calResultApply (.mod offsets trims) n) s (fun t =>
        (s.cal.modTrim.length = 45 → ∀ i ∈ List.range 45, t.cal.modTrim.getD i 0 =
          if ok && modMeasured c.a0 i then trims.getD i 0 else s.cal.modTrim.getD i 0) ∧
        t.cal.calibrated = (if ok then s.cal.calibrated ||| 2 else s.cal.calibrated) ∧ latched (if ok then 52 else 53) t = true ∧
        t.cal.quality = qualityOf s.cal.quality 8 12 r 1 ok ∧ t.cal.map = s.cal.map ∧
        t.cal.evtTrim = s.cal.evtTrim ∧ t.cal.holdMod = 0 ∧
        ended c (if ok then rOk else rPartial) (put 0 24 (min r 0xFFFFFF) ||| put 31 1 ok.toNat) s t ∧
        besideHolds { s with free := s.free + 1 } t)) ∧
    (∀ (ths : List (Nat × Nat)) (trims : List Byte), c.op = 7 → ∀ m, m = leastMargin c.a0 s.pins.vddio ths →
      ∀ ok, ok = decide (10 ≤ m) → Completes (.calResultApply (.evt ths trims) n) s (fun t =>
        (s.cal.evtTrim.length = 7 → ∀ i ∈ List.range 7, t.cal.evtTrim.getD i 0 =
          if ok && bitOf c.a0 (8 + i) then trims.getD i 0 &&& 0x0F else s.cal.evtTrim.getD i 0) ∧
        t.cal.calibrated = (if ok then s.cal.calibrated ||| 4 else s.cal.calibrated) ∧ latched (if ok then 52 else 53) t = true ∧
        t.cal.quality = qualityOf s.cal.quality 20 8 m 2 ok ∧ t.cal.map = s.cal.map ∧
        t.cal.modTrim = s.cal.modTrim ∧ t.cal.holdEv = 0 ∧
        ended c (if ok then rOk else rPartial) (put 0 24 (min m 0xFFFFFF) ||| put 31 1 ok.toNat) s t ∧ besideHolds s t))

/-- SELFTEST and SHIP at their start (R49, R347, R348): no test selected is refused; tests that need no clock end at once with those that
failed, and so does any selection where the clock fails, with the tests that need it skipped; a test with a hold waits for it; SHIP with WAKEN low is refused, else its record is written, later commands are
refused, triggers are dropped and 32 kticks are left. -/
def Obligations.SelftestAndShip : Prop :=
  ∀ (c : Cmd) (s : State) (n : Nat), startedAs c s →
    (∀ failed : BitVec 11, c.op = 0x12 →
      (c.a0 &&& 0x7FF = 0 → Completes (.selftest failed n) s (fun t => ended c rArgs 0 s t ∧ besideConductor s t)) ∧
      (c.a0 &&& 0x7FF ≠ 0 → (c.a0 &&& 0x4F0 = 0 ∨ clockFault s ≠ none) →
        ∀ (skip bad : Word), skip = (if (clockFault s).isSome then c.a0 &&& 0x4E0 else 0) →
        bad = (failed.setWidth 32 &&& c.a0 &&& ~~~skip &&& 0x317) ||| (if bitOf c.a0 3 && nvTestFails s then 8 else 0) →
        Completes (.selftest failed n) s (fun t =>
          ended c (if bad ≠ 0 then rDiag else if skip ≠ 0 then rPartial else rOk) (bad ||| (skip <<< 16)) s t ∧
          t.cal = s.cal ∧ besideConductor s t)) ∧
      (c.a0 &&& 0x460 ≠ 0 → clockFault s = none → planValid (selRef s) (activePlan s) = true →
        Completes (.selftest failed n) s (fun t =>
        (∃ x, t.cond.running = some x ∧ x.1.op = 0x12 ∧ x.1.tag = c.tag ∧ x.1.a0 = c.a0 ∧
          x.2 = (if modeS c then .holding else .waitHold)) ∧
        t.cal.holdMod = (if modeS c then (if bitOf c.a0 5 then 0x1F else 0x10) else 0) ∧
        t.cal.holdExc = (modeS c && bitOf c.a0 6) ∧ t.cal.holdPair = 0 ∧ t.mem = s.mem ∧ besideConductor s t))) ∧
    (c.op = 0x13 → s.pins.waken = false → Completes (.ship n) s (fun t => ended c rState 0 s t ∧ besideConductor s t)) ∧
    (c.op = 0x13 → s.pins.waken = true → Completes (.ship n) s (fun t =>
      t.cond.shipped = true ∧ t.cond.queue = [] ∧ t.cond.running = none ∧ t.pwr = { s.pwr with shipIn := some 32 } ∧
      t.tt.await = none ∧ t.tt.queued = none ∧ t.tt.freeRun = false ∧ t.tt.frame = (advance n s).tt.frame ∧
      (s.cond.queue = [] → answered c.op c.auto false rOk c.tag 0 s t) ∧
      t.pins = s.pins ∧ t.rtc = s.rtc ∧ t.alm = s.alm ∧ t.hif = s.hif ∧ t.nv.pages = s.nv.pages ∧ t.cal = s.cal))

/-- WATCHDOG_EXPIRY and CONDUCTOR_RESTART (R89, R340, R341, R343): the conductor is held in reset with its cause and source 58 and its
holds end; at its restart, which waits for a page operation of an earlier reset, the command that ran ends CORE_RESET, or the main start
goes back to the journal read. A cut LOAD_TT names the first check by log entry 52, the writes the array owes itself outlast the expiry
by log entry 71, and a page operation that has not ended had not begun by log entry 82. -/
def Obligations.WatchdogAndRestart : Prop :=
  ∀ (s : State) (n : Nat),
    (s.cond.awake = true → condRuns s = true → 1639 ≤ s.cond.wdog → Completes .watchdogExpiry s (fun t =>
      t.cond.inReset = true ∧ t.cond.awake = false ∧ t.sys.cause = s.sys.cause ||| 0x200 ∧
      t.sys.wdogCount = min 255 (s.sys.wdogCount + 1) ∧ latched 58 t = true ∧ t.cond.running = s.cond.running ∧
      t.cond.queue = s.cond.queue ∧ t.cal = { s.cal with holdMod := 0, holdPair := 0, holdExc := false, holdEv := 0 } ∧
      t.pins = s.pins ∧ t.pwr = s.pwr ∧ t.rtc = s.rtc ∧ t.alm = s.alm ∧ t.hif = s.hif ∧ t.nv = s.nv)) ∧
    (s.cond.inReset = true → orphanBusy s = true → exec (.conductorRestart n) s = .next s) ∧
    (s.cond.inReset = true → mainUp s = true → mainReady s = false → nothingRuns s → orphanBusy s = false → Completes (.conductorRestart n) s (fun t =>
      t.cond.inReset = false ∧ t.sys.phase = .hfrc ∧ t.pins = s.pins ∧ t.pwr = s.pwr ∧ t.rtc = s.rtc ∧ t.alm = s.alm ∧
      t.hif = s.hif ∧ t.nv.pages = s.nv.pages)) ∧
    (∀ c : Cmd, s.cond.inReset = true → mainReady s = true → mainUp s = true → s.cond.running = some (c, .fresh) →
      s.pwr.warn = false → s.ldg.job = none → orphanBusy s = false → s.cond.switchDone = [] → s.nv.suspend = [] → ringRoom s → noHolds s →
      Memory.wf s.mem = true → Completes (.conductorRestart n) s (fun t =>
        t.cond.inReset = false ∧ ended c 0x41 (cutDetail s c .fresh) s t ∧ onlyBytes (nextRecordAt s) 16 s t ∧ besideConductor s t))

/-- NV_PAGE_OPERATION_END (R293, R294, R296, R297, R302): a write leaves the page, where the relocation map puts it, with its check word,
a read leaves the array; a verify that corrected a word counts against the physical page, at 8 the page is owed its relocation, a read
that corrected one owes a scrub, and an uncorrectable word raises source 49; what a decode found stays with the page (log entry 81). An
NV_WRITE of one page ends OK with its count, an NV_READ of one page stages its bytes and ends with its bit. The record of the end of a clear
leaves the journal at state 0x00 with source 50 and the detail of Table 18.1 (R298 to R301); the last page of a save ends it with its save
count (R305); a spare that verifies is owed its map entry and the mark of the old page (R297), whose writes leave the entry in the map, the
count 0xF, source 48 and wear_page. The last page of an installation binds the port to its slot with the installed table, or leaves it
UNMATCHED; SLOT_BIND ends OK, NO_CAL or NV_UNCORRECTABLE (R325, R327). The end of an install rests on log entry 41, that of a page the
array writes for itself on log entry 71. -/
def Obligations.PageOperations : Prop :=
  ∀ (s : State) (n : Nat) (o : NvOp), s.nv.op = some o →
    (∀ w, o.write = some w → o.task = none → nothingRuns s → o.ledger = false →
      Completes (.nvPageOperationEnd .clean n) s (fun t =>
        t.nv.pages = putPage (physOf s o.page) (madePage o.page w.1 w.2.1 w.2.2 .clean) s.nv.pages ∧
        t.pins = s.pins ∧ t.pwr = s.pwr ∧ t.rtc = s.rtc ∧ t.alm = s.alm ∧ t.hif = s.hif ∧ t.mem = s.mem)) ∧
    (∀ w, o.write = some w → o.task = none → nothingRuns s → o.ledger = false → s.pwr.mainOn = true → (o.page < 8 ∨ 16 ≤ o.page) →
      (∀ k m : Nat, k = physOf s o.page → m = countDue s k → Completes (.nvPageOperationEnd .corrected n) s (fun t =>
        pageAt t o.page = madePage o.page w.1 w.2.1 w.2.2 .corrected ∧
        (m < 7 → owed (.count k (m + 1) none) t) ∧
        (m = 7 → freeSpares s ≠ [] → owed (.count k 8 none) t ∧ owed (.spare o.page ((freeSpares s).headD 0) k) t) ∧
        (m = 7 → freeSpares s = [] → owed (.count k 8 (some o.page)) t) ∧
        t.pins = s.pins ∧ t.pwr = s.pwr ∧ t.rtc = s.rtc ∧ t.alm = s.alm ∧ t.hif = s.hif ∧ t.mem = s.mem)) ∧
      Completes (.nvPageOperationEnd .uncorrectable n) s (fun t =>
        pageAt t o.page = madePage o.page w.1 w.2.1 w.2.2 .uncorrectable ∧ latched 49 t = true ∧ t.nv.unc = true ∧
        t.pins = s.pins ∧ t.pwr = s.pwr ∧ t.rtc = s.rtc ∧ t.alm = s.alm ∧ t.hif = s.hif ∧ t.mem = s.mem)) ∧
    (∀ e, o.write = none → o.task = none → nothingRuns s → o.ledger = false → s.pwr.mainOn = true → (o.page < 8 ∨ 16 ≤ o.page) →
      Completes (.nvPageOperationEnd e n) s (fun t =>
        pageAt t o.page = { pageAt s o.page with ecc := worstOf (pageAt s o.page).ecc e } ∧
        (worstOf (pageAt s o.page).ecc e = .corrected → owed (.scrub o.page) t) ∧
        (worstOf (pageAt s o.page).ecc e = .uncorrectable → latched 49 t = true ∧ t.nv.unc = true) ∧
        t.pins = s.pins ∧ t.pwr = s.pwr ∧ t.rtc = s.rtc ∧ t.alm = s.alm ∧ t.hif = s.hif ∧ t.mem = s.mem)) ∧
    (∀ c : Cmd, ∀ l done : Nat, s.cond.running = some (c, .pages [l] done 0 0 false false) → c.op = 9 →
      o.write.isSome = true → o.task = none → o.ledger = false → o.orphan = false → s.pwr.warn = false → condRuns s = true →
      ringRoom s → noHolds s → s.cond.switchDone = [] → Memory.wf s.mem = true → Completes (.nvPageOperationEnd .clean n) s (fun t =>
        ended c rOk (put 0 5 (done + 1)) s t ∧ onlyBytes (nextRecordAt s) 16 s t ∧ besideConductor s t)) ∧
    (∀ c : Cmd, ∀ l done : Nat, s.cond.running = some (c, .pages [l] done 0 0 false false) → c.op = 8 → o.write = none →
      o.ledger = false → o.orphan = false → validData o.page (pageAt s o.page) = true → (pageAt s o.page).ecc = .clean →
      (pageAt s o.page).data.length = 64 → s.pwr.warn = false → condRuns s = true → ringRoom s → noHolds s →
      s.cond.switchDone = [] →
      Memory.wf s.mem = true → Completes (.nvPageOperationEnd .clean n) s (fun t =>
        ended c rOk (put 0 16 (BitVec.ofNat 16 (2 ^ done)).toNat) s t ∧
        memLoad t.mem (0x7800 + 64 * (fld c.a2 0 4 + done)) 64 = (pageAt s o.page).data ∧
        t.nv.pages = s.nv.pages ∧ besideConductor s t)) ∧
    (∀ (c : Cmd) (l done : Nat) (todo : List Nat), s.cond.running = some (c, .pages (l :: todo) done 0 0 false false) → c.op = 9 →
      o.write.isSome = true → ownPage o → s.pwr.warn = false → condRuns s = true →
      ringRoom s → noHolds s → s.cond.switchDone = [] → Memory.wf s.mem = true → Completes (.nvPageOperationEnd .uncorrectable n) s (fun t =>
        ended c rNvUnc (put 0 5 done ||| put 16 9 o.page) s t ∧ besideConductor s t)) ∧
    (∀ (c : Cmd) (todo : List Nat) (done first count : Nat) (sec : Word) (unc : Bool),
      s.cond.running = some (c, .clear todo done 2 first count sec unc) → o = journalOp 0 0 first count (clearNext todo first count) sec s →
      s.nv.suspend = [] → s.pwr.warn = false → condRuns s = true → ringRoom s → noHolds s → s.cond.switchDone = [] → Memory.wf s.mem = true →
      Completes (.nvPageOperationEnd .clean n) s (fun t =>
        ended c (if unc then rNvUnc else rOk) (put 0 16 done ||| put 16 16 (clearNext todo first count)) s t ∧
        latched 50 t = true ∧ t.nv.running = false ∧ validData o.page (pageAt t o.page) = true ∧
        byteAt (pageAt t o.page).data 2 = 0 ∧ halfAt (pageAt t o.page).data 4 = first % 65536 ∧
        halfAt (pageAt t o.page).data 6 = count % 65536 ∧ halfAt (pageAt t o.page).data 8 = clearNext todo first count % 65536 ∧
        besideConductor s t)) ∧
    (∀ (c : Cmd) (p : Nat × List Byte) (gen : Byte) (count done : Nat), s.cond.running = some (c, .save [p] gen count done) →
      o.write.isSome = true → ownPage o → s.pwr.warn = false → condRuns s = true → ringRoom s → noHolds s →
      s.cond.switchDone = [] → Memory.wf s.mem = true →
      Completes (.nvPageOperationEnd .clean n) s (fun t =>
        ended c rOk (put 0 16 count) s t ∧ besideConductor s t ∧
        (∀ u, o.page = 0 → o.write = some (0x5A, gen, savePage0 count u) → savedCount t = count % 65536)) ∧
      Completes (.nvPageOperationEnd .uncorrectable n) s (fun t => ended c rNvUnc (put 16 8 done) s t ∧ besideConductor s t)) ∧
    (∀ l k old : Nat, o = (NvTask.spare l k old).op s → s.pwr.mainOn = true → nothingRuns s → Completes (.nvPageOperationEnd .clean n) s (fun t =>
      t.nv.pages = putPage (448 + k) { pageAt s l with ecc := .clean } s.nv.pages ∧ owed (.entry k l) t ∧
      owed (.count old 15 (some l)) t ∧ (448 ≤ old → owed (.entry (old - 448) 0xFFFE) t))) ∧
    (∀ k v : Nat, k < 64 → v < 65536 → o = (NvTask.entry k v).op s → physOf s o.page = o.page → nothingRuns s →
      Completes (.nvPageOperationEnd .clean n) s (fun t => ∀ i < 64, (mapTable t).getD i 0 = if i = k then v else (mapTable s).getD i 0)) ∧
    (∀ k m l : Nat, k < 512 → m < 16 → o = (NvTask.count k m (some l)).op s → physOf s o.page = o.page →
      (physPage s o.page).data.length = 64 → mainUp s = true → nothingRuns s → Completes (.nvPageOperationEnd .clean n) s (fun t =>
        healthOf t k = m ∧ latched 48 t = true ∧ t.nv.wear = true ∧ t.nv.wearPage = l ∧ t.nv.noSpare = decide (m = 8))) ∧
    (∀ (c : Cmd) (d : DiscJob) (a k : Nat), s.cond.running = some (c, .disc d 3 1) → d.slot = some a → k = d.port.toNat →
      attached s k = true → o.write = none → ownPage o → installEnds s →
      (slotUnc s a = false → slotValid s a = true → Completes (.nvPageOperationEnd .clean n) s (fun t =>
        (portAt t k).state = 3 ∧ (portAt t k).slot = some a ∧ (portAt t k).table = some (slotTable s a) ∧ (portAt t k).override = false ∧
        (portAt t k).report.isSome = true ∧ ended c rOk (portDetail k 3 (some a) d.flags) s t ∧ besideConductor s t)) ∧
      (slotUnc s a = false → slotValid s a = false → Completes (.nvPageOperationEnd .clean n) s (fun t =>
        (portAt t k).state = 4 ∧ (portAt t k).slot = none ∧ (portAt t k).table = none ∧ t.cond.running = none ∧
        (∃ w, answered c.op c.auto false rPartial c.tag w s t) ∧ besideConductor s t)) ∧
      (slotUnc s a = true → Completes (.nvPageOperationEnd .clean n) s (fun t =>
        (portAt t k).state = 4 ∧ (portAt t k).slot = none ∧ (portAt t k).table = none ∧ t.cond.running = none ∧ latched 49 t = true ∧
        (∃ w, answered c.op c.auto false rNvUnc c.tag w s t) ∧ besideConductor s t))) ∧
    (∀ (c : Cmd) (a k : Nat), s.cond.running = some (c, .bind a 1) → k = fld c.a0 0 2 → attached s k = true → o.write = none →
      ownPage o → installEnds s →
      (slotUnc s a = false → slotValid s a = true → Completes (.nvPageOperationEnd .clean n) s (fun t =>
        (portAt t k).state = 3 ∧ (portAt t k).slot = some a ∧ (portAt t k).table = some (slotTable s a) ∧ (portAt t k).override = true ∧
        ended c rOk (portDetail k 3 (some a) 0x10000) s t ∧ besideConductor s t)) ∧
      (slotUnc s a = false → slotValid s a = false → Completes (.nvPageOperationEnd .clean n) s (fun t =>
        (portAt t k).state = (portAt s k).state ∧ (portAt t k).slot = (portAt s k).slot ∧ (portAt t k).table = (portAt s k).table ∧
        ended c rNoCal (portWord s k) s t ∧ besideConductor s t)) ∧
      (slotUnc s a = true → Completes (.nvPageOperationEnd .clean n) s (fun t =>
        (portAt t k).state = (portAt s k).state ∧ (portAt t k).slot = (portAt s k).slot ∧ (portAt t k).table = (portAt s k).table ∧
        latched 49 t = true ∧ ended c rNvUnc (portWord s k) s t ∧ besideConductor s t)))

/-- LEDGER_LAP, LEDGER_CHECKPOINT and NV_SUSPEND (R280, R281, R289, R300): with the ledger on, the waiting commands make one snapshot
instant, or join that of their own qtick, a lap numbering the next lap; off, a lap or checkpoint ends REJECTED_STATE; with HF not locked they wait for the ktick
edge, and in a MEAS reset, before the recovery of a main start and while a recovery waits for records, until that is over (log entries 68 and
108). A suspend stops the running clear at its page boundary, where its SUSPENDED record is written; with no clear running it
ends REJECTED_STATE. -/
def Obligations.DirectCommands : Prop :=
  (∀ (s : State) (n : Nat), condRuns s = true → nothingRuns s → ringRoom s → Memory.wf s.mem = true →
    (fineClock s = false → ∀ i ∈ [Instr.ledgerLap n, .ledgerCheckpoint n], exec i s = .next s) ∧
    (∀ g z, s.ldg.wait = [(g, z)] → s.ldg.laps = 0 → s.sys.measRst = false → ldgOn s = true → s.ldg.job = none → s.ldg.jobs = [] → fineClock s = true →
      quietInputs s → s.tt.frame = none →
      ∀ i ∈ [(true, Instr.ledgerLap n), (false, .ledgerCheckpoint n)], g.lap = i.1 →
        Completes i.2 s (fun t =>
          t.ldg.wait = [] ∧ t.ldg.seq = s.ldg.seq + 1 ∧ t.ldg.lap = (if g.lap then s.ldg.lap + 1 else s.ldg.lap) ∧
          t.ldg.run = (if g.lap && z then List.replicate 8 0 else s.ldg.run) ∧
          (∃ j, t.ldg.job = some j ∧ j.snap.run = s.ldg.run ∧ j.snap.cnt = s.ldg.cnt ∧ j.snap.seq = s.ldg.seq ∧
            j.snap.kind = (if g.lap then 3 else 1) ∧ j.cmds = [g]) ∧
          t.pins = s.pins ∧ t.pwr = s.pwr ∧ t.rtc = s.rtc ∧ t.alm = s.alm ∧ t.hif = s.hif ∧ t.mem = s.mem)) ∧
    (∀ g z, s.ldg.wait = [(g, z)] → s.ldg.laps = 0 → s.sys.measRst = false → ldgOn s = true → fineClock s = true → s.ldg.jobs = [] →
      quietInputs s → s.tt.frame = none →
      ∀ x, s.ldg.inst = some x → ∀ j, s.ldg.job = some j →
      x.qtick = qtickAt (advance n s) (advance n s).clk.hf → j.snap.seq = x.seq → j.pages = 0 →
      ∀ i ∈ [(true, Instr.ledgerLap n), (false, .ledgerCheckpoint n)], g.lap = i.1 →
        Completes i.2 s (fun t =>
          t.ldg.wait = [] ∧ t.ldg.seq = s.ldg.seq ∧
          t.ldg.lap = (if g.lap && !x.req.lap then s.ldg.lap + 1 else s.ldg.lap) ∧
          (∃ y, t.ldg.job = some y ∧ y.snap.seq = x.seq ∧ y.snap.run = j.snap.run ∧ y.snap.cnt = j.snap.cnt ∧
            y.cmds = j.cmds ++ [g]) ∧
          t.pins = s.pins ∧ t.pwr = s.pwr ∧ t.rtc = s.rtc ∧ t.alm = s.alm ∧ t.hif = s.hif ∧ t.mem = s.mem)) ∧
    (ldgBusy s = true → fineClock s = true → quietInputs s →
      ∀ i ∈ [Instr.ledgerLap n, .ledgerCheckpoint n], Completes i s (fun t =>
        t.ldg.wait = s.ldg.wait ∧ t.ldg.laps = s.ldg.laps ∧ t.ldg.seq = s.ldg.seq ∧ t.ldg.lap = s.ldg.lap ∧ t.cond.head = s.cond.head)) ∧
    (∀ g z, s.ldg.wait = [(g, z)] → s.ldg.laps = 0 → s.sys.measRst = false → ldgEn s = false → s.ldg.recovers = none → s.ldg.offPend = false →
      fineClock s = true → quietInputs s →
      ∀ i ∈ [(true, Instr.ledgerLap n), (false, .ledgerCheckpoint n)], g.lap = i.1 →
        Completes i.2 s (fun t =>
          t.ldg.wait = [] ∧ t.ldg.seq = s.ldg.seq ∧ t.ldg.lap = s.ldg.lap ∧
          answered (if g.lap then 0x0E else 0x0F) false true rState g.tag 0 s t ∧ onlyBytes (nextRecordAt s) 16 s t ∧
          besideConductor s t)) ∧
    (∀ g, s.nv.suspend = [g] → s.nv.running = false → Completes (.nvSuspend n) s (fun t =>
      t.nv.suspend = [] ∧ answered 0x0B false true rState g 0 s t ∧ onlyBytes (nextRecordAt s) 16 s t ∧ besideConductor s t))) ∧
  (∀ (c : Cmd) (s : State) (n : Nat), condRuns s = true → s.pwr.warn = false → s.nv.suspend ≠ [] → s.nv.running = true →
    ∀ todo, ∀ done st first count : Nat, ∀ (sec : Word) (unc : Bool),
      s.cond.running = some (c, .clear todo done st first count sec unc) → (st = 1 ∨ st = 2 ∨ st = 6) →
      Completes (.nvSuspend n) s (fun t =>
        t.nv.suspend = s.nv.suspend ∧ t.nv.pages = s.nv.pages ∧ t.mem = s.mem ∧ t.evt = s.evt ∧ besideConductor s t ∧
        (jobOpBusy s = true → { t.cond with awake := s.cond.awake, wdog := s.cond.wdog } = s.cond ∧ t.nv.op = s.nv.op) ∧
        (jobOpBusy s = false → t.cond.running = some (c, .clear todo done 3 first count sec unc) ∧
          (s.nv.op = none → s.nv.todo = [] → s.ldg.job = none →
            t.nv.op = some (journalOp 2 1 first count (clearNext todo first count) sec s)))))

/-- The main start from the release of main reset to the SRAM clear, and the ledger's recovery (R31, R84, R186, R287): each step
moves the start on, the straps are sampled after a main power-on alone, the class V ranges read 0x00 and the sealed
copies are all zeros. -/
def Obligations.MainStartSteps : Prop :=
  ∀ s : State, s.pwr.mainOn = true →
    (s.sys.phase = .held → ∀ ifsel addr : Bool, exec (.mainResetRelease ifsel addr) s = .next { s with
      sys := { s.sys with phase := .released, powerOn := false, soft := false }
      hif := if s.sys.powerOn then { s.hif with i3c := ifsel, addrHi := addr } else s.hif }) ∧
    (s.sys.phase = .released → Completes .mainStartHfrcRunning s (fun t =>
      t.sys = { s.sys with phase := .hfrc } ∧ t.cond = { s.cond with awake := true, wdog := 0 } ∧ t.out.code = s.out.code ∧
      { t with sys := s.sys, cond := s.cond, out := s.out } = s)) ∧
    (s.sys.phase = .hfrc → s.cond.inReset = false → Completes .journalRead s (fun t =>
      t.sys.phase = (if s.sys.sramDone then .cleared else .journal) ∧ t.nv.susp = true ∧
      t.nv.spares = (freeSpares s).length ∧ t.nv.pages = s.nv.pages ∧ t.cond = { s.cond with wdog := 0 } ∧
      { t with sys := s.sys, cond := s.cond, nv := s.nv, evt := s.evt } = s)) ∧
    (s.sys.phase = .journal → Memory.wf s.mem = true → Completes .sramClearDone s (fun t =>
      t.sys = { s.sys with phase := .cleared, sramDone := true } ∧
      (∀ a : Nat, memByte t.mem a =
        if (0x1000 ≤ a ∧ a < 0x7500) ∨ (0x7640 ≤ a ∧ a < 0x7740) ∨ (0x7800 ≤ a ∧ a < 0x7C00) then 0 else memByte s.mem a) ∧
      t.ros = { s.ros with sealed := List.replicate 32 (List.replicate 32 0) } ∧
      { t with sys := s.sys, mem := s.mem, ros := s.ros } = s)) ∧
    (s.sys.phase = .config → s.cond.inReset = false → Completes .ledgerRecovery s (fun t =>
      t.ldg = (recover s).ldg ∧ t.sys.phase = .ledger ∧ t.nv.pages = s.nv.pages ∧ t.cond = { s.cond with wdog := 0 } ∧
      { t with sys := s.sys, cond := s.cond, nv := s.nv, evt := s.evt, ldg := s.ldg } = s))

/-- The config step and the boot record (R86, R87, R145, R258, R275, R318): a valid image is applied whole with source 54, every class N
field and range of Table 16.7, the tap map as log entry 42 reads it; of its AOUT record a valid one gives the power-on code, any other code 0
and fault_code 0 with rec_bad and source 61; an image that is not valid leaves class N and AOUT, with source 55; the boot record is the first
completion, and main_ready is set, with the always-on copy of the mask. -/
def Obligations.ConfigStepAndBootRecord : Prop :=
  ∀ (s : State) (n : Nat), s.pwr.mainOn = true → s.cond.inReset = false →
    (∀ present : BitVec 4, s.sys.phase = .cleared → s.sys.cfgDone = false →
      (imageValid s = true → Completes (.configImageApply present n) s (fun t =>
        t.sys.phase = .config ∧ t.sys.cfgState = 0 ∧ t.sys.cfgDone = true ∧ latched 54 t = true ∧
        imageApplied s t ∧ t.ldg.ctl = imgWord s 14 &&& 0x00FFFFF1 ∧
        ((imgWord s 13).setWidth 2 ≠ cfgSpan s → t.out.ivl = some 3) ∧
        (aoutRecordGood s = true → t.out.code = BitVec.ofNat 16 (halfAt (aoutRec s) 0) ∧ t.out.cfg = imgWord s 13 &&& 0xFFFF007F ∧
          t.out.recBad = s.out.recBad) ∧
        (aoutRecordGood s = false → t.out.code = 0 ∧ t.out.cfg = imgWord s 13 &&& 0x7F ∧ t.out.recBad = true ∧ latched 61 t = true) ∧
        t.pins = s.pins ∧ t.rtc = s.rtc ∧ t.alm = s.alm ∧ t.nv.pages = s.nv.pages)) ∧
      (imageValid s = false → Completes (.configImageApply present n) s (fun t =>
        t.sys.phase = .config ∧ t.sys.cfgState = (if imageEmpty s then 2 else 1) ∧ latched 55 t = true ∧
        t.clk.src = s.clk.src ∧ t.clk.plans = s.clk.plans ∧ t.afe.ctl = s.afe.ctl ∧ t.ldg.ctl = s.ldg.ctl ∧
        t.cal = s.cal ∧ t.mem = s.mem ∧ (s.out.due = none → t.out.code = s.out.code) ∧ t.out.cfg = s.out.cfg ∧ t.out.recBad = s.out.recBad ∧
        latched 61 t = latched 61 s ∧ t.pins = s.pins ∧ t.rtc = s.rtc ∧ t.alm = s.alm ∧ t.nv.pages = s.nv.pages ∧
        (s.disc.ports.length = 4 → ∀ k ∈ List.range 4, (portAt t k).state =
          if (portAt s k).state = 0 then 0 else if present.getLsbD k then 2 else 1)))) ∧
    (s.sys.phase = .ledger → ringRoom s → Memory.wf s.mem = true → nothingRuns s → Completes (.bootRecord n) s (fun t =>
      t.sys.phase = .ready ∧ t.sys.cause = s.sys.cause ∧
      (s.cond.shipped = false ∨ s.cond.queue ++ waitingJobs s = [] →
        answered 0 false false (if fld (bootDetail s) 1 4 = 0 then rOk else rPartial) 0 (bootDetail s) s t ∧
        onlyBytes (nextRecordAt s) 16 s t) ∧
      (s.cond.shipped = true → t.cond.queue = []) ∧ recordStands 0 false false (if fld (bootDetail s) 1 4 = 0 then rOk else rPartial) 0
        (bootDetail s) s.cond.head s.cond.seq t.mem ∧ t.evin.level = s.pins.ev ∧ t.evin.syncLevel = s.pins.sync ∧ t.hif.served = 0 ∧
      t.evt.mask = s.evt.mask ∧ t.evt.copy = BitVec.ofNat 8 (fld (regRead s 42) 8 8) ∧
      (clkSel s = 1 → planValid .refin (activePlan s) = true → t.clk.state = .acq) ∧
      t.pins = s.pins ∧ t.pwr = s.pwr ∧ t.rtc = s.rtc ∧ t.alm = s.alm ∧ t.nv.pages = s.nv.pages))

/-- RSTN, AON_COLD_START, X32_RUN_DECLARED, SHIP_ENTRY and SHIP_EXIT (R32, R49 to R52, R81, R82, R90): a low pulse of 1 us on RSTN resets
the main domain and keeps class A, PWR fields among it, and the grace period of SHIP (log entry 73); one under 200 ns has no effect. The
always-on domain leaves reset at a supply above its release level, its registers at reset. X32 is declared running after 1 024 edges (log
entry 45). At the end of its grace SHIP is entered and class A kept; a low pulse of 1 ms on WAKEN, or the return of VDD in any row whose
levels are within the ratings, leaves it with time_invalid set, one under 100 us has no effect. The exact cause values rest on log entries
45 and 46, the clearing of the protocol-error flag on log entry 66. -/
def Obligations.ResetsAndColdStart : Prop :=
  ∀ (s : State) (e : Edge),
    (∀ w : Nat, 1000 ≤ w → s.pwr.mainOn = true → s.pwr.ship = false → Completes (.rstn w) s (fun t =>
      t.sys.phase = .held ∧ (mainReady s = true → t.sys.cause = 0x010) ∧ t.tt = Tt.reset ∧ t.clk = Clk.reset ∧
      t.cond = { Cond.reset with shipped := s.cond.shipped } ∧ t.ldg = Ldg.reset ∧ t.afe = Afe.reset ∧ t.out = Out.reset ∧
      t.evin = Evin.reset ∧ t.hif = hifCleared s.hif ∧ t.rtc = { s.rtc with shiftShown := false } ∧
      t.pwr = pwrKept 0x1100 s ∧ t.alm = s.alm ∧ t.pins = s.pins ∧
        t.nv.pages = s.nv.pages ∧ t.evt.copy = s.evt.copy ∧ t.pending = s.pending)) ∧
    (∀ w : Nat, w < 200 → exec (.rstn w) s = .next s) ∧
    (∀ vdd vbat : Nat, vdd ≤ 4000 → vbat ≤ 4000 → s.pwr.aonOn = false → (aonRelease s < vdd ∨ aonRelease s < vbat) →
      Completes (.aonColdStart vdd vbat) s (fun t =>
        t.pwr.aonOn = true ∧ t.pwr.aonCold = true ∧ t.rtc = Rtc.reset ∧ t.alm = Alm.reset ∧ t.evt.stat = 0 ∧
        t.evt.copy = 0xFF ∧ t.pins = { s.pins with vdd := vdd, vbat := vbat } ∧ t.sys.x32Run = false ∧
        (1880 < vdd → t.pwr.mainOn = true ∧ t.sys.phase = .held ∧ t.sys.cause = 0x003) ∧
        (vdd ≤ 1820 → t.pwr.mainOn = false ∧ t.sys.phase = .off) ∧ t.nv.pages = s.nv.pages)) ∧
    (s.pwr.aonOn = true → s.pwr.ship = false → s.sys.x32Run = false → exec .x32RunDeclared s =
      .next { s with
        sys := { s.sys with x32Run := true }, rtc := { s.rtc with edges := 1024 }
        disc := { s.disc with ports := s.disc.ports.map (fun p => { p with slotAt := none }) } }) ∧
    (supplied { s with pwr := { s.pwr with shipIn := none } } → s.pwr.shipIn = some 1 → s.pwr.castlings = [] →
      s.pwr.clearPend = false → bitOf s.alm.alctl 0 = false → bitOf s.alm.alctl 16 = false → Memory.wf s.mem = true → Completes (.shipEntry e) s (fun t =>
      t.pwr.ship = true ∧ t.pwr.mainOn = false ∧ t.pwr.shipIn = none ∧ t.sys.phase = .off ∧ t.sys.x32Run = false ∧
      t.tt = Tt.reset ∧ t.clk = Clk.reset ∧ t.ldg = Ldg.reset ∧ t.pins = s.pins ∧ t.nv.pages = s.nv.pages ∧
      t.pwr = { pwrKept 0x1100 s with
        shipIn := none, ship := true, mainOn := false, trickleOn := false, shipVddLow := false, ranVbat := t.pwr.ranVbat
        wantVbat := t.pwr.wantVbat, sideVbat := t.pwr.sideVbat, onVbat := t.pwr.onVbat, castlings := t.pwr.castlings
        vbatFull := t.pwr.vbatFull } ∧
      t.rtc = { (nextTick e s).2.rtc with shiftShown := false, edges := s.rtc.edges + 1 } ∧ t.alm.alctl = s.alm.alctl ∧ t.alm.alm0 = s.alm.alm0 ∧
      t.alm.alm1 = s.alm.alm1 ∧ t.evt.copy = s.evt.copy ∧
      (∀ x : Nat, 0x100 ≤ x → x < 0x140 → memByte t.mem x = memByte s.mem x))) ∧
    (∀ us : Nat, 1000 ≤ us → s.pwr.ship = true → Completes (.shipExit (.waken us)) s (fun t =>
      t.pwr.ship = false ∧ bitOf t.rtc.ctl 1 = true ∧ t.rtc.edges = 0 ∧ t.rtc.sec = s.rtc.sec ∧ t.rtc.presc = s.rtc.presc ∧
      t.alm = s.alm ∧ t.pins = s.pins ∧
      (vOff s + 50 < s.pins.vdd → t.pwr.mainOn = true ∧ t.sys.phase = .held ∧ t.sys.cause = 0x008))) ∧
    (∀ us : Nat, us < 100 → exec (.shipExit (.waken us)) s = .next s) ∧
    (withinRatings s.pins → ∀ vdd : Nat, exec (.mainPowerOn vdd s.pins.vbat) s = exec (.shipExit (.vddReturn vdd)) s) ∧
    (∀ vdd : Nat, vdd ≤ 4000 → s.pins.vbat ≤ 4000 → s.pwr.aonOn = true → s.pwr.ship = true → s.pwr.shipVddLow = true →
      vOff { s with pins := { s.pins with vdd := vdd } } + 50 < vdd → Completes (.shipExit (.vddReturn vdd)) s (fun t =>
        t.pwr.ship = false ∧ bitOf t.rtc.ctl 1 = true ∧ t.pwr.mainOn = true ∧ t.sys.phase = .held ∧ t.sys.cause = 0x008 ∧
        t.rtc.sec = s.rtc.sec ∧ t.alm = s.alm ∧ t.pins = { s.pins with vdd := vdd }))

/-- Supplies that move the selector (R37, R38, R41): a called castling that the supply allows is made and waits for its
registration, also where a fallback has moved the domain already (log entry 73), a supply that fails under its side is replaced without
one, and with both below 1.40 V nothing is kept; a main power-on has the cause of log entry 45. The castlings made since the last ktick
edge register at it, oldest first, each with source 12 or 13 (R38); a clear that waits comes before them (R40), and on a substitute ktick
the stamp is 0 (R90). -/
def Obligations.SelectorAndFallback : Prop :=
  ∀ (s u : State) (vdd vbat : Nat), u = { s with pins := { s.pins with vdd := vdd, vbat := vbat } } → vdd ≤ 4000 → vbat ≤ 4000 →
    s.pwr.aonOn = true → s.pwr.ship = false →
    (calledVbat u ≠ s.pwr.sideVbat → 1400 ≤ sideLevel u (calledVbat u) → Completes (.selectorSwitch vdd vbat) s (fun t =>
      t.pwr.sideVbat = calledVbat u ∧ t.pwr.onVbat = calledVbat u ∧ t.pwr.castlings = s.pwr.castlings ++ [!calledVbat u] ∧
      t.pwr.castleCount = s.pwr.castleCount ∧ t.pwr.firstValid = s.pwr.firstValid ∧ t.pins = u.pins ∧ t.alm = s.alm ∧
      t.rtc.sec = s.rtc.sec ∧ t.rtc.presc = s.rtc.presc)) ∧
    (calledVbat u = s.pwr.sideVbat → sideLevel u s.pwr.sideVbat < 1400 → 1400 ≤ sideLevel u (!s.pwr.sideVbat) →
      Completes (.aonSupplyFallback vdd vbat) s (fun t =>
        t.pwr.onVbat = (!s.pwr.sideVbat) ∧ t.pwr.sideVbat = s.pwr.sideVbat ∧ t.pwr.castlings = s.pwr.castlings ∧
        t.pins = u.pins ∧ t.alm = s.alm ∧ t.rtc.sec = s.rtc.sec)) ∧
    (bothLow u = true → Completes (.aonSupplyFallback vdd vbat) s (fun t =>
      t.pwr.aonOn = false ∧ t.pwr.mainOn = false ∧ t.sys.phase = .off ∧ t.sys.x32Run = false ∧ t.pins = u.pins)) ∧
    (bothLow u = false → s.pwr.mainOn = true → vdd < vOff u → s.nv.op = none → Completes (.mainDomainOff vdd vbat) s (fun t =>
      t.pwr.mainOn = false ∧ t.sys.phase = .off ∧ t.tt = Tt.reset ∧ t.cond = Cond.reset ∧ t.clk = Clk.reset ∧
      t.rtc = { s.rtc with shiftShown := false } ∧ t.alm = s.alm ∧ t.pins = u.pins ∧ t.nv.pages = s.nv.pages)) ∧
    (bothLow u = false → s.pwr.mainOn = false → vOff u + 50 < vdd → Completes (.mainPowerOn vdd vbat) s (fun t =>
      t.pwr.mainOn = true ∧ t.sys.phase = .held ∧ t.sys.powerOn = true ∧ t.sys.lostCmds = 0 ∧
      (s.pwr.coldNew = true → t.sys.cause = 0x003) ∧
      (s.pwr.coldNew = false → s.pwr.ranVbat = true → t.sys.cause = 0x006) ∧ t.tt = Tt.reset ∧ t.cond = Cond.reset ∧
      t.rtc = { s.rtc with shiftShown := false } ∧ t.alm = s.alm ∧ t.pins = u.pins ∧ t.nv.pages = s.nv.pages)) ∧
    (∀ e : Edge, s.pwr.castlings ≠ [] → ktickRuns s = true →
      ∀ l, l = s.pwr.castlings → ∀ valid, valid = (s.pwr.firstValid && !s.pwr.clearPend) →
      ∀ count : Nat, count = (if s.pwr.clearPend then 0 else s.pwr.castleCount) →
        Completes (.castlingRegistered e) s (fun t =>
          t.pwr.firstValid = true ∧ (∀ b ∈ l, latched (if b then 13 else 12) t = true) ∧
          (valid = false → t.pwr.firstDir = l.headD false ∧
            t.pwr.firstSec = (if s.sys.x32Run then (coarseNow t).sec else 0) ∧
            t.pwr.firstFrac = (if s.sys.x32Run then (coarseNow t).frac else 0) ∧
            t.pwr.castleCount = if l.length = 1 then count else min 255 (count + (l.length - 1))) ∧
          (valid = true → t.pwr.firstDir = s.pwr.firstDir ∧ t.pwr.firstSec = s.pwr.firstSec ∧ t.pwr.firstFrac = s.pwr.firstFrac ∧
            t.pwr.castleCount = min 255 (count + l.length))))

/-- The trickle charger and VDDIO (R35, R45): the charge ends at its termination voltage with source 14, resumes 100 mV below it,
and stops without its 200 mV of headroom; the host port responds above 1.10 V of VDDIO and not below 0.90 V, where an open transaction is
dropped (log entry 7). -/
def Obligations.ChargerAndPortSupply : Prop :=
  ∀ (s : State) (vdd vbat : Nat), vdd ≤ 4000 → vbat ≤ 4000 → supplied s → 1400 ≤ vbat →
    (s.pwr.trickleOn = true → vTerm s ≤ vbat → vOff { s with pins := { s.pins with vbat := vbat } } ≤ s.pins.vdd →
      Completes (.trickleDone vbat) s (fun t =>
        t.pwr.trickleOn = false ∧ t.pwr.vbatFull = true ∧ latched 14 t = true ∧ t.pwr.trickle = s.pwr.trickle ∧
        t.pins = { s.pins with vbat := vbat } ∧ t.out.code = s.out.code ∧ t.out.cfg = s.out.cfg ∧ t.out.span = s.out.span ∧
        { t with pins := s.pins, pwr := s.pwr, evt := s.evt, out := s.out } = s)) ∧
    (s.pwr.trickleOn = false → vbat + 100 < vTerm s → bitOf s.pwr.trickle 0 = true → vbat + 200 ≤ s.pins.vdd →
      vOff { s with pins := { s.pins with vbat := vbat } } ≤ s.pins.vdd → Completes (.trickleResume vbat) s (fun t =>
        t.pwr.trickleOn = true ∧ t.pwr.vbatFull = false ∧ t.evt = s.evt ∧ t.pins = { s.pins with vbat := vbat } ∧
        t.out.code = s.out.code ∧ t.out.cfg = s.out.cfg ∧ t.out.span = s.out.span ∧
        { t with pins := s.pins, pwr := s.pwr, out := s.out } = s)) ∧
    (s.pwr.trickleOn = true → vbat < vTerm s → vdd < vbat + 200 → 1400 ≤ vdd →
      vOff { s with pins := { s.pins with vdd := vdd, vbat := vbat } } ≤ vdd →
      Completes (.trickleHeadroomChange vdd vbat) s (fun t =>
        t.pwr.trickleOn = false ∧ t.evt = s.evt ∧ t.pins = { s.pins with vdd := vdd, vbat := vbat } ∧
        t.out.code = s.out.code ∧ t.out.cfg = s.out.cfg ∧ t.out.span = s.out.span ∧
        { t with pins := s.pins, pwr := s.pwr, out := s.out } = s)) ∧
    (∀ mv : Nat, mv < 900 → exec (.vddioPresenceChange mv) s = .next { s with
      pins := { s.pins with vddio := mv, vddioOk := false }, hif := { s.hif with txn := none, header := false } }) ∧
    (∀ mv : Nat, 1100 < mv → mv ≤ 4000 → exec (.vddioPresenceChange mv) s =
      .next { s with pins := { s.pins with vddio := mv, vddioOk := true } })

/-- CASTLING_REGISTERED (R39): with first_valid at 0 the castling sets it, with its stamp and its direction; with first_valid at 1 it
counts, to 255. -/
def Obligations.CastlingRegistration : Prop :=
  ∀ (s : State) (e : Edge) (b : Bool), s.pwr.castlings = [b] → s.pwr.clearPend = false → s.sys.x32Run = true → ktickRuns s = true →
    Completes (.castlingRegistered e) s (fun t =>
      (s.pwr.firstValid = false → t.pwr.firstValid = true ∧ t.pwr.firstSec = (coarseNow t).sec ∧ t.pwr.firstFrac = (coarseNow t).frac ∧
        t.pwr.firstDir = b ∧ t.pwr.castleCount = s.pwr.castleCount) ∧
      (s.pwr.firstValid = true → t.pwr.firstValid = true ∧ t.pwr.firstSec = s.pwr.firstSec ∧ t.pwr.firstFrac = s.pwr.firstFrac ∧
        t.pwr.firstDir = s.pwr.firstDir ∧ t.pwr.castleCount = min 255 (s.pwr.castleCount + 1)))

/-- X32_EDGE, SECOND_TICK, TRIM_WINDOW_START, TRIM_CORRECTION, TEMP_CONVERSION_START and RTC_STARTING_EDGE (R90, R94, R95, R99 to
R107): an edge advances the count by one ktick, by two or none where a correction falls on it, and by a committed shift; a halt
clears the prescaler; the starting edge takes a written time; a window begins with its evaluation of TC from the table and of T,
which is limited, and a conversion takes the die's temperature. Before X32 is declared running the count takes no part. The
counting is the same in RUN and in BACKUP. The order within an edge rests on log entry 6, the substitute kticks before the declaration on
log entry 45, the TC held for a window without a sample on log entry 93. -/
def Obligations.CountAtAnEdge : Prop :=
  ∀ (s : State) (e : Edge), s.pwr.aonOn = true → s.pwr.ship = false → bothLow s = false → restoreWaits s = true →
    (s.sys.x32Run = false → s.pwr.mainOn = true → Completes (.x32Edge e) s (fun t =>
      t.rtc.sec = s.rtc.sec ∧ t.rtc.presc = s.rtc.presc ∧ t.rtc.halted = s.rtc.halted ∧ t.rtc.timePend = s.rtc.timePend ∧
      t.rtc.shiftPend = s.rtc.shiftPend ∧ t.rtc.edges = s.rtc.edges + 1 ∧ latched 11 t = latched 11 s ∧ (supplied s → besideEdge s t))) ∧
    (s.sys.x32Run = true → s.rtc.started = false → Completes (.rtcStartingEdge e) s (fun t =>
      t.rtc.started = true ∧ t.rtc.sec = s.rtc.timePend.getD s.rtc.sec ∧ t.rtc.presc = 0 ∧ t.rtc.halted = bitOf s.rtc.ctl 0 ∧
      t.rtc.timePend = none ∧ t.rtc.winEdge = 1 ∧ latched 11 t = latched 11 s ∧ (supplied s → besideEdge s t))) ∧
    (s.sys.x32Run = true → s.rtc.started = true → bitOf s.rtc.ctl 0 = true → Completes (.x32Edge e) s (fun t =>
      t.rtc.sec = s.rtc.timePend.getD s.rtc.sec ∧ t.rtc.presc = 0 ∧ t.rtc.halted = true ∧ t.rtc.timePend = none ∧
      t.rtc.shiftPend = none ∧ (s.rtc.shiftPend ≠ none → latched 15 t = true) ∧
      latched 11 t = latched 11 s ∧ (supplied s → besideEdge s t))) ∧
    (s.sys.x32Run = true → s.rtc.started = true → bitOf s.rtc.ctl 0 = false → s.rtc.halted = true →
      Completes (.x32Edge e) s (fun t =>
        t.rtc.sec = s.rtc.timePend.getD s.rtc.sec ∧ t.rtc.presc = s.rtc.presc ∧ t.rtc.halted = false ∧
        t.rtc.shiftPend = s.rtc.shiftPend ∧ latched 11 t = latched 11 s ∧ (supplied s → besideEdge s t))) ∧
    (counts s → correctionFalls s = false → ∀ n : Int, n = s.rtc.presc.toNat + 1 + shiftOf s → Completes (.x32Edge e) s (fun t =>
      t.rtc.sec = s.rtc.timePend.getD s.rtc.sec + BitVec.ofInt 32 (n / 32768) ∧ t.rtc.presc = BitVec.ofInt 15 (n % 32768) ∧
      t.rtc.shiftPend = none ∧ t.rtc.timePend = none ∧ t.rtc.halted = false ∧ t.rtc.edges = s.rtc.edges + 1 ∧
      latched 11 t = (latched 11 s || decide (32768 ≤ n)) ∧ (supplied s → besideEdge s t))) ∧
    (counts s → correctionFalls s = true → ∀ n : Int,
      n = s.rtc.presc.toNat + (if 0 < (trimEdge s.mem false s.rtc).2.trimT then 2 else 0) + shiftOf s →
      Completes (.trimCorrection e) s (fun t =>
        t.rtc.sec = s.rtc.timePend.getD s.rtc.sec + BitVec.ofInt 32 (n / 32768) ∧ t.rtc.presc = BitVec.ofInt 15 (n % 32768) ∧
        latched 11 t = (latched 11 s || decide (32768 ≤ n)) ∧ (supplied s → besideEdge s t))) ∧
    (counts s → correctionFalls s = false → s.rtc.shiftPend = none → s.rtc.presc = 0x7FFF → Completes (.secondTick e) s (fun t =>
      t.rtc.sec = s.rtc.timePend.getD s.rtc.sec + 1 ∧ t.rtc.presc = 0 ∧ latched 11 t = true ∧ (supplied s → besideEdge s t))) ∧
    (s.sys.x32Run = true → s.rtc.started = true → 2097152 ≤ s.rtc.winEdge →
      ∀ (tc v : Int), tc = ((s.rtc.conv.map (tcOf s.mem)).getD (signed 12 s.rtc.tcHeld.toNat)) →
      v = signed 12 s.rtc.trim.toNat + (if bitOf s.rtc.ctl 2 = true then tc else 0) → Completes (.trimWindowStart e) s (fun t =>
        t.rtc.winEdge = 1 ∧ t.rtc.conv = none ∧ signed 12 t.rtc.tc.toNat = (if bitOf s.rtc.ctl 2 = true then tc else 0) ∧
        t.rtc.trimT = min (max v (-2048)) 2047 ∧ t.rtc.sat = (decide (v < -2048) || decide (2047 < v)) ∧
        t.rtc.trimAcc = t.rtc.trimT.natAbs ∧ (∀ temp : BitVec 12, s.rtc.conv = some temp → fld t.rtc.ctl 20 12 = temp.toNat) ∧
        (supplied s → besideEdge s t))) ∧
    (∀ (temp : BitVec 12) (p : Nat), p = (min (max (signed 12 temp.toNat + 640) 0) 1920).toNat → tcOf s.mem temp =
      if p = 1920 then tcEntry s.mem 15
      else tcEntry s.mem (p / 128) + ((tcEntry s.mem (p / 128 + 1) - tcEntry s.mem (p / 128)) * (p % 128 : Nat) + 64) / 128) ∧
    (s.sys.x32Run = true → s.rtc.started = true → s.rtc.winEdge < 2097152 →
      correctionFalls s = (decide (s.rtc.trimT ≠ 0) && decide (2097152 ≤ s.rtc.trimAcc + s.rtc.trimT.natAbs)) ∧
      Completes (.x32Edge e) s (fun t =>
        t.rtc.winEdge = s.rtc.winEdge + 1 ∧ t.rtc.trimT = s.rtc.trimT ∧ t.rtc.tc = s.rtc.tc ∧ t.rtc.sat = s.rtc.sat ∧
        t.rtc.trimAcc + (if correctionFalls s = true then 2097152 else 0) = s.rtc.trimAcc + s.rtc.trimT.natAbs)) ∧
    (∀ temp : BitVec 12, s.sys.x32Run = true → s.rtc.started = true → s.rtc.winEdge = 2093056 → s.pwr.onVbat = false →
      Completes (.tempConversionStart temp e) s (fun t =>
        t.rtc.conv = some temp ∧ t.rtc.winEdge = 2093057 ∧ (supplied s → besideEdge { s with pins := { s.pins with dieTemp := temp } } t)))

/-- ALARM_COMMIT_CHECK and ALARM_FIRING (R114 to R119): a target at or before the count fires LATE at the check; the edge that
brings the count to the target fires the alarm with source 8 or 9 and no LATE mark; a one-shot alarm disables itself, a
repeating one moves its target by its period. A firing on time tells in ax_miss whether an action was not performed (R120): the frame action
gives a trigger of code 1 or 2, the aout action applies the staged code, the lap action makes a lap switch, or waits with a ledger that takes
none yet (R281); while the main domain is up the firing writes its event-log record, a LATE one with its lateness (R121, R249, Table 12.6).
The model's choices here are that a frame trigger merely ignored, with TT_CTL.en 0, no active table, MEAS in reset or the grace of SHIP
running, sets ax_miss (log entry 29), the reasons and the count of a refused lap (log entry 19), a lap that waits with a busy ledger (log
entry 108), and that a firing of a repeating alarm always moves its target by at least one period (log entry 40). -/
def Obligations.AlarmsAtAnEdge : Prop :=
  ∀ (s : State) (e : Edge) (x : Bool), s.pwr.aonOn = true → s.pwr.ship = false → bothLow s = false → restoreWaits s = true → plainEdge s →
    alBit s x 0 = true →
    (alChk s x = true → alarmTarget s x ≤ countNow s → Completes (.alarmCommitCheck x e) s (fun t =>
      alChk t x = false ∧ latched (if x then 9 else 8) t = true ∧ alBit t x 13 = true ∧ alBit t x 14 = alBit s x 3 ∧
      (alarmRep s x = 0 → alBit t x 0 = false ∧ alarmSec t x = alarmSec s x) ∧ (supplied s → besideEdge s t))) ∧
    (alChk s x = true → countNow s + 1 < alarmTarget s x → Completes (.alarmCommitCheck x e) s (fun t =>
      alChk t x = false ∧ alBit t x 0 = true ∧ alarmSec t x = alarmSec s x ∧
      latched (if x then 9 else 8) t = latched (if x then 9 else 8) s ∧ (supplied s → besideEdge s t))) ∧
    (alarmTarget s x = countNow s + 1 → Completes (.alarmFiring x e) s (fun t =>
      alChk t x = false ∧ latched (if x then 9 else 8) t = true ∧ alBit t x 13 = false ∧ alBit t x 14 = false ∧
      (alarmRep s x = 0 → alBit t x 0 = false ∧ alarmSec t x = alarmSec s x) ∧
      (alarmRep s x ≠ 0 → alBit t x 0 = true ∧ alarmSec t x = word ((alarmSec s x).toNat + repeatSecs (alarmRep s x))) ∧
      (supplied s → besideEdge s t) ∧ (firingsAlone s → alBit t x 15 = actionMissed s x))) ∧
    (supplied s → mainUp s = true → s.pwr.warn = false → warnLatches s = false → firingsAlone s → alBit s (!x) 0 = false →
      bitOf s.alm.cdctl 0 = false → Memory.wf s.mem = true →
      (alarmTarget s x = countNow s + 1 → Completes (.alarmFiring x e) s (fun t =>
        ((alAct s x 0 = false ∨ s.clk.bypass = false) → logged (if x then 9 else 8) (nextStamp s) 0 s t) ∧
        (alAct s x 0 = true → trigReaches s = true → s.clk.bypass = false →
          (hfRunning s = true ∨ (clkSel s ≠ 0 ∧ planValid (selRef s) (activePlan s) = true)) →
          ∃ a, t.tt.await = some a ∧ a.code = (if x then 2 else 1) ∧ a.stamp = nextStamp s ∧ a.coincident = false) ∧
        (alAct s x 0 = false → t.tt.await = none) ∧
        (s.out.due = none → s.out.lastAt = none →
          t.out.code = (if alAct s x 1 then s.out.staged else s.out.code) ∧ (alAct s x 1 = true → t.out.fault = false)) ∧
        (s.ldg.job = none → s.ldg.jobs = [] → s.ldg.inst = none →
          t.ldg.lap = (if alAct s x 2 && lapAllowed s && !ldgBusy s then s.ldg.lap + 1 else s.ldg.lap) ∧
          t.ldg.laps = (if alAct s x 2 && lapAllowed s && ldgBusy s then 1 else 0) ∧
          (alAct s x 2 = true → lapAllowed s = true → ldgBusy s = false → t.ldg.seq = s.ldg.seq + 1 ∧
            ∃ y, t.ldg.job = some y ∧ y.snap.run = s.ldg.run ∧ y.snap.cnt = s.ldg.cnt ∧ y.snap.seq = s.ldg.seq)) ∧
        (alAct s x 2 = true → lapAllowed s = false → s.ldg.offPend = false → t.ldg.refused = min 255 (s.ldg.refused + 1)))) ∧
      (alChk s x = true → alarmTarget s x ≤ countNow s → (alAct s x 0 = false ∨ alBit s x 3 = true) → Completes (.alarmCommitCheck x e) s (fun t =>
        loggedAs (0x100 ||| (if alBit s x 3 then 0x200 else 0)) (if x then 9 else 8) (nextStamp s)
          (word (min (countNow s + 1 - alarmTarget s x) 0xFFFFFF)) s t)))

/-- COUNTDOWN_TICK, COUNTDOWN_ZERO and TT_START_FIRING (R122, R124, R125, R217): each period of the tick clock takes one from
the count; the step to zero raises source 10 and reloads where auto-reload is on; with act_frame it gives a frame trigger of code 0, and miss tells that
this was not delivered (Table 6.2); while the main domain is up a zero writes its event-log record (R121, R249, Table 12.6); TT_START clears
its enable when it fires. That miss is set also where the trigger is merely ignored, with TT_CTL.en 0, no active table, MEAS in reset or the
grace of SHIP running, is the model's choice (log entry 29). -/
def Obligations.CountdownAndTtStart : Prop :=
  ∀ (s : State) (e : Edge), s.pwr.aonOn = true → s.pwr.ship = false → bothLow s = false → restoreWaits s = true → plainEdge s →
    (s.alm.loadPend = none → s.alm.tsel = BitVec.ofNat 2 (fld s.alm.cdctl 1 2) → bitOf s.alm.cdctl 0 = true →
      (s.rtc.presc.toNat + 1) % tickLen s.alm.tsel = 0 → (s.alm.tsel = 3 → s.alm.sub60 = 59) →
      (1 < s.alm.count.toNat → Completes (.countdownTick e) s (fun t =>
        t.alm.count = s.alm.count - 1 ∧ latched 10 t = latched 10 s ∧ (s.alm.tsel = 3 → t.alm.sub60 = 0) ∧ (supplied s → besideEdge s t))) ∧
      (s.alm.count = 1 → Completes (.countdownZero e) s (fun t =>
        latched 10 t = true ∧
        t.alm.count = (if bitOf s.alm.cdctl 3 = true then BitVec.ofNat 24 (fld s.alm.cdctl 8 24) else 0) ∧ (supplied s → besideEdge s t) ∧
        (firingsAlone s → bitOf t.alm.cdctl 5 = (bitOf s.alm.cdctl 4 && !trigReaches s)) ∧
        (supplied s → mainUp s = true → s.pwr.warn = false → warnLatches s = false → firingsAlone s → alBit s false 0 = false →
          alBit s true 0 = false → Memory.wf s.mem = true →
          ((bitOf s.alm.cdctl 4 = false ∨ s.clk.bypass = false) → logged 10 (nextStamp s) 0 s t) ∧
          (bitOf s.alm.cdctl 4 = true → trigReaches s = true → s.clk.bypass = false →
            (hfRunning s = true ∨ (clkSel s ≠ 0 ∧ planValid (selRef s) (activePlan s) = true)) →
            ∃ a, t.tt.await = some a ∧ a.code = 0 ∧ a.stamp = nextStamp s ∧ a.coincident = false))))) ∧
    (∀ v : BitVec 24, s.alm.loadPend = some v → Completes (.x32Edge e) s (fun t =>
      t.alm.count = v ∧ t.alm.loadPend = none ∧ t.alm.sub60 = 0 ∧ latched 10 t = latched 10 s ∧ (supplied s → besideEdge s t))) ∧
    (supplied s → bitOf s.tt.ctl 3 = true → ttTarget s = countNow s + 1 → Completes (.ttStartFiring e) s (fun t =>
      t.tt.ctl = s.tt.ctl &&& 0xFFFFFFF7 ∧ t.tt.startChk = false ∧ besideEdge s t))

/-- PRE_WAKE, ACQUISITION_RETRY, SPAN_CHANGE_END, INTERVAL_END, CHECKPOINT_DUE, BROWN_OUT_WARNING and WARNING_END (R42, R43, R127,
R143, R270, R280 to R283): what else falls at an edge. -/
def Obligations.OtherEdgeOccurrences : Prop :=
  ∀ (s : State) (e : Edge), restoreWaits s = true →
    (supplied s → clkSel s ≠ 0 → planValid (selRef s) (activePlan s) = true →
      (preWakeFalls e s = true → s.pwr.warn = false → warnLatches s = false → Completes (.preWake e) s (fun t =>
        t.clk.state = .acq ∧ t.sys.pstate = .run ∧ besideEdge s t)) ∧
      (s.clk.bypass = true → s.clk.retryIn = some 1 → s.clk.acq = none → s.clk.verifying = false →
        Completes (.acquisitionRetry e) s (fun t =>
          t.clk.state = .acq ∧ t.clk.retries = min 255 (s.clk.retries + 1) ∧ t.clk.retryIn = some 8192 ∧ t.clk.bypass = true ∧
          besideEdge s t))) ∧
    (supplied s → s.out.ivl = some 1 → Completes (.spanChangeEnd e) s (fun t =>
      t.out.ivl = none ∧ t.out.span = cfgSpan s ∧ besideEdge s t)) ∧
    (supplied s → intervalEnds (nextTick e s).1 (nextTick e s).2 = true → (∀ x, s.ldg.inst = some x → instOpen x s = false) → Completes (.intervalEnd e) s (fun t =>
      t.ldg.ivlStart = t.rtc.sec ∧ (s.ldg.offPend = false ∧ s.evin.cmpAt = none ∧ quietMoment s ∨ fineClock s = false → t.ldg.seq = s.ldg.seq + 1) ∧
      latched 62 t = true ∧ t.ldg.short = false ∧ besideEdge s t)) ∧
    (supplied s → checkpointFalls (nextTick e s).1 (nextTick e s).2 = true → (∀ x, s.ldg.inst = some x → instOpen x s = false) →
      Completes (.checkpointDue e) s (fun t =>
      t.ldg.sinceRec = 0 ∧ t.ldg.added = false ∧
      (s.ldg.offPend = false ∧ s.evin.cmpAt = none ∧ quietMoment s ∨ fineClock s = false → t.ldg.seq = s.ldg.seq + 1) ∧ besideEdge s t)) ∧
    (∀ vdd : Nat, vdd ≤ 4000 → ∀ u : State, u = setSupplies vdd s.pins.vbat s → supplied u →
      (warnLatches u = true → Completes (.brownOutWarning vdd e) s (fun t =>
        t.pwr.warn = true ∧ latched 63 t = true ∧ t.afe.pairA.on = false ∧ t.afe.pairB.on = false ∧ t.tt.queued = none ∧
        t.tt.await = none ∧ aoutState t ≠ 2 ∧ besideEdge u t)) ∧
      (warnEnds u = true → Completes (.warningEnd vdd e) s (fun t => t.pwr.warn = false ∧ t.pwr.warnAbove = 0 ∧ besideEdge u t)))

/-- REFIN_MISSING, LOCK_WINDOW_CLOSE, DRIFT_WINDOW_CLOSE and SPREAD_PERIOD_WRAP (R131, R132, R137 to R143, R146): a window that passes
locks, one that fails is repeated, then searched for, then fails the acquisition with source 17; a lost lock puts MEAS on
the bypass clock and halts the sequencer; the drift window writes its rounded error and fails beyond the limit; a spread period
that ends takes the new parameters and another begins. What the handover at a lock sees rests on log entry
25, LOCKED while a first drift window still verifies on 27, both sources of a lock that one commit began by both registers on 61,
the phase of the spread on 67; a row whose occurrence cannot come about has no effect by log entry 4. -/
def Obligations.LockAndDrift : Prop :=
  ∀ (s : State) (n : Nat) (w : Close), mainUp s = true → noRestore s = true →
    (∀ count : Nat, ∀ a : Acq, s.clk.acq = some a →
      (windowPasses s count = true → s.clk.verify = false → Completes (.lockWindowClose count w) s (fun t =>
        (t.clk.state = .locked ∨ t.clk.state = .parked) ∧ t.clk.acq = none ∧ t.clk.bypass = false ∧ t.clk.retries = 0 ∧
        t.tt.halted = false ∧
        ((a.cause = .mainStart ∨ a.cause = .measReset ∨ a.cause = .clkSrc ∨ a.cause = .clkBoth ∨ a.cause = .retry) → latched 16 t = true) ∧
        (a.cause = .clkPlan ∨ a.cause = .clkBoth → latched 20 t = true) ∧ (s.clk.bypass = true → s.clk.episode = true → latched 19 t = true) ∧
        besideInputs s t)) ∧
      (windowPasses s count = true → s.clk.verify = true → Completes (.lockWindowClose count w) s (fun t =>
        t.clk.state = .locked ∧ t.clk.acq = none ∧ t.clk.verifying = true ∧ t.clk.bypass = s.clk.bypass ∧ besideInputs s t)) ∧
      (windowPasses s count = false → a.windows = 0 → Completes (.lockWindowClose count w) s (fun t =>
        t.clk.acq = some { a with windows := 1 } ∧ t.clk.state = s.clk.state ∧ t.clk.bands = s.clk.bands ∧ besideInputs s t)) ∧
      (windowPasses s count = false → a.windows ≠ 0 → a.hop = true → Completes (.lockWindowClose count w) s (fun t =>
        t.clk.acq = some { a with hop := false, windows := 0 } ∧ t.clk.state = s.clk.state ∧
        t.clk.bands = s.clk.bands.set (bandSlot s) none ∧ besideInputs s t)) ∧
      (windowPasses s count = false → a.windows ≠ 0 → a.hop = false → (a.cause = .retry ∨ s.clk.retryIn ≠ none) →
        Completes (.lockWindowClose count w) s (fun t =>
          t.clk.state = .bypass ∧ t.clk.acq = none ∧ t.clk.bypass = true ∧ t.clk.accErr = 2 ∧ latched 17 t = true ∧
          t.tt.await = none ∧ (∀ y, s.tt.await = some y → y.trigs ≠ [] → latched 46 t = true) ∧ besideInputs s t))) ∧
    (∀ count : Nat, s.clk.acq = none → hfLocked s = true → windowPasses s count = false →
      planValid (selRef s) (activePlan s) = true → clkSel s ≠ 0 →
      Completes (.lockWindowClose count w) s (fun t =>
        t.clk.state = .acq ∧ t.clk.bypass = true ∧ t.clk.accErr = 5 ∧ t.clk.retries = min 255 (s.clk.retries + 1) ∧
        latched 17 t = true ∧ (s.clk.bypass = false → latched 18 t = true) ∧ t.tt.halted = true ∧ t.tt.await = none ∧
        (∀ y, s.tt.await = some y → y.trigs ≠ [] → latched 46 t = true) ∧ besideInputs s t)) ∧
    (s.clk.ref = .refin → hfRunning s = true → ∀ a : Acq, s.clk.acq = some a → bitOf s.clk.src 3 = true →
      Completes (.refinMissing n) s (fun t =>
        t.clk.ref = .fallback ∧ t.clk.state = s.clk.state ∧ (∃ b : Acq, t.clk.acq = some b ∧ b.windows = 0 ∧ b.cause = a.cause) ∧
        latched 22 t = true ∧ besideInputs s t)) ∧
    (s.clk.ref = .refin → hfRunning s = true → s.clk.acq = none → clkSel s = 1 → planValid .refin (activePlan s) = true →
      Completes (.refinMissing n) s (fun t =>
        t.clk.state = .acq ∧ t.clk.bypass = true ∧ t.clk.accErr = 1 ∧ latched 22 t = true ∧ latched 17 t = true ∧
        t.tt.halted = true ∧ besideInputs s t)) ∧
    (∀ q : Nat, q = s.clk.winQ → hfLocked s = true → 1024 ≤ s.clk.periods → s.clk.ref = .refin → (activePlan s).rel = false →
      ∀ e : Int × Bool, e = limit (-8388607) 8388607
        (divrhe (16000000 * (32 * (q : Int) - (fNomKHz s * 1000 : Nat))) (fNomKHz s * 1000 : Nat)) →
      Completes (.driftWindowClose q n) s (fun t =>
        t.clk.drift = driftWord e.1 e.2 false ∧ t.clk.periods = 0 ∧
        (16 * fld s.clk.limits 20 12 < e.1.natAbs → fld s.clk.limits 20 12 ≠ 0 →
          t.clk.state = .bypass ∧ t.clk.accErr = 4 ∧ latched 21 t = true ∧ t.clk.retryIn = some 8192) ∧
        (fld s.clk.limits 20 12 = 0 → s.clk.verifying = false → t.clk.state = .locked ∧ t.clk.q = some q) ∧
        (16 * fld s.clk.limits 8 12 < e.1.natAbs → fld s.clk.limits 8 12 ≠ 0 → t.clk.warn = true ∧ (s.clk.warn = false →
          latched 21 t = true)) ∧ besideInputs s t)) ∧
    (∀ q : Nat, q ≠ s.clk.winQ → exec (.driftWindowClose q n) s = .next (settle s)) ∧
    (∀ l : Nat, l = spreadLen s.clk.spreadNow → 0 < l → hfRunning s = true → s.clk.spreadFrom ≤ s.clk.hf →
      Completes .spreadPeriodWrap s (fun t =>
        t.clk.spreadNow = s.clk.spreadNew.getD s.clk.spreadNow ∧ t.clk.spreadNew = none ∧ s.clk.hf < t.clk.spreadFrom ∧
        t.clk.spreadFrom ≤ s.clk.hf + l ∧ (t.clk.spreadFrom - s.clk.spreadFrom) % l = 0 ∧
        besideMoment s { t with clk := { t.clk with
          spreadNow := s.clk.spreadNow, spreadNew := s.clk.spreadNew, spreadFrom := s.clk.spreadFrom } })) ∧
    (hfRunning s = false ∨ s.clk.spreadNow = .off → exec .spreadPeriodWrap s = .next s)

/-- EV_TRANSITION, EV_CHANGE_ACCEPTED and SYNC_RISE (R235 to R242, R249 to R251): a pin takes its level; a change confirmed on the fast
path, found by the first sample of a watch that resumed, or confirmed by its slow samples, is accepted, moves its machine by the entry of
its state, raises the input's source where the entry asks for it and writes the event-log record that the entry asks for; an accepted
rise of SYNC raises source 6, and away from lock its reset waits; one that its filter has confirmed is accepted whatever the pin does then,
and registers at its sync qtick. Pin 7 is WAKEN (log entry 79); a change that waits for its first sample is compared at its qtick (log entry
31); that a fall in between leaves the rise waiting is the model's reading (log entry 107). -/
def Obligations.InputsAndSync : Prop :=
  ∀ (s : State) (k : BitVec 3) (e : Edge), mainUp s = true → restoreWaits s = true →
    (∀ level : Bool, k = 7 → exec (.evTransition k level e) s = .next { s with pins := { s.pins with waken := level } }) ∧
    (∀ (level : Bool) (u v : State), k.toNat ≤ 6 → u = takeFresh e.n (advance e.n s) →
      v = (if k = 6 ∧ level ≠ u.pins.sync then holdSync e.n u else u) →
      (s.evin.cmpAt = none → besideMoment s u ∧ u.evin = s.evin) ∧
      Completes (.evTransition k level e) s (fun t =>
        pinOf t k.toNat = level ∧ (∀ j ∈ List.range 7, j ≠ k.toNat → pinOf t j = pinOf u j ∧ confOf t j = confOf u j) ∧
        t.evin.level = u.evin.level ∧ t.evin.syncLevel = v.evin.syncLevel ∧ t.evin.st = u.evin.st ∧ t.evin.rise = v.evin.rise ∧
        (k = 6 → level ≠ u.pins.sync → accepted u 6 = false → ∀ r : Stamp × Nat, fastReady u 6 = some r → r.2 ≤ e.n →
          t.evin.syncLevel = true ∧ t.evin.rise = some (r.1, qtickAt u (r.2 + 2))) ∧
        (fastPath s = false → t.evin = u.evin) ∧
        (fastPath s = true → inEn v k.toNat = true → isFresh v k.toNat = false → pinOf v k.toNat = accepted v k.toNat →
          level ≠ pinOf v k.toNat → confOf v k.toNat = none → v.evin.conf.length = 7 →
          ∀ m : Nat, m = e.n + 2 + (if 0 < tapPos v e.tap then 1 else 0) →
            confOf t k.toNat = some (.fast (stampAt e.n (tapPos v e.tap) v) m (qtickAt v m) none)) ∧
        { t with pins := u.pins, evin := u.evin } = u)) ∧
    (k.toNat ≤ 5 → ∀ r : Stamp × Nat, freshFalls k.toNat s = false → fastReady s k.toNat = some r → s.evin.conf.length = 7 →
      s.evin.st.length = 6 → ∀ y, y = smEntry s k.toNat (!pinOf s k.toNat).toNat →
      Completes (.evChangeAccepted k e) s (fun t =>
        accepted t k.toNat = pinOf s k.toNat ∧ confOf t k.toNat = none ∧ t.evin.st.getD k.toNat 0 = y.setWidth 3 ∧
        (y.getLsbD 4 = true → latched k.toNat t = true) ∧ besideInputs s t ∧
        (nothingRuns s → nothingWaits s → s.evin.rise = none → (∀ j ∈ List.range 7, j ≠ k.toNat → confOf s j = none) → Memory.wf s.mem = true →
          y.getLsbD 5 = false → y.getLsbD 6 = false →
          (y.getLsbD 3 = true → logged k.toNat r.1
            (put 0 3 (s.evin.st.getD k.toNat 0).toNat ||| put 3 3 y.toNat ||| put 6 2 (!pinOf s k.toNat).toNat |||
              put 8 1 (pinOf s k.toNat).toNat) s t) ∧
          (y.getLsbD 3 = false → t.evin.head = s.evin.head ∧ t.evin.seq = s.evin.seq ∧ t.mem = s.mem)))) ∧
    (k.toNat ≤ 5 → freshFalls k.toNat s = true → s.evin.conf.length = 7 → s.evin.st.length = 6 →
      Completes (.evChangeAccepted k e) s (fun t =>
        accepted t k.toNat = pinOf s k.toNat ∧ confOf t k.toNat = none ∧
        t.evin.st.getD k.toNat 0 = (smEntry s k.toNat (!pinOf s k.toNat).toNat).setWidth 3 ∧ besideInputs s t)) ∧
    (k.toNat ≤ 6 → (k = 6 → s.evin.rise = none) → supplied s → freshFalls k.toNat s = false → fastReady s k.toNat = none → slowFalls k.toNat e s = true →
      s.evin.conf.length = 7 → Completes (.evChangeAccepted k e) s (fun t =>
        accepted t k.toNat = pinOf s k.toNat ∧ confOf t k.toNat = none ∧ besideEdge s t)) ∧
    (∀ x : Stamp × Nat, s.evin.rise = some x → fastPath s = true → ∀ i ∈ [Instr.syncRise e, .evChangeAccepted 6 e],
      Completes i s (fun t => t.evin.rise = none ∧ latched 6 t = true ∧
        (nothingRuns s → fastReady s 6 = none → t.evin.syncLevel = s.evin.syncLevel) ∧ besideInputs s t)) ∧
    (s.evin.rise = none →
      (accepted s 6 = true → exec (.syncRise e) s = .next s) ∧
      (accepted s 6 = false → ∀ r : Stamp × Nat, fastReady s 6 = some r → Completes (.syncRise e) s (fun t =>
        t.evin.syncLevel = true ∧ latched 6 t = true ∧ t.evin.st = s.evin.st ∧ besideInputs s t)) ∧
      (accepted s 6 = false → supplied s → fastReady s 6 = none → slowFalls 6 e s = true → Completes (.syncRise e) s (fun t =>
        t.evin.syncLevel = true ∧ latched 6 t = true ∧ (fineClock s = false → t.evin.syncHeld = true) ∧ besideEdge s t)))

/-- EXCITE, EXC_OFF, CONVERT, AUX, CORRECT, COUPLE, EMIT, AOUT_SET, LEDGER_ADD and MARK (R152, R153, R163, R206, R211, R224, R230,
R233, R234, R271, R279): a carriage that R206 stops runs with its reason and does nothing; one it passes has its effect. An excited pair
keeps a lost sense (R154); an AOUT_SET's code falls due 4 qticks after its start (R268). The words of an output-format entry that a commit
of the very qtick replaces are read as log entry 75 says. -/
def Obligations.CarriageStarts : Prop :=
  ∀ (s u : State) (i : BitVec 7) (f : Frame) (c : Carriage) (d : List Byte), startsAt i s u f c d →
    (∀ r ∈ (startFault u f c d).toList, ∀ cmd ∈ startRows i c.op, Completes cmd s (fun t =>
      (runOf t i).reason = r ∧ (runOf t i).val = (runAt f i.toNat).val ∧ t.ldg.run = s.ldg.run ∧ t.ldg.cnt = s.ldg.cnt ∧
      t.afe.pairA.on = u.afe.pairA.on ∧ t.afe.pairB.on = u.afe.pairB.on ∧ besideInputs s t ∧ besideResults s t)) ∧
    (startFault u f c d = none →
      (c.op = oExcite → Completes (.excite i) s (fun t =>
        (runOf t i).state = .running ∧ (runOf t i).reason = (runAt f i.toNat).reason ∧
        (pairHeld u (c.res == 6) = false →
          (pairAt t (c.res == 6)).on = true ∧ (pairAt t (c.res == 6)).current = dCurrent d ∧
          (pairAt t (c.res == 6)).code = BitVec.ofNat 12 (min (dExcCode d) (if dCurrent d then 2360 else 3600)) ∧
          (pairAt t (c.res == 6)).drive = (dPol d != (pairAt u (c.res == 6)).rev) ∧
          (pairAt t (c.res == 6)).presettle = none ∧
          (pairAt t (c.res == 6)).senseLost = ((pairAt u (c.res == 6)).on && (pairAt u (c.res == 6)).senseLost)) ∧
        (pairHeld u (c.res == 6) = true → (pairAt t (c.res == 6)).on = (pairAt u (c.res == 6)).on) ∧
        (pairAt t (c.res != 6)).on = (pairAt u (c.res != 6)).on ∧ t.ldg.run = s.ldg.run ∧ besideInputs s t ∧
        besideResults s t)) ∧
      (c.op = oExcOff → Completes (.excOff i) s (fun t =>
        (runOf t i).state = .running ∧ (pairHeld u (c.res == 6) = false →
          (pairAt t (c.res == 6)).on = false ∧ (pairAt t (c.res == 6)).drive = false) ∧
        (pairHeld u (c.res == 6) = true → (pairAt t (c.res == 6)).on = (pairAt u (c.res == 6)).on) ∧
        (pairAt t (c.res != 6)).on = (pairAt u (c.res != 6)).on ∧ t.ldg.run = s.ldg.run ∧ besideInputs s t ∧
        besideResults s t)) ∧
      (c.op = oConvert → Completes (.convert i) s (fun t =>
        (runOf t i).state = .running ∧
        (∀ r ∈ (convertFault u c d).toList, (runOf t i).reason = r) ∧
        (convertFault u c d = none → modHeld u c = false → (runOf t i).converting = true ∧
          (runOf t i).filter = f.at (filterQtick c) ∧ (runOf t i).reason = (runAt f i.toNat).reason) ∧
        (convertFault u c d = none → modHeld u c = true → ∀ v ∈ (u.ros.lastConv.getD c.ch.toNat none).toList,
          (runOf t i).val.map (fun x => (x.v, x.flags)) = some (v.v, fStale ||| fCalHold) ∧ (runOf t i).held = true ∧
          (runOf t i).converting = (runAt f i.toNat).converting) ∧
        t.ldg.run = s.ldg.run ∧ besideInputs s t ∧ besideResults s t)) ∧
      (c.op = oAux → Completes (.aux i) s (fun t =>
        (runOf t i).state = .running ∧
        (∀ r ∈ (auxFault u c).toList, (runOf t i).reason = r) ∧
        (auxFault u c = none → modHeld u c = false → (runOf t i).converting = true ∧
          (runOf t i).filter = f.at (filterQtick c) ∧ (runOf t i).reason = (runAt f i.toNat).reason) ∧
        t.ldg.run = s.ldg.run ∧ besideInputs s t ∧ besideResults s t)) ∧
      (c.op = oCorrect → Completes (.correct i) s (fun t =>
        (runOf t i).state = .running ∧ (dCorrEn d = false → ∀ v ∈ (rawOf f c.ch).toList,
          (runOf t i).val.map (fun x => x.v) = some v.v ∧ (runOf t i).val.map (fun x => x.stamp) = some v.stamp) ∧
        (dCorrEn d = true → ∀ r, correctOutcome u f c d = .inl r → (runOf t i).reason = r) ∧
        (dCorrEn d = true → ∀ v, correctOutcome u f c d = .inr v → (runOf t i).val = some v) ∧
        (runOf t i).read = correctReads f c d ∧
        t.ldg.run = s.ldg.run ∧ besideInputs s t ∧ besideResults s t)) ∧
      (c.op = oCouple → Completes (.couple i) s (fun t =>
        (runOf t i).state = .running ∧ (∀ a ∈ (valOf f (dOpA d)).toList, ∀ b ∈ (valOf f (dOpB d)).toList,
          (runOf t i).val.map (fun x => x.v) = some (coupleValue (dMode d) a.v b.v).1 ∧
          (runOf t i).val.map (fun x => x.stamp) = some a.stamp) ∧
        t.ldg.run = s.ldg.run ∧ besideInputs s t ∧ besideResults s t)) ∧
      (c.op = oEmit → Completes (.emit i) s (fun t =>
        ((runOf t i).state = .running ∨ (runOf t i).state = .done) ∧
        (∀ v ∈ (valOf f c.ch).toList, ∃ x, fmtRead u f i.toNat c d = some x ∧ x.val = v ∧ x.addr = 0x7640 + 16 * dFmt d ∧
          (u.tt.fmtWas = none → x.old = []) ∧
          (fmtBad (x.entry u.mem) = true → (runOf t i).reason = rArgs) ∧
          (fmtBad (x.entry u.mem) = false → (runOf t i).reason = 0 ∧
            (runOf t i).val.map (fun y => y.v) = some (lowWord (formatValue (x.entry u.mem) v.v).1).toInt)) ∧
        t.ldg.run = s.ldg.run ∧ besideInputs s t ∧ besideResults s t)) ∧
      (c.op = oAoutSet → Completes (.aoutSet i) s (fun t =>
        (runOf t i).state = .running ∧ (∀ r, delivered u f i.toNat c d = .inl r → (runOf t i).reason = r ∧ t.out = u.out) ∧
        (∀ v, delivered u f i.toNat c d = .inr v →
          (cfgSpan u = 3 → (runOf t i).reason = rState ∧ t.out = u.out) ∧
          (cfgSpan u ≠ 3 → u.pwr.warn = true → (runOf t i).reason = rPower ∧ t.out = u.out) ∧
          (cfgSpan u ≠ 3 → u.pwr.warn = false → (runOf t i).reason = 0 ∧ t.out =
            if v.flags &&& (fSettling ||| fStale ||| fCalHold) ≠ 0 then { u.out with held := true }
            else { u.out with due := some (f.at c.start + 32, BitVec.ofNat 16 (limit 0 65535 v.v).1.toNat, (limit 0 65535 v.v).2) })) ∧
        t.ldg.run = s.ldg.run ∧ besideInputs s t ∧ besideResults s t)) ∧
      (c.op = oLedgerAdd → s.ldg.run.length = 8 → s.ldg.cnt.length = 8 → Completes (.ledgerAdd i) s (fun t =>
        (runOf t i).state = .running ∧ (∀ r, delivered u f i.toNat c d = .inl r → (runOf t i).reason = r ∧ t.ldg = s.ldg) ∧
        (∀ v, delivered u f i.toNat c d = .inr v → ldgEn u = false → (runOf t i).reason = rState ∧ t.ldg = s.ldg) ∧
        (ldgEn u = true → ∀ v, delivered u f i.toNat c d = .inr v → v.flags &&& (fSettling ||| fStale ||| fCalHold) = 0 →
          t.ldg.run.getD (c.arg.toNat % 8) 0 = s.ldg.run.getD (c.arg.toNat % 8) 0 + BitVec.ofInt 64 (BitVec.ofInt 32 v.v).toInt ∧
          t.ldg.cnt.getD (c.arg.toNat % 8) 0 = s.ldg.cnt.getD (c.arg.toNat % 8) 0 + 1 ∧
          (∀ a ∈ List.range 8, a ≠ c.arg.toNat % 8 → t.ldg.run.getD a 0 = s.ldg.run.getD a 0 ∧
            t.ldg.cnt.getD a 0 = s.ldg.cnt.getD a 0) ∧ t.ldg.added = true) ∧ besideInputs s t ∧ besideResults s t)) ∧
      (c.op = oMark → Completes (.mark i) s (fun t =>
        ((runOf t i).state = .running ∨ (runOf t i).state = .done) ∧ (runOf t i).reason = (runAt f i.toNat).reason ∧
        t.ldg.run = s.ldg.run ∧ besideInputs s t ∧ besideResults s t)))

/-- FRAME_START, CONVERSION_END, CARRIAGE_END and FRAME_END (R155, R158 to R162, R198, R200, R207 to R216, R271): an awaited frame starts
at its qtick 0 with every carriage waiting; a conversion ends with the output of its chain, 0 where no output completed, negated on
a reversed pair, within the bounds of R157 where its reference is too low; a carriage ends at its scheduled end, with the record of an
EMIT, of a failure or of a MARK in the result ring, an EMIT's in the latest values too; the frame's end releases the pairs, raises source 40 and applies a pending switch. -/
def Obligations.FramesAndConversions : Prop :=
  ∀ (s : State) (i : BitVec 7) (n : Nat),
    (∀ a : Await, s.tt.await = some a → ∀ b : Nat, a.base = some b → b ≤ n →
      ∀ im : Image, activeImage s = some im → s.tt.frame = none → a.needLock = false →
      hfLocked s = true → s.pwr.warn = false → s.cond.shipped = false → s.clk.bypass = false →
      Completes (.frameStart n) s (fun t =>
        t.tt.frame.map (fun f => (f.t0, f.code, f.img, f.lateStart, f.coincident, f.cut)) =
          some (b, a.code, im, a.lateStart, a.coincident, false) ∧
        (t.tt.frame.map (fun f => f.runs.map (fun r => { r with late := false })) =
          some (List.replicate im.cars.length CarRun.fresh)) ∧
        (a.seals = [] → t.tt.frame.map (fun f => f.runs) = some (List.replicate im.cars.length CarRun.fresh)) ∧ t.tt.await = none ∧
        t.tt.frames = s.tt.frames + 1 ∧ t.afe.eff = s.afe.ctl ∧
        t.afe.pairA.rev = (bitOf s.afe.ctl 6 && !s.afe.pairA.revFresh && !s.afe.pairA.rev) ∧
        t.afe.pairB.rev = (bitOf s.afe.ctl 7 && !s.afe.pairB.revFresh && !s.afe.pairB.rev) ∧
        t.disc.en = s.afe.ctl.setWidth 4 ∧ t.mem = s.mem ∧ t.ldg = s.ldg ∧ t.out = s.out ∧ besideInputs s t)) ∧
    (∀ f : Frame, s.tt.frame = some f → f.cut = false → f.slow = false → ∀ c : Carriage, c = carAt f.img.cars i.toNat → hfRunning s = true →
      (runAt f i.toNat).state = .running →
      ((runAt f i.toNat).converting = true → (runAt f i.toNat).reason = 0 → c.op = oConvert → ∀ (u : State) (x : ConvData) (g : Frame),
        u = finishUpTo (convQtick c) (advance (f.at (convQtick c)) s) → u.tt.frame = some g → ∀ d : List Byte, d = versionOr u g c.ch →
        ∀ m : Nat, m = min (outputsOf g c (runAt g i.toNat)) (firstValid d) → bitsFor d m ≤ x.bits.length →
        Completes (.conversionEnd i x) s (fun t =>
          (runOf t i).converting = false ∧ (runOf t i).state = .running ∧
          (∀ raw : Int, raw = (if m = 0 then 0 else chainValue d x.bits m) → lowRef (stageOf d) x.senseUv = false ∨ m = 0 →
            (runOf t i).val.map (fun v => v.v) = some (if reversedIn g (pairOf c.res) then -raw else raw) ∧ t.free = s.free ∧
            ((runAt g i.toNat).clip = true ∨ overLevel s.afe.eff raw = true →
              (runOf t i).val.map (fun v => v.flags &&& fOver) = some fOver) ∧
            (overLevel s.afe.eff raw = true → latched (28 + c.res) t = (mainUp s || latched (28 + c.res) u) ∧
              t.afe.diag = u.afe.diag ||| BitVec.ofNat 22 (2 ^ c.res)) ∧
            (overLevel s.afe.eff raw = false → t.afe.diag = u.afe.diag)) ∧
          (lowRef (stageOf d) x.senseUv = true → m ≠ 0 → t.free = s.free + 1 ∧
            ∀ v ∈ (runOf t i).val.toList, v.v.natAbs ≤ 8388607) ∧
          (runOf t i).val.map (fun v => v.stamp) = some (convStamp u g c d (runAt g i.toNat) m) ∧
          (runOf t i).val.map (fun v => v.flags &&& fSettling) = some (if m < firstValid d then fSettling else 0) ∧
          t.ldg.run = s.ldg.run ∧ besideInputs s t ∧ besideResults s t)) ∧
      ((runAt f i.toNat).converting = true → (runAt f i.toNat).reason = 0 → c.op = oAux → ∀ (u : State) (x : ConvData) (g : Frame),
        u = finishUpTo (convQtick c) (advance (f.at (convQtick c)) s) → u.tt.frame = some g →
        (auxFixed c.aux.toNat = true ∨ 0 < outputsOf g c (runAt g i.toNat)) → ∀ settled : Bool,
        settled = (auxFixed c.aux.toNat || decide (firstValid (versionOr u g c.ch) ≤ outputsOf g c (runAt g i.toNat))) → Completes (.conversionEnd i x) s (fun t =>
          (runOf t i).converting = false ∧ (runOf t i).state = .running ∧
          (runOf t i).val.map (fun v => v.v) = some
            (if (auxSense c.aux.toNat).any (fun p => reversedIn g p) then (sat32 (-(auxFormed s c.aux.toNat settled x.value))).1
              else auxFormed s c.aux.toNat settled x.value) ∧
          t.ldg.run = s.ldg.run ∧ besideInputs s t ∧ besideResults s t)) ∧
      (nextWaiting f = none → (runAt f i.toNat).converting = false → overdue f c.stop = false → Completes (.carriageEnd i) s (fun t =>
        (runOf t i).state = .done ∧ (runOf t i).reason = (runAt f i.toNat).reason ∧
        ((runAt f i.toNat).reason ≠ 0 → mainUp s = true → c.op ≠ oMark → latched 41 t = true) ∧
        ((runAt f i.toNat).reason ≠ 0 → c.op = oMark →
          t.tt.frame.map (fun g => g.markFail.map (fun y => y.1)) = some (some (runAt f i.toNat).reason)) ∧
        (c.op = oAoutSet → (runAt f i.toNat).reason = 0 → (∀ j ∈ List.range f.runs.length, j ≠ i.toNat → (runAt f j).state ≠ .running) →
          t.out.due = none ∧ t.out.failCnt = 0 ∧
          ∀ (q : Nat) (code : BitVec 16) (clamp : Bool), s.out.due = some (q, code, clamp) → s.out.lastAt ≠ some q →
            t.out.code = code ∧ t.out.clamp = clamp ∧ t.out.fault = false ∧ t.out.held = false) ∧
        t.tt.frame.map (fun g => g.cut) = some false ∧ t.ldg.run = s.ldg.run ∧ besideInputs s t)) ∧
      (nothingRuns s → nextWaiting f = none → (runAt f i.toNat).converting = false → overdue f c.stop = false → mainUp s = true →
        Memory.wf s.mem = true → (∀ j ∈ List.range f.runs.length, j ≠ i.toNat → (runAt f j).state ≠ .running) →
        ∀ r : CarRun, r = runAt f i.toNat →
        (c.op = oEmit → r.reason = 0 → r.held = false → ∀ v ∈ r.val.toList, Completes (.carriageEnd i) s (fun t =>
          recorded c.ch v.stamp (lowWord v.v) (v.flags ||| frameFlags f r.refWarn ||| flagIf r.late fDescLate) true s t)) ∧
        (c.op ≠ oMark → r.reason ≠ 0 → Completes (.carriageEnd i) s (fun t =>
          recorded c.ch r.stamp (put 0 8 r.reason ||| put 8 8 i.toNat ||| put 16 4 c.op)
            (fFailed ||| frameFlags f r.refWarn ||| flagIf r.late fDescLate) (c.op == oEmit) s t ∧ latched 41 t = true)) ∧
        (c.op = oMark → r.reason = 0 → Completes (.carriageEnd i) s (fun t =>
          recorded f.code f.stamp (put 0 16 f.delay ||| put 16 7 (min f.nFailed 127) ||| put 23 1 f.tableB.toNat |||
            put 24 1 f.revA.toNat ||| put 25 1 f.revB.toNat ||| put 26 1 f.queued.toNat)
            (fMark ||| frameFlags f r.refWarn) false s t)))) ∧
    (∀ f : Frame, s.tt.frame = some f → f.cut = true → f.slow = false → hfRunning s = true → noRestore s = true →
      (∀ j ∈ List.range f.runs.length, (carAt f.img.cars j).stop ≤ f.img.body ∧ (runAt f j).converting = false) → nextWaiting f = none →
      mainUp s = true → Completes .frameEnd s (fun t =>
        t.tt.frame = none ∧ latched 40 t = true ∧ max s.clk.hf (f.at (lastEnd f)) ≤ t.clk.hf ∧ besideInputs s t)) ∧
    (∀ f : Frame, s.tt.frame = some f → f.cut = true → f.slow = true → allDone f = true → noRestore s = true → mainUp s = true →
      Completes .frameEnd s (fun t => t.tt.frame = none ∧ latched 40 t = true ∧ besideInputs s t)) ∧
    (∀ f : Frame, s.tt.frame = some f → f.cut = false → nextWaiting f = none → overdue f f.img.body = false → mainUp s = true →
      hfRunning s = true → noRestore s = true → Completes .frameEnd s (fun t =>
        t.tt.frame = none ∧ latched 40 t = true ∧
        (s.cal.holdPair = 0 → nothingRuns s → s.cond.queue = [] → t.afe.pairA.on = false ∧ t.afe.pairB.on = false) ∧
        t.tt.swPend = none ∧ (∀ b : Bool, s.tt.swPend = some b → t.tt.active = b ∧ t.tt.activeValid = true ∧ latched 44 t = true) ∧
        (nothingWaits s → t.ldg.run = s.ldg.run) ∧ besideInputs s t))

/-- DIAG_CHECK_FIRE, DETACH_IN_CONVERSION, PRESENCE_SLOT, ATTACH_REGISTERED, DETACH_REGISTERED, GENERATOR_UPDATE and the compliance of
AOUT (R165, R168, R272 to R274, R316 to R321). The first update and the count of its DAC clocks rest on log entries 77 and 89, the pulse omitted
during a discovery measurement on log entry 69, the place of a loss of compliance among the writers of a qtick on log entry 80; a row
whose occurrence cannot come about has no effect by log entry 4. -/
def Obligations.WatchesPresenceAndOutput : Prop :=
  ∀ (s : State) (k : BitVec 2) (n : Nat), mainUp s = true → restoreWaits s = true →
    (∀ (inUv : Int) (uv : Nat), converting s k.toNat = true → discConverts s k.toNat = false → lowRef (convStage s k.toNat) uv = false →
      (clips s (convStage s k.toNat) inUv uv = true → Completes (.diagCheckFire (.overrange k inUv uv)) s (fun t =>
        latched (28 + k.toNat) t = true ∧ t.afe.diag = s.afe.diag ||| BitVec.ofNat 22 (2 ^ k.toNat) ∧
        { t with evt := s.evt, afe := s.afe, tt := s.tt } = s)) ∧
      (clips s (convStage s k.toNat) inUv uv = false → exec (.diagCheckFire (.overrange k inUv uv)) s = .next s)) ∧
    (converting s k.toNat = true → (pairAt s (pairOf k.toNat)).on = true →
      bitOf s.afe.eff (if pairOf k.toNat then 13 else 12) = true → Completes (.diagCheckFire (.cmFault k)) s (fun t =>
        latched (24 + k.toNat) t = true ∧ t.afe.diag = s.afe.diag ||| BitVec.ofNat 22 (2 ^ (12 + k.toNat)) ∧
        { t with evt := s.evt, afe := s.afe, tt := s.tt } = s)) ∧
    (∀ p : Bool, (pairAt s p).on = true → bitOf s.afe.eff 14 = true → Completes (.diagCheckFire (.senseLoss p)) s (fun t =>
      latched (if p then 26 else 24) t = true ∧ latched (if p then 27 else 25) t = true ∧
      t.afe.diag = s.afe.diag ||| BitVec.ofNat 22 (2 ^ (16 + p.toNat)) ∧ { t with evt := s.evt, afe := s.afe, tt := s.tt } = s)) ∧
    (∀ p : Bool, (pairAt s p).on = true → Completes (.diagCheckFire (.excLimit p)) s (fun t =>
      latched (if p then 26 else 24) t = true ∧ latched (if p then 27 else 25) t = true ∧
      t.afe.diag = s.afe.diag ||| BitVec.ofNat 22 (2 ^ (20 + p.toNat)) ∧ { t with evt := s.evt, afe := s.afe, tt := s.tt } = s)) ∧
    (s.disc.ports.length = 4 →
      (watchesPort s k.toNat = true → attached s k.toNat = true → Completes (.detachInConversion k n) s (fun t =>
        (portAt t k.toNat).state = 1 ∧ (portAt t k.toNat).slot = none ∧ (portAt t k.toNat).table = none ∧
        latched (36 + k.toNat) t = true ∧ besideInputs s t)) ∧
      (detachDue s k.toNat = true → Completes (.detachRegistered k n) s (fun t =>
        (portAt t k.toNat).state = 1 ∧ (portAt t k.toNat).slot = none ∧ (portAt t k.toNat).table = none ∧
        latched (36 + k.toNat) t = true ∧ besideInputs s t)) ∧
      (attachDue s k.toNat = true → Completes (.attachRegistered k n) s (fun t =>
        (portAt t k.toNat).state = 2 ∧ (portAt t k.toNat).present = 0 ∧ latched (32 + k.toNat) t = true ∧
        besideInputs s t)) ∧
      (∀ present : Bool, ktickRuns s = true → isSlot k.toNat s.rtc.edges = true → sentinelOn s k.toNat = true →
        (portAt s k.toNat).slotAt ≠ some s.rtc.edges →
        (pulseOmitted s k.toNat = false → Completes (.presenceSlot k present n) s (fun t =>
          (portAt t k.toNat).present = (if present then min 2 ((portAt s k.toNat).present + 1) else 0) ∧
          (portAt t k.toNat).absent = (if present then 0 else min 2 ((portAt s k.toNat).absent + 1)) ∧ besideInputs s t)) ∧
        (pulseOmitted s k.toNat = true → Completes (.presenceSlot k present n) s (fun t =>
          (portAt t k.toNat).present = (portAt s k.toNat).present ∧ (portAt t k.toNat).absent = (portAt s k.toNat).absent ∧
          besideInputs s t)))) ∧
    (dacClock s = false ∨ genMode s = 0 ∨ (dacFromHf s = false ∧ s.out.genRoom < 2097152 * max 1 s.out.genCnt) →
      exec .generatorUpdate s = .next s) ∧
    (dacFromHf s = true → genMode s ≠ 0 → Completes .generatorUpdate s (fun t =>
      updateAt t = updateAt s + 64 * (fld s.out.gen 8 8 + 1) ∧ updateAt s ≤ t.clk.hf)) ∧
    (dacClock s = true → dacFromHf s = false → genMode s ≠ 0 → 2097152 * max 1 s.out.genCnt ≤ s.out.genRoom →
      Completes .generatorUpdate s (fun t =>
      t.out.genCnt = fld s.out.gen 8 8 + 1 ∧ t.out.genRef = none)) ∧
    (updateComes s = true → s.out.due = none →
      (genMode s = 2 → Completes .generatorUpdate s (fun t =>
        t.out.g = (if fld s.out.gen 16 16 < s.out.g + 2 ^ fld s.out.gen 4 4 then 0 else s.out.g + 2 ^ fld s.out.gen 4 4) ∧
        t.out.code = s.out.code ∧ besideMoment s t)) ∧
      (genMode s = 3 → Completes .generatorUpdate s (fun t =>
        t.out.lfsr = ((s.out.lfsr <<< 1) ||| BitVec.ofNat 23 (s.out.lfsr.getLsbD 22 != s.out.lfsr.getLsbD 17).toNat) ∧
        t.out.g = Nat.land (t.out.lfsr.toNat % 65536) (fld s.out.gen 16 16) ∧ t.out.code = s.out.code ∧
        besideMoment s t)) ∧
      (genMode s = 1 → s.out.dirUp = true → 0 < fld s.out.gen 16 16 → Completes .generatorUpdate s (fun t =>
        t.out.g = min (s.out.g + 2 ^ fld s.out.gen 4 4) (fld s.out.gen 16 16) ∧
        t.out.dirUp = decide (s.out.g + 2 ^ fld s.out.gen 4 4 < fld s.out.gen 16 16) ∧ besideMoment s t)) ∧
      (genMode s = 1 → s.out.dirUp = false → s.out.g ≤ fld s.out.gen 16 16 → Completes .generatorUpdate s (fun t =>
        t.out.g = s.out.g - 2 ^ fld s.out.gen 4 4 ∧ t.out.dirUp = decide (s.out.g ≤ 2 ^ fld s.out.gen 4 4) ∧
        besideMoment s t))) ∧
    (supervised s = true → s.out.lowHr = false → Completes .aoutComplianceLoss s (fun t =>
      latched 60 t = true ∧ t.out.openLatch = true ∧
      (bitOf s.out.cfg 6 = false → t.out.lowHr = true ∧ t.out.code = s.out.code) ∧
      (bitOf s.out.cfg 6 = true →
        t.out.code = BitVec.ofNat 16 (fld s.out.cfg 16 16) ∧ t.out.fault = true) ∧
      { t with out := s.out, evt := s.evt } = s)) ∧
    exec .aoutComplianceRecovery s = .next { s with out := { s.out with lowHr := false } }
end

