-- ==== Sys2Proof/Laws/State.lean ====
section
/-! SUPPORT. One lemma per part of State per named update of one part: what the update leaves alone, true by rfl; and the same
of a fold and of a conditional update. -/

namespace Sys2Proof.Machine

@[simp] theorem when_pins (c : Bool) (f : State → State) (s : State) (h : ∀ t, (f t).pins = t.pins) : (when c f s).pins = s.pins := by
  cases c <;> simp [when, h]

@[simp] theorem forAll_pins {α : Type} (l : List α) (f : α → State → State) (s : State)
    (h : ∀ a t, (f a t).pins = t.pins) : (forAll l f s).pins = s.pins := by
  induction l generalizing s with
  | nil => rfl
  | cons a r ih => simpa [forAll, h] using ih (f a s)

@[simp] theorem when_pwr (c : Bool) (f : State → State) (s : State) (h : ∀ t, (f t).pwr = t.pwr) : (when c f s).pwr = s.pwr := by
  cases c <;> simp [when, h]

@[simp] theorem forAll_pwr {α : Type} (l : List α) (f : α → State → State) (s : State)
    (h : ∀ a t, (f a t).pwr = t.pwr) : (forAll l f s).pwr = s.pwr := by
  induction l generalizing s with
  | nil => rfl
  | cons a r ih => simpa [forAll, h] using ih (f a s)

@[simp] theorem when_sys (c : Bool) (f : State → State) (s : State) (h : ∀ t, (f t).sys = t.sys) : (when c f s).sys = s.sys := by
  cases c <;> simp [when, h]

@[simp] theorem forAll_sys {α : Type} (l : List α) (f : α → State → State) (s : State)
    (h : ∀ a t, (f a t).sys = t.sys) : (forAll l f s).sys = s.sys := by
  induction l generalizing s with
  | nil => rfl
  | cons a r ih => simpa [forAll, h] using ih (f a s)

@[simp] theorem when_rtc (c : Bool) (f : State → State) (s : State) (h : ∀ t, (f t).rtc = t.rtc) : (when c f s).rtc = s.rtc := by
  cases c <;> simp [when, h]

@[simp] theorem forAll_rtc {α : Type} (l : List α) (f : α → State → State) (s : State)
    (h : ∀ a t, (f a t).rtc = t.rtc) : (forAll l f s).rtc = s.rtc := by
  induction l generalizing s with
  | nil => rfl
  | cons a r ih => simpa [forAll, h] using ih (f a s)

@[simp] theorem when_alm (c : Bool) (f : State → State) (s : State) (h : ∀ t, (f t).alm = t.alm) : (when c f s).alm = s.alm := by
  cases c <;> simp [when, h]

@[simp] theorem forAll_alm {α : Type} (l : List α) (f : α → State → State) (s : State)
    (h : ∀ a t, (f a t).alm = t.alm) : (forAll l f s).alm = s.alm := by
  induction l generalizing s with
  | nil => rfl
  | cons a r ih => simpa [forAll, h] using ih (f a s)

@[simp] theorem when_hif (c : Bool) (f : State → State) (s : State) (h : ∀ t, (f t).hif = t.hif) : (when c f s).hif = s.hif := by
  cases c <;> simp [when, h]

@[simp] theorem forAll_hif {α : Type} (l : List α) (f : α → State → State) (s : State)
    (h : ∀ a t, (f a t).hif = t.hif) : (forAll l f s).hif = s.hif := by
  induction l generalizing s with
  | nil => rfl
  | cons a r ih => simpa [forAll, h] using ih (f a s)

@[simp] theorem when_evt (c : Bool) (f : State → State) (s : State) (h : ∀ t, (f t).evt = t.evt) : (when c f s).evt = s.evt := by
  cases c <;> simp [when, h]

@[simp] theorem forAll_evt {α : Type} (l : List α) (f : α → State → State) (s : State)
    (h : ∀ a t, (f a t).evt = t.evt) : (forAll l f s).evt = s.evt := by
  induction l generalizing s with
  | nil => rfl
  | cons a r ih => simpa [forAll, h] using ih (f a s)

@[simp] theorem when_evin (c : Bool) (f : State → State) (s : State) (h : ∀ t, (f t).evin = t.evin) : (when c f s).evin = s.evin := by
  cases c <;> simp [when, h]

@[simp] theorem forAll_evin {α : Type} (l : List α) (f : α → State → State) (s : State)
    (h : ∀ a t, (f a t).evin = t.evin) : (forAll l f s).evin = s.evin := by
  induction l generalizing s with
  | nil => rfl
  | cons a r ih => simpa [forAll, h] using ih (f a s)

@[simp] theorem when_clk (c : Bool) (f : State → State) (s : State) (h : ∀ t, (f t).clk = t.clk) : (when c f s).clk = s.clk := by
  cases c <;> simp [when, h]

@[simp] theorem forAll_clk {α : Type} (l : List α) (f : α → State → State) (s : State)
    (h : ∀ a t, (f a t).clk = t.clk) : (forAll l f s).clk = s.clk := by
  induction l generalizing s with
  | nil => rfl
  | cons a r ih => simpa [forAll, h] using ih (f a s)

@[simp] theorem when_afe (c : Bool) (f : State → State) (s : State) (h : ∀ t, (f t).afe = t.afe) : (when c f s).afe = s.afe := by
  cases c <;> simp [when, h]

@[simp] theorem forAll_afe {α : Type} (l : List α) (f : α → State → State) (s : State)
    (h : ∀ a t, (f a t).afe = t.afe) : (forAll l f s).afe = s.afe := by
  induction l generalizing s with
  | nil => rfl
  | cons a r ih => simpa [forAll, h] using ih (f a s)

@[simp] theorem when_ros (c : Bool) (f : State → State) (s : State) (h : ∀ t, (f t).ros = t.ros) : (when c f s).ros = s.ros := by
  cases c <;> simp [when, h]

@[simp] theorem forAll_ros {α : Type} (l : List α) (f : α → State → State) (s : State)
    (h : ∀ a t, (f a t).ros = t.ros) : (forAll l f s).ros = s.ros := by
  induction l generalizing s with
  | nil => rfl
  | cons a r ih => simpa [forAll, h] using ih (f a s)

@[simp] theorem when_tt (c : Bool) (f : State → State) (s : State) (h : ∀ t, (f t).tt = t.tt) : (when c f s).tt = s.tt := by
  cases c <;> simp [when, h]

@[simp] theorem forAll_tt {α : Type} (l : List α) (f : α → State → State) (s : State)
    (h : ∀ a t, (f a t).tt = t.tt) : (forAll l f s).tt = s.tt := by
  induction l generalizing s with
  | nil => rfl
  | cons a r ih => simpa [forAll, h] using ih (f a s)

@[simp] theorem when_res (c : Bool) (f : State → State) (s : State) (h : ∀ t, (f t).res = t.res) : (when c f s).res = s.res := by
  cases c <;> simp [when, h]

@[simp] theorem forAll_res {α : Type} (l : List α) (f : α → State → State) (s : State)
    (h : ∀ a t, (f a t).res = t.res) : (forAll l f s).res = s.res := by
  induction l generalizing s with
  | nil => rfl
  | cons a r ih => simpa [forAll, h] using ih (f a s)

@[simp] theorem when_out (c : Bool) (f : State → State) (s : State) (h : ∀ t, (f t).out = t.out) : (when c f s).out = s.out := by
  cases c <;> simp [when, h]

@[simp] theorem forAll_out {α : Type} (l : List α) (f : α → State → State) (s : State)
    (h : ∀ a t, (f a t).out = t.out) : (forAll l f s).out = s.out := by
  induction l generalizing s with
  | nil => rfl
  | cons a r ih => simpa [forAll, h] using ih (f a s)

@[simp] theorem when_ldg (c : Bool) (f : State → State) (s : State) (h : ∀ t, (f t).ldg = t.ldg) : (when c f s).ldg = s.ldg := by
  cases c <;> simp [when, h]

@[simp] theorem forAll_ldg {α : Type} (l : List α) (f : α → State → State) (s : State)
    (h : ∀ a t, (f a t).ldg = t.ldg) : (forAll l f s).ldg = s.ldg := by
  induction l generalizing s with
  | nil => rfl
  | cons a r ih => simpa [forAll, h] using ih (f a s)

@[simp] theorem when_nv (c : Bool) (f : State → State) (s : State) (h : ∀ t, (f t).nv = t.nv) : (when c f s).nv = s.nv := by
  cases c <;> simp [when, h]

@[simp] theorem forAll_nv {α : Type} (l : List α) (f : α → State → State) (s : State)
    (h : ∀ a t, (f a t).nv = t.nv) : (forAll l f s).nv = s.nv := by
  induction l generalizing s with
  | nil => rfl
  | cons a r ih => simpa [forAll, h] using ih (f a s)

@[simp] theorem when_cond (c : Bool) (f : State → State) (s : State) (h : ∀ t, (f t).cond = t.cond) : (when c f s).cond = s.cond := by
  cases c <;> simp [when, h]

@[simp] theorem forAll_cond {α : Type} (l : List α) (f : α → State → State) (s : State)
    (h : ∀ a t, (f a t).cond = t.cond) : (forAll l f s).cond = s.cond := by
  induction l generalizing s with
  | nil => rfl
  | cons a r ih => simpa [forAll, h] using ih (f a s)

@[simp] theorem when_disc (c : Bool) (f : State → State) (s : State) (h : ∀ t, (f t).disc = t.disc) : (when c f s).disc = s.disc := by
  cases c <;> simp [when, h]

@[simp] theorem forAll_disc {α : Type} (l : List α) (f : α → State → State) (s : State)
    (h : ∀ a t, (f a t).disc = t.disc) : (forAll l f s).disc = s.disc := by
  induction l generalizing s with
  | nil => rfl
  | cons a r ih => simpa [forAll, h] using ih (f a s)

@[simp] theorem when_cal (c : Bool) (f : State → State) (s : State) (h : ∀ t, (f t).cal = t.cal) : (when c f s).cal = s.cal := by
  cases c <;> simp [when, h]

@[simp] theorem forAll_cal {α : Type} (l : List α) (f : α → State → State) (s : State)
    (h : ∀ a t, (f a t).cal = t.cal) : (forAll l f s).cal = s.cal := by
  induction l generalizing s with
  | nil => rfl
  | cons a r ih => simpa [forAll, h] using ih (f a s)

@[simp] theorem when_mem (c : Bool) (f : State → State) (s : State) (h : ∀ t, (f t).mem = t.mem) : (when c f s).mem = s.mem := by
  cases c <;> simp [when, h]

@[simp] theorem forAll_mem {α : Type} (l : List α) (f : α → State → State) (s : State)
    (h : ∀ a t, (f a t).mem = t.mem) : (forAll l f s).mem = s.mem := by
  induction l generalizing s with
  | nil => rfl
  | cons a r ih => simpa [forAll, h] using ih (f a s)

@[simp] theorem when_free (c : Bool) (f : State → State) (s : State) (h : ∀ t, (f t).free = t.free) : (when c f s).free = s.free := by
  cases c <;> simp [when, h]

@[simp] theorem forAll_free {α : Type} (l : List α) (f : α → State → State) (s : State)
    (h : ∀ a t, (f a t).free = t.free) : (forAll l f s).free = s.free := by
  induction l generalizing s with
  | nil => rfl
  | cons a r ih => simpa [forAll, h] using ih (f a s)

@[simp] theorem when_pending (c : Bool) (f : State → State) (s : State) (h : ∀ t, (f t).pending = t.pending) : (when c f s).pending = s.pending := by
  cases c <;> simp [when, h]

@[simp] theorem forAll_pending {α : Type} (l : List α) (f : α → State → State) (s : State)
    (h : ∀ a t, (f a t).pending = t.pending) : (forAll l f s).pending = s.pending := by
  induction l generalizing s with
  | nil => rfl
  | cons a r ih => simpa [forAll, h] using ih (f a s)

@[simp] theorem store_frame (a : Nat) (bs : List Byte) (s : State) :
    (store a bs s).pins = s.pins ∧
    (store a bs s).pwr = s.pwr ∧
    (store a bs s).sys = s.sys ∧
    (store a bs s).rtc = s.rtc ∧
    (store a bs s).alm = s.alm ∧
    (store a bs s).hif = s.hif ∧
    (store a bs s).evt = s.evt ∧
    (store a bs s).evin = s.evin ∧
    (store a bs s).clk = s.clk ∧
    (store a bs s).afe = s.afe ∧
    (store a bs s).ros = s.ros ∧
    (store a bs s).tt = s.tt ∧
    (store a bs s).res = s.res ∧
    (store a bs s).out = s.out ∧
    (store a bs s).ldg = s.ldg ∧
    (store a bs s).nv = s.nv ∧
    (store a bs s).cond = s.cond ∧
    (store a bs s).disc = s.disc ∧
    (store a bs s).cal = s.cal ∧
    (store a bs s).free = s.free ∧
    (store a bs s).pending = s.pending := by
  simp [store]

@[simp] theorem storeWords_frame (a : Nat) (ws : List Word) (s : State) :
    (storeWords a ws s).pins = s.pins ∧
    (storeWords a ws s).pwr = s.pwr ∧
    (storeWords a ws s).sys = s.sys ∧
    (storeWords a ws s).rtc = s.rtc ∧
    (storeWords a ws s).alm = s.alm ∧
    (storeWords a ws s).hif = s.hif ∧
    (storeWords a ws s).evt = s.evt ∧
    (storeWords a ws s).evin = s.evin ∧
    (storeWords a ws s).clk = s.clk ∧
    (storeWords a ws s).afe = s.afe ∧
    (storeWords a ws s).ros = s.ros ∧
    (storeWords a ws s).tt = s.tt ∧
    (storeWords a ws s).res = s.res ∧
    (storeWords a ws s).out = s.out ∧
    (storeWords a ws s).ldg = s.ldg ∧
    (storeWords a ws s).nv = s.nv ∧
    (storeWords a ws s).cond = s.cond ∧
    (storeWords a ws s).disc = s.disc ∧
    (storeWords a ws s).cal = s.cal ∧
    (storeWords a ws s).free = s.free ∧
    (storeWords a ws s).pending = s.pending := by
  simp [storeWords]

end Sys2Proof.Machine
end

