-- ==== Sys2Proof/Laws/FrameUnits.lean ====
section
/-! SUPPORT. What each shared operation of these units leaves unchanged: the top-level parts of State it never writes.
Cited instead of unfolding the operation; those of the operations a meaning calls itself are simp lemmas, the others serve `simp` as
a hypothesis (`have h := @name`). -/

set_option linter.unusedSimpArgs false
set_option linter.unusedTactic false

namespace Sys2Proof.Machine

@[simp] theorem raiseIf_frame (c : Bool) (n : Nat) (s : State) :
    (raiseIf c n s).pins = s.pins ∧ (raiseIf c n s).pwr = s.pwr ∧ (raiseIf c n s).sys = s.sys ∧
    (raiseIf c n s).rtc = s.rtc ∧ (raiseIf c n s).alm = s.alm ∧ (raiseIf c n s).hif = s.hif ∧
    (raiseIf c n s).evin = s.evin ∧ (raiseIf c n s).clk = s.clk ∧ (raiseIf c n s).afe = s.afe ∧
    (raiseIf c n s).ros = s.ros ∧ (raiseIf c n s).tt = s.tt ∧ (raiseIf c n s).res = s.res ∧
    (raiseIf c n s).out = s.out ∧ (raiseIf c n s).ldg = s.ldg ∧ (raiseIf c n s).nv = s.nv ∧
    (raiseIf c n s).cond = s.cond ∧ (raiseIf c n s).disc = s.disc ∧ (raiseIf c n s).cal = s.cal ∧
    (raiseIf c n s).mem = s.mem ∧ (raiseIf c n s).free = s.free ∧ (raiseIf c n s).pending = s.pending := by
  simp only [raiseIf, when]
  repeat' split
  all_goals simp

@[simp] theorem raise_frame (n : Nat) (s : State) :
    (raise n s).pins = s.pins ∧ (raise n s).pwr = s.pwr ∧ (raise n s).sys = s.sys ∧ (raise n s).rtc = s.rtc ∧
    (raise n s).alm = s.alm ∧ (raise n s).hif = s.hif ∧ (raise n s).evin = s.evin ∧ (raise n s).clk = s.clk ∧
    (raise n s).afe = s.afe ∧ (raise n s).ros = s.ros ∧ (raise n s).tt = s.tt ∧ (raise n s).res = s.res ∧
    (raise n s).out = s.out ∧ (raise n s).ldg = s.ldg ∧ (raise n s).nv = s.nv ∧ (raise n s).cond = s.cond ∧
    (raise n s).disc = s.disc ∧ (raise n s).cal = s.cal ∧ (raise n s).mem = s.mem ∧ (raise n s).free = s.free ∧
    (raise n s).pending = s.pending := by
  simp only [raise, when]
  repeat' split
  all_goals simp

theorem setCause_frame (b : BitVec 11) (s : State) :
    (setCause b s).pins = s.pins ∧ (setCause b s).pwr = s.pwr ∧ (setCause b s).rtc = s.rtc ∧
    (setCause b s).alm = s.alm ∧ (setCause b s).hif = s.hif ∧ (setCause b s).evt = s.evt ∧
    (setCause b s).evin = s.evin ∧ (setCause b s).clk = s.clk ∧ (setCause b s).afe = s.afe ∧
    (setCause b s).ros = s.ros ∧ (setCause b s).tt = s.tt ∧ (setCause b s).res = s.res ∧ (setCause b s).out = s.out ∧
    (setCause b s).ldg = s.ldg ∧ (setCause b s).nv = s.nv ∧ (setCause b s).cond = s.cond ∧
    (setCause b s).disc = s.disc ∧ (setCause b s).cal = s.cal ∧ (setCause b s).mem = s.mem ∧
    (setCause b s).free = s.free ∧ (setCause b s).pending = s.pending := by
  simp only [setCause, when]
  repeat' split
  all_goals simp

theorem raiseAll_frame (ns : List Nat) (s : State) :
    (raiseAll ns s).pins = s.pins ∧ (raiseAll ns s).pwr = s.pwr ∧ (raiseAll ns s).sys = s.sys ∧
    (raiseAll ns s).rtc = s.rtc ∧ (raiseAll ns s).alm = s.alm ∧ (raiseAll ns s).hif = s.hif ∧
    (raiseAll ns s).evin = s.evin ∧ (raiseAll ns s).clk = s.clk ∧ (raiseAll ns s).afe = s.afe ∧
    (raiseAll ns s).ros = s.ros ∧ (raiseAll ns s).tt = s.tt ∧ (raiseAll ns s).res = s.res ∧
    (raiseAll ns s).out = s.out ∧ (raiseAll ns s).ldg = s.ldg ∧ (raiseAll ns s).nv = s.nv ∧
    (raiseAll ns s).cond = s.cond ∧ (raiseAll ns s).disc = s.disc ∧ (raiseAll ns s).cal = s.cal ∧
    (raiseAll ns s).mem = s.mem ∧ (raiseAll ns s).free = s.free ∧ (raiseAll ns s).pending = s.pending := by
  simp only [raiseAll, when]
  repeat' split
  all_goals simp

theorem trimServed_frame (s : State) :
    (trimServed s).pins = s.pins ∧ (trimServed s).pwr = s.pwr ∧ (trimServed s).sys = s.sys ∧
    (trimServed s).rtc = s.rtc ∧ (trimServed s).alm = s.alm ∧ (trimServed s).evt = s.evt ∧
    (trimServed s).evin = s.evin ∧ (trimServed s).clk = s.clk ∧ (trimServed s).afe = s.afe ∧
    (trimServed s).ros = s.ros ∧ (trimServed s).tt = s.tt ∧ (trimServed s).res = s.res ∧ (trimServed s).out = s.out ∧
    (trimServed s).ldg = s.ldg ∧ (trimServed s).nv = s.nv ∧ (trimServed s).cond = s.cond ∧
    (trimServed s).disc = s.disc ∧ (trimServed s).cal = s.cal ∧ (trimServed s).mem = s.mem ∧
    (trimServed s).free = s.free ∧ (trimServed s).pending = s.pending := by
  simp only [trimServed, when]
  repeat' split
  all_goals simp

theorem hifFlag_frame (bit : Nat) (addr : BitVec 16) (s : State) :
    (hifFlag bit addr s).pins = s.pins ∧ (hifFlag bit addr s).pwr = s.pwr ∧ (hifFlag bit addr s).sys = s.sys ∧
    (hifFlag bit addr s).rtc = s.rtc ∧ (hifFlag bit addr s).alm = s.alm ∧ (hifFlag bit addr s).evt = s.evt ∧
    (hifFlag bit addr s).evin = s.evin ∧ (hifFlag bit addr s).clk = s.clk ∧ (hifFlag bit addr s).afe = s.afe ∧
    (hifFlag bit addr s).ros = s.ros ∧ (hifFlag bit addr s).tt = s.tt ∧ (hifFlag bit addr s).res = s.res ∧
    (hifFlag bit addr s).out = s.out ∧ (hifFlag bit addr s).ldg = s.ldg ∧ (hifFlag bit addr s).nv = s.nv ∧
    (hifFlag bit addr s).cond = s.cond ∧ (hifFlag bit addr s).disc = s.disc ∧ (hifFlag bit addr s).cal = s.cal ∧
    (hifFlag bit addr s).mem = s.mem ∧ (hifFlag bit addr s).free = s.free ∧ (hifFlag bit addr s).pending = s.pending := by
  simp only [hifFlag, when]
  repeat' split
  all_goals simp

theorem logPass_frame (i : BitVec 7) (s : State) :
    (logPass i s).pins = s.pins ∧ (logPass i s).pwr = s.pwr ∧ (logPass i s).sys = s.sys ∧ (logPass i s).rtc = s.rtc ∧
    (logPass i s).alm = s.alm ∧ (logPass i s).hif = s.hif ∧ (logPass i s).evt = s.evt ∧ (logPass i s).evin = s.evin ∧
    (logPass i s).clk = s.clk ∧ (logPass i s).afe = s.afe ∧ (logPass i s).ros = s.ros ∧ (logPass i s).tt = s.tt ∧
    (logPass i s).res = s.res ∧ (logPass i s).out = s.out ∧ (logPass i s).ldg = s.ldg ∧ (logPass i s).nv = s.nv ∧
    (logPass i s).cond = s.cond ∧ (logPass i s).disc = s.disc ∧ (logPass i s).cal = s.cal ∧
    (logPass i s).free = s.free ∧ (logPass i s).pending = s.pending := by
  simp only [logPass, when]
  repeat' split
  all_goals simp

theorem logRecord_frame (source : Nat) (stamp : Stamp) (detail : Word) (fl : LogFlags) (s : State) :
    (logRecord source stamp detail fl s).pins = s.pins ∧ (logRecord source stamp detail fl s).pwr = s.pwr ∧
    (logRecord source stamp detail fl s).sys = s.sys ∧ (logRecord source stamp detail fl s).rtc = s.rtc ∧
    (logRecord source stamp detail fl s).alm = s.alm ∧ (logRecord source stamp detail fl s).hif = s.hif ∧
    (logRecord source stamp detail fl s).clk = s.clk ∧ (logRecord source stamp detail fl s).afe = s.afe ∧
    (logRecord source stamp detail fl s).ros = s.ros ∧ (logRecord source stamp detail fl s).tt = s.tt ∧
    (logRecord source stamp detail fl s).res = s.res ∧ (logRecord source stamp detail fl s).out = s.out ∧
    (logRecord source stamp detail fl s).ldg = s.ldg ∧ (logRecord source stamp detail fl s).nv = s.nv ∧
    (logRecord source stamp detail fl s).cond = s.cond ∧ (logRecord source stamp detail fl s).disc = s.disc ∧
    (logRecord source stamp detail fl s).cal = s.cal ∧ (logRecord source stamp detail fl s).free = s.free ∧
    (logRecord source stamp detail fl s).pending = s.pending := by
  have k0 := @logPass_frame
  simp only [logRecord, when]
  repeat' split
  all_goals simp [k0]

theorem openRecs_frame (q : Option Nat) (s : State) :
    (openRecs q s).pins = s.pins ∧ (openRecs q s).pwr = s.pwr ∧ (openRecs q s).sys = s.sys ∧
    (openRecs q s).rtc = s.rtc ∧ (openRecs q s).alm = s.alm ∧ (openRecs q s).hif = s.hif ∧
    (openRecs q s).evt = s.evt ∧ (openRecs q s).clk = s.clk ∧ (openRecs q s).afe = s.afe ∧
    (openRecs q s).ros = s.ros ∧ (openRecs q s).tt = s.tt ∧ (openRecs q s).res = s.res ∧ (openRecs q s).out = s.out ∧
    (openRecs q s).ldg = s.ldg ∧ (openRecs q s).nv = s.nv ∧ (openRecs q s).cond = s.cond ∧
    (openRecs q s).disc = s.disc ∧ (openRecs q s).cal = s.cal ∧ (openRecs q s).mem = s.mem ∧
    (openRecs q s).free = s.free ∧ (openRecs q s).pending = s.pending := by
  simp only [openRecs, when]
  repeat' split
  all_goals simp

theorem resultRecord_frame (ch : BitVec 5) (stamp : Stamp) (value : Word) (flags : BitVec 16) (latest : Bool) (s : State) :
    (resultRecord ch stamp value flags latest s).pins = s.pins ∧
    (resultRecord ch stamp value flags latest s).pwr = s.pwr ∧
    (resultRecord ch stamp value flags latest s).sys = s.sys ∧
    (resultRecord ch stamp value flags latest s).rtc = s.rtc ∧
    (resultRecord ch stamp value flags latest s).alm = s.alm ∧
    (resultRecord ch stamp value flags latest s).hif = s.hif ∧
    (resultRecord ch stamp value flags latest s).evin = s.evin ∧
    (resultRecord ch stamp value flags latest s).clk = s.clk ∧
    (resultRecord ch stamp value flags latest s).afe = s.afe ∧
    (resultRecord ch stamp value flags latest s).ros = s.ros ∧
    (resultRecord ch stamp value flags latest s).tt = s.tt ∧
    (resultRecord ch stamp value flags latest s).out = s.out ∧
    (resultRecord ch stamp value flags latest s).ldg = s.ldg ∧
    (resultRecord ch stamp value flags latest s).nv = s.nv ∧
    (resultRecord ch stamp value flags latest s).cond = s.cond ∧
    (resultRecord ch stamp value flags latest s).disc = s.disc ∧
    (resultRecord ch stamp value flags latest s).cal = s.cal ∧
    (resultRecord ch stamp value flags latest s).free = s.free ∧
    (resultRecord ch stamp value flags latest s).pending = s.pending := by
  simp only [resultRecord, when]
  repeat' split
  all_goals simp

@[simp] theorem serve_frame (s : State) :
    (serve s).pins = s.pins ∧ (serve s).pwr = s.pwr ∧ (serve s).sys = s.sys ∧ (serve s).rtc = s.rtc ∧
    (serve s).alm = s.alm ∧ (serve s).hif = s.hif ∧ (serve s).evt = s.evt ∧ (serve s).evin = s.evin ∧
    (serve s).clk = s.clk ∧ (serve s).afe = s.afe ∧ (serve s).ros = s.ros ∧ (serve s).tt = s.tt ∧
    (serve s).res = s.res ∧ (serve s).out = s.out ∧ (serve s).ldg = s.ldg ∧ (serve s).nv = s.nv ∧
    (serve s).disc = s.disc ∧ (serve s).cal = s.cal ∧ (serve s).mem = s.mem ∧ (serve s).free = s.free ∧
    (serve s).pending = s.pending := by
  simp only [serve, when]
  repeat' split
  all_goals simp

@[simp] theorem cplRecord_frame (op : Nat) (auto direct : Bool) (reason : Nat) (tag : Byte) (detail : Word) (s : State) :
    (cplRecord op auto direct reason tag detail s).pins = s.pins ∧
    (cplRecord op auto direct reason tag detail s).pwr = s.pwr ∧
    (cplRecord op auto direct reason tag detail s).sys = s.sys ∧
    (cplRecord op auto direct reason tag detail s).rtc = s.rtc ∧
    (cplRecord op auto direct reason tag detail s).alm = s.alm ∧
    (cplRecord op auto direct reason tag detail s).hif = s.hif ∧
    (cplRecord op auto direct reason tag detail s).evin = s.evin ∧
    (cplRecord op auto direct reason tag detail s).clk = s.clk ∧
    (cplRecord op auto direct reason tag detail s).afe = s.afe ∧
    (cplRecord op auto direct reason tag detail s).ros = s.ros ∧
    (cplRecord op auto direct reason tag detail s).tt = s.tt ∧
    (cplRecord op auto direct reason tag detail s).res = s.res ∧
    (cplRecord op auto direct reason tag detail s).out = s.out ∧
    (cplRecord op auto direct reason tag detail s).ldg = s.ldg ∧
    (cplRecord op auto direct reason tag detail s).nv = s.nv ∧
    (cplRecord op auto direct reason tag detail s).disc = s.disc ∧
    (cplRecord op auto direct reason tag detail s).cal = s.cal ∧
    (cplRecord op auto direct reason tag detail s).free = s.free ∧
    (cplRecord op auto direct reason tag detail s).pending = s.pending := by
  simp only [cplRecord, when]
  repeat' split
  all_goals simp

theorem enterHfrc_frame (s : State) :
    (enterHfrc s).pins = s.pins ∧ (enterHfrc s).pwr = s.pwr ∧ (enterHfrc s).sys = s.sys ∧ (enterHfrc s).rtc = s.rtc ∧
    (enterHfrc s).alm = s.alm ∧ (enterHfrc s).hif = s.hif ∧ (enterHfrc s).evt = s.evt ∧ (enterHfrc s).evin = s.evin ∧
    (enterHfrc s).clk = s.clk ∧ (enterHfrc s).afe = s.afe ∧ (enterHfrc s).ros = s.ros ∧ (enterHfrc s).tt = s.tt ∧
    (enterHfrc s).res = s.res ∧ (enterHfrc s).ldg = s.ldg ∧ (enterHfrc s).nv = s.nv ∧ (enterHfrc s).cond = s.cond ∧
    (enterHfrc s).disc = s.disc ∧ (enterHfrc s).cal = s.cal ∧ (enterHfrc s).mem = s.mem ∧
    (enterHfrc s).free = s.free ∧ (enterHfrc s).pending = s.pending := by
  simp only [enterHfrc, when]
  repeat' split
  all_goals simp

theorem foldHfrc_frame (s : State) :
    (foldHfrc s).pins = s.pins ∧ (foldHfrc s).pwr = s.pwr ∧ (foldHfrc s).sys = s.sys ∧ (foldHfrc s).rtc = s.rtc ∧
    (foldHfrc s).alm = s.alm ∧ (foldHfrc s).hif = s.hif ∧ (foldHfrc s).evt = s.evt ∧ (foldHfrc s).evin = s.evin ∧
    (foldHfrc s).clk = s.clk ∧ (foldHfrc s).afe = s.afe ∧ (foldHfrc s).ros = s.ros ∧ (foldHfrc s).tt = s.tt ∧
    (foldHfrc s).res = s.res ∧ (foldHfrc s).ldg = s.ldg ∧ (foldHfrc s).nv = s.nv ∧ (foldHfrc s).cond = s.cond ∧
    (foldHfrc s).disc = s.disc ∧ (foldHfrc s).cal = s.cal ∧ (foldHfrc s).mem = s.mem ∧ (foldHfrc s).free = s.free ∧
    (foldHfrc s).pending = s.pending := by
  simp only [foldHfrc, when]
  repeat' split
  all_goals simp

theorem hfrcTick_frame (s : State) :
    (hfrcTick s).pins = s.pins ∧ (hfrcTick s).pwr = s.pwr ∧ (hfrcTick s).sys = s.sys ∧ (hfrcTick s).rtc = s.rtc ∧
    (hfrcTick s).alm = s.alm ∧ (hfrcTick s).hif = s.hif ∧ (hfrcTick s).evt = s.evt ∧ (hfrcTick s).evin = s.evin ∧
    (hfrcTick s).clk = s.clk ∧ (hfrcTick s).afe = s.afe ∧ (hfrcTick s).ros = s.ros ∧ (hfrcTick s).tt = s.tt ∧
    (hfrcTick s).res = s.res ∧ (hfrcTick s).ldg = s.ldg ∧ (hfrcTick s).nv = s.nv ∧ (hfrcTick s).cond = s.cond ∧
    (hfrcTick s).disc = s.disc ∧ (hfrcTick s).cal = s.cal ∧ (hfrcTick s).mem = s.mem ∧ (hfrcTick s).free = s.free ∧
    (hfrcTick s).pending = s.pending := by
  simp only [hfrcTick, when]
  repeat' split
  all_goals simp

theorem holdTick_frame (s : State) :
    (holdTick s).pins = s.pins ∧ (holdTick s).pwr = s.pwr ∧ (holdTick s).sys = s.sys ∧ (holdTick s).rtc = s.rtc ∧
    (holdTick s).alm = s.alm ∧ (holdTick s).hif = s.hif ∧ (holdTick s).evt = s.evt ∧ (holdTick s).evin = s.evin ∧
    (holdTick s).clk = s.clk ∧ (holdTick s).afe = s.afe ∧ (holdTick s).ros = s.ros ∧ (holdTick s).tt = s.tt ∧
    (holdTick s).res = s.res ∧ (holdTick s).ldg = s.ldg ∧ (holdTick s).nv = s.nv ∧ (holdTick s).cond = s.cond ∧
    (holdTick s).disc = s.disc ∧ (holdTick s).cal = s.cal ∧ (holdTick s).mem = s.mem ∧ (holdTick s).free = s.free ∧
    (holdTick s).pending = s.pending := by
  simp only [holdTick, when]
  repeat' split
  all_goals simp

theorem genZero_frame (s : State) :
    (genZero s).pins = s.pins ∧ (genZero s).pwr = s.pwr ∧ (genZero s).sys = s.sys ∧ (genZero s).rtc = s.rtc ∧
    (genZero s).alm = s.alm ∧ (genZero s).hif = s.hif ∧ (genZero s).evt = s.evt ∧ (genZero s).evin = s.evin ∧
    (genZero s).clk = s.clk ∧ (genZero s).afe = s.afe ∧ (genZero s).ros = s.ros ∧ (genZero s).tt = s.tt ∧
    (genZero s).res = s.res ∧ (genZero s).ldg = s.ldg ∧ (genZero s).nv = s.nv ∧ (genZero s).cond = s.cond ∧
    (genZero s).disc = s.disc ∧ (genZero s).cal = s.cal ∧ (genZero s).mem = s.mem ∧ (genZero s).free = s.free ∧
    (genZero s).pending = s.pending := by
  simp only [genZero, when]
  repeat' split
  all_goals simp

theorem leaveHf_frame (s : State) :
    (leaveHf s).pins = s.pins ∧ (leaveHf s).pwr = s.pwr ∧ (leaveHf s).sys = s.sys ∧ (leaveHf s).rtc = s.rtc ∧
    (leaveHf s).alm = s.alm ∧ (leaveHf s).hif = s.hif ∧ (leaveHf s).evt = s.evt ∧ (leaveHf s).evin = s.evin ∧
    (leaveHf s).clk = s.clk ∧ (leaveHf s).afe = s.afe ∧ (leaveHf s).ros = s.ros ∧ (leaveHf s).tt = s.tt ∧
    (leaveHf s).res = s.res ∧ (leaveHf s).ldg = s.ldg ∧ (leaveHf s).nv = s.nv ∧ (leaveHf s).cond = s.cond ∧
    (leaveHf s).disc = s.disc ∧ (leaveHf s).cal = s.cal ∧ (leaveHf s).mem = s.mem ∧ (leaveHf s).free = s.free ∧
    (leaveHf s).pending = s.pending := by
  simp only [leaveHf, when]
  repeat' split
  all_goals simp

theorem genSettle_frame (s : State) :
    (genSettle s).pins = s.pins ∧ (genSettle s).pwr = s.pwr ∧ (genSettle s).sys = s.sys ∧ (genSettle s).rtc = s.rtc ∧
    (genSettle s).alm = s.alm ∧ (genSettle s).hif = s.hif ∧ (genSettle s).evt = s.evt ∧ (genSettle s).evin = s.evin ∧
    (genSettle s).clk = s.clk ∧ (genSettle s).afe = s.afe ∧ (genSettle s).ros = s.ros ∧ (genSettle s).tt = s.tt ∧
    (genSettle s).res = s.res ∧ (genSettle s).ldg = s.ldg ∧ (genSettle s).nv = s.nv ∧ (genSettle s).cond = s.cond ∧
    (genSettle s).disc = s.disc ∧ (genSettle s).cal = s.cal ∧ (genSettle s).mem = s.mem ∧
    (genSettle s).free = s.free ∧ (genSettle s).pending = s.pending := by
  have k0 := @enterHfrc_frame
  have k1 := @foldHfrc_frame
  have k2 := @leaveHf_frame
  simp only [genSettle, when]
  repeat' split
  all_goals simp [k0, k1, k2]

@[simp] theorem outSettle_frame (s : State) :
    (outSettle s).pins = s.pins ∧ (outSettle s).pwr = s.pwr ∧ (outSettle s).sys = s.sys ∧ (outSettle s).rtc = s.rtc ∧
    (outSettle s).alm = s.alm ∧ (outSettle s).hif = s.hif ∧ (outSettle s).evt = s.evt ∧ (outSettle s).evin = s.evin ∧
    (outSettle s).clk = s.clk ∧ (outSettle s).afe = s.afe ∧ (outSettle s).ros = s.ros ∧ (outSettle s).tt = s.tt ∧
    (outSettle s).res = s.res ∧ (outSettle s).ldg = s.ldg ∧ (outSettle s).nv = s.nv ∧ (outSettle s).cond = s.cond ∧
    (outSettle s).disc = s.disc ∧ (outSettle s).cal = s.cal ∧ (outSettle s).mem = s.mem ∧
    (outSettle s).free = s.free ∧ (outSettle s).pending = s.pending := by
  have k0 := @genSettle_frame
  simp only [outSettle, when]
  repeat' split
  all_goals simp [k0]

theorem applyAt_frame (q : Option Nat) (w : Writer) (c : BitVec 16) (s : State) :
    (applyAt q w c s).pins = s.pins ∧ (applyAt q w c s).pwr = s.pwr ∧ (applyAt q w c s).sys = s.sys ∧
    (applyAt q w c s).rtc = s.rtc ∧ (applyAt q w c s).alm = s.alm ∧ (applyAt q w c s).hif = s.hif ∧
    (applyAt q w c s).evt = s.evt ∧ (applyAt q w c s).evin = s.evin ∧ (applyAt q w c s).clk = s.clk ∧
    (applyAt q w c s).afe = s.afe ∧ (applyAt q w c s).ros = s.ros ∧ (applyAt q w c s).tt = s.tt ∧
    (applyAt q w c s).res = s.res ∧ (applyAt q w c s).ldg = s.ldg ∧ (applyAt q w c s).nv = s.nv ∧
    (applyAt q w c s).cond = s.cond ∧ (applyAt q w c s).disc = s.disc ∧ (applyAt q w c s).cal = s.cal ∧
    (applyAt q w c s).mem = s.mem ∧ (applyAt q w c s).free = s.free ∧ (applyAt q w c s).pending = s.pending := by
  simp only [applyAt, when]
  repeat' split
  all_goals simp

theorem applyCode_frame (w : Writer) (c : BitVec 16) (s : State) :
    (applyCode w c s).pins = s.pins ∧ (applyCode w c s).pwr = s.pwr ∧ (applyCode w c s).sys = s.sys ∧
    (applyCode w c s).rtc = s.rtc ∧ (applyCode w c s).alm = s.alm ∧ (applyCode w c s).hif = s.hif ∧
    (applyCode w c s).evt = s.evt ∧ (applyCode w c s).evin = s.evin ∧ (applyCode w c s).clk = s.clk ∧
    (applyCode w c s).afe = s.afe ∧ (applyCode w c s).ros = s.ros ∧ (applyCode w c s).tt = s.tt ∧
    (applyCode w c s).res = s.res ∧ (applyCode w c s).ldg = s.ldg ∧ (applyCode w c s).nv = s.nv ∧
    (applyCode w c s).cond = s.cond ∧ (applyCode w c s).disc = s.disc ∧ (applyCode w c s).cal = s.cal ∧
    (applyCode w c s).mem = s.mem ∧ (applyCode w c s).free = s.free ∧ (applyCode w c s).pending = s.pending := by
  have k0 := @applyAt_frame
  simp only [applyCode, when]
  repeat' split
  all_goals simp [k0]

@[simp] theorem newWriter_frame (s : State) :
    (newWriter s).pins = s.pins ∧ (newWriter s).pwr = s.pwr ∧ (newWriter s).sys = s.sys ∧ (newWriter s).rtc = s.rtc ∧
    (newWriter s).alm = s.alm ∧ (newWriter s).hif = s.hif ∧ (newWriter s).evt = s.evt ∧ (newWriter s).evin = s.evin ∧
    (newWriter s).clk = s.clk ∧ (newWriter s).afe = s.afe ∧ (newWriter s).ros = s.ros ∧ (newWriter s).tt = s.tt ∧
    (newWriter s).res = s.res ∧ (newWriter s).ldg = s.ldg ∧ (newWriter s).nv = s.nv ∧ (newWriter s).cond = s.cond ∧
    (newWriter s).disc = s.disc ∧ (newWriter s).cal = s.cal ∧ (newWriter s).mem = s.mem ∧
    (newWriter s).free = s.free ∧ (newWriter s).pending = s.pending := by
  simp only [newWriter, when]
  repeat' split
  all_goals simp

theorem faultCode_frame (s : State) :
    (faultCode s).pins = s.pins ∧ (faultCode s).pwr = s.pwr ∧ (faultCode s).sys = s.sys ∧ (faultCode s).rtc = s.rtc ∧
    (faultCode s).alm = s.alm ∧ (faultCode s).hif = s.hif ∧ (faultCode s).evt = s.evt ∧ (faultCode s).evin = s.evin ∧
    (faultCode s).clk = s.clk ∧ (faultCode s).afe = s.afe ∧ (faultCode s).ros = s.ros ∧ (faultCode s).tt = s.tt ∧
    (faultCode s).res = s.res ∧ (faultCode s).ldg = s.ldg ∧ (faultCode s).nv = s.nv ∧ (faultCode s).cond = s.cond ∧
    (faultCode s).disc = s.disc ∧ (faultCode s).cal = s.cal ∧ (faultCode s).mem = s.mem ∧
    (faultCode s).free = s.free ∧ (faultCode s).pending = s.pending := by
  have k0 := @applyCode_frame
  simp only [faultCode, when]
  repeat' split
  all_goals simp [k0]

theorem haltFault_frame (s : State) :
    (haltFault s).pins = s.pins ∧ (haltFault s).pwr = s.pwr ∧ (haltFault s).sys = s.sys ∧ (haltFault s).rtc = s.rtc ∧
    (haltFault s).alm = s.alm ∧ (haltFault s).hif = s.hif ∧ (haltFault s).evt = s.evt ∧ (haltFault s).evin = s.evin ∧
    (haltFault s).clk = s.clk ∧ (haltFault s).afe = s.afe ∧ (haltFault s).ros = s.ros ∧ (haltFault s).tt = s.tt ∧
    (haltFault s).res = s.res ∧ (haltFault s).ldg = s.ldg ∧ (haltFault s).nv = s.nv ∧ (haltFault s).cond = s.cond ∧
    (haltFault s).disc = s.disc ∧ (haltFault s).cal = s.cal ∧ (haltFault s).mem = s.mem ∧
    (haltFault s).free = s.free ∧ (haltFault s).pending = s.pending := by
  have k0 := @faultCode_frame
  simp only [haltFault, when]
  repeat' split
  all_goals simp [k0]

theorem aoutFailed_frame (s : State) :
    (aoutFailed s).pins = s.pins ∧ (aoutFailed s).pwr = s.pwr ∧ (aoutFailed s).sys = s.sys ∧
    (aoutFailed s).rtc = s.rtc ∧ (aoutFailed s).alm = s.alm ∧ (aoutFailed s).hif = s.hif ∧
    (aoutFailed s).evt = s.evt ∧ (aoutFailed s).evin = s.evin ∧ (aoutFailed s).clk = s.clk ∧
    (aoutFailed s).afe = s.afe ∧ (aoutFailed s).ros = s.ros ∧ (aoutFailed s).tt = s.tt ∧ (aoutFailed s).res = s.res ∧
    (aoutFailed s).ldg = s.ldg ∧ (aoutFailed s).nv = s.nv ∧ (aoutFailed s).cond = s.cond ∧
    (aoutFailed s).disc = s.disc ∧ (aoutFailed s).cal = s.cal ∧ (aoutFailed s).mem = s.mem ∧
    (aoutFailed s).free = s.free ∧ (aoutFailed s).pending = s.pending := by
  have k0 := @faultCode_frame
  simp only [aoutFailed, when]
  repeat' split
  all_goals simp [k0]

theorem applyDue_frame (s : State) :
    (applyDue s).pins = s.pins ∧ (applyDue s).pwr = s.pwr ∧ (applyDue s).sys = s.sys ∧ (applyDue s).rtc = s.rtc ∧
    (applyDue s).alm = s.alm ∧ (applyDue s).hif = s.hif ∧ (applyDue s).evt = s.evt ∧ (applyDue s).evin = s.evin ∧
    (applyDue s).clk = s.clk ∧ (applyDue s).afe = s.afe ∧ (applyDue s).ros = s.ros ∧ (applyDue s).tt = s.tt ∧
    (applyDue s).res = s.res ∧ (applyDue s).ldg = s.ldg ∧ (applyDue s).nv = s.nv ∧ (applyDue s).cond = s.cond ∧
    (applyDue s).disc = s.disc ∧ (applyDue s).cal = s.cal ∧ (applyDue s).mem = s.mem ∧ (applyDue s).free = s.free ∧
    (applyDue s).pending = s.pending := by
  have k0 := @applyAt_frame
  simp only [applyDue, when]
  repeat' split
  all_goals simp [k0]

theorem dueBy_frame (n : Nat) (s : State) :
    (dueBy n s).pins = s.pins ∧ (dueBy n s).pwr = s.pwr ∧ (dueBy n s).sys = s.sys ∧ (dueBy n s).rtc = s.rtc ∧
    (dueBy n s).alm = s.alm ∧ (dueBy n s).hif = s.hif ∧ (dueBy n s).evt = s.evt ∧ (dueBy n s).evin = s.evin ∧
    (dueBy n s).clk = s.clk ∧ (dueBy n s).afe = s.afe ∧ (dueBy n s).ros = s.ros ∧ (dueBy n s).tt = s.tt ∧
    (dueBy n s).res = s.res ∧ (dueBy n s).ldg = s.ldg ∧ (dueBy n s).nv = s.nv ∧ (dueBy n s).cond = s.cond ∧
    (dueBy n s).disc = s.disc ∧ (dueBy n s).cal = s.cal ∧ (dueBy n s).mem = s.mem ∧ (dueBy n s).free = s.free ∧
    (dueBy n s).pending = s.pending := by
  have k0 := @applyDue_frame
  simp only [dueBy, when]
  repeat' split
  all_goals simp [k0]

theorem aoutSet_frame (n : Nat) (d : Int) (flags : BitVec 16) (s : State) :
    (aoutSet n d flags s).pins = s.pins ∧ (aoutSet n d flags s).pwr = s.pwr ∧ (aoutSet n d flags s).sys = s.sys ∧
    (aoutSet n d flags s).rtc = s.rtc ∧ (aoutSet n d flags s).alm = s.alm ∧ (aoutSet n d flags s).hif = s.hif ∧
    (aoutSet n d flags s).evt = s.evt ∧ (aoutSet n d flags s).evin = s.evin ∧ (aoutSet n d flags s).clk = s.clk ∧
    (aoutSet n d flags s).afe = s.afe ∧ (aoutSet n d flags s).ros = s.ros ∧ (aoutSet n d flags s).tt = s.tt ∧
    (aoutSet n d flags s).res = s.res ∧ (aoutSet n d flags s).ldg = s.ldg ∧ (aoutSet n d flags s).nv = s.nv ∧
    (aoutSet n d flags s).cond = s.cond ∧ (aoutSet n d flags s).disc = s.disc ∧ (aoutSet n d flags s).cal = s.cal ∧
    (aoutSet n d flags s).mem = s.mem ∧ (aoutSet n d flags s).free = s.free ∧
    (aoutSet n d flags s).pending = s.pending := by
  simp only [aoutSet, when]
  repeat' split
  all_goals simp

theorem aoutOk_frame (s : State) :
    (aoutOk s).pins = s.pins ∧ (aoutOk s).pwr = s.pwr ∧ (aoutOk s).sys = s.sys ∧ (aoutOk s).rtc = s.rtc ∧
    (aoutOk s).alm = s.alm ∧ (aoutOk s).hif = s.hif ∧ (aoutOk s).evt = s.evt ∧ (aoutOk s).evin = s.evin ∧
    (aoutOk s).clk = s.clk ∧ (aoutOk s).afe = s.afe ∧ (aoutOk s).ros = s.ros ∧ (aoutOk s).tt = s.tt ∧
    (aoutOk s).res = s.res ∧ (aoutOk s).ldg = s.ldg ∧ (aoutOk s).nv = s.nv ∧ (aoutOk s).cond = s.cond ∧
    (aoutOk s).disc = s.disc ∧ (aoutOk s).cal = s.cal ∧ (aoutOk s).mem = s.mem ∧ (aoutOk s).free = s.free ∧
    (aoutOk s).pending = s.pending := by
  have k0 := @applyDue_frame
  simp only [aoutOk, when]
  repeat' split
  all_goals simp [k0]

theorem setAoutCfg_frame (w : Word) (s : State) :
    (setAoutCfg w s).pins = s.pins ∧ (setAoutCfg w s).pwr = s.pwr ∧ (setAoutCfg w s).sys = s.sys ∧
    (setAoutCfg w s).rtc = s.rtc ∧ (setAoutCfg w s).alm = s.alm ∧ (setAoutCfg w s).hif = s.hif ∧
    (setAoutCfg w s).evt = s.evt ∧ (setAoutCfg w s).evin = s.evin ∧ (setAoutCfg w s).clk = s.clk ∧
    (setAoutCfg w s).afe = s.afe ∧ (setAoutCfg w s).ros = s.ros ∧ (setAoutCfg w s).tt = s.tt ∧
    (setAoutCfg w s).res = s.res ∧ (setAoutCfg w s).ldg = s.ldg ∧ (setAoutCfg w s).nv = s.nv ∧
    (setAoutCfg w s).cond = s.cond ∧ (setAoutCfg w s).disc = s.disc ∧ (setAoutCfg w s).cal = s.cal ∧
    (setAoutCfg w s).mem = s.mem ∧ (setAoutCfg w s).free = s.free ∧ (setAoutCfg w s).pending = s.pending := by
  simp only [setAoutCfg, when]
  repeat' split
  all_goals simp

theorem spanEdge_frame (s : State) :
    (spanEdge s).pins = s.pins ∧ (spanEdge s).pwr = s.pwr ∧ (spanEdge s).sys = s.sys ∧ (spanEdge s).rtc = s.rtc ∧
    (spanEdge s).alm = s.alm ∧ (spanEdge s).hif = s.hif ∧ (spanEdge s).evt = s.evt ∧ (spanEdge s).evin = s.evin ∧
    (spanEdge s).clk = s.clk ∧ (spanEdge s).afe = s.afe ∧ (spanEdge s).ros = s.ros ∧ (spanEdge s).tt = s.tt ∧
    (spanEdge s).res = s.res ∧ (spanEdge s).ldg = s.ldg ∧ (spanEdge s).nv = s.nv ∧ (spanEdge s).cond = s.cond ∧
    (spanEdge s).disc = s.disc ∧ (spanEdge s).cal = s.cal ∧ (spanEdge s).mem = s.mem ∧ (spanEdge s).free = s.free ∧
    (spanEdge s).pending = s.pending := by
  simp only [spanEdge, when]
  repeat' split
  all_goals simp

theorem restartGen_frame (w : Word) (s : State) :
    (restartGen w s).pins = s.pins ∧ (restartGen w s).pwr = s.pwr ∧ (restartGen w s).sys = s.sys ∧
    (restartGen w s).rtc = s.rtc ∧ (restartGen w s).alm = s.alm ∧ (restartGen w s).hif = s.hif ∧
    (restartGen w s).evt = s.evt ∧ (restartGen w s).evin = s.evin ∧ (restartGen w s).clk = s.clk ∧
    (restartGen w s).afe = s.afe ∧ (restartGen w s).ros = s.ros ∧ (restartGen w s).tt = s.tt ∧
    (restartGen w s).res = s.res ∧ (restartGen w s).ldg = s.ldg ∧ (restartGen w s).nv = s.nv ∧
    (restartGen w s).cond = s.cond ∧ (restartGen w s).disc = s.disc ∧ (restartGen w s).cal = s.cal ∧
    (restartGen w s).mem = s.mem ∧ (restartGen w s).free = s.free ∧ (restartGen w s).pending = s.pending := by
  have k0 := @genZero_frame
  simp only [restartGen, when]
  repeat' split
  all_goals simp [k0]

theorem applyStage_frame (f : Frame) (c : Carriage) (s : State) :
    (applyStage f c s).pins = s.pins ∧ (applyStage f c s).pwr = s.pwr ∧ (applyStage f c s).sys = s.sys ∧
    (applyStage f c s).rtc = s.rtc ∧ (applyStage f c s).alm = s.alm ∧ (applyStage f c s).hif = s.hif ∧
    (applyStage f c s).evt = s.evt ∧ (applyStage f c s).evin = s.evin ∧ (applyStage f c s).clk = s.clk ∧
    (applyStage f c s).ros = s.ros ∧ (applyStage f c s).tt = s.tt ∧ (applyStage f c s).res = s.res ∧
    (applyStage f c s).out = s.out ∧ (applyStage f c s).ldg = s.ldg ∧ (applyStage f c s).nv = s.nv ∧
    (applyStage f c s).cond = s.cond ∧ (applyStage f c s).disc = s.disc ∧ (applyStage f c s).cal = s.cal ∧
    (applyStage f c s).mem = s.mem ∧ (applyStage f c s).free = s.free ∧ (applyStage f c s).pending = s.pending := by
  simp only [applyStage, when]
  repeat' split
  all_goals simp

theorem applyStages_frame (lo hi : Nat) (f : Frame) (s : State) :
    (applyStages lo hi f s).pins = s.pins ∧ (applyStages lo hi f s).pwr = s.pwr ∧
    (applyStages lo hi f s).sys = s.sys ∧ (applyStages lo hi f s).rtc = s.rtc ∧ (applyStages lo hi f s).alm = s.alm ∧
    (applyStages lo hi f s).hif = s.hif ∧ (applyStages lo hi f s).evt = s.evt ∧
    (applyStages lo hi f s).evin = s.evin ∧ (applyStages lo hi f s).clk = s.clk ∧
    (applyStages lo hi f s).ros = s.ros ∧ (applyStages lo hi f s).tt = s.tt ∧ (applyStages lo hi f s).res = s.res ∧
    (applyStages lo hi f s).out = s.out ∧ (applyStages lo hi f s).ldg = s.ldg ∧ (applyStages lo hi f s).nv = s.nv ∧
    (applyStages lo hi f s).cond = s.cond ∧ (applyStages lo hi f s).disc = s.disc ∧
    (applyStages lo hi f s).cal = s.cal ∧ (applyStages lo hi f s).mem = s.mem ∧
    (applyStages lo hi f s).free = s.free ∧ (applyStages lo hi f s).pending = s.pending := by
  have k0 := @applyStage_frame
  simp only [applyStages, when]
  repeat' split
  all_goals simp [k0]

theorem latchFrame_frame (n : Nat) (s : State) :
    (latchFrame n s).pins = s.pins ∧ (latchFrame n s).pwr = s.pwr ∧ (latchFrame n s).sys = s.sys ∧
    (latchFrame n s).rtc = s.rtc ∧ (latchFrame n s).alm = s.alm ∧ (latchFrame n s).hif = s.hif ∧
    (latchFrame n s).evt = s.evt ∧ (latchFrame n s).evin = s.evin ∧ (latchFrame n s).clk = s.clk ∧
    (latchFrame n s).ros = s.ros ∧ (latchFrame n s).res = s.res ∧ (latchFrame n s).out = s.out ∧
    (latchFrame n s).ldg = s.ldg ∧ (latchFrame n s).nv = s.nv ∧ (latchFrame n s).cond = s.cond ∧
    (latchFrame n s).disc = s.disc ∧ (latchFrame n s).cal = s.cal ∧ (latchFrame n s).mem = s.mem ∧
    (latchFrame n s).free = s.free ∧ (latchFrame n s).pending = s.pending := by
  have k0 := @applyStages_frame
  simp only [latchFrame, when]
  repeat' split
  all_goals simp [k0]

@[simp] theorem setPair_frame (p : Bool) (x : Pair) (s : State) :
    (setPair p x s).pins = s.pins ∧ (setPair p x s).pwr = s.pwr ∧ (setPair p x s).sys = s.sys ∧
    (setPair p x s).rtc = s.rtc ∧ (setPair p x s).alm = s.alm ∧ (setPair p x s).hif = s.hif ∧
    (setPair p x s).evt = s.evt ∧ (setPair p x s).evin = s.evin ∧ (setPair p x s).clk = s.clk ∧
    (setPair p x s).ros = s.ros ∧ (setPair p x s).tt = s.tt ∧ (setPair p x s).res = s.res ∧
    (setPair p x s).out = s.out ∧ (setPair p x s).ldg = s.ldg ∧ (setPair p x s).nv = s.nv ∧
    (setPair p x s).cond = s.cond ∧ (setPair p x s).disc = s.disc ∧ (setPair p x s).cal = s.cal ∧
    (setPair p x s).mem = s.mem ∧ (setPair p x s).free = s.free ∧ (setPair p x s).pending = s.pending := by
  simp only [setPair, when]
  repeat' split
  all_goals simp

theorem discExcites_frame (s : State) :
    (discExcites s).pins = s.pins ∧ (discExcites s).pwr = s.pwr ∧ (discExcites s).sys = s.sys ∧
    (discExcites s).rtc = s.rtc ∧ (discExcites s).alm = s.alm ∧ (discExcites s).hif = s.hif ∧
    (discExcites s).evt = s.evt ∧ (discExcites s).evin = s.evin ∧ (discExcites s).clk = s.clk ∧
    (discExcites s).ros = s.ros ∧ (discExcites s).tt = s.tt ∧ (discExcites s).res = s.res ∧
    (discExcites s).out = s.out ∧ (discExcites s).ldg = s.ldg ∧ (discExcites s).nv = s.nv ∧
    (discExcites s).cond = s.cond ∧ (discExcites s).disc = s.disc ∧ (discExcites s).cal = s.cal ∧
    (discExcites s).mem = s.mem ∧ (discExcites s).free = s.free ∧ (discExcites s).pending = s.pending := by
  simp only [discExcites, when]
  repeat' split
  all_goals simp

@[simp] theorem advance_frame (n : Nat) (s : State) :
    (advance n s).pins = s.pins ∧ (advance n s).pwr = s.pwr ∧ (advance n s).sys = s.sys ∧ (advance n s).rtc = s.rtc ∧
    (advance n s).alm = s.alm ∧ (advance n s).hif = s.hif ∧ (advance n s).evt = s.evt ∧ (advance n s).evin = s.evin ∧
    (advance n s).ros = s.ros ∧ (advance n s).res = s.res ∧ (advance n s).ldg = s.ldg ∧ (advance n s).nv = s.nv ∧
    (advance n s).cond = s.cond ∧ (advance n s).disc = s.disc ∧ (advance n s).cal = s.cal ∧
    (advance n s).mem = s.mem ∧ (advance n s).free = s.free ∧ (advance n s).pending = s.pending := by
  have k0 := @discExcites_frame
  have k1 := @dueBy_frame
  have k2 := @latchFrame_frame
  simp only [advance, when]
  repeat' split
  all_goals simp [k0, k1, k2]

theorem holdSeal_frame (c : BitVec 5) (s : State) :
    (holdSeal c s).pins = s.pins ∧ (holdSeal c s).pwr = s.pwr ∧ (holdSeal c s).sys = s.sys ∧
    (holdSeal c s).rtc = s.rtc ∧ (holdSeal c s).alm = s.alm ∧ (holdSeal c s).hif = s.hif ∧
    (holdSeal c s).evt = s.evt ∧ (holdSeal c s).evin = s.evin ∧ (holdSeal c s).clk = s.clk ∧
    (holdSeal c s).afe = s.afe ∧ (holdSeal c s).ros = s.ros ∧ (holdSeal c s).res = s.res ∧
    (holdSeal c s).out = s.out ∧ (holdSeal c s).ldg = s.ldg ∧ (holdSeal c s).nv = s.nv ∧
    (holdSeal c s).cond = s.cond ∧ (holdSeal c s).disc = s.disc ∧ (holdSeal c s).cal = s.cal ∧
    (holdSeal c s).mem = s.mem ∧ (holdSeal c s).free = s.free ∧ (holdSeal c s).pending = s.pending := by
  simp only [holdSeal, when]
  repeat' split
  all_goals simp

theorem sealInFrame_frame (c : BitVec 5) (old : List Byte) (f : Frame) (s : State) :
    (sealInFrame c old f s).pins = s.pins ∧ (sealInFrame c old f s).pwr = s.pwr ∧
    (sealInFrame c old f s).sys = s.sys ∧ (sealInFrame c old f s).rtc = s.rtc ∧ (sealInFrame c old f s).alm = s.alm ∧
    (sealInFrame c old f s).hif = s.hif ∧ (sealInFrame c old f s).evin = s.evin ∧
    (sealInFrame c old f s).clk = s.clk ∧ (sealInFrame c old f s).afe = s.afe ∧ (sealInFrame c old f s).ros = s.ros ∧
    (sealInFrame c old f s).res = s.res ∧ (sealInFrame c old f s).out = s.out ∧ (sealInFrame c old f s).ldg = s.ldg ∧
    (sealInFrame c old f s).nv = s.nv ∧ (sealInFrame c old f s).cond = s.cond ∧
    (sealInFrame c old f s).disc = s.disc ∧ (sealInFrame c old f s).cal = s.cal ∧
    (sealInFrame c old f s).mem = s.mem ∧ (sealInFrame c old f s).free = s.free ∧
    (sealInFrame c old f s).pending = s.pending := by
  simp only [sealInFrame, when]
  repeat' split
  all_goals simp

theorem sealChannel_frame (c : BitVec 5) (s : State) :
    (sealChannel c s).pins = s.pins ∧ (sealChannel c s).pwr = s.pwr ∧ (sealChannel c s).sys = s.sys ∧
    (sealChannel c s).rtc = s.rtc ∧ (sealChannel c s).alm = s.alm ∧ (sealChannel c s).hif = s.hif ∧
    (sealChannel c s).evin = s.evin ∧ (sealChannel c s).clk = s.clk ∧ (sealChannel c s).res = s.res ∧
    (sealChannel c s).out = s.out ∧ (sealChannel c s).ldg = s.ldg ∧ (sealChannel c s).nv = s.nv ∧
    (sealChannel c s).cond = s.cond ∧ (sealChannel c s).disc = s.disc ∧ (sealChannel c s).cal = s.cal ∧
    (sealChannel c s).mem = s.mem ∧ (sealChannel c s).free = s.free ∧ (sealChannel c s).pending = s.pending := by
  have k0 := @holdSeal_frame
  have k1 := @latchFrame_frame
  have k2 := @sealInFrame_frame
  simp only [sealChannel, when]
  repeat' split
  all_goals simp [k0, k1, k2]

theorem fetch_frame (chs : List (BitVec 5)) (s : State) :
    (fetch chs s).pins = s.pins ∧ (fetch chs s).pwr = s.pwr ∧ (fetch chs s).sys = s.sys ∧ (fetch chs s).rtc = s.rtc ∧
    (fetch chs s).alm = s.alm ∧ (fetch chs s).hif = s.hif ∧ (fetch chs s).evt = s.evt ∧ (fetch chs s).evin = s.evin ∧
    (fetch chs s).clk = s.clk ∧ (fetch chs s).afe = s.afe ∧ (fetch chs s).tt = s.tt ∧ (fetch chs s).res = s.res ∧
    (fetch chs s).out = s.out ∧ (fetch chs s).ldg = s.ldg ∧ (fetch chs s).nv = s.nv ∧ (fetch chs s).cond = s.cond ∧
    (fetch chs s).disc = s.disc ∧ (fetch chs s).cal = s.cal ∧ (fetch chs s).mem = s.mem ∧
    (fetch chs s).free = s.free ∧ (fetch chs s).pending = s.pending := by
  simp only [fetch, when]
  repeat' split
  all_goals simp

theorem releasePairs_frame (s : State) :
    (releasePairs s).pins = s.pins ∧ (releasePairs s).pwr = s.pwr ∧ (releasePairs s).sys = s.sys ∧
    (releasePairs s).rtc = s.rtc ∧ (releasePairs s).alm = s.alm ∧ (releasePairs s).hif = s.hif ∧
    (releasePairs s).evt = s.evt ∧ (releasePairs s).evin = s.evin ∧ (releasePairs s).clk = s.clk ∧
    (releasePairs s).ros = s.ros ∧ (releasePairs s).tt = s.tt ∧ (releasePairs s).res = s.res ∧
    (releasePairs s).out = s.out ∧ (releasePairs s).ldg = s.ldg ∧ (releasePairs s).nv = s.nv ∧
    (releasePairs s).cond = s.cond ∧ (releasePairs s).disc = s.disc ∧ (releasePairs s).cal = s.cal ∧
    (releasePairs s).mem = s.mem ∧ (releasePairs s).free = s.free ∧ (releasePairs s).pending = s.pending := by
  simp only [releasePairs, when]
  repeat' split
  all_goals simp

theorem allPairsOff_frame (s : State) :
    (allPairsOff s).pins = s.pins ∧ (allPairsOff s).pwr = s.pwr ∧ (allPairsOff s).sys = s.sys ∧
    (allPairsOff s).rtc = s.rtc ∧ (allPairsOff s).alm = s.alm ∧ (allPairsOff s).hif = s.hif ∧
    (allPairsOff s).evt = s.evt ∧ (allPairsOff s).evin = s.evin ∧ (allPairsOff s).clk = s.clk ∧
    (allPairsOff s).ros = s.ros ∧ (allPairsOff s).tt = s.tt ∧ (allPairsOff s).res = s.res ∧
    (allPairsOff s).out = s.out ∧ (allPairsOff s).ldg = s.ldg ∧ (allPairsOff s).nv = s.nv ∧
    (allPairsOff s).cond = s.cond ∧ (allPairsOff s).disc = s.disc ∧ (allPairsOff s).cal = s.cal ∧
    (allPairsOff s).mem = s.mem ∧ (allPairsOff s).free = s.free ∧ (allPairsOff s).pending = s.pending := by
  simp only [allPairsOff, when]
  repeat' split
  all_goals simp

theorem withdrawPresettles_frame (s : State) :
    (withdrawPresettles s).pins = s.pins ∧ (withdrawPresettles s).pwr = s.pwr ∧ (withdrawPresettles s).sys = s.sys ∧
    (withdrawPresettles s).rtc = s.rtc ∧ (withdrawPresettles s).alm = s.alm ∧ (withdrawPresettles s).hif = s.hif ∧
    (withdrawPresettles s).evt = s.evt ∧ (withdrawPresettles s).evin = s.evin ∧ (withdrawPresettles s).clk = s.clk ∧
    (withdrawPresettles s).ros = s.ros ∧ (withdrawPresettles s).tt = s.tt ∧ (withdrawPresettles s).res = s.res ∧
    (withdrawPresettles s).out = s.out ∧ (withdrawPresettles s).ldg = s.ldg ∧ (withdrawPresettles s).nv = s.nv ∧
    (withdrawPresettles s).cond = s.cond ∧ (withdrawPresettles s).disc = s.disc ∧ (withdrawPresettles s).cal = s.cal ∧
    (withdrawPresettles s).mem = s.mem ∧ (withdrawPresettles s).free = s.free ∧
    (withdrawPresettles s).pending = s.pending := by
  simp only [withdrawPresettles, when]
  repeat' split
  all_goals simp

theorem afeFrameStart_frame (s : State) :
    (afeFrameStart s).pins = s.pins ∧ (afeFrameStart s).pwr = s.pwr ∧ (afeFrameStart s).sys = s.sys ∧
    (afeFrameStart s).rtc = s.rtc ∧ (afeFrameStart s).alm = s.alm ∧ (afeFrameStart s).hif = s.hif ∧
    (afeFrameStart s).evt = s.evt ∧ (afeFrameStart s).evin = s.evin ∧ (afeFrameStart s).clk = s.clk ∧
    (afeFrameStart s).ros = s.ros ∧ (afeFrameStart s).tt = s.tt ∧ (afeFrameStart s).res = s.res ∧
    (afeFrameStart s).out = s.out ∧ (afeFrameStart s).ldg = s.ldg ∧ (afeFrameStart s).nv = s.nv ∧
    (afeFrameStart s).cond = s.cond ∧ (afeFrameStart s).disc = s.disc ∧ (afeFrameStart s).cal = s.cal ∧
    (afeFrameStart s).mem = s.mem ∧ (afeFrameStart s).free = s.free ∧ (afeFrameStart s).pending = s.pending := by
  simp only [afeFrameStart, when]
  repeat' split
  all_goals simp

theorem diagBits_frame (b : Nat) (s : State) :
    (diagBits b s).pins = s.pins ∧ (diagBits b s).pwr = s.pwr ∧ (diagBits b s).sys = s.sys ∧
    (diagBits b s).rtc = s.rtc ∧ (diagBits b s).alm = s.alm ∧ (diagBits b s).hif = s.hif ∧
    (diagBits b s).evt = s.evt ∧ (diagBits b s).evin = s.evin ∧ (diagBits b s).clk = s.clk ∧
    (diagBits b s).ros = s.ros ∧ (diagBits b s).tt = s.tt ∧ (diagBits b s).res = s.res ∧ (diagBits b s).out = s.out ∧
    (diagBits b s).ldg = s.ldg ∧ (diagBits b s).nv = s.nv ∧ (diagBits b s).cond = s.cond ∧
    (diagBits b s).disc = s.disc ∧ (diagBits b s).cal = s.cal ∧ (diagBits b s).mem = s.mem ∧
    (diagBits b s).free = s.free ∧ (diagBits b s).pending = s.pending := by
  simp only [diagBits, when]
  repeat' split
  all_goals simp

theorem diagPort_frame (bit k : Nat) (s : State) :
    (diagPort bit k s).pins = s.pins ∧ (diagPort bit k s).pwr = s.pwr ∧ (diagPort bit k s).sys = s.sys ∧
    (diagPort bit k s).rtc = s.rtc ∧ (diagPort bit k s).alm = s.alm ∧ (diagPort bit k s).hif = s.hif ∧
    (diagPort bit k s).evin = s.evin ∧ (diagPort bit k s).clk = s.clk ∧ (diagPort bit k s).ros = s.ros ∧
    (diagPort bit k s).tt = s.tt ∧ (diagPort bit k s).res = s.res ∧ (diagPort bit k s).out = s.out ∧
    (diagPort bit k s).ldg = s.ldg ∧ (diagPort bit k s).nv = s.nv ∧ (diagPort bit k s).cond = s.cond ∧
    (diagPort bit k s).disc = s.disc ∧ (diagPort bit k s).cal = s.cal ∧ (diagPort bit k s).mem = s.mem ∧
    (diagPort bit k s).free = s.free ∧ (diagPort bit k s).pending = s.pending := by
  have k0 := @diagBits_frame
  simp only [diagPort, when]
  repeat' split
  all_goals simp [k0]

theorem diagOver_frame (k : Nat) (s : State) :
    (diagOver k s).pins = s.pins ∧ (diagOver k s).pwr = s.pwr ∧ (diagOver k s).sys = s.sys ∧
    (diagOver k s).rtc = s.rtc ∧ (diagOver k s).alm = s.alm ∧ (diagOver k s).hif = s.hif ∧
    (diagOver k s).evin = s.evin ∧ (diagOver k s).clk = s.clk ∧ (diagOver k s).ros = s.ros ∧
    (diagOver k s).tt = s.tt ∧ (diagOver k s).res = s.res ∧ (diagOver k s).out = s.out ∧ (diagOver k s).ldg = s.ldg ∧
    (diagOver k s).nv = s.nv ∧ (diagOver k s).cond = s.cond ∧ (diagOver k s).disc = s.disc ∧
    (diagOver k s).cal = s.cal ∧ (diagOver k s).mem = s.mem ∧ (diagOver k s).free = s.free ∧
    (diagOver k s).pending = s.pending := by
  have k0 := @diagBits_frame
  simp only [diagOver, when]
  repeat' split
  all_goals simp [k0]

theorem diagPair_frame (bit : Nat) (p : Bool) (s : State) :
    (diagPair bit p s).pins = s.pins ∧ (diagPair bit p s).pwr = s.pwr ∧ (diagPair bit p s).sys = s.sys ∧
    (diagPair bit p s).rtc = s.rtc ∧ (diagPair bit p s).alm = s.alm ∧ (diagPair bit p s).hif = s.hif ∧
    (diagPair bit p s).evin = s.evin ∧ (diagPair bit p s).clk = s.clk ∧ (diagPair bit p s).ros = s.ros ∧
    (diagPair bit p s).tt = s.tt ∧ (diagPair bit p s).res = s.res ∧ (diagPair bit p s).out = s.out ∧
    (diagPair bit p s).ldg = s.ldg ∧ (diagPair bit p s).nv = s.nv ∧ (diagPair bit p s).cond = s.cond ∧
    (diagPair bit p s).disc = s.disc ∧ (diagPair bit p s).cal = s.cal ∧ (diagPair bit p s).mem = s.mem ∧
    (diagPair bit p s).free = s.free ∧ (diagPair bit p s).pending = s.pending := by
  have k0 := @diagBits_frame
  simp only [diagPair, when]
  repeat' split
  all_goals simp [k0]

theorem classifyLeak_frame (p : Bool) (v : Int) (s : State) :
    (classifyLeak p v s).pins = s.pins ∧ (classifyLeak p v s).pwr = s.pwr ∧ (classifyLeak p v s).sys = s.sys ∧
    (classifyLeak p v s).rtc = s.rtc ∧ (classifyLeak p v s).alm = s.alm ∧ (classifyLeak p v s).hif = s.hif ∧
    (classifyLeak p v s).evin = s.evin ∧ (classifyLeak p v s).clk = s.clk ∧ (classifyLeak p v s).ros = s.ros ∧
    (classifyLeak p v s).tt = s.tt ∧ (classifyLeak p v s).res = s.res ∧ (classifyLeak p v s).out = s.out ∧
    (classifyLeak p v s).ldg = s.ldg ∧ (classifyLeak p v s).nv = s.nv ∧ (classifyLeak p v s).cond = s.cond ∧
    (classifyLeak p v s).disc = s.disc ∧ (classifyLeak p v s).cal = s.cal ∧ (classifyLeak p v s).mem = s.mem ∧
    (classifyLeak p v s).free = s.free ∧ (classifyLeak p v s).pending = s.pending := by
  have k0 := @diagPair_frame
  simp only [classifyLeak, when]
  repeat' split
  all_goals simp [k0]

theorem classifyArm_frame (k : Nat) (zp zn : Nat) (s : State) :
    (classifyArm k zp zn s).pins = s.pins ∧ (classifyArm k zp zn s).pwr = s.pwr ∧
    (classifyArm k zp zn s).sys = s.sys ∧ (classifyArm k zp zn s).rtc = s.rtc ∧ (classifyArm k zp zn s).alm = s.alm ∧
    (classifyArm k zp zn s).hif = s.hif ∧ (classifyArm k zp zn s).evin = s.evin ∧
    (classifyArm k zp zn s).clk = s.clk ∧ (classifyArm k zp zn s).ros = s.ros ∧ (classifyArm k zp zn s).tt = s.tt ∧
    (classifyArm k zp zn s).res = s.res ∧ (classifyArm k zp zn s).out = s.out ∧ (classifyArm k zp zn s).ldg = s.ldg ∧
    (classifyArm k zp zn s).nv = s.nv ∧ (classifyArm k zp zn s).cond = s.cond ∧
    (classifyArm k zp zn s).disc = s.disc ∧ (classifyArm k zp zn s).cal = s.cal ∧
    (classifyArm k zp zn s).mem = s.mem ∧ (classifyArm k zp zn s).free = s.free ∧
    (classifyArm k zp zn s).pending = s.pending := by
  have k0 := @diagPort_frame
  simp only [classifyArm, when]
  repeat' split
  all_goals simp [k0]

@[simp] theorem setPort_frame (k : Nat) (p : Port) (s : State) :
    (setPort k p s).pins = s.pins ∧ (setPort k p s).pwr = s.pwr ∧ (setPort k p s).sys = s.sys ∧
    (setPort k p s).rtc = s.rtc ∧ (setPort k p s).alm = s.alm ∧ (setPort k p s).hif = s.hif ∧
    (setPort k p s).evt = s.evt ∧ (setPort k p s).evin = s.evin ∧ (setPort k p s).clk = s.clk ∧
    (setPort k p s).afe = s.afe ∧ (setPort k p s).ros = s.ros ∧ (setPort k p s).tt = s.tt ∧
    (setPort k p s).res = s.res ∧ (setPort k p s).out = s.out ∧ (setPort k p s).ldg = s.ldg ∧
    (setPort k p s).nv = s.nv ∧ (setPort k p s).cond = s.cond ∧ (setPort k p s).cal = s.cal ∧
    (setPort k p s).mem = s.mem ∧ (setPort k p s).free = s.free ∧ (setPort k p s).pending = s.pending := by
  simp only [setPort, when]
  repeat' split
  all_goals simp

theorem applyPortEn_frame (en : BitVec 4) (s : State) :
    (applyPortEn en s).pins = s.pins ∧ (applyPortEn en s).pwr = s.pwr ∧ (applyPortEn en s).sys = s.sys ∧
    (applyPortEn en s).rtc = s.rtc ∧ (applyPortEn en s).alm = s.alm ∧ (applyPortEn en s).hif = s.hif ∧
    (applyPortEn en s).evt = s.evt ∧ (applyPortEn en s).evin = s.evin ∧ (applyPortEn en s).clk = s.clk ∧
    (applyPortEn en s).afe = s.afe ∧ (applyPortEn en s).ros = s.ros ∧ (applyPortEn en s).tt = s.tt ∧
    (applyPortEn en s).res = s.res ∧ (applyPortEn en s).out = s.out ∧ (applyPortEn en s).ldg = s.ldg ∧
    (applyPortEn en s).nv = s.nv ∧ (applyPortEn en s).cond = s.cond ∧ (applyPortEn en s).cal = s.cal ∧
    (applyPortEn en s).mem = s.mem ∧ (applyPortEn en s).free = s.free ∧ (applyPortEn en s).pending = s.pending := by
  simp only [applyPortEn, when]
  repeat' split
  all_goals simp

@[simp] theorem wakeMain_frame (s : State) :
    (wakeMain s).pins = s.pins ∧ (wakeMain s).pwr = s.pwr ∧ (wakeMain s).rtc = s.rtc ∧ (wakeMain s).alm = s.alm ∧
    (wakeMain s).hif = s.hif ∧ (wakeMain s).evt = s.evt ∧ (wakeMain s).evin = s.evin ∧ (wakeMain s).clk = s.clk ∧
    (wakeMain s).afe = s.afe ∧ (wakeMain s).ros = s.ros ∧ (wakeMain s).tt = s.tt ∧ (wakeMain s).res = s.res ∧
    (wakeMain s).ldg = s.ldg ∧ (wakeMain s).nv = s.nv ∧ (wakeMain s).cond = s.cond ∧ (wakeMain s).disc = s.disc ∧
    (wakeMain s).cal = s.cal ∧ (wakeMain s).mem = s.mem ∧ (wakeMain s).free = s.free ∧
    (wakeMain s).pending = s.pending := by
  simp only [wakeMain, when]
  repeat' split
  all_goals simp

theorem ldgAdd_frame (a : Nat) (d : Int) (flags : BitVec 16) (s : State) :
    (ldgAdd a d flags s).pins = s.pins ∧ (ldgAdd a d flags s).pwr = s.pwr ∧ (ldgAdd a d flags s).sys = s.sys ∧
    (ldgAdd a d flags s).rtc = s.rtc ∧ (ldgAdd a d flags s).alm = s.alm ∧ (ldgAdd a d flags s).hif = s.hif ∧
    (ldgAdd a d flags s).evt = s.evt ∧ (ldgAdd a d flags s).evin = s.evin ∧ (ldgAdd a d flags s).clk = s.clk ∧
    (ldgAdd a d flags s).afe = s.afe ∧ (ldgAdd a d flags s).ros = s.ros ∧ (ldgAdd a d flags s).tt = s.tt ∧
    (ldgAdd a d flags s).res = s.res ∧ (ldgAdd a d flags s).out = s.out ∧ (ldgAdd a d flags s).nv = s.nv ∧
    (ldgAdd a d flags s).cond = s.cond ∧ (ldgAdd a d flags s).disc = s.disc ∧ (ldgAdd a d flags s).cal = s.cal ∧
    (ldgAdd a d flags s).mem = s.mem ∧ (ldgAdd a d flags s).free = s.free ∧ (ldgAdd a d flags s).pending = s.pending := by
  simp only [ldgAdd, when]
  repeat' split
  all_goals simp

theorem ldgNew_frame (q : Option Nat) (r : LdgReq) (stamp : Stamp) (s : State) :
    (ldgNew q r stamp s).pins = s.pins ∧ (ldgNew q r stamp s).pwr = s.pwr ∧ (ldgNew q r stamp s).rtc = s.rtc ∧
    (ldgNew q r stamp s).alm = s.alm ∧ (ldgNew q r stamp s).hif = s.hif ∧ (ldgNew q r stamp s).evin = s.evin ∧
    (ldgNew q r stamp s).clk = s.clk ∧ (ldgNew q r stamp s).afe = s.afe ∧ (ldgNew q r stamp s).ros = s.ros ∧
    (ldgNew q r stamp s).tt = s.tt ∧ (ldgNew q r stamp s).res = s.res ∧ (ldgNew q r stamp s).nv = s.nv ∧
    (ldgNew q r stamp s).cond = s.cond ∧ (ldgNew q r stamp s).disc = s.disc ∧ (ldgNew q r stamp s).cal = s.cal ∧
    (ldgNew q r stamp s).mem = s.mem ∧ (ldgNew q r stamp s).free = s.free ∧ (ldgNew q r stamp s).pending = s.pending := by
  simp only [ldgNew, when]
  repeat' split
  all_goals simp

theorem ldgRewrite_frame (x : LdgInst) (s : State) :
    (ldgRewrite x s).pins = s.pins ∧ (ldgRewrite x s).pwr = s.pwr ∧ (ldgRewrite x s).sys = s.sys ∧
    (ldgRewrite x s).rtc = s.rtc ∧ (ldgRewrite x s).alm = s.alm ∧ (ldgRewrite x s).hif = s.hif ∧
    (ldgRewrite x s).evt = s.evt ∧ (ldgRewrite x s).evin = s.evin ∧ (ldgRewrite x s).clk = s.clk ∧
    (ldgRewrite x s).afe = s.afe ∧ (ldgRewrite x s).ros = s.ros ∧ (ldgRewrite x s).tt = s.tt ∧
    (ldgRewrite x s).res = s.res ∧ (ldgRewrite x s).out = s.out ∧ (ldgRewrite x s).ldg = s.ldg ∧
    (ldgRewrite x s).cond = s.cond ∧ (ldgRewrite x s).disc = s.disc ∧ (ldgRewrite x s).cal = s.cal ∧
    (ldgRewrite x s).mem = s.mem ∧ (ldgRewrite x s).free = s.free ∧ (ldgRewrite x s).pending = s.pending := by
  simp only [ldgRewrite, when]
  repeat' split
  all_goals simp

theorem ldgJoin_frame (x : LdgInst) (r : LdgReq) (s : State) :
    (ldgJoin x r s).pins = s.pins ∧ (ldgJoin x r s).pwr = s.pwr ∧ (ldgJoin x r s).rtc = s.rtc ∧
    (ldgJoin x r s).alm = s.alm ∧ (ldgJoin x r s).hif = s.hif ∧ (ldgJoin x r s).evin = s.evin ∧
    (ldgJoin x r s).clk = s.clk ∧ (ldgJoin x r s).afe = s.afe ∧ (ldgJoin x r s).ros = s.ros ∧
    (ldgJoin x r s).tt = s.tt ∧ (ldgJoin x r s).res = s.res ∧ (ldgJoin x r s).cond = s.cond ∧
    (ldgJoin x r s).disc = s.disc ∧ (ldgJoin x r s).cal = s.cal ∧ (ldgJoin x r s).mem = s.mem ∧
    (ldgJoin x r s).free = s.free ∧ (ldgJoin x r s).pending = s.pending := by
  have k0 := @ldgRewrite_frame
  simp only [ldgJoin, when]
  repeat' split
  all_goals simp [k0]

theorem ldgInstant_frame (q : Option Nat) (r : LdgReq) (stamp : Stamp) (s : State) :
    (ldgInstant q r stamp s).pins = s.pins ∧ (ldgInstant q r stamp s).pwr = s.pwr ∧
    (ldgInstant q r stamp s).rtc = s.rtc ∧ (ldgInstant q r stamp s).alm = s.alm ∧
    (ldgInstant q r stamp s).hif = s.hif ∧ (ldgInstant q r stamp s).evin = s.evin ∧
    (ldgInstant q r stamp s).clk = s.clk ∧ (ldgInstant q r stamp s).afe = s.afe ∧
    (ldgInstant q r stamp s).ros = s.ros ∧ (ldgInstant q r stamp s).tt = s.tt ∧ (ldgInstant q r stamp s).res = s.res ∧
    (ldgInstant q r stamp s).cond = s.cond ∧ (ldgInstant q r stamp s).disc = s.disc ∧
    (ldgInstant q r stamp s).cal = s.cal ∧ (ldgInstant q r stamp s).mem = s.mem ∧
    (ldgInstant q r stamp s).free = s.free ∧ (ldgInstant q r stamp s).pending = s.pending := by
  have k0 := @ldgJoin_frame
  have k1 := @ldgNew_frame
  simp only [ldgInstant, when]
  repeat' split
  all_goals simp [k0, k1]

theorem lapRefused_frame (s : State) :
    (lapRefused s).pins = s.pins ∧ (lapRefused s).pwr = s.pwr ∧ (lapRefused s).sys = s.sys ∧
    (lapRefused s).rtc = s.rtc ∧ (lapRefused s).alm = s.alm ∧ (lapRefused s).hif = s.hif ∧
    (lapRefused s).evin = s.evin ∧ (lapRefused s).clk = s.clk ∧ (lapRefused s).afe = s.afe ∧
    (lapRefused s).ros = s.ros ∧ (lapRefused s).tt = s.tt ∧ (lapRefused s).res = s.res ∧ (lapRefused s).out = s.out ∧
    (lapRefused s).nv = s.nv ∧ (lapRefused s).cond = s.cond ∧ (lapRefused s).disc = s.disc ∧
    (lapRefused s).cal = s.cal ∧ (lapRefused s).mem = s.mem ∧ (lapRefused s).free = s.free ∧
    (lapRefused s).pending = s.pending := by
  simp only [lapRefused, when]
  repeat' split
  all_goals simp

theorem ldgCmdDone_frame (reason : Nat) (detail : Word) (c : LdgCmd) (s : State) :
    (ldgCmdDone reason detail c s).pins = s.pins ∧ (ldgCmdDone reason detail c s).pwr = s.pwr ∧
    (ldgCmdDone reason detail c s).sys = s.sys ∧ (ldgCmdDone reason detail c s).rtc = s.rtc ∧
    (ldgCmdDone reason detail c s).alm = s.alm ∧ (ldgCmdDone reason detail c s).hif = s.hif ∧
    (ldgCmdDone reason detail c s).evin = s.evin ∧ (ldgCmdDone reason detail c s).clk = s.clk ∧
    (ldgCmdDone reason detail c s).afe = s.afe ∧ (ldgCmdDone reason detail c s).ros = s.ros ∧
    (ldgCmdDone reason detail c s).tt = s.tt ∧ (ldgCmdDone reason detail c s).res = s.res ∧
    (ldgCmdDone reason detail c s).out = s.out ∧ (ldgCmdDone reason detail c s).ldg = s.ldg ∧
    (ldgCmdDone reason detail c s).nv = s.nv ∧ (ldgCmdDone reason detail c s).disc = s.disc ∧
    (ldgCmdDone reason detail c s).cal = s.cal ∧ (ldgCmdDone reason detail c s).free = s.free ∧
    (ldgCmdDone reason detail c s).pending = s.pending := by
  simp only [ldgCmdDone, when]
  repeat' split
  all_goals simp

theorem ldgTakeCmds_frame (r : LdgReq) (s : State) :
    (ldgTakeCmds r s).2.pins = s.pins ∧ (ldgTakeCmds r s).2.pwr = s.pwr ∧ (ldgTakeCmds r s).2.sys = s.sys ∧
    (ldgTakeCmds r s).2.rtc = s.rtc ∧ (ldgTakeCmds r s).2.alm = s.alm ∧ (ldgTakeCmds r s).2.hif = s.hif ∧
    (ldgTakeCmds r s).2.evin = s.evin ∧ (ldgTakeCmds r s).2.clk = s.clk ∧ (ldgTakeCmds r s).2.afe = s.afe ∧
    (ldgTakeCmds r s).2.ros = s.ros ∧ (ldgTakeCmds r s).2.tt = s.tt ∧ (ldgTakeCmds r s).2.res = s.res ∧
    (ldgTakeCmds r s).2.out = s.out ∧ (ldgTakeCmds r s).2.nv = s.nv ∧ (ldgTakeCmds r s).2.disc = s.disc ∧
    (ldgTakeCmds r s).2.cal = s.cal ∧ (ldgTakeCmds r s).2.free = s.free ∧ (ldgTakeCmds r s).2.pending = s.pending := by
  have k0 := @lapRefused_frame
  have k1 := @ldgCmdDone_frame
  simp only [ldgTakeCmds, when]
  repeat' split
  all_goals simp [k0, k1]

theorem discardQ_frame (s : State) :
    (discardQ s).pins = s.pins ∧ (discardQ s).pwr = s.pwr ∧ (discardQ s).sys = s.sys ∧ (discardQ s).rtc = s.rtc ∧
    (discardQ s).alm = s.alm ∧ (discardQ s).hif = s.hif ∧ (discardQ s).evt = s.evt ∧ (discardQ s).evin = s.evin ∧
    (discardQ s).afe = s.afe ∧ (discardQ s).ros = s.ros ∧ (discardQ s).tt = s.tt ∧ (discardQ s).res = s.res ∧
    (discardQ s).out = s.out ∧ (discardQ s).ldg = s.ldg ∧ (discardQ s).nv = s.nv ∧ (discardQ s).cond = s.cond ∧
    (discardQ s).disc = s.disc ∧ (discardQ s).cal = s.cal ∧ (discardQ s).mem = s.mem ∧ (discardQ s).free = s.free ∧
    (discardQ s).pending = s.pending := by
  simp only [discardQ, when]
  repeat' split
  all_goals simp

theorem changeRef_frame (s : State) :
    (changeRef s).pins = s.pins ∧ (changeRef s).pwr = s.pwr ∧ (changeRef s).sys = s.sys ∧ (changeRef s).rtc = s.rtc ∧
    (changeRef s).alm = s.alm ∧ (changeRef s).hif = s.hif ∧ (changeRef s).evt = s.evt ∧ (changeRef s).evin = s.evin ∧
    (changeRef s).afe = s.afe ∧ (changeRef s).ros = s.ros ∧ (changeRef s).tt = s.tt ∧ (changeRef s).res = s.res ∧
    (changeRef s).out = s.out ∧ (changeRef s).ldg = s.ldg ∧ (changeRef s).nv = s.nv ∧ (changeRef s).cond = s.cond ∧
    (changeRef s).disc = s.disc ∧ (changeRef s).cal = s.cal ∧ (changeRef s).mem = s.mem ∧
    (changeRef s).free = s.free ∧ (changeRef s).pending = s.pending := by
  have k0 := @discardQ_frame
  simp only [changeRef, when]
  repeat' split
  all_goals simp [k0]

theorem underFallback_frame (a : Acq) (s : State) :
    (underFallback a s).pins = s.pins ∧ (underFallback a s).pwr = s.pwr ∧ (underFallback a s).sys = s.sys ∧
    (underFallback a s).rtc = s.rtc ∧ (underFallback a s).alm = s.alm ∧ (underFallback a s).hif = s.hif ∧
    (underFallback a s).evt = s.evt ∧ (underFallback a s).evin = s.evin ∧ (underFallback a s).afe = s.afe ∧
    (underFallback a s).ros = s.ros ∧ (underFallback a s).tt = s.tt ∧ (underFallback a s).res = s.res ∧
    (underFallback a s).out = s.out ∧ (underFallback a s).ldg = s.ldg ∧ (underFallback a s).nv = s.nv ∧
    (underFallback a s).cond = s.cond ∧ (underFallback a s).disc = s.disc ∧ (underFallback a s).cal = s.cal ∧
    (underFallback a s).mem = s.mem ∧ (underFallback a s).free = s.free ∧ (underFallback a s).pending = s.pending := by
  have k0 := @changeRef_frame
  have k1 := @discardQ_frame
  simp only [underFallback, when]
  repeat' split
  all_goals simp [k0, k1]

theorem dropFast_frame (s : State) :
    (dropFast s).pins = s.pins ∧ (dropFast s).pwr = s.pwr ∧ (dropFast s).sys = s.sys ∧ (dropFast s).rtc = s.rtc ∧
    (dropFast s).alm = s.alm ∧ (dropFast s).hif = s.hif ∧ (dropFast s).evt = s.evt ∧ (dropFast s).clk = s.clk ∧
    (dropFast s).afe = s.afe ∧ (dropFast s).ros = s.ros ∧ (dropFast s).tt = s.tt ∧ (dropFast s).res = s.res ∧
    (dropFast s).out = s.out ∧ (dropFast s).ldg = s.ldg ∧ (dropFast s).nv = s.nv ∧ (dropFast s).cond = s.cond ∧
    (dropFast s).disc = s.disc ∧ (dropFast s).cal = s.cal ∧ (dropFast s).mem = s.mem ∧ (dropFast s).free = s.free ∧
    (dropFast s).pending = s.pending := by
  simp only [dropFast, when]
  repeat' split
  all_goals simp

theorem acqBegin_frame (cause : AcqBy) (s : State) :
    (acqBegin cause s).pins = s.pins ∧ (acqBegin cause s).pwr = s.pwr ∧ (acqBegin cause s).sys = s.sys ∧
    (acqBegin cause s).rtc = s.rtc ∧ (acqBegin cause s).alm = s.alm ∧ (acqBegin cause s).hif = s.hif ∧
    (acqBegin cause s).evt = s.evt ∧ (acqBegin cause s).evin = s.evin ∧ (acqBegin cause s).afe = s.afe ∧
    (acqBegin cause s).ros = s.ros ∧ (acqBegin cause s).tt = s.tt ∧ (acqBegin cause s).res = s.res ∧
    (acqBegin cause s).out = s.out ∧ (acqBegin cause s).ldg = s.ldg ∧ (acqBegin cause s).nv = s.nv ∧
    (acqBegin cause s).cond = s.cond ∧ (acqBegin cause s).disc = s.disc ∧ (acqBegin cause s).cal = s.cal ∧
    (acqBegin cause s).mem = s.mem ∧ (acqBegin cause s).free = s.free ∧ (acqBegin cause s).pending = s.pending := by
  simp only [acqBegin, when]
  repeat' split
  all_goals simp

theorem dropAhead_frame (s : State) :
    (dropAhead s).pins = s.pins ∧ (dropAhead s).pwr = s.pwr ∧ (dropAhead s).sys = s.sys ∧ (dropAhead s).rtc = s.rtc ∧
    (dropAhead s).alm = s.alm ∧ (dropAhead s).hif = s.hif ∧ (dropAhead s).evt = s.evt ∧ (dropAhead s).evin = s.evin ∧
    (dropAhead s).clk = s.clk ∧ (dropAhead s).tt = s.tt ∧ (dropAhead s).res = s.res ∧ (dropAhead s).out = s.out ∧
    (dropAhead s).ldg = s.ldg ∧ (dropAhead s).nv = s.nv ∧ (dropAhead s).cond = s.cond ∧ (dropAhead s).disc = s.disc ∧
    (dropAhead s).cal = s.cal ∧ (dropAhead s).mem = s.mem ∧ (dropAhead s).free = s.free ∧
    (dropAhead s).pending = s.pending := by
  simp only [dropAhead, when]
  repeat' split
  all_goals simp

theorem haltOnBypass_frame (s : State) :
    (haltOnBypass s).pins = s.pins ∧ (haltOnBypass s).pwr = s.pwr ∧ (haltOnBypass s).sys = s.sys ∧
    (haltOnBypass s).rtc = s.rtc ∧ (haltOnBypass s).alm = s.alm ∧ (haltOnBypass s).hif = s.hif ∧
    (haltOnBypass s).evt = s.evt ∧ (haltOnBypass s).evin = s.evin ∧ (haltOnBypass s).clk = s.clk ∧
    (haltOnBypass s).afe = s.afe ∧ (haltOnBypass s).ros = s.ros ∧ (haltOnBypass s).res = s.res ∧
    (haltOnBypass s).out = s.out ∧ (haltOnBypass s).ldg = s.ldg ∧ (haltOnBypass s).nv = s.nv ∧
    (haltOnBypass s).cond = s.cond ∧ (haltOnBypass s).disc = s.disc ∧ (haltOnBypass s).cal = s.cal ∧
    (haltOnBypass s).mem = s.mem ∧ (haltOnBypass s).free = s.free ∧ (haltOnBypass s).pending = s.pending := by
  simp only [haltOnBypass, when]
  repeat' split
  all_goals simp

theorem lateTrigger_frame (cause : Nat) (lateness : Nat) (fl : LogFlags) (g : Nat × Stamp) (s : State) :
    (lateTrigger cause lateness fl g s).pins = s.pins ∧ (lateTrigger cause lateness fl g s).pwr = s.pwr ∧
    (lateTrigger cause lateness fl g s).sys = s.sys ∧ (lateTrigger cause lateness fl g s).rtc = s.rtc ∧
    (lateTrigger cause lateness fl g s).alm = s.alm ∧ (lateTrigger cause lateness fl g s).hif = s.hif ∧
    (lateTrigger cause lateness fl g s).clk = s.clk ∧ (lateTrigger cause lateness fl g s).afe = s.afe ∧
    (lateTrigger cause lateness fl g s).ros = s.ros ∧ (lateTrigger cause lateness fl g s).tt = s.tt ∧
    (lateTrigger cause lateness fl g s).res = s.res ∧ (lateTrigger cause lateness fl g s).out = s.out ∧
    (lateTrigger cause lateness fl g s).ldg = s.ldg ∧ (lateTrigger cause lateness fl g s).nv = s.nv ∧
    (lateTrigger cause lateness fl g s).cond = s.cond ∧ (lateTrigger cause lateness fl g s).disc = s.disc ∧
    (lateTrigger cause lateness fl g s).cal = s.cal ∧ (lateTrigger cause lateness fl g s).free = s.free ∧
    (lateTrigger cause lateness fl g s).pending = s.pending := by
  have k0 := @logRecord_frame
  simp only [lateTrigger, when]
  repeat' split
  all_goals simp [k0]

theorem dropAwait_frame (s : State) :
    (dropAwait s).pins = s.pins ∧ (dropAwait s).pwr = s.pwr ∧ (dropAwait s).sys = s.sys ∧ (dropAwait s).rtc = s.rtc ∧
    (dropAwait s).alm = s.alm ∧ (dropAwait s).hif = s.hif ∧ (dropAwait s).clk = s.clk ∧ (dropAwait s).afe = s.afe ∧
    (dropAwait s).ros = s.ros ∧ (dropAwait s).res = s.res ∧ (dropAwait s).out = s.out ∧ (dropAwait s).ldg = s.ldg ∧
    (dropAwait s).nv = s.nv ∧ (dropAwait s).cond = s.cond ∧ (dropAwait s).disc = s.disc ∧ (dropAwait s).cal = s.cal ∧
    (dropAwait s).free = s.free ∧ (dropAwait s).pending = s.pending := by
  have k0 := @lateTrigger_frame
  simp only [dropAwait, when]
  repeat' split
  all_goals simp [k0]

theorem dropQueued_frame (s : State) :
    (dropQueued s).pins = s.pins ∧ (dropQueued s).pwr = s.pwr ∧ (dropQueued s).sys = s.sys ∧
    (dropQueued s).rtc = s.rtc ∧ (dropQueued s).alm = s.alm ∧ (dropQueued s).hif = s.hif ∧
    (dropQueued s).clk = s.clk ∧ (dropQueued s).afe = s.afe ∧ (dropQueued s).ros = s.ros ∧
    (dropQueued s).res = s.res ∧ (dropQueued s).out = s.out ∧ (dropQueued s).ldg = s.ldg ∧ (dropQueued s).nv = s.nv ∧
    (dropQueued s).cond = s.cond ∧ (dropQueued s).disc = s.disc ∧ (dropQueued s).cal = s.cal ∧
    (dropQueued s).free = s.free ∧ (dropQueued s).pending = s.pending := by
  have k0 := @lateTrigger_frame
  simp only [dropQueued, when]
  repeat' split
  all_goals simp [k0]

theorem acqFailed_frame (err : BitVec 3) (s : State) :
    (acqFailed err s).pins = s.pins ∧ (acqFailed err s).pwr = s.pwr ∧ (acqFailed err s).sys = s.sys ∧
    (acqFailed err s).rtc = s.rtc ∧ (acqFailed err s).alm = s.alm ∧ (acqFailed err s).hif = s.hif ∧
    (acqFailed err s).res = s.res ∧ (acqFailed err s).out = s.out ∧ (acqFailed err s).ldg = s.ldg ∧
    (acqFailed err s).nv = s.nv ∧ (acqFailed err s).cond = s.cond ∧ (acqFailed err s).disc = s.disc ∧
    (acqFailed err s).cal = s.cal ∧ (acqFailed err s).free = s.free ∧ (acqFailed err s).pending = s.pending := by
  have k0 := @changeRef_frame
  have k1 := @dropAhead_frame
  have k2 := @dropAwait_frame
  have k3 := @dropFast_frame
  have k4 := @dropQueued_frame
  have k5 := @haltOnBypass_frame
  simp only [acqFailed, when]
  repeat' split
  all_goals simp [k0, k1, k2, k3, k4, k5]

theorem retry_frame (s : State) :
    (retry s).pins = s.pins ∧ (retry s).pwr = s.pwr ∧ (retry s).sys = s.sys ∧ (retry s).rtc = s.rtc ∧
    (retry s).alm = s.alm ∧ (retry s).hif = s.hif ∧ (retry s).res = s.res ∧ (retry s).out = s.out ∧
    (retry s).ldg = s.ldg ∧ (retry s).nv = s.nv ∧ (retry s).cond = s.cond ∧ (retry s).disc = s.disc ∧
    (retry s).cal = s.cal ∧ (retry s).free = s.free ∧ (retry s).pending = s.pending := by
  have k0 := @acqBegin_frame
  have k1 := @acqFailed_frame
  simp only [retry, when]
  repeat' split
  all_goals simp [k0, k1]

theorem acqFail_frame (err : BitVec 3) (s : State) :
    (acqFail err s).pins = s.pins ∧ (acqFail err s).pwr = s.pwr ∧ (acqFail err s).sys = s.sys ∧
    (acqFail err s).rtc = s.rtc ∧ (acqFail err s).alm = s.alm ∧ (acqFail err s).hif = s.hif ∧
    (acqFail err s).res = s.res ∧ (acqFail err s).out = s.out ∧ (acqFail err s).ldg = s.ldg ∧
    (acqFail err s).nv = s.nv ∧ (acqFail err s).cond = s.cond ∧ (acqFail err s).disc = s.disc ∧
    (acqFail err s).cal = s.cal ∧ (acqFail err s).free = s.free ∧ (acqFail err s).pending = s.pending := by
  have k0 := @acqFailed_frame
  have k1 := @retry_frame
  simp only [acqFail, when]
  repeat' split
  all_goals simp [k0, k1]

theorem acquire_frame (cause : AcqBy) (s : State) :
    (acquire cause s).pins = s.pins ∧ (acquire cause s).pwr = s.pwr ∧ (acquire cause s).sys = s.sys ∧
    (acquire cause s).rtc = s.rtc ∧ (acquire cause s).alm = s.alm ∧ (acquire cause s).hif = s.hif ∧
    (acquire cause s).res = s.res ∧ (acquire cause s).out = s.out ∧ (acquire cause s).ldg = s.ldg ∧
    (acquire cause s).nv = s.nv ∧ (acquire cause s).cond = s.cond ∧ (acquire cause s).disc = s.disc ∧
    (acquire cause s).cal = s.cal ∧ (acquire cause s).free = s.free ∧ (acquire cause s).pending = s.pending := by
  have k0 := @acqBegin_frame
  have k1 := @acqFail_frame
  simp only [acquire, when]
  repeat' split
  all_goals simp [k0, k1]

@[simp] theorem wakeHf_frame (cause : AcqBy) (s : State) :
    (wakeHf cause s).pins = s.pins ∧ (wakeHf cause s).pwr = s.pwr ∧ (wakeHf cause s).sys = s.sys ∧
    (wakeHf cause s).rtc = s.rtc ∧ (wakeHf cause s).alm = s.alm ∧ (wakeHf cause s).hif = s.hif ∧
    (wakeHf cause s).res = s.res ∧ (wakeHf cause s).out = s.out ∧ (wakeHf cause s).ldg = s.ldg ∧
    (wakeHf cause s).nv = s.nv ∧ (wakeHf cause s).cond = s.cond ∧ (wakeHf cause s).disc = s.disc ∧
    (wakeHf cause s).cal = s.cal ∧ (wakeHf cause s).free = s.free ∧ (wakeHf cause s).pending = s.pending := by
  have k0 := @acquire_frame
  simp only [wakeHf, when]
  repeat' split
  all_goals simp [k0]

theorem park_frame (s : State) :
    (park s).pins = s.pins ∧ (park s).pwr = s.pwr ∧ (park s).sys = s.sys ∧ (park s).rtc = s.rtc ∧
    (park s).alm = s.alm ∧ (park s).hif = s.hif ∧ (park s).evt = s.evt ∧ (park s).tt = s.tt ∧ (park s).res = s.res ∧
    (park s).out = s.out ∧ (park s).ldg = s.ldg ∧ (park s).nv = s.nv ∧ (park s).cond = s.cond ∧
    (park s).disc = s.disc ∧ (park s).cal = s.cal ∧ (park s).mem = s.mem ∧ (park s).free = s.free ∧
    (park s).pending = s.pending := by
  have k0 := @dropAhead_frame
  have k1 := @dropFast_frame
  simp only [park, when]
  repeat' split
  all_goals simp [k0, k1]

theorem bypassIn_frame (s : State) :
    (bypassIn s).pins = s.pins ∧ (bypassIn s).pwr = s.pwr ∧ (bypassIn s).sys = s.sys ∧ (bypassIn s).rtc = s.rtc ∧
    (bypassIn s).alm = s.alm ∧ (bypassIn s).hif = s.hif ∧ (bypassIn s).afe = s.afe ∧ (bypassIn s).ros = s.ros ∧
    (bypassIn s).tt = s.tt ∧ (bypassIn s).res = s.res ∧ (bypassIn s).out = s.out ∧ (bypassIn s).ldg = s.ldg ∧
    (bypassIn s).nv = s.nv ∧ (bypassIn s).cond = s.cond ∧ (bypassIn s).disc = s.disc ∧ (bypassIn s).cal = s.cal ∧
    (bypassIn s).mem = s.mem ∧ (bypassIn s).free = s.free ∧ (bypassIn s).pending = s.pending := by
  have k0 := @dropFast_frame
  simp only [bypassIn, when]
  repeat' split
  all_goals simp [k0]

theorem bypassOut_frame (s : State) :
    (bypassOut s).pins = s.pins ∧ (bypassOut s).pwr = s.pwr ∧ (bypassOut s).sys = s.sys ∧ (bypassOut s).rtc = s.rtc ∧
    (bypassOut s).alm = s.alm ∧ (bypassOut s).hif = s.hif ∧ (bypassOut s).evin = s.evin ∧ (bypassOut s).afe = s.afe ∧
    (bypassOut s).ros = s.ros ∧ (bypassOut s).res = s.res ∧ (bypassOut s).out = s.out ∧ (bypassOut s).ldg = s.ldg ∧
    (bypassOut s).nv = s.nv ∧ (bypassOut s).cond = s.cond ∧ (bypassOut s).disc = s.disc ∧ (bypassOut s).cal = s.cal ∧
    (bypassOut s).mem = s.mem ∧ (bypassOut s).free = s.free ∧ (bypassOut s).pending = s.pending := by
  simp only [bypassOut, when]
  repeat' split
  all_goals simp

end Sys2Proof.Machine
end

