-- ==== Sys2Proof/Laws/FrameSequencer.lean ====
section
/-! SUPPORT. What each shared operation of these units leaves unchanged: the top-level parts of State it never writes.
Cited instead of unfolding the operation; those of the operations a meaning calls itself are simp lemmas, the others serve `simp` as
a hypothesis (`have h := @name`). -/

set_option linter.unusedSimpArgs false
set_option linter.unusedTactic false

namespace Sys2Proof.Machine

theorem presettleFor_frame (c : Carriage) (s : State) :
    (presettleFor c s).pins = s.pins ∧ (presettleFor c s).pwr = s.pwr ∧ (presettleFor c s).sys = s.sys ∧
    (presettleFor c s).rtc = s.rtc ∧ (presettleFor c s).alm = s.alm ∧ (presettleFor c s).hif = s.hif ∧
    (presettleFor c s).evt = s.evt ∧ (presettleFor c s).evin = s.evin ∧ (presettleFor c s).clk = s.clk ∧
    (presettleFor c s).ros = s.ros ∧ (presettleFor c s).tt = s.tt ∧ (presettleFor c s).res = s.res ∧
    (presettleFor c s).out = s.out ∧ (presettleFor c s).ldg = s.ldg ∧ (presettleFor c s).nv = s.nv ∧
    (presettleFor c s).cond = s.cond ∧ (presettleFor c s).disc = s.disc ∧ (presettleFor c s).cal = s.cal ∧
    (presettleFor c s).mem = s.mem ∧ (presettleFor c s).free = s.free ∧ (presettleFor c s).pending = s.pending := by
  simp only [presettleFor, when]
  repeat' split
  all_goals simp

theorem fetchGroup_frame (cs : List Carriage) (q : Nat) (s : State) :
    (fetchGroup cs q s).pins = s.pins ∧ (fetchGroup cs q s).pwr = s.pwr ∧ (fetchGroup cs q s).sys = s.sys ∧
    (fetchGroup cs q s).rtc = s.rtc ∧ (fetchGroup cs q s).alm = s.alm ∧ (fetchGroup cs q s).hif = s.hif ∧
    (fetchGroup cs q s).evt = s.evt ∧ (fetchGroup cs q s).evin = s.evin ∧ (fetchGroup cs q s).clk = s.clk ∧
    (fetchGroup cs q s).tt = s.tt ∧ (fetchGroup cs q s).res = s.res ∧ (fetchGroup cs q s).out = s.out ∧
    (fetchGroup cs q s).ldg = s.ldg ∧ (fetchGroup cs q s).nv = s.nv ∧ (fetchGroup cs q s).cond = s.cond ∧
    (fetchGroup cs q s).disc = s.disc ∧ (fetchGroup cs q s).cal = s.cal ∧ (fetchGroup cs q s).mem = s.mem ∧
    (fetchGroup cs q s).free = s.free ∧ (fetchGroup cs q s).pending = s.pending := by
  have k0 := @fetch_frame
  have k1 := @presettleFor_frame
  simp only [fetchGroup, when]
  repeat' split
  all_goals simp [k0, k1]

theorem fetchFirst_frame (s : State) :
    (fetchFirst s).pins = s.pins ∧ (fetchFirst s).pwr = s.pwr ∧ (fetchFirst s).sys = s.sys ∧
    (fetchFirst s).rtc = s.rtc ∧ (fetchFirst s).alm = s.alm ∧ (fetchFirst s).hif = s.hif ∧
    (fetchFirst s).evt = s.evt ∧ (fetchFirst s).evin = s.evin ∧ (fetchFirst s).clk = s.clk ∧
    (fetchFirst s).tt = s.tt ∧ (fetchFirst s).res = s.res ∧ (fetchFirst s).out = s.out ∧ (fetchFirst s).ldg = s.ldg ∧
    (fetchFirst s).nv = s.nv ∧ (fetchFirst s).cond = s.cond ∧ (fetchFirst s).disc = s.disc ∧
    (fetchFirst s).cal = s.cal ∧ (fetchFirst s).mem = s.mem ∧ (fetchFirst s).free = s.free ∧
    (fetchFirst s).pending = s.pending := by
  have k0 := @fetchGroup_frame
  simp only [fetchFirst, when]
  repeat' split
  all_goals simp [k0]

theorem restartDivider_frame (a : Nat) (s : State) :
    (restartDivider a s).pins = s.pins ∧ (restartDivider a s).pwr = s.pwr ∧ (restartDivider a s).sys = s.sys ∧
    (restartDivider a s).rtc = s.rtc ∧ (restartDivider a s).alm = s.alm ∧ (restartDivider a s).hif = s.hif ∧
    (restartDivider a s).afe = s.afe ∧ (restartDivider a s).ros = s.ros ∧ (restartDivider a s).res = s.res ∧
    (restartDivider a s).nv = s.nv ∧ (restartDivider a s).cond = s.cond ∧ (restartDivider a s).disc = s.disc ∧
    (restartDivider a s).cal = s.cal ∧ (restartDivider a s).mem = s.mem ∧ (restartDivider a s).free = s.free ∧
    (restartDivider a s).pending = s.pending := by
  simp only [restartDivider, when]
  repeat' split
  all_goals simp

theorem alignTo_frame (m : Moment) (code : Nat) (s : State) :
    (alignTo m code s).pins = s.pins ∧ (alignTo m code s).pwr = s.pwr ∧ (alignTo m code s).sys = s.sys ∧
    (alignTo m code s).rtc = s.rtc ∧ (alignTo m code s).alm = s.alm ∧ (alignTo m code s).hif = s.hif ∧
    (alignTo m code s).afe = s.afe ∧ (alignTo m code s).ros = s.ros ∧ (alignTo m code s).res = s.res ∧
    (alignTo m code s).nv = s.nv ∧ (alignTo m code s).cond = s.cond ∧ (alignTo m code s).disc = s.disc ∧
    (alignTo m code s).cal = s.cal ∧ (alignTo m code s).mem = s.mem ∧ (alignTo m code s).free = s.free ∧
    (alignTo m code s).pending = s.pending := by
  have k0 := @restartDivider_frame
  simp only [alignTo, when]
  repeat' split
  all_goals simp [k0]

theorem awaitFrame_frame (g : Trig) (gs : List Trig) (m : Moment) (s : State) :
    (awaitFrame g gs m s).pins = s.pins ∧ (awaitFrame g gs m s).pwr = s.pwr ∧ (awaitFrame g gs m s).rtc = s.rtc ∧
    (awaitFrame g gs m s).alm = s.alm ∧ (awaitFrame g gs m s).hif = s.hif ∧ (awaitFrame g gs m s).res = s.res ∧
    (awaitFrame g gs m s).nv = s.nv ∧ (awaitFrame g gs m s).cond = s.cond ∧ (awaitFrame g gs m s).disc = s.disc ∧
    (awaitFrame g gs m s).cal = s.cal ∧ (awaitFrame g gs m s).free = s.free ∧
    (awaitFrame g gs m s).pending = s.pending := by
  have k0 := @alignTo_frame
  have k1 := @fetchFirst_frame
  simp only [awaitFrame, when]
  repeat' split
  all_goals simp [k0, k1]

theorem joinAwait_frame (g : Trig) (gs : List Trig) (m : Moment) (a : Await) (s : State) :
    (joinAwait g gs m a s).pins = s.pins ∧ (joinAwait g gs m a s).pwr = s.pwr ∧ (joinAwait g gs m a s).sys = s.sys ∧
    (joinAwait g gs m a s).rtc = s.rtc ∧ (joinAwait g gs m a s).alm = s.alm ∧ (joinAwait g gs m a s).hif = s.hif ∧
    (joinAwait g gs m a s).afe = s.afe ∧ (joinAwait g gs m a s).ros = s.ros ∧ (joinAwait g gs m a s).res = s.res ∧
    (joinAwait g gs m a s).nv = s.nv ∧ (joinAwait g gs m a s).cond = s.cond ∧ (joinAwait g gs m a s).disc = s.disc ∧
    (joinAwait g gs m a s).cal = s.cal ∧ (joinAwait g gs m a s).mem = s.mem ∧ (joinAwait g gs m a s).free = s.free ∧
    (joinAwait g gs m a s).pending = s.pending := by
  have k0 := @alignTo_frame
  simp only [joinAwait, when]
  repeat' split
  all_goals simp [k0]

theorem joinQueued_frame (g : Trig) (gs : List Trig) (x : Queued) (s : State) :
    (joinQueued g gs x s).pins = s.pins ∧ (joinQueued g gs x s).pwr = s.pwr ∧ (joinQueued g gs x s).sys = s.sys ∧
    (joinQueued g gs x s).rtc = s.rtc ∧ (joinQueued g gs x s).alm = s.alm ∧ (joinQueued g gs x s).hif = s.hif ∧
    (joinQueued g gs x s).evt = s.evt ∧ (joinQueued g gs x s).evin = s.evin ∧ (joinQueued g gs x s).clk = s.clk ∧
    (joinQueued g gs x s).afe = s.afe ∧ (joinQueued g gs x s).ros = s.ros ∧ (joinQueued g gs x s).res = s.res ∧
    (joinQueued g gs x s).out = s.out ∧ (joinQueued g gs x s).ldg = s.ldg ∧ (joinQueued g gs x s).nv = s.nv ∧
    (joinQueued g gs x s).cond = s.cond ∧ (joinQueued g gs x s).disc = s.disc ∧ (joinQueued g gs x s).cal = s.cal ∧
    (joinQueued g gs x s).mem = s.mem ∧ (joinQueued g gs x s).free = s.free ∧
    (joinQueued g gs x s).pending = s.pending := by
  simp only [joinQueued, when]
  repeat' split
  all_goals simp

theorem deliver_frame (gs : List Trig) (m : Moment) (s : State) :
    (deliver gs m s).pins = s.pins ∧ (deliver gs m s).pwr = s.pwr ∧ (deliver gs m s).rtc = s.rtc ∧
    (deliver gs m s).alm = s.alm ∧ (deliver gs m s).hif = s.hif ∧ (deliver gs m s).res = s.res ∧
    (deliver gs m s).nv = s.nv ∧ (deliver gs m s).cond = s.cond ∧ (deliver gs m s).disc = s.disc ∧
    (deliver gs m s).cal = s.cal ∧ (deliver gs m s).free = s.free ∧ (deliver gs m s).pending = s.pending := by
  have k0 := @awaitFrame_frame
  have k1 := @joinAwait_frame
  have k2 := @joinQueued_frame
  have k3 := @lateTrigger_frame
  simp only [deliver, when]
  repeat' split
  all_goals simp [k0, k1, k2, k3]

theorem logOcc_frame (reg : Stamp) (coin reached : Bool) (o : Occ) (s : State) :
    (logOcc reg coin reached o s).pins = s.pins ∧ (logOcc reg coin reached o s).pwr = s.pwr ∧
    (logOcc reg coin reached o s).sys = s.sys ∧ (logOcc reg coin reached o s).rtc = s.rtc ∧
    (logOcc reg coin reached o s).alm = s.alm ∧ (logOcc reg coin reached o s).hif = s.hif ∧
    (logOcc reg coin reached o s).clk = s.clk ∧ (logOcc reg coin reached o s).afe = s.afe ∧
    (logOcc reg coin reached o s).ros = s.ros ∧ (logOcc reg coin reached o s).tt = s.tt ∧
    (logOcc reg coin reached o s).res = s.res ∧ (logOcc reg coin reached o s).out = s.out ∧
    (logOcc reg coin reached o s).ldg = s.ldg ∧ (logOcc reg coin reached o s).nv = s.nv ∧
    (logOcc reg coin reached o s).cond = s.cond ∧ (logOcc reg coin reached o s).disc = s.disc ∧
    (logOcc reg coin reached o s).cal = s.cal ∧ (logOcc reg coin reached o s).free = s.free ∧
    (logOcc reg coin reached o s).pending = s.pending := by
  have k0 := @logRecord_frame
  simp only [logOcc, when]
  repeat' split
  all_goals simp [k0]

theorem moveMarks_frame (o : Occ) (s : State) :
    (moveMarks o s).pins = s.pins ∧ (moveMarks o s).pwr = s.pwr ∧ (moveMarks o s).sys = s.sys ∧
    (moveMarks o s).rtc = s.rtc ∧ (moveMarks o s).alm = s.alm ∧ (moveMarks o s).hif = s.hif ∧
    (moveMarks o s).evt = s.evt ∧ (moveMarks o s).evin = s.evin ∧ (moveMarks o s).clk = s.clk ∧
    (moveMarks o s).afe = s.afe ∧ (moveMarks o s).ros = s.ros ∧ (moveMarks o s).res = s.res ∧
    (moveMarks o s).out = s.out ∧ (moveMarks o s).ldg = s.ldg ∧ (moveMarks o s).nv = s.nv ∧
    (moveMarks o s).cond = s.cond ∧ (moveMarks o s).disc = s.disc ∧ (moveMarks o s).cal = s.cal ∧
    (moveMarks o s).mem = s.mem ∧ (moveMarks o s).free = s.free ∧ (moveMarks o s).pending = s.pending := by
  simp only [moveMarks, when]
  repeat' split
  all_goals simp

theorem noteOcc_frame (q : Option Nat) (o : Occ) (s : State) :
    (noteOcc q o s).pins = s.pins ∧ (noteOcc q o s).pwr = s.pwr ∧ (noteOcc q o s).sys = s.sys ∧
    (noteOcc q o s).rtc = s.rtc ∧ (noteOcc q o s).alm = s.alm ∧ (noteOcc q o s).hif = s.hif ∧
    (noteOcc q o s).evt = s.evt ∧ (noteOcc q o s).evin = s.evin ∧ (noteOcc q o s).clk = s.clk ∧
    (noteOcc q o s).afe = s.afe ∧ (noteOcc q o s).ros = s.ros ∧ (noteOcc q o s).res = s.res ∧
    (noteOcc q o s).out = s.out ∧ (noteOcc q o s).ldg = s.ldg ∧ (noteOcc q o s).nv = s.nv ∧
    (noteOcc q o s).cond = s.cond ∧ (noteOcc q o s).disc = s.disc ∧ (noteOcc q o s).cal = s.cal ∧
    (noteOcc q o s).mem = s.mem ∧ (noteOcc q o s).free = s.free ∧ (noteOcc q o s).pending = s.pending := by
  simp only [noteOcc, when]
  repeat' split
  all_goals simp

theorem amendOne_frame (reg : Stamp) (r : LogMark) (s : State) :
    (amendOne reg r s).pins = s.pins ∧ (amendOne reg r s).pwr = s.pwr ∧ (amendOne reg r s).sys = s.sys ∧
    (amendOne reg r s).rtc = s.rtc ∧ (amendOne reg r s).alm = s.alm ∧ (amendOne reg r s).hif = s.hif ∧
    (amendOne reg r s).evt = s.evt ∧ (amendOne reg r s).evin = s.evin ∧ (amendOne reg r s).clk = s.clk ∧
    (amendOne reg r s).afe = s.afe ∧ (amendOne reg r s).ros = s.ros ∧ (amendOne reg r s).tt = s.tt ∧
    (amendOne reg r s).res = s.res ∧ (amendOne reg r s).out = s.out ∧ (amendOne reg r s).ldg = s.ldg ∧
    (amendOne reg r s).nv = s.nv ∧ (amendOne reg r s).cond = s.cond ∧ (amendOne reg r s).disc = s.disc ∧
    (amendOne reg r s).cal = s.cal ∧ (amendOne reg r s).free = s.free ∧ (amendOne reg r s).pending = s.pending := by
  simp only [amendOne, when]
  repeat' split
  all_goals simp

theorem amendGroup_frame (f : Fate) (m : Moment) (s : State) :
    (amendGroup f m s).pins = s.pins ∧ (amendGroup f m s).pwr = s.pwr ∧ (amendGroup f m s).sys = s.sys ∧
    (amendGroup f m s).rtc = s.rtc ∧ (amendGroup f m s).alm = s.alm ∧ (amendGroup f m s).hif = s.hif ∧
    (amendGroup f m s).evt = s.evt ∧ (amendGroup f m s).evin = s.evin ∧ (amendGroup f m s).clk = s.clk ∧
    (amendGroup f m s).afe = s.afe ∧ (amendGroup f m s).ros = s.ros ∧ (amendGroup f m s).tt = s.tt ∧
    (amendGroup f m s).res = s.res ∧ (amendGroup f m s).out = s.out ∧ (amendGroup f m s).ldg = s.ldg ∧
    (amendGroup f m s).nv = s.nv ∧ (amendGroup f m s).cond = s.cond ∧ (amendGroup f m s).disc = s.disc ∧
    (amendGroup f m s).cal = s.cal ∧ (amendGroup f m s).free = s.free ∧ (amendGroup f m s).pending = s.pending := by
  have k0 := @amendOne_frame
  simp only [amendGroup, when]
  repeat' split
  all_goals simp [k0]

@[simp] theorem register_frame (m : Moment) (os : List Occ) (s : State) :
    (register m os s).pins = s.pins ∧ (register m os s).pwr = s.pwr ∧ (register m os s).rtc = s.rtc ∧
    (register m os s).alm = s.alm ∧ (register m os s).hif = s.hif ∧ (register m os s).res = s.res ∧
    (register m os s).nv = s.nv ∧ (register m os s).cond = s.cond ∧ (register m os s).disc = s.disc ∧
    (register m os s).cal = s.cal ∧ (register m os s).free = s.free ∧ (register m os s).pending = s.pending := by
  have k0 := @amendGroup_frame
  have k1 := @deliver_frame
  have k2 := @logOcc_frame
  have k3 := @moveMarks_frame
  have k4 := @noteOcc_frame
  have k5 := @openRecs_frame
  simp only [register, when]
  repeat' split
  all_goals simp [k0, k1, k2, k3, k4, k5]

@[simp] theorem smStep_frame (k c : Nat) (stamp : Stamp) (resumed : Bool) (s : State) :
    (smStep k c stamp resumed s).2.2.pins = s.pins ∧ (smStep k c stamp resumed s).2.2.pwr = s.pwr ∧
    (smStep k c stamp resumed s).2.2.sys = s.sys ∧ (smStep k c stamp resumed s).2.2.rtc = s.rtc ∧
    (smStep k c stamp resumed s).2.2.alm = s.alm ∧ (smStep k c stamp resumed s).2.2.hif = s.hif ∧
    (smStep k c stamp resumed s).2.2.clk = s.clk ∧ (smStep k c stamp resumed s).2.2.afe = s.afe ∧
    (smStep k c stamp resumed s).2.2.ros = s.ros ∧ (smStep k c stamp resumed s).2.2.tt = s.tt ∧
    (smStep k c stamp resumed s).2.2.res = s.res ∧ (smStep k c stamp resumed s).2.2.out = s.out ∧
    (smStep k c stamp resumed s).2.2.ldg = s.ldg ∧ (smStep k c stamp resumed s).2.2.nv = s.nv ∧
    (smStep k c stamp resumed s).2.2.cond = s.cond ∧ (smStep k c stamp resumed s).2.2.disc = s.disc ∧
    (smStep k c stamp resumed s).2.2.cal = s.cal ∧ (smStep k c stamp resumed s).2.2.mem = s.mem ∧
    (smStep k c stamp resumed s).2.2.free = s.free ∧ (smStep k c stamp resumed s).2.2.pending = s.pending := by
  simp only [smStep, when]
  repeat' split
  all_goals simp

theorem smSteps_frame (steps : List (Nat × Nat × Stamp × Bool)) (s : State) :
    (smSteps steps s).2.2.pins = s.pins ∧ (smSteps steps s).2.2.pwr = s.pwr ∧ (smSteps steps s).2.2.sys = s.sys ∧
    (smSteps steps s).2.2.rtc = s.rtc ∧ (smSteps steps s).2.2.alm = s.alm ∧ (smSteps steps s).2.2.hif = s.hif ∧
    (smSteps steps s).2.2.clk = s.clk ∧ (smSteps steps s).2.2.afe = s.afe ∧ (smSteps steps s).2.2.ros = s.ros ∧
    (smSteps steps s).2.2.tt = s.tt ∧ (smSteps steps s).2.2.res = s.res ∧ (smSteps steps s).2.2.out = s.out ∧
    (smSteps steps s).2.2.ldg = s.ldg ∧ (smSteps steps s).2.2.nv = s.nv ∧ (smSteps steps s).2.2.cond = s.cond ∧
    (smSteps steps s).2.2.disc = s.disc ∧ (smSteps steps s).2.2.cal = s.cal ∧ (smSteps steps s).2.2.mem = s.mem ∧
    (smSteps steps s).2.2.free = s.free ∧ (smSteps steps s).2.2.pending = s.pending := by
  unfold smSteps
  generalize hr : (([] : List Occ), 0, s) = r
  have hs : s = r.2.2 := by rw [← hr]
  rw [hs]; clear hr hs
  induction steps generalizing r with
  | nil => simp
  | cons p q ih => simp only [List.foldl_cons, ih, smStep_frame, and_self]

theorem beginFrame_frame (a : Await) (im : Image) (t0 : Nat) (s : State) :
    (beginFrame a im t0 s).pins = s.pins ∧ (beginFrame a im t0 s).pwr = s.pwr ∧ (beginFrame a im t0 s).sys = s.sys ∧
    (beginFrame a im t0 s).rtc = s.rtc ∧ (beginFrame a im t0 s).alm = s.alm ∧ (beginFrame a im t0 s).hif = s.hif ∧
    (beginFrame a im t0 s).evin = s.evin ∧ (beginFrame a im t0 s).res = s.res ∧ (beginFrame a im t0 s).out = s.out ∧
    (beginFrame a im t0 s).ldg = s.ldg ∧ (beginFrame a im t0 s).nv = s.nv ∧ (beginFrame a im t0 s).cond = s.cond ∧
    (beginFrame a im t0 s).cal = s.cal ∧ (beginFrame a im t0 s).mem = s.mem ∧ (beginFrame a im t0 s).free = s.free ∧
    (beginFrame a im t0 s).pending = s.pending := by
  have k0 := @afeFrameStart_frame
  have k1 := @applyPortEn_frame
  have k2 := @applyStages_frame
  have k3 := @fetchGroup_frame
  simp only [beginFrame, when]
  repeat' split
  all_goals simp [k0, k1, k2, k3]

@[simp] theorem frameStart_frame (t : Nat) (s : State) :
    (frameStart t s).pins = s.pins ∧ (frameStart t s).pwr = s.pwr ∧ (frameStart t s).sys = s.sys ∧
    (frameStart t s).rtc = s.rtc ∧ (frameStart t s).alm = s.alm ∧ (frameStart t s).hif = s.hif ∧
    (frameStart t s).evin = s.evin ∧ (frameStart t s).res = s.res ∧ (frameStart t s).out = s.out ∧
    (frameStart t s).ldg = s.ldg ∧ (frameStart t s).nv = s.nv ∧ (frameStart t s).cond = s.cond ∧
    (frameStart t s).cal = s.cal ∧ (frameStart t s).mem = s.mem ∧ (frameStart t s).free = s.free ∧
    (frameStart t s).pending = s.pending := by
  have k0 := @beginFrame_frame
  simp only [frameStart, when]
  repeat' split
  all_goals simp [k0]

theorem failRecord_frame (i : Nat) (reason : Nat) (stamp : Stamp) (started late : Bool) (f : Frame) (s : State) :
    (failRecord i reason stamp started late f s).pins = s.pins ∧
    (failRecord i reason stamp started late f s).pwr = s.pwr ∧
    (failRecord i reason stamp started late f s).sys = s.sys ∧
    (failRecord i reason stamp started late f s).rtc = s.rtc ∧
    (failRecord i reason stamp started late f s).alm = s.alm ∧
    (failRecord i reason stamp started late f s).hif = s.hif ∧
    (failRecord i reason stamp started late f s).evin = s.evin ∧
    (failRecord i reason stamp started late f s).clk = s.clk ∧
    (failRecord i reason stamp started late f s).afe = s.afe ∧
    (failRecord i reason stamp started late f s).ros = s.ros ∧
    (failRecord i reason stamp started late f s).tt = s.tt ∧
    (failRecord i reason stamp started late f s).ldg = s.ldg ∧
    (failRecord i reason stamp started late f s).nv = s.nv ∧
    (failRecord i reason stamp started late f s).cond = s.cond ∧
    (failRecord i reason stamp started late f s).disc = s.disc ∧
    (failRecord i reason stamp started late f s).cal = s.cal ∧
    (failRecord i reason stamp started late f s).free = s.free ∧
    (failRecord i reason stamp started late f s).pending = s.pending := by
  have k0 := @aoutFailed_frame
  have k1 := @resultRecord_frame
  simp only [failRecord, when]
  repeat' split
  all_goals simp [k0, k1]

theorem markRecord_frame (i : Nat) (f : Frame) (s : State) :
    (markRecord i f s).pins = s.pins ∧ (markRecord i f s).pwr = s.pwr ∧ (markRecord i f s).sys = s.sys ∧
    (markRecord i f s).rtc = s.rtc ∧ (markRecord i f s).alm = s.alm ∧ (markRecord i f s).hif = s.hif ∧
    (markRecord i f s).evin = s.evin ∧ (markRecord i f s).clk = s.clk ∧ (markRecord i f s).afe = s.afe ∧
    (markRecord i f s).ros = s.ros ∧ (markRecord i f s).tt = s.tt ∧ (markRecord i f s).out = s.out ∧
    (markRecord i f s).ldg = s.ldg ∧ (markRecord i f s).nv = s.nv ∧ (markRecord i f s).cond = s.cond ∧
    (markRecord i f s).disc = s.disc ∧ (markRecord i f s).cal = s.cal ∧ (markRecord i f s).free = s.free ∧
    (markRecord i f s).pending = s.pending := by
  have k0 := @resultRecord_frame
  simp only [markRecord, when]
  repeat' split
  all_goals simp [k0]

theorem markFailRecord_frame (f : Frame) (s : State) :
    (markFailRecord f s).pins = s.pins ∧ (markFailRecord f s).pwr = s.pwr ∧ (markFailRecord f s).sys = s.sys ∧
    (markFailRecord f s).rtc = s.rtc ∧ (markFailRecord f s).alm = s.alm ∧ (markFailRecord f s).hif = s.hif ∧
    (markFailRecord f s).evin = s.evin ∧ (markFailRecord f s).clk = s.clk ∧ (markFailRecord f s).afe = s.afe ∧
    (markFailRecord f s).ros = s.ros ∧ (markFailRecord f s).tt = s.tt ∧ (markFailRecord f s).out = s.out ∧
    (markFailRecord f s).ldg = s.ldg ∧ (markFailRecord f s).nv = s.nv ∧ (markFailRecord f s).cond = s.cond ∧
    (markFailRecord f s).disc = s.disc ∧ (markFailRecord f s).cal = s.cal ∧ (markFailRecord f s).free = s.free ∧
    (markFailRecord f s).pending = s.pending := by
  have k0 := @resultRecord_frame
  simp only [markFailRecord, when]
  repeat' split
  all_goals simp [k0]

theorem keepLast_frame (f : Frame) (i : Nat) (s : State) :
    (keepLast f i s).pins = s.pins ∧ (keepLast f i s).pwr = s.pwr ∧ (keepLast f i s).sys = s.sys ∧
    (keepLast f i s).rtc = s.rtc ∧ (keepLast f i s).alm = s.alm ∧ (keepLast f i s).hif = s.hif ∧
    (keepLast f i s).evt = s.evt ∧ (keepLast f i s).evin = s.evin ∧ (keepLast f i s).clk = s.clk ∧
    (keepLast f i s).afe = s.afe ∧ (keepLast f i s).tt = s.tt ∧ (keepLast f i s).res = s.res ∧
    (keepLast f i s).out = s.out ∧ (keepLast f i s).ldg = s.ldg ∧ (keepLast f i s).nv = s.nv ∧
    (keepLast f i s).cond = s.cond ∧ (keepLast f i s).disc = s.disc ∧ (keepLast f i s).cal = s.cal ∧
    (keepLast f i s).mem = s.mem ∧ (keepLast f i s).free = s.free ∧ (keepLast f i s).pending = s.pending := by
  simp only [keepLast, when]
  repeat' split
  all_goals simp

theorem endRecords_frame (f : Frame) (i : Nat) (s : State) :
    (endRecords f i s).pins = s.pins ∧ (endRecords f i s).pwr = s.pwr ∧ (endRecords f i s).sys = s.sys ∧
    (endRecords f i s).rtc = s.rtc ∧ (endRecords f i s).alm = s.alm ∧ (endRecords f i s).hif = s.hif ∧
    (endRecords f i s).evin = s.evin ∧ (endRecords f i s).clk = s.clk ∧ (endRecords f i s).afe = s.afe ∧
    (endRecords f i s).ros = s.ros ∧ (endRecords f i s).tt = s.tt ∧ (endRecords f i s).ldg = s.ldg ∧
    (endRecords f i s).nv = s.nv ∧ (endRecords f i s).cond = s.cond ∧ (endRecords f i s).disc = s.disc ∧
    (endRecords f i s).cal = s.cal ∧ (endRecords f i s).free = s.free ∧ (endRecords f i s).pending = s.pending := by
  have k0 := @aoutOk_frame
  have k1 := @failRecord_frame
  have k2 := @markRecord_frame
  have k3 := @resultRecord_frame
  simp only [endRecords, when]
  repeat' split
  all_goals simp [k0, k1, k2, k3]

theorem finish_frame (i : Nat) (s : State) :
    (finish i s).pins = s.pins ∧ (finish i s).pwr = s.pwr ∧ (finish i s).sys = s.sys ∧ (finish i s).rtc = s.rtc ∧
    (finish i s).alm = s.alm ∧ (finish i s).hif = s.hif ∧ (finish i s).evin = s.evin ∧ (finish i s).clk = s.clk ∧
    (finish i s).afe = s.afe ∧ (finish i s).ldg = s.ldg ∧ (finish i s).nv = s.nv ∧ (finish i s).cond = s.cond ∧
    (finish i s).disc = s.disc ∧ (finish i s).cal = s.cal ∧ (finish i s).free = s.free ∧
    (finish i s).pending = s.pending := by
  have k0 := @endRecords_frame
  have k1 := @keepLast_frame
  simp only [finish, when]
  repeat' split
  all_goals simp [k0, k1]

theorem finishUpTo_frame (q : Nat) (s : State) :
    (finishUpTo q s).pins = s.pins ∧ (finishUpTo q s).pwr = s.pwr ∧ (finishUpTo q s).sys = s.sys ∧
    (finishUpTo q s).rtc = s.rtc ∧ (finishUpTo q s).alm = s.alm ∧ (finishUpTo q s).hif = s.hif ∧
    (finishUpTo q s).evin = s.evin ∧ (finishUpTo q s).clk = s.clk ∧ (finishUpTo q s).afe = s.afe ∧
    (finishUpTo q s).ldg = s.ldg ∧ (finishUpTo q s).nv = s.nv ∧ (finishUpTo q s).cond = s.cond ∧
    (finishUpTo q s).disc = s.disc ∧ (finishUpTo q s).cal = s.cal ∧ (finishUpTo q s).free = s.free ∧
    (finishUpTo q s).pending = s.pending := by
  have k0 := @finish_frame
  simp only [finishUpTo, when]
  repeat' split
  all_goals simp [k0]

theorem mapRuns_frame (p : Carriage → CarRun → Bool) (g : Carriage → CarRun → CarRun) (s : State) :
    (mapRuns p g s).pins = s.pins ∧ (mapRuns p g s).pwr = s.pwr ∧ (mapRuns p g s).sys = s.sys ∧
    (mapRuns p g s).rtc = s.rtc ∧ (mapRuns p g s).alm = s.alm ∧ (mapRuns p g s).hif = s.hif ∧
    (mapRuns p g s).evt = s.evt ∧ (mapRuns p g s).evin = s.evin ∧ (mapRuns p g s).clk = s.clk ∧
    (mapRuns p g s).afe = s.afe ∧ (mapRuns p g s).ros = s.ros ∧ (mapRuns p g s).res = s.res ∧
    (mapRuns p g s).out = s.out ∧ (mapRuns p g s).ldg = s.ldg ∧ (mapRuns p g s).nv = s.nv ∧
    (mapRuns p g s).cond = s.cond ∧ (mapRuns p g s).disc = s.disc ∧ (mapRuns p g s).cal = s.cal ∧
    (mapRuns p g s).mem = s.mem ∧ (mapRuns p g s).free = s.free ∧ (mapRuns p g s).pending = s.pending := by
  simp only [mapRuns, when]
  repeat' split
  all_goals simp

theorem carriagesGone_frame (k : Nat) (s : State) :
    (carriagesGone k s).pins = s.pins ∧ (carriagesGone k s).pwr = s.pwr ∧ (carriagesGone k s).sys = s.sys ∧
    (carriagesGone k s).rtc = s.rtc ∧ (carriagesGone k s).alm = s.alm ∧ (carriagesGone k s).hif = s.hif ∧
    (carriagesGone k s).evt = s.evt ∧ (carriagesGone k s).evin = s.evin ∧ (carriagesGone k s).clk = s.clk ∧
    (carriagesGone k s).afe = s.afe ∧ (carriagesGone k s).ros = s.ros ∧ (carriagesGone k s).res = s.res ∧
    (carriagesGone k s).out = s.out ∧ (carriagesGone k s).ldg = s.ldg ∧ (carriagesGone k s).nv = s.nv ∧
    (carriagesGone k s).cond = s.cond ∧ (carriagesGone k s).disc = s.disc ∧ (carriagesGone k s).cal = s.cal ∧
    (carriagesGone k s).mem = s.mem ∧ (carriagesGone k s).free = s.free ∧ (carriagesGone k s).pending = s.pending := by
  have k0 := @mapRuns_frame
  simp only [carriagesGone, when]
  repeat' split
  all_goals simp [k0]

theorem pairChanged_frame (p : Bool) (s : State) :
    (pairChanged p s).pins = s.pins ∧ (pairChanged p s).pwr = s.pwr ∧ (pairChanged p s).sys = s.sys ∧
    (pairChanged p s).rtc = s.rtc ∧ (pairChanged p s).alm = s.alm ∧ (pairChanged p s).hif = s.hif ∧
    (pairChanged p s).evt = s.evt ∧ (pairChanged p s).evin = s.evin ∧ (pairChanged p s).clk = s.clk ∧
    (pairChanged p s).afe = s.afe ∧ (pairChanged p s).ros = s.ros ∧ (pairChanged p s).res = s.res ∧
    (pairChanged p s).out = s.out ∧ (pairChanged p s).ldg = s.ldg ∧ (pairChanged p s).nv = s.nv ∧
    (pairChanged p s).cond = s.cond ∧ (pairChanged p s).disc = s.disc ∧ (pairChanged p s).cal = s.cal ∧
    (pairChanged p s).mem = s.mem ∧ (pairChanged p s).free = s.free ∧ (pairChanged p s).pending = s.pending := by
  have k0 := @mapRuns_frame
  simp only [pairChanged, when]
  repeat' split
  all_goals simp [k0]

theorem pairPowered_frame (p : Bool) (s : State) :
    (pairPowered p s).pins = s.pins ∧ (pairPowered p s).pwr = s.pwr ∧ (pairPowered p s).sys = s.sys ∧
    (pairPowered p s).rtc = s.rtc ∧ (pairPowered p s).alm = s.alm ∧ (pairPowered p s).hif = s.hif ∧
    (pairPowered p s).evt = s.evt ∧ (pairPowered p s).evin = s.evin ∧ (pairPowered p s).clk = s.clk ∧
    (pairPowered p s).afe = s.afe ∧ (pairPowered p s).ros = s.ros ∧ (pairPowered p s).res = s.res ∧
    (pairPowered p s).out = s.out ∧ (pairPowered p s).ldg = s.ldg ∧ (pairPowered p s).nv = s.nv ∧
    (pairPowered p s).cond = s.cond ∧ (pairPowered p s).disc = s.disc ∧ (pairPowered p s).cal = s.cal ∧
    (pairPowered p s).mem = s.mem ∧ (pairPowered p s).free = s.free ∧ (pairPowered p s).pending = s.pending := by
  have k0 := @mapRuns_frame
  simp only [pairPowered, when]
  repeat' split
  all_goals simp [k0]

theorem toStart_frame (i : Nat) (s : State) :
    (toStart i s).pins = s.pins ∧ (toStart i s).pwr = s.pwr ∧ (toStart i s).sys = s.sys ∧ (toStart i s).rtc = s.rtc ∧
    (toStart i s).alm = s.alm ∧ (toStart i s).hif = s.hif ∧ (toStart i s).evin = s.evin ∧ (toStart i s).ldg = s.ldg ∧
    (toStart i s).nv = s.nv ∧ (toStart i s).cond = s.cond ∧ (toStart i s).disc = s.disc ∧ (toStart i s).cal = s.cal ∧
    (toStart i s).free = s.free ∧ (toStart i s).pending = s.pending := by
  have k0 := @finishUpTo_frame
  simp only [toStart, when]
  repeat' split
  all_goals simp [k0]

@[simp] theorem placeRun_frame (i : Nat) (g : CarRun → CarRun) (s : State) :
    (placeRun i g s).pins = s.pins ∧ (placeRun i g s).pwr = s.pwr ∧ (placeRun i g s).sys = s.sys ∧
    (placeRun i g s).rtc = s.rtc ∧ (placeRun i g s).alm = s.alm ∧ (placeRun i g s).hif = s.hif ∧
    (placeRun i g s).evt = s.evt ∧ (placeRun i g s).evin = s.evin ∧ (placeRun i g s).clk = s.clk ∧
    (placeRun i g s).afe = s.afe ∧ (placeRun i g s).ros = s.ros ∧ (placeRun i g s).res = s.res ∧
    (placeRun i g s).out = s.out ∧ (placeRun i g s).ldg = s.ldg ∧ (placeRun i g s).nv = s.nv ∧
    (placeRun i g s).cond = s.cond ∧ (placeRun i g s).disc = s.disc ∧ (placeRun i g s).cal = s.cal ∧
    (placeRun i g s).mem = s.mem ∧ (placeRun i g s).free = s.free ∧ (placeRun i g s).pending = s.pending := by
  simp only [placeRun, when]
  repeat' split
  all_goals simp

theorem failRun_frame (i reason : Nat) (s : State) :
    (failRun i reason s).pins = s.pins ∧ (failRun i reason s).pwr = s.pwr ∧ (failRun i reason s).sys = s.sys ∧
    (failRun i reason s).rtc = s.rtc ∧ (failRun i reason s).alm = s.alm ∧ (failRun i reason s).hif = s.hif ∧
    (failRun i reason s).evt = s.evt ∧ (failRun i reason s).evin = s.evin ∧ (failRun i reason s).clk = s.clk ∧
    (failRun i reason s).afe = s.afe ∧ (failRun i reason s).ros = s.ros ∧ (failRun i reason s).res = s.res ∧
    (failRun i reason s).out = s.out ∧ (failRun i reason s).ldg = s.ldg ∧ (failRun i reason s).nv = s.nv ∧
    (failRun i reason s).cond = s.cond ∧ (failRun i reason s).disc = s.disc ∧ (failRun i reason s).cal = s.cal ∧
    (failRun i reason s).mem = s.mem ∧ (failRun i reason s).free = s.free ∧ (failRun i reason s).pending = s.pending := by
  simp only [failRun, when]
  repeat' split
  all_goals simp

theorem dropPresettle_frame (c : Carriage) (s : State) :
    (dropPresettle c s).pins = s.pins ∧ (dropPresettle c s).pwr = s.pwr ∧ (dropPresettle c s).sys = s.sys ∧
    (dropPresettle c s).rtc = s.rtc ∧ (dropPresettle c s).alm = s.alm ∧ (dropPresettle c s).hif = s.hif ∧
    (dropPresettle c s).evt = s.evt ∧ (dropPresettle c s).evin = s.evin ∧ (dropPresettle c s).clk = s.clk ∧
    (dropPresettle c s).ros = s.ros ∧ (dropPresettle c s).tt = s.tt ∧ (dropPresettle c s).res = s.res ∧
    (dropPresettle c s).out = s.out ∧ (dropPresettle c s).ldg = s.ldg ∧ (dropPresettle c s).nv = s.nv ∧
    (dropPresettle c s).cond = s.cond ∧ (dropPresettle c s).disc = s.disc ∧ (dropPresettle c s).cal = s.cal ∧
    (dropPresettle c s).mem = s.mem ∧ (dropPresettle c s).free = s.free ∧ (dropPresettle c s).pending = s.pending := by
  simp only [dropPresettle, when]
  repeat' split
  all_goals simp

theorem fetchNext_frame (i : Nat) (s : State) :
    (fetchNext i s).pins = s.pins ∧ (fetchNext i s).pwr = s.pwr ∧ (fetchNext i s).sys = s.sys ∧
    (fetchNext i s).rtc = s.rtc ∧ (fetchNext i s).alm = s.alm ∧ (fetchNext i s).hif = s.hif ∧
    (fetchNext i s).evt = s.evt ∧ (fetchNext i s).evin = s.evin ∧ (fetchNext i s).clk = s.clk ∧
    (fetchNext i s).tt = s.tt ∧ (fetchNext i s).res = s.res ∧ (fetchNext i s).out = s.out ∧
    (fetchNext i s).ldg = s.ldg ∧ (fetchNext i s).nv = s.nv ∧ (fetchNext i s).cond = s.cond ∧
    (fetchNext i s).disc = s.disc ∧ (fetchNext i s).cal = s.cal ∧ (fetchNext i s).mem = s.mem ∧
    (fetchNext i s).free = s.free ∧ (fetchNext i s).pending = s.pending := by
  have k0 := @fetchGroup_frame
  simp only [fetchNext, when]
  repeat' split
  all_goals simp [k0]

@[simp] theorem startCarriage_pins (i op : Nat) (act : Frame → Carriage → List Byte → State → State) (s : State)
    (h : ∀ f c d t, (act f c d t).pins = t.pins) : (startCarriage i op act s).pins = s.pins := by
  have k0 := @dropPresettle_frame
  have k1 := @failRun_frame
  have k2 := @fetchNext_frame
  have k3 := @toStart_frame
  simp only [startCarriage]
  repeat' split
  all_goals simp [h, when, k0, k1, k2, k3]

@[simp] theorem startCarriage_pwr (i op : Nat) (act : Frame → Carriage → List Byte → State → State) (s : State)
    (h : ∀ f c d t, (act f c d t).pwr = t.pwr) : (startCarriage i op act s).pwr = s.pwr := by
  have k0 := @dropPresettle_frame
  have k1 := @failRun_frame
  have k2 := @fetchNext_frame
  have k3 := @toStart_frame
  simp only [startCarriage]
  repeat' split
  all_goals simp [h, when, k0, k1, k2, k3]

@[simp] theorem startCarriage_sys (i op : Nat) (act : Frame → Carriage → List Byte → State → State) (s : State)
    (h : ∀ f c d t, (act f c d t).sys = t.sys) : (startCarriage i op act s).sys = s.sys := by
  have k0 := @dropPresettle_frame
  have k1 := @failRun_frame
  have k2 := @fetchNext_frame
  have k3 := @toStart_frame
  simp only [startCarriage]
  repeat' split
  all_goals simp [h, when, k0, k1, k2, k3]

@[simp] theorem startCarriage_rtc (i op : Nat) (act : Frame → Carriage → List Byte → State → State) (s : State)
    (h : ∀ f c d t, (act f c d t).rtc = t.rtc) : (startCarriage i op act s).rtc = s.rtc := by
  have k0 := @dropPresettle_frame
  have k1 := @failRun_frame
  have k2 := @fetchNext_frame
  have k3 := @toStart_frame
  simp only [startCarriage]
  repeat' split
  all_goals simp [h, when, k0, k1, k2, k3]

@[simp] theorem startCarriage_alm (i op : Nat) (act : Frame → Carriage → List Byte → State → State) (s : State)
    (h : ∀ f c d t, (act f c d t).alm = t.alm) : (startCarriage i op act s).alm = s.alm := by
  have k0 := @dropPresettle_frame
  have k1 := @failRun_frame
  have k2 := @fetchNext_frame
  have k3 := @toStart_frame
  simp only [startCarriage]
  repeat' split
  all_goals simp [h, when, k0, k1, k2, k3]

@[simp] theorem startCarriage_hif (i op : Nat) (act : Frame → Carriage → List Byte → State → State) (s : State)
    (h : ∀ f c d t, (act f c d t).hif = t.hif) : (startCarriage i op act s).hif = s.hif := by
  have k0 := @dropPresettle_frame
  have k1 := @failRun_frame
  have k2 := @fetchNext_frame
  have k3 := @toStart_frame
  simp only [startCarriage]
  repeat' split
  all_goals simp [h, when, k0, k1, k2, k3]

@[simp] theorem startCarriage_evin (i op : Nat) (act : Frame → Carriage → List Byte → State → State) (s : State)
    (h : ∀ f c d t, (act f c d t).evin = t.evin) : (startCarriage i op act s).evin = s.evin := by
  have k0 := @dropPresettle_frame
  have k1 := @failRun_frame
  have k2 := @fetchNext_frame
  have k3 := @toStart_frame
  simp only [startCarriage]
  repeat' split
  all_goals simp [h, when, k0, k1, k2, k3]

@[simp] theorem startCarriage_ldg (i op : Nat) (act : Frame → Carriage → List Byte → State → State) (s : State)
    (h : ∀ f c d t, (act f c d t).ldg = t.ldg) : (startCarriage i op act s).ldg = s.ldg := by
  have k0 := @dropPresettle_frame
  have k1 := @failRun_frame
  have k2 := @fetchNext_frame
  have k3 := @toStart_frame
  simp only [startCarriage]
  repeat' split
  all_goals simp [h, when, k0, k1, k2, k3]

@[simp] theorem startCarriage_nv (i op : Nat) (act : Frame → Carriage → List Byte → State → State) (s : State)
    (h : ∀ f c d t, (act f c d t).nv = t.nv) : (startCarriage i op act s).nv = s.nv := by
  have k0 := @dropPresettle_frame
  have k1 := @failRun_frame
  have k2 := @fetchNext_frame
  have k3 := @toStart_frame
  simp only [startCarriage]
  repeat' split
  all_goals simp [h, when, k0, k1, k2, k3]

@[simp] theorem startCarriage_cond (i op : Nat) (act : Frame → Carriage → List Byte → State → State) (s : State)
    (h : ∀ f c d t, (act f c d t).cond = t.cond) : (startCarriage i op act s).cond = s.cond := by
  have k0 := @dropPresettle_frame
  have k1 := @failRun_frame
  have k2 := @fetchNext_frame
  have k3 := @toStart_frame
  simp only [startCarriage]
  repeat' split
  all_goals simp [h, when, k0, k1, k2, k3]

@[simp] theorem startCarriage_disc (i op : Nat) (act : Frame → Carriage → List Byte → State → State) (s : State)
    (h : ∀ f c d t, (act f c d t).disc = t.disc) : (startCarriage i op act s).disc = s.disc := by
  have k0 := @dropPresettle_frame
  have k1 := @failRun_frame
  have k2 := @fetchNext_frame
  have k3 := @toStart_frame
  simp only [startCarriage]
  repeat' split
  all_goals simp [h, when, k0, k1, k2, k3]

@[simp] theorem startCarriage_cal (i op : Nat) (act : Frame → Carriage → List Byte → State → State) (s : State)
    (h : ∀ f c d t, (act f c d t).cal = t.cal) : (startCarriage i op act s).cal = s.cal := by
  have k0 := @dropPresettle_frame
  have k1 := @failRun_frame
  have k2 := @fetchNext_frame
  have k3 := @toStart_frame
  simp only [startCarriage]
  repeat' split
  all_goals simp [h, when, k0, k1, k2, k3]

@[simp] theorem startCarriage_free (i op : Nat) (act : Frame → Carriage → List Byte → State → State) (s : State)
    (h : ∀ f c d t, (act f c d t).free = t.free) : (startCarriage i op act s).free = s.free := by
  have k0 := @dropPresettle_frame
  have k1 := @failRun_frame
  have k2 := @fetchNext_frame
  have k3 := @toStart_frame
  simp only [startCarriage]
  repeat' split
  all_goals simp [h, when, k0, k1, k2, k3]

@[simp] theorem startCarriage_pending (i op : Nat) (act : Frame → Carriage → List Byte → State → State) (s : State)
    (h : ∀ f c d t, (act f c d t).pending = t.pending) : (startCarriage i op act s).pending = s.pending := by
  have k0 := @dropPresettle_frame
  have k1 := @failRun_frame
  have k2 := @fetchNext_frame
  have k3 := @toStart_frame
  simp only [startCarriage]
  repeat' split
  all_goals simp [h, when, k0, k1, k2, k3]

theorem settleValue_frame (i : Nat) (o : Nat ⊕ Val) (s : State) :
    (settleValue i o s).pins = s.pins ∧ (settleValue i o s).pwr = s.pwr ∧ (settleValue i o s).sys = s.sys ∧
    (settleValue i o s).rtc = s.rtc ∧ (settleValue i o s).alm = s.alm ∧ (settleValue i o s).hif = s.hif ∧
    (settleValue i o s).evt = s.evt ∧ (settleValue i o s).evin = s.evin ∧ (settleValue i o s).clk = s.clk ∧
    (settleValue i o s).afe = s.afe ∧ (settleValue i o s).ros = s.ros ∧ (settleValue i o s).res = s.res ∧
    (settleValue i o s).out = s.out ∧ (settleValue i o s).ldg = s.ldg ∧ (settleValue i o s).nv = s.nv ∧
    (settleValue i o s).cond = s.cond ∧ (settleValue i o s).disc = s.disc ∧ (settleValue i o s).cal = s.cal ∧
    (settleValue i o s).mem = s.mem ∧ (settleValue i o s).free = s.free ∧ (settleValue i o s).pending = s.pending := by
  have k0 := @failRun_frame
  simp only [settleValue, when]
  repeat' split
  all_goals simp [k0]

theorem actCorrect_frame (i : Nat) (f : Frame) (c : Carriage) (d : List Byte) (s : State) :
    (actCorrect i f c d s).pins = s.pins ∧ (actCorrect i f c d s).pwr = s.pwr ∧ (actCorrect i f c d s).sys = s.sys ∧
    (actCorrect i f c d s).rtc = s.rtc ∧ (actCorrect i f c d s).alm = s.alm ∧ (actCorrect i f c d s).hif = s.hif ∧
    (actCorrect i f c d s).evt = s.evt ∧ (actCorrect i f c d s).evin = s.evin ∧ (actCorrect i f c d s).clk = s.clk ∧
    (actCorrect i f c d s).afe = s.afe ∧ (actCorrect i f c d s).ros = s.ros ∧ (actCorrect i f c d s).res = s.res ∧
    (actCorrect i f c d s).out = s.out ∧ (actCorrect i f c d s).ldg = s.ldg ∧ (actCorrect i f c d s).nv = s.nv ∧
    (actCorrect i f c d s).cond = s.cond ∧ (actCorrect i f c d s).disc = s.disc ∧ (actCorrect i f c d s).cal = s.cal ∧
    (actCorrect i f c d s).mem = s.mem ∧ (actCorrect i f c d s).free = s.free ∧
    (actCorrect i f c d s).pending = s.pending := by
  simp only [actCorrect, when]
  repeat' split
  all_goals simp

theorem actExcite_frame (i : Nat) (x1 : Frame) (c : Carriage) (d : List Byte) (s : State) :
    (actExcite i x1 c d s).pins = s.pins ∧ (actExcite i x1 c d s).pwr = s.pwr ∧ (actExcite i x1 c d s).sys = s.sys ∧
    (actExcite i x1 c d s).rtc = s.rtc ∧ (actExcite i x1 c d s).alm = s.alm ∧ (actExcite i x1 c d s).hif = s.hif ∧
    (actExcite i x1 c d s).evt = s.evt ∧ (actExcite i x1 c d s).evin = s.evin ∧ (actExcite i x1 c d s).clk = s.clk ∧
    (actExcite i x1 c d s).ros = s.ros ∧ (actExcite i x1 c d s).res = s.res ∧ (actExcite i x1 c d s).out = s.out ∧
    (actExcite i x1 c d s).ldg = s.ldg ∧ (actExcite i x1 c d s).nv = s.nv ∧ (actExcite i x1 c d s).cond = s.cond ∧
    (actExcite i x1 c d s).disc = s.disc ∧ (actExcite i x1 c d s).cal = s.cal ∧ (actExcite i x1 c d s).mem = s.mem ∧
    (actExcite i x1 c d s).free = s.free ∧ (actExcite i x1 c d s).pending = s.pending := by
  have k0 := @pairChanged_frame
  simp only [actExcite, when]
  repeat' split
  all_goals simp [k0]

theorem actExcOff_frame (i : Nat) (x1 : Frame) (c : Carriage) (x2 : List Byte) (s : State) :
    (actExcOff i x1 c x2 s).pins = s.pins ∧ (actExcOff i x1 c x2 s).pwr = s.pwr ∧
    (actExcOff i x1 c x2 s).sys = s.sys ∧ (actExcOff i x1 c x2 s).rtc = s.rtc ∧ (actExcOff i x1 c x2 s).alm = s.alm ∧
    (actExcOff i x1 c x2 s).hif = s.hif ∧ (actExcOff i x1 c x2 s).evt = s.evt ∧
    (actExcOff i x1 c x2 s).evin = s.evin ∧ (actExcOff i x1 c x2 s).clk = s.clk ∧
    (actExcOff i x1 c x2 s).ros = s.ros ∧ (actExcOff i x1 c x2 s).res = s.res ∧ (actExcOff i x1 c x2 s).out = s.out ∧
    (actExcOff i x1 c x2 s).ldg = s.ldg ∧ (actExcOff i x1 c x2 s).nv = s.nv ∧ (actExcOff i x1 c x2 s).cond = s.cond ∧
    (actExcOff i x1 c x2 s).disc = s.disc ∧ (actExcOff i x1 c x2 s).cal = s.cal ∧
    (actExcOff i x1 c x2 s).mem = s.mem ∧ (actExcOff i x1 c x2 s).free = s.free ∧
    (actExcOff i x1 c x2 s).pending = s.pending := by
  have k0 := @pairChanged_frame
  simp only [actExcOff, when]
  repeat' split
  all_goals simp [k0]

theorem actConvert_frame (i : Nat) (fault : Option Nat) (f : Frame) (c : Carriage) (s : State) :
    (actConvert i fault f c s).pins = s.pins ∧ (actConvert i fault f c s).pwr = s.pwr ∧
    (actConvert i fault f c s).sys = s.sys ∧ (actConvert i fault f c s).rtc = s.rtc ∧
    (actConvert i fault f c s).alm = s.alm ∧ (actConvert i fault f c s).hif = s.hif ∧
    (actConvert i fault f c s).evt = s.evt ∧ (actConvert i fault f c s).evin = s.evin ∧
    (actConvert i fault f c s).clk = s.clk ∧ (actConvert i fault f c s).afe = s.afe ∧
    (actConvert i fault f c s).ros = s.ros ∧ (actConvert i fault f c s).res = s.res ∧
    (actConvert i fault f c s).out = s.out ∧ (actConvert i fault f c s).ldg = s.ldg ∧
    (actConvert i fault f c s).nv = s.nv ∧ (actConvert i fault f c s).cond = s.cond ∧
    (actConvert i fault f c s).disc = s.disc ∧ (actConvert i fault f c s).cal = s.cal ∧
    (actConvert i fault f c s).mem = s.mem ∧ (actConvert i fault f c s).free = s.free ∧
    (actConvert i fault f c s).pending = s.pending := by
  have k0 := @failRun_frame
  simp only [actConvert, when]
  repeat' split
  all_goals simp [k0]

theorem placeFmt_frame (i reason : Nat) (x : FmtRead) (s : State) :
    (placeFmt i reason x s).pins = s.pins ∧ (placeFmt i reason x s).pwr = s.pwr ∧
    (placeFmt i reason x s).sys = s.sys ∧ (placeFmt i reason x s).rtc = s.rtc ∧ (placeFmt i reason x s).alm = s.alm ∧
    (placeFmt i reason x s).hif = s.hif ∧ (placeFmt i reason x s).evt = s.evt ∧
    (placeFmt i reason x s).evin = s.evin ∧ (placeFmt i reason x s).clk = s.clk ∧
    (placeFmt i reason x s).afe = s.afe ∧ (placeFmt i reason x s).ros = s.ros ∧ (placeFmt i reason x s).res = s.res ∧
    (placeFmt i reason x s).out = s.out ∧ (placeFmt i reason x s).ldg = s.ldg ∧ (placeFmt i reason x s).nv = s.nv ∧
    (placeFmt i reason x s).cond = s.cond ∧ (placeFmt i reason x s).disc = s.disc ∧
    (placeFmt i reason x s).cal = s.cal ∧ (placeFmt i reason x s).mem = s.mem ∧
    (placeFmt i reason x s).free = s.free ∧ (placeFmt i reason x s).pending = s.pending := by
  simp only [placeFmt, when]
  repeat' split
  all_goals simp

theorem emitBy_frame (i : Nat) (x : FmtRead) (s : State) :
    (emitBy i x s).pins = s.pins ∧ (emitBy i x s).pwr = s.pwr ∧ (emitBy i x s).sys = s.sys ∧
    (emitBy i x s).rtc = s.rtc ∧ (emitBy i x s).alm = s.alm ∧ (emitBy i x s).hif = s.hif ∧
    (emitBy i x s).evt = s.evt ∧ (emitBy i x s).evin = s.evin ∧ (emitBy i x s).clk = s.clk ∧
    (emitBy i x s).afe = s.afe ∧ (emitBy i x s).ros = s.ros ∧ (emitBy i x s).res = s.res ∧
    (emitBy i x s).out = s.out ∧ (emitBy i x s).ldg = s.ldg ∧ (emitBy i x s).nv = s.nv ∧
    (emitBy i x s).cond = s.cond ∧ (emitBy i x s).disc = s.disc ∧ (emitBy i x s).cal = s.cal ∧
    (emitBy i x s).mem = s.mem ∧ (emitBy i x s).free = s.free ∧ (emitBy i x s).pending = s.pending := by
  have k0 := @placeFmt_frame
  simp only [emitBy, when]
  repeat' split
  all_goals simp [k0]

theorem aoutBy_frame (i n : Nat) (x : FmtRead) (s : State) :
    (aoutBy i n x s).pins = s.pins ∧ (aoutBy i n x s).pwr = s.pwr ∧ (aoutBy i n x s).sys = s.sys ∧
    (aoutBy i n x s).rtc = s.rtc ∧ (aoutBy i n x s).alm = s.alm ∧ (aoutBy i n x s).hif = s.hif ∧
    (aoutBy i n x s).evt = s.evt ∧ (aoutBy i n x s).evin = s.evin ∧ (aoutBy i n x s).clk = s.clk ∧
    (aoutBy i n x s).afe = s.afe ∧ (aoutBy i n x s).ros = s.ros ∧ (aoutBy i n x s).res = s.res ∧
    (aoutBy i n x s).ldg = s.ldg ∧ (aoutBy i n x s).nv = s.nv ∧ (aoutBy i n x s).cond = s.cond ∧
    (aoutBy i n x s).disc = s.disc ∧ (aoutBy i n x s).cal = s.cal ∧ (aoutBy i n x s).mem = s.mem ∧
    (aoutBy i n x s).free = s.free ∧ (aoutBy i n x s).pending = s.pending := by
  have k0 := @aoutSet_frame
  have k1 := @placeFmt_frame
  simp only [aoutBy, when]
  repeat' split
  all_goals simp [k0, k1]

theorem ledgerBy_frame (i : Nat) (c : Carriage) (x : FmtRead) (s : State) :
    (ledgerBy i c x s).pins = s.pins ∧ (ledgerBy i c x s).pwr = s.pwr ∧ (ledgerBy i c x s).sys = s.sys ∧
    (ledgerBy i c x s).rtc = s.rtc ∧ (ledgerBy i c x s).alm = s.alm ∧ (ledgerBy i c x s).hif = s.hif ∧
    (ledgerBy i c x s).evt = s.evt ∧ (ledgerBy i c x s).evin = s.evin ∧ (ledgerBy i c x s).clk = s.clk ∧
    (ledgerBy i c x s).afe = s.afe ∧ (ledgerBy i c x s).ros = s.ros ∧ (ledgerBy i c x s).res = s.res ∧
    (ledgerBy i c x s).out = s.out ∧ (ledgerBy i c x s).nv = s.nv ∧ (ledgerBy i c x s).cond = s.cond ∧
    (ledgerBy i c x s).disc = s.disc ∧ (ledgerBy i c x s).cal = s.cal ∧ (ledgerBy i c x s).mem = s.mem ∧
    (ledgerBy i c x s).free = s.free ∧ (ledgerBy i c x s).pending = s.pending := by
  have k0 := @ldgAdd_frame
  have k1 := @placeFmt_frame
  simp only [ledgerBy, when]
  repeat' split
  all_goals simp [k0, k1]

theorem deliverBy_frame (i : Nat) (f : Frame) (c : Carriage) (x : FmtRead) (s : State) :
    (deliverBy i f c x s).pins = s.pins ∧ (deliverBy i f c x s).pwr = s.pwr ∧ (deliverBy i f c x s).sys = s.sys ∧
    (deliverBy i f c x s).rtc = s.rtc ∧ (deliverBy i f c x s).alm = s.alm ∧ (deliverBy i f c x s).hif = s.hif ∧
    (deliverBy i f c x s).evt = s.evt ∧ (deliverBy i f c x s).evin = s.evin ∧ (deliverBy i f c x s).clk = s.clk ∧
    (deliverBy i f c x s).afe = s.afe ∧ (deliverBy i f c x s).ros = s.ros ∧ (deliverBy i f c x s).res = s.res ∧
    (deliverBy i f c x s).nv = s.nv ∧ (deliverBy i f c x s).cond = s.cond ∧ (deliverBy i f c x s).disc = s.disc ∧
    (deliverBy i f c x s).cal = s.cal ∧ (deliverBy i f c x s).mem = s.mem ∧ (deliverBy i f c x s).free = s.free ∧
    (deliverBy i f c x s).pending = s.pending := by
  have k0 := @aoutBy_frame
  have k1 := @emitBy_frame
  have k2 := @ledgerBy_frame
  simp only [deliverBy, when]
  repeat' split
  all_goals simp [k0, k1, k2]

theorem actDeliver_frame (i : Nat) (f : Frame) (c : Carriage) (d : List Byte) (s : State) :
    (actDeliver i f c d s).pins = s.pins ∧ (actDeliver i f c d s).pwr = s.pwr ∧ (actDeliver i f c d s).sys = s.sys ∧
    (actDeliver i f c d s).rtc = s.rtc ∧ (actDeliver i f c d s).alm = s.alm ∧ (actDeliver i f c d s).hif = s.hif ∧
    (actDeliver i f c d s).evt = s.evt ∧ (actDeliver i f c d s).evin = s.evin ∧ (actDeliver i f c d s).clk = s.clk ∧
    (actDeliver i f c d s).afe = s.afe ∧ (actDeliver i f c d s).ros = s.ros ∧ (actDeliver i f c d s).res = s.res ∧
    (actDeliver i f c d s).nv = s.nv ∧ (actDeliver i f c d s).cond = s.cond ∧ (actDeliver i f c d s).disc = s.disc ∧
    (actDeliver i f c d s).cal = s.cal ∧ (actDeliver i f c d s).mem = s.mem ∧ (actDeliver i f c d s).free = s.free ∧
    (actDeliver i f c d s).pending = s.pending := by
  have k0 := @deliverBy_frame
  have k1 := @failRun_frame
  simp only [actDeliver, when]
  repeat' split
  all_goals simp [k0, k1]

@[simp] theorem endAtOnce_frame (i : Nat) (s : State) :
    (endAtOnce i s).pins = s.pins ∧ (endAtOnce i s).pwr = s.pwr ∧ (endAtOnce i s).sys = s.sys ∧
    (endAtOnce i s).rtc = s.rtc ∧ (endAtOnce i s).alm = s.alm ∧ (endAtOnce i s).hif = s.hif ∧
    (endAtOnce i s).evin = s.evin ∧ (endAtOnce i s).ldg = s.ldg ∧ (endAtOnce i s).nv = s.nv ∧
    (endAtOnce i s).cond = s.cond ∧ (endAtOnce i s).disc = s.disc ∧ (endAtOnce i s).cal = s.cal ∧
    (endAtOnce i s).free = s.free ∧ (endAtOnce i s).pending = s.pending := by
  have k0 := @finishUpTo_frame
  simp only [endAtOnce, when]
  repeat' split
  all_goals simp [k0]

theorem takeStage_frame (fault : Option Nat) (f : Frame) (c : Carriage) (s : State) :
    (takeStage fault f c s).pins = s.pins ∧ (takeStage fault f c s).pwr = s.pwr ∧
    (takeStage fault f c s).sys = s.sys ∧ (takeStage fault f c s).rtc = s.rtc ∧ (takeStage fault f c s).alm = s.alm ∧
    (takeStage fault f c s).hif = s.hif ∧ (takeStage fault f c s).evt = s.evt ∧
    (takeStage fault f c s).evin = s.evin ∧ (takeStage fault f c s).clk = s.clk ∧
    (takeStage fault f c s).ros = s.ros ∧ (takeStage fault f c s).tt = s.tt ∧ (takeStage fault f c s).res = s.res ∧
    (takeStage fault f c s).out = s.out ∧ (takeStage fault f c s).ldg = s.ldg ∧ (takeStage fault f c s).nv = s.nv ∧
    (takeStage fault f c s).cond = s.cond ∧ (takeStage fault f c s).disc = s.disc ∧
    (takeStage fault f c s).cal = s.cal ∧ (takeStage fault f c s).mem = s.mem ∧
    (takeStage fault f c s).free = s.free ∧ (takeStage fault f c s).pending = s.pending := by
  have k0 := @applyStage_frame
  simp only [takeStage, when]
  repeat' split
  all_goals simp [k0]

theorem actOp_frame (i op : Nat) (f : Frame) (c : Carriage) (d : List Byte) (s : State) :
    (actOp i op f c d s).pins = s.pins ∧ (actOp i op f c d s).pwr = s.pwr ∧ (actOp i op f c d s).sys = s.sys ∧
    (actOp i op f c d s).rtc = s.rtc ∧ (actOp i op f c d s).alm = s.alm ∧ (actOp i op f c d s).hif = s.hif ∧
    (actOp i op f c d s).evt = s.evt ∧ (actOp i op f c d s).evin = s.evin ∧ (actOp i op f c d s).clk = s.clk ∧
    (actOp i op f c d s).ros = s.ros ∧ (actOp i op f c d s).res = s.res ∧ (actOp i op f c d s).nv = s.nv ∧
    (actOp i op f c d s).cond = s.cond ∧ (actOp i op f c d s).disc = s.disc ∧ (actOp i op f c d s).cal = s.cal ∧
    (actOp i op f c d s).mem = s.mem ∧ (actOp i op f c d s).free = s.free ∧ (actOp i op f c d s).pending = s.pending := by
  have k0 := @actConvert_frame
  have k1 := @actCorrect_frame
  have k2 := @actDeliver_frame
  have k3 := @actExcOff_frame
  have k4 := @actExcite_frame
  have k5 := @settleValue_frame
  have k6 := @takeStage_frame
  simp only [actOp, when]
  repeat' split
  all_goals simp [k0, k1, k2, k3, k4, k5, k6]

@[simp] theorem startOp_frame (i op : Nat) (s : State) :
    (startOp i op s).pins = s.pins ∧ (startOp i op s).pwr = s.pwr ∧ (startOp i op s).sys = s.sys ∧
    (startOp i op s).rtc = s.rtc ∧ (startOp i op s).alm = s.alm ∧ (startOp i op s).hif = s.hif ∧
    (startOp i op s).evin = s.evin ∧ (startOp i op s).nv = s.nv ∧ (startOp i op s).cond = s.cond ∧
    (startOp i op s).disc = s.disc ∧ (startOp i op s).cal = s.cal ∧ (startOp i op s).free = s.free ∧
    (startOp i op s).pending = s.pending := by
  have k0 := @actOp_frame
  simp only [startOp, when]
  repeat' split
  all_goals simp [k0]

theorem startDue_frame (n i : Nat) (s : State) :
    (startDue n i s).pins = s.pins ∧ (startDue n i s).pwr = s.pwr ∧ (startDue n i s).sys = s.sys ∧
    (startDue n i s).rtc = s.rtc ∧ (startDue n i s).alm = s.alm ∧ (startDue n i s).hif = s.hif ∧
    (startDue n i s).evin = s.evin ∧ (startDue n i s).nv = s.nv ∧ (startDue n i s).cond = s.cond ∧
    (startDue n i s).disc = s.disc ∧ (startDue n i s).cal = s.cal ∧ (startDue n i s).free = s.free ∧
    (startDue n i s).pending = s.pending := by
  simp only [startDue, when]
  repeat' split
  all_goals simp

theorem addsFirst_frame (n : Nat) (s : State) :
    (addsFirst n s).pins = s.pins ∧ (addsFirst n s).pwr = s.pwr ∧ (addsFirst n s).sys = s.sys ∧
    (addsFirst n s).rtc = s.rtc ∧ (addsFirst n s).alm = s.alm ∧ (addsFirst n s).hif = s.hif ∧
    (addsFirst n s).evin = s.evin ∧ (addsFirst n s).nv = s.nv ∧ (addsFirst n s).cond = s.cond ∧
    (addsFirst n s).disc = s.disc ∧ (addsFirst n s).cal = s.cal ∧ (addsFirst n s).free = s.free ∧
    (addsFirst n s).pending = s.pending := by
  have k0 := @startDue_frame
  simp only [addsFirst, when]
  repeat' split
  all_goals simp [k0]

theorem instantAt_frame (m : Moment) (r : LdgReq) (stamp : Stamp) (s : State) :
    (instantAt m r stamp s).pins = s.pins ∧ (instantAt m r stamp s).pwr = s.pwr ∧
    (instantAt m r stamp s).rtc = s.rtc ∧ (instantAt m r stamp s).alm = s.alm ∧ (instantAt m r stamp s).hif = s.hif ∧
    (instantAt m r stamp s).evin = s.evin ∧ (instantAt m r stamp s).cond = s.cond ∧
    (instantAt m r stamp s).disc = s.disc ∧ (instantAt m r stamp s).cal = s.cal ∧
    (instantAt m r stamp s).free = s.free ∧ (instantAt m r stamp s).pending = s.pending := by
  have k0 := @addsFirst_frame
  have k1 := @ldgInstant_frame
  simp only [instantAt, when]
  repeat' split
  all_goals simp [k0, k1]

theorem setConf_frame (k : Nat) (c : Option Confirm) (s : State) :
    (setConf k c s).pins = s.pins ∧ (setConf k c s).pwr = s.pwr ∧ (setConf k c s).sys = s.sys ∧
    (setConf k c s).rtc = s.rtc ∧ (setConf k c s).alm = s.alm ∧ (setConf k c s).hif = s.hif ∧
    (setConf k c s).evt = s.evt ∧ (setConf k c s).clk = s.clk ∧ (setConf k c s).afe = s.afe ∧
    (setConf k c s).ros = s.ros ∧ (setConf k c s).tt = s.tt ∧ (setConf k c s).res = s.res ∧
    (setConf k c s).out = s.out ∧ (setConf k c s).ldg = s.ldg ∧ (setConf k c s).nv = s.nv ∧
    (setConf k c s).cond = s.cond ∧ (setConf k c s).disc = s.disc ∧ (setConf k c s).cal = s.cal ∧
    (setConf k c s).mem = s.mem ∧ (setConf k c s).free = s.free ∧ (setConf k c s).pending = s.pending := by
  simp only [setConf, when]
  repeat' split
  all_goals simp

theorem setAccepted_frame (k : Nat) (level : Bool) (s : State) :
    (setAccepted k level s).pins = s.pins ∧ (setAccepted k level s).pwr = s.pwr ∧
    (setAccepted k level s).sys = s.sys ∧ (setAccepted k level s).rtc = s.rtc ∧ (setAccepted k level s).alm = s.alm ∧
    (setAccepted k level s).hif = s.hif ∧ (setAccepted k level s).evt = s.evt ∧ (setAccepted k level s).clk = s.clk ∧
    (setAccepted k level s).afe = s.afe ∧ (setAccepted k level s).ros = s.ros ∧ (setAccepted k level s).tt = s.tt ∧
    (setAccepted k level s).res = s.res ∧ (setAccepted k level s).out = s.out ∧ (setAccepted k level s).ldg = s.ldg ∧
    (setAccepted k level s).nv = s.nv ∧ (setAccepted k level s).cond = s.cond ∧
    (setAccepted k level s).disc = s.disc ∧ (setAccepted k level s).cal = s.cal ∧
    (setAccepted k level s).mem = s.mem ∧ (setAccepted k level s).free = s.free ∧
    (setAccepted k level s).pending = s.pending := by
  simp only [setAccepted, when]
  repeat' split
  all_goals simp

theorem syncRestart_frame (n : Nat) (s : State) :
    (syncRestart n s).pins = s.pins ∧ (syncRestart n s).pwr = s.pwr ∧ (syncRestart n s).sys = s.sys ∧
    (syncRestart n s).rtc = s.rtc ∧ (syncRestart n s).alm = s.alm ∧ (syncRestart n s).hif = s.hif ∧
    (syncRestart n s).evt = s.evt ∧ (syncRestart n s).evin = s.evin ∧ (syncRestart n s).clk = s.clk ∧
    (syncRestart n s).afe = s.afe ∧ (syncRestart n s).ros = s.ros ∧ (syncRestart n s).res = s.res ∧
    (syncRestart n s).out = s.out ∧ (syncRestart n s).ldg = s.ldg ∧ (syncRestart n s).nv = s.nv ∧
    (syncRestart n s).cond = s.cond ∧ (syncRestart n s).disc = s.disc ∧ (syncRestart n s).cal = s.cal ∧
    (syncRestart n s).mem = s.mem ∧ (syncRestart n s).free = s.free ∧ (syncRestart n s).pending = s.pending := by
  simp only [syncRestart, when]
  repeat' split
  all_goals simp

theorem syncReset_frame (n : Nat) (s : State) :
    (syncReset n s).pins = s.pins ∧ (syncReset n s).pwr = s.pwr ∧ (syncReset n s).sys = s.sys ∧
    (syncReset n s).rtc = s.rtc ∧ (syncReset n s).alm = s.alm ∧ (syncReset n s).hif = s.hif ∧
    (syncReset n s).evt = s.evt ∧ (syncReset n s).evin = s.evin ∧ (syncReset n s).clk = s.clk ∧
    (syncReset n s).afe = s.afe ∧ (syncReset n s).ros = s.ros ∧ (syncReset n s).res = s.res ∧
    (syncReset n s).out = s.out ∧ (syncReset n s).ldg = s.ldg ∧ (syncReset n s).nv = s.nv ∧
    (syncReset n s).cond = s.cond ∧ (syncReset n s).disc = s.disc ∧ (syncReset n s).cal = s.cal ∧
    (syncReset n s).mem = s.mem ∧ (syncReset n s).free = s.free ∧ (syncReset n s).pending = s.pending := by
  have k0 := @syncRestart_frame
  simp only [syncReset, when]
  repeat' split
  all_goals simp [k0]

theorem holdSync_frame (n : Nat) (s : State) :
    (holdSync n s).pins = s.pins ∧ (holdSync n s).pwr = s.pwr ∧ (holdSync n s).sys = s.sys ∧
    (holdSync n s).rtc = s.rtc ∧ (holdSync n s).alm = s.alm ∧ (holdSync n s).hif = s.hif ∧
    (holdSync n s).evt = s.evt ∧ (holdSync n s).clk = s.clk ∧ (holdSync n s).afe = s.afe ∧
    (holdSync n s).ros = s.ros ∧ (holdSync n s).tt = s.tt ∧ (holdSync n s).res = s.res ∧ (holdSync n s).out = s.out ∧
    (holdSync n s).ldg = s.ldg ∧ (holdSync n s).nv = s.nv ∧ (holdSync n s).cond = s.cond ∧
    (holdSync n s).disc = s.disc ∧ (holdSync n s).cal = s.cal ∧ (holdSync n s).mem = s.mem ∧
    (holdSync n s).free = s.free ∧ (holdSync n s).pending = s.pending := by
  have k0 := @setAccepted_frame
  simp only [holdSync, when]
  repeat' split
  all_goals simp [k0]

theorem compared_frame (ks : List Nat) (s : State) :
    (compared ks s).pins = s.pins ∧ (compared ks s).pwr = s.pwr ∧ (compared ks s).sys = s.sys ∧
    (compared ks s).rtc = s.rtc ∧ (compared ks s).alm = s.alm ∧ (compared ks s).hif = s.hif ∧
    (compared ks s).evt = s.evt ∧ (compared ks s).clk = s.clk ∧ (compared ks s).afe = s.afe ∧
    (compared ks s).ros = s.ros ∧ (compared ks s).tt = s.tt ∧ (compared ks s).res = s.res ∧
    (compared ks s).out = s.out ∧ (compared ks s).ldg = s.ldg ∧ (compared ks s).nv = s.nv ∧
    (compared ks s).cond = s.cond ∧ (compared ks s).disc = s.disc ∧ (compared ks s).cal = s.cal ∧
    (compared ks s).mem = s.mem ∧ (compared ks s).free = s.free ∧ (compared ks s).pending = s.pending := by
  simp only [compared, when]
  repeat' split
  all_goals simp

theorem withRise_frame (q : Option Nat) (rise : Option Stamp) (xs : List Occ) (laps : Nat) (s : State) :
    (withRise q rise xs laps s).2.2.pins = s.pins ∧ (withRise q rise xs laps s).2.2.pwr = s.pwr ∧
    (withRise q rise xs laps s).2.2.sys = s.sys ∧ (withRise q rise xs laps s).2.2.rtc = s.rtc ∧
    (withRise q rise xs laps s).2.2.alm = s.alm ∧ (withRise q rise xs laps s).2.2.hif = s.hif ∧
    (withRise q rise xs laps s).2.2.clk = s.clk ∧ (withRise q rise xs laps s).2.2.afe = s.afe ∧
    (withRise q rise xs laps s).2.2.ros = s.ros ∧ (withRise q rise xs laps s).2.2.res = s.res ∧
    (withRise q rise xs laps s).2.2.out = s.out ∧ (withRise q rise xs laps s).2.2.ldg = s.ldg ∧
    (withRise q rise xs laps s).2.2.nv = s.nv ∧ (withRise q rise xs laps s).2.2.cond = s.cond ∧
    (withRise q rise xs laps s).2.2.disc = s.disc ∧ (withRise q rise xs laps s).2.2.cal = s.cal ∧
    (withRise q rise xs laps s).2.2.mem = s.mem ∧ (withRise q rise xs laps s).2.2.free = s.free ∧
    (withRise q rise xs laps s).2.2.pending = s.pending := by
  have k0 := @syncReset_frame
  simp only [withRise, when]
  repeat' split
  all_goals simp [k0]

theorem comparedAt_frame (q : Option Nat) (s : State) :
    (comparedAt q s).pins = s.pins ∧ (comparedAt q s).pwr = s.pwr ∧ (comparedAt q s).sys = s.sys ∧
    (comparedAt q s).rtc = s.rtc ∧ (comparedAt q s).alm = s.alm ∧ (comparedAt q s).hif = s.hif ∧
    (comparedAt q s).evt = s.evt ∧ (comparedAt q s).clk = s.clk ∧ (comparedAt q s).afe = s.afe ∧
    (comparedAt q s).ros = s.ros ∧ (comparedAt q s).tt = s.tt ∧ (comparedAt q s).res = s.res ∧
    (comparedAt q s).out = s.out ∧ (comparedAt q s).ldg = s.ldg ∧ (comparedAt q s).nv = s.nv ∧
    (comparedAt q s).cond = s.cond ∧ (comparedAt q s).disc = s.disc ∧ (comparedAt q s).cal = s.cal ∧
    (comparedAt q s).mem = s.mem ∧ (comparedAt q s).free = s.free ∧ (comparedAt q s).pending = s.pending := by
  have k0 := @compared_frame
  simp only [comparedAt, when]
  repeat' split
  all_goals simp [k0]

theorem inputsAt_frame (q : Option Nat) (steps : List Step) (s : State) :
    (inputsAt q steps s).2.2.pins = s.pins ∧ (inputsAt q steps s).2.2.pwr = s.pwr ∧
    (inputsAt q steps s).2.2.sys = s.sys ∧ (inputsAt q steps s).2.2.rtc = s.rtc ∧
    (inputsAt q steps s).2.2.alm = s.alm ∧ (inputsAt q steps s).2.2.hif = s.hif ∧
    (inputsAt q steps s).2.2.clk = s.clk ∧ (inputsAt q steps s).2.2.afe = s.afe ∧
    (inputsAt q steps s).2.2.ros = s.ros ∧ (inputsAt q steps s).2.2.res = s.res ∧
    (inputsAt q steps s).2.2.out = s.out ∧ (inputsAt q steps s).2.2.ldg = s.ldg ∧ (inputsAt q steps s).2.2.nv = s.nv ∧
    (inputsAt q steps s).2.2.cond = s.cond ∧ (inputsAt q steps s).2.2.disc = s.disc ∧
    (inputsAt q steps s).2.2.cal = s.cal ∧ (inputsAt q steps s).2.2.mem = s.mem ∧
    (inputsAt q steps s).2.2.free = s.free ∧ (inputsAt q steps s).2.2.pending = s.pending := by
  have k0 := @comparedAt_frame
  have k1 := @setAccepted_frame
  have k2 := @smSteps_frame
  have k3 := @withRise_frame
  simp only [inputsAt, when]
  repeat' split
  all_goals simp [k0, k1, k2, k3]

theorem lapReq_frame (n : Nat) (r : LdgReq) (s : State) :
    (lapReq n r s).2.pins = s.pins ∧ (lapReq n r s).2.pwr = s.pwr ∧ (lapReq n r s).2.sys = s.sys ∧
    (lapReq n r s).2.rtc = s.rtc ∧ (lapReq n r s).2.alm = s.alm ∧ (lapReq n r s).2.hif = s.hif ∧
    (lapReq n r s).2.evin = s.evin ∧ (lapReq n r s).2.clk = s.clk ∧ (lapReq n r s).2.afe = s.afe ∧
    (lapReq n r s).2.ros = s.ros ∧ (lapReq n r s).2.tt = s.tt ∧ (lapReq n r s).2.res = s.res ∧
    (lapReq n r s).2.out = s.out ∧ (lapReq n r s).2.nv = s.nv ∧ (lapReq n r s).2.cond = s.cond ∧
    (lapReq n r s).2.disc = s.disc ∧ (lapReq n r s).2.cal = s.cal ∧ (lapReq n r s).2.mem = s.mem ∧
    (lapReq n r s).2.free = s.free ∧ (lapReq n r s).2.pending = s.pending := by
  have k0 := @lapRefused_frame
  simp only [lapReq, when]
  repeat' split
  all_goals simp [k0]

theorem takeCmdsAt_frame (m : Moment) (r : LdgReq) (s : State) :
    (takeCmdsAt m r s).2.pins = s.pins ∧ (takeCmdsAt m r s).2.pwr = s.pwr ∧ (takeCmdsAt m r s).2.sys = s.sys ∧
    (takeCmdsAt m r s).2.rtc = s.rtc ∧ (takeCmdsAt m r s).2.alm = s.alm ∧ (takeCmdsAt m r s).2.hif = s.hif ∧
    (takeCmdsAt m r s).2.evin = s.evin ∧ (takeCmdsAt m r s).2.clk = s.clk ∧ (takeCmdsAt m r s).2.afe = s.afe ∧
    (takeCmdsAt m r s).2.ros = s.ros ∧ (takeCmdsAt m r s).2.tt = s.tt ∧ (takeCmdsAt m r s).2.res = s.res ∧
    (takeCmdsAt m r s).2.out = s.out ∧ (takeCmdsAt m r s).2.nv = s.nv ∧ (takeCmdsAt m r s).2.disc = s.disc ∧
    (takeCmdsAt m r s).2.cal = s.cal ∧ (takeCmdsAt m r s).2.free = s.free ∧ (takeCmdsAt m r s).2.pending = s.pending := by
  have k0 := @ldgTakeCmds_frame
  simp only [takeCmdsAt, when]
  repeat' split
  all_goals simp [k0]

@[simp] theorem registerAt_frame (m : Moment) (steps : List Step) (extra : List Occ) (s : State) :
    (registerAt m steps extra s).pins = s.pins ∧ (registerAt m steps extra s).pwr = s.pwr ∧
    (registerAt m steps extra s).rtc = s.rtc ∧ (registerAt m steps extra s).alm = s.alm ∧
    (registerAt m steps extra s).hif = s.hif ∧ (registerAt m steps extra s).disc = s.disc ∧
    (registerAt m steps extra s).cal = s.cal ∧ (registerAt m steps extra s).free = s.free ∧
    (registerAt m steps extra s).pending = s.pending := by
  have k0 := @inputsAt_frame
  have k1 := @instantAt_frame
  have k2 := @lapReq_frame
  have k3 := @takeCmdsAt_frame
  simp only [registerAt, when]
  repeat' split
  all_goals simp [k0, k1, k2, k3]

theorem acceptFast_frame (q : Nat) (s : State) :
    (acceptFast q s).pins = s.pins ∧ (acceptFast q s).pwr = s.pwr ∧ (acceptFast q s).rtc = s.rtc ∧
    (acceptFast q s).alm = s.alm ∧ (acceptFast q s).hif = s.hif ∧ (acceptFast q s).disc = s.disc ∧
    (acceptFast q s).cal = s.cal ∧ (acceptFast q s).free = s.free ∧ (acceptFast q s).pending = s.pending := by
  simp only [acceptFast, when]
  repeat' split
  all_goals simp

theorem endRun_frame (i : Nat) (v : Val) (s : State) :
    (endRun i v s).pins = s.pins ∧ (endRun i v s).pwr = s.pwr ∧ (endRun i v s).sys = s.sys ∧
    (endRun i v s).rtc = s.rtc ∧ (endRun i v s).alm = s.alm ∧ (endRun i v s).hif = s.hif ∧
    (endRun i v s).evt = s.evt ∧ (endRun i v s).evin = s.evin ∧ (endRun i v s).clk = s.clk ∧
    (endRun i v s).afe = s.afe ∧ (endRun i v s).ros = s.ros ∧ (endRun i v s).res = s.res ∧
    (endRun i v s).out = s.out ∧ (endRun i v s).ldg = s.ldg ∧ (endRun i v s).nv = s.nv ∧
    (endRun i v s).cond = s.cond ∧ (endRun i v s).disc = s.disc ∧ (endRun i v s).cal = s.cal ∧
    (endRun i v s).mem = s.mem ∧ (endRun i v s).free = s.free ∧ (endRun i v s).pending = s.pending := by
  simp only [endRun, when]
  repeat' split
  all_goals simp

theorem endConvert_frame (i : Nat) (x : ConvData) (f : Frame) (c : Carriage) (s : State) :
    (endConvert i x f c s).pins = s.pins ∧ (endConvert i x f c s).pwr = s.pwr ∧ (endConvert i x f c s).sys = s.sys ∧
    (endConvert i x f c s).rtc = s.rtc ∧ (endConvert i x f c s).alm = s.alm ∧ (endConvert i x f c s).hif = s.hif ∧
    (endConvert i x f c s).evin = s.evin ∧ (endConvert i x f c s).clk = s.clk ∧ (endConvert i x f c s).ros = s.ros ∧
    (endConvert i x f c s).res = s.res ∧ (endConvert i x f c s).out = s.out ∧ (endConvert i x f c s).ldg = s.ldg ∧
    (endConvert i x f c s).nv = s.nv ∧ (endConvert i x f c s).cond = s.cond ∧ (endConvert i x f c s).disc = s.disc ∧
    (endConvert i x f c s).cal = s.cal ∧ (endConvert i x f c s).mem = s.mem ∧
    (endConvert i x f c s).pending = s.pending := by
  have k0 := @diagOver_frame
  have k1 := @endRun_frame
  simp only [endConvert, when]
  repeat' split
  all_goals simp [k0, k1]

theorem endAux_frame (i : Nat) (x : ConvData) (f : Frame) (c : Carriage) (s : State) :
    (endAux i x f c s).pins = s.pins ∧ (endAux i x f c s).pwr = s.pwr ∧ (endAux i x f c s).sys = s.sys ∧
    (endAux i x f c s).rtc = s.rtc ∧ (endAux i x f c s).alm = s.alm ∧ (endAux i x f c s).hif = s.hif ∧
    (endAux i x f c s).evin = s.evin ∧ (endAux i x f c s).clk = s.clk ∧ (endAux i x f c s).ros = s.ros ∧
    (endAux i x f c s).res = s.res ∧ (endAux i x f c s).out = s.out ∧ (endAux i x f c s).ldg = s.ldg ∧
    (endAux i x f c s).nv = s.nv ∧ (endAux i x f c s).cond = s.cond ∧ (endAux i x f c s).disc = s.disc ∧
    (endAux i x f c s).cal = s.cal ∧ (endAux i x f c s).mem = s.mem ∧ (endAux i x f c s).free = s.free ∧
    (endAux i x f c s).pending = s.pending := by
  have k0 := @classifyArm_frame
  have k1 := @classifyLeak_frame
  have k2 := @endRun_frame
  simp only [endAux, when]
  repeat' split
  all_goals simp [k0, k1, k2]

@[simp] theorem conversionEnd_frame (i : Nat) (x : ConvData) (s : State) :
    (conversionEnd i x s).pins = s.pins ∧ (conversionEnd i x s).pwr = s.pwr ∧ (conversionEnd i x s).sys = s.sys ∧
    (conversionEnd i x s).rtc = s.rtc ∧ (conversionEnd i x s).alm = s.alm ∧ (conversionEnd i x s).hif = s.hif ∧
    (conversionEnd i x s).evin = s.evin ∧ (conversionEnd i x s).ldg = s.ldg ∧ (conversionEnd i x s).nv = s.nv ∧
    (conversionEnd i x s).cond = s.cond ∧ (conversionEnd i x s).disc = s.disc ∧ (conversionEnd i x s).cal = s.cal ∧
    (conversionEnd i x s).pending = s.pending := by
  have k0 := @endAux_frame
  have k1 := @endConvert_frame
  have k2 := @finishUpTo_frame
  simp only [conversionEnd, when]
  repeat' split
  all_goals simp [k0, k1, k2]

theorem blameDiag_frame (onPort : Nat → Bool) (q : List Byte → Bool) (s : State) :
    (blameDiag onPort q s).pins = s.pins ∧ (blameDiag onPort q s).pwr = s.pwr ∧ (blameDiag onPort q s).sys = s.sys ∧
    (blameDiag onPort q s).rtc = s.rtc ∧ (blameDiag onPort q s).alm = s.alm ∧ (blameDiag onPort q s).hif = s.hif ∧
    (blameDiag onPort q s).evt = s.evt ∧ (blameDiag onPort q s).evin = s.evin ∧ (blameDiag onPort q s).clk = s.clk ∧
    (blameDiag onPort q s).afe = s.afe ∧ (blameDiag onPort q s).ros = s.ros ∧ (blameDiag onPort q s).res = s.res ∧
    (blameDiag onPort q s).out = s.out ∧ (blameDiag onPort q s).ldg = s.ldg ∧ (blameDiag onPort q s).nv = s.nv ∧
    (blameDiag onPort q s).cond = s.cond ∧ (blameDiag onPort q s).disc = s.disc ∧ (blameDiag onPort q s).cal = s.cal ∧
    (blameDiag onPort q s).mem = s.mem ∧ (blameDiag onPort q s).free = s.free ∧
    (blameDiag onPort q s).pending = s.pending := by
  have k0 := @mapRuns_frame
  simp only [blameDiag, when]
  repeat' split
  all_goals simp [k0]

theorem clipFire_frame (k : Nat) (inUv : Int) (senseUv : Nat) (s : State) :
    (clipFire k inUv senseUv s).pins = s.pins ∧ (clipFire k inUv senseUv s).pwr = s.pwr ∧
    (clipFire k inUv senseUv s).sys = s.sys ∧ (clipFire k inUv senseUv s).rtc = s.rtc ∧
    (clipFire k inUv senseUv s).alm = s.alm ∧ (clipFire k inUv senseUv s).hif = s.hif ∧
    (clipFire k inUv senseUv s).evin = s.evin ∧ (clipFire k inUv senseUv s).clk = s.clk ∧
    (clipFire k inUv senseUv s).ros = s.ros ∧ (clipFire k inUv senseUv s).res = s.res ∧
    (clipFire k inUv senseUv s).out = s.out ∧ (clipFire k inUv senseUv s).ldg = s.ldg ∧
    (clipFire k inUv senseUv s).nv = s.nv ∧ (clipFire k inUv senseUv s).cond = s.cond ∧
    (clipFire k inUv senseUv s).disc = s.disc ∧ (clipFire k inUv senseUv s).cal = s.cal ∧
    (clipFire k inUv senseUv s).mem = s.mem ∧ (clipFire k inUv senseUv s).pending = s.pending := by
  have k0 := @diagOver_frame
  have k1 := @mapRuns_frame
  simp only [clipFire, when]
  repeat' split
  all_goals simp [k0, k1]

@[simp] theorem diagFire_frame (d : Diag) (s : State) :
    (diagFire d s).pins = s.pins ∧ (diagFire d s).pwr = s.pwr ∧ (diagFire d s).sys = s.sys ∧
    (diagFire d s).rtc = s.rtc ∧ (diagFire d s).alm = s.alm ∧ (diagFire d s).hif = s.hif ∧
    (diagFire d s).evin = s.evin ∧ (diagFire d s).clk = s.clk ∧ (diagFire d s).ros = s.ros ∧
    (diagFire d s).res = s.res ∧ (diagFire d s).out = s.out ∧ (diagFire d s).ldg = s.ldg ∧ (diagFire d s).nv = s.nv ∧
    (diagFire d s).cond = s.cond ∧ (diagFire d s).disc = s.disc ∧ (diagFire d s).cal = s.cal ∧
    (diagFire d s).mem = s.mem ∧ (diagFire d s).pending = s.pending := by
  have k0 := @blameDiag_frame
  have k1 := @clipFire_frame
  have k2 := @diagPair_frame
  have k3 := @diagPort_frame
  simp only [diagFire, when]
  repeat' split
  all_goals simp [k0, k1, k2, k3]

theorem sealNow_frame (c : BitVec 5) (s : State) :
    (sealNow c s).pins = s.pins ∧ (sealNow c s).pwr = s.pwr ∧ (sealNow c s).sys = s.sys ∧ (sealNow c s).rtc = s.rtc ∧
    (sealNow c s).alm = s.alm ∧ (sealNow c s).hif = s.hif ∧ (sealNow c s).evin = s.evin ∧ (sealNow c s).clk = s.clk ∧
    (sealNow c s).res = s.res ∧ (sealNow c s).out = s.out ∧ (sealNow c s).ldg = s.ldg ∧ (sealNow c s).nv = s.nv ∧
    (sealNow c s).cond = s.cond ∧ (sealNow c s).disc = s.disc ∧ (sealNow c s).cal = s.cal ∧
    (sealNow c s).mem = s.mem ∧ (sealNow c s).free = s.free ∧ (sealNow c s).pending = s.pending := by
  have k0 := @presettleFor_frame
  have k1 := @sealChannel_frame
  simp only [sealNow, when]
  repeat' split
  all_goals simp [k0, k1]

theorem applySwitch_frame (s : State) :
    (applySwitch s).pins = s.pins ∧ (applySwitch s).pwr = s.pwr ∧ (applySwitch s).sys = s.sys ∧
    (applySwitch s).rtc = s.rtc ∧ (applySwitch s).alm = s.alm ∧ (applySwitch s).hif = s.hif ∧
    (applySwitch s).evin = s.evin ∧ (applySwitch s).clk = s.clk ∧ (applySwitch s).afe = s.afe ∧
    (applySwitch s).ros = s.ros ∧ (applySwitch s).res = s.res ∧ (applySwitch s).out = s.out ∧
    (applySwitch s).ldg = s.ldg ∧ (applySwitch s).nv = s.nv ∧ (applySwitch s).disc = s.disc ∧
    (applySwitch s).cal = s.cal ∧ (applySwitch s).free = s.free ∧ (applySwitch s).pending = s.pending := by
  simp only [applySwitch, when]
  repeat' split
  all_goals simp

theorem followUp_frame (f : Frame) (n : Nat) (s : State) :
    (followUp f n s).pins = s.pins ∧ (followUp f n s).pwr = s.pwr ∧ (followUp f n s).sys = s.sys ∧
    (followUp f n s).rtc = s.rtc ∧ (followUp f n s).alm = s.alm ∧ (followUp f n s).hif = s.hif ∧
    (followUp f n s).clk = s.clk ∧ (followUp f n s).afe = s.afe ∧ (followUp f n s).ros = s.ros ∧
    (followUp f n s).res = s.res ∧ (followUp f n s).out = s.out ∧ (followUp f n s).ldg = s.ldg ∧
    (followUp f n s).nv = s.nv ∧ (followUp f n s).cond = s.cond ∧ (followUp f n s).disc = s.disc ∧
    (followUp f n s).cal = s.cal ∧ (followUp f n s).free = s.free ∧ (followUp f n s).pending = s.pending := by
  have k0 := @lateTrigger_frame
  simp only [followUp, when]
  repeat' split
  all_goals simp [k0]

theorem frameSteps_frame (n : Nat) (stamp : Stamp) (s : State) :
    (frameSteps n stamp s).pins = s.pins ∧ (frameSteps n stamp s).pwr = s.pwr ∧ (frameSteps n stamp s).rtc = s.rtc ∧
    (frameSteps n stamp s).alm = s.alm ∧ (frameSteps n stamp s).hif = s.hif ∧ (frameSteps n stamp s).disc = s.disc ∧
    (frameSteps n stamp s).cal = s.cal ∧ (frameSteps n stamp s).free = s.free ∧
    (frameSteps n stamp s).pending = s.pending := by
  simp only [frameSteps, when]
  repeat' split
  all_goals simp

theorem closeFrame_frame (f : Frame) (s : State) :
    (closeFrame f s).pins = s.pins ∧ (closeFrame f s).pwr = s.pwr ∧ (closeFrame f s).sys = s.sys ∧
    (closeFrame f s).rtc = s.rtc ∧ (closeFrame f s).alm = s.alm ∧ (closeFrame f s).hif = s.hif ∧
    (closeFrame f s).evin = s.evin ∧ (closeFrame f s).clk = s.clk ∧ (closeFrame f s).ros = s.ros ∧
    (closeFrame f s).out = s.out ∧ (closeFrame f s).ldg = s.ldg ∧ (closeFrame f s).nv = s.nv ∧
    (closeFrame f s).disc = s.disc ∧ (closeFrame f s).cal = s.cal ∧ (closeFrame f s).free = s.free ∧
    (closeFrame f s).pending = s.pending := by
  have k0 := @applySwitch_frame
  have k1 := @markFailRecord_frame
  have k2 := @releasePairs_frame
  have k3 := @withdrawPresettles_frame
  simp only [closeFrame, when]
  repeat' split
  all_goals simp [k0, k1, k2, k3]

theorem afterFrame_frame (f : Frame) (n : Nat) (stamp : Stamp) (s : State) :
    (afterFrame f n stamp s).pins = s.pins ∧ (afterFrame f n stamp s).pwr = s.pwr ∧
    (afterFrame f n stamp s).rtc = s.rtc ∧ (afterFrame f n stamp s).alm = s.alm ∧
    (afterFrame f n stamp s).hif = s.hif ∧ (afterFrame f n stamp s).disc = s.disc ∧
    (afterFrame f n stamp s).cal = s.cal ∧ (afterFrame f n stamp s).free = s.free ∧
    (afterFrame f n stamp s).pending = s.pending := by
  have k0 := @followUp_frame
  have k1 := @frameSteps_frame
  simp only [afterFrame, when]
  repeat' split
  all_goals simp [k0, k1]

theorem closeIfCut_frame (s : State) :
    (closeIfCut s).pins = s.pins ∧ (closeIfCut s).pwr = s.pwr ∧ (closeIfCut s).rtc = s.rtc ∧
    (closeIfCut s).alm = s.alm ∧ (closeIfCut s).hif = s.hif ∧ (closeIfCut s).disc = s.disc ∧
    (closeIfCut s).cal = s.cal ∧ (closeIfCut s).free = s.free ∧ (closeIfCut s).pending = s.pending := by
  have k0 := @afterFrame_frame
  have k1 := @closeFrame_frame
  simp only [closeIfCut, when]
  repeat' split
  all_goals simp [k0, k1]

@[simp] theorem frameEndOp_frame (s : State) :
    (frameEndOp s).pins = s.pins ∧ (frameEndOp s).pwr = s.pwr ∧ (frameEndOp s).rtc = s.rtc ∧
    (frameEndOp s).alm = s.alm ∧ (frameEndOp s).hif = s.hif ∧ (frameEndOp s).disc = s.disc ∧
    (frameEndOp s).cal = s.cal ∧ (frameEndOp s).free = s.free ∧ (frameEndOp s).pending = s.pending := by
  have k0 := @afterFrame_frame
  have k1 := @closeFrame_frame
  have k2 := @closeIfCut_frame
  have k3 := @finishUpTo_frame
  simp only [frameEndOp, when]
  repeat' split
  all_goals simp [k0, k1, k2, k3]

@[simp] theorem carriageEndOp_frame (i : Nat) (s : State) :
    (carriageEndOp i s).pins = s.pins ∧ (carriageEndOp i s).pwr = s.pwr ∧ (carriageEndOp i s).rtc = s.rtc ∧
    (carriageEndOp i s).alm = s.alm ∧ (carriageEndOp i s).hif = s.hif ∧ (carriageEndOp i s).disc = s.disc ∧
    (carriageEndOp i s).cal = s.cal ∧ (carriageEndOp i s).free = s.free ∧ (carriageEndOp i s).pending = s.pending := by
  have k0 := @closeIfCut_frame
  have k1 := @finish_frame
  have k2 := @finishUpTo_frame
  simp only [carriageEndOp, when]
  repeat' split
  all_goals simp [k0, k1, k2]

theorem haltSeq_frame (s : State) :
    (haltSeq s).pins = s.pins ∧ (haltSeq s).pwr = s.pwr ∧ (haltSeq s).sys = s.sys ∧ (haltSeq s).rtc = s.rtc ∧
    (haltSeq s).alm = s.alm ∧ (haltSeq s).hif = s.hif ∧ (haltSeq s).clk = s.clk ∧ (haltSeq s).afe = s.afe ∧
    (haltSeq s).ros = s.ros ∧ (haltSeq s).res = s.res ∧ (haltSeq s).ldg = s.ldg ∧ (haltSeq s).nv = s.nv ∧
    (haltSeq s).cond = s.cond ∧ (haltSeq s).disc = s.disc ∧ (haltSeq s).cal = s.cal ∧ (haltSeq s).free = s.free ∧
    (haltSeq s).pending = s.pending := by
  have k0 := @dropAwait_frame
  have k1 := @haltFault_frame
  simp only [haltSeq, when]
  repeat' split
  all_goals simp [k0, k1]

theorem dropDue_frame (op : Nat) (started : Bool) (s : State) :
    (dropDue op started s).pins = s.pins ∧ (dropDue op started s).pwr = s.pwr ∧ (dropDue op started s).sys = s.sys ∧
    (dropDue op started s).rtc = s.rtc ∧ (dropDue op started s).alm = s.alm ∧ (dropDue op started s).hif = s.hif ∧
    (dropDue op started s).evt = s.evt ∧ (dropDue op started s).evin = s.evin ∧ (dropDue op started s).clk = s.clk ∧
    (dropDue op started s).afe = s.afe ∧ (dropDue op started s).ros = s.ros ∧ (dropDue op started s).tt = s.tt ∧
    (dropDue op started s).res = s.res ∧ (dropDue op started s).ldg = s.ldg ∧ (dropDue op started s).nv = s.nv ∧
    (dropDue op started s).cond = s.cond ∧ (dropDue op started s).disc = s.disc ∧ (dropDue op started s).cal = s.cal ∧
    (dropDue op started s).mem = s.mem ∧ (dropDue op started s).free = s.free ∧
    (dropDue op started s).pending = s.pending := by
  simp only [dropDue, when]
  repeat' split
  all_goals simp

theorem cutOne_frame (reason : Nat) (stamp : Stamp) (i : Nat) (s : State) :
    (cutOne reason stamp i s).pins = s.pins ∧ (cutOne reason stamp i s).pwr = s.pwr ∧
    (cutOne reason stamp i s).sys = s.sys ∧ (cutOne reason stamp i s).rtc = s.rtc ∧
    (cutOne reason stamp i s).alm = s.alm ∧ (cutOne reason stamp i s).hif = s.hif ∧
    (cutOne reason stamp i s).evin = s.evin ∧ (cutOne reason stamp i s).clk = s.clk ∧
    (cutOne reason stamp i s).afe = s.afe ∧ (cutOne reason stamp i s).ros = s.ros ∧
    (cutOne reason stamp i s).ldg = s.ldg ∧ (cutOne reason stamp i s).nv = s.nv ∧
    (cutOne reason stamp i s).cond = s.cond ∧ (cutOne reason stamp i s).disc = s.disc ∧
    (cutOne reason stamp i s).cal = s.cal ∧ (cutOne reason stamp i s).free = s.free ∧
    (cutOne reason stamp i s).pending = s.pending := by
  have k0 := @dropDue_frame
  have k1 := @failRecord_frame
  simp only [cutOne, when]
  repeat' split
  all_goals simp [k0, k1]

theorem cutFrame_frame (reason : Nat) (p : CarRun → Bool) (s : State) :
    (cutFrame reason p s).pins = s.pins ∧ (cutFrame reason p s).pwr = s.pwr ∧ (cutFrame reason p s).sys = s.sys ∧
    (cutFrame reason p s).rtc = s.rtc ∧ (cutFrame reason p s).alm = s.alm ∧ (cutFrame reason p s).hif = s.hif ∧
    (cutFrame reason p s).evin = s.evin ∧ (cutFrame reason p s).clk = s.clk ∧ (cutFrame reason p s).afe = s.afe ∧
    (cutFrame reason p s).ros = s.ros ∧ (cutFrame reason p s).ldg = s.ldg ∧ (cutFrame reason p s).nv = s.nv ∧
    (cutFrame reason p s).cond = s.cond ∧ (cutFrame reason p s).disc = s.disc ∧ (cutFrame reason p s).cal = s.cal ∧
    (cutFrame reason p s).free = s.free ∧ (cutFrame reason p s).pending = s.pending := by
  have k0 := @cutOne_frame
  simp only [cutFrame, when]
  repeat' split
  all_goals simp [k0]

theorem cutAll_frame (s : State) :
    (cutAll s).pins = s.pins ∧ (cutAll s).pwr = s.pwr ∧ (cutAll s).rtc = s.rtc ∧ (cutAll s).alm = s.alm ∧
    (cutAll s).hif = s.hif ∧ (cutAll s).disc = s.disc ∧ (cutAll s).cal = s.cal ∧ (cutAll s).free = s.free ∧
    (cutAll s).pending = s.pending := by
  have k0 := @closeIfCut_frame
  have k1 := @cutFrame_frame
  have k2 := @dropQueued_frame
  have k3 := @haltSeq_frame
  simp only [cutAll, when]
  repeat' split
  all_goals simp [k0, k1, k2, k3]

theorem goSlow_frame (s : State) :
    (goSlow s).pins = s.pins ∧ (goSlow s).pwr = s.pwr ∧ (goSlow s).sys = s.sys ∧ (goSlow s).rtc = s.rtc ∧
    (goSlow s).alm = s.alm ∧ (goSlow s).hif = s.hif ∧ (goSlow s).evt = s.evt ∧ (goSlow s).evin = s.evin ∧
    (goSlow s).clk = s.clk ∧ (goSlow s).afe = s.afe ∧ (goSlow s).ros = s.ros ∧ (goSlow s).res = s.res ∧
    (goSlow s).out = s.out ∧ (goSlow s).ldg = s.ldg ∧ (goSlow s).nv = s.nv ∧ (goSlow s).cond = s.cond ∧
    (goSlow s).disc = s.disc ∧ (goSlow s).cal = s.cal ∧ (goSlow s).mem = s.mem ∧ (goSlow s).free = s.free ∧
    (goSlow s).pending = s.pending := by
  simp only [goSlow, when]
  repeat' split
  all_goals simp

theorem cutDrift_frame (s : State) :
    (cutDrift s).pins = s.pins ∧ (cutDrift s).pwr = s.pwr ∧ (cutDrift s).rtc = s.rtc ∧ (cutDrift s).alm = s.alm ∧
    (cutDrift s).hif = s.hif ∧ (cutDrift s).disc = s.disc ∧ (cutDrift s).cal = s.cal ∧ (cutDrift s).free = s.free ∧
    (cutDrift s).pending = s.pending := by
  have k0 := @closeIfCut_frame
  have k1 := @cutFrame_frame
  have k2 := @dropQueued_frame
  have k3 := @goSlow_frame
  have k4 := @haltSeq_frame
  simp only [cutDrift, when]
  repeat' split
  all_goals simp [k0, k1, k2, k3, k4]

theorem cutWarn_frame (s : State) :
    (cutWarn s).pins = s.pins ∧ (cutWarn s).pwr = s.pwr ∧ (cutWarn s).rtc = s.rtc ∧ (cutWarn s).alm = s.alm ∧
    (cutWarn s).hif = s.hif ∧ (cutWarn s).disc = s.disc ∧ (cutWarn s).cal = s.cal ∧ (cutWarn s).free = s.free ∧
    (cutWarn s).pending = s.pending := by
  have k0 := @closeIfCut_frame
  have k1 := @cutFrame_frame
  simp only [cutWarn, when]
  repeat' split
  all_goals simp [k0, k1]

theorem raceTables_frame (before : List Host.Cell) (s : State) :
    (raceTables before s).pins = s.pins ∧ (raceTables before s).pwr = s.pwr ∧ (raceTables before s).sys = s.sys ∧
    (raceTables before s).rtc = s.rtc ∧ (raceTables before s).alm = s.alm ∧ (raceTables before s).hif = s.hif ∧
    (raceTables before s).evt = s.evt ∧ (raceTables before s).evin = s.evin ∧ (raceTables before s).clk = s.clk ∧
    (raceTables before s).afe = s.afe ∧ (raceTables before s).ros = s.ros ∧ (raceTables before s).res = s.res ∧
    (raceTables before s).out = s.out ∧ (raceTables before s).ldg = s.ldg ∧ (raceTables before s).nv = s.nv ∧
    (raceTables before s).cond = s.cond ∧ (raceTables before s).disc = s.disc ∧ (raceTables before s).cal = s.cal ∧
    (raceTables before s).mem = s.mem ∧ (raceTables before s).free = s.free ∧
    (raceTables before s).pending = s.pending := by
  simp only [raceTables, when]
  repeat' split
  all_goals simp

theorem ledgerUndo_frame (i : Nat) (f : Frame) (c : Carriage) (x : FmtRead) (before : List Host.Cell) (s : State) :
    (ledgerUndo i f c x before s).pins = s.pins ∧ (ledgerUndo i f c x before s).pwr = s.pwr ∧
    (ledgerUndo i f c x before s).sys = s.sys ∧ (ledgerUndo i f c x before s).rtc = s.rtc ∧
    (ledgerUndo i f c x before s).alm = s.alm ∧ (ledgerUndo i f c x before s).hif = s.hif ∧
    (ledgerUndo i f c x before s).evt = s.evt ∧ (ledgerUndo i f c x before s).evin = s.evin ∧
    (ledgerUndo i f c x before s).clk = s.clk ∧ (ledgerUndo i f c x before s).afe = s.afe ∧
    (ledgerUndo i f c x before s).ros = s.ros ∧ (ledgerUndo i f c x before s).tt = s.tt ∧
    (ledgerUndo i f c x before s).res = s.res ∧ (ledgerUndo i f c x before s).out = s.out ∧
    (ledgerUndo i f c x before s).nv = s.nv ∧ (ledgerUndo i f c x before s).cond = s.cond ∧
    (ledgerUndo i f c x before s).disc = s.disc ∧ (ledgerUndo i f c x before s).cal = s.cal ∧
    (ledgerUndo i f c x before s).mem = s.mem ∧ (ledgerUndo i f c x before s).free = s.free ∧
    (ledgerUndo i f c x before s).pending = s.pending := by
  simp only [ledgerUndo, when]
  repeat' split
  all_goals simp

theorem rereadBy_frame (before : List Host.Cell) (i : Nat) (f : Frame) (c : Carriage) (r : CarRun) (x y : FmtRead) (s : State) :
    (rereadBy before i f c r x y s).pins = s.pins ∧ (rereadBy before i f c r x y s).pwr = s.pwr ∧
    (rereadBy before i f c r x y s).sys = s.sys ∧ (rereadBy before i f c r x y s).rtc = s.rtc ∧
    (rereadBy before i f c r x y s).alm = s.alm ∧ (rereadBy before i f c r x y s).hif = s.hif ∧
    (rereadBy before i f c r x y s).evt = s.evt ∧ (rereadBy before i f c r x y s).evin = s.evin ∧
    (rereadBy before i f c r x y s).clk = s.clk ∧ (rereadBy before i f c r x y s).afe = s.afe ∧
    (rereadBy before i f c r x y s).ros = s.ros ∧ (rereadBy before i f c r x y s).res = s.res ∧
    (rereadBy before i f c r x y s).nv = s.nv ∧ (rereadBy before i f c r x y s).cond = s.cond ∧
    (rereadBy before i f c r x y s).disc = s.disc ∧ (rereadBy before i f c r x y s).cal = s.cal ∧
    (rereadBy before i f c r x y s).mem = s.mem ∧ (rereadBy before i f c r x y s).free = s.free ∧
    (rereadBy before i f c r x y s).pending = s.pending := by
  have k0 := @deliverBy_frame
  have k1 := @ledgerUndo_frame
  simp only [rereadBy, when]
  repeat' split
  all_goals simp [k0, k1]

theorem raceFormat_frame (before : List Host.Cell) (i : Nat) (s : State) :
    (raceFormat before i s).pins = s.pins ∧ (raceFormat before i s).pwr = s.pwr ∧
    (raceFormat before i s).sys = s.sys ∧ (raceFormat before i s).rtc = s.rtc ∧ (raceFormat before i s).alm = s.alm ∧
    (raceFormat before i s).hif = s.hif ∧ (raceFormat before i s).evt = s.evt ∧
    (raceFormat before i s).evin = s.evin ∧ (raceFormat before i s).clk = s.clk ∧
    (raceFormat before i s).afe = s.afe ∧ (raceFormat before i s).ros = s.ros ∧ (raceFormat before i s).res = s.res ∧
    (raceFormat before i s).nv = s.nv ∧ (raceFormat before i s).cond = s.cond ∧
    (raceFormat before i s).disc = s.disc ∧ (raceFormat before i s).cal = s.cal ∧
    (raceFormat before i s).mem = s.mem ∧ (raceFormat before i s).free = s.free ∧
    (raceFormat before i s).pending = s.pending := by
  have k0 := @rereadBy_frame
  simp only [raceFormat, when]
  repeat' split
  all_goals simp [k0]

theorem raceFormats_frame (before : List Host.Cell) (s : State) :
    (raceFormats before s).pins = s.pins ∧ (raceFormats before s).pwr = s.pwr ∧ (raceFormats before s).sys = s.sys ∧
    (raceFormats before s).rtc = s.rtc ∧ (raceFormats before s).alm = s.alm ∧ (raceFormats before s).hif = s.hif ∧
    (raceFormats before s).evt = s.evt ∧ (raceFormats before s).evin = s.evin ∧ (raceFormats before s).clk = s.clk ∧
    (raceFormats before s).afe = s.afe ∧ (raceFormats before s).ros = s.ros ∧ (raceFormats before s).res = s.res ∧
    (raceFormats before s).nv = s.nv ∧ (raceFormats before s).cond = s.cond ∧ (raceFormats before s).disc = s.disc ∧
    (raceFormats before s).cal = s.cal ∧ (raceFormats before s).mem = s.mem ∧
    (raceFormats before s).pending = s.pending := by
  have k0 := @raceFormat_frame
  simp only [raceFormats, when]
  repeat' split
  all_goals simp [k0]

end Sys2Proof.Machine
end

