-- ==== Sys2Proof/Laws/FrameClocks.lean ====
section
/-! SUPPORT. What each shared operation of these units leaves unchanged: the top-level parts of State it never writes.
Cited instead of unfolding the operation; those of the operations a meaning calls itself are simp lemmas, the others serve `simp` as
a hypothesis (`have h := @name`). -/

set_option linter.unusedSimpArgs false
set_option linter.unusedTactic false

namespace Sys2Proof.Machine

theorem fastEdge_frame (k : Nat) (level : Bool) (n m : Nat) (s : State) :
    (fastEdge k level n m s).pins = s.pins ∧ (fastEdge k level n m s).pwr = s.pwr ∧
    (fastEdge k level n m s).sys = s.sys ∧ (fastEdge k level n m s).rtc = s.rtc ∧
    (fastEdge k level n m s).alm = s.alm ∧ (fastEdge k level n m s).hif = s.hif ∧
    (fastEdge k level n m s).evt = s.evt ∧ (fastEdge k level n m s).clk = s.clk ∧
    (fastEdge k level n m s).afe = s.afe ∧ (fastEdge k level n m s).ros = s.ros ∧ (fastEdge k level n m s).tt = s.tt ∧
    (fastEdge k level n m s).res = s.res ∧ (fastEdge k level n m s).out = s.out ∧
    (fastEdge k level n m s).ldg = s.ldg ∧ (fastEdge k level n m s).nv = s.nv ∧
    (fastEdge k level n m s).cond = s.cond ∧ (fastEdge k level n m s).disc = s.disc ∧
    (fastEdge k level n m s).cal = s.cal ∧ (fastEdge k level n m s).mem = s.mem ∧
    (fastEdge k level n m s).free = s.free ∧ (fastEdge k level n m s).pending = s.pending := by
  have k0 := @setConf_frame
  simp only [fastEdge, when]
  repeat' split
  all_goals simp [k0]

theorem resumeFast_frame (q : Nat) (ks : List Nat) (s : State) :
    (resumeFast q ks s).pins = s.pins ∧ (resumeFast q ks s).pwr = s.pwr ∧ (resumeFast q ks s).rtc = s.rtc ∧
    (resumeFast q ks s).alm = s.alm ∧ (resumeFast q ks s).hif = s.hif ∧ (resumeFast q ks s).disc = s.disc ∧
    (resumeFast q ks s).cal = s.cal ∧ (resumeFast q ks s).free = s.free ∧ (resumeFast q ks s).pending = s.pending := by
  have k0 := @compared_frame
  have k1 := @setAccepted_frame
  have k2 := @syncReset_frame
  simp only [resumeFast, when]
  repeat' split
  all_goals simp [k0, k1, k2]

theorem takeFresh_frame (n : Nat) (s : State) :
    (takeFresh n s).pins = s.pins ∧ (takeFresh n s).pwr = s.pwr ∧ (takeFresh n s).rtc = s.rtc ∧
    (takeFresh n s).alm = s.alm ∧ (takeFresh n s).hif = s.hif ∧ (takeFresh n s).disc = s.disc ∧
    (takeFresh n s).cal = s.cal ∧ (takeFresh n s).free = s.free ∧ (takeFresh n s).pending = s.pending := by
  have k0 := @resumeFast_frame
  simp only [takeFresh, when]
  repeat' split
  all_goals simp [k0]

@[simp] theorem transition_frame (k : Nat) (level : Bool) (e : Edge) (s : State) :
    (transition k level e s).pwr = s.pwr ∧ (transition k level e s).rtc = s.rtc ∧
    (transition k level e s).alm = s.alm ∧ (transition k level e s).hif = s.hif ∧
    (transition k level e s).disc = s.disc ∧ (transition k level e s).cal = s.cal ∧
    (transition k level e s).free = s.free ∧ (transition k level e s).pending = s.pending := by
  have k0 := @fastEdge_frame
  have k1 := @holdSync_frame
  have k2 := @takeFresh_frame
  simp only [transition, when]
  repeat' split
  all_goals simp [k0, k1, k2]

theorem handover_frame (t : Nat) (s : State) :
    (handover t s).pins = s.pins ∧ (handover t s).pwr = s.pwr ∧ (handover t s).rtc = s.rtc ∧
    (handover t s).alm = s.alm ∧ (handover t s).hif = s.hif ∧ (handover t s).disc = s.disc ∧
    (handover t s).cal = s.cal ∧ (handover t s).free = s.free ∧ (handover t s).pending = s.pending := by
  have k0 := @resumeFast_frame
  have k1 := @setConf_frame
  simp only [handover, when]
  repeat' split
  all_goals simp [k0, k1]

theorem handoverHere_frame (s : State) :
    (handoverHere s).pins = s.pins ∧ (handoverHere s).pwr = s.pwr ∧ (handoverHere s).rtc = s.rtc ∧
    (handoverHere s).alm = s.alm ∧ (handoverHere s).hif = s.hif ∧ (handoverHere s).disc = s.disc ∧
    (handoverHere s).cal = s.cal ∧ (handoverHere s).free = s.free ∧ (handoverHere s).pending = s.pending := by
  have k0 := @handover_frame
  simp only [handoverHere, when]
  repeat' split
  all_goals simp [k0]

theorem writeIncfg_frame (w : Word) (s : State) :
    (writeIncfg w s).pins = s.pins ∧ (writeIncfg w s).pwr = s.pwr ∧ (writeIncfg w s).rtc = s.rtc ∧
    (writeIncfg w s).alm = s.alm ∧ (writeIncfg w s).hif = s.hif ∧ (writeIncfg w s).disc = s.disc ∧
    (writeIncfg w s).cal = s.cal ∧ (writeIncfg w s).free = s.free ∧ (writeIncfg w s).pending = s.pending := by
  have k0 := @holdSync_frame
  have k1 := @takeFresh_frame
  simp only [writeIncfg, when]
  repeat' split
  all_goals simp [k0, k1]

@[simp] theorem rest_frame (s : State) :
    (rest s).pins = s.pins ∧ (rest s).pwr = s.pwr ∧ (rest s).rtc = s.rtc ∧ (rest s).alm = s.alm ∧
    (rest s).hif = s.hif ∧ (rest s).evt = s.evt ∧ (rest s).tt = s.tt ∧ (rest s).res = s.res ∧ (rest s).ldg = s.ldg ∧
    (rest s).nv = s.nv ∧ (rest s).disc = s.disc ∧ (rest s).cal = s.cal ∧ (rest s).mem = s.mem ∧
    (rest s).free = s.free ∧ (rest s).pending = s.pending := by
  have k0 := @park_frame
  simp only [rest, when]
  repeat' split
  all_goals simp [k0]

theorem lockSources_frame (cause : AcqBy) (s : State) :
    (lockSources cause s).pins = s.pins ∧ (lockSources cause s).pwr = s.pwr ∧ (lockSources cause s).sys = s.sys ∧
    (lockSources cause s).rtc = s.rtc ∧ (lockSources cause s).alm = s.alm ∧ (lockSources cause s).hif = s.hif ∧
    (lockSources cause s).evin = s.evin ∧ (lockSources cause s).clk = s.clk ∧ (lockSources cause s).afe = s.afe ∧
    (lockSources cause s).ros = s.ros ∧ (lockSources cause s).tt = s.tt ∧ (lockSources cause s).res = s.res ∧
    (lockSources cause s).out = s.out ∧ (lockSources cause s).ldg = s.ldg ∧ (lockSources cause s).nv = s.nv ∧
    (lockSources cause s).cond = s.cond ∧ (lockSources cause s).disc = s.disc ∧ (lockSources cause s).cal = s.cal ∧
    (lockSources cause s).mem = s.mem ∧ (lockSources cause s).free = s.free ∧
    (lockSources cause s).pending = s.pending := by
  simp only [lockSources, when]
  repeat' split
  all_goals simp

theorem toHf_frame (q : Nat) (rising : Bool) (s : State) :
    (toHf q rising s).pins = s.pins ∧ (toHf q rising s).pwr = s.pwr ∧ (toHf q rising s).rtc = s.rtc ∧
    (toHf q rising s).alm = s.alm ∧ (toHf q rising s).hif = s.hif ∧ (toHf q rising s).disc = s.disc ∧
    (toHf q rising s).cal = s.cal ∧ (toHf q rising s).free = s.free ∧ (toHf q rising s).pending = s.pending := by
  have k0 := @bypassOut_frame
  have k1 := @handover_frame
  have k2 := @syncReset_frame
  simp only [toHf, when]
  repeat' split
  all_goals simp [k0, k1, k2]

theorem declareLock_frame (a : Acq) (t : Nat) (rising : Bool) (s : State) :
    (declareLock a t rising s).pins = s.pins ∧ (declareLock a t rising s).pwr = s.pwr ∧
    (declareLock a t rising s).rtc = s.rtc ∧ (declareLock a t rising s).alm = s.alm ∧
    (declareLock a t rising s).hif = s.hif ∧ (declareLock a t rising s).disc = s.disc ∧
    (declareLock a t rising s).cal = s.cal ∧ (declareLock a t rising s).pending = s.pending := by
  have k0 := @changeRef_frame
  have k1 := @lockSources_frame
  have k2 := @toHf_frame
  simp only [declareLock, when]
  repeat' split
  all_goals simp [k0, k1, k2]

theorem windowFails_frame (a : Acq) (s : State) :
    (windowFails a s).pins = s.pins ∧ (windowFails a s).pwr = s.pwr ∧ (windowFails a s).sys = s.sys ∧
    (windowFails a s).rtc = s.rtc ∧ (windowFails a s).alm = s.alm ∧ (windowFails a s).hif = s.hif ∧
    (windowFails a s).res = s.res ∧ (windowFails a s).out = s.out ∧ (windowFails a s).ldg = s.ldg ∧
    (windowFails a s).nv = s.nv ∧ (windowFails a s).cond = s.cond ∧ (windowFails a s).disc = s.disc ∧
    (windowFails a s).cal = s.cal ∧ (windowFails a s).free = s.free ∧ (windowFails a s).pending = s.pending := by
  have k0 := @acqFail_frame
  simp only [windowFails, when]
  repeat' split
  all_goals simp [k0]

theorem lockLost_frame (err : BitVec 3) (s : State) :
    (lockLost err s).pins = s.pins ∧ (lockLost err s).pwr = s.pwr ∧ (lockLost err s).rtc = s.rtc ∧
    (lockLost err s).alm = s.alm ∧ (lockLost err s).hif = s.hif ∧ (lockLost err s).disc = s.disc ∧
    (lockLost err s).cal = s.cal ∧ (lockLost err s).free = s.free ∧ (lockLost err s).pending = s.pending := by
  have k0 := @bypassIn_frame
  have k1 := @cutAll_frame
  have k2 := @retry_frame
  simp only [lockLost, when]
  repeat' split
  all_goals simp [k0, k1, k2]

@[simp] theorem lockWindowClose_frame (count : Nat) (c : Close) (s : State) :
    (lockWindowClose count c s).pins = s.pins ∧ (lockWindowClose count c s).pwr = s.pwr ∧
    (lockWindowClose count c s).rtc = s.rtc ∧ (lockWindowClose count c s).alm = s.alm ∧
    (lockWindowClose count c s).hif = s.hif ∧ (lockWindowClose count c s).disc = s.disc ∧
    (lockWindowClose count c s).cal = s.cal ∧ (lockWindowClose count c s).pending = s.pending := by
  have k0 := @declareLock_frame
  have k1 := @lockLost_frame
  have k2 := @windowFails_frame
  simp only [lockWindowClose, when]
  repeat' split
  all_goals simp [k0, k1, k2]

@[simp] theorem refinMissing_frame (t : Nat) (s : State) :
    (refinMissing t s).pins = s.pins ∧ (refinMissing t s).pwr = s.pwr ∧ (refinMissing t s).rtc = s.rtc ∧
    (refinMissing t s).alm = s.alm ∧ (refinMissing t s).hif = s.hif ∧ (refinMissing t s).disc = s.disc ∧
    (refinMissing t s).cal = s.cal ∧ (refinMissing t s).free = s.free ∧ (refinMissing t s).pending = s.pending := by
  have k0 := @acqFail_frame
  have k1 := @lockLost_frame
  have k2 := @underFallback_frame
  simp only [refinMissing, when]
  repeat' split
  all_goals simp [k0, k1, k2]

theorem driftTake_frame (q : Nat) (s : State) :
    (driftTake q s).pins = s.pins ∧ (driftTake q s).pwr = s.pwr ∧ (driftTake q s).sys = s.sys ∧
    (driftTake q s).rtc = s.rtc ∧ (driftTake q s).alm = s.alm ∧ (driftTake q s).hif = s.hif ∧
    (driftTake q s).evt = s.evt ∧ (driftTake q s).evin = s.evin ∧ (driftTake q s).afe = s.afe ∧
    (driftTake q s).ros = s.ros ∧ (driftTake q s).tt = s.tt ∧ (driftTake q s).res = s.res ∧
    (driftTake q s).out = s.out ∧ (driftTake q s).ldg = s.ldg ∧ (driftTake q s).nv = s.nv ∧
    (driftTake q s).cond = s.cond ∧ (driftTake q s).disc = s.disc ∧ (driftTake q s).cal = s.cal ∧
    (driftTake q s).mem = s.mem ∧ (driftTake q s).free = s.free ∧ (driftTake q s).pending = s.pending := by
  simp only [driftTake, when]
  repeat' split
  all_goals simp

theorem driftWarn_frame (raising : Bool) (e : Int) (s : State) :
    (driftWarn raising e s).pins = s.pins ∧ (driftWarn raising e s).pwr = s.pwr ∧
    (driftWarn raising e s).sys = s.sys ∧ (driftWarn raising e s).rtc = s.rtc ∧ (driftWarn raising e s).alm = s.alm ∧
    (driftWarn raising e s).hif = s.hif ∧ (driftWarn raising e s).evin = s.evin ∧
    (driftWarn raising e s).afe = s.afe ∧ (driftWarn raising e s).ros = s.ros ∧ (driftWarn raising e s).tt = s.tt ∧
    (driftWarn raising e s).res = s.res ∧ (driftWarn raising e s).out = s.out ∧ (driftWarn raising e s).ldg = s.ldg ∧
    (driftWarn raising e s).nv = s.nv ∧ (driftWarn raising e s).cond = s.cond ∧
    (driftWarn raising e s).disc = s.disc ∧ (driftWarn raising e s).cal = s.cal ∧
    (driftWarn raising e s).mem = s.mem ∧ (driftWarn raising e s).free = s.free ∧
    (driftWarn raising e s).pending = s.pending := by
  simp only [driftWarn, when]
  repeat' split
  all_goals simp

@[simp] theorem driftWindowClose_frame (q t : Nat) (s : State) :
    (driftWindowClose q t s).pins = s.pins ∧ (driftWindowClose q t s).pwr = s.pwr ∧
    (driftWindowClose q t s).rtc = s.rtc ∧ (driftWindowClose q t s).alm = s.alm ∧
    (driftWindowClose q t s).hif = s.hif ∧ (driftWindowClose q t s).disc = s.disc ∧
    (driftWindowClose q t s).cal = s.cal ∧ (driftWindowClose q t s).free = s.free ∧
    (driftWindowClose q t s).pending = s.pending := by
  have k0 := @bypassIn_frame
  have k1 := @cutDrift_frame
  have k2 := @driftTake_frame
  have k3 := @driftWarn_frame
  have k4 := @toHf_frame
  simp only [driftWindowClose, when]
  repeat' split
  all_goals simp [k0, k1, k2, k3, k4]

theorem restartClock_frame (cause : AcqBy) (s : State) :
    (restartClock cause s).pins = s.pins ∧ (restartClock cause s).pwr = s.pwr ∧ (restartClock cause s).rtc = s.rtc ∧
    (restartClock cause s).alm = s.alm ∧ (restartClock cause s).hif = s.hif ∧ (restartClock cause s).disc = s.disc ∧
    (restartClock cause s).cal = s.cal ∧ (restartClock cause s).free = s.free ∧
    (restartClock cause s).pending = s.pending := by
  have k0 := @acquire_frame
  have k1 := @bypassIn_frame
  have k2 := @cutAll_frame
  have k3 := @discardQ_frame
  have k4 := @dropAhead_frame
  have k5 := @withdrawPresettles_frame
  simp only [restartClock, when]
  repeat' split
  all_goals simp [k0, k1, k2, k3, k4, k5]

theorem writeClkSrc_frame (w : Word) (s : State) :
    (writeClkSrc w s).pins = s.pins ∧ (writeClkSrc w s).pwr = s.pwr ∧ (writeClkSrc w s).sys = s.sys ∧
    (writeClkSrc w s).rtc = s.rtc ∧ (writeClkSrc w s).alm = s.alm ∧ (writeClkSrc w s).hif = s.hif ∧
    (writeClkSrc w s).evt = s.evt ∧ (writeClkSrc w s).evin = s.evin ∧ (writeClkSrc w s).afe = s.afe ∧
    (writeClkSrc w s).ros = s.ros ∧ (writeClkSrc w s).tt = s.tt ∧ (writeClkSrc w s).res = s.res ∧
    (writeClkSrc w s).out = s.out ∧ (writeClkSrc w s).ldg = s.ldg ∧ (writeClkSrc w s).nv = s.nv ∧
    (writeClkSrc w s).cond = s.cond ∧ (writeClkSrc w s).disc = s.disc ∧ (writeClkSrc w s).cal = s.cal ∧
    (writeClkSrc w s).mem = s.mem ∧ (writeClkSrc w s).free = s.free ∧ (writeClkSrc w s).pending = s.pending := by
  simp only [writeClkSrc, when]
  repeat' split
  all_goals simp

theorem writeClkPlan_frame (w : Word) (s : State) :
    (writeClkPlan w s).pins = s.pins ∧ (writeClkPlan w s).pwr = s.pwr ∧ (writeClkPlan w s).sys = s.sys ∧
    (writeClkPlan w s).rtc = s.rtc ∧ (writeClkPlan w s).alm = s.alm ∧ (writeClkPlan w s).hif = s.hif ∧
    (writeClkPlan w s).evt = s.evt ∧ (writeClkPlan w s).evin = s.evin ∧ (writeClkPlan w s).afe = s.afe ∧
    (writeClkPlan w s).ros = s.ros ∧ (writeClkPlan w s).tt = s.tt ∧ (writeClkPlan w s).res = s.res ∧
    (writeClkPlan w s).out = s.out ∧ (writeClkPlan w s).ldg = s.ldg ∧ (writeClkPlan w s).nv = s.nv ∧
    (writeClkPlan w s).cond = s.cond ∧ (writeClkPlan w s).disc = s.disc ∧ (writeClkPlan w s).cal = s.cal ∧
    (writeClkPlan w s).mem = s.mem ∧ (writeClkPlan w s).free = s.free ∧ (writeClkPlan w s).pending = s.pending := by
  simp only [writeClkPlan, when]
  repeat' split
  all_goals simp

theorem retryTick_frame (s : State) :
    (retryTick s).pins = s.pins ∧ (retryTick s).pwr = s.pwr ∧ (retryTick s).sys = s.sys ∧ (retryTick s).rtc = s.rtc ∧
    (retryTick s).alm = s.alm ∧ (retryTick s).hif = s.hif ∧ (retryTick s).res = s.res ∧ (retryTick s).out = s.out ∧
    (retryTick s).ldg = s.ldg ∧ (retryTick s).nv = s.nv ∧ (retryTick s).cond = s.cond ∧ (retryTick s).disc = s.disc ∧
    (retryTick s).cal = s.cal ∧ (retryTick s).free = s.free ∧ (retryTick s).pending = s.pending := by
  have k0 := @retry_frame
  simp only [retryTick, when]
  repeat' split
  all_goals simp [k0]

theorem takeSpread_frame (x : SpreadSet) (s : State) :
    (takeSpread x s).pins = s.pins ∧ (takeSpread x s).pwr = s.pwr ∧ (takeSpread x s).sys = s.sys ∧
    (takeSpread x s).rtc = s.rtc ∧ (takeSpread x s).alm = s.alm ∧ (takeSpread x s).hif = s.hif ∧
    (takeSpread x s).evt = s.evt ∧ (takeSpread x s).evin = s.evin ∧ (takeSpread x s).afe = s.afe ∧
    (takeSpread x s).ros = s.ros ∧ (takeSpread x s).tt = s.tt ∧ (takeSpread x s).res = s.res ∧
    (takeSpread x s).out = s.out ∧ (takeSpread x s).ldg = s.ldg ∧ (takeSpread x s).nv = s.nv ∧
    (takeSpread x s).cond = s.cond ∧ (takeSpread x s).disc = s.disc ∧ (takeSpread x s).cal = s.cal ∧
    (takeSpread x s).mem = s.mem ∧ (takeSpread x s).free = s.free ∧ (takeSpread x s).pending = s.pending := by
  simp only [takeSpread, when]
  repeat' split
  all_goals simp

theorem copySpread_frame (s : State) :
    (copySpread s).pins = s.pins ∧ (copySpread s).pwr = s.pwr ∧ (copySpread s).sys = s.sys ∧
    (copySpread s).rtc = s.rtc ∧ (copySpread s).alm = s.alm ∧ (copySpread s).hif = s.hif ∧
    (copySpread s).evin = s.evin ∧ (copySpread s).afe = s.afe ∧ (copySpread s).ros = s.ros ∧
    (copySpread s).tt = s.tt ∧ (copySpread s).res = s.res ∧ (copySpread s).out = s.out ∧ (copySpread s).ldg = s.ldg ∧
    (copySpread s).nv = s.nv ∧ (copySpread s).cond = s.cond ∧ (copySpread s).disc = s.disc ∧
    (copySpread s).cal = s.cal ∧ (copySpread s).mem = s.mem ∧ (copySpread s).free = s.free ∧
    (copySpread s).pending = s.pending := by
  have k0 := @takeSpread_frame
  simp only [copySpread, when]
  repeat' split
  all_goals simp [k0]

@[simp] theorem spreadWrap_frame (s : State) :
    (spreadWrap s).pins = s.pins ∧ (spreadWrap s).pwr = s.pwr ∧ (spreadWrap s).sys = s.sys ∧
    (spreadWrap s).rtc = s.rtc ∧ (spreadWrap s).alm = s.alm ∧ (spreadWrap s).hif = s.hif ∧
    (spreadWrap s).evt = s.evt ∧ (spreadWrap s).evin = s.evin ∧ (spreadWrap s).ros = s.ros ∧
    (spreadWrap s).res = s.res ∧ (spreadWrap s).ldg = s.ldg ∧ (spreadWrap s).nv = s.nv ∧
    (spreadWrap s).cond = s.cond ∧ (spreadWrap s).disc = s.disc ∧ (spreadWrap s).cal = s.cal ∧
    (spreadWrap s).mem = s.mem ∧ (spreadWrap s).free = s.free ∧ (spreadWrap s).pending = s.pending := by
  simp only [spreadWrap, when]
  repeat' split
  all_goals simp

@[simp] theorem nvUnc_frame (s : State) :
    (nvUnc s).pins = s.pins ∧ (nvUnc s).pwr = s.pwr ∧ (nvUnc s).sys = s.sys ∧ (nvUnc s).rtc = s.rtc ∧
    (nvUnc s).alm = s.alm ∧ (nvUnc s).hif = s.hif ∧ (nvUnc s).evin = s.evin ∧ (nvUnc s).clk = s.clk ∧
    (nvUnc s).afe = s.afe ∧ (nvUnc s).ros = s.ros ∧ (nvUnc s).tt = s.tt ∧ (nvUnc s).res = s.res ∧
    (nvUnc s).out = s.out ∧ (nvUnc s).ldg = s.ldg ∧ (nvUnc s).cond = s.cond ∧ (nvUnc s).disc = s.disc ∧
    (nvUnc s).cal = s.cal ∧ (nvUnc s).mem = s.mem ∧ (nvUnc s).free = s.free ∧ (nvUnc s).pending = s.pending := by
  simp only [nvUnc, when]
  repeat' split
  all_goals simp

theorem owe_frame (ts : List NvTask) (s : State) :
    (owe ts s).pins = s.pins ∧ (owe ts s).pwr = s.pwr ∧ (owe ts s).sys = s.sys ∧ (owe ts s).rtc = s.rtc ∧
    (owe ts s).alm = s.alm ∧ (owe ts s).hif = s.hif ∧ (owe ts s).evt = s.evt ∧ (owe ts s).evin = s.evin ∧
    (owe ts s).clk = s.clk ∧ (owe ts s).afe = s.afe ∧ (owe ts s).ros = s.ros ∧ (owe ts s).tt = s.tt ∧
    (owe ts s).res = s.res ∧ (owe ts s).out = s.out ∧ (owe ts s).ldg = s.ldg ∧ (owe ts s).cond = s.cond ∧
    (owe ts s).disc = s.disc ∧ (owe ts s).cal = s.cal ∧ (owe ts s).mem = s.mem ∧ (owe ts s).free = s.free ∧
    (owe ts s).pending = s.pending := by
  simp only [owe, when]
  repeat' split
  all_goals simp

theorem oweScrub_frame (l : Nat) (s : State) :
    (oweScrub l s).pins = s.pins ∧ (oweScrub l s).pwr = s.pwr ∧ (oweScrub l s).sys = s.sys ∧
    (oweScrub l s).rtc = s.rtc ∧ (oweScrub l s).alm = s.alm ∧ (oweScrub l s).hif = s.hif ∧
    (oweScrub l s).evt = s.evt ∧ (oweScrub l s).evin = s.evin ∧ (oweScrub l s).clk = s.clk ∧
    (oweScrub l s).afe = s.afe ∧ (oweScrub l s).ros = s.ros ∧ (oweScrub l s).tt = s.tt ∧ (oweScrub l s).res = s.res ∧
    (oweScrub l s).out = s.out ∧ (oweScrub l s).ldg = s.ldg ∧ (oweScrub l s).cond = s.cond ∧
    (oweScrub l s).disc = s.disc ∧ (oweScrub l s).cal = s.cal ∧ (oweScrub l s).mem = s.mem ∧
    (oweScrub l s).free = s.free ∧ (oweScrub l s).pending = s.pending := by
  have k0 := @owe_frame
  simp only [oweScrub, when]
  repeat' split
  all_goals simp [k0]

@[simp] theorem scrubAll_frame (ls : List Nat) (s : State) :
    (scrubAll ls s).pins = s.pins ∧ (scrubAll ls s).pwr = s.pwr ∧ (scrubAll ls s).sys = s.sys ∧
    (scrubAll ls s).rtc = s.rtc ∧ (scrubAll ls s).alm = s.alm ∧ (scrubAll ls s).hif = s.hif ∧
    (scrubAll ls s).evt = s.evt ∧ (scrubAll ls s).evin = s.evin ∧ (scrubAll ls s).clk = s.clk ∧
    (scrubAll ls s).afe = s.afe ∧ (scrubAll ls s).ros = s.ros ∧ (scrubAll ls s).tt = s.tt ∧
    (scrubAll ls s).res = s.res ∧ (scrubAll ls s).out = s.out ∧ (scrubAll ls s).ldg = s.ldg ∧
    (scrubAll ls s).cond = s.cond ∧ (scrubAll ls s).disc = s.disc ∧ (scrubAll ls s).cal = s.cal ∧
    (scrubAll ls s).mem = s.mem ∧ (scrubAll ls s).free = s.free ∧ (scrubAll ls s).pending = s.pending := by
  have k0 := @oweScrub_frame
  simp only [scrubAll, when]
  repeat' split
  all_goals simp [k0]

theorem wearCount_frame (l phys : Nat) (s : State) :
    (wearCount l phys s).pins = s.pins ∧ (wearCount l phys s).pwr = s.pwr ∧ (wearCount l phys s).sys = s.sys ∧
    (wearCount l phys s).rtc = s.rtc ∧ (wearCount l phys s).alm = s.alm ∧ (wearCount l phys s).hif = s.hif ∧
    (wearCount l phys s).evt = s.evt ∧ (wearCount l phys s).evin = s.evin ∧ (wearCount l phys s).clk = s.clk ∧
    (wearCount l phys s).afe = s.afe ∧ (wearCount l phys s).ros = s.ros ∧ (wearCount l phys s).tt = s.tt ∧
    (wearCount l phys s).res = s.res ∧ (wearCount l phys s).out = s.out ∧ (wearCount l phys s).ldg = s.ldg ∧
    (wearCount l phys s).cond = s.cond ∧ (wearCount l phys s).disc = s.disc ∧ (wearCount l phys s).cal = s.cal ∧
    (wearCount l phys s).mem = s.mem ∧ (wearCount l phys s).free = s.free ∧ (wearCount l phys s).pending = s.pending := by
  have k0 := @owe_frame
  simp only [wearCount, when]
  repeat' split
  all_goals simp [k0]

theorem taskDone_frame (ecc : Ecc) (t : NvTask) (s : State) :
    (taskDone ecc t s).pins = s.pins ∧ (taskDone ecc t s).pwr = s.pwr ∧ (taskDone ecc t s).sys = s.sys ∧
    (taskDone ecc t s).rtc = s.rtc ∧ (taskDone ecc t s).alm = s.alm ∧ (taskDone ecc t s).hif = s.hif ∧
    (taskDone ecc t s).evin = s.evin ∧ (taskDone ecc t s).clk = s.clk ∧ (taskDone ecc t s).afe = s.afe ∧
    (taskDone ecc t s).ros = s.ros ∧ (taskDone ecc t s).tt = s.tt ∧ (taskDone ecc t s).res = s.res ∧
    (taskDone ecc t s).out = s.out ∧ (taskDone ecc t s).ldg = s.ldg ∧ (taskDone ecc t s).cond = s.cond ∧
    (taskDone ecc t s).disc = s.disc ∧ (taskDone ecc t s).cal = s.cal ∧ (taskDone ecc t s).mem = s.mem ∧
    (taskDone ecc t s).free = s.free ∧ (taskDone ecc t s).pending = s.pending := by
  simp only [taskDone, when]
  repeat' split
  all_goals simp

theorem writePage_frame (o : NvOp) (kind gen : Byte) (data : List Byte) (ecc : Ecc) (s : State) :
    (writePage o kind gen data ecc s).pins = s.pins ∧ (writePage o kind gen data ecc s).pwr = s.pwr ∧
    (writePage o kind gen data ecc s).sys = s.sys ∧ (writePage o kind gen data ecc s).rtc = s.rtc ∧
    (writePage o kind gen data ecc s).alm = s.alm ∧ (writePage o kind gen data ecc s).hif = s.hif ∧
    (writePage o kind gen data ecc s).evin = s.evin ∧ (writePage o kind gen data ecc s).clk = s.clk ∧
    (writePage o kind gen data ecc s).afe = s.afe ∧ (writePage o kind gen data ecc s).ros = s.ros ∧
    (writePage o kind gen data ecc s).tt = s.tt ∧ (writePage o kind gen data ecc s).res = s.res ∧
    (writePage o kind gen data ecc s).out = s.out ∧ (writePage o kind gen data ecc s).ldg = s.ldg ∧
    (writePage o kind gen data ecc s).cond = s.cond ∧ (writePage o kind gen data ecc s).disc = s.disc ∧
    (writePage o kind gen data ecc s).cal = s.cal ∧ (writePage o kind gen data ecc s).mem = s.mem ∧
    (writePage o kind gen data ecc s).free = s.free ∧ (writePage o kind gen data ecc s).pending = s.pending := by
  have k0 := @taskDone_frame
  have k1 := @wearCount_frame
  simp only [writePage, when]
  repeat' split
  all_goals simp [k0, k1]

theorem readPage_frame (l : Nat) (ecc : Ecc) (s : State) :
    (readPage l ecc s).pins = s.pins ∧ (readPage l ecc s).pwr = s.pwr ∧ (readPage l ecc s).sys = s.sys ∧
    (readPage l ecc s).rtc = s.rtc ∧ (readPage l ecc s).alm = s.alm ∧ (readPage l ecc s).hif = s.hif ∧
    (readPage l ecc s).evin = s.evin ∧ (readPage l ecc s).clk = s.clk ∧ (readPage l ecc s).afe = s.afe ∧
    (readPage l ecc s).ros = s.ros ∧ (readPage l ecc s).tt = s.tt ∧ (readPage l ecc s).res = s.res ∧
    (readPage l ecc s).out = s.out ∧ (readPage l ecc s).ldg = s.ldg ∧ (readPage l ecc s).cond = s.cond ∧
    (readPage l ecc s).disc = s.disc ∧ (readPage l ecc s).cal = s.cal ∧ (readPage l ecc s).mem = s.mem ∧
    (readPage l ecc s).free = s.free ∧ (readPage l ecc s).pending = s.pending := by
  have k0 := @oweScrub_frame
  simp only [readPage, when]
  repeat' split
  all_goals simp [k0]

theorem recover_frame (s : State) :
    (recover s).pins = s.pins ∧ (recover s).pwr = s.pwr ∧ (recover s).sys = s.sys ∧ (recover s).rtc = s.rtc ∧
    (recover s).alm = s.alm ∧ (recover s).hif = s.hif ∧ (recover s).evin = s.evin ∧ (recover s).clk = s.clk ∧
    (recover s).afe = s.afe ∧ (recover s).ros = s.ros ∧ (recover s).tt = s.tt ∧ (recover s).res = s.res ∧
    (recover s).out = s.out ∧ (recover s).cond = s.cond ∧ (recover s).disc = s.disc ∧ (recover s).cal = s.cal ∧
    (recover s).mem = s.mem ∧ (recover s).free = s.free ∧ (recover s).pending = s.pending := by
  simp only [recover, when]
  repeat' split
  all_goals simp

theorem resume_frame (cause : Nat) (s : State) :
    (resume cause s).pins = s.pins ∧ (resume cause s).pwr = s.pwr ∧ (resume cause s).sys = s.sys ∧
    (resume cause s).rtc = s.rtc ∧ (resume cause s).alm = s.alm ∧ (resume cause s).hif = s.hif ∧
    (resume cause s).evt = s.evt ∧ (resume cause s).evin = s.evin ∧ (resume cause s).clk = s.clk ∧
    (resume cause s).afe = s.afe ∧ (resume cause s).ros = s.ros ∧ (resume cause s).tt = s.tt ∧
    (resume cause s).res = s.res ∧ (resume cause s).out = s.out ∧ (resume cause s).nv = s.nv ∧
    (resume cause s).cond = s.cond ∧ (resume cause s).disc = s.disc ∧ (resume cause s).cal = s.cal ∧
    (resume cause s).mem = s.mem ∧ (resume cause s).free = s.free ∧ (resume cause s).pending = s.pending := by
  simp only [resume, when]
  repeat' split
  all_goals simp

theorem writeAfeCtl_frame (w : Word) (s : State) :
    (writeAfeCtl w s).pins = s.pins ∧ (writeAfeCtl w s).pwr = s.pwr ∧ (writeAfeCtl w s).sys = s.sys ∧
    (writeAfeCtl w s).rtc = s.rtc ∧ (writeAfeCtl w s).alm = s.alm ∧ (writeAfeCtl w s).hif = s.hif ∧
    (writeAfeCtl w s).evt = s.evt ∧ (writeAfeCtl w s).evin = s.evin ∧ (writeAfeCtl w s).clk = s.clk ∧
    (writeAfeCtl w s).ros = s.ros ∧ (writeAfeCtl w s).tt = s.tt ∧ (writeAfeCtl w s).res = s.res ∧
    (writeAfeCtl w s).out = s.out ∧ (writeAfeCtl w s).ldg = s.ldg ∧ (writeAfeCtl w s).nv = s.nv ∧
    (writeAfeCtl w s).cond = s.cond ∧ (writeAfeCtl w s).cal = s.cal ∧ (writeAfeCtl w s).mem = s.mem ∧
    (writeAfeCtl w s).free = s.free ∧ (writeAfeCtl w s).pending = s.pending := by
  have k0 := @applyPortEn_frame
  simp only [writeAfeCtl, when]
  repeat' split
  all_goals simp [k0]

theorem ldgOwed_frame (s : State) :
    (ldgOwed s).pins = s.pins ∧ (ldgOwed s).pwr = s.pwr ∧ (ldgOwed s).rtc = s.rtc ∧ (ldgOwed s).alm = s.alm ∧
    (ldgOwed s).hif = s.hif ∧ (ldgOwed s).evin = s.evin ∧ (ldgOwed s).clk = s.clk ∧ (ldgOwed s).afe = s.afe ∧
    (ldgOwed s).ros = s.ros ∧ (ldgOwed s).tt = s.tt ∧ (ldgOwed s).res = s.res ∧ (ldgOwed s).cond = s.cond ∧
    (ldgOwed s).disc = s.disc ∧ (ldgOwed s).cal = s.cal ∧ (ldgOwed s).mem = s.mem ∧ (ldgOwed s).free = s.free ∧
    (ldgOwed s).pending = s.pending := by
  have k0 := @ldgInstant_frame
  simp only [ldgOwed, when]
  repeat' split
  all_goals simp [k0]

theorem recoverBy_frame (cause : Nat) (s : State) :
    (recoverBy cause s).pins = s.pins ∧ (recoverBy cause s).pwr = s.pwr ∧ (recoverBy cause s).rtc = s.rtc ∧
    (recoverBy cause s).alm = s.alm ∧ (recoverBy cause s).hif = s.hif ∧ (recoverBy cause s).evin = s.evin ∧
    (recoverBy cause s).clk = s.clk ∧ (recoverBy cause s).afe = s.afe ∧ (recoverBy cause s).ros = s.ros ∧
    (recoverBy cause s).tt = s.tt ∧ (recoverBy cause s).res = s.res ∧ (recoverBy cause s).cond = s.cond ∧
    (recoverBy cause s).disc = s.disc ∧ (recoverBy cause s).cal = s.cal ∧ (recoverBy cause s).mem = s.mem ∧
    (recoverBy cause s).free = s.free ∧ (recoverBy cause s).pending = s.pending := by
  have k0 := @ldgOwed_frame
  have k1 := @recover_frame
  have k2 := @resume_frame
  simp only [recoverBy, when]
  repeat' split
  all_goals simp [k0, k1, k2]

theorem recoverDue_frame (s : State) :
    (recoverDue s).pins = s.pins ∧ (recoverDue s).pwr = s.pwr ∧ (recoverDue s).rtc = s.rtc ∧
    (recoverDue s).alm = s.alm ∧ (recoverDue s).hif = s.hif ∧ (recoverDue s).evin = s.evin ∧
    (recoverDue s).clk = s.clk ∧ (recoverDue s).afe = s.afe ∧ (recoverDue s).ros = s.ros ∧ (recoverDue s).tt = s.tt ∧
    (recoverDue s).res = s.res ∧ (recoverDue s).cond = s.cond ∧ (recoverDue s).disc = s.disc ∧
    (recoverDue s).cal = s.cal ∧ (recoverDue s).mem = s.mem ∧ (recoverDue s).free = s.free ∧
    (recoverDue s).pending = s.pending := by
  have k0 := @recoverBy_frame
  simp only [recoverDue, when]
  repeat' split
  all_goals simp [k0]

theorem writeLdgCtl_frame (w : Word) (s : State) :
    (writeLdgCtl w s).pins = s.pins ∧ (writeLdgCtl w s).pwr = s.pwr ∧ (writeLdgCtl w s).rtc = s.rtc ∧
    (writeLdgCtl w s).alm = s.alm ∧ (writeLdgCtl w s).hif = s.hif ∧ (writeLdgCtl w s).evin = s.evin ∧
    (writeLdgCtl w s).clk = s.clk ∧ (writeLdgCtl w s).afe = s.afe ∧ (writeLdgCtl w s).ros = s.ros ∧
    (writeLdgCtl w s).tt = s.tt ∧ (writeLdgCtl w s).res = s.res ∧ (writeLdgCtl w s).cond = s.cond ∧
    (writeLdgCtl w s).disc = s.disc ∧ (writeLdgCtl w s).cal = s.cal ∧ (writeLdgCtl w s).mem = s.mem ∧
    (writeLdgCtl w s).free = s.free ∧ (writeLdgCtl w s).pending = s.pending := by
  have k0 := @ldgOwed_frame
  have k1 := @recoverBy_frame
  simp only [writeLdgCtl, when]
  repeat' split
  all_goals simp [k0, k1]

theorem ledgerOff_frame (s : State) :
    (ledgerOff s).pins = s.pins ∧ (ledgerOff s).pwr = s.pwr ∧ (ledgerOff s).rtc = s.rtc ∧ (ledgerOff s).alm = s.alm ∧
    (ledgerOff s).hif = s.hif ∧ (ledgerOff s).disc = s.disc ∧ (ledgerOff s).cal = s.cal ∧
    (ledgerOff s).free = s.free ∧ (ledgerOff s).pending = s.pending := by
  simp only [ledgerOff, when]
  repeat' split
  all_goals simp

theorem writeMask0_frame (w : Word) (s : State) :
    (writeMask0 w s).pins = s.pins ∧ (writeMask0 w s).pwr = s.pwr ∧ (writeMask0 w s).sys = s.sys ∧
    (writeMask0 w s).rtc = s.rtc ∧ (writeMask0 w s).alm = s.alm ∧ (writeMask0 w s).evin = s.evin ∧
    (writeMask0 w s).clk = s.clk ∧ (writeMask0 w s).afe = s.afe ∧ (writeMask0 w s).ros = s.ros ∧
    (writeMask0 w s).tt = s.tt ∧ (writeMask0 w s).res = s.res ∧ (writeMask0 w s).out = s.out ∧
    (writeMask0 w s).ldg = s.ldg ∧ (writeMask0 w s).nv = s.nv ∧ (writeMask0 w s).cond = s.cond ∧
    (writeMask0 w s).disc = s.disc ∧ (writeMask0 w s).cal = s.cal ∧ (writeMask0 w s).mem = s.mem ∧
    (writeMask0 w s).free = s.free ∧ (writeMask0 w s).pending = s.pending := by
  have k0 := @trimServed_frame
  simp only [writeMask0, when]
  repeat' split
  all_goals simp [k0]

theorem writeMask1_frame (w : Word) (s : State) :
    (writeMask1 w s).pins = s.pins ∧ (writeMask1 w s).pwr = s.pwr ∧ (writeMask1 w s).sys = s.sys ∧
    (writeMask1 w s).rtc = s.rtc ∧ (writeMask1 w s).alm = s.alm ∧ (writeMask1 w s).evin = s.evin ∧
    (writeMask1 w s).clk = s.clk ∧ (writeMask1 w s).afe = s.afe ∧ (writeMask1 w s).ros = s.ros ∧
    (writeMask1 w s).tt = s.tt ∧ (writeMask1 w s).res = s.res ∧ (writeMask1 w s).out = s.out ∧
    (writeMask1 w s).ldg = s.ldg ∧ (writeMask1 w s).nv = s.nv ∧ (writeMask1 w s).cond = s.cond ∧
    (writeMask1 w s).disc = s.disc ∧ (writeMask1 w s).cal = s.cal ∧ (writeMask1 w s).mem = s.mem ∧
    (writeMask1 w s).free = s.free ∧ (writeMask1 w s).pending = s.pending := by
  have k0 := @trimServed_frame
  simp only [writeMask1, when]
  repeat' split
  all_goals simp [k0]

theorem setClassN_frame (s : State) :
    (setClassN s).pins = s.pins ∧ (setClassN s).rtc = s.rtc ∧ (setClassN s).alm = s.alm ∧
    (setClassN s).free = s.free ∧ (setClassN s).pending = s.pending := by
  have k0 := @setAoutCfg_frame
  have k1 := @writeAfeCtl_frame
  have k2 := @writeIncfg_frame
  have k3 := @writeMask0_frame
  have k4 := @writeMask1_frame
  simp only [setClassN, when]
  repeat' split
  all_goals simp [k0, k1, k2, k3, k4]

theorem aoutAtStart_frame (s : State) :
    (aoutAtStart s).pins = s.pins ∧ (aoutAtStart s).pwr = s.pwr ∧ (aoutAtStart s).sys = s.sys ∧
    (aoutAtStart s).rtc = s.rtc ∧ (aoutAtStart s).alm = s.alm ∧ (aoutAtStart s).hif = s.hif ∧
    (aoutAtStart s).evin = s.evin ∧ (aoutAtStart s).clk = s.clk ∧ (aoutAtStart s).afe = s.afe ∧
    (aoutAtStart s).ros = s.ros ∧ (aoutAtStart s).tt = s.tt ∧ (aoutAtStart s).res = s.res ∧
    (aoutAtStart s).ldg = s.ldg ∧ (aoutAtStart s).nv = s.nv ∧ (aoutAtStart s).cond = s.cond ∧
    (aoutAtStart s).disc = s.disc ∧ (aoutAtStart s).cal = s.cal ∧ (aoutAtStart s).mem = s.mem ∧
    (aoutAtStart s).free = s.free ∧ (aoutAtStart s).pending = s.pending := by
  have k0 := @applyCode_frame
  simp only [aoutAtStart, when]
  repeat' split
  all_goals simp [k0]

theorem configStep_frame (s : State) :
    (configStep s).pins = s.pins ∧ (configStep s).rtc = s.rtc ∧ (configStep s).alm = s.alm ∧
    (configStep s).free = s.free ∧ (configStep s).pending = s.pending := by
  have k0 := @aoutAtStart_frame
  have k1 := @setClassN_frame
  simp only [configStep, when]
  repeat' split
  all_goals simp [k0, k1]

theorem restoreImage_frame (s : State) :
    (restoreImage s).pins = s.pins ∧ (restoreImage s).rtc = s.rtc ∧ (restoreImage s).alm = s.alm ∧
    (restoreImage s).free = s.free ∧ (restoreImage s).pending = s.pending := by
  have k0 := @copySpread_frame
  have k1 := @ledgerOff_frame
  have k2 := @restartClock_frame
  have k3 := @setClassN_frame
  have k4 := @writeLdgCtl_frame
  simp only [restoreImage, when]
  repeat' split
  all_goals simp [k0, k1, k2, k3, k4]

end Sys2Proof.Machine
end

