-- ==== Sys2Proof/Laws/FrameJobs.lean ====
section
/-! SUPPORT. What each shared operation of these units leaves unchanged: the top-level parts of State it never writes.
Cited instead of unfolding the operation; those of the operations a meaning calls itself are simp lemmas, the others serve `simp` as
a hypothesis (`have h := @name`). -/

set_option linter.unusedSimpArgs false
set_option linter.unusedTactic false

namespace Sys2Proof.Machine

@[simp] theorem cmdRecord_frame (c : Cmd) (direct : Bool) (reason : Nat) (detail : Word) (s : State) :
    (cmdRecord c direct reason detail s).pins = s.pins ∧ (cmdRecord c direct reason detail s).pwr = s.pwr ∧
    (cmdRecord c direct reason detail s).sys = s.sys ∧ (cmdRecord c direct reason detail s).rtc = s.rtc ∧
    (cmdRecord c direct reason detail s).alm = s.alm ∧ (cmdRecord c direct reason detail s).hif = s.hif ∧
    (cmdRecord c direct reason detail s).evin = s.evin ∧ (cmdRecord c direct reason detail s).clk = s.clk ∧
    (cmdRecord c direct reason detail s).afe = s.afe ∧ (cmdRecord c direct reason detail s).ros = s.ros ∧
    (cmdRecord c direct reason detail s).tt = s.tt ∧ (cmdRecord c direct reason detail s).res = s.res ∧
    (cmdRecord c direct reason detail s).out = s.out ∧ (cmdRecord c direct reason detail s).ldg = s.ldg ∧
    (cmdRecord c direct reason detail s).nv = s.nv ∧ (cmdRecord c direct reason detail s).disc = s.disc ∧
    (cmdRecord c direct reason detail s).cal = s.cal ∧ (cmdRecord c direct reason detail s).free = s.free ∧
    (cmdRecord c direct reason detail s).pending = s.pending := by
  simp only [cmdRecord, when]
  repeat' split
  all_goals simp

theorem enqueue_frame (c : Cmd) (s : State) :
    (enqueue c s).pins = s.pins ∧ (enqueue c s).pwr = s.pwr ∧ (enqueue c s).rtc = s.rtc ∧ (enqueue c s).alm = s.alm ∧
    (enqueue c s).hif = s.hif ∧ (enqueue c s).evt = s.evt ∧ (enqueue c s).evin = s.evin ∧ (enqueue c s).clk = s.clk ∧
    (enqueue c s).afe = s.afe ∧ (enqueue c s).ros = s.ros ∧ (enqueue c s).tt = s.tt ∧ (enqueue c s).res = s.res ∧
    (enqueue c s).ldg = s.ldg ∧ (enqueue c s).nv = s.nv ∧ (enqueue c s).disc = s.disc ∧ (enqueue c s).cal = s.cal ∧
    (enqueue c s).mem = s.mem ∧ (enqueue c s).free = s.free ∧ (enqueue c s).pending = s.pending := by
  simp only [enqueue, when]
  repeat' split
  all_goals simp

theorem submitDirect_frame (c : Cmd) (s : State) :
    (submitDirect c s).pins = s.pins ∧ (submitDirect c s).pwr = s.pwr ∧ (submitDirect c s).sys = s.sys ∧
    (submitDirect c s).rtc = s.rtc ∧ (submitDirect c s).alm = s.alm ∧ (submitDirect c s).hif = s.hif ∧
    (submitDirect c s).evin = s.evin ∧ (submitDirect c s).clk = s.clk ∧ (submitDirect c s).afe = s.afe ∧
    (submitDirect c s).ros = s.ros ∧ (submitDirect c s).tt = s.tt ∧ (submitDirect c s).res = s.res ∧
    (submitDirect c s).out = s.out ∧ (submitDirect c s).disc = s.disc ∧ (submitDirect c s).cal = s.cal ∧
    (submitDirect c s).free = s.free ∧ (submitDirect c s).pending = s.pending := by
  simp only [submitDirect, when]
  repeat' split
  all_goals simp

theorem submit_frame (c : Cmd) (s : State) :
    (submit c s).pins = s.pins ∧ (submit c s).pwr = s.pwr ∧ (submit c s).rtc = s.rtc ∧ (submit c s).alm = s.alm ∧
    (submit c s).hif = s.hif ∧ (submit c s).evin = s.evin ∧ (submit c s).clk = s.clk ∧ (submit c s).afe = s.afe ∧
    (submit c s).ros = s.ros ∧ (submit c s).tt = s.tt ∧ (submit c s).res = s.res ∧ (submit c s).disc = s.disc ∧
    (submit c s).cal = s.cal ∧ (submit c s).free = s.free ∧ (submit c s).pending = s.pending := by
  have k0 := @enqueue_frame
  have k1 := @submitDirect_frame
  simp only [submit, when]
  repeat' split
  all_goals simp [k0, k1]

theorem queueJob_frame (k : Nat) (s : State) :
    (queueJob k s).pins = s.pins ∧ (queueJob k s).pwr = s.pwr ∧ (queueJob k s).rtc = s.rtc ∧
    (queueJob k s).alm = s.alm ∧ (queueJob k s).hif = s.hif ∧ (queueJob k s).evin = s.evin ∧
    (queueJob k s).clk = s.clk ∧ (queueJob k s).afe = s.afe ∧ (queueJob k s).ros = s.ros ∧ (queueJob k s).tt = s.tt ∧
    (queueJob k s).res = s.res ∧ (queueJob k s).ldg = s.ldg ∧ (queueJob k s).nv = s.nv ∧ (queueJob k s).cal = s.cal ∧
    (queueJob k s).free = s.free ∧ (queueJob k s).pending = s.pending := by
  have k0 := @enqueue_frame
  simp only [queueJob, when]
  repeat' split
  all_goals simp [k0]

@[simp] theorem admitJob_frame (k : Nat) (s : State) :
    (admitJob k s).pins = s.pins ∧ (admitJob k s).pwr = s.pwr ∧ (admitJob k s).rtc = s.rtc ∧
    (admitJob k s).alm = s.alm ∧ (admitJob k s).hif = s.hif ∧ (admitJob k s).evt = s.evt ∧
    (admitJob k s).evin = s.evin ∧ (admitJob k s).clk = s.clk ∧ (admitJob k s).afe = s.afe ∧
    (admitJob k s).ros = s.ros ∧ (admitJob k s).tt = s.tt ∧ (admitJob k s).res = s.res ∧ (admitJob k s).ldg = s.ldg ∧
    (admitJob k s).nv = s.nv ∧ (admitJob k s).cal = s.cal ∧ (admitJob k s).mem = s.mem ∧
    (admitJob k s).free = s.free ∧ (admitJob k s).pending = s.pending := by
  have k0 := @enqueue_frame
  simp only [admitJob, when]
  repeat' split
  all_goals simp [k0]

@[simp] theorem admitJobs_frame (s : State) :
    (admitJobs s).pins = s.pins ∧ (admitJobs s).pwr = s.pwr ∧ (admitJobs s).rtc = s.rtc ∧ (admitJobs s).alm = s.alm ∧
    (admitJobs s).hif = s.hif ∧ (admitJobs s).evt = s.evt ∧ (admitJobs s).evin = s.evin ∧ (admitJobs s).clk = s.clk ∧
    (admitJobs s).afe = s.afe ∧ (admitJobs s).ros = s.ros ∧ (admitJobs s).tt = s.tt ∧ (admitJobs s).res = s.res ∧
    (admitJobs s).ldg = s.ldg ∧ (admitJobs s).nv = s.nv ∧ (admitJobs s).cal = s.cal ∧ (admitJobs s).mem = s.mem ∧
    (admitJobs s).free = s.free ∧ (admitJobs s).pending = s.pending := by
  simp only [admitJobs, when]
  repeat' split
  all_goals simp

@[simp] theorem endHolds_frame (s : State) :
    (endHolds s).pins = s.pins ∧ (endHolds s).pwr = s.pwr ∧ (endHolds s).rtc = s.rtc ∧ (endHolds s).alm = s.alm ∧
    (endHolds s).hif = s.hif ∧ (endHolds s).disc = s.disc ∧ (endHolds s).free = s.free ∧
    (endHolds s).pending = s.pending := by
  have k0 := @resumeFast_frame
  simp only [endHolds, when]
  repeat' split
  all_goals simp [k0]

theorem holdInputs_frame (e : BitVec 7) (s : State) :
    (holdInputs e s).pins = s.pins ∧ (holdInputs e s).pwr = s.pwr ∧ (holdInputs e s).sys = s.sys ∧
    (holdInputs e s).rtc = s.rtc ∧ (holdInputs e s).alm = s.alm ∧ (holdInputs e s).hif = s.hif ∧
    (holdInputs e s).evt = s.evt ∧ (holdInputs e s).clk = s.clk ∧ (holdInputs e s).afe = s.afe ∧
    (holdInputs e s).ros = s.ros ∧ (holdInputs e s).tt = s.tt ∧ (holdInputs e s).res = s.res ∧
    (holdInputs e s).out = s.out ∧ (holdInputs e s).ldg = s.ldg ∧ (holdInputs e s).nv = s.nv ∧
    (holdInputs e s).cond = s.cond ∧ (holdInputs e s).disc = s.disc ∧ (holdInputs e s).mem = s.mem ∧
    (holdInputs e s).free = s.free ∧ (holdInputs e s).pending = s.pending := by
  simp only [holdInputs, when]
  repeat' split
  all_goals simp

@[simp] theorem orphanOp_frame (s : State) :
    (orphanOp s).pins = s.pins ∧ (orphanOp s).pwr = s.pwr ∧ (orphanOp s).sys = s.sys ∧ (orphanOp s).rtc = s.rtc ∧
    (orphanOp s).alm = s.alm ∧ (orphanOp s).hif = s.hif ∧ (orphanOp s).evt = s.evt ∧ (orphanOp s).evin = s.evin ∧
    (orphanOp s).clk = s.clk ∧ (orphanOp s).afe = s.afe ∧ (orphanOp s).ros = s.ros ∧ (orphanOp s).tt = s.tt ∧
    (orphanOp s).res = s.res ∧ (orphanOp s).out = s.out ∧ (orphanOp s).ldg = s.ldg ∧ (orphanOp s).cond = s.cond ∧
    (orphanOp s).disc = s.disc ∧ (orphanOp s).cal = s.cal ∧ (orphanOp s).mem = s.mem ∧ (orphanOp s).free = s.free ∧
    (orphanOp s).pending = s.pending := by
  simp only [orphanOp, when]
  repeat' split
  all_goals simp

@[simp] theorem stopInstalls_frame (s : State) :
    (stopInstalls s).pins = s.pins ∧ (stopInstalls s).pwr = s.pwr ∧ (stopInstalls s).sys = s.sys ∧
    (stopInstalls s).rtc = s.rtc ∧ (stopInstalls s).alm = s.alm ∧ (stopInstalls s).hif = s.hif ∧
    (stopInstalls s).evt = s.evt ∧ (stopInstalls s).evin = s.evin ∧ (stopInstalls s).clk = s.clk ∧
    (stopInstalls s).afe = s.afe ∧ (stopInstalls s).ros = s.ros ∧ (stopInstalls s).tt = s.tt ∧
    (stopInstalls s).res = s.res ∧ (stopInstalls s).out = s.out ∧ (stopInstalls s).ldg = s.ldg ∧
    (stopInstalls s).nv = s.nv ∧ (stopInstalls s).cond = s.cond ∧ (stopInstalls s).cal = s.cal ∧
    (stopInstalls s).mem = s.mem ∧ (stopInstalls s).free = s.free ∧ (stopInstalls s).pending = s.pending := by
  simp only [stopInstalls, when]
  repeat' split
  all_goals simp

@[simp] theorem finishCmd_frame (reason : Nat) (detail : Word) (s : State) :
    (finishCmd reason detail s).pins = s.pins ∧ (finishCmd reason detail s).pwr = s.pwr ∧
    (finishCmd reason detail s).rtc = s.rtc ∧ (finishCmd reason detail s).alm = s.alm ∧
    (finishCmd reason detail s).hif = s.hif ∧ (finishCmd reason detail s).free = s.free ∧
    (finishCmd reason detail s).pending = s.pending := by
  simp only [finishCmd, when]
  repeat' split
  all_goals simp

theorem cutCmd_frame (reason : Nat) (s : State) :
    (cutCmd reason s).pins = s.pins ∧ (cutCmd reason s).pwr = s.pwr ∧ (cutCmd reason s).rtc = s.rtc ∧
    (cutCmd reason s).alm = s.alm ∧ (cutCmd reason s).hif = s.hif ∧ (cutCmd reason s).free = s.free ∧
    (cutCmd reason s).pending = s.pending := by
  simp only [cutCmd, when]
  repeat' split
  all_goals simp

theorem drainQueue_frame (reason : Cmd → Nat) (s : State) :
    (drainQueue reason s).pins = s.pins ∧ (drainQueue reason s).pwr = s.pwr ∧ (drainQueue reason s).sys = s.sys ∧
    (drainQueue reason s).rtc = s.rtc ∧ (drainQueue reason s).alm = s.alm ∧ (drainQueue reason s).hif = s.hif ∧
    (drainQueue reason s).evin = s.evin ∧ (drainQueue reason s).clk = s.clk ∧ (drainQueue reason s).afe = s.afe ∧
    (drainQueue reason s).ros = s.ros ∧ (drainQueue reason s).tt = s.tt ∧ (drainQueue reason s).res = s.res ∧
    (drainQueue reason s).out = s.out ∧ (drainQueue reason s).ldg = s.ldg ∧ (drainQueue reason s).nv = s.nv ∧
    (drainQueue reason s).cal = s.cal ∧ (drainQueue reason s).free = s.free ∧
    (drainQueue reason s).pending = s.pending := by
  simp only [drainQueue, when]
  repeat' split
  all_goals simp

theorem endSuspends_frame (reason : Nat) (detail : Word) (s : State) :
    (endSuspends reason detail s).pins = s.pins ∧ (endSuspends reason detail s).pwr = s.pwr ∧
    (endSuspends reason detail s).sys = s.sys ∧ (endSuspends reason detail s).rtc = s.rtc ∧
    (endSuspends reason detail s).alm = s.alm ∧ (endSuspends reason detail s).hif = s.hif ∧
    (endSuspends reason detail s).evin = s.evin ∧ (endSuspends reason detail s).clk = s.clk ∧
    (endSuspends reason detail s).afe = s.afe ∧ (endSuspends reason detail s).ros = s.ros ∧
    (endSuspends reason detail s).tt = s.tt ∧ (endSuspends reason detail s).res = s.res ∧
    (endSuspends reason detail s).out = s.out ∧ (endSuspends reason detail s).ldg = s.ldg ∧
    (endSuspends reason detail s).disc = s.disc ∧ (endSuspends reason detail s).cal = s.cal ∧
    (endSuspends reason detail s).free = s.free ∧ (endSuspends reason detail s).pending = s.pending := by
  simp only [endSuspends, when]
  repeat' split
  all_goals simp

@[simp] theorem warnCut_frame (s : State) :
    (warnCut s).pins = s.pins ∧ (warnCut s).pwr = s.pwr ∧ (warnCut s).rtc = s.rtc ∧ (warnCut s).alm = s.alm ∧
    (warnCut s).hif = s.hif ∧ (warnCut s).free = s.free ∧ (warnCut s).pending = s.pending := by
  have k0 := @cutCmd_frame
  have k1 := @drainQueue_frame
  have k2 := @endSuspends_frame
  simp only [warnCut, when]
  repeat' split
  all_goals simp [k0, k1, k2]

theorem finishSelftest_frame (w : Word) (s : State) :
    (finishSelftest w s).pins = s.pins ∧ (finishSelftest w s).pwr = s.pwr ∧ (finishSelftest w s).rtc = s.rtc ∧
    (finishSelftest w s).alm = s.alm ∧ (finishSelftest w s).hif = s.hif ∧ (finishSelftest w s).free = s.free ∧
    (finishSelftest w s).pending = s.pending := by
  simp only [finishSelftest, when]
  repeat' split
  all_goals simp

theorem selftestNoClock_frame (c : Cmd) (s : State) :
    (selftestNoClock c s).pins = s.pins ∧ (selftestNoClock c s).pwr = s.pwr ∧ (selftestNoClock c s).rtc = s.rtc ∧
    (selftestNoClock c s).alm = s.alm ∧ (selftestNoClock c s).hif = s.hif ∧ (selftestNoClock c s).free = s.free ∧
    (selftestNoClock c s).pending = s.pending := by
  have k0 := @finishSelftest_frame
  simp only [selftestNoClock, when]
  repeat' split
  all_goals simp [k0]

@[simp] theorem clockCut_frame (s : State) :
    (clockCut s).pins = s.pins ∧ (clockCut s).pwr = s.pwr ∧ (clockCut s).rtc = s.rtc ∧ (clockCut s).alm = s.alm ∧
    (clockCut s).hif = s.hif ∧ (clockCut s).free = s.free ∧ (clockCut s).pending = s.pending := by
  have k0 := @selftestNoClock_frame
  simp only [clockCut, when]
  repeat' split
  all_goals simp [k0]

theorem awaitAgain_frame (s : State) :
    (awaitAgain s).pins = s.pins ∧ (awaitAgain s).pwr = s.pwr ∧ (awaitAgain s).sys = s.sys ∧
    (awaitAgain s).rtc = s.rtc ∧ (awaitAgain s).alm = s.alm ∧ (awaitAgain s).hif = s.hif ∧
    (awaitAgain s).evt = s.evt ∧ (awaitAgain s).evin = s.evin ∧ (awaitAgain s).clk = s.clk ∧
    (awaitAgain s).afe = s.afe ∧ (awaitAgain s).ros = s.ros ∧ (awaitAgain s).res = s.res ∧
    (awaitAgain s).out = s.out ∧ (awaitAgain s).ldg = s.ldg ∧ (awaitAgain s).nv = s.nv ∧
    (awaitAgain s).cond = s.cond ∧ (awaitAgain s).disc = s.disc ∧ (awaitAgain s).cal = s.cal ∧
    (awaitAgain s).mem = s.mem ∧ (awaitAgain s).free = s.free ∧ (awaitAgain s).pending = s.pending := by
  simp only [awaitAgain, when]
  repeat' split
  all_goals simp

@[simp] theorem selftestAcquire_frame (s : State) :
    (selftestAcquire s).pins = s.pins ∧ (selftestAcquire s).pwr = s.pwr ∧ (selftestAcquire s).sys = s.sys ∧
    (selftestAcquire s).rtc = s.rtc ∧ (selftestAcquire s).alm = s.alm ∧ (selftestAcquire s).hif = s.hif ∧
    (selftestAcquire s).res = s.res ∧ (selftestAcquire s).out = s.out ∧ (selftestAcquire s).ldg = s.ldg ∧
    (selftestAcquire s).nv = s.nv ∧ (selftestAcquire s).disc = s.disc ∧ (selftestAcquire s).cal = s.cal ∧
    (selftestAcquire s).free = s.free ∧ (selftestAcquire s).pending = s.pending := by
  have k0 := @acquire_frame
  have k1 := @awaitAgain_frame
  have k2 := @dropFast_frame
  simp only [selftestAcquire, when]
  repeat' split
  all_goals simp [k0, k1, k2]

@[simp] theorem selftestLock_frame (s : State) :
    (selftestLock s).pins = s.pins ∧ (selftestLock s).pwr = s.pwr ∧ (selftestLock s).rtc = s.rtc ∧
    (selftestLock s).alm = s.alm ∧ (selftestLock s).hif = s.hif ∧ (selftestLock s).free = s.free ∧
    (selftestLock s).pending = s.pending := by
  have k0 := @finishSelftest_frame
  simp only [selftestLock, when]
  repeat' split
  all_goals simp [k0]

theorem neighbourCut_frame (s : State) :
    (neighbourCut s).pins = s.pins ∧ (neighbourCut s).pwr = s.pwr ∧ (neighbourCut s).rtc = s.rtc ∧
    (neighbourCut s).alm = s.alm ∧ (neighbourCut s).hif = s.hif ∧ (neighbourCut s).free = s.free ∧
    (neighbourCut s).pending = s.pending := by
  have k0 := @cutCmd_frame
  simp only [neighbourCut, when]
  repeat' split
  all_goals simp [k0]

@[simp] theorem attach_frame (k : Nat) (s : State) :
    (attach k s).pins = s.pins ∧ (attach k s).pwr = s.pwr ∧ (attach k s).rtc = s.rtc ∧ (attach k s).alm = s.alm ∧
    (attach k s).hif = s.hif ∧ (attach k s).evin = s.evin ∧ (attach k s).clk = s.clk ∧ (attach k s).afe = s.afe ∧
    (attach k s).ros = s.ros ∧ (attach k s).tt = s.tt ∧ (attach k s).res = s.res ∧ (attach k s).ldg = s.ldg ∧
    (attach k s).nv = s.nv ∧ (attach k s).cal = s.cal ∧ (attach k s).free = s.free ∧
    (attach k s).pending = s.pending := by
  have k0 := @queueJob_frame
  simp only [attach, when]
  repeat' split
  all_goals simp [k0]

theorem forgetPort_frame (k : Nat) (s : State) :
    (forgetPort k s).pins = s.pins ∧ (forgetPort k s).pwr = s.pwr ∧ (forgetPort k s).sys = s.sys ∧
    (forgetPort k s).rtc = s.rtc ∧ (forgetPort k s).alm = s.alm ∧ (forgetPort k s).hif = s.hif ∧
    (forgetPort k s).evt = s.evt ∧ (forgetPort k s).evin = s.evin ∧ (forgetPort k s).clk = s.clk ∧
    (forgetPort k s).afe = s.afe ∧ (forgetPort k s).tt = s.tt ∧ (forgetPort k s).res = s.res ∧
    (forgetPort k s).out = s.out ∧ (forgetPort k s).ldg = s.ldg ∧ (forgetPort k s).nv = s.nv ∧
    (forgetPort k s).cond = s.cond ∧ (forgetPort k s).disc = s.disc ∧ (forgetPort k s).cal = s.cal ∧
    (forgetPort k s).mem = s.mem ∧ (forgetPort k s).free = s.free ∧ (forgetPort k s).pending = s.pending := by
  simp only [forgetPort, when]
  repeat' split
  all_goals simp

theorem endJobOf_frame (k : Nat) (s : State) :
    (endJobOf k s).pins = s.pins ∧ (endJobOf k s).pwr = s.pwr ∧ (endJobOf k s).rtc = s.rtc ∧
    (endJobOf k s).alm = s.alm ∧ (endJobOf k s).hif = s.hif ∧ (endJobOf k s).free = s.free ∧
    (endJobOf k s).pending = s.pending := by
  have k0 := @cutCmd_frame
  simp only [endJobOf, when]
  repeat' split
  all_goals simp [k0]

@[simp] theorem detach_frame (k : Nat) (s : State) :
    (detach k s).pins = s.pins ∧ (detach k s).pwr = s.pwr ∧ (detach k s).rtc = s.rtc ∧ (detach k s).alm = s.alm ∧
    (detach k s).hif = s.hif ∧ (detach k s).free = s.free ∧ (detach k s).pending = s.pending := by
  have k0 := @carriagesGone_frame
  have k1 := @endJobOf_frame
  have k2 := @forgetPort_frame
  simp only [detach, when]
  repeat' split
  all_goals simp [k0, k1, k2]

theorem slotJob_frame (k : Nat) (s : State) :
    (slotJob k s).pins = s.pins ∧ (slotJob k s).pwr = s.pwr ∧ (slotJob k s).rtc = s.rtc ∧ (slotJob k s).alm = s.alm ∧
    (slotJob k s).hif = s.hif ∧ (slotJob k s).evin = s.evin ∧ (slotJob k s).clk = s.clk ∧ (slotJob k s).afe = s.afe ∧
    (slotJob k s).ros = s.ros ∧ (slotJob k s).tt = s.tt ∧ (slotJob k s).res = s.res ∧ (slotJob k s).ldg = s.ldg ∧
    (slotJob k s).nv = s.nv ∧ (slotJob k s).cal = s.cal ∧ (slotJob k s).free = s.free ∧
    (slotJob k s).pending = s.pending := by
  have k0 := @queueJob_frame
  simp only [slotJob, when]
  repeat' split
  all_goals simp [k0]

theorem takeReading_frame (k : Nat) (present : Bool) (s : State) :
    (takeReading k present s).pins = s.pins ∧ (takeReading k present s).pwr = s.pwr ∧
    (takeReading k present s).sys = s.sys ∧ (takeReading k present s).rtc = s.rtc ∧
    (takeReading k present s).alm = s.alm ∧ (takeReading k present s).hif = s.hif ∧
    (takeReading k present s).evt = s.evt ∧ (takeReading k present s).evin = s.evin ∧
    (takeReading k present s).clk = s.clk ∧ (takeReading k present s).afe = s.afe ∧
    (takeReading k present s).ros = s.ros ∧ (takeReading k present s).tt = s.tt ∧
    (takeReading k present s).res = s.res ∧ (takeReading k present s).out = s.out ∧
    (takeReading k present s).ldg = s.ldg ∧ (takeReading k present s).nv = s.nv ∧
    (takeReading k present s).cond = s.cond ∧ (takeReading k present s).cal = s.cal ∧
    (takeReading k present s).mem = s.mem ∧ (takeReading k present s).free = s.free ∧
    (takeReading k present s).pending = s.pending := by
  simp only [takeReading, when]
  repeat' split
  all_goals simp

theorem presenceSlot_frame (k : Nat) (present : Bool) (s : State) :
    (presenceSlot k present s).pins = s.pins ∧ (presenceSlot k present s).pwr = s.pwr ∧
    (presenceSlot k present s).rtc = s.rtc ∧ (presenceSlot k present s).alm = s.alm ∧
    (presenceSlot k present s).hif = s.hif ∧ (presenceSlot k present s).evin = s.evin ∧
    (presenceSlot k present s).clk = s.clk ∧ (presenceSlot k present s).afe = s.afe ∧
    (presenceSlot k present s).ros = s.ros ∧ (presenceSlot k present s).tt = s.tt ∧
    (presenceSlot k present s).res = s.res ∧ (presenceSlot k present s).ldg = s.ldg ∧
    (presenceSlot k present s).nv = s.nv ∧ (presenceSlot k present s).cal = s.cal ∧
    (presenceSlot k present s).free = s.free ∧ (presenceSlot k present s).pending = s.pending := by
  have k0 := @slotJob_frame
  have k1 := @takeReading_frame
  simp only [presenceSlot, when]
  repeat' split
  all_goals simp [k0, k1]

theorem firstReading_frame (present : BitVec 4) (k : Nat) (s : State) :
    (firstReading present k s).pins = s.pins ∧ (firstReading present k s).pwr = s.pwr ∧
    (firstReading present k s).rtc = s.rtc ∧ (firstReading present k s).alm = s.alm ∧
    (firstReading present k s).hif = s.hif ∧ (firstReading present k s).evin = s.evin ∧
    (firstReading present k s).clk = s.clk ∧ (firstReading present k s).afe = s.afe ∧
    (firstReading present k s).ros = s.ros ∧ (firstReading present k s).tt = s.tt ∧
    (firstReading present k s).res = s.res ∧ (firstReading present k s).ldg = s.ldg ∧
    (firstReading present k s).nv = s.nv ∧ (firstReading present k s).cal = s.cal ∧
    (firstReading present k s).free = s.free ∧ (firstReading present k s).pending = s.pending := by
  simp only [firstReading, when]
  repeat' split
  all_goals simp

theorem endWith_frame (reason : Nat) (c : Cmd) (j : DiscJob) (st : BitVec 3) (slot : Option Nat) (table : Option (List Byte)) (s : State) :
    (endWith reason c j st slot table s).pins = s.pins ∧ (endWith reason c j st slot table s).pwr = s.pwr ∧
    (endWith reason c j st slot table s).rtc = s.rtc ∧ (endWith reason c j st slot table s).alm = s.alm ∧
    (endWith reason c j st slot table s).hif = s.hif ∧ (endWith reason c j st slot table s).free = s.free ∧
    (endWith reason c j st slot table s).pending = s.pending := by
  simp only [endWith, when]
  repeat' split
  all_goals simp

theorem endDiscovery_frame (c : Cmd) (j : DiscJob) (st : BitVec 3) (slot : Option Nat) (table : Option (List Byte)) (s : State) :
    (endDiscovery c j st slot table s).pins = s.pins ∧ (endDiscovery c j st slot table s).pwr = s.pwr ∧
    (endDiscovery c j st slot table s).rtc = s.rtc ∧ (endDiscovery c j st slot table s).alm = s.alm ∧
    (endDiscovery c j st slot table s).hif = s.hif ∧ (endDiscovery c j st slot table s).free = s.free ∧
    (endDiscovery c j st slot table s).pending = s.pending := by
  have k0 := @endWith_frame
  simp only [endDiscovery, when]
  repeat' split
  all_goals simp [k0]

theorem setInstalling_frame (k : Nat) (b : Bool) (s : State) :
    (setInstalling k b s).pins = s.pins ∧ (setInstalling k b s).pwr = s.pwr ∧ (setInstalling k b s).sys = s.sys ∧
    (setInstalling k b s).rtc = s.rtc ∧ (setInstalling k b s).alm = s.alm ∧ (setInstalling k b s).hif = s.hif ∧
    (setInstalling k b s).evt = s.evt ∧ (setInstalling k b s).evin = s.evin ∧ (setInstalling k b s).clk = s.clk ∧
    (setInstalling k b s).afe = s.afe ∧ (setInstalling k b s).ros = s.ros ∧ (setInstalling k b s).tt = s.tt ∧
    (setInstalling k b s).res = s.res ∧ (setInstalling k b s).out = s.out ∧ (setInstalling k b s).ldg = s.ldg ∧
    (setInstalling k b s).nv = s.nv ∧ (setInstalling k b s).cond = s.cond ∧ (setInstalling k b s).cal = s.cal ∧
    (setInstalling k b s).mem = s.mem ∧ (setInstalling k b s).free = s.free ∧
    (setInstalling k b s).pending = s.pending := by
  simp only [setInstalling, when]
  repeat' split
  all_goals simp

theorem classify_frame (c : Cmd) (j : DiscJob) (s : State) :
    (classify c j s).pins = s.pins ∧ (classify c j s).pwr = s.pwr ∧ (classify c j s).rtc = s.rtc ∧
    (classify c j s).alm = s.alm ∧ (classify c j s).hif = s.hif ∧ (classify c j s).free = s.free ∧
    (classify c j s).pending = s.pending := by
  have k0 := @endDiscovery_frame
  have k1 := @setInstalling_frame
  simp only [classify, when]
  repeat' split
  all_goals simp [k0, k1]

theorem installed_frame (c : Cmd) (j : DiscJob) (s : State) :
    (installed c j s).pins = s.pins ∧ (installed c j s).pwr = s.pwr ∧ (installed c j s).rtc = s.rtc ∧
    (installed c j s).alm = s.alm ∧ (installed c j s).hif = s.hif ∧ (installed c j s).free = s.free ∧
    (installed c j s).pending = s.pending := by
  have k0 := @endDiscovery_frame
  have k1 := @endWith_frame
  simp only [installed, when]
  repeat' split
  all_goals simp [k0, k1]

theorem boundBy_frame (c : Cmd) (slot : Nat) (s : State) :
    (boundBy c slot s).pins = s.pins ∧ (boundBy c slot s).pwr = s.pwr ∧ (boundBy c slot s).rtc = s.rtc ∧
    (boundBy c slot s).alm = s.alm ∧ (boundBy c slot s).hif = s.hif ∧ (boundBy c slot s).free = s.free ∧
    (boundBy c slot s).pending = s.pending := by
  simp only [boundBy, when]
  repeat' split
  all_goals simp

theorem lateCounts_frame (s : State) :
    (lateCounts s).pins = s.pins ∧ (lateCounts s).pwr = s.pwr ∧ (lateCounts s).sys = s.sys ∧
    (lateCounts s).rtc = s.rtc ∧ (lateCounts s).alm = s.alm ∧ (lateCounts s).hif = s.hif ∧
    (lateCounts s).evt = s.evt ∧ (lateCounts s).evin = s.evin ∧ (lateCounts s).clk = s.clk ∧
    (lateCounts s).afe = s.afe ∧ (lateCounts s).ros = s.ros ∧ (lateCounts s).tt = s.tt ∧ (lateCounts s).res = s.res ∧
    (lateCounts s).out = s.out ∧ (lateCounts s).nv = s.nv ∧ (lateCounts s).cond = s.cond ∧
    (lateCounts s).disc = s.disc ∧ (lateCounts s).cal = s.cal ∧ (lateCounts s).mem = s.mem ∧
    (lateCounts s).free = s.free ∧ (lateCounts s).pending = s.pending := by
  simp only [lateCounts, when]
  repeat' split
  all_goals simp

theorem ldgPage_frame (s : State) :
    (ldgPage s).pins = s.pins ∧ (ldgPage s).pwr = s.pwr ∧ (ldgPage s).sys = s.sys ∧ (ldgPage s).rtc = s.rtc ∧
    (ldgPage s).alm = s.alm ∧ (ldgPage s).hif = s.hif ∧ (ldgPage s).evt = s.evt ∧ (ldgPage s).evin = s.evin ∧
    (ldgPage s).clk = s.clk ∧ (ldgPage s).afe = s.afe ∧ (ldgPage s).ros = s.ros ∧ (ldgPage s).tt = s.tt ∧
    (ldgPage s).res = s.res ∧ (ldgPage s).out = s.out ∧ (ldgPage s).cond = s.cond ∧ (ldgPage s).disc = s.disc ∧
    (ldgPage s).cal = s.cal ∧ (ldgPage s).mem = s.mem ∧ (ldgPage s).free = s.free ∧ (ldgPage s).pending = s.pending := by
  have k0 := @lateCounts_frame
  simp only [ldgPage, when]
  repeat' split
  all_goals simp [k0]

@[simp] theorem pump_frame (s : State) :
    (pump s).pins = s.pins ∧ (pump s).pwr = s.pwr ∧ (pump s).sys = s.sys ∧ (pump s).rtc = s.rtc ∧
    (pump s).alm = s.alm ∧ (pump s).hif = s.hif ∧ (pump s).evt = s.evt ∧ (pump s).evin = s.evin ∧
    (pump s).clk = s.clk ∧ (pump s).afe = s.afe ∧ (pump s).ros = s.ros ∧ (pump s).tt = s.tt ∧ (pump s).res = s.res ∧
    (pump s).out = s.out ∧ (pump s).cond = s.cond ∧ (pump s).disc = s.disc ∧ (pump s).cal = s.cal ∧
    (pump s).mem = s.mem ∧ (pump s).free = s.free ∧ (pump s).pending = s.pending := by
  have k0 := @ldgPage_frame
  simp only [pump, when]
  repeat' split
  all_goals simp [k0]

theorem recordDone_frame (j : LdgJob) (s : State) :
    (recordDone j s).pins = s.pins ∧ (recordDone j s).pwr = s.pwr ∧ (recordDone j s).rtc = s.rtc ∧
    (recordDone j s).alm = s.alm ∧ (recordDone j s).hif = s.hif ∧ (recordDone j s).evin = s.evin ∧
    (recordDone j s).clk = s.clk ∧ (recordDone j s).afe = s.afe ∧ (recordDone j s).ros = s.ros ∧
    (recordDone j s).tt = s.tt ∧ (recordDone j s).res = s.res ∧ (recordDone j s).disc = s.disc ∧
    (recordDone j s).cal = s.cal ∧ (recordDone j s).free = s.free ∧ (recordDone j s).pending = s.pending := by
  have k0 := @ldgCmdDone_frame
  have k1 := @recoverDue_frame
  simp only [recordDone, when]
  repeat' split
  all_goals simp [k0, k1]

theorem ldgPageDone_frame (ecc : Ecc) (s : State) :
    (ldgPageDone ecc s).pins = s.pins ∧ (ldgPageDone ecc s).pwr = s.pwr ∧ (ldgPageDone ecc s).rtc = s.rtc ∧
    (ldgPageDone ecc s).alm = s.alm ∧ (ldgPageDone ecc s).hif = s.hif ∧ (ldgPageDone ecc s).evin = s.evin ∧
    (ldgPageDone ecc s).clk = s.clk ∧ (ldgPageDone ecc s).afe = s.afe ∧ (ldgPageDone ecc s).ros = s.ros ∧
    (ldgPageDone ecc s).tt = s.tt ∧ (ldgPageDone ecc s).res = s.res ∧ (ldgPageDone ecc s).disc = s.disc ∧
    (ldgPageDone ecc s).cal = s.cal ∧ (ldgPageDone ecc s).free = s.free ∧ (ldgPageDone ecc s).pending = s.pending := by
  have k0 := @recordDone_frame
  simp only [ldgPageDone, when]
  repeat' split
  all_goals simp [k0]

@[simp] theorem setJob_frame (c : Cmd) (j : Job) (s : State) :
    (setJob c j s).pins = s.pins ∧ (setJob c j s).pwr = s.pwr ∧ (setJob c j s).sys = s.sys ∧
    (setJob c j s).rtc = s.rtc ∧ (setJob c j s).alm = s.alm ∧ (setJob c j s).hif = s.hif ∧
    (setJob c j s).evt = s.evt ∧ (setJob c j s).evin = s.evin ∧ (setJob c j s).clk = s.clk ∧
    (setJob c j s).afe = s.afe ∧ (setJob c j s).ros = s.ros ∧ (setJob c j s).tt = s.tt ∧ (setJob c j s).res = s.res ∧
    (setJob c j s).out = s.out ∧ (setJob c j s).ldg = s.ldg ∧ (setJob c j s).nv = s.nv ∧
    (setJob c j s).disc = s.disc ∧ (setJob c j s).cal = s.cal ∧ (setJob c j s).mem = s.mem ∧
    (setJob c j s).free = s.free ∧ (setJob c j s).pending = s.pending := by
  simp only [setJob, when]
  repeat' split
  all_goals simp

theorem readDone_frame (c : Cmd) (l : Nat) (todo : List Nat) (done : Nat) (data clear : BitVec 16) (unc bad : Bool) (s : State) :
    (readDone c l todo done data clear unc bad s).pins = s.pins ∧
    (readDone c l todo done data clear unc bad s).pwr = s.pwr ∧
    (readDone c l todo done data clear unc bad s).rtc = s.rtc ∧
    (readDone c l todo done data clear unc bad s).alm = s.alm ∧
    (readDone c l todo done data clear unc bad s).hif = s.hif ∧
    (readDone c l todo done data clear unc bad s).free = s.free ∧
    (readDone c l todo done data clear unc bad s).pending = s.pending := by
  simp only [readDone, when]
  repeat' split
  all_goals simp

theorem writeDone_frame (c : Cmd) (l : Nat) (todo : List Nat) (done : Nat) (ecc : Ecc) (s : State) :
    (writeDone c l todo done ecc s).pins = s.pins ∧ (writeDone c l todo done ecc s).pwr = s.pwr ∧
    (writeDone c l todo done ecc s).rtc = s.rtc ∧ (writeDone c l todo done ecc s).alm = s.alm ∧
    (writeDone c l todo done ecc s).hif = s.hif ∧ (writeDone c l todo done ecc s).free = s.free ∧
    (writeDone c l todo done ecc s).pending = s.pending := by
  simp only [writeDone, when]
  repeat' split
  all_goals simp

theorem clearStep_frame (c : Cmd) (wrote : Bool) (todo : List Nat) (done first count : Nat) (sec : Word) (unc : Bool) (s : State) :
    (clearStep c wrote todo done first count sec unc s).pins = s.pins ∧
    (clearStep c wrote todo done first count sec unc s).pwr = s.pwr ∧
    (clearStep c wrote todo done first count sec unc s).sys = s.sys ∧
    (clearStep c wrote todo done first count sec unc s).rtc = s.rtc ∧
    (clearStep c wrote todo done first count sec unc s).alm = s.alm ∧
    (clearStep c wrote todo done first count sec unc s).hif = s.hif ∧
    (clearStep c wrote todo done first count sec unc s).evt = s.evt ∧
    (clearStep c wrote todo done first count sec unc s).evin = s.evin ∧
    (clearStep c wrote todo done first count sec unc s).clk = s.clk ∧
    (clearStep c wrote todo done first count sec unc s).afe = s.afe ∧
    (clearStep c wrote todo done first count sec unc s).ros = s.ros ∧
    (clearStep c wrote todo done first count sec unc s).tt = s.tt ∧
    (clearStep c wrote todo done first count sec unc s).res = s.res ∧
    (clearStep c wrote todo done first count sec unc s).out = s.out ∧
    (clearStep c wrote todo done first count sec unc s).ldg = s.ldg ∧
    (clearStep c wrote todo done first count sec unc s).nv = s.nv ∧
    (clearStep c wrote todo done first count sec unc s).disc = s.disc ∧
    (clearStep c wrote todo done first count sec unc s).cal = s.cal ∧
    (clearStep c wrote todo done first count sec unc s).mem = s.mem ∧
    (clearStep c wrote todo done first count sec unc s).free = s.free ∧
    (clearStep c wrote todo done first count sec unc s).pending = s.pending := by
  simp only [clearStep, when]
  repeat' split
  all_goals simp

theorem clearDone_frame (c : Cmd) (wrote : Bool) (ecc : Ecc) (todo : List Nat) (done stage first count : Nat) (sec : Word) (unc : Bool) (s : State) :
    (clearDone c wrote ecc todo done stage first count sec unc s).pins = s.pins ∧
    (clearDone c wrote ecc todo done stage first count sec unc s).pwr = s.pwr ∧
    (clearDone c wrote ecc todo done stage first count sec unc s).rtc = s.rtc ∧
    (clearDone c wrote ecc todo done stage first count sec unc s).alm = s.alm ∧
    (clearDone c wrote ecc todo done stage first count sec unc s).hif = s.hif ∧
    (clearDone c wrote ecc todo done stage first count sec unc s).free = s.free ∧
    (clearDone c wrote ecc todo done stage first count sec unc s).pending = s.pending := by
  have k0 := @clearStep_frame
  have k1 := @endSuspends_frame
  simp only [clearDone, when]
  repeat' split
  all_goals simp [k0, k1]

theorem saveDone_frame (c : Cmd) (todo : List (Nat × List Byte)) (gen : Byte) (count done : Nat) (ecc : Ecc) (s : State) :
    (saveDone c todo gen count done ecc s).pins = s.pins ∧ (saveDone c todo gen count done ecc s).pwr = s.pwr ∧
    (saveDone c todo gen count done ecc s).rtc = s.rtc ∧ (saveDone c todo gen count done ecc s).alm = s.alm ∧
    (saveDone c todo gen count done ecc s).hif = s.hif ∧ (saveDone c todo gen count done ecc s).free = s.free ∧
    (saveDone c todo gen count done ecc s).pending = s.pending := by
  simp only [saveDone, when]
  repeat' split
  all_goals simp

theorem jobPageDone_frame (o : NvOp) (ecc : Ecc) (s : State) :
    (jobPageDone o ecc s).pins = s.pins ∧ (jobPageDone o ecc s).pwr = s.pwr ∧ (jobPageDone o ecc s).rtc = s.rtc ∧
    (jobPageDone o ecc s).alm = s.alm ∧ (jobPageDone o ecc s).hif = s.hif ∧ (jobPageDone o ecc s).free = s.free ∧
    (jobPageDone o ecc s).pending = s.pending := by
  have k0 := @boundBy_frame
  have k1 := @clearDone_frame
  have k2 := @installed_frame
  have k3 := @readDone_frame
  have k4 := @saveDone_frame
  have k5 := @writeDone_frame
  simp only [jobPageDone, when]
  repeat' split
  all_goals simp [k0, k1, k2, k3, k4, k5]

theorem jobPageReset_frame (o : NvOp) (s : State) :
    (jobPageReset o s).pins = s.pins ∧ (jobPageReset o s).pwr = s.pwr ∧ (jobPageReset o s).sys = s.sys ∧
    (jobPageReset o s).rtc = s.rtc ∧ (jobPageReset o s).alm = s.alm ∧ (jobPageReset o s).hif = s.hif ∧
    (jobPageReset o s).evt = s.evt ∧ (jobPageReset o s).evin = s.evin ∧ (jobPageReset o s).clk = s.clk ∧
    (jobPageReset o s).afe = s.afe ∧ (jobPageReset o s).ros = s.ros ∧ (jobPageReset o s).tt = s.tt ∧
    (jobPageReset o s).res = s.res ∧ (jobPageReset o s).out = s.out ∧ (jobPageReset o s).ldg = s.ldg ∧
    (jobPageReset o s).nv = s.nv ∧ (jobPageReset o s).disc = s.disc ∧ (jobPageReset o s).cal = s.cal ∧
    (jobPageReset o s).mem = s.mem ∧ (jobPageReset o s).free = s.free ∧ (jobPageReset o s).pending = s.pending := by
  have k0 := @clearStep_frame
  simp only [jobPageReset, when]
  repeat' split
  all_goals simp [k0]

@[simp] theorem suspendHere_frame (s : State) :
    (suspendHere s).pins = s.pins ∧ (suspendHere s).pwr = s.pwr ∧ (suspendHere s).sys = s.sys ∧
    (suspendHere s).rtc = s.rtc ∧ (suspendHere s).alm = s.alm ∧ (suspendHere s).hif = s.hif ∧
    (suspendHere s).evt = s.evt ∧ (suspendHere s).evin = s.evin ∧ (suspendHere s).clk = s.clk ∧
    (suspendHere s).afe = s.afe ∧ (suspendHere s).ros = s.ros ∧ (suspendHere s).tt = s.tt ∧
    (suspendHere s).res = s.res ∧ (suspendHere s).out = s.out ∧ (suspendHere s).ldg = s.ldg ∧
    (suspendHere s).nv = s.nv ∧ (suspendHere s).disc = s.disc ∧ (suspendHere s).cal = s.cal ∧
    (suspendHere s).mem = s.mem ∧ (suspendHere s).free = s.free ∧ (suspendHere s).pending = s.pending := by
  simp only [suspendHere, when]
  repeat' split
  all_goals simp

@[simp] theorem restoreHere_frame (s : State) :
    (restoreHere s).pins = s.pins ∧ (restoreHere s).rtc = s.rtc ∧ (restoreHere s).alm = s.alm ∧
    (restoreHere s).free = s.free ∧ (restoreHere s).pending = s.pending := by
  have k0 := @restoreImage_frame
  simp only [restoreHere, when]
  repeat' split
  all_goals simp [k0]

theorem switchRecord_frame (g : Byte × Option Bool) (s : State) :
    (switchRecord g s).pins = s.pins ∧ (switchRecord g s).pwr = s.pwr ∧ (switchRecord g s).sys = s.sys ∧
    (switchRecord g s).rtc = s.rtc ∧ (switchRecord g s).alm = s.alm ∧ (switchRecord g s).hif = s.hif ∧
    (switchRecord g s).evin = s.evin ∧ (switchRecord g s).clk = s.clk ∧ (switchRecord g s).afe = s.afe ∧
    (switchRecord g s).ros = s.ros ∧ (switchRecord g s).tt = s.tt ∧ (switchRecord g s).res = s.res ∧
    (switchRecord g s).out = s.out ∧ (switchRecord g s).ldg = s.ldg ∧ (switchRecord g s).nv = s.nv ∧
    (switchRecord g s).disc = s.disc ∧ (switchRecord g s).cal = s.cal ∧ (switchRecord g s).free = s.free ∧
    (switchRecord g s).pending = s.pending := by
  simp only [switchRecord, when]
  repeat' split
  all_goals simp

@[simp] theorem flushSwitches_frame (s : State) :
    (flushSwitches s).pins = s.pins ∧ (flushSwitches s).pwr = s.pwr ∧ (flushSwitches s).sys = s.sys ∧
    (flushSwitches s).rtc = s.rtc ∧ (flushSwitches s).alm = s.alm ∧ (flushSwitches s).hif = s.hif ∧
    (flushSwitches s).evin = s.evin ∧ (flushSwitches s).clk = s.clk ∧ (flushSwitches s).afe = s.afe ∧
    (flushSwitches s).ros = s.ros ∧ (flushSwitches s).tt = s.tt ∧ (flushSwitches s).res = s.res ∧
    (flushSwitches s).out = s.out ∧ (flushSwitches s).ldg = s.ldg ∧ (flushSwitches s).nv = s.nv ∧
    (flushSwitches s).disc = s.disc ∧ (flushSwitches s).cal = s.cal ∧ (flushSwitches s).free = s.free ∧
    (flushSwitches s).pending = s.pending := by
  have k0 := @switchRecord_frame
  simp only [flushSwitches, when]
  repeat' split
  all_goals simp [k0]

@[simp] theorem cutHere_frame (s : State) :
    (cutHere s).pins = s.pins ∧ (cutHere s).pwr = s.pwr ∧ (cutHere s).rtc = s.rtc ∧ (cutHere s).alm = s.alm ∧
    (cutHere s).hif = s.hif ∧ (cutHere s).free = s.free ∧ (cutHere s).pending = s.pending := by
  have k0 := @endSuspends_frame
  simp only [cutHere, when]
  repeat' split
  all_goals simp [k0]

@[simp] theorem settle_frame (s : State) :
    (settle s).pins = s.pins ∧ (settle s).rtc = s.rtc ∧ (settle s).alm = s.alm ∧ (settle s).free = s.free ∧
    (settle s).pending = s.pending := by
  simp only [settle, when]
  repeat' split
  all_goals simp

theorem ownerAdvances_frame (o : NvOp) (ecc : Ecc) (s : State) :
    (ownerAdvances o ecc s).pins = s.pins ∧ (ownerAdvances o ecc s).pwr = s.pwr ∧
    (ownerAdvances o ecc s).rtc = s.rtc ∧ (ownerAdvances o ecc s).alm = s.alm ∧ (ownerAdvances o ecc s).hif = s.hif ∧
    (ownerAdvances o ecc s).free = s.free ∧ (ownerAdvances o ecc s).pending = s.pending := by
  have k0 := @jobPageDone_frame
  have k1 := @jobPageReset_frame
  have k2 := @ldgPageDone_frame
  simp only [ownerAdvances, when]
  repeat' split
  all_goals simp [k0, k1, k2]

@[simp] theorem pageOperationEnd_frame (ecc : Ecc) (t : Nat) (s : State) :
    (pageOperationEnd ecc t s).pins = s.pins ∧ (pageOperationEnd ecc t s).rtc = s.rtc ∧
    (pageOperationEnd ecc t s).alm = s.alm ∧ (pageOperationEnd ecc t s).free = s.free ∧
    (pageOperationEnd ecc t s).pending = s.pending := by
  have k0 := @ownerAdvances_frame
  have k1 := @readPage_frame
  have k2 := @writePage_frame
  simp only [pageOperationEnd, when]
  repeat' split
  all_goals simp [k0, k1, k2]

@[simp] theorem onStart_pins (op t : Nat) (f : Cmd → State → State) (s : State)
    (h : ∀ c t, (f c t).pins = t.pins) : (onStart op t f s).pins = s.pins := by
  simp only [onStart]
  repeat' split
  all_goals simp [h, when]

@[simp] theorem onStart_rtc (op t : Nat) (f : Cmd → State → State) (s : State)
    (h : ∀ c t, (f c t).rtc = t.rtc) : (onStart op t f s).rtc = s.rtc := by
  simp only [onStart]
  repeat' split
  all_goals simp [h, when]

@[simp] theorem onStart_alm (op t : Nat) (f : Cmd → State → State) (s : State)
    (h : ∀ c t, (f c t).alm = t.alm) : (onStart op t f s).alm = s.alm := by
  simp only [onStart]
  repeat' split
  all_goals simp [h, when]

@[simp] theorem onStart_free (op t : Nat) (f : Cmd → State → State) (s : State)
    (h : ∀ c t, (f c t).free = t.free) : (onStart op t f s).free = s.free := by
  simp only [onStart]
  repeat' split
  all_goals simp [h, when]

@[simp] theorem onStart_pending (op t : Nat) (f : Cmd → State → State) (s : State)
    (h : ∀ c t, (f c t).pending = t.pending) : (onStart op t f s).pending = s.pending := by
  simp only [onStart]
  repeat' split
  all_goals simp [h, when]

theorem uninstall_frame (b : Bool) (s : State) :
    (uninstall b s).pins = s.pins ∧ (uninstall b s).pwr = s.pwr ∧ (uninstall b s).sys = s.sys ∧
    (uninstall b s).rtc = s.rtc ∧ (uninstall b s).alm = s.alm ∧ (uninstall b s).hif = s.hif ∧
    (uninstall b s).evin = s.evin ∧ (uninstall b s).clk = s.clk ∧ (uninstall b s).afe = s.afe ∧
    (uninstall b s).ros = s.ros ∧ (uninstall b s).res = s.res ∧ (uninstall b s).out = s.out ∧
    (uninstall b s).ldg = s.ldg ∧ (uninstall b s).nv = s.nv ∧ (uninstall b s).disc = s.disc ∧
    (uninstall b s).cal = s.cal ∧ (uninstall b s).free = s.free ∧ (uninstall b s).pending = s.pending := by
  simp only [uninstall, when]
  repeat' split
  all_goals simp

theorem atStart_frame (c : Cmd) (s : State) :
    (atStart c s).pins = s.pins ∧ (atStart c s).pwr = s.pwr ∧ (atStart c s).sys = s.sys ∧ (atStart c s).rtc = s.rtc ∧
    (atStart c s).alm = s.alm ∧ (atStart c s).hif = s.hif ∧ (atStart c s).res = s.res ∧ (atStart c s).out = s.out ∧
    (atStart c s).ldg = s.ldg ∧ (atStart c s).nv = s.nv ∧ (atStart c s).disc = s.disc ∧ (atStart c s).cal = s.cal ∧
    (atStart c s).free = s.free ∧ (atStart c s).pending = s.pending := by
  have k0 := @uninstall_frame
  simp only [atStart, when]
  repeat' split
  all_goals simp [k0]

@[simp] theorem commandStart_frame (t : Nat) (s : State) :
    (commandStart t s).pins = s.pins ∧ (commandStart t s).rtc = s.rtc ∧ (commandStart t s).alm = s.alm ∧
    (commandStart t s).free = s.free ∧ (commandStart t s).pending = s.pending := by
  have k0 := @atStart_frame
  simp only [commandStart, when]
  repeat' split
  all_goals simp [k0]

@[simp] theorem undefinedCommand_frame (t : Nat) (s : State) :
    (undefinedCommand t s).pins = s.pins ∧ (undefinedCommand t s).rtc = s.rtc ∧ (undefinedCommand t s).alm = s.alm ∧
    (undefinedCommand t s).free = s.free ∧ (undefinedCommand t s).pending = s.pending := by
  simp only [undefinedCommand, when]
  repeat' split
  all_goals simp

@[simp] theorem loadTt_frame (c : Cmd) (s : State) :
    (loadTt c s).pins = s.pins ∧ (loadTt c s).pwr = s.pwr ∧ (loadTt c s).rtc = s.rtc ∧ (loadTt c s).alm = s.alm ∧
    (loadTt c s).hif = s.hif ∧ (loadTt c s).free = s.free ∧ (loadTt c s).pending = s.pending := by
  have k0 := @uninstall_frame
  simp only [loadTt, when]
  repeat' split
  all_goals simp [k0]

@[simp] theorem switchTt_frame (c : Cmd) (s : State) :
    (switchTt c s).pins = s.pins ∧ (switchTt c s).pwr = s.pwr ∧ (switchTt c s).rtc = s.rtc ∧
    (switchTt c s).alm = s.alm ∧ (switchTt c s).hif = s.hif ∧ (switchTt c s).free = s.free ∧
    (switchTt c s).pending = s.pending := by
  have k0 := @applySwitch_frame
  simp only [switchTt, when]
  repeat' split
  all_goals simp [k0]

theorem discoverRead_frame (c : Cmd) (teds : List Teds) (s : State) :
    (discoverRead c teds s).pins = s.pins ∧ (discoverRead c teds s).pwr = s.pwr ∧
    (discoverRead c teds s).sys = s.sys ∧ (discoverRead c teds s).rtc = s.rtc ∧ (discoverRead c teds s).alm = s.alm ∧
    (discoverRead c teds s).hif = s.hif ∧ (discoverRead c teds s).evt = s.evt ∧
    (discoverRead c teds s).evin = s.evin ∧ (discoverRead c teds s).clk = s.clk ∧
    (discoverRead c teds s).afe = s.afe ∧ (discoverRead c teds s).ros = s.ros ∧ (discoverRead c teds s).tt = s.tt ∧
    (discoverRead c teds s).res = s.res ∧ (discoverRead c teds s).out = s.out ∧ (discoverRead c teds s).ldg = s.ldg ∧
    (discoverRead c teds s).nv = s.nv ∧ (discoverRead c teds s).disc = s.disc ∧ (discoverRead c teds s).cal = s.cal ∧
    (discoverRead c teds s).mem = s.mem ∧ (discoverRead c teds s).free = s.free ∧
    (discoverRead c teds s).pending = s.pending := by
  simp only [discoverRead, when]
  repeat' split
  all_goals simp

theorem discoverStart_frame (c : Cmd) (teds : List Teds) (s : State) :
    (discoverStart c teds s).pins = s.pins ∧ (discoverStart c teds s).pwr = s.pwr ∧
    (discoverStart c teds s).rtc = s.rtc ∧ (discoverStart c teds s).alm = s.alm ∧
    (discoverStart c teds s).hif = s.hif ∧ (discoverStart c teds s).free = s.free ∧
    (discoverStart c teds s).pending = s.pending := by
  have k0 := @discoverRead_frame
  simp only [discoverStart, when]
  repeat' split
  all_goals simp [k0]

theorem discoverEnd_frame (c : Cmd) (j : DiscJob) (s : State) :
    (discoverEnd c j s).pins = s.pins ∧ (discoverEnd c j s).pwr = s.pwr ∧ (discoverEnd c j s).rtc = s.rtc ∧
    (discoverEnd c j s).alm = s.alm ∧ (discoverEnd c j s).hif = s.hif ∧ (discoverEnd c j s).free = s.free ∧
    (discoverEnd c j s).pending = s.pending := by
  have k0 := @classify_frame
  simp only [discoverEnd, when]
  repeat' split
  all_goals simp [k0]

theorem discLeak_frame (d : DiscData) (s : State) :
    (discLeak d s).pins = s.pins ∧ (discLeak d s).pwr = s.pwr ∧ (discLeak d s).sys = s.sys ∧
    (discLeak d s).rtc = s.rtc ∧ (discLeak d s).alm = s.alm ∧ (discLeak d s).hif = s.hif ∧
    (discLeak d s).evin = s.evin ∧ (discLeak d s).clk = s.clk ∧ (discLeak d s).ros = s.ros ∧
    (discLeak d s).tt = s.tt ∧ (discLeak d s).res = s.res ∧ (discLeak d s).out = s.out ∧ (discLeak d s).ldg = s.ldg ∧
    (discLeak d s).nv = s.nv ∧ (discLeak d s).disc = s.disc ∧ (discLeak d s).cal = s.cal ∧
    (discLeak d s).mem = s.mem ∧ (discLeak d s).free = s.free ∧ (discLeak d s).pending = s.pending := by
  have k0 := @classifyLeak_frame
  simp only [discLeak, when]
  repeat' split
  all_goals simp [k0]

theorem discArm_frame (d : DiscData) (s : State) :
    (discArm d s).pins = s.pins ∧ (discArm d s).pwr = s.pwr ∧ (discArm d s).sys = s.sys ∧ (discArm d s).rtc = s.rtc ∧
    (discArm d s).alm = s.alm ∧ (discArm d s).hif = s.hif ∧ (discArm d s).evin = s.evin ∧ (discArm d s).clk = s.clk ∧
    (discArm d s).ros = s.ros ∧ (discArm d s).tt = s.tt ∧ (discArm d s).res = s.res ∧ (discArm d s).out = s.out ∧
    (discArm d s).ldg = s.ldg ∧ (discArm d s).nv = s.nv ∧ (discArm d s).disc = s.disc ∧ (discArm d s).cal = s.cal ∧
    (discArm d s).mem = s.mem ∧ (discArm d s).free = s.free ∧ (discArm d s).pending = s.pending := by
  have k0 := @classifyArm_frame
  simp only [discArm, when]
  repeat' split
  all_goals simp [k0]

theorem discBalance_frame (d : DiscData) (s : State) :
    (discBalance d s).pins = s.pins ∧ (discBalance d s).pwr = s.pwr ∧ (discBalance d s).rtc = s.rtc ∧
    (discBalance d s).alm = s.alm ∧ (discBalance d s).hif = s.hif ∧ (discBalance d s).pending = s.pending := by
  have k0 := @diagOver_frame
  have k1 := @discoverEnd_frame
  simp only [discBalance, when]
  repeat' split
  all_goals simp [k0, k1]

@[simp] theorem discover_frame (teds : List Teds) (d : DiscData) (t : Nat) (s : State) :
    (discover teds d t s).pins = s.pins ∧ (discover teds d t s).rtc = s.rtc ∧ (discover teds d t s).alm = s.alm ∧
    (discover teds d t s).pending = s.pending := by
  have k0 := @discArm_frame
  have k1 := @discBalance_frame
  have k2 := @discLeak_frame
  have k3 := @discoverRead_frame
  have k4 := @discoverStart_frame
  simp only [discover, when]
  repeat' split
  all_goals simp [k0, k1, k2, k3, k4]

@[simp] theorem discoveryHoldBegin_frame (s : State) :
    (discoveryHoldBegin s).pins = s.pins ∧ (discoveryHoldBegin s).rtc = s.rtc ∧ (discoveryHoldBegin s).alm = s.alm ∧
    (discoveryHoldBegin s).free = s.free ∧ (discoveryHoldBegin s).pending = s.pending := by
  simp only [discoveryHoldBegin, when]
  repeat' split
  all_goals simp

@[simp] theorem idLineTimeout_frame (t : Nat) (s : State) :
    (idLineTimeout t s).pins = s.pins ∧ (idLineTimeout t s).rtc = s.rtc ∧ (idLineTimeout t s).alm = s.alm ∧
    (idLineTimeout t s).free = s.free ∧ (idLineTimeout t s).pending = s.pending := by
  simp only [idLineTimeout, when]
  repeat' split
  all_goals simp

@[simp] theorem slotBind_frame (c : Cmd) (s : State) :
    (slotBind c s).pins = s.pins ∧ (slotBind c s).pwr = s.pwr ∧ (slotBind c s).rtc = s.rtc ∧
    (slotBind c s).alm = s.alm ∧ (slotBind c s).hif = s.hif ∧ (slotBind c s).free = s.free ∧
    (slotBind c s).pending = s.pending := by
  have k0 := @setInstalling_frame
  simp only [slotBind, when]
  repeat' split
  all_goals simp [k0]

theorem beginHold_frame (c : Cmd) (s : State) :
    (beginHold c s).pins = s.pins ∧ (beginHold c s).pwr = s.pwr ∧ (beginHold c s).sys = s.sys ∧
    (beginHold c s).rtc = s.rtc ∧ (beginHold c s).alm = s.alm ∧ (beginHold c s).hif = s.hif ∧
    (beginHold c s).evt = s.evt ∧ (beginHold c s).clk = s.clk ∧ (beginHold c s).afe = s.afe ∧
    (beginHold c s).ros = s.ros ∧ (beginHold c s).tt = s.tt ∧ (beginHold c s).res = s.res ∧
    (beginHold c s).out = s.out ∧ (beginHold c s).ldg = s.ldg ∧ (beginHold c s).nv = s.nv ∧
    (beginHold c s).disc = s.disc ∧ (beginHold c s).mem = s.mem ∧ (beginHold c s).free = s.free ∧
    (beginHold c s).pending = s.pending := by
  have k0 := @holdInputs_frame
  simp only [beginHold, when]
  repeat' split
  all_goals simp [k0]

@[simp] theorem calStart_frame (c : Cmd) (s : State) :
    (calStart c s).pins = s.pins ∧ (calStart c s).pwr = s.pwr ∧ (calStart c s).rtc = s.rtc ∧
    (calStart c s).alm = s.alm ∧ (calStart c s).hif = s.hif ∧ (calStart c s).free = s.free ∧
    (calStart c s).pending = s.pending := by
  have k0 := @beginHold_frame
  simp only [calStart, when]
  repeat' split
  all_goals simp [k0]

@[simp] theorem calHoldBegin_frame (s : State) :
    (calHoldBegin s).pins = s.pins ∧ (calHoldBegin s).rtc = s.rtc ∧ (calHoldBegin s).alm = s.alm ∧
    (calHoldBegin s).free = s.free ∧ (calHoldBegin s).pending = s.pending := by
  have k0 := @beginHold_frame
  simp only [calHoldBegin, when]
  repeat' split
  all_goals simp [k0]

theorem calDone_frame (residual : Nat) (applied : Bool) (s : State) :
    (calDone residual applied s).pins = s.pins ∧ (calDone residual applied s).pwr = s.pwr ∧
    (calDone residual applied s).rtc = s.rtc ∧ (calDone residual applied s).alm = s.alm ∧
    (calDone residual applied s).hif = s.hif ∧ (calDone residual applied s).free = s.free ∧
    (calDone residual applied s).pending = s.pending := by
  simp only [calDone, when]
  repeat' split
  all_goals simp

theorem applyTdc_frame (counts : List Nat) (s : State) :
    (applyTdc counts s).pins = s.pins ∧ (applyTdc counts s).pwr = s.pwr ∧ (applyTdc counts s).rtc = s.rtc ∧
    (applyTdc counts s).alm = s.alm ∧ (applyTdc counts s).hif = s.hif ∧ (applyTdc counts s).free = s.free ∧
    (applyTdc counts s).pending = s.pending := by
  have k0 := @calDone_frame
  simp only [applyTdc, when]
  repeat' split
  all_goals simp [k0]

theorem applyMod_frame (c : Cmd) (offsets : List Int) (trims : List Byte) (s : State) :
    (applyMod c offsets trims s).pins = s.pins ∧ (applyMod c offsets trims s).pwr = s.pwr ∧
    (applyMod c offsets trims s).rtc = s.rtc ∧ (applyMod c offsets trims s).alm = s.alm ∧
    (applyMod c offsets trims s).hif = s.hif ∧ (applyMod c offsets trims s).pending = s.pending := by
  have k0 := @calDone_frame
  simp only [applyMod, when]
  repeat' split
  all_goals simp [k0]

theorem applyEvt_frame (c : Cmd) (ths : List (Nat × Nat)) (trims : List Byte) (s : State) :
    (applyEvt c ths trims s).pins = s.pins ∧ (applyEvt c ths trims s).pwr = s.pwr ∧
    (applyEvt c ths trims s).rtc = s.rtc ∧ (applyEvt c ths trims s).alm = s.alm ∧
    (applyEvt c ths trims s).hif = s.hif ∧ (applyEvt c ths trims s).free = s.free ∧
    (applyEvt c ths trims s).pending = s.pending := by
  have k0 := @calDone_frame
  simp only [applyEvt, when]
  repeat' split
  all_goals simp [k0]

theorem applyMeasured_frame (c : Cmd) (m : Measured) (s : State) :
    (applyMeasured c m s).pins = s.pins ∧ (applyMeasured c m s).pwr = s.pwr ∧ (applyMeasured c m s).rtc = s.rtc ∧
    (applyMeasured c m s).alm = s.alm ∧ (applyMeasured c m s).hif = s.hif ∧
    (applyMeasured c m s).pending = s.pending := by
  have k0 := @applyEvt_frame
  have k1 := @applyMod_frame
  have k2 := @applyTdc_frame
  have k3 := @finishSelftest_frame
  simp only [applyMeasured, when]
  repeat' split
  all_goals simp [k0, k1, k2, k3]

@[simp] theorem calResultApply_frame (m : Measured) (t : Nat) (s : State) :
    (calResultApply m t s).pins = s.pins ∧ (calResultApply m t s).rtc = s.rtc ∧ (calResultApply m t s).alm = s.alm ∧
    (calResultApply m t s).pending = s.pending := by
  have k0 := @applyMeasured_frame
  simp only [calResultApply, when]
  repeat' split
  all_goals simp [k0]

theorem nvTestReads_frame (s : State) :
    (nvTestReads s).pins = s.pins ∧ (nvTestReads s).pwr = s.pwr ∧ (nvTestReads s).sys = s.sys ∧
    (nvTestReads s).rtc = s.rtc ∧ (nvTestReads s).alm = s.alm ∧ (nvTestReads s).hif = s.hif ∧
    (nvTestReads s).evin = s.evin ∧ (nvTestReads s).clk = s.clk ∧ (nvTestReads s).afe = s.afe ∧
    (nvTestReads s).ros = s.ros ∧ (nvTestReads s).tt = s.tt ∧ (nvTestReads s).res = s.res ∧
    (nvTestReads s).out = s.out ∧ (nvTestReads s).ldg = s.ldg ∧ (nvTestReads s).cond = s.cond ∧
    (nvTestReads s).disc = s.disc ∧ (nvTestReads s).cal = s.cal ∧ (nvTestReads s).mem = s.mem ∧
    (nvTestReads s).free = s.free ∧ (nvTestReads s).pending = s.pending := by
  simp only [nvTestReads, when]
  repeat' split
  all_goals simp

theorem testClock_frame (c : Cmd) (s : State) :
    (testClock c s).pins = s.pins ∧ (testClock c s).pwr = s.pwr ∧ (testClock c s).sys = s.sys ∧
    (testClock c s).rtc = s.rtc ∧ (testClock c s).alm = s.alm ∧ (testClock c s).hif = s.hif ∧
    (testClock c s).res = s.res ∧ (testClock c s).out = s.out ∧ (testClock c s).ldg = s.ldg ∧
    (testClock c s).nv = s.nv ∧ (testClock c s).cond = s.cond ∧ (testClock c s).disc = s.disc ∧
    (testClock c s).cal = s.cal ∧ (testClock c s).free = s.free ∧ (testClock c s).pending = s.pending := by
  simp only [testClock, when]
  repeat' split
  all_goals simp

@[simp] theorem selftest_frame (failed : BitVec 11) (c : Cmd) (s : State) :
    (selftest failed c s).pins = s.pins ∧ (selftest failed c s).pwr = s.pwr ∧ (selftest failed c s).rtc = s.rtc ∧
    (selftest failed c s).alm = s.alm ∧ (selftest failed c s).hif = s.hif ∧ (selftest failed c s).free = s.free ∧
    (selftest failed c s).pending = s.pending := by
  have k0 := @beginHold_frame
  have k1 := @finishSelftest_frame
  have k2 := @nvTestReads_frame
  have k3 := @testClock_frame
  simp only [selftest, when]
  repeat' split
  all_goals simp [k0, k1, k2, k3]

@[simp] theorem nvRead_frame (c : Cmd) (s : State) :
    (nvRead c s).pins = s.pins ∧ (nvRead c s).pwr = s.pwr ∧ (nvRead c s).rtc = s.rtc ∧ (nvRead c s).alm = s.alm ∧
    (nvRead c s).hif = s.hif ∧ (nvRead c s).free = s.free ∧ (nvRead c s).pending = s.pending := by
  simp only [nvRead, when]
  repeat' split
  all_goals simp

@[simp] theorem nvWrite_frame (c : Cmd) (s : State) :
    (nvWrite c s).pins = s.pins ∧ (nvWrite c s).pwr = s.pwr ∧ (nvWrite c s).rtc = s.rtc ∧ (nvWrite c s).alm = s.alm ∧
    (nvWrite c s).hif = s.hif ∧ (nvWrite c s).free = s.free ∧ (nvWrite c s).pending = s.pending := by
  simp only [nvWrite, when]
  repeat' split
  all_goals simp

theorem startClear_frame (c : Cmd) (todo : List Nat) (first count : Nat) (sec : Word) (s : State) :
    (startClear c todo first count sec s).pins = s.pins ∧ (startClear c todo first count sec s).pwr = s.pwr ∧
    (startClear c todo first count sec s).sys = s.sys ∧ (startClear c todo first count sec s).rtc = s.rtc ∧
    (startClear c todo first count sec s).alm = s.alm ∧ (startClear c todo first count sec s).hif = s.hif ∧
    (startClear c todo first count sec s).evt = s.evt ∧ (startClear c todo first count sec s).evin = s.evin ∧
    (startClear c todo first count sec s).clk = s.clk ∧ (startClear c todo first count sec s).afe = s.afe ∧
    (startClear c todo first count sec s).ros = s.ros ∧ (startClear c todo first count sec s).tt = s.tt ∧
    (startClear c todo first count sec s).res = s.res ∧ (startClear c todo first count sec s).out = s.out ∧
    (startClear c todo first count sec s).ldg = s.ldg ∧ (startClear c todo first count sec s).disc = s.disc ∧
    (startClear c todo first count sec s).cal = s.cal ∧ (startClear c todo first count sec s).mem = s.mem ∧
    (startClear c todo first count sec s).free = s.free ∧ (startClear c todo first count sec s).pending = s.pending := by
  simp only [startClear, when]
  repeat' split
  all_goals simp

@[simp] theorem nvClear_frame (c : Cmd) (s : State) :
    (nvClear c s).pins = s.pins ∧ (nvClear c s).pwr = s.pwr ∧ (nvClear c s).rtc = s.rtc ∧ (nvClear c s).alm = s.alm ∧
    (nvClear c s).hif = s.hif ∧ (nvClear c s).free = s.free ∧ (nvClear c s).pending = s.pending := by
  have k0 := @startClear_frame
  simp only [nvClear, when]
  repeat' split
  all_goals simp [k0]

@[simp] theorem nvResume_frame (c : Cmd) (s : State) :
    (nvResume c s).pins = s.pins ∧ (nvResume c s).pwr = s.pwr ∧ (nvResume c s).rtc = s.rtc ∧
    (nvResume c s).alm = s.alm ∧ (nvResume c s).hif = s.hif ∧ (nvResume c s).free = s.free ∧
    (nvResume c s).pending = s.pending := by
  have k0 := @startClear_frame
  simp only [nvResume, when]
  repeat' split
  all_goals simp [k0]

@[simp] theorem nvAbandon_frame (c : Cmd) (s : State) :
    (nvAbandon c s).pins = s.pins ∧ (nvAbandon c s).pwr = s.pwr ∧ (nvAbandon c s).rtc = s.rtc ∧
    (nvAbandon c s).alm = s.alm ∧ (nvAbandon c s).hif = s.hif ∧ (nvAbandon c s).free = s.free ∧
    (nvAbandon c s).pending = s.pending := by
  simp only [nvAbandon, when]
  repeat' split
  all_goals simp

@[simp] theorem nvSuspend_frame (t : Nat) (s : State) :
    (nvSuspend t s).pins = s.pins ∧ (nvSuspend t s).rtc = s.rtc ∧ (nvSuspend t s).alm = s.alm ∧
    (nvSuspend t s).free = s.free ∧ (nvSuspend t s).pending = s.pending := by
  have k0 := @endSuspends_frame
  simp only [nvSuspend, when]
  repeat' split
  all_goals simp [k0]

@[simp] theorem saveConfig_frame (c : Cmd) (s : State) :
    (saveConfig c s).pins = s.pins ∧ (saveConfig c s).pwr = s.pwr ∧ (saveConfig c s).rtc = s.rtc ∧
    (saveConfig c s).alm = s.alm ∧ (saveConfig c s).hif = s.hif ∧ (saveConfig c s).free = s.free ∧
    (saveConfig c s).pending = s.pending := by
  simp only [saveConfig, when]
  repeat' split
  all_goals simp

@[simp] theorem restoreConfig_frame (c : Cmd) (s : State) :
    (restoreConfig c s).pins = s.pins ∧ (restoreConfig c s).pwr = s.pwr ∧ (restoreConfig c s).rtc = s.rtc ∧
    (restoreConfig c s).alm = s.alm ∧ (restoreConfig c s).hif = s.hif ∧ (restoreConfig c s).free = s.free ∧
    (restoreConfig c s).pending = s.pending := by
  simp only [restoreConfig, when]
  repeat' split
  all_goals simp

@[simp] theorem ledgerCommands_frame (lap : Bool) (t : Nat) (s : State) :
    (ledgerCommands lap t s).pins = s.pins ∧ (ledgerCommands lap t s).rtc = s.rtc ∧
    (ledgerCommands lap t s).alm = s.alm ∧ (ledgerCommands lap t s).free = s.free ∧
    (ledgerCommands lap t s).pending = s.pending := by
  simp only [ledgerCommands, when]
  repeat' split
  all_goals simp

@[simp] theorem ship_frame (x1 : Cmd) (s : State) :
    (ship x1 s).pins = s.pins ∧ (ship x1 s).rtc = s.rtc ∧ (ship x1 s).alm = s.alm ∧ (ship x1 s).hif = s.hif ∧
    (ship x1 s).free = s.free ∧ (ship x1 s).pending = s.pending := by
  have k0 := @drainQueue_frame
  simp only [ship, when]
  repeat' split
  all_goals simp [k0]

@[simp] theorem watchdogExpiry_frame (s : State) :
    (watchdogExpiry s).pins = s.pins ∧ (watchdogExpiry s).pwr = s.pwr ∧ (watchdogExpiry s).rtc = s.rtc ∧
    (watchdogExpiry s).alm = s.alm ∧ (watchdogExpiry s).hif = s.hif ∧ (watchdogExpiry s).disc = s.disc ∧
    (watchdogExpiry s).free = s.free ∧ (watchdogExpiry s).pending = s.pending := by
  have k0 := @setCause_frame
  simp only [watchdogExpiry, when]
  repeat' split
  all_goals simp [k0]

theorem ledgerRestart_frame (s : State) :
    (ledgerRestart s).pins = s.pins ∧ (ledgerRestart s).pwr = s.pwr ∧ (ledgerRestart s).rtc = s.rtc ∧
    (ledgerRestart s).alm = s.alm ∧ (ledgerRestart s).hif = s.hif ∧ (ledgerRestart s).evin = s.evin ∧
    (ledgerRestart s).clk = s.clk ∧ (ledgerRestart s).afe = s.afe ∧ (ledgerRestart s).ros = s.ros ∧
    (ledgerRestart s).tt = s.tt ∧ (ledgerRestart s).res = s.res ∧ (ledgerRestart s).disc = s.disc ∧
    (ledgerRestart s).cal = s.cal ∧ (ledgerRestart s).free = s.free ∧ (ledgerRestart s).pending = s.pending := by
  have k0 := @recordDone_frame
  simp only [ledgerRestart, when]
  repeat' split
  all_goals simp [k0]

theorem dropUnbegun_frame (s : State) :
    (dropUnbegun s).pins = s.pins ∧ (dropUnbegun s).pwr = s.pwr ∧ (dropUnbegun s).sys = s.sys ∧
    (dropUnbegun s).rtc = s.rtc ∧ (dropUnbegun s).alm = s.alm ∧ (dropUnbegun s).hif = s.hif ∧
    (dropUnbegun s).evt = s.evt ∧ (dropUnbegun s).evin = s.evin ∧ (dropUnbegun s).clk = s.clk ∧
    (dropUnbegun s).afe = s.afe ∧ (dropUnbegun s).ros = s.ros ∧ (dropUnbegun s).tt = s.tt ∧
    (dropUnbegun s).res = s.res ∧ (dropUnbegun s).out = s.out ∧ (dropUnbegun s).ldg = s.ldg ∧
    (dropUnbegun s).cond = s.cond ∧ (dropUnbegun s).disc = s.disc ∧ (dropUnbegun s).cal = s.cal ∧
    (dropUnbegun s).mem = s.mem ∧ (dropUnbegun s).free = s.free ∧ (dropUnbegun s).pending = s.pending := by
  simp only [dropUnbegun, when]
  repeat' split
  all_goals simp

@[simp] theorem conductorRestart_frame (t : Nat) (s : State) :
    (conductorRestart t s).pins = s.pins ∧ (conductorRestart t s).rtc = s.rtc ∧ (conductorRestart t s).alm = s.alm ∧
    (conductorRestart t s).free = s.free ∧ (conductorRestart t s).pending = s.pending := by
  have k0 := @dropUnbegun_frame
  have k1 := @ledgerRestart_frame
  simp only [conductorRestart, when]
  repeat' split
  all_goals simp [k0, k1]

end Sys2Proof.Machine
end

