-- ==== Sys2Proof/Laws/Memory.lean ====
section
/-! SUPPORT. The byte memory: a read after a write, the other addresses, and the canonical form every operation keeps. -/

namespace Sys2Proof.Machine

theorem memByte_memSet (m : List Host.Cell) (lo : Option Nat) (h : memWfFrom lo m = true) (a b : Nat) (v : Byte) :
    memByte (memSet m a v) b = if a = b then v else memByte m b := by
  induction m generalizing lo with
  | nil =>
    unfold memSet
    split
    · simp_all [memByte]
    · simp [memByte]
  | cons c r ih =>
    obtain ⟨k, w⟩ := c
    simp only [memWfFrom, Bool.and_eq_true] at h
    have hr := ih _ h.2
    have low : ∀ (x : Nat) (q : Nat), memWfFrom (some q) r = true → x ≤ q → memByte r x = 0 := by
      clear ih hr h
      induction r with
      | nil => intros; rfl
      | cons d t iht =>
        intro x q hq hx
        simp only [memWfFrom, Bool.and_eq_true, decide_eq_true_eq] at hq
        have : d.1 ≠ x := by omega
        simp only [memByte, this, if_false]
        exact iht x d.1 hq.2 (by omega)
    unfold memSet
    split
    · split <;> rename_i h1 h2
      · by_cases hab : a = b
        · subst hab; have := low a k h.2 (by omega); simp [memByte, h2, this]; omega
        · simp [hab]
      · simp [memByte]
    · split
      · rename_i h1 h2
        split <;> rename_i h3
        · by_cases hab : a = b
          · subst hab; subst h2; simp [low a a h.2 (by omega), h3]
          · have : k ≠ b := by omega
            simp [memByte, this, hab]
        · by_cases hab : a = b
          · simp [memByte, hab]
          · have : k ≠ b := by omega
            simp [memByte, this, hab]
      · simp only [memByte, hr]
        by_cases hk : k = b
        · have : a ≠ b := by omega
          simp [hk, this]
        · simp [hk]

theorem memWfFrom_weaken (m : List Host.Cell) (a b : Nat) (hab : a ≤ b) (h : memWfFrom (some b) m = true) :
    memWfFrom (some a) m = true := by
  cases m with
  | nil => rfl
  | cons c r => simp only [memWfFrom, Bool.and_eq_true, decide_eq_true_eq] at h ⊢; exact ⟨⟨by omega, h.1.2⟩, h.2⟩

theorem memWfFrom_none (m : List Host.Cell) (lo : Option Nat) (h : memWfFrom lo m = true) : memWfFrom none m = true := by
  cases m with
  | nil => rfl
  | cons c r => simp only [memWfFrom, Bool.and_eq_true] at h ⊢; exact ⟨⟨trivial, h.1.2⟩, h.2⟩

theorem memSet_wfFrom (m : List Host.Cell) (lo : Option Nat) (h : memWfFrom lo m = true) (a : Nat) (v : Byte)
    (ha : ∀ b, lo = some b → b < a) : memWfFrom lo (memSet m a v) = true := by
  induction m generalizing lo with
  | nil =>
    unfold memSet
    split
    · rfl
    · cases lo with
      | none => simp_all [memWfFrom]
      | some b => simp_all [memWfFrom]
  | cons c r ih =>
    obtain ⟨k, w⟩ := c
    have h' := h
    simp only [memWfFrom, Bool.and_eq_true] at h
    unfold memSet
    split
    · split
      · exact h'
      · rename_i h1 h2
        simp only [memWfFrom, Bool.and_eq_true]
        refine ⟨⟨?_, by simpa using h2⟩, ⟨⟨by simpa using h1, h.1.2⟩, h.2⟩⟩
        cases lo with
        | none => rfl
        | some b => simpa using ha b rfl
    · split
      · rename_i h1 h2
        subst h2
        split
        · rename_i h3
          cases lo with
          | none => exact memWfFrom_none _ _ h.2
          | some b => exact memWfFrom_weaken _ b a (Nat.le_of_lt (ha b rfl)) h.2
        · rename_i h3
          simp only [memWfFrom, Bool.and_eq_true]
          refine ⟨⟨?_, by simpa using h3⟩, h.2⟩
          cases lo with
          | none => rfl
          | some b => simpa using ha b rfl
      · rename_i h1 h2
        simp only [memWfFrom, Bool.and_eq_true]
        refine ⟨h.1, ih _ h.2 ?_⟩
        intro b hb
        cases hb
        omega

theorem memSet_wf (m : List Host.Cell) (a : Nat) (v : Byte) (h : Memory.wf m = true) : Memory.wf (memSet m a v) = true :=
  memSet_wfFrom m none h a v (by simp)

@[simp] theorem memStore_wf (bs : List Byte) (m : List Host.Cell) (a : Nat) (h : Memory.wf m = true) :
    Memory.wf (memStore m a bs) = true := by
  induction bs generalizing m a with
  | nil => exact h
  | cons b r ih => exact ih _ _ (memSet_wf m a b h)

/-- A byte after a store: the stored byte inside the range, what it was outside. -/
theorem memByte_memStore (bs : List Byte) (m : List Host.Cell) (a b : Nat) (h : Memory.wf m = true) :
    memByte (memStore m a bs) b = if a ≤ b ∧ b < a + bs.length then bs.getD (b - a) 0 else memByte m b := by
  induction bs generalizing m a with
  | nil => simp [memStore]
  | cons c r ih =>
    rw [memStore, ih _ _ (memSet_wf m a c h), memByte_memSet m none h]
    by_cases h1 : a = b
    · subst h1; simp
    · by_cases h2 : a + 1 ≤ b ∧ b < a + 1 + r.length
      · have h3 : a ≤ b ∧ b < a + (c :: r).length := by simp; omega
        have h4 : b - a = (b - (a + 1)) + 1 := by omega
        rw [if_pos h2, if_pos h3, h4]; rfl
      · have h3 : ¬(a ≤ b ∧ b < a + (c :: r).length) := by simp; omega
        rw [if_neg h2, if_neg h3, if_neg h1]

theorem filter_wfFrom (p : Host.Cell → Bool) (m : List Host.Cell) (lo : Option Nat) (h : memWfFrom lo m = true) :
    memWfFrom lo (m.filter p) = true := by
  induction m generalizing lo with
  | nil => rfl
  | cons c r ih =>
    have h' := h
    simp only [memWfFrom, Bool.and_eq_true] at h
    simp only [List.filter]
    split
    · simp only [memWfFrom, Bool.and_eq_true]; exact ⟨h.1, ih _ h.2⟩
    · cases lo with
      | none => exact memWfFrom_none _ _ (ih _ h.2)
      | some b => exact memWfFrom_weaken _ b c.1 (by have := h.1.1; simp at this; omega) (ih _ h.2)

@[simp] theorem memClear_wf (m : List Host.Cell) (lo hi : Nat) (h : Memory.wf m = true) :
    Memory.wf (memClear m lo hi) = true := filter_wfFrom _ m none h

/-- A byte after a clear: 0 inside the range, what it was outside. -/
theorem memByte_memClear (m : List Host.Cell) (lo hi a : Nat) (h : Memory.wf m = true) :
    memByte (memClear m lo hi) a = if lo ≤ a ∧ a < hi then 0 else memByte m a := by
  have key : ∀ (q : Option Nat), memWfFrom q m = true →
      memByte (memClear m lo hi) a = if lo ≤ a ∧ a < hi then 0 else memByte m a := by
    induction m with
    | nil => intros; simp [memClear, memByte]
    | cons c r ih =>
      intro q hq
      simp only [memWfFrom, Bool.and_eq_true] at hq
      have hr : memByte (memClear r lo hi) a = if lo ≤ a ∧ a < hi then 0 else memByte r a := by
        apply ih (memWfFrom_none _ _ hq.2) (some c.1) hq.2
      unfold memClear at hr ⊢
      simp only [List.filter]
      split
      · rename_i hc
        simp only [memByte, hr]
        by_cases hk : c.1 = a
        · subst hk
          have : ¬(lo ≤ c.1 ∧ c.1 < hi) := by simp at hc; omega
          simp [this]
        · simp [hk]
      · rename_i hc
        rw [hr]
        by_cases hk : c.1 = a
        · subst hk
          have : lo ≤ c.1 ∧ c.1 < hi := by simpa using hc
          simp [this]
        · simp [memByte, hk]
  exact key none h

@[simp] theorem store_wf (a : Nat) (bs : List Byte) (s : State) (h : Memory.wf s.mem = true) :
    Memory.wf (store a bs s).mem = true := memStore_wf bs s.mem a h

@[simp] theorem storeWords_wf (a : Nat) (ws : List Word) (s : State) (h : Memory.wf s.mem = true) :
    Memory.wf (storeWords a ws s).mem = true := memStore_wf _ s.mem a h

@[simp] theorem when_wf (c : Bool) (f : State → State) (s : State) (hs : Memory.wf s.mem = true)
    (h : ∀ t, Memory.wf t.mem = true → Memory.wf (f t).mem = true) : Memory.wf (when c f s).mem = true := by
  cases c
  · exact hs
  · exact h s hs

@[simp] theorem forAll_wf {α : Type} (l : List α) (f : α → State → State) (s : State) (hs : Memory.wf s.mem = true)
    (h : ∀ a t, Memory.wf t.mem = true → Memory.wf (f a t).mem = true) : Memory.wf (forAll l f s).mem = true := by
  induction l generalizing s with
  | nil => exact hs
  | cons a r ih => exact ih (f a s) (h a s hs)

/-- The memory of the reset state is in canonical form. -/
theorem reset_wf : Memory.wf State.reset.mem = true := rfl

end Sys2Proof.Machine
end

