-- ==== Sys2Proof/Laws/Canonical.lean ====
section
/-! SUPPORT. The canonical form of the memory is kept by every operation that writes it. -/

set_option linter.unusedSimpArgs false
set_option linter.unusedTactic false

namespace Sys2Proof.Machine

@[simp] theorem logPass_wf (i : BitVec 7) (s : State)
    (hs : Memory.wf s.mem = true) : Memory.wf (logPass i s).mem = true := by
  simp only [logPass, when]
  repeat' split
  all_goals simp (maxDischargeDepth := 40) +contextual [hs]

@[simp] theorem logRecord_wf (source : Nat) (stamp : Stamp) (detail : Word) (fl : LogFlags) (s : State)
    (hs : Memory.wf s.mem = true) : Memory.wf (logRecord source stamp detail fl s).mem = true := by
  have k0 := @logPass_frame
  simp only [logRecord, when]
  repeat' split
  all_goals simp (maxDischargeDepth := 40) +contextual [hs, k0]

@[simp] theorem resultRecord_wf (ch : BitVec 5) (stamp : Stamp) (value : Word) (flags : BitVec 16) (latest : Bool) (s : State)
    (hs : Memory.wf s.mem = true) : Memory.wf (resultRecord ch stamp value flags latest s).mem = true := by
  simp only [resultRecord, when]
  repeat' split
  all_goals simp (maxDischargeDepth := 40) +contextual [hs]

@[simp] theorem cplRecord_wf (op : Nat) (auto direct : Bool) (reason : Nat) (tag : Byte) (detail : Word) (s : State)
    (hs : Memory.wf s.mem = true) : Memory.wf (cplRecord op auto direct reason tag detail s).mem = true := by
  simp only [cplRecord, when]
  repeat' split
  all_goals simp (maxDischargeDepth := 40) +contextual [hs]

@[simp] theorem ldgCmdDone_wf (reason : Nat) (detail : Word) (c : LdgCmd) (s : State)
    (hs : Memory.wf s.mem = true) : Memory.wf (ldgCmdDone reason detail c s).mem = true := by
  simp only [ldgCmdDone, when]
  repeat' split
  all_goals simp (maxDischargeDepth := 40) +contextual [hs]

@[simp] theorem ldgTakeCmds_wf (r : LdgReq) (s : State)
    (hs : Memory.wf s.mem = true) : Memory.wf (ldgTakeCmds r s).2.mem = true := by
  have k0 := @lapRefused_frame
  have k1 := @ldgCmdDone_frame
  simp only [ldgTakeCmds, when]
  repeat' split
  all_goals simp (maxDischargeDepth := 40) +contextual [hs, k0, k1]

@[simp] theorem lateTrigger_wf (cause : Nat) (lateness : Nat) (fl : LogFlags) (g : Nat × Stamp) (s : State)
    (hs : Memory.wf s.mem = true) : Memory.wf (lateTrigger cause lateness fl g s).mem = true := by
  have k0 := @logRecord_frame
  simp only [lateTrigger, when]
  repeat' split
  all_goals simp (maxDischargeDepth := 40) +contextual [hs, k0]

@[simp] theorem dropAwait_wf (s : State)
    (hs : Memory.wf s.mem = true) : Memory.wf (dropAwait s).mem = true := by
  have k0 := @lateTrigger_frame
  simp only [dropAwait, when]
  repeat' split
  all_goals simp (maxDischargeDepth := 40) +contextual [hs, k0]

@[simp] theorem dropQueued_wf (s : State)
    (hs : Memory.wf s.mem = true) : Memory.wf (dropQueued s).mem = true := by
  have k0 := @lateTrigger_frame
  simp only [dropQueued, when]
  repeat' split
  all_goals simp (maxDischargeDepth := 40) +contextual [hs, k0]

@[simp] theorem acqFailed_wf (err : BitVec 3) (s : State)
    (hs : Memory.wf s.mem = true) : Memory.wf (acqFailed err s).mem = true := by
  have k0 := @changeRef_frame
  have k1 := @dropAhead_frame
  have k2 := @dropAwait_frame
  have k3 := @dropFast_frame
  have k4 := @dropQueued_frame
  have k5 := @haltOnBypass_frame
  simp only [acqFailed, when]
  repeat' split
  all_goals simp (maxDischargeDepth := 40) +contextual [hs, k0, k1, k2, k3, k4, k5]

@[simp] theorem retry_wf (s : State)
    (hs : Memory.wf s.mem = true) : Memory.wf (retry s).mem = true := by
  have k0 := @acqBegin_frame
  have k1 := @acqFailed_frame
  simp only [retry, when]
  repeat' split
  all_goals simp (maxDischargeDepth := 40) +contextual [hs, k0, k1]

@[simp] theorem acqFail_wf (err : BitVec 3) (s : State)
    (hs : Memory.wf s.mem = true) : Memory.wf (acqFail err s).mem = true := by
  have k0 := @acqFailed_frame
  have k1 := @retry_frame
  simp only [acqFail, when]
  repeat' split
  all_goals simp (maxDischargeDepth := 40) +contextual [hs, k0, k1]

@[simp] theorem acquire_wf (cause : AcqBy) (s : State)
    (hs : Memory.wf s.mem = true) : Memory.wf (acquire cause s).mem = true := by
  have k0 := @acqBegin_frame
  have k1 := @acqFail_frame
  simp only [acquire, when]
  repeat' split
  all_goals simp (maxDischargeDepth := 40) +contextual [hs, k0, k1]

@[simp] theorem wakeHf_wf (cause : AcqBy) (s : State)
    (hs : Memory.wf s.mem = true) : Memory.wf (wakeHf cause s).mem = true := by
  have k0 := @acquire_frame
  simp only [wakeHf, when]
  repeat' split
  all_goals simp (maxDischargeDepth := 40) +contextual [hs, k0]

@[simp] theorem awaitFrame_wf (g : Trig) (gs : List Trig) (m : Moment) (s : State)
    (hs : Memory.wf s.mem = true) : Memory.wf (awaitFrame g gs m s).mem = true := by
  have k0 := @alignTo_frame
  have k1 := @fetchFirst_frame
  simp only [awaitFrame, when]
  repeat' split
  all_goals simp (maxDischargeDepth := 40) +contextual [hs, k0, k1]

@[simp] theorem deliver_wf (gs : List Trig) (m : Moment) (s : State)
    (hs : Memory.wf s.mem = true) : Memory.wf (deliver gs m s).mem = true := by
  have k0 := @awaitFrame_frame
  have k1 := @joinAwait_frame
  have k2 := @joinQueued_frame
  have k3 := @lateTrigger_frame
  simp only [deliver, when]
  repeat' split
  all_goals simp (maxDischargeDepth := 40) +contextual [hs, k0, k1, k2, k3]

@[simp] theorem logOcc_wf (reg : Stamp) (coin reached : Bool) (o : Occ) (s : State)
    (hs : Memory.wf s.mem = true) : Memory.wf (logOcc reg coin reached o s).mem = true := by
  have k0 := @logRecord_frame
  simp only [logOcc, when]
  repeat' split
  all_goals simp (maxDischargeDepth := 40) +contextual [hs, k0]

@[simp] theorem amendOne_wf (reg : Stamp) (r : LogMark) (s : State)
    (hs : Memory.wf s.mem = true) : Memory.wf (amendOne reg r s).mem = true := by
  simp only [amendOne, when]
  repeat' split
  all_goals simp (maxDischargeDepth := 40) +contextual [hs]

@[simp] theorem amendGroup_wf (f : Fate) (m : Moment) (s : State)
    (hs : Memory.wf s.mem = true) : Memory.wf (amendGroup f m s).mem = true := by
  have k0 := @amendOne_frame
  simp only [amendGroup, when]
  repeat' split
  all_goals simp (maxDischargeDepth := 40) +contextual [hs, k0]

@[simp] theorem register_wf (m : Moment) (os : List Occ) (s : State)
    (hs : Memory.wf s.mem = true) : Memory.wf (register m os s).mem = true := by
  have k0 := @amendGroup_frame
  have k1 := @deliver_frame
  have k2 := @logOcc_frame
  have k3 := @moveMarks_frame
  have k4 := @noteOcc_frame
  have k5 := @openRecs_frame
  simp only [register, when]
  repeat' split
  all_goals simp (maxDischargeDepth := 40) +contextual [hs, k0, k1, k2, k3, k4, k5]

@[simp] theorem failRecord_wf (i : Nat) (reason : Nat) (stamp : Stamp) (started late : Bool) (f : Frame) (s : State)
    (hs : Memory.wf s.mem = true) : Memory.wf (failRecord i reason stamp started late f s).mem = true := by
  have k0 := @aoutFailed_frame
  have k1 := @resultRecord_frame
  simp only [failRecord, when]
  repeat' split
  all_goals simp (maxDischargeDepth := 40) +contextual [hs, k0, k1]

@[simp] theorem markRecord_wf (i : Nat) (f : Frame) (s : State)
    (hs : Memory.wf s.mem = true) : Memory.wf (markRecord i f s).mem = true := by
  have k0 := @resultRecord_frame
  simp only [markRecord, when]
  repeat' split
  all_goals simp (maxDischargeDepth := 40) +contextual [hs, k0]

@[simp] theorem markFailRecord_wf (f : Frame) (s : State)
    (hs : Memory.wf s.mem = true) : Memory.wf (markFailRecord f s).mem = true := by
  have k0 := @resultRecord_frame
  simp only [markFailRecord, when]
  repeat' split
  all_goals simp (maxDischargeDepth := 40) +contextual [hs, k0]

@[simp] theorem endRecords_wf (f : Frame) (i : Nat) (s : State)
    (hs : Memory.wf s.mem = true) : Memory.wf (endRecords f i s).mem = true := by
  have k0 := @aoutOk_frame
  have k1 := @failRecord_frame
  have k2 := @markRecord_frame
  have k3 := @resultRecord_frame
  simp only [endRecords, when]
  repeat' split
  all_goals simp (maxDischargeDepth := 40) +contextual [hs, k0, k1, k2, k3]

@[simp] theorem finish_wf (i : Nat) (s : State)
    (hs : Memory.wf s.mem = true) : Memory.wf (finish i s).mem = true := by
  have k0 := @endRecords_frame
  have k1 := @keepLast_frame
  simp only [finish, when]
  repeat' split
  all_goals simp (maxDischargeDepth := 40) +contextual [hs, k0, k1]

@[simp] theorem finishUpTo_wf (q : Nat) (s : State)
    (hs : Memory.wf s.mem = true) : Memory.wf (finishUpTo q s).mem = true := by
  have k0 := @finish_frame
  simp only [finishUpTo, when]
  repeat' split
  all_goals simp (maxDischargeDepth := 40) +contextual [hs, k0]

@[simp] theorem toStart_wf (i : Nat) (s : State)
    (hs : Memory.wf s.mem = true) : Memory.wf (toStart i s).mem = true := by
  have k0 := @finishUpTo_frame
  simp only [toStart, when]
  repeat' split
  all_goals simp (maxDischargeDepth := 40) +contextual [hs, k0]

@[simp] theorem startCarriage_wf (i op : Nat) (act : Frame → Carriage → List Byte → State → State) (s : State)
    (hf : ∀ f c d t, Memory.wf t.mem = true → Memory.wf (act f c d t).mem = true)
    (hs : Memory.wf s.mem = true) : Memory.wf (startCarriage i op act s).mem = true := by
  have k0 := @dropPresettle_frame
  have k1 := @failRun_frame
  have k2 := @fetchNext_frame
  have k3 := @toStart_frame
  simp only [startCarriage, when]
  repeat' split
  all_goals simp (maxDischargeDepth := 40) +contextual [hs, hf, k0, k1, k2, k3]

@[simp] theorem endAtOnce_wf (i : Nat) (s : State)
    (hs : Memory.wf s.mem = true) : Memory.wf (endAtOnce i s).mem = true := by
  have k0 := @finishUpTo_frame
  simp only [endAtOnce, when]
  repeat' split
  all_goals simp (maxDischargeDepth := 40) +contextual [hs, k0]

@[simp] theorem startOp_wf (i op : Nat) (s : State)
    (hs : Memory.wf s.mem = true) : Memory.wf (startOp i op s).mem = true := by
  have k0 := @actOp_frame
  simp only [startOp, when]
  repeat' split
  all_goals simp (maxDischargeDepth := 40) +contextual [hs, k0]

@[simp] theorem startDue_wf (n i : Nat) (s : State)
    (hs : Memory.wf s.mem = true) : Memory.wf (startDue n i s).mem = true := by
  simp only [startDue, when]
  repeat' split
  all_goals simp (maxDischargeDepth := 40) +contextual [hs]

@[simp] theorem addsFirst_wf (n : Nat) (s : State)
    (hs : Memory.wf s.mem = true) : Memory.wf (addsFirst n s).mem = true := by
  have k0 := @startDue_frame
  simp only [addsFirst, when]
  repeat' split
  all_goals simp (maxDischargeDepth := 40) +contextual [hs, k0]

@[simp] theorem instantAt_wf (m : Moment) (r : LdgReq) (stamp : Stamp) (s : State)
    (hs : Memory.wf s.mem = true) : Memory.wf (instantAt m r stamp s).mem = true := by
  have k0 := @addsFirst_frame
  have k1 := @ldgInstant_frame
  simp only [instantAt, when]
  repeat' split
  all_goals simp (maxDischargeDepth := 40) +contextual [hs, k0, k1]

@[simp] theorem takeCmdsAt_wf (m : Moment) (r : LdgReq) (s : State)
    (hs : Memory.wf s.mem = true) : Memory.wf (takeCmdsAt m r s).2.mem = true := by
  have k0 := @ldgTakeCmds_frame
  simp only [takeCmdsAt, when]
  repeat' split
  all_goals simp (maxDischargeDepth := 40) +contextual [hs, k0]

@[simp] theorem registerAt_wf (m : Moment) (steps : List Step) (extra : List Occ) (s : State)
    (hs : Memory.wf s.mem = true) : Memory.wf (registerAt m steps extra s).mem = true := by
  have k0 := @inputsAt_frame
  have k1 := @instantAt_frame
  have k2 := @lapReq_frame
  have k3 := @takeCmdsAt_frame
  simp only [registerAt, when]
  repeat' split
  all_goals simp (maxDischargeDepth := 40) +contextual [hs, k0, k1, k2, k3]

@[simp] theorem acceptFast_wf (q : Nat) (s : State)
    (hs : Memory.wf s.mem = true) : Memory.wf (acceptFast q s).mem = true := by
  simp only [acceptFast, when]
  repeat' split
  all_goals simp (maxDischargeDepth := 40) +contextual [hs]

@[simp] theorem conversionEnd_wf (i : Nat) (x : ConvData) (s : State)
    (hs : Memory.wf s.mem = true) : Memory.wf (conversionEnd i x s).mem = true := by
  have k0 := @endAux_frame
  have k1 := @endConvert_frame
  have k2 := @finishUpTo_frame
  simp only [conversionEnd, when]
  repeat' split
  all_goals simp (maxDischargeDepth := 40) +contextual [hs, k0, k1, k2]

@[simp] theorem applySwitch_wf (s : State)
    (hs : Memory.wf s.mem = true) : Memory.wf (applySwitch s).mem = true := by
  simp only [applySwitch, when]
  repeat' split
  all_goals simp (maxDischargeDepth := 40) +contextual [hs]

@[simp] theorem followUp_wf (f : Frame) (n : Nat) (s : State)
    (hs : Memory.wf s.mem = true) : Memory.wf (followUp f n s).mem = true := by
  have k0 := @lateTrigger_frame
  simp only [followUp, when]
  repeat' split
  all_goals simp (maxDischargeDepth := 40) +contextual [hs, k0]

@[simp] theorem frameSteps_wf (n : Nat) (stamp : Stamp) (s : State)
    (hs : Memory.wf s.mem = true) : Memory.wf (frameSteps n stamp s).mem = true := by
  simp only [frameSteps, when]
  repeat' split
  all_goals simp (maxDischargeDepth := 40) +contextual [hs]

@[simp] theorem closeFrame_wf (f : Frame) (s : State)
    (hs : Memory.wf s.mem = true) : Memory.wf (closeFrame f s).mem = true := by
  have k0 := @applySwitch_frame
  have k1 := @markFailRecord_frame
  have k2 := @releasePairs_frame
  have k3 := @withdrawPresettles_frame
  simp only [closeFrame, when]
  repeat' split
  all_goals simp (maxDischargeDepth := 40) +contextual [hs, k0, k1, k2, k3]

@[simp] theorem afterFrame_wf (f : Frame) (n : Nat) (stamp : Stamp) (s : State)
    (hs : Memory.wf s.mem = true) : Memory.wf (afterFrame f n stamp s).mem = true := by
  have k0 := @followUp_frame
  have k1 := @frameSteps_frame
  simp only [afterFrame, when]
  repeat' split
  all_goals simp (maxDischargeDepth := 40) +contextual [hs, k0, k1]

@[simp] theorem closeIfCut_wf (s : State)
    (hs : Memory.wf s.mem = true) : Memory.wf (closeIfCut s).mem = true := by
  have k0 := @afterFrame_frame
  have k1 := @closeFrame_frame
  simp only [closeIfCut, when]
  repeat' split
  all_goals simp (maxDischargeDepth := 40) +contextual [hs, k0, k1]

@[simp] theorem frameEndOp_wf (s : State)
    (hs : Memory.wf s.mem = true) : Memory.wf (frameEndOp s).mem = true := by
  have k0 := @afterFrame_frame
  have k1 := @closeFrame_frame
  have k2 := @closeIfCut_frame
  have k3 := @finishUpTo_frame
  simp only [frameEndOp, when]
  repeat' split
  all_goals simp (maxDischargeDepth := 40) +contextual [hs, k0, k1, k2, k3]

@[simp] theorem carriageEndOp_wf (i : Nat) (s : State)
    (hs : Memory.wf s.mem = true) : Memory.wf (carriageEndOp i s).mem = true := by
  have k0 := @closeIfCut_frame
  have k1 := @finish_frame
  have k2 := @finishUpTo_frame
  simp only [carriageEndOp, when]
  repeat' split
  all_goals simp (maxDischargeDepth := 40) +contextual [hs, k0, k1, k2]

@[simp] theorem haltSeq_wf (s : State)
    (hs : Memory.wf s.mem = true) : Memory.wf (haltSeq s).mem = true := by
  have k0 := @dropAwait_frame
  have k1 := @haltFault_frame
  simp only [haltSeq, when]
  repeat' split
  all_goals simp (maxDischargeDepth := 40) +contextual [hs, k0, k1]

@[simp] theorem cutOne_wf (reason : Nat) (stamp : Stamp) (i : Nat) (s : State)
    (hs : Memory.wf s.mem = true) : Memory.wf (cutOne reason stamp i s).mem = true := by
  have k0 := @dropDue_frame
  have k1 := @failRecord_frame
  simp only [cutOne, when]
  repeat' split
  all_goals simp (maxDischargeDepth := 40) +contextual [hs, k0, k1]

@[simp] theorem cutFrame_wf (reason : Nat) (p : CarRun → Bool) (s : State)
    (hs : Memory.wf s.mem = true) : Memory.wf (cutFrame reason p s).mem = true := by
  have k0 := @cutOne_frame
  simp only [cutFrame, when]
  repeat' split
  all_goals simp (maxDischargeDepth := 40) +contextual [hs, k0]

@[simp] theorem cutAll_wf (s : State)
    (hs : Memory.wf s.mem = true) : Memory.wf (cutAll s).mem = true := by
  have k0 := @closeIfCut_frame
  have k1 := @cutFrame_frame
  have k2 := @dropQueued_frame
  have k3 := @haltSeq_frame
  simp only [cutAll, when]
  repeat' split
  all_goals simp (maxDischargeDepth := 40) +contextual [hs, k0, k1, k2, k3]

@[simp] theorem cutDrift_wf (s : State)
    (hs : Memory.wf s.mem = true) : Memory.wf (cutDrift s).mem = true := by
  have k0 := @closeIfCut_frame
  have k1 := @cutFrame_frame
  have k2 := @dropQueued_frame
  have k3 := @goSlow_frame
  have k4 := @haltSeq_frame
  simp only [cutDrift, when]
  repeat' split
  all_goals simp (maxDischargeDepth := 40) +contextual [hs, k0, k1, k2, k3, k4]

@[simp] theorem cutWarn_wf (s : State)
    (hs : Memory.wf s.mem = true) : Memory.wf (cutWarn s).mem = true := by
  have k0 := @closeIfCut_frame
  have k1 := @cutFrame_frame
  simp only [cutWarn, when]
  repeat' split
  all_goals simp (maxDischargeDepth := 40) +contextual [hs, k0, k1]

@[simp] theorem resumeFast_wf (q : Nat) (ks : List Nat) (s : State)
    (hs : Memory.wf s.mem = true) : Memory.wf (resumeFast q ks s).mem = true := by
  have k0 := @compared_frame
  have k1 := @setAccepted_frame
  have k2 := @syncReset_frame
  simp only [resumeFast, when]
  repeat' split
  all_goals simp (maxDischargeDepth := 40) +contextual [hs, k0, k1, k2]

@[simp] theorem takeFresh_wf (n : Nat) (s : State)
    (hs : Memory.wf s.mem = true) : Memory.wf (takeFresh n s).mem = true := by
  have k0 := @resumeFast_frame
  simp only [takeFresh, when]
  repeat' split
  all_goals simp (maxDischargeDepth := 40) +contextual [hs, k0]

@[simp] theorem transition_wf (k : Nat) (level : Bool) (e : Edge) (s : State)
    (hs : Memory.wf s.mem = true) : Memory.wf (transition k level e s).mem = true := by
  have k0 := @fastEdge_frame
  have k1 := @holdSync_frame
  have k2 := @takeFresh_frame
  simp only [transition, when]
  repeat' split
  all_goals simp (maxDischargeDepth := 40) +contextual [hs, k0, k1, k2]

@[simp] theorem handover_wf (t : Nat) (s : State)
    (hs : Memory.wf s.mem = true) : Memory.wf (handover t s).mem = true := by
  have k0 := @resumeFast_frame
  have k1 := @setConf_frame
  simp only [handover, when]
  repeat' split
  all_goals simp (maxDischargeDepth := 40) +contextual [hs, k0, k1]

@[simp] theorem handoverHere_wf (s : State)
    (hs : Memory.wf s.mem = true) : Memory.wf (handoverHere s).mem = true := by
  have k0 := @handover_frame
  simp only [handoverHere, when]
  repeat' split
  all_goals simp (maxDischargeDepth := 40) +contextual [hs, k0]

@[simp] theorem writeIncfg_wf (w : Word) (s : State)
    (hs : Memory.wf s.mem = true) : Memory.wf (writeIncfg w s).mem = true := by
  have k0 := @holdSync_frame
  have k1 := @takeFresh_frame
  simp only [writeIncfg, when]
  repeat' split
  all_goals simp (maxDischargeDepth := 40) +contextual [hs, k0, k1]

@[simp] theorem toHf_wf (q : Nat) (rising : Bool) (s : State)
    (hs : Memory.wf s.mem = true) : Memory.wf (toHf q rising s).mem = true := by
  have k0 := @bypassOut_frame
  have k1 := @handover_frame
  have k2 := @syncReset_frame
  simp only [toHf, when]
  repeat' split
  all_goals simp (maxDischargeDepth := 40) +contextual [hs, k0, k1, k2]

@[simp] theorem declareLock_wf (a : Acq) (t : Nat) (rising : Bool) (s : State)
    (hs : Memory.wf s.mem = true) : Memory.wf (declareLock a t rising s).mem = true := by
  have k0 := @changeRef_frame
  have k1 := @lockSources_frame
  have k2 := @toHf_frame
  simp only [declareLock, when]
  repeat' split
  all_goals simp (maxDischargeDepth := 40) +contextual [hs, k0, k1, k2]

@[simp] theorem windowFails_wf (a : Acq) (s : State)
    (hs : Memory.wf s.mem = true) : Memory.wf (windowFails a s).mem = true := by
  have k0 := @acqFail_frame
  simp only [windowFails, when]
  repeat' split
  all_goals simp (maxDischargeDepth := 40) +contextual [hs, k0]

@[simp] theorem lockLost_wf (err : BitVec 3) (s : State)
    (hs : Memory.wf s.mem = true) : Memory.wf (lockLost err s).mem = true := by
  have k0 := @bypassIn_frame
  have k1 := @cutAll_frame
  have k2 := @retry_frame
  simp only [lockLost, when]
  repeat' split
  all_goals simp (maxDischargeDepth := 40) +contextual [hs, k0, k1, k2]

@[simp] theorem lockWindowClose_wf (count : Nat) (c : Close) (s : State)
    (hs : Memory.wf s.mem = true) : Memory.wf (lockWindowClose count c s).mem = true := by
  have k0 := @declareLock_frame
  have k1 := @lockLost_frame
  have k2 := @windowFails_frame
  simp only [lockWindowClose, when]
  repeat' split
  all_goals simp (maxDischargeDepth := 40) +contextual [hs, k0, k1, k2]

@[simp] theorem refinMissing_wf (t : Nat) (s : State)
    (hs : Memory.wf s.mem = true) : Memory.wf (refinMissing t s).mem = true := by
  have k0 := @acqFail_frame
  have k1 := @lockLost_frame
  have k2 := @underFallback_frame
  simp only [refinMissing, when]
  repeat' split
  all_goals simp (maxDischargeDepth := 40) +contextual [hs, k0, k1, k2]

@[simp] theorem driftWindowClose_wf (q t : Nat) (s : State)
    (hs : Memory.wf s.mem = true) : Memory.wf (driftWindowClose q t s).mem = true := by
  have k0 := @bypassIn_frame
  have k1 := @cutDrift_frame
  have k2 := @driftTake_frame
  have k3 := @driftWarn_frame
  have k4 := @toHf_frame
  simp only [driftWindowClose, when]
  repeat' split
  all_goals simp (maxDischargeDepth := 40) +contextual [hs, k0, k1, k2, k3, k4]

@[simp] theorem restartClock_wf (cause : AcqBy) (s : State)
    (hs : Memory.wf s.mem = true) : Memory.wf (restartClock cause s).mem = true := by
  have k0 := @acquire_frame
  have k1 := @bypassIn_frame
  have k2 := @cutAll_frame
  have k3 := @discardQ_frame
  have k4 := @dropAhead_frame
  have k5 := @withdrawPresettles_frame
  simp only [restartClock, when]
  repeat' split
  all_goals simp (maxDischargeDepth := 40) +contextual [hs, k0, k1, k2, k3, k4, k5]

@[simp] theorem retryTick_wf (s : State)
    (hs : Memory.wf s.mem = true) : Memory.wf (retryTick s).mem = true := by
  have k0 := @retry_frame
  simp only [retryTick, when]
  repeat' split
  all_goals simp (maxDischargeDepth := 40) +contextual [hs, k0]

@[simp] theorem ledgerOff_wf (s : State)
    (hs : Memory.wf s.mem = true) : Memory.wf (ledgerOff s).mem = true := by
  simp only [ledgerOff, when]
  repeat' split
  all_goals simp (maxDischargeDepth := 40) +contextual [hs]

@[simp] theorem setClassN_wf (s : State)
    (hs : Memory.wf s.mem = true) : Memory.wf (setClassN s).mem = true := by
  have k0 := @setAoutCfg_frame
  have k1 := @writeAfeCtl_frame
  have k2 := @writeIncfg_frame
  have k3 := @writeMask0_frame
  have k4 := @writeMask1_frame
  simp only [setClassN, when]
  repeat' split
  all_goals simp (maxDischargeDepth := 40) +contextual [hs, k0, k1, k2, k3, k4]

@[simp] theorem configStep_wf (s : State)
    (hs : Memory.wf s.mem = true) : Memory.wf (configStep s).mem = true := by
  have k0 := @aoutAtStart_frame
  have k1 := @setClassN_frame
  simp only [configStep, when]
  repeat' split
  all_goals simp (maxDischargeDepth := 40) +contextual [hs, k0, k1]

@[simp] theorem restoreImage_wf (s : State)
    (hs : Memory.wf s.mem = true) : Memory.wf (restoreImage s).mem = true := by
  have k0 := @copySpread_frame
  have k1 := @ledgerOff_frame
  have k2 := @restartClock_frame
  have k3 := @setClassN_frame
  have k4 := @writeLdgCtl_frame
  simp only [restoreImage, when]
  repeat' split
  all_goals simp (maxDischargeDepth := 40) +contextual [hs, k0, k1, k2, k3, k4]

@[simp] theorem cmdRecord_wf (c : Cmd) (direct : Bool) (reason : Nat) (detail : Word) (s : State)
    (hs : Memory.wf s.mem = true) : Memory.wf (cmdRecord c direct reason detail s).mem = true := by
  simp only [cmdRecord, when]
  repeat' split
  all_goals simp (maxDischargeDepth := 40) +contextual [hs]

@[simp] theorem submitDirect_wf (c : Cmd) (s : State)
    (hs : Memory.wf s.mem = true) : Memory.wf (submitDirect c s).mem = true := by
  simp only [submitDirect, when]
  repeat' split
  all_goals simp (maxDischargeDepth := 40) +contextual [hs]

@[simp] theorem submit_wf (c : Cmd) (s : State)
    (hs : Memory.wf s.mem = true) : Memory.wf (submit c s).mem = true := by
  have k0 := @enqueue_frame
  have k1 := @submitDirect_frame
  simp only [submit, when]
  repeat' split
  all_goals simp (maxDischargeDepth := 40) +contextual [hs, k0, k1]

@[simp] theorem queueJob_wf (k : Nat) (s : State)
    (hs : Memory.wf s.mem = true) : Memory.wf (queueJob k s).mem = true := by
  have k0 := @enqueue_frame
  simp only [queueJob, when]
  repeat' split
  all_goals simp (maxDischargeDepth := 40) +contextual [hs, k0]

@[simp] theorem endHolds_wf (s : State)
    (hs : Memory.wf s.mem = true) : Memory.wf (endHolds s).mem = true := by
  have k0 := @resumeFast_frame
  simp only [endHolds, when]
  repeat' split
  all_goals simp (maxDischargeDepth := 40) +contextual [hs, k0]

@[simp] theorem finishCmd_wf (reason : Nat) (detail : Word) (s : State)
    (hs : Memory.wf s.mem = true) : Memory.wf (finishCmd reason detail s).mem = true := by
  simp only [finishCmd, when]
  repeat' split
  all_goals simp (maxDischargeDepth := 40) +contextual [hs]

@[simp] theorem cutCmd_wf (reason : Nat) (s : State)
    (hs : Memory.wf s.mem = true) : Memory.wf (cutCmd reason s).mem = true := by
  simp only [cutCmd, when]
  repeat' split
  all_goals simp (maxDischargeDepth := 40) +contextual [hs]

@[simp] theorem drainQueue_wf (reason : Cmd → Nat) (s : State)
    (hs : Memory.wf s.mem = true) : Memory.wf (drainQueue reason s).mem = true := by
  simp only [drainQueue, when]
  repeat' split
  all_goals simp (maxDischargeDepth := 40) +contextual [hs]

@[simp] theorem endSuspends_wf (reason : Nat) (detail : Word) (s : State)
    (hs : Memory.wf s.mem = true) : Memory.wf (endSuspends reason detail s).mem = true := by
  simp only [endSuspends, when]
  repeat' split
  all_goals simp (maxDischargeDepth := 40) +contextual [hs]

@[simp] theorem warnCut_wf (s : State)
    (hs : Memory.wf s.mem = true) : Memory.wf (warnCut s).mem = true := by
  have k0 := @cutCmd_frame
  have k1 := @drainQueue_frame
  have k2 := @endSuspends_frame
  simp only [warnCut, when]
  repeat' split
  all_goals simp (maxDischargeDepth := 40) +contextual [hs, k0, k1, k2]

@[simp] theorem finishSelftest_wf (w : Word) (s : State)
    (hs : Memory.wf s.mem = true) : Memory.wf (finishSelftest w s).mem = true := by
  simp only [finishSelftest, when]
  repeat' split
  all_goals simp (maxDischargeDepth := 40) +contextual [hs]

@[simp] theorem selftestNoClock_wf (c : Cmd) (s : State)
    (hs : Memory.wf s.mem = true) : Memory.wf (selftestNoClock c s).mem = true := by
  have k0 := @finishSelftest_frame
  simp only [selftestNoClock, when]
  repeat' split
  all_goals simp (maxDischargeDepth := 40) +contextual [hs, k0]

@[simp] theorem clockCut_wf (s : State)
    (hs : Memory.wf s.mem = true) : Memory.wf (clockCut s).mem = true := by
  have k0 := @selftestNoClock_frame
  simp only [clockCut, when]
  repeat' split
  all_goals simp (maxDischargeDepth := 40) +contextual [hs, k0]

@[simp] theorem selftestAcquire_wf (s : State)
    (hs : Memory.wf s.mem = true) : Memory.wf (selftestAcquire s).mem = true := by
  have k0 := @acquire_frame
  have k1 := @awaitAgain_frame
  have k2 := @dropFast_frame
  simp only [selftestAcquire, when]
  repeat' split
  all_goals simp (maxDischargeDepth := 40) +contextual [hs, k0, k1, k2]

@[simp] theorem selftestLock_wf (s : State)
    (hs : Memory.wf s.mem = true) : Memory.wf (selftestLock s).mem = true := by
  have k0 := @finishSelftest_frame
  simp only [selftestLock, when]
  repeat' split
  all_goals simp (maxDischargeDepth := 40) +contextual [hs, k0]

@[simp] theorem neighbourCut_wf (s : State)
    (hs : Memory.wf s.mem = true) : Memory.wf (neighbourCut s).mem = true := by
  have k0 := @cutCmd_frame
  simp only [neighbourCut, when]
  repeat' split
  all_goals simp (maxDischargeDepth := 40) +contextual [hs, k0]

@[simp] theorem attach_wf (k : Nat) (s : State)
    (hs : Memory.wf s.mem = true) : Memory.wf (attach k s).mem = true := by
  have k0 := @queueJob_frame
  simp only [attach, when]
  repeat' split
  all_goals simp (maxDischargeDepth := 40) +contextual [hs, k0]

@[simp] theorem endJobOf_wf (k : Nat) (s : State)
    (hs : Memory.wf s.mem = true) : Memory.wf (endJobOf k s).mem = true := by
  have k0 := @cutCmd_frame
  simp only [endJobOf, when]
  repeat' split
  all_goals simp (maxDischargeDepth := 40) +contextual [hs, k0]

@[simp] theorem detach_wf (k : Nat) (s : State)
    (hs : Memory.wf s.mem = true) : Memory.wf (detach k s).mem = true := by
  have k0 := @carriagesGone_frame
  have k1 := @endJobOf_frame
  have k2 := @forgetPort_frame
  simp only [detach, when]
  repeat' split
  all_goals simp (maxDischargeDepth := 40) +contextual [hs, k0, k1, k2]

@[simp] theorem slotJob_wf (k : Nat) (s : State)
    (hs : Memory.wf s.mem = true) : Memory.wf (slotJob k s).mem = true := by
  have k0 := @queueJob_frame
  simp only [slotJob, when]
  repeat' split
  all_goals simp (maxDischargeDepth := 40) +contextual [hs, k0]

@[simp] theorem presenceSlot_wf (k : Nat) (present : Bool) (s : State)
    (hs : Memory.wf s.mem = true) : Memory.wf (presenceSlot k present s).mem = true := by
  have k0 := @slotJob_frame
  have k1 := @takeReading_frame
  simp only [presenceSlot, when]
  repeat' split
  all_goals simp (maxDischargeDepth := 40) +contextual [hs, k0, k1]

@[simp] theorem firstReading_wf (present : BitVec 4) (k : Nat) (s : State)
    (hs : Memory.wf s.mem = true) : Memory.wf (firstReading present k s).mem = true := by
  simp only [firstReading, when]
  repeat' split
  all_goals simp (maxDischargeDepth := 40) +contextual [hs]

@[simp] theorem endWith_wf (reason : Nat) (c : Cmd) (j : DiscJob) (st : BitVec 3) (slot : Option Nat) (table : Option (List Byte)) (s : State)
    (hs : Memory.wf s.mem = true) : Memory.wf (endWith reason c j st slot table s).mem = true := by
  simp only [endWith, when]
  repeat' split
  all_goals simp (maxDischargeDepth := 40) +contextual [hs]

@[simp] theorem endDiscovery_wf (c : Cmd) (j : DiscJob) (st : BitVec 3) (slot : Option Nat) (table : Option (List Byte)) (s : State)
    (hs : Memory.wf s.mem = true) : Memory.wf (endDiscovery c j st slot table s).mem = true := by
  have k0 := @endWith_frame
  simp only [endDiscovery, when]
  repeat' split
  all_goals simp (maxDischargeDepth := 40) +contextual [hs, k0]

@[simp] theorem classify_wf (c : Cmd) (j : DiscJob) (s : State)
    (hs : Memory.wf s.mem = true) : Memory.wf (classify c j s).mem = true := by
  have k0 := @endDiscovery_frame
  have k1 := @setInstalling_frame
  simp only [classify, when]
  repeat' split
  all_goals simp (maxDischargeDepth := 40) +contextual [hs, k0, k1]

@[simp] theorem installed_wf (c : Cmd) (j : DiscJob) (s : State)
    (hs : Memory.wf s.mem = true) : Memory.wf (installed c j s).mem = true := by
  have k0 := @endDiscovery_frame
  have k1 := @endWith_frame
  simp only [installed, when]
  repeat' split
  all_goals simp (maxDischargeDepth := 40) +contextual [hs, k0, k1]

@[simp] theorem boundBy_wf (c : Cmd) (slot : Nat) (s : State)
    (hs : Memory.wf s.mem = true) : Memory.wf (boundBy c slot s).mem = true := by
  simp only [boundBy, when]
  repeat' split
  all_goals simp (maxDischargeDepth := 40) +contextual [hs]

@[simp] theorem recordDone_wf (j : LdgJob) (s : State)
    (hs : Memory.wf s.mem = true) : Memory.wf (recordDone j s).mem = true := by
  have k0 := @ldgCmdDone_frame
  have k1 := @recoverDue_frame
  simp only [recordDone, when]
  repeat' split
  all_goals simp (maxDischargeDepth := 40) +contextual [hs, k0, k1]

@[simp] theorem ldgPageDone_wf (ecc : Ecc) (s : State)
    (hs : Memory.wf s.mem = true) : Memory.wf (ldgPageDone ecc s).mem = true := by
  have k0 := @recordDone_frame
  simp only [ldgPageDone, when]
  repeat' split
  all_goals simp (maxDischargeDepth := 40) +contextual [hs, k0]

@[simp] theorem readDone_wf (c : Cmd) (l : Nat) (todo : List Nat) (done : Nat) (data clear : BitVec 16) (unc bad : Bool) (s : State)
    (hs : Memory.wf s.mem = true) : Memory.wf (readDone c l todo done data clear unc bad s).mem = true := by
  simp only [readDone, when]
  repeat' split
  all_goals simp (maxDischargeDepth := 40) +contextual [hs]

@[simp] theorem writeDone_wf (c : Cmd) (l : Nat) (todo : List Nat) (done : Nat) (ecc : Ecc) (s : State)
    (hs : Memory.wf s.mem = true) : Memory.wf (writeDone c l todo done ecc s).mem = true := by
  simp only [writeDone, when]
  repeat' split
  all_goals simp (maxDischargeDepth := 40) +contextual [hs]

@[simp] theorem clearDone_wf (c : Cmd) (wrote : Bool) (ecc : Ecc) (todo : List Nat) (done stage first count : Nat) (sec : Word) (unc : Bool) (s : State)
    (hs : Memory.wf s.mem = true) : Memory.wf (clearDone c wrote ecc todo done stage first count sec unc s).mem = true := by
  have k0 := @clearStep_frame
  have k1 := @endSuspends_frame
  simp only [clearDone, when]
  repeat' split
  all_goals simp (maxDischargeDepth := 40) +contextual [hs, k0, k1]

@[simp] theorem saveDone_wf (c : Cmd) (todo : List (Nat × List Byte)) (gen : Byte) (count done : Nat) (ecc : Ecc) (s : State)
    (hs : Memory.wf s.mem = true) : Memory.wf (saveDone c todo gen count done ecc s).mem = true := by
  simp only [saveDone, when]
  repeat' split
  all_goals simp (maxDischargeDepth := 40) +contextual [hs]

@[simp] theorem jobPageDone_wf (o : NvOp) (ecc : Ecc) (s : State)
    (hs : Memory.wf s.mem = true) : Memory.wf (jobPageDone o ecc s).mem = true := by
  have k0 := @boundBy_frame
  have k1 := @clearDone_frame
  have k2 := @installed_frame
  have k3 := @readDone_frame
  have k4 := @saveDone_frame
  have k5 := @writeDone_frame
  simp only [jobPageDone, when]
  repeat' split
  all_goals simp (maxDischargeDepth := 40) +contextual [hs, k0, k1, k2, k3, k4, k5]

@[simp] theorem restoreHere_wf (s : State)
    (hs : Memory.wf s.mem = true) : Memory.wf (restoreHere s).mem = true := by
  have k0 := @restoreImage_frame
  simp only [restoreHere, when]
  repeat' split
  all_goals simp (maxDischargeDepth := 40) +contextual [hs, k0]

@[simp] theorem switchRecord_wf (g : Byte × Option Bool) (s : State)
    (hs : Memory.wf s.mem = true) : Memory.wf (switchRecord g s).mem = true := by
  simp only [switchRecord, when]
  repeat' split
  all_goals simp (maxDischargeDepth := 40) +contextual [hs]

@[simp] theorem flushSwitches_wf (s : State)
    (hs : Memory.wf s.mem = true) : Memory.wf (flushSwitches s).mem = true := by
  have k0 := @switchRecord_frame
  simp only [flushSwitches, when]
  repeat' split
  all_goals simp (maxDischargeDepth := 40) +contextual [hs, k0]

@[simp] theorem cutHere_wf (s : State)
    (hs : Memory.wf s.mem = true) : Memory.wf (cutHere s).mem = true := by
  have k0 := @endSuspends_frame
  simp only [cutHere, when]
  repeat' split
  all_goals simp (maxDischargeDepth := 40) +contextual [hs, k0]

@[simp] theorem settle_wf (s : State)
    (hs : Memory.wf s.mem = true) : Memory.wf (settle s).mem = true := by
  simp only [settle, when]
  repeat' split
  all_goals simp (maxDischargeDepth := 40) +contextual [hs]

@[simp] theorem ownerAdvances_wf (o : NvOp) (ecc : Ecc) (s : State)
    (hs : Memory.wf s.mem = true) : Memory.wf (ownerAdvances o ecc s).mem = true := by
  have k0 := @jobPageDone_frame
  have k1 := @jobPageReset_frame
  have k2 := @ldgPageDone_frame
  simp only [ownerAdvances, when]
  repeat' split
  all_goals simp (maxDischargeDepth := 40) +contextual [hs, k0, k1, k2]

@[simp] theorem pageOperationEnd_wf (ecc : Ecc) (t : Nat) (s : State)
    (hs : Memory.wf s.mem = true) : Memory.wf (pageOperationEnd ecc t s).mem = true := by
  have k0 := @ownerAdvances_frame
  have k1 := @readPage_frame
  have k2 := @writePage_frame
  simp only [pageOperationEnd, when]
  repeat' split
  all_goals simp (maxDischargeDepth := 40) +contextual [hs, k0, k1, k2]

@[simp] theorem onStart_wf (op t : Nat) (f : Cmd → State → State) (s : State)
    (hf : ∀ c t, Memory.wf t.mem = true → Memory.wf (f c t).mem = true)
    (hs : Memory.wf s.mem = true) : Memory.wf (onStart op t f s).mem = true := by
  simp only [onStart, when]
  repeat' split
  all_goals simp (maxDischargeDepth := 40) +contextual [hs, hf]

@[simp] theorem uninstall_wf (b : Bool) (s : State)
    (hs : Memory.wf s.mem = true) : Memory.wf (uninstall b s).mem = true := by
  simp only [uninstall, when]
  repeat' split
  all_goals simp (maxDischargeDepth := 40) +contextual [hs]

@[simp] theorem atStart_wf (c : Cmd) (s : State)
    (hs : Memory.wf s.mem = true) : Memory.wf (atStart c s).mem = true := by
  have k0 := @uninstall_frame
  simp only [atStart, when]
  repeat' split
  all_goals simp (maxDischargeDepth := 40) +contextual [hs, k0]

@[simp] theorem commandStart_wf (t : Nat) (s : State)
    (hs : Memory.wf s.mem = true) : Memory.wf (commandStart t s).mem = true := by
  have k0 := @atStart_frame
  simp only [commandStart, when]
  repeat' split
  all_goals simp (maxDischargeDepth := 40) +contextual [hs, k0]

@[simp] theorem undefinedCommand_wf (t : Nat) (s : State)
    (hs : Memory.wf s.mem = true) : Memory.wf (undefinedCommand t s).mem = true := by
  simp only [undefinedCommand, when]
  repeat' split
  all_goals simp (maxDischargeDepth := 40) +contextual [hs]

@[simp] theorem loadTt_wf (c : Cmd) (s : State)
    (hs : Memory.wf s.mem = true) : Memory.wf (loadTt c s).mem = true := by
  have k0 := @uninstall_frame
  simp only [loadTt, when]
  repeat' split
  all_goals simp (maxDischargeDepth := 40) +contextual [hs, k0]

@[simp] theorem switchTt_wf (c : Cmd) (s : State)
    (hs : Memory.wf s.mem = true) : Memory.wf (switchTt c s).mem = true := by
  have k0 := @applySwitch_frame
  simp only [switchTt, when]
  repeat' split
  all_goals simp (maxDischargeDepth := 40) +contextual [hs, k0]

@[simp] theorem discoverStart_wf (c : Cmd) (teds : List Teds) (s : State)
    (hs : Memory.wf s.mem = true) : Memory.wf (discoverStart c teds s).mem = true := by
  have k0 := @discoverRead_frame
  simp only [discoverStart, when]
  repeat' split
  all_goals simp (maxDischargeDepth := 40) +contextual [hs, k0]

@[simp] theorem discoverEnd_wf (c : Cmd) (j : DiscJob) (s : State)
    (hs : Memory.wf s.mem = true) : Memory.wf (discoverEnd c j s).mem = true := by
  have k0 := @classify_frame
  simp only [discoverEnd, when]
  repeat' split
  all_goals simp (maxDischargeDepth := 40) +contextual [hs, k0]

@[simp] theorem discBalance_wf (d : DiscData) (s : State)
    (hs : Memory.wf s.mem = true) : Memory.wf (discBalance d s).mem = true := by
  have k0 := @diagOver_frame
  have k1 := @discoverEnd_frame
  simp only [discBalance, when]
  repeat' split
  all_goals simp (maxDischargeDepth := 40) +contextual [hs, k0, k1]

@[simp] theorem discover_wf (teds : List Teds) (d : DiscData) (t : Nat) (s : State)
    (hs : Memory.wf s.mem = true) : Memory.wf (discover teds d t s).mem = true := by
  have k0 := @discArm_frame
  have k1 := @discBalance_frame
  have k2 := @discLeak_frame
  have k3 := @discoverRead_frame
  have k4 := @discoverStart_frame
  simp only [discover, when]
  repeat' split
  all_goals simp (maxDischargeDepth := 40) +contextual [hs, k0, k1, k2, k3, k4]

@[simp] theorem discoveryHoldBegin_wf (s : State)
    (hs : Memory.wf s.mem = true) : Memory.wf (discoveryHoldBegin s).mem = true := by
  simp only [discoveryHoldBegin, when]
  repeat' split
  all_goals simp (maxDischargeDepth := 40) +contextual [hs]

@[simp] theorem idLineTimeout_wf (t : Nat) (s : State)
    (hs : Memory.wf s.mem = true) : Memory.wf (idLineTimeout t s).mem = true := by
  simp only [idLineTimeout, when]
  repeat' split
  all_goals simp (maxDischargeDepth := 40) +contextual [hs]

@[simp] theorem slotBind_wf (c : Cmd) (s : State)
    (hs : Memory.wf s.mem = true) : Memory.wf (slotBind c s).mem = true := by
  have k0 := @setInstalling_frame
  simp only [slotBind, when]
  repeat' split
  all_goals simp (maxDischargeDepth := 40) +contextual [hs, k0]

@[simp] theorem calStart_wf (c : Cmd) (s : State)
    (hs : Memory.wf s.mem = true) : Memory.wf (calStart c s).mem = true := by
  have k0 := @beginHold_frame
  simp only [calStart, when]
  repeat' split
  all_goals simp (maxDischargeDepth := 40) +contextual [hs, k0]

@[simp] theorem calHoldBegin_wf (s : State)
    (hs : Memory.wf s.mem = true) : Memory.wf (calHoldBegin s).mem = true := by
  have k0 := @beginHold_frame
  simp only [calHoldBegin, when]
  repeat' split
  all_goals simp (maxDischargeDepth := 40) +contextual [hs, k0]

@[simp] theorem calDone_wf (residual : Nat) (applied : Bool) (s : State)
    (hs : Memory.wf s.mem = true) : Memory.wf (calDone residual applied s).mem = true := by
  simp only [calDone, when]
  repeat' split
  all_goals simp (maxDischargeDepth := 40) +contextual [hs]

@[simp] theorem applyTdc_wf (counts : List Nat) (s : State)
    (hs : Memory.wf s.mem = true) : Memory.wf (applyTdc counts s).mem = true := by
  have k0 := @calDone_frame
  simp only [applyTdc, when]
  repeat' split
  all_goals simp (maxDischargeDepth := 40) +contextual [hs, k0]

@[simp] theorem applyMod_wf (c : Cmd) (offsets : List Int) (trims : List Byte) (s : State)
    (hs : Memory.wf s.mem = true) : Memory.wf (applyMod c offsets trims s).mem = true := by
  have k0 := @calDone_frame
  simp only [applyMod, when]
  repeat' split
  all_goals simp (maxDischargeDepth := 40) +contextual [hs, k0]

@[simp] theorem applyEvt_wf (c : Cmd) (ths : List (Nat × Nat)) (trims : List Byte) (s : State)
    (hs : Memory.wf s.mem = true) : Memory.wf (applyEvt c ths trims s).mem = true := by
  have k0 := @calDone_frame
  simp only [applyEvt, when]
  repeat' split
  all_goals simp (maxDischargeDepth := 40) +contextual [hs, k0]

@[simp] theorem applyMeasured_wf (c : Cmd) (m : Measured) (s : State)
    (hs : Memory.wf s.mem = true) : Memory.wf (applyMeasured c m s).mem = true := by
  have k0 := @applyEvt_frame
  have k1 := @applyMod_frame
  have k2 := @applyTdc_frame
  have k3 := @finishSelftest_frame
  simp only [applyMeasured, when]
  repeat' split
  all_goals simp (maxDischargeDepth := 40) +contextual [hs, k0, k1, k2, k3]

@[simp] theorem calResultApply_wf (m : Measured) (t : Nat) (s : State)
    (hs : Memory.wf s.mem = true) : Memory.wf (calResultApply m t s).mem = true := by
  have k0 := @applyMeasured_frame
  simp only [calResultApply, when]
  repeat' split
  all_goals simp (maxDischargeDepth := 40) +contextual [hs, k0]

@[simp] theorem testClock_wf (c : Cmd) (s : State)
    (hs : Memory.wf s.mem = true) : Memory.wf (testClock c s).mem = true := by
  simp only [testClock, when]
  repeat' split
  all_goals simp (maxDischargeDepth := 40) +contextual [hs]

@[simp] theorem selftest_wf (failed : BitVec 11) (c : Cmd) (s : State)
    (hs : Memory.wf s.mem = true) : Memory.wf (selftest failed c s).mem = true := by
  have k0 := @beginHold_frame
  have k1 := @finishSelftest_frame
  have k2 := @nvTestReads_frame
  have k3 := @testClock_frame
  simp only [selftest, when]
  repeat' split
  all_goals simp (maxDischargeDepth := 40) +contextual [hs, k0, k1, k2, k3]

@[simp] theorem nvRead_wf (c : Cmd) (s : State)
    (hs : Memory.wf s.mem = true) : Memory.wf (nvRead c s).mem = true := by
  simp only [nvRead, when]
  repeat' split
  all_goals simp (maxDischargeDepth := 40) +contextual [hs]

@[simp] theorem nvWrite_wf (c : Cmd) (s : State)
    (hs : Memory.wf s.mem = true) : Memory.wf (nvWrite c s).mem = true := by
  simp only [nvWrite, when]
  repeat' split
  all_goals simp (maxDischargeDepth := 40) +contextual [hs]

@[simp] theorem nvClear_wf (c : Cmd) (s : State)
    (hs : Memory.wf s.mem = true) : Memory.wf (nvClear c s).mem = true := by
  have k0 := @startClear_frame
  simp only [nvClear, when]
  repeat' split
  all_goals simp (maxDischargeDepth := 40) +contextual [hs, k0]

@[simp] theorem nvResume_wf (c : Cmd) (s : State)
    (hs : Memory.wf s.mem = true) : Memory.wf (nvResume c s).mem = true := by
  have k0 := @startClear_frame
  simp only [nvResume, when]
  repeat' split
  all_goals simp (maxDischargeDepth := 40) +contextual [hs, k0]

@[simp] theorem nvAbandon_wf (c : Cmd) (s : State)
    (hs : Memory.wf s.mem = true) : Memory.wf (nvAbandon c s).mem = true := by
  simp only [nvAbandon, when]
  repeat' split
  all_goals simp (maxDischargeDepth := 40) +contextual [hs]

@[simp] theorem nvSuspend_wf (t : Nat) (s : State)
    (hs : Memory.wf s.mem = true) : Memory.wf (nvSuspend t s).mem = true := by
  have k0 := @endSuspends_frame
  simp only [nvSuspend, when]
  repeat' split
  all_goals simp (maxDischargeDepth := 40) +contextual [hs, k0]

@[simp] theorem saveConfig_wf (c : Cmd) (s : State)
    (hs : Memory.wf s.mem = true) : Memory.wf (saveConfig c s).mem = true := by
  simp only [saveConfig, when]
  repeat' split
  all_goals simp (maxDischargeDepth := 40) +contextual [hs]

@[simp] theorem restoreConfig_wf (c : Cmd) (s : State)
    (hs : Memory.wf s.mem = true) : Memory.wf (restoreConfig c s).mem = true := by
  simp only [restoreConfig, when]
  repeat' split
  all_goals simp (maxDischargeDepth := 40) +contextual [hs]

@[simp] theorem ledgerCommands_wf (lap : Bool) (t : Nat) (s : State)
    (hs : Memory.wf s.mem = true) : Memory.wf (ledgerCommands lap t s).mem = true := by
  simp only [ledgerCommands, when]
  repeat' split
  all_goals simp (maxDischargeDepth := 40) +contextual [hs]

@[simp] theorem ship_wf (x1 : Cmd) (s : State)
    (hs : Memory.wf s.mem = true) : Memory.wf (ship x1 s).mem = true := by
  have k0 := @drainQueue_frame
  simp only [ship, when]
  repeat' split
  all_goals simp (maxDischargeDepth := 40) +contextual [hs, k0]

@[simp] theorem watchdogExpiry_wf (s : State)
    (hs : Memory.wf s.mem = true) : Memory.wf (watchdogExpiry s).mem = true := by
  have k0 := @setCause_frame
  simp only [watchdogExpiry, when]
  repeat' split
  all_goals simp (maxDischargeDepth := 40) +contextual [hs, k0]

@[simp] theorem ledgerRestart_wf (s : State)
    (hs : Memory.wf s.mem = true) : Memory.wf (ledgerRestart s).mem = true := by
  have k0 := @recordDone_frame
  simp only [ledgerRestart, when]
  repeat' split
  all_goals simp (maxDischargeDepth := 40) +contextual [hs, k0]

@[simp] theorem conductorRestart_wf (t : Nat) (s : State)
    (hs : Memory.wf s.mem = true) : Memory.wf (conductorRestart t s).mem = true := by
  have k0 := @dropUnbegun_frame
  have k1 := @ledgerRestart_frame
  simp only [conductorRestart, when]
  repeat' split
  all_goals simp (maxDischargeDepth := 40) +contextual [hs, k0, k1]

end Sys2Proof.Machine
end

