-- ==== Sys2Proof/Laws/FramePower.lean ====
section
/-! SUPPORT. What each shared operation of these units leaves unchanged: the top-level parts of State it never writes.
Cited instead of unfolding the operation; those of the operations a meaning calls itself are simp lemmas, the others serve `simp` as
a hypothesis (`have h := @name`). -/

set_option linter.unusedSimpArgs false
set_option linter.unusedTactic false

namespace Sys2Proof.Machine

theorem clearMain_frame (keepHif : Bool) (s : State) :
    (clearMain keepHif s).pins = s.pins ∧ (clearMain keepHif s).alm = s.alm ∧ (clearMain keepHif s).free = s.free ∧
    (clearMain keepHif s).pending = s.pending := by
  simp only [clearMain, when]
  repeat' split
  all_goals simp

theorem beginStart_frame (bits : BitVec 11) (soft powerOn : Bool) (lost : Nat) (s : State) :
    (beginStart bits soft powerOn lost s).pins = s.pins ∧ (beginStart bits soft powerOn lost s).alm = s.alm ∧
    (beginStart bits soft powerOn lost s).free = s.free ∧ (beginStart bits soft powerOn lost s).pending = s.pending := by
  have k0 := @clearMain_frame
  simp only [beginStart, when]
  repeat' split
  all_goals simp [k0]

theorem keepShip_frame (s t : State) :
    (keepShip s t).pins = t.pins ∧ (keepShip s t).sys = t.sys ∧ (keepShip s t).rtc = t.rtc ∧
    (keepShip s t).alm = t.alm ∧ (keepShip s t).hif = t.hif ∧ (keepShip s t).evt = t.evt ∧
    (keepShip s t).evin = t.evin ∧ (keepShip s t).clk = t.clk ∧ (keepShip s t).afe = t.afe ∧
    (keepShip s t).ros = t.ros ∧ (keepShip s t).tt = t.tt ∧ (keepShip s t).res = t.res ∧ (keepShip s t).out = t.out ∧
    (keepShip s t).ldg = t.ldg ∧ (keepShip s t).nv = t.nv ∧ (keepShip s t).disc = t.disc ∧
    (keepShip s t).cal = t.cal ∧ (keepShip s t).mem = t.mem ∧ (keepShip s t).free = t.free ∧
    (keepShip s t).pending = t.pending := by
  simp only [keepShip, when]
  repeat' split
  all_goals simp

theorem softReset_frame (s : State) :
    (softReset s).pins = s.pins ∧ (softReset s).alm = s.alm ∧ (softReset s).free = s.free ∧
    (softReset s).pending = s.pending := by
  have k0 := @beginStart_frame
  have k1 := @keepShip_frame
  simp only [softReset, when]
  repeat' split
  all_goals simp [k0, k1]

theorem hifReset_frame (s : State) :
    (hifReset s).pins = s.pins ∧ (hifReset s).rtc = s.rtc ∧ (hifReset s).alm = s.alm ∧ (hifReset s).evt = s.evt ∧
    (hifReset s).evin = s.evin ∧ (hifReset s).clk = s.clk ∧ (hifReset s).afe = s.afe ∧ (hifReset s).ros = s.ros ∧
    (hifReset s).tt = s.tt ∧ (hifReset s).res = s.res ∧ (hifReset s).out = s.out ∧ (hifReset s).ldg = s.ldg ∧
    (hifReset s).nv = s.nv ∧ (hifReset s).cond = s.cond ∧ (hifReset s).disc = s.disc ∧ (hifReset s).cal = s.cal ∧
    (hifReset s).mem = s.mem ∧ (hifReset s).free = s.free ∧ (hifReset s).pending = s.pending := by
  have k0 := @setCause_frame
  simp only [hifReset, when]
  repeat' split
  all_goals simp [k0]

theorem rstactReset_frame (s : State) :
    (rstactReset s).pins = s.pins ∧ (rstactReset s).alm = s.alm ∧ (rstactReset s).free = s.free ∧
    (rstactReset s).pending = s.pending := by
  have k0 := @beginStart_frame
  have k1 := @keepShip_frame
  simp only [rstactReset, when]
  repeat' split
  all_goals simp [k0, k1]

@[simp] theorem rstn_frame (lowNs : Nat) (s : State) :
    (rstn lowNs s).pins = s.pins ∧ (rstn lowNs s).alm = s.alm ∧ (rstn lowNs s).pending = s.pending := by
  have k0 := @beginStart_frame
  have k1 := @keepShip_frame
  simp only [rstn, when]
  repeat' split
  all_goals simp [k0, k1]

@[simp] theorem mainResetRelease_frame (ifsel addr : Bool) (s : State) :
    (mainResetRelease ifsel addr s).pins = s.pins ∧ (mainResetRelease ifsel addr s).pwr = s.pwr ∧
    (mainResetRelease ifsel addr s).rtc = s.rtc ∧ (mainResetRelease ifsel addr s).alm = s.alm ∧
    (mainResetRelease ifsel addr s).evt = s.evt ∧ (mainResetRelease ifsel addr s).evin = s.evin ∧
    (mainResetRelease ifsel addr s).clk = s.clk ∧ (mainResetRelease ifsel addr s).afe = s.afe ∧
    (mainResetRelease ifsel addr s).ros = s.ros ∧ (mainResetRelease ifsel addr s).tt = s.tt ∧
    (mainResetRelease ifsel addr s).res = s.res ∧ (mainResetRelease ifsel addr s).out = s.out ∧
    (mainResetRelease ifsel addr s).ldg = s.ldg ∧ (mainResetRelease ifsel addr s).nv = s.nv ∧
    (mainResetRelease ifsel addr s).cond = s.cond ∧ (mainResetRelease ifsel addr s).disc = s.disc ∧
    (mainResetRelease ifsel addr s).cal = s.cal ∧ (mainResetRelease ifsel addr s).mem = s.mem ∧
    (mainResetRelease ifsel addr s).free = s.free ∧ (mainResetRelease ifsel addr s).pending = s.pending := by
  simp only [mainResetRelease, when]
  repeat' split
  all_goals simp

@[simp] theorem hfrcRunning_frame (s : State) :
    (hfrcRunning s).pins = s.pins ∧ (hfrcRunning s).pwr = s.pwr ∧ (hfrcRunning s).rtc = s.rtc ∧
    (hfrcRunning s).alm = s.alm ∧ (hfrcRunning s).hif = s.hif ∧ (hfrcRunning s).evt = s.evt ∧
    (hfrcRunning s).evin = s.evin ∧ (hfrcRunning s).clk = s.clk ∧ (hfrcRunning s).afe = s.afe ∧
    (hfrcRunning s).ros = s.ros ∧ (hfrcRunning s).tt = s.tt ∧ (hfrcRunning s).res = s.res ∧
    (hfrcRunning s).ldg = s.ldg ∧ (hfrcRunning s).nv = s.nv ∧ (hfrcRunning s).disc = s.disc ∧
    (hfrcRunning s).cal = s.cal ∧ (hfrcRunning s).mem = s.mem ∧ (hfrcRunning s).free = s.free ∧
    (hfrcRunning s).pending = s.pending := by
  simp only [hfrcRunning, when]
  repeat' split
  all_goals simp

@[simp] theorem journalRead_frame (s : State) :
    (journalRead s).pins = s.pins ∧ (journalRead s).pwr = s.pwr ∧ (journalRead s).rtc = s.rtc ∧
    (journalRead s).alm = s.alm ∧ (journalRead s).hif = s.hif ∧ (journalRead s).evin = s.evin ∧
    (journalRead s).clk = s.clk ∧ (journalRead s).afe = s.afe ∧ (journalRead s).ros = s.ros ∧
    (journalRead s).tt = s.tt ∧ (journalRead s).res = s.res ∧ (journalRead s).out = s.out ∧
    (journalRead s).ldg = s.ldg ∧ (journalRead s).disc = s.disc ∧ (journalRead s).cal = s.cal ∧
    (journalRead s).mem = s.mem ∧ (journalRead s).free = s.free ∧ (journalRead s).pending = s.pending := by
  simp only [journalRead, when]
  repeat' split
  all_goals simp

@[simp] theorem sramClearDone_frame (s : State) :
    (sramClearDone s).pins = s.pins ∧ (sramClearDone s).pwr = s.pwr ∧ (sramClearDone s).rtc = s.rtc ∧
    (sramClearDone s).alm = s.alm ∧ (sramClearDone s).hif = s.hif ∧ (sramClearDone s).evt = s.evt ∧
    (sramClearDone s).evin = s.evin ∧ (sramClearDone s).clk = s.clk ∧ (sramClearDone s).afe = s.afe ∧
    (sramClearDone s).tt = s.tt ∧ (sramClearDone s).res = s.res ∧ (sramClearDone s).out = s.out ∧
    (sramClearDone s).ldg = s.ldg ∧ (sramClearDone s).nv = s.nv ∧ (sramClearDone s).cond = s.cond ∧
    (sramClearDone s).disc = s.disc ∧ (sramClearDone s).cal = s.cal ∧ (sramClearDone s).free = s.free ∧
    (sramClearDone s).pending = s.pending := by
  simp only [sramClearDone, when]
  repeat' split
  all_goals simp

@[simp] theorem configImageApply_frame (present : BitVec 4) (t : Nat) (s : State) :
    (configImageApply present t s).pins = s.pins ∧ (configImageApply present t s).rtc = s.rtc ∧
    (configImageApply present t s).alm = s.alm ∧ (configImageApply present t s).free = s.free ∧
    (configImageApply present t s).pending = s.pending := by
  have k0 := @configStep_frame
  have k1 := @firstReading_frame
  simp only [configImageApply, when]
  repeat' split
  all_goals simp [k0, k1]

@[simp] theorem ledgerRecovery_frame (s : State) :
    (ledgerRecovery s).pins = s.pins ∧ (ledgerRecovery s).pwr = s.pwr ∧ (ledgerRecovery s).rtc = s.rtc ∧
    (ledgerRecovery s).alm = s.alm ∧ (ledgerRecovery s).hif = s.hif ∧ (ledgerRecovery s).evin = s.evin ∧
    (ledgerRecovery s).clk = s.clk ∧ (ledgerRecovery s).afe = s.afe ∧ (ledgerRecovery s).ros = s.ros ∧
    (ledgerRecovery s).tt = s.tt ∧ (ledgerRecovery s).res = s.res ∧ (ledgerRecovery s).out = s.out ∧
    (ledgerRecovery s).disc = s.disc ∧ (ledgerRecovery s).cal = s.cal ∧ (ledgerRecovery s).mem = s.mem ∧
    (ledgerRecovery s).free = s.free ∧ (ledgerRecovery s).pending = s.pending := by
  have k0 := @recover_frame
  simp only [ledgerRecovery, when]
  repeat' split
  all_goals simp [k0]

theorem takeLevels_frame (s : State) :
    (takeLevels s).pins = s.pins ∧ (takeLevels s).pwr = s.pwr ∧ (takeLevels s).sys = s.sys ∧
    (takeLevels s).rtc = s.rtc ∧ (takeLevels s).alm = s.alm ∧ (takeLevels s).hif = s.hif ∧
    (takeLevels s).evt = s.evt ∧ (takeLevels s).clk = s.clk ∧ (takeLevels s).afe = s.afe ∧
    (takeLevels s).ros = s.ros ∧ (takeLevels s).tt = s.tt ∧ (takeLevels s).res = s.res ∧ (takeLevels s).out = s.out ∧
    (takeLevels s).ldg = s.ldg ∧ (takeLevels s).nv = s.nv ∧ (takeLevels s).cond = s.cond ∧
    (takeLevels s).disc = s.disc ∧ (takeLevels s).cal = s.cal ∧ (takeLevels s).mem = s.mem ∧
    (takeLevels s).free = s.free ∧ (takeLevels s).pending = s.pending := by
  simp only [takeLevels, when]
  repeat' split
  all_goals simp

@[simp] theorem bootRecord_frame (t : Nat) (s : State) :
    (bootRecord t s).pins = s.pins ∧ (bootRecord t s).rtc = s.rtc ∧ (bootRecord t s).alm = s.alm ∧
    (bootRecord t s).free = s.free ∧ (bootRecord t s).pending = s.pending := by
  have k0 := @acquire_frame
  have k1 := @copySpread_frame
  have k2 := @drainQueue_frame
  have k3 := @resume_frame
  have k4 := @takeLevels_frame
  simp only [bootRecord, when]
  repeat' split
  all_goals simp [k0, k1, k2, k3, k4]

theorem neighbourOne_frame (stamp : Stamp) (i : Nat) (s : State) :
    (neighbourOne stamp i s).pins = s.pins ∧ (neighbourOne stamp i s).pwr = s.pwr ∧
    (neighbourOne stamp i s).sys = s.sys ∧ (neighbourOne stamp i s).rtc = s.rtc ∧
    (neighbourOne stamp i s).alm = s.alm ∧ (neighbourOne stamp i s).hif = s.hif ∧
    (neighbourOne stamp i s).evin = s.evin ∧ (neighbourOne stamp i s).clk = s.clk ∧
    (neighbourOne stamp i s).afe = s.afe ∧ (neighbourOne stamp i s).ros = s.ros ∧
    (neighbourOne stamp i s).ldg = s.ldg ∧ (neighbourOne stamp i s).nv = s.nv ∧
    (neighbourOne stamp i s).cond = s.cond ∧ (neighbourOne stamp i s).disc = s.disc ∧
    (neighbourOne stamp i s).cal = s.cal ∧ (neighbourOne stamp i s).free = s.free ∧
    (neighbourOne stamp i s).pending = s.pending := by
  have k0 := @failRecord_frame
  simp only [neighbourOne, when]
  repeat' split
  all_goals simp [k0]

theorem neighbourFrame_frame (s : State) :
    (neighbourFrame s).pins = s.pins ∧ (neighbourFrame s).pwr = s.pwr ∧ (neighbourFrame s).sys = s.sys ∧
    (neighbourFrame s).rtc = s.rtc ∧ (neighbourFrame s).alm = s.alm ∧ (neighbourFrame s).hif = s.hif ∧
    (neighbourFrame s).evin = s.evin ∧ (neighbourFrame s).clk = s.clk ∧ (neighbourFrame s).afe = s.afe ∧
    (neighbourFrame s).ros = s.ros ∧ (neighbourFrame s).ldg = s.ldg ∧ (neighbourFrame s).nv = s.nv ∧
    (neighbourFrame s).cond = s.cond ∧ (neighbourFrame s).disc = s.disc ∧ (neighbourFrame s).cal = s.cal ∧
    (neighbourFrame s).free = s.free ∧ (neighbourFrame s).pending = s.pending := by
  have k0 := @markFailRecord_frame
  have k1 := @neighbourOne_frame
  simp only [neighbourFrame, when]
  repeat' split
  all_goals simp [k0, k1]

theorem neighbourLedger_frame (s : State) :
    (neighbourLedger s).pins = s.pins ∧ (neighbourLedger s).pwr = s.pwr ∧ (neighbourLedger s).sys = s.sys ∧
    (neighbourLedger s).rtc = s.rtc ∧ (neighbourLedger s).alm = s.alm ∧ (neighbourLedger s).hif = s.hif ∧
    (neighbourLedger s).evin = s.evin ∧ (neighbourLedger s).clk = s.clk ∧ (neighbourLedger s).afe = s.afe ∧
    (neighbourLedger s).ros = s.ros ∧ (neighbourLedger s).tt = s.tt ∧ (neighbourLedger s).res = s.res ∧
    (neighbourLedger s).out = s.out ∧ (neighbourLedger s).nv = s.nv ∧ (neighbourLedger s).disc = s.disc ∧
    (neighbourLedger s).cal = s.cal ∧ (neighbourLedger s).free = s.free ∧ (neighbourLedger s).pending = s.pending := by
  have k0 := @ldgCmdDone_frame
  simp only [neighbourLedger, when]
  repeat' split
  all_goals simp [k0]

theorem clearMeas_frame (s : State) :
    (clearMeas s).pins = s.pins ∧ (clearMeas s).pwr = s.pwr ∧ (clearMeas s).rtc = s.rtc ∧ (clearMeas s).alm = s.alm ∧
    (clearMeas s).hif = s.hif ∧ (clearMeas s).evt = s.evt ∧ (clearMeas s).res = s.res ∧ (clearMeas s).nv = s.nv ∧
    (clearMeas s).cond = s.cond ∧ (clearMeas s).disc = s.disc ∧ (clearMeas s).cal = s.cal ∧
    (clearMeas s).mem = s.mem ∧ (clearMeas s).free = s.free ∧ (clearMeas s).pending = s.pending := by
  have k0 := @genZero_frame
  have k1 := @setCause_frame
  simp only [clearMeas, when]
  repeat' split
  all_goals simp [k0, k1]

theorem measReset_frame (t : Nat) (s : State) :
    (measReset t s).pins = s.pins ∧ (measReset t s).pwr = s.pwr ∧ (measReset t s).rtc = s.rtc ∧
    (measReset t s).alm = s.alm ∧ (measReset t s).hif = s.hif ∧ (measReset t s).free = s.free ∧
    (measReset t s).pending = s.pending := by
  have k0 := @clearMeas_frame
  have k1 := @neighbourCut_frame
  have k2 := @neighbourFrame_frame
  have k3 := @neighbourLedger_frame
  simp only [measReset, when]
  repeat' split
  all_goals simp [k0, k1, k2, k3]

@[simp] theorem measResetComplete_frame (t : Nat) (s : State) :
    (measResetComplete t s).pins = s.pins ∧ (measResetComplete t s).rtc = s.rtc ∧
    (measResetComplete t s).alm = s.alm ∧ (measResetComplete t s).free = s.free ∧
    (measResetComplete t s).pending = s.pending := by
  have k0 := @acquire_frame
  have k1 := @applySwitch_frame
  have k2 := @recoverBy_frame
  simp only [measResetComplete, when]
  repeat' split
  all_goals simp [k0, k1, k2]

theorem select_frame (s : State) :
    (select s).pins = s.pins ∧ (select s).sys = s.sys ∧ (select s).rtc = s.rtc ∧ (select s).alm = s.alm ∧
    (select s).hif = s.hif ∧ (select s).evt = s.evt ∧ (select s).evin = s.evin ∧ (select s).clk = s.clk ∧
    (select s).afe = s.afe ∧ (select s).ros = s.ros ∧ (select s).tt = s.tt ∧ (select s).res = s.res ∧
    (select s).out = s.out ∧ (select s).ldg = s.ldg ∧ (select s).nv = s.nv ∧ (select s).cond = s.cond ∧
    (select s).disc = s.disc ∧ (select s).cal = s.cal ∧ (select s).mem = s.mem ∧ (select s).free = s.free ∧
    (select s).pending = s.pending := by
  simp only [select, when]
  repeat' split
  all_goals simp

theorem trickleEval_frame (s : State) :
    (trickleEval s).pins = s.pins ∧ (trickleEval s).sys = s.sys ∧ (trickleEval s).rtc = s.rtc ∧
    (trickleEval s).alm = s.alm ∧ (trickleEval s).hif = s.hif ∧ (trickleEval s).evin = s.evin ∧
    (trickleEval s).clk = s.clk ∧ (trickleEval s).afe = s.afe ∧ (trickleEval s).ros = s.ros ∧
    (trickleEval s).tt = s.tt ∧ (trickleEval s).res = s.res ∧ (trickleEval s).out = s.out ∧
    (trickleEval s).ldg = s.ldg ∧ (trickleEval s).nv = s.nv ∧ (trickleEval s).cond = s.cond ∧
    (trickleEval s).disc = s.disc ∧ (trickleEval s).cal = s.cal ∧ (trickleEval s).mem = s.mem ∧
    (trickleEval s).free = s.free ∧ (trickleEval s).pending = s.pending := by
  simp only [trickleEval, when]
  repeat' split
  all_goals simp

theorem tearOp_frame (s : State) :
    (tearOp s).pins = s.pins ∧ (tearOp s).pwr = s.pwr ∧ (tearOp s).sys = s.sys ∧ (tearOp s).rtc = s.rtc ∧
    (tearOp s).alm = s.alm ∧ (tearOp s).hif = s.hif ∧ (tearOp s).evt = s.evt ∧ (tearOp s).evin = s.evin ∧
    (tearOp s).clk = s.clk ∧ (tearOp s).afe = s.afe ∧ (tearOp s).ros = s.ros ∧ (tearOp s).tt = s.tt ∧
    (tearOp s).res = s.res ∧ (tearOp s).out = s.out ∧ (tearOp s).ldg = s.ldg ∧ (tearOp s).cond = s.cond ∧
    (tearOp s).disc = s.disc ∧ (tearOp s).cal = s.cal ∧ (tearOp s).mem = s.mem ∧ (tearOp s).pending = s.pending := by
  simp only [tearOp, when]
  repeat' split
  all_goals simp

theorem mainDown_frame (s : State) :
    (mainDown s).pins = s.pins ∧ (mainDown s).alm = s.alm ∧ (mainDown s).free = s.free ∧
    (mainDown s).pending = s.pending := by
  have k0 := @clearMain_frame
  simp only [mainDown, when]
  repeat' split
  all_goals simp [k0]

theorem mainOff_frame (s : State) :
    (mainOff s).pins = s.pins ∧ (mainOff s).alm = s.alm ∧ (mainOff s).pending = s.pending := by
  have k0 := @mainDown_frame
  have k1 := @tearOp_frame
  simp only [mainOff, when]
  repeat' split
  all_goals simp [k0, k1]

theorem mainOn_frame (ship : Bool) (s : State) :
    (mainOn ship s).pins = s.pins ∧ (mainOn ship s).alm = s.alm ∧ (mainOn ship s).free = s.free ∧
    (mainOn ship s).pending = s.pending := by
  have k0 := @beginStart_frame
  simp only [mainOn, when]
  repeat' split
  all_goals simp [k0]

theorem aonOff_frame (s : State) :
    (aonOff s).pins = s.pins ∧ (aonOff s).alm = s.alm ∧ (aonOff s).pending = s.pending := by
  have k0 := @mainOff_frame
  have k1 := @mainOn_frame
  simp only [aonOff, when]
  repeat' split
  all_goals simp [k0, k1]

theorem leaveShip_frame (s : State) :
    (leaveShip s).pins = s.pins ∧ (leaveShip s).alm = s.alm ∧ (leaveShip s).free = s.free ∧
    (leaveShip s).pending = s.pending := by
  have k0 := @mainOn_frame
  have k1 := @select_frame
  have k2 := @trickleEval_frame
  simp only [leaveShip, when]
  repeat' split
  all_goals simp [k0, k1, k2]

theorem shipEval_frame (s : State) :
    (shipEval s).pins = s.pins ∧ (shipEval s).alm = s.alm ∧ (shipEval s).pending = s.pending := by
  have k0 := @leaveShip_frame
  have k1 := @tearOp_frame
  simp only [shipEval, when]
  repeat' split
  all_goals simp [k0, k1]

theorem aonColdStart_frame (s : State) :
    (aonColdStart s).pins = s.pins ∧ (aonColdStart s).free = s.free ∧ (aonColdStart s).pending = s.pending := by
  have k0 := @mainOn_frame
  simp only [aonColdStart, when]
  repeat' split
  all_goals simp [k0]

theorem railsEval_frame (s : State) :
    (railsEval s).pins = s.pins ∧ (railsEval s).alm = s.alm ∧ (railsEval s).pending = s.pending := by
  have k0 := @aonOff_frame
  have k1 := @mainOff_frame
  have k2 := @mainOn_frame
  have k3 := @select_frame
  have k4 := @shipEval_frame
  have k5 := @trickleEval_frame
  simp only [railsEval, when]
  repeat' split
  all_goals simp [k0, k1, k2, k3, k4, k5]

theorem powerEval_frame (s : State) :
    (powerEval s).pins = s.pins ∧ (powerEval s).pending = s.pending := by
  have k0 := @aonColdStart_frame
  have k1 := @railsEval_frame
  simp only [powerEval, when]
  repeat' split
  all_goals simp [k0, k1]

@[simp] theorem setSupplies_frame (vdd vbat : Nat) (s : State) :
    (setSupplies vdd vbat s).pending = s.pending := by
  have k0 := @powerEval_frame
  simp only [setSupplies, when]
  repeat' split
  all_goals simp [k0]

theorem enterShip_frame (s : State) :
    (enterShip s).pins = s.pins ∧ (enterShip s).alm = s.alm ∧ (enterShip s).free = s.free ∧
    (enterShip s).pending = s.pending := by
  have k0 := @mainDown_frame
  simp only [enterShip, when]
  repeat' split
  all_goals simp [k0]

@[simp] theorem shipExit_frame (w : ShipWake) (s : State) :
    (shipExit w s).pending = s.pending := by
  have k0 := @leaveShip_frame
  simp only [shipExit, when]
  repeat' split
  all_goals simp [k0]

@[simp] theorem vddioChange_frame (mv : Nat) (s : State) :
    (vddioChange mv s).pwr = s.pwr ∧ (vddioChange mv s).sys = s.sys ∧ (vddioChange mv s).rtc = s.rtc ∧
    (vddioChange mv s).alm = s.alm ∧ (vddioChange mv s).evt = s.evt ∧ (vddioChange mv s).evin = s.evin ∧
    (vddioChange mv s).clk = s.clk ∧ (vddioChange mv s).afe = s.afe ∧ (vddioChange mv s).ros = s.ros ∧
    (vddioChange mv s).tt = s.tt ∧ (vddioChange mv s).res = s.res ∧ (vddioChange mv s).out = s.out ∧
    (vddioChange mv s).ldg = s.ldg ∧ (vddioChange mv s).nv = s.nv ∧ (vddioChange mv s).cond = s.cond ∧
    (vddioChange mv s).disc = s.disc ∧ (vddioChange mv s).cal = s.cal ∧ (vddioChange mv s).mem = s.mem ∧
    (vddioChange mv s).pending = s.pending := by
  simp only [vddioChange, when]
  repeat' split
  all_goals simp

theorem startEdge_frame (s : State) :
    (startEdge s).2.pins = s.pins ∧ (startEdge s).2.pwr = s.pwr ∧ (startEdge s).2.sys = s.sys ∧
    (startEdge s).2.alm = s.alm ∧ (startEdge s).2.hif = s.hif ∧ (startEdge s).2.evt = s.evt ∧
    (startEdge s).2.evin = s.evin ∧ (startEdge s).2.clk = s.clk ∧ (startEdge s).2.afe = s.afe ∧
    (startEdge s).2.ros = s.ros ∧ (startEdge s).2.tt = s.tt ∧ (startEdge s).2.res = s.res ∧
    (startEdge s).2.out = s.out ∧ (startEdge s).2.ldg = s.ldg ∧ (startEdge s).2.nv = s.nv ∧
    (startEdge s).2.cond = s.cond ∧ (startEdge s).2.disc = s.disc ∧ (startEdge s).2.cal = s.cal ∧
    (startEdge s).2.mem = s.mem ∧ (startEdge s).2.free = s.free ∧ (startEdge s).2.pending = s.pending := by
  simp only [startEdge, when]
  repeat' split
  all_goals simp

theorem countEdge_frame (s : State) :
    (countEdge s).2.pins = s.pins ∧ (countEdge s).2.pwr = s.pwr ∧ (countEdge s).2.sys = s.sys ∧
    (countEdge s).2.alm = s.alm ∧ (countEdge s).2.hif = s.hif ∧ (countEdge s).2.evin = s.evin ∧
    (countEdge s).2.clk = s.clk ∧ (countEdge s).2.afe = s.afe ∧ (countEdge s).2.ros = s.ros ∧
    (countEdge s).2.tt = s.tt ∧ (countEdge s).2.res = s.res ∧ (countEdge s).2.out = s.out ∧
    (countEdge s).2.ldg = s.ldg ∧ (countEdge s).2.nv = s.nv ∧ (countEdge s).2.cond = s.cond ∧
    (countEdge s).2.disc = s.disc ∧ (countEdge s).2.cal = s.cal ∧ (countEdge s).2.mem = s.mem ∧
    (countEdge s).2.free = s.free ∧ (countEdge s).2.pending = s.pending := by
  simp only [countEdge, when]
  repeat' split
  all_goals simp

theorem rtcEdge_frame (s : State) :
    (rtcEdge s).2.pins = s.pins ∧ (rtcEdge s).2.pwr = s.pwr ∧ (rtcEdge s).2.sys = s.sys ∧ (rtcEdge s).2.alm = s.alm ∧
    (rtcEdge s).2.hif = s.hif ∧ (rtcEdge s).2.evin = s.evin ∧ (rtcEdge s).2.clk = s.clk ∧ (rtcEdge s).2.afe = s.afe ∧
    (rtcEdge s).2.ros = s.ros ∧ (rtcEdge s).2.tt = s.tt ∧ (rtcEdge s).2.res = s.res ∧ (rtcEdge s).2.out = s.out ∧
    (rtcEdge s).2.ldg = s.ldg ∧ (rtcEdge s).2.nv = s.nv ∧ (rtcEdge s).2.cond = s.cond ∧ (rtcEdge s).2.disc = s.disc ∧
    (rtcEdge s).2.cal = s.cal ∧ (rtcEdge s).2.mem = s.mem ∧ (rtcEdge s).2.free = s.free ∧
    (rtcEdge s).2.pending = s.pending := by
  have k0 := @countEdge_frame
  have k1 := @startEdge_frame
  simp only [rtcEdge, when]
  repeat' split
  all_goals simp [k0, k1]

theorem captureEdge_frame (e : Edge) (k : Tick) (s : State) :
    (captureEdge e k s).pins = s.pins ∧ (captureEdge e k s).pwr = s.pwr ∧ (captureEdge e k s).sys = s.sys ∧
    (captureEdge e k s).rtc = s.rtc ∧ (captureEdge e k s).alm = s.alm ∧ (captureEdge e k s).hif = s.hif ∧
    (captureEdge e k s).evt = s.evt ∧ (captureEdge e k s).evin = s.evin ∧ (captureEdge e k s).afe = s.afe ∧
    (captureEdge e k s).ros = s.ros ∧ (captureEdge e k s).tt = s.tt ∧ (captureEdge e k s).res = s.res ∧
    (captureEdge e k s).out = s.out ∧ (captureEdge e k s).ldg = s.ldg ∧ (captureEdge e k s).nv = s.nv ∧
    (captureEdge e k s).cond = s.cond ∧ (captureEdge e k s).disc = s.disc ∧ (captureEdge e k s).cal = s.cal ∧
    (captureEdge e k s).mem = s.mem ∧ (captureEdge e k s).free = s.free ∧ (captureEdge e k s).pending = s.pending := by
  simp only [captureEdge, when]
  repeat' split
  all_goals simp

theorem driftEdge_frame (e : Edge) (s : State) :
    (driftEdge e s).pins = s.pins ∧ (driftEdge e s).pwr = s.pwr ∧ (driftEdge e s).sys = s.sys ∧
    (driftEdge e s).rtc = s.rtc ∧ (driftEdge e s).alm = s.alm ∧ (driftEdge e s).hif = s.hif ∧
    (driftEdge e s).evt = s.evt ∧ (driftEdge e s).evin = s.evin ∧ (driftEdge e s).afe = s.afe ∧
    (driftEdge e s).ros = s.ros ∧ (driftEdge e s).tt = s.tt ∧ (driftEdge e s).res = s.res ∧
    (driftEdge e s).out = s.out ∧ (driftEdge e s).ldg = s.ldg ∧ (driftEdge e s).nv = s.nv ∧
    (driftEdge e s).cond = s.cond ∧ (driftEdge e s).disc = s.disc ∧ (driftEdge e s).cal = s.cal ∧
    (driftEdge e s).mem = s.mem ∧ (driftEdge e s).free = s.free ∧ (driftEdge e s).pending = s.pending := by
  simp only [driftEdge, when]
  repeat' split
  all_goals simp

theorem slowTake_frame (stamp : Stamp) (s : State) :
    (slowTake stamp s).pins = s.pins ∧ (slowTake stamp s).pwr = s.pwr ∧ (slowTake stamp s).sys = s.sys ∧
    (slowTake stamp s).rtc = s.rtc ∧ (slowTake stamp s).alm = s.alm ∧ (slowTake stamp s).hif = s.hif ∧
    (slowTake stamp s).evt = s.evt ∧ (slowTake stamp s).clk = s.clk ∧ (slowTake stamp s).afe = s.afe ∧
    (slowTake stamp s).ros = s.ros ∧ (slowTake stamp s).tt = s.tt ∧ (slowTake stamp s).res = s.res ∧
    (slowTake stamp s).out = s.out ∧ (slowTake stamp s).ldg = s.ldg ∧ (slowTake stamp s).nv = s.nv ∧
    (slowTake stamp s).cond = s.cond ∧ (slowTake stamp s).disc = s.disc ∧ (slowTake stamp s).cal = s.cal ∧
    (slowTake stamp s).mem = s.mem ∧ (slowTake stamp s).free = s.free ∧ (slowTake stamp s).pending = s.pending := by
  have k0 := @setAccepted_frame
  simp only [slowTake, when]
  repeat' split
  all_goals simp [k0]

theorem slowSync_frame (a : Nat) (stamp : Stamp) (s : State) :
    (slowSync a stamp s).2.pins = s.pins ∧ (slowSync a stamp s).2.pwr = s.pwr ∧ (slowSync a stamp s).2.sys = s.sys ∧
    (slowSync a stamp s).2.rtc = s.rtc ∧ (slowSync a stamp s).2.alm = s.alm ∧ (slowSync a stamp s).2.hif = s.hif ∧
    (slowSync a stamp s).2.clk = s.clk ∧ (slowSync a stamp s).2.afe = s.afe ∧ (slowSync a stamp s).2.ros = s.ros ∧
    (slowSync a stamp s).2.res = s.res ∧ (slowSync a stamp s).2.out = s.out ∧ (slowSync a stamp s).2.ldg = s.ldg ∧
    (slowSync a stamp s).2.nv = s.nv ∧ (slowSync a stamp s).2.cond = s.cond ∧ (slowSync a stamp s).2.disc = s.disc ∧
    (slowSync a stamp s).2.cal = s.cal ∧ (slowSync a stamp s).2.mem = s.mem ∧ (slowSync a stamp s).2.free = s.free ∧
    (slowSync a stamp s).2.pending = s.pending := by
  have k0 := @syncReset_frame
  simp only [slowSync, when]
  repeat' split
  all_goals simp [k0]

theorem lateTtStart_frame (f : Option Firing) (target : Nat) (fate : Fate) (s : State) :
    (lateTtStart f target fate s).pins = s.pins ∧ (lateTtStart f target fate s).pwr = s.pwr ∧
    (lateTtStart f target fate s).sys = s.sys ∧ (lateTtStart f target fate s).rtc = s.rtc ∧
    (lateTtStart f target fate s).alm = s.alm ∧ (lateTtStart f target fate s).hif = s.hif ∧
    (lateTtStart f target fate s).evt = s.evt ∧ (lateTtStart f target fate s).evin = s.evin ∧
    (lateTtStart f target fate s).clk = s.clk ∧ (lateTtStart f target fate s).afe = s.afe ∧
    (lateTtStart f target fate s).ros = s.ros ∧ (lateTtStart f target fate s).res = s.res ∧
    (lateTtStart f target fate s).out = s.out ∧ (lateTtStart f target fate s).ldg = s.ldg ∧
    (lateTtStart f target fate s).nv = s.nv ∧ (lateTtStart f target fate s).cond = s.cond ∧
    (lateTtStart f target fate s).disc = s.disc ∧ (lateTtStart f target fate s).cal = s.cal ∧
    (lateTtStart f target fate s).mem = s.mem ∧ (lateTtStart f target fate s).free = s.free ∧
    (lateTtStart f target fate s).pending = s.pending := by
  simp only [lateTtStart, when]
  repeat' split
  all_goals simp

theorem skippedTtStart_frame (stamp : Stamp) (f : Option Firing) (s : State) :
    (skippedTtStart stamp f s).pins = s.pins ∧ (skippedTtStart stamp f s).pwr = s.pwr ∧
    (skippedTtStart stamp f s).sys = s.sys ∧ (skippedTtStart stamp f s).rtc = s.rtc ∧
    (skippedTtStart stamp f s).alm = s.alm ∧ (skippedTtStart stamp f s).hif = s.hif ∧
    (skippedTtStart stamp f s).clk = s.clk ∧ (skippedTtStart stamp f s).afe = s.afe ∧
    (skippedTtStart stamp f s).ros = s.ros ∧ (skippedTtStart stamp f s).tt = s.tt ∧
    (skippedTtStart stamp f s).res = s.res ∧ (skippedTtStart stamp f s).out = s.out ∧
    (skippedTtStart stamp f s).ldg = s.ldg ∧ (skippedTtStart stamp f s).nv = s.nv ∧
    (skippedTtStart stamp f s).cond = s.cond ∧ (skippedTtStart stamp f s).disc = s.disc ∧
    (skippedTtStart stamp f s).cal = s.cal ∧ (skippedTtStart stamp f s).free = s.free ∧
    (skippedTtStart stamp f s).pending = s.pending := by
  have k0 := @lateTrigger_frame
  simp only [skippedTtStart, when]
  repeat' split
  all_goals simp [k0]

theorem ttAfter_frame (f : Option Firing) (s : State) :
    (ttAfter f s).pins = s.pins ∧ (ttAfter f s).pwr = s.pwr ∧ (ttAfter f s).sys = s.sys ∧ (ttAfter f s).rtc = s.rtc ∧
    (ttAfter f s).alm = s.alm ∧ (ttAfter f s).hif = s.hif ∧ (ttAfter f s).evt = s.evt ∧ (ttAfter f s).evin = s.evin ∧
    (ttAfter f s).clk = s.clk ∧ (ttAfter f s).afe = s.afe ∧ (ttAfter f s).ros = s.ros ∧ (ttAfter f s).res = s.res ∧
    (ttAfter f s).out = s.out ∧ (ttAfter f s).ldg = s.ldg ∧ (ttAfter f s).nv = s.nv ∧ (ttAfter f s).cond = s.cond ∧
    (ttAfter f s).disc = s.disc ∧ (ttAfter f s).cal = s.cal ∧ (ttAfter f s).mem = s.mem ∧
    (ttAfter f s).free = s.free ∧ (ttAfter f s).pending = s.pending := by
  simp only [ttAfter, when]
  repeat' split
  all_goals simp

theorem alarmAout_frame (asleep : Bool) (s : State) :
    (alarmAout asleep s).pins = s.pins ∧ (alarmAout asleep s).pwr = s.pwr ∧ (alarmAout asleep s).rtc = s.rtc ∧
    (alarmAout asleep s).alm = s.alm ∧ (alarmAout asleep s).hif = s.hif ∧ (alarmAout asleep s).evt = s.evt ∧
    (alarmAout asleep s).evin = s.evin ∧ (alarmAout asleep s).clk = s.clk ∧ (alarmAout asleep s).afe = s.afe ∧
    (alarmAout asleep s).ros = s.ros ∧ (alarmAout asleep s).tt = s.tt ∧ (alarmAout asleep s).res = s.res ∧
    (alarmAout asleep s).ldg = s.ldg ∧ (alarmAout asleep s).nv = s.nv ∧ (alarmAout asleep s).cond = s.cond ∧
    (alarmAout asleep s).disc = s.disc ∧ (alarmAout asleep s).cal = s.cal ∧ (alarmAout asleep s).mem = s.mem ∧
    (alarmAout asleep s).free = s.free ∧ (alarmAout asleep s).pending = s.pending := by
  have k0 := @applyCode_frame
  simp only [alarmAout, when]
  repeat' split
  all_goals simp [k0]

theorem almAfter_frame (k : Tick) (f0 f1 : Option Firing) (miss0 miss1 : Bool) (s : State) :
    (almAfter k f0 f1 miss0 miss1 s).pins = s.pins ∧ (almAfter k f0 f1 miss0 miss1 s).pwr = s.pwr ∧
    (almAfter k f0 f1 miss0 miss1 s).sys = s.sys ∧ (almAfter k f0 f1 miss0 miss1 s).rtc = s.rtc ∧
    (almAfter k f0 f1 miss0 miss1 s).hif = s.hif ∧ (almAfter k f0 f1 miss0 miss1 s).evt = s.evt ∧
    (almAfter k f0 f1 miss0 miss1 s).evin = s.evin ∧ (almAfter k f0 f1 miss0 miss1 s).clk = s.clk ∧
    (almAfter k f0 f1 miss0 miss1 s).afe = s.afe ∧ (almAfter k f0 f1 miss0 miss1 s).ros = s.ros ∧
    (almAfter k f0 f1 miss0 miss1 s).tt = s.tt ∧ (almAfter k f0 f1 miss0 miss1 s).res = s.res ∧
    (almAfter k f0 f1 miss0 miss1 s).out = s.out ∧ (almAfter k f0 f1 miss0 miss1 s).ldg = s.ldg ∧
    (almAfter k f0 f1 miss0 miss1 s).nv = s.nv ∧ (almAfter k f0 f1 miss0 miss1 s).cond = s.cond ∧
    (almAfter k f0 f1 miss0 miss1 s).disc = s.disc ∧ (almAfter k f0 f1 miss0 miss1 s).cal = s.cal ∧
    (almAfter k f0 f1 miss0 miss1 s).mem = s.mem ∧ (almAfter k f0 f1 miss0 miss1 s).free = s.free ∧
    (almAfter k f0 f1 miss0 miss1 s).pending = s.pending := by
  simp only [almAfter, when]
  repeat' split
  all_goals simp

theorem cdMiss_frame (zero reached : Bool) (s : State) :
    (cdMiss zero reached s).pins = s.pins ∧ (cdMiss zero reached s).pwr = s.pwr ∧
    (cdMiss zero reached s).sys = s.sys ∧ (cdMiss zero reached s).rtc = s.rtc ∧ (cdMiss zero reached s).hif = s.hif ∧
    (cdMiss zero reached s).evt = s.evt ∧ (cdMiss zero reached s).evin = s.evin ∧
    (cdMiss zero reached s).clk = s.clk ∧ (cdMiss zero reached s).afe = s.afe ∧ (cdMiss zero reached s).ros = s.ros ∧
    (cdMiss zero reached s).tt = s.tt ∧ (cdMiss zero reached s).res = s.res ∧ (cdMiss zero reached s).out = s.out ∧
    (cdMiss zero reached s).ldg = s.ldg ∧ (cdMiss zero reached s).nv = s.nv ∧ (cdMiss zero reached s).cond = s.cond ∧
    (cdMiss zero reached s).disc = s.disc ∧ (cdMiss zero reached s).cal = s.cal ∧
    (cdMiss zero reached s).mem = s.mem ∧ (cdMiss zero reached s).free = s.free ∧
    (cdMiss zero reached s).pending = s.pending := by
  simp only [cdMiss, when]
  repeat' split
  all_goals simp

theorem syncAtEdge_frame (a : Nat) (o : Option Stamp) (s : State) :
    (syncAtEdge a o s).2.pins = s.pins ∧ (syncAtEdge a o s).2.pwr = s.pwr ∧ (syncAtEdge a o s).2.sys = s.sys ∧
    (syncAtEdge a o s).2.rtc = s.rtc ∧ (syncAtEdge a o s).2.alm = s.alm ∧ (syncAtEdge a o s).2.hif = s.hif ∧
    (syncAtEdge a o s).2.clk = s.clk ∧ (syncAtEdge a o s).2.afe = s.afe ∧ (syncAtEdge a o s).2.ros = s.ros ∧
    (syncAtEdge a o s).2.res = s.res ∧ (syncAtEdge a o s).2.out = s.out ∧ (syncAtEdge a o s).2.ldg = s.ldg ∧
    (syncAtEdge a o s).2.nv = s.nv ∧ (syncAtEdge a o s).2.cond = s.cond ∧ (syncAtEdge a o s).2.disc = s.disc ∧
    (syncAtEdge a o s).2.cal = s.cal ∧ (syncAtEdge a o s).2.mem = s.mem ∧ (syncAtEdge a o s).2.free = s.free ∧
    (syncAtEdge a o s).2.pending = s.pending := by
  have k0 := @slowSync_frame
  simp only [syncAtEdge, when]
  repeat' split
  all_goals simp [k0]

theorem edgeInputs_frame (e : Edge) (k : Tick) (s : State) :
    (edgeInputs e k s).2.2.pins = s.pins ∧ (edgeInputs e k s).2.2.pwr = s.pwr ∧ (edgeInputs e k s).2.2.rtc = s.rtc ∧
    (edgeInputs e k s).2.2.alm = s.alm ∧ (edgeInputs e k s).2.2.hif = s.hif ∧ (edgeInputs e k s).2.2.clk = s.clk ∧
    (edgeInputs e k s).2.2.afe = s.afe ∧ (edgeInputs e k s).2.2.ros = s.ros ∧ (edgeInputs e k s).2.2.res = s.res ∧
    (edgeInputs e k s).2.2.ldg = s.ldg ∧ (edgeInputs e k s).2.2.nv = s.nv ∧ (edgeInputs e k s).2.2.cond = s.cond ∧
    (edgeInputs e k s).2.2.disc = s.disc ∧ (edgeInputs e k s).2.2.cal = s.cal ∧ (edgeInputs e k s).2.2.mem = s.mem ∧
    (edgeInputs e k s).2.2.free = s.free ∧ (edgeInputs e k s).2.2.pending = s.pending := by
  have k0 := @inputsAt_frame
  have k1 := @slowTake_frame
  have k2 := @syncAtEdge_frame
  simp only [edgeInputs, when]
  repeat' split
  all_goals simp [k0, k1, k2]

theorem edgeLatch_frame (f : Fires) (s : State) :
    (edgeLatch f s).pins = s.pins ∧ (edgeLatch f s).pwr = s.pwr ∧ (edgeLatch f s).sys = s.sys ∧
    (edgeLatch f s).rtc = s.rtc ∧ (edgeLatch f s).hif = s.hif ∧ (edgeLatch f s).evin = s.evin ∧
    (edgeLatch f s).clk = s.clk ∧ (edgeLatch f s).afe = s.afe ∧ (edgeLatch f s).ros = s.ros ∧
    (edgeLatch f s).tt = s.tt ∧ (edgeLatch f s).res = s.res ∧ (edgeLatch f s).out = s.out ∧
    (edgeLatch f s).ldg = s.ldg ∧ (edgeLatch f s).nv = s.nv ∧ (edgeLatch f s).cond = s.cond ∧
    (edgeLatch f s).disc = s.disc ∧ (edgeLatch f s).cal = s.cal ∧ (edgeLatch f s).mem = s.mem ∧
    (edgeLatch f s).free = s.free ∧ (edgeLatch f s).pending = s.pending := by
  simp only [edgeLatch, when]
  repeat' split
  all_goals simp

theorem edgeDeliver_frame (m : Moment) (k : Tick) (f : Fires) (ins : List Occ) (s u : State) :
    (edgeDeliver m k f ins s u).pins = u.pins ∧ (edgeDeliver m k f ins s u).pwr = u.pwr ∧
    (edgeDeliver m k f ins s u).rtc = u.rtc ∧ (edgeDeliver m k f ins s u).alm = u.alm ∧
    (edgeDeliver m k f ins s u).hif = u.hif ∧ (edgeDeliver m k f ins s u).res = u.res ∧
    (edgeDeliver m k f ins s u).nv = u.nv ∧ (edgeDeliver m k f ins s u).cond = u.cond ∧
    (edgeDeliver m k f ins s u).disc = u.disc ∧ (edgeDeliver m k f ins s u).cal = u.cal ∧
    (edgeDeliver m k f ins s u).free = u.free ∧ (edgeDeliver m k f ins s u).pending = u.pending := by
  have k0 := @lateTtStart_frame
  have k1 := @skippedTtStart_frame
  simp only [edgeDeliver, when]
  repeat' split
  all_goals simp [k0, k1]

theorem edgeAout_frame (f : Fires) (s u : State) :
    (edgeAout f s u).pins = u.pins ∧ (edgeAout f s u).pwr = u.pwr ∧ (edgeAout f s u).rtc = u.rtc ∧
    (edgeAout f s u).alm = u.alm ∧ (edgeAout f s u).hif = u.hif ∧ (edgeAout f s u).evt = u.evt ∧
    (edgeAout f s u).evin = u.evin ∧ (edgeAout f s u).clk = u.clk ∧ (edgeAout f s u).afe = u.afe ∧
    (edgeAout f s u).ros = u.ros ∧ (edgeAout f s u).tt = u.tt ∧ (edgeAout f s u).res = u.res ∧
    (edgeAout f s u).ldg = u.ldg ∧ (edgeAout f s u).nv = u.nv ∧ (edgeAout f s u).cond = u.cond ∧
    (edgeAout f s u).disc = u.disc ∧ (edgeAout f s u).cal = u.cal ∧ (edgeAout f s u).mem = u.mem ∧
    (edgeAout f s u).free = u.free ∧ (edgeAout f s u).pending = u.pending := by
  have k0 := @alarmAout_frame
  simp only [edgeAout, when]
  repeat' split
  all_goals simp [k0]

theorem edgeLaps_frame (n : Nat) (f : Fires) (s u : State) :
    (edgeLaps n f s u).2.pins = u.pins ∧ (edgeLaps n f s u).2.pwr = u.pwr ∧ (edgeLaps n f s u).2.sys = u.sys ∧
    (edgeLaps n f s u).2.rtc = u.rtc ∧ (edgeLaps n f s u).2.alm = u.alm ∧ (edgeLaps n f s u).2.hif = u.hif ∧
    (edgeLaps n f s u).2.evin = u.evin ∧ (edgeLaps n f s u).2.clk = u.clk ∧ (edgeLaps n f s u).2.afe = u.afe ∧
    (edgeLaps n f s u).2.ros = u.ros ∧ (edgeLaps n f s u).2.tt = u.tt ∧ (edgeLaps n f s u).2.res = u.res ∧
    (edgeLaps n f s u).2.out = u.out ∧ (edgeLaps n f s u).2.nv = u.nv ∧ (edgeLaps n f s u).2.cond = u.cond ∧
    (edgeLaps n f s u).2.disc = u.disc ∧ (edgeLaps n f s u).2.cal = u.cal ∧ (edgeLaps n f s u).2.mem = u.mem ∧
    (edgeLaps n f s u).2.free = u.free ∧ (edgeLaps n f s u).2.pending = u.pending := by
  have k0 := @lapReq_frame
  simp only [edgeLaps, when]
  repeat' split
  all_goals simp [k0]

theorem edgeDone_frame (k : Tick) (f : Fires) (reached lap : Bool) (s u : State) :
    (edgeDone k f reached lap s u).pins = u.pins ∧ (edgeDone k f reached lap s u).pwr = u.pwr ∧
    (edgeDone k f reached lap s u).sys = u.sys ∧ (edgeDone k f reached lap s u).rtc = u.rtc ∧
    (edgeDone k f reached lap s u).hif = u.hif ∧ (edgeDone k f reached lap s u).evt = u.evt ∧
    (edgeDone k f reached lap s u).evin = u.evin ∧ (edgeDone k f reached lap s u).clk = u.clk ∧
    (edgeDone k f reached lap s u).afe = u.afe ∧ (edgeDone k f reached lap s u).ros = u.ros ∧
    (edgeDone k f reached lap s u).res = u.res ∧ (edgeDone k f reached lap s u).out = u.out ∧
    (edgeDone k f reached lap s u).ldg = u.ldg ∧ (edgeDone k f reached lap s u).nv = u.nv ∧
    (edgeDone k f reached lap s u).cond = u.cond ∧ (edgeDone k f reached lap s u).disc = u.disc ∧
    (edgeDone k f reached lap s u).cal = u.cal ∧ (edgeDone k f reached lap s u).mem = u.mem ∧
    (edgeDone k f reached lap s u).free = u.free ∧ (edgeDone k f reached lap s u).pending = u.pending := by
  have k0 := @almAfter_frame
  have k1 := @cdMiss_frame
  have k2 := @ttAfter_frame
  simp only [edgeDone, when]
  repeat' split
  all_goals simp [k0, k1, k2]

theorem edgeRegister_frame (e : Edge) (k : Tick) (s : State) :
    (edgeRegister e k s).2.pins = s.pins ∧ (edgeRegister e k s).2.pwr = s.pwr ∧ (edgeRegister e k s).2.rtc = s.rtc ∧
    (edgeRegister e k s).2.hif = s.hif ∧ (edgeRegister e k s).2.res = s.res ∧ (edgeRegister e k s).2.nv = s.nv ∧
    (edgeRegister e k s).2.cond = s.cond ∧ (edgeRegister e k s).2.disc = s.disc ∧ (edgeRegister e k s).2.cal = s.cal ∧
    (edgeRegister e k s).2.free = s.free ∧ (edgeRegister e k s).2.pending = s.pending := by
  have k0 := @edgeAout_frame
  have k1 := @edgeDeliver_frame
  have k2 := @edgeDone_frame
  have k3 := @edgeInputs_frame
  have k4 := @edgeLaps_frame
  have k5 := @edgeLatch_frame
  simp only [edgeRegister, when]
  repeat' split
  all_goals simp [k0, k1, k2, k3, k4, k5]

theorem registerCastling_frame (sec frac : Word) (back : Bool) (s : State) :
    (registerCastling sec frac back s).pins = s.pins ∧ (registerCastling sec frac back s).sys = s.sys ∧
    (registerCastling sec frac back s).rtc = s.rtc ∧ (registerCastling sec frac back s).alm = s.alm ∧
    (registerCastling sec frac back s).hif = s.hif ∧ (registerCastling sec frac back s).evin = s.evin ∧
    (registerCastling sec frac back s).clk = s.clk ∧ (registerCastling sec frac back s).afe = s.afe ∧
    (registerCastling sec frac back s).ros = s.ros ∧ (registerCastling sec frac back s).tt = s.tt ∧
    (registerCastling sec frac back s).res = s.res ∧ (registerCastling sec frac back s).out = s.out ∧
    (registerCastling sec frac back s).ldg = s.ldg ∧ (registerCastling sec frac back s).nv = s.nv ∧
    (registerCastling sec frac back s).cond = s.cond ∧ (registerCastling sec frac back s).disc = s.disc ∧
    (registerCastling sec frac back s).cal = s.cal ∧ (registerCastling sec frac back s).mem = s.mem ∧
    (registerCastling sec frac back s).free = s.free ∧ (registerCastling sec frac back s).pending = s.pending := by
  simp only [registerCastling, when]
  repeat' split
  all_goals simp

theorem clearFirst_frame (s : State) :
    (clearFirst s).pins = s.pins ∧ (clearFirst s).sys = s.sys ∧ (clearFirst s).rtc = s.rtc ∧
    (clearFirst s).alm = s.alm ∧ (clearFirst s).hif = s.hif ∧ (clearFirst s).evt = s.evt ∧
    (clearFirst s).evin = s.evin ∧ (clearFirst s).clk = s.clk ∧ (clearFirst s).afe = s.afe ∧
    (clearFirst s).ros = s.ros ∧ (clearFirst s).tt = s.tt ∧ (clearFirst s).res = s.res ∧ (clearFirst s).out = s.out ∧
    (clearFirst s).ldg = s.ldg ∧ (clearFirst s).nv = s.nv ∧ (clearFirst s).cond = s.cond ∧
    (clearFirst s).disc = s.disc ∧ (clearFirst s).cal = s.cal ∧ (clearFirst s).mem = s.mem ∧
    (clearFirst s).free = s.free ∧ (clearFirst s).pending = s.pending := by
  simp only [clearFirst, when]
  repeat' split
  all_goals simp

theorem castleEdge_frame (s : State) :
    (castleEdge s).pins = s.pins ∧ (castleEdge s).sys = s.sys ∧ (castleEdge s).rtc = s.rtc ∧
    (castleEdge s).alm = s.alm ∧ (castleEdge s).hif = s.hif ∧ (castleEdge s).evin = s.evin ∧
    (castleEdge s).clk = s.clk ∧ (castleEdge s).afe = s.afe ∧ (castleEdge s).ros = s.ros ∧ (castleEdge s).tt = s.tt ∧
    (castleEdge s).res = s.res ∧ (castleEdge s).out = s.out ∧ (castleEdge s).ldg = s.ldg ∧ (castleEdge s).nv = s.nv ∧
    (castleEdge s).cond = s.cond ∧ (castleEdge s).disc = s.disc ∧ (castleEdge s).cal = s.cal ∧
    (castleEdge s).mem = s.mem ∧ (castleEdge s).free = s.free ∧ (castleEdge s).pending = s.pending := by
  have k0 := @clearFirst_frame
  have k1 := @registerCastling_frame
  simp only [castleEdge, when]
  repeat' split
  all_goals simp [k0, k1]

theorem warnBegin_frame (s : State) :
    (warnBegin s).pins = s.pins ∧ (warnBegin s).rtc = s.rtc ∧ (warnBegin s).alm = s.alm ∧ (warnBegin s).hif = s.hif ∧
    (warnBegin s).disc = s.disc ∧ (warnBegin s).cal = s.cal ∧ (warnBegin s).free = s.free ∧
    (warnBegin s).pending = s.pending := by
  have k0 := @allPairsOff_frame
  have k1 := @cutWarn_frame
  have k2 := @dropAhead_frame
  have k3 := @pairPowered_frame
  simp only [warnBegin, when]
  repeat' split
  all_goals simp [k0, k1, k2, k3]

theorem warnCount_frame (s : State) :
    (warnCount s).pins = s.pins ∧ (warnCount s).sys = s.sys ∧ (warnCount s).rtc = s.rtc ∧ (warnCount s).alm = s.alm ∧
    (warnCount s).hif = s.hif ∧ (warnCount s).evt = s.evt ∧ (warnCount s).evin = s.evin ∧ (warnCount s).clk = s.clk ∧
    (warnCount s).afe = s.afe ∧ (warnCount s).ros = s.ros ∧ (warnCount s).tt = s.tt ∧ (warnCount s).res = s.res ∧
    (warnCount s).ldg = s.ldg ∧ (warnCount s).nv = s.nv ∧ (warnCount s).cond = s.cond ∧ (warnCount s).disc = s.disc ∧
    (warnCount s).cal = s.cal ∧ (warnCount s).mem = s.mem ∧ (warnCount s).free = s.free ∧
    (warnCount s).pending = s.pending := by
  simp only [warnCount, when]
  repeat' split
  all_goals simp

theorem ledgerEdge_frame (e : Edge) (k : Tick) (r : LdgReq) (cut : Bool) (s : State) :
    (ledgerEdge e k r cut s).pins = s.pins ∧ (ledgerEdge e k r cut s).pwr = s.pwr ∧
    (ledgerEdge e k r cut s).rtc = s.rtc ∧ (ledgerEdge e k r cut s).alm = s.alm ∧
    (ledgerEdge e k r cut s).hif = s.hif ∧ (ledgerEdge e k r cut s).evin = s.evin ∧
    (ledgerEdge e k r cut s).disc = s.disc ∧ (ledgerEdge e k r cut s).cal = s.cal ∧
    (ledgerEdge e k r cut s).free = s.free ∧ (ledgerEdge e k r cut s).pending = s.pending := by
  have k0 := @instantAt_frame
  have k1 := @ldgTakeCmds_frame
  simp only [ledgerEdge, when]
  repeat' split
  all_goals simp [k0, k1]

theorem headerEnds_frame (s : State) :
    (headerEnds s).pins = s.pins ∧ (headerEnds s).pwr = s.pwr ∧ (headerEnds s).sys = s.sys ∧
    (headerEnds s).rtc = s.rtc ∧ (headerEnds s).alm = s.alm ∧ (headerEnds s).evt = s.evt ∧
    (headerEnds s).evin = s.evin ∧ (headerEnds s).clk = s.clk ∧ (headerEnds s).afe = s.afe ∧
    (headerEnds s).ros = s.ros ∧ (headerEnds s).tt = s.tt ∧ (headerEnds s).res = s.res ∧ (headerEnds s).out = s.out ∧
    (headerEnds s).ldg = s.ldg ∧ (headerEnds s).nv = s.nv ∧ (headerEnds s).cond = s.cond ∧
    (headerEnds s).disc = s.disc ∧ (headerEnds s).cal = s.cal ∧ (headerEnds s).mem = s.mem ∧
    (headerEnds s).free = s.free ∧ (headerEnds s).pending = s.pending := by
  simp only [headerEnds, when]
  repeat' split
  all_goals simp

theorem countKtick_frame (s : State) :
    (countKtick s).pins = s.pins ∧ (countKtick s).pwr = s.pwr ∧ (countKtick s).sys = s.sys ∧
    (countKtick s).alm = s.alm ∧ (countKtick s).evt = s.evt ∧ (countKtick s).evin = s.evin ∧
    (countKtick s).clk = s.clk ∧ (countKtick s).afe = s.afe ∧ (countKtick s).ros = s.ros ∧ (countKtick s).tt = s.tt ∧
    (countKtick s).res = s.res ∧ (countKtick s).ldg = s.ldg ∧ (countKtick s).nv = s.nv ∧
    (countKtick s).disc = s.disc ∧ (countKtick s).cal = s.cal ∧ (countKtick s).mem = s.mem ∧
    (countKtick s).free = s.free ∧ (countKtick s).pending = s.pending := by
  simp only [countKtick, when]
  repeat' split
  all_goals simp

theorem shipCount_frame (s : State) :
    (shipCount s).pins = s.pins ∧ (shipCount s).alm = s.alm ∧ (shipCount s).free = s.free ∧
    (shipCount s).pending = s.pending := by
  have k0 := @enterShip_frame
  simp only [shipCount, when]
  repeat' split
  all_goals simp [k0]

theorem preWakeEdge_frame (s : State) :
    (preWakeEdge s).pins = s.pins ∧ (preWakeEdge s).pwr = s.pwr ∧ (preWakeEdge s).rtc = s.rtc ∧
    (preWakeEdge s).alm = s.alm ∧ (preWakeEdge s).hif = s.hif ∧ (preWakeEdge s).res = s.res ∧
    (preWakeEdge s).ldg = s.ldg ∧ (preWakeEdge s).nv = s.nv ∧ (preWakeEdge s).cond = s.cond ∧
    (preWakeEdge s).disc = s.disc ∧ (preWakeEdge s).cal = s.cal ∧ (preWakeEdge s).free = s.free ∧
    (preWakeEdge s).pending = s.pending := by
  have k0 := @fetchFirst_frame
  simp only [preWakeEdge, when]
  repeat' split
  all_goals simp [k0]

theorem newKtick_frame (s : State) :
    (newKtick s).pins = s.pins ∧ (newKtick s).pwr = s.pwr ∧ (newKtick s).sys = s.sys ∧ (newKtick s).rtc = s.rtc ∧
    (newKtick s).alm = s.alm ∧ (newKtick s).hif = s.hif ∧ (newKtick s).evin = s.evin ∧ (newKtick s).clk = s.clk ∧
    (newKtick s).afe = s.afe ∧ (newKtick s).ros = s.ros ∧ (newKtick s).tt = s.tt ∧ (newKtick s).res = s.res ∧
    (newKtick s).out = s.out ∧ (newKtick s).ldg = s.ldg ∧ (newKtick s).nv = s.nv ∧ (newKtick s).cond = s.cond ∧
    (newKtick s).disc = s.disc ∧ (newKtick s).cal = s.cal ∧ (newKtick s).mem = s.mem ∧ (newKtick s).free = s.free ∧
    (newKtick s).pending = s.pending := by
  simp only [newKtick, when]
  repeat' split
  all_goals simp

theorem edgeCount_frame (e : Edge) (s : State) :
    (edgeCount e s).2.pins = s.pins ∧ (edgeCount e s).2.pwr = s.pwr ∧ (edgeCount e s).2.alm = s.alm ∧
    (edgeCount e s).2.hif = s.hif ∧ (edgeCount e s).2.disc = s.disc ∧ (edgeCount e s).2.cal = s.cal ∧
    (edgeCount e s).2.free = s.free ∧ (edgeCount e s).2.pending = s.pending := by
  have k0 := @captureEdge_frame
  have k1 := @driftEdge_frame
  have k2 := @newKtick_frame
  have k3 := @rtcEdge_frame
  have k4 := @takeFresh_frame
  simp only [edgeCount, when]
  repeat' split
  all_goals simp [k0, k1, k2, k3, k4]

theorem edgeRest_frame (e : Edge) (k : Tick) (r : LdgReq) (s : State) :
    (edgeRest e k r s).pins = s.pins ∧ (edgeRest e k r s).pending = s.pending := by
  have k0 := @castleEdge_frame
  have k1 := @countKtick_frame
  have k2 := @headerEnds_frame
  have k3 := @hfrcTick_frame
  have k4 := @holdTick_frame
  have k5 := @ledgerEdge_frame
  have k6 := @powerEval_frame
  have k7 := @preWakeEdge_frame
  have k8 := @retryTick_frame
  have k9 := @shipCount_frame
  have k10 := @spanEdge_frame
  have k11 := @warnBegin_frame
  have k12 := @warnCount_frame
  simp only [edgeRest, when]
  repeat' split
  all_goals simp [k0, k1, k2, k3, k4, k5, k6, k7, k8, k9, k10, k11, k12]

@[simp] theorem ktick_frame (e : Edge) (s : State) :
    (ktick e s).pins = s.pins ∧ (ktick e s).pending = s.pending := by
  have k0 := @edgeCount_frame
  have k1 := @edgeRegister_frame
  have k2 := @edgeRest_frame
  have k3 := @handoverHere_frame
  simp only [ktick, when]
  repeat' split
  all_goals simp [k0, k1, k2, k3]

@[simp] theorem ktickIf_frame (p : State → Bool) (e : Edge) (s : State) :
    (ktickIf p e s).pins = s.pins ∧ (ktickIf p e s).pending = s.pending := by
  simp only [ktickIf, when]
  repeat' split
  all_goals simp

@[simp] theorem nextTick_frame (e : Edge) (s : State) :
    (nextTick e s).2.pins = s.pins ∧ (nextTick e s).2.pwr = s.pwr ∧ (nextTick e s).2.alm = s.alm ∧
    (nextTick e s).2.hif = s.hif ∧ (nextTick e s).2.disc = s.disc ∧ (nextTick e s).2.cal = s.cal ∧
    (nextTick e s).2.free = s.free ∧ (nextTick e s).2.pending = s.pending := by
  have k0 := @edgeCount_frame
  simp only [nextTick, when]
  repeat' split
  all_goals simp [k0]

theorem acceptChange_frame (k : Nat) (e : Edge) (s : State) :
    (acceptChange k e s).pins = s.pins ∧ (acceptChange k e s).pending = s.pending := by
  have k0 := @acceptFast_frame
  have k1 := @takeFresh_frame
  simp only [acceptChange, when]
  repeat' split
  all_goals simp [k0, k1]

@[simp] theorem acceptRow_frame (k : Nat) (e : Edge) (s : State) :
    (acceptRow k e s).pins = s.pins ∧ (acceptRow k e s).pending = s.pending := by
  have k0 := @acceptChange_frame
  have k1 := @acceptFast_frame
  simp only [acceptRow, when]
  repeat' split
  all_goals simp [k0, k1]

@[simp] theorem syncRise_frame (e : Edge) (s : State) :
    (syncRise e s).pins = s.pins ∧ (syncRise e s).pending = s.pending := by
  simp only [syncRise, when]
  repeat' split
  all_goals simp

end Sys2Proof.Machine
end

