-- ==== Sys2Proof/Laws/FramePort.lean ====
section
/-! SUPPORT. What each shared operation of these units leaves unchanged: the top-level parts of State it never writes.
Cited instead of unfolding the operation; those of the operations a meaning calls itself are simp lemmas, the others serve `simp` as
a hypothesis (`have h := @name`). -/

set_option linter.unusedSimpArgs false
set_option linter.unusedTactic false

namespace Sys2Proof.Machine

@[simp] theorem openTxn_frame (s : State) :
    (openTxn s).pins = s.pins ∧ (openTxn s).pwr = s.pwr ∧ (openTxn s).sys = s.sys ∧ (openTxn s).rtc = s.rtc ∧
    (openTxn s).alm = s.alm ∧ (openTxn s).evt = s.evt ∧ (openTxn s).evin = s.evin ∧ (openTxn s).clk = s.clk ∧
    (openTxn s).afe = s.afe ∧ (openTxn s).ros = s.ros ∧ (openTxn s).tt = s.tt ∧ (openTxn s).res = s.res ∧
    (openTxn s).out = s.out ∧ (openTxn s).ldg = s.ldg ∧ (openTxn s).nv = s.nv ∧ (openTxn s).cond = s.cond ∧
    (openTxn s).disc = s.disc ∧ (openTxn s).cal = s.cal ∧ (openTxn s).mem = s.mem ∧ (openTxn s).free = s.free ∧
    (openTxn s).pending = s.pending := by
  simp only [openTxn, when]
  repeat' split
  all_goals simp

@[simp] theorem note_frame (f : Txn → Txn) (s : State) :
    (note f s).pins = s.pins ∧ (note f s).pwr = s.pwr ∧ (note f s).sys = s.sys ∧ (note f s).rtc = s.rtc ∧
    (note f s).alm = s.alm ∧ (note f s).evt = s.evt ∧ (note f s).evin = s.evin ∧ (note f s).clk = s.clk ∧
    (note f s).afe = s.afe ∧ (note f s).ros = s.ros ∧ (note f s).tt = s.tt ∧ (note f s).res = s.res ∧
    (note f s).out = s.out ∧ (note f s).ldg = s.ldg ∧ (note f s).nv = s.nv ∧ (note f s).cond = s.cond ∧
    (note f s).disc = s.disc ∧ (note f s).cal = s.cal ∧ (note f s).mem = s.mem ∧ (note f s).free = s.free ∧
    (note f s).pending = s.pending := by
  simp only [note, when]
  repeat' split
  all_goals simp

theorem flagErr_frame (b : Nat) (addr : Option (BitVec 16)) (s : State) :
    (flagErr b addr s).pins = s.pins ∧ (flagErr b addr s).pwr = s.pwr ∧ (flagErr b addr s).sys = s.sys ∧
    (flagErr b addr s).rtc = s.rtc ∧ (flagErr b addr s).alm = s.alm ∧ (flagErr b addr s).evt = s.evt ∧
    (flagErr b addr s).evin = s.evin ∧ (flagErr b addr s).clk = s.clk ∧ (flagErr b addr s).afe = s.afe ∧
    (flagErr b addr s).ros = s.ros ∧ (flagErr b addr s).tt = s.tt ∧ (flagErr b addr s).res = s.res ∧
    (flagErr b addr s).out = s.out ∧ (flagErr b addr s).ldg = s.ldg ∧ (flagErr b addr s).nv = s.nv ∧
    (flagErr b addr s).cond = s.cond ∧ (flagErr b addr s).disc = s.disc ∧ (flagErr b addr s).cal = s.cal ∧
    (flagErr b addr s).mem = s.mem ∧ (flagErr b addr s).free = s.free ∧ (flagErr b addr s).pending = s.pending := by
  simp only [flagErr, when]
  repeat' split
  all_goals simp

theorem countRejected_frame (s : State) :
    (countRejected s).pins = s.pins ∧ (countRejected s).pwr = s.pwr ∧ (countRejected s).sys = s.sys ∧
    (countRejected s).rtc = s.rtc ∧ (countRejected s).alm = s.alm ∧ (countRejected s).evt = s.evt ∧
    (countRejected s).evin = s.evin ∧ (countRejected s).clk = s.clk ∧ (countRejected s).afe = s.afe ∧
    (countRejected s).ros = s.ros ∧ (countRejected s).tt = s.tt ∧ (countRejected s).res = s.res ∧
    (countRejected s).out = s.out ∧ (countRejected s).ldg = s.ldg ∧ (countRejected s).nv = s.nv ∧
    (countRejected s).cond = s.cond ∧ (countRejected s).disc = s.disc ∧ (countRejected s).cal = s.cal ∧
    (countRejected s).mem = s.mem ∧ (countRejected s).free = s.free ∧ (countRejected s).pending = s.pending := by
  simp only [countRejected, when]
  repeat' split
  all_goals simp

theorem captureShadow_frame (s : State) :
    (captureShadow s).pins = s.pins ∧ (captureShadow s).pwr = s.pwr ∧ (captureShadow s).sys = s.sys ∧
    (captureShadow s).rtc = s.rtc ∧ (captureShadow s).alm = s.alm ∧ (captureShadow s).evt = s.evt ∧
    (captureShadow s).evin = s.evin ∧ (captureShadow s).clk = s.clk ∧ (captureShadow s).afe = s.afe ∧
    (captureShadow s).ros = s.ros ∧ (captureShadow s).tt = s.tt ∧ (captureShadow s).res = s.res ∧
    (captureShadow s).out = s.out ∧ (captureShadow s).ldg = s.ldg ∧ (captureShadow s).nv = s.nv ∧
    (captureShadow s).cond = s.cond ∧ (captureShadow s).disc = s.disc ∧ (captureShadow s).cal = s.cal ∧
    (captureShadow s).mem = s.mem ∧ (captureShadow s).free = s.free ∧ (captureShadow s).pending = s.pending := by
  simp only [captureShadow, when]
  repeat' split
  all_goals simp

theorem readBytes_frame (header : BitVec 16) (a n : Nat) (s : State) :
    (readBytes header a n s).2.pins = s.pins ∧ (readBytes header a n s).2.pwr = s.pwr ∧
    (readBytes header a n s).2.sys = s.sys ∧ (readBytes header a n s).2.rtc = s.rtc ∧
    (readBytes header a n s).2.alm = s.alm ∧ (readBytes header a n s).2.evt = s.evt ∧
    (readBytes header a n s).2.evin = s.evin ∧ (readBytes header a n s).2.clk = s.clk ∧
    (readBytes header a n s).2.afe = s.afe ∧ (readBytes header a n s).2.ros = s.ros ∧
    (readBytes header a n s).2.tt = s.tt ∧ (readBytes header a n s).2.res = s.res ∧
    (readBytes header a n s).2.out = s.out ∧ (readBytes header a n s).2.ldg = s.ldg ∧
    (readBytes header a n s).2.nv = s.nv ∧ (readBytes header a n s).2.cond = s.cond ∧
    (readBytes header a n s).2.disc = s.disc ∧ (readBytes header a n s).2.cal = s.cal ∧
    (readBytes header a n s).2.mem = s.mem ∧ (readBytes header a n s).2.free = s.free ∧
    (readBytes header a n s).2.pending = s.pending := by
  have k0 := @captureShadow_frame
  have k1 := @flagErr_frame
  simp only [readBytes, when]
  repeat' split
  all_goals simp [k0, k1]

theorem calReject_frame (rej : Nat) (s : State) :
    (calReject rej s).pins = s.pins ∧ (calReject rej s).pwr = s.pwr ∧ (calReject rej s).sys = s.sys ∧
    (calReject rej s).alm = s.alm ∧ (calReject rej s).hif = s.hif ∧ (calReject rej s).evin = s.evin ∧
    (calReject rej s).clk = s.clk ∧ (calReject rej s).afe = s.afe ∧ (calReject rej s).ros = s.ros ∧
    (calReject rej s).tt = s.tt ∧ (calReject rej s).res = s.res ∧ (calReject rej s).out = s.out ∧
    (calReject rej s).ldg = s.ldg ∧ (calReject rej s).nv = s.nv ∧ (calReject rej s).cond = s.cond ∧
    (calReject rej s).disc = s.disc ∧ (calReject rej s).cal = s.cal ∧ (calReject rej s).mem = s.mem ∧
    (calReject rej s).free = s.free ∧ (calReject rej s).pending = s.pending := by
  simp only [calReject, when]
  repeat' split
  all_goals simp

theorem holdTime_frame (w : Word) (s : State) :
    (holdTime w s).pins = s.pins ∧ (holdTime w s).pwr = s.pwr ∧ (holdTime w s).sys = s.sys ∧
    (holdTime w s).alm = s.alm ∧ (holdTime w s).hif = s.hif ∧ (holdTime w s).evt = s.evt ∧
    (holdTime w s).evin = s.evin ∧ (holdTime w s).clk = s.clk ∧ (holdTime w s).afe = s.afe ∧
    (holdTime w s).ros = s.ros ∧ (holdTime w s).tt = s.tt ∧ (holdTime w s).res = s.res ∧ (holdTime w s).out = s.out ∧
    (holdTime w s).ldg = s.ldg ∧ (holdTime w s).nv = s.nv ∧ (holdTime w s).cond = s.cond ∧
    (holdTime w s).disc = s.disc ∧ (holdTime w s).cal = s.cal ∧ (holdTime w s).mem = s.mem ∧
    (holdTime w s).free = s.free ∧ (holdTime w s).pending = s.pending := by
  simp only [holdTime, when]
  repeat' split
  all_goals simp

@[simp] theorem endCalendar_frame (c0 c1 : Option Word) (s : State) :
    (endCalendar c0 c1 s).pins = s.pins ∧ (endCalendar c0 c1 s).pwr = s.pwr ∧ (endCalendar c0 c1 s).sys = s.sys ∧
    (endCalendar c0 c1 s).alm = s.alm ∧ (endCalendar c0 c1 s).hif = s.hif ∧ (endCalendar c0 c1 s).evin = s.evin ∧
    (endCalendar c0 c1 s).clk = s.clk ∧ (endCalendar c0 c1 s).afe = s.afe ∧ (endCalendar c0 c1 s).ros = s.ros ∧
    (endCalendar c0 c1 s).tt = s.tt ∧ (endCalendar c0 c1 s).res = s.res ∧ (endCalendar c0 c1 s).out = s.out ∧
    (endCalendar c0 c1 s).ldg = s.ldg ∧ (endCalendar c0 c1 s).nv = s.nv ∧ (endCalendar c0 c1 s).cond = s.cond ∧
    (endCalendar c0 c1 s).disc = s.disc ∧ (endCalendar c0 c1 s).cal = s.cal ∧ (endCalendar c0 c1 s).mem = s.mem ∧
    (endCalendar c0 c1 s).free = s.free ∧ (endCalendar c0 c1 s).pending = s.pending := by
  have k0 := @calReject_frame
  have k1 := @holdTime_frame
  simp only [endCalendar, when]
  repeat' split
  all_goals simp [k0, k1]

@[simp] theorem clearRc_frame (t : Txn) (s : State) :
    (clearRc t s).pins = s.pins ∧ (clearRc t s).pwr = s.pwr ∧ (clearRc t s).rtc = s.rtc ∧ (clearRc t s).alm = s.alm ∧
    (clearRc t s).evt = s.evt ∧ (clearRc t s).clk = s.clk ∧ (clearRc t s).afe = s.afe ∧ (clearRc t s).ros = s.ros ∧
    (clearRc t s).out = s.out ∧ (clearRc t s).nv = s.nv ∧ (clearRc t s).disc = s.disc ∧ (clearRc t s).cal = s.cal ∧
    (clearRc t s).mem = s.mem ∧ (clearRc t s).free = s.free ∧ (clearRc t s).pending = s.pending := by
  unfold clearRc
  split <;> and_intros <;> rfl

@[simp] theorem closeTxn_frame (s : State) :
    (closeTxn s).pins = s.pins ∧ (closeTxn s).alm = s.alm ∧ (closeTxn s).clk = s.clk ∧ (closeTxn s).afe = s.afe ∧
    (closeTxn s).ros = s.ros ∧ (closeTxn s).out = s.out ∧ (closeTxn s).nv = s.nv ∧ (closeTxn s).disc = s.disc ∧
    (closeTxn s).cal = s.cal ∧ (closeTxn s).mem = s.mem ∧ (closeTxn s).free = s.free ∧
    (closeTxn s).pending = s.pending := by
  have k0 := @hifReset_frame
  simp only [closeTxn, when]
  repeat' split
  all_goals simp [k0]

theorem writePwrCtl_frame (w : Word) (s : State) :
    (writePwrCtl w s).pins = s.pins ∧ (writePwrCtl w s).sys = s.sys ∧ (writePwrCtl w s).rtc = s.rtc ∧
    (writePwrCtl w s).alm = s.alm ∧ (writePwrCtl w s).hif = s.hif ∧ (writePwrCtl w s).evt = s.evt ∧
    (writePwrCtl w s).evin = s.evin ∧ (writePwrCtl w s).clk = s.clk ∧ (writePwrCtl w s).afe = s.afe ∧
    (writePwrCtl w s).ros = s.ros ∧ (writePwrCtl w s).tt = s.tt ∧ (writePwrCtl w s).res = s.res ∧
    (writePwrCtl w s).out = s.out ∧ (writePwrCtl w s).ldg = s.ldg ∧ (writePwrCtl w s).nv = s.nv ∧
    (writePwrCtl w s).cond = s.cond ∧ (writePwrCtl w s).disc = s.disc ∧ (writePwrCtl w s).cal = s.cal ∧
    (writePwrCtl w s).mem = s.mem ∧ (writePwrCtl w s).free = s.free ∧ (writePwrCtl w s).pending = s.pending := by
  simp only [writePwrCtl, when]
  repeat' split
  all_goals simp

theorem writeTrickle_frame (w : Word) (s : State) :
    (writeTrickle w s).pins = s.pins ∧ (writeTrickle w s).sys = s.sys ∧ (writeTrickle w s).rtc = s.rtc ∧
    (writeTrickle w s).alm = s.alm ∧ (writeTrickle w s).hif = s.hif ∧ (writeTrickle w s).evin = s.evin ∧
    (writeTrickle w s).clk = s.clk ∧ (writeTrickle w s).afe = s.afe ∧ (writeTrickle w s).ros = s.ros ∧
    (writeTrickle w s).tt = s.tt ∧ (writeTrickle w s).res = s.res ∧ (writeTrickle w s).out = s.out ∧
    (writeTrickle w s).ldg = s.ldg ∧ (writeTrickle w s).nv = s.nv ∧ (writeTrickle w s).cond = s.cond ∧
    (writeTrickle w s).disc = s.disc ∧ (writeTrickle w s).cal = s.cal ∧ (writeTrickle w s).mem = s.mem ∧
    (writeTrickle w s).free = s.free ∧ (writeTrickle w s).pending = s.pending := by
  have k0 := @trickleEval_frame
  simp only [writeTrickle, when]
  repeat' split
  all_goals simp [k0]

theorem writeSec_frame (w : Word) (s : State) :
    (writeSec w s).pins = s.pins ∧ (writeSec w s).pwr = s.pwr ∧ (writeSec w s).sys = s.sys ∧
    (writeSec w s).alm = s.alm ∧ (writeSec w s).evt = s.evt ∧ (writeSec w s).evin = s.evin ∧
    (writeSec w s).clk = s.clk ∧ (writeSec w s).afe = s.afe ∧ (writeSec w s).ros = s.ros ∧ (writeSec w s).tt = s.tt ∧
    (writeSec w s).res = s.res ∧ (writeSec w s).out = s.out ∧ (writeSec w s).ldg = s.ldg ∧ (writeSec w s).nv = s.nv ∧
    (writeSec w s).cond = s.cond ∧ (writeSec w s).disc = s.disc ∧ (writeSec w s).cal = s.cal ∧
    (writeSec w s).mem = s.mem ∧ (writeSec w s).free = s.free ∧ (writeSec w s).pending = s.pending := by
  have k0 := @holdTime_frame
  simp only [writeSec, when]
  repeat' split
  all_goals simp [k0]

theorem writeRtcCtl_frame (w : Word) (s : State) :
    (writeRtcCtl w s).pins = s.pins ∧ (writeRtcCtl w s).pwr = s.pwr ∧ (writeRtcCtl w s).sys = s.sys ∧
    (writeRtcCtl w s).alm = s.alm ∧ (writeRtcCtl w s).hif = s.hif ∧ (writeRtcCtl w s).evt = s.evt ∧
    (writeRtcCtl w s).evin = s.evin ∧ (writeRtcCtl w s).clk = s.clk ∧ (writeRtcCtl w s).afe = s.afe ∧
    (writeRtcCtl w s).ros = s.ros ∧ (writeRtcCtl w s).tt = s.tt ∧ (writeRtcCtl w s).res = s.res ∧
    (writeRtcCtl w s).out = s.out ∧ (writeRtcCtl w s).ldg = s.ldg ∧ (writeRtcCtl w s).nv = s.nv ∧
    (writeRtcCtl w s).cond = s.cond ∧ (writeRtcCtl w s).disc = s.disc ∧ (writeRtcCtl w s).cal = s.cal ∧
    (writeRtcCtl w s).mem = s.mem ∧ (writeRtcCtl w s).free = s.free ∧ (writeRtcCtl w s).pending = s.pending := by
  simp only [writeRtcCtl, when]
  repeat' split
  all_goals simp

theorem writeShift_frame (v : BitVec 16) (s : State) :
    (writeShift v s).pins = s.pins ∧ (writeShift v s).pwr = s.pwr ∧ (writeShift v s).sys = s.sys ∧
    (writeShift v s).alm = s.alm ∧ (writeShift v s).hif = s.hif ∧ (writeShift v s).evin = s.evin ∧
    (writeShift v s).clk = s.clk ∧ (writeShift v s).afe = s.afe ∧ (writeShift v s).ros = s.ros ∧
    (writeShift v s).tt = s.tt ∧ (writeShift v s).res = s.res ∧ (writeShift v s).out = s.out ∧
    (writeShift v s).ldg = s.ldg ∧ (writeShift v s).nv = s.nv ∧ (writeShift v s).cond = s.cond ∧
    (writeShift v s).disc = s.disc ∧ (writeShift v s).cal = s.cal ∧ (writeShift v s).mem = s.mem ∧
    (writeShift v s).free = s.free ∧ (writeShift v s).pending = s.pending := by
  have k0 := @calReject_frame
  simp only [writeShift, when]
  repeat' split
  all_goals simp [k0]

theorem writeLocal_frame (w : Word) (s : State) :
    (writeLocal w s).pins = s.pins ∧ (writeLocal w s).pwr = s.pwr ∧ (writeLocal w s).sys = s.sys ∧
    (writeLocal w s).alm = s.alm ∧ (writeLocal w s).hif = s.hif ∧ (writeLocal w s).evin = s.evin ∧
    (writeLocal w s).clk = s.clk ∧ (writeLocal w s).afe = s.afe ∧ (writeLocal w s).ros = s.ros ∧
    (writeLocal w s).tt = s.tt ∧ (writeLocal w s).res = s.res ∧ (writeLocal w s).out = s.out ∧
    (writeLocal w s).ldg = s.ldg ∧ (writeLocal w s).nv = s.nv ∧ (writeLocal w s).cond = s.cond ∧
    (writeLocal w s).disc = s.disc ∧ (writeLocal w s).cal = s.cal ∧ (writeLocal w s).mem = s.mem ∧
    (writeLocal w s).free = s.free ∧ (writeLocal w s).pending = s.pending := by
  have k0 := @calReject_frame
  simp only [writeLocal, when]
  repeat' split
  all_goals simp [k0]

theorem writeTtCtl_frame (w : Word) (s : State) :
    (writeTtCtl w s).pins = s.pins ∧ (writeTtCtl w s).pwr = s.pwr ∧ (writeTtCtl w s).sys = s.sys ∧
    (writeTtCtl w s).rtc = s.rtc ∧ (writeTtCtl w s).alm = s.alm ∧ (writeTtCtl w s).hif = s.hif ∧
    (writeTtCtl w s).evt = s.evt ∧ (writeTtCtl w s).evin = s.evin ∧ (writeTtCtl w s).clk = s.clk ∧
    (writeTtCtl w s).afe = s.afe ∧ (writeTtCtl w s).ros = s.ros ∧ (writeTtCtl w s).res = s.res ∧
    (writeTtCtl w s).out = s.out ∧ (writeTtCtl w s).ldg = s.ldg ∧ (writeTtCtl w s).nv = s.nv ∧
    (writeTtCtl w s).cond = s.cond ∧ (writeTtCtl w s).cal = s.cal ∧ (writeTtCtl w s).mem = s.mem ∧
    (writeTtCtl w s).free = s.free ∧ (writeTtCtl w s).pending = s.pending := by
  have k0 := @applyPortEn_frame
  simp only [writeTtCtl, when]
  repeat' split
  all_goals simp [k0]

theorem writeAoutCode_frame (w : Word) (s : State) :
    (writeAoutCode w s).pins = s.pins ∧ (writeAoutCode w s).pwr = s.pwr ∧ (writeAoutCode w s).sys = s.sys ∧
    (writeAoutCode w s).rtc = s.rtc ∧ (writeAoutCode w s).alm = s.alm ∧ (writeAoutCode w s).hif = s.hif ∧
    (writeAoutCode w s).evt = s.evt ∧ (writeAoutCode w s).evin = s.evin ∧ (writeAoutCode w s).clk = s.clk ∧
    (writeAoutCode w s).afe = s.afe ∧ (writeAoutCode w s).ros = s.ros ∧ (writeAoutCode w s).tt = s.tt ∧
    (writeAoutCode w s).res = s.res ∧ (writeAoutCode w s).ldg = s.ldg ∧ (writeAoutCode w s).nv = s.nv ∧
    (writeAoutCode w s).cond = s.cond ∧ (writeAoutCode w s).disc = s.disc ∧ (writeAoutCode w s).cal = s.cal ∧
    (writeAoutCode w s).mem = s.mem ∧ (writeAoutCode w s).free = s.free ∧ (writeAoutCode w s).pending = s.pending := by
  have k0 := @applyCode_frame
  simp only [writeAoutCode, when]
  repeat' split
  all_goals simp [k0]

theorem clearSources_frame (b : BitVec 64) (s : State) :
    (clearSources b s).pins = s.pins ∧ (clearSources b s).pwr = s.pwr ∧ (clearSources b s).sys = s.sys ∧
    (clearSources b s).rtc = s.rtc ∧ (clearSources b s).alm = s.alm ∧ (clearSources b s).evin = s.evin ∧
    (clearSources b s).clk = s.clk ∧ (clearSources b s).afe = s.afe ∧ (clearSources b s).ros = s.ros ∧
    (clearSources b s).tt = s.tt ∧ (clearSources b s).res = s.res ∧ (clearSources b s).out = s.out ∧
    (clearSources b s).ldg = s.ldg ∧ (clearSources b s).nv = s.nv ∧ (clearSources b s).cond = s.cond ∧
    (clearSources b s).disc = s.disc ∧ (clearSources b s).cal = s.cal ∧ (clearSources b s).mem = s.mem ∧
    (clearSources b s).free = s.free ∧ (clearSources b s).pending = s.pending := by
  have k0 := @trimServed_frame
  simp only [clearSources, when]
  repeat' split
  all_goals simp [k0]

@[simp] theorem regWrite_frame (k : Nat) (w : Word) (s : State) :
    (regWrite k w s).pins = s.pins ∧ (regWrite k w s).cal = s.cal ∧ (regWrite k w s).free = s.free ∧
    (regWrite k w s).pending = s.pending := by
  have k0 := @clearSources_frame
  have k1 := @copySpread_frame
  have k2 := @restartGen_frame
  have k3 := @setAoutCfg_frame
  have k4 := @writeAfeCtl_frame
  have k5 := @writeAoutCode_frame
  have k6 := @writeClkPlan_frame
  have k7 := @writeClkSrc_frame
  have k8 := @writeIncfg_frame
  have k9 := @writeLdgCtl_frame
  have k10 := @writeLocal_frame
  have k11 := @writeMask0_frame
  have k12 := @writeMask1_frame
  have k13 := @writePwrCtl_frame
  have k14 := @writeRtcCtl_frame
  have k15 := @writeSec_frame
  have k16 := @writeShift_frame
  have k17 := @writeTrickle_frame
  have k18 := @writeTtCtl_frame
  simp only [regWrite, when]
  repeat' split
  all_goals simp [k0, k1, k2, k3, k4, k5, k6, k7, k8, k9, k10, k11, k12, k13, k14, k15, k16, k17, k18]

theorem tableByte_frame (b : Bool) (a : Nat) (v : Byte) (s : State) :
    (tableByte b a v s).pins = s.pins ∧ (tableByte b a v s).pwr = s.pwr ∧ (tableByte b a v s).sys = s.sys ∧
    (tableByte b a v s).rtc = s.rtc ∧ (tableByte b a v s).alm = s.alm ∧ (tableByte b a v s).evin = s.evin ∧
    (tableByte b a v s).clk = s.clk ∧ (tableByte b a v s).afe = s.afe ∧ (tableByte b a v s).ros = s.ros ∧
    (tableByte b a v s).res = s.res ∧ (tableByte b a v s).out = s.out ∧ (tableByte b a v s).ldg = s.ldg ∧
    (tableByte b a v s).nv = s.nv ∧ (tableByte b a v s).disc = s.disc ∧ (tableByte b a v s).cal = s.cal ∧
    (tableByte b a v s).free = s.free ∧ (tableByte b a v s).pending = s.pending := by
  have k0 := @uninstall_frame
  simp only [tableByte, when]
  repeat' split
  all_goals simp [k0]

theorem rosterByte_frame (a : Nat) (v : Byte) (s : State) :
    (rosterByte a v s).pins = s.pins ∧ (rosterByte a v s).pwr = s.pwr ∧ (rosterByte a v s).sys = s.sys ∧
    (rosterByte a v s).rtc = s.rtc ∧ (rosterByte a v s).alm = s.alm ∧ (rosterByte a v s).hif = s.hif ∧
    (rosterByte a v s).evin = s.evin ∧ (rosterByte a v s).clk = s.clk ∧ (rosterByte a v s).res = s.res ∧
    (rosterByte a v s).out = s.out ∧ (rosterByte a v s).ldg = s.ldg ∧ (rosterByte a v s).nv = s.nv ∧
    (rosterByte a v s).cond = s.cond ∧ (rosterByte a v s).disc = s.disc ∧ (rosterByte a v s).cal = s.cal ∧
    (rosterByte a v s).free = s.free ∧ (rosterByte a v s).pending = s.pending := by
  have k0 := @sealNow_frame
  simp only [rosterByte, when]
  repeat' split
  all_goals simp [k0]

theorem smByte_frame (a : Nat) (v : Byte) (s : State) :
    (smByte a v s).pins = s.pins ∧ (smByte a v s).pwr = s.pwr ∧ (smByte a v s).sys = s.sys ∧
    (smByte a v s).rtc = s.rtc ∧ (smByte a v s).alm = s.alm ∧ (smByte a v s).hif = s.hif ∧
    (smByte a v s).evt = s.evt ∧ (smByte a v s).clk = s.clk ∧ (smByte a v s).afe = s.afe ∧
    (smByte a v s).ros = s.ros ∧ (smByte a v s).tt = s.tt ∧ (smByte a v s).res = s.res ∧ (smByte a v s).out = s.out ∧
    (smByte a v s).ldg = s.ldg ∧ (smByte a v s).nv = s.nv ∧ (smByte a v s).cond = s.cond ∧
    (smByte a v s).disc = s.disc ∧ (smByte a v s).cal = s.cal ∧ (smByte a v s).free = s.free ∧
    (smByte a v s).pending = s.pending := by
  simp only [smByte, when]
  repeat' split
  all_goals simp

theorem byteWrite_frame (a : Nat) (v : Byte) (s : State) :
    (byteWrite a v s).pins = s.pins ∧ (byteWrite a v s).pwr = s.pwr ∧ (byteWrite a v s).sys = s.sys ∧
    (byteWrite a v s).rtc = s.rtc ∧ (byteWrite a v s).alm = s.alm ∧ (byteWrite a v s).clk = s.clk ∧
    (byteWrite a v s).res = s.res ∧ (byteWrite a v s).out = s.out ∧ (byteWrite a v s).ldg = s.ldg ∧
    (byteWrite a v s).nv = s.nv ∧ (byteWrite a v s).disc = s.disc ∧ (byteWrite a v s).cal = s.cal ∧
    (byteWrite a v s).free = s.free ∧ (byteWrite a v s).pending = s.pending := by
  have k0 := @rosterByte_frame
  have k1 := @smByte_frame
  have k2 := @tableByte_frame
  simp only [byteWrite, when]
  repeat' split
  all_goals simp [k0, k1, k2]

theorem noteEarly_frame (s : State) :
    (noteEarly s).pins = s.pins ∧ (noteEarly s).pwr = s.pwr ∧ (noteEarly s).rtc = s.rtc ∧ (noteEarly s).alm = s.alm ∧
    (noteEarly s).evt = s.evt ∧ (noteEarly s).evin = s.evin ∧ (noteEarly s).clk = s.clk ∧ (noteEarly s).afe = s.afe ∧
    (noteEarly s).ros = s.ros ∧ (noteEarly s).tt = s.tt ∧ (noteEarly s).res = s.res ∧ (noteEarly s).out = s.out ∧
    (noteEarly s).ldg = s.ldg ∧ (noteEarly s).nv = s.nv ∧ (noteEarly s).cond = s.cond ∧ (noteEarly s).disc = s.disc ∧
    (noteEarly s).cal = s.cal ∧ (noteEarly s).mem = s.mem ∧ (noteEarly s).free = s.free ∧
    (noteEarly s).pending = s.pending := by
  simp only [noteEarly, when]
  repeat' split
  all_goals simp

@[simp] theorem commitItem_frame (early : Bool) (i : Item) (s : State) :
    (commitItem early i s).pins = s.pins ∧ (commitItem early i s).cal = s.cal ∧ (commitItem early i s).free = s.free ∧
    (commitItem early i s).pending = s.pending := by
  have k0 := @byteWrite_frame
  have k1 := @noteEarly_frame
  simp only [commitItem, when]
  repeat' split
  all_goals simp [k0, k1]

@[simp] theorem armChecks_frame (ws : List (Nat × Word)) (s : State) :
    (armChecks ws s).pins = s.pins ∧ (armChecks ws s).pwr = s.pwr ∧ (armChecks ws s).sys = s.sys ∧
    (armChecks ws s).rtc = s.rtc ∧ (armChecks ws s).hif = s.hif ∧ (armChecks ws s).evt = s.evt ∧
    (armChecks ws s).evin = s.evin ∧ (armChecks ws s).clk = s.clk ∧ (armChecks ws s).afe = s.afe ∧
    (armChecks ws s).ros = s.ros ∧ (armChecks ws s).res = s.res ∧ (armChecks ws s).out = s.out ∧
    (armChecks ws s).ldg = s.ldg ∧ (armChecks ws s).nv = s.nv ∧ (armChecks ws s).cond = s.cond ∧
    (armChecks ws s).disc = s.disc ∧ (armChecks ws s).cal = s.cal ∧ (armChecks ws s).mem = s.mem ∧
    (armChecks ws s).free = s.free ∧ (armChecks ws s).pending = s.pending := by
  simp only [armChecks, when]
  repeat' split
  all_goals simp

@[simp] theorem clockEnd_frame (ws : List (Nat × Word)) (s : State) :
    (clockEnd ws s).pins = s.pins ∧ (clockEnd ws s).pwr = s.pwr ∧ (clockEnd ws s).rtc = s.rtc ∧
    (clockEnd ws s).alm = s.alm ∧ (clockEnd ws s).hif = s.hif ∧ (clockEnd ws s).disc = s.disc ∧
    (clockEnd ws s).cal = s.cal ∧ (clockEnd ws s).free = s.free ∧ (clockEnd ws s).pending = s.pending := by
  have k0 := @restartClock_frame
  simp only [clockEnd, when]
  repeat' split
  all_goals simp [k0]

theorem kick_frame (s : State) :
    (kick s).pins = s.pins ∧ (kick s).pwr = s.pwr ∧ (kick s).rtc = s.rtc ∧ (kick s).alm = s.alm ∧
    (kick s).hif = s.hif ∧ (kick s).disc = s.disc ∧ (kick s).cal = s.cal ∧ (kick s).free = s.free ∧
    (kick s).pending = s.pending := by
  simp only [kick, when]
  repeat' split
  all_goals simp

theorem submitWord_frame (w : Word) (s : State) :
    (submitWord w s).pins = s.pins ∧ (submitWord w s).pwr = s.pwr ∧ (submitWord w s).rtc = s.rtc ∧
    (submitWord w s).alm = s.alm ∧ (submitWord w s).hif = s.hif ∧ (submitWord w s).evin = s.evin ∧
    (submitWord w s).clk = s.clk ∧ (submitWord w s).afe = s.afe ∧ (submitWord w s).ros = s.ros ∧
    (submitWord w s).tt = s.tt ∧ (submitWord w s).res = s.res ∧ (submitWord w s).disc = s.disc ∧
    (submitWord w s).cal = s.cal ∧ (submitWord w s).free = s.free ∧ (submitWord w s).pending = s.pending := by
  have k0 := @submit_frame
  simp only [submitWord, when]
  repeat' split
  all_goals simp [k0]

theorem sysControl_frame (w : Word) (s : State) :
    (sysControl w s).pins = s.pins ∧ (sysControl w s).alm = s.alm ∧ (sysControl w s).free = s.free ∧
    (sysControl w s).pending = s.pending := by
  have k0 := @measReset_frame
  have k1 := @softReset_frame
  simp only [sysControl, when]
  repeat' split
  all_goals simp [k0, k1]

@[simp] theorem commitEnd_frame (ws : List (Nat × Word)) (s : State) :
    (commitEnd ws s).pins = s.pins ∧ (commitEnd ws s).free = s.free ∧ (commitEnd ws s).pending = s.pending := by
  have k0 := @kick_frame
  have k1 := @ledgerOff_frame
  have k2 := @submitWord_frame
  have k3 := @sysControl_frame
  simp only [commitEnd, when]
  repeat' split
  all_goals simp [k0, k1, k2, k3]

@[simp] theorem commit_frame (is : List Item) (s : State) :
    (commit is s).pins = s.pins ∧ (commit is s).pending = s.pending := by
  have k0 := @raceFormats_frame
  have k1 := @raceTables_frame
  simp only [commit, when]
  repeat' split
  all_goals simp [k0, k1]

@[simp] theorem reject_frame (es : List Nat) (addr : Option (BitVec 16)) (s : State) :
    (reject es addr s).pins = s.pins ∧ (reject es addr s).pwr = s.pwr ∧ (reject es addr s).sys = s.sys ∧
    (reject es addr s).rtc = s.rtc ∧ (reject es addr s).alm = s.alm ∧ (reject es addr s).evt = s.evt ∧
    (reject es addr s).evin = s.evin ∧ (reject es addr s).clk = s.clk ∧ (reject es addr s).afe = s.afe ∧
    (reject es addr s).ros = s.ros ∧ (reject es addr s).tt = s.tt ∧ (reject es addr s).res = s.res ∧
    (reject es addr s).out = s.out ∧ (reject es addr s).ldg = s.ldg ∧ (reject es addr s).nv = s.nv ∧
    (reject es addr s).cond = s.cond ∧ (reject es addr s).disc = s.disc ∧ (reject es addr s).cal = s.cal ∧
    (reject es addr s).mem = s.mem ∧ (reject es addr s).free = s.free ∧ (reject es addr s).pending = s.pending := by
  have k0 := @countRejected_frame
  have k1 := @flagErr_frame
  simp only [reject, when]
  repeat' split
  all_goals simp [k0, k1]

@[simp] theorem writeBytes_frame (addr : BitVec 16) (data : List Byte) (s : State) :
    (writeBytes addr data s).pins = s.pins ∧ (writeBytes addr data s).pending = s.pending := by
  have k0 := @flagErr_frame
  simp only [writeBytes, when]
  repeat' split
  all_goals simp [k0]

theorem setPtr_frame (a : BitVec 16) (s : State) :
    (setPtr a s).pins = s.pins ∧ (setPtr a s).pwr = s.pwr ∧ (setPtr a s).sys = s.sys ∧ (setPtr a s).rtc = s.rtc ∧
    (setPtr a s).alm = s.alm ∧ (setPtr a s).evt = s.evt ∧ (setPtr a s).evin = s.evin ∧ (setPtr a s).clk = s.clk ∧
    (setPtr a s).afe = s.afe ∧ (setPtr a s).ros = s.ros ∧ (setPtr a s).tt = s.tt ∧ (setPtr a s).res = s.res ∧
    (setPtr a s).out = s.out ∧ (setPtr a s).ldg = s.ldg ∧ (setPtr a s).nv = s.nv ∧ (setPtr a s).cond = s.cond ∧
    (setPtr a s).disc = s.disc ∧ (setPtr a s).cal = s.cal ∧ (setPtr a s).mem = s.mem ∧ (setPtr a s).free = s.free ∧
    (setPtr a s).pending = s.pending := by
  simp only [setPtr, when]
  repeat' split
  all_goals simp

@[simp] theorem busMoved_frame (a : Nat) (s : State) :
    (busMoved a s).pins = s.pins ∧ (busMoved a s).pwr = s.pwr ∧ (busMoved a s).sys = s.sys ∧
    (busMoved a s).rtc = s.rtc ∧ (busMoved a s).alm = s.alm ∧ (busMoved a s).evt = s.evt ∧
    (busMoved a s).evin = s.evin ∧ (busMoved a s).clk = s.clk ∧ (busMoved a s).afe = s.afe ∧
    (busMoved a s).ros = s.ros ∧ (busMoved a s).tt = s.tt ∧ (busMoved a s).res = s.res ∧ (busMoved a s).out = s.out ∧
    (busMoved a s).ldg = s.ldg ∧ (busMoved a s).nv = s.nv ∧ (busMoved a s).cond = s.cond ∧
    (busMoved a s).disc = s.disc ∧ (busMoved a s).cal = s.cal ∧ (busMoved a s).mem = s.mem ∧
    (busMoved a s).free = s.free ∧ (busMoved a s).pending = s.pending := by
  simp only [busMoved, when]
  repeat' split
  all_goals simp

@[simp] theorem ownTxn_pins (a : Nat) (f : State → State) (s : State)
    (h : ∀ t, (f t).pins = t.pins) : (ownTxn a f s).pins = s.pins := by
  simp only [ownTxn]
  repeat' split
  all_goals simp [h, when]

@[simp] theorem ownTxn_alm (a : Nat) (f : State → State) (s : State)
    (h : ∀ t, (f t).alm = t.alm) : (ownTxn a f s).alm = s.alm := by
  simp only [ownTxn]
  repeat' split
  all_goals simp [h, when]

@[simp] theorem ownTxn_clk (a : Nat) (f : State → State) (s : State)
    (h : ∀ t, (f t).clk = t.clk) : (ownTxn a f s).clk = s.clk := by
  simp only [ownTxn]
  repeat' split
  all_goals simp [h, when]

@[simp] theorem ownTxn_afe (a : Nat) (f : State → State) (s : State)
    (h : ∀ t, (f t).afe = t.afe) : (ownTxn a f s).afe = s.afe := by
  simp only [ownTxn]
  repeat' split
  all_goals simp [h, when]

@[simp] theorem ownTxn_ros (a : Nat) (f : State → State) (s : State)
    (h : ∀ t, (f t).ros = t.ros) : (ownTxn a f s).ros = s.ros := by
  simp only [ownTxn]
  repeat' split
  all_goals simp [h, when]

@[simp] theorem ownTxn_out (a : Nat) (f : State → State) (s : State)
    (h : ∀ t, (f t).out = t.out) : (ownTxn a f s).out = s.out := by
  simp only [ownTxn]
  repeat' split
  all_goals simp [h, when]

@[simp] theorem ownTxn_nv (a : Nat) (f : State → State) (s : State)
    (h : ∀ t, (f t).nv = t.nv) : (ownTxn a f s).nv = s.nv := by
  simp only [ownTxn]
  repeat' split
  all_goals simp [h, when]

@[simp] theorem ownTxn_disc (a : Nat) (f : State → State) (s : State)
    (h : ∀ t, (f t).disc = t.disc) : (ownTxn a f s).disc = s.disc := by
  simp only [ownTxn]
  repeat' split
  all_goals simp [h, when]

@[simp] theorem ownTxn_cal (a : Nat) (f : State → State) (s : State)
    (h : ∀ t, (f t).cal = t.cal) : (ownTxn a f s).cal = s.cal := by
  simp only [ownTxn]
  repeat' split
  all_goals simp [h, when]

@[simp] theorem ownTxn_mem (a : Nat) (f : State → State) (s : State)
    (h : ∀ t, (f t).mem = t.mem) : (ownTxn a f s).mem = s.mem := by
  simp only [ownTxn]
  repeat' split
  all_goals simp [h, when]

@[simp] theorem ownTxn_free (a : Nat) (f : State → State) (s : State)
    (h : ∀ t, (f t).free = t.free) : (ownTxn a f s).free = s.free := by
  simp only [ownTxn]
  repeat' split
  all_goals simp [h, when]

@[simp] theorem ownTxn_pending (a : Nat) (f : State → State) (s : State)
    (h : ∀ t, (f t).pending = t.pending) : (ownTxn a f s).pending = s.pending := by
  simp only [ownTxn]
  repeat' split
  all_goals simp [h, when]

@[simp] theorem hostItems_frame (is : List Item) (s : State) :
    (hostItems is s).pins = s.pins ∧ (hostItems is s).pending = s.pending := by
  simp only [hostItems, when]
  repeat' split
  all_goals simp

@[simp] theorem hostWord_frame (k : Nat) (w : Word) (s : State) :
    (hostWord k w s).pins = s.pins ∧ (hostWord k w s).pending = s.pending := by
  simp only [hostWord, when]
  repeat' split
  all_goals simp

@[simp] theorem hostBytes_frame (a : Nat) (data : List Byte) (s : State) :
    (hostBytes a data s).pins = s.pins ∧ (hostBytes a data s).pending = s.pending := by
  simp only [hostBytes, when]
  repeat' split
  all_goals simp

@[simp] theorem answer_frame (bs : List Byte) (s : State) :
    (answer bs s).pins = s.pins ∧ (answer bs s).pwr = s.pwr ∧ (answer bs s).sys = s.sys ∧ (answer bs s).rtc = s.rtc ∧
    (answer bs s).alm = s.alm ∧ (answer bs s).evt = s.evt ∧ (answer bs s).evin = s.evin ∧ (answer bs s).clk = s.clk ∧
    (answer bs s).afe = s.afe ∧ (answer bs s).ros = s.ros ∧ (answer bs s).tt = s.tt ∧ (answer bs s).res = s.res ∧
    (answer bs s).out = s.out ∧ (answer bs s).ldg = s.ldg ∧ (answer bs s).nv = s.nv ∧ (answer bs s).cond = s.cond ∧
    (answer bs s).disc = s.disc ∧ (answer bs s).cal = s.cal ∧ (answer bs s).mem = s.mem ∧
    (answer bs s).free = s.free ∧ (answer bs s).pending = s.pending := by
  simp only [answer, when]
  repeat' split
  all_goals simp

theorem spiWrite_frame (errs : List Nat) (addr : BitVec 16) (data : List Byte) (s : State) :
    (spiWrite errs addr data s).pins = s.pins ∧ (spiWrite errs addr data s).pending = s.pending := by
  simp only [spiWrite, when]
  repeat' split
  all_goals simp

theorem spiWriteFrame_frame (bytes : List Byte) (extra : BitVec 3) (s : State) :
    (spiWriteFrame bytes extra s).pins = s.pins ∧ (spiWriteFrame bytes extra s).pending = s.pending := by
  have k0 := @spiWrite_frame
  simp only [spiWriteFrame, when]
  repeat' split
  all_goals simp [k0]

theorem spiReadPlain_frame (bytes : List Byte) (extra : BitVec 3) (s : State) :
    (spiReadPlain bytes extra s).pins = s.pins ∧ (spiReadPlain bytes extra s).pwr = s.pwr ∧
    (spiReadPlain bytes extra s).sys = s.sys ∧ (spiReadPlain bytes extra s).rtc = s.rtc ∧
    (spiReadPlain bytes extra s).alm = s.alm ∧ (spiReadPlain bytes extra s).evt = s.evt ∧
    (spiReadPlain bytes extra s).evin = s.evin ∧ (spiReadPlain bytes extra s).clk = s.clk ∧
    (spiReadPlain bytes extra s).afe = s.afe ∧ (spiReadPlain bytes extra s).ros = s.ros ∧
    (spiReadPlain bytes extra s).tt = s.tt ∧ (spiReadPlain bytes extra s).res = s.res ∧
    (spiReadPlain bytes extra s).out = s.out ∧ (spiReadPlain bytes extra s).ldg = s.ldg ∧
    (spiReadPlain bytes extra s).nv = s.nv ∧ (spiReadPlain bytes extra s).cond = s.cond ∧
    (spiReadPlain bytes extra s).disc = s.disc ∧ (spiReadPlain bytes extra s).cal = s.cal ∧
    (spiReadPlain bytes extra s).mem = s.mem ∧ (spiReadPlain bytes extra s).free = s.free ∧
    (spiReadPlain bytes extra s).pending = s.pending := by
  have k0 := @readBytes_frame
  simp only [spiReadPlain, when]
  repeat' split
  all_goals simp [k0]

theorem spiReadCrc_frame (bytes : List Byte) (extra : BitVec 3) (s : State) :
    (spiReadCrc bytes extra s).pins = s.pins ∧ (spiReadCrc bytes extra s).pwr = s.pwr ∧
    (spiReadCrc bytes extra s).sys = s.sys ∧ (spiReadCrc bytes extra s).rtc = s.rtc ∧
    (spiReadCrc bytes extra s).alm = s.alm ∧ (spiReadCrc bytes extra s).evt = s.evt ∧
    (spiReadCrc bytes extra s).evin = s.evin ∧ (spiReadCrc bytes extra s).clk = s.clk ∧
    (spiReadCrc bytes extra s).afe = s.afe ∧ (spiReadCrc bytes extra s).ros = s.ros ∧
    (spiReadCrc bytes extra s).tt = s.tt ∧ (spiReadCrc bytes extra s).res = s.res ∧
    (spiReadCrc bytes extra s).out = s.out ∧ (spiReadCrc bytes extra s).ldg = s.ldg ∧
    (spiReadCrc bytes extra s).nv = s.nv ∧ (spiReadCrc bytes extra s).cond = s.cond ∧
    (spiReadCrc bytes extra s).disc = s.disc ∧ (spiReadCrc bytes extra s).cal = s.cal ∧
    (spiReadCrc bytes extra s).mem = s.mem ∧ (spiReadCrc bytes extra s).free = s.free ∧
    (spiReadCrc bytes extra s).pending = s.pending := by
  have k0 := @readBytes_frame
  simp only [spiReadCrc, when]
  repeat' split
  all_goals simp [k0]

theorem spiReadFrame_frame (bytes : List Byte) (extra : BitVec 3) (s : State) :
    (spiReadFrame bytes extra s).pins = s.pins ∧ (spiReadFrame bytes extra s).pwr = s.pwr ∧
    (spiReadFrame bytes extra s).sys = s.sys ∧ (spiReadFrame bytes extra s).rtc = s.rtc ∧
    (spiReadFrame bytes extra s).alm = s.alm ∧ (spiReadFrame bytes extra s).evt = s.evt ∧
    (spiReadFrame bytes extra s).evin = s.evin ∧ (spiReadFrame bytes extra s).clk = s.clk ∧
    (spiReadFrame bytes extra s).afe = s.afe ∧ (spiReadFrame bytes extra s).ros = s.ros ∧
    (spiReadFrame bytes extra s).tt = s.tt ∧ (spiReadFrame bytes extra s).res = s.res ∧
    (spiReadFrame bytes extra s).out = s.out ∧ (spiReadFrame bytes extra s).ldg = s.ldg ∧
    (spiReadFrame bytes extra s).nv = s.nv ∧ (spiReadFrame bytes extra s).cond = s.cond ∧
    (spiReadFrame bytes extra s).disc = s.disc ∧ (spiReadFrame bytes extra s).cal = s.cal ∧
    (spiReadFrame bytes extra s).mem = s.mem ∧ (spiReadFrame bytes extra s).free = s.free ∧
    (spiReadFrame bytes extra s).pending = s.pending := by
  have k0 := @spiReadCrc_frame
  have k1 := @spiReadPlain_frame
  simp only [spiReadFrame, when]
  repeat' split
  all_goals simp [k0, k1]

theorem spiBody_frame (bytes : List Byte) (extra : BitVec 3) (s : State) :
    (spiBody bytes extra s).pins = s.pins ∧ (spiBody bytes extra s).pending = s.pending := by
  have k0 := @spiReadFrame_frame
  have k1 := @spiWriteFrame_frame
  simp only [spiBody, when]
  repeat' split
  all_goals simp [k0, k1]

@[simp] theorem spiFrame_frame (bytes : List Byte) (extra : BitVec 3) (s : State) :
    (spiFrame bytes extra s).pins = s.pins ∧ (spiFrame bytes extra s).pending = s.pending := by
  have k0 := @spiBody_frame
  simp only [spiFrame, when]
  repeat' split
  all_goals simp [k0]

@[simp] theorem spiBusy_frame (s : State) :
    (spiBusy s).pins = s.pins ∧ (spiBusy s).pwr = s.pwr ∧ (spiBusy s).sys = s.sys ∧ (spiBusy s).rtc = s.rtc ∧
    (spiBusy s).alm = s.alm ∧ (spiBusy s).evin = s.evin ∧ (spiBusy s).clk = s.clk ∧ (spiBusy s).afe = s.afe ∧
    (spiBusy s).ros = s.ros ∧ (spiBusy s).tt = s.tt ∧ (spiBusy s).res = s.res ∧ (spiBusy s).out = s.out ∧
    (spiBusy s).ldg = s.ldg ∧ (spiBusy s).nv = s.nv ∧ (spiBusy s).cond = s.cond ∧ (spiBusy s).disc = s.disc ∧
    (spiBusy s).cal = s.cal ∧ (spiBusy s).mem = s.mem ∧ (spiBusy s).free = s.free ∧ (spiBusy s).pending = s.pending := by
  simp only [spiBusy, when]
  repeat' split
  all_goals simp

@[simp] theorem acked_frame (bs : List Bool) (s : State) :
    (acked bs s).pins = s.pins ∧ (acked bs s).pwr = s.pwr ∧ (acked bs s).sys = s.sys ∧ (acked bs s).rtc = s.rtc ∧
    (acked bs s).alm = s.alm ∧ (acked bs s).evt = s.evt ∧ (acked bs s).evin = s.evin ∧ (acked bs s).clk = s.clk ∧
    (acked bs s).afe = s.afe ∧ (acked bs s).ros = s.ros ∧ (acked bs s).tt = s.tt ∧ (acked bs s).res = s.res ∧
    (acked bs s).out = s.out ∧ (acked bs s).ldg = s.ldg ∧ (acked bs s).nv = s.nv ∧ (acked bs s).cond = s.cond ∧
    (acked bs s).disc = s.disc ∧ (acked bs s).cal = s.cal ∧ (acked bs s).mem = s.mem ∧ (acked bs s).free = s.free ∧
    (acked bs s).pending = s.pending := by
  simp only [acked, when]
  repeat' split
  all_goals simp

theorem beginXfer_frame (sr : Bool) (s : State) :
    (beginXfer sr s).pins = s.pins ∧ (beginXfer sr s).alm = s.alm ∧ (beginXfer sr s).clk = s.clk ∧
    (beginXfer sr s).afe = s.afe ∧ (beginXfer sr s).ros = s.ros ∧ (beginXfer sr s).out = s.out ∧
    (beginXfer sr s).nv = s.nv ∧ (beginXfer sr s).disc = s.disc ∧ (beginXfer sr s).cal = s.cal ∧
    (beginXfer sr s).mem = s.mem ∧ (beginXfer sr s).free = s.free ∧ (beginXfer sr s).pending = s.pending := by
  simp only [beginXfer, when]
  repeat' split
  all_goals simp

@[simp] theorem onBus_pins (x : Xfer) (f : State → State) (s : State)
    (h : ∀ t, (f t).pins = t.pins) : (onBus x f s).pins = s.pins := by
  have k0 := @beginXfer_frame
  simp only [onBus]
  repeat' split
  all_goals simp [h, when, k0]

@[simp] theorem onBus_alm (x : Xfer) (f : State → State) (s : State)
    (h : ∀ t, (f t).alm = t.alm) : (onBus x f s).alm = s.alm := by
  have k0 := @beginXfer_frame
  simp only [onBus]
  repeat' split
  all_goals simp [h, when, k0]

@[simp] theorem onBus_ros (x : Xfer) (f : State → State) (s : State)
    (h : ∀ t, (f t).ros = t.ros) : (onBus x f s).ros = s.ros := by
  have k0 := @beginXfer_frame
  simp only [onBus]
  repeat' split
  all_goals simp [h, when, k0]

@[simp] theorem onBus_nv (x : Xfer) (f : State → State) (s : State)
    (h : ∀ t, (f t).nv = t.nv) : (onBus x f s).nv = s.nv := by
  have k0 := @beginXfer_frame
  simp only [onBus]
  repeat' split
  all_goals simp [h, when, k0]

@[simp] theorem onBus_disc (x : Xfer) (f : State → State) (s : State)
    (h : ∀ t, (f t).disc = t.disc) : (onBus x f s).disc = s.disc := by
  have k0 := @beginXfer_frame
  simp only [onBus]
  repeat' split
  all_goals simp [h, when, k0]

@[simp] theorem onBus_cal (x : Xfer) (f : State → State) (s : State)
    (h : ∀ t, (f t).cal = t.cal) : (onBus x f s).cal = s.cal := by
  have k0 := @beginXfer_frame
  simp only [onBus]
  repeat' split
  all_goals simp [h, when, k0]

@[simp] theorem onBus_mem (x : Xfer) (f : State → State) (s : State)
    (h : ∀ t, (f t).mem = t.mem) : (onBus x f s).mem = s.mem := by
  have k0 := @beginXfer_frame
  simp only [onBus]
  repeat' split
  all_goals simp [h, when, k0]

@[simp] theorem onBus_free (x : Xfer) (f : State → State) (s : State)
    (h : ∀ t, (f t).free = t.free) : (onBus x f s).free = s.free := by
  have k0 := @beginXfer_frame
  simp only [onBus]
  repeat' split
  all_goals simp [h, when, k0]

@[simp] theorem onBus_pending (x : Xfer) (f : State → State) (s : State)
    (h : ∀ t, (f t).pending = t.pending) : (onBus x f s).pending = s.pending := by
  have k0 := @beginXfer_frame
  simp only [onBus]
  repeat' split
  all_goals simp [h, when, k0]

@[simp] theorem onCcc_pins (b : Ends) (f : State → State) (s : State)
    (h : ∀ t, (f t).pins = t.pins) : (onCcc b f s).pins = s.pins := by
  simp only [onCcc]
  repeat' split
  all_goals simp [h, when]

@[simp] theorem onCcc_alm (b : Ends) (f : State → State) (s : State)
    (h : ∀ t, (f t).alm = t.alm) : (onCcc b f s).alm = s.alm := by
  simp only [onCcc]
  repeat' split
  all_goals simp [h, when]

@[simp] theorem onCcc_ros (b : Ends) (f : State → State) (s : State)
    (h : ∀ t, (f t).ros = t.ros) : (onCcc b f s).ros = s.ros := by
  simp only [onCcc]
  repeat' split
  all_goals simp [h, when]

@[simp] theorem onCcc_nv (b : Ends) (f : State → State) (s : State)
    (h : ∀ t, (f t).nv = t.nv) : (onCcc b f s).nv = s.nv := by
  simp only [onCcc]
  repeat' split
  all_goals simp [h, when]

@[simp] theorem onCcc_disc (b : Ends) (f : State → State) (s : State)
    (h : ∀ t, (f t).disc = t.disc) : (onCcc b f s).disc = s.disc := by
  simp only [onCcc]
  repeat' split
  all_goals simp [h, when]

@[simp] theorem onCcc_cal (b : Ends) (f : State → State) (s : State)
    (h : ∀ t, (f t).cal = t.cal) : (onCcc b f s).cal = s.cal := by
  simp only [onCcc]
  repeat' split
  all_goals simp [h, when]

@[simp] theorem onCcc_mem (b : Ends) (f : State → State) (s : State)
    (h : ∀ t, (f t).mem = t.mem) : (onCcc b f s).mem = s.mem := by
  simp only [onCcc]
  repeat' split
  all_goals simp [h, when]

@[simp] theorem onCcc_free (b : Ends) (f : State → State) (s : State)
    (h : ∀ t, (f t).free = t.free) : (onCcc b f s).free = s.free := by
  simp only [onCcc]
  repeat' split
  all_goals simp [h, when]

@[simp] theorem onCcc_pending (b : Ends) (f : State → State) (s : State)
    (h : ∀ t, (f t).pending = t.pending) : (onCcc b f s).pending = s.pending := by
  simp only [onCcc]
  repeat' split
  all_goals simp [h, when]

@[simp] theorem addressed_pins (c : State → Bool) (f : State → State) (s : State)
    (h : ∀ t, (f t).pins = t.pins) : (addressed c f s).pins = s.pins := by
  simp only [addressed]
  repeat' split
  all_goals simp [h, when]

@[simp] theorem addressed_pwr (c : State → Bool) (f : State → State) (s : State)
    (h : ∀ t, (f t).pwr = t.pwr) : (addressed c f s).pwr = s.pwr := by
  simp only [addressed]
  repeat' split
  all_goals simp [h, when]

@[simp] theorem addressed_sys (c : State → Bool) (f : State → State) (s : State)
    (h : ∀ t, (f t).sys = t.sys) : (addressed c f s).sys = s.sys := by
  simp only [addressed]
  repeat' split
  all_goals simp [h, when]

@[simp] theorem addressed_rtc (c : State → Bool) (f : State → State) (s : State)
    (h : ∀ t, (f t).rtc = t.rtc) : (addressed c f s).rtc = s.rtc := by
  simp only [addressed]
  repeat' split
  all_goals simp [h, when]

@[simp] theorem addressed_alm (c : State → Bool) (f : State → State) (s : State)
    (h : ∀ t, (f t).alm = t.alm) : (addressed c f s).alm = s.alm := by
  simp only [addressed]
  repeat' split
  all_goals simp [h, when]

@[simp] theorem addressed_evt (c : State → Bool) (f : State → State) (s : State)
    (h : ∀ t, (f t).evt = t.evt) : (addressed c f s).evt = s.evt := by
  simp only [addressed]
  repeat' split
  all_goals simp [h, when]

@[simp] theorem addressed_evin (c : State → Bool) (f : State → State) (s : State)
    (h : ∀ t, (f t).evin = t.evin) : (addressed c f s).evin = s.evin := by
  simp only [addressed]
  repeat' split
  all_goals simp [h, when]

@[simp] theorem addressed_clk (c : State → Bool) (f : State → State) (s : State)
    (h : ∀ t, (f t).clk = t.clk) : (addressed c f s).clk = s.clk := by
  simp only [addressed]
  repeat' split
  all_goals simp [h, when]

@[simp] theorem addressed_afe (c : State → Bool) (f : State → State) (s : State)
    (h : ∀ t, (f t).afe = t.afe) : (addressed c f s).afe = s.afe := by
  simp only [addressed]
  repeat' split
  all_goals simp [h, when]

@[simp] theorem addressed_ros (c : State → Bool) (f : State → State) (s : State)
    (h : ∀ t, (f t).ros = t.ros) : (addressed c f s).ros = s.ros := by
  simp only [addressed]
  repeat' split
  all_goals simp [h, when]

@[simp] theorem addressed_tt (c : State → Bool) (f : State → State) (s : State)
    (h : ∀ t, (f t).tt = t.tt) : (addressed c f s).tt = s.tt := by
  simp only [addressed]
  repeat' split
  all_goals simp [h, when]

@[simp] theorem addressed_res (c : State → Bool) (f : State → State) (s : State)
    (h : ∀ t, (f t).res = t.res) : (addressed c f s).res = s.res := by
  simp only [addressed]
  repeat' split
  all_goals simp [h, when]

@[simp] theorem addressed_out (c : State → Bool) (f : State → State) (s : State)
    (h : ∀ t, (f t).out = t.out) : (addressed c f s).out = s.out := by
  simp only [addressed]
  repeat' split
  all_goals simp [h, when]

@[simp] theorem addressed_ldg (c : State → Bool) (f : State → State) (s : State)
    (h : ∀ t, (f t).ldg = t.ldg) : (addressed c f s).ldg = s.ldg := by
  simp only [addressed]
  repeat' split
  all_goals simp [h, when]

@[simp] theorem addressed_nv (c : State → Bool) (f : State → State) (s : State)
    (h : ∀ t, (f t).nv = t.nv) : (addressed c f s).nv = s.nv := by
  simp only [addressed]
  repeat' split
  all_goals simp [h, when]

@[simp] theorem addressed_cond (c : State → Bool) (f : State → State) (s : State)
    (h : ∀ t, (f t).cond = t.cond) : (addressed c f s).cond = s.cond := by
  simp only [addressed]
  repeat' split
  all_goals simp [h, when]

@[simp] theorem addressed_disc (c : State → Bool) (f : State → State) (s : State)
    (h : ∀ t, (f t).disc = t.disc) : (addressed c f s).disc = s.disc := by
  simp only [addressed]
  repeat' split
  all_goals simp [h, when]

@[simp] theorem addressed_cal (c : State → Bool) (f : State → State) (s : State)
    (h : ∀ t, (f t).cal = t.cal) : (addressed c f s).cal = s.cal := by
  simp only [addressed]
  repeat' split
  all_goals simp [h, when]

@[simp] theorem addressed_mem (c : State → Bool) (f : State → State) (s : State)
    (h : ∀ t, (f t).mem = t.mem) : (addressed c f s).mem = s.mem := by
  simp only [addressed]
  repeat' split
  all_goals simp [h, when]

@[simp] theorem addressed_free (c : State → Bool) (f : State → State) (s : State)
    (h : ∀ t, (f t).free = t.free) : (addressed c f s).free = s.free := by
  simp only [addressed]
  repeat' split
  all_goals simp [h, when]

@[simp] theorem addressed_pending (c : State → Bool) (f : State → State) (s : State)
    (h : ∀ t, (f t).pending = t.pending) : (addressed c f s).pending = s.pending := by
  simp only [addressed]
  repeat' split
  all_goals simp [h, when]

@[simp] theorem busWrite_frame (errs : List Nat) (bytes : List Byte) (s : State) :
    (busWrite errs bytes s).pins = s.pins ∧ (busWrite errs bytes s).pending = s.pending := by
  have k0 := @setPtr_frame
  simp only [busWrite, when]
  repeat' split
  all_goals simp [k0]

theorem busRead_frame (len : Nat) (s : State) :
    (busRead len s).pins = s.pins ∧ (busRead len s).pwr = s.pwr ∧ (busRead len s).sys = s.sys ∧
    (busRead len s).rtc = s.rtc ∧ (busRead len s).alm = s.alm ∧ (busRead len s).evt = s.evt ∧
    (busRead len s).evin = s.evin ∧ (busRead len s).clk = s.clk ∧ (busRead len s).afe = s.afe ∧
    (busRead len s).ros = s.ros ∧ (busRead len s).tt = s.tt ∧ (busRead len s).res = s.res ∧
    (busRead len s).out = s.out ∧ (busRead len s).ldg = s.ldg ∧ (busRead len s).nv = s.nv ∧
    (busRead len s).cond = s.cond ∧ (busRead len s).disc = s.disc ∧ (busRead len s).cal = s.cal ∧
    (busRead len s).mem = s.mem ∧ (busRead len s).free = s.free ∧ (busRead len s).pending = s.pending := by
  have k0 := @readBytes_frame
  have k1 := @setPtr_frame
  simp only [busRead, when]
  repeat' split
  all_goals simp [k0, k1]

@[simp] theorem i2cWrite_frame (dev : BitVec 7) (bytes : List Byte) (x : Xfer) (s : State) :
    (i2cWrite dev bytes x s).pins = s.pins ∧ (i2cWrite dev bytes x s).pending = s.pending := by
  simp only [i2cWrite, when]
  repeat' split
  all_goals simp

theorem readXfer_frame (len : Nat) (cut : Bool) (s : State) :
    (readXfer len cut s).pins = s.pins ∧ (readXfer len cut s).pwr = s.pwr ∧ (readXfer len cut s).sys = s.sys ∧
    (readXfer len cut s).rtc = s.rtc ∧ (readXfer len cut s).alm = s.alm ∧ (readXfer len cut s).evt = s.evt ∧
    (readXfer len cut s).evin = s.evin ∧ (readXfer len cut s).clk = s.clk ∧ (readXfer len cut s).afe = s.afe ∧
    (readXfer len cut s).ros = s.ros ∧ (readXfer len cut s).tt = s.tt ∧ (readXfer len cut s).res = s.res ∧
    (readXfer len cut s).out = s.out ∧ (readXfer len cut s).ldg = s.ldg ∧ (readXfer len cut s).nv = s.nv ∧
    (readXfer len cut s).cond = s.cond ∧ (readXfer len cut s).disc = s.disc ∧ (readXfer len cut s).cal = s.cal ∧
    (readXfer len cut s).mem = s.mem ∧ (readXfer len cut s).free = s.free ∧ (readXfer len cut s).pending = s.pending := by
  have k0 := @busRead_frame
  simp only [readXfer, when]
  repeat' split
  all_goals simp [k0]

@[simp] theorem i2cRead_frame (dev : BitVec 7) (len : Nat) (x : Xfer) (s : State) :
    (i2cRead dev len x s).pins = s.pins ∧ (i2cRead dev len x s).alm = s.alm ∧ (i2cRead dev len x s).ros = s.ros ∧
    (i2cRead dev len x s).nv = s.nv ∧ (i2cRead dev len x s).disc = s.disc ∧ (i2cRead dev len x s).cal = s.cal ∧
    (i2cRead dev len x s).mem = s.mem ∧ (i2cRead dev len x s).free = s.free ∧
    (i2cRead dev len x s).pending = s.pending := by
  have k0 := @readXfer_frame
  simp only [i2cRead, when]
  repeat' split
  all_goals simp [k0]

@[simp] theorem parityMark_frame (ok : Bool) (s : State) :
    (parityMark ok s).pins = s.pins ∧ (parityMark ok s).pwr = s.pwr ∧ (parityMark ok s).sys = s.sys ∧
    (parityMark ok s).rtc = s.rtc ∧ (parityMark ok s).alm = s.alm ∧ (parityMark ok s).evt = s.evt ∧
    (parityMark ok s).evin = s.evin ∧ (parityMark ok s).clk = s.clk ∧ (parityMark ok s).afe = s.afe ∧
    (parityMark ok s).ros = s.ros ∧ (parityMark ok s).tt = s.tt ∧ (parityMark ok s).res = s.res ∧
    (parityMark ok s).out = s.out ∧ (parityMark ok s).ldg = s.ldg ∧ (parityMark ok s).nv = s.nv ∧
    (parityMark ok s).cond = s.cond ∧ (parityMark ok s).disc = s.disc ∧ (parityMark ok s).cal = s.cal ∧
    (parityMark ok s).mem = s.mem ∧ (parityMark ok s).free = s.free ∧ (parityMark ok s).pending = s.pending := by
  simp only [parityMark, when]
  repeat' split
  all_goals simp

@[simp] theorem i3cWrite_frame (dev : BitVec 7) (bytes : List Byte) (parityOk : Bool) (x : Xfer) (s : State) :
    (i3cWrite dev bytes parityOk x s).pins = s.pins ∧ (i3cWrite dev bytes parityOk x s).pending = s.pending := by
  simp only [i3cWrite, when]
  repeat' split
  all_goals simp

@[simp] theorem i3cRead_frame (dev : BitVec 7) (len : Nat) (x : Xfer) (s : State) :
    (i3cRead dev len x s).pins = s.pins ∧ (i3cRead dev len x s).alm = s.alm ∧ (i3cRead dev len x s).ros = s.ros ∧
    (i3cRead dev len x s).nv = s.nv ∧ (i3cRead dev len x s).disc = s.disc ∧ (i3cRead dev len x s).cal = s.cal ∧
    (i3cRead dev len x s).mem = s.mem ∧ (i3cRead dev len x s).free = s.free ∧
    (i3cRead dev len x s).pending = s.pending := by
  have k0 := @readXfer_frame
  simp only [i3cRead, when]
  repeat' split
  all_goals simp [k0]

@[simp] theorem broadcastAddress_frame (s : State) :
    (broadcastAddress s).pins = s.pins ∧ (broadcastAddress s).pwr = s.pwr ∧ (broadcastAddress s).sys = s.sys ∧
    (broadcastAddress s).rtc = s.rtc ∧ (broadcastAddress s).alm = s.alm ∧ (broadcastAddress s).evt = s.evt ∧
    (broadcastAddress s).evin = s.evin ∧ (broadcastAddress s).clk = s.clk ∧ (broadcastAddress s).afe = s.afe ∧
    (broadcastAddress s).ros = s.ros ∧ (broadcastAddress s).tt = s.tt ∧ (broadcastAddress s).res = s.res ∧
    (broadcastAddress s).out = s.out ∧ (broadcastAddress s).ldg = s.ldg ∧ (broadcastAddress s).nv = s.nv ∧
    (broadcastAddress s).cond = s.cond ∧ (broadcastAddress s).disc = s.disc ∧ (broadcastAddress s).cal = s.cal ∧
    (broadcastAddress s).mem = s.mem ∧ (broadcastAddress s).free = s.free ∧ (broadcastAddress s).pending = s.pending := by
  simp only [broadcastAddress, when]
  repeat' split
  all_goals simp

@[simp] theorem broadcastHeader_frame (b : Ends) (s : State) :
    (broadcastHeader b s).pins = s.pins ∧ (broadcastHeader b s).alm = s.alm ∧ (broadcastHeader b s).ros = s.ros ∧
    (broadcastHeader b s).nv = s.nv ∧ (broadcastHeader b s).disc = s.disc ∧ (broadcastHeader b s).cal = s.cal ∧
    (broadcastHeader b s).mem = s.mem ∧ (broadcastHeader b s).free = s.free ∧
    (broadcastHeader b s).pending = s.pending := by
  simp only [broadcastHeader, when]
  repeat' split
  all_goals simp

@[simp] theorem broadcastCcc_pins (b : Ends) (f : State → State) (s : State)
    (h : ∀ t, (f t).pins = t.pins) : (broadcastCcc b f s).pins = s.pins := by
  simp only [broadcastCcc]
  repeat' split
  all_goals simp [h, when]

@[simp] theorem broadcastCcc_alm (b : Ends) (f : State → State) (s : State)
    (h : ∀ t, (f t).alm = t.alm) : (broadcastCcc b f s).alm = s.alm := by
  simp only [broadcastCcc]
  repeat' split
  all_goals simp [h, when]

@[simp] theorem broadcastCcc_ros (b : Ends) (f : State → State) (s : State)
    (h : ∀ t, (f t).ros = t.ros) : (broadcastCcc b f s).ros = s.ros := by
  simp only [broadcastCcc]
  repeat' split
  all_goals simp [h, when]

@[simp] theorem broadcastCcc_nv (b : Ends) (f : State → State) (s : State)
    (h : ∀ t, (f t).nv = t.nv) : (broadcastCcc b f s).nv = s.nv := by
  simp only [broadcastCcc]
  repeat' split
  all_goals simp [h, when]

@[simp] theorem broadcastCcc_disc (b : Ends) (f : State → State) (s : State)
    (h : ∀ t, (f t).disc = t.disc) : (broadcastCcc b f s).disc = s.disc := by
  simp only [broadcastCcc]
  repeat' split
  all_goals simp [h, when]

@[simp] theorem broadcastCcc_cal (b : Ends) (f : State → State) (s : State)
    (h : ∀ t, (f t).cal = t.cal) : (broadcastCcc b f s).cal = s.cal := by
  simp only [broadcastCcc]
  repeat' split
  all_goals simp [h, when]

@[simp] theorem broadcastCcc_mem (b : Ends) (f : State → State) (s : State)
    (h : ∀ t, (f t).mem = t.mem) : (broadcastCcc b f s).mem = s.mem := by
  simp only [broadcastCcc]
  repeat' split
  all_goals simp [h, when]

@[simp] theorem broadcastCcc_free (b : Ends) (f : State → State) (s : State)
    (h : ∀ t, (f t).free = t.free) : (broadcastCcc b f s).free = s.free := by
  simp only [broadcastCcc]
  repeat' split
  all_goals simp [h, when]

@[simp] theorem broadcastCcc_pending (b : Ends) (f : State → State) (s : State)
    (h : ∀ t, (f t).pending = t.pending) : (broadcastCcc b f s).pending = s.pending := by
  simp only [broadcastCcc]
  repeat' split
  all_goals simp [h, when]

@[simp] theorem directCcc_pins (b : Ends) (c : State → Bool) (f : State → State) (s : State)
    (h : ∀ t, (f t).pins = t.pins) : (directCcc b c f s).pins = s.pins := by
  simp only [directCcc]
  apply onCcc_pins; intro t; split <;> simp [h]

@[simp] theorem directCcc_alm (b : Ends) (c : State → Bool) (f : State → State) (s : State)
    (h : ∀ t, (f t).alm = t.alm) : (directCcc b c f s).alm = s.alm := by
  simp only [directCcc]
  apply onCcc_alm; intro t; split <;> simp [h]

@[simp] theorem directCcc_ros (b : Ends) (c : State → Bool) (f : State → State) (s : State)
    (h : ∀ t, (f t).ros = t.ros) : (directCcc b c f s).ros = s.ros := by
  simp only [directCcc]
  apply onCcc_ros; intro t; split <;> simp [h]

@[simp] theorem directCcc_nv (b : Ends) (c : State → Bool) (f : State → State) (s : State)
    (h : ∀ t, (f t).nv = t.nv) : (directCcc b c f s).nv = s.nv := by
  simp only [directCcc]
  apply onCcc_nv; intro t; split <;> simp [h]

@[simp] theorem directCcc_disc (b : Ends) (c : State → Bool) (f : State → State) (s : State)
    (h : ∀ t, (f t).disc = t.disc) : (directCcc b c f s).disc = s.disc := by
  simp only [directCcc]
  apply onCcc_disc; intro t; split <;> simp [h]

@[simp] theorem directCcc_cal (b : Ends) (c : State → Bool) (f : State → State) (s : State)
    (h : ∀ t, (f t).cal = t.cal) : (directCcc b c f s).cal = s.cal := by
  simp only [directCcc]
  apply onCcc_cal; intro t; split <;> simp [h]

@[simp] theorem directCcc_mem (b : Ends) (c : State → Bool) (f : State → State) (s : State)
    (h : ∀ t, (f t).mem = t.mem) : (directCcc b c f s).mem = s.mem := by
  simp only [directCcc]
  apply onCcc_mem; intro t; split <;> simp [h]

@[simp] theorem directCcc_free (b : Ends) (c : State → Bool) (f : State → State) (s : State)
    (h : ∀ t, (f t).free = t.free) : (directCcc b c f s).free = s.free := by
  simp only [directCcc]
  apply onCcc_free; intro t; split <;> simp [h]

@[simp] theorem directCcc_pending (b : Ends) (c : State → Bool) (f : State → State) (s : State)
    (h : ∀ t, (f t).pending = t.pending) : (directCcc b c f s).pending = s.pending := by
  simp only [directCcc]
  apply onCcc_pending; intro t; split <;> simp [h]

@[simp] theorem eitherCcc_pins (dev : Option (BitVec 7)) (b : Ends) (f : State → State) (s : State)
    (h : ∀ t, (f t).pins = t.pins) : (eitherCcc dev b f s).pins = s.pins := by
  simp only [eitherCcc]
  repeat' split
  all_goals simp [h, when]

@[simp] theorem eitherCcc_alm (dev : Option (BitVec 7)) (b : Ends) (f : State → State) (s : State)
    (h : ∀ t, (f t).alm = t.alm) : (eitherCcc dev b f s).alm = s.alm := by
  simp only [eitherCcc]
  repeat' split
  all_goals simp [h, when]

@[simp] theorem eitherCcc_ros (dev : Option (BitVec 7)) (b : Ends) (f : State → State) (s : State)
    (h : ∀ t, (f t).ros = t.ros) : (eitherCcc dev b f s).ros = s.ros := by
  simp only [eitherCcc]
  repeat' split
  all_goals simp [h, when]

@[simp] theorem eitherCcc_nv (dev : Option (BitVec 7)) (b : Ends) (f : State → State) (s : State)
    (h : ∀ t, (f t).nv = t.nv) : (eitherCcc dev b f s).nv = s.nv := by
  simp only [eitherCcc]
  repeat' split
  all_goals simp [h, when]

@[simp] theorem eitherCcc_disc (dev : Option (BitVec 7)) (b : Ends) (f : State → State) (s : State)
    (h : ∀ t, (f t).disc = t.disc) : (eitherCcc dev b f s).disc = s.disc := by
  simp only [eitherCcc]
  repeat' split
  all_goals simp [h, when]

@[simp] theorem eitherCcc_cal (dev : Option (BitVec 7)) (b : Ends) (f : State → State) (s : State)
    (h : ∀ t, (f t).cal = t.cal) : (eitherCcc dev b f s).cal = s.cal := by
  simp only [eitherCcc]
  repeat' split
  all_goals simp [h, when]

@[simp] theorem eitherCcc_mem (dev : Option (BitVec 7)) (b : Ends) (f : State → State) (s : State)
    (h : ∀ t, (f t).mem = t.mem) : (eitherCcc dev b f s).mem = s.mem := by
  simp only [eitherCcc]
  repeat' split
  all_goals simp [h, when]

@[simp] theorem eitherCcc_free (dev : Option (BitVec 7)) (b : Ends) (f : State → State) (s : State)
    (h : ∀ t, (f t).free = t.free) : (eitherCcc dev b f s).free = s.free := by
  simp only [eitherCcc]
  repeat' split
  all_goals simp [h, when]

@[simp] theorem eitherCcc_pending (dev : Option (BitVec 7)) (b : Ends) (f : State → State) (s : State)
    (h : ∀ t, (f t).pending = t.pending) : (eitherCcc dev b f s).pending = s.pending := by
  simp only [eitherCcc]
  repeat' split
  all_goals simp [h, when]

theorem takeAddress_frame (a : BitVec 7) (s : State) :
    (takeAddress a s).pins = s.pins ∧ (takeAddress a s).pwr = s.pwr ∧ (takeAddress a s).sys = s.sys ∧
    (takeAddress a s).rtc = s.rtc ∧ (takeAddress a s).alm = s.alm ∧ (takeAddress a s).evt = s.evt ∧
    (takeAddress a s).evin = s.evin ∧ (takeAddress a s).clk = s.clk ∧ (takeAddress a s).afe = s.afe ∧
    (takeAddress a s).ros = s.ros ∧ (takeAddress a s).tt = s.tt ∧ (takeAddress a s).res = s.res ∧
    (takeAddress a s).out = s.out ∧ (takeAddress a s).ldg = s.ldg ∧ (takeAddress a s).nv = s.nv ∧
    (takeAddress a s).cond = s.cond ∧ (takeAddress a s).disc = s.disc ∧ (takeAddress a s).cal = s.cal ∧
    (takeAddress a s).mem = s.mem ∧ (takeAddress a s).free = s.free ∧ (takeAddress a s).pending = s.pending := by
  simp only [takeAddress, when]
  repeat' split
  all_goals simp

theorem arbitrate_frame (a : BitVec 7) (s : State) :
    (arbitrate a s).pins = s.pins ∧ (arbitrate a s).pwr = s.pwr ∧ (arbitrate a s).sys = s.sys ∧
    (arbitrate a s).rtc = s.rtc ∧ (arbitrate a s).alm = s.alm ∧ (arbitrate a s).evt = s.evt ∧
    (arbitrate a s).evin = s.evin ∧ (arbitrate a s).clk = s.clk ∧ (arbitrate a s).afe = s.afe ∧
    (arbitrate a s).ros = s.ros ∧ (arbitrate a s).tt = s.tt ∧ (arbitrate a s).res = s.res ∧
    (arbitrate a s).out = s.out ∧ (arbitrate a s).ldg = s.ldg ∧ (arbitrate a s).nv = s.nv ∧
    (arbitrate a s).cond = s.cond ∧ (arbitrate a s).disc = s.disc ∧ (arbitrate a s).cal = s.cal ∧
    (arbitrate a s).mem = s.mem ∧ (arbitrate a s).free = s.free ∧ (arbitrate a s).pending = s.pending := by
  have k0 := @takeAddress_frame
  simp only [arbitrate, when]
  repeat' split
  all_goals simp [k0]

@[simp] theorem entdaa_frame (a : BitVec 7) (b : Ends) (s : State) :
    (entdaa a b s).pins = s.pins ∧ (entdaa a b s).alm = s.alm ∧ (entdaa a b s).ros = s.ros ∧
    (entdaa a b s).nv = s.nv ∧ (entdaa a b s).disc = s.disc ∧ (entdaa a b s).cal = s.cal ∧
    (entdaa a b s).mem = s.mem ∧ (entdaa a b s).free = s.free ∧ (entdaa a b s).pending = s.pending := by
  have k0 := @arbitrate_frame
  simp only [entdaa, when]
  repeat' split
  all_goals simp [k0]

@[simp] theorem setdasa_frame (x : Dasa) (b : Ends) (s : State) :
    (setdasa x b s).pins = s.pins ∧ (setdasa x b s).alm = s.alm ∧ (setdasa x b s).ros = s.ros ∧
    (setdasa x b s).nv = s.nv ∧ (setdasa x b s).disc = s.disc ∧ (setdasa x b s).cal = s.cal ∧
    (setdasa x b s).mem = s.mem ∧ (setdasa x b s).free = s.free ∧ (setdasa x b s).pending = s.pending := by
  have k0 := @takeAddress_frame
  simp only [setdasa, when]
  repeat' split
  all_goals simp [k0]

@[simp] theorem rstdaa_frame (b : Ends) (s : State) :
    (rstdaa b s).pins = s.pins ∧ (rstdaa b s).alm = s.alm ∧ (rstdaa b s).ros = s.ros ∧ (rstdaa b s).nv = s.nv ∧
    (rstdaa b s).disc = s.disc ∧ (rstdaa b s).cal = s.cal ∧ (rstdaa b s).mem = s.mem ∧ (rstdaa b s).free = s.free ∧
    (rstdaa b s).pending = s.pending := by
  simp only [rstdaa, when]
  repeat' split
  all_goals simp

@[simp] theorem setIbi_frame (i : Ibis) (on_ : Bool) (b : Ends) (s : State) :
    (setIbi i on_ b s).pins = s.pins ∧ (setIbi i on_ b s).alm = s.alm ∧ (setIbi i on_ b s).ros = s.ros ∧
    (setIbi i on_ b s).nv = s.nv ∧ (setIbi i on_ b s).disc = s.disc ∧ (setIbi i on_ b s).cal = s.cal ∧
    (setIbi i on_ b s).mem = s.mem ∧ (setIbi i on_ b s).free = s.free ∧ (setIbi i on_ b s).pending = s.pending := by
  simp only [setIbi, when]
  repeat' split
  all_goals simp

@[simp] theorem directAnswer_frame (b : Ends) (bs : State → List Byte) (s : State) :
    (directAnswer b bs s).pins = s.pins ∧ (directAnswer b bs s).alm = s.alm ∧ (directAnswer b bs s).ros = s.ros ∧
    (directAnswer b bs s).nv = s.nv ∧ (directAnswer b bs s).disc = s.disc ∧ (directAnswer b bs s).cal = s.cal ∧
    (directAnswer b bs s).mem = s.mem ∧ (directAnswer b bs s).free = s.free ∧
    (directAnswer b bs s).pending = s.pending := by
  simp only [directAnswer, when]
  repeat' split
  all_goals simp

@[simp] theorem getstatus_frame (b : Ends) (s : State) :
    (getstatus b s).pins = s.pins ∧ (getstatus b s).alm = s.alm ∧ (getstatus b s).ros = s.ros ∧
    (getstatus b s).nv = s.nv ∧ (getstatus b s).disc = s.disc ∧ (getstatus b s).cal = s.cal ∧
    (getstatus b s).mem = s.mem ∧ (getstatus b s).free = s.free ∧ (getstatus b s).pending = s.pending := by
  simp only [getstatus, when]
  repeat' split
  all_goals simp

theorem unacknowledged_frame (s : State) :
    (unacknowledged s).pins = s.pins ∧ (unacknowledged s).pwr = s.pwr ∧ (unacknowledged s).sys = s.sys ∧
    (unacknowledged s).rtc = s.rtc ∧ (unacknowledged s).alm = s.alm ∧ (unacknowledged s).evt = s.evt ∧
    (unacknowledged s).evin = s.evin ∧ (unacknowledged s).clk = s.clk ∧ (unacknowledged s).afe = s.afe ∧
    (unacknowledged s).ros = s.ros ∧ (unacknowledged s).tt = s.tt ∧ (unacknowledged s).res = s.res ∧
    (unacknowledged s).out = s.out ∧ (unacknowledged s).ldg = s.ldg ∧ (unacknowledged s).nv = s.nv ∧
    (unacknowledged s).cond = s.cond ∧ (unacknowledged s).disc = s.disc ∧ (unacknowledged s).cal = s.cal ∧
    (unacknowledged s).mem = s.mem ∧ (unacknowledged s).free = s.free ∧ (unacknowledged s).pending = s.pending := by
  simp only [unacknowledged, when]
  repeat' split
  all_goals simp

@[simp] theorem unacknowledgedCcc_frame (b : Ends) (s : State) :
    (unacknowledgedCcc b s).pins = s.pins ∧ (unacknowledgedCcc b s).alm = s.alm ∧
    (unacknowledgedCcc b s).ros = s.ros ∧ (unacknowledgedCcc b s).nv = s.nv ∧ (unacknowledgedCcc b s).disc = s.disc ∧
    (unacknowledgedCcc b s).cal = s.cal ∧ (unacknowledgedCcc b s).mem = s.mem ∧
    (unacknowledgedCcc b s).free = s.free ∧ (unacknowledgedCcc b s).pending = s.pending := by
  have k0 := @unacknowledged_frame
  simp only [unacknowledgedCcc, when]
  repeat' split
  all_goals simp [k0]

theorem armAction_frame (direct : Bool) (d : Byte) (s : State) :
    (armAction direct d s).pins = s.pins ∧ (armAction direct d s).pwr = s.pwr ∧ (armAction direct d s).sys = s.sys ∧
    (armAction direct d s).rtc = s.rtc ∧ (armAction direct d s).alm = s.alm ∧ (armAction direct d s).evt = s.evt ∧
    (armAction direct d s).evin = s.evin ∧ (armAction direct d s).clk = s.clk ∧ (armAction direct d s).afe = s.afe ∧
    (armAction direct d s).ros = s.ros ∧ (armAction direct d s).tt = s.tt ∧ (armAction direct d s).res = s.res ∧
    (armAction direct d s).out = s.out ∧ (armAction direct d s).ldg = s.ldg ∧ (armAction direct d s).nv = s.nv ∧
    (armAction direct d s).cond = s.cond ∧ (armAction direct d s).disc = s.disc ∧ (armAction direct d s).cal = s.cal ∧
    (armAction direct d s).mem = s.mem ∧ (armAction direct d s).free = s.free ∧
    (armAction direct d s).pending = s.pending := by
  have k0 := @unacknowledged_frame
  simp only [armAction, when]
  repeat' split
  all_goals simp [k0]

@[simp] theorem rstact_frame (dev : Option (BitVec 7)) (d : Byte) (b : Ends) (s : State) :
    (rstact dev d b s).pins = s.pins ∧ (rstact dev d b s).alm = s.alm ∧ (rstact dev d b s).ros = s.ros ∧
    (rstact dev d b s).nv = s.nv ∧ (rstact dev d b s).disc = s.disc ∧ (rstact dev d b s).cal = s.cal ∧
    (rstact dev d b s).mem = s.mem ∧ (rstact dev d b s).free = s.free ∧ (rstact dev d b s).pending = s.pending := by
  have k0 := @armAction_frame
  simp only [rstact, when]
  repeat' split
  all_goals simp [k0]

@[simp] theorem enthdr_frame (b : Ends) (s : State) :
    (enthdr b s).pins = s.pins ∧ (enthdr b s).alm = s.alm ∧ (enthdr b s).ros = s.ros ∧ (enthdr b s).nv = s.nv ∧
    (enthdr b s).disc = s.disc ∧ (enthdr b s).cal = s.cal ∧ (enthdr b s).mem = s.mem ∧ (enthdr b s).free = s.free ∧
    (enthdr b s).pending = s.pending := by
  simp only [enthdr, when]
  repeat' split
  all_goals simp

@[simp] theorem hdrExit_frame (s : State) :
    (hdrExit s).pins = s.pins ∧ (hdrExit s).alm = s.alm ∧ (hdrExit s).clk = s.clk ∧ (hdrExit s).afe = s.afe ∧
    (hdrExit s).ros = s.ros ∧ (hdrExit s).out = s.out ∧ (hdrExit s).nv = s.nv ∧ (hdrExit s).disc = s.disc ∧
    (hdrExit s).cal = s.cal ∧ (hdrExit s).mem = s.mem ∧ (hdrExit s).free = s.free ∧ (hdrExit s).pending = s.pending := by
  simp only [hdrExit, when]
  repeat' split
  all_goals simp

@[simp] theorem hifResetRow_frame (s : State) :
    (hifResetRow s).pins = s.pins ∧ (hifResetRow s).alm = s.alm ∧ (hifResetRow s).clk = s.clk ∧
    (hifResetRow s).afe = s.afe ∧ (hifResetRow s).ros = s.ros ∧ (hifResetRow s).out = s.out ∧
    (hifResetRow s).nv = s.nv ∧ (hifResetRow s).disc = s.disc ∧ (hifResetRow s).cal = s.cal ∧
    (hifResetRow s).mem = s.mem ∧ (hifResetRow s).free = s.free ∧ (hifResetRow s).pending = s.pending := by
  have k0 := @hifReset_frame
  simp only [hifResetRow, when]
  repeat' split
  all_goals simp [k0]

@[simp] theorem targetReset_frame (s : State) :
    (targetReset s).pins = s.pins ∧ (targetReset s).alm = s.alm ∧ (targetReset s).free = s.free ∧
    (targetReset s).pending = s.pending := by
  have k0 := @hifReset_frame
  have k1 := @rstactReset_frame
  simp only [targetReset, when]
  repeat' split
  all_goals simp [k0, k1]

theorem ibiBegin_frame (s : State) :
    (ibiBegin s).pins = s.pins ∧ (ibiBegin s).alm = s.alm ∧ (ibiBegin s).clk = s.clk ∧ (ibiBegin s).afe = s.afe ∧
    (ibiBegin s).ros = s.ros ∧ (ibiBegin s).out = s.out ∧ (ibiBegin s).nv = s.nv ∧ (ibiBegin s).disc = s.disc ∧
    (ibiBegin s).cal = s.cal ∧ (ibiBegin s).mem = s.mem ∧ (ibiBegin s).free = s.free ∧
    (ibiBegin s).pending = s.pending := by
  have k0 := @beginXfer_frame
  simp only [ibiBegin, when]
  repeat' split
  all_goals simp [k0]

@[simp] theorem ibiRequest_frame (s : State) :
    (ibiRequest s).pins = s.pins ∧ (ibiRequest s).alm = s.alm ∧ (ibiRequest s).clk = s.clk ∧
    (ibiRequest s).afe = s.afe ∧ (ibiRequest s).ros = s.ros ∧ (ibiRequest s).out = s.out ∧ (ibiRequest s).nv = s.nv ∧
    (ibiRequest s).disc = s.disc ∧ (ibiRequest s).cal = s.cal ∧ (ibiRequest s).mem = s.mem ∧
    (ibiRequest s).free = s.free ∧ (ibiRequest s).pending = s.pending := by
  have k0 := @ibiBegin_frame
  simp only [ibiRequest, when]
  repeat' split
  all_goals simp [k0]

theorem ibiOver_frame (stop : Bool) (s : State) :
    (ibiOver stop s).pins = s.pins ∧ (ibiOver stop s).alm = s.alm ∧ (ibiOver stop s).clk = s.clk ∧
    (ibiOver stop s).afe = s.afe ∧ (ibiOver stop s).ros = s.ros ∧ (ibiOver stop s).out = s.out ∧
    (ibiOver stop s).nv = s.nv ∧ (ibiOver stop s).disc = s.disc ∧ (ibiOver stop s).cal = s.cal ∧
    (ibiOver stop s).mem = s.mem ∧ (ibiOver stop s).free = s.free ∧ (ibiOver stop s).pending = s.pending := by
  simp only [ibiOver, when]
  repeat' split
  all_goals simp

@[simp] theorem ibiAck_frame (stop : Bool) (s : State) :
    (ibiAck stop s).pins = s.pins ∧ (ibiAck stop s).alm = s.alm ∧ (ibiAck stop s).clk = s.clk ∧
    (ibiAck stop s).afe = s.afe ∧ (ibiAck stop s).ros = s.ros ∧ (ibiAck stop s).out = s.out ∧
    (ibiAck stop s).nv = s.nv ∧ (ibiAck stop s).disc = s.disc ∧ (ibiAck stop s).cal = s.cal ∧
    (ibiAck stop s).mem = s.mem ∧ (ibiAck stop s).free = s.free ∧ (ibiAck stop s).pending = s.pending := by
  have k0 := @ibiOver_frame
  simp only [ibiAck, when]
  repeat' split
  all_goals simp [k0]

@[simp] theorem ibiNack_frame (stop : Bool) (s : State) :
    (ibiNack stop s).pins = s.pins ∧ (ibiNack stop s).alm = s.alm ∧ (ibiNack stop s).clk = s.clk ∧
    (ibiNack stop s).afe = s.afe ∧ (ibiNack stop s).ros = s.ros ∧ (ibiNack stop s).out = s.out ∧
    (ibiNack stop s).nv = s.nv ∧ (ibiNack stop s).disc = s.disc ∧ (ibiNack stop s).cal = s.cal ∧
    (ibiNack stop s).mem = s.mem ∧ (ibiNack stop s).free = s.free ∧ (ibiNack stop s).pending = s.pending := by
  have k0 := @ibiOver_frame
  simp only [ibiNack, when]
  repeat' split
  all_goals simp [k0]

@[simp] theorem ibiReminder_frame (s : State) :
    (ibiReminder s).pins = s.pins ∧ (ibiReminder s).alm = s.alm ∧ (ibiReminder s).clk = s.clk ∧
    (ibiReminder s).afe = s.afe ∧ (ibiReminder s).ros = s.ros ∧ (ibiReminder s).out = s.out ∧
    (ibiReminder s).nv = s.nv ∧ (ibiReminder s).disc = s.disc ∧ (ibiReminder s).cal = s.cal ∧
    (ibiReminder s).mem = s.mem ∧ (ibiReminder s).free = s.free ∧ (ibiReminder s).pending = s.pending := by
  have k0 := @ibiBegin_frame
  simp only [ibiReminder, when]
  repeat' split
  all_goals simp [k0]

@[simp] theorem declareX32_frame (s : State) :
    (declareX32 s).pins = s.pins ∧ (declareX32 s).pwr = s.pwr ∧ (declareX32 s).alm = s.alm ∧
    (declareX32 s).hif = s.hif ∧ (declareX32 s).evt = s.evt ∧ (declareX32 s).evin = s.evin ∧
    (declareX32 s).clk = s.clk ∧ (declareX32 s).afe = s.afe ∧ (declareX32 s).ros = s.ros ∧ (declareX32 s).tt = s.tt ∧
    (declareX32 s).res = s.res ∧ (declareX32 s).out = s.out ∧ (declareX32 s).ldg = s.ldg ∧ (declareX32 s).nv = s.nv ∧
    (declareX32 s).cond = s.cond ∧ (declareX32 s).cal = s.cal ∧ (declareX32 s).mem = s.mem ∧
    (declareX32 s).free = s.free ∧ (declareX32 s).pending = s.pending := by
  simp only [declareX32, when]
  repeat' split
  all_goals simp

@[simp] theorem edgeAt_frame (vdd : Nat) (p : State → Bool) (e : Edge) (s : State) :
    (edgeAt vdd p e s).pending = s.pending := by
  simp only [edgeAt, when]
  repeat' split
  all_goals simp

@[simp] theorem detachInConversion_frame (k t : Nat) (s : State) :
    (detachInConversion k t s).pins = s.pins ∧ (detachInConversion k t s).rtc = s.rtc ∧
    (detachInConversion k t s).alm = s.alm ∧ (detachInConversion k t s).free = s.free ∧
    (detachInConversion k t s).pending = s.pending := by
  simp only [detachInConversion, when]
  repeat' split
  all_goals simp

@[simp] theorem generatorUpdate_frame (s : State) :
    (generatorUpdate s).pins = s.pins ∧ (generatorUpdate s).pwr = s.pwr ∧ (generatorUpdate s).sys = s.sys ∧
    (generatorUpdate s).rtc = s.rtc ∧ (generatorUpdate s).alm = s.alm ∧ (generatorUpdate s).hif = s.hif ∧
    (generatorUpdate s).evt = s.evt ∧ (generatorUpdate s).evin = s.evin ∧ (generatorUpdate s).ros = s.ros ∧
    (generatorUpdate s).res = s.res ∧ (generatorUpdate s).ldg = s.ldg ∧ (generatorUpdate s).nv = s.nv ∧
    (generatorUpdate s).cond = s.cond ∧ (generatorUpdate s).disc = s.disc ∧ (generatorUpdate s).cal = s.cal ∧
    (generatorUpdate s).mem = s.mem ∧ (generatorUpdate s).free = s.free ∧ (generatorUpdate s).pending = s.pending := by
  simp only [generatorUpdate, when]
  repeat' split
  all_goals simp

@[simp] theorem complianceLoss_frame (s : State) :
    (complianceLoss s).pins = s.pins ∧ (complianceLoss s).pwr = s.pwr ∧ (complianceLoss s).sys = s.sys ∧
    (complianceLoss s).rtc = s.rtc ∧ (complianceLoss s).alm = s.alm ∧ (complianceLoss s).hif = s.hif ∧
    (complianceLoss s).evin = s.evin ∧ (complianceLoss s).clk = s.clk ∧ (complianceLoss s).afe = s.afe ∧
    (complianceLoss s).ros = s.ros ∧ (complianceLoss s).tt = s.tt ∧ (complianceLoss s).res = s.res ∧
    (complianceLoss s).ldg = s.ldg ∧ (complianceLoss s).nv = s.nv ∧ (complianceLoss s).cond = s.cond ∧
    (complianceLoss s).disc = s.disc ∧ (complianceLoss s).cal = s.cal ∧ (complianceLoss s).mem = s.mem ∧
    (complianceLoss s).free = s.free ∧ (complianceLoss s).pending = s.pending := by
  have k0 := @faultCode_frame
  simp only [complianceLoss, when]
  repeat' split
  all_goals simp [k0]

@[simp] theorem complianceRecovery_frame (s : State) :
    (complianceRecovery s).pins = s.pins ∧ (complianceRecovery s).pwr = s.pwr ∧ (complianceRecovery s).sys = s.sys ∧
    (complianceRecovery s).rtc = s.rtc ∧ (complianceRecovery s).alm = s.alm ∧ (complianceRecovery s).hif = s.hif ∧
    (complianceRecovery s).evt = s.evt ∧ (complianceRecovery s).evin = s.evin ∧ (complianceRecovery s).clk = s.clk ∧
    (complianceRecovery s).afe = s.afe ∧ (complianceRecovery s).ros = s.ros ∧ (complianceRecovery s).tt = s.tt ∧
    (complianceRecovery s).res = s.res ∧ (complianceRecovery s).ldg = s.ldg ∧ (complianceRecovery s).nv = s.nv ∧
    (complianceRecovery s).cond = s.cond ∧ (complianceRecovery s).disc = s.disc ∧ (complianceRecovery s).cal = s.cal ∧
    (complianceRecovery s).mem = s.mem ∧ (complianceRecovery s).free = s.free ∧
    (complianceRecovery s).pending = s.pending := by
  simp only [complianceRecovery, when]
  repeat' split
  all_goals simp

@[simp] theorem slotReading_frame (k : Nat) (present : Bool) (t : Nat) (s : State) :
    (slotReading k present t s).pins = s.pins ∧ (slotReading k present t s).rtc = s.rtc ∧
    (slotReading k present t s).alm = s.alm ∧ (slotReading k present t s).free = s.free ∧
    (slotReading k present t s).pending = s.pending := by
  have k0 := @presenceSlot_frame
  simp only [slotReading, when]
  repeat' split
  all_goals simp [k0]

end Sys2Proof.Machine
end

