-- ==== Sys2Proof/Laws/CanonicalEdge.lean ====
section
/-! SUPPORT. The canonical form of the memory is kept by every operation that writes it. -/

set_option linter.unusedSimpArgs false
set_option linter.unusedTactic false

namespace Sys2Proof.Machine

@[simp] theorem clearMain_wf (keepHif : Bool) (s : State)
    (hs : Memory.wf s.mem = true) : Memory.wf (clearMain keepHif s).mem = true := by
  simp only [clearMain, when]
  repeat' split
  all_goals simp (maxDischargeDepth := 40) +contextual [hs]

@[simp] theorem beginStart_wf (bits : BitVec 11) (soft powerOn : Bool) (lost : Nat) (s : State)
    (hs : Memory.wf s.mem = true) : Memory.wf (beginStart bits soft powerOn lost s).mem = true := by
  have k0 := @clearMain_frame
  simp only [beginStart, when]
  repeat' split
  all_goals simp (maxDischargeDepth := 40) +contextual [hs, k0]

@[simp] theorem softReset_wf (s : State)
    (hs : Memory.wf s.mem = true) : Memory.wf (softReset s).mem = true := by
  have k0 := @beginStart_frame
  have k1 := @keepShip_frame
  simp only [softReset, when]
  repeat' split
  all_goals simp (maxDischargeDepth := 40) +contextual [hs, k0, k1]

@[simp] theorem rstactReset_wf (s : State)
    (hs : Memory.wf s.mem = true) : Memory.wf (rstactReset s).mem = true := by
  have k0 := @beginStart_frame
  have k1 := @keepShip_frame
  simp only [rstactReset, when]
  repeat' split
  all_goals simp (maxDischargeDepth := 40) +contextual [hs, k0, k1]

@[simp] theorem rstn_wf (lowNs : Nat) (s : State)
    (hs : Memory.wf s.mem = true) : Memory.wf (rstn lowNs s).mem = true := by
  have k0 := @beginStart_frame
  have k1 := @keepShip_frame
  simp only [rstn, when]
  repeat' split
  all_goals simp (maxDischargeDepth := 40) +contextual [hs, k0, k1]

@[simp] theorem sramClearDone_wf (s : State)
    (hs : Memory.wf s.mem = true) : Memory.wf (sramClearDone s).mem = true := by
  simp only [sramClearDone, when]
  repeat' split
  all_goals simp (maxDischargeDepth := 40) +contextual [hs]

@[simp] theorem configImageApply_wf (present : BitVec 4) (t : Nat) (s : State)
    (hs : Memory.wf s.mem = true) : Memory.wf (configImageApply present t s).mem = true := by
  have k0 := @configStep_frame
  have k1 := @firstReading_frame
  simp only [configImageApply, when]
  repeat' split
  all_goals simp (maxDischargeDepth := 40) +contextual [hs, k0, k1]

@[simp] theorem bootRecord_wf (t : Nat) (s : State)
    (hs : Memory.wf s.mem = true) : Memory.wf (bootRecord t s).mem = true := by
  have k0 := @acquire_frame
  have k1 := @copySpread_frame
  have k2 := @drainQueue_frame
  have k3 := @resume_frame
  have k4 := @takeLevels_frame
  simp only [bootRecord, when]
  repeat' split
  all_goals simp (maxDischargeDepth := 40) +contextual [hs, k0, k1, k2, k3, k4]

@[simp] theorem neighbourOne_wf (stamp : Stamp) (i : Nat) (s : State)
    (hs : Memory.wf s.mem = true) : Memory.wf (neighbourOne stamp i s).mem = true := by
  have k0 := @failRecord_frame
  simp only [neighbourOne, when]
  repeat' split
  all_goals simp (maxDischargeDepth := 40) +contextual [hs, k0]

@[simp] theorem neighbourFrame_wf (s : State)
    (hs : Memory.wf s.mem = true) : Memory.wf (neighbourFrame s).mem = true := by
  have k0 := @markFailRecord_frame
  have k1 := @neighbourOne_frame
  simp only [neighbourFrame, when]
  repeat' split
  all_goals simp (maxDischargeDepth := 40) +contextual [hs, k0, k1]

@[simp] theorem neighbourLedger_wf (s : State)
    (hs : Memory.wf s.mem = true) : Memory.wf (neighbourLedger s).mem = true := by
  have k0 := @ldgCmdDone_frame
  simp only [neighbourLedger, when]
  repeat' split
  all_goals simp (maxDischargeDepth := 40) +contextual [hs, k0]

@[simp] theorem measReset_wf (t : Nat) (s : State)
    (hs : Memory.wf s.mem = true) : Memory.wf (measReset t s).mem = true := by
  have k0 := @clearMeas_frame
  have k1 := @neighbourCut_frame
  have k2 := @neighbourFrame_frame
  have k3 := @neighbourLedger_frame
  simp only [measReset, when]
  repeat' split
  all_goals simp (maxDischargeDepth := 40) +contextual [hs, k0, k1, k2, k3]

@[simp] theorem measResetComplete_wf (t : Nat) (s : State)
    (hs : Memory.wf s.mem = true) : Memory.wf (measResetComplete t s).mem = true := by
  have k0 := @acquire_frame
  have k1 := @applySwitch_frame
  have k2 := @recoverBy_frame
  simp only [measResetComplete, when]
  repeat' split
  all_goals simp (maxDischargeDepth := 40) +contextual [hs, k0, k1, k2]

@[simp] theorem mainDown_wf (s : State)
    (hs : Memory.wf s.mem = true) : Memory.wf (mainDown s).mem = true := by
  have k0 := @clearMain_frame
  simp only [mainDown, when]
  repeat' split
  all_goals simp (maxDischargeDepth := 40) +contextual [hs, k0]

@[simp] theorem mainOff_wf (s : State)
    (hs : Memory.wf s.mem = true) : Memory.wf (mainOff s).mem = true := by
  have k0 := @mainDown_frame
  have k1 := @tearOp_frame
  simp only [mainOff, when]
  repeat' split
  all_goals simp (maxDischargeDepth := 40) +contextual [hs, k0, k1]

@[simp] theorem mainOn_wf (ship : Bool) (s : State)
    (hs : Memory.wf s.mem = true) : Memory.wf (mainOn ship s).mem = true := by
  have k0 := @beginStart_frame
  simp only [mainOn, when]
  repeat' split
  all_goals simp (maxDischargeDepth := 40) +contextual [hs, k0]

@[simp] theorem aonOff_wf (s : State)
    (hs : Memory.wf s.mem = true) : Memory.wf (aonOff s).mem = true := by
  have k0 := @mainOff_frame
  have k1 := @mainOn_frame
  simp only [aonOff, when]
  repeat' split
  all_goals simp (maxDischargeDepth := 40) +contextual [hs, k0, k1]

@[simp] theorem leaveShip_wf (s : State)
    (hs : Memory.wf s.mem = true) : Memory.wf (leaveShip s).mem = true := by
  have k0 := @mainOn_frame
  have k1 := @select_frame
  have k2 := @trickleEval_frame
  simp only [leaveShip, when]
  repeat' split
  all_goals simp (maxDischargeDepth := 40) +contextual [hs, k0, k1, k2]

@[simp] theorem shipEval_wf (s : State)
    (hs : Memory.wf s.mem = true) : Memory.wf (shipEval s).mem = true := by
  have k0 := @leaveShip_frame
  have k1 := @tearOp_frame
  simp only [shipEval, when]
  repeat' split
  all_goals simp (maxDischargeDepth := 40) +contextual [hs, k0, k1]

@[simp] theorem aonColdStart_wf (s : State)
    (hs : Memory.wf s.mem = true) : Memory.wf (aonColdStart s).mem = true := by
  have k0 := @mainOn_frame
  simp only [aonColdStart, when]
  repeat' split
  all_goals simp (maxDischargeDepth := 40) +contextual [hs, k0]

@[simp] theorem railsEval_wf (s : State)
    (hs : Memory.wf s.mem = true) : Memory.wf (railsEval s).mem = true := by
  have k0 := @aonOff_frame
  have k1 := @mainOff_frame
  have k2 := @mainOn_frame
  have k3 := @select_frame
  have k4 := @shipEval_frame
  have k5 := @trickleEval_frame
  simp only [railsEval, when]
  repeat' split
  all_goals simp (maxDischargeDepth := 40) +contextual [hs, k0, k1, k2, k3, k4, k5]

@[simp] theorem powerEval_wf (s : State)
    (hs : Memory.wf s.mem = true) : Memory.wf (powerEval s).mem = true := by
  have k0 := @aonColdStart_frame
  have k1 := @railsEval_frame
  simp only [powerEval, when]
  repeat' split
  all_goals simp (maxDischargeDepth := 40) +contextual [hs, k0, k1]

@[simp] theorem setSupplies_wf (vdd vbat : Nat) (s : State)
    (hs : Memory.wf s.mem = true) : Memory.wf (setSupplies vdd vbat s).mem = true := by
  have k0 := @powerEval_frame
  simp only [setSupplies, when]
  repeat' split
  all_goals simp (maxDischargeDepth := 40) +contextual [hs, k0]

@[simp] theorem enterShip_wf (s : State)
    (hs : Memory.wf s.mem = true) : Memory.wf (enterShip s).mem = true := by
  have k0 := @mainDown_frame
  simp only [enterShip, when]
  repeat' split
  all_goals simp (maxDischargeDepth := 40) +contextual [hs, k0]

@[simp] theorem shipExit_wf (w : ShipWake) (s : State)
    (hs : Memory.wf s.mem = true) : Memory.wf (shipExit w s).mem = true := by
  have k0 := @leaveShip_frame
  simp only [shipExit, when]
  repeat' split
  all_goals simp (maxDischargeDepth := 40) +contextual [hs, k0]

@[simp] theorem skippedTtStart_wf (stamp : Stamp) (f : Option Firing) (s : State)
    (hs : Memory.wf s.mem = true) : Memory.wf (skippedTtStart stamp f s).mem = true := by
  have k0 := @lateTrigger_frame
  simp only [skippedTtStart, when]
  repeat' split
  all_goals simp (maxDischargeDepth := 40) +contextual [hs, k0]

@[simp] theorem edgeDeliver_wf (m : Moment) (k : Tick) (f : Fires) (ins : List Occ) (s u : State)
    (hs : Memory.wf u.mem = true) : Memory.wf (edgeDeliver m k f ins s u).mem = true := by
  have k0 := @lateTtStart_frame
  have k1 := @skippedTtStart_frame
  simp only [edgeDeliver, when]
  repeat' split
  all_goals simp (maxDischargeDepth := 40) +contextual [hs, k0, k1]

@[simp] theorem edgeRegister_wf (e : Edge) (k : Tick) (s : State)
    (hs : Memory.wf s.mem = true) : Memory.wf (edgeRegister e k s).2.mem = true := by
  have k0 := @edgeAout_frame
  have k1 := @edgeDeliver_frame
  have k2 := @edgeDone_frame
  have k3 := @edgeInputs_frame
  have k4 := @edgeLaps_frame
  have k5 := @edgeLatch_frame
  simp only [edgeRegister, when]
  repeat' split
  all_goals simp (maxDischargeDepth := 40) +contextual [hs, k0, k1, k2, k3, k4, k5]

@[simp] theorem warnBegin_wf (s : State)
    (hs : Memory.wf s.mem = true) : Memory.wf (warnBegin s).mem = true := by
  have k0 := @allPairsOff_frame
  have k1 := @cutWarn_frame
  have k2 := @dropAhead_frame
  have k3 := @pairPowered_frame
  simp only [warnBegin, when]
  repeat' split
  all_goals simp (maxDischargeDepth := 40) +contextual [hs, k0, k1, k2, k3]

@[simp] theorem ledgerEdge_wf (e : Edge) (k : Tick) (r : LdgReq) (cut : Bool) (s : State)
    (hs : Memory.wf s.mem = true) : Memory.wf (ledgerEdge e k r cut s).mem = true := by
  have k0 := @instantAt_frame
  have k1 := @ldgTakeCmds_frame
  simp only [ledgerEdge, when]
  repeat' split
  all_goals simp (maxDischargeDepth := 40) +contextual [hs, k0, k1]

@[simp] theorem shipCount_wf (s : State)
    (hs : Memory.wf s.mem = true) : Memory.wf (shipCount s).mem = true := by
  have k0 := @enterShip_frame
  simp only [shipCount, when]
  repeat' split
  all_goals simp (maxDischargeDepth := 40) +contextual [hs, k0]

@[simp] theorem preWakeEdge_wf (s : State)
    (hs : Memory.wf s.mem = true) : Memory.wf (preWakeEdge s).mem = true := by
  have k0 := @fetchFirst_frame
  simp only [preWakeEdge, when]
  repeat' split
  all_goals simp (maxDischargeDepth := 40) +contextual [hs, k0]

@[simp] theorem edgeCount_wf (e : Edge) (s : State)
    (hs : Memory.wf s.mem = true) : Memory.wf (edgeCount e s).2.mem = true := by
  have k0 := @captureEdge_frame
  have k1 := @driftEdge_frame
  have k2 := @newKtick_frame
  have k3 := @rtcEdge_frame
  have k4 := @takeFresh_frame
  simp only [edgeCount, when]
  repeat' split
  all_goals simp (maxDischargeDepth := 40) +contextual [hs, k0, k1, k2, k3, k4]

@[simp] theorem edgeRest_wf (e : Edge) (k : Tick) (r : LdgReq) (s : State)
    (hs : Memory.wf s.mem = true) : Memory.wf (edgeRest e k r s).mem = true := by
  have k0 := @castleEdge_frame
  have k1 := @countKtick_frame
  have k2 := @headerEnds_frame
  have k3 := @hfrcTick_frame
  have k4 := @holdTick_frame
  have k5 := @ledgerEdge_frame
  have k6 := @powerEval_frame
  have k7 := @preWakeEdge_frame
  have k8 := @retryTick_frame
  have k9 := @shipCount_frame
  have k10 := @spanEdge_frame
  have k11 := @warnBegin_frame
  have k12 := @warnCount_frame
  simp only [edgeRest, when]
  repeat' split
  all_goals simp (maxDischargeDepth := 40) +contextual [hs, k0, k1, k2, k3, k4, k5, k6, k7, k8, k9, k10, k11, k12]

@[simp] theorem ktick_wf (e : Edge) (s : State)
    (hs : Memory.wf s.mem = true) : Memory.wf (ktick e s).mem = true := by
  have k0 := @edgeCount_frame
  have k1 := @edgeRegister_frame
  have k2 := @edgeRest_frame
  have k3 := @handoverHere_frame
  simp only [ktick, when]
  repeat' split
  all_goals simp (maxDischargeDepth := 40) +contextual [hs, k0, k1, k2, k3]

@[simp] theorem ktickIf_wf (p : State → Bool) (e : Edge) (s : State)
    (hs : Memory.wf s.mem = true) : Memory.wf (ktickIf p e s).mem = true := by
  simp only [ktickIf, when]
  repeat' split
  all_goals simp (maxDischargeDepth := 40) +contextual [hs]

@[simp] theorem nextTick_wf (e : Edge) (s : State)
    (hs : Memory.wf s.mem = true) : Memory.wf (nextTick e s).2.mem = true := by
  have k0 := @edgeCount_frame
  simp only [nextTick, when]
  repeat' split
  all_goals simp (maxDischargeDepth := 40) +contextual [hs, k0]

@[simp] theorem acceptChange_wf (k : Nat) (e : Edge) (s : State)
    (hs : Memory.wf s.mem = true) : Memory.wf (acceptChange k e s).mem = true := by
  have k0 := @acceptFast_frame
  have k1 := @takeFresh_frame
  simp only [acceptChange, when]
  repeat' split
  all_goals simp (maxDischargeDepth := 40) +contextual [hs, k0, k1]

@[simp] theorem acceptRow_wf (k : Nat) (e : Edge) (s : State)
    (hs : Memory.wf s.mem = true) : Memory.wf (acceptRow k e s).mem = true := by
  have k0 := @acceptChange_frame
  have k1 := @acceptFast_frame
  simp only [acceptRow, when]
  repeat' split
  all_goals simp (maxDischargeDepth := 40) +contextual [hs, k0, k1]

@[simp] theorem syncRise_wf (e : Edge) (s : State)
    (hs : Memory.wf s.mem = true) : Memory.wf (syncRise e s).mem = true := by
  simp only [syncRise, when]
  repeat' split
  all_goals simp (maxDischargeDepth := 40) +contextual [hs]

@[simp] theorem regWrite_wf (k : Nat) (w : Word) (s : State)
    (hs : Memory.wf s.mem = true) : Memory.wf (regWrite k w s).mem = true := by
  have k0 := @clearSources_frame
  have k1 := @copySpread_frame
  have k2 := @restartGen_frame
  have k3 := @setAoutCfg_frame
  have k4 := @writeAfeCtl_frame
  have k5 := @writeAoutCode_frame
  have k6 := @writeClkPlan_frame
  have k7 := @writeClkSrc_frame
  have k8 := @writeIncfg_frame
  have k9 := @writeLdgCtl_frame
  have k10 := @writeLocal_frame
  have k11 := @writeMask0_frame
  have k12 := @writeMask1_frame
  have k13 := @writePwrCtl_frame
  have k14 := @writeRtcCtl_frame
  have k15 := @writeSec_frame
  have k16 := @writeShift_frame
  have k17 := @writeTrickle_frame
  have k18 := @writeTtCtl_frame
  simp only [regWrite, when]
  repeat' split
  all_goals simp (maxDischargeDepth := 40) +contextual [hs, k0, k1, k2, k3, k4, k5, k6, k7, k8, k9, k10, k11, k12, k13, k14, k15, k16, k17, k18]

@[simp] theorem tableByte_wf (b : Bool) (a : Nat) (v : Byte) (s : State)
    (hs : Memory.wf s.mem = true) : Memory.wf (tableByte b a v s).mem = true := by
  have k0 := @uninstall_frame
  simp only [tableByte, when]
  repeat' split
  all_goals simp (maxDischargeDepth := 40) +contextual [hs, k0]

@[simp] theorem rosterByte_wf (a : Nat) (v : Byte) (s : State)
    (hs : Memory.wf s.mem = true) : Memory.wf (rosterByte a v s).mem = true := by
  have k0 := @sealNow_frame
  simp only [rosterByte, when]
  repeat' split
  all_goals simp (maxDischargeDepth := 40) +contextual [hs, k0]

@[simp] theorem smByte_wf (a : Nat) (v : Byte) (s : State)
    (hs : Memory.wf s.mem = true) : Memory.wf (smByte a v s).mem = true := by
  simp only [smByte, when]
  repeat' split
  all_goals simp (maxDischargeDepth := 40) +contextual [hs]

@[simp] theorem byteWrite_wf (a : Nat) (v : Byte) (s : State)
    (hs : Memory.wf s.mem = true) : Memory.wf (byteWrite a v s).mem = true := by
  have k0 := @rosterByte_frame
  have k1 := @smByte_frame
  have k2 := @tableByte_frame
  simp only [byteWrite, when]
  repeat' split
  all_goals simp (maxDischargeDepth := 40) +contextual [hs, k0, k1, k2]

@[simp] theorem commitItem_wf (early : Bool) (i : Item) (s : State)
    (hs : Memory.wf s.mem = true) : Memory.wf (commitItem early i s).mem = true := by
  have k0 := @byteWrite_frame
  have k1 := @noteEarly_frame
  simp only [commitItem, when]
  repeat' split
  all_goals simp (maxDischargeDepth := 40) +contextual [hs, k0, k1]

@[simp] theorem clockEnd_wf (ws : List (Nat × Word)) (s : State)
    (hs : Memory.wf s.mem = true) : Memory.wf (clockEnd ws s).mem = true := by
  have k0 := @restartClock_frame
  simp only [clockEnd, when]
  repeat' split
  all_goals simp (maxDischargeDepth := 40) +contextual [hs, k0]

@[simp] theorem kick_wf (s : State)
    (hs : Memory.wf s.mem = true) : Memory.wf (kick s).mem = true := by
  simp only [kick, when]
  repeat' split
  all_goals simp (maxDischargeDepth := 40) +contextual [hs]

@[simp] theorem submitWord_wf (w : Word) (s : State)
    (hs : Memory.wf s.mem = true) : Memory.wf (submitWord w s).mem = true := by
  have k0 := @submit_frame
  simp only [submitWord, when]
  repeat' split
  all_goals simp (maxDischargeDepth := 40) +contextual [hs, k0]

@[simp] theorem sysControl_wf (w : Word) (s : State)
    (hs : Memory.wf s.mem = true) : Memory.wf (sysControl w s).mem = true := by
  have k0 := @measReset_frame
  have k1 := @softReset_frame
  simp only [sysControl, when]
  repeat' split
  all_goals simp (maxDischargeDepth := 40) +contextual [hs, k0, k1]

@[simp] theorem commitEnd_wf (ws : List (Nat × Word)) (s : State)
    (hs : Memory.wf s.mem = true) : Memory.wf (commitEnd ws s).mem = true := by
  have k0 := @kick_frame
  have k1 := @ledgerOff_frame
  have k2 := @submitWord_frame
  have k3 := @sysControl_frame
  simp only [commitEnd, when]
  repeat' split
  all_goals simp (maxDischargeDepth := 40) +contextual [hs, k0, k1, k2, k3]

@[simp] theorem commit_wf (is : List Item) (s : State)
    (hs : Memory.wf s.mem = true) : Memory.wf (commit is s).mem = true := by
  have k0 := @raceFormats_frame
  have k1 := @raceTables_frame
  simp only [commit, when]
  repeat' split
  all_goals simp (maxDischargeDepth := 40) +contextual [hs, k0, k1]

@[simp] theorem writeBytes_wf (addr : BitVec 16) (data : List Byte) (s : State)
    (hs : Memory.wf s.mem = true) : Memory.wf (writeBytes addr data s).mem = true := by
  have k0 := @flagErr_frame
  simp only [writeBytes, when]
  repeat' split
  all_goals simp (maxDischargeDepth := 40) +contextual [hs, k0]

@[simp] theorem ownTxn_wf (a : Nat) (f : State → State) (s : State)
    (hf : ∀ t, Memory.wf t.mem = true → Memory.wf (f t).mem = true)
    (hs : Memory.wf s.mem = true) : Memory.wf (ownTxn a f s).mem = true := by
  simp only [ownTxn, when]
  repeat' split
  all_goals simp (maxDischargeDepth := 40) +contextual [hs, hf]

@[simp] theorem hostItems_wf (is : List Item) (s : State)
    (hs : Memory.wf s.mem = true) : Memory.wf (hostItems is s).mem = true := by
  exact ownTxn_wf _ _ _ (fun t ht => by simp (maxDischargeDepth := 40) +contextual [ht]) hs

@[simp] theorem hostWord_wf (k : Nat) (w : Word) (s : State)
    (hs : Memory.wf s.mem = true) : Memory.wf (hostWord k w s).mem = true := by
  exact hostItems_wf _ _ hs

@[simp] theorem hostBytes_wf (a : Nat) (data : List Byte) (s : State)
    (hs : Memory.wf s.mem = true) : Memory.wf (hostBytes a data s).mem = true := by
  exact ownTxn_wf _ _ _ (fun t ht => by simp (maxDischargeDepth := 40) +contextual [ht]) hs

@[simp] theorem spiWrite_wf (errs : List Nat) (addr : BitVec 16) (data : List Byte) (s : State)
    (hs : Memory.wf s.mem = true) : Memory.wf (spiWrite errs addr data s).mem = true := by
  simp only [spiWrite, when]
  repeat' split
  all_goals simp (maxDischargeDepth := 40) +contextual [hs]

@[simp] theorem spiWriteFrame_wf (bytes : List Byte) (extra : BitVec 3) (s : State)
    (hs : Memory.wf s.mem = true) : Memory.wf (spiWriteFrame bytes extra s).mem = true := by
  have k0 := @spiWrite_frame
  simp only [spiWriteFrame, when]
  repeat' split
  all_goals simp (maxDischargeDepth := 40) +contextual [hs, k0]

@[simp] theorem spiBody_wf (bytes : List Byte) (extra : BitVec 3) (s : State)
    (hs : Memory.wf s.mem = true) : Memory.wf (spiBody bytes extra s).mem = true := by
  have k0 := @spiReadFrame_frame
  have k1 := @spiWriteFrame_frame
  simp only [spiBody, when]
  repeat' split
  all_goals simp (maxDischargeDepth := 40) +contextual [hs, k0, k1]

@[simp] theorem spiFrame_wf (bytes : List Byte) (extra : BitVec 3) (s : State)
    (hs : Memory.wf s.mem = true) : Memory.wf (spiFrame bytes extra s).mem = true := by
  have k0 := @spiBody_frame
  simp only [spiFrame, when]
  repeat' split
  all_goals simp (maxDischargeDepth := 40) +contextual [hs, k0]

@[simp] theorem onBus_wf (x : Xfer) (f : State → State) (s : State)
    (hf : ∀ t, Memory.wf t.mem = true → Memory.wf (f t).mem = true)
    (hs : Memory.wf s.mem = true) : Memory.wf (onBus x f s).mem = true := by
  have k0 := @beginXfer_frame
  simp only [onBus, when]
  repeat' split
  all_goals simp (maxDischargeDepth := 40) +contextual [hs, hf, k0]

@[simp] theorem onCcc_wf (b : Ends) (f : State → State) (s : State)
    (hf : ∀ t, Memory.wf t.mem = true → Memory.wf (f t).mem = true)
    (hs : Memory.wf s.mem = true) : Memory.wf (onCcc b f s).mem = true := by
  simp only [onCcc, when]
  repeat' split
  all_goals simp (maxDischargeDepth := 40) +contextual [hs, hf]

@[simp] theorem addressed_wf (c : State → Bool) (f : State → State) (s : State)
    (hf : ∀ t, Memory.wf t.mem = true → Memory.wf (f t).mem = true)
    (hs : Memory.wf s.mem = true) : Memory.wf (addressed c f s).mem = true := by
  simp only [addressed, when]
  repeat' split
  all_goals simp (maxDischargeDepth := 40) +contextual [hs, hf]

@[simp] theorem busWrite_wf (errs : List Nat) (bytes : List Byte) (s : State)
    (hs : Memory.wf s.mem = true) : Memory.wf (busWrite errs bytes s).mem = true := by
  have k0 := @setPtr_frame
  simp only [busWrite, when]
  repeat' split
  all_goals simp (maxDischargeDepth := 40) +contextual [hs, k0]

@[simp] theorem i2cWrite_wf (dev : BitVec 7) (bytes : List Byte) (x : Xfer) (s : State)
    (hs : Memory.wf s.mem = true) : Memory.wf (i2cWrite dev bytes x s).mem = true := by
  exact onBus_wf _ _ _ (fun t ht => addressed_wf _ _ _ (fun u hu => by simp (maxDischargeDepth := 40) +contextual [hu]) ht) hs

@[simp] theorem i3cWrite_wf (dev : BitVec 7) (bytes : List Byte) (parityOk : Bool) (x : Xfer) (s : State)
    (hs : Memory.wf s.mem = true) : Memory.wf (i3cWrite dev bytes parityOk x s).mem = true := by
  exact onBus_wf _ _ _ (fun t ht => addressed_wf _ _ _ (fun u hu => by simp (maxDischargeDepth := 40) +contextual [hu]) ht) hs

@[simp] theorem broadcastCcc_wf (b : Ends) (f : State → State) (s : State)
    (hf : ∀ t, Memory.wf t.mem = true → Memory.wf (f t).mem = true)
    (hs : Memory.wf s.mem = true) : Memory.wf (broadcastCcc b f s).mem = true := by
  simp only [broadcastCcc, when]
  repeat' split
  all_goals simp (maxDischargeDepth := 40) +contextual [hs, hf]

@[simp] theorem directCcc_wf (b : Ends) (c : State → Bool) (f : State → State) (s : State)
    (hf : ∀ t, Memory.wf t.mem = true → Memory.wf (f t).mem = true)
    (hs : Memory.wf s.mem = true) : Memory.wf (directCcc b c f s).mem = true := by
  refine onCcc_wf _ _ _ (fun t ht => ?_) hs
  simp only
  split
  · exact hf _ (by simpa using ht)
  · simpa using ht

@[simp] theorem eitherCcc_wf (dev : Option (BitVec 7)) (b : Ends) (f : State → State) (s : State)
    (hf : ∀ t, Memory.wf t.mem = true → Memory.wf (f t).mem = true)
    (hs : Memory.wf s.mem = true) : Memory.wf (eitherCcc dev b f s).mem = true := by
  simp only [eitherCcc, when]
  repeat' split
  all_goals simp (maxDischargeDepth := 40) +contextual [hs, hf]

@[simp] theorem targetReset_wf (s : State)
    (hs : Memory.wf s.mem = true) : Memory.wf (targetReset s).mem = true := by
  have k0 := @hifReset_frame
  have k1 := @rstactReset_frame
  simp only [targetReset, when]
  repeat' split
  all_goals simp (maxDischargeDepth := 40) +contextual [hs, k0, k1]

@[simp] theorem edgeAt_wf (vdd : Nat) (p : State → Bool) (e : Edge) (s : State)
    (hs : Memory.wf s.mem = true) : Memory.wf (edgeAt vdd p e s).mem = true := by
  simp only [edgeAt, when]
  repeat' split
  all_goals simp (maxDischargeDepth := 40) +contextual [hs]

@[simp] theorem detachInConversion_wf (k t : Nat) (s : State)
    (hs : Memory.wf s.mem = true) : Memory.wf (detachInConversion k t s).mem = true := by
  simp only [detachInConversion, when]
  repeat' split
  all_goals simp (maxDischargeDepth := 40) +contextual [hs]

@[simp] theorem slotReading_wf (k : Nat) (present : Bool) (t : Nat) (s : State)
    (hs : Memory.wf s.mem = true) : Memory.wf (slotReading k present t s).mem = true := by
  have k0 := @presenceSlot_frame
  simp only [slotReading, when]
  repeat' split
  all_goals simp (maxDischargeDepth := 40) +contextual [hs, k0]

end Sys2Proof.Machine
end

