-- ==== Sys2Proof/Laws/Inner.lean ====
section
/-! SUPPORT. The registers each shared operation leaves unchanged inside the parts of State it writes: one lemma per operation.
Those of the operations a meaning calls itself are simp lemmas, the others serve `simp` as a hypothesis (`have h := @name`). -/

set_option linter.unusedSimpArgs false
set_option linter.unusedTactic false
set_option linter.unreachableTactic false

namespace Sys2Proof.Machine

@[simp] theorem forAll_evin_incfg {α : Type} (l : List α) (f : α → State → State) (s : State)
    (h : ∀ a t, (f a t).evin.incfg = t.evin.incfg) : (forAll l f s).evin.incfg = s.evin.incfg := by
  induction l generalizing s with
  | nil => rfl
  | cons a r ih => simpa [forAll, h] using ih (f a s)

@[simp] theorem forAll_evin_level {α : Type} (l : List α) (f : α → State → State) (s : State)
    (h : ∀ a t, (f a t).evin.level = t.evin.level) : (forAll l f s).evin.level = s.evin.level := by
  induction l generalizing s with
  | nil => rfl
  | cons a r ih => simpa [forAll, h] using ih (f a s)

@[simp] theorem forAll_evin_syncLevel {α : Type} (l : List α) (f : α → State → State) (s : State)
    (h : ∀ a t, (f a t).evin.syncLevel = t.evin.syncLevel) : (forAll l f s).evin.syncLevel = s.evin.syncLevel := by
  induction l generalizing s with
  | nil => rfl
  | cons a r ih => simpa [forAll, h] using ih (f a s)

@[simp] theorem forAll_tt_ctl {α : Type} (l : List α) (f : α → State → State) (s : State)
    (h : ∀ a t, (f a t).tt.ctl = t.tt.ctl) : (forAll l f s).tt.ctl = s.tt.ctl := by
  induction l generalizing s with
  | nil => rfl
  | cons a r ih => simpa [forAll, h] using ih (f a s)

@[simp] theorem forAll_tt_instA {α : Type} (l : List α) (f : α → State → State) (s : State)
    (h : ∀ a t, (f a t).tt.instA = t.tt.instA) : (forAll l f s).tt.instA = s.tt.instA := by
  induction l generalizing s with
  | nil => rfl
  | cons a r ih => simpa [forAll, h] using ih (f a s)

@[simp] theorem forAll_tt_instB {α : Type} (l : List α) (f : α → State → State) (s : State)
    (h : ∀ a t, (f a t).tt.instB = t.tt.instB) : (forAll l f s).tt.instB = s.tt.instB := by
  induction l generalizing s with
  | nil => rfl
  | cons a r ih => simpa [forAll, h] using ih (f a s)

@[simp] theorem forAll_tt_active {α : Type} (l : List α) (f : α → State → State) (s : State)
    (h : ∀ a t, (f a t).tt.active = t.tt.active) : (forAll l f s).tt.active = s.tt.active := by
  induction l generalizing s with
  | nil => rfl
  | cons a r ih => simpa [forAll, h] using ih (f a s)

@[simp] theorem forAll_tt_activeValid {α : Type} (l : List α) (f : α → State → State) (s : State)
    (h : ∀ a t, (f a t).tt.activeValid = t.tt.activeValid) : (forAll l f s).tt.activeValid = s.tt.activeValid := by
  induction l generalizing s with
  | nil => rfl
  | cons a r ih => simpa [forAll, h] using ih (f a s)

@[simp] theorem forAll_tt_startSec {α : Type} (l : List α) (f : α → State → State) (s : State)
    (h : ∀ a t, (f a t).tt.startSec = t.tt.startSec) : (forAll l f s).tt.startSec = s.tt.startSec := by
  induction l generalizing s with
  | nil => rfl
  | cons a r ih => simpa [forAll, h] using ih (f a s)

@[simp] theorem forAll_tt_startFrac {α : Type} (l : List α) (f : α → State → State) (s : State)
    (h : ∀ a t, (f a t).tt.startFrac = t.tt.startFrac) : (forAll l f s).tt.startFrac = s.tt.startFrac := by
  induction l generalizing s with
  | nil => rfl
  | cons a r ih => simpa [forAll, h] using ih (f a s)

@[simp] theorem forAll_tt_swPend {α : Type} (l : List α) (f : α → State → State) (s : State)
    (h : ∀ a t, (f a t).tt.swPend = t.tt.swPend) : (forAll l f s).tt.swPend = s.tt.swPend := by
  induction l generalizing s with
  | nil => rfl
  | cons a r ih => simpa [forAll, h] using ih (f a s)

@[simp] theorem forAll_tt_protHit {α : Type} (l : List α) (f : α → State → State) (s : State)
    (h : ∀ a t, (f a t).tt.protHit = t.tt.protHit) : (forAll l f s).tt.protHit = s.tt.protHit := by
  induction l generalizing s with
  | nil => rfl
  | cons a r ih => simpa [forAll, h] using ih (f a s)

@[simp] theorem forAll_rtc_sec {α : Type} (l : List α) (f : α → State → State) (s : State)
    (h : ∀ a t, (f a t).rtc.sec = t.rtc.sec) : (forAll l f s).rtc.sec = s.rtc.sec := by
  induction l generalizing s with
  | nil => rfl
  | cons a r ih => simpa [forAll, h] using ih (f a s)

@[simp] theorem forAll_rtc_presc {α : Type} (l : List α) (f : α → State → State) (s : State)
    (h : ∀ a t, (f a t).rtc.presc = t.rtc.presc) : (forAll l f s).rtc.presc = s.rtc.presc := by
  induction l generalizing s with
  | nil => rfl
  | cons a r ih => simpa [forAll, h] using ih (f a s)

@[simp] theorem forAll_rtc_halted {α : Type} (l : List α) (f : α → State → State) (s : State)
    (h : ∀ a t, (f a t).rtc.halted = t.rtc.halted) : (forAll l f s).rtc.halted = s.rtc.halted := by
  induction l generalizing s with
  | nil => rfl
  | cons a r ih => simpa [forAll, h] using ih (f a s)

@[simp] theorem forAll_rtc_timePend {α : Type} (l : List α) (f : α → State → State) (s : State)
    (h : ∀ a t, (f a t).rtc.timePend = t.rtc.timePend) : (forAll l f s).rtc.timePend = s.rtc.timePend := by
  induction l generalizing s with
  | nil => rfl
  | cons a r ih => simpa [forAll, h] using ih (f a s)

@[simp] theorem forAll_rtc_trim {α : Type} (l : List α) (f : α → State → State) (s : State)
    (h : ∀ a t, (f a t).rtc.trim = t.rtc.trim) : (forAll l f s).rtc.trim = s.rtc.trim := by
  induction l generalizing s with
  | nil => rfl
  | cons a r ih => simpa [forAll, h] using ih (f a s)

@[simp] theorem forAll_rtc_offset {α : Type} (l : List α) (f : α → State → State) (s : State)
    (h : ∀ a t, (f a t).rtc.offset = t.rtc.offset) : (forAll l f s).rtc.offset = s.rtc.offset := by
  induction l generalizing s with
  | nil => rfl
  | cons a r ih => simpa [forAll, h] using ih (f a s)

@[simp] theorem forAll_rtc_dst {α : Type} (l : List α) (f : α → State → State) (s : State)
    (h : ∀ a t, (f a t).rtc.dst = t.rtc.dst) : (forAll l f s).rtc.dst = s.rtc.dst := by
  induction l generalizing s with
  | nil => rfl
  | cons a r ih => simpa [forAll, h] using ih (f a s)

@[simp] theorem forAll_rtc_ctl {α : Type} (l : List α) (f : α → State → State) (s : State)
    (h : ∀ a t, (f a t).rtc.ctl = t.rtc.ctl) : (forAll l f s).rtc.ctl = s.rtc.ctl := by
  induction l generalizing s with
  | nil => rfl
  | cons a r ih => simpa [forAll, h] using ih (f a s)

@[simp] theorem forAll_rtc_started {α : Type} (l : List α) (f : α → State → State) (s : State)
    (h : ∀ a t, (f a t).rtc.started = t.rtc.started) : (forAll l f s).rtc.started = s.rtc.started := by
  induction l generalizing s with
  | nil => rfl
  | cons a r ih => simpa [forAll, h] using ih (f a s)

@[simp] theorem forAll_sys_phase {α : Type} (l : List α) (f : α → State → State) (s : State)
    (h : ∀ a t, (f a t).sys.phase = t.sys.phase) : (forAll l f s).sys.phase = s.sys.phase := by
  induction l generalizing s with
  | nil => rfl
  | cons a r ih => simpa [forAll, h] using ih (f a s)

@[simp] theorem forAll_sys_cause {α : Type} (l : List α) (f : α → State → State) (s : State)
    (h : ∀ a t, (f a t).sys.cause = t.sys.cause) : (forAll l f s).sys.cause = s.sys.cause := by
  induction l generalizing s with
  | nil => rfl
  | cons a r ih => simpa [forAll, h] using ih (f a s)

@[simp] theorem forAll_sys_cfgState {α : Type} (l : List α) (f : α → State → State) (s : State)
    (h : ∀ a t, (f a t).sys.cfgState = t.sys.cfgState) : (forAll l f s).sys.cfgState = s.sys.cfgState := by
  induction l generalizing s with
  | nil => rfl
  | cons a r ih => simpa [forAll, h] using ih (f a s)

@[simp] theorem forAll_sys_x32Run {α : Type} (l : List α) (f : α → State → State) (s : State)
    (h : ∀ a t, (f a t).sys.x32Run = t.sys.x32Run) : (forAll l f s).sys.x32Run = s.sys.x32Run := by
  induction l generalizing s with
  | nil => rfl
  | cons a r ih => simpa [forAll, h] using ih (f a s)

@[simp] theorem forAll_sys_measRst {α : Type} (l : List α) (f : α → State → State) (s : State)
    (h : ∀ a t, (f a t).sys.measRst = t.sys.measRst) : (forAll l f s).sys.measRst = s.sys.measRst := by
  induction l generalizing s with
  | nil => rfl
  | cons a r ih => simpa [forAll, h] using ih (f a s)

@[simp] theorem forAll_sys_earlyWr {α : Type} (l : List α) (f : α → State → State) (s : State)
    (h : ∀ a t, (f a t).sys.earlyWr = t.sys.earlyWr) : (forAll l f s).sys.earlyWr = s.sys.earlyWr := by
  induction l generalizing s with
  | nil => rfl
  | cons a r ih => simpa [forAll, h] using ih (f a s)

@[simp] theorem forAll_sys_lostCmds {α : Type} (l : List α) (f : α → State → State) (s : State)
    (h : ∀ a t, (f a t).sys.lostCmds = t.sys.lostCmds) : (forAll l f s).sys.lostCmds = s.sys.lostCmds := by
  induction l generalizing s with
  | nil => rfl
  | cons a r ih => simpa [forAll, h] using ih (f a s)

@[simp] theorem forAll_sys_pstate {α : Type} (l : List α) (f : α → State → State) (s : State)
    (h : ∀ a t, (f a t).sys.pstate = t.sys.pstate) : (forAll l f s).sys.pstate = s.sys.pstate := by
  induction l generalizing s with
  | nil => rfl
  | cons a r ih => simpa [forAll, h] using ih (f a s)

@[simp] theorem forAll_pwr_ctl {α : Type} (l : List α) (f : α → State → State) (s : State)
    (h : ∀ a t, (f a t).pwr.ctl = t.pwr.ctl) : (forAll l f s).pwr.ctl = s.pwr.ctl := by
  induction l generalizing s with
  | nil => rfl
  | cons a r ih => simpa [forAll, h] using ih (f a s)

@[simp] theorem forAll_pwr_trickle {α : Type} (l : List α) (f : α → State → State) (s : State)
    (h : ∀ a t, (f a t).pwr.trickle = t.pwr.trickle) : (forAll l f s).pwr.trickle = s.pwr.trickle := by
  induction l generalizing s with
  | nil => rfl
  | cons a r ih => simpa [forAll, h] using ih (f a s)

@[simp] theorem forAll_pwr_onVbat {α : Type} (l : List α) (f : α → State → State) (s : State)
    (h : ∀ a t, (f a t).pwr.onVbat = t.pwr.onVbat) : (forAll l f s).pwr.onVbat = s.pwr.onVbat := by
  induction l generalizing s with
  | nil => rfl
  | cons a r ih => simpa [forAll, h] using ih (f a s)

@[simp] theorem forAll_pwr_mainOn {α : Type} (l : List α) (f : α → State → State) (s : State)
    (h : ∀ a t, (f a t).pwr.mainOn = t.pwr.mainOn) : (forAll l f s).pwr.mainOn = s.pwr.mainOn := by
  induction l generalizing s with
  | nil => rfl
  | cons a r ih => simpa [forAll, h] using ih (f a s)

@[simp] theorem forAll_pwr_aonOn {α : Type} (l : List α) (f : α → State → State) (s : State)
    (h : ∀ a t, (f a t).pwr.aonOn = t.pwr.aonOn) : (forAll l f s).pwr.aonOn = s.pwr.aonOn := by
  induction l generalizing s with
  | nil => rfl
  | cons a r ih => simpa [forAll, h] using ih (f a s)

@[simp] theorem forAll_pwr_warn {α : Type} (l : List α) (f : α → State → State) (s : State)
    (h : ∀ a t, (f a t).pwr.warn = t.pwr.warn) : (forAll l f s).pwr.warn = s.pwr.warn := by
  induction l generalizing s with
  | nil => rfl
  | cons a r ih => simpa [forAll, h] using ih (f a s)

@[simp] theorem forAll_pwr_ship {α : Type} (l : List α) (f : α → State → State) (s : State)
    (h : ∀ a t, (f a t).pwr.ship = t.pwr.ship) : (forAll l f s).pwr.ship = s.pwr.ship := by
  induction l generalizing s with
  | nil => rfl
  | cons a r ih => simpa [forAll, h] using ih (f a s)

@[simp] theorem forAll_pwr_castleCount {α : Type} (l : List α) (f : α → State → State) (s : State)
    (h : ∀ a t, (f a t).pwr.castleCount = t.pwr.castleCount) : (forAll l f s).pwr.castleCount = s.pwr.castleCount := by
  induction l generalizing s with
  | nil => rfl
  | cons a r ih => simpa [forAll, h] using ih (f a s)

@[simp] theorem forAll_pwr_firstValid {α : Type} (l : List α) (f : α → State → State) (s : State)
    (h : ∀ a t, (f a t).pwr.firstValid = t.pwr.firstValid) : (forAll l f s).pwr.firstValid = s.pwr.firstValid := by
  induction l generalizing s with
  | nil => rfl
  | cons a r ih => simpa [forAll, h] using ih (f a s)

@[simp] theorem forAll_pwr_firstSec {α : Type} (l : List α) (f : α → State → State) (s : State)
    (h : ∀ a t, (f a t).pwr.firstSec = t.pwr.firstSec) : (forAll l f s).pwr.firstSec = s.pwr.firstSec := by
  induction l generalizing s with
  | nil => rfl
  | cons a r ih => simpa [forAll, h] using ih (f a s)

@[simp] theorem forAll_pwr_firstFrac {α : Type} (l : List α) (f : α → State → State) (s : State)
    (h : ∀ a t, (f a t).pwr.firstFrac = t.pwr.firstFrac) : (forAll l f s).pwr.firstFrac = s.pwr.firstFrac := by
  induction l generalizing s with
  | nil => rfl
  | cons a r ih => simpa [forAll, h] using ih (f a s)

@[simp] theorem forAll_pwr_castlings {α : Type} (l : List α) (f : α → State → State) (s : State)
    (h : ∀ a t, (f a t).pwr.castlings = t.pwr.castlings) : (forAll l f s).pwr.castlings = s.pwr.castlings := by
  induction l generalizing s with
  | nil => rfl
  | cons a r ih => simpa [forAll, h] using ih (f a s)

@[simp] theorem forAll_clk_src {α : Type} (l : List α) (f : α → State → State) (s : State)
    (h : ∀ a t, (f a t).clk.src = t.clk.src) : (forAll l f s).clk.src = s.clk.src := by
  induction l generalizing s with
  | nil => rfl
  | cons a r ih => simpa [forAll, h] using ih (f a s)

@[simp] theorem forAll_clk_limits {α : Type} (l : List α) (f : α → State → State) (s : State)
    (h : ∀ a t, (f a t).clk.limits = t.clk.limits) : (forAll l f s).clk.limits = s.clk.limits := by
  induction l generalizing s with
  | nil => rfl
  | cons a r ih => simpa [forAll, h] using ih (f a s)

@[simp] theorem forAll_clk_spread {α : Type} (l : List α) (f : α → State → State) (s : State)
    (h : ∀ a t, (f a t).clk.spread = t.clk.spread) : (forAll l f s).clk.spread = s.clk.spread := by
  induction l generalizing s with
  | nil => rfl
  | cons a r ih => simpa [forAll, h] using ih (f a s)

@[simp] theorem forAll_clk_active {α : Type} (l : List α) (f : α → State → State) (s : State)
    (h : ∀ a t, (f a t).clk.active = t.clk.active) : (forAll l f s).clk.active = s.clk.active := by
  induction l generalizing s with
  | nil => rfl
  | cons a r ih => simpa [forAll, h] using ih (f a s)

@[simp] theorem forAll_clk_plans {α : Type} (l : List α) (f : α → State → State) (s : State)
    (h : ∀ a t, (f a t).clk.plans = t.clk.plans) : (forAll l f s).clk.plans = s.clk.plans := by
  induction l generalizing s with
  | nil => rfl
  | cons a r ih => simpa [forAll, h] using ih (f a s)

@[simp] theorem forAll_clk_bypass {α : Type} (l : List α) (f : α → State → State) (s : State)
    (h : ∀ a t, (f a t).clk.bypass = t.clk.bypass) : (forAll l f s).clk.bypass = s.clk.bypass := by
  induction l generalizing s with
  | nil => rfl
  | cons a r ih => simpa [forAll, h] using ih (f a s)

@[simp] theorem forAll_clk_drift {α : Type} (l : List α) (f : α → State → State) (s : State)
    (h : ∀ a t, (f a t).clk.drift = t.clk.drift) : (forAll l f s).clk.drift = s.clk.drift := by
  induction l generalizing s with
  | nil => rfl
  | cons a r ih => simpa [forAll, h] using ih (f a s)

@[simp] theorem forAll_clk_q {α : Type} (l : List α) (f : α → State → State) (s : State)
    (h : ∀ a t, (f a t).clk.q = t.clk.q) : (forAll l f s).clk.q = s.clk.q := by
  induction l generalizing s with
  | nil => rfl
  | cons a r ih => simpa [forAll, h] using ih (f a s)

@[simp] theorem forAll_cond_arg0 {α : Type} (l : List α) (f : α → State → State) (s : State)
    (h : ∀ a t, (f a t).cond.arg0 = t.cond.arg0) : (forAll l f s).cond.arg0 = s.cond.arg0 := by
  induction l generalizing s with
  | nil => rfl
  | cons a r ih => simpa [forAll, h] using ih (f a s)

@[simp] theorem forAll_cond_arg1 {α : Type} (l : List α) (f : α → State → State) (s : State)
    (h : ∀ a t, (f a t).cond.arg1 = t.cond.arg1) : (forAll l f s).cond.arg1 = s.cond.arg1 := by
  induction l generalizing s with
  | nil => rfl
  | cons a r ih => simpa [forAll, h] using ih (f a s)

@[simp] theorem forAll_cond_arg2 {α : Type} (l : List α) (f : α → State → State) (s : State)
    (h : ∀ a t, (f a t).cond.arg2 = t.cond.arg2) : (forAll l f s).cond.arg2 = s.cond.arg2 := by
  induction l generalizing s with
  | nil => rfl
  | cons a r ih => simpa [forAll, h] using ih (f a s)

@[simp] theorem forAll_cond_queue {α : Type} (l : List α) (f : α → State → State) (s : State)
    (h : ∀ a t, (f a t).cond.queue = t.cond.queue) : (forAll l f s).cond.queue = s.cond.queue := by
  induction l generalizing s with
  | nil => rfl
  | cons a r ih => simpa [forAll, h] using ih (f a s)

@[simp] theorem forAll_cond_running {α : Type} (l : List α) (f : α → State → State) (s : State)
    (h : ∀ a t, (f a t).cond.running = t.cond.running) : (forAll l f s).cond.running = s.cond.running := by
  induction l generalizing s with
  | nil => rfl
  | cons a r ih => simpa [forAll, h] using ih (f a s)

@[simp] theorem forAll_cond_head {α : Type} (l : List α) (f : α → State → State) (s : State)
    (h : ∀ a t, (f a t).cond.head = t.cond.head) : (forAll l f s).cond.head = s.cond.head := by
  induction l generalizing s with
  | nil => rfl
  | cons a r ih => simpa [forAll, h] using ih (f a s)

@[simp] theorem forAll_cond_seq {α : Type} (l : List α) (f : α → State → State) (s : State)
    (h : ∀ a t, (f a t).cond.seq = t.cond.seq) : (forAll l f s).cond.seq = s.cond.seq := by
  induction l generalizing s with
  | nil => rfl
  | cons a r ih => simpa [forAll, h] using ih (f a s)

@[simp] theorem forAll_cond_tail {α : Type} (l : List α) (f : α → State → State) (s : State)
    (h : ∀ a t, (f a t).cond.tail = t.cond.tail) : (forAll l f s).cond.tail = s.cond.tail := by
  induction l generalizing s with
  | nil => rfl
  | cons a r ih => simpa [forAll, h] using ih (f a s)

@[simp] theorem forAll_cond_switches {α : Type} (l : List α) (f : α → State → State) (s : State)
    (h : ∀ a t, (f a t).cond.switches = t.cond.switches) : (forAll l f s).cond.switches = s.cond.switches := by
  induction l generalizing s with
  | nil => rfl
  | cons a r ih => simpa [forAll, h] using ih (f a s)

@[simp] theorem forAll_cond_inReset {α : Type} (l : List α) (f : α → State → State) (s : State)
    (h : ∀ a t, (f a t).cond.inReset = t.cond.inReset) : (forAll l f s).cond.inReset = s.cond.inReset := by
  induction l generalizing s with
  | nil => rfl
  | cons a r ih => simpa [forAll, h] using ih (f a s)

@[simp] theorem forAll_ldg_ctl {α : Type} (l : List α) (f : α → State → State) (s : State)
    (h : ∀ a t, (f a t).ldg.ctl = t.ldg.ctl) : (forAll l f s).ldg.ctl = s.ldg.ctl := by
  induction l generalizing s with
  | nil => rfl
  | cons a r ih => simpa [forAll, h] using ih (f a s)

@[simp] theorem forAll_ldg_run {α : Type} (l : List α) (f : α → State → State) (s : State)
    (h : ∀ a t, (f a t).ldg.run = t.ldg.run) : (forAll l f s).ldg.run = s.ldg.run := by
  induction l generalizing s with
  | nil => rfl
  | cons a r ih => simpa [forAll, h] using ih (f a s)

@[simp] theorem forAll_ldg_cnt {α : Type} (l : List α) (f : α → State → State) (s : State)
    (h : ∀ a t, (f a t).ldg.cnt = t.ldg.cnt) : (forAll l f s).ldg.cnt = s.ldg.cnt := by
  induction l generalizing s with
  | nil => rfl
  | cons a r ih => simpa [forAll, h] using ih (f a s)

@[simp] theorem forAll_ldg_lap {α : Type} (l : List α) (f : α → State → State) (s : State)
    (h : ∀ a t, (f a t).ldg.lap = t.ldg.lap) : (forAll l f s).ldg.lap = s.ldg.lap := by
  induction l generalizing s with
  | nil => rfl
  | cons a r ih => simpa [forAll, h] using ih (f a s)

@[simp] theorem forAll_afe_ctl {α : Type} (l : List α) (f : α → State → State) (s : State)
    (h : ∀ a t, (f a t).afe.ctl = t.afe.ctl) : (forAll l f s).afe.ctl = s.afe.ctl := by
  induction l generalizing s with
  | nil => rfl
  | cons a r ih => simpa [forAll, h] using ih (f a s)

@[simp] theorem forAll_afe_eff {α : Type} (l : List α) (f : α → State → State) (s : State)
    (h : ∀ a t, (f a t).afe.eff = t.afe.eff) : (forAll l f s).afe.eff = s.afe.eff := by
  induction l generalizing s with
  | nil => rfl
  | cons a r ih => simpa [forAll, h] using ih (f a s)

@[simp] theorem forAll_afe_diag {α : Type} (l : List α) (f : α → State → State) (s : State)
    (h : ∀ a t, (f a t).afe.diag = t.afe.diag) : (forAll l f s).afe.diag = s.afe.diag := by
  induction l generalizing s with
  | nil => rfl
  | cons a r ih => simpa [forAll, h] using ih (f a s)

@[simp] theorem forAll_ros_sealed {α : Type} (l : List α) (f : α → State → State) (s : State)
    (h : ∀ a t, (f a t).ros.sealed = t.ros.sealed) : (forAll l f s).ros.sealed = s.ros.sealed := by
  induction l generalizing s with
  | nil => rfl
  | cons a r ih => simpa [forAll, h] using ih (f a s)

@[simp] theorem forAll_out_code {α : Type} (l : List α) (f : α → State → State) (s : State)
    (h : ∀ a t, (f a t).out.code = t.out.code) : (forAll l f s).out.code = s.out.code := by
  induction l generalizing s with
  | nil => rfl
  | cons a r ih => simpa [forAll, h] using ih (f a s)

@[simp] theorem forAll_out_cfg {α : Type} (l : List α) (f : α → State → State) (s : State)
    (h : ∀ a t, (f a t).out.cfg = t.out.cfg) : (forAll l f s).out.cfg = s.out.cfg := by
  induction l generalizing s with
  | nil => rfl
  | cons a r ih => simpa [forAll, h] using ih (f a s)

@[simp] theorem forAll_out_gen {α : Type} (l : List α) (f : α → State → State) (s : State)
    (h : ∀ a t, (f a t).out.gen = t.out.gen) : (forAll l f s).out.gen = s.out.gen := by
  induction l generalizing s with
  | nil => rfl
  | cons a r ih => simpa [forAll, h] using ih (f a s)

@[simp] theorem forAll_out_span {α : Type} (l : List α) (f : α → State → State) (s : State)
    (h : ∀ a t, (f a t).out.span = t.out.span) : (forAll l f s).out.span = s.out.span := by
  induction l generalizing s with
  | nil => rfl
  | cons a r ih => simpa [forAll, h] using ih (f a s)

@[simp] theorem forAll_out_staged {α : Type} (l : List α) (f : α → State → State) (s : State)
    (h : ∀ a t, (f a t).out.staged = t.out.staged) : (forAll l f s).out.staged = s.out.staged := by
  induction l generalizing s with
  | nil => rfl
  | cons a r ih => simpa [forAll, h] using ih (f a s)

@[simp] theorem forAll_hif_i3c {α : Type} (l : List α) (f : α → State → State) (s : State)
    (h : ∀ a t, (f a t).hif.i3c = t.hif.i3c) : (forAll l f s).hif.i3c = s.hif.i3c := by
  induction l generalizing s with
  | nil => rfl
  | cons a r ih => simpa [forAll, h] using ih (f a s)

@[simp] theorem forAll_hif_dynAddr {α : Type} (l : List α) (f : α → State → State) (s : State)
    (h : ∀ a t, (f a t).hif.dynAddr = t.hif.dynAddr) : (forAll l f s).hif.dynAddr = s.hif.dynAddr := by
  induction l generalizing s with
  | nil => rfl
  | cons a r ih => simpa [forAll, h] using ih (f a s)

@[simp] theorem forAll_hif_crcEn {α : Type} (l : List α) (f : α → State → State) (s : State)
    (h : ∀ a t, (f a t).hif.crcEn = t.hif.crcEn) : (forAll l f s).hif.crcEn = s.hif.crcEn := by
  induction l generalizing s with
  | nil => rfl
  | cons a r ih => simpa [forAll, h] using ih (f a s)

@[simp] theorem forAll_hif_txn {α : Type} (l : List α) (f : α → State → State) (s : State)
    (h : ∀ a t, (f a t).hif.txn = t.hif.txn) : (forAll l f s).hif.txn = s.hif.txn := by
  induction l generalizing s with
  | nil => rfl
  | cons a r ih => simpa [forAll, h] using ih (f a s)

@[simp] theorem forAll_hif_reply {α : Type} (l : List α) (f : α → State → State) (s : State)
    (h : ∀ a t, (f a t).hif.reply = t.hif.reply) : (forAll l f s).hif.reply = s.hif.reply := by
  induction l generalizing s with
  | nil => rfl
  | cons a r ih => simpa [forAll, h] using ih (f a s)

@[simp] theorem forAll_nv_pages {α : Type} (l : List α) (f : α → State → State) (s : State)
    (h : ∀ a t, (f a t).nv.pages = t.nv.pages) : (forAll l f s).nv.pages = s.nv.pages := by
  induction l generalizing s with
  | nil => rfl
  | cons a r ih => simpa [forAll, h] using ih (f a s)

@[simp] theorem forAll_nv_op {α : Type} (l : List α) (f : α → State → State) (s : State)
    (h : ∀ a t, (f a t).nv.op = t.nv.op) : (forAll l f s).nv.op = s.nv.op := by
  induction l generalizing s with
  | nil => rfl
  | cons a r ih => simpa [forAll, h] using ih (f a s)

@[simp] theorem forAll_nv_running {α : Type} (l : List α) (f : α → State → State) (s : State)
    (h : ∀ a t, (f a t).nv.running = t.nv.running) : (forAll l f s).nv.running = s.nv.running := by
  induction l generalizing s with
  | nil => rfl
  | cons a r ih => simpa [forAll, h] using ih (f a s)

@[simp] theorem forAll_nv_suspend {α : Type} (l : List α) (f : α → State → State) (s : State)
    (h : ∀ a t, (f a t).nv.suspend = t.nv.suspend) : (forAll l f s).nv.suspend = s.nv.suspend := by
  induction l generalizing s with
  | nil => rfl
  | cons a r ih => simpa [forAll, h] using ih (f a s)

@[simp] theorem forAll_nv_todo {α : Type} (l : List α) (f : α → State → State) (s : State)
    (h : ∀ a t, (f a t).nv.todo = t.nv.todo) : (forAll l f s).nv.todo = s.nv.todo := by
  induction l generalizing s with
  | nil => rfl
  | cons a r ih => simpa [forAll, h] using ih (f a s)

@[simp] theorem forAll_disc_en {α : Type} (l : List α) (f : α → State → State) (s : State)
    (h : ∀ a t, (f a t).disc.en = t.disc.en) : (forAll l f s).disc.en = s.disc.en := by
  induction l generalizing s with
  | nil => rfl
  | cons a r ih => simpa [forAll, h] using ih (f a s)

@[simp] theorem forAll_cal_map {α : Type} (l : List α) (f : α → State → State) (s : State)
    (h : ∀ a t, (f a t).cal.map = t.cal.map) : (forAll l f s).cal.map = s.cal.map := by
  induction l generalizing s with
  | nil => rfl
  | cons a r ih => simpa [forAll, h] using ih (f a s)

@[simp] theorem forAll_cal_quality {α : Type} (l : List α) (f : α → State → State) (s : State)
    (h : ∀ a t, (f a t).cal.quality = t.cal.quality) : (forAll l f s).cal.quality = s.cal.quality := by
  induction l generalizing s with
  | nil => rfl
  | cons a r ih => simpa [forAll, h] using ih (f a s)

@[simp] theorem forAll_cal_modTrim {α : Type} (l : List α) (f : α → State → State) (s : State)
    (h : ∀ a t, (f a t).cal.modTrim = t.cal.modTrim) : (forAll l f s).cal.modTrim = s.cal.modTrim := by
  induction l generalizing s with
  | nil => rfl
  | cons a r ih => simpa [forAll, h] using ih (f a s)

@[simp] theorem forAll_cal_evtTrim {α : Type} (l : List α) (f : α → State → State) (s : State)
    (h : ∀ a t, (f a t).cal.evtTrim = t.cal.evtTrim) : (forAll l f s).cal.evtTrim = s.cal.evtTrim := by
  induction l generalizing s with
  | nil => rfl
  | cons a r ih => simpa [forAll, h] using ih (f a s)

@[simp] theorem forAll_cal_calibrated {α : Type} (l : List α) (f : α → State → State) (s : State)
    (h : ∀ a t, (f a t).cal.calibrated = t.cal.calibrated) : (forAll l f s).cal.calibrated = s.cal.calibrated := by
  induction l generalizing s with
  | nil => rfl
  | cons a r ih => simpa [forAll, h] using ih (f a s)

@[simp] theorem forAll_evt_mask {α : Type} (l : List α) (f : α → State → State) (s : State)
    (h : ∀ a t, (f a t).evt.mask = t.evt.mask) : (forAll l f s).evt.mask = s.evt.mask := by
  induction l generalizing s with
  | nil => rfl
  | cons a r ih => simpa [forAll, h] using ih (f a s)

@[simp] theorem forAll_evt_copy {α : Type} (l : List α) (f : α → State → State) (s : State)
    (h : ∀ a t, (f a t).evt.copy = t.evt.copy) : (forAll l f s).evt.copy = s.evt.copy := by
  induction l generalizing s with
  | nil => rfl
  | cons a r ih => simpa [forAll, h] using ih (f a s)

@[simp] theorem raiseIf_inner (c : Bool) (n : Nat) (s : State) :
    (raiseIf c n s).evt.mask = s.evt.mask ∧ (raiseIf c n s).evt.copy = s.evt.copy := by
  simp only [raiseIf, when]
  repeat' split
  all_goals simp

@[simp] theorem raise_inner (n : Nat) (s : State) :
    (raise n s).evt.mask = s.evt.mask ∧ (raise n s).evt.copy = s.evt.copy := by
  simp only [raise, when]
  repeat' split
  all_goals simp

theorem setCause_inner (b : BitVec 11) (s : State) :
    (setCause b s).sys.phase = s.sys.phase ∧ (setCause b s).sys.cfgState = s.sys.cfgState ∧
    (setCause b s).sys.x32Run = s.sys.x32Run ∧ (setCause b s).sys.measRst = s.sys.measRst ∧
    (setCause b s).sys.earlyWr = s.sys.earlyWr ∧ (setCause b s).sys.lostCmds = s.sys.lostCmds ∧
    (setCause b s).sys.pstate = s.sys.pstate := by
  simp only [setCause, when]
  repeat' split
  all_goals simp

theorem raiseAll_inner (ns : List Nat) (s : State) :
    (raiseAll ns s).evt.mask = s.evt.mask ∧ (raiseAll ns s).evt.copy = s.evt.copy := by
  simp only [raiseAll, when]
  repeat' split
  all_goals simp

theorem trimServed_inner (s : State) :
    (trimServed s).hif.i3c = s.hif.i3c ∧ (trimServed s).hif.dynAddr = s.hif.dynAddr ∧
    (trimServed s).hif.crcEn = s.hif.crcEn ∧ (trimServed s).hif.txn = s.hif.txn ∧
    (trimServed s).hif.reply = s.hif.reply := by
  simp only [trimServed, when]
  repeat' split
  all_goals simp

theorem hifFlag_inner (bit : Nat) (addr : BitVec 16) (s : State) :
    (hifFlag bit addr s).hif.i3c = s.hif.i3c ∧ (hifFlag bit addr s).hif.dynAddr = s.hif.dynAddr ∧
    (hifFlag bit addr s).hif.crcEn = s.hif.crcEn ∧ (hifFlag bit addr s).hif.txn = s.hif.txn ∧
    (hifFlag bit addr s).hif.reply = s.hif.reply := by
  simp only [hifFlag, when]
  repeat' split
  all_goals simp

theorem logRecord_inner (source : Nat) (stamp : Stamp) (detail : Word) (fl : LogFlags) (s : State) :
    (logRecord source stamp detail fl s).evin.incfg = s.evin.incfg ∧
    (logRecord source stamp detail fl s).evin.level = s.evin.level ∧
    (logRecord source stamp detail fl s).evin.syncLevel = s.evin.syncLevel ∧
    (logRecord source stamp detail fl s).evt.mask = s.evt.mask ∧
    (logRecord source stamp detail fl s).evt.copy = s.evt.copy := by
  have k0 := @logPass_frame
  simp only [logRecord, when]
  repeat' split
  all_goals simp [k0]

theorem openRecs_inner (q : Option Nat) (s : State) :
    (openRecs q s).evin.incfg = s.evin.incfg ∧ (openRecs q s).evin.level = s.evin.level ∧
    (openRecs q s).evin.syncLevel = s.evin.syncLevel := by
  simp only [openRecs, when]
  repeat' split
  all_goals simp

theorem resultRecord_inner (ch : BitVec 5) (stamp : Stamp) (value : Word) (flags : BitVec 16) (latest : Bool) (s : State) :
    (resultRecord ch stamp value flags latest s).evt.mask = s.evt.mask ∧
    (resultRecord ch stamp value flags latest s).evt.copy = s.evt.copy := by
  simp only [resultRecord, when]
  repeat' split
  all_goals simp

@[simp] theorem serve_inner (s : State) :
    (serve s).cond.arg0 = s.cond.arg0 ∧ (serve s).cond.arg1 = s.cond.arg1 ∧ (serve s).cond.arg2 = s.cond.arg2 ∧
    (serve s).cond.queue = s.cond.queue ∧ (serve s).cond.running = s.cond.running ∧
    (serve s).cond.head = s.cond.head ∧ (serve s).cond.seq = s.cond.seq ∧ (serve s).cond.tail = s.cond.tail ∧
    (serve s).cond.switches = s.cond.switches ∧ (serve s).cond.inReset = s.cond.inReset := by
  simp only [serve, when]
  repeat' split
  all_goals simp

@[simp] theorem cplRecord_inner (op : Nat) (auto direct : Bool) (reason : Nat) (tag : Byte) (detail : Word) (s : State) :
    (cplRecord op auto direct reason tag detail s).cond.arg0 = s.cond.arg0 ∧
    (cplRecord op auto direct reason tag detail s).cond.arg1 = s.cond.arg1 ∧
    (cplRecord op auto direct reason tag detail s).cond.arg2 = s.cond.arg2 ∧
    (cplRecord op auto direct reason tag detail s).cond.queue = s.cond.queue ∧
    (cplRecord op auto direct reason tag detail s).cond.running = s.cond.running ∧
    (cplRecord op auto direct reason tag detail s).cond.tail = s.cond.tail ∧
    (cplRecord op auto direct reason tag detail s).cond.switches = s.cond.switches ∧
    (cplRecord op auto direct reason tag detail s).cond.inReset = s.cond.inReset ∧
    (cplRecord op auto direct reason tag detail s).evt.mask = s.evt.mask ∧
    (cplRecord op auto direct reason tag detail s).evt.copy = s.evt.copy := by
  simp only [cplRecord, when]
  repeat' split
  all_goals simp

theorem enterHfrc_inner (s : State) :
    (enterHfrc s).out.code = s.out.code ∧ (enterHfrc s).out.cfg = s.out.cfg ∧ (enterHfrc s).out.gen = s.out.gen ∧
    (enterHfrc s).out.span = s.out.span ∧ (enterHfrc s).out.staged = s.out.staged := by
  simp only [enterHfrc, when]
  repeat' split
  all_goals simp

theorem foldHfrc_inner (s : State) :
    (foldHfrc s).out.code = s.out.code ∧ (foldHfrc s).out.cfg = s.out.cfg ∧ (foldHfrc s).out.gen = s.out.gen ∧
    (foldHfrc s).out.span = s.out.span ∧ (foldHfrc s).out.staged = s.out.staged := by
  simp only [foldHfrc, when]
  repeat' split
  all_goals simp

theorem hfrcTick_inner (s : State) :
    (hfrcTick s).out.code = s.out.code ∧ (hfrcTick s).out.cfg = s.out.cfg ∧ (hfrcTick s).out.gen = s.out.gen ∧
    (hfrcTick s).out.span = s.out.span ∧ (hfrcTick s).out.staged = s.out.staged := by
  simp only [hfrcTick, when]
  repeat' split
  all_goals simp

theorem holdTick_inner (s : State) :
    (holdTick s).out.code = s.out.code ∧ (holdTick s).out.cfg = s.out.cfg ∧ (holdTick s).out.gen = s.out.gen ∧
    (holdTick s).out.span = s.out.span ∧ (holdTick s).out.staged = s.out.staged := by
  simp only [holdTick, when]
  repeat' split
  all_goals simp

theorem genZero_inner (s : State) :
    (genZero s).out.code = s.out.code ∧ (genZero s).out.cfg = s.out.cfg ∧ (genZero s).out.gen = s.out.gen ∧
    (genZero s).out.span = s.out.span ∧ (genZero s).out.staged = s.out.staged := by
  simp only [genZero, when]
  repeat' split
  all_goals simp

theorem leaveHf_inner (s : State) :
    (leaveHf s).out.code = s.out.code ∧ (leaveHf s).out.cfg = s.out.cfg ∧ (leaveHf s).out.gen = s.out.gen ∧
    (leaveHf s).out.span = s.out.span ∧ (leaveHf s).out.staged = s.out.staged := by
  simp only [leaveHf, when]
  repeat' split
  all_goals simp

theorem genSettle_inner (s : State) :
    (genSettle s).out.code = s.out.code ∧ (genSettle s).out.cfg = s.out.cfg ∧ (genSettle s).out.gen = s.out.gen ∧
    (genSettle s).out.span = s.out.span ∧ (genSettle s).out.staged = s.out.staged := by
  have k0 := @enterHfrc_frame
  have k1 := @enterHfrc_inner
  have k2 := @foldHfrc_frame
  have k3 := @foldHfrc_inner
  have k4 := @leaveHf_frame
  have k5 := @leaveHf_inner
  simp only [genSettle, when]
  repeat' split
  all_goals simp [k0, k1, k2, k3, k4, k5]

@[simp] theorem outSettle_inner (s : State) :
    (outSettle s).out.code = s.out.code ∧ (outSettle s).out.cfg = s.out.cfg ∧ (outSettle s).out.gen = s.out.gen ∧
    (outSettle s).out.span = s.out.span ∧ (outSettle s).out.staged = s.out.staged := by
  have k0 := @genSettle_frame
  have k1 := @genSettle_inner
  simp only [outSettle, when]
  repeat' split
  all_goals simp [k0, k1]

theorem applyAt_inner (q : Option Nat) (w : Writer) (c : BitVec 16) (s : State) :
    (applyAt q w c s).out.cfg = s.out.cfg ∧ (applyAt q w c s).out.gen = s.out.gen ∧
    (applyAt q w c s).out.span = s.out.span ∧ (applyAt q w c s).out.staged = s.out.staged := by
  simp only [applyAt, when]
  repeat' split
  all_goals simp

theorem applyCode_inner (w : Writer) (c : BitVec 16) (s : State) :
    (applyCode w c s).out.cfg = s.out.cfg ∧ (applyCode w c s).out.gen = s.out.gen ∧
    (applyCode w c s).out.span = s.out.span ∧ (applyCode w c s).out.staged = s.out.staged := by
  have k0 := @applyAt_frame
  have k1 := @applyAt_inner
  simp only [applyCode, when]
  repeat' split
  all_goals simp [k0, k1]

@[simp] theorem newWriter_inner (s : State) :
    (newWriter s).out.code = s.out.code ∧ (newWriter s).out.cfg = s.out.cfg ∧ (newWriter s).out.gen = s.out.gen ∧
    (newWriter s).out.span = s.out.span ∧ (newWriter s).out.staged = s.out.staged := by
  simp only [newWriter, when]
  repeat' split
  all_goals simp

theorem faultCode_inner (s : State) :
    (faultCode s).out.cfg = s.out.cfg ∧ (faultCode s).out.gen = s.out.gen ∧ (faultCode s).out.span = s.out.span ∧
    (faultCode s).out.staged = s.out.staged := by
  have k0 := @applyCode_frame
  have k1 := @applyCode_inner
  simp only [faultCode, when]
  repeat' split
  all_goals simp [k0, k1]

theorem haltFault_inner (s : State) :
    (haltFault s).out.cfg = s.out.cfg ∧ (haltFault s).out.gen = s.out.gen ∧ (haltFault s).out.span = s.out.span ∧
    (haltFault s).out.staged = s.out.staged := by
  have k0 := @faultCode_frame
  have k1 := @faultCode_inner
  simp only [haltFault, when]
  repeat' split
  all_goals simp [k0, k1]

theorem aoutFailed_inner (s : State) :
    (aoutFailed s).out.cfg = s.out.cfg ∧ (aoutFailed s).out.gen = s.out.gen ∧ (aoutFailed s).out.span = s.out.span ∧
    (aoutFailed s).out.staged = s.out.staged := by
  have k0 := @faultCode_frame
  have k1 := @faultCode_inner
  simp only [aoutFailed, when]
  repeat' split
  all_goals simp [k0, k1]

theorem applyDue_inner (s : State) :
    (applyDue s).out.cfg = s.out.cfg ∧ (applyDue s).out.gen = s.out.gen ∧ (applyDue s).out.span = s.out.span ∧
    (applyDue s).out.staged = s.out.staged := by
  have k0 := @applyAt_frame
  have k1 := @applyAt_inner
  simp only [applyDue, when]
  repeat' split
  all_goals simp [k0, k1]

theorem dueBy_inner (n : Nat) (s : State) :
    (dueBy n s).out.cfg = s.out.cfg ∧ (dueBy n s).out.gen = s.out.gen ∧ (dueBy n s).out.span = s.out.span ∧
    (dueBy n s).out.staged = s.out.staged := by
  have k0 := @applyDue_frame
  have k1 := @applyDue_inner
  simp only [dueBy, when]
  repeat' split
  all_goals simp [k0, k1]

theorem aoutSet_inner (n : Nat) (d : Int) (flags : BitVec 16) (s : State) :
    (aoutSet n d flags s).out.code = s.out.code ∧ (aoutSet n d flags s).out.cfg = s.out.cfg ∧
    (aoutSet n d flags s).out.gen = s.out.gen ∧ (aoutSet n d flags s).out.span = s.out.span ∧
    (aoutSet n d flags s).out.staged = s.out.staged := by
  simp only [aoutSet, when]
  repeat' split
  all_goals simp

theorem aoutOk_inner (s : State) :
    (aoutOk s).out.cfg = s.out.cfg ∧ (aoutOk s).out.gen = s.out.gen ∧ (aoutOk s).out.span = s.out.span ∧
    (aoutOk s).out.staged = s.out.staged := by
  have k0 := @applyDue_frame
  have k1 := @applyDue_inner
  simp only [aoutOk, when]
  repeat' split
  all_goals simp [k0, k1]

theorem setAoutCfg_inner (w : Word) (s : State) :
    (setAoutCfg w s).out.code = s.out.code ∧ (setAoutCfg w s).out.gen = s.out.gen ∧
    (setAoutCfg w s).out.span = s.out.span ∧ (setAoutCfg w s).out.staged = s.out.staged := by
  simp only [setAoutCfg, when]
  repeat' split
  all_goals simp

theorem spanEdge_inner (s : State) :
    (spanEdge s).out.code = s.out.code ∧ (spanEdge s).out.cfg = s.out.cfg ∧ (spanEdge s).out.gen = s.out.gen ∧
    (spanEdge s).out.staged = s.out.staged := by
  simp only [spanEdge, when]
  repeat' split
  all_goals simp

theorem restartGen_inner (w : Word) (s : State) :
    (restartGen w s).out.code = s.out.code ∧ (restartGen w s).out.cfg = s.out.cfg ∧
    (restartGen w s).out.span = s.out.span ∧ (restartGen w s).out.staged = s.out.staged := by
  have k0 := @genZero_frame
  have k1 := @genZero_inner
  simp only [restartGen, when]
  repeat' split
  all_goals simp [k0, k1]

theorem applyStage_inner (f : Frame) (c : Carriage) (s : State) :
    (applyStage f c s).afe.ctl = s.afe.ctl ∧ (applyStage f c s).afe.eff = s.afe.eff ∧
    (applyStage f c s).afe.diag = s.afe.diag := by
  simp only [applyStage, when]
  repeat' split
  all_goals simp

theorem applyStages_inner (lo hi : Nat) (f : Frame) (s : State) :
    (applyStages lo hi f s).afe.ctl = s.afe.ctl ∧ (applyStages lo hi f s).afe.eff = s.afe.eff ∧
    (applyStages lo hi f s).afe.diag = s.afe.diag := by
  have k0 := @applyStage_frame
  have k1 := @applyStage_inner
  simp only [applyStages, when]
  repeat' split
  all_goals simp [k0, k1]

theorem latchFrame_inner (n : Nat) (s : State) :
    (latchFrame n s).tt.ctl = s.tt.ctl ∧ (latchFrame n s).tt.instA = s.tt.instA ∧
    (latchFrame n s).tt.instB = s.tt.instB ∧ (latchFrame n s).tt.active = s.tt.active ∧
    (latchFrame n s).tt.activeValid = s.tt.activeValid ∧ (latchFrame n s).tt.startSec = s.tt.startSec ∧
    (latchFrame n s).tt.startFrac = s.tt.startFrac ∧ (latchFrame n s).tt.swPend = s.tt.swPend ∧
    (latchFrame n s).tt.protHit = s.tt.protHit ∧ (latchFrame n s).afe.ctl = s.afe.ctl ∧
    (latchFrame n s).afe.eff = s.afe.eff ∧ (latchFrame n s).afe.diag = s.afe.diag := by
  have k0 := @applyStages_frame
  have k1 := @applyStages_inner
  simp only [latchFrame, when]
  repeat' split
  all_goals simp [k0, k1]

@[simp] theorem setPair_inner (p : Bool) (x : Pair) (s : State) :
    (setPair p x s).afe.ctl = s.afe.ctl ∧ (setPair p x s).afe.eff = s.afe.eff ∧
    (setPair p x s).afe.diag = s.afe.diag := by
  simp only [setPair, when]
  repeat' split
  all_goals simp

theorem discExcites_inner (s : State) :
    (discExcites s).afe.ctl = s.afe.ctl ∧ (discExcites s).afe.eff = s.afe.eff ∧
    (discExcites s).afe.diag = s.afe.diag := by
  simp only [discExcites, when]
  repeat' split
  all_goals simp

@[simp] theorem advance_inner (n : Nat) (s : State) :
    (advance n s).tt.ctl = s.tt.ctl ∧ (advance n s).tt.instA = s.tt.instA ∧ (advance n s).tt.instB = s.tt.instB ∧
    (advance n s).tt.active = s.tt.active ∧ (advance n s).tt.activeValid = s.tt.activeValid ∧
    (advance n s).tt.startSec = s.tt.startSec ∧ (advance n s).tt.startFrac = s.tt.startFrac ∧
    (advance n s).tt.swPend = s.tt.swPend ∧ (advance n s).tt.protHit = s.tt.protHit ∧
    (advance n s).clk.src = s.clk.src ∧ (advance n s).clk.limits = s.clk.limits ∧
    (advance n s).clk.spread = s.clk.spread ∧ (advance n s).clk.active = s.clk.active ∧
    (advance n s).clk.plans = s.clk.plans ∧ (advance n s).clk.bypass = s.clk.bypass ∧
    (advance n s).clk.drift = s.clk.drift ∧ (advance n s).clk.q = s.clk.q ∧ (advance n s).afe.ctl = s.afe.ctl ∧
    (advance n s).afe.eff = s.afe.eff ∧ (advance n s).afe.diag = s.afe.diag ∧ (advance n s).out.cfg = s.out.cfg ∧
    (advance n s).out.gen = s.out.gen ∧ (advance n s).out.span = s.out.span ∧
    (advance n s).out.staged = s.out.staged := by
  have k0 := @discExcites_frame
  have k1 := @discExcites_inner
  have k2 := @dueBy_frame
  have k3 := @dueBy_inner
  have k4 := @latchFrame_frame
  have k5 := @latchFrame_inner
  simp only [advance, when]
  repeat' split
  all_goals simp [k0, k1, k2, k3, k4, k5]

theorem holdSeal_inner (c : BitVec 5) (s : State) :
    (holdSeal c s).tt.ctl = s.tt.ctl ∧ (holdSeal c s).tt.instA = s.tt.instA ∧ (holdSeal c s).tt.instB = s.tt.instB ∧
    (holdSeal c s).tt.active = s.tt.active ∧ (holdSeal c s).tt.activeValid = s.tt.activeValid ∧
    (holdSeal c s).tt.startSec = s.tt.startSec ∧ (holdSeal c s).tt.startFrac = s.tt.startFrac ∧
    (holdSeal c s).tt.swPend = s.tt.swPend ∧ (holdSeal c s).tt.protHit = s.tt.protHit := by
  simp only [holdSeal, when]
  repeat' split
  all_goals simp

theorem sealInFrame_inner (c : BitVec 5) (old : List Byte) (f : Frame) (s : State) :
    (sealInFrame c old f s).tt.ctl = s.tt.ctl ∧ (sealInFrame c old f s).tt.instA = s.tt.instA ∧
    (sealInFrame c old f s).tt.instB = s.tt.instB ∧ (sealInFrame c old f s).tt.active = s.tt.active ∧
    (sealInFrame c old f s).tt.activeValid = s.tt.activeValid ∧ (sealInFrame c old f s).tt.startSec = s.tt.startSec ∧
    (sealInFrame c old f s).tt.startFrac = s.tt.startFrac ∧ (sealInFrame c old f s).tt.swPend = s.tt.swPend ∧
    (sealInFrame c old f s).tt.protHit = s.tt.protHit ∧ (sealInFrame c old f s).evt.mask = s.evt.mask ∧
    (sealInFrame c old f s).evt.copy = s.evt.copy := by
  simp only [sealInFrame, when]
  repeat' split
  all_goals simp

theorem sealChannel_inner (c : BitVec 5) (s : State) :
    (sealChannel c s).tt.ctl = s.tt.ctl ∧ (sealChannel c s).tt.instA = s.tt.instA ∧
    (sealChannel c s).tt.instB = s.tt.instB ∧ (sealChannel c s).tt.active = s.tt.active ∧
    (sealChannel c s).tt.activeValid = s.tt.activeValid ∧ (sealChannel c s).tt.startSec = s.tt.startSec ∧
    (sealChannel c s).tt.startFrac = s.tt.startFrac ∧ (sealChannel c s).tt.swPend = s.tt.swPend ∧
    (sealChannel c s).tt.protHit = s.tt.protHit ∧ (sealChannel c s).afe.ctl = s.afe.ctl ∧
    (sealChannel c s).afe.eff = s.afe.eff ∧ (sealChannel c s).afe.diag = s.afe.diag ∧
    (sealChannel c s).evt.mask = s.evt.mask ∧ (sealChannel c s).evt.copy = s.evt.copy := by
  have k0 := @holdSeal_frame
  have k1 := @holdSeal_inner
  have k2 := @latchFrame_frame
  have k3 := @latchFrame_inner
  have k4 := @sealInFrame_frame
  have k5 := @sealInFrame_inner
  simp only [sealChannel, when]
  repeat' split
  all_goals simp [k0, k1, k2, k3, k4, k5]

theorem fetch_inner (chs : List (BitVec 5)) (s : State) :
    (fetch chs s).ros.sealed = s.ros.sealed := by
  simp only [fetch, when]
  repeat' split
  all_goals simp

theorem releasePairs_inner (s : State) :
    (releasePairs s).afe.ctl = s.afe.ctl ∧ (releasePairs s).afe.eff = s.afe.eff ∧
    (releasePairs s).afe.diag = s.afe.diag := by
  simp only [releasePairs, when]
  repeat' split
  all_goals simp

theorem allPairsOff_inner (s : State) :
    (allPairsOff s).afe.ctl = s.afe.ctl ∧ (allPairsOff s).afe.eff = s.afe.eff ∧
    (allPairsOff s).afe.diag = s.afe.diag := by
  simp only [allPairsOff, when]
  repeat' split
  all_goals simp

theorem withdrawPresettles_inner (s : State) :
    (withdrawPresettles s).afe.ctl = s.afe.ctl ∧ (withdrawPresettles s).afe.eff = s.afe.eff ∧
    (withdrawPresettles s).afe.diag = s.afe.diag := by
  simp only [withdrawPresettles, when]
  repeat' split
  all_goals simp

theorem afeFrameStart_inner (s : State) :
    (afeFrameStart s).afe.ctl = s.afe.ctl ∧ (afeFrameStart s).afe.diag = s.afe.diag := by
  simp only [afeFrameStart, when]
  repeat' split
  all_goals simp

theorem diagBits_inner (b : Nat) (s : State) :
    (diagBits b s).afe.ctl = s.afe.ctl ∧ (diagBits b s).afe.eff = s.afe.eff := by
  simp only [diagBits, when]
  repeat' split
  all_goals simp

theorem diagPort_inner (bit k : Nat) (s : State) :
    (diagPort bit k s).afe.ctl = s.afe.ctl ∧ (diagPort bit k s).afe.eff = s.afe.eff ∧
    (diagPort bit k s).evt.mask = s.evt.mask ∧ (diagPort bit k s).evt.copy = s.evt.copy := by
  have k0 := @diagBits_frame
  have k1 := @diagBits_inner
  simp only [diagPort, when]
  repeat' split
  all_goals simp [k0, k1]

theorem diagOver_inner (k : Nat) (s : State) :
    (diagOver k s).afe.ctl = s.afe.ctl ∧ (diagOver k s).afe.eff = s.afe.eff ∧ (diagOver k s).evt.mask = s.evt.mask ∧
    (diagOver k s).evt.copy = s.evt.copy := by
  have k0 := @diagBits_frame
  have k1 := @diagBits_inner
  simp only [diagOver, when]
  repeat' split
  all_goals simp [k0, k1]

theorem diagPair_inner (bit : Nat) (p : Bool) (s : State) :
    (diagPair bit p s).afe.ctl = s.afe.ctl ∧ (diagPair bit p s).afe.eff = s.afe.eff ∧
    (diagPair bit p s).evt.mask = s.evt.mask ∧ (diagPair bit p s).evt.copy = s.evt.copy := by
  have k0 := @diagBits_frame
  have k1 := @diagBits_inner
  simp only [diagPair, when]
  repeat' split
  all_goals simp [k0, k1]

theorem classifyLeak_inner (p : Bool) (v : Int) (s : State) :
    (classifyLeak p v s).afe.ctl = s.afe.ctl ∧ (classifyLeak p v s).afe.eff = s.afe.eff ∧
    (classifyLeak p v s).evt.mask = s.evt.mask ∧ (classifyLeak p v s).evt.copy = s.evt.copy := by
  have k0 := @diagPair_frame
  have k1 := @diagPair_inner
  simp only [classifyLeak, when]
  repeat' split
  all_goals simp [k0, k1]

theorem classifyArm_inner (k : Nat) (zp zn : Nat) (s : State) :
    (classifyArm k zp zn s).afe.ctl = s.afe.ctl ∧ (classifyArm k zp zn s).afe.eff = s.afe.eff ∧
    (classifyArm k zp zn s).evt.mask = s.evt.mask ∧ (classifyArm k zp zn s).evt.copy = s.evt.copy := by
  have k0 := @diagPort_frame
  have k1 := @diagPort_inner
  simp only [classifyArm, when]
  repeat' split
  all_goals simp [k0, k1]

@[simp] theorem setPort_inner (k : Nat) (p : Port) (s : State) :
    (setPort k p s).disc.en = s.disc.en := by
  simp only [setPort, when]
  repeat' split
  all_goals simp

@[simp] theorem wakeMain_inner (s : State) :
    (wakeMain s).sys.phase = s.sys.phase ∧ (wakeMain s).sys.cause = s.sys.cause ∧
    (wakeMain s).sys.cfgState = s.sys.cfgState ∧ (wakeMain s).sys.x32Run = s.sys.x32Run ∧
    (wakeMain s).sys.measRst = s.sys.measRst ∧ (wakeMain s).sys.earlyWr = s.sys.earlyWr ∧
    (wakeMain s).sys.lostCmds = s.sys.lostCmds ∧ (wakeMain s).out.code = s.out.code ∧
    (wakeMain s).out.cfg = s.out.cfg ∧ (wakeMain s).out.gen = s.out.gen ∧ (wakeMain s).out.span = s.out.span ∧
    (wakeMain s).out.staged = s.out.staged := by
  simp only [wakeMain, when]
  repeat' split
  all_goals simp

theorem ldgAdd_inner (a : Nat) (d : Int) (flags : BitVec 16) (s : State) :
    (ldgAdd a d flags s).ldg.ctl = s.ldg.ctl ∧ (ldgAdd a d flags s).ldg.lap = s.ldg.lap := by
  simp only [ldgAdd, when]
  repeat' split
  all_goals simp

theorem ldgNew_inner (q : Option Nat) (r : LdgReq) (stamp : Stamp) (s : State) :
    (ldgNew q r stamp s).sys.phase = s.sys.phase ∧ (ldgNew q r stamp s).sys.cause = s.sys.cause ∧
    (ldgNew q r stamp s).sys.cfgState = s.sys.cfgState ∧ (ldgNew q r stamp s).sys.x32Run = s.sys.x32Run ∧
    (ldgNew q r stamp s).sys.measRst = s.sys.measRst ∧ (ldgNew q r stamp s).sys.earlyWr = s.sys.earlyWr ∧
    (ldgNew q r stamp s).sys.lostCmds = s.sys.lostCmds ∧ (ldgNew q r stamp s).out.code = s.out.code ∧
    (ldgNew q r stamp s).out.cfg = s.out.cfg ∧ (ldgNew q r stamp s).out.gen = s.out.gen ∧
    (ldgNew q r stamp s).out.span = s.out.span ∧ (ldgNew q r stamp s).out.staged = s.out.staged ∧
    (ldgNew q r stamp s).evt.mask = s.evt.mask ∧ (ldgNew q r stamp s).evt.copy = s.evt.copy := by
  simp only [ldgNew, when]
  repeat' split
  all_goals simp

theorem ldgRewrite_inner (x : LdgInst) (s : State) :
    (ldgRewrite x s).nv.pages = s.nv.pages ∧ (ldgRewrite x s).nv.running = s.nv.running ∧
    (ldgRewrite x s).nv.suspend = s.nv.suspend ∧ (ldgRewrite x s).nv.todo = s.nv.todo := by
  simp only [ldgRewrite, when]
  repeat' split
  all_goals simp

theorem ldgJoin_inner (x : LdgInst) (r : LdgReq) (s : State) :
    (ldgJoin x r s).sys.phase = s.sys.phase ∧ (ldgJoin x r s).sys.cause = s.sys.cause ∧
    (ldgJoin x r s).sys.cfgState = s.sys.cfgState ∧ (ldgJoin x r s).sys.x32Run = s.sys.x32Run ∧
    (ldgJoin x r s).sys.measRst = s.sys.measRst ∧ (ldgJoin x r s).sys.earlyWr = s.sys.earlyWr ∧
    (ldgJoin x r s).sys.lostCmds = s.sys.lostCmds ∧ (ldgJoin x r s).out.code = s.out.code ∧
    (ldgJoin x r s).out.cfg = s.out.cfg ∧ (ldgJoin x r s).out.gen = s.out.gen ∧
    (ldgJoin x r s).out.span = s.out.span ∧ (ldgJoin x r s).out.staged = s.out.staged ∧
    (ldgJoin x r s).nv.pages = s.nv.pages ∧ (ldgJoin x r s).nv.running = s.nv.running ∧
    (ldgJoin x r s).nv.suspend = s.nv.suspend ∧ (ldgJoin x r s).nv.todo = s.nv.todo ∧
    (ldgJoin x r s).evt.mask = s.evt.mask ∧ (ldgJoin x r s).evt.copy = s.evt.copy := by
  have k0 := @ldgRewrite_frame
  have k1 := @ldgRewrite_inner
  simp only [ldgJoin, when]
  repeat' split
  all_goals simp [k0, k1]

theorem ldgInstant_inner (q : Option Nat) (r : LdgReq) (stamp : Stamp) (s : State) :
    (ldgInstant q r stamp s).sys.phase = s.sys.phase ∧ (ldgInstant q r stamp s).sys.cause = s.sys.cause ∧
    (ldgInstant q r stamp s).sys.cfgState = s.sys.cfgState ∧ (ldgInstant q r stamp s).sys.x32Run = s.sys.x32Run ∧
    (ldgInstant q r stamp s).sys.measRst = s.sys.measRst ∧ (ldgInstant q r stamp s).sys.earlyWr = s.sys.earlyWr ∧
    (ldgInstant q r stamp s).sys.lostCmds = s.sys.lostCmds ∧ (ldgInstant q r stamp s).out.code = s.out.code ∧
    (ldgInstant q r stamp s).out.cfg = s.out.cfg ∧ (ldgInstant q r stamp s).out.gen = s.out.gen ∧
    (ldgInstant q r stamp s).out.span = s.out.span ∧ (ldgInstant q r stamp s).out.staged = s.out.staged ∧
    (ldgInstant q r stamp s).nv.pages = s.nv.pages ∧ (ldgInstant q r stamp s).nv.running = s.nv.running ∧
    (ldgInstant q r stamp s).nv.suspend = s.nv.suspend ∧ (ldgInstant q r stamp s).nv.todo = s.nv.todo ∧
    (ldgInstant q r stamp s).evt.mask = s.evt.mask ∧ (ldgInstant q r stamp s).evt.copy = s.evt.copy := by
  have k0 := @ldgJoin_frame
  have k1 := @ldgJoin_inner
  have k2 := @ldgNew_frame
  have k3 := @ldgNew_inner
  simp only [ldgInstant, when]
  repeat' split
  all_goals simp [k0, k1, k2, k3]

theorem lapRefused_inner (s : State) :
    (lapRefused s).ldg.ctl = s.ldg.ctl ∧ (lapRefused s).ldg.run = s.ldg.run ∧ (lapRefused s).ldg.cnt = s.ldg.cnt ∧
    (lapRefused s).ldg.lap = s.ldg.lap ∧ (lapRefused s).evt.mask = s.evt.mask ∧ (lapRefused s).evt.copy = s.evt.copy := by
  simp only [lapRefused, when]
  repeat' split
  all_goals simp

theorem ldgCmdDone_inner (reason : Nat) (detail : Word) (c : LdgCmd) (s : State) :
    (ldgCmdDone reason detail c s).cond.arg0 = s.cond.arg0 ∧ (ldgCmdDone reason detail c s).cond.arg1 = s.cond.arg1 ∧
    (ldgCmdDone reason detail c s).cond.arg2 = s.cond.arg2 ∧
    (ldgCmdDone reason detail c s).cond.queue = s.cond.queue ∧
    (ldgCmdDone reason detail c s).cond.running = s.cond.running ∧
    (ldgCmdDone reason detail c s).cond.tail = s.cond.tail ∧
    (ldgCmdDone reason detail c s).cond.switches = s.cond.switches ∧
    (ldgCmdDone reason detail c s).cond.inReset = s.cond.inReset ∧
    (ldgCmdDone reason detail c s).evt.mask = s.evt.mask ∧ (ldgCmdDone reason detail c s).evt.copy = s.evt.copy := by
  simp only [ldgCmdDone, when]
  repeat' split
  all_goals simp

theorem ldgTakeCmds_inner (r : LdgReq) (s : State) :
    (ldgTakeCmds r s).2.cond.arg0 = s.cond.arg0 ∧ (ldgTakeCmds r s).2.cond.arg1 = s.cond.arg1 ∧
    (ldgTakeCmds r s).2.cond.arg2 = s.cond.arg2 ∧ (ldgTakeCmds r s).2.cond.queue = s.cond.queue ∧
    (ldgTakeCmds r s).2.cond.running = s.cond.running ∧ (ldgTakeCmds r s).2.cond.tail = s.cond.tail ∧
    (ldgTakeCmds r s).2.cond.switches = s.cond.switches ∧ (ldgTakeCmds r s).2.cond.inReset = s.cond.inReset ∧
    (ldgTakeCmds r s).2.ldg.ctl = s.ldg.ctl ∧ (ldgTakeCmds r s).2.ldg.run = s.ldg.run ∧
    (ldgTakeCmds r s).2.ldg.cnt = s.ldg.cnt ∧ (ldgTakeCmds r s).2.evt.mask = s.evt.mask ∧
    (ldgTakeCmds r s).2.evt.copy = s.evt.copy := by
  have k0 := @lapRefused_frame
  have k1 := @lapRefused_inner
  have k2 := @ldgCmdDone_frame
  have k3 := @ldgCmdDone_inner
  simp only [ldgTakeCmds, when]
  repeat' split
  all_goals simp [k0, k1, k2, k3]

theorem discardQ_inner (s : State) :
    (discardQ s).clk.src = s.clk.src ∧ (discardQ s).clk.limits = s.clk.limits ∧
    (discardQ s).clk.spread = s.clk.spread ∧ (discardQ s).clk.active = s.clk.active ∧
    (discardQ s).clk.plans = s.clk.plans ∧ (discardQ s).clk.bypass = s.clk.bypass ∧
    (discardQ s).clk.drift = s.clk.drift := by
  simp only [discardQ, when]
  repeat' split
  all_goals simp

theorem changeRef_inner (s : State) :
    (changeRef s).clk.src = s.clk.src ∧ (changeRef s).clk.limits = s.clk.limits ∧
    (changeRef s).clk.spread = s.clk.spread ∧ (changeRef s).clk.active = s.clk.active ∧
    (changeRef s).clk.plans = s.clk.plans ∧ (changeRef s).clk.bypass = s.clk.bypass ∧
    (changeRef s).clk.drift = s.clk.drift := by
  have k0 := @discardQ_frame
  have k1 := @discardQ_inner
  simp only [changeRef, when]
  repeat' split
  all_goals simp [k0, k1]

theorem underFallback_inner (a : Acq) (s : State) :
    (underFallback a s).clk.src = s.clk.src ∧ (underFallback a s).clk.limits = s.clk.limits ∧
    (underFallback a s).clk.spread = s.clk.spread ∧ (underFallback a s).clk.active = s.clk.active ∧
    (underFallback a s).clk.plans = s.clk.plans ∧ (underFallback a s).clk.bypass = s.clk.bypass ∧
    (underFallback a s).clk.drift = s.clk.drift := by
  have k0 := @changeRef_frame
  have k1 := @changeRef_inner
  have k2 := @discardQ_frame
  have k3 := @discardQ_inner
  simp only [underFallback, when]
  repeat' split
  all_goals simp [k0, k1, k2, k3]

theorem dropFast_inner (s : State) :
    (dropFast s).evin.incfg = s.evin.incfg ∧ (dropFast s).evin.level = s.evin.level ∧
    (dropFast s).evin.syncLevel = s.evin.syncLevel := by
  simp only [dropFast, when]
  repeat' split
  all_goals simp

theorem acqBegin_inner (cause : AcqBy) (s : State) :
    (acqBegin cause s).clk.src = s.clk.src ∧ (acqBegin cause s).clk.limits = s.clk.limits ∧
    (acqBegin cause s).clk.spread = s.clk.spread ∧ (acqBegin cause s).clk.active = s.clk.active ∧
    (acqBegin cause s).clk.plans = s.clk.plans ∧ (acqBegin cause s).clk.bypass = s.clk.bypass ∧
    (acqBegin cause s).clk.drift = s.clk.drift := by
  simp only [acqBegin, when]
  repeat' split
  all_goals simp

theorem dropAhead_inner (s : State) :
    (dropAhead s).afe.ctl = s.afe.ctl ∧ (dropAhead s).afe.eff = s.afe.eff ∧ (dropAhead s).afe.diag = s.afe.diag ∧
    (dropAhead s).ros.sealed = s.ros.sealed := by
  simp only [dropAhead, when]
  repeat' split
  all_goals simp

theorem haltOnBypass_inner (s : State) :
    (haltOnBypass s).tt.ctl = s.tt.ctl ∧ (haltOnBypass s).tt.instA = s.tt.instA ∧
    (haltOnBypass s).tt.instB = s.tt.instB ∧ (haltOnBypass s).tt.active = s.tt.active ∧
    (haltOnBypass s).tt.activeValid = s.tt.activeValid ∧ (haltOnBypass s).tt.startSec = s.tt.startSec ∧
    (haltOnBypass s).tt.startFrac = s.tt.startFrac ∧ (haltOnBypass s).tt.swPend = s.tt.swPend ∧
    (haltOnBypass s).tt.protHit = s.tt.protHit := by
  simp only [haltOnBypass, when]
  repeat' split
  all_goals simp

theorem lateTrigger_inner (cause : Nat) (lateness : Nat) (fl : LogFlags) (g : Nat × Stamp) (s : State) :
    (lateTrigger cause lateness fl g s).evin.incfg = s.evin.incfg ∧
    (lateTrigger cause lateness fl g s).evin.level = s.evin.level ∧
    (lateTrigger cause lateness fl g s).evin.syncLevel = s.evin.syncLevel ∧
    (lateTrigger cause lateness fl g s).evt.mask = s.evt.mask ∧
    (lateTrigger cause lateness fl g s).evt.copy = s.evt.copy := by
  have k0 := @logRecord_frame
  have k1 := @logRecord_inner
  simp only [lateTrigger, when]
  repeat' split
  all_goals simp [k0, k1]

theorem dropAwait_inner (s : State) :
    (dropAwait s).evin.incfg = s.evin.incfg ∧ (dropAwait s).evin.level = s.evin.level ∧
    (dropAwait s).evin.syncLevel = s.evin.syncLevel ∧ (dropAwait s).tt.ctl = s.tt.ctl ∧
    (dropAwait s).tt.instA = s.tt.instA ∧ (dropAwait s).tt.instB = s.tt.instB ∧
    (dropAwait s).tt.active = s.tt.active ∧ (dropAwait s).tt.activeValid = s.tt.activeValid ∧
    (dropAwait s).tt.startSec = s.tt.startSec ∧ (dropAwait s).tt.startFrac = s.tt.startFrac ∧
    (dropAwait s).tt.swPend = s.tt.swPend ∧ (dropAwait s).tt.protHit = s.tt.protHit ∧
    (dropAwait s).evt.mask = s.evt.mask ∧ (dropAwait s).evt.copy = s.evt.copy := by
  have k0 := @lateTrigger_frame
  have k1 := @lateTrigger_inner
  simp only [dropAwait, when]
  repeat' split
  all_goals simp [k0, k1]

theorem dropQueued_inner (s : State) :
    (dropQueued s).evin.incfg = s.evin.incfg ∧ (dropQueued s).evin.level = s.evin.level ∧
    (dropQueued s).evin.syncLevel = s.evin.syncLevel ∧ (dropQueued s).tt.ctl = s.tt.ctl ∧
    (dropQueued s).tt.instA = s.tt.instA ∧ (dropQueued s).tt.instB = s.tt.instB ∧
    (dropQueued s).tt.active = s.tt.active ∧ (dropQueued s).tt.activeValid = s.tt.activeValid ∧
    (dropQueued s).tt.startSec = s.tt.startSec ∧ (dropQueued s).tt.startFrac = s.tt.startFrac ∧
    (dropQueued s).tt.swPend = s.tt.swPend ∧ (dropQueued s).tt.protHit = s.tt.protHit ∧
    (dropQueued s).evt.mask = s.evt.mask ∧ (dropQueued s).evt.copy = s.evt.copy := by
  have k0 := @lateTrigger_frame
  have k1 := @lateTrigger_inner
  simp only [dropQueued, when]
  repeat' split
  all_goals simp [k0, k1]

theorem acqFailed_inner (err : BitVec 3) (s : State) :
    (acqFailed err s).evin.incfg = s.evin.incfg ∧ (acqFailed err s).evin.level = s.evin.level ∧
    (acqFailed err s).evin.syncLevel = s.evin.syncLevel ∧ (acqFailed err s).tt.ctl = s.tt.ctl ∧
    (acqFailed err s).tt.instA = s.tt.instA ∧ (acqFailed err s).tt.instB = s.tt.instB ∧
    (acqFailed err s).tt.active = s.tt.active ∧ (acqFailed err s).tt.activeValid = s.tt.activeValid ∧
    (acqFailed err s).tt.startSec = s.tt.startSec ∧ (acqFailed err s).tt.startFrac = s.tt.startFrac ∧
    (acqFailed err s).tt.swPend = s.tt.swPend ∧ (acqFailed err s).tt.protHit = s.tt.protHit ∧
    (acqFailed err s).clk.src = s.clk.src ∧ (acqFailed err s).clk.limits = s.clk.limits ∧
    (acqFailed err s).clk.spread = s.clk.spread ∧ (acqFailed err s).clk.active = s.clk.active ∧
    (acqFailed err s).clk.plans = s.clk.plans ∧ (acqFailed err s).clk.drift = s.clk.drift ∧
    (acqFailed err s).afe.ctl = s.afe.ctl ∧ (acqFailed err s).afe.eff = s.afe.eff ∧
    (acqFailed err s).afe.diag = s.afe.diag ∧ (acqFailed err s).ros.sealed = s.ros.sealed ∧
    (acqFailed err s).evt.mask = s.evt.mask ∧ (acqFailed err s).evt.copy = s.evt.copy := by
  have k0 := @changeRef_frame
  have k1 := @changeRef_inner
  have k2 := @dropAhead_frame
  have k3 := @dropAhead_inner
  have k4 := @dropAwait_frame
  have k5 := @dropAwait_inner
  have k6 := @dropFast_frame
  have k7 := @dropFast_inner
  have k8 := @dropQueued_frame
  have k9 := @dropQueued_inner
  have k10 := @haltOnBypass_frame
  have k11 := @haltOnBypass_inner
  simp only [acqFailed, when]
  repeat' split
  all_goals simp [k0, k1, k2, k3, k4, k5, k6, k7, k8, k9, k10, k11]

theorem retry_inner (s : State) :
    (retry s).evin.incfg = s.evin.incfg ∧ (retry s).evin.level = s.evin.level ∧
    (retry s).evin.syncLevel = s.evin.syncLevel ∧ (retry s).tt.ctl = s.tt.ctl ∧ (retry s).tt.instA = s.tt.instA ∧
    (retry s).tt.instB = s.tt.instB ∧ (retry s).tt.active = s.tt.active ∧
    (retry s).tt.activeValid = s.tt.activeValid ∧ (retry s).tt.startSec = s.tt.startSec ∧
    (retry s).tt.startFrac = s.tt.startFrac ∧ (retry s).tt.swPend = s.tt.swPend ∧
    (retry s).tt.protHit = s.tt.protHit ∧ (retry s).clk.src = s.clk.src ∧ (retry s).clk.limits = s.clk.limits ∧
    (retry s).clk.spread = s.clk.spread ∧ (retry s).clk.active = s.clk.active ∧ (retry s).clk.plans = s.clk.plans ∧
    (retry s).clk.drift = s.clk.drift ∧ (retry s).afe.ctl = s.afe.ctl ∧ (retry s).afe.eff = s.afe.eff ∧
    (retry s).afe.diag = s.afe.diag ∧ (retry s).ros.sealed = s.ros.sealed ∧ (retry s).evt.mask = s.evt.mask ∧
    (retry s).evt.copy = s.evt.copy := by
  have k0 := @acqBegin_frame
  have k1 := @acqBegin_inner
  have k2 := @acqFailed_frame
  have k3 := @acqFailed_inner
  simp only [retry, when]
  repeat' split
  all_goals simp [k0, k1, k2, k3]

theorem acqFail_inner (err : BitVec 3) (s : State) :
    (acqFail err s).evin.incfg = s.evin.incfg ∧ (acqFail err s).evin.level = s.evin.level ∧
    (acqFail err s).evin.syncLevel = s.evin.syncLevel ∧ (acqFail err s).tt.ctl = s.tt.ctl ∧
    (acqFail err s).tt.instA = s.tt.instA ∧ (acqFail err s).tt.instB = s.tt.instB ∧
    (acqFail err s).tt.active = s.tt.active ∧ (acqFail err s).tt.activeValid = s.tt.activeValid ∧
    (acqFail err s).tt.startSec = s.tt.startSec ∧ (acqFail err s).tt.startFrac = s.tt.startFrac ∧
    (acqFail err s).tt.swPend = s.tt.swPend ∧ (acqFail err s).tt.protHit = s.tt.protHit ∧
    (acqFail err s).clk.src = s.clk.src ∧ (acqFail err s).clk.limits = s.clk.limits ∧
    (acqFail err s).clk.spread = s.clk.spread ∧ (acqFail err s).clk.active = s.clk.active ∧
    (acqFail err s).clk.plans = s.clk.plans ∧ (acqFail err s).clk.drift = s.clk.drift ∧
    (acqFail err s).afe.ctl = s.afe.ctl ∧ (acqFail err s).afe.eff = s.afe.eff ∧
    (acqFail err s).afe.diag = s.afe.diag ∧ (acqFail err s).ros.sealed = s.ros.sealed ∧
    (acqFail err s).evt.mask = s.evt.mask ∧ (acqFail err s).evt.copy = s.evt.copy := by
  have k0 := @acqFailed_frame
  have k1 := @acqFailed_inner
  have k2 := @retry_frame
  have k3 := @retry_inner
  simp only [acqFail, when]
  repeat' split
  all_goals simp [k0, k1, k2, k3]

theorem acquire_inner (cause : AcqBy) (s : State) :
    (acquire cause s).evin.incfg = s.evin.incfg ∧ (acquire cause s).evin.level = s.evin.level ∧
    (acquire cause s).evin.syncLevel = s.evin.syncLevel ∧ (acquire cause s).tt.ctl = s.tt.ctl ∧
    (acquire cause s).tt.instA = s.tt.instA ∧ (acquire cause s).tt.instB = s.tt.instB ∧
    (acquire cause s).tt.active = s.tt.active ∧ (acquire cause s).tt.activeValid = s.tt.activeValid ∧
    (acquire cause s).tt.startSec = s.tt.startSec ∧ (acquire cause s).tt.startFrac = s.tt.startFrac ∧
    (acquire cause s).tt.swPend = s.tt.swPend ∧ (acquire cause s).tt.protHit = s.tt.protHit ∧
    (acquire cause s).clk.src = s.clk.src ∧ (acquire cause s).clk.limits = s.clk.limits ∧
    (acquire cause s).clk.spread = s.clk.spread ∧ (acquire cause s).clk.active = s.clk.active ∧
    (acquire cause s).clk.plans = s.clk.plans ∧ (acquire cause s).clk.drift = s.clk.drift ∧
    (acquire cause s).afe.ctl = s.afe.ctl ∧ (acquire cause s).afe.eff = s.afe.eff ∧
    (acquire cause s).afe.diag = s.afe.diag ∧ (acquire cause s).ros.sealed = s.ros.sealed ∧
    (acquire cause s).evt.mask = s.evt.mask ∧ (acquire cause s).evt.copy = s.evt.copy := by
  have k0 := @acqBegin_frame
  have k1 := @acqBegin_inner
  have k2 := @acqFail_frame
  have k3 := @acqFail_inner
  simp only [acquire, when]
  repeat' split
  all_goals simp [k0, k1, k2, k3]

@[simp] theorem wakeHf_inner (cause : AcqBy) (s : State) :
    (wakeHf cause s).evin.incfg = s.evin.incfg ∧ (wakeHf cause s).evin.level = s.evin.level ∧
    (wakeHf cause s).evin.syncLevel = s.evin.syncLevel ∧ (wakeHf cause s).tt.ctl = s.tt.ctl ∧
    (wakeHf cause s).tt.instA = s.tt.instA ∧ (wakeHf cause s).tt.instB = s.tt.instB ∧
    (wakeHf cause s).tt.active = s.tt.active ∧ (wakeHf cause s).tt.activeValid = s.tt.activeValid ∧
    (wakeHf cause s).tt.startSec = s.tt.startSec ∧ (wakeHf cause s).tt.startFrac = s.tt.startFrac ∧
    (wakeHf cause s).tt.swPend = s.tt.swPend ∧ (wakeHf cause s).tt.protHit = s.tt.protHit ∧
    (wakeHf cause s).clk.src = s.clk.src ∧ (wakeHf cause s).clk.limits = s.clk.limits ∧
    (wakeHf cause s).clk.spread = s.clk.spread ∧ (wakeHf cause s).clk.active = s.clk.active ∧
    (wakeHf cause s).clk.plans = s.clk.plans ∧ (wakeHf cause s).clk.drift = s.clk.drift ∧
    (wakeHf cause s).afe.ctl = s.afe.ctl ∧ (wakeHf cause s).afe.eff = s.afe.eff ∧
    (wakeHf cause s).afe.diag = s.afe.diag ∧ (wakeHf cause s).ros.sealed = s.ros.sealed ∧
    (wakeHf cause s).evt.mask = s.evt.mask ∧ (wakeHf cause s).evt.copy = s.evt.copy := by
  have k0 := @acquire_frame
  have k1 := @acquire_inner
  simp only [wakeHf, when]
  repeat' split
  all_goals simp [k0, k1]

theorem park_inner (s : State) :
    (park s).evin.incfg = s.evin.incfg ∧ (park s).evin.level = s.evin.level ∧
    (park s).evin.syncLevel = s.evin.syncLevel ∧ (park s).clk.src = s.clk.src ∧ (park s).clk.limits = s.clk.limits ∧
    (park s).clk.spread = s.clk.spread ∧ (park s).clk.active = s.clk.active ∧ (park s).clk.plans = s.clk.plans ∧
    (park s).clk.bypass = s.clk.bypass ∧ (park s).clk.drift = s.clk.drift ∧ (park s).clk.q = s.clk.q ∧
    (park s).afe.ctl = s.afe.ctl ∧ (park s).afe.eff = s.afe.eff ∧ (park s).afe.diag = s.afe.diag ∧
    (park s).ros.sealed = s.ros.sealed := by
  have k0 := @dropAhead_frame
  have k1 := @dropAhead_inner
  have k2 := @dropFast_frame
  have k3 := @dropFast_inner
  simp only [park, when]
  repeat' split
  all_goals simp [k0, k1, k2, k3]

theorem bypassIn_inner (s : State) :
    (bypassIn s).evin.incfg = s.evin.incfg ∧ (bypassIn s).evin.level = s.evin.level ∧
    (bypassIn s).evin.syncLevel = s.evin.syncLevel ∧ (bypassIn s).clk.src = s.clk.src ∧
    (bypassIn s).clk.limits = s.clk.limits ∧ (bypassIn s).clk.spread = s.clk.spread ∧
    (bypassIn s).clk.active = s.clk.active ∧ (bypassIn s).clk.plans = s.clk.plans ∧
    (bypassIn s).clk.drift = s.clk.drift ∧ (bypassIn s).clk.q = s.clk.q ∧ (bypassIn s).evt.mask = s.evt.mask ∧
    (bypassIn s).evt.copy = s.evt.copy := by
  have k0 := @dropFast_frame
  have k1 := @dropFast_inner
  simp only [bypassIn, when]
  repeat' split
  all_goals simp [k0, k1]

theorem bypassOut_inner (s : State) :
    (bypassOut s).tt.ctl = s.tt.ctl ∧ (bypassOut s).tt.instA = s.tt.instA ∧ (bypassOut s).tt.instB = s.tt.instB ∧
    (bypassOut s).tt.active = s.tt.active ∧ (bypassOut s).tt.activeValid = s.tt.activeValid ∧
    (bypassOut s).tt.startSec = s.tt.startSec ∧ (bypassOut s).tt.startFrac = s.tt.startFrac ∧
    (bypassOut s).tt.swPend = s.tt.swPend ∧ (bypassOut s).tt.protHit = s.tt.protHit ∧
    (bypassOut s).clk.src = s.clk.src ∧ (bypassOut s).clk.limits = s.clk.limits ∧
    (bypassOut s).clk.spread = s.clk.spread ∧ (bypassOut s).clk.active = s.clk.active ∧
    (bypassOut s).clk.plans = s.clk.plans ∧ (bypassOut s).clk.drift = s.clk.drift ∧ (bypassOut s).clk.q = s.clk.q ∧
    (bypassOut s).evt.mask = s.evt.mask ∧ (bypassOut s).evt.copy = s.evt.copy := by
  simp only [bypassOut, when]
  repeat' split
  all_goals simp

theorem presettleFor_inner (c : Carriage) (s : State) :
    (presettleFor c s).afe.ctl = s.afe.ctl ∧ (presettleFor c s).afe.eff = s.afe.eff ∧
    (presettleFor c s).afe.diag = s.afe.diag := by
  simp only [presettleFor, when]
  repeat' split
  all_goals simp

theorem fetchGroup_inner (cs : List Carriage) (q : Nat) (s : State) :
    (fetchGroup cs q s).afe.ctl = s.afe.ctl ∧ (fetchGroup cs q s).afe.eff = s.afe.eff ∧
    (fetchGroup cs q s).afe.diag = s.afe.diag ∧ (fetchGroup cs q s).ros.sealed = s.ros.sealed := by
  have k0 := @fetch_frame
  have k1 := @fetch_inner
  have k2 := @presettleFor_frame
  have k3 := @presettleFor_inner
  simp only [fetchGroup, when]
  repeat' split
  all_goals simp [k0, k1, k2, k3]

theorem fetchFirst_inner (s : State) :
    (fetchFirst s).afe.ctl = s.afe.ctl ∧ (fetchFirst s).afe.eff = s.afe.eff ∧ (fetchFirst s).afe.diag = s.afe.diag ∧
    (fetchFirst s).ros.sealed = s.ros.sealed := by
  have k0 := @fetchGroup_frame
  have k1 := @fetchGroup_inner
  simp only [fetchFirst, when]
  repeat' split
  all_goals simp [k0, k1]

theorem restartDivider_inner (a : Nat) (s : State) :
    (restartDivider a s).evin.incfg = s.evin.incfg ∧ (restartDivider a s).evin.level = s.evin.level ∧
    (restartDivider a s).evin.syncLevel = s.evin.syncLevel ∧ (restartDivider a s).tt.ctl = s.tt.ctl ∧
    (restartDivider a s).tt.instA = s.tt.instA ∧ (restartDivider a s).tt.instB = s.tt.instB ∧
    (restartDivider a s).tt.active = s.tt.active ∧ (restartDivider a s).tt.activeValid = s.tt.activeValid ∧
    (restartDivider a s).tt.startSec = s.tt.startSec ∧ (restartDivider a s).tt.startFrac = s.tt.startFrac ∧
    (restartDivider a s).tt.swPend = s.tt.swPend ∧ (restartDivider a s).tt.protHit = s.tt.protHit ∧
    (restartDivider a s).clk.src = s.clk.src ∧ (restartDivider a s).clk.limits = s.clk.limits ∧
    (restartDivider a s).clk.spread = s.clk.spread ∧ (restartDivider a s).clk.active = s.clk.active ∧
    (restartDivider a s).clk.plans = s.clk.plans ∧ (restartDivider a s).clk.bypass = s.clk.bypass ∧
    (restartDivider a s).clk.drift = s.clk.drift ∧ (restartDivider a s).clk.q = s.clk.q ∧
    (restartDivider a s).ldg.ctl = s.ldg.ctl ∧ (restartDivider a s).ldg.run = s.ldg.run ∧
    (restartDivider a s).ldg.cnt = s.ldg.cnt ∧ (restartDivider a s).ldg.lap = s.ldg.lap ∧
    (restartDivider a s).out.code = s.out.code ∧ (restartDivider a s).out.cfg = s.out.cfg ∧
    (restartDivider a s).out.gen = s.out.gen ∧ (restartDivider a s).out.span = s.out.span ∧
    (restartDivider a s).out.staged = s.out.staged ∧ (restartDivider a s).evt.mask = s.evt.mask ∧
    (restartDivider a s).evt.copy = s.evt.copy := by
  simp only [restartDivider, when]
  repeat' split
  all_goals simp

theorem alignTo_inner (m : Moment) (code : Nat) (s : State) :
    (alignTo m code s).evin.incfg = s.evin.incfg ∧ (alignTo m code s).evin.level = s.evin.level ∧
    (alignTo m code s).evin.syncLevel = s.evin.syncLevel ∧ (alignTo m code s).tt.ctl = s.tt.ctl ∧
    (alignTo m code s).tt.instA = s.tt.instA ∧ (alignTo m code s).tt.instB = s.tt.instB ∧
    (alignTo m code s).tt.active = s.tt.active ∧ (alignTo m code s).tt.activeValid = s.tt.activeValid ∧
    (alignTo m code s).tt.startSec = s.tt.startSec ∧ (alignTo m code s).tt.startFrac = s.tt.startFrac ∧
    (alignTo m code s).tt.swPend = s.tt.swPend ∧ (alignTo m code s).tt.protHit = s.tt.protHit ∧
    (alignTo m code s).clk.src = s.clk.src ∧ (alignTo m code s).clk.limits = s.clk.limits ∧
    (alignTo m code s).clk.spread = s.clk.spread ∧ (alignTo m code s).clk.active = s.clk.active ∧
    (alignTo m code s).clk.plans = s.clk.plans ∧ (alignTo m code s).clk.bypass = s.clk.bypass ∧
    (alignTo m code s).clk.drift = s.clk.drift ∧ (alignTo m code s).clk.q = s.clk.q ∧
    (alignTo m code s).ldg.ctl = s.ldg.ctl ∧ (alignTo m code s).ldg.run = s.ldg.run ∧
    (alignTo m code s).ldg.cnt = s.ldg.cnt ∧ (alignTo m code s).ldg.lap = s.ldg.lap ∧
    (alignTo m code s).out.code = s.out.code ∧ (alignTo m code s).out.cfg = s.out.cfg ∧
    (alignTo m code s).out.gen = s.out.gen ∧ (alignTo m code s).out.span = s.out.span ∧
    (alignTo m code s).out.staged = s.out.staged ∧ (alignTo m code s).evt.mask = s.evt.mask ∧
    (alignTo m code s).evt.copy = s.evt.copy := by
  have k0 := @restartDivider_frame
  have k1 := @restartDivider_inner
  simp only [alignTo, when]
  repeat' split
  all_goals simp [k0, k1]

theorem awaitFrame_inner (g : Trig) (gs : List Trig) (m : Moment) (s : State) :
    (awaitFrame g gs m s).evin.incfg = s.evin.incfg ∧ (awaitFrame g gs m s).evin.level = s.evin.level ∧
    (awaitFrame g gs m s).evin.syncLevel = s.evin.syncLevel ∧ (awaitFrame g gs m s).tt.ctl = s.tt.ctl ∧
    (awaitFrame g gs m s).tt.instA = s.tt.instA ∧ (awaitFrame g gs m s).tt.instB = s.tt.instB ∧
    (awaitFrame g gs m s).tt.active = s.tt.active ∧ (awaitFrame g gs m s).tt.activeValid = s.tt.activeValid ∧
    (awaitFrame g gs m s).tt.startSec = s.tt.startSec ∧ (awaitFrame g gs m s).tt.startFrac = s.tt.startFrac ∧
    (awaitFrame g gs m s).tt.swPend = s.tt.swPend ∧ (awaitFrame g gs m s).tt.protHit = s.tt.protHit ∧
    (awaitFrame g gs m s).sys.phase = s.sys.phase ∧ (awaitFrame g gs m s).sys.cause = s.sys.cause ∧
    (awaitFrame g gs m s).sys.cfgState = s.sys.cfgState ∧ (awaitFrame g gs m s).sys.x32Run = s.sys.x32Run ∧
    (awaitFrame g gs m s).sys.measRst = s.sys.measRst ∧ (awaitFrame g gs m s).sys.earlyWr = s.sys.earlyWr ∧
    (awaitFrame g gs m s).sys.lostCmds = s.sys.lostCmds ∧ (awaitFrame g gs m s).clk.src = s.clk.src ∧
    (awaitFrame g gs m s).clk.limits = s.clk.limits ∧ (awaitFrame g gs m s).clk.spread = s.clk.spread ∧
    (awaitFrame g gs m s).clk.active = s.clk.active ∧ (awaitFrame g gs m s).clk.plans = s.clk.plans ∧
    (awaitFrame g gs m s).clk.drift = s.clk.drift ∧ (awaitFrame g gs m s).ldg.ctl = s.ldg.ctl ∧
    (awaitFrame g gs m s).ldg.run = s.ldg.run ∧ (awaitFrame g gs m s).ldg.cnt = s.ldg.cnt ∧
    (awaitFrame g gs m s).ldg.lap = s.ldg.lap ∧ (awaitFrame g gs m s).afe.ctl = s.afe.ctl ∧
    (awaitFrame g gs m s).afe.eff = s.afe.eff ∧ (awaitFrame g gs m s).afe.diag = s.afe.diag ∧
    (awaitFrame g gs m s).ros.sealed = s.ros.sealed ∧ (awaitFrame g gs m s).out.code = s.out.code ∧
    (awaitFrame g gs m s).out.cfg = s.out.cfg ∧ (awaitFrame g gs m s).out.gen = s.out.gen ∧
    (awaitFrame g gs m s).out.span = s.out.span ∧ (awaitFrame g gs m s).out.staged = s.out.staged ∧
    (awaitFrame g gs m s).evt.mask = s.evt.mask ∧ (awaitFrame g gs m s).evt.copy = s.evt.copy := by
  have k0 := @alignTo_frame
  have k1 := @alignTo_inner
  have k2 := @fetchFirst_frame
  have k3 := @fetchFirst_inner
  simp only [awaitFrame, when]
  repeat' split
  all_goals simp [k0, k1, k2, k3]

theorem joinAwait_inner (g : Trig) (gs : List Trig) (m : Moment) (a : Await) (s : State) :
    (joinAwait g gs m a s).evin.incfg = s.evin.incfg ∧ (joinAwait g gs m a s).evin.level = s.evin.level ∧
    (joinAwait g gs m a s).evin.syncLevel = s.evin.syncLevel ∧ (joinAwait g gs m a s).tt.ctl = s.tt.ctl ∧
    (joinAwait g gs m a s).tt.instA = s.tt.instA ∧ (joinAwait g gs m a s).tt.instB = s.tt.instB ∧
    (joinAwait g gs m a s).tt.active = s.tt.active ∧ (joinAwait g gs m a s).tt.activeValid = s.tt.activeValid ∧
    (joinAwait g gs m a s).tt.startSec = s.tt.startSec ∧ (joinAwait g gs m a s).tt.startFrac = s.tt.startFrac ∧
    (joinAwait g gs m a s).tt.swPend = s.tt.swPend ∧ (joinAwait g gs m a s).tt.protHit = s.tt.protHit ∧
    (joinAwait g gs m a s).clk.src = s.clk.src ∧ (joinAwait g gs m a s).clk.limits = s.clk.limits ∧
    (joinAwait g gs m a s).clk.spread = s.clk.spread ∧ (joinAwait g gs m a s).clk.active = s.clk.active ∧
    (joinAwait g gs m a s).clk.plans = s.clk.plans ∧ (joinAwait g gs m a s).clk.bypass = s.clk.bypass ∧
    (joinAwait g gs m a s).clk.drift = s.clk.drift ∧ (joinAwait g gs m a s).clk.q = s.clk.q ∧
    (joinAwait g gs m a s).ldg.ctl = s.ldg.ctl ∧ (joinAwait g gs m a s).ldg.run = s.ldg.run ∧
    (joinAwait g gs m a s).ldg.cnt = s.ldg.cnt ∧ (joinAwait g gs m a s).ldg.lap = s.ldg.lap ∧
    (joinAwait g gs m a s).out.code = s.out.code ∧ (joinAwait g gs m a s).out.cfg = s.out.cfg ∧
    (joinAwait g gs m a s).out.gen = s.out.gen ∧ (joinAwait g gs m a s).out.span = s.out.span ∧
    (joinAwait g gs m a s).out.staged = s.out.staged ∧ (joinAwait g gs m a s).evt.mask = s.evt.mask ∧
    (joinAwait g gs m a s).evt.copy = s.evt.copy := by
  have k0 := @alignTo_frame
  have k1 := @alignTo_inner
  simp only [joinAwait, when]
  repeat' split
  all_goals simp [k0, k1]

theorem joinQueued_inner (g : Trig) (gs : List Trig) (x : Queued) (s : State) :
    (joinQueued g gs x s).tt.ctl = s.tt.ctl ∧ (joinQueued g gs x s).tt.instA = s.tt.instA ∧
    (joinQueued g gs x s).tt.instB = s.tt.instB ∧ (joinQueued g gs x s).tt.active = s.tt.active ∧
    (joinQueued g gs x s).tt.activeValid = s.tt.activeValid ∧ (joinQueued g gs x s).tt.startSec = s.tt.startSec ∧
    (joinQueued g gs x s).tt.startFrac = s.tt.startFrac ∧ (joinQueued g gs x s).tt.swPend = s.tt.swPend ∧
    (joinQueued g gs x s).tt.protHit = s.tt.protHit := by
  simp only [joinQueued, when]
  repeat' split
  all_goals simp

theorem deliver_inner (gs : List Trig) (m : Moment) (s : State) :
    (deliver gs m s).evin.incfg = s.evin.incfg ∧ (deliver gs m s).evin.level = s.evin.level ∧
    (deliver gs m s).evin.syncLevel = s.evin.syncLevel ∧ (deliver gs m s).tt.ctl = s.tt.ctl ∧
    (deliver gs m s).tt.instA = s.tt.instA ∧ (deliver gs m s).tt.instB = s.tt.instB ∧
    (deliver gs m s).tt.active = s.tt.active ∧ (deliver gs m s).tt.activeValid = s.tt.activeValid ∧
    (deliver gs m s).tt.startSec = s.tt.startSec ∧ (deliver gs m s).tt.startFrac = s.tt.startFrac ∧
    (deliver gs m s).tt.swPend = s.tt.swPend ∧ (deliver gs m s).tt.protHit = s.tt.protHit ∧
    (deliver gs m s).sys.phase = s.sys.phase ∧ (deliver gs m s).sys.cause = s.sys.cause ∧
    (deliver gs m s).sys.cfgState = s.sys.cfgState ∧ (deliver gs m s).sys.x32Run = s.sys.x32Run ∧
    (deliver gs m s).sys.measRst = s.sys.measRst ∧ (deliver gs m s).sys.earlyWr = s.sys.earlyWr ∧
    (deliver gs m s).sys.lostCmds = s.sys.lostCmds ∧ (deliver gs m s).clk.src = s.clk.src ∧
    (deliver gs m s).clk.limits = s.clk.limits ∧ (deliver gs m s).clk.spread = s.clk.spread ∧
    (deliver gs m s).clk.active = s.clk.active ∧ (deliver gs m s).clk.plans = s.clk.plans ∧
    (deliver gs m s).clk.drift = s.clk.drift ∧ (deliver gs m s).ldg.ctl = s.ldg.ctl ∧
    (deliver gs m s).ldg.run = s.ldg.run ∧ (deliver gs m s).ldg.cnt = s.ldg.cnt ∧
    (deliver gs m s).ldg.lap = s.ldg.lap ∧ (deliver gs m s).afe.ctl = s.afe.ctl ∧
    (deliver gs m s).afe.eff = s.afe.eff ∧ (deliver gs m s).afe.diag = s.afe.diag ∧
    (deliver gs m s).ros.sealed = s.ros.sealed ∧ (deliver gs m s).out.code = s.out.code ∧
    (deliver gs m s).out.cfg = s.out.cfg ∧ (deliver gs m s).out.gen = s.out.gen ∧
    (deliver gs m s).out.span = s.out.span ∧ (deliver gs m s).out.staged = s.out.staged ∧
    (deliver gs m s).evt.mask = s.evt.mask ∧ (deliver gs m s).evt.copy = s.evt.copy := by
  have k0 := @awaitFrame_frame
  have k1 := @awaitFrame_inner
  have k2 := @joinAwait_frame
  have k3 := @joinAwait_inner
  have k4 := @joinQueued_frame
  have k5 := @joinQueued_inner
  have k6 := @lateTrigger_frame
  have k7 := @lateTrigger_inner
  simp only [deliver, when]
  repeat' split
  all_goals simp [k0, k1, k2, k3, k4, k5, k6, k7]

theorem logOcc_inner (reg : Stamp) (coin reached : Bool) (o : Occ) (s : State) :
    (logOcc reg coin reached o s).evin.incfg = s.evin.incfg ∧
    (logOcc reg coin reached o s).evin.level = s.evin.level ∧
    (logOcc reg coin reached o s).evin.syncLevel = s.evin.syncLevel ∧
    (logOcc reg coin reached o s).evt.mask = s.evt.mask ∧ (logOcc reg coin reached o s).evt.copy = s.evt.copy := by
  have k0 := @logRecord_frame
  have k1 := @logRecord_inner
  simp only [logOcc, when]
  repeat' split
  all_goals simp [k0, k1]

theorem moveMarks_inner (o : Occ) (s : State) :
    (moveMarks o s).tt.ctl = s.tt.ctl ∧ (moveMarks o s).tt.instA = s.tt.instA ∧
    (moveMarks o s).tt.instB = s.tt.instB ∧ (moveMarks o s).tt.active = s.tt.active ∧
    (moveMarks o s).tt.activeValid = s.tt.activeValid ∧ (moveMarks o s).tt.startSec = s.tt.startSec ∧
    (moveMarks o s).tt.startFrac = s.tt.startFrac ∧ (moveMarks o s).tt.swPend = s.tt.swPend ∧
    (moveMarks o s).tt.protHit = s.tt.protHit := by
  simp only [moveMarks, when]
  repeat' split
  all_goals simp

theorem noteOcc_inner (q : Option Nat) (o : Occ) (s : State) :
    (noteOcc q o s).tt.ctl = s.tt.ctl ∧ (noteOcc q o s).tt.instA = s.tt.instA ∧
    (noteOcc q o s).tt.instB = s.tt.instB ∧ (noteOcc q o s).tt.active = s.tt.active ∧
    (noteOcc q o s).tt.activeValid = s.tt.activeValid ∧ (noteOcc q o s).tt.startSec = s.tt.startSec ∧
    (noteOcc q o s).tt.startFrac = s.tt.startFrac ∧ (noteOcc q o s).tt.swPend = s.tt.swPend ∧
    (noteOcc q o s).tt.protHit = s.tt.protHit := by
  simp only [noteOcc, when]
  repeat' split
  all_goals simp

@[simp] theorem register_inner (m : Moment) (os : List Occ) (s : State) :
    (register m os s).evin.incfg = s.evin.incfg ∧ (register m os s).evin.level = s.evin.level ∧
    (register m os s).evin.syncLevel = s.evin.syncLevel ∧ (register m os s).tt.ctl = s.tt.ctl ∧
    (register m os s).tt.instA = s.tt.instA ∧ (register m os s).tt.instB = s.tt.instB ∧
    (register m os s).tt.active = s.tt.active ∧ (register m os s).tt.activeValid = s.tt.activeValid ∧
    (register m os s).tt.startSec = s.tt.startSec ∧ (register m os s).tt.startFrac = s.tt.startFrac ∧
    (register m os s).tt.swPend = s.tt.swPend ∧ (register m os s).tt.protHit = s.tt.protHit ∧
    (register m os s).sys.phase = s.sys.phase ∧ (register m os s).sys.cause = s.sys.cause ∧
    (register m os s).sys.cfgState = s.sys.cfgState ∧ (register m os s).sys.x32Run = s.sys.x32Run ∧
    (register m os s).sys.measRst = s.sys.measRst ∧ (register m os s).sys.earlyWr = s.sys.earlyWr ∧
    (register m os s).sys.lostCmds = s.sys.lostCmds ∧ (register m os s).clk.src = s.clk.src ∧
    (register m os s).clk.limits = s.clk.limits ∧ (register m os s).clk.spread = s.clk.spread ∧
    (register m os s).clk.active = s.clk.active ∧ (register m os s).clk.plans = s.clk.plans ∧
    (register m os s).clk.drift = s.clk.drift ∧ (register m os s).ldg.ctl = s.ldg.ctl ∧
    (register m os s).ldg.run = s.ldg.run ∧ (register m os s).ldg.cnt = s.ldg.cnt ∧
    (register m os s).ldg.lap = s.ldg.lap ∧ (register m os s).afe.ctl = s.afe.ctl ∧
    (register m os s).afe.eff = s.afe.eff ∧ (register m os s).afe.diag = s.afe.diag ∧
    (register m os s).ros.sealed = s.ros.sealed ∧ (register m os s).out.code = s.out.code ∧
    (register m os s).out.cfg = s.out.cfg ∧ (register m os s).out.gen = s.out.gen ∧
    (register m os s).out.span = s.out.span ∧ (register m os s).out.staged = s.out.staged ∧
    (register m os s).evt.mask = s.evt.mask ∧ (register m os s).evt.copy = s.evt.copy := by
  have k0 := @amendGroup_frame
  have k1 := @deliver_frame
  have k2 := @deliver_inner
  have k3 := @logOcc_frame
  have k4 := @logOcc_inner
  have k5 := @moveMarks_frame
  have k6 := @moveMarks_inner
  have k7 := @noteOcc_frame
  have k8 := @noteOcc_inner
  have k9 := @openRecs_frame
  have k10 := @openRecs_inner
  simp only [register, when]
  repeat' split
  all_goals simp [k0, k1, k2, k3, k4, k5, k6, k7, k8, k9, k10]

@[simp] theorem smStep_inner (k c : Nat) (stamp : Stamp) (resumed : Bool) (s : State) :
    (smStep k c stamp resumed s).2.2.evin.incfg = s.evin.incfg ∧
    (smStep k c stamp resumed s).2.2.evin.level = s.evin.level ∧
    (smStep k c stamp resumed s).2.2.evin.syncLevel = s.evin.syncLevel ∧
    (smStep k c stamp resumed s).2.2.evt.mask = s.evt.mask ∧ (smStep k c stamp resumed s).2.2.evt.copy = s.evt.copy := by
  simp only [smStep, when]
  repeat' split
  all_goals simp

theorem smSteps_inner (steps : List (Nat × Nat × Stamp × Bool)) (s : State) :
    (smSteps steps s).2.2.evin.incfg = s.evin.incfg ∧ (smSteps steps s).2.2.evin.level = s.evin.level ∧
    (smSteps steps s).2.2.evin.syncLevel = s.evin.syncLevel ∧ (smSteps steps s).2.2.evt.mask = s.evt.mask ∧
    (smSteps steps s).2.2.evt.copy = s.evt.copy := by
  unfold smSteps
  generalize hr : (([] : List Occ), 0, s) = r
  have hs : s = r.2.2 := by rw [← hr]
  rw [hs]; clear hr hs
  induction steps generalizing r with
  | nil => simp
  | cons p q ih => simp only [List.foldl_cons, ih, smStep_inner, and_self]

theorem beginFrame_inner (a : Await) (im : Image) (t0 : Nat) (s : State) :
    (beginFrame a im t0 s).tt.ctl = s.tt.ctl ∧ (beginFrame a im t0 s).tt.instA = s.tt.instA ∧
    (beginFrame a im t0 s).tt.instB = s.tt.instB ∧ (beginFrame a im t0 s).tt.active = s.tt.active ∧
    (beginFrame a im t0 s).tt.activeValid = s.tt.activeValid ∧ (beginFrame a im t0 s).tt.startSec = s.tt.startSec ∧
    (beginFrame a im t0 s).tt.startFrac = s.tt.startFrac ∧ (beginFrame a im t0 s).tt.swPend = s.tt.swPend ∧
    (beginFrame a im t0 s).tt.protHit = s.tt.protHit ∧ (beginFrame a im t0 s).clk.src = s.clk.src ∧
    (beginFrame a im t0 s).clk.limits = s.clk.limits ∧ (beginFrame a im t0 s).clk.spread = s.clk.spread ∧
    (beginFrame a im t0 s).clk.active = s.clk.active ∧ (beginFrame a im t0 s).clk.plans = s.clk.plans ∧
    (beginFrame a im t0 s).clk.bypass = s.clk.bypass ∧ (beginFrame a im t0 s).clk.drift = s.clk.drift ∧
    (beginFrame a im t0 s).clk.q = s.clk.q ∧ (beginFrame a im t0 s).afe.ctl = s.afe.ctl ∧
    (beginFrame a im t0 s).afe.diag = s.afe.diag ∧ (beginFrame a im t0 s).ros.sealed = s.ros.sealed ∧
    (beginFrame a im t0 s).evt.mask = s.evt.mask ∧ (beginFrame a im t0 s).evt.copy = s.evt.copy := by
  have k0 := @afeFrameStart_frame
  have k1 := @afeFrameStart_inner
  have k2 := @applyPortEn_frame
  have k3 := @applyStages_frame
  have k4 := @applyStages_inner
  have k5 := @fetchGroup_frame
  have k6 := @fetchGroup_inner
  simp only [beginFrame, when]
  repeat' split
  all_goals simp [k0, k1, k2, k3, k4, k5, k6]

@[simp] theorem frameStart_inner (t : Nat) (s : State) :
    (frameStart t s).tt.ctl = s.tt.ctl ∧ (frameStart t s).tt.instA = s.tt.instA ∧
    (frameStart t s).tt.instB = s.tt.instB ∧ (frameStart t s).tt.active = s.tt.active ∧
    (frameStart t s).tt.activeValid = s.tt.activeValid ∧ (frameStart t s).tt.startSec = s.tt.startSec ∧
    (frameStart t s).tt.startFrac = s.tt.startFrac ∧ (frameStart t s).tt.swPend = s.tt.swPend ∧
    (frameStart t s).tt.protHit = s.tt.protHit ∧ (frameStart t s).clk.src = s.clk.src ∧
    (frameStart t s).clk.limits = s.clk.limits ∧ (frameStart t s).clk.spread = s.clk.spread ∧
    (frameStart t s).clk.active = s.clk.active ∧ (frameStart t s).clk.plans = s.clk.plans ∧
    (frameStart t s).clk.bypass = s.clk.bypass ∧ (frameStart t s).clk.drift = s.clk.drift ∧
    (frameStart t s).clk.q = s.clk.q ∧ (frameStart t s).afe.ctl = s.afe.ctl ∧ (frameStart t s).afe.diag = s.afe.diag ∧
    (frameStart t s).ros.sealed = s.ros.sealed ∧ (frameStart t s).evt.mask = s.evt.mask ∧
    (frameStart t s).evt.copy = s.evt.copy := by
  have k0 := @beginFrame_frame
  have k1 := @beginFrame_inner
  simp only [frameStart, when]
  repeat' split
  all_goals simp [k0, k1]

theorem failRecord_inner (i : Nat) (reason : Nat) (stamp : Stamp) (started late : Bool) (f : Frame) (s : State) :
    (failRecord i reason stamp started late f s).out.cfg = s.out.cfg ∧
    (failRecord i reason stamp started late f s).out.gen = s.out.gen ∧
    (failRecord i reason stamp started late f s).out.span = s.out.span ∧
    (failRecord i reason stamp started late f s).out.staged = s.out.staged ∧
    (failRecord i reason stamp started late f s).evt.mask = s.evt.mask ∧
    (failRecord i reason stamp started late f s).evt.copy = s.evt.copy := by
  have k0 := @aoutFailed_frame
  have k1 := @aoutFailed_inner
  have k2 := @resultRecord_frame
  have k3 := @resultRecord_inner
  simp only [failRecord, when]
  repeat' split
  all_goals simp [k0, k1, k2, k3]

theorem markRecord_inner (i : Nat) (f : Frame) (s : State) :
    (markRecord i f s).evt.mask = s.evt.mask ∧ (markRecord i f s).evt.copy = s.evt.copy := by
  have k0 := @resultRecord_frame
  have k1 := @resultRecord_inner
  simp only [markRecord, when]
  repeat' split
  all_goals simp [k0, k1]

theorem markFailRecord_inner (f : Frame) (s : State) :
    (markFailRecord f s).evt.mask = s.evt.mask ∧ (markFailRecord f s).evt.copy = s.evt.copy := by
  have k0 := @resultRecord_frame
  have k1 := @resultRecord_inner
  simp only [markFailRecord, when]
  repeat' split
  all_goals simp [k0, k1]

theorem keepLast_inner (f : Frame) (i : Nat) (s : State) :
    (keepLast f i s).ros.sealed = s.ros.sealed := by
  simp only [keepLast, when]
  repeat' split
  all_goals simp

theorem endRecords_inner (f : Frame) (i : Nat) (s : State) :
    (endRecords f i s).out.cfg = s.out.cfg ∧ (endRecords f i s).out.gen = s.out.gen ∧
    (endRecords f i s).out.span = s.out.span ∧ (endRecords f i s).out.staged = s.out.staged ∧
    (endRecords f i s).evt.mask = s.evt.mask ∧ (endRecords f i s).evt.copy = s.evt.copy := by
  have k0 := @aoutOk_frame
  have k1 := @aoutOk_inner
  have k2 := @failRecord_frame
  have k3 := @failRecord_inner
  have k4 := @markRecord_frame
  have k5 := @markRecord_inner
  have k6 := @resultRecord_frame
  have k7 := @resultRecord_inner
  simp only [endRecords, when]
  repeat' split
  all_goals simp [k0, k1, k2, k3, k4, k5, k6, k7]

theorem finish_inner (i : Nat) (s : State) :
    (finish i s).tt.ctl = s.tt.ctl ∧ (finish i s).tt.instA = s.tt.instA ∧ (finish i s).tt.instB = s.tt.instB ∧
    (finish i s).tt.active = s.tt.active ∧ (finish i s).tt.activeValid = s.tt.activeValid ∧
    (finish i s).tt.startSec = s.tt.startSec ∧ (finish i s).tt.startFrac = s.tt.startFrac ∧
    (finish i s).tt.swPend = s.tt.swPend ∧ (finish i s).tt.protHit = s.tt.protHit ∧
    (finish i s).ros.sealed = s.ros.sealed ∧ (finish i s).out.cfg = s.out.cfg ∧ (finish i s).out.gen = s.out.gen ∧
    (finish i s).out.span = s.out.span ∧ (finish i s).out.staged = s.out.staged ∧ (finish i s).evt.mask = s.evt.mask ∧
    (finish i s).evt.copy = s.evt.copy := by
  have k0 := @endRecords_frame
  have k1 := @endRecords_inner
  have k2 := @keepLast_frame
  have k3 := @keepLast_inner
  simp only [finish, when]
  repeat' split
  all_goals simp [k0, k1, k2, k3]

theorem finishUpTo_inner (q : Nat) (s : State) :
    (finishUpTo q s).tt.ctl = s.tt.ctl ∧ (finishUpTo q s).tt.instA = s.tt.instA ∧
    (finishUpTo q s).tt.instB = s.tt.instB ∧ (finishUpTo q s).tt.active = s.tt.active ∧
    (finishUpTo q s).tt.activeValid = s.tt.activeValid ∧ (finishUpTo q s).tt.startSec = s.tt.startSec ∧
    (finishUpTo q s).tt.startFrac = s.tt.startFrac ∧ (finishUpTo q s).tt.swPend = s.tt.swPend ∧
    (finishUpTo q s).tt.protHit = s.tt.protHit ∧ (finishUpTo q s).ros.sealed = s.ros.sealed ∧
    (finishUpTo q s).out.cfg = s.out.cfg ∧ (finishUpTo q s).out.gen = s.out.gen ∧
    (finishUpTo q s).out.span = s.out.span ∧ (finishUpTo q s).out.staged = s.out.staged ∧
    (finishUpTo q s).evt.mask = s.evt.mask ∧ (finishUpTo q s).evt.copy = s.evt.copy := by
  have k0 := @finish_frame
  have k1 := @finish_inner
  simp only [finishUpTo, when]
  repeat' split
  all_goals simp [k0, k1]

theorem mapRuns_inner (p : Carriage → CarRun → Bool) (g : Carriage → CarRun → CarRun) (s : State) :
    (mapRuns p g s).tt.ctl = s.tt.ctl ∧ (mapRuns p g s).tt.instA = s.tt.instA ∧
    (mapRuns p g s).tt.instB = s.tt.instB ∧ (mapRuns p g s).tt.active = s.tt.active ∧
    (mapRuns p g s).tt.activeValid = s.tt.activeValid ∧ (mapRuns p g s).tt.startSec = s.tt.startSec ∧
    (mapRuns p g s).tt.startFrac = s.tt.startFrac ∧ (mapRuns p g s).tt.swPend = s.tt.swPend ∧
    (mapRuns p g s).tt.protHit = s.tt.protHit := by
  simp only [mapRuns, when]
  repeat' split
  all_goals simp

theorem carriagesGone_inner (k : Nat) (s : State) :
    (carriagesGone k s).tt.ctl = s.tt.ctl ∧ (carriagesGone k s).tt.instA = s.tt.instA ∧
    (carriagesGone k s).tt.instB = s.tt.instB ∧ (carriagesGone k s).tt.active = s.tt.active ∧
    (carriagesGone k s).tt.activeValid = s.tt.activeValid ∧ (carriagesGone k s).tt.startSec = s.tt.startSec ∧
    (carriagesGone k s).tt.startFrac = s.tt.startFrac ∧ (carriagesGone k s).tt.swPend = s.tt.swPend ∧
    (carriagesGone k s).tt.protHit = s.tt.protHit := by
  have k0 := @mapRuns_frame
  have k1 := @mapRuns_inner
  simp only [carriagesGone, when]
  repeat' split
  all_goals simp [k0, k1]

theorem pairChanged_inner (p : Bool) (s : State) :
    (pairChanged p s).tt.ctl = s.tt.ctl ∧ (pairChanged p s).tt.instA = s.tt.instA ∧
    (pairChanged p s).tt.instB = s.tt.instB ∧ (pairChanged p s).tt.active = s.tt.active ∧
    (pairChanged p s).tt.activeValid = s.tt.activeValid ∧ (pairChanged p s).tt.startSec = s.tt.startSec ∧
    (pairChanged p s).tt.startFrac = s.tt.startFrac ∧ (pairChanged p s).tt.swPend = s.tt.swPend ∧
    (pairChanged p s).tt.protHit = s.tt.protHit := by
  have k0 := @mapRuns_frame
  have k1 := @mapRuns_inner
  simp only [pairChanged, when]
  repeat' split
  all_goals simp [k0, k1]

theorem pairPowered_inner (p : Bool) (s : State) :
    (pairPowered p s).tt.ctl = s.tt.ctl ∧ (pairPowered p s).tt.instA = s.tt.instA ∧
    (pairPowered p s).tt.instB = s.tt.instB ∧ (pairPowered p s).tt.active = s.tt.active ∧
    (pairPowered p s).tt.activeValid = s.tt.activeValid ∧ (pairPowered p s).tt.startSec = s.tt.startSec ∧
    (pairPowered p s).tt.startFrac = s.tt.startFrac ∧ (pairPowered p s).tt.swPend = s.tt.swPend ∧
    (pairPowered p s).tt.protHit = s.tt.protHit := by
  have k0 := @mapRuns_frame
  have k1 := @mapRuns_inner
  simp only [pairPowered, when]
  repeat' split
  all_goals simp [k0, k1]

theorem toStart_inner (i : Nat) (s : State) :
    (toStart i s).tt.ctl = s.tt.ctl ∧ (toStart i s).tt.instA = s.tt.instA ∧ (toStart i s).tt.instB = s.tt.instB ∧
    (toStart i s).tt.active = s.tt.active ∧ (toStart i s).tt.activeValid = s.tt.activeValid ∧
    (toStart i s).tt.startSec = s.tt.startSec ∧ (toStart i s).tt.startFrac = s.tt.startFrac ∧
    (toStart i s).tt.swPend = s.tt.swPend ∧ (toStart i s).tt.protHit = s.tt.protHit ∧
    (toStart i s).clk.src = s.clk.src ∧ (toStart i s).clk.limits = s.clk.limits ∧
    (toStart i s).clk.spread = s.clk.spread ∧ (toStart i s).clk.active = s.clk.active ∧
    (toStart i s).clk.plans = s.clk.plans ∧ (toStart i s).clk.bypass = s.clk.bypass ∧
    (toStart i s).clk.drift = s.clk.drift ∧ (toStart i s).clk.q = s.clk.q ∧ (toStart i s).afe.ctl = s.afe.ctl ∧
    (toStart i s).afe.eff = s.afe.eff ∧ (toStart i s).afe.diag = s.afe.diag ∧
    (toStart i s).ros.sealed = s.ros.sealed ∧ (toStart i s).out.cfg = s.out.cfg ∧ (toStart i s).out.gen = s.out.gen ∧
    (toStart i s).out.span = s.out.span ∧ (toStart i s).out.staged = s.out.staged ∧
    (toStart i s).evt.mask = s.evt.mask ∧ (toStart i s).evt.copy = s.evt.copy := by
  have k0 := @finishUpTo_frame
  have k1 := @finishUpTo_inner
  simp only [toStart, when]
  repeat' split
  all_goals simp [k0, k1]

@[simp] theorem placeRun_inner (i : Nat) (g : CarRun → CarRun) (s : State) :
    (placeRun i g s).tt.ctl = s.tt.ctl ∧ (placeRun i g s).tt.instA = s.tt.instA ∧
    (placeRun i g s).tt.instB = s.tt.instB ∧ (placeRun i g s).tt.active = s.tt.active ∧
    (placeRun i g s).tt.activeValid = s.tt.activeValid ∧ (placeRun i g s).tt.startSec = s.tt.startSec ∧
    (placeRun i g s).tt.startFrac = s.tt.startFrac ∧ (placeRun i g s).tt.swPend = s.tt.swPend ∧
    (placeRun i g s).tt.protHit = s.tt.protHit := by
  simp only [placeRun, when]
  repeat' split
  all_goals simp

theorem failRun_inner (i reason : Nat) (s : State) :
    (failRun i reason s).tt.ctl = s.tt.ctl ∧ (failRun i reason s).tt.instA = s.tt.instA ∧
    (failRun i reason s).tt.instB = s.tt.instB ∧ (failRun i reason s).tt.active = s.tt.active ∧
    (failRun i reason s).tt.activeValid = s.tt.activeValid ∧ (failRun i reason s).tt.startSec = s.tt.startSec ∧
    (failRun i reason s).tt.startFrac = s.tt.startFrac ∧ (failRun i reason s).tt.swPend = s.tt.swPend ∧
    (failRun i reason s).tt.protHit = s.tt.protHit := by
  simp only [failRun, when]
  repeat' split
  all_goals simp

theorem dropPresettle_inner (c : Carriage) (s : State) :
    (dropPresettle c s).afe.ctl = s.afe.ctl ∧ (dropPresettle c s).afe.eff = s.afe.eff ∧
    (dropPresettle c s).afe.diag = s.afe.diag := by
  simp only [dropPresettle, when]
  repeat' split
  all_goals simp

theorem fetchNext_inner (i : Nat) (s : State) :
    (fetchNext i s).afe.ctl = s.afe.ctl ∧ (fetchNext i s).afe.eff = s.afe.eff ∧
    (fetchNext i s).afe.diag = s.afe.diag ∧ (fetchNext i s).ros.sealed = s.ros.sealed := by
  have k0 := @fetchGroup_frame
  have k1 := @fetchGroup_inner
  simp only [fetchNext, when]
  repeat' split
  all_goals simp [k0, k1]

@[simp] theorem startCarriage_evin_incfg (i op : Nat) (act : Frame → Carriage → List Byte → State → State) (s : State)
    (h : ∀ f c d t, (act f c d t).evin.incfg = t.evin.incfg) : (startCarriage i op act s).evin.incfg = s.evin.incfg := by
  have k0 := @dropPresettle_frame
  have k1 := @dropPresettle_inner
  have k2 := @failRun_frame
  have k3 := @failRun_inner
  have k4 := @fetchNext_frame
  have k5 := @fetchNext_inner
  have k6 := @toStart_frame
  have k7 := @toStart_inner
  simp only [startCarriage]
  repeat' split
  all_goals simp [h, when, k0, k1, k2, k3, k4, k5, k6, k7]

@[simp] theorem startCarriage_evin_level (i op : Nat) (act : Frame → Carriage → List Byte → State → State) (s : State)
    (h : ∀ f c d t, (act f c d t).evin.level = t.evin.level) : (startCarriage i op act s).evin.level = s.evin.level := by
  have k0 := @dropPresettle_frame
  have k1 := @dropPresettle_inner
  have k2 := @failRun_frame
  have k3 := @failRun_inner
  have k4 := @fetchNext_frame
  have k5 := @fetchNext_inner
  have k6 := @toStart_frame
  have k7 := @toStart_inner
  simp only [startCarriage]
  repeat' split
  all_goals simp [h, when, k0, k1, k2, k3, k4, k5, k6, k7]

@[simp] theorem startCarriage_evin_syncLevel (i op : Nat) (act : Frame → Carriage → List Byte → State → State) (s : State)
    (h : ∀ f c d t, (act f c d t).evin.syncLevel = t.evin.syncLevel) : (startCarriage i op act s).evin.syncLevel = s.evin.syncLevel := by
  have k0 := @dropPresettle_frame
  have k1 := @dropPresettle_inner
  have k2 := @failRun_frame
  have k3 := @failRun_inner
  have k4 := @fetchNext_frame
  have k5 := @fetchNext_inner
  have k6 := @toStart_frame
  have k7 := @toStart_inner
  simp only [startCarriage]
  repeat' split
  all_goals simp [h, when, k0, k1, k2, k3, k4, k5, k6, k7]

@[simp] theorem startCarriage_tt_ctl (i op : Nat) (act : Frame → Carriage → List Byte → State → State) (s : State)
    (h : ∀ f c d t, (act f c d t).tt.ctl = t.tt.ctl) : (startCarriage i op act s).tt.ctl = s.tt.ctl := by
  have k0 := @dropPresettle_frame
  have k1 := @dropPresettle_inner
  have k2 := @failRun_frame
  have k3 := @failRun_inner
  have k4 := @fetchNext_frame
  have k5 := @fetchNext_inner
  have k6 := @toStart_frame
  have k7 := @toStart_inner
  simp only [startCarriage]
  repeat' split
  all_goals simp [h, when, k0, k1, k2, k3, k4, k5, k6, k7]

@[simp] theorem startCarriage_tt_instA (i op : Nat) (act : Frame → Carriage → List Byte → State → State) (s : State)
    (h : ∀ f c d t, (act f c d t).tt.instA = t.tt.instA) : (startCarriage i op act s).tt.instA = s.tt.instA := by
  have k0 := @dropPresettle_frame
  have k1 := @dropPresettle_inner
  have k2 := @failRun_frame
  have k3 := @failRun_inner
  have k4 := @fetchNext_frame
  have k5 := @fetchNext_inner
  have k6 := @toStart_frame
  have k7 := @toStart_inner
  simp only [startCarriage]
  repeat' split
  all_goals simp [h, when, k0, k1, k2, k3, k4, k5, k6, k7]

@[simp] theorem startCarriage_tt_instB (i op : Nat) (act : Frame → Carriage → List Byte → State → State) (s : State)
    (h : ∀ f c d t, (act f c d t).tt.instB = t.tt.instB) : (startCarriage i op act s).tt.instB = s.tt.instB := by
  have k0 := @dropPresettle_frame
  have k1 := @dropPresettle_inner
  have k2 := @failRun_frame
  have k3 := @failRun_inner
  have k4 := @fetchNext_frame
  have k5 := @fetchNext_inner
  have k6 := @toStart_frame
  have k7 := @toStart_inner
  simp only [startCarriage]
  repeat' split
  all_goals simp [h, when, k0, k1, k2, k3, k4, k5, k6, k7]

@[simp] theorem startCarriage_tt_active (i op : Nat) (act : Frame → Carriage → List Byte → State → State) (s : State)
    (h : ∀ f c d t, (act f c d t).tt.active = t.tt.active) : (startCarriage i op act s).tt.active = s.tt.active := by
  have k0 := @dropPresettle_frame
  have k1 := @dropPresettle_inner
  have k2 := @failRun_frame
  have k3 := @failRun_inner
  have k4 := @fetchNext_frame
  have k5 := @fetchNext_inner
  have k6 := @toStart_frame
  have k7 := @toStart_inner
  simp only [startCarriage]
  repeat' split
  all_goals simp [h, when, k0, k1, k2, k3, k4, k5, k6, k7]

@[simp] theorem startCarriage_tt_activeValid (i op : Nat) (act : Frame → Carriage → List Byte → State → State) (s : State)
    (h : ∀ f c d t, (act f c d t).tt.activeValid = t.tt.activeValid) : (startCarriage i op act s).tt.activeValid = s.tt.activeValid := by
  have k0 := @dropPresettle_frame
  have k1 := @dropPresettle_inner
  have k2 := @failRun_frame
  have k3 := @failRun_inner
  have k4 := @fetchNext_frame
  have k5 := @fetchNext_inner
  have k6 := @toStart_frame
  have k7 := @toStart_inner
  simp only [startCarriage]
  repeat' split
  all_goals simp [h, when, k0, k1, k2, k3, k4, k5, k6, k7]

@[simp] theorem startCarriage_tt_startSec (i op : Nat) (act : Frame → Carriage → List Byte → State → State) (s : State)
    (h : ∀ f c d t, (act f c d t).tt.startSec = t.tt.startSec) : (startCarriage i op act s).tt.startSec = s.tt.startSec := by
  have k0 := @dropPresettle_frame
  have k1 := @dropPresettle_inner
  have k2 := @failRun_frame
  have k3 := @failRun_inner
  have k4 := @fetchNext_frame
  have k5 := @fetchNext_inner
  have k6 := @toStart_frame
  have k7 := @toStart_inner
  simp only [startCarriage]
  repeat' split
  all_goals simp [h, when, k0, k1, k2, k3, k4, k5, k6, k7]

@[simp] theorem startCarriage_tt_startFrac (i op : Nat) (act : Frame → Carriage → List Byte → State → State) (s : State)
    (h : ∀ f c d t, (act f c d t).tt.startFrac = t.tt.startFrac) : (startCarriage i op act s).tt.startFrac = s.tt.startFrac := by
  have k0 := @dropPresettle_frame
  have k1 := @dropPresettle_inner
  have k2 := @failRun_frame
  have k3 := @failRun_inner
  have k4 := @fetchNext_frame
  have k5 := @fetchNext_inner
  have k6 := @toStart_frame
  have k7 := @toStart_inner
  simp only [startCarriage]
  repeat' split
  all_goals simp [h, when, k0, k1, k2, k3, k4, k5, k6, k7]

@[simp] theorem startCarriage_tt_swPend (i op : Nat) (act : Frame → Carriage → List Byte → State → State) (s : State)
    (h : ∀ f c d t, (act f c d t).tt.swPend = t.tt.swPend) : (startCarriage i op act s).tt.swPend = s.tt.swPend := by
  have k0 := @dropPresettle_frame
  have k1 := @dropPresettle_inner
  have k2 := @failRun_frame
  have k3 := @failRun_inner
  have k4 := @fetchNext_frame
  have k5 := @fetchNext_inner
  have k6 := @toStart_frame
  have k7 := @toStart_inner
  simp only [startCarriage]
  repeat' split
  all_goals simp [h, when, k0, k1, k2, k3, k4, k5, k6, k7]

@[simp] theorem startCarriage_tt_protHit (i op : Nat) (act : Frame → Carriage → List Byte → State → State) (s : State)
    (h : ∀ f c d t, (act f c d t).tt.protHit = t.tt.protHit) : (startCarriage i op act s).tt.protHit = s.tt.protHit := by
  have k0 := @dropPresettle_frame
  have k1 := @dropPresettle_inner
  have k2 := @failRun_frame
  have k3 := @failRun_inner
  have k4 := @fetchNext_frame
  have k5 := @fetchNext_inner
  have k6 := @toStart_frame
  have k7 := @toStart_inner
  simp only [startCarriage]
  repeat' split
  all_goals simp [h, when, k0, k1, k2, k3, k4, k5, k6, k7]

@[simp] theorem startCarriage_rtc_sec (i op : Nat) (act : Frame → Carriage → List Byte → State → State) (s : State)
    (h : ∀ f c d t, (act f c d t).rtc.sec = t.rtc.sec) : (startCarriage i op act s).rtc.sec = s.rtc.sec := by
  have k0 := @dropPresettle_frame
  have k1 := @dropPresettle_inner
  have k2 := @failRun_frame
  have k3 := @failRun_inner
  have k4 := @fetchNext_frame
  have k5 := @fetchNext_inner
  have k6 := @toStart_frame
  have k7 := @toStart_inner
  simp only [startCarriage]
  repeat' split
  all_goals simp [h, when, k0, k1, k2, k3, k4, k5, k6, k7]

@[simp] theorem startCarriage_rtc_presc (i op : Nat) (act : Frame → Carriage → List Byte → State → State) (s : State)
    (h : ∀ f c d t, (act f c d t).rtc.presc = t.rtc.presc) : (startCarriage i op act s).rtc.presc = s.rtc.presc := by
  have k0 := @dropPresettle_frame
  have k1 := @dropPresettle_inner
  have k2 := @failRun_frame
  have k3 := @failRun_inner
  have k4 := @fetchNext_frame
  have k5 := @fetchNext_inner
  have k6 := @toStart_frame
  have k7 := @toStart_inner
  simp only [startCarriage]
  repeat' split
  all_goals simp [h, when, k0, k1, k2, k3, k4, k5, k6, k7]

@[simp] theorem startCarriage_rtc_halted (i op : Nat) (act : Frame → Carriage → List Byte → State → State) (s : State)
    (h : ∀ f c d t, (act f c d t).rtc.halted = t.rtc.halted) : (startCarriage i op act s).rtc.halted = s.rtc.halted := by
  have k0 := @dropPresettle_frame
  have k1 := @dropPresettle_inner
  have k2 := @failRun_frame
  have k3 := @failRun_inner
  have k4 := @fetchNext_frame
  have k5 := @fetchNext_inner
  have k6 := @toStart_frame
  have k7 := @toStart_inner
  simp only [startCarriage]
  repeat' split
  all_goals simp [h, when, k0, k1, k2, k3, k4, k5, k6, k7]

@[simp] theorem startCarriage_rtc_timePend (i op : Nat) (act : Frame → Carriage → List Byte → State → State) (s : State)
    (h : ∀ f c d t, (act f c d t).rtc.timePend = t.rtc.timePend) : (startCarriage i op act s).rtc.timePend = s.rtc.timePend := by
  have k0 := @dropPresettle_frame
  have k1 := @dropPresettle_inner
  have k2 := @failRun_frame
  have k3 := @failRun_inner
  have k4 := @fetchNext_frame
  have k5 := @fetchNext_inner
  have k6 := @toStart_frame
  have k7 := @toStart_inner
  simp only [startCarriage]
  repeat' split
  all_goals simp [h, when, k0, k1, k2, k3, k4, k5, k6, k7]

@[simp] theorem startCarriage_rtc_trim (i op : Nat) (act : Frame → Carriage → List Byte → State → State) (s : State)
    (h : ∀ f c d t, (act f c d t).rtc.trim = t.rtc.trim) : (startCarriage i op act s).rtc.trim = s.rtc.trim := by
  have k0 := @dropPresettle_frame
  have k1 := @dropPresettle_inner
  have k2 := @failRun_frame
  have k3 := @failRun_inner
  have k4 := @fetchNext_frame
  have k5 := @fetchNext_inner
  have k6 := @toStart_frame
  have k7 := @toStart_inner
  simp only [startCarriage]
  repeat' split
  all_goals simp [h, when, k0, k1, k2, k3, k4, k5, k6, k7]

@[simp] theorem startCarriage_rtc_offset (i op : Nat) (act : Frame → Carriage → List Byte → State → State) (s : State)
    (h : ∀ f c d t, (act f c d t).rtc.offset = t.rtc.offset) : (startCarriage i op act s).rtc.offset = s.rtc.offset := by
  have k0 := @dropPresettle_frame
  have k1 := @dropPresettle_inner
  have k2 := @failRun_frame
  have k3 := @failRun_inner
  have k4 := @fetchNext_frame
  have k5 := @fetchNext_inner
  have k6 := @toStart_frame
  have k7 := @toStart_inner
  simp only [startCarriage]
  repeat' split
  all_goals simp [h, when, k0, k1, k2, k3, k4, k5, k6, k7]

@[simp] theorem startCarriage_rtc_dst (i op : Nat) (act : Frame → Carriage → List Byte → State → State) (s : State)
    (h : ∀ f c d t, (act f c d t).rtc.dst = t.rtc.dst) : (startCarriage i op act s).rtc.dst = s.rtc.dst := by
  have k0 := @dropPresettle_frame
  have k1 := @dropPresettle_inner
  have k2 := @failRun_frame
  have k3 := @failRun_inner
  have k4 := @fetchNext_frame
  have k5 := @fetchNext_inner
  have k6 := @toStart_frame
  have k7 := @toStart_inner
  simp only [startCarriage]
  repeat' split
  all_goals simp [h, when, k0, k1, k2, k3, k4, k5, k6, k7]

@[simp] theorem startCarriage_rtc_ctl (i op : Nat) (act : Frame → Carriage → List Byte → State → State) (s : State)
    (h : ∀ f c d t, (act f c d t).rtc.ctl = t.rtc.ctl) : (startCarriage i op act s).rtc.ctl = s.rtc.ctl := by
  have k0 := @dropPresettle_frame
  have k1 := @dropPresettle_inner
  have k2 := @failRun_frame
  have k3 := @failRun_inner
  have k4 := @fetchNext_frame
  have k5 := @fetchNext_inner
  have k6 := @toStart_frame
  have k7 := @toStart_inner
  simp only [startCarriage]
  repeat' split
  all_goals simp [h, when, k0, k1, k2, k3, k4, k5, k6, k7]

@[simp] theorem startCarriage_rtc_started (i op : Nat) (act : Frame → Carriage → List Byte → State → State) (s : State)
    (h : ∀ f c d t, (act f c d t).rtc.started = t.rtc.started) : (startCarriage i op act s).rtc.started = s.rtc.started := by
  have k0 := @dropPresettle_frame
  have k1 := @dropPresettle_inner
  have k2 := @failRun_frame
  have k3 := @failRun_inner
  have k4 := @fetchNext_frame
  have k5 := @fetchNext_inner
  have k6 := @toStart_frame
  have k7 := @toStart_inner
  simp only [startCarriage]
  repeat' split
  all_goals simp [h, when, k0, k1, k2, k3, k4, k5, k6, k7]

@[simp] theorem startCarriage_sys_phase (i op : Nat) (act : Frame → Carriage → List Byte → State → State) (s : State)
    (h : ∀ f c d t, (act f c d t).sys.phase = t.sys.phase) : (startCarriage i op act s).sys.phase = s.sys.phase := by
  have k0 := @dropPresettle_frame
  have k1 := @dropPresettle_inner
  have k2 := @failRun_frame
  have k3 := @failRun_inner
  have k4 := @fetchNext_frame
  have k5 := @fetchNext_inner
  have k6 := @toStart_frame
  have k7 := @toStart_inner
  simp only [startCarriage]
  repeat' split
  all_goals simp [h, when, k0, k1, k2, k3, k4, k5, k6, k7]

@[simp] theorem startCarriage_sys_cause (i op : Nat) (act : Frame → Carriage → List Byte → State → State) (s : State)
    (h : ∀ f c d t, (act f c d t).sys.cause = t.sys.cause) : (startCarriage i op act s).sys.cause = s.sys.cause := by
  have k0 := @dropPresettle_frame
  have k1 := @dropPresettle_inner
  have k2 := @failRun_frame
  have k3 := @failRun_inner
  have k4 := @fetchNext_frame
  have k5 := @fetchNext_inner
  have k6 := @toStart_frame
  have k7 := @toStart_inner
  simp only [startCarriage]
  repeat' split
  all_goals simp [h, when, k0, k1, k2, k3, k4, k5, k6, k7]

@[simp] theorem startCarriage_sys_cfgState (i op : Nat) (act : Frame → Carriage → List Byte → State → State) (s : State)
    (h : ∀ f c d t, (act f c d t).sys.cfgState = t.sys.cfgState) : (startCarriage i op act s).sys.cfgState = s.sys.cfgState := by
  have k0 := @dropPresettle_frame
  have k1 := @dropPresettle_inner
  have k2 := @failRun_frame
  have k3 := @failRun_inner
  have k4 := @fetchNext_frame
  have k5 := @fetchNext_inner
  have k6 := @toStart_frame
  have k7 := @toStart_inner
  simp only [startCarriage]
  repeat' split
  all_goals simp [h, when, k0, k1, k2, k3, k4, k5, k6, k7]

@[simp] theorem startCarriage_sys_x32Run (i op : Nat) (act : Frame → Carriage → List Byte → State → State) (s : State)
    (h : ∀ f c d t, (act f c d t).sys.x32Run = t.sys.x32Run) : (startCarriage i op act s).sys.x32Run = s.sys.x32Run := by
  have k0 := @dropPresettle_frame
  have k1 := @dropPresettle_inner
  have k2 := @failRun_frame
  have k3 := @failRun_inner
  have k4 := @fetchNext_frame
  have k5 := @fetchNext_inner
  have k6 := @toStart_frame
  have k7 := @toStart_inner
  simp only [startCarriage]
  repeat' split
  all_goals simp [h, when, k0, k1, k2, k3, k4, k5, k6, k7]

@[simp] theorem startCarriage_sys_measRst (i op : Nat) (act : Frame → Carriage → List Byte → State → State) (s : State)
    (h : ∀ f c d t, (act f c d t).sys.measRst = t.sys.measRst) : (startCarriage i op act s).sys.measRst = s.sys.measRst := by
  have k0 := @dropPresettle_frame
  have k1 := @dropPresettle_inner
  have k2 := @failRun_frame
  have k3 := @failRun_inner
  have k4 := @fetchNext_frame
  have k5 := @fetchNext_inner
  have k6 := @toStart_frame
  have k7 := @toStart_inner
  simp only [startCarriage]
  repeat' split
  all_goals simp [h, when, k0, k1, k2, k3, k4, k5, k6, k7]

@[simp] theorem startCarriage_sys_earlyWr (i op : Nat) (act : Frame → Carriage → List Byte → State → State) (s : State)
    (h : ∀ f c d t, (act f c d t).sys.earlyWr = t.sys.earlyWr) : (startCarriage i op act s).sys.earlyWr = s.sys.earlyWr := by
  have k0 := @dropPresettle_frame
  have k1 := @dropPresettle_inner
  have k2 := @failRun_frame
  have k3 := @failRun_inner
  have k4 := @fetchNext_frame
  have k5 := @fetchNext_inner
  have k6 := @toStart_frame
  have k7 := @toStart_inner
  simp only [startCarriage]
  repeat' split
  all_goals simp [h, when, k0, k1, k2, k3, k4, k5, k6, k7]

@[simp] theorem startCarriage_sys_lostCmds (i op : Nat) (act : Frame → Carriage → List Byte → State → State) (s : State)
    (h : ∀ f c d t, (act f c d t).sys.lostCmds = t.sys.lostCmds) : (startCarriage i op act s).sys.lostCmds = s.sys.lostCmds := by
  have k0 := @dropPresettle_frame
  have k1 := @dropPresettle_inner
  have k2 := @failRun_frame
  have k3 := @failRun_inner
  have k4 := @fetchNext_frame
  have k5 := @fetchNext_inner
  have k6 := @toStart_frame
  have k7 := @toStart_inner
  simp only [startCarriage]
  repeat' split
  all_goals simp [h, when, k0, k1, k2, k3, k4, k5, k6, k7]

@[simp] theorem startCarriage_sys_pstate (i op : Nat) (act : Frame → Carriage → List Byte → State → State) (s : State)
    (h : ∀ f c d t, (act f c d t).sys.pstate = t.sys.pstate) : (startCarriage i op act s).sys.pstate = s.sys.pstate := by
  have k0 := @dropPresettle_frame
  have k1 := @dropPresettle_inner
  have k2 := @failRun_frame
  have k3 := @failRun_inner
  have k4 := @fetchNext_frame
  have k5 := @fetchNext_inner
  have k6 := @toStart_frame
  have k7 := @toStart_inner
  simp only [startCarriage]
  repeat' split
  all_goals simp [h, when, k0, k1, k2, k3, k4, k5, k6, k7]

@[simp] theorem startCarriage_pwr_ctl (i op : Nat) (act : Frame → Carriage → List Byte → State → State) (s : State)
    (h : ∀ f c d t, (act f c d t).pwr.ctl = t.pwr.ctl) : (startCarriage i op act s).pwr.ctl = s.pwr.ctl := by
  have k0 := @dropPresettle_frame
  have k1 := @dropPresettle_inner
  have k2 := @failRun_frame
  have k3 := @failRun_inner
  have k4 := @fetchNext_frame
  have k5 := @fetchNext_inner
  have k6 := @toStart_frame
  have k7 := @toStart_inner
  simp only [startCarriage]
  repeat' split
  all_goals simp [h, when, k0, k1, k2, k3, k4, k5, k6, k7]

@[simp] theorem startCarriage_pwr_trickle (i op : Nat) (act : Frame → Carriage → List Byte → State → State) (s : State)
    (h : ∀ f c d t, (act f c d t).pwr.trickle = t.pwr.trickle) : (startCarriage i op act s).pwr.trickle = s.pwr.trickle := by
  have k0 := @dropPresettle_frame
  have k1 := @dropPresettle_inner
  have k2 := @failRun_frame
  have k3 := @failRun_inner
  have k4 := @fetchNext_frame
  have k5 := @fetchNext_inner
  have k6 := @toStart_frame
  have k7 := @toStart_inner
  simp only [startCarriage]
  repeat' split
  all_goals simp [h, when, k0, k1, k2, k3, k4, k5, k6, k7]

@[simp] theorem startCarriage_pwr_onVbat (i op : Nat) (act : Frame → Carriage → List Byte → State → State) (s : State)
    (h : ∀ f c d t, (act f c d t).pwr.onVbat = t.pwr.onVbat) : (startCarriage i op act s).pwr.onVbat = s.pwr.onVbat := by
  have k0 := @dropPresettle_frame
  have k1 := @dropPresettle_inner
  have k2 := @failRun_frame
  have k3 := @failRun_inner
  have k4 := @fetchNext_frame
  have k5 := @fetchNext_inner
  have k6 := @toStart_frame
  have k7 := @toStart_inner
  simp only [startCarriage]
  repeat' split
  all_goals simp [h, when, k0, k1, k2, k3, k4, k5, k6, k7]

@[simp] theorem startCarriage_pwr_mainOn (i op : Nat) (act : Frame → Carriage → List Byte → State → State) (s : State)
    (h : ∀ f c d t, (act f c d t).pwr.mainOn = t.pwr.mainOn) : (startCarriage i op act s).pwr.mainOn = s.pwr.mainOn := by
  have k0 := @dropPresettle_frame
  have k1 := @dropPresettle_inner
  have k2 := @failRun_frame
  have k3 := @failRun_inner
  have k4 := @fetchNext_frame
  have k5 := @fetchNext_inner
  have k6 := @toStart_frame
  have k7 := @toStart_inner
  simp only [startCarriage]
  repeat' split
  all_goals simp [h, when, k0, k1, k2, k3, k4, k5, k6, k7]

@[simp] theorem startCarriage_pwr_aonOn (i op : Nat) (act : Frame → Carriage → List Byte → State → State) (s : State)
    (h : ∀ f c d t, (act f c d t).pwr.aonOn = t.pwr.aonOn) : (startCarriage i op act s).pwr.aonOn = s.pwr.aonOn := by
  have k0 := @dropPresettle_frame
  have k1 := @dropPresettle_inner
  have k2 := @failRun_frame
  have k3 := @failRun_inner
  have k4 := @fetchNext_frame
  have k5 := @fetchNext_inner
  have k6 := @toStart_frame
  have k7 := @toStart_inner
  simp only [startCarriage]
  repeat' split
  all_goals simp [h, when, k0, k1, k2, k3, k4, k5, k6, k7]

@[simp] theorem startCarriage_pwr_warn (i op : Nat) (act : Frame → Carriage → List Byte → State → State) (s : State)
    (h : ∀ f c d t, (act f c d t).pwr.warn = t.pwr.warn) : (startCarriage i op act s).pwr.warn = s.pwr.warn := by
  have k0 := @dropPresettle_frame
  have k1 := @dropPresettle_inner
  have k2 := @failRun_frame
  have k3 := @failRun_inner
  have k4 := @fetchNext_frame
  have k5 := @fetchNext_inner
  have k6 := @toStart_frame
  have k7 := @toStart_inner
  simp only [startCarriage]
  repeat' split
  all_goals simp [h, when, k0, k1, k2, k3, k4, k5, k6, k7]

@[simp] theorem startCarriage_pwr_ship (i op : Nat) (act : Frame → Carriage → List Byte → State → State) (s : State)
    (h : ∀ f c d t, (act f c d t).pwr.ship = t.pwr.ship) : (startCarriage i op act s).pwr.ship = s.pwr.ship := by
  have k0 := @dropPresettle_frame
  have k1 := @dropPresettle_inner
  have k2 := @failRun_frame
  have k3 := @failRun_inner
  have k4 := @fetchNext_frame
  have k5 := @fetchNext_inner
  have k6 := @toStart_frame
  have k7 := @toStart_inner
  simp only [startCarriage]
  repeat' split
  all_goals simp [h, when, k0, k1, k2, k3, k4, k5, k6, k7]

@[simp] theorem startCarriage_pwr_castleCount (i op : Nat) (act : Frame → Carriage → List Byte → State → State) (s : State)
    (h : ∀ f c d t, (act f c d t).pwr.castleCount = t.pwr.castleCount) : (startCarriage i op act s).pwr.castleCount = s.pwr.castleCount := by
  have k0 := @dropPresettle_frame
  have k1 := @dropPresettle_inner
  have k2 := @failRun_frame
  have k3 := @failRun_inner
  have k4 := @fetchNext_frame
  have k5 := @fetchNext_inner
  have k6 := @toStart_frame
  have k7 := @toStart_inner
  simp only [startCarriage]
  repeat' split
  all_goals simp [h, when, k0, k1, k2, k3, k4, k5, k6, k7]

@[simp] theorem startCarriage_pwr_firstValid (i op : Nat) (act : Frame → Carriage → List Byte → State → State) (s : State)
    (h : ∀ f c d t, (act f c d t).pwr.firstValid = t.pwr.firstValid) : (startCarriage i op act s).pwr.firstValid = s.pwr.firstValid := by
  have k0 := @dropPresettle_frame
  have k1 := @dropPresettle_inner
  have k2 := @failRun_frame
  have k3 := @failRun_inner
  have k4 := @fetchNext_frame
  have k5 := @fetchNext_inner
  have k6 := @toStart_frame
  have k7 := @toStart_inner
  simp only [startCarriage]
  repeat' split
  all_goals simp [h, when, k0, k1, k2, k3, k4, k5, k6, k7]

@[simp] theorem startCarriage_pwr_firstSec (i op : Nat) (act : Frame → Carriage → List Byte → State → State) (s : State)
    (h : ∀ f c d t, (act f c d t).pwr.firstSec = t.pwr.firstSec) : (startCarriage i op act s).pwr.firstSec = s.pwr.firstSec := by
  have k0 := @dropPresettle_frame
  have k1 := @dropPresettle_inner
  have k2 := @failRun_frame
  have k3 := @failRun_inner
  have k4 := @fetchNext_frame
  have k5 := @fetchNext_inner
  have k6 := @toStart_frame
  have k7 := @toStart_inner
  simp only [startCarriage]
  repeat' split
  all_goals simp [h, when, k0, k1, k2, k3, k4, k5, k6, k7]

@[simp] theorem startCarriage_pwr_firstFrac (i op : Nat) (act : Frame → Carriage → List Byte → State → State) (s : State)
    (h : ∀ f c d t, (act f c d t).pwr.firstFrac = t.pwr.firstFrac) : (startCarriage i op act s).pwr.firstFrac = s.pwr.firstFrac := by
  have k0 := @dropPresettle_frame
  have k1 := @dropPresettle_inner
  have k2 := @failRun_frame
  have k3 := @failRun_inner
  have k4 := @fetchNext_frame
  have k5 := @fetchNext_inner
  have k6 := @toStart_frame
  have k7 := @toStart_inner
  simp only [startCarriage]
  repeat' split
  all_goals simp [h, when, k0, k1, k2, k3, k4, k5, k6, k7]

@[simp] theorem startCarriage_pwr_castlings (i op : Nat) (act : Frame → Carriage → List Byte → State → State) (s : State)
    (h : ∀ f c d t, (act f c d t).pwr.castlings = t.pwr.castlings) : (startCarriage i op act s).pwr.castlings = s.pwr.castlings := by
  have k0 := @dropPresettle_frame
  have k1 := @dropPresettle_inner
  have k2 := @failRun_frame
  have k3 := @failRun_inner
  have k4 := @fetchNext_frame
  have k5 := @fetchNext_inner
  have k6 := @toStart_frame
  have k7 := @toStart_inner
  simp only [startCarriage]
  repeat' split
  all_goals simp [h, when, k0, k1, k2, k3, k4, k5, k6, k7]

@[simp] theorem startCarriage_clk_src (i op : Nat) (act : Frame → Carriage → List Byte → State → State) (s : State)
    (h : ∀ f c d t, (act f c d t).clk.src = t.clk.src) : (startCarriage i op act s).clk.src = s.clk.src := by
  have k0 := @dropPresettle_frame
  have k1 := @dropPresettle_inner
  have k2 := @failRun_frame
  have k3 := @failRun_inner
  have k4 := @fetchNext_frame
  have k5 := @fetchNext_inner
  have k6 := @toStart_frame
  have k7 := @toStart_inner
  simp only [startCarriage]
  repeat' split
  all_goals simp [h, when, k0, k1, k2, k3, k4, k5, k6, k7]

@[simp] theorem startCarriage_clk_limits (i op : Nat) (act : Frame → Carriage → List Byte → State → State) (s : State)
    (h : ∀ f c d t, (act f c d t).clk.limits = t.clk.limits) : (startCarriage i op act s).clk.limits = s.clk.limits := by
  have k0 := @dropPresettle_frame
  have k1 := @dropPresettle_inner
  have k2 := @failRun_frame
  have k3 := @failRun_inner
  have k4 := @fetchNext_frame
  have k5 := @fetchNext_inner
  have k6 := @toStart_frame
  have k7 := @toStart_inner
  simp only [startCarriage]
  repeat' split
  all_goals simp [h, when, k0, k1, k2, k3, k4, k5, k6, k7]

@[simp] theorem startCarriage_clk_spread (i op : Nat) (act : Frame → Carriage → List Byte → State → State) (s : State)
    (h : ∀ f c d t, (act f c d t).clk.spread = t.clk.spread) : (startCarriage i op act s).clk.spread = s.clk.spread := by
  have k0 := @dropPresettle_frame
  have k1 := @dropPresettle_inner
  have k2 := @failRun_frame
  have k3 := @failRun_inner
  have k4 := @fetchNext_frame
  have k5 := @fetchNext_inner
  have k6 := @toStart_frame
  have k7 := @toStart_inner
  simp only [startCarriage]
  repeat' split
  all_goals simp [h, when, k0, k1, k2, k3, k4, k5, k6, k7]

@[simp] theorem startCarriage_clk_active (i op : Nat) (act : Frame → Carriage → List Byte → State → State) (s : State)
    (h : ∀ f c d t, (act f c d t).clk.active = t.clk.active) : (startCarriage i op act s).clk.active = s.clk.active := by
  have k0 := @dropPresettle_frame
  have k1 := @dropPresettle_inner
  have k2 := @failRun_frame
  have k3 := @failRun_inner
  have k4 := @fetchNext_frame
  have k5 := @fetchNext_inner
  have k6 := @toStart_frame
  have k7 := @toStart_inner
  simp only [startCarriage]
  repeat' split
  all_goals simp [h, when, k0, k1, k2, k3, k4, k5, k6, k7]

@[simp] theorem startCarriage_clk_plans (i op : Nat) (act : Frame → Carriage → List Byte → State → State) (s : State)
    (h : ∀ f c d t, (act f c d t).clk.plans = t.clk.plans) : (startCarriage i op act s).clk.plans = s.clk.plans := by
  have k0 := @dropPresettle_frame
  have k1 := @dropPresettle_inner
  have k2 := @failRun_frame
  have k3 := @failRun_inner
  have k4 := @fetchNext_frame
  have k5 := @fetchNext_inner
  have k6 := @toStart_frame
  have k7 := @toStart_inner
  simp only [startCarriage]
  repeat' split
  all_goals simp [h, when, k0, k1, k2, k3, k4, k5, k6, k7]

@[simp] theorem startCarriage_clk_bypass (i op : Nat) (act : Frame → Carriage → List Byte → State → State) (s : State)
    (h : ∀ f c d t, (act f c d t).clk.bypass = t.clk.bypass) : (startCarriage i op act s).clk.bypass = s.clk.bypass := by
  have k0 := @dropPresettle_frame
  have k1 := @dropPresettle_inner
  have k2 := @failRun_frame
  have k3 := @failRun_inner
  have k4 := @fetchNext_frame
  have k5 := @fetchNext_inner
  have k6 := @toStart_frame
  have k7 := @toStart_inner
  simp only [startCarriage]
  repeat' split
  all_goals simp [h, when, k0, k1, k2, k3, k4, k5, k6, k7]

@[simp] theorem startCarriage_clk_drift (i op : Nat) (act : Frame → Carriage → List Byte → State → State) (s : State)
    (h : ∀ f c d t, (act f c d t).clk.drift = t.clk.drift) : (startCarriage i op act s).clk.drift = s.clk.drift := by
  have k0 := @dropPresettle_frame
  have k1 := @dropPresettle_inner
  have k2 := @failRun_frame
  have k3 := @failRun_inner
  have k4 := @fetchNext_frame
  have k5 := @fetchNext_inner
  have k6 := @toStart_frame
  have k7 := @toStart_inner
  simp only [startCarriage]
  repeat' split
  all_goals simp [h, when, k0, k1, k2, k3, k4, k5, k6, k7]

@[simp] theorem startCarriage_clk_q (i op : Nat) (act : Frame → Carriage → List Byte → State → State) (s : State)
    (h : ∀ f c d t, (act f c d t).clk.q = t.clk.q) : (startCarriage i op act s).clk.q = s.clk.q := by
  have k0 := @dropPresettle_frame
  have k1 := @dropPresettle_inner
  have k2 := @failRun_frame
  have k3 := @failRun_inner
  have k4 := @fetchNext_frame
  have k5 := @fetchNext_inner
  have k6 := @toStart_frame
  have k7 := @toStart_inner
  simp only [startCarriage]
  repeat' split
  all_goals simp [h, when, k0, k1, k2, k3, k4, k5, k6, k7]

@[simp] theorem startCarriage_cond_arg0 (i op : Nat) (act : Frame → Carriage → List Byte → State → State) (s : State)
    (h : ∀ f c d t, (act f c d t).cond.arg0 = t.cond.arg0) : (startCarriage i op act s).cond.arg0 = s.cond.arg0 := by
  have k0 := @dropPresettle_frame
  have k1 := @dropPresettle_inner
  have k2 := @failRun_frame
  have k3 := @failRun_inner
  have k4 := @fetchNext_frame
  have k5 := @fetchNext_inner
  have k6 := @toStart_frame
  have k7 := @toStart_inner
  simp only [startCarriage]
  repeat' split
  all_goals simp [h, when, k0, k1, k2, k3, k4, k5, k6, k7]

@[simp] theorem startCarriage_cond_arg1 (i op : Nat) (act : Frame → Carriage → List Byte → State → State) (s : State)
    (h : ∀ f c d t, (act f c d t).cond.arg1 = t.cond.arg1) : (startCarriage i op act s).cond.arg1 = s.cond.arg1 := by
  have k0 := @dropPresettle_frame
  have k1 := @dropPresettle_inner
  have k2 := @failRun_frame
  have k3 := @failRun_inner
  have k4 := @fetchNext_frame
  have k5 := @fetchNext_inner
  have k6 := @toStart_frame
  have k7 := @toStart_inner
  simp only [startCarriage]
  repeat' split
  all_goals simp [h, when, k0, k1, k2, k3, k4, k5, k6, k7]

@[simp] theorem startCarriage_cond_arg2 (i op : Nat) (act : Frame → Carriage → List Byte → State → State) (s : State)
    (h : ∀ f c d t, (act f c d t).cond.arg2 = t.cond.arg2) : (startCarriage i op act s).cond.arg2 = s.cond.arg2 := by
  have k0 := @dropPresettle_frame
  have k1 := @dropPresettle_inner
  have k2 := @failRun_frame
  have k3 := @failRun_inner
  have k4 := @fetchNext_frame
  have k5 := @fetchNext_inner
  have k6 := @toStart_frame
  have k7 := @toStart_inner
  simp only [startCarriage]
  repeat' split
  all_goals simp [h, when, k0, k1, k2, k3, k4, k5, k6, k7]

@[simp] theorem startCarriage_cond_queue (i op : Nat) (act : Frame → Carriage → List Byte → State → State) (s : State)
    (h : ∀ f c d t, (act f c d t).cond.queue = t.cond.queue) : (startCarriage i op act s).cond.queue = s.cond.queue := by
  have k0 := @dropPresettle_frame
  have k1 := @dropPresettle_inner
  have k2 := @failRun_frame
  have k3 := @failRun_inner
  have k4 := @fetchNext_frame
  have k5 := @fetchNext_inner
  have k6 := @toStart_frame
  have k7 := @toStart_inner
  simp only [startCarriage]
  repeat' split
  all_goals simp [h, when, k0, k1, k2, k3, k4, k5, k6, k7]

@[simp] theorem startCarriage_cond_running (i op : Nat) (act : Frame → Carriage → List Byte → State → State) (s : State)
    (h : ∀ f c d t, (act f c d t).cond.running = t.cond.running) : (startCarriage i op act s).cond.running = s.cond.running := by
  have k0 := @dropPresettle_frame
  have k1 := @dropPresettle_inner
  have k2 := @failRun_frame
  have k3 := @failRun_inner
  have k4 := @fetchNext_frame
  have k5 := @fetchNext_inner
  have k6 := @toStart_frame
  have k7 := @toStart_inner
  simp only [startCarriage]
  repeat' split
  all_goals simp [h, when, k0, k1, k2, k3, k4, k5, k6, k7]

@[simp] theorem startCarriage_cond_head (i op : Nat) (act : Frame → Carriage → List Byte → State → State) (s : State)
    (h : ∀ f c d t, (act f c d t).cond.head = t.cond.head) : (startCarriage i op act s).cond.head = s.cond.head := by
  have k0 := @dropPresettle_frame
  have k1 := @dropPresettle_inner
  have k2 := @failRun_frame
  have k3 := @failRun_inner
  have k4 := @fetchNext_frame
  have k5 := @fetchNext_inner
  have k6 := @toStart_frame
  have k7 := @toStart_inner
  simp only [startCarriage]
  repeat' split
  all_goals simp [h, when, k0, k1, k2, k3, k4, k5, k6, k7]

@[simp] theorem startCarriage_cond_seq (i op : Nat) (act : Frame → Carriage → List Byte → State → State) (s : State)
    (h : ∀ f c d t, (act f c d t).cond.seq = t.cond.seq) : (startCarriage i op act s).cond.seq = s.cond.seq := by
  have k0 := @dropPresettle_frame
  have k1 := @dropPresettle_inner
  have k2 := @failRun_frame
  have k3 := @failRun_inner
  have k4 := @fetchNext_frame
  have k5 := @fetchNext_inner
  have k6 := @toStart_frame
  have k7 := @toStart_inner
  simp only [startCarriage]
  repeat' split
  all_goals simp [h, when, k0, k1, k2, k3, k4, k5, k6, k7]

@[simp] theorem startCarriage_cond_tail (i op : Nat) (act : Frame → Carriage → List Byte → State → State) (s : State)
    (h : ∀ f c d t, (act f c d t).cond.tail = t.cond.tail) : (startCarriage i op act s).cond.tail = s.cond.tail := by
  have k0 := @dropPresettle_frame
  have k1 := @dropPresettle_inner
  have k2 := @failRun_frame
  have k3 := @failRun_inner
  have k4 := @fetchNext_frame
  have k5 := @fetchNext_inner
  have k6 := @toStart_frame
  have k7 := @toStart_inner
  simp only [startCarriage]
  repeat' split
  all_goals simp [h, when, k0, k1, k2, k3, k4, k5, k6, k7]

@[simp] theorem startCarriage_cond_switches (i op : Nat) (act : Frame → Carriage → List Byte → State → State) (s : State)
    (h : ∀ f c d t, (act f c d t).cond.switches = t.cond.switches) : (startCarriage i op act s).cond.switches = s.cond.switches := by
  have k0 := @dropPresettle_frame
  have k1 := @dropPresettle_inner
  have k2 := @failRun_frame
  have k3 := @failRun_inner
  have k4 := @fetchNext_frame
  have k5 := @fetchNext_inner
  have k6 := @toStart_frame
  have k7 := @toStart_inner
  simp only [startCarriage]
  repeat' split
  all_goals simp [h, when, k0, k1, k2, k3, k4, k5, k6, k7]

@[simp] theorem startCarriage_cond_inReset (i op : Nat) (act : Frame → Carriage → List Byte → State → State) (s : State)
    (h : ∀ f c d t, (act f c d t).cond.inReset = t.cond.inReset) : (startCarriage i op act s).cond.inReset = s.cond.inReset := by
  have k0 := @dropPresettle_frame
  have k1 := @dropPresettle_inner
  have k2 := @failRun_frame
  have k3 := @failRun_inner
  have k4 := @fetchNext_frame
  have k5 := @fetchNext_inner
  have k6 := @toStart_frame
  have k7 := @toStart_inner
  simp only [startCarriage]
  repeat' split
  all_goals simp [h, when, k0, k1, k2, k3, k4, k5, k6, k7]

@[simp] theorem startCarriage_ldg_ctl (i op : Nat) (act : Frame → Carriage → List Byte → State → State) (s : State)
    (h : ∀ f c d t, (act f c d t).ldg.ctl = t.ldg.ctl) : (startCarriage i op act s).ldg.ctl = s.ldg.ctl := by
  have k0 := @dropPresettle_frame
  have k1 := @dropPresettle_inner
  have k2 := @failRun_frame
  have k3 := @failRun_inner
  have k4 := @fetchNext_frame
  have k5 := @fetchNext_inner
  have k6 := @toStart_frame
  have k7 := @toStart_inner
  simp only [startCarriage]
  repeat' split
  all_goals simp [h, when, k0, k1, k2, k3, k4, k5, k6, k7]

@[simp] theorem startCarriage_ldg_run (i op : Nat) (act : Frame → Carriage → List Byte → State → State) (s : State)
    (h : ∀ f c d t, (act f c d t).ldg.run = t.ldg.run) : (startCarriage i op act s).ldg.run = s.ldg.run := by
  have k0 := @dropPresettle_frame
  have k1 := @dropPresettle_inner
  have k2 := @failRun_frame
  have k3 := @failRun_inner
  have k4 := @fetchNext_frame
  have k5 := @fetchNext_inner
  have k6 := @toStart_frame
  have k7 := @toStart_inner
  simp only [startCarriage]
  repeat' split
  all_goals simp [h, when, k0, k1, k2, k3, k4, k5, k6, k7]

@[simp] theorem startCarriage_ldg_cnt (i op : Nat) (act : Frame → Carriage → List Byte → State → State) (s : State)
    (h : ∀ f c d t, (act f c d t).ldg.cnt = t.ldg.cnt) : (startCarriage i op act s).ldg.cnt = s.ldg.cnt := by
  have k0 := @dropPresettle_frame
  have k1 := @dropPresettle_inner
  have k2 := @failRun_frame
  have k3 := @failRun_inner
  have k4 := @fetchNext_frame
  have k5 := @fetchNext_inner
  have k6 := @toStart_frame
  have k7 := @toStart_inner
  simp only [startCarriage]
  repeat' split
  all_goals simp [h, when, k0, k1, k2, k3, k4, k5, k6, k7]

@[simp] theorem startCarriage_ldg_lap (i op : Nat) (act : Frame → Carriage → List Byte → State → State) (s : State)
    (h : ∀ f c d t, (act f c d t).ldg.lap = t.ldg.lap) : (startCarriage i op act s).ldg.lap = s.ldg.lap := by
  have k0 := @dropPresettle_frame
  have k1 := @dropPresettle_inner
  have k2 := @failRun_frame
  have k3 := @failRun_inner
  have k4 := @fetchNext_frame
  have k5 := @fetchNext_inner
  have k6 := @toStart_frame
  have k7 := @toStart_inner
  simp only [startCarriage]
  repeat' split
  all_goals simp [h, when, k0, k1, k2, k3, k4, k5, k6, k7]

@[simp] theorem startCarriage_afe_ctl (i op : Nat) (act : Frame → Carriage → List Byte → State → State) (s : State)
    (h : ∀ f c d t, (act f c d t).afe.ctl = t.afe.ctl) : (startCarriage i op act s).afe.ctl = s.afe.ctl := by
  have k0 := @dropPresettle_frame
  have k1 := @dropPresettle_inner
  have k2 := @failRun_frame
  have k3 := @failRun_inner
  have k4 := @fetchNext_frame
  have k5 := @fetchNext_inner
  have k6 := @toStart_frame
  have k7 := @toStart_inner
  simp only [startCarriage]
  repeat' split
  all_goals simp [h, when, k0, k1, k2, k3, k4, k5, k6, k7]

@[simp] theorem startCarriage_afe_eff (i op : Nat) (act : Frame → Carriage → List Byte → State → State) (s : State)
    (h : ∀ f c d t, (act f c d t).afe.eff = t.afe.eff) : (startCarriage i op act s).afe.eff = s.afe.eff := by
  have k0 := @dropPresettle_frame
  have k1 := @dropPresettle_inner
  have k2 := @failRun_frame
  have k3 := @failRun_inner
  have k4 := @fetchNext_frame
  have k5 := @fetchNext_inner
  have k6 := @toStart_frame
  have k7 := @toStart_inner
  simp only [startCarriage]
  repeat' split
  all_goals simp [h, when, k0, k1, k2, k3, k4, k5, k6, k7]

@[simp] theorem startCarriage_afe_diag (i op : Nat) (act : Frame → Carriage → List Byte → State → State) (s : State)
    (h : ∀ f c d t, (act f c d t).afe.diag = t.afe.diag) : (startCarriage i op act s).afe.diag = s.afe.diag := by
  have k0 := @dropPresettle_frame
  have k1 := @dropPresettle_inner
  have k2 := @failRun_frame
  have k3 := @failRun_inner
  have k4 := @fetchNext_frame
  have k5 := @fetchNext_inner
  have k6 := @toStart_frame
  have k7 := @toStart_inner
  simp only [startCarriage]
  repeat' split
  all_goals simp [h, when, k0, k1, k2, k3, k4, k5, k6, k7]

@[simp] theorem startCarriage_ros_sealed (i op : Nat) (act : Frame → Carriage → List Byte → State → State) (s : State)
    (h : ∀ f c d t, (act f c d t).ros.sealed = t.ros.sealed) : (startCarriage i op act s).ros.sealed = s.ros.sealed := by
  have k0 := @dropPresettle_frame
  have k1 := @dropPresettle_inner
  have k2 := @failRun_frame
  have k3 := @failRun_inner
  have k4 := @fetchNext_frame
  have k5 := @fetchNext_inner
  have k6 := @toStart_frame
  have k7 := @toStart_inner
  simp only [startCarriage]
  repeat' split
  all_goals simp [h, when, k0, k1, k2, k3, k4, k5, k6, k7]

@[simp] theorem startCarriage_out_cfg (i op : Nat) (act : Frame → Carriage → List Byte → State → State) (s : State)
    (h : ∀ f c d t, (act f c d t).out.cfg = t.out.cfg) : (startCarriage i op act s).out.cfg = s.out.cfg := by
  have k0 := @dropPresettle_frame
  have k1 := @dropPresettle_inner
  have k2 := @failRun_frame
  have k3 := @failRun_inner
  have k4 := @fetchNext_frame
  have k5 := @fetchNext_inner
  have k6 := @toStart_frame
  have k7 := @toStart_inner
  simp only [startCarriage]
  repeat' split
  all_goals simp [h, when, k0, k1, k2, k3, k4, k5, k6, k7]

@[simp] theorem startCarriage_out_gen (i op : Nat) (act : Frame → Carriage → List Byte → State → State) (s : State)
    (h : ∀ f c d t, (act f c d t).out.gen = t.out.gen) : (startCarriage i op act s).out.gen = s.out.gen := by
  have k0 := @dropPresettle_frame
  have k1 := @dropPresettle_inner
  have k2 := @failRun_frame
  have k3 := @failRun_inner
  have k4 := @fetchNext_frame
  have k5 := @fetchNext_inner
  have k6 := @toStart_frame
  have k7 := @toStart_inner
  simp only [startCarriage]
  repeat' split
  all_goals simp [h, when, k0, k1, k2, k3, k4, k5, k6, k7]

@[simp] theorem startCarriage_out_span (i op : Nat) (act : Frame → Carriage → List Byte → State → State) (s : State)
    (h : ∀ f c d t, (act f c d t).out.span = t.out.span) : (startCarriage i op act s).out.span = s.out.span := by
  have k0 := @dropPresettle_frame
  have k1 := @dropPresettle_inner
  have k2 := @failRun_frame
  have k3 := @failRun_inner
  have k4 := @fetchNext_frame
  have k5 := @fetchNext_inner
  have k6 := @toStart_frame
  have k7 := @toStart_inner
  simp only [startCarriage]
  repeat' split
  all_goals simp [h, when, k0, k1, k2, k3, k4, k5, k6, k7]

@[simp] theorem startCarriage_out_staged (i op : Nat) (act : Frame → Carriage → List Byte → State → State) (s : State)
    (h : ∀ f c d t, (act f c d t).out.staged = t.out.staged) : (startCarriage i op act s).out.staged = s.out.staged := by
  have k0 := @dropPresettle_frame
  have k1 := @dropPresettle_inner
  have k2 := @failRun_frame
  have k3 := @failRun_inner
  have k4 := @fetchNext_frame
  have k5 := @fetchNext_inner
  have k6 := @toStart_frame
  have k7 := @toStart_inner
  simp only [startCarriage]
  repeat' split
  all_goals simp [h, when, k0, k1, k2, k3, k4, k5, k6, k7]

@[simp] theorem startCarriage_hif_i3c (i op : Nat) (act : Frame → Carriage → List Byte → State → State) (s : State)
    (h : ∀ f c d t, (act f c d t).hif.i3c = t.hif.i3c) : (startCarriage i op act s).hif.i3c = s.hif.i3c := by
  have k0 := @dropPresettle_frame
  have k1 := @dropPresettle_inner
  have k2 := @failRun_frame
  have k3 := @failRun_inner
  have k4 := @fetchNext_frame
  have k5 := @fetchNext_inner
  have k6 := @toStart_frame
  have k7 := @toStart_inner
  simp only [startCarriage]
  repeat' split
  all_goals simp [h, when, k0, k1, k2, k3, k4, k5, k6, k7]

@[simp] theorem startCarriage_hif_dynAddr (i op : Nat) (act : Frame → Carriage → List Byte → State → State) (s : State)
    (h : ∀ f c d t, (act f c d t).hif.dynAddr = t.hif.dynAddr) : (startCarriage i op act s).hif.dynAddr = s.hif.dynAddr := by
  have k0 := @dropPresettle_frame
  have k1 := @dropPresettle_inner
  have k2 := @failRun_frame
  have k3 := @failRun_inner
  have k4 := @fetchNext_frame
  have k5 := @fetchNext_inner
  have k6 := @toStart_frame
  have k7 := @toStart_inner
  simp only [startCarriage]
  repeat' split
  all_goals simp [h, when, k0, k1, k2, k3, k4, k5, k6, k7]

@[simp] theorem startCarriage_hif_crcEn (i op : Nat) (act : Frame → Carriage → List Byte → State → State) (s : State)
    (h : ∀ f c d t, (act f c d t).hif.crcEn = t.hif.crcEn) : (startCarriage i op act s).hif.crcEn = s.hif.crcEn := by
  have k0 := @dropPresettle_frame
  have k1 := @dropPresettle_inner
  have k2 := @failRun_frame
  have k3 := @failRun_inner
  have k4 := @fetchNext_frame
  have k5 := @fetchNext_inner
  have k6 := @toStart_frame
  have k7 := @toStart_inner
  simp only [startCarriage]
  repeat' split
  all_goals simp [h, when, k0, k1, k2, k3, k4, k5, k6, k7]

@[simp] theorem startCarriage_hif_txn (i op : Nat) (act : Frame → Carriage → List Byte → State → State) (s : State)
    (h : ∀ f c d t, (act f c d t).hif.txn = t.hif.txn) : (startCarriage i op act s).hif.txn = s.hif.txn := by
  have k0 := @dropPresettle_frame
  have k1 := @dropPresettle_inner
  have k2 := @failRun_frame
  have k3 := @failRun_inner
  have k4 := @fetchNext_frame
  have k5 := @fetchNext_inner
  have k6 := @toStart_frame
  have k7 := @toStart_inner
  simp only [startCarriage]
  repeat' split
  all_goals simp [h, when, k0, k1, k2, k3, k4, k5, k6, k7]

@[simp] theorem startCarriage_hif_reply (i op : Nat) (act : Frame → Carriage → List Byte → State → State) (s : State)
    (h : ∀ f c d t, (act f c d t).hif.reply = t.hif.reply) : (startCarriage i op act s).hif.reply = s.hif.reply := by
  have k0 := @dropPresettle_frame
  have k1 := @dropPresettle_inner
  have k2 := @failRun_frame
  have k3 := @failRun_inner
  have k4 := @fetchNext_frame
  have k5 := @fetchNext_inner
  have k6 := @toStart_frame
  have k7 := @toStart_inner
  simp only [startCarriage]
  repeat' split
  all_goals simp [h, when, k0, k1, k2, k3, k4, k5, k6, k7]

@[simp] theorem startCarriage_nv_pages (i op : Nat) (act : Frame → Carriage → List Byte → State → State) (s : State)
    (h : ∀ f c d t, (act f c d t).nv.pages = t.nv.pages) : (startCarriage i op act s).nv.pages = s.nv.pages := by
  have k0 := @dropPresettle_frame
  have k1 := @dropPresettle_inner
  have k2 := @failRun_frame
  have k3 := @failRun_inner
  have k4 := @fetchNext_frame
  have k5 := @fetchNext_inner
  have k6 := @toStart_frame
  have k7 := @toStart_inner
  simp only [startCarriage]
  repeat' split
  all_goals simp [h, when, k0, k1, k2, k3, k4, k5, k6, k7]

@[simp] theorem startCarriage_nv_op (i op : Nat) (act : Frame → Carriage → List Byte → State → State) (s : State)
    (h : ∀ f c d t, (act f c d t).nv.op = t.nv.op) : (startCarriage i op act s).nv.op = s.nv.op := by
  have k0 := @dropPresettle_frame
  have k1 := @dropPresettle_inner
  have k2 := @failRun_frame
  have k3 := @failRun_inner
  have k4 := @fetchNext_frame
  have k5 := @fetchNext_inner
  have k6 := @toStart_frame
  have k7 := @toStart_inner
  simp only [startCarriage]
  repeat' split
  all_goals simp [h, when, k0, k1, k2, k3, k4, k5, k6, k7]

@[simp] theorem startCarriage_nv_running (i op : Nat) (act : Frame → Carriage → List Byte → State → State) (s : State)
    (h : ∀ f c d t, (act f c d t).nv.running = t.nv.running) : (startCarriage i op act s).nv.running = s.nv.running := by
  have k0 := @dropPresettle_frame
  have k1 := @dropPresettle_inner
  have k2 := @failRun_frame
  have k3 := @failRun_inner
  have k4 := @fetchNext_frame
  have k5 := @fetchNext_inner
  have k6 := @toStart_frame
  have k7 := @toStart_inner
  simp only [startCarriage]
  repeat' split
  all_goals simp [h, when, k0, k1, k2, k3, k4, k5, k6, k7]

@[simp] theorem startCarriage_nv_suspend (i op : Nat) (act : Frame → Carriage → List Byte → State → State) (s : State)
    (h : ∀ f c d t, (act f c d t).nv.suspend = t.nv.suspend) : (startCarriage i op act s).nv.suspend = s.nv.suspend := by
  have k0 := @dropPresettle_frame
  have k1 := @dropPresettle_inner
  have k2 := @failRun_frame
  have k3 := @failRun_inner
  have k4 := @fetchNext_frame
  have k5 := @fetchNext_inner
  have k6 := @toStart_frame
  have k7 := @toStart_inner
  simp only [startCarriage]
  repeat' split
  all_goals simp [h, when, k0, k1, k2, k3, k4, k5, k6, k7]

@[simp] theorem startCarriage_nv_todo (i op : Nat) (act : Frame → Carriage → List Byte → State → State) (s : State)
    (h : ∀ f c d t, (act f c d t).nv.todo = t.nv.todo) : (startCarriage i op act s).nv.todo = s.nv.todo := by
  have k0 := @dropPresettle_frame
  have k1 := @dropPresettle_inner
  have k2 := @failRun_frame
  have k3 := @failRun_inner
  have k4 := @fetchNext_frame
  have k5 := @fetchNext_inner
  have k6 := @toStart_frame
  have k7 := @toStart_inner
  simp only [startCarriage]
  repeat' split
  all_goals simp [h, when, k0, k1, k2, k3, k4, k5, k6, k7]

@[simp] theorem startCarriage_disc_en (i op : Nat) (act : Frame → Carriage → List Byte → State → State) (s : State)
    (h : ∀ f c d t, (act f c d t).disc.en = t.disc.en) : (startCarriage i op act s).disc.en = s.disc.en := by
  have k0 := @dropPresettle_frame
  have k1 := @dropPresettle_inner
  have k2 := @failRun_frame
  have k3 := @failRun_inner
  have k4 := @fetchNext_frame
  have k5 := @fetchNext_inner
  have k6 := @toStart_frame
  have k7 := @toStart_inner
  simp only [startCarriage]
  repeat' split
  all_goals simp [h, when, k0, k1, k2, k3, k4, k5, k6, k7]

@[simp] theorem startCarriage_cal_map (i op : Nat) (act : Frame → Carriage → List Byte → State → State) (s : State)
    (h : ∀ f c d t, (act f c d t).cal.map = t.cal.map) : (startCarriage i op act s).cal.map = s.cal.map := by
  have k0 := @dropPresettle_frame
  have k1 := @dropPresettle_inner
  have k2 := @failRun_frame
  have k3 := @failRun_inner
  have k4 := @fetchNext_frame
  have k5 := @fetchNext_inner
  have k6 := @toStart_frame
  have k7 := @toStart_inner
  simp only [startCarriage]
  repeat' split
  all_goals simp [h, when, k0, k1, k2, k3, k4, k5, k6, k7]

@[simp] theorem startCarriage_cal_quality (i op : Nat) (act : Frame → Carriage → List Byte → State → State) (s : State)
    (h : ∀ f c d t, (act f c d t).cal.quality = t.cal.quality) : (startCarriage i op act s).cal.quality = s.cal.quality := by
  have k0 := @dropPresettle_frame
  have k1 := @dropPresettle_inner
  have k2 := @failRun_frame
  have k3 := @failRun_inner
  have k4 := @fetchNext_frame
  have k5 := @fetchNext_inner
  have k6 := @toStart_frame
  have k7 := @toStart_inner
  simp only [startCarriage]
  repeat' split
  all_goals simp [h, when, k0, k1, k2, k3, k4, k5, k6, k7]

@[simp] theorem startCarriage_cal_modTrim (i op : Nat) (act : Frame → Carriage → List Byte → State → State) (s : State)
    (h : ∀ f c d t, (act f c d t).cal.modTrim = t.cal.modTrim) : (startCarriage i op act s).cal.modTrim = s.cal.modTrim := by
  have k0 := @dropPresettle_frame
  have k1 := @dropPresettle_inner
  have k2 := @failRun_frame
  have k3 := @failRun_inner
  have k4 := @fetchNext_frame
  have k5 := @fetchNext_inner
  have k6 := @toStart_frame
  have k7 := @toStart_inner
  simp only [startCarriage]
  repeat' split
  all_goals simp [h, when, k0, k1, k2, k3, k4, k5, k6, k7]

@[simp] theorem startCarriage_cal_evtTrim (i op : Nat) (act : Frame → Carriage → List Byte → State → State) (s : State)
    (h : ∀ f c d t, (act f c d t).cal.evtTrim = t.cal.evtTrim) : (startCarriage i op act s).cal.evtTrim = s.cal.evtTrim := by
  have k0 := @dropPresettle_frame
  have k1 := @dropPresettle_inner
  have k2 := @failRun_frame
  have k3 := @failRun_inner
  have k4 := @fetchNext_frame
  have k5 := @fetchNext_inner
  have k6 := @toStart_frame
  have k7 := @toStart_inner
  simp only [startCarriage]
  repeat' split
  all_goals simp [h, when, k0, k1, k2, k3, k4, k5, k6, k7]

@[simp] theorem startCarriage_cal_calibrated (i op : Nat) (act : Frame → Carriage → List Byte → State → State) (s : State)
    (h : ∀ f c d t, (act f c d t).cal.calibrated = t.cal.calibrated) : (startCarriage i op act s).cal.calibrated = s.cal.calibrated := by
  have k0 := @dropPresettle_frame
  have k1 := @dropPresettle_inner
  have k2 := @failRun_frame
  have k3 := @failRun_inner
  have k4 := @fetchNext_frame
  have k5 := @fetchNext_inner
  have k6 := @toStart_frame
  have k7 := @toStart_inner
  simp only [startCarriage]
  repeat' split
  all_goals simp [h, when, k0, k1, k2, k3, k4, k5, k6, k7]

@[simp] theorem startCarriage_evt_mask (i op : Nat) (act : Frame → Carriage → List Byte → State → State) (s : State)
    (h : ∀ f c d t, (act f c d t).evt.mask = t.evt.mask) : (startCarriage i op act s).evt.mask = s.evt.mask := by
  have k0 := @dropPresettle_frame
  have k1 := @dropPresettle_inner
  have k2 := @failRun_frame
  have k3 := @failRun_inner
  have k4 := @fetchNext_frame
  have k5 := @fetchNext_inner
  have k6 := @toStart_frame
  have k7 := @toStart_inner
  simp only [startCarriage]
  repeat' split
  all_goals simp [h, when, k0, k1, k2, k3, k4, k5, k6, k7]

@[simp] theorem startCarriage_evt_copy (i op : Nat) (act : Frame → Carriage → List Byte → State → State) (s : State)
    (h : ∀ f c d t, (act f c d t).evt.copy = t.evt.copy) : (startCarriage i op act s).evt.copy = s.evt.copy := by
  have k0 := @dropPresettle_frame
  have k1 := @dropPresettle_inner
  have k2 := @failRun_frame
  have k3 := @failRun_inner
  have k4 := @fetchNext_frame
  have k5 := @fetchNext_inner
  have k6 := @toStart_frame
  have k7 := @toStart_inner
  simp only [startCarriage]
  repeat' split
  all_goals simp [h, when, k0, k1, k2, k3, k4, k5, k6, k7]

theorem settleValue_inner (i : Nat) (o : Nat ⊕ Val) (s : State) :
    (settleValue i o s).tt.ctl = s.tt.ctl ∧ (settleValue i o s).tt.instA = s.tt.instA ∧
    (settleValue i o s).tt.instB = s.tt.instB ∧ (settleValue i o s).tt.active = s.tt.active ∧
    (settleValue i o s).tt.activeValid = s.tt.activeValid ∧ (settleValue i o s).tt.startSec = s.tt.startSec ∧
    (settleValue i o s).tt.startFrac = s.tt.startFrac ∧ (settleValue i o s).tt.swPend = s.tt.swPend ∧
    (settleValue i o s).tt.protHit = s.tt.protHit := by
  have k0 := @failRun_frame
  have k1 := @failRun_inner
  simp only [settleValue, when]
  repeat' split
  all_goals simp [k0, k1]

theorem actCorrect_inner (i : Nat) (f : Frame) (c : Carriage) (d : List Byte) (s : State) :
    (actCorrect i f c d s).tt.ctl = s.tt.ctl ∧ (actCorrect i f c d s).tt.instA = s.tt.instA ∧
    (actCorrect i f c d s).tt.instB = s.tt.instB ∧ (actCorrect i f c d s).tt.active = s.tt.active ∧
    (actCorrect i f c d s).tt.activeValid = s.tt.activeValid ∧ (actCorrect i f c d s).tt.startSec = s.tt.startSec ∧
    (actCorrect i f c d s).tt.startFrac = s.tt.startFrac ∧ (actCorrect i f c d s).tt.swPend = s.tt.swPend ∧
    (actCorrect i f c d s).tt.protHit = s.tt.protHit := by
  simp only [actCorrect, when]
  repeat' split
  all_goals simp

theorem actExcite_inner (i : Nat) (x1 : Frame) (c : Carriage) (d : List Byte) (s : State) :
    (actExcite i x1 c d s).tt.ctl = s.tt.ctl ∧ (actExcite i x1 c d s).tt.instA = s.tt.instA ∧
    (actExcite i x1 c d s).tt.instB = s.tt.instB ∧ (actExcite i x1 c d s).tt.active = s.tt.active ∧
    (actExcite i x1 c d s).tt.activeValid = s.tt.activeValid ∧ (actExcite i x1 c d s).tt.startSec = s.tt.startSec ∧
    (actExcite i x1 c d s).tt.startFrac = s.tt.startFrac ∧ (actExcite i x1 c d s).tt.swPend = s.tt.swPend ∧
    (actExcite i x1 c d s).tt.protHit = s.tt.protHit ∧ (actExcite i x1 c d s).afe.ctl = s.afe.ctl ∧
    (actExcite i x1 c d s).afe.eff = s.afe.eff ∧ (actExcite i x1 c d s).afe.diag = s.afe.diag := by
  have k0 := @pairChanged_frame
  have k1 := @pairChanged_inner
  simp only [actExcite, when]
  repeat' split
  all_goals simp [k0, k1]

theorem actExcOff_inner (i : Nat) (x1 : Frame) (c : Carriage) (x2 : List Byte) (s : State) :
    (actExcOff i x1 c x2 s).tt.ctl = s.tt.ctl ∧ (actExcOff i x1 c x2 s).tt.instA = s.tt.instA ∧
    (actExcOff i x1 c x2 s).tt.instB = s.tt.instB ∧ (actExcOff i x1 c x2 s).tt.active = s.tt.active ∧
    (actExcOff i x1 c x2 s).tt.activeValid = s.tt.activeValid ∧ (actExcOff i x1 c x2 s).tt.startSec = s.tt.startSec ∧
    (actExcOff i x1 c x2 s).tt.startFrac = s.tt.startFrac ∧ (actExcOff i x1 c x2 s).tt.swPend = s.tt.swPend ∧
    (actExcOff i x1 c x2 s).tt.protHit = s.tt.protHit ∧ (actExcOff i x1 c x2 s).afe.ctl = s.afe.ctl ∧
    (actExcOff i x1 c x2 s).afe.eff = s.afe.eff ∧ (actExcOff i x1 c x2 s).afe.diag = s.afe.diag := by
  have k0 := @pairChanged_frame
  have k1 := @pairChanged_inner
  simp only [actExcOff, when]
  repeat' split
  all_goals simp [k0, k1]

theorem actConvert_inner (i : Nat) (fault : Option Nat) (f : Frame) (c : Carriage) (s : State) :
    (actConvert i fault f c s).tt.ctl = s.tt.ctl ∧ (actConvert i fault f c s).tt.instA = s.tt.instA ∧
    (actConvert i fault f c s).tt.instB = s.tt.instB ∧ (actConvert i fault f c s).tt.active = s.tt.active ∧
    (actConvert i fault f c s).tt.activeValid = s.tt.activeValid ∧
    (actConvert i fault f c s).tt.startSec = s.tt.startSec ∧
    (actConvert i fault f c s).tt.startFrac = s.tt.startFrac ∧ (actConvert i fault f c s).tt.swPend = s.tt.swPend ∧
    (actConvert i fault f c s).tt.protHit = s.tt.protHit := by
  have k0 := @failRun_frame
  have k1 := @failRun_inner
  simp only [actConvert, when]
  repeat' split
  all_goals simp [k0, k1]

theorem placeFmt_inner (i reason : Nat) (x : FmtRead) (s : State) :
    (placeFmt i reason x s).tt.ctl = s.tt.ctl ∧ (placeFmt i reason x s).tt.instA = s.tt.instA ∧
    (placeFmt i reason x s).tt.instB = s.tt.instB ∧ (placeFmt i reason x s).tt.active = s.tt.active ∧
    (placeFmt i reason x s).tt.activeValid = s.tt.activeValid ∧ (placeFmt i reason x s).tt.startSec = s.tt.startSec ∧
    (placeFmt i reason x s).tt.startFrac = s.tt.startFrac ∧ (placeFmt i reason x s).tt.swPend = s.tt.swPend ∧
    (placeFmt i reason x s).tt.protHit = s.tt.protHit := by
  simp only [placeFmt, when]
  repeat' split
  all_goals simp

theorem emitBy_inner (i : Nat) (x : FmtRead) (s : State) :
    (emitBy i x s).tt.ctl = s.tt.ctl ∧ (emitBy i x s).tt.instA = s.tt.instA ∧ (emitBy i x s).tt.instB = s.tt.instB ∧
    (emitBy i x s).tt.active = s.tt.active ∧ (emitBy i x s).tt.activeValid = s.tt.activeValid ∧
    (emitBy i x s).tt.startSec = s.tt.startSec ∧ (emitBy i x s).tt.startFrac = s.tt.startFrac ∧
    (emitBy i x s).tt.swPend = s.tt.swPend ∧ (emitBy i x s).tt.protHit = s.tt.protHit := by
  have k0 := @placeFmt_frame
  have k1 := @placeFmt_inner
  simp only [emitBy, when]
  repeat' split
  all_goals simp [k0, k1]

theorem aoutBy_inner (i n : Nat) (x : FmtRead) (s : State) :
    (aoutBy i n x s).tt.ctl = s.tt.ctl ∧ (aoutBy i n x s).tt.instA = s.tt.instA ∧
    (aoutBy i n x s).tt.instB = s.tt.instB ∧ (aoutBy i n x s).tt.active = s.tt.active ∧
    (aoutBy i n x s).tt.activeValid = s.tt.activeValid ∧ (aoutBy i n x s).tt.startSec = s.tt.startSec ∧
    (aoutBy i n x s).tt.startFrac = s.tt.startFrac ∧ (aoutBy i n x s).tt.swPend = s.tt.swPend ∧
    (aoutBy i n x s).tt.protHit = s.tt.protHit ∧ (aoutBy i n x s).out.code = s.out.code ∧
    (aoutBy i n x s).out.cfg = s.out.cfg ∧ (aoutBy i n x s).out.gen = s.out.gen ∧
    (aoutBy i n x s).out.span = s.out.span ∧ (aoutBy i n x s).out.staged = s.out.staged := by
  have k0 := @aoutSet_frame
  have k1 := @aoutSet_inner
  have k2 := @placeFmt_frame
  have k3 := @placeFmt_inner
  simp only [aoutBy, when]
  repeat' split
  all_goals simp [k0, k1, k2, k3]

theorem ledgerBy_inner (i : Nat) (c : Carriage) (x : FmtRead) (s : State) :
    (ledgerBy i c x s).tt.ctl = s.tt.ctl ∧ (ledgerBy i c x s).tt.instA = s.tt.instA ∧
    (ledgerBy i c x s).tt.instB = s.tt.instB ∧ (ledgerBy i c x s).tt.active = s.tt.active ∧
    (ledgerBy i c x s).tt.activeValid = s.tt.activeValid ∧ (ledgerBy i c x s).tt.startSec = s.tt.startSec ∧
    (ledgerBy i c x s).tt.startFrac = s.tt.startFrac ∧ (ledgerBy i c x s).tt.swPend = s.tt.swPend ∧
    (ledgerBy i c x s).tt.protHit = s.tt.protHit ∧ (ledgerBy i c x s).ldg.ctl = s.ldg.ctl ∧
    (ledgerBy i c x s).ldg.lap = s.ldg.lap := by
  have k0 := @ldgAdd_frame
  have k1 := @ldgAdd_inner
  have k2 := @placeFmt_frame
  have k3 := @placeFmt_inner
  simp only [ledgerBy, when]
  repeat' split
  all_goals simp [k0, k1, k2, k3]

theorem deliverBy_inner (i : Nat) (f : Frame) (c : Carriage) (x : FmtRead) (s : State) :
    (deliverBy i f c x s).tt.ctl = s.tt.ctl ∧ (deliverBy i f c x s).tt.instA = s.tt.instA ∧
    (deliverBy i f c x s).tt.instB = s.tt.instB ∧ (deliverBy i f c x s).tt.active = s.tt.active ∧
    (deliverBy i f c x s).tt.activeValid = s.tt.activeValid ∧ (deliverBy i f c x s).tt.startSec = s.tt.startSec ∧
    (deliverBy i f c x s).tt.startFrac = s.tt.startFrac ∧ (deliverBy i f c x s).tt.swPend = s.tt.swPend ∧
    (deliverBy i f c x s).tt.protHit = s.tt.protHit ∧ (deliverBy i f c x s).ldg.ctl = s.ldg.ctl ∧
    (deliverBy i f c x s).ldg.lap = s.ldg.lap ∧ (deliverBy i f c x s).out.code = s.out.code ∧
    (deliverBy i f c x s).out.cfg = s.out.cfg ∧ (deliverBy i f c x s).out.gen = s.out.gen ∧
    (deliverBy i f c x s).out.span = s.out.span ∧ (deliverBy i f c x s).out.staged = s.out.staged := by
  have k0 := @aoutBy_frame
  have k1 := @aoutBy_inner
  have k2 := @emitBy_frame
  have k3 := @emitBy_inner
  have k4 := @ledgerBy_frame
  have k5 := @ledgerBy_inner
  simp only [deliverBy, when]
  repeat' split
  all_goals simp [k0, k1, k2, k3, k4, k5]

theorem actDeliver_inner (i : Nat) (f : Frame) (c : Carriage) (d : List Byte) (s : State) :
    (actDeliver i f c d s).tt.ctl = s.tt.ctl ∧ (actDeliver i f c d s).tt.instA = s.tt.instA ∧
    (actDeliver i f c d s).tt.instB = s.tt.instB ∧ (actDeliver i f c d s).tt.active = s.tt.active ∧
    (actDeliver i f c d s).tt.activeValid = s.tt.activeValid ∧ (actDeliver i f c d s).tt.startSec = s.tt.startSec ∧
    (actDeliver i f c d s).tt.startFrac = s.tt.startFrac ∧ (actDeliver i f c d s).tt.swPend = s.tt.swPend ∧
    (actDeliver i f c d s).tt.protHit = s.tt.protHit ∧ (actDeliver i f c d s).ldg.ctl = s.ldg.ctl ∧
    (actDeliver i f c d s).ldg.lap = s.ldg.lap ∧ (actDeliver i f c d s).out.code = s.out.code ∧
    (actDeliver i f c d s).out.cfg = s.out.cfg ∧ (actDeliver i f c d s).out.gen = s.out.gen ∧
    (actDeliver i f c d s).out.span = s.out.span ∧ (actDeliver i f c d s).out.staged = s.out.staged := by
  have k0 := @deliverBy_frame
  have k1 := @deliverBy_inner
  have k2 := @failRun_frame
  have k3 := @failRun_inner
  simp only [actDeliver, when]
  repeat' split
  all_goals simp [k0, k1, k2, k3]

@[simp] theorem endAtOnce_inner (i : Nat) (s : State) :
    (endAtOnce i s).tt.ctl = s.tt.ctl ∧ (endAtOnce i s).tt.instA = s.tt.instA ∧
    (endAtOnce i s).tt.instB = s.tt.instB ∧ (endAtOnce i s).tt.active = s.tt.active ∧
    (endAtOnce i s).tt.activeValid = s.tt.activeValid ∧ (endAtOnce i s).tt.startSec = s.tt.startSec ∧
    (endAtOnce i s).tt.startFrac = s.tt.startFrac ∧ (endAtOnce i s).tt.swPend = s.tt.swPend ∧
    (endAtOnce i s).tt.protHit = s.tt.protHit ∧ (endAtOnce i s).clk.src = s.clk.src ∧
    (endAtOnce i s).clk.limits = s.clk.limits ∧ (endAtOnce i s).clk.spread = s.clk.spread ∧
    (endAtOnce i s).clk.active = s.clk.active ∧ (endAtOnce i s).clk.plans = s.clk.plans ∧
    (endAtOnce i s).clk.bypass = s.clk.bypass ∧ (endAtOnce i s).clk.drift = s.clk.drift ∧
    (endAtOnce i s).clk.q = s.clk.q ∧ (endAtOnce i s).afe.ctl = s.afe.ctl ∧ (endAtOnce i s).afe.eff = s.afe.eff ∧
    (endAtOnce i s).afe.diag = s.afe.diag ∧ (endAtOnce i s).ros.sealed = s.ros.sealed ∧
    (endAtOnce i s).out.cfg = s.out.cfg ∧ (endAtOnce i s).out.gen = s.out.gen ∧
    (endAtOnce i s).out.span = s.out.span ∧ (endAtOnce i s).out.staged = s.out.staged ∧
    (endAtOnce i s).evt.mask = s.evt.mask ∧ (endAtOnce i s).evt.copy = s.evt.copy := by
  have k0 := @finishUpTo_frame
  have k1 := @finishUpTo_inner
  simp only [endAtOnce, when]
  repeat' split
  all_goals simp [k0, k1]

theorem takeStage_inner (fault : Option Nat) (f : Frame) (c : Carriage) (s : State) :
    (takeStage fault f c s).afe.ctl = s.afe.ctl ∧ (takeStage fault f c s).afe.eff = s.afe.eff ∧
    (takeStage fault f c s).afe.diag = s.afe.diag := by
  have k0 := @applyStage_frame
  have k1 := @applyStage_inner
  simp only [takeStage, when]
  repeat' split
  all_goals simp [k0, k1]

theorem actOp_inner (i op : Nat) (f : Frame) (c : Carriage) (d : List Byte) (s : State) :
    (actOp i op f c d s).tt.ctl = s.tt.ctl ∧ (actOp i op f c d s).tt.instA = s.tt.instA ∧
    (actOp i op f c d s).tt.instB = s.tt.instB ∧ (actOp i op f c d s).tt.active = s.tt.active ∧
    (actOp i op f c d s).tt.activeValid = s.tt.activeValid ∧ (actOp i op f c d s).tt.startSec = s.tt.startSec ∧
    (actOp i op f c d s).tt.startFrac = s.tt.startFrac ∧ (actOp i op f c d s).tt.swPend = s.tt.swPend ∧
    (actOp i op f c d s).tt.protHit = s.tt.protHit ∧ (actOp i op f c d s).ldg.ctl = s.ldg.ctl ∧
    (actOp i op f c d s).ldg.lap = s.ldg.lap ∧ (actOp i op f c d s).afe.ctl = s.afe.ctl ∧
    (actOp i op f c d s).afe.eff = s.afe.eff ∧ (actOp i op f c d s).afe.diag = s.afe.diag ∧
    (actOp i op f c d s).out.code = s.out.code ∧ (actOp i op f c d s).out.cfg = s.out.cfg ∧
    (actOp i op f c d s).out.gen = s.out.gen ∧ (actOp i op f c d s).out.span = s.out.span ∧
    (actOp i op f c d s).out.staged = s.out.staged := by
  have k0 := @actConvert_frame
  have k1 := @actConvert_inner
  have k2 := @actCorrect_frame
  have k3 := @actCorrect_inner
  have k4 := @actDeliver_frame
  have k5 := @actDeliver_inner
  have k6 := @actExcOff_frame
  have k7 := @actExcOff_inner
  have k8 := @actExcite_frame
  have k9 := @actExcite_inner
  have k10 := @settleValue_frame
  have k11 := @settleValue_inner
  have k12 := @takeStage_frame
  have k13 := @takeStage_inner
  simp only [actOp, when]
  repeat' split
  all_goals simp [k0, k1, k2, k3, k4, k5, k6, k7, k8, k9, k10, k11, k12, k13]

@[simp] theorem startOp_inner (i op : Nat) (s : State) :
    (startOp i op s).tt.ctl = s.tt.ctl ∧ (startOp i op s).tt.instA = s.tt.instA ∧
    (startOp i op s).tt.instB = s.tt.instB ∧ (startOp i op s).tt.active = s.tt.active ∧
    (startOp i op s).tt.activeValid = s.tt.activeValid ∧ (startOp i op s).tt.startSec = s.tt.startSec ∧
    (startOp i op s).tt.startFrac = s.tt.startFrac ∧ (startOp i op s).tt.swPend = s.tt.swPend ∧
    (startOp i op s).tt.protHit = s.tt.protHit ∧ (startOp i op s).clk.src = s.clk.src ∧
    (startOp i op s).clk.limits = s.clk.limits ∧ (startOp i op s).clk.spread = s.clk.spread ∧
    (startOp i op s).clk.active = s.clk.active ∧ (startOp i op s).clk.plans = s.clk.plans ∧
    (startOp i op s).clk.bypass = s.clk.bypass ∧ (startOp i op s).clk.drift = s.clk.drift ∧
    (startOp i op s).clk.q = s.clk.q ∧ (startOp i op s).ldg.ctl = s.ldg.ctl ∧ (startOp i op s).ldg.lap = s.ldg.lap ∧
    (startOp i op s).afe.ctl = s.afe.ctl ∧ (startOp i op s).afe.eff = s.afe.eff ∧
    (startOp i op s).afe.diag = s.afe.diag ∧ (startOp i op s).ros.sealed = s.ros.sealed ∧
    (startOp i op s).out.cfg = s.out.cfg ∧ (startOp i op s).out.gen = s.out.gen ∧
    (startOp i op s).out.span = s.out.span ∧ (startOp i op s).out.staged = s.out.staged ∧
    (startOp i op s).evt.mask = s.evt.mask ∧ (startOp i op s).evt.copy = s.evt.copy := by
  have k0 := @actOp_frame
  have k1 := @actOp_inner
  simp only [startOp, when]
  repeat' split
  all_goals simp [k0, k1]

theorem startDue_inner (n i : Nat) (s : State) :
    (startDue n i s).tt.ctl = s.tt.ctl ∧ (startDue n i s).tt.instA = s.tt.instA ∧
    (startDue n i s).tt.instB = s.tt.instB ∧ (startDue n i s).tt.active = s.tt.active ∧
    (startDue n i s).tt.activeValid = s.tt.activeValid ∧ (startDue n i s).tt.startSec = s.tt.startSec ∧
    (startDue n i s).tt.startFrac = s.tt.startFrac ∧ (startDue n i s).tt.swPend = s.tt.swPend ∧
    (startDue n i s).tt.protHit = s.tt.protHit ∧ (startDue n i s).clk.src = s.clk.src ∧
    (startDue n i s).clk.limits = s.clk.limits ∧ (startDue n i s).clk.spread = s.clk.spread ∧
    (startDue n i s).clk.active = s.clk.active ∧ (startDue n i s).clk.plans = s.clk.plans ∧
    (startDue n i s).clk.bypass = s.clk.bypass ∧ (startDue n i s).clk.drift = s.clk.drift ∧
    (startDue n i s).clk.q = s.clk.q ∧ (startDue n i s).ldg.ctl = s.ldg.ctl ∧ (startDue n i s).ldg.lap = s.ldg.lap ∧
    (startDue n i s).afe.ctl = s.afe.ctl ∧ (startDue n i s).afe.eff = s.afe.eff ∧
    (startDue n i s).afe.diag = s.afe.diag ∧ (startDue n i s).ros.sealed = s.ros.sealed ∧
    (startDue n i s).out.cfg = s.out.cfg ∧ (startDue n i s).out.gen = s.out.gen ∧
    (startDue n i s).out.span = s.out.span ∧ (startDue n i s).out.staged = s.out.staged ∧
    (startDue n i s).evt.mask = s.evt.mask ∧ (startDue n i s).evt.copy = s.evt.copy := by
  simp only [startDue, when]
  repeat' split
  all_goals simp

theorem addsFirst_inner (n : Nat) (s : State) :
    (addsFirst n s).tt.ctl = s.tt.ctl ∧ (addsFirst n s).tt.instA = s.tt.instA ∧
    (addsFirst n s).tt.instB = s.tt.instB ∧ (addsFirst n s).tt.active = s.tt.active ∧
    (addsFirst n s).tt.activeValid = s.tt.activeValid ∧ (addsFirst n s).tt.startSec = s.tt.startSec ∧
    (addsFirst n s).tt.startFrac = s.tt.startFrac ∧ (addsFirst n s).tt.swPend = s.tt.swPend ∧
    (addsFirst n s).tt.protHit = s.tt.protHit ∧ (addsFirst n s).clk.src = s.clk.src ∧
    (addsFirst n s).clk.limits = s.clk.limits ∧ (addsFirst n s).clk.spread = s.clk.spread ∧
    (addsFirst n s).clk.active = s.clk.active ∧ (addsFirst n s).clk.plans = s.clk.plans ∧
    (addsFirst n s).clk.bypass = s.clk.bypass ∧ (addsFirst n s).clk.drift = s.clk.drift ∧
    (addsFirst n s).clk.q = s.clk.q ∧ (addsFirst n s).ldg.ctl = s.ldg.ctl ∧ (addsFirst n s).ldg.lap = s.ldg.lap ∧
    (addsFirst n s).afe.ctl = s.afe.ctl ∧ (addsFirst n s).afe.eff = s.afe.eff ∧
    (addsFirst n s).afe.diag = s.afe.diag ∧ (addsFirst n s).ros.sealed = s.ros.sealed ∧
    (addsFirst n s).out.cfg = s.out.cfg ∧ (addsFirst n s).out.gen = s.out.gen ∧
    (addsFirst n s).out.span = s.out.span ∧ (addsFirst n s).out.staged = s.out.staged ∧
    (addsFirst n s).evt.mask = s.evt.mask ∧ (addsFirst n s).evt.copy = s.evt.copy := by
  have k0 := @startDue_frame
  have k1 := @startDue_inner
  simp only [addsFirst, when]
  repeat' split
  all_goals simp [k0, k1]

theorem instantAt_inner (m : Moment) (r : LdgReq) (stamp : Stamp) (s : State) :
    (instantAt m r stamp s).tt.ctl = s.tt.ctl ∧ (instantAt m r stamp s).tt.instA = s.tt.instA ∧
    (instantAt m r stamp s).tt.instB = s.tt.instB ∧ (instantAt m r stamp s).tt.active = s.tt.active ∧
    (instantAt m r stamp s).tt.activeValid = s.tt.activeValid ∧ (instantAt m r stamp s).tt.startSec = s.tt.startSec ∧
    (instantAt m r stamp s).tt.startFrac = s.tt.startFrac ∧ (instantAt m r stamp s).tt.swPend = s.tt.swPend ∧
    (instantAt m r stamp s).tt.protHit = s.tt.protHit ∧ (instantAt m r stamp s).sys.phase = s.sys.phase ∧
    (instantAt m r stamp s).sys.cause = s.sys.cause ∧ (instantAt m r stamp s).sys.cfgState = s.sys.cfgState ∧
    (instantAt m r stamp s).sys.x32Run = s.sys.x32Run ∧ (instantAt m r stamp s).sys.measRst = s.sys.measRst ∧
    (instantAt m r stamp s).sys.earlyWr = s.sys.earlyWr ∧ (instantAt m r stamp s).sys.lostCmds = s.sys.lostCmds ∧
    (instantAt m r stamp s).clk.src = s.clk.src ∧ (instantAt m r stamp s).clk.limits = s.clk.limits ∧
    (instantAt m r stamp s).clk.spread = s.clk.spread ∧ (instantAt m r stamp s).clk.active = s.clk.active ∧
    (instantAt m r stamp s).clk.plans = s.clk.plans ∧ (instantAt m r stamp s).clk.bypass = s.clk.bypass ∧
    (instantAt m r stamp s).clk.drift = s.clk.drift ∧ (instantAt m r stamp s).clk.q = s.clk.q ∧
    (instantAt m r stamp s).afe.ctl = s.afe.ctl ∧ (instantAt m r stamp s).afe.eff = s.afe.eff ∧
    (instantAt m r stamp s).afe.diag = s.afe.diag ∧ (instantAt m r stamp s).ros.sealed = s.ros.sealed ∧
    (instantAt m r stamp s).out.cfg = s.out.cfg ∧ (instantAt m r stamp s).out.gen = s.out.gen ∧
    (instantAt m r stamp s).out.span = s.out.span ∧ (instantAt m r stamp s).out.staged = s.out.staged ∧
    (instantAt m r stamp s).nv.pages = s.nv.pages ∧ (instantAt m r stamp s).nv.running = s.nv.running ∧
    (instantAt m r stamp s).nv.suspend = s.nv.suspend ∧ (instantAt m r stamp s).nv.todo = s.nv.todo ∧
    (instantAt m r stamp s).evt.mask = s.evt.mask ∧ (instantAt m r stamp s).evt.copy = s.evt.copy := by
  have k0 := @addsFirst_frame
  have k1 := @addsFirst_inner
  have k2 := @ldgInstant_frame
  have k3 := @ldgInstant_inner
  simp only [instantAt, when]
  repeat' split
  all_goals simp [k0, k1, k2, k3]

theorem setConf_inner (k : Nat) (c : Option Confirm) (s : State) :
    (setConf k c s).evin.incfg = s.evin.incfg ∧ (setConf k c s).evin.level = s.evin.level ∧
    (setConf k c s).evin.syncLevel = s.evin.syncLevel := by
  simp only [setConf, when]
  repeat' split
  all_goals simp

theorem setAccepted_inner (k : Nat) (level : Bool) (s : State) :
    (setAccepted k level s).evin.incfg = s.evin.incfg := by
  simp only [setAccepted, when]
  repeat' split
  all_goals simp

theorem syncRestart_inner (n : Nat) (s : State) :
    (syncRestart n s).tt.ctl = s.tt.ctl ∧ (syncRestart n s).tt.instA = s.tt.instA ∧
    (syncRestart n s).tt.instB = s.tt.instB ∧ (syncRestart n s).tt.active = s.tt.active ∧
    (syncRestart n s).tt.activeValid = s.tt.activeValid ∧ (syncRestart n s).tt.startSec = s.tt.startSec ∧
    (syncRestart n s).tt.startFrac = s.tt.startFrac ∧ (syncRestart n s).tt.swPend = s.tt.swPend ∧
    (syncRestart n s).tt.protHit = s.tt.protHit := by
  simp only [syncRestart, when]
  repeat' split
  all_goals simp

theorem syncReset_inner (n : Nat) (s : State) :
    (syncReset n s).tt.ctl = s.tt.ctl ∧ (syncReset n s).tt.instA = s.tt.instA ∧
    (syncReset n s).tt.instB = s.tt.instB ∧ (syncReset n s).tt.active = s.tt.active ∧
    (syncReset n s).tt.activeValid = s.tt.activeValid ∧ (syncReset n s).tt.startSec = s.tt.startSec ∧
    (syncReset n s).tt.startFrac = s.tt.startFrac ∧ (syncReset n s).tt.swPend = s.tt.swPend ∧
    (syncReset n s).tt.protHit = s.tt.protHit := by
  have k0 := @syncRestart_frame
  have k1 := @syncRestart_inner
  simp only [syncReset, when]
  repeat' split
  all_goals simp [k0, k1]

theorem holdSync_inner (n : Nat) (s : State) :
    (holdSync n s).evin.incfg = s.evin.incfg := by
  have k0 := @setAccepted_frame
  have k1 := @setAccepted_inner
  simp only [holdSync, when]
  repeat' split
  all_goals simp [k0, k1]

theorem compared_inner (ks : List Nat) (s : State) :
    (compared ks s).evin.incfg = s.evin.incfg ∧ (compared ks s).evin.level = s.evin.level ∧
    (compared ks s).evin.syncLevel = s.evin.syncLevel := by
  simp only [compared, when]
  repeat' split
  all_goals simp

theorem withRise_inner (q : Option Nat) (rise : Option Stamp) (xs : List Occ) (laps : Nat) (s : State) :
    (withRise q rise xs laps s).2.2.evin.incfg = s.evin.incfg ∧
    (withRise q rise xs laps s).2.2.evin.level = s.evin.level ∧
    (withRise q rise xs laps s).2.2.evin.syncLevel = s.evin.syncLevel ∧
    (withRise q rise xs laps s).2.2.tt.ctl = s.tt.ctl ∧ (withRise q rise xs laps s).2.2.tt.instA = s.tt.instA ∧
    (withRise q rise xs laps s).2.2.tt.instB = s.tt.instB ∧ (withRise q rise xs laps s).2.2.tt.active = s.tt.active ∧
    (withRise q rise xs laps s).2.2.tt.activeValid = s.tt.activeValid ∧
    (withRise q rise xs laps s).2.2.tt.startSec = s.tt.startSec ∧
    (withRise q rise xs laps s).2.2.tt.startFrac = s.tt.startFrac ∧
    (withRise q rise xs laps s).2.2.tt.swPend = s.tt.swPend ∧
    (withRise q rise xs laps s).2.2.tt.protHit = s.tt.protHit ∧
    (withRise q rise xs laps s).2.2.evt.mask = s.evt.mask ∧ (withRise q rise xs laps s).2.2.evt.copy = s.evt.copy := by
  have k0 := @syncReset_frame
  have k1 := @syncReset_inner
  simp only [withRise, when]
  repeat' split
  all_goals simp [k0, k1]

theorem comparedAt_inner (q : Option Nat) (s : State) :
    (comparedAt q s).evin.incfg = s.evin.incfg ∧ (comparedAt q s).evin.level = s.evin.level ∧
    (comparedAt q s).evin.syncLevel = s.evin.syncLevel := by
  have k0 := @compared_frame
  have k1 := @compared_inner
  simp only [comparedAt, when]
  repeat' split
  all_goals simp [k0, k1]

theorem inputsAt_inner (q : Option Nat) (steps : List Step) (s : State) :
    (inputsAt q steps s).2.2.evin.incfg = s.evin.incfg ∧ (inputsAt q steps s).2.2.tt.ctl = s.tt.ctl ∧
    (inputsAt q steps s).2.2.tt.instA = s.tt.instA ∧ (inputsAt q steps s).2.2.tt.instB = s.tt.instB ∧
    (inputsAt q steps s).2.2.tt.active = s.tt.active ∧ (inputsAt q steps s).2.2.tt.activeValid = s.tt.activeValid ∧
    (inputsAt q steps s).2.2.tt.startSec = s.tt.startSec ∧ (inputsAt q steps s).2.2.tt.startFrac = s.tt.startFrac ∧
    (inputsAt q steps s).2.2.tt.swPend = s.tt.swPend ∧ (inputsAt q steps s).2.2.tt.protHit = s.tt.protHit ∧
    (inputsAt q steps s).2.2.evt.mask = s.evt.mask ∧ (inputsAt q steps s).2.2.evt.copy = s.evt.copy := by
  have k0 := @comparedAt_frame
  have k1 := @comparedAt_inner
  have k2 := @setAccepted_frame
  have k3 := @setAccepted_inner
  have k4 := @smSteps_frame
  have k5 := @smSteps_inner
  have k6 := @withRise_frame
  have k7 := @withRise_inner
  simp only [inputsAt, when]
  repeat' split
  all_goals simp [k0, k1, k2, k3, k4, k5, k6, k7]

theorem lapReq_inner (n : Nat) (r : LdgReq) (s : State) :
    (lapReq n r s).2.ldg.ctl = s.ldg.ctl ∧ (lapReq n r s).2.ldg.run = s.ldg.run ∧
    (lapReq n r s).2.ldg.cnt = s.ldg.cnt ∧ (lapReq n r s).2.evt.mask = s.evt.mask ∧
    (lapReq n r s).2.evt.copy = s.evt.copy := by
  have k0 := @lapRefused_frame
  have k1 := @lapRefused_inner
  simp only [lapReq, when]
  repeat' split
  all_goals simp [k0, k1]

theorem takeCmdsAt_inner (m : Moment) (r : LdgReq) (s : State) :
    (takeCmdsAt m r s).2.cond.arg0 = s.cond.arg0 ∧ (takeCmdsAt m r s).2.cond.arg1 = s.cond.arg1 ∧
    (takeCmdsAt m r s).2.cond.arg2 = s.cond.arg2 ∧ (takeCmdsAt m r s).2.cond.queue = s.cond.queue ∧
    (takeCmdsAt m r s).2.cond.running = s.cond.running ∧ (takeCmdsAt m r s).2.cond.tail = s.cond.tail ∧
    (takeCmdsAt m r s).2.cond.switches = s.cond.switches ∧ (takeCmdsAt m r s).2.cond.inReset = s.cond.inReset ∧
    (takeCmdsAt m r s).2.ldg.ctl = s.ldg.ctl ∧ (takeCmdsAt m r s).2.ldg.run = s.ldg.run ∧
    (takeCmdsAt m r s).2.ldg.cnt = s.ldg.cnt ∧ (takeCmdsAt m r s).2.evt.mask = s.evt.mask ∧
    (takeCmdsAt m r s).2.evt.copy = s.evt.copy := by
  have k0 := @ldgTakeCmds_frame
  have k1 := @ldgTakeCmds_inner
  simp only [takeCmdsAt, when]
  repeat' split
  all_goals simp [k0, k1]

@[simp] theorem registerAt_inner (m : Moment) (steps : List Step) (extra : List Occ) (s : State) :
    (registerAt m steps extra s).evin.incfg = s.evin.incfg ∧ (registerAt m steps extra s).tt.ctl = s.tt.ctl ∧
    (registerAt m steps extra s).tt.instA = s.tt.instA ∧ (registerAt m steps extra s).tt.instB = s.tt.instB ∧
    (registerAt m steps extra s).tt.active = s.tt.active ∧
    (registerAt m steps extra s).tt.activeValid = s.tt.activeValid ∧
    (registerAt m steps extra s).tt.startSec = s.tt.startSec ∧
    (registerAt m steps extra s).tt.startFrac = s.tt.startFrac ∧
    (registerAt m steps extra s).tt.swPend = s.tt.swPend ∧ (registerAt m steps extra s).tt.protHit = s.tt.protHit ∧
    (registerAt m steps extra s).sys.phase = s.sys.phase ∧ (registerAt m steps extra s).sys.cause = s.sys.cause ∧
    (registerAt m steps extra s).sys.cfgState = s.sys.cfgState ∧
    (registerAt m steps extra s).sys.x32Run = s.sys.x32Run ∧
    (registerAt m steps extra s).sys.measRst = s.sys.measRst ∧
    (registerAt m steps extra s).sys.earlyWr = s.sys.earlyWr ∧
    (registerAt m steps extra s).sys.lostCmds = s.sys.lostCmds ∧ (registerAt m steps extra s).clk.src = s.clk.src ∧
    (registerAt m steps extra s).clk.limits = s.clk.limits ∧ (registerAt m steps extra s).clk.spread = s.clk.spread ∧
    (registerAt m steps extra s).clk.active = s.clk.active ∧ (registerAt m steps extra s).clk.plans = s.clk.plans ∧
    (registerAt m steps extra s).clk.drift = s.clk.drift ∧ (registerAt m steps extra s).cond.arg0 = s.cond.arg0 ∧
    (registerAt m steps extra s).cond.arg1 = s.cond.arg1 ∧ (registerAt m steps extra s).cond.arg2 = s.cond.arg2 ∧
    (registerAt m steps extra s).cond.queue = s.cond.queue ∧
    (registerAt m steps extra s).cond.running = s.cond.running ∧
    (registerAt m steps extra s).cond.tail = s.cond.tail ∧
    (registerAt m steps extra s).cond.switches = s.cond.switches ∧
    (registerAt m steps extra s).cond.inReset = s.cond.inReset ∧ (registerAt m steps extra s).afe.ctl = s.afe.ctl ∧
    (registerAt m steps extra s).afe.eff = s.afe.eff ∧ (registerAt m steps extra s).afe.diag = s.afe.diag ∧
    (registerAt m steps extra s).ros.sealed = s.ros.sealed ∧ (registerAt m steps extra s).out.cfg = s.out.cfg ∧
    (registerAt m steps extra s).out.gen = s.out.gen ∧ (registerAt m steps extra s).out.span = s.out.span ∧
    (registerAt m steps extra s).out.staged = s.out.staged ∧ (registerAt m steps extra s).nv.pages = s.nv.pages ∧
    (registerAt m steps extra s).nv.running = s.nv.running ∧ (registerAt m steps extra s).nv.suspend = s.nv.suspend ∧
    (registerAt m steps extra s).nv.todo = s.nv.todo ∧ (registerAt m steps extra s).evt.mask = s.evt.mask ∧
    (registerAt m steps extra s).evt.copy = s.evt.copy := by
  have k0 := @inputsAt_frame
  have k1 := @inputsAt_inner
  have k2 := @instantAt_frame
  have k3 := @instantAt_inner
  have k4 := @lapReq_frame
  have k5 := @lapReq_inner
  have k6 := @takeCmdsAt_frame
  have k7 := @takeCmdsAt_inner
  simp only [registerAt, when]
  repeat' split
  all_goals simp [k0, k1, k2, k3, k4, k5, k6, k7]

theorem acceptFast_inner (q : Nat) (s : State) :
    (acceptFast q s).evin.incfg = s.evin.incfg ∧ (acceptFast q s).tt.ctl = s.tt.ctl ∧
    (acceptFast q s).tt.instA = s.tt.instA ∧ (acceptFast q s).tt.instB = s.tt.instB ∧
    (acceptFast q s).tt.active = s.tt.active ∧ (acceptFast q s).tt.activeValid = s.tt.activeValid ∧
    (acceptFast q s).tt.startSec = s.tt.startSec ∧ (acceptFast q s).tt.startFrac = s.tt.startFrac ∧
    (acceptFast q s).tt.swPend = s.tt.swPend ∧ (acceptFast q s).tt.protHit = s.tt.protHit ∧
    (acceptFast q s).sys.phase = s.sys.phase ∧ (acceptFast q s).sys.cause = s.sys.cause ∧
    (acceptFast q s).sys.cfgState = s.sys.cfgState ∧ (acceptFast q s).sys.x32Run = s.sys.x32Run ∧
    (acceptFast q s).sys.measRst = s.sys.measRst ∧ (acceptFast q s).sys.earlyWr = s.sys.earlyWr ∧
    (acceptFast q s).sys.lostCmds = s.sys.lostCmds ∧ (acceptFast q s).clk.src = s.clk.src ∧
    (acceptFast q s).clk.limits = s.clk.limits ∧ (acceptFast q s).clk.spread = s.clk.spread ∧
    (acceptFast q s).clk.active = s.clk.active ∧ (acceptFast q s).clk.plans = s.clk.plans ∧
    (acceptFast q s).clk.drift = s.clk.drift ∧ (acceptFast q s).cond.arg0 = s.cond.arg0 ∧
    (acceptFast q s).cond.arg1 = s.cond.arg1 ∧ (acceptFast q s).cond.arg2 = s.cond.arg2 ∧
    (acceptFast q s).cond.queue = s.cond.queue ∧ (acceptFast q s).cond.running = s.cond.running ∧
    (acceptFast q s).cond.tail = s.cond.tail ∧ (acceptFast q s).cond.switches = s.cond.switches ∧
    (acceptFast q s).cond.inReset = s.cond.inReset ∧ (acceptFast q s).afe.ctl = s.afe.ctl ∧
    (acceptFast q s).afe.eff = s.afe.eff ∧ (acceptFast q s).afe.diag = s.afe.diag ∧
    (acceptFast q s).ros.sealed = s.ros.sealed ∧ (acceptFast q s).out.cfg = s.out.cfg ∧
    (acceptFast q s).out.gen = s.out.gen ∧ (acceptFast q s).out.span = s.out.span ∧
    (acceptFast q s).out.staged = s.out.staged ∧ (acceptFast q s).nv.pages = s.nv.pages ∧
    (acceptFast q s).nv.running = s.nv.running ∧ (acceptFast q s).nv.suspend = s.nv.suspend ∧
    (acceptFast q s).nv.todo = s.nv.todo ∧ (acceptFast q s).evt.mask = s.evt.mask ∧
    (acceptFast q s).evt.copy = s.evt.copy := by
  simp only [acceptFast, when]
  repeat' split
  all_goals simp

theorem endRun_inner (i : Nat) (v : Val) (s : State) :
    (endRun i v s).tt.ctl = s.tt.ctl ∧ (endRun i v s).tt.instA = s.tt.instA ∧ (endRun i v s).tt.instB = s.tt.instB ∧
    (endRun i v s).tt.active = s.tt.active ∧ (endRun i v s).tt.activeValid = s.tt.activeValid ∧
    (endRun i v s).tt.startSec = s.tt.startSec ∧ (endRun i v s).tt.startFrac = s.tt.startFrac ∧
    (endRun i v s).tt.swPend = s.tt.swPend ∧ (endRun i v s).tt.protHit = s.tt.protHit := by
  simp only [endRun, when]
  repeat' split
  all_goals simp

theorem endConvert_inner (i : Nat) (x : ConvData) (f : Frame) (c : Carriage) (s : State) :
    (endConvert i x f c s).tt.ctl = s.tt.ctl ∧ (endConvert i x f c s).tt.instA = s.tt.instA ∧
    (endConvert i x f c s).tt.instB = s.tt.instB ∧ (endConvert i x f c s).tt.active = s.tt.active ∧
    (endConvert i x f c s).tt.activeValid = s.tt.activeValid ∧ (endConvert i x f c s).tt.startSec = s.tt.startSec ∧
    (endConvert i x f c s).tt.startFrac = s.tt.startFrac ∧ (endConvert i x f c s).tt.swPend = s.tt.swPend ∧
    (endConvert i x f c s).tt.protHit = s.tt.protHit ∧ (endConvert i x f c s).afe.ctl = s.afe.ctl ∧
    (endConvert i x f c s).afe.eff = s.afe.eff ∧ (endConvert i x f c s).evt.mask = s.evt.mask ∧
    (endConvert i x f c s).evt.copy = s.evt.copy := by
  have k0 := @diagOver_frame
  have k1 := @diagOver_inner
  have k2 := @endRun_frame
  have k3 := @endRun_inner
  simp only [endConvert, when]
  repeat' split
  all_goals simp [k0, k1, k2, k3]

theorem endAux_inner (i : Nat) (x : ConvData) (f : Frame) (c : Carriage) (s : State) :
    (endAux i x f c s).tt.ctl = s.tt.ctl ∧ (endAux i x f c s).tt.instA = s.tt.instA ∧
    (endAux i x f c s).tt.instB = s.tt.instB ∧ (endAux i x f c s).tt.active = s.tt.active ∧
    (endAux i x f c s).tt.activeValid = s.tt.activeValid ∧ (endAux i x f c s).tt.startSec = s.tt.startSec ∧
    (endAux i x f c s).tt.startFrac = s.tt.startFrac ∧ (endAux i x f c s).tt.swPend = s.tt.swPend ∧
    (endAux i x f c s).tt.protHit = s.tt.protHit ∧ (endAux i x f c s).afe.ctl = s.afe.ctl ∧
    (endAux i x f c s).afe.eff = s.afe.eff ∧ (endAux i x f c s).evt.mask = s.evt.mask ∧
    (endAux i x f c s).evt.copy = s.evt.copy := by
  have k0 := @classifyArm_frame
  have k1 := @classifyArm_inner
  have k2 := @classifyLeak_frame
  have k3 := @classifyLeak_inner
  have k4 := @endRun_frame
  have k5 := @endRun_inner
  simp only [endAux, when]
  repeat' split
  all_goals simp [k0, k1, k2, k3, k4, k5]

@[simp] theorem conversionEnd_inner (i : Nat) (x : ConvData) (s : State) :
    (conversionEnd i x s).tt.ctl = s.tt.ctl ∧ (conversionEnd i x s).tt.instA = s.tt.instA ∧
    (conversionEnd i x s).tt.instB = s.tt.instB ∧ (conversionEnd i x s).tt.active = s.tt.active ∧
    (conversionEnd i x s).tt.activeValid = s.tt.activeValid ∧ (conversionEnd i x s).tt.startSec = s.tt.startSec ∧
    (conversionEnd i x s).tt.startFrac = s.tt.startFrac ∧ (conversionEnd i x s).tt.swPend = s.tt.swPend ∧
    (conversionEnd i x s).tt.protHit = s.tt.protHit ∧ (conversionEnd i x s).clk.src = s.clk.src ∧
    (conversionEnd i x s).clk.limits = s.clk.limits ∧ (conversionEnd i x s).clk.spread = s.clk.spread ∧
    (conversionEnd i x s).clk.active = s.clk.active ∧ (conversionEnd i x s).clk.plans = s.clk.plans ∧
    (conversionEnd i x s).clk.bypass = s.clk.bypass ∧ (conversionEnd i x s).clk.drift = s.clk.drift ∧
    (conversionEnd i x s).clk.q = s.clk.q ∧ (conversionEnd i x s).afe.ctl = s.afe.ctl ∧
    (conversionEnd i x s).afe.eff = s.afe.eff ∧ (conversionEnd i x s).ros.sealed = s.ros.sealed ∧
    (conversionEnd i x s).out.cfg = s.out.cfg ∧ (conversionEnd i x s).out.gen = s.out.gen ∧
    (conversionEnd i x s).out.span = s.out.span ∧ (conversionEnd i x s).out.staged = s.out.staged ∧
    (conversionEnd i x s).evt.mask = s.evt.mask ∧ (conversionEnd i x s).evt.copy = s.evt.copy := by
  have k0 := @endAux_frame
  have k1 := @endAux_inner
  have k2 := @endConvert_frame
  have k3 := @endConvert_inner
  have k4 := @finishUpTo_frame
  have k5 := @finishUpTo_inner
  simp only [conversionEnd, when]
  repeat' split
  all_goals simp [k0, k1, k2, k3, k4, k5]

theorem blameDiag_inner (onPort : Nat → Bool) (q : List Byte → Bool) (s : State) :
    (blameDiag onPort q s).tt.ctl = s.tt.ctl ∧ (blameDiag onPort q s).tt.instA = s.tt.instA ∧
    (blameDiag onPort q s).tt.instB = s.tt.instB ∧ (blameDiag onPort q s).tt.active = s.tt.active ∧
    (blameDiag onPort q s).tt.activeValid = s.tt.activeValid ∧ (blameDiag onPort q s).tt.startSec = s.tt.startSec ∧
    (blameDiag onPort q s).tt.startFrac = s.tt.startFrac ∧ (blameDiag onPort q s).tt.swPend = s.tt.swPend ∧
    (blameDiag onPort q s).tt.protHit = s.tt.protHit := by
  have k0 := @mapRuns_frame
  have k1 := @mapRuns_inner
  simp only [blameDiag, when]
  repeat' split
  all_goals simp [k0, k1]

theorem clipFire_inner (k : Nat) (inUv : Int) (senseUv : Nat) (s : State) :
    (clipFire k inUv senseUv s).tt.ctl = s.tt.ctl ∧ (clipFire k inUv senseUv s).tt.instA = s.tt.instA ∧
    (clipFire k inUv senseUv s).tt.instB = s.tt.instB ∧ (clipFire k inUv senseUv s).tt.active = s.tt.active ∧
    (clipFire k inUv senseUv s).tt.activeValid = s.tt.activeValid ∧
    (clipFire k inUv senseUv s).tt.startSec = s.tt.startSec ∧
    (clipFire k inUv senseUv s).tt.startFrac = s.tt.startFrac ∧ (clipFire k inUv senseUv s).tt.swPend = s.tt.swPend ∧
    (clipFire k inUv senseUv s).tt.protHit = s.tt.protHit ∧ (clipFire k inUv senseUv s).afe.ctl = s.afe.ctl ∧
    (clipFire k inUv senseUv s).afe.eff = s.afe.eff ∧ (clipFire k inUv senseUv s).evt.mask = s.evt.mask ∧
    (clipFire k inUv senseUv s).evt.copy = s.evt.copy := by
  have k0 := @diagOver_frame
  have k1 := @diagOver_inner
  have k2 := @mapRuns_frame
  have k3 := @mapRuns_inner
  simp only [clipFire, when]
  repeat' split
  all_goals simp [k0, k1, k2, k3]

@[simp] theorem diagFire_inner (d : Diag) (s : State) :
    (diagFire d s).tt.ctl = s.tt.ctl ∧ (diagFire d s).tt.instA = s.tt.instA ∧ (diagFire d s).tt.instB = s.tt.instB ∧
    (diagFire d s).tt.active = s.tt.active ∧ (diagFire d s).tt.activeValid = s.tt.activeValid ∧
    (diagFire d s).tt.startSec = s.tt.startSec ∧ (diagFire d s).tt.startFrac = s.tt.startFrac ∧
    (diagFire d s).tt.swPend = s.tt.swPend ∧ (diagFire d s).tt.protHit = s.tt.protHit ∧
    (diagFire d s).afe.ctl = s.afe.ctl ∧ (diagFire d s).afe.eff = s.afe.eff ∧ (diagFire d s).evt.mask = s.evt.mask ∧
    (diagFire d s).evt.copy = s.evt.copy := by
  have k0 := @blameDiag_frame
  have k1 := @blameDiag_inner
  have k2 := @clipFire_frame
  have k3 := @clipFire_inner
  have k4 := @diagPair_frame
  have k5 := @diagPair_inner
  have k6 := @diagPort_frame
  have k7 := @diagPort_inner
  simp only [diagFire, when]
  repeat' split
  all_goals simp [k0, k1, k2, k3, k4, k5, k6, k7]

theorem sealNow_inner (c : BitVec 5) (s : State) :
    (sealNow c s).tt.ctl = s.tt.ctl ∧ (sealNow c s).tt.instA = s.tt.instA ∧ (sealNow c s).tt.instB = s.tt.instB ∧
    (sealNow c s).tt.active = s.tt.active ∧ (sealNow c s).tt.activeValid = s.tt.activeValid ∧
    (sealNow c s).tt.startSec = s.tt.startSec ∧ (sealNow c s).tt.startFrac = s.tt.startFrac ∧
    (sealNow c s).tt.swPend = s.tt.swPend ∧ (sealNow c s).tt.protHit = s.tt.protHit ∧
    (sealNow c s).afe.ctl = s.afe.ctl ∧ (sealNow c s).afe.eff = s.afe.eff ∧ (sealNow c s).afe.diag = s.afe.diag ∧
    (sealNow c s).evt.mask = s.evt.mask ∧ (sealNow c s).evt.copy = s.evt.copy := by
  have k0 := @presettleFor_frame
  have k1 := @presettleFor_inner
  have k2 := @sealChannel_frame
  have k3 := @sealChannel_inner
  simp only [sealNow, when]
  repeat' split
  all_goals simp [k0, k1, k2, k3]

theorem applySwitch_inner (s : State) :
    (applySwitch s).tt.ctl = s.tt.ctl ∧ (applySwitch s).tt.instA = s.tt.instA ∧
    (applySwitch s).tt.instB = s.tt.instB ∧ (applySwitch s).tt.startSec = s.tt.startSec ∧
    (applySwitch s).tt.startFrac = s.tt.startFrac ∧ (applySwitch s).tt.protHit = s.tt.protHit ∧
    (applySwitch s).cond.arg0 = s.cond.arg0 ∧ (applySwitch s).cond.arg1 = s.cond.arg1 ∧
    (applySwitch s).cond.arg2 = s.cond.arg2 ∧ (applySwitch s).cond.queue = s.cond.queue ∧
    (applySwitch s).cond.running = s.cond.running ∧ (applySwitch s).cond.tail = s.cond.tail ∧
    (applySwitch s).cond.inReset = s.cond.inReset ∧ (applySwitch s).evt.mask = s.evt.mask ∧
    (applySwitch s).evt.copy = s.evt.copy := by
  simp only [applySwitch, when]
  repeat' split
  all_goals simp

theorem followUp_inner (f : Frame) (n : Nat) (s : State) :
    (followUp f n s).evin.incfg = s.evin.incfg ∧ (followUp f n s).evin.level = s.evin.level ∧
    (followUp f n s).evin.syncLevel = s.evin.syncLevel ∧ (followUp f n s).tt.ctl = s.tt.ctl ∧
    (followUp f n s).tt.instA = s.tt.instA ∧ (followUp f n s).tt.instB = s.tt.instB ∧
    (followUp f n s).tt.active = s.tt.active ∧ (followUp f n s).tt.activeValid = s.tt.activeValid ∧
    (followUp f n s).tt.startSec = s.tt.startSec ∧ (followUp f n s).tt.startFrac = s.tt.startFrac ∧
    (followUp f n s).tt.swPend = s.tt.swPend ∧ (followUp f n s).tt.protHit = s.tt.protHit ∧
    (followUp f n s).evt.mask = s.evt.mask ∧ (followUp f n s).evt.copy = s.evt.copy := by
  have k0 := @lateTrigger_frame
  have k1 := @lateTrigger_inner
  simp only [followUp, when]
  repeat' split
  all_goals simp [k0, k1]

theorem frameSteps_inner (n : Nat) (stamp : Stamp) (s : State) :
    (frameSteps n stamp s).evin.incfg = s.evin.incfg ∧ (frameSteps n stamp s).tt.ctl = s.tt.ctl ∧
    (frameSteps n stamp s).tt.instA = s.tt.instA ∧ (frameSteps n stamp s).tt.instB = s.tt.instB ∧
    (frameSteps n stamp s).tt.active = s.tt.active ∧ (frameSteps n stamp s).tt.activeValid = s.tt.activeValid ∧
    (frameSteps n stamp s).tt.startSec = s.tt.startSec ∧ (frameSteps n stamp s).tt.startFrac = s.tt.startFrac ∧
    (frameSteps n stamp s).tt.swPend = s.tt.swPend ∧ (frameSteps n stamp s).tt.protHit = s.tt.protHit ∧
    (frameSteps n stamp s).sys.phase = s.sys.phase ∧ (frameSteps n stamp s).sys.cause = s.sys.cause ∧
    (frameSteps n stamp s).sys.cfgState = s.sys.cfgState ∧ (frameSteps n stamp s).sys.x32Run = s.sys.x32Run ∧
    (frameSteps n stamp s).sys.measRst = s.sys.measRst ∧ (frameSteps n stamp s).sys.earlyWr = s.sys.earlyWr ∧
    (frameSteps n stamp s).sys.lostCmds = s.sys.lostCmds ∧ (frameSteps n stamp s).clk.src = s.clk.src ∧
    (frameSteps n stamp s).clk.limits = s.clk.limits ∧ (frameSteps n stamp s).clk.spread = s.clk.spread ∧
    (frameSteps n stamp s).clk.active = s.clk.active ∧ (frameSteps n stamp s).clk.plans = s.clk.plans ∧
    (frameSteps n stamp s).clk.drift = s.clk.drift ∧ (frameSteps n stamp s).cond.arg0 = s.cond.arg0 ∧
    (frameSteps n stamp s).cond.arg1 = s.cond.arg1 ∧ (frameSteps n stamp s).cond.arg2 = s.cond.arg2 ∧
    (frameSteps n stamp s).cond.queue = s.cond.queue ∧ (frameSteps n stamp s).cond.running = s.cond.running ∧
    (frameSteps n stamp s).cond.tail = s.cond.tail ∧ (frameSteps n stamp s).cond.switches = s.cond.switches ∧
    (frameSteps n stamp s).cond.inReset = s.cond.inReset ∧ (frameSteps n stamp s).afe.ctl = s.afe.ctl ∧
    (frameSteps n stamp s).afe.eff = s.afe.eff ∧ (frameSteps n stamp s).afe.diag = s.afe.diag ∧
    (frameSteps n stamp s).ros.sealed = s.ros.sealed ∧ (frameSteps n stamp s).out.cfg = s.out.cfg ∧
    (frameSteps n stamp s).out.gen = s.out.gen ∧ (frameSteps n stamp s).out.span = s.out.span ∧
    (frameSteps n stamp s).out.staged = s.out.staged ∧ (frameSteps n stamp s).nv.pages = s.nv.pages ∧
    (frameSteps n stamp s).nv.running = s.nv.running ∧ (frameSteps n stamp s).nv.suspend = s.nv.suspend ∧
    (frameSteps n stamp s).nv.todo = s.nv.todo ∧ (frameSteps n stamp s).evt.mask = s.evt.mask ∧
    (frameSteps n stamp s).evt.copy = s.evt.copy := by
  simp only [frameSteps, when]
  repeat' split
  all_goals simp

theorem closeFrame_inner (f : Frame) (s : State) :
    (closeFrame f s).tt.ctl = s.tt.ctl ∧ (closeFrame f s).tt.instA = s.tt.instA ∧
    (closeFrame f s).tt.instB = s.tt.instB ∧ (closeFrame f s).tt.startSec = s.tt.startSec ∧
    (closeFrame f s).tt.startFrac = s.tt.startFrac ∧ (closeFrame f s).tt.protHit = s.tt.protHit ∧
    (closeFrame f s).cond.arg0 = s.cond.arg0 ∧ (closeFrame f s).cond.arg1 = s.cond.arg1 ∧
    (closeFrame f s).cond.arg2 = s.cond.arg2 ∧ (closeFrame f s).cond.queue = s.cond.queue ∧
    (closeFrame f s).cond.running = s.cond.running ∧ (closeFrame f s).cond.tail = s.cond.tail ∧
    (closeFrame f s).cond.inReset = s.cond.inReset ∧ (closeFrame f s).afe.ctl = s.afe.ctl ∧
    (closeFrame f s).afe.eff = s.afe.eff ∧ (closeFrame f s).afe.diag = s.afe.diag ∧
    (closeFrame f s).evt.mask = s.evt.mask ∧ (closeFrame f s).evt.copy = s.evt.copy := by
  have k0 := @applySwitch_frame
  have k1 := @applySwitch_inner
  have k2 := @markFailRecord_frame
  have k3 := @markFailRecord_inner
  have k4 := @releasePairs_frame
  have k5 := @releasePairs_inner
  have k6 := @withdrawPresettles_frame
  have k7 := @withdrawPresettles_inner
  simp only [closeFrame, when]
  repeat' split
  all_goals simp [k0, k1, k2, k3, k4, k5, k6, k7]

theorem afterFrame_inner (f : Frame) (n : Nat) (stamp : Stamp) (s : State) :
    (afterFrame f n stamp s).evin.incfg = s.evin.incfg ∧ (afterFrame f n stamp s).tt.ctl = s.tt.ctl ∧
    (afterFrame f n stamp s).tt.instA = s.tt.instA ∧ (afterFrame f n stamp s).tt.instB = s.tt.instB ∧
    (afterFrame f n stamp s).tt.active = s.tt.active ∧ (afterFrame f n stamp s).tt.activeValid = s.tt.activeValid ∧
    (afterFrame f n stamp s).tt.startSec = s.tt.startSec ∧ (afterFrame f n stamp s).tt.startFrac = s.tt.startFrac ∧
    (afterFrame f n stamp s).tt.swPend = s.tt.swPend ∧ (afterFrame f n stamp s).tt.protHit = s.tt.protHit ∧
    (afterFrame f n stamp s).sys.phase = s.sys.phase ∧ (afterFrame f n stamp s).sys.cause = s.sys.cause ∧
    (afterFrame f n stamp s).sys.cfgState = s.sys.cfgState ∧ (afterFrame f n stamp s).sys.x32Run = s.sys.x32Run ∧
    (afterFrame f n stamp s).sys.measRst = s.sys.measRst ∧ (afterFrame f n stamp s).sys.earlyWr = s.sys.earlyWr ∧
    (afterFrame f n stamp s).sys.lostCmds = s.sys.lostCmds ∧ (afterFrame f n stamp s).clk.src = s.clk.src ∧
    (afterFrame f n stamp s).clk.limits = s.clk.limits ∧ (afterFrame f n stamp s).clk.spread = s.clk.spread ∧
    (afterFrame f n stamp s).clk.active = s.clk.active ∧ (afterFrame f n stamp s).clk.plans = s.clk.plans ∧
    (afterFrame f n stamp s).clk.drift = s.clk.drift ∧ (afterFrame f n stamp s).cond.arg0 = s.cond.arg0 ∧
    (afterFrame f n stamp s).cond.arg1 = s.cond.arg1 ∧ (afterFrame f n stamp s).cond.arg2 = s.cond.arg2 ∧
    (afterFrame f n stamp s).cond.queue = s.cond.queue ∧ (afterFrame f n stamp s).cond.running = s.cond.running ∧
    (afterFrame f n stamp s).cond.tail = s.cond.tail ∧ (afterFrame f n stamp s).cond.switches = s.cond.switches ∧
    (afterFrame f n stamp s).cond.inReset = s.cond.inReset ∧ (afterFrame f n stamp s).afe.ctl = s.afe.ctl ∧
    (afterFrame f n stamp s).afe.eff = s.afe.eff ∧ (afterFrame f n stamp s).afe.diag = s.afe.diag ∧
    (afterFrame f n stamp s).ros.sealed = s.ros.sealed ∧ (afterFrame f n stamp s).out.cfg = s.out.cfg ∧
    (afterFrame f n stamp s).out.gen = s.out.gen ∧ (afterFrame f n stamp s).out.span = s.out.span ∧
    (afterFrame f n stamp s).out.staged = s.out.staged ∧ (afterFrame f n stamp s).nv.pages = s.nv.pages ∧
    (afterFrame f n stamp s).nv.running = s.nv.running ∧ (afterFrame f n stamp s).nv.suspend = s.nv.suspend ∧
    (afterFrame f n stamp s).nv.todo = s.nv.todo ∧ (afterFrame f n stamp s).evt.mask = s.evt.mask ∧
    (afterFrame f n stamp s).evt.copy = s.evt.copy := by
  have k0 := @followUp_frame
  have k1 := @followUp_inner
  have k2 := @frameSteps_frame
  have k3 := @frameSteps_inner
  simp only [afterFrame, when]
  repeat' split
  all_goals simp [k0, k1, k2, k3]

theorem closeIfCut_inner (s : State) :
    (closeIfCut s).evin.incfg = s.evin.incfg ∧ (closeIfCut s).tt.ctl = s.tt.ctl ∧
    (closeIfCut s).tt.instA = s.tt.instA ∧ (closeIfCut s).tt.instB = s.tt.instB ∧
    (closeIfCut s).tt.startSec = s.tt.startSec ∧ (closeIfCut s).tt.startFrac = s.tt.startFrac ∧
    (closeIfCut s).tt.protHit = s.tt.protHit ∧ (closeIfCut s).sys.phase = s.sys.phase ∧
    (closeIfCut s).sys.cause = s.sys.cause ∧ (closeIfCut s).sys.cfgState = s.sys.cfgState ∧
    (closeIfCut s).sys.x32Run = s.sys.x32Run ∧ (closeIfCut s).sys.measRst = s.sys.measRst ∧
    (closeIfCut s).sys.earlyWr = s.sys.earlyWr ∧ (closeIfCut s).sys.lostCmds = s.sys.lostCmds ∧
    (closeIfCut s).clk.src = s.clk.src ∧ (closeIfCut s).clk.limits = s.clk.limits ∧
    (closeIfCut s).clk.spread = s.clk.spread ∧ (closeIfCut s).clk.active = s.clk.active ∧
    (closeIfCut s).clk.plans = s.clk.plans ∧ (closeIfCut s).clk.drift = s.clk.drift ∧
    (closeIfCut s).cond.arg0 = s.cond.arg0 ∧ (closeIfCut s).cond.arg1 = s.cond.arg1 ∧
    (closeIfCut s).cond.arg2 = s.cond.arg2 ∧ (closeIfCut s).cond.queue = s.cond.queue ∧
    (closeIfCut s).cond.running = s.cond.running ∧ (closeIfCut s).cond.tail = s.cond.tail ∧
    (closeIfCut s).cond.inReset = s.cond.inReset ∧ (closeIfCut s).afe.ctl = s.afe.ctl ∧
    (closeIfCut s).afe.eff = s.afe.eff ∧ (closeIfCut s).afe.diag = s.afe.diag ∧
    (closeIfCut s).ros.sealed = s.ros.sealed ∧ (closeIfCut s).out.cfg = s.out.cfg ∧
    (closeIfCut s).out.gen = s.out.gen ∧ (closeIfCut s).out.span = s.out.span ∧
    (closeIfCut s).out.staged = s.out.staged ∧ (closeIfCut s).nv.pages = s.nv.pages ∧
    (closeIfCut s).nv.running = s.nv.running ∧ (closeIfCut s).nv.suspend = s.nv.suspend ∧
    (closeIfCut s).nv.todo = s.nv.todo ∧ (closeIfCut s).evt.mask = s.evt.mask ∧ (closeIfCut s).evt.copy = s.evt.copy := by
  have k0 := @afterFrame_frame
  have k1 := @afterFrame_inner
  have k2 := @closeFrame_frame
  have k3 := @closeFrame_inner
  simp only [closeIfCut, when]
  repeat' split
  all_goals simp [k0, k1, k2, k3]

@[simp] theorem frameEndOp_inner (s : State) :
    (frameEndOp s).evin.incfg = s.evin.incfg ∧ (frameEndOp s).tt.ctl = s.tt.ctl ∧
    (frameEndOp s).tt.instA = s.tt.instA ∧ (frameEndOp s).tt.instB = s.tt.instB ∧
    (frameEndOp s).tt.startSec = s.tt.startSec ∧ (frameEndOp s).tt.startFrac = s.tt.startFrac ∧
    (frameEndOp s).tt.protHit = s.tt.protHit ∧ (frameEndOp s).sys.phase = s.sys.phase ∧
    (frameEndOp s).sys.cause = s.sys.cause ∧ (frameEndOp s).sys.cfgState = s.sys.cfgState ∧
    (frameEndOp s).sys.x32Run = s.sys.x32Run ∧ (frameEndOp s).sys.measRst = s.sys.measRst ∧
    (frameEndOp s).sys.earlyWr = s.sys.earlyWr ∧ (frameEndOp s).sys.lostCmds = s.sys.lostCmds ∧
    (frameEndOp s).clk.src = s.clk.src ∧ (frameEndOp s).clk.limits = s.clk.limits ∧
    (frameEndOp s).clk.spread = s.clk.spread ∧ (frameEndOp s).clk.active = s.clk.active ∧
    (frameEndOp s).clk.plans = s.clk.plans ∧ (frameEndOp s).clk.drift = s.clk.drift ∧
    (frameEndOp s).cond.arg0 = s.cond.arg0 ∧ (frameEndOp s).cond.arg1 = s.cond.arg1 ∧
    (frameEndOp s).cond.arg2 = s.cond.arg2 ∧ (frameEndOp s).cond.queue = s.cond.queue ∧
    (frameEndOp s).cond.running = s.cond.running ∧ (frameEndOp s).cond.tail = s.cond.tail ∧
    (frameEndOp s).cond.inReset = s.cond.inReset ∧ (frameEndOp s).afe.ctl = s.afe.ctl ∧
    (frameEndOp s).afe.eff = s.afe.eff ∧ (frameEndOp s).afe.diag = s.afe.diag ∧
    (frameEndOp s).ros.sealed = s.ros.sealed ∧ (frameEndOp s).out.cfg = s.out.cfg ∧
    (frameEndOp s).out.gen = s.out.gen ∧ (frameEndOp s).out.span = s.out.span ∧
    (frameEndOp s).out.staged = s.out.staged ∧ (frameEndOp s).nv.pages = s.nv.pages ∧
    (frameEndOp s).nv.running = s.nv.running ∧ (frameEndOp s).nv.suspend = s.nv.suspend ∧
    (frameEndOp s).nv.todo = s.nv.todo ∧ (frameEndOp s).evt.mask = s.evt.mask ∧ (frameEndOp s).evt.copy = s.evt.copy := by
  have k0 := @afterFrame_frame
  have k1 := @afterFrame_inner
  have k2 := @closeFrame_frame
  have k3 := @closeFrame_inner
  have k4 := @closeIfCut_frame
  have k5 := @closeIfCut_inner
  have k6 := @finishUpTo_frame
  have k7 := @finishUpTo_inner
  simp only [frameEndOp, when]
  repeat' split
  all_goals simp [k0, k1, k2, k3, k4, k5, k6, k7]

@[simp] theorem carriageEndOp_inner (i : Nat) (s : State) :
    (carriageEndOp i s).evin.incfg = s.evin.incfg ∧ (carriageEndOp i s).tt.ctl = s.tt.ctl ∧
    (carriageEndOp i s).tt.instA = s.tt.instA ∧ (carriageEndOp i s).tt.instB = s.tt.instB ∧
    (carriageEndOp i s).tt.startSec = s.tt.startSec ∧ (carriageEndOp i s).tt.startFrac = s.tt.startFrac ∧
    (carriageEndOp i s).tt.protHit = s.tt.protHit ∧ (carriageEndOp i s).sys.phase = s.sys.phase ∧
    (carriageEndOp i s).sys.cause = s.sys.cause ∧ (carriageEndOp i s).sys.cfgState = s.sys.cfgState ∧
    (carriageEndOp i s).sys.x32Run = s.sys.x32Run ∧ (carriageEndOp i s).sys.measRst = s.sys.measRst ∧
    (carriageEndOp i s).sys.earlyWr = s.sys.earlyWr ∧ (carriageEndOp i s).sys.lostCmds = s.sys.lostCmds ∧
    (carriageEndOp i s).clk.src = s.clk.src ∧ (carriageEndOp i s).clk.limits = s.clk.limits ∧
    (carriageEndOp i s).clk.spread = s.clk.spread ∧ (carriageEndOp i s).clk.active = s.clk.active ∧
    (carriageEndOp i s).clk.plans = s.clk.plans ∧ (carriageEndOp i s).clk.drift = s.clk.drift ∧
    (carriageEndOp i s).cond.arg0 = s.cond.arg0 ∧ (carriageEndOp i s).cond.arg1 = s.cond.arg1 ∧
    (carriageEndOp i s).cond.arg2 = s.cond.arg2 ∧ (carriageEndOp i s).cond.queue = s.cond.queue ∧
    (carriageEndOp i s).cond.running = s.cond.running ∧ (carriageEndOp i s).cond.tail = s.cond.tail ∧
    (carriageEndOp i s).cond.inReset = s.cond.inReset ∧ (carriageEndOp i s).afe.ctl = s.afe.ctl ∧
    (carriageEndOp i s).afe.eff = s.afe.eff ∧ (carriageEndOp i s).afe.diag = s.afe.diag ∧
    (carriageEndOp i s).ros.sealed = s.ros.sealed ∧ (carriageEndOp i s).out.cfg = s.out.cfg ∧
    (carriageEndOp i s).out.gen = s.out.gen ∧ (carriageEndOp i s).out.span = s.out.span ∧
    (carriageEndOp i s).out.staged = s.out.staged ∧ (carriageEndOp i s).nv.pages = s.nv.pages ∧
    (carriageEndOp i s).nv.running = s.nv.running ∧ (carriageEndOp i s).nv.suspend = s.nv.suspend ∧
    (carriageEndOp i s).nv.todo = s.nv.todo ∧ (carriageEndOp i s).evt.mask = s.evt.mask ∧
    (carriageEndOp i s).evt.copy = s.evt.copy := by
  have k0 := @closeIfCut_frame
  have k1 := @closeIfCut_inner
  have k2 := @finish_frame
  have k3 := @finish_inner
  have k4 := @finishUpTo_frame
  have k5 := @finishUpTo_inner
  simp only [carriageEndOp, when]
  repeat' split
  all_goals simp [k0, k1, k2, k3, k4, k5]

theorem haltSeq_inner (s : State) :
    (haltSeq s).evin.incfg = s.evin.incfg ∧ (haltSeq s).evin.level = s.evin.level ∧
    (haltSeq s).evin.syncLevel = s.evin.syncLevel ∧ (haltSeq s).tt.ctl = s.tt.ctl ∧
    (haltSeq s).tt.instA = s.tt.instA ∧ (haltSeq s).tt.instB = s.tt.instB ∧ (haltSeq s).tt.active = s.tt.active ∧
    (haltSeq s).tt.activeValid = s.tt.activeValid ∧ (haltSeq s).tt.startSec = s.tt.startSec ∧
    (haltSeq s).tt.startFrac = s.tt.startFrac ∧ (haltSeq s).tt.swPend = s.tt.swPend ∧
    (haltSeq s).tt.protHit = s.tt.protHit ∧ (haltSeq s).out.cfg = s.out.cfg ∧ (haltSeq s).out.gen = s.out.gen ∧
    (haltSeq s).out.span = s.out.span ∧ (haltSeq s).out.staged = s.out.staged ∧ (haltSeq s).evt.mask = s.evt.mask ∧
    (haltSeq s).evt.copy = s.evt.copy := by
  have k0 := @dropAwait_frame
  have k1 := @dropAwait_inner
  have k2 := @haltFault_frame
  have k3 := @haltFault_inner
  simp only [haltSeq, when]
  repeat' split
  all_goals simp [k0, k1, k2, k3]

theorem dropDue_inner (op : Nat) (started : Bool) (s : State) :
    (dropDue op started s).out.code = s.out.code ∧ (dropDue op started s).out.cfg = s.out.cfg ∧
    (dropDue op started s).out.gen = s.out.gen ∧ (dropDue op started s).out.span = s.out.span ∧
    (dropDue op started s).out.staged = s.out.staged := by
  simp only [dropDue, when]
  repeat' split
  all_goals simp

theorem cutOne_inner (reason : Nat) (stamp : Stamp) (i : Nat) (s : State) :
    (cutOne reason stamp i s).tt.ctl = s.tt.ctl ∧ (cutOne reason stamp i s).tt.instA = s.tt.instA ∧
    (cutOne reason stamp i s).tt.instB = s.tt.instB ∧ (cutOne reason stamp i s).tt.active = s.tt.active ∧
    (cutOne reason stamp i s).tt.activeValid = s.tt.activeValid ∧
    (cutOne reason stamp i s).tt.startSec = s.tt.startSec ∧ (cutOne reason stamp i s).tt.startFrac = s.tt.startFrac ∧
    (cutOne reason stamp i s).tt.swPend = s.tt.swPend ∧ (cutOne reason stamp i s).tt.protHit = s.tt.protHit ∧
    (cutOne reason stamp i s).out.cfg = s.out.cfg ∧ (cutOne reason stamp i s).out.gen = s.out.gen ∧
    (cutOne reason stamp i s).out.span = s.out.span ∧ (cutOne reason stamp i s).out.staged = s.out.staged ∧
    (cutOne reason stamp i s).evt.mask = s.evt.mask ∧ (cutOne reason stamp i s).evt.copy = s.evt.copy := by
  have k0 := @dropDue_frame
  have k1 := @dropDue_inner
  have k2 := @failRecord_frame
  have k3 := @failRecord_inner
  simp only [cutOne, when]
  repeat' split
  all_goals simp [k0, k1, k2, k3]

theorem cutFrame_inner (reason : Nat) (p : CarRun → Bool) (s : State) :
    (cutFrame reason p s).tt.ctl = s.tt.ctl ∧ (cutFrame reason p s).tt.instA = s.tt.instA ∧
    (cutFrame reason p s).tt.instB = s.tt.instB ∧ (cutFrame reason p s).tt.active = s.tt.active ∧
    (cutFrame reason p s).tt.activeValid = s.tt.activeValid ∧ (cutFrame reason p s).tt.startSec = s.tt.startSec ∧
    (cutFrame reason p s).tt.startFrac = s.tt.startFrac ∧ (cutFrame reason p s).tt.swPend = s.tt.swPend ∧
    (cutFrame reason p s).tt.protHit = s.tt.protHit ∧ (cutFrame reason p s).out.cfg = s.out.cfg ∧
    (cutFrame reason p s).out.gen = s.out.gen ∧ (cutFrame reason p s).out.span = s.out.span ∧
    (cutFrame reason p s).out.staged = s.out.staged ∧ (cutFrame reason p s).evt.mask = s.evt.mask ∧
    (cutFrame reason p s).evt.copy = s.evt.copy := by
  have k0 := @cutOne_frame
  have k1 := @cutOne_inner
  simp only [cutFrame, when]
  repeat' split
  all_goals simp [k0, k1]

theorem cutAll_inner (s : State) :
    (cutAll s).evin.incfg = s.evin.incfg ∧ (cutAll s).tt.ctl = s.tt.ctl ∧ (cutAll s).tt.instA = s.tt.instA ∧
    (cutAll s).tt.instB = s.tt.instB ∧ (cutAll s).tt.startSec = s.tt.startSec ∧
    (cutAll s).tt.startFrac = s.tt.startFrac ∧ (cutAll s).tt.protHit = s.tt.protHit ∧
    (cutAll s).sys.phase = s.sys.phase ∧ (cutAll s).sys.cause = s.sys.cause ∧
    (cutAll s).sys.cfgState = s.sys.cfgState ∧ (cutAll s).sys.x32Run = s.sys.x32Run ∧
    (cutAll s).sys.measRst = s.sys.measRst ∧ (cutAll s).sys.earlyWr = s.sys.earlyWr ∧
    (cutAll s).sys.lostCmds = s.sys.lostCmds ∧ (cutAll s).clk.src = s.clk.src ∧ (cutAll s).clk.limits = s.clk.limits ∧
    (cutAll s).clk.spread = s.clk.spread ∧ (cutAll s).clk.active = s.clk.active ∧ (cutAll s).clk.plans = s.clk.plans ∧
    (cutAll s).clk.drift = s.clk.drift ∧ (cutAll s).cond.arg0 = s.cond.arg0 ∧ (cutAll s).cond.arg1 = s.cond.arg1 ∧
    (cutAll s).cond.arg2 = s.cond.arg2 ∧ (cutAll s).cond.queue = s.cond.queue ∧
    (cutAll s).cond.running = s.cond.running ∧ (cutAll s).cond.tail = s.cond.tail ∧
    (cutAll s).cond.inReset = s.cond.inReset ∧ (cutAll s).afe.ctl = s.afe.ctl ∧ (cutAll s).afe.eff = s.afe.eff ∧
    (cutAll s).afe.diag = s.afe.diag ∧ (cutAll s).ros.sealed = s.ros.sealed ∧ (cutAll s).out.cfg = s.out.cfg ∧
    (cutAll s).out.gen = s.out.gen ∧ (cutAll s).out.span = s.out.span ∧ (cutAll s).out.staged = s.out.staged ∧
    (cutAll s).nv.pages = s.nv.pages ∧ (cutAll s).nv.running = s.nv.running ∧ (cutAll s).nv.suspend = s.nv.suspend ∧
    (cutAll s).nv.todo = s.nv.todo ∧ (cutAll s).evt.mask = s.evt.mask ∧ (cutAll s).evt.copy = s.evt.copy := by
  have k0 := @closeIfCut_frame
  have k1 := @closeIfCut_inner
  have k2 := @cutFrame_frame
  have k3 := @cutFrame_inner
  have k4 := @dropQueued_frame
  have k5 := @dropQueued_inner
  have k6 := @haltSeq_frame
  have k7 := @haltSeq_inner
  simp only [cutAll, when]
  repeat' split
  all_goals simp [k0, k1, k2, k3, k4, k5, k6, k7]

theorem goSlow_inner (s : State) :
    (goSlow s).tt.ctl = s.tt.ctl ∧ (goSlow s).tt.instA = s.tt.instA ∧ (goSlow s).tt.instB = s.tt.instB ∧
    (goSlow s).tt.active = s.tt.active ∧ (goSlow s).tt.activeValid = s.tt.activeValid ∧
    (goSlow s).tt.startSec = s.tt.startSec ∧ (goSlow s).tt.startFrac = s.tt.startFrac ∧
    (goSlow s).tt.swPend = s.tt.swPend ∧ (goSlow s).tt.protHit = s.tt.protHit := by
  simp only [goSlow, when]
  repeat' split
  all_goals simp

theorem cutDrift_inner (s : State) :
    (cutDrift s).evin.incfg = s.evin.incfg ∧ (cutDrift s).tt.ctl = s.tt.ctl ∧ (cutDrift s).tt.instA = s.tt.instA ∧
    (cutDrift s).tt.instB = s.tt.instB ∧ (cutDrift s).tt.startSec = s.tt.startSec ∧
    (cutDrift s).tt.startFrac = s.tt.startFrac ∧ (cutDrift s).tt.protHit = s.tt.protHit ∧
    (cutDrift s).sys.phase = s.sys.phase ∧ (cutDrift s).sys.cause = s.sys.cause ∧
    (cutDrift s).sys.cfgState = s.sys.cfgState ∧ (cutDrift s).sys.x32Run = s.sys.x32Run ∧
    (cutDrift s).sys.measRst = s.sys.measRst ∧ (cutDrift s).sys.earlyWr = s.sys.earlyWr ∧
    (cutDrift s).sys.lostCmds = s.sys.lostCmds ∧ (cutDrift s).clk.src = s.clk.src ∧
    (cutDrift s).clk.limits = s.clk.limits ∧ (cutDrift s).clk.spread = s.clk.spread ∧
    (cutDrift s).clk.active = s.clk.active ∧ (cutDrift s).clk.plans = s.clk.plans ∧
    (cutDrift s).clk.drift = s.clk.drift ∧ (cutDrift s).cond.arg0 = s.cond.arg0 ∧
    (cutDrift s).cond.arg1 = s.cond.arg1 ∧ (cutDrift s).cond.arg2 = s.cond.arg2 ∧
    (cutDrift s).cond.queue = s.cond.queue ∧ (cutDrift s).cond.running = s.cond.running ∧
    (cutDrift s).cond.tail = s.cond.tail ∧ (cutDrift s).cond.inReset = s.cond.inReset ∧
    (cutDrift s).afe.ctl = s.afe.ctl ∧ (cutDrift s).afe.eff = s.afe.eff ∧ (cutDrift s).afe.diag = s.afe.diag ∧
    (cutDrift s).ros.sealed = s.ros.sealed ∧ (cutDrift s).out.cfg = s.out.cfg ∧ (cutDrift s).out.gen = s.out.gen ∧
    (cutDrift s).out.span = s.out.span ∧ (cutDrift s).out.staged = s.out.staged ∧ (cutDrift s).nv.pages = s.nv.pages ∧
    (cutDrift s).nv.running = s.nv.running ∧ (cutDrift s).nv.suspend = s.nv.suspend ∧
    (cutDrift s).nv.todo = s.nv.todo ∧ (cutDrift s).evt.mask = s.evt.mask ∧ (cutDrift s).evt.copy = s.evt.copy := by
  have k0 := @closeIfCut_frame
  have k1 := @closeIfCut_inner
  have k2 := @cutFrame_frame
  have k3 := @cutFrame_inner
  have k4 := @dropQueued_frame
  have k5 := @dropQueued_inner
  have k6 := @goSlow_frame
  have k7 := @goSlow_inner
  have k8 := @haltSeq_frame
  have k9 := @haltSeq_inner
  simp only [cutDrift, when]
  repeat' split
  all_goals simp [k0, k1, k2, k3, k4, k5, k6, k7, k8, k9]

theorem cutWarn_inner (s : State) :
    (cutWarn s).evin.incfg = s.evin.incfg ∧ (cutWarn s).tt.ctl = s.tt.ctl ∧ (cutWarn s).tt.instA = s.tt.instA ∧
    (cutWarn s).tt.instB = s.tt.instB ∧ (cutWarn s).tt.startSec = s.tt.startSec ∧
    (cutWarn s).tt.startFrac = s.tt.startFrac ∧ (cutWarn s).tt.protHit = s.tt.protHit ∧
    (cutWarn s).sys.phase = s.sys.phase ∧ (cutWarn s).sys.cause = s.sys.cause ∧
    (cutWarn s).sys.cfgState = s.sys.cfgState ∧ (cutWarn s).sys.x32Run = s.sys.x32Run ∧
    (cutWarn s).sys.measRst = s.sys.measRst ∧ (cutWarn s).sys.earlyWr = s.sys.earlyWr ∧
    (cutWarn s).sys.lostCmds = s.sys.lostCmds ∧ (cutWarn s).clk.src = s.clk.src ∧
    (cutWarn s).clk.limits = s.clk.limits ∧ (cutWarn s).clk.spread = s.clk.spread ∧
    (cutWarn s).clk.active = s.clk.active ∧ (cutWarn s).clk.plans = s.clk.plans ∧
    (cutWarn s).clk.drift = s.clk.drift ∧ (cutWarn s).cond.arg0 = s.cond.arg0 ∧ (cutWarn s).cond.arg1 = s.cond.arg1 ∧
    (cutWarn s).cond.arg2 = s.cond.arg2 ∧ (cutWarn s).cond.queue = s.cond.queue ∧
    (cutWarn s).cond.running = s.cond.running ∧ (cutWarn s).cond.tail = s.cond.tail ∧
    (cutWarn s).cond.inReset = s.cond.inReset ∧ (cutWarn s).afe.ctl = s.afe.ctl ∧ (cutWarn s).afe.eff = s.afe.eff ∧
    (cutWarn s).afe.diag = s.afe.diag ∧ (cutWarn s).ros.sealed = s.ros.sealed ∧ (cutWarn s).out.cfg = s.out.cfg ∧
    (cutWarn s).out.gen = s.out.gen ∧ (cutWarn s).out.span = s.out.span ∧ (cutWarn s).out.staged = s.out.staged ∧
    (cutWarn s).nv.pages = s.nv.pages ∧ (cutWarn s).nv.running = s.nv.running ∧
    (cutWarn s).nv.suspend = s.nv.suspend ∧ (cutWarn s).nv.todo = s.nv.todo ∧ (cutWarn s).evt.mask = s.evt.mask ∧
    (cutWarn s).evt.copy = s.evt.copy := by
  have k0 := @closeIfCut_frame
  have k1 := @closeIfCut_inner
  have k2 := @cutFrame_frame
  have k3 := @cutFrame_inner
  simp only [cutWarn, when]
  repeat' split
  all_goals simp [k0, k1, k2, k3]

theorem raceTables_inner (before : List Host.Cell) (s : State) :
    (raceTables before s).tt.ctl = s.tt.ctl ∧ (raceTables before s).tt.instA = s.tt.instA ∧
    (raceTables before s).tt.instB = s.tt.instB ∧ (raceTables before s).tt.active = s.tt.active ∧
    (raceTables before s).tt.activeValid = s.tt.activeValid ∧ (raceTables before s).tt.startSec = s.tt.startSec ∧
    (raceTables before s).tt.startFrac = s.tt.startFrac ∧ (raceTables before s).tt.swPend = s.tt.swPend ∧
    (raceTables before s).tt.protHit = s.tt.protHit := by
  simp only [raceTables, when]
  repeat' split
  all_goals simp

theorem ledgerUndo_inner (i : Nat) (f : Frame) (c : Carriage) (x : FmtRead) (before : List Host.Cell) (s : State) :
    (ledgerUndo i f c x before s).ldg.ctl = s.ldg.ctl ∧ (ledgerUndo i f c x before s).ldg.lap = s.ldg.lap := by
  simp only [ledgerUndo, when]
  repeat' split
  all_goals simp

theorem rereadBy_inner (before : List Host.Cell) (i : Nat) (f : Frame) (c : Carriage) (r : CarRun) (x y : FmtRead) (s : State) :
    (rereadBy before i f c r x y s).tt.ctl = s.tt.ctl ∧ (rereadBy before i f c r x y s).tt.instA = s.tt.instA ∧
    (rereadBy before i f c r x y s).tt.instB = s.tt.instB ∧ (rereadBy before i f c r x y s).tt.active = s.tt.active ∧
    (rereadBy before i f c r x y s).tt.activeValid = s.tt.activeValid ∧
    (rereadBy before i f c r x y s).tt.startSec = s.tt.startSec ∧
    (rereadBy before i f c r x y s).tt.startFrac = s.tt.startFrac ∧
    (rereadBy before i f c r x y s).tt.swPend = s.tt.swPend ∧
    (rereadBy before i f c r x y s).tt.protHit = s.tt.protHit ∧ (rereadBy before i f c r x y s).ldg.ctl = s.ldg.ctl ∧
    (rereadBy before i f c r x y s).ldg.lap = s.ldg.lap ∧ (rereadBy before i f c r x y s).out.code = s.out.code ∧
    (rereadBy before i f c r x y s).out.cfg = s.out.cfg ∧ (rereadBy before i f c r x y s).out.gen = s.out.gen ∧
    (rereadBy before i f c r x y s).out.span = s.out.span ∧
    (rereadBy before i f c r x y s).out.staged = s.out.staged := by
  have k0 := @deliverBy_frame
  have k1 := @deliverBy_inner
  have k2 := @ledgerUndo_frame
  have k3 := @ledgerUndo_inner
  simp only [rereadBy, when]
  repeat' split
  all_goals simp [k0, k1, k2, k3]

theorem raceFormat_inner (before : List Host.Cell) (i : Nat) (s : State) :
    (raceFormat before i s).tt.ctl = s.tt.ctl ∧ (raceFormat before i s).tt.instA = s.tt.instA ∧
    (raceFormat before i s).tt.instB = s.tt.instB ∧ (raceFormat before i s).tt.active = s.tt.active ∧
    (raceFormat before i s).tt.activeValid = s.tt.activeValid ∧ (raceFormat before i s).tt.startSec = s.tt.startSec ∧
    (raceFormat before i s).tt.startFrac = s.tt.startFrac ∧ (raceFormat before i s).tt.swPend = s.tt.swPend ∧
    (raceFormat before i s).tt.protHit = s.tt.protHit ∧ (raceFormat before i s).ldg.ctl = s.ldg.ctl ∧
    (raceFormat before i s).ldg.lap = s.ldg.lap ∧ (raceFormat before i s).out.code = s.out.code ∧
    (raceFormat before i s).out.cfg = s.out.cfg ∧ (raceFormat before i s).out.gen = s.out.gen ∧
    (raceFormat before i s).out.span = s.out.span ∧ (raceFormat before i s).out.staged = s.out.staged := by
  have k0 := @rereadBy_frame
  have k1 := @rereadBy_inner
  simp only [raceFormat, when]
  repeat' split
  all_goals simp [k0, k1]

theorem raceFormats_inner (before : List Host.Cell) (s : State) :
    (raceFormats before s).tt.ctl = s.tt.ctl ∧ (raceFormats before s).tt.instA = s.tt.instA ∧
    (raceFormats before s).tt.instB = s.tt.instB ∧ (raceFormats before s).tt.active = s.tt.active ∧
    (raceFormats before s).tt.activeValid = s.tt.activeValid ∧ (raceFormats before s).tt.startSec = s.tt.startSec ∧
    (raceFormats before s).tt.startFrac = s.tt.startFrac ∧ (raceFormats before s).tt.swPend = s.tt.swPend ∧
    (raceFormats before s).tt.protHit = s.tt.protHit ∧ (raceFormats before s).ldg.ctl = s.ldg.ctl ∧
    (raceFormats before s).ldg.lap = s.ldg.lap ∧ (raceFormats before s).out.code = s.out.code ∧
    (raceFormats before s).out.cfg = s.out.cfg ∧ (raceFormats before s).out.gen = s.out.gen ∧
    (raceFormats before s).out.span = s.out.span ∧ (raceFormats before s).out.staged = s.out.staged := by
  have k0 := @raceFormat_frame
  have k1 := @raceFormat_inner
  simp only [raceFormats, when]
  repeat' split
  all_goals simp [k0, k1]

theorem fastEdge_inner (k : Nat) (level : Bool) (n m : Nat) (s : State) :
    (fastEdge k level n m s).evin.incfg = s.evin.incfg ∧ (fastEdge k level n m s).evin.level = s.evin.level ∧
    (fastEdge k level n m s).evin.syncLevel = s.evin.syncLevel := by
  have k0 := @setConf_frame
  have k1 := @setConf_inner
  simp only [fastEdge, when]
  repeat' split
  all_goals simp [k0, k1]

theorem resumeFast_inner (q : Nat) (ks : List Nat) (s : State) :
    (resumeFast q ks s).evin.incfg = s.evin.incfg ∧ (resumeFast q ks s).tt.ctl = s.tt.ctl ∧
    (resumeFast q ks s).tt.instA = s.tt.instA ∧ (resumeFast q ks s).tt.instB = s.tt.instB ∧
    (resumeFast q ks s).tt.active = s.tt.active ∧ (resumeFast q ks s).tt.activeValid = s.tt.activeValid ∧
    (resumeFast q ks s).tt.startSec = s.tt.startSec ∧ (resumeFast q ks s).tt.startFrac = s.tt.startFrac ∧
    (resumeFast q ks s).tt.swPend = s.tt.swPend ∧ (resumeFast q ks s).tt.protHit = s.tt.protHit ∧
    (resumeFast q ks s).sys.phase = s.sys.phase ∧ (resumeFast q ks s).sys.cause = s.sys.cause ∧
    (resumeFast q ks s).sys.cfgState = s.sys.cfgState ∧ (resumeFast q ks s).sys.x32Run = s.sys.x32Run ∧
    (resumeFast q ks s).sys.measRst = s.sys.measRst ∧ (resumeFast q ks s).sys.earlyWr = s.sys.earlyWr ∧
    (resumeFast q ks s).sys.lostCmds = s.sys.lostCmds ∧ (resumeFast q ks s).clk.src = s.clk.src ∧
    (resumeFast q ks s).clk.limits = s.clk.limits ∧ (resumeFast q ks s).clk.spread = s.clk.spread ∧
    (resumeFast q ks s).clk.active = s.clk.active ∧ (resumeFast q ks s).clk.plans = s.clk.plans ∧
    (resumeFast q ks s).clk.drift = s.clk.drift ∧ (resumeFast q ks s).cond.arg0 = s.cond.arg0 ∧
    (resumeFast q ks s).cond.arg1 = s.cond.arg1 ∧ (resumeFast q ks s).cond.arg2 = s.cond.arg2 ∧
    (resumeFast q ks s).cond.queue = s.cond.queue ∧ (resumeFast q ks s).cond.running = s.cond.running ∧
    (resumeFast q ks s).cond.tail = s.cond.tail ∧ (resumeFast q ks s).cond.switches = s.cond.switches ∧
    (resumeFast q ks s).cond.inReset = s.cond.inReset ∧ (resumeFast q ks s).afe.ctl = s.afe.ctl ∧
    (resumeFast q ks s).afe.eff = s.afe.eff ∧ (resumeFast q ks s).afe.diag = s.afe.diag ∧
    (resumeFast q ks s).ros.sealed = s.ros.sealed ∧ (resumeFast q ks s).out.cfg = s.out.cfg ∧
    (resumeFast q ks s).out.gen = s.out.gen ∧ (resumeFast q ks s).out.span = s.out.span ∧
    (resumeFast q ks s).out.staged = s.out.staged ∧ (resumeFast q ks s).nv.pages = s.nv.pages ∧
    (resumeFast q ks s).nv.running = s.nv.running ∧ (resumeFast q ks s).nv.suspend = s.nv.suspend ∧
    (resumeFast q ks s).nv.todo = s.nv.todo ∧ (resumeFast q ks s).evt.mask = s.evt.mask ∧
    (resumeFast q ks s).evt.copy = s.evt.copy := by
  have k0 := @compared_frame
  have k1 := @compared_inner
  have k2 := @setAccepted_frame
  have k3 := @setAccepted_inner
  have k4 := @syncReset_frame
  have k5 := @syncReset_inner
  simp only [resumeFast, when]
  repeat' split
  all_goals simp [k0, k1, k2, k3, k4, k5]

theorem takeFresh_inner (n : Nat) (s : State) :
    (takeFresh n s).evin.incfg = s.evin.incfg ∧ (takeFresh n s).tt.ctl = s.tt.ctl ∧
    (takeFresh n s).tt.instA = s.tt.instA ∧ (takeFresh n s).tt.instB = s.tt.instB ∧
    (takeFresh n s).tt.active = s.tt.active ∧ (takeFresh n s).tt.activeValid = s.tt.activeValid ∧
    (takeFresh n s).tt.startSec = s.tt.startSec ∧ (takeFresh n s).tt.startFrac = s.tt.startFrac ∧
    (takeFresh n s).tt.swPend = s.tt.swPend ∧ (takeFresh n s).tt.protHit = s.tt.protHit ∧
    (takeFresh n s).sys.phase = s.sys.phase ∧ (takeFresh n s).sys.cause = s.sys.cause ∧
    (takeFresh n s).sys.cfgState = s.sys.cfgState ∧ (takeFresh n s).sys.x32Run = s.sys.x32Run ∧
    (takeFresh n s).sys.measRst = s.sys.measRst ∧ (takeFresh n s).sys.earlyWr = s.sys.earlyWr ∧
    (takeFresh n s).sys.lostCmds = s.sys.lostCmds ∧ (takeFresh n s).clk.src = s.clk.src ∧
    (takeFresh n s).clk.limits = s.clk.limits ∧ (takeFresh n s).clk.spread = s.clk.spread ∧
    (takeFresh n s).clk.active = s.clk.active ∧ (takeFresh n s).clk.plans = s.clk.plans ∧
    (takeFresh n s).clk.drift = s.clk.drift ∧ (takeFresh n s).cond.arg0 = s.cond.arg0 ∧
    (takeFresh n s).cond.arg1 = s.cond.arg1 ∧ (takeFresh n s).cond.arg2 = s.cond.arg2 ∧
    (takeFresh n s).cond.queue = s.cond.queue ∧ (takeFresh n s).cond.running = s.cond.running ∧
    (takeFresh n s).cond.tail = s.cond.tail ∧ (takeFresh n s).cond.switches = s.cond.switches ∧
    (takeFresh n s).cond.inReset = s.cond.inReset ∧ (takeFresh n s).afe.ctl = s.afe.ctl ∧
    (takeFresh n s).afe.eff = s.afe.eff ∧ (takeFresh n s).afe.diag = s.afe.diag ∧
    (takeFresh n s).ros.sealed = s.ros.sealed ∧ (takeFresh n s).out.cfg = s.out.cfg ∧
    (takeFresh n s).out.gen = s.out.gen ∧ (takeFresh n s).out.span = s.out.span ∧
    (takeFresh n s).out.staged = s.out.staged ∧ (takeFresh n s).nv.pages = s.nv.pages ∧
    (takeFresh n s).nv.running = s.nv.running ∧ (takeFresh n s).nv.suspend = s.nv.suspend ∧
    (takeFresh n s).nv.todo = s.nv.todo ∧ (takeFresh n s).evt.mask = s.evt.mask ∧
    (takeFresh n s).evt.copy = s.evt.copy := by
  have k0 := @resumeFast_frame
  have k1 := @resumeFast_inner
  simp only [takeFresh, when]
  repeat' split
  all_goals simp [k0, k1]

@[simp] theorem transition_inner (k : Nat) (level : Bool) (e : Edge) (s : State) :
    (transition k level e s).evin.incfg = s.evin.incfg ∧ (transition k level e s).tt.ctl = s.tt.ctl ∧
    (transition k level e s).tt.instA = s.tt.instA ∧ (transition k level e s).tt.instB = s.tt.instB ∧
    (transition k level e s).tt.active = s.tt.active ∧ (transition k level e s).tt.activeValid = s.tt.activeValid ∧
    (transition k level e s).tt.startSec = s.tt.startSec ∧ (transition k level e s).tt.startFrac = s.tt.startFrac ∧
    (transition k level e s).tt.swPend = s.tt.swPend ∧ (transition k level e s).tt.protHit = s.tt.protHit ∧
    (transition k level e s).sys.phase = s.sys.phase ∧ (transition k level e s).sys.cause = s.sys.cause ∧
    (transition k level e s).sys.cfgState = s.sys.cfgState ∧ (transition k level e s).sys.x32Run = s.sys.x32Run ∧
    (transition k level e s).sys.measRst = s.sys.measRst ∧ (transition k level e s).sys.earlyWr = s.sys.earlyWr ∧
    (transition k level e s).sys.lostCmds = s.sys.lostCmds ∧ (transition k level e s).clk.src = s.clk.src ∧
    (transition k level e s).clk.limits = s.clk.limits ∧ (transition k level e s).clk.spread = s.clk.spread ∧
    (transition k level e s).clk.active = s.clk.active ∧ (transition k level e s).clk.plans = s.clk.plans ∧
    (transition k level e s).clk.drift = s.clk.drift ∧ (transition k level e s).cond.arg0 = s.cond.arg0 ∧
    (transition k level e s).cond.arg1 = s.cond.arg1 ∧ (transition k level e s).cond.arg2 = s.cond.arg2 ∧
    (transition k level e s).cond.queue = s.cond.queue ∧ (transition k level e s).cond.running = s.cond.running ∧
    (transition k level e s).cond.tail = s.cond.tail ∧ (transition k level e s).cond.switches = s.cond.switches ∧
    (transition k level e s).cond.inReset = s.cond.inReset ∧ (transition k level e s).afe.ctl = s.afe.ctl ∧
    (transition k level e s).afe.eff = s.afe.eff ∧ (transition k level e s).afe.diag = s.afe.diag ∧
    (transition k level e s).ros.sealed = s.ros.sealed ∧ (transition k level e s).out.cfg = s.out.cfg ∧
    (transition k level e s).out.gen = s.out.gen ∧ (transition k level e s).out.span = s.out.span ∧
    (transition k level e s).out.staged = s.out.staged ∧ (transition k level e s).nv.pages = s.nv.pages ∧
    (transition k level e s).nv.running = s.nv.running ∧ (transition k level e s).nv.suspend = s.nv.suspend ∧
    (transition k level e s).nv.todo = s.nv.todo ∧ (transition k level e s).evt.mask = s.evt.mask ∧
    (transition k level e s).evt.copy = s.evt.copy := by
  have k0 := @fastEdge_frame
  have k1 := @fastEdge_inner
  have k2 := @holdSync_frame
  have k3 := @holdSync_inner
  have k4 := @takeFresh_frame
  have k5 := @takeFresh_inner
  simp only [transition, when]
  repeat' split
  all_goals simp [k0, k1, k2, k3, k4, k5]

theorem handover_inner (t : Nat) (s : State) :
    (handover t s).evin.incfg = s.evin.incfg ∧ (handover t s).tt.ctl = s.tt.ctl ∧
    (handover t s).tt.instA = s.tt.instA ∧ (handover t s).tt.instB = s.tt.instB ∧
    (handover t s).tt.active = s.tt.active ∧ (handover t s).tt.activeValid = s.tt.activeValid ∧
    (handover t s).tt.startSec = s.tt.startSec ∧ (handover t s).tt.startFrac = s.tt.startFrac ∧
    (handover t s).tt.swPend = s.tt.swPend ∧ (handover t s).tt.protHit = s.tt.protHit ∧
    (handover t s).sys.phase = s.sys.phase ∧ (handover t s).sys.cause = s.sys.cause ∧
    (handover t s).sys.cfgState = s.sys.cfgState ∧ (handover t s).sys.x32Run = s.sys.x32Run ∧
    (handover t s).sys.measRst = s.sys.measRst ∧ (handover t s).sys.earlyWr = s.sys.earlyWr ∧
    (handover t s).sys.lostCmds = s.sys.lostCmds ∧ (handover t s).clk.src = s.clk.src ∧
    (handover t s).clk.limits = s.clk.limits ∧ (handover t s).clk.spread = s.clk.spread ∧
    (handover t s).clk.active = s.clk.active ∧ (handover t s).clk.plans = s.clk.plans ∧
    (handover t s).clk.drift = s.clk.drift ∧ (handover t s).cond.arg0 = s.cond.arg0 ∧
    (handover t s).cond.arg1 = s.cond.arg1 ∧ (handover t s).cond.arg2 = s.cond.arg2 ∧
    (handover t s).cond.queue = s.cond.queue ∧ (handover t s).cond.running = s.cond.running ∧
    (handover t s).cond.tail = s.cond.tail ∧ (handover t s).cond.switches = s.cond.switches ∧
    (handover t s).cond.inReset = s.cond.inReset ∧ (handover t s).afe.ctl = s.afe.ctl ∧
    (handover t s).afe.eff = s.afe.eff ∧ (handover t s).afe.diag = s.afe.diag ∧
    (handover t s).ros.sealed = s.ros.sealed ∧ (handover t s).out.cfg = s.out.cfg ∧
    (handover t s).out.gen = s.out.gen ∧ (handover t s).out.span = s.out.span ∧
    (handover t s).out.staged = s.out.staged ∧ (handover t s).nv.pages = s.nv.pages ∧
    (handover t s).nv.running = s.nv.running ∧ (handover t s).nv.suspend = s.nv.suspend ∧
    (handover t s).nv.todo = s.nv.todo ∧ (handover t s).evt.mask = s.evt.mask ∧ (handover t s).evt.copy = s.evt.copy := by
  have k0 := @resumeFast_frame
  have k1 := @resumeFast_inner
  have k2 := @setConf_frame
  have k3 := @setConf_inner
  simp only [handover, when]
  repeat' split
  all_goals simp [k0, k1, k2, k3]

theorem handoverHere_inner (s : State) :
    (handoverHere s).evin.incfg = s.evin.incfg ∧ (handoverHere s).tt.ctl = s.tt.ctl ∧
    (handoverHere s).tt.instA = s.tt.instA ∧ (handoverHere s).tt.instB = s.tt.instB ∧
    (handoverHere s).tt.active = s.tt.active ∧ (handoverHere s).tt.activeValid = s.tt.activeValid ∧
    (handoverHere s).tt.startSec = s.tt.startSec ∧ (handoverHere s).tt.startFrac = s.tt.startFrac ∧
    (handoverHere s).tt.swPend = s.tt.swPend ∧ (handoverHere s).tt.protHit = s.tt.protHit ∧
    (handoverHere s).sys.phase = s.sys.phase ∧ (handoverHere s).sys.cause = s.sys.cause ∧
    (handoverHere s).sys.cfgState = s.sys.cfgState ∧ (handoverHere s).sys.x32Run = s.sys.x32Run ∧
    (handoverHere s).sys.measRst = s.sys.measRst ∧ (handoverHere s).sys.earlyWr = s.sys.earlyWr ∧
    (handoverHere s).sys.lostCmds = s.sys.lostCmds ∧ (handoverHere s).clk.src = s.clk.src ∧
    (handoverHere s).clk.limits = s.clk.limits ∧ (handoverHere s).clk.spread = s.clk.spread ∧
    (handoverHere s).clk.active = s.clk.active ∧ (handoverHere s).clk.plans = s.clk.plans ∧
    (handoverHere s).clk.drift = s.clk.drift ∧ (handoverHere s).cond.arg0 = s.cond.arg0 ∧
    (handoverHere s).cond.arg1 = s.cond.arg1 ∧ (handoverHere s).cond.arg2 = s.cond.arg2 ∧
    (handoverHere s).cond.queue = s.cond.queue ∧ (handoverHere s).cond.running = s.cond.running ∧
    (handoverHere s).cond.tail = s.cond.tail ∧ (handoverHere s).cond.switches = s.cond.switches ∧
    (handoverHere s).cond.inReset = s.cond.inReset ∧ (handoverHere s).afe.ctl = s.afe.ctl ∧
    (handoverHere s).afe.eff = s.afe.eff ∧ (handoverHere s).afe.diag = s.afe.diag ∧
    (handoverHere s).ros.sealed = s.ros.sealed ∧ (handoverHere s).out.cfg = s.out.cfg ∧
    (handoverHere s).out.gen = s.out.gen ∧ (handoverHere s).out.span = s.out.span ∧
    (handoverHere s).out.staged = s.out.staged ∧ (handoverHere s).nv.pages = s.nv.pages ∧
    (handoverHere s).nv.running = s.nv.running ∧ (handoverHere s).nv.suspend = s.nv.suspend ∧
    (handoverHere s).nv.todo = s.nv.todo ∧ (handoverHere s).evt.mask = s.evt.mask ∧
    (handoverHere s).evt.copy = s.evt.copy := by
  have k0 := @handover_frame
  have k1 := @handover_inner
  simp only [handoverHere, when]
  repeat' split
  all_goals simp [k0, k1]

theorem writeIncfg_inner (w : Word) (s : State) :
    (writeIncfg w s).tt.ctl = s.tt.ctl ∧ (writeIncfg w s).tt.instA = s.tt.instA ∧
    (writeIncfg w s).tt.instB = s.tt.instB ∧ (writeIncfg w s).tt.active = s.tt.active ∧
    (writeIncfg w s).tt.activeValid = s.tt.activeValid ∧ (writeIncfg w s).tt.startSec = s.tt.startSec ∧
    (writeIncfg w s).tt.startFrac = s.tt.startFrac ∧ (writeIncfg w s).tt.swPend = s.tt.swPend ∧
    (writeIncfg w s).tt.protHit = s.tt.protHit ∧ (writeIncfg w s).sys.phase = s.sys.phase ∧
    (writeIncfg w s).sys.cause = s.sys.cause ∧ (writeIncfg w s).sys.cfgState = s.sys.cfgState ∧
    (writeIncfg w s).sys.x32Run = s.sys.x32Run ∧ (writeIncfg w s).sys.measRst = s.sys.measRst ∧
    (writeIncfg w s).sys.earlyWr = s.sys.earlyWr ∧ (writeIncfg w s).sys.lostCmds = s.sys.lostCmds ∧
    (writeIncfg w s).clk.src = s.clk.src ∧ (writeIncfg w s).clk.limits = s.clk.limits ∧
    (writeIncfg w s).clk.spread = s.clk.spread ∧ (writeIncfg w s).clk.active = s.clk.active ∧
    (writeIncfg w s).clk.plans = s.clk.plans ∧ (writeIncfg w s).clk.drift = s.clk.drift ∧
    (writeIncfg w s).cond.arg0 = s.cond.arg0 ∧ (writeIncfg w s).cond.arg1 = s.cond.arg1 ∧
    (writeIncfg w s).cond.arg2 = s.cond.arg2 ∧ (writeIncfg w s).cond.queue = s.cond.queue ∧
    (writeIncfg w s).cond.running = s.cond.running ∧ (writeIncfg w s).cond.tail = s.cond.tail ∧
    (writeIncfg w s).cond.switches = s.cond.switches ∧ (writeIncfg w s).cond.inReset = s.cond.inReset ∧
    (writeIncfg w s).afe.ctl = s.afe.ctl ∧ (writeIncfg w s).afe.eff = s.afe.eff ∧
    (writeIncfg w s).afe.diag = s.afe.diag ∧ (writeIncfg w s).ros.sealed = s.ros.sealed ∧
    (writeIncfg w s).out.cfg = s.out.cfg ∧ (writeIncfg w s).out.gen = s.out.gen ∧
    (writeIncfg w s).out.span = s.out.span ∧ (writeIncfg w s).out.staged = s.out.staged ∧
    (writeIncfg w s).nv.pages = s.nv.pages ∧ (writeIncfg w s).nv.running = s.nv.running ∧
    (writeIncfg w s).nv.suspend = s.nv.suspend ∧ (writeIncfg w s).nv.todo = s.nv.todo ∧
    (writeIncfg w s).evt.mask = s.evt.mask ∧ (writeIncfg w s).evt.copy = s.evt.copy := by
  have k0 := @holdSync_frame
  have k1 := @holdSync_inner
  have k2 := @takeFresh_frame
  have k3 := @takeFresh_inner
  simp only [writeIncfg, when]
  repeat' split
  all_goals simp [k0, k1, k2, k3]

@[simp] theorem rest_inner (s : State) :
    (rest s).evin.incfg = s.evin.incfg ∧ (rest s).evin.level = s.evin.level ∧
    (rest s).evin.syncLevel = s.evin.syncLevel ∧ (rest s).sys.phase = s.sys.phase ∧ (rest s).sys.cause = s.sys.cause ∧
    (rest s).sys.cfgState = s.sys.cfgState ∧ (rest s).sys.x32Run = s.sys.x32Run ∧
    (rest s).sys.measRst = s.sys.measRst ∧ (rest s).sys.earlyWr = s.sys.earlyWr ∧
    (rest s).sys.lostCmds = s.sys.lostCmds ∧ (rest s).clk.src = s.clk.src ∧ (rest s).clk.limits = s.clk.limits ∧
    (rest s).clk.spread = s.clk.spread ∧ (rest s).clk.active = s.clk.active ∧ (rest s).clk.plans = s.clk.plans ∧
    (rest s).clk.bypass = s.clk.bypass ∧ (rest s).clk.drift = s.clk.drift ∧ (rest s).clk.q = s.clk.q ∧
    (rest s).cond.arg0 = s.cond.arg0 ∧ (rest s).cond.arg1 = s.cond.arg1 ∧ (rest s).cond.arg2 = s.cond.arg2 ∧
    (rest s).cond.queue = s.cond.queue ∧ (rest s).cond.running = s.cond.running ∧ (rest s).cond.head = s.cond.head ∧
    (rest s).cond.seq = s.cond.seq ∧ (rest s).cond.tail = s.cond.tail ∧ (rest s).cond.switches = s.cond.switches ∧
    (rest s).cond.inReset = s.cond.inReset ∧ (rest s).afe.ctl = s.afe.ctl ∧ (rest s).afe.eff = s.afe.eff ∧
    (rest s).afe.diag = s.afe.diag ∧ (rest s).ros.sealed = s.ros.sealed ∧ (rest s).out.code = s.out.code ∧
    (rest s).out.cfg = s.out.cfg ∧ (rest s).out.gen = s.out.gen ∧ (rest s).out.span = s.out.span ∧
    (rest s).out.staged = s.out.staged := by
  have k0 := @park_frame
  have k1 := @park_inner
  simp only [rest, when]
  repeat' split
  all_goals simp [k0, k1]

theorem lockSources_inner (cause : AcqBy) (s : State) :
    (lockSources cause s).evt.mask = s.evt.mask ∧ (lockSources cause s).evt.copy = s.evt.copy := by
  simp only [lockSources, when]
  repeat' split
  all_goals simp

theorem toHf_inner (q : Nat) (rising : Bool) (s : State) :
    (toHf q rising s).evin.incfg = s.evin.incfg ∧ (toHf q rising s).tt.ctl = s.tt.ctl ∧
    (toHf q rising s).tt.instA = s.tt.instA ∧ (toHf q rising s).tt.instB = s.tt.instB ∧
    (toHf q rising s).tt.active = s.tt.active ∧ (toHf q rising s).tt.activeValid = s.tt.activeValid ∧
    (toHf q rising s).tt.startSec = s.tt.startSec ∧ (toHf q rising s).tt.startFrac = s.tt.startFrac ∧
    (toHf q rising s).tt.swPend = s.tt.swPend ∧ (toHf q rising s).tt.protHit = s.tt.protHit ∧
    (toHf q rising s).sys.phase = s.sys.phase ∧ (toHf q rising s).sys.cause = s.sys.cause ∧
    (toHf q rising s).sys.cfgState = s.sys.cfgState ∧ (toHf q rising s).sys.x32Run = s.sys.x32Run ∧
    (toHf q rising s).sys.measRst = s.sys.measRst ∧ (toHf q rising s).sys.earlyWr = s.sys.earlyWr ∧
    (toHf q rising s).sys.lostCmds = s.sys.lostCmds ∧ (toHf q rising s).clk.src = s.clk.src ∧
    (toHf q rising s).clk.limits = s.clk.limits ∧ (toHf q rising s).clk.spread = s.clk.spread ∧
    (toHf q rising s).clk.active = s.clk.active ∧ (toHf q rising s).clk.plans = s.clk.plans ∧
    (toHf q rising s).clk.drift = s.clk.drift ∧ (toHf q rising s).cond.arg0 = s.cond.arg0 ∧
    (toHf q rising s).cond.arg1 = s.cond.arg1 ∧ (toHf q rising s).cond.arg2 = s.cond.arg2 ∧
    (toHf q rising s).cond.queue = s.cond.queue ∧ (toHf q rising s).cond.running = s.cond.running ∧
    (toHf q rising s).cond.tail = s.cond.tail ∧ (toHf q rising s).cond.switches = s.cond.switches ∧
    (toHf q rising s).cond.inReset = s.cond.inReset ∧ (toHf q rising s).afe.ctl = s.afe.ctl ∧
    (toHf q rising s).afe.eff = s.afe.eff ∧ (toHf q rising s).afe.diag = s.afe.diag ∧
    (toHf q rising s).ros.sealed = s.ros.sealed ∧ (toHf q rising s).out.cfg = s.out.cfg ∧
    (toHf q rising s).out.gen = s.out.gen ∧ (toHf q rising s).out.span = s.out.span ∧
    (toHf q rising s).out.staged = s.out.staged ∧ (toHf q rising s).nv.pages = s.nv.pages ∧
    (toHf q rising s).nv.running = s.nv.running ∧ (toHf q rising s).nv.suspend = s.nv.suspend ∧
    (toHf q rising s).nv.todo = s.nv.todo ∧ (toHf q rising s).evt.mask = s.evt.mask ∧
    (toHf q rising s).evt.copy = s.evt.copy := by
  have k0 := @bypassOut_frame
  have k1 := @bypassOut_inner
  have k2 := @handover_frame
  have k3 := @handover_inner
  have k4 := @syncReset_frame
  have k5 := @syncReset_inner
  simp only [toHf, when]
  repeat' split
  all_goals simp [k0, k1, k2, k3, k4, k5]

theorem declareLock_inner (a : Acq) (t : Nat) (rising : Bool) (s : State) :
    (declareLock a t rising s).evin.incfg = s.evin.incfg ∧ (declareLock a t rising s).tt.ctl = s.tt.ctl ∧
    (declareLock a t rising s).tt.instA = s.tt.instA ∧ (declareLock a t rising s).tt.instB = s.tt.instB ∧
    (declareLock a t rising s).tt.active = s.tt.active ∧
    (declareLock a t rising s).tt.activeValid = s.tt.activeValid ∧
    (declareLock a t rising s).tt.startSec = s.tt.startSec ∧
    (declareLock a t rising s).tt.startFrac = s.tt.startFrac ∧ (declareLock a t rising s).tt.swPend = s.tt.swPend ∧
    (declareLock a t rising s).tt.protHit = s.tt.protHit ∧ (declareLock a t rising s).sys.phase = s.sys.phase ∧
    (declareLock a t rising s).sys.cause = s.sys.cause ∧ (declareLock a t rising s).sys.cfgState = s.sys.cfgState ∧
    (declareLock a t rising s).sys.x32Run = s.sys.x32Run ∧ (declareLock a t rising s).sys.measRst = s.sys.measRst ∧
    (declareLock a t rising s).sys.earlyWr = s.sys.earlyWr ∧
    (declareLock a t rising s).sys.lostCmds = s.sys.lostCmds ∧ (declareLock a t rising s).clk.src = s.clk.src ∧
    (declareLock a t rising s).clk.limits = s.clk.limits ∧ (declareLock a t rising s).clk.spread = s.clk.spread ∧
    (declareLock a t rising s).clk.active = s.clk.active ∧ (declareLock a t rising s).clk.plans = s.clk.plans ∧
    (declareLock a t rising s).clk.drift = s.clk.drift ∧ (declareLock a t rising s).cond.arg0 = s.cond.arg0 ∧
    (declareLock a t rising s).cond.arg1 = s.cond.arg1 ∧ (declareLock a t rising s).cond.arg2 = s.cond.arg2 ∧
    (declareLock a t rising s).cond.queue = s.cond.queue ∧ (declareLock a t rising s).cond.running = s.cond.running ∧
    (declareLock a t rising s).cond.tail = s.cond.tail ∧ (declareLock a t rising s).cond.switches = s.cond.switches ∧
    (declareLock a t rising s).cond.inReset = s.cond.inReset ∧ (declareLock a t rising s).afe.ctl = s.afe.ctl ∧
    (declareLock a t rising s).afe.eff = s.afe.eff ∧ (declareLock a t rising s).afe.diag = s.afe.diag ∧
    (declareLock a t rising s).ros.sealed = s.ros.sealed ∧ (declareLock a t rising s).out.cfg = s.out.cfg ∧
    (declareLock a t rising s).out.gen = s.out.gen ∧ (declareLock a t rising s).out.span = s.out.span ∧
    (declareLock a t rising s).out.staged = s.out.staged ∧ (declareLock a t rising s).nv.pages = s.nv.pages ∧
    (declareLock a t rising s).nv.running = s.nv.running ∧ (declareLock a t rising s).nv.suspend = s.nv.suspend ∧
    (declareLock a t rising s).nv.todo = s.nv.todo ∧ (declareLock a t rising s).evt.mask = s.evt.mask ∧
    (declareLock a t rising s).evt.copy = s.evt.copy := by
  have k0 := @changeRef_frame
  have k1 := @changeRef_inner
  have k2 := @lockSources_frame
  have k3 := @lockSources_inner
  have k4 := @toHf_frame
  have k5 := @toHf_inner
  simp only [declareLock, when]
  repeat' split
  all_goals simp [k0, k1, k2, k3, k4, k5]

theorem windowFails_inner (a : Acq) (s : State) :
    (windowFails a s).evin.incfg = s.evin.incfg ∧ (windowFails a s).evin.level = s.evin.level ∧
    (windowFails a s).evin.syncLevel = s.evin.syncLevel ∧ (windowFails a s).tt.ctl = s.tt.ctl ∧
    (windowFails a s).tt.instA = s.tt.instA ∧ (windowFails a s).tt.instB = s.tt.instB ∧
    (windowFails a s).tt.active = s.tt.active ∧ (windowFails a s).tt.activeValid = s.tt.activeValid ∧
    (windowFails a s).tt.startSec = s.tt.startSec ∧ (windowFails a s).tt.startFrac = s.tt.startFrac ∧
    (windowFails a s).tt.swPend = s.tt.swPend ∧ (windowFails a s).tt.protHit = s.tt.protHit ∧
    (windowFails a s).clk.src = s.clk.src ∧ (windowFails a s).clk.limits = s.clk.limits ∧
    (windowFails a s).clk.spread = s.clk.spread ∧ (windowFails a s).clk.active = s.clk.active ∧
    (windowFails a s).clk.plans = s.clk.plans ∧ (windowFails a s).clk.drift = s.clk.drift ∧
    (windowFails a s).afe.ctl = s.afe.ctl ∧ (windowFails a s).afe.eff = s.afe.eff ∧
    (windowFails a s).afe.diag = s.afe.diag ∧ (windowFails a s).ros.sealed = s.ros.sealed ∧
    (windowFails a s).evt.mask = s.evt.mask ∧ (windowFails a s).evt.copy = s.evt.copy := by
  have k0 := @acqFail_frame
  have k1 := @acqFail_inner
  simp only [windowFails, when]
  repeat' split
  all_goals simp [k0, k1]

theorem lockLost_inner (err : BitVec 3) (s : State) :
    (lockLost err s).evin.incfg = s.evin.incfg ∧ (lockLost err s).tt.ctl = s.tt.ctl ∧
    (lockLost err s).tt.instA = s.tt.instA ∧ (lockLost err s).tt.instB = s.tt.instB ∧
    (lockLost err s).tt.startSec = s.tt.startSec ∧ (lockLost err s).tt.startFrac = s.tt.startFrac ∧
    (lockLost err s).tt.protHit = s.tt.protHit ∧ (lockLost err s).sys.phase = s.sys.phase ∧
    (lockLost err s).sys.cause = s.sys.cause ∧ (lockLost err s).sys.cfgState = s.sys.cfgState ∧
    (lockLost err s).sys.x32Run = s.sys.x32Run ∧ (lockLost err s).sys.measRst = s.sys.measRst ∧
    (lockLost err s).sys.earlyWr = s.sys.earlyWr ∧ (lockLost err s).sys.lostCmds = s.sys.lostCmds ∧
    (lockLost err s).clk.src = s.clk.src ∧ (lockLost err s).clk.limits = s.clk.limits ∧
    (lockLost err s).clk.spread = s.clk.spread ∧ (lockLost err s).clk.active = s.clk.active ∧
    (lockLost err s).clk.plans = s.clk.plans ∧ (lockLost err s).clk.drift = s.clk.drift ∧
    (lockLost err s).cond.arg0 = s.cond.arg0 ∧ (lockLost err s).cond.arg1 = s.cond.arg1 ∧
    (lockLost err s).cond.arg2 = s.cond.arg2 ∧ (lockLost err s).cond.queue = s.cond.queue ∧
    (lockLost err s).cond.running = s.cond.running ∧ (lockLost err s).cond.tail = s.cond.tail ∧
    (lockLost err s).cond.inReset = s.cond.inReset ∧ (lockLost err s).afe.ctl = s.afe.ctl ∧
    (lockLost err s).afe.eff = s.afe.eff ∧ (lockLost err s).afe.diag = s.afe.diag ∧
    (lockLost err s).ros.sealed = s.ros.sealed ∧ (lockLost err s).out.cfg = s.out.cfg ∧
    (lockLost err s).out.gen = s.out.gen ∧ (lockLost err s).out.span = s.out.span ∧
    (lockLost err s).out.staged = s.out.staged ∧ (lockLost err s).nv.pages = s.nv.pages ∧
    (lockLost err s).nv.running = s.nv.running ∧ (lockLost err s).nv.suspend = s.nv.suspend ∧
    (lockLost err s).nv.todo = s.nv.todo ∧ (lockLost err s).evt.mask = s.evt.mask ∧
    (lockLost err s).evt.copy = s.evt.copy := by
  have k0 := @bypassIn_frame
  have k1 := @bypassIn_inner
  have k2 := @cutAll_frame
  have k3 := @cutAll_inner
  have k4 := @retry_frame
  have k5 := @retry_inner
  simp only [lockLost, when]
  repeat' split
  all_goals simp [k0, k1, k2, k3, k4, k5]

@[simp] theorem lockWindowClose_inner (count : Nat) (c : Close) (s : State) :
    (lockWindowClose count c s).evin.incfg = s.evin.incfg ∧ (lockWindowClose count c s).tt.ctl = s.tt.ctl ∧
    (lockWindowClose count c s).tt.instA = s.tt.instA ∧ (lockWindowClose count c s).tt.instB = s.tt.instB ∧
    (lockWindowClose count c s).tt.startSec = s.tt.startSec ∧
    (lockWindowClose count c s).tt.startFrac = s.tt.startFrac ∧
    (lockWindowClose count c s).tt.protHit = s.tt.protHit ∧ (lockWindowClose count c s).sys.phase = s.sys.phase ∧
    (lockWindowClose count c s).sys.cause = s.sys.cause ∧ (lockWindowClose count c s).sys.cfgState = s.sys.cfgState ∧
    (lockWindowClose count c s).sys.x32Run = s.sys.x32Run ∧ (lockWindowClose count c s).sys.measRst = s.sys.measRst ∧
    (lockWindowClose count c s).sys.earlyWr = s.sys.earlyWr ∧
    (lockWindowClose count c s).sys.lostCmds = s.sys.lostCmds ∧ (lockWindowClose count c s).clk.src = s.clk.src ∧
    (lockWindowClose count c s).clk.limits = s.clk.limits ∧ (lockWindowClose count c s).clk.spread = s.clk.spread ∧
    (lockWindowClose count c s).clk.active = s.clk.active ∧ (lockWindowClose count c s).clk.plans = s.clk.plans ∧
    (lockWindowClose count c s).clk.drift = s.clk.drift ∧ (lockWindowClose count c s).cond.arg0 = s.cond.arg0 ∧
    (lockWindowClose count c s).cond.arg1 = s.cond.arg1 ∧ (lockWindowClose count c s).cond.arg2 = s.cond.arg2 ∧
    (lockWindowClose count c s).cond.queue = s.cond.queue ∧
    (lockWindowClose count c s).cond.running = s.cond.running ∧ (lockWindowClose count c s).cond.tail = s.cond.tail ∧
    (lockWindowClose count c s).cond.inReset = s.cond.inReset ∧ (lockWindowClose count c s).afe.ctl = s.afe.ctl ∧
    (lockWindowClose count c s).afe.eff = s.afe.eff ∧ (lockWindowClose count c s).afe.diag = s.afe.diag ∧
    (lockWindowClose count c s).ros.sealed = s.ros.sealed ∧ (lockWindowClose count c s).out.cfg = s.out.cfg ∧
    (lockWindowClose count c s).out.gen = s.out.gen ∧ (lockWindowClose count c s).out.span = s.out.span ∧
    (lockWindowClose count c s).out.staged = s.out.staged ∧ (lockWindowClose count c s).nv.pages = s.nv.pages ∧
    (lockWindowClose count c s).nv.running = s.nv.running ∧ (lockWindowClose count c s).nv.suspend = s.nv.suspend ∧
    (lockWindowClose count c s).nv.todo = s.nv.todo ∧ (lockWindowClose count c s).evt.mask = s.evt.mask ∧
    (lockWindowClose count c s).evt.copy = s.evt.copy := by
  have k0 := @declareLock_frame
  have k1 := @declareLock_inner
  have k2 := @lockLost_frame
  have k3 := @lockLost_inner
  have k4 := @windowFails_frame
  have k5 := @windowFails_inner
  simp only [lockWindowClose, when]
  repeat' split
  all_goals simp [k0, k1, k2, k3, k4, k5]

@[simp] theorem refinMissing_inner (t : Nat) (s : State) :
    (refinMissing t s).evin.incfg = s.evin.incfg ∧ (refinMissing t s).tt.ctl = s.tt.ctl ∧
    (refinMissing t s).tt.instA = s.tt.instA ∧ (refinMissing t s).tt.instB = s.tt.instB ∧
    (refinMissing t s).tt.startSec = s.tt.startSec ∧ (refinMissing t s).tt.startFrac = s.tt.startFrac ∧
    (refinMissing t s).tt.protHit = s.tt.protHit ∧ (refinMissing t s).sys.phase = s.sys.phase ∧
    (refinMissing t s).sys.cause = s.sys.cause ∧ (refinMissing t s).sys.cfgState = s.sys.cfgState ∧
    (refinMissing t s).sys.x32Run = s.sys.x32Run ∧ (refinMissing t s).sys.measRst = s.sys.measRst ∧
    (refinMissing t s).sys.earlyWr = s.sys.earlyWr ∧ (refinMissing t s).sys.lostCmds = s.sys.lostCmds ∧
    (refinMissing t s).clk.src = s.clk.src ∧ (refinMissing t s).clk.limits = s.clk.limits ∧
    (refinMissing t s).clk.spread = s.clk.spread ∧ (refinMissing t s).clk.active = s.clk.active ∧
    (refinMissing t s).clk.plans = s.clk.plans ∧ (refinMissing t s).clk.drift = s.clk.drift ∧
    (refinMissing t s).cond.arg0 = s.cond.arg0 ∧ (refinMissing t s).cond.arg1 = s.cond.arg1 ∧
    (refinMissing t s).cond.arg2 = s.cond.arg2 ∧ (refinMissing t s).cond.queue = s.cond.queue ∧
    (refinMissing t s).cond.running = s.cond.running ∧ (refinMissing t s).cond.tail = s.cond.tail ∧
    (refinMissing t s).cond.inReset = s.cond.inReset ∧ (refinMissing t s).afe.ctl = s.afe.ctl ∧
    (refinMissing t s).afe.eff = s.afe.eff ∧ (refinMissing t s).afe.diag = s.afe.diag ∧
    (refinMissing t s).ros.sealed = s.ros.sealed ∧ (refinMissing t s).out.cfg = s.out.cfg ∧
    (refinMissing t s).out.gen = s.out.gen ∧ (refinMissing t s).out.span = s.out.span ∧
    (refinMissing t s).out.staged = s.out.staged ∧ (refinMissing t s).nv.pages = s.nv.pages ∧
    (refinMissing t s).nv.running = s.nv.running ∧ (refinMissing t s).nv.suspend = s.nv.suspend ∧
    (refinMissing t s).nv.todo = s.nv.todo ∧ (refinMissing t s).evt.mask = s.evt.mask ∧
    (refinMissing t s).evt.copy = s.evt.copy := by
  have k0 := @acqFail_frame
  have k1 := @acqFail_inner
  have k2 := @lockLost_frame
  have k3 := @lockLost_inner
  have k4 := @underFallback_frame
  have k5 := @underFallback_inner
  simp only [refinMissing, when]
  repeat' split
  all_goals simp [k0, k1, k2, k3, k4, k5]

theorem driftTake_inner (q : Nat) (s : State) :
    (driftTake q s).clk.src = s.clk.src ∧ (driftTake q s).clk.limits = s.clk.limits ∧
    (driftTake q s).clk.spread = s.clk.spread ∧ (driftTake q s).clk.active = s.clk.active ∧
    (driftTake q s).clk.plans = s.clk.plans ∧ (driftTake q s).clk.bypass = s.clk.bypass := by
  simp only [driftTake, when]
  repeat' split
  all_goals simp

theorem driftWarn_inner (raising : Bool) (e : Int) (s : State) :
    (driftWarn raising e s).clk.src = s.clk.src ∧ (driftWarn raising e s).clk.limits = s.clk.limits ∧
    (driftWarn raising e s).clk.spread = s.clk.spread ∧ (driftWarn raising e s).clk.active = s.clk.active ∧
    (driftWarn raising e s).clk.plans = s.clk.plans ∧ (driftWarn raising e s).clk.bypass = s.clk.bypass ∧
    (driftWarn raising e s).clk.drift = s.clk.drift ∧ (driftWarn raising e s).clk.q = s.clk.q ∧
    (driftWarn raising e s).evt.mask = s.evt.mask ∧ (driftWarn raising e s).evt.copy = s.evt.copy := by
  simp only [driftWarn, when]
  repeat' split
  all_goals simp

@[simp] theorem driftWindowClose_inner (q t : Nat) (s : State) :
    (driftWindowClose q t s).evin.incfg = s.evin.incfg ∧ (driftWindowClose q t s).tt.ctl = s.tt.ctl ∧
    (driftWindowClose q t s).tt.instA = s.tt.instA ∧ (driftWindowClose q t s).tt.instB = s.tt.instB ∧
    (driftWindowClose q t s).tt.startSec = s.tt.startSec ∧ (driftWindowClose q t s).tt.startFrac = s.tt.startFrac ∧
    (driftWindowClose q t s).tt.protHit = s.tt.protHit ∧ (driftWindowClose q t s).sys.phase = s.sys.phase ∧
    (driftWindowClose q t s).sys.cause = s.sys.cause ∧ (driftWindowClose q t s).sys.cfgState = s.sys.cfgState ∧
    (driftWindowClose q t s).sys.x32Run = s.sys.x32Run ∧ (driftWindowClose q t s).sys.measRst = s.sys.measRst ∧
    (driftWindowClose q t s).sys.earlyWr = s.sys.earlyWr ∧ (driftWindowClose q t s).sys.lostCmds = s.sys.lostCmds ∧
    (driftWindowClose q t s).clk.src = s.clk.src ∧ (driftWindowClose q t s).clk.limits = s.clk.limits ∧
    (driftWindowClose q t s).clk.spread = s.clk.spread ∧ (driftWindowClose q t s).clk.active = s.clk.active ∧
    (driftWindowClose q t s).clk.plans = s.clk.plans ∧ (driftWindowClose q t s).cond.arg0 = s.cond.arg0 ∧
    (driftWindowClose q t s).cond.arg1 = s.cond.arg1 ∧ (driftWindowClose q t s).cond.arg2 = s.cond.arg2 ∧
    (driftWindowClose q t s).cond.queue = s.cond.queue ∧ (driftWindowClose q t s).cond.running = s.cond.running ∧
    (driftWindowClose q t s).cond.tail = s.cond.tail ∧ (driftWindowClose q t s).cond.inReset = s.cond.inReset ∧
    (driftWindowClose q t s).afe.ctl = s.afe.ctl ∧ (driftWindowClose q t s).afe.eff = s.afe.eff ∧
    (driftWindowClose q t s).afe.diag = s.afe.diag ∧ (driftWindowClose q t s).ros.sealed = s.ros.sealed ∧
    (driftWindowClose q t s).out.cfg = s.out.cfg ∧ (driftWindowClose q t s).out.gen = s.out.gen ∧
    (driftWindowClose q t s).out.span = s.out.span ∧ (driftWindowClose q t s).out.staged = s.out.staged ∧
    (driftWindowClose q t s).nv.pages = s.nv.pages ∧ (driftWindowClose q t s).nv.running = s.nv.running ∧
    (driftWindowClose q t s).nv.suspend = s.nv.suspend ∧ (driftWindowClose q t s).nv.todo = s.nv.todo ∧
    (driftWindowClose q t s).evt.mask = s.evt.mask ∧ (driftWindowClose q t s).evt.copy = s.evt.copy := by
  have k0 := @bypassIn_frame
  have k1 := @bypassIn_inner
  have k2 := @cutDrift_frame
  have k3 := @cutDrift_inner
  have k4 := @driftTake_frame
  have k5 := @driftTake_inner
  have k6 := @driftWarn_frame
  have k7 := @driftWarn_inner
  have k8 := @toHf_frame
  have k9 := @toHf_inner
  simp only [driftWindowClose, when]
  repeat' split
  all_goals simp [k0, k1, k2, k3, k4, k5, k6, k7, k8, k9]

theorem restartClock_inner (cause : AcqBy) (s : State) :
    (restartClock cause s).evin.incfg = s.evin.incfg ∧ (restartClock cause s).tt.ctl = s.tt.ctl ∧
    (restartClock cause s).tt.instA = s.tt.instA ∧ (restartClock cause s).tt.instB = s.tt.instB ∧
    (restartClock cause s).tt.startSec = s.tt.startSec ∧ (restartClock cause s).tt.startFrac = s.tt.startFrac ∧
    (restartClock cause s).tt.protHit = s.tt.protHit ∧ (restartClock cause s).sys.phase = s.sys.phase ∧
    (restartClock cause s).sys.cause = s.sys.cause ∧ (restartClock cause s).sys.cfgState = s.sys.cfgState ∧
    (restartClock cause s).sys.x32Run = s.sys.x32Run ∧ (restartClock cause s).sys.measRst = s.sys.measRst ∧
    (restartClock cause s).sys.earlyWr = s.sys.earlyWr ∧ (restartClock cause s).sys.lostCmds = s.sys.lostCmds ∧
    (restartClock cause s).clk.src = s.clk.src ∧ (restartClock cause s).clk.limits = s.clk.limits ∧
    (restartClock cause s).clk.spread = s.clk.spread ∧ (restartClock cause s).clk.active = s.clk.active ∧
    (restartClock cause s).clk.plans = s.clk.plans ∧ (restartClock cause s).clk.drift = s.clk.drift ∧
    (restartClock cause s).cond.arg0 = s.cond.arg0 ∧ (restartClock cause s).cond.arg1 = s.cond.arg1 ∧
    (restartClock cause s).cond.arg2 = s.cond.arg2 ∧ (restartClock cause s).cond.queue = s.cond.queue ∧
    (restartClock cause s).cond.running = s.cond.running ∧ (restartClock cause s).cond.tail = s.cond.tail ∧
    (restartClock cause s).cond.inReset = s.cond.inReset ∧ (restartClock cause s).afe.ctl = s.afe.ctl ∧
    (restartClock cause s).afe.eff = s.afe.eff ∧ (restartClock cause s).afe.diag = s.afe.diag ∧
    (restartClock cause s).ros.sealed = s.ros.sealed ∧ (restartClock cause s).out.cfg = s.out.cfg ∧
    (restartClock cause s).out.gen = s.out.gen ∧ (restartClock cause s).out.span = s.out.span ∧
    (restartClock cause s).out.staged = s.out.staged ∧ (restartClock cause s).nv.pages = s.nv.pages ∧
    (restartClock cause s).nv.running = s.nv.running ∧ (restartClock cause s).nv.suspend = s.nv.suspend ∧
    (restartClock cause s).nv.todo = s.nv.todo ∧ (restartClock cause s).evt.mask = s.evt.mask ∧
    (restartClock cause s).evt.copy = s.evt.copy := by
  have k0 := @acquire_frame
  have k1 := @acquire_inner
  have k2 := @bypassIn_frame
  have k3 := @bypassIn_inner
  have k4 := @cutAll_frame
  have k5 := @cutAll_inner
  have k6 := @discardQ_frame
  have k7 := @discardQ_inner
  have k8 := @dropAhead_frame
  have k9 := @dropAhead_inner
  have k10 := @withdrawPresettles_frame
  have k11 := @withdrawPresettles_inner
  simp only [restartClock, when]
  repeat' split
  all_goals simp [k0, k1, k2, k3, k4, k5, k6, k7, k8, k9, k10, k11]

theorem writeClkSrc_inner (w : Word) (s : State) :
    (writeClkSrc w s).clk.limits = s.clk.limits ∧ (writeClkSrc w s).clk.spread = s.clk.spread ∧
    (writeClkSrc w s).clk.active = s.clk.active ∧ (writeClkSrc w s).clk.plans = s.clk.plans ∧
    (writeClkSrc w s).clk.bypass = s.clk.bypass ∧ (writeClkSrc w s).clk.drift = s.clk.drift ∧
    (writeClkSrc w s).clk.q = s.clk.q := by
  simp only [writeClkSrc, when]
  repeat' split
  all_goals simp

theorem writeClkPlan_inner (w : Word) (s : State) :
    (writeClkPlan w s).clk.src = s.clk.src ∧ (writeClkPlan w s).clk.limits = s.clk.limits ∧
    (writeClkPlan w s).clk.spread = s.clk.spread ∧ (writeClkPlan w s).clk.bypass = s.clk.bypass ∧
    (writeClkPlan w s).clk.drift = s.clk.drift ∧ (writeClkPlan w s).clk.q = s.clk.q := by
  simp only [writeClkPlan, when]
  repeat' split
  all_goals simp

theorem retryTick_inner (s : State) :
    (retryTick s).evin.incfg = s.evin.incfg ∧ (retryTick s).evin.level = s.evin.level ∧
    (retryTick s).evin.syncLevel = s.evin.syncLevel ∧ (retryTick s).tt.ctl = s.tt.ctl ∧
    (retryTick s).tt.instA = s.tt.instA ∧ (retryTick s).tt.instB = s.tt.instB ∧
    (retryTick s).tt.active = s.tt.active ∧ (retryTick s).tt.activeValid = s.tt.activeValid ∧
    (retryTick s).tt.startSec = s.tt.startSec ∧ (retryTick s).tt.startFrac = s.tt.startFrac ∧
    (retryTick s).tt.swPend = s.tt.swPend ∧ (retryTick s).tt.protHit = s.tt.protHit ∧
    (retryTick s).clk.src = s.clk.src ∧ (retryTick s).clk.limits = s.clk.limits ∧
    (retryTick s).clk.spread = s.clk.spread ∧ (retryTick s).clk.active = s.clk.active ∧
    (retryTick s).clk.plans = s.clk.plans ∧ (retryTick s).clk.drift = s.clk.drift ∧
    (retryTick s).afe.ctl = s.afe.ctl ∧ (retryTick s).afe.eff = s.afe.eff ∧ (retryTick s).afe.diag = s.afe.diag ∧
    (retryTick s).ros.sealed = s.ros.sealed ∧ (retryTick s).evt.mask = s.evt.mask ∧
    (retryTick s).evt.copy = s.evt.copy := by
  have k0 := @retry_frame
  have k1 := @retry_inner
  simp only [retryTick, when]
  repeat' split
  all_goals simp [k0, k1]

theorem takeSpread_inner (x : SpreadSet) (s : State) :
    (takeSpread x s).clk.src = s.clk.src ∧ (takeSpread x s).clk.limits = s.clk.limits ∧
    (takeSpread x s).clk.spread = s.clk.spread ∧ (takeSpread x s).clk.active = s.clk.active ∧
    (takeSpread x s).clk.plans = s.clk.plans ∧ (takeSpread x s).clk.bypass = s.clk.bypass ∧
    (takeSpread x s).clk.drift = s.clk.drift ∧ (takeSpread x s).clk.q = s.clk.q := by
  simp only [takeSpread, when]
  repeat' split
  all_goals simp

theorem copySpread_inner (s : State) :
    (copySpread s).clk.src = s.clk.src ∧ (copySpread s).clk.limits = s.clk.limits ∧
    (copySpread s).clk.spread = s.clk.spread ∧ (copySpread s).clk.active = s.clk.active ∧
    (copySpread s).clk.plans = s.clk.plans ∧ (copySpread s).clk.bypass = s.clk.bypass ∧
    (copySpread s).clk.drift = s.clk.drift ∧ (copySpread s).clk.q = s.clk.q ∧ (copySpread s).evt.mask = s.evt.mask ∧
    (copySpread s).evt.copy = s.evt.copy := by
  have k0 := @takeSpread_frame
  have k1 := @takeSpread_inner
  simp only [copySpread, when]
  repeat' split
  all_goals simp [k0, k1]

@[simp] theorem spreadWrap_inner (s : State) :
    (spreadWrap s).tt.ctl = s.tt.ctl ∧ (spreadWrap s).tt.instA = s.tt.instA ∧ (spreadWrap s).tt.instB = s.tt.instB ∧
    (spreadWrap s).tt.active = s.tt.active ∧ (spreadWrap s).tt.activeValid = s.tt.activeValid ∧
    (spreadWrap s).tt.startSec = s.tt.startSec ∧ (spreadWrap s).tt.startFrac = s.tt.startFrac ∧
    (spreadWrap s).tt.swPend = s.tt.swPend ∧ (spreadWrap s).tt.protHit = s.tt.protHit ∧
    (spreadWrap s).clk.src = s.clk.src ∧ (spreadWrap s).clk.limits = s.clk.limits ∧
    (spreadWrap s).clk.spread = s.clk.spread ∧ (spreadWrap s).clk.active = s.clk.active ∧
    (spreadWrap s).clk.plans = s.clk.plans ∧ (spreadWrap s).clk.bypass = s.clk.bypass ∧
    (spreadWrap s).clk.drift = s.clk.drift ∧ (spreadWrap s).clk.q = s.clk.q ∧ (spreadWrap s).afe.ctl = s.afe.ctl ∧
    (spreadWrap s).afe.eff = s.afe.eff ∧ (spreadWrap s).afe.diag = s.afe.diag ∧ (spreadWrap s).out.cfg = s.out.cfg ∧
    (spreadWrap s).out.gen = s.out.gen ∧ (spreadWrap s).out.span = s.out.span ∧
    (spreadWrap s).out.staged = s.out.staged := by
  simp only [spreadWrap, when]
  repeat' split
  all_goals simp

@[simp] theorem nvUnc_inner (s : State) :
    (nvUnc s).nv.pages = s.nv.pages ∧ (nvUnc s).nv.op = s.nv.op ∧ (nvUnc s).nv.running = s.nv.running ∧
    (nvUnc s).nv.suspend = s.nv.suspend ∧ (nvUnc s).nv.todo = s.nv.todo ∧ (nvUnc s).evt.mask = s.evt.mask ∧
    (nvUnc s).evt.copy = s.evt.copy := by
  simp only [nvUnc, when]
  repeat' split
  all_goals simp

theorem owe_inner (ts : List NvTask) (s : State) :
    (owe ts s).nv.pages = s.nv.pages ∧ (owe ts s).nv.op = s.nv.op ∧ (owe ts s).nv.running = s.nv.running ∧
    (owe ts s).nv.suspend = s.nv.suspend := by
  simp only [owe, when]
  repeat' split
  all_goals simp

theorem oweScrub_inner (l : Nat) (s : State) :
    (oweScrub l s).nv.pages = s.nv.pages ∧ (oweScrub l s).nv.op = s.nv.op ∧ (oweScrub l s).nv.running = s.nv.running ∧
    (oweScrub l s).nv.suspend = s.nv.suspend := by
  have k0 := @owe_frame
  have k1 := @owe_inner
  simp only [oweScrub, when]
  repeat' split
  all_goals simp [k0, k1]

@[simp] theorem scrubAll_inner (ls : List Nat) (s : State) :
    (scrubAll ls s).nv.pages = s.nv.pages ∧ (scrubAll ls s).nv.op = s.nv.op ∧
    (scrubAll ls s).nv.running = s.nv.running ∧ (scrubAll ls s).nv.suspend = s.nv.suspend := by
  have k0 := @oweScrub_frame
  have k1 := @oweScrub_inner
  simp only [scrubAll, when]
  repeat' split
  all_goals simp [k0, k1]

theorem wearCount_inner (l phys : Nat) (s : State) :
    (wearCount l phys s).nv.pages = s.nv.pages ∧ (wearCount l phys s).nv.op = s.nv.op ∧
    (wearCount l phys s).nv.running = s.nv.running ∧ (wearCount l phys s).nv.suspend = s.nv.suspend := by
  have k0 := @owe_frame
  have k1 := @owe_inner
  simp only [wearCount, when]
  repeat' split
  all_goals simp [k0, k1]

theorem taskDone_inner (ecc : Ecc) (t : NvTask) (s : State) :
    (taskDone ecc t s).nv.pages = s.nv.pages ∧ (taskDone ecc t s).nv.op = s.nv.op ∧
    (taskDone ecc t s).nv.running = s.nv.running ∧ (taskDone ecc t s).nv.suspend = s.nv.suspend ∧
    (taskDone ecc t s).evt.mask = s.evt.mask ∧ (taskDone ecc t s).evt.copy = s.evt.copy := by
  simp only [taskDone, when]
  repeat' split
  all_goals simp

theorem writePage_inner (o : NvOp) (kind gen : Byte) (data : List Byte) (ecc : Ecc) (s : State) :
    (writePage o kind gen data ecc s).nv.op = s.nv.op ∧ (writePage o kind gen data ecc s).nv.running = s.nv.running ∧
    (writePage o kind gen data ecc s).nv.suspend = s.nv.suspend ∧
    (writePage o kind gen data ecc s).evt.mask = s.evt.mask ∧
    (writePage o kind gen data ecc s).evt.copy = s.evt.copy := by
  have k0 := @taskDone_frame
  have k1 := @taskDone_inner
  have k2 := @wearCount_frame
  have k3 := @wearCount_inner
  simp only [writePage, when]
  repeat' split
  all_goals simp [k0, k1, k2, k3]

theorem readPage_inner (l : Nat) (ecc : Ecc) (s : State) :
    (readPage l ecc s).nv.op = s.nv.op ∧ (readPage l ecc s).nv.running = s.nv.running ∧
    (readPage l ecc s).nv.suspend = s.nv.suspend ∧ (readPage l ecc s).evt.mask = s.evt.mask ∧
    (readPage l ecc s).evt.copy = s.evt.copy := by
  have k0 := @oweScrub_frame
  have k1 := @oweScrub_inner
  simp only [readPage, when]
  repeat' split
  all_goals simp [k0, k1]

theorem recover_inner (s : State) :
    (recover s).ldg.ctl = s.ldg.ctl ∧ (recover s).nv.pages = s.nv.pages ∧ (recover s).nv.op = s.nv.op ∧
    (recover s).nv.running = s.nv.running ∧ (recover s).nv.suspend = s.nv.suspend ∧
    (recover s).evt.mask = s.evt.mask ∧ (recover s).evt.copy = s.evt.copy := by
  simp only [recover, when]
  repeat' split
  all_goals simp

theorem writeAfeCtl_inner (w : Word) (s : State) :
    (writeAfeCtl w s).afe.eff = s.afe.eff ∧ (writeAfeCtl w s).afe.diag = s.afe.diag := by
  have k0 := @applyPortEn_frame
  simp only [writeAfeCtl, when]
  repeat' split
  all_goals simp [k0]

theorem ldgOwed_inner (s : State) :
    (ldgOwed s).sys.phase = s.sys.phase ∧ (ldgOwed s).sys.cause = s.sys.cause ∧
    (ldgOwed s).sys.cfgState = s.sys.cfgState ∧ (ldgOwed s).sys.x32Run = s.sys.x32Run ∧
    (ldgOwed s).sys.measRst = s.sys.measRst ∧ (ldgOwed s).sys.earlyWr = s.sys.earlyWr ∧
    (ldgOwed s).sys.lostCmds = s.sys.lostCmds ∧ (ldgOwed s).out.code = s.out.code ∧ (ldgOwed s).out.cfg = s.out.cfg ∧
    (ldgOwed s).out.gen = s.out.gen ∧ (ldgOwed s).out.span = s.out.span ∧ (ldgOwed s).out.staged = s.out.staged ∧
    (ldgOwed s).nv.pages = s.nv.pages ∧ (ldgOwed s).nv.running = s.nv.running ∧
    (ldgOwed s).nv.suspend = s.nv.suspend ∧ (ldgOwed s).nv.todo = s.nv.todo ∧ (ldgOwed s).evt.mask = s.evt.mask ∧
    (ldgOwed s).evt.copy = s.evt.copy := by
  have k0 := @ldgInstant_frame
  have k1 := @ldgInstant_inner
  simp only [ldgOwed, when]
  repeat' split
  all_goals simp [k0, k1]

theorem recoverBy_inner (cause : Nat) (s : State) :
    (recoverBy cause s).sys.phase = s.sys.phase ∧ (recoverBy cause s).sys.cause = s.sys.cause ∧
    (recoverBy cause s).sys.cfgState = s.sys.cfgState ∧ (recoverBy cause s).sys.x32Run = s.sys.x32Run ∧
    (recoverBy cause s).sys.measRst = s.sys.measRst ∧ (recoverBy cause s).sys.earlyWr = s.sys.earlyWr ∧
    (recoverBy cause s).sys.lostCmds = s.sys.lostCmds ∧ (recoverBy cause s).out.code = s.out.code ∧
    (recoverBy cause s).out.cfg = s.out.cfg ∧ (recoverBy cause s).out.gen = s.out.gen ∧
    (recoverBy cause s).out.span = s.out.span ∧ (recoverBy cause s).out.staged = s.out.staged ∧
    (recoverBy cause s).nv.pages = s.nv.pages ∧ (recoverBy cause s).nv.running = s.nv.running ∧
    (recoverBy cause s).nv.suspend = s.nv.suspend ∧ (recoverBy cause s).evt.mask = s.evt.mask ∧
    (recoverBy cause s).evt.copy = s.evt.copy := by
  have k0 := @ldgOwed_frame
  have k1 := @ldgOwed_inner
  have k2 := @recover_frame
  have k3 := @recover_inner
  have k4 := @resume_frame
  simp only [recoverBy, when]
  repeat' split
  all_goals simp [k0, k1, k2, k3, k4]

theorem recoverDue_inner (s : State) :
    (recoverDue s).sys.phase = s.sys.phase ∧ (recoverDue s).sys.cause = s.sys.cause ∧
    (recoverDue s).sys.cfgState = s.sys.cfgState ∧ (recoverDue s).sys.x32Run = s.sys.x32Run ∧
    (recoverDue s).sys.measRst = s.sys.measRst ∧ (recoverDue s).sys.earlyWr = s.sys.earlyWr ∧
    (recoverDue s).sys.lostCmds = s.sys.lostCmds ∧ (recoverDue s).out.code = s.out.code ∧
    (recoverDue s).out.cfg = s.out.cfg ∧ (recoverDue s).out.gen = s.out.gen ∧ (recoverDue s).out.span = s.out.span ∧
    (recoverDue s).out.staged = s.out.staged ∧ (recoverDue s).nv.pages = s.nv.pages ∧
    (recoverDue s).nv.running = s.nv.running ∧ (recoverDue s).nv.suspend = s.nv.suspend ∧
    (recoverDue s).evt.mask = s.evt.mask ∧ (recoverDue s).evt.copy = s.evt.copy := by
  have k0 := @recoverBy_frame
  have k1 := @recoverBy_inner
  simp only [recoverDue, when]
  repeat' split
  all_goals simp [k0, k1]

theorem writeLdgCtl_inner (w : Word) (s : State) :
    (writeLdgCtl w s).sys.phase = s.sys.phase ∧ (writeLdgCtl w s).sys.cause = s.sys.cause ∧
    (writeLdgCtl w s).sys.cfgState = s.sys.cfgState ∧ (writeLdgCtl w s).sys.x32Run = s.sys.x32Run ∧
    (writeLdgCtl w s).sys.measRst = s.sys.measRst ∧ (writeLdgCtl w s).sys.earlyWr = s.sys.earlyWr ∧
    (writeLdgCtl w s).sys.lostCmds = s.sys.lostCmds ∧ (writeLdgCtl w s).out.code = s.out.code ∧
    (writeLdgCtl w s).out.cfg = s.out.cfg ∧ (writeLdgCtl w s).out.gen = s.out.gen ∧
    (writeLdgCtl w s).out.span = s.out.span ∧ (writeLdgCtl w s).out.staged = s.out.staged ∧
    (writeLdgCtl w s).nv.pages = s.nv.pages ∧ (writeLdgCtl w s).nv.running = s.nv.running ∧
    (writeLdgCtl w s).nv.suspend = s.nv.suspend ∧ (writeLdgCtl w s).evt.mask = s.evt.mask ∧
    (writeLdgCtl w s).evt.copy = s.evt.copy := by
  have k0 := @ldgOwed_frame
  have k1 := @ldgOwed_inner
  have k2 := @recoverBy_frame
  have k3 := @recoverBy_inner
  simp only [writeLdgCtl, when]
  repeat' split
  all_goals simp [k0, k1, k2, k3]

theorem ledgerOff_inner (s : State) :
    (ledgerOff s).evin.incfg = s.evin.incfg ∧ (ledgerOff s).tt.ctl = s.tt.ctl ∧ (ledgerOff s).tt.instA = s.tt.instA ∧
    (ledgerOff s).tt.instB = s.tt.instB ∧ (ledgerOff s).tt.active = s.tt.active ∧
    (ledgerOff s).tt.activeValid = s.tt.activeValid ∧ (ledgerOff s).tt.startSec = s.tt.startSec ∧
    (ledgerOff s).tt.startFrac = s.tt.startFrac ∧ (ledgerOff s).tt.swPend = s.tt.swPend ∧
    (ledgerOff s).tt.protHit = s.tt.protHit ∧ (ledgerOff s).sys.phase = s.sys.phase ∧
    (ledgerOff s).sys.cause = s.sys.cause ∧ (ledgerOff s).sys.cfgState = s.sys.cfgState ∧
    (ledgerOff s).sys.x32Run = s.sys.x32Run ∧ (ledgerOff s).sys.measRst = s.sys.measRst ∧
    (ledgerOff s).sys.earlyWr = s.sys.earlyWr ∧ (ledgerOff s).sys.lostCmds = s.sys.lostCmds ∧
    (ledgerOff s).clk.src = s.clk.src ∧ (ledgerOff s).clk.limits = s.clk.limits ∧
    (ledgerOff s).clk.spread = s.clk.spread ∧ (ledgerOff s).clk.active = s.clk.active ∧
    (ledgerOff s).clk.plans = s.clk.plans ∧ (ledgerOff s).clk.drift = s.clk.drift ∧
    (ledgerOff s).cond.arg0 = s.cond.arg0 ∧ (ledgerOff s).cond.arg1 = s.cond.arg1 ∧
    (ledgerOff s).cond.arg2 = s.cond.arg2 ∧ (ledgerOff s).cond.queue = s.cond.queue ∧
    (ledgerOff s).cond.running = s.cond.running ∧ (ledgerOff s).cond.tail = s.cond.tail ∧
    (ledgerOff s).cond.switches = s.cond.switches ∧ (ledgerOff s).cond.inReset = s.cond.inReset ∧
    (ledgerOff s).afe.ctl = s.afe.ctl ∧ (ledgerOff s).afe.eff = s.afe.eff ∧ (ledgerOff s).afe.diag = s.afe.diag ∧
    (ledgerOff s).ros.sealed = s.ros.sealed ∧ (ledgerOff s).out.cfg = s.out.cfg ∧ (ledgerOff s).out.gen = s.out.gen ∧
    (ledgerOff s).out.span = s.out.span ∧ (ledgerOff s).out.staged = s.out.staged ∧
    (ledgerOff s).nv.pages = s.nv.pages ∧ (ledgerOff s).nv.running = s.nv.running ∧
    (ledgerOff s).nv.suspend = s.nv.suspend ∧ (ledgerOff s).nv.todo = s.nv.todo ∧
    (ledgerOff s).evt.mask = s.evt.mask ∧ (ledgerOff s).evt.copy = s.evt.copy := by
  simp only [ledgerOff, when]
  repeat' split
  all_goals simp

theorem writeMask0_inner (w : Word) (s : State) :
    (writeMask0 w s).hif.i3c = s.hif.i3c ∧ (writeMask0 w s).hif.dynAddr = s.hif.dynAddr ∧
    (writeMask0 w s).hif.crcEn = s.hif.crcEn ∧ (writeMask0 w s).hif.txn = s.hif.txn ∧
    (writeMask0 w s).hif.reply = s.hif.reply := by
  have k0 := @trimServed_frame
  have k1 := @trimServed_inner
  simp only [writeMask0, when]
  repeat' split
  all_goals simp [k0, k1]

theorem writeMask1_inner (w : Word) (s : State) :
    (writeMask1 w s).hif.i3c = s.hif.i3c ∧ (writeMask1 w s).hif.dynAddr = s.hif.dynAddr ∧
    (writeMask1 w s).hif.crcEn = s.hif.crcEn ∧ (writeMask1 w s).hif.txn = s.hif.txn ∧
    (writeMask1 w s).hif.reply = s.hif.reply ∧ (writeMask1 w s).evt.copy = s.evt.copy := by
  have k0 := @trimServed_frame
  have k1 := @trimServed_inner
  simp only [writeMask1, when]
  repeat' split
  all_goals simp [k0, k1]

theorem setClassN_inner (s : State) :
    (setClassN s).tt.ctl = s.tt.ctl ∧ (setClassN s).tt.instA = s.tt.instA ∧ (setClassN s).tt.instB = s.tt.instB ∧
    (setClassN s).tt.active = s.tt.active ∧ (setClassN s).tt.activeValid = s.tt.activeValid ∧
    (setClassN s).tt.startSec = s.tt.startSec ∧ (setClassN s).tt.startFrac = s.tt.startFrac ∧
    (setClassN s).tt.swPend = s.tt.swPend ∧ (setClassN s).tt.protHit = s.tt.protHit ∧
    (setClassN s).sys.phase = s.sys.phase ∧ (setClassN s).sys.cause = s.sys.cause ∧
    (setClassN s).sys.cfgState = s.sys.cfgState ∧ (setClassN s).sys.x32Run = s.sys.x32Run ∧
    (setClassN s).sys.measRst = s.sys.measRst ∧ (setClassN s).sys.earlyWr = s.sys.earlyWr ∧
    (setClassN s).sys.lostCmds = s.sys.lostCmds ∧ (setClassN s).pwr.trickle = s.pwr.trickle ∧
    (setClassN s).pwr.onVbat = s.pwr.onVbat ∧ (setClassN s).pwr.mainOn = s.pwr.mainOn ∧
    (setClassN s).pwr.aonOn = s.pwr.aonOn ∧ (setClassN s).pwr.warn = s.pwr.warn ∧
    (setClassN s).pwr.ship = s.pwr.ship ∧ (setClassN s).pwr.castleCount = s.pwr.castleCount ∧
    (setClassN s).pwr.firstValid = s.pwr.firstValid ∧ (setClassN s).pwr.firstSec = s.pwr.firstSec ∧
    (setClassN s).pwr.firstFrac = s.pwr.firstFrac ∧ (setClassN s).pwr.castlings = s.pwr.castlings ∧
    (setClassN s).cond.arg0 = s.cond.arg0 ∧ (setClassN s).cond.arg1 = s.cond.arg1 ∧
    (setClassN s).cond.arg2 = s.cond.arg2 ∧ (setClassN s).cond.queue = s.cond.queue ∧
    (setClassN s).cond.running = s.cond.running ∧ (setClassN s).cond.tail = s.cond.tail ∧
    (setClassN s).cond.switches = s.cond.switches ∧ (setClassN s).cond.inReset = s.cond.inReset ∧
    (setClassN s).afe.eff = s.afe.eff ∧ (setClassN s).afe.diag = s.afe.diag ∧
    (setClassN s).ros.sealed = s.ros.sealed ∧ (setClassN s).out.gen = s.out.gen ∧
    (setClassN s).out.span = s.out.span ∧ (setClassN s).out.staged = s.out.staged ∧
    (setClassN s).hif.i3c = s.hif.i3c ∧ (setClassN s).hif.dynAddr = s.hif.dynAddr ∧
    (setClassN s).hif.crcEn = s.hif.crcEn ∧ (setClassN s).hif.txn = s.hif.txn ∧
    (setClassN s).hif.reply = s.hif.reply ∧ (setClassN s).nv.pages = s.nv.pages ∧
    (setClassN s).nv.running = s.nv.running ∧ (setClassN s).nv.suspend = s.nv.suspend ∧
    (setClassN s).nv.todo = s.nv.todo := by
  have k0 := @setAoutCfg_frame
  have k1 := @setAoutCfg_inner
  have k2 := @writeAfeCtl_frame
  have k3 := @writeAfeCtl_inner
  have k4 := @writeIncfg_frame
  have k5 := @writeIncfg_inner
  have k6 := @writeMask0_frame
  have k7 := @writeMask0_inner
  have k8 := @writeMask1_frame
  have k9 := @writeMask1_inner
  simp only [setClassN, when]
  repeat' split
  all_goals simp [k0, k1, k2, k3, k4, k5, k6, k7, k8, k9]

theorem aoutAtStart_inner (s : State) :
    (aoutAtStart s).out.gen = s.out.gen ∧ (aoutAtStart s).out.span = s.out.span ∧
    (aoutAtStart s).out.staged = s.out.staged ∧ (aoutAtStart s).evt.mask = s.evt.mask ∧
    (aoutAtStart s).evt.copy = s.evt.copy := by
  have k0 := @applyCode_frame
  have k1 := @applyCode_inner
  simp only [aoutAtStart, when]
  repeat' split
  all_goals simp [k0, k1]

theorem configStep_inner (s : State) :
    (configStep s).tt.ctl = s.tt.ctl ∧ (configStep s).tt.instA = s.tt.instA ∧ (configStep s).tt.instB = s.tt.instB ∧
    (configStep s).tt.active = s.tt.active ∧ (configStep s).tt.activeValid = s.tt.activeValid ∧
    (configStep s).tt.startSec = s.tt.startSec ∧ (configStep s).tt.startFrac = s.tt.startFrac ∧
    (configStep s).tt.swPend = s.tt.swPend ∧ (configStep s).tt.protHit = s.tt.protHit ∧
    (configStep s).sys.cause = s.sys.cause ∧ (configStep s).sys.x32Run = s.sys.x32Run ∧
    (configStep s).sys.measRst = s.sys.measRst ∧ (configStep s).sys.earlyWr = s.sys.earlyWr ∧
    (configStep s).sys.lostCmds = s.sys.lostCmds ∧ (configStep s).pwr.trickle = s.pwr.trickle ∧
    (configStep s).pwr.onVbat = s.pwr.onVbat ∧ (configStep s).pwr.mainOn = s.pwr.mainOn ∧
    (configStep s).pwr.aonOn = s.pwr.aonOn ∧ (configStep s).pwr.warn = s.pwr.warn ∧
    (configStep s).pwr.ship = s.pwr.ship ∧ (configStep s).pwr.castleCount = s.pwr.castleCount ∧
    (configStep s).pwr.firstValid = s.pwr.firstValid ∧ (configStep s).pwr.firstSec = s.pwr.firstSec ∧
    (configStep s).pwr.firstFrac = s.pwr.firstFrac ∧ (configStep s).pwr.castlings = s.pwr.castlings ∧
    (configStep s).cond.arg0 = s.cond.arg0 ∧ (configStep s).cond.arg1 = s.cond.arg1 ∧
    (configStep s).cond.arg2 = s.cond.arg2 ∧ (configStep s).cond.queue = s.cond.queue ∧
    (configStep s).cond.running = s.cond.running ∧ (configStep s).cond.tail = s.cond.tail ∧
    (configStep s).cond.switches = s.cond.switches ∧ (configStep s).cond.inReset = s.cond.inReset ∧
    (configStep s).afe.eff = s.afe.eff ∧ (configStep s).afe.diag = s.afe.diag ∧
    (configStep s).ros.sealed = s.ros.sealed ∧ (configStep s).out.gen = s.out.gen ∧
    (configStep s).out.span = s.out.span ∧ (configStep s).out.staged = s.out.staged ∧
    (configStep s).hif.i3c = s.hif.i3c ∧ (configStep s).hif.dynAddr = s.hif.dynAddr ∧
    (configStep s).hif.crcEn = s.hif.crcEn ∧ (configStep s).hif.txn = s.hif.txn ∧
    (configStep s).hif.reply = s.hif.reply ∧ (configStep s).nv.pages = s.nv.pages ∧
    (configStep s).nv.running = s.nv.running ∧ (configStep s).nv.suspend = s.nv.suspend := by
  have k0 := @aoutAtStart_frame
  have k1 := @aoutAtStart_inner
  have k2 := @setClassN_frame
  have k3 := @setClassN_inner
  simp only [configStep, when]
  repeat' split
  all_goals simp [k0, k1, k2, k3]

theorem restoreImage_inner (s : State) :
    (restoreImage s).tt.ctl = s.tt.ctl ∧ (restoreImage s).tt.instA = s.tt.instA ∧
    (restoreImage s).tt.instB = s.tt.instB ∧ (restoreImage s).tt.startSec = s.tt.startSec ∧
    (restoreImage s).tt.startFrac = s.tt.startFrac ∧ (restoreImage s).tt.protHit = s.tt.protHit ∧
    (restoreImage s).sys.phase = s.sys.phase ∧ (restoreImage s).sys.cause = s.sys.cause ∧
    (restoreImage s).sys.cfgState = s.sys.cfgState ∧ (restoreImage s).sys.x32Run = s.sys.x32Run ∧
    (restoreImage s).sys.measRst = s.sys.measRst ∧ (restoreImage s).sys.earlyWr = s.sys.earlyWr ∧
    (restoreImage s).sys.lostCmds = s.sys.lostCmds ∧ (restoreImage s).pwr.trickle = s.pwr.trickle ∧
    (restoreImage s).pwr.onVbat = s.pwr.onVbat ∧ (restoreImage s).pwr.mainOn = s.pwr.mainOn ∧
    (restoreImage s).pwr.aonOn = s.pwr.aonOn ∧ (restoreImage s).pwr.warn = s.pwr.warn ∧
    (restoreImage s).pwr.ship = s.pwr.ship ∧ (restoreImage s).pwr.castleCount = s.pwr.castleCount ∧
    (restoreImage s).pwr.firstValid = s.pwr.firstValid ∧ (restoreImage s).pwr.firstSec = s.pwr.firstSec ∧
    (restoreImage s).pwr.firstFrac = s.pwr.firstFrac ∧ (restoreImage s).pwr.castlings = s.pwr.castlings ∧
    (restoreImage s).cond.arg0 = s.cond.arg0 ∧ (restoreImage s).cond.arg1 = s.cond.arg1 ∧
    (restoreImage s).cond.arg2 = s.cond.arg2 ∧ (restoreImage s).cond.queue = s.cond.queue ∧
    (restoreImage s).cond.running = s.cond.running ∧ (restoreImage s).cond.tail = s.cond.tail ∧
    (restoreImage s).cond.inReset = s.cond.inReset ∧ (restoreImage s).afe.eff = s.afe.eff ∧
    (restoreImage s).afe.diag = s.afe.diag ∧ (restoreImage s).ros.sealed = s.ros.sealed ∧
    (restoreImage s).out.gen = s.out.gen ∧ (restoreImage s).out.span = s.out.span ∧
    (restoreImage s).out.staged = s.out.staged ∧ (restoreImage s).hif.i3c = s.hif.i3c ∧
    (restoreImage s).hif.dynAddr = s.hif.dynAddr ∧ (restoreImage s).hif.crcEn = s.hif.crcEn ∧
    (restoreImage s).hif.txn = s.hif.txn ∧ (restoreImage s).hif.reply = s.hif.reply ∧
    (restoreImage s).nv.pages = s.nv.pages ∧ (restoreImage s).nv.running = s.nv.running ∧
    (restoreImage s).nv.suspend = s.nv.suspend := by
  have k0 := @copySpread_frame
  have k1 := @copySpread_inner
  have k2 := @ledgerOff_frame
  have k3 := @ledgerOff_inner
  have k4 := @restartClock_frame
  have k5 := @restartClock_inner
  have k6 := @setClassN_frame
  have k7 := @setClassN_inner
  have k8 := @writeLdgCtl_frame
  have k9 := @writeLdgCtl_inner
  simp only [restoreImage, when]
  repeat' split
  all_goals simp [k0, k1, k2, k3, k4, k5, k6, k7, k8, k9]

@[simp] theorem cmdRecord_inner (c : Cmd) (direct : Bool) (reason : Nat) (detail : Word) (s : State) :
    (cmdRecord c direct reason detail s).cond.arg0 = s.cond.arg0 ∧
    (cmdRecord c direct reason detail s).cond.arg1 = s.cond.arg1 ∧
    (cmdRecord c direct reason detail s).cond.arg2 = s.cond.arg2 ∧
    (cmdRecord c direct reason detail s).cond.queue = s.cond.queue ∧
    (cmdRecord c direct reason detail s).cond.running = s.cond.running ∧
    (cmdRecord c direct reason detail s).cond.tail = s.cond.tail ∧
    (cmdRecord c direct reason detail s).cond.switches = s.cond.switches ∧
    (cmdRecord c direct reason detail s).cond.inReset = s.cond.inReset ∧
    (cmdRecord c direct reason detail s).evt.mask = s.evt.mask ∧
    (cmdRecord c direct reason detail s).evt.copy = s.evt.copy := by
  simp only [cmdRecord, when]
  repeat' split
  all_goals simp

theorem enqueue_inner (c : Cmd) (s : State) :
    (enqueue c s).sys.phase = s.sys.phase ∧ (enqueue c s).sys.cause = s.sys.cause ∧
    (enqueue c s).sys.cfgState = s.sys.cfgState ∧ (enqueue c s).sys.x32Run = s.sys.x32Run ∧
    (enqueue c s).sys.measRst = s.sys.measRst ∧ (enqueue c s).sys.earlyWr = s.sys.earlyWr ∧
    (enqueue c s).sys.lostCmds = s.sys.lostCmds ∧ (enqueue c s).cond.arg0 = s.cond.arg0 ∧
    (enqueue c s).cond.arg1 = s.cond.arg1 ∧ (enqueue c s).cond.arg2 = s.cond.arg2 ∧
    (enqueue c s).cond.running = s.cond.running ∧ (enqueue c s).cond.head = s.cond.head ∧
    (enqueue c s).cond.seq = s.cond.seq ∧ (enqueue c s).cond.tail = s.cond.tail ∧
    (enqueue c s).cond.switches = s.cond.switches ∧ (enqueue c s).cond.inReset = s.cond.inReset ∧
    (enqueue c s).out.code = s.out.code ∧ (enqueue c s).out.cfg = s.out.cfg ∧ (enqueue c s).out.gen = s.out.gen ∧
    (enqueue c s).out.span = s.out.span ∧ (enqueue c s).out.staged = s.out.staged := by
  simp only [enqueue, when]
  repeat' split
  all_goals simp

theorem submitDirect_inner (c : Cmd) (s : State) :
    (submitDirect c s).cond.arg0 = s.cond.arg0 ∧ (submitDirect c s).cond.arg1 = s.cond.arg1 ∧
    (submitDirect c s).cond.arg2 = s.cond.arg2 ∧ (submitDirect c s).cond.queue = s.cond.queue ∧
    (submitDirect c s).cond.running = s.cond.running ∧ (submitDirect c s).cond.tail = s.cond.tail ∧
    (submitDirect c s).cond.switches = s.cond.switches ∧ (submitDirect c s).cond.inReset = s.cond.inReset ∧
    (submitDirect c s).ldg.ctl = s.ldg.ctl ∧ (submitDirect c s).ldg.run = s.ldg.run ∧
    (submitDirect c s).ldg.cnt = s.ldg.cnt ∧ (submitDirect c s).nv.pages = s.nv.pages ∧
    (submitDirect c s).nv.op = s.nv.op ∧ (submitDirect c s).nv.running = s.nv.running ∧
    (submitDirect c s).nv.todo = s.nv.todo ∧ (submitDirect c s).evt.mask = s.evt.mask ∧
    (submitDirect c s).evt.copy = s.evt.copy := by
  simp only [submitDirect, when]
  repeat' split
  all_goals simp

theorem submit_inner (c : Cmd) (s : State) :
    (submit c s).sys.phase = s.sys.phase ∧ (submit c s).sys.cause = s.sys.cause ∧
    (submit c s).sys.cfgState = s.sys.cfgState ∧ (submit c s).sys.x32Run = s.sys.x32Run ∧
    (submit c s).sys.measRst = s.sys.measRst ∧ (submit c s).sys.earlyWr = s.sys.earlyWr ∧
    (submit c s).sys.lostCmds = s.sys.lostCmds ∧ (submit c s).cond.arg0 = s.cond.arg0 ∧
    (submit c s).cond.arg1 = s.cond.arg1 ∧ (submit c s).cond.arg2 = s.cond.arg2 ∧
    (submit c s).cond.running = s.cond.running ∧ (submit c s).cond.tail = s.cond.tail ∧
    (submit c s).cond.switches = s.cond.switches ∧ (submit c s).cond.inReset = s.cond.inReset ∧
    (submit c s).ldg.ctl = s.ldg.ctl ∧ (submit c s).ldg.run = s.ldg.run ∧ (submit c s).ldg.cnt = s.ldg.cnt ∧
    (submit c s).out.code = s.out.code ∧ (submit c s).out.cfg = s.out.cfg ∧ (submit c s).out.gen = s.out.gen ∧
    (submit c s).out.span = s.out.span ∧ (submit c s).out.staged = s.out.staged ∧ (submit c s).nv.pages = s.nv.pages ∧
    (submit c s).nv.op = s.nv.op ∧ (submit c s).nv.running = s.nv.running ∧ (submit c s).nv.todo = s.nv.todo ∧
    (submit c s).evt.mask = s.evt.mask ∧ (submit c s).evt.copy = s.evt.copy := by
  have k0 := @enqueue_frame
  have k1 := @enqueue_inner
  have k2 := @submitDirect_frame
  have k3 := @submitDirect_inner
  simp only [submit, when]
  repeat' split
  all_goals simp [k0, k1, k2, k3]

theorem queueJob_inner (k : Nat) (s : State) :
    (queueJob k s).sys.phase = s.sys.phase ∧ (queueJob k s).sys.cause = s.sys.cause ∧
    (queueJob k s).sys.cfgState = s.sys.cfgState ∧ (queueJob k s).sys.x32Run = s.sys.x32Run ∧
    (queueJob k s).sys.measRst = s.sys.measRst ∧ (queueJob k s).sys.earlyWr = s.sys.earlyWr ∧
    (queueJob k s).sys.lostCmds = s.sys.lostCmds ∧ (queueJob k s).cond.arg0 = s.cond.arg0 ∧
    (queueJob k s).cond.arg1 = s.cond.arg1 ∧ (queueJob k s).cond.arg2 = s.cond.arg2 ∧
    (queueJob k s).cond.running = s.cond.running ∧ (queueJob k s).cond.tail = s.cond.tail ∧
    (queueJob k s).cond.switches = s.cond.switches ∧ (queueJob k s).cond.inReset = s.cond.inReset ∧
    (queueJob k s).out.code = s.out.code ∧ (queueJob k s).out.cfg = s.out.cfg ∧ (queueJob k s).out.gen = s.out.gen ∧
    (queueJob k s).out.span = s.out.span ∧ (queueJob k s).out.staged = s.out.staged ∧
    (queueJob k s).disc.en = s.disc.en ∧ (queueJob k s).evt.mask = s.evt.mask ∧ (queueJob k s).evt.copy = s.evt.copy := by
  have k0 := @enqueue_frame
  have k1 := @enqueue_inner
  simp only [queueJob, when]
  repeat' split
  all_goals simp [k0, k1]

@[simp] theorem admitJob_inner (k : Nat) (s : State) :
    (admitJob k s).sys.phase = s.sys.phase ∧ (admitJob k s).sys.cause = s.sys.cause ∧
    (admitJob k s).sys.cfgState = s.sys.cfgState ∧ (admitJob k s).sys.x32Run = s.sys.x32Run ∧
    (admitJob k s).sys.measRst = s.sys.measRst ∧ (admitJob k s).sys.earlyWr = s.sys.earlyWr ∧
    (admitJob k s).sys.lostCmds = s.sys.lostCmds ∧ (admitJob k s).cond.arg0 = s.cond.arg0 ∧
    (admitJob k s).cond.arg1 = s.cond.arg1 ∧ (admitJob k s).cond.arg2 = s.cond.arg2 ∧
    (admitJob k s).cond.running = s.cond.running ∧ (admitJob k s).cond.head = s.cond.head ∧
    (admitJob k s).cond.seq = s.cond.seq ∧ (admitJob k s).cond.tail = s.cond.tail ∧
    (admitJob k s).cond.switches = s.cond.switches ∧ (admitJob k s).cond.inReset = s.cond.inReset ∧
    (admitJob k s).out.code = s.out.code ∧ (admitJob k s).out.cfg = s.out.cfg ∧ (admitJob k s).out.gen = s.out.gen ∧
    (admitJob k s).out.span = s.out.span ∧ (admitJob k s).out.staged = s.out.staged ∧
    (admitJob k s).disc.en = s.disc.en := by
  have k0 := @enqueue_frame
  have k1 := @enqueue_inner
  simp only [admitJob, when]
  repeat' split
  all_goals simp [k0, k1]

@[simp] theorem admitJobs_inner (s : State) :
    (admitJobs s).sys.phase = s.sys.phase ∧ (admitJobs s).sys.cause = s.sys.cause ∧
    (admitJobs s).sys.cfgState = s.sys.cfgState ∧ (admitJobs s).sys.x32Run = s.sys.x32Run ∧
    (admitJobs s).sys.measRst = s.sys.measRst ∧ (admitJobs s).sys.earlyWr = s.sys.earlyWr ∧
    (admitJobs s).sys.lostCmds = s.sys.lostCmds ∧ (admitJobs s).cond.arg0 = s.cond.arg0 ∧
    (admitJobs s).cond.arg1 = s.cond.arg1 ∧ (admitJobs s).cond.arg2 = s.cond.arg2 ∧
    (admitJobs s).cond.running = s.cond.running ∧ (admitJobs s).cond.head = s.cond.head ∧
    (admitJobs s).cond.seq = s.cond.seq ∧ (admitJobs s).cond.tail = s.cond.tail ∧
    (admitJobs s).cond.switches = s.cond.switches ∧ (admitJobs s).cond.inReset = s.cond.inReset ∧
    (admitJobs s).out.code = s.out.code ∧ (admitJobs s).out.cfg = s.out.cfg ∧ (admitJobs s).out.gen = s.out.gen ∧
    (admitJobs s).out.span = s.out.span ∧ (admitJobs s).out.staged = s.out.staged ∧
    (admitJobs s).disc.en = s.disc.en := by
  simp only [admitJobs, when]
  repeat' split
  all_goals simp

@[simp] theorem endHolds_inner (s : State) :
    (endHolds s).evin.incfg = s.evin.incfg ∧ (endHolds s).tt.ctl = s.tt.ctl ∧ (endHolds s).tt.instA = s.tt.instA ∧
    (endHolds s).tt.instB = s.tt.instB ∧ (endHolds s).tt.active = s.tt.active ∧
    (endHolds s).tt.activeValid = s.tt.activeValid ∧ (endHolds s).tt.startSec = s.tt.startSec ∧
    (endHolds s).tt.startFrac = s.tt.startFrac ∧ (endHolds s).tt.swPend = s.tt.swPend ∧
    (endHolds s).tt.protHit = s.tt.protHit ∧ (endHolds s).sys.phase = s.sys.phase ∧
    (endHolds s).sys.cause = s.sys.cause ∧ (endHolds s).sys.cfgState = s.sys.cfgState ∧
    (endHolds s).sys.x32Run = s.sys.x32Run ∧ (endHolds s).sys.measRst = s.sys.measRst ∧
    (endHolds s).sys.earlyWr = s.sys.earlyWr ∧ (endHolds s).sys.lostCmds = s.sys.lostCmds ∧
    (endHolds s).clk.src = s.clk.src ∧ (endHolds s).clk.limits = s.clk.limits ∧
    (endHolds s).clk.spread = s.clk.spread ∧ (endHolds s).clk.active = s.clk.active ∧
    (endHolds s).clk.plans = s.clk.plans ∧ (endHolds s).clk.drift = s.clk.drift ∧
    (endHolds s).cond.arg0 = s.cond.arg0 ∧ (endHolds s).cond.arg1 = s.cond.arg1 ∧
    (endHolds s).cond.arg2 = s.cond.arg2 ∧ (endHolds s).cond.queue = s.cond.queue ∧
    (endHolds s).cond.running = s.cond.running ∧ (endHolds s).cond.tail = s.cond.tail ∧
    (endHolds s).cond.switches = s.cond.switches ∧ (endHolds s).cond.inReset = s.cond.inReset ∧
    (endHolds s).afe.ctl = s.afe.ctl ∧ (endHolds s).afe.eff = s.afe.eff ∧ (endHolds s).afe.diag = s.afe.diag ∧
    (endHolds s).ros.sealed = s.ros.sealed ∧ (endHolds s).out.cfg = s.out.cfg ∧ (endHolds s).out.gen = s.out.gen ∧
    (endHolds s).out.span = s.out.span ∧ (endHolds s).out.staged = s.out.staged ∧ (endHolds s).nv.pages = s.nv.pages ∧
    (endHolds s).nv.running = s.nv.running ∧ (endHolds s).nv.suspend = s.nv.suspend ∧
    (endHolds s).nv.todo = s.nv.todo ∧ (endHolds s).cal.map = s.cal.map ∧ (endHolds s).cal.quality = s.cal.quality ∧
    (endHolds s).cal.modTrim = s.cal.modTrim ∧ (endHolds s).cal.evtTrim = s.cal.evtTrim ∧
    (endHolds s).cal.calibrated = s.cal.calibrated ∧ (endHolds s).evt.mask = s.evt.mask ∧
    (endHolds s).evt.copy = s.evt.copy := by
  have k0 := @resumeFast_frame
  have k1 := @resumeFast_inner
  simp only [endHolds, when]
  repeat' split
  all_goals simp [k0, k1]

theorem holdInputs_inner (e : BitVec 7) (s : State) :
    (holdInputs e s).evin.incfg = s.evin.incfg ∧ (holdInputs e s).evin.level = s.evin.level ∧
    (holdInputs e s).evin.syncLevel = s.evin.syncLevel ∧ (holdInputs e s).cal.map = s.cal.map ∧
    (holdInputs e s).cal.quality = s.cal.quality ∧ (holdInputs e s).cal.modTrim = s.cal.modTrim ∧
    (holdInputs e s).cal.evtTrim = s.cal.evtTrim ∧ (holdInputs e s).cal.calibrated = s.cal.calibrated := by
  simp only [holdInputs, when]
  repeat' split
  all_goals simp

@[simp] theorem orphanOp_inner (s : State) :
    (orphanOp s).nv.pages = s.nv.pages ∧ (orphanOp s).nv.running = s.nv.running ∧
    (orphanOp s).nv.suspend = s.nv.suspend ∧ (orphanOp s).nv.todo = s.nv.todo := by
  simp only [orphanOp, when]
  repeat' split
  all_goals simp

@[simp] theorem stopInstalls_inner (s : State) :
    (stopInstalls s).disc.en = s.disc.en := by
  simp only [stopInstalls, when]
  repeat' split
  all_goals simp

@[simp] theorem finishCmd_inner (reason : Nat) (detail : Word) (s : State) :
    (finishCmd reason detail s).evin.incfg = s.evin.incfg ∧ (finishCmd reason detail s).tt.ctl = s.tt.ctl ∧
    (finishCmd reason detail s).tt.instA = s.tt.instA ∧ (finishCmd reason detail s).tt.instB = s.tt.instB ∧
    (finishCmd reason detail s).tt.active = s.tt.active ∧
    (finishCmd reason detail s).tt.activeValid = s.tt.activeValid ∧
    (finishCmd reason detail s).tt.startSec = s.tt.startSec ∧
    (finishCmd reason detail s).tt.startFrac = s.tt.startFrac ∧ (finishCmd reason detail s).tt.swPend = s.tt.swPend ∧
    (finishCmd reason detail s).tt.protHit = s.tt.protHit ∧ (finishCmd reason detail s).sys.phase = s.sys.phase ∧
    (finishCmd reason detail s).sys.cause = s.sys.cause ∧ (finishCmd reason detail s).sys.cfgState = s.sys.cfgState ∧
    (finishCmd reason detail s).sys.x32Run = s.sys.x32Run ∧ (finishCmd reason detail s).sys.measRst = s.sys.measRst ∧
    (finishCmd reason detail s).sys.earlyWr = s.sys.earlyWr ∧
    (finishCmd reason detail s).sys.lostCmds = s.sys.lostCmds ∧ (finishCmd reason detail s).clk.src = s.clk.src ∧
    (finishCmd reason detail s).clk.limits = s.clk.limits ∧ (finishCmd reason detail s).clk.spread = s.clk.spread ∧
    (finishCmd reason detail s).clk.active = s.clk.active ∧ (finishCmd reason detail s).clk.plans = s.clk.plans ∧
    (finishCmd reason detail s).clk.drift = s.clk.drift ∧ (finishCmd reason detail s).cond.arg0 = s.cond.arg0 ∧
    (finishCmd reason detail s).cond.arg1 = s.cond.arg1 ∧ (finishCmd reason detail s).cond.arg2 = s.cond.arg2 ∧
    (finishCmd reason detail s).cond.tail = s.cond.tail ∧
    (finishCmd reason detail s).cond.switches = s.cond.switches ∧
    (finishCmd reason detail s).cond.inReset = s.cond.inReset ∧ (finishCmd reason detail s).afe.ctl = s.afe.ctl ∧
    (finishCmd reason detail s).afe.eff = s.afe.eff ∧ (finishCmd reason detail s).afe.diag = s.afe.diag ∧
    (finishCmd reason detail s).ros.sealed = s.ros.sealed ∧ (finishCmd reason detail s).out.cfg = s.out.cfg ∧
    (finishCmd reason detail s).out.gen = s.out.gen ∧ (finishCmd reason detail s).out.span = s.out.span ∧
    (finishCmd reason detail s).out.staged = s.out.staged ∧ (finishCmd reason detail s).nv.pages = s.nv.pages ∧
    (finishCmd reason detail s).nv.running = s.nv.running ∧ (finishCmd reason detail s).nv.suspend = s.nv.suspend ∧
    (finishCmd reason detail s).nv.todo = s.nv.todo ∧ (finishCmd reason detail s).disc.en = s.disc.en ∧
    (finishCmd reason detail s).cal.map = s.cal.map ∧ (finishCmd reason detail s).cal.quality = s.cal.quality ∧
    (finishCmd reason detail s).cal.modTrim = s.cal.modTrim ∧
    (finishCmd reason detail s).cal.evtTrim = s.cal.evtTrim ∧
    (finishCmd reason detail s).cal.calibrated = s.cal.calibrated ∧
    (finishCmd reason detail s).evt.mask = s.evt.mask ∧ (finishCmd reason detail s).evt.copy = s.evt.copy := by
  simp only [finishCmd, when]
  repeat' split
  all_goals simp

theorem cutCmd_inner (reason : Nat) (s : State) :
    (cutCmd reason s).evin.incfg = s.evin.incfg ∧ (cutCmd reason s).tt.ctl = s.tt.ctl ∧
    (cutCmd reason s).tt.instA = s.tt.instA ∧ (cutCmd reason s).tt.instB = s.tt.instB ∧
    (cutCmd reason s).tt.active = s.tt.active ∧ (cutCmd reason s).tt.activeValid = s.tt.activeValid ∧
    (cutCmd reason s).tt.startSec = s.tt.startSec ∧ (cutCmd reason s).tt.startFrac = s.tt.startFrac ∧
    (cutCmd reason s).tt.swPend = s.tt.swPend ∧ (cutCmd reason s).tt.protHit = s.tt.protHit ∧
    (cutCmd reason s).sys.phase = s.sys.phase ∧ (cutCmd reason s).sys.cause = s.sys.cause ∧
    (cutCmd reason s).sys.cfgState = s.sys.cfgState ∧ (cutCmd reason s).sys.x32Run = s.sys.x32Run ∧
    (cutCmd reason s).sys.measRst = s.sys.measRst ∧ (cutCmd reason s).sys.earlyWr = s.sys.earlyWr ∧
    (cutCmd reason s).sys.lostCmds = s.sys.lostCmds ∧ (cutCmd reason s).clk.src = s.clk.src ∧
    (cutCmd reason s).clk.limits = s.clk.limits ∧ (cutCmd reason s).clk.spread = s.clk.spread ∧
    (cutCmd reason s).clk.active = s.clk.active ∧ (cutCmd reason s).clk.plans = s.clk.plans ∧
    (cutCmd reason s).clk.drift = s.clk.drift ∧ (cutCmd reason s).cond.arg0 = s.cond.arg0 ∧
    (cutCmd reason s).cond.arg1 = s.cond.arg1 ∧ (cutCmd reason s).cond.arg2 = s.cond.arg2 ∧
    (cutCmd reason s).cond.tail = s.cond.tail ∧ (cutCmd reason s).cond.switches = s.cond.switches ∧
    (cutCmd reason s).cond.inReset = s.cond.inReset ∧ (cutCmd reason s).afe.ctl = s.afe.ctl ∧
    (cutCmd reason s).afe.eff = s.afe.eff ∧ (cutCmd reason s).afe.diag = s.afe.diag ∧
    (cutCmd reason s).ros.sealed = s.ros.sealed ∧ (cutCmd reason s).out.cfg = s.out.cfg ∧
    (cutCmd reason s).out.gen = s.out.gen ∧ (cutCmd reason s).out.span = s.out.span ∧
    (cutCmd reason s).out.staged = s.out.staged ∧ (cutCmd reason s).nv.pages = s.nv.pages ∧
    (cutCmd reason s).nv.suspend = s.nv.suspend ∧ (cutCmd reason s).nv.todo = s.nv.todo ∧
    (cutCmd reason s).disc.en = s.disc.en ∧ (cutCmd reason s).cal.map = s.cal.map ∧
    (cutCmd reason s).cal.quality = s.cal.quality ∧ (cutCmd reason s).cal.modTrim = s.cal.modTrim ∧
    (cutCmd reason s).cal.evtTrim = s.cal.evtTrim ∧ (cutCmd reason s).cal.calibrated = s.cal.calibrated ∧
    (cutCmd reason s).evt.mask = s.evt.mask ∧ (cutCmd reason s).evt.copy = s.evt.copy := by
  simp only [cutCmd, when]
  repeat' split
  all_goals simp

theorem drainQueue_inner (reason : Cmd → Nat) (s : State) :
    (drainQueue reason s).cond.arg0 = s.cond.arg0 ∧ (drainQueue reason s).cond.arg1 = s.cond.arg1 ∧
    (drainQueue reason s).cond.arg2 = s.cond.arg2 ∧ (drainQueue reason s).cond.running = s.cond.running ∧
    (drainQueue reason s).cond.tail = s.cond.tail ∧ (drainQueue reason s).cond.switches = s.cond.switches ∧
    (drainQueue reason s).cond.inReset = s.cond.inReset ∧ (drainQueue reason s).disc.en = s.disc.en ∧
    (drainQueue reason s).evt.mask = s.evt.mask ∧ (drainQueue reason s).evt.copy = s.evt.copy := by
  simp only [drainQueue, when]
  repeat' split
  all_goals simp

theorem endSuspends_inner (reason : Nat) (detail : Word) (s : State) :
    (endSuspends reason detail s).cond.arg0 = s.cond.arg0 ∧ (endSuspends reason detail s).cond.arg1 = s.cond.arg1 ∧
    (endSuspends reason detail s).cond.arg2 = s.cond.arg2 ∧ (endSuspends reason detail s).cond.queue = s.cond.queue ∧
    (endSuspends reason detail s).cond.running = s.cond.running ∧
    (endSuspends reason detail s).cond.tail = s.cond.tail ∧
    (endSuspends reason detail s).cond.switches = s.cond.switches ∧
    (endSuspends reason detail s).cond.inReset = s.cond.inReset ∧
    (endSuspends reason detail s).nv.pages = s.nv.pages ∧ (endSuspends reason detail s).nv.op = s.nv.op ∧
    (endSuspends reason detail s).nv.running = s.nv.running ∧ (endSuspends reason detail s).nv.todo = s.nv.todo ∧
    (endSuspends reason detail s).evt.mask = s.evt.mask ∧ (endSuspends reason detail s).evt.copy = s.evt.copy := by
  simp only [endSuspends, when]
  repeat' split
  all_goals simp

@[simp] theorem warnCut_inner (s : State) :
    (warnCut s).evin.incfg = s.evin.incfg ∧ (warnCut s).tt.ctl = s.tt.ctl ∧ (warnCut s).tt.instA = s.tt.instA ∧
    (warnCut s).tt.instB = s.tt.instB ∧ (warnCut s).tt.active = s.tt.active ∧
    (warnCut s).tt.activeValid = s.tt.activeValid ∧ (warnCut s).tt.startSec = s.tt.startSec ∧
    (warnCut s).tt.startFrac = s.tt.startFrac ∧ (warnCut s).tt.swPend = s.tt.swPend ∧
    (warnCut s).tt.protHit = s.tt.protHit ∧ (warnCut s).sys.phase = s.sys.phase ∧
    (warnCut s).sys.cause = s.sys.cause ∧ (warnCut s).sys.cfgState = s.sys.cfgState ∧
    (warnCut s).sys.x32Run = s.sys.x32Run ∧ (warnCut s).sys.measRst = s.sys.measRst ∧
    (warnCut s).sys.earlyWr = s.sys.earlyWr ∧ (warnCut s).sys.lostCmds = s.sys.lostCmds ∧
    (warnCut s).clk.src = s.clk.src ∧ (warnCut s).clk.limits = s.clk.limits ∧ (warnCut s).clk.spread = s.clk.spread ∧
    (warnCut s).clk.active = s.clk.active ∧ (warnCut s).clk.plans = s.clk.plans ∧
    (warnCut s).clk.drift = s.clk.drift ∧ (warnCut s).cond.arg0 = s.cond.arg0 ∧ (warnCut s).cond.arg1 = s.cond.arg1 ∧
    (warnCut s).cond.arg2 = s.cond.arg2 ∧ (warnCut s).cond.tail = s.cond.tail ∧
    (warnCut s).cond.switches = s.cond.switches ∧ (warnCut s).cond.inReset = s.cond.inReset ∧
    (warnCut s).afe.ctl = s.afe.ctl ∧ (warnCut s).afe.eff = s.afe.eff ∧ (warnCut s).afe.diag = s.afe.diag ∧
    (warnCut s).ros.sealed = s.ros.sealed ∧ (warnCut s).out.cfg = s.out.cfg ∧ (warnCut s).out.gen = s.out.gen ∧
    (warnCut s).out.span = s.out.span ∧ (warnCut s).out.staged = s.out.staged ∧ (warnCut s).nv.pages = s.nv.pages ∧
    (warnCut s).nv.todo = s.nv.todo ∧ (warnCut s).disc.en = s.disc.en ∧ (warnCut s).cal.map = s.cal.map ∧
    (warnCut s).cal.quality = s.cal.quality ∧ (warnCut s).cal.modTrim = s.cal.modTrim ∧
    (warnCut s).cal.evtTrim = s.cal.evtTrim ∧ (warnCut s).cal.calibrated = s.cal.calibrated ∧
    (warnCut s).evt.mask = s.evt.mask ∧ (warnCut s).evt.copy = s.evt.copy := by
  have k0 := @cutCmd_frame
  have k1 := @cutCmd_inner
  have k2 := @drainQueue_frame
  have k3 := @drainQueue_inner
  have k4 := @endSuspends_frame
  have k5 := @endSuspends_inner
  simp only [warnCut, when]
  repeat' split
  all_goals simp [k0, k1, k2, k3, k4, k5]

theorem finishSelftest_inner (w : Word) (s : State) :
    (finishSelftest w s).evin.incfg = s.evin.incfg ∧ (finishSelftest w s).tt.ctl = s.tt.ctl ∧
    (finishSelftest w s).tt.instA = s.tt.instA ∧ (finishSelftest w s).tt.instB = s.tt.instB ∧
    (finishSelftest w s).tt.active = s.tt.active ∧ (finishSelftest w s).tt.activeValid = s.tt.activeValid ∧
    (finishSelftest w s).tt.startSec = s.tt.startSec ∧ (finishSelftest w s).tt.startFrac = s.tt.startFrac ∧
    (finishSelftest w s).tt.swPend = s.tt.swPend ∧ (finishSelftest w s).tt.protHit = s.tt.protHit ∧
    (finishSelftest w s).sys.phase = s.sys.phase ∧ (finishSelftest w s).sys.cause = s.sys.cause ∧
    (finishSelftest w s).sys.cfgState = s.sys.cfgState ∧ (finishSelftest w s).sys.x32Run = s.sys.x32Run ∧
    (finishSelftest w s).sys.measRst = s.sys.measRst ∧ (finishSelftest w s).sys.earlyWr = s.sys.earlyWr ∧
    (finishSelftest w s).sys.lostCmds = s.sys.lostCmds ∧ (finishSelftest w s).clk.src = s.clk.src ∧
    (finishSelftest w s).clk.limits = s.clk.limits ∧ (finishSelftest w s).clk.spread = s.clk.spread ∧
    (finishSelftest w s).clk.active = s.clk.active ∧ (finishSelftest w s).clk.plans = s.clk.plans ∧
    (finishSelftest w s).clk.drift = s.clk.drift ∧ (finishSelftest w s).cond.arg0 = s.cond.arg0 ∧
    (finishSelftest w s).cond.arg1 = s.cond.arg1 ∧ (finishSelftest w s).cond.arg2 = s.cond.arg2 ∧
    (finishSelftest w s).cond.tail = s.cond.tail ∧ (finishSelftest w s).cond.switches = s.cond.switches ∧
    (finishSelftest w s).cond.inReset = s.cond.inReset ∧ (finishSelftest w s).afe.ctl = s.afe.ctl ∧
    (finishSelftest w s).afe.eff = s.afe.eff ∧ (finishSelftest w s).afe.diag = s.afe.diag ∧
    (finishSelftest w s).ros.sealed = s.ros.sealed ∧ (finishSelftest w s).out.cfg = s.out.cfg ∧
    (finishSelftest w s).out.gen = s.out.gen ∧ (finishSelftest w s).out.span = s.out.span ∧
    (finishSelftest w s).out.staged = s.out.staged ∧ (finishSelftest w s).nv.pages = s.nv.pages ∧
    (finishSelftest w s).nv.running = s.nv.running ∧ (finishSelftest w s).nv.suspend = s.nv.suspend ∧
    (finishSelftest w s).nv.todo = s.nv.todo ∧ (finishSelftest w s).disc.en = s.disc.en ∧
    (finishSelftest w s).cal.map = s.cal.map ∧ (finishSelftest w s).cal.quality = s.cal.quality ∧
    (finishSelftest w s).cal.modTrim = s.cal.modTrim ∧ (finishSelftest w s).cal.evtTrim = s.cal.evtTrim ∧
    (finishSelftest w s).cal.calibrated = s.cal.calibrated ∧ (finishSelftest w s).evt.mask = s.evt.mask ∧
    (finishSelftest w s).evt.copy = s.evt.copy := by
  simp only [finishSelftest, when]
  repeat' split
  all_goals simp

theorem selftestNoClock_inner (c : Cmd) (s : State) :
    (selftestNoClock c s).evin.incfg = s.evin.incfg ∧ (selftestNoClock c s).tt.ctl = s.tt.ctl ∧
    (selftestNoClock c s).tt.instA = s.tt.instA ∧ (selftestNoClock c s).tt.instB = s.tt.instB ∧
    (selftestNoClock c s).tt.active = s.tt.active ∧ (selftestNoClock c s).tt.activeValid = s.tt.activeValid ∧
    (selftestNoClock c s).tt.startSec = s.tt.startSec ∧ (selftestNoClock c s).tt.startFrac = s.tt.startFrac ∧
    (selftestNoClock c s).tt.swPend = s.tt.swPend ∧ (selftestNoClock c s).tt.protHit = s.tt.protHit ∧
    (selftestNoClock c s).sys.phase = s.sys.phase ∧ (selftestNoClock c s).sys.cause = s.sys.cause ∧
    (selftestNoClock c s).sys.cfgState = s.sys.cfgState ∧ (selftestNoClock c s).sys.x32Run = s.sys.x32Run ∧
    (selftestNoClock c s).sys.measRst = s.sys.measRst ∧ (selftestNoClock c s).sys.earlyWr = s.sys.earlyWr ∧
    (selftestNoClock c s).sys.lostCmds = s.sys.lostCmds ∧ (selftestNoClock c s).clk.src = s.clk.src ∧
    (selftestNoClock c s).clk.limits = s.clk.limits ∧ (selftestNoClock c s).clk.spread = s.clk.spread ∧
    (selftestNoClock c s).clk.active = s.clk.active ∧ (selftestNoClock c s).clk.plans = s.clk.plans ∧
    (selftestNoClock c s).clk.drift = s.clk.drift ∧ (selftestNoClock c s).cond.arg0 = s.cond.arg0 ∧
    (selftestNoClock c s).cond.arg1 = s.cond.arg1 ∧ (selftestNoClock c s).cond.arg2 = s.cond.arg2 ∧
    (selftestNoClock c s).cond.tail = s.cond.tail ∧ (selftestNoClock c s).cond.switches = s.cond.switches ∧
    (selftestNoClock c s).cond.inReset = s.cond.inReset ∧ (selftestNoClock c s).afe.ctl = s.afe.ctl ∧
    (selftestNoClock c s).afe.eff = s.afe.eff ∧ (selftestNoClock c s).afe.diag = s.afe.diag ∧
    (selftestNoClock c s).ros.sealed = s.ros.sealed ∧ (selftestNoClock c s).out.cfg = s.out.cfg ∧
    (selftestNoClock c s).out.gen = s.out.gen ∧ (selftestNoClock c s).out.span = s.out.span ∧
    (selftestNoClock c s).out.staged = s.out.staged ∧ (selftestNoClock c s).nv.pages = s.nv.pages ∧
    (selftestNoClock c s).nv.running = s.nv.running ∧ (selftestNoClock c s).nv.suspend = s.nv.suspend ∧
    (selftestNoClock c s).nv.todo = s.nv.todo ∧ (selftestNoClock c s).disc.en = s.disc.en ∧
    (selftestNoClock c s).cal.map = s.cal.map ∧ (selftestNoClock c s).cal.quality = s.cal.quality ∧
    (selftestNoClock c s).cal.modTrim = s.cal.modTrim ∧ (selftestNoClock c s).cal.evtTrim = s.cal.evtTrim ∧
    (selftestNoClock c s).cal.calibrated = s.cal.calibrated ∧ (selftestNoClock c s).evt.mask = s.evt.mask ∧
    (selftestNoClock c s).evt.copy = s.evt.copy := by
  have k0 := @finishSelftest_frame
  have k1 := @finishSelftest_inner
  simp only [selftestNoClock, when]
  repeat' split
  all_goals simp [k0, k1]

@[simp] theorem clockCut_inner (s : State) :
    (clockCut s).evin.incfg = s.evin.incfg ∧ (clockCut s).tt.ctl = s.tt.ctl ∧ (clockCut s).tt.instA = s.tt.instA ∧
    (clockCut s).tt.instB = s.tt.instB ∧ (clockCut s).tt.active = s.tt.active ∧
    (clockCut s).tt.activeValid = s.tt.activeValid ∧ (clockCut s).tt.startSec = s.tt.startSec ∧
    (clockCut s).tt.startFrac = s.tt.startFrac ∧ (clockCut s).tt.swPend = s.tt.swPend ∧
    (clockCut s).tt.protHit = s.tt.protHit ∧ (clockCut s).sys.phase = s.sys.phase ∧
    (clockCut s).sys.cause = s.sys.cause ∧ (clockCut s).sys.cfgState = s.sys.cfgState ∧
    (clockCut s).sys.x32Run = s.sys.x32Run ∧ (clockCut s).sys.measRst = s.sys.measRst ∧
    (clockCut s).sys.earlyWr = s.sys.earlyWr ∧ (clockCut s).sys.lostCmds = s.sys.lostCmds ∧
    (clockCut s).clk.src = s.clk.src ∧ (clockCut s).clk.limits = s.clk.limits ∧
    (clockCut s).clk.spread = s.clk.spread ∧ (clockCut s).clk.active = s.clk.active ∧
    (clockCut s).clk.plans = s.clk.plans ∧ (clockCut s).clk.drift = s.clk.drift ∧
    (clockCut s).cond.arg0 = s.cond.arg0 ∧ (clockCut s).cond.arg1 = s.cond.arg1 ∧
    (clockCut s).cond.arg2 = s.cond.arg2 ∧ (clockCut s).cond.tail = s.cond.tail ∧
    (clockCut s).cond.switches = s.cond.switches ∧ (clockCut s).cond.inReset = s.cond.inReset ∧
    (clockCut s).afe.ctl = s.afe.ctl ∧ (clockCut s).afe.eff = s.afe.eff ∧ (clockCut s).afe.diag = s.afe.diag ∧
    (clockCut s).ros.sealed = s.ros.sealed ∧ (clockCut s).out.cfg = s.out.cfg ∧ (clockCut s).out.gen = s.out.gen ∧
    (clockCut s).out.span = s.out.span ∧ (clockCut s).out.staged = s.out.staged ∧ (clockCut s).nv.pages = s.nv.pages ∧
    (clockCut s).nv.running = s.nv.running ∧ (clockCut s).nv.suspend = s.nv.suspend ∧
    (clockCut s).nv.todo = s.nv.todo ∧ (clockCut s).disc.en = s.disc.en ∧ (clockCut s).cal.map = s.cal.map ∧
    (clockCut s).cal.quality = s.cal.quality ∧ (clockCut s).cal.modTrim = s.cal.modTrim ∧
    (clockCut s).cal.evtTrim = s.cal.evtTrim ∧ (clockCut s).cal.calibrated = s.cal.calibrated ∧
    (clockCut s).evt.mask = s.evt.mask ∧ (clockCut s).evt.copy = s.evt.copy := by
  have k0 := @selftestNoClock_frame
  have k1 := @selftestNoClock_inner
  simp only [clockCut, when]
  repeat' split
  all_goals simp [k0, k1]

theorem awaitAgain_inner (s : State) :
    (awaitAgain s).tt.ctl = s.tt.ctl ∧ (awaitAgain s).tt.instA = s.tt.instA ∧ (awaitAgain s).tt.instB = s.tt.instB ∧
    (awaitAgain s).tt.active = s.tt.active ∧ (awaitAgain s).tt.activeValid = s.tt.activeValid ∧
    (awaitAgain s).tt.startSec = s.tt.startSec ∧ (awaitAgain s).tt.startFrac = s.tt.startFrac ∧
    (awaitAgain s).tt.swPend = s.tt.swPend ∧ (awaitAgain s).tt.protHit = s.tt.protHit := by
  simp only [awaitAgain, when]
  repeat' split
  all_goals simp

@[simp] theorem selftestAcquire_inner (s : State) :
    (selftestAcquire s).evin.incfg = s.evin.incfg ∧ (selftestAcquire s).evin.level = s.evin.level ∧
    (selftestAcquire s).evin.syncLevel = s.evin.syncLevel ∧ (selftestAcquire s).tt.ctl = s.tt.ctl ∧
    (selftestAcquire s).tt.instA = s.tt.instA ∧ (selftestAcquire s).tt.instB = s.tt.instB ∧
    (selftestAcquire s).tt.active = s.tt.active ∧ (selftestAcquire s).tt.activeValid = s.tt.activeValid ∧
    (selftestAcquire s).tt.startSec = s.tt.startSec ∧ (selftestAcquire s).tt.startFrac = s.tt.startFrac ∧
    (selftestAcquire s).tt.swPend = s.tt.swPend ∧ (selftestAcquire s).tt.protHit = s.tt.protHit ∧
    (selftestAcquire s).clk.src = s.clk.src ∧ (selftestAcquire s).clk.limits = s.clk.limits ∧
    (selftestAcquire s).clk.spread = s.clk.spread ∧ (selftestAcquire s).clk.active = s.clk.active ∧
    (selftestAcquire s).clk.plans = s.clk.plans ∧ (selftestAcquire s).clk.drift = s.clk.drift ∧
    (selftestAcquire s).cond.arg0 = s.cond.arg0 ∧ (selftestAcquire s).cond.arg1 = s.cond.arg1 ∧
    (selftestAcquire s).cond.arg2 = s.cond.arg2 ∧ (selftestAcquire s).cond.queue = s.cond.queue ∧
    (selftestAcquire s).cond.head = s.cond.head ∧ (selftestAcquire s).cond.seq = s.cond.seq ∧
    (selftestAcquire s).cond.tail = s.cond.tail ∧ (selftestAcquire s).cond.switches = s.cond.switches ∧
    (selftestAcquire s).cond.inReset = s.cond.inReset ∧ (selftestAcquire s).afe.ctl = s.afe.ctl ∧
    (selftestAcquire s).afe.eff = s.afe.eff ∧ (selftestAcquire s).afe.diag = s.afe.diag ∧
    (selftestAcquire s).ros.sealed = s.ros.sealed ∧ (selftestAcquire s).evt.mask = s.evt.mask ∧
    (selftestAcquire s).evt.copy = s.evt.copy := by
  have k0 := @acquire_frame
  have k1 := @acquire_inner
  have k2 := @awaitAgain_frame
  have k3 := @awaitAgain_inner
  have k4 := @dropFast_frame
  have k5 := @dropFast_inner
  simp only [selftestAcquire, when]
  repeat' split
  all_goals simp [k0, k1, k2, k3, k4, k5]

@[simp] theorem selftestLock_inner (s : State) :
    (selftestLock s).evin.incfg = s.evin.incfg ∧ (selftestLock s).tt.ctl = s.tt.ctl ∧
    (selftestLock s).tt.instA = s.tt.instA ∧ (selftestLock s).tt.instB = s.tt.instB ∧
    (selftestLock s).tt.active = s.tt.active ∧ (selftestLock s).tt.activeValid = s.tt.activeValid ∧
    (selftestLock s).tt.startSec = s.tt.startSec ∧ (selftestLock s).tt.startFrac = s.tt.startFrac ∧
    (selftestLock s).tt.swPend = s.tt.swPend ∧ (selftestLock s).tt.protHit = s.tt.protHit ∧
    (selftestLock s).sys.phase = s.sys.phase ∧ (selftestLock s).sys.cause = s.sys.cause ∧
    (selftestLock s).sys.cfgState = s.sys.cfgState ∧ (selftestLock s).sys.x32Run = s.sys.x32Run ∧
    (selftestLock s).sys.measRst = s.sys.measRst ∧ (selftestLock s).sys.earlyWr = s.sys.earlyWr ∧
    (selftestLock s).sys.lostCmds = s.sys.lostCmds ∧ (selftestLock s).clk.src = s.clk.src ∧
    (selftestLock s).clk.limits = s.clk.limits ∧ (selftestLock s).clk.spread = s.clk.spread ∧
    (selftestLock s).clk.active = s.clk.active ∧ (selftestLock s).clk.plans = s.clk.plans ∧
    (selftestLock s).clk.drift = s.clk.drift ∧ (selftestLock s).cond.arg0 = s.cond.arg0 ∧
    (selftestLock s).cond.arg1 = s.cond.arg1 ∧ (selftestLock s).cond.arg2 = s.cond.arg2 ∧
    (selftestLock s).cond.tail = s.cond.tail ∧ (selftestLock s).cond.switches = s.cond.switches ∧
    (selftestLock s).cond.inReset = s.cond.inReset ∧ (selftestLock s).afe.ctl = s.afe.ctl ∧
    (selftestLock s).afe.eff = s.afe.eff ∧ (selftestLock s).afe.diag = s.afe.diag ∧
    (selftestLock s).ros.sealed = s.ros.sealed ∧ (selftestLock s).out.cfg = s.out.cfg ∧
    (selftestLock s).out.gen = s.out.gen ∧ (selftestLock s).out.span = s.out.span ∧
    (selftestLock s).out.staged = s.out.staged ∧ (selftestLock s).nv.pages = s.nv.pages ∧
    (selftestLock s).nv.running = s.nv.running ∧ (selftestLock s).nv.suspend = s.nv.suspend ∧
    (selftestLock s).nv.todo = s.nv.todo ∧ (selftestLock s).disc.en = s.disc.en ∧
    (selftestLock s).cal.map = s.cal.map ∧ (selftestLock s).cal.quality = s.cal.quality ∧
    (selftestLock s).cal.modTrim = s.cal.modTrim ∧ (selftestLock s).cal.evtTrim = s.cal.evtTrim ∧
    (selftestLock s).cal.calibrated = s.cal.calibrated ∧ (selftestLock s).evt.mask = s.evt.mask ∧
    (selftestLock s).evt.copy = s.evt.copy := by
  have k0 := @finishSelftest_frame
  have k1 := @finishSelftest_inner
  simp only [selftestLock, when]
  repeat' split
  all_goals simp [k0, k1]

theorem neighbourCut_inner (s : State) :
    (neighbourCut s).evin.incfg = s.evin.incfg ∧ (neighbourCut s).tt.ctl = s.tt.ctl ∧
    (neighbourCut s).tt.instA = s.tt.instA ∧ (neighbourCut s).tt.instB = s.tt.instB ∧
    (neighbourCut s).tt.active = s.tt.active ∧ (neighbourCut s).tt.activeValid = s.tt.activeValid ∧
    (neighbourCut s).tt.startSec = s.tt.startSec ∧ (neighbourCut s).tt.startFrac = s.tt.startFrac ∧
    (neighbourCut s).tt.swPend = s.tt.swPend ∧ (neighbourCut s).tt.protHit = s.tt.protHit ∧
    (neighbourCut s).sys.phase = s.sys.phase ∧ (neighbourCut s).sys.cause = s.sys.cause ∧
    (neighbourCut s).sys.cfgState = s.sys.cfgState ∧ (neighbourCut s).sys.x32Run = s.sys.x32Run ∧
    (neighbourCut s).sys.measRst = s.sys.measRst ∧ (neighbourCut s).sys.earlyWr = s.sys.earlyWr ∧
    (neighbourCut s).sys.lostCmds = s.sys.lostCmds ∧ (neighbourCut s).clk.src = s.clk.src ∧
    (neighbourCut s).clk.limits = s.clk.limits ∧ (neighbourCut s).clk.spread = s.clk.spread ∧
    (neighbourCut s).clk.active = s.clk.active ∧ (neighbourCut s).clk.plans = s.clk.plans ∧
    (neighbourCut s).clk.drift = s.clk.drift ∧ (neighbourCut s).cond.arg0 = s.cond.arg0 ∧
    (neighbourCut s).cond.arg1 = s.cond.arg1 ∧ (neighbourCut s).cond.arg2 = s.cond.arg2 ∧
    (neighbourCut s).cond.tail = s.cond.tail ∧ (neighbourCut s).cond.switches = s.cond.switches ∧
    (neighbourCut s).cond.inReset = s.cond.inReset ∧ (neighbourCut s).afe.ctl = s.afe.ctl ∧
    (neighbourCut s).afe.eff = s.afe.eff ∧ (neighbourCut s).afe.diag = s.afe.diag ∧
    (neighbourCut s).ros.sealed = s.ros.sealed ∧ (neighbourCut s).out.cfg = s.out.cfg ∧
    (neighbourCut s).out.gen = s.out.gen ∧ (neighbourCut s).out.span = s.out.span ∧
    (neighbourCut s).out.staged = s.out.staged ∧ (neighbourCut s).nv.pages = s.nv.pages ∧
    (neighbourCut s).nv.suspend = s.nv.suspend ∧ (neighbourCut s).nv.todo = s.nv.todo ∧
    (neighbourCut s).disc.en = s.disc.en ∧ (neighbourCut s).cal.map = s.cal.map ∧
    (neighbourCut s).cal.quality = s.cal.quality ∧ (neighbourCut s).cal.modTrim = s.cal.modTrim ∧
    (neighbourCut s).cal.evtTrim = s.cal.evtTrim ∧ (neighbourCut s).cal.calibrated = s.cal.calibrated ∧
    (neighbourCut s).evt.mask = s.evt.mask ∧ (neighbourCut s).evt.copy = s.evt.copy := by
  have k0 := @cutCmd_frame
  have k1 := @cutCmd_inner
  simp only [neighbourCut, when]
  repeat' split
  all_goals simp [k0, k1]

@[simp] theorem attach_inner (k : Nat) (s : State) :
    (attach k s).sys.phase = s.sys.phase ∧ (attach k s).sys.cause = s.sys.cause ∧
    (attach k s).sys.cfgState = s.sys.cfgState ∧ (attach k s).sys.x32Run = s.sys.x32Run ∧
    (attach k s).sys.measRst = s.sys.measRst ∧ (attach k s).sys.earlyWr = s.sys.earlyWr ∧
    (attach k s).sys.lostCmds = s.sys.lostCmds ∧ (attach k s).cond.arg0 = s.cond.arg0 ∧
    (attach k s).cond.arg1 = s.cond.arg1 ∧ (attach k s).cond.arg2 = s.cond.arg2 ∧
    (attach k s).cond.running = s.cond.running ∧ (attach k s).cond.tail = s.cond.tail ∧
    (attach k s).cond.switches = s.cond.switches ∧ (attach k s).cond.inReset = s.cond.inReset ∧
    (attach k s).out.code = s.out.code ∧ (attach k s).out.cfg = s.out.cfg ∧ (attach k s).out.gen = s.out.gen ∧
    (attach k s).out.span = s.out.span ∧ (attach k s).out.staged = s.out.staged ∧ (attach k s).disc.en = s.disc.en ∧
    (attach k s).evt.mask = s.evt.mask ∧ (attach k s).evt.copy = s.evt.copy := by
  have k0 := @queueJob_frame
  have k1 := @queueJob_inner
  simp only [attach, when]
  repeat' split
  all_goals simp [k0, k1]

theorem forgetPort_inner (k : Nat) (s : State) :
    (forgetPort k s).ros.sealed = s.ros.sealed := by
  simp only [forgetPort, when]
  repeat' split
  all_goals simp

theorem endJobOf_inner (k : Nat) (s : State) :
    (endJobOf k s).evin.incfg = s.evin.incfg ∧ (endJobOf k s).tt.ctl = s.tt.ctl ∧
    (endJobOf k s).tt.instA = s.tt.instA ∧ (endJobOf k s).tt.instB = s.tt.instB ∧
    (endJobOf k s).tt.active = s.tt.active ∧ (endJobOf k s).tt.activeValid = s.tt.activeValid ∧
    (endJobOf k s).tt.startSec = s.tt.startSec ∧ (endJobOf k s).tt.startFrac = s.tt.startFrac ∧
    (endJobOf k s).tt.swPend = s.tt.swPend ∧ (endJobOf k s).tt.protHit = s.tt.protHit ∧
    (endJobOf k s).sys.phase = s.sys.phase ∧ (endJobOf k s).sys.cause = s.sys.cause ∧
    (endJobOf k s).sys.cfgState = s.sys.cfgState ∧ (endJobOf k s).sys.x32Run = s.sys.x32Run ∧
    (endJobOf k s).sys.measRst = s.sys.measRst ∧ (endJobOf k s).sys.earlyWr = s.sys.earlyWr ∧
    (endJobOf k s).sys.lostCmds = s.sys.lostCmds ∧ (endJobOf k s).clk.src = s.clk.src ∧
    (endJobOf k s).clk.limits = s.clk.limits ∧ (endJobOf k s).clk.spread = s.clk.spread ∧
    (endJobOf k s).clk.active = s.clk.active ∧ (endJobOf k s).clk.plans = s.clk.plans ∧
    (endJobOf k s).clk.drift = s.clk.drift ∧ (endJobOf k s).cond.arg0 = s.cond.arg0 ∧
    (endJobOf k s).cond.arg1 = s.cond.arg1 ∧ (endJobOf k s).cond.arg2 = s.cond.arg2 ∧
    (endJobOf k s).cond.tail = s.cond.tail ∧ (endJobOf k s).cond.switches = s.cond.switches ∧
    (endJobOf k s).cond.inReset = s.cond.inReset ∧ (endJobOf k s).afe.ctl = s.afe.ctl ∧
    (endJobOf k s).afe.eff = s.afe.eff ∧ (endJobOf k s).afe.diag = s.afe.diag ∧
    (endJobOf k s).ros.sealed = s.ros.sealed ∧ (endJobOf k s).out.cfg = s.out.cfg ∧
    (endJobOf k s).out.gen = s.out.gen ∧ (endJobOf k s).out.span = s.out.span ∧
    (endJobOf k s).out.staged = s.out.staged ∧ (endJobOf k s).nv.pages = s.nv.pages ∧
    (endJobOf k s).nv.suspend = s.nv.suspend ∧ (endJobOf k s).nv.todo = s.nv.todo ∧
    (endJobOf k s).disc.en = s.disc.en ∧ (endJobOf k s).cal.map = s.cal.map ∧
    (endJobOf k s).cal.quality = s.cal.quality ∧ (endJobOf k s).cal.modTrim = s.cal.modTrim ∧
    (endJobOf k s).cal.evtTrim = s.cal.evtTrim ∧ (endJobOf k s).cal.calibrated = s.cal.calibrated ∧
    (endJobOf k s).evt.mask = s.evt.mask ∧ (endJobOf k s).evt.copy = s.evt.copy := by
  have k0 := @cutCmd_frame
  have k1 := @cutCmd_inner
  simp only [endJobOf, when]
  repeat' split
  all_goals simp [k0, k1]

@[simp] theorem detach_inner (k : Nat) (s : State) :
    (detach k s).evin.incfg = s.evin.incfg ∧ (detach k s).tt.ctl = s.tt.ctl ∧ (detach k s).tt.instA = s.tt.instA ∧
    (detach k s).tt.instB = s.tt.instB ∧ (detach k s).tt.active = s.tt.active ∧
    (detach k s).tt.activeValid = s.tt.activeValid ∧ (detach k s).tt.startSec = s.tt.startSec ∧
    (detach k s).tt.startFrac = s.tt.startFrac ∧ (detach k s).tt.swPend = s.tt.swPend ∧
    (detach k s).tt.protHit = s.tt.protHit ∧ (detach k s).sys.phase = s.sys.phase ∧
    (detach k s).sys.cause = s.sys.cause ∧ (detach k s).sys.cfgState = s.sys.cfgState ∧
    (detach k s).sys.x32Run = s.sys.x32Run ∧ (detach k s).sys.measRst = s.sys.measRst ∧
    (detach k s).sys.earlyWr = s.sys.earlyWr ∧ (detach k s).sys.lostCmds = s.sys.lostCmds ∧
    (detach k s).clk.src = s.clk.src ∧ (detach k s).clk.limits = s.clk.limits ∧
    (detach k s).clk.spread = s.clk.spread ∧ (detach k s).clk.active = s.clk.active ∧
    (detach k s).clk.plans = s.clk.plans ∧ (detach k s).clk.drift = s.clk.drift ∧
    (detach k s).cond.arg0 = s.cond.arg0 ∧ (detach k s).cond.arg1 = s.cond.arg1 ∧
    (detach k s).cond.arg2 = s.cond.arg2 ∧ (detach k s).cond.tail = s.cond.tail ∧
    (detach k s).cond.switches = s.cond.switches ∧ (detach k s).cond.inReset = s.cond.inReset ∧
    (detach k s).afe.ctl = s.afe.ctl ∧ (detach k s).afe.eff = s.afe.eff ∧ (detach k s).afe.diag = s.afe.diag ∧
    (detach k s).ros.sealed = s.ros.sealed ∧ (detach k s).out.cfg = s.out.cfg ∧ (detach k s).out.gen = s.out.gen ∧
    (detach k s).out.span = s.out.span ∧ (detach k s).out.staged = s.out.staged ∧ (detach k s).nv.pages = s.nv.pages ∧
    (detach k s).nv.suspend = s.nv.suspend ∧ (detach k s).nv.todo = s.nv.todo ∧ (detach k s).disc.en = s.disc.en ∧
    (detach k s).cal.map = s.cal.map ∧ (detach k s).cal.quality = s.cal.quality ∧
    (detach k s).cal.modTrim = s.cal.modTrim ∧ (detach k s).cal.evtTrim = s.cal.evtTrim ∧
    (detach k s).cal.calibrated = s.cal.calibrated ∧ (detach k s).evt.mask = s.evt.mask ∧
    (detach k s).evt.copy = s.evt.copy := by
  have k0 := @carriagesGone_frame
  have k1 := @carriagesGone_inner
  have k2 := @endJobOf_frame
  have k3 := @endJobOf_inner
  have k4 := @forgetPort_frame
  have k5 := @forgetPort_inner
  simp only [detach, when]
  repeat' split
  all_goals simp [k0, k1, k2, k3, k4, k5]

theorem slotJob_inner (k : Nat) (s : State) :
    (slotJob k s).sys.phase = s.sys.phase ∧ (slotJob k s).sys.cause = s.sys.cause ∧
    (slotJob k s).sys.cfgState = s.sys.cfgState ∧ (slotJob k s).sys.x32Run = s.sys.x32Run ∧
    (slotJob k s).sys.measRst = s.sys.measRst ∧ (slotJob k s).sys.earlyWr = s.sys.earlyWr ∧
    (slotJob k s).sys.lostCmds = s.sys.lostCmds ∧ (slotJob k s).cond.arg0 = s.cond.arg0 ∧
    (slotJob k s).cond.arg1 = s.cond.arg1 ∧ (slotJob k s).cond.arg2 = s.cond.arg2 ∧
    (slotJob k s).cond.running = s.cond.running ∧ (slotJob k s).cond.tail = s.cond.tail ∧
    (slotJob k s).cond.switches = s.cond.switches ∧ (slotJob k s).cond.inReset = s.cond.inReset ∧
    (slotJob k s).out.code = s.out.code ∧ (slotJob k s).out.cfg = s.out.cfg ∧ (slotJob k s).out.gen = s.out.gen ∧
    (slotJob k s).out.span = s.out.span ∧ (slotJob k s).out.staged = s.out.staged ∧
    (slotJob k s).disc.en = s.disc.en ∧ (slotJob k s).evt.mask = s.evt.mask ∧ (slotJob k s).evt.copy = s.evt.copy := by
  have k0 := @queueJob_frame
  have k1 := @queueJob_inner
  simp only [slotJob, when]
  repeat' split
  all_goals simp [k0, k1]

theorem takeReading_inner (k : Nat) (present : Bool) (s : State) :
    (takeReading k present s).disc.en = s.disc.en := by
  simp only [takeReading, when]
  repeat' split
  all_goals simp

theorem presenceSlot_inner (k : Nat) (present : Bool) (s : State) :
    (presenceSlot k present s).sys.phase = s.sys.phase ∧ (presenceSlot k present s).sys.cause = s.sys.cause ∧
    (presenceSlot k present s).sys.cfgState = s.sys.cfgState ∧ (presenceSlot k present s).sys.x32Run = s.sys.x32Run ∧
    (presenceSlot k present s).sys.measRst = s.sys.measRst ∧ (presenceSlot k present s).sys.earlyWr = s.sys.earlyWr ∧
    (presenceSlot k present s).sys.lostCmds = s.sys.lostCmds ∧ (presenceSlot k present s).cond.arg0 = s.cond.arg0 ∧
    (presenceSlot k present s).cond.arg1 = s.cond.arg1 ∧ (presenceSlot k present s).cond.arg2 = s.cond.arg2 ∧
    (presenceSlot k present s).cond.running = s.cond.running ∧ (presenceSlot k present s).cond.tail = s.cond.tail ∧
    (presenceSlot k present s).cond.switches = s.cond.switches ∧
    (presenceSlot k present s).cond.inReset = s.cond.inReset ∧ (presenceSlot k present s).out.code = s.out.code ∧
    (presenceSlot k present s).out.cfg = s.out.cfg ∧ (presenceSlot k present s).out.gen = s.out.gen ∧
    (presenceSlot k present s).out.span = s.out.span ∧ (presenceSlot k present s).out.staged = s.out.staged ∧
    (presenceSlot k present s).disc.en = s.disc.en ∧ (presenceSlot k present s).evt.mask = s.evt.mask ∧
    (presenceSlot k present s).evt.copy = s.evt.copy := by
  have k0 := @slotJob_frame
  have k1 := @slotJob_inner
  have k2 := @takeReading_frame
  have k3 := @takeReading_inner
  simp only [presenceSlot, when]
  repeat' split
  all_goals simp [k0, k1, k2, k3]

theorem firstReading_inner (present : BitVec 4) (k : Nat) (s : State) :
    (firstReading present k s).sys.phase = s.sys.phase ∧ (firstReading present k s).sys.cause = s.sys.cause ∧
    (firstReading present k s).sys.cfgState = s.sys.cfgState ∧ (firstReading present k s).sys.x32Run = s.sys.x32Run ∧
    (firstReading present k s).sys.measRst = s.sys.measRst ∧ (firstReading present k s).sys.earlyWr = s.sys.earlyWr ∧
    (firstReading present k s).sys.lostCmds = s.sys.lostCmds ∧ (firstReading present k s).cond.arg0 = s.cond.arg0 ∧
    (firstReading present k s).cond.arg1 = s.cond.arg1 ∧ (firstReading present k s).cond.arg2 = s.cond.arg2 ∧
    (firstReading present k s).cond.running = s.cond.running ∧ (firstReading present k s).cond.tail = s.cond.tail ∧
    (firstReading present k s).cond.switches = s.cond.switches ∧
    (firstReading present k s).cond.inReset = s.cond.inReset ∧ (firstReading present k s).out.code = s.out.code ∧
    (firstReading present k s).out.cfg = s.out.cfg ∧ (firstReading present k s).out.gen = s.out.gen ∧
    (firstReading present k s).out.span = s.out.span ∧ (firstReading present k s).out.staged = s.out.staged ∧
    (firstReading present k s).disc.en = s.disc.en ∧ (firstReading present k s).evt.mask = s.evt.mask ∧
    (firstReading present k s).evt.copy = s.evt.copy := by
  simp only [firstReading, when]
  repeat' split
  all_goals simp

theorem endWith_inner (reason : Nat) (c : Cmd) (j : DiscJob) (st : BitVec 3) (slot : Option Nat) (table : Option (List Byte)) (s : State) :
    (endWith reason c j st slot table s).evin.incfg = s.evin.incfg ∧
    (endWith reason c j st slot table s).tt.ctl = s.tt.ctl ∧
    (endWith reason c j st slot table s).tt.instA = s.tt.instA ∧
    (endWith reason c j st slot table s).tt.instB = s.tt.instB ∧
    (endWith reason c j st slot table s).tt.active = s.tt.active ∧
    (endWith reason c j st slot table s).tt.activeValid = s.tt.activeValid ∧
    (endWith reason c j st slot table s).tt.startSec = s.tt.startSec ∧
    (endWith reason c j st slot table s).tt.startFrac = s.tt.startFrac ∧
    (endWith reason c j st slot table s).tt.swPend = s.tt.swPend ∧
    (endWith reason c j st slot table s).tt.protHit = s.tt.protHit ∧
    (endWith reason c j st slot table s).sys.phase = s.sys.phase ∧
    (endWith reason c j st slot table s).sys.cause = s.sys.cause ∧
    (endWith reason c j st slot table s).sys.cfgState = s.sys.cfgState ∧
    (endWith reason c j st slot table s).sys.x32Run = s.sys.x32Run ∧
    (endWith reason c j st slot table s).sys.measRst = s.sys.measRst ∧
    (endWith reason c j st slot table s).sys.earlyWr = s.sys.earlyWr ∧
    (endWith reason c j st slot table s).sys.lostCmds = s.sys.lostCmds ∧
    (endWith reason c j st slot table s).clk.src = s.clk.src ∧
    (endWith reason c j st slot table s).clk.limits = s.clk.limits ∧
    (endWith reason c j st slot table s).clk.spread = s.clk.spread ∧
    (endWith reason c j st slot table s).clk.active = s.clk.active ∧
    (endWith reason c j st slot table s).clk.plans = s.clk.plans ∧
    (endWith reason c j st slot table s).clk.drift = s.clk.drift ∧
    (endWith reason c j st slot table s).cond.arg0 = s.cond.arg0 ∧
    (endWith reason c j st slot table s).cond.arg1 = s.cond.arg1 ∧
    (endWith reason c j st slot table s).cond.arg2 = s.cond.arg2 ∧
    (endWith reason c j st slot table s).cond.tail = s.cond.tail ∧
    (endWith reason c j st slot table s).cond.switches = s.cond.switches ∧
    (endWith reason c j st slot table s).cond.inReset = s.cond.inReset ∧
    (endWith reason c j st slot table s).afe.ctl = s.afe.ctl ∧
    (endWith reason c j st slot table s).afe.eff = s.afe.eff ∧
    (endWith reason c j st slot table s).afe.diag = s.afe.diag ∧
    (endWith reason c j st slot table s).ros.sealed = s.ros.sealed ∧
    (endWith reason c j st slot table s).out.cfg = s.out.cfg ∧
    (endWith reason c j st slot table s).out.gen = s.out.gen ∧
    (endWith reason c j st slot table s).out.span = s.out.span ∧
    (endWith reason c j st slot table s).out.staged = s.out.staged ∧
    (endWith reason c j st slot table s).nv.pages = s.nv.pages ∧
    (endWith reason c j st slot table s).nv.running = s.nv.running ∧
    (endWith reason c j st slot table s).nv.suspend = s.nv.suspend ∧
    (endWith reason c j st slot table s).nv.todo = s.nv.todo ∧
    (endWith reason c j st slot table s).disc.en = s.disc.en ∧
    (endWith reason c j st slot table s).cal.map = s.cal.map ∧
    (endWith reason c j st slot table s).cal.quality = s.cal.quality ∧
    (endWith reason c j st slot table s).cal.modTrim = s.cal.modTrim ∧
    (endWith reason c j st slot table s).cal.evtTrim = s.cal.evtTrim ∧
    (endWith reason c j st slot table s).cal.calibrated = s.cal.calibrated ∧
    (endWith reason c j st slot table s).evt.mask = s.evt.mask ∧
    (endWith reason c j st slot table s).evt.copy = s.evt.copy := by
  simp only [endWith, when]
  repeat' split
  all_goals simp

theorem endDiscovery_inner (c : Cmd) (j : DiscJob) (st : BitVec 3) (slot : Option Nat) (table : Option (List Byte)) (s : State) :
    (endDiscovery c j st slot table s).evin.incfg = s.evin.incfg ∧
    (endDiscovery c j st slot table s).tt.ctl = s.tt.ctl ∧ (endDiscovery c j st slot table s).tt.instA = s.tt.instA ∧
    (endDiscovery c j st slot table s).tt.instB = s.tt.instB ∧
    (endDiscovery c j st slot table s).tt.active = s.tt.active ∧
    (endDiscovery c j st slot table s).tt.activeValid = s.tt.activeValid ∧
    (endDiscovery c j st slot table s).tt.startSec = s.tt.startSec ∧
    (endDiscovery c j st slot table s).tt.startFrac = s.tt.startFrac ∧
    (endDiscovery c j st slot table s).tt.swPend = s.tt.swPend ∧
    (endDiscovery c j st slot table s).tt.protHit = s.tt.protHit ∧
    (endDiscovery c j st slot table s).sys.phase = s.sys.phase ∧
    (endDiscovery c j st slot table s).sys.cause = s.sys.cause ∧
    (endDiscovery c j st slot table s).sys.cfgState = s.sys.cfgState ∧
    (endDiscovery c j st slot table s).sys.x32Run = s.sys.x32Run ∧
    (endDiscovery c j st slot table s).sys.measRst = s.sys.measRst ∧
    (endDiscovery c j st slot table s).sys.earlyWr = s.sys.earlyWr ∧
    (endDiscovery c j st slot table s).sys.lostCmds = s.sys.lostCmds ∧
    (endDiscovery c j st slot table s).clk.src = s.clk.src ∧
    (endDiscovery c j st slot table s).clk.limits = s.clk.limits ∧
    (endDiscovery c j st slot table s).clk.spread = s.clk.spread ∧
    (endDiscovery c j st slot table s).clk.active = s.clk.active ∧
    (endDiscovery c j st slot table s).clk.plans = s.clk.plans ∧
    (endDiscovery c j st slot table s).clk.drift = s.clk.drift ∧
    (endDiscovery c j st slot table s).cond.arg0 = s.cond.arg0 ∧
    (endDiscovery c j st slot table s).cond.arg1 = s.cond.arg1 ∧
    (endDiscovery c j st slot table s).cond.arg2 = s.cond.arg2 ∧
    (endDiscovery c j st slot table s).cond.tail = s.cond.tail ∧
    (endDiscovery c j st slot table s).cond.switches = s.cond.switches ∧
    (endDiscovery c j st slot table s).cond.inReset = s.cond.inReset ∧
    (endDiscovery c j st slot table s).afe.ctl = s.afe.ctl ∧ (endDiscovery c j st slot table s).afe.eff = s.afe.eff ∧
    (endDiscovery c j st slot table s).afe.diag = s.afe.diag ∧
    (endDiscovery c j st slot table s).ros.sealed = s.ros.sealed ∧
    (endDiscovery c j st slot table s).out.cfg = s.out.cfg ∧ (endDiscovery c j st slot table s).out.gen = s.out.gen ∧
    (endDiscovery c j st slot table s).out.span = s.out.span ∧
    (endDiscovery c j st slot table s).out.staged = s.out.staged ∧
    (endDiscovery c j st slot table s).nv.pages = s.nv.pages ∧
    (endDiscovery c j st slot table s).nv.running = s.nv.running ∧
    (endDiscovery c j st slot table s).nv.suspend = s.nv.suspend ∧
    (endDiscovery c j st slot table s).nv.todo = s.nv.todo ∧ (endDiscovery c j st slot table s).disc.en = s.disc.en ∧
    (endDiscovery c j st slot table s).cal.map = s.cal.map ∧
    (endDiscovery c j st slot table s).cal.quality = s.cal.quality ∧
    (endDiscovery c j st slot table s).cal.modTrim = s.cal.modTrim ∧
    (endDiscovery c j st slot table s).cal.evtTrim = s.cal.evtTrim ∧
    (endDiscovery c j st slot table s).cal.calibrated = s.cal.calibrated ∧
    (endDiscovery c j st slot table s).evt.mask = s.evt.mask ∧
    (endDiscovery c j st slot table s).evt.copy = s.evt.copy := by
  have k0 := @endWith_frame
  have k1 := @endWith_inner
  simp only [endDiscovery, when]
  repeat' split
  all_goals simp [k0, k1]

theorem setInstalling_inner (k : Nat) (b : Bool) (s : State) :
    (setInstalling k b s).disc.en = s.disc.en := by
  simp only [setInstalling, when]
  repeat' split
  all_goals simp

theorem classify_inner (c : Cmd) (j : DiscJob) (s : State) :
    (classify c j s).evin.incfg = s.evin.incfg ∧ (classify c j s).tt.ctl = s.tt.ctl ∧
    (classify c j s).tt.instA = s.tt.instA ∧ (classify c j s).tt.instB = s.tt.instB ∧
    (classify c j s).tt.active = s.tt.active ∧ (classify c j s).tt.activeValid = s.tt.activeValid ∧
    (classify c j s).tt.startSec = s.tt.startSec ∧ (classify c j s).tt.startFrac = s.tt.startFrac ∧
    (classify c j s).tt.swPend = s.tt.swPend ∧ (classify c j s).tt.protHit = s.tt.protHit ∧
    (classify c j s).sys.phase = s.sys.phase ∧ (classify c j s).sys.cause = s.sys.cause ∧
    (classify c j s).sys.cfgState = s.sys.cfgState ∧ (classify c j s).sys.x32Run = s.sys.x32Run ∧
    (classify c j s).sys.measRst = s.sys.measRst ∧ (classify c j s).sys.earlyWr = s.sys.earlyWr ∧
    (classify c j s).sys.lostCmds = s.sys.lostCmds ∧ (classify c j s).clk.src = s.clk.src ∧
    (classify c j s).clk.limits = s.clk.limits ∧ (classify c j s).clk.spread = s.clk.spread ∧
    (classify c j s).clk.active = s.clk.active ∧ (classify c j s).clk.plans = s.clk.plans ∧
    (classify c j s).clk.drift = s.clk.drift ∧ (classify c j s).cond.arg0 = s.cond.arg0 ∧
    (classify c j s).cond.arg1 = s.cond.arg1 ∧ (classify c j s).cond.arg2 = s.cond.arg2 ∧
    (classify c j s).cond.tail = s.cond.tail ∧ (classify c j s).cond.switches = s.cond.switches ∧
    (classify c j s).cond.inReset = s.cond.inReset ∧ (classify c j s).afe.ctl = s.afe.ctl ∧
    (classify c j s).afe.eff = s.afe.eff ∧ (classify c j s).afe.diag = s.afe.diag ∧
    (classify c j s).ros.sealed = s.ros.sealed ∧ (classify c j s).out.cfg = s.out.cfg ∧
    (classify c j s).out.gen = s.out.gen ∧ (classify c j s).out.span = s.out.span ∧
    (classify c j s).out.staged = s.out.staged ∧ (classify c j s).nv.pages = s.nv.pages ∧
    (classify c j s).nv.running = s.nv.running ∧ (classify c j s).nv.suspend = s.nv.suspend ∧
    (classify c j s).disc.en = s.disc.en ∧ (classify c j s).cal.map = s.cal.map ∧
    (classify c j s).cal.quality = s.cal.quality ∧ (classify c j s).cal.modTrim = s.cal.modTrim ∧
    (classify c j s).cal.evtTrim = s.cal.evtTrim ∧ (classify c j s).cal.calibrated = s.cal.calibrated ∧
    (classify c j s).evt.mask = s.evt.mask ∧ (classify c j s).evt.copy = s.evt.copy := by
  have k0 := @endDiscovery_frame
  have k1 := @endDiscovery_inner
  have k2 := @setInstalling_frame
  have k3 := @setInstalling_inner
  simp only [classify, when]
  repeat' split
  all_goals simp [k0, k1, k2, k3]

theorem installed_inner (c : Cmd) (j : DiscJob) (s : State) :
    (installed c j s).evin.incfg = s.evin.incfg ∧ (installed c j s).tt.ctl = s.tt.ctl ∧
    (installed c j s).tt.instA = s.tt.instA ∧ (installed c j s).tt.instB = s.tt.instB ∧
    (installed c j s).tt.active = s.tt.active ∧ (installed c j s).tt.activeValid = s.tt.activeValid ∧
    (installed c j s).tt.startSec = s.tt.startSec ∧ (installed c j s).tt.startFrac = s.tt.startFrac ∧
    (installed c j s).tt.swPend = s.tt.swPend ∧ (installed c j s).tt.protHit = s.tt.protHit ∧
    (installed c j s).sys.phase = s.sys.phase ∧ (installed c j s).sys.cause = s.sys.cause ∧
    (installed c j s).sys.cfgState = s.sys.cfgState ∧ (installed c j s).sys.x32Run = s.sys.x32Run ∧
    (installed c j s).sys.measRst = s.sys.measRst ∧ (installed c j s).sys.earlyWr = s.sys.earlyWr ∧
    (installed c j s).sys.lostCmds = s.sys.lostCmds ∧ (installed c j s).clk.src = s.clk.src ∧
    (installed c j s).clk.limits = s.clk.limits ∧ (installed c j s).clk.spread = s.clk.spread ∧
    (installed c j s).clk.active = s.clk.active ∧ (installed c j s).clk.plans = s.clk.plans ∧
    (installed c j s).clk.drift = s.clk.drift ∧ (installed c j s).cond.arg0 = s.cond.arg0 ∧
    (installed c j s).cond.arg1 = s.cond.arg1 ∧ (installed c j s).cond.arg2 = s.cond.arg2 ∧
    (installed c j s).cond.tail = s.cond.tail ∧ (installed c j s).cond.switches = s.cond.switches ∧
    (installed c j s).cond.inReset = s.cond.inReset ∧ (installed c j s).afe.ctl = s.afe.ctl ∧
    (installed c j s).afe.eff = s.afe.eff ∧ (installed c j s).afe.diag = s.afe.diag ∧
    (installed c j s).ros.sealed = s.ros.sealed ∧ (installed c j s).out.cfg = s.out.cfg ∧
    (installed c j s).out.gen = s.out.gen ∧ (installed c j s).out.span = s.out.span ∧
    (installed c j s).out.staged = s.out.staged ∧ (installed c j s).nv.pages = s.nv.pages ∧
    (installed c j s).nv.running = s.nv.running ∧ (installed c j s).nv.suspend = s.nv.suspend ∧
    (installed c j s).nv.todo = s.nv.todo ∧ (installed c j s).disc.en = s.disc.en ∧
    (installed c j s).cal.map = s.cal.map ∧ (installed c j s).cal.quality = s.cal.quality ∧
    (installed c j s).cal.modTrim = s.cal.modTrim ∧ (installed c j s).cal.evtTrim = s.cal.evtTrim ∧
    (installed c j s).cal.calibrated = s.cal.calibrated ∧ (installed c j s).evt.mask = s.evt.mask ∧
    (installed c j s).evt.copy = s.evt.copy := by
  have k0 := @endDiscovery_frame
  have k1 := @endDiscovery_inner
  have k2 := @endWith_frame
  have k3 := @endWith_inner
  simp only [installed, when]
  repeat' split
  all_goals simp [k0, k1, k2, k3]

theorem boundBy_inner (c : Cmd) (slot : Nat) (s : State) :
    (boundBy c slot s).evin.incfg = s.evin.incfg ∧ (boundBy c slot s).tt.ctl = s.tt.ctl ∧
    (boundBy c slot s).tt.instA = s.tt.instA ∧ (boundBy c slot s).tt.instB = s.tt.instB ∧
    (boundBy c slot s).tt.active = s.tt.active ∧ (boundBy c slot s).tt.activeValid = s.tt.activeValid ∧
    (boundBy c slot s).tt.startSec = s.tt.startSec ∧ (boundBy c slot s).tt.startFrac = s.tt.startFrac ∧
    (boundBy c slot s).tt.swPend = s.tt.swPend ∧ (boundBy c slot s).tt.protHit = s.tt.protHit ∧
    (boundBy c slot s).sys.phase = s.sys.phase ∧ (boundBy c slot s).sys.cause = s.sys.cause ∧
    (boundBy c slot s).sys.cfgState = s.sys.cfgState ∧ (boundBy c slot s).sys.x32Run = s.sys.x32Run ∧
    (boundBy c slot s).sys.measRst = s.sys.measRst ∧ (boundBy c slot s).sys.earlyWr = s.sys.earlyWr ∧
    (boundBy c slot s).sys.lostCmds = s.sys.lostCmds ∧ (boundBy c slot s).clk.src = s.clk.src ∧
    (boundBy c slot s).clk.limits = s.clk.limits ∧ (boundBy c slot s).clk.spread = s.clk.spread ∧
    (boundBy c slot s).clk.active = s.clk.active ∧ (boundBy c slot s).clk.plans = s.clk.plans ∧
    (boundBy c slot s).clk.drift = s.clk.drift ∧ (boundBy c slot s).cond.arg0 = s.cond.arg0 ∧
    (boundBy c slot s).cond.arg1 = s.cond.arg1 ∧ (boundBy c slot s).cond.arg2 = s.cond.arg2 ∧
    (boundBy c slot s).cond.tail = s.cond.tail ∧ (boundBy c slot s).cond.switches = s.cond.switches ∧
    (boundBy c slot s).cond.inReset = s.cond.inReset ∧ (boundBy c slot s).afe.ctl = s.afe.ctl ∧
    (boundBy c slot s).afe.eff = s.afe.eff ∧ (boundBy c slot s).afe.diag = s.afe.diag ∧
    (boundBy c slot s).ros.sealed = s.ros.sealed ∧ (boundBy c slot s).out.cfg = s.out.cfg ∧
    (boundBy c slot s).out.gen = s.out.gen ∧ (boundBy c slot s).out.span = s.out.span ∧
    (boundBy c slot s).out.staged = s.out.staged ∧ (boundBy c slot s).nv.pages = s.nv.pages ∧
    (boundBy c slot s).nv.running = s.nv.running ∧ (boundBy c slot s).nv.suspend = s.nv.suspend ∧
    (boundBy c slot s).nv.todo = s.nv.todo ∧ (boundBy c slot s).disc.en = s.disc.en ∧
    (boundBy c slot s).cal.map = s.cal.map ∧ (boundBy c slot s).cal.quality = s.cal.quality ∧
    (boundBy c slot s).cal.modTrim = s.cal.modTrim ∧ (boundBy c slot s).cal.evtTrim = s.cal.evtTrim ∧
    (boundBy c slot s).cal.calibrated = s.cal.calibrated ∧ (boundBy c slot s).evt.mask = s.evt.mask ∧
    (boundBy c slot s).evt.copy = s.evt.copy := by
  simp only [boundBy, when]
  repeat' split
  all_goals simp

theorem lateCounts_inner (s : State) :
    (lateCounts s).ldg.ctl = s.ldg.ctl ∧ (lateCounts s).ldg.run = s.ldg.run ∧ (lateCounts s).ldg.cnt = s.ldg.cnt ∧
    (lateCounts s).ldg.lap = s.ldg.lap := by
  simp only [lateCounts, when]
  repeat' split
  all_goals simp

theorem ldgPage_inner (s : State) :
    (ldgPage s).ldg.ctl = s.ldg.ctl ∧ (ldgPage s).ldg.run = s.ldg.run ∧ (ldgPage s).ldg.cnt = s.ldg.cnt ∧
    (ldgPage s).ldg.lap = s.ldg.lap ∧ (ldgPage s).nv.pages = s.nv.pages ∧ (ldgPage s).nv.running = s.nv.running ∧
    (ldgPage s).nv.suspend = s.nv.suspend ∧ (ldgPage s).nv.todo = s.nv.todo := by
  have k0 := @lateCounts_frame
  have k1 := @lateCounts_inner
  simp only [ldgPage, when]
  repeat' split
  all_goals simp [k0, k1]

@[simp] theorem pump_inner (s : State) :
    (pump s).ldg.ctl = s.ldg.ctl ∧ (pump s).ldg.run = s.ldg.run ∧ (pump s).ldg.cnt = s.ldg.cnt ∧
    (pump s).ldg.lap = s.ldg.lap ∧ (pump s).nv.pages = s.nv.pages ∧ (pump s).nv.running = s.nv.running ∧
    (pump s).nv.suspend = s.nv.suspend := by
  have k0 := @ldgPage_frame
  have k1 := @ldgPage_inner
  simp only [pump, when]
  repeat' split
  all_goals simp [k0, k1]

theorem recordDone_inner (j : LdgJob) (s : State) :
    (recordDone j s).sys.phase = s.sys.phase ∧ (recordDone j s).sys.cause = s.sys.cause ∧
    (recordDone j s).sys.cfgState = s.sys.cfgState ∧ (recordDone j s).sys.x32Run = s.sys.x32Run ∧
    (recordDone j s).sys.measRst = s.sys.measRst ∧ (recordDone j s).sys.earlyWr = s.sys.earlyWr ∧
    (recordDone j s).sys.lostCmds = s.sys.lostCmds ∧ (recordDone j s).cond.arg0 = s.cond.arg0 ∧
    (recordDone j s).cond.arg1 = s.cond.arg1 ∧ (recordDone j s).cond.arg2 = s.cond.arg2 ∧
    (recordDone j s).cond.queue = s.cond.queue ∧ (recordDone j s).cond.running = s.cond.running ∧
    (recordDone j s).cond.tail = s.cond.tail ∧ (recordDone j s).cond.switches = s.cond.switches ∧
    (recordDone j s).cond.inReset = s.cond.inReset ∧ (recordDone j s).out.code = s.out.code ∧
    (recordDone j s).out.cfg = s.out.cfg ∧ (recordDone j s).out.gen = s.out.gen ∧
    (recordDone j s).out.span = s.out.span ∧ (recordDone j s).out.staged = s.out.staged ∧
    (recordDone j s).nv.pages = s.nv.pages ∧ (recordDone j s).nv.running = s.nv.running ∧
    (recordDone j s).nv.suspend = s.nv.suspend ∧ (recordDone j s).evt.mask = s.evt.mask ∧
    (recordDone j s).evt.copy = s.evt.copy := by
  have k0 := @ldgCmdDone_frame
  have k1 := @ldgCmdDone_inner
  have k2 := @recoverDue_frame
  have k3 := @recoverDue_inner
  simp only [recordDone, when]
  repeat' split
  all_goals simp [k0, k1, k2, k3]

theorem ldgPageDone_inner (ecc : Ecc) (s : State) :
    (ldgPageDone ecc s).sys.phase = s.sys.phase ∧ (ldgPageDone ecc s).sys.cause = s.sys.cause ∧
    (ldgPageDone ecc s).sys.cfgState = s.sys.cfgState ∧ (ldgPageDone ecc s).sys.x32Run = s.sys.x32Run ∧
    (ldgPageDone ecc s).sys.measRst = s.sys.measRst ∧ (ldgPageDone ecc s).sys.earlyWr = s.sys.earlyWr ∧
    (ldgPageDone ecc s).sys.lostCmds = s.sys.lostCmds ∧ (ldgPageDone ecc s).cond.arg0 = s.cond.arg0 ∧
    (ldgPageDone ecc s).cond.arg1 = s.cond.arg1 ∧ (ldgPageDone ecc s).cond.arg2 = s.cond.arg2 ∧
    (ldgPageDone ecc s).cond.queue = s.cond.queue ∧ (ldgPageDone ecc s).cond.running = s.cond.running ∧
    (ldgPageDone ecc s).cond.tail = s.cond.tail ∧ (ldgPageDone ecc s).cond.switches = s.cond.switches ∧
    (ldgPageDone ecc s).cond.inReset = s.cond.inReset ∧ (ldgPageDone ecc s).out.code = s.out.code ∧
    (ldgPageDone ecc s).out.cfg = s.out.cfg ∧ (ldgPageDone ecc s).out.gen = s.out.gen ∧
    (ldgPageDone ecc s).out.span = s.out.span ∧ (ldgPageDone ecc s).out.staged = s.out.staged ∧
    (ldgPageDone ecc s).nv.pages = s.nv.pages ∧ (ldgPageDone ecc s).nv.running = s.nv.running ∧
    (ldgPageDone ecc s).nv.suspend = s.nv.suspend ∧ (ldgPageDone ecc s).evt.mask = s.evt.mask ∧
    (ldgPageDone ecc s).evt.copy = s.evt.copy := by
  have k0 := @recordDone_frame
  have k1 := @recordDone_inner
  simp only [ldgPageDone, when]
  repeat' split
  all_goals simp [k0, k1]

@[simp] theorem setJob_inner (c : Cmd) (j : Job) (s : State) :
    (setJob c j s).cond.arg0 = s.cond.arg0 ∧ (setJob c j s).cond.arg1 = s.cond.arg1 ∧
    (setJob c j s).cond.arg2 = s.cond.arg2 ∧ (setJob c j s).cond.queue = s.cond.queue ∧
    (setJob c j s).cond.head = s.cond.head ∧ (setJob c j s).cond.seq = s.cond.seq ∧
    (setJob c j s).cond.tail = s.cond.tail ∧ (setJob c j s).cond.switches = s.cond.switches ∧
    (setJob c j s).cond.inReset = s.cond.inReset := by
  simp only [setJob, when]
  repeat' split
  all_goals simp

theorem readDone_inner (c : Cmd) (l : Nat) (todo : List Nat) (done : Nat) (data clear : BitVec 16) (unc bad : Bool) (s : State) :
    (readDone c l todo done data clear unc bad s).evin.incfg = s.evin.incfg ∧
    (readDone c l todo done data clear unc bad s).tt.ctl = s.tt.ctl ∧
    (readDone c l todo done data clear unc bad s).tt.instA = s.tt.instA ∧
    (readDone c l todo done data clear unc bad s).tt.instB = s.tt.instB ∧
    (readDone c l todo done data clear unc bad s).tt.active = s.tt.active ∧
    (readDone c l todo done data clear unc bad s).tt.activeValid = s.tt.activeValid ∧
    (readDone c l todo done data clear unc bad s).tt.startSec = s.tt.startSec ∧
    (readDone c l todo done data clear unc bad s).tt.startFrac = s.tt.startFrac ∧
    (readDone c l todo done data clear unc bad s).tt.swPend = s.tt.swPend ∧
    (readDone c l todo done data clear unc bad s).tt.protHit = s.tt.protHit ∧
    (readDone c l todo done data clear unc bad s).sys.phase = s.sys.phase ∧
    (readDone c l todo done data clear unc bad s).sys.cause = s.sys.cause ∧
    (readDone c l todo done data clear unc bad s).sys.cfgState = s.sys.cfgState ∧
    (readDone c l todo done data clear unc bad s).sys.x32Run = s.sys.x32Run ∧
    (readDone c l todo done data clear unc bad s).sys.measRst = s.sys.measRst ∧
    (readDone c l todo done data clear unc bad s).sys.earlyWr = s.sys.earlyWr ∧
    (readDone c l todo done data clear unc bad s).sys.lostCmds = s.sys.lostCmds ∧
    (readDone c l todo done data clear unc bad s).clk.src = s.clk.src ∧
    (readDone c l todo done data clear unc bad s).clk.limits = s.clk.limits ∧
    (readDone c l todo done data clear unc bad s).clk.spread = s.clk.spread ∧
    (readDone c l todo done data clear unc bad s).clk.active = s.clk.active ∧
    (readDone c l todo done data clear unc bad s).clk.plans = s.clk.plans ∧
    (readDone c l todo done data clear unc bad s).clk.drift = s.clk.drift ∧
    (readDone c l todo done data clear unc bad s).cond.arg0 = s.cond.arg0 ∧
    (readDone c l todo done data clear unc bad s).cond.arg1 = s.cond.arg1 ∧
    (readDone c l todo done data clear unc bad s).cond.arg2 = s.cond.arg2 ∧
    (readDone c l todo done data clear unc bad s).cond.tail = s.cond.tail ∧
    (readDone c l todo done data clear unc bad s).cond.switches = s.cond.switches ∧
    (readDone c l todo done data clear unc bad s).cond.inReset = s.cond.inReset ∧
    (readDone c l todo done data clear unc bad s).afe.ctl = s.afe.ctl ∧
    (readDone c l todo done data clear unc bad s).afe.eff = s.afe.eff ∧
    (readDone c l todo done data clear unc bad s).afe.diag = s.afe.diag ∧
    (readDone c l todo done data clear unc bad s).ros.sealed = s.ros.sealed ∧
    (readDone c l todo done data clear unc bad s).out.cfg = s.out.cfg ∧
    (readDone c l todo done data clear unc bad s).out.gen = s.out.gen ∧
    (readDone c l todo done data clear unc bad s).out.span = s.out.span ∧
    (readDone c l todo done data clear unc bad s).out.staged = s.out.staged ∧
    (readDone c l todo done data clear unc bad s).nv.pages = s.nv.pages ∧
    (readDone c l todo done data clear unc bad s).nv.running = s.nv.running ∧
    (readDone c l todo done data clear unc bad s).nv.suspend = s.nv.suspend ∧
    (readDone c l todo done data clear unc bad s).nv.todo = s.nv.todo ∧
    (readDone c l todo done data clear unc bad s).disc.en = s.disc.en ∧
    (readDone c l todo done data clear unc bad s).cal.map = s.cal.map ∧
    (readDone c l todo done data clear unc bad s).cal.quality = s.cal.quality ∧
    (readDone c l todo done data clear unc bad s).cal.modTrim = s.cal.modTrim ∧
    (readDone c l todo done data clear unc bad s).cal.evtTrim = s.cal.evtTrim ∧
    (readDone c l todo done data clear unc bad s).cal.calibrated = s.cal.calibrated ∧
    (readDone c l todo done data clear unc bad s).evt.mask = s.evt.mask ∧
    (readDone c l todo done data clear unc bad s).evt.copy = s.evt.copy := by
  simp only [readDone, when]
  repeat' split
  all_goals simp

theorem writeDone_inner (c : Cmd) (l : Nat) (todo : List Nat) (done : Nat) (ecc : Ecc) (s : State) :
    (writeDone c l todo done ecc s).evin.incfg = s.evin.incfg ∧ (writeDone c l todo done ecc s).tt.ctl = s.tt.ctl ∧
    (writeDone c l todo done ecc s).tt.instA = s.tt.instA ∧ (writeDone c l todo done ecc s).tt.instB = s.tt.instB ∧
    (writeDone c l todo done ecc s).tt.active = s.tt.active ∧
    (writeDone c l todo done ecc s).tt.activeValid = s.tt.activeValid ∧
    (writeDone c l todo done ecc s).tt.startSec = s.tt.startSec ∧
    (writeDone c l todo done ecc s).tt.startFrac = s.tt.startFrac ∧
    (writeDone c l todo done ecc s).tt.swPend = s.tt.swPend ∧
    (writeDone c l todo done ecc s).tt.protHit = s.tt.protHit ∧
    (writeDone c l todo done ecc s).sys.phase = s.sys.phase ∧
    (writeDone c l todo done ecc s).sys.cause = s.sys.cause ∧
    (writeDone c l todo done ecc s).sys.cfgState = s.sys.cfgState ∧
    (writeDone c l todo done ecc s).sys.x32Run = s.sys.x32Run ∧
    (writeDone c l todo done ecc s).sys.measRst = s.sys.measRst ∧
    (writeDone c l todo done ecc s).sys.earlyWr = s.sys.earlyWr ∧
    (writeDone c l todo done ecc s).sys.lostCmds = s.sys.lostCmds ∧
    (writeDone c l todo done ecc s).clk.src = s.clk.src ∧ (writeDone c l todo done ecc s).clk.limits = s.clk.limits ∧
    (writeDone c l todo done ecc s).clk.spread = s.clk.spread ∧
    (writeDone c l todo done ecc s).clk.active = s.clk.active ∧
    (writeDone c l todo done ecc s).clk.plans = s.clk.plans ∧
    (writeDone c l todo done ecc s).clk.drift = s.clk.drift ∧
    (writeDone c l todo done ecc s).cond.arg0 = s.cond.arg0 ∧
    (writeDone c l todo done ecc s).cond.arg1 = s.cond.arg1 ∧
    (writeDone c l todo done ecc s).cond.arg2 = s.cond.arg2 ∧
    (writeDone c l todo done ecc s).cond.tail = s.cond.tail ∧
    (writeDone c l todo done ecc s).cond.switches = s.cond.switches ∧
    (writeDone c l todo done ecc s).cond.inReset = s.cond.inReset ∧
    (writeDone c l todo done ecc s).afe.ctl = s.afe.ctl ∧ (writeDone c l todo done ecc s).afe.eff = s.afe.eff ∧
    (writeDone c l todo done ecc s).afe.diag = s.afe.diag ∧
    (writeDone c l todo done ecc s).ros.sealed = s.ros.sealed ∧ (writeDone c l todo done ecc s).out.cfg = s.out.cfg ∧
    (writeDone c l todo done ecc s).out.gen = s.out.gen ∧ (writeDone c l todo done ecc s).out.span = s.out.span ∧
    (writeDone c l todo done ecc s).out.staged = s.out.staged ∧
    (writeDone c l todo done ecc s).nv.pages = s.nv.pages ∧
    (writeDone c l todo done ecc s).nv.running = s.nv.running ∧
    (writeDone c l todo done ecc s).nv.suspend = s.nv.suspend ∧ (writeDone c l todo done ecc s).nv.todo = s.nv.todo ∧
    (writeDone c l todo done ecc s).disc.en = s.disc.en ∧ (writeDone c l todo done ecc s).cal.map = s.cal.map ∧
    (writeDone c l todo done ecc s).cal.quality = s.cal.quality ∧
    (writeDone c l todo done ecc s).cal.modTrim = s.cal.modTrim ∧
    (writeDone c l todo done ecc s).cal.evtTrim = s.cal.evtTrim ∧
    (writeDone c l todo done ecc s).cal.calibrated = s.cal.calibrated ∧
    (writeDone c l todo done ecc s).evt.mask = s.evt.mask ∧ (writeDone c l todo done ecc s).evt.copy = s.evt.copy := by
  simp only [writeDone, when]
  repeat' split
  all_goals simp

theorem clearStep_inner (c : Cmd) (wrote : Bool) (todo : List Nat) (done first count : Nat) (sec : Word) (unc : Bool) (s : State) :
    (clearStep c wrote todo done first count sec unc s).cond.arg0 = s.cond.arg0 ∧
    (clearStep c wrote todo done first count sec unc s).cond.arg1 = s.cond.arg1 ∧
    (clearStep c wrote todo done first count sec unc s).cond.arg2 = s.cond.arg2 ∧
    (clearStep c wrote todo done first count sec unc s).cond.queue = s.cond.queue ∧
    (clearStep c wrote todo done first count sec unc s).cond.head = s.cond.head ∧
    (clearStep c wrote todo done first count sec unc s).cond.seq = s.cond.seq ∧
    (clearStep c wrote todo done first count sec unc s).cond.tail = s.cond.tail ∧
    (clearStep c wrote todo done first count sec unc s).cond.switches = s.cond.switches ∧
    (clearStep c wrote todo done first count sec unc s).cond.inReset = s.cond.inReset := by
  simp only [clearStep, when]
  repeat' split
  all_goals simp

theorem clearDone_inner (c : Cmd) (wrote : Bool) (ecc : Ecc) (todo : List Nat) (done stage first count : Nat) (sec : Word) (unc : Bool) (s : State) :
    (clearDone c wrote ecc todo done stage first count sec unc s).evin.incfg = s.evin.incfg ∧
    (clearDone c wrote ecc todo done stage first count sec unc s).tt.ctl = s.tt.ctl ∧
    (clearDone c wrote ecc todo done stage first count sec unc s).tt.instA = s.tt.instA ∧
    (clearDone c wrote ecc todo done stage first count sec unc s).tt.instB = s.tt.instB ∧
    (clearDone c wrote ecc todo done stage first count sec unc s).tt.active = s.tt.active ∧
    (clearDone c wrote ecc todo done stage first count sec unc s).tt.activeValid = s.tt.activeValid ∧
    (clearDone c wrote ecc todo done stage first count sec unc s).tt.startSec = s.tt.startSec ∧
    (clearDone c wrote ecc todo done stage first count sec unc s).tt.startFrac = s.tt.startFrac ∧
    (clearDone c wrote ecc todo done stage first count sec unc s).tt.swPend = s.tt.swPend ∧
    (clearDone c wrote ecc todo done stage first count sec unc s).tt.protHit = s.tt.protHit ∧
    (clearDone c wrote ecc todo done stage first count sec unc s).sys.phase = s.sys.phase ∧
    (clearDone c wrote ecc todo done stage first count sec unc s).sys.cause = s.sys.cause ∧
    (clearDone c wrote ecc todo done stage first count sec unc s).sys.cfgState = s.sys.cfgState ∧
    (clearDone c wrote ecc todo done stage first count sec unc s).sys.x32Run = s.sys.x32Run ∧
    (clearDone c wrote ecc todo done stage first count sec unc s).sys.measRst = s.sys.measRst ∧
    (clearDone c wrote ecc todo done stage first count sec unc s).sys.earlyWr = s.sys.earlyWr ∧
    (clearDone c wrote ecc todo done stage first count sec unc s).sys.lostCmds = s.sys.lostCmds ∧
    (clearDone c wrote ecc todo done stage first count sec unc s).clk.src = s.clk.src ∧
    (clearDone c wrote ecc todo done stage first count sec unc s).clk.limits = s.clk.limits ∧
    (clearDone c wrote ecc todo done stage first count sec unc s).clk.spread = s.clk.spread ∧
    (clearDone c wrote ecc todo done stage first count sec unc s).clk.active = s.clk.active ∧
    (clearDone c wrote ecc todo done stage first count sec unc s).clk.plans = s.clk.plans ∧
    (clearDone c wrote ecc todo done stage first count sec unc s).clk.drift = s.clk.drift ∧
    (clearDone c wrote ecc todo done stage first count sec unc s).cond.arg0 = s.cond.arg0 ∧
    (clearDone c wrote ecc todo done stage first count sec unc s).cond.arg1 = s.cond.arg1 ∧
    (clearDone c wrote ecc todo done stage first count sec unc s).cond.arg2 = s.cond.arg2 ∧
    (clearDone c wrote ecc todo done stage first count sec unc s).cond.tail = s.cond.tail ∧
    (clearDone c wrote ecc todo done stage first count sec unc s).cond.switches = s.cond.switches ∧
    (clearDone c wrote ecc todo done stage first count sec unc s).cond.inReset = s.cond.inReset ∧
    (clearDone c wrote ecc todo done stage first count sec unc s).afe.ctl = s.afe.ctl ∧
    (clearDone c wrote ecc todo done stage first count sec unc s).afe.eff = s.afe.eff ∧
    (clearDone c wrote ecc todo done stage first count sec unc s).afe.diag = s.afe.diag ∧
    (clearDone c wrote ecc todo done stage first count sec unc s).ros.sealed = s.ros.sealed ∧
    (clearDone c wrote ecc todo done stage first count sec unc s).out.cfg = s.out.cfg ∧
    (clearDone c wrote ecc todo done stage first count sec unc s).out.gen = s.out.gen ∧
    (clearDone c wrote ecc todo done stage first count sec unc s).out.span = s.out.span ∧
    (clearDone c wrote ecc todo done stage first count sec unc s).out.staged = s.out.staged ∧
    (clearDone c wrote ecc todo done stage first count sec unc s).nv.pages = s.nv.pages ∧
    (clearDone c wrote ecc todo done stage first count sec unc s).nv.todo = s.nv.todo ∧
    (clearDone c wrote ecc todo done stage first count sec unc s).disc.en = s.disc.en ∧
    (clearDone c wrote ecc todo done stage first count sec unc s).cal.map = s.cal.map ∧
    (clearDone c wrote ecc todo done stage first count sec unc s).cal.quality = s.cal.quality ∧
    (clearDone c wrote ecc todo done stage first count sec unc s).cal.modTrim = s.cal.modTrim ∧
    (clearDone c wrote ecc todo done stage first count sec unc s).cal.evtTrim = s.cal.evtTrim ∧
    (clearDone c wrote ecc todo done stage first count sec unc s).cal.calibrated = s.cal.calibrated ∧
    (clearDone c wrote ecc todo done stage first count sec unc s).evt.mask = s.evt.mask ∧
    (clearDone c wrote ecc todo done stage first count sec unc s).evt.copy = s.evt.copy := by
  have k0 := @clearStep_frame
  have k1 := @clearStep_inner
  have k2 := @endSuspends_frame
  have k3 := @endSuspends_inner
  simp only [clearDone, when]
  repeat' split
  all_goals simp [k0, k1, k2, k3]

theorem saveDone_inner (c : Cmd) (todo : List (Nat × List Byte)) (gen : Byte) (count done : Nat) (ecc : Ecc) (s : State) :
    (saveDone c todo gen count done ecc s).evin.incfg = s.evin.incfg ∧
    (saveDone c todo gen count done ecc s).tt.ctl = s.tt.ctl ∧
    (saveDone c todo gen count done ecc s).tt.instA = s.tt.instA ∧
    (saveDone c todo gen count done ecc s).tt.instB = s.tt.instB ∧
    (saveDone c todo gen count done ecc s).tt.active = s.tt.active ∧
    (saveDone c todo gen count done ecc s).tt.activeValid = s.tt.activeValid ∧
    (saveDone c todo gen count done ecc s).tt.startSec = s.tt.startSec ∧
    (saveDone c todo gen count done ecc s).tt.startFrac = s.tt.startFrac ∧
    (saveDone c todo gen count done ecc s).tt.swPend = s.tt.swPend ∧
    (saveDone c todo gen count done ecc s).tt.protHit = s.tt.protHit ∧
    (saveDone c todo gen count done ecc s).sys.phase = s.sys.phase ∧
    (saveDone c todo gen count done ecc s).sys.cause = s.sys.cause ∧
    (saveDone c todo gen count done ecc s).sys.cfgState = s.sys.cfgState ∧
    (saveDone c todo gen count done ecc s).sys.x32Run = s.sys.x32Run ∧
    (saveDone c todo gen count done ecc s).sys.measRst = s.sys.measRst ∧
    (saveDone c todo gen count done ecc s).sys.earlyWr = s.sys.earlyWr ∧
    (saveDone c todo gen count done ecc s).sys.lostCmds = s.sys.lostCmds ∧
    (saveDone c todo gen count done ecc s).clk.src = s.clk.src ∧
    (saveDone c todo gen count done ecc s).clk.limits = s.clk.limits ∧
    (saveDone c todo gen count done ecc s).clk.spread = s.clk.spread ∧
    (saveDone c todo gen count done ecc s).clk.active = s.clk.active ∧
    (saveDone c todo gen count done ecc s).clk.plans = s.clk.plans ∧
    (saveDone c todo gen count done ecc s).clk.drift = s.clk.drift ∧
    (saveDone c todo gen count done ecc s).cond.arg0 = s.cond.arg0 ∧
    (saveDone c todo gen count done ecc s).cond.arg1 = s.cond.arg1 ∧
    (saveDone c todo gen count done ecc s).cond.arg2 = s.cond.arg2 ∧
    (saveDone c todo gen count done ecc s).cond.tail = s.cond.tail ∧
    (saveDone c todo gen count done ecc s).cond.switches = s.cond.switches ∧
    (saveDone c todo gen count done ecc s).cond.inReset = s.cond.inReset ∧
    (saveDone c todo gen count done ecc s).afe.ctl = s.afe.ctl ∧
    (saveDone c todo gen count done ecc s).afe.eff = s.afe.eff ∧
    (saveDone c todo gen count done ecc s).afe.diag = s.afe.diag ∧
    (saveDone c todo gen count done ecc s).ros.sealed = s.ros.sealed ∧
    (saveDone c todo gen count done ecc s).out.cfg = s.out.cfg ∧
    (saveDone c todo gen count done ecc s).out.gen = s.out.gen ∧
    (saveDone c todo gen count done ecc s).out.span = s.out.span ∧
    (saveDone c todo gen count done ecc s).out.staged = s.out.staged ∧
    (saveDone c todo gen count done ecc s).nv.pages = s.nv.pages ∧
    (saveDone c todo gen count done ecc s).nv.running = s.nv.running ∧
    (saveDone c todo gen count done ecc s).nv.suspend = s.nv.suspend ∧
    (saveDone c todo gen count done ecc s).nv.todo = s.nv.todo ∧
    (saveDone c todo gen count done ecc s).disc.en = s.disc.en ∧
    (saveDone c todo gen count done ecc s).cal.map = s.cal.map ∧
    (saveDone c todo gen count done ecc s).cal.quality = s.cal.quality ∧
    (saveDone c todo gen count done ecc s).cal.modTrim = s.cal.modTrim ∧
    (saveDone c todo gen count done ecc s).cal.evtTrim = s.cal.evtTrim ∧
    (saveDone c todo gen count done ecc s).cal.calibrated = s.cal.calibrated ∧
    (saveDone c todo gen count done ecc s).evt.mask = s.evt.mask ∧
    (saveDone c todo gen count done ecc s).evt.copy = s.evt.copy := by
  simp only [saveDone, when]
  repeat' split
  all_goals simp

theorem jobPageDone_inner (o : NvOp) (ecc : Ecc) (s : State) :
    (jobPageDone o ecc s).evin.incfg = s.evin.incfg ∧ (jobPageDone o ecc s).tt.ctl = s.tt.ctl ∧
    (jobPageDone o ecc s).tt.instA = s.tt.instA ∧ (jobPageDone o ecc s).tt.instB = s.tt.instB ∧
    (jobPageDone o ecc s).tt.active = s.tt.active ∧ (jobPageDone o ecc s).tt.activeValid = s.tt.activeValid ∧
    (jobPageDone o ecc s).tt.startSec = s.tt.startSec ∧ (jobPageDone o ecc s).tt.startFrac = s.tt.startFrac ∧
    (jobPageDone o ecc s).tt.swPend = s.tt.swPend ∧ (jobPageDone o ecc s).tt.protHit = s.tt.protHit ∧
    (jobPageDone o ecc s).sys.phase = s.sys.phase ∧ (jobPageDone o ecc s).sys.cause = s.sys.cause ∧
    (jobPageDone o ecc s).sys.cfgState = s.sys.cfgState ∧ (jobPageDone o ecc s).sys.x32Run = s.sys.x32Run ∧
    (jobPageDone o ecc s).sys.measRst = s.sys.measRst ∧ (jobPageDone o ecc s).sys.earlyWr = s.sys.earlyWr ∧
    (jobPageDone o ecc s).sys.lostCmds = s.sys.lostCmds ∧ (jobPageDone o ecc s).clk.src = s.clk.src ∧
    (jobPageDone o ecc s).clk.limits = s.clk.limits ∧ (jobPageDone o ecc s).clk.spread = s.clk.spread ∧
    (jobPageDone o ecc s).clk.active = s.clk.active ∧ (jobPageDone o ecc s).clk.plans = s.clk.plans ∧
    (jobPageDone o ecc s).clk.drift = s.clk.drift ∧ (jobPageDone o ecc s).cond.arg0 = s.cond.arg0 ∧
    (jobPageDone o ecc s).cond.arg1 = s.cond.arg1 ∧ (jobPageDone o ecc s).cond.arg2 = s.cond.arg2 ∧
    (jobPageDone o ecc s).cond.tail = s.cond.tail ∧ (jobPageDone o ecc s).cond.switches = s.cond.switches ∧
    (jobPageDone o ecc s).cond.inReset = s.cond.inReset ∧ (jobPageDone o ecc s).afe.ctl = s.afe.ctl ∧
    (jobPageDone o ecc s).afe.eff = s.afe.eff ∧ (jobPageDone o ecc s).afe.diag = s.afe.diag ∧
    (jobPageDone o ecc s).ros.sealed = s.ros.sealed ∧ (jobPageDone o ecc s).out.cfg = s.out.cfg ∧
    (jobPageDone o ecc s).out.gen = s.out.gen ∧ (jobPageDone o ecc s).out.span = s.out.span ∧
    (jobPageDone o ecc s).out.staged = s.out.staged ∧ (jobPageDone o ecc s).nv.pages = s.nv.pages ∧
    (jobPageDone o ecc s).nv.todo = s.nv.todo ∧ (jobPageDone o ecc s).disc.en = s.disc.en ∧
    (jobPageDone o ecc s).cal.map = s.cal.map ∧ (jobPageDone o ecc s).cal.quality = s.cal.quality ∧
    (jobPageDone o ecc s).cal.modTrim = s.cal.modTrim ∧ (jobPageDone o ecc s).cal.evtTrim = s.cal.evtTrim ∧
    (jobPageDone o ecc s).cal.calibrated = s.cal.calibrated ∧ (jobPageDone o ecc s).evt.mask = s.evt.mask ∧
    (jobPageDone o ecc s).evt.copy = s.evt.copy := by
  have k0 := @boundBy_frame
  have k1 := @boundBy_inner
  have k2 := @clearDone_frame
  have k3 := @clearDone_inner
  have k4 := @installed_frame
  have k5 := @installed_inner
  have k6 := @readDone_frame
  have k7 := @readDone_inner
  have k8 := @saveDone_frame
  have k9 := @saveDone_inner
  have k10 := @writeDone_frame
  have k11 := @writeDone_inner
  simp only [jobPageDone, when]
  repeat' split
  all_goals simp [k0, k1, k2, k3, k4, k5, k6, k7, k8, k9, k10, k11]

theorem jobPageReset_inner (o : NvOp) (s : State) :
    (jobPageReset o s).cond.arg0 = s.cond.arg0 ∧ (jobPageReset o s).cond.arg1 = s.cond.arg1 ∧
    (jobPageReset o s).cond.arg2 = s.cond.arg2 ∧ (jobPageReset o s).cond.queue = s.cond.queue ∧
    (jobPageReset o s).cond.head = s.cond.head ∧ (jobPageReset o s).cond.seq = s.cond.seq ∧
    (jobPageReset o s).cond.tail = s.cond.tail ∧ (jobPageReset o s).cond.switches = s.cond.switches ∧
    (jobPageReset o s).cond.inReset = s.cond.inReset := by
  have k0 := @clearStep_frame
  have k1 := @clearStep_inner
  simp only [jobPageReset, when]
  repeat' split
  all_goals simp [k0, k1]

@[simp] theorem suspendHere_inner (s : State) :
    (suspendHere s).cond.arg0 = s.cond.arg0 ∧ (suspendHere s).cond.arg1 = s.cond.arg1 ∧
    (suspendHere s).cond.arg2 = s.cond.arg2 ∧ (suspendHere s).cond.queue = s.cond.queue ∧
    (suspendHere s).cond.head = s.cond.head ∧ (suspendHere s).cond.seq = s.cond.seq ∧
    (suspendHere s).cond.tail = s.cond.tail ∧ (suspendHere s).cond.switches = s.cond.switches ∧
    (suspendHere s).cond.inReset = s.cond.inReset := by
  simp only [suspendHere, when]
  repeat' split
  all_goals simp

@[simp] theorem restoreHere_inner (s : State) :
    (restoreHere s).tt.ctl = s.tt.ctl ∧ (restoreHere s).tt.instA = s.tt.instA ∧
    (restoreHere s).tt.instB = s.tt.instB ∧ (restoreHere s).tt.startSec = s.tt.startSec ∧
    (restoreHere s).tt.startFrac = s.tt.startFrac ∧ (restoreHere s).tt.protHit = s.tt.protHit ∧
    (restoreHere s).sys.phase = s.sys.phase ∧ (restoreHere s).sys.cause = s.sys.cause ∧
    (restoreHere s).sys.cfgState = s.sys.cfgState ∧ (restoreHere s).sys.x32Run = s.sys.x32Run ∧
    (restoreHere s).sys.measRst = s.sys.measRst ∧ (restoreHere s).sys.earlyWr = s.sys.earlyWr ∧
    (restoreHere s).sys.lostCmds = s.sys.lostCmds ∧ (restoreHere s).pwr.trickle = s.pwr.trickle ∧
    (restoreHere s).pwr.onVbat = s.pwr.onVbat ∧ (restoreHere s).pwr.mainOn = s.pwr.mainOn ∧
    (restoreHere s).pwr.aonOn = s.pwr.aonOn ∧ (restoreHere s).pwr.warn = s.pwr.warn ∧
    (restoreHere s).pwr.ship = s.pwr.ship ∧ (restoreHere s).pwr.castleCount = s.pwr.castleCount ∧
    (restoreHere s).pwr.firstValid = s.pwr.firstValid ∧ (restoreHere s).pwr.firstSec = s.pwr.firstSec ∧
    (restoreHere s).pwr.firstFrac = s.pwr.firstFrac ∧ (restoreHere s).pwr.castlings = s.pwr.castlings ∧
    (restoreHere s).cond.arg0 = s.cond.arg0 ∧ (restoreHere s).cond.arg1 = s.cond.arg1 ∧
    (restoreHere s).cond.arg2 = s.cond.arg2 ∧ (restoreHere s).cond.tail = s.cond.tail ∧
    (restoreHere s).cond.inReset = s.cond.inReset ∧ (restoreHere s).afe.eff = s.afe.eff ∧
    (restoreHere s).afe.diag = s.afe.diag ∧ (restoreHere s).ros.sealed = s.ros.sealed ∧
    (restoreHere s).out.gen = s.out.gen ∧ (restoreHere s).out.span = s.out.span ∧
    (restoreHere s).out.staged = s.out.staged ∧ (restoreHere s).hif.i3c = s.hif.i3c ∧
    (restoreHere s).hif.dynAddr = s.hif.dynAddr ∧ (restoreHere s).hif.crcEn = s.hif.crcEn ∧
    (restoreHere s).hif.txn = s.hif.txn ∧ (restoreHere s).hif.reply = s.hif.reply ∧
    (restoreHere s).nv.pages = s.nv.pages ∧ (restoreHere s).nv.running = s.nv.running ∧
    (restoreHere s).nv.suspend = s.nv.suspend := by
  have k0 := @restoreImage_frame
  have k1 := @restoreImage_inner
  simp only [restoreHere, when]
  repeat' split
  all_goals simp [k0, k1]

theorem switchRecord_inner (g : Byte × Option Bool) (s : State) :
    (switchRecord g s).cond.arg0 = s.cond.arg0 ∧ (switchRecord g s).cond.arg1 = s.cond.arg1 ∧
    (switchRecord g s).cond.arg2 = s.cond.arg2 ∧ (switchRecord g s).cond.queue = s.cond.queue ∧
    (switchRecord g s).cond.running = s.cond.running ∧ (switchRecord g s).cond.tail = s.cond.tail ∧
    (switchRecord g s).cond.switches = s.cond.switches ∧ (switchRecord g s).cond.inReset = s.cond.inReset ∧
    (switchRecord g s).evt.mask = s.evt.mask ∧ (switchRecord g s).evt.copy = s.evt.copy := by
  simp only [switchRecord, when]
  repeat' split
  all_goals simp

@[simp] theorem flushSwitches_inner (s : State) :
    (flushSwitches s).cond.arg0 = s.cond.arg0 ∧ (flushSwitches s).cond.arg1 = s.cond.arg1 ∧
    (flushSwitches s).cond.arg2 = s.cond.arg2 ∧ (flushSwitches s).cond.queue = s.cond.queue ∧
    (flushSwitches s).cond.running = s.cond.running ∧ (flushSwitches s).cond.tail = s.cond.tail ∧
    (flushSwitches s).cond.switches = s.cond.switches ∧ (flushSwitches s).cond.inReset = s.cond.inReset ∧
    (flushSwitches s).evt.mask = s.evt.mask ∧ (flushSwitches s).evt.copy = s.evt.copy := by
  have k0 := @switchRecord_frame
  have k1 := @switchRecord_inner
  simp only [flushSwitches, when]
  repeat' split
  all_goals simp [k0, k1]

@[simp] theorem cutHere_inner (s : State) :
    (cutHere s).evin.incfg = s.evin.incfg ∧ (cutHere s).tt.ctl = s.tt.ctl ∧ (cutHere s).tt.instA = s.tt.instA ∧
    (cutHere s).tt.instB = s.tt.instB ∧ (cutHere s).tt.active = s.tt.active ∧
    (cutHere s).tt.activeValid = s.tt.activeValid ∧ (cutHere s).tt.startSec = s.tt.startSec ∧
    (cutHere s).tt.startFrac = s.tt.startFrac ∧ (cutHere s).tt.swPend = s.tt.swPend ∧
    (cutHere s).tt.protHit = s.tt.protHit ∧ (cutHere s).sys.phase = s.sys.phase ∧
    (cutHere s).sys.cause = s.sys.cause ∧ (cutHere s).sys.cfgState = s.sys.cfgState ∧
    (cutHere s).sys.x32Run = s.sys.x32Run ∧ (cutHere s).sys.measRst = s.sys.measRst ∧
    (cutHere s).sys.earlyWr = s.sys.earlyWr ∧ (cutHere s).sys.lostCmds = s.sys.lostCmds ∧
    (cutHere s).clk.src = s.clk.src ∧ (cutHere s).clk.limits = s.clk.limits ∧ (cutHere s).clk.spread = s.clk.spread ∧
    (cutHere s).clk.active = s.clk.active ∧ (cutHere s).clk.plans = s.clk.plans ∧
    (cutHere s).clk.drift = s.clk.drift ∧ (cutHere s).cond.arg0 = s.cond.arg0 ∧ (cutHere s).cond.arg1 = s.cond.arg1 ∧
    (cutHere s).cond.arg2 = s.cond.arg2 ∧ (cutHere s).cond.tail = s.cond.tail ∧
    (cutHere s).cond.switches = s.cond.switches ∧ (cutHere s).cond.inReset = s.cond.inReset ∧
    (cutHere s).afe.ctl = s.afe.ctl ∧ (cutHere s).afe.eff = s.afe.eff ∧ (cutHere s).afe.diag = s.afe.diag ∧
    (cutHere s).ros.sealed = s.ros.sealed ∧ (cutHere s).out.cfg = s.out.cfg ∧ (cutHere s).out.gen = s.out.gen ∧
    (cutHere s).out.span = s.out.span ∧ (cutHere s).out.staged = s.out.staged ∧ (cutHere s).nv.pages = s.nv.pages ∧
    (cutHere s).nv.running = s.nv.running ∧ (cutHere s).nv.todo = s.nv.todo ∧ (cutHere s).disc.en = s.disc.en ∧
    (cutHere s).cal.map = s.cal.map ∧ (cutHere s).cal.quality = s.cal.quality ∧
    (cutHere s).cal.modTrim = s.cal.modTrim ∧ (cutHere s).cal.evtTrim = s.cal.evtTrim ∧
    (cutHere s).cal.calibrated = s.cal.calibrated ∧ (cutHere s).evt.mask = s.evt.mask ∧
    (cutHere s).evt.copy = s.evt.copy := by
  have k0 := @endSuspends_frame
  have k1 := @endSuspends_inner
  simp only [cutHere, when]
  repeat' split
  all_goals simp [k0, k1]

@[simp] theorem settle_inner (s : State) :
    (settle s).tt.ctl = s.tt.ctl ∧ (settle s).tt.instA = s.tt.instA ∧ (settle s).tt.instB = s.tt.instB ∧
    (settle s).tt.startSec = s.tt.startSec ∧ (settle s).tt.startFrac = s.tt.startFrac ∧
    (settle s).tt.protHit = s.tt.protHit ∧ (settle s).sys.phase = s.sys.phase ∧ (settle s).sys.cause = s.sys.cause ∧
    (settle s).sys.cfgState = s.sys.cfgState ∧ (settle s).sys.x32Run = s.sys.x32Run ∧
    (settle s).sys.measRst = s.sys.measRst ∧ (settle s).sys.earlyWr = s.sys.earlyWr ∧
    (settle s).sys.lostCmds = s.sys.lostCmds ∧ (settle s).pwr.trickle = s.pwr.trickle ∧
    (settle s).pwr.onVbat = s.pwr.onVbat ∧ (settle s).pwr.mainOn = s.pwr.mainOn ∧ (settle s).pwr.aonOn = s.pwr.aonOn ∧
    (settle s).pwr.warn = s.pwr.warn ∧ (settle s).pwr.ship = s.pwr.ship ∧
    (settle s).pwr.castleCount = s.pwr.castleCount ∧ (settle s).pwr.firstValid = s.pwr.firstValid ∧
    (settle s).pwr.firstSec = s.pwr.firstSec ∧ (settle s).pwr.firstFrac = s.pwr.firstFrac ∧
    (settle s).pwr.castlings = s.pwr.castlings ∧ (settle s).cond.arg0 = s.cond.arg0 ∧
    (settle s).cond.arg1 = s.cond.arg1 ∧ (settle s).cond.arg2 = s.cond.arg2 ∧ (settle s).cond.tail = s.cond.tail ∧
    (settle s).cond.inReset = s.cond.inReset ∧ (settle s).afe.eff = s.afe.eff ∧ (settle s).afe.diag = s.afe.diag ∧
    (settle s).ros.sealed = s.ros.sealed ∧ (settle s).out.gen = s.out.gen ∧ (settle s).out.span = s.out.span ∧
    (settle s).out.staged = s.out.staged ∧ (settle s).hif.i3c = s.hif.i3c ∧ (settle s).hif.dynAddr = s.hif.dynAddr ∧
    (settle s).hif.crcEn = s.hif.crcEn ∧ (settle s).hif.txn = s.hif.txn ∧ (settle s).hif.reply = s.hif.reply ∧
    (settle s).nv.pages = s.nv.pages := by
  simp only [settle, when]
  repeat' split
  all_goals simp

theorem ownerAdvances_inner (o : NvOp) (ecc : Ecc) (s : State) :
    (ownerAdvances o ecc s).evin.incfg = s.evin.incfg ∧ (ownerAdvances o ecc s).tt.ctl = s.tt.ctl ∧
    (ownerAdvances o ecc s).tt.instA = s.tt.instA ∧ (ownerAdvances o ecc s).tt.instB = s.tt.instB ∧
    (ownerAdvances o ecc s).tt.active = s.tt.active ∧ (ownerAdvances o ecc s).tt.activeValid = s.tt.activeValid ∧
    (ownerAdvances o ecc s).tt.startSec = s.tt.startSec ∧ (ownerAdvances o ecc s).tt.startFrac = s.tt.startFrac ∧
    (ownerAdvances o ecc s).tt.swPend = s.tt.swPend ∧ (ownerAdvances o ecc s).tt.protHit = s.tt.protHit ∧
    (ownerAdvances o ecc s).sys.phase = s.sys.phase ∧ (ownerAdvances o ecc s).sys.cause = s.sys.cause ∧
    (ownerAdvances o ecc s).sys.cfgState = s.sys.cfgState ∧ (ownerAdvances o ecc s).sys.x32Run = s.sys.x32Run ∧
    (ownerAdvances o ecc s).sys.measRst = s.sys.measRst ∧ (ownerAdvances o ecc s).sys.earlyWr = s.sys.earlyWr ∧
    (ownerAdvances o ecc s).sys.lostCmds = s.sys.lostCmds ∧ (ownerAdvances o ecc s).clk.src = s.clk.src ∧
    (ownerAdvances o ecc s).clk.limits = s.clk.limits ∧ (ownerAdvances o ecc s).clk.spread = s.clk.spread ∧
    (ownerAdvances o ecc s).clk.active = s.clk.active ∧ (ownerAdvances o ecc s).clk.plans = s.clk.plans ∧
    (ownerAdvances o ecc s).clk.drift = s.clk.drift ∧ (ownerAdvances o ecc s).cond.arg0 = s.cond.arg0 ∧
    (ownerAdvances o ecc s).cond.arg1 = s.cond.arg1 ∧ (ownerAdvances o ecc s).cond.arg2 = s.cond.arg2 ∧
    (ownerAdvances o ecc s).cond.tail = s.cond.tail ∧ (ownerAdvances o ecc s).cond.switches = s.cond.switches ∧
    (ownerAdvances o ecc s).cond.inReset = s.cond.inReset ∧ (ownerAdvances o ecc s).afe.ctl = s.afe.ctl ∧
    (ownerAdvances o ecc s).afe.eff = s.afe.eff ∧ (ownerAdvances o ecc s).afe.diag = s.afe.diag ∧
    (ownerAdvances o ecc s).ros.sealed = s.ros.sealed ∧ (ownerAdvances o ecc s).out.cfg = s.out.cfg ∧
    (ownerAdvances o ecc s).out.gen = s.out.gen ∧ (ownerAdvances o ecc s).out.span = s.out.span ∧
    (ownerAdvances o ecc s).out.staged = s.out.staged ∧ (ownerAdvances o ecc s).nv.pages = s.nv.pages ∧
    (ownerAdvances o ecc s).disc.en = s.disc.en ∧ (ownerAdvances o ecc s).cal.map = s.cal.map ∧
    (ownerAdvances o ecc s).cal.quality = s.cal.quality ∧ (ownerAdvances o ecc s).cal.modTrim = s.cal.modTrim ∧
    (ownerAdvances o ecc s).cal.evtTrim = s.cal.evtTrim ∧ (ownerAdvances o ecc s).cal.calibrated = s.cal.calibrated ∧
    (ownerAdvances o ecc s).evt.mask = s.evt.mask ∧ (ownerAdvances o ecc s).evt.copy = s.evt.copy := by
  have k0 := @jobPageDone_frame
  have k1 := @jobPageDone_inner
  have k2 := @jobPageReset_frame
  have k3 := @jobPageReset_inner
  have k4 := @ldgPageDone_frame
  have k5 := @ldgPageDone_inner
  simp only [ownerAdvances, when]
  repeat' split
  all_goals simp [k0, k1, k2, k3, k4, k5]

@[simp] theorem pageOperationEnd_inner (ecc : Ecc) (t : Nat) (s : State) :
    (pageOperationEnd ecc t s).tt.ctl = s.tt.ctl ∧ (pageOperationEnd ecc t s).tt.instA = s.tt.instA ∧
    (pageOperationEnd ecc t s).tt.instB = s.tt.instB ∧ (pageOperationEnd ecc t s).tt.startSec = s.tt.startSec ∧
    (pageOperationEnd ecc t s).tt.startFrac = s.tt.startFrac ∧ (pageOperationEnd ecc t s).tt.protHit = s.tt.protHit ∧
    (pageOperationEnd ecc t s).sys.phase = s.sys.phase ∧ (pageOperationEnd ecc t s).sys.cause = s.sys.cause ∧
    (pageOperationEnd ecc t s).sys.cfgState = s.sys.cfgState ∧ (pageOperationEnd ecc t s).sys.x32Run = s.sys.x32Run ∧
    (pageOperationEnd ecc t s).sys.measRst = s.sys.measRst ∧ (pageOperationEnd ecc t s).sys.earlyWr = s.sys.earlyWr ∧
    (pageOperationEnd ecc t s).sys.lostCmds = s.sys.lostCmds ∧
    (pageOperationEnd ecc t s).pwr.trickle = s.pwr.trickle ∧ (pageOperationEnd ecc t s).pwr.onVbat = s.pwr.onVbat ∧
    (pageOperationEnd ecc t s).pwr.mainOn = s.pwr.mainOn ∧ (pageOperationEnd ecc t s).pwr.aonOn = s.pwr.aonOn ∧
    (pageOperationEnd ecc t s).pwr.warn = s.pwr.warn ∧ (pageOperationEnd ecc t s).pwr.ship = s.pwr.ship ∧
    (pageOperationEnd ecc t s).pwr.castleCount = s.pwr.castleCount ∧
    (pageOperationEnd ecc t s).pwr.firstValid = s.pwr.firstValid ∧
    (pageOperationEnd ecc t s).pwr.firstSec = s.pwr.firstSec ∧
    (pageOperationEnd ecc t s).pwr.firstFrac = s.pwr.firstFrac ∧
    (pageOperationEnd ecc t s).pwr.castlings = s.pwr.castlings ∧ (pageOperationEnd ecc t s).cond.arg0 = s.cond.arg0 ∧
    (pageOperationEnd ecc t s).cond.arg1 = s.cond.arg1 ∧ (pageOperationEnd ecc t s).cond.arg2 = s.cond.arg2 ∧
    (pageOperationEnd ecc t s).cond.tail = s.cond.tail ∧ (pageOperationEnd ecc t s).cond.inReset = s.cond.inReset ∧
    (pageOperationEnd ecc t s).afe.eff = s.afe.eff ∧ (pageOperationEnd ecc t s).afe.diag = s.afe.diag ∧
    (pageOperationEnd ecc t s).ros.sealed = s.ros.sealed ∧ (pageOperationEnd ecc t s).out.gen = s.out.gen ∧
    (pageOperationEnd ecc t s).out.span = s.out.span ∧ (pageOperationEnd ecc t s).out.staged = s.out.staged ∧
    (pageOperationEnd ecc t s).hif.i3c = s.hif.i3c ∧ (pageOperationEnd ecc t s).hif.dynAddr = s.hif.dynAddr ∧
    (pageOperationEnd ecc t s).hif.crcEn = s.hif.crcEn ∧ (pageOperationEnd ecc t s).hif.txn = s.hif.txn ∧
    (pageOperationEnd ecc t s).hif.reply = s.hif.reply := by
  have k0 := @ownerAdvances_frame
  have k1 := @ownerAdvances_inner
  have k2 := @readPage_frame
  have k3 := @readPage_inner
  have k4 := @writePage_frame
  have k5 := @writePage_inner
  simp only [pageOperationEnd, when]
  repeat' split
  all_goals simp [k0, k1, k2, k3, k4, k5]

theorem uninstall_inner (b : Bool) (s : State) :
    (uninstall b s).tt.ctl = s.tt.ctl ∧ (uninstall b s).tt.active = s.tt.active ∧
    (uninstall b s).tt.startSec = s.tt.startSec ∧ (uninstall b s).tt.startFrac = s.tt.startFrac ∧
    (uninstall b s).tt.protHit = s.tt.protHit ∧ (uninstall b s).cond.arg0 = s.cond.arg0 ∧
    (uninstall b s).cond.arg1 = s.cond.arg1 ∧ (uninstall b s).cond.arg2 = s.cond.arg2 ∧
    (uninstall b s).cond.queue = s.cond.queue ∧ (uninstall b s).cond.running = s.cond.running ∧
    (uninstall b s).cond.tail = s.cond.tail ∧ (uninstall b s).cond.inReset = s.cond.inReset ∧
    (uninstall b s).evt.mask = s.evt.mask ∧ (uninstall b s).evt.copy = s.evt.copy := by
  simp only [uninstall, when]
  repeat' split
  all_goals simp

theorem atStart_inner (c : Cmd) (s : State) :
    (atStart c s).evin.incfg = s.evin.incfg ∧ (atStart c s).evin.level = s.evin.level ∧
    (atStart c s).evin.syncLevel = s.evin.syncLevel ∧ (atStart c s).tt.ctl = s.tt.ctl ∧
    (atStart c s).tt.active = s.tt.active ∧ (atStart c s).tt.startSec = s.tt.startSec ∧
    (atStart c s).tt.startFrac = s.tt.startFrac ∧ (atStart c s).tt.protHit = s.tt.protHit ∧
    (atStart c s).clk.src = s.clk.src ∧ (atStart c s).clk.limits = s.clk.limits ∧
    (atStart c s).clk.spread = s.clk.spread ∧ (atStart c s).clk.active = s.clk.active ∧
    (atStart c s).clk.plans = s.clk.plans ∧ (atStart c s).clk.drift = s.clk.drift ∧
    (atStart c s).cond.arg0 = s.cond.arg0 ∧ (atStart c s).cond.arg1 = s.cond.arg1 ∧
    (atStart c s).cond.arg2 = s.cond.arg2 ∧ (atStart c s).cond.queue = s.cond.queue ∧
    (atStart c s).cond.tail = s.cond.tail ∧ (atStart c s).cond.inReset = s.cond.inReset ∧
    (atStart c s).afe.ctl = s.afe.ctl ∧ (atStart c s).afe.eff = s.afe.eff ∧ (atStart c s).afe.diag = s.afe.diag ∧
    (atStart c s).ros.sealed = s.ros.sealed ∧ (atStart c s).evt.mask = s.evt.mask ∧
    (atStart c s).evt.copy = s.evt.copy := by
  have k0 := @uninstall_frame
  have k1 := @uninstall_inner
  simp only [atStart, when]
  repeat' split
  all_goals simp [k0, k1]

@[simp] theorem commandStart_inner (t : Nat) (s : State) :
    (commandStart t s).tt.ctl = s.tt.ctl ∧ (commandStart t s).tt.startSec = s.tt.startSec ∧
    (commandStart t s).tt.startFrac = s.tt.startFrac ∧ (commandStart t s).tt.protHit = s.tt.protHit ∧
    (commandStart t s).sys.phase = s.sys.phase ∧ (commandStart t s).sys.cause = s.sys.cause ∧
    (commandStart t s).sys.cfgState = s.sys.cfgState ∧ (commandStart t s).sys.x32Run = s.sys.x32Run ∧
    (commandStart t s).sys.measRst = s.sys.measRst ∧ (commandStart t s).sys.earlyWr = s.sys.earlyWr ∧
    (commandStart t s).sys.lostCmds = s.sys.lostCmds ∧ (commandStart t s).pwr.trickle = s.pwr.trickle ∧
    (commandStart t s).pwr.onVbat = s.pwr.onVbat ∧ (commandStart t s).pwr.mainOn = s.pwr.mainOn ∧
    (commandStart t s).pwr.aonOn = s.pwr.aonOn ∧ (commandStart t s).pwr.warn = s.pwr.warn ∧
    (commandStart t s).pwr.ship = s.pwr.ship ∧ (commandStart t s).pwr.castleCount = s.pwr.castleCount ∧
    (commandStart t s).pwr.firstValid = s.pwr.firstValid ∧ (commandStart t s).pwr.firstSec = s.pwr.firstSec ∧
    (commandStart t s).pwr.firstFrac = s.pwr.firstFrac ∧ (commandStart t s).pwr.castlings = s.pwr.castlings ∧
    (commandStart t s).cond.arg0 = s.cond.arg0 ∧ (commandStart t s).cond.arg1 = s.cond.arg1 ∧
    (commandStart t s).cond.arg2 = s.cond.arg2 ∧ (commandStart t s).cond.tail = s.cond.tail ∧
    (commandStart t s).cond.inReset = s.cond.inReset ∧ (commandStart t s).afe.eff = s.afe.eff ∧
    (commandStart t s).afe.diag = s.afe.diag ∧ (commandStart t s).ros.sealed = s.ros.sealed ∧
    (commandStart t s).out.gen = s.out.gen ∧ (commandStart t s).out.span = s.out.span ∧
    (commandStart t s).out.staged = s.out.staged ∧ (commandStart t s).hif.i3c = s.hif.i3c ∧
    (commandStart t s).hif.dynAddr = s.hif.dynAddr ∧ (commandStart t s).hif.crcEn = s.hif.crcEn ∧
    (commandStart t s).hif.txn = s.hif.txn ∧ (commandStart t s).hif.reply = s.hif.reply ∧
    (commandStart t s).nv.pages = s.nv.pages := by
  have k0 := @atStart_frame
  have k1 := @atStart_inner
  simp only [commandStart, when]
  repeat' split
  all_goals simp [k0, k1]

@[simp] theorem undefinedCommand_inner (t : Nat) (s : State) :
    (undefinedCommand t s).tt.ctl = s.tt.ctl ∧ (undefinedCommand t s).tt.instA = s.tt.instA ∧
    (undefinedCommand t s).tt.instB = s.tt.instB ∧ (undefinedCommand t s).tt.startSec = s.tt.startSec ∧
    (undefinedCommand t s).tt.startFrac = s.tt.startFrac ∧ (undefinedCommand t s).tt.protHit = s.tt.protHit ∧
    (undefinedCommand t s).sys.phase = s.sys.phase ∧ (undefinedCommand t s).sys.cause = s.sys.cause ∧
    (undefinedCommand t s).sys.cfgState = s.sys.cfgState ∧ (undefinedCommand t s).sys.x32Run = s.sys.x32Run ∧
    (undefinedCommand t s).sys.measRst = s.sys.measRst ∧ (undefinedCommand t s).sys.earlyWr = s.sys.earlyWr ∧
    (undefinedCommand t s).sys.lostCmds = s.sys.lostCmds ∧ (undefinedCommand t s).pwr.trickle = s.pwr.trickle ∧
    (undefinedCommand t s).pwr.onVbat = s.pwr.onVbat ∧ (undefinedCommand t s).pwr.mainOn = s.pwr.mainOn ∧
    (undefinedCommand t s).pwr.aonOn = s.pwr.aonOn ∧ (undefinedCommand t s).pwr.warn = s.pwr.warn ∧
    (undefinedCommand t s).pwr.ship = s.pwr.ship ∧ (undefinedCommand t s).pwr.castleCount = s.pwr.castleCount ∧
    (undefinedCommand t s).pwr.firstValid = s.pwr.firstValid ∧ (undefinedCommand t s).pwr.firstSec = s.pwr.firstSec ∧
    (undefinedCommand t s).pwr.firstFrac = s.pwr.firstFrac ∧ (undefinedCommand t s).pwr.castlings = s.pwr.castlings ∧
    (undefinedCommand t s).cond.arg0 = s.cond.arg0 ∧ (undefinedCommand t s).cond.arg1 = s.cond.arg1 ∧
    (undefinedCommand t s).cond.arg2 = s.cond.arg2 ∧ (undefinedCommand t s).cond.tail = s.cond.tail ∧
    (undefinedCommand t s).cond.inReset = s.cond.inReset ∧ (undefinedCommand t s).afe.eff = s.afe.eff ∧
    (undefinedCommand t s).afe.diag = s.afe.diag ∧ (undefinedCommand t s).ros.sealed = s.ros.sealed ∧
    (undefinedCommand t s).out.gen = s.out.gen ∧ (undefinedCommand t s).out.span = s.out.span ∧
    (undefinedCommand t s).out.staged = s.out.staged ∧ (undefinedCommand t s).hif.i3c = s.hif.i3c ∧
    (undefinedCommand t s).hif.dynAddr = s.hif.dynAddr ∧ (undefinedCommand t s).hif.crcEn = s.hif.crcEn ∧
    (undefinedCommand t s).hif.txn = s.hif.txn ∧ (undefinedCommand t s).hif.reply = s.hif.reply ∧
    (undefinedCommand t s).nv.pages = s.nv.pages := by
  simp only [undefinedCommand, when]
  repeat' split
  all_goals simp

@[simp] theorem loadTt_inner (c : Cmd) (s : State) :
    (loadTt c s).evin.incfg = s.evin.incfg ∧ (loadTt c s).tt.ctl = s.tt.ctl ∧ (loadTt c s).tt.active = s.tt.active ∧
    (loadTt c s).tt.startSec = s.tt.startSec ∧ (loadTt c s).tt.startFrac = s.tt.startFrac ∧
    (loadTt c s).tt.protHit = s.tt.protHit ∧ (loadTt c s).sys.phase = s.sys.phase ∧
    (loadTt c s).sys.cause = s.sys.cause ∧ (loadTt c s).sys.cfgState = s.sys.cfgState ∧
    (loadTt c s).sys.x32Run = s.sys.x32Run ∧ (loadTt c s).sys.measRst = s.sys.measRst ∧
    (loadTt c s).sys.earlyWr = s.sys.earlyWr ∧ (loadTt c s).sys.lostCmds = s.sys.lostCmds ∧
    (loadTt c s).clk.src = s.clk.src ∧ (loadTt c s).clk.limits = s.clk.limits ∧
    (loadTt c s).clk.spread = s.clk.spread ∧ (loadTt c s).clk.active = s.clk.active ∧
    (loadTt c s).clk.plans = s.clk.plans ∧ (loadTt c s).clk.drift = s.clk.drift ∧
    (loadTt c s).cond.arg0 = s.cond.arg0 ∧ (loadTt c s).cond.arg1 = s.cond.arg1 ∧
    (loadTt c s).cond.arg2 = s.cond.arg2 ∧ (loadTt c s).cond.tail = s.cond.tail ∧
    (loadTt c s).cond.inReset = s.cond.inReset ∧ (loadTt c s).afe.ctl = s.afe.ctl ∧ (loadTt c s).afe.eff = s.afe.eff ∧
    (loadTt c s).afe.diag = s.afe.diag ∧ (loadTt c s).ros.sealed = s.ros.sealed ∧ (loadTt c s).out.cfg = s.out.cfg ∧
    (loadTt c s).out.gen = s.out.gen ∧ (loadTt c s).out.span = s.out.span ∧ (loadTt c s).out.staged = s.out.staged ∧
    (loadTt c s).nv.pages = s.nv.pages ∧ (loadTt c s).nv.running = s.nv.running ∧
    (loadTt c s).nv.suspend = s.nv.suspend ∧ (loadTt c s).nv.todo = s.nv.todo ∧ (loadTt c s).disc.en = s.disc.en ∧
    (loadTt c s).cal.map = s.cal.map ∧ (loadTt c s).cal.quality = s.cal.quality ∧
    (loadTt c s).cal.modTrim = s.cal.modTrim ∧ (loadTt c s).cal.evtTrim = s.cal.evtTrim ∧
    (loadTt c s).cal.calibrated = s.cal.calibrated ∧ (loadTt c s).evt.mask = s.evt.mask ∧
    (loadTt c s).evt.copy = s.evt.copy := by
  have k0 := @uninstall_frame
  have k1 := @uninstall_inner
  simp only [loadTt, when]
  repeat' split
  all_goals simp [k0, k1]

@[simp] theorem switchTt_inner (c : Cmd) (s : State) :
    (switchTt c s).evin.incfg = s.evin.incfg ∧ (switchTt c s).tt.ctl = s.tt.ctl ∧
    (switchTt c s).tt.instA = s.tt.instA ∧ (switchTt c s).tt.instB = s.tt.instB ∧
    (switchTt c s).tt.startSec = s.tt.startSec ∧ (switchTt c s).tt.startFrac = s.tt.startFrac ∧
    (switchTt c s).tt.protHit = s.tt.protHit ∧ (switchTt c s).sys.phase = s.sys.phase ∧
    (switchTt c s).sys.cause = s.sys.cause ∧ (switchTt c s).sys.cfgState = s.sys.cfgState ∧
    (switchTt c s).sys.x32Run = s.sys.x32Run ∧ (switchTt c s).sys.measRst = s.sys.measRst ∧
    (switchTt c s).sys.earlyWr = s.sys.earlyWr ∧ (switchTt c s).sys.lostCmds = s.sys.lostCmds ∧
    (switchTt c s).clk.src = s.clk.src ∧ (switchTt c s).clk.limits = s.clk.limits ∧
    (switchTt c s).clk.spread = s.clk.spread ∧ (switchTt c s).clk.active = s.clk.active ∧
    (switchTt c s).clk.plans = s.clk.plans ∧ (switchTt c s).clk.drift = s.clk.drift ∧
    (switchTt c s).cond.arg0 = s.cond.arg0 ∧ (switchTt c s).cond.arg1 = s.cond.arg1 ∧
    (switchTt c s).cond.arg2 = s.cond.arg2 ∧ (switchTt c s).cond.tail = s.cond.tail ∧
    (switchTt c s).cond.inReset = s.cond.inReset ∧ (switchTt c s).afe.ctl = s.afe.ctl ∧
    (switchTt c s).afe.eff = s.afe.eff ∧ (switchTt c s).afe.diag = s.afe.diag ∧
    (switchTt c s).ros.sealed = s.ros.sealed ∧ (switchTt c s).out.cfg = s.out.cfg ∧
    (switchTt c s).out.gen = s.out.gen ∧ (switchTt c s).out.span = s.out.span ∧
    (switchTt c s).out.staged = s.out.staged ∧ (switchTt c s).nv.pages = s.nv.pages ∧
    (switchTt c s).nv.running = s.nv.running ∧ (switchTt c s).nv.suspend = s.nv.suspend ∧
    (switchTt c s).nv.todo = s.nv.todo ∧ (switchTt c s).disc.en = s.disc.en ∧ (switchTt c s).cal.map = s.cal.map ∧
    (switchTt c s).cal.quality = s.cal.quality ∧ (switchTt c s).cal.modTrim = s.cal.modTrim ∧
    (switchTt c s).cal.evtTrim = s.cal.evtTrim ∧ (switchTt c s).cal.calibrated = s.cal.calibrated ∧
    (switchTt c s).evt.mask = s.evt.mask ∧ (switchTt c s).evt.copy = s.evt.copy := by
  have k0 := @applySwitch_frame
  have k1 := @applySwitch_inner
  simp only [switchTt, when]
  repeat' split
  all_goals simp [k0, k1]

theorem discoverRead_inner (c : Cmd) (teds : List Teds) (s : State) :
    (discoverRead c teds s).cond.arg0 = s.cond.arg0 ∧ (discoverRead c teds s).cond.arg1 = s.cond.arg1 ∧
    (discoverRead c teds s).cond.arg2 = s.cond.arg2 ∧ (discoverRead c teds s).cond.queue = s.cond.queue ∧
    (discoverRead c teds s).cond.head = s.cond.head ∧ (discoverRead c teds s).cond.seq = s.cond.seq ∧
    (discoverRead c teds s).cond.tail = s.cond.tail ∧ (discoverRead c teds s).cond.switches = s.cond.switches ∧
    (discoverRead c teds s).cond.inReset = s.cond.inReset := by
  simp only [discoverRead, when]
  repeat' split
  all_goals simp

theorem discoverStart_inner (c : Cmd) (teds : List Teds) (s : State) :
    (discoverStart c teds s).evin.incfg = s.evin.incfg ∧ (discoverStart c teds s).tt.ctl = s.tt.ctl ∧
    (discoverStart c teds s).tt.instA = s.tt.instA ∧ (discoverStart c teds s).tt.instB = s.tt.instB ∧
    (discoverStart c teds s).tt.active = s.tt.active ∧ (discoverStart c teds s).tt.activeValid = s.tt.activeValid ∧
    (discoverStart c teds s).tt.startSec = s.tt.startSec ∧ (discoverStart c teds s).tt.startFrac = s.tt.startFrac ∧
    (discoverStart c teds s).tt.swPend = s.tt.swPend ∧ (discoverStart c teds s).tt.protHit = s.tt.protHit ∧
    (discoverStart c teds s).sys.phase = s.sys.phase ∧ (discoverStart c teds s).sys.cause = s.sys.cause ∧
    (discoverStart c teds s).sys.cfgState = s.sys.cfgState ∧ (discoverStart c teds s).sys.x32Run = s.sys.x32Run ∧
    (discoverStart c teds s).sys.measRst = s.sys.measRst ∧ (discoverStart c teds s).sys.earlyWr = s.sys.earlyWr ∧
    (discoverStart c teds s).sys.lostCmds = s.sys.lostCmds ∧ (discoverStart c teds s).clk.src = s.clk.src ∧
    (discoverStart c teds s).clk.limits = s.clk.limits ∧ (discoverStart c teds s).clk.spread = s.clk.spread ∧
    (discoverStart c teds s).clk.active = s.clk.active ∧ (discoverStart c teds s).clk.plans = s.clk.plans ∧
    (discoverStart c teds s).clk.drift = s.clk.drift ∧ (discoverStart c teds s).cond.arg0 = s.cond.arg0 ∧
    (discoverStart c teds s).cond.arg1 = s.cond.arg1 ∧ (discoverStart c teds s).cond.arg2 = s.cond.arg2 ∧
    (discoverStart c teds s).cond.tail = s.cond.tail ∧ (discoverStart c teds s).cond.switches = s.cond.switches ∧
    (discoverStart c teds s).cond.inReset = s.cond.inReset ∧ (discoverStart c teds s).afe.ctl = s.afe.ctl ∧
    (discoverStart c teds s).afe.eff = s.afe.eff ∧ (discoverStart c teds s).afe.diag = s.afe.diag ∧
    (discoverStart c teds s).ros.sealed = s.ros.sealed ∧ (discoverStart c teds s).out.cfg = s.out.cfg ∧
    (discoverStart c teds s).out.gen = s.out.gen ∧ (discoverStart c teds s).out.span = s.out.span ∧
    (discoverStart c teds s).out.staged = s.out.staged ∧ (discoverStart c teds s).nv.pages = s.nv.pages ∧
    (discoverStart c teds s).nv.running = s.nv.running ∧ (discoverStart c teds s).nv.suspend = s.nv.suspend ∧
    (discoverStart c teds s).nv.todo = s.nv.todo ∧ (discoverStart c teds s).disc.en = s.disc.en ∧
    (discoverStart c teds s).cal.map = s.cal.map ∧ (discoverStart c teds s).cal.quality = s.cal.quality ∧
    (discoverStart c teds s).cal.modTrim = s.cal.modTrim ∧ (discoverStart c teds s).cal.evtTrim = s.cal.evtTrim ∧
    (discoverStart c teds s).cal.calibrated = s.cal.calibrated ∧ (discoverStart c teds s).evt.mask = s.evt.mask ∧
    (discoverStart c teds s).evt.copy = s.evt.copy := by
  have k0 := @discoverRead_frame
  have k1 := @discoverRead_inner
  simp only [discoverStart, when]
  repeat' split
  all_goals simp [k0, k1]

theorem discoverEnd_inner (c : Cmd) (j : DiscJob) (s : State) :
    (discoverEnd c j s).evin.incfg = s.evin.incfg ∧ (discoverEnd c j s).tt.ctl = s.tt.ctl ∧
    (discoverEnd c j s).tt.instA = s.tt.instA ∧ (discoverEnd c j s).tt.instB = s.tt.instB ∧
    (discoverEnd c j s).tt.active = s.tt.active ∧ (discoverEnd c j s).tt.activeValid = s.tt.activeValid ∧
    (discoverEnd c j s).tt.startSec = s.tt.startSec ∧ (discoverEnd c j s).tt.startFrac = s.tt.startFrac ∧
    (discoverEnd c j s).tt.swPend = s.tt.swPend ∧ (discoverEnd c j s).tt.protHit = s.tt.protHit ∧
    (discoverEnd c j s).sys.phase = s.sys.phase ∧ (discoverEnd c j s).sys.cause = s.sys.cause ∧
    (discoverEnd c j s).sys.cfgState = s.sys.cfgState ∧ (discoverEnd c j s).sys.x32Run = s.sys.x32Run ∧
    (discoverEnd c j s).sys.measRst = s.sys.measRst ∧ (discoverEnd c j s).sys.earlyWr = s.sys.earlyWr ∧
    (discoverEnd c j s).sys.lostCmds = s.sys.lostCmds ∧ (discoverEnd c j s).clk.src = s.clk.src ∧
    (discoverEnd c j s).clk.limits = s.clk.limits ∧ (discoverEnd c j s).clk.spread = s.clk.spread ∧
    (discoverEnd c j s).clk.active = s.clk.active ∧ (discoverEnd c j s).clk.plans = s.clk.plans ∧
    (discoverEnd c j s).clk.drift = s.clk.drift ∧ (discoverEnd c j s).cond.arg0 = s.cond.arg0 ∧
    (discoverEnd c j s).cond.arg1 = s.cond.arg1 ∧ (discoverEnd c j s).cond.arg2 = s.cond.arg2 ∧
    (discoverEnd c j s).cond.tail = s.cond.tail ∧ (discoverEnd c j s).cond.switches = s.cond.switches ∧
    (discoverEnd c j s).cond.inReset = s.cond.inReset ∧ (discoverEnd c j s).afe.ctl = s.afe.ctl ∧
    (discoverEnd c j s).afe.eff = s.afe.eff ∧ (discoverEnd c j s).afe.diag = s.afe.diag ∧
    (discoverEnd c j s).ros.sealed = s.ros.sealed ∧ (discoverEnd c j s).out.cfg = s.out.cfg ∧
    (discoverEnd c j s).out.gen = s.out.gen ∧ (discoverEnd c j s).out.span = s.out.span ∧
    (discoverEnd c j s).out.staged = s.out.staged ∧ (discoverEnd c j s).nv.pages = s.nv.pages ∧
    (discoverEnd c j s).nv.running = s.nv.running ∧ (discoverEnd c j s).nv.suspend = s.nv.suspend ∧
    (discoverEnd c j s).disc.en = s.disc.en ∧ (discoverEnd c j s).cal.map = s.cal.map ∧
    (discoverEnd c j s).cal.quality = s.cal.quality ∧ (discoverEnd c j s).cal.modTrim = s.cal.modTrim ∧
    (discoverEnd c j s).cal.evtTrim = s.cal.evtTrim ∧ (discoverEnd c j s).cal.calibrated = s.cal.calibrated ∧
    (discoverEnd c j s).evt.mask = s.evt.mask ∧ (discoverEnd c j s).evt.copy = s.evt.copy := by
  have k0 := @classify_frame
  have k1 := @classify_inner
  simp only [discoverEnd, when]
  repeat' split
  all_goals simp [k0, k1]

theorem discLeak_inner (d : DiscData) (s : State) :
    (discLeak d s).cond.arg0 = s.cond.arg0 ∧ (discLeak d s).cond.arg1 = s.cond.arg1 ∧
    (discLeak d s).cond.arg2 = s.cond.arg2 ∧ (discLeak d s).cond.queue = s.cond.queue ∧
    (discLeak d s).cond.head = s.cond.head ∧ (discLeak d s).cond.seq = s.cond.seq ∧
    (discLeak d s).cond.tail = s.cond.tail ∧ (discLeak d s).cond.switches = s.cond.switches ∧
    (discLeak d s).cond.inReset = s.cond.inReset ∧ (discLeak d s).afe.ctl = s.afe.ctl ∧
    (discLeak d s).afe.eff = s.afe.eff ∧ (discLeak d s).evt.mask = s.evt.mask ∧ (discLeak d s).evt.copy = s.evt.copy := by
  have k0 := @classifyLeak_frame
  have k1 := @classifyLeak_inner
  simp only [discLeak, when]
  repeat' split
  all_goals simp [k0, k1]

theorem discArm_inner (d : DiscData) (s : State) :
    (discArm d s).cond.arg0 = s.cond.arg0 ∧ (discArm d s).cond.arg1 = s.cond.arg1 ∧
    (discArm d s).cond.arg2 = s.cond.arg2 ∧ (discArm d s).cond.queue = s.cond.queue ∧
    (discArm d s).cond.head = s.cond.head ∧ (discArm d s).cond.seq = s.cond.seq ∧
    (discArm d s).cond.tail = s.cond.tail ∧ (discArm d s).cond.switches = s.cond.switches ∧
    (discArm d s).cond.inReset = s.cond.inReset ∧ (discArm d s).afe.ctl = s.afe.ctl ∧
    (discArm d s).afe.eff = s.afe.eff ∧ (discArm d s).evt.mask = s.evt.mask ∧ (discArm d s).evt.copy = s.evt.copy := by
  have k0 := @classifyArm_frame
  have k1 := @classifyArm_inner
  simp only [discArm, when]
  repeat' split
  all_goals simp [k0, k1]

theorem discBalance_inner (d : DiscData) (s : State) :
    (discBalance d s).evin.incfg = s.evin.incfg ∧ (discBalance d s).tt.ctl = s.tt.ctl ∧
    (discBalance d s).tt.instA = s.tt.instA ∧ (discBalance d s).tt.instB = s.tt.instB ∧
    (discBalance d s).tt.active = s.tt.active ∧ (discBalance d s).tt.activeValid = s.tt.activeValid ∧
    (discBalance d s).tt.startSec = s.tt.startSec ∧ (discBalance d s).tt.startFrac = s.tt.startFrac ∧
    (discBalance d s).tt.swPend = s.tt.swPend ∧ (discBalance d s).tt.protHit = s.tt.protHit ∧
    (discBalance d s).sys.phase = s.sys.phase ∧ (discBalance d s).sys.cause = s.sys.cause ∧
    (discBalance d s).sys.cfgState = s.sys.cfgState ∧ (discBalance d s).sys.x32Run = s.sys.x32Run ∧
    (discBalance d s).sys.measRst = s.sys.measRst ∧ (discBalance d s).sys.earlyWr = s.sys.earlyWr ∧
    (discBalance d s).sys.lostCmds = s.sys.lostCmds ∧ (discBalance d s).clk.src = s.clk.src ∧
    (discBalance d s).clk.limits = s.clk.limits ∧ (discBalance d s).clk.spread = s.clk.spread ∧
    (discBalance d s).clk.active = s.clk.active ∧ (discBalance d s).clk.plans = s.clk.plans ∧
    (discBalance d s).clk.drift = s.clk.drift ∧ (discBalance d s).cond.arg0 = s.cond.arg0 ∧
    (discBalance d s).cond.arg1 = s.cond.arg1 ∧ (discBalance d s).cond.arg2 = s.cond.arg2 ∧
    (discBalance d s).cond.tail = s.cond.tail ∧ (discBalance d s).cond.switches = s.cond.switches ∧
    (discBalance d s).cond.inReset = s.cond.inReset ∧ (discBalance d s).afe.ctl = s.afe.ctl ∧
    (discBalance d s).afe.eff = s.afe.eff ∧ (discBalance d s).ros.sealed = s.ros.sealed ∧
    (discBalance d s).out.cfg = s.out.cfg ∧ (discBalance d s).out.gen = s.out.gen ∧
    (discBalance d s).out.span = s.out.span ∧ (discBalance d s).out.staged = s.out.staged ∧
    (discBalance d s).nv.pages = s.nv.pages ∧ (discBalance d s).nv.running = s.nv.running ∧
    (discBalance d s).nv.suspend = s.nv.suspend ∧ (discBalance d s).disc.en = s.disc.en ∧
    (discBalance d s).cal.map = s.cal.map ∧ (discBalance d s).cal.quality = s.cal.quality ∧
    (discBalance d s).cal.modTrim = s.cal.modTrim ∧ (discBalance d s).cal.evtTrim = s.cal.evtTrim ∧
    (discBalance d s).cal.calibrated = s.cal.calibrated ∧ (discBalance d s).evt.mask = s.evt.mask ∧
    (discBalance d s).evt.copy = s.evt.copy := by
  have k0 := @diagOver_frame
  have k1 := @diagOver_inner
  have k2 := @discoverEnd_frame
  have k3 := @discoverEnd_inner
  simp only [discBalance, when]
  repeat' split
  all_goals simp [k0, k1, k2, k3]

@[simp] theorem discover_inner (teds : List Teds) (d : DiscData) (t : Nat) (s : State) :
    (discover teds d t s).tt.ctl = s.tt.ctl ∧ (discover teds d t s).tt.instA = s.tt.instA ∧
    (discover teds d t s).tt.instB = s.tt.instB ∧ (discover teds d t s).tt.startSec = s.tt.startSec ∧
    (discover teds d t s).tt.startFrac = s.tt.startFrac ∧ (discover teds d t s).tt.protHit = s.tt.protHit ∧
    (discover teds d t s).sys.phase = s.sys.phase ∧ (discover teds d t s).sys.cause = s.sys.cause ∧
    (discover teds d t s).sys.cfgState = s.sys.cfgState ∧ (discover teds d t s).sys.x32Run = s.sys.x32Run ∧
    (discover teds d t s).sys.measRst = s.sys.measRst ∧ (discover teds d t s).sys.earlyWr = s.sys.earlyWr ∧
    (discover teds d t s).sys.lostCmds = s.sys.lostCmds ∧ (discover teds d t s).pwr.trickle = s.pwr.trickle ∧
    (discover teds d t s).pwr.onVbat = s.pwr.onVbat ∧ (discover teds d t s).pwr.mainOn = s.pwr.mainOn ∧
    (discover teds d t s).pwr.aonOn = s.pwr.aonOn ∧ (discover teds d t s).pwr.warn = s.pwr.warn ∧
    (discover teds d t s).pwr.ship = s.pwr.ship ∧ (discover teds d t s).pwr.castleCount = s.pwr.castleCount ∧
    (discover teds d t s).pwr.firstValid = s.pwr.firstValid ∧ (discover teds d t s).pwr.firstSec = s.pwr.firstSec ∧
    (discover teds d t s).pwr.firstFrac = s.pwr.firstFrac ∧ (discover teds d t s).pwr.castlings = s.pwr.castlings ∧
    (discover teds d t s).cond.arg0 = s.cond.arg0 ∧ (discover teds d t s).cond.arg1 = s.cond.arg1 ∧
    (discover teds d t s).cond.arg2 = s.cond.arg2 ∧ (discover teds d t s).cond.tail = s.cond.tail ∧
    (discover teds d t s).cond.inReset = s.cond.inReset ∧ (discover teds d t s).afe.eff = s.afe.eff ∧
    (discover teds d t s).ros.sealed = s.ros.sealed ∧ (discover teds d t s).out.gen = s.out.gen ∧
    (discover teds d t s).out.span = s.out.span ∧ (discover teds d t s).out.staged = s.out.staged ∧
    (discover teds d t s).hif.i3c = s.hif.i3c ∧ (discover teds d t s).hif.dynAddr = s.hif.dynAddr ∧
    (discover teds d t s).hif.crcEn = s.hif.crcEn ∧ (discover teds d t s).hif.txn = s.hif.txn ∧
    (discover teds d t s).hif.reply = s.hif.reply ∧ (discover teds d t s).nv.pages = s.nv.pages := by
  have k0 := @discArm_frame
  have k1 := @discArm_inner
  have k2 := @discBalance_frame
  have k3 := @discBalance_inner
  have k4 := @discLeak_frame
  have k5 := @discLeak_inner
  have k6 := @discoverRead_frame
  have k7 := @discoverRead_inner
  have k8 := @discoverStart_frame
  have k9 := @discoverStart_inner
  simp only [discover, when]
  repeat' split
  all_goals simp [k0, k1, k2, k3, k4, k5, k6, k7, k8, k9]

@[simp] theorem discoveryHoldBegin_inner (s : State) :
    (discoveryHoldBegin s).tt.ctl = s.tt.ctl ∧ (discoveryHoldBegin s).tt.instA = s.tt.instA ∧
    (discoveryHoldBegin s).tt.instB = s.tt.instB ∧ (discoveryHoldBegin s).tt.startSec = s.tt.startSec ∧
    (discoveryHoldBegin s).tt.startFrac = s.tt.startFrac ∧ (discoveryHoldBegin s).tt.protHit = s.tt.protHit ∧
    (discoveryHoldBegin s).sys.phase = s.sys.phase ∧ (discoveryHoldBegin s).sys.cause = s.sys.cause ∧
    (discoveryHoldBegin s).sys.cfgState = s.sys.cfgState ∧ (discoveryHoldBegin s).sys.x32Run = s.sys.x32Run ∧
    (discoveryHoldBegin s).sys.measRst = s.sys.measRst ∧ (discoveryHoldBegin s).sys.earlyWr = s.sys.earlyWr ∧
    (discoveryHoldBegin s).sys.lostCmds = s.sys.lostCmds ∧ (discoveryHoldBegin s).pwr.trickle = s.pwr.trickle ∧
    (discoveryHoldBegin s).pwr.onVbat = s.pwr.onVbat ∧ (discoveryHoldBegin s).pwr.mainOn = s.pwr.mainOn ∧
    (discoveryHoldBegin s).pwr.aonOn = s.pwr.aonOn ∧ (discoveryHoldBegin s).pwr.warn = s.pwr.warn ∧
    (discoveryHoldBegin s).pwr.ship = s.pwr.ship ∧ (discoveryHoldBegin s).pwr.castleCount = s.pwr.castleCount ∧
    (discoveryHoldBegin s).pwr.firstValid = s.pwr.firstValid ∧ (discoveryHoldBegin s).pwr.firstSec = s.pwr.firstSec ∧
    (discoveryHoldBegin s).pwr.firstFrac = s.pwr.firstFrac ∧ (discoveryHoldBegin s).pwr.castlings = s.pwr.castlings ∧
    (discoveryHoldBegin s).cond.arg0 = s.cond.arg0 ∧ (discoveryHoldBegin s).cond.arg1 = s.cond.arg1 ∧
    (discoveryHoldBegin s).cond.arg2 = s.cond.arg2 ∧ (discoveryHoldBegin s).cond.tail = s.cond.tail ∧
    (discoveryHoldBegin s).cond.inReset = s.cond.inReset ∧ (discoveryHoldBegin s).afe.eff = s.afe.eff ∧
    (discoveryHoldBegin s).afe.diag = s.afe.diag ∧ (discoveryHoldBegin s).ros.sealed = s.ros.sealed ∧
    (discoveryHoldBegin s).out.gen = s.out.gen ∧ (discoveryHoldBegin s).out.span = s.out.span ∧
    (discoveryHoldBegin s).out.staged = s.out.staged ∧ (discoveryHoldBegin s).hif.i3c = s.hif.i3c ∧
    (discoveryHoldBegin s).hif.dynAddr = s.hif.dynAddr ∧ (discoveryHoldBegin s).hif.crcEn = s.hif.crcEn ∧
    (discoveryHoldBegin s).hif.txn = s.hif.txn ∧ (discoveryHoldBegin s).hif.reply = s.hif.reply ∧
    (discoveryHoldBegin s).nv.pages = s.nv.pages := by
  simp only [discoveryHoldBegin, when]
  repeat' split
  all_goals simp

@[simp] theorem idLineTimeout_inner (t : Nat) (s : State) :
    (idLineTimeout t s).tt.ctl = s.tt.ctl ∧ (idLineTimeout t s).tt.instA = s.tt.instA ∧
    (idLineTimeout t s).tt.instB = s.tt.instB ∧ (idLineTimeout t s).tt.startSec = s.tt.startSec ∧
    (idLineTimeout t s).tt.startFrac = s.tt.startFrac ∧ (idLineTimeout t s).tt.protHit = s.tt.protHit ∧
    (idLineTimeout t s).sys.phase = s.sys.phase ∧ (idLineTimeout t s).sys.cause = s.sys.cause ∧
    (idLineTimeout t s).sys.cfgState = s.sys.cfgState ∧ (idLineTimeout t s).sys.x32Run = s.sys.x32Run ∧
    (idLineTimeout t s).sys.measRst = s.sys.measRst ∧ (idLineTimeout t s).sys.earlyWr = s.sys.earlyWr ∧
    (idLineTimeout t s).sys.lostCmds = s.sys.lostCmds ∧ (idLineTimeout t s).pwr.trickle = s.pwr.trickle ∧
    (idLineTimeout t s).pwr.onVbat = s.pwr.onVbat ∧ (idLineTimeout t s).pwr.mainOn = s.pwr.mainOn ∧
    (idLineTimeout t s).pwr.aonOn = s.pwr.aonOn ∧ (idLineTimeout t s).pwr.warn = s.pwr.warn ∧
    (idLineTimeout t s).pwr.ship = s.pwr.ship ∧ (idLineTimeout t s).pwr.castleCount = s.pwr.castleCount ∧
    (idLineTimeout t s).pwr.firstValid = s.pwr.firstValid ∧ (idLineTimeout t s).pwr.firstSec = s.pwr.firstSec ∧
    (idLineTimeout t s).pwr.firstFrac = s.pwr.firstFrac ∧ (idLineTimeout t s).pwr.castlings = s.pwr.castlings ∧
    (idLineTimeout t s).cond.arg0 = s.cond.arg0 ∧ (idLineTimeout t s).cond.arg1 = s.cond.arg1 ∧
    (idLineTimeout t s).cond.arg2 = s.cond.arg2 ∧ (idLineTimeout t s).cond.tail = s.cond.tail ∧
    (idLineTimeout t s).cond.inReset = s.cond.inReset ∧ (idLineTimeout t s).afe.eff = s.afe.eff ∧
    (idLineTimeout t s).afe.diag = s.afe.diag ∧ (idLineTimeout t s).ros.sealed = s.ros.sealed ∧
    (idLineTimeout t s).out.gen = s.out.gen ∧ (idLineTimeout t s).out.span = s.out.span ∧
    (idLineTimeout t s).out.staged = s.out.staged ∧ (idLineTimeout t s).hif.i3c = s.hif.i3c ∧
    (idLineTimeout t s).hif.dynAddr = s.hif.dynAddr ∧ (idLineTimeout t s).hif.crcEn = s.hif.crcEn ∧
    (idLineTimeout t s).hif.txn = s.hif.txn ∧ (idLineTimeout t s).hif.reply = s.hif.reply ∧
    (idLineTimeout t s).nv.pages = s.nv.pages := by
  simp only [idLineTimeout, when]
  repeat' split
  all_goals simp

@[simp] theorem slotBind_inner (c : Cmd) (s : State) :
    (slotBind c s).evin.incfg = s.evin.incfg ∧ (slotBind c s).tt.ctl = s.tt.ctl ∧
    (slotBind c s).tt.instA = s.tt.instA ∧ (slotBind c s).tt.instB = s.tt.instB ∧
    (slotBind c s).tt.active = s.tt.active ∧ (slotBind c s).tt.activeValid = s.tt.activeValid ∧
    (slotBind c s).tt.startSec = s.tt.startSec ∧ (slotBind c s).tt.startFrac = s.tt.startFrac ∧
    (slotBind c s).tt.swPend = s.tt.swPend ∧ (slotBind c s).tt.protHit = s.tt.protHit ∧
    (slotBind c s).sys.phase = s.sys.phase ∧ (slotBind c s).sys.cause = s.sys.cause ∧
    (slotBind c s).sys.cfgState = s.sys.cfgState ∧ (slotBind c s).sys.x32Run = s.sys.x32Run ∧
    (slotBind c s).sys.measRst = s.sys.measRst ∧ (slotBind c s).sys.earlyWr = s.sys.earlyWr ∧
    (slotBind c s).sys.lostCmds = s.sys.lostCmds ∧ (slotBind c s).clk.src = s.clk.src ∧
    (slotBind c s).clk.limits = s.clk.limits ∧ (slotBind c s).clk.spread = s.clk.spread ∧
    (slotBind c s).clk.active = s.clk.active ∧ (slotBind c s).clk.plans = s.clk.plans ∧
    (slotBind c s).clk.drift = s.clk.drift ∧ (slotBind c s).cond.arg0 = s.cond.arg0 ∧
    (slotBind c s).cond.arg1 = s.cond.arg1 ∧ (slotBind c s).cond.arg2 = s.cond.arg2 ∧
    (slotBind c s).cond.tail = s.cond.tail ∧ (slotBind c s).cond.switches = s.cond.switches ∧
    (slotBind c s).cond.inReset = s.cond.inReset ∧ (slotBind c s).afe.ctl = s.afe.ctl ∧
    (slotBind c s).afe.eff = s.afe.eff ∧ (slotBind c s).afe.diag = s.afe.diag ∧
    (slotBind c s).ros.sealed = s.ros.sealed ∧ (slotBind c s).out.cfg = s.out.cfg ∧
    (slotBind c s).out.gen = s.out.gen ∧ (slotBind c s).out.span = s.out.span ∧
    (slotBind c s).out.staged = s.out.staged ∧ (slotBind c s).nv.pages = s.nv.pages ∧
    (slotBind c s).nv.running = s.nv.running ∧ (slotBind c s).nv.suspend = s.nv.suspend ∧
    (slotBind c s).nv.todo = s.nv.todo ∧ (slotBind c s).disc.en = s.disc.en ∧ (slotBind c s).cal.map = s.cal.map ∧
    (slotBind c s).cal.quality = s.cal.quality ∧ (slotBind c s).cal.modTrim = s.cal.modTrim ∧
    (slotBind c s).cal.evtTrim = s.cal.evtTrim ∧ (slotBind c s).cal.calibrated = s.cal.calibrated ∧
    (slotBind c s).evt.mask = s.evt.mask ∧ (slotBind c s).evt.copy = s.evt.copy := by
  have k0 := @setInstalling_frame
  have k1 := @setInstalling_inner
  simp only [slotBind, when]
  repeat' split
  all_goals simp [k0, k1]

theorem beginHold_inner (c : Cmd) (s : State) :
    (beginHold c s).evin.incfg = s.evin.incfg ∧ (beginHold c s).evin.level = s.evin.level ∧
    (beginHold c s).evin.syncLevel = s.evin.syncLevel ∧ (beginHold c s).cond.arg0 = s.cond.arg0 ∧
    (beginHold c s).cond.arg1 = s.cond.arg1 ∧ (beginHold c s).cond.arg2 = s.cond.arg2 ∧
    (beginHold c s).cond.queue = s.cond.queue ∧ (beginHold c s).cond.head = s.cond.head ∧
    (beginHold c s).cond.seq = s.cond.seq ∧ (beginHold c s).cond.tail = s.cond.tail ∧
    (beginHold c s).cond.switches = s.cond.switches ∧ (beginHold c s).cond.inReset = s.cond.inReset ∧
    (beginHold c s).cal.map = s.cal.map ∧ (beginHold c s).cal.quality = s.cal.quality ∧
    (beginHold c s).cal.modTrim = s.cal.modTrim ∧ (beginHold c s).cal.evtTrim = s.cal.evtTrim ∧
    (beginHold c s).cal.calibrated = s.cal.calibrated := by
  have k0 := @holdInputs_frame
  have k1 := @holdInputs_inner
  simp only [beginHold, when]
  repeat' split
  all_goals simp [k0, k1]

@[simp] theorem calStart_inner (c : Cmd) (s : State) :
    (calStart c s).evin.incfg = s.evin.incfg ∧ (calStart c s).tt.ctl = s.tt.ctl ∧
    (calStart c s).tt.instA = s.tt.instA ∧ (calStart c s).tt.instB = s.tt.instB ∧
    (calStart c s).tt.active = s.tt.active ∧ (calStart c s).tt.activeValid = s.tt.activeValid ∧
    (calStart c s).tt.startSec = s.tt.startSec ∧ (calStart c s).tt.startFrac = s.tt.startFrac ∧
    (calStart c s).tt.swPend = s.tt.swPend ∧ (calStart c s).tt.protHit = s.tt.protHit ∧
    (calStart c s).sys.phase = s.sys.phase ∧ (calStart c s).sys.cause = s.sys.cause ∧
    (calStart c s).sys.cfgState = s.sys.cfgState ∧ (calStart c s).sys.x32Run = s.sys.x32Run ∧
    (calStart c s).sys.measRst = s.sys.measRst ∧ (calStart c s).sys.earlyWr = s.sys.earlyWr ∧
    (calStart c s).sys.lostCmds = s.sys.lostCmds ∧ (calStart c s).clk.src = s.clk.src ∧
    (calStart c s).clk.limits = s.clk.limits ∧ (calStart c s).clk.spread = s.clk.spread ∧
    (calStart c s).clk.active = s.clk.active ∧ (calStart c s).clk.plans = s.clk.plans ∧
    (calStart c s).clk.drift = s.clk.drift ∧ (calStart c s).cond.arg0 = s.cond.arg0 ∧
    (calStart c s).cond.arg1 = s.cond.arg1 ∧ (calStart c s).cond.arg2 = s.cond.arg2 ∧
    (calStart c s).cond.tail = s.cond.tail ∧ (calStart c s).cond.switches = s.cond.switches ∧
    (calStart c s).cond.inReset = s.cond.inReset ∧ (calStart c s).afe.ctl = s.afe.ctl ∧
    (calStart c s).afe.eff = s.afe.eff ∧ (calStart c s).afe.diag = s.afe.diag ∧
    (calStart c s).ros.sealed = s.ros.sealed ∧ (calStart c s).out.cfg = s.out.cfg ∧
    (calStart c s).out.gen = s.out.gen ∧ (calStart c s).out.span = s.out.span ∧
    (calStart c s).out.staged = s.out.staged ∧ (calStart c s).nv.pages = s.nv.pages ∧
    (calStart c s).nv.running = s.nv.running ∧ (calStart c s).nv.suspend = s.nv.suspend ∧
    (calStart c s).nv.todo = s.nv.todo ∧ (calStart c s).disc.en = s.disc.en ∧ (calStart c s).cal.map = s.cal.map ∧
    (calStart c s).cal.quality = s.cal.quality ∧ (calStart c s).cal.modTrim = s.cal.modTrim ∧
    (calStart c s).cal.evtTrim = s.cal.evtTrim ∧ (calStart c s).cal.calibrated = s.cal.calibrated ∧
    (calStart c s).evt.mask = s.evt.mask ∧ (calStart c s).evt.copy = s.evt.copy := by
  have k0 := @beginHold_frame
  have k1 := @beginHold_inner
  simp only [calStart, when]
  repeat' split
  all_goals simp [k0, k1]

@[simp] theorem calHoldBegin_inner (s : State) :
    (calHoldBegin s).tt.ctl = s.tt.ctl ∧ (calHoldBegin s).tt.instA = s.tt.instA ∧
    (calHoldBegin s).tt.instB = s.tt.instB ∧ (calHoldBegin s).tt.startSec = s.tt.startSec ∧
    (calHoldBegin s).tt.startFrac = s.tt.startFrac ∧ (calHoldBegin s).tt.protHit = s.tt.protHit ∧
    (calHoldBegin s).sys.phase = s.sys.phase ∧ (calHoldBegin s).sys.cause = s.sys.cause ∧
    (calHoldBegin s).sys.cfgState = s.sys.cfgState ∧ (calHoldBegin s).sys.x32Run = s.sys.x32Run ∧
    (calHoldBegin s).sys.measRst = s.sys.measRst ∧ (calHoldBegin s).sys.earlyWr = s.sys.earlyWr ∧
    (calHoldBegin s).sys.lostCmds = s.sys.lostCmds ∧ (calHoldBegin s).pwr.trickle = s.pwr.trickle ∧
    (calHoldBegin s).pwr.onVbat = s.pwr.onVbat ∧ (calHoldBegin s).pwr.mainOn = s.pwr.mainOn ∧
    (calHoldBegin s).pwr.aonOn = s.pwr.aonOn ∧ (calHoldBegin s).pwr.warn = s.pwr.warn ∧
    (calHoldBegin s).pwr.ship = s.pwr.ship ∧ (calHoldBegin s).pwr.castleCount = s.pwr.castleCount ∧
    (calHoldBegin s).pwr.firstValid = s.pwr.firstValid ∧ (calHoldBegin s).pwr.firstSec = s.pwr.firstSec ∧
    (calHoldBegin s).pwr.firstFrac = s.pwr.firstFrac ∧ (calHoldBegin s).pwr.castlings = s.pwr.castlings ∧
    (calHoldBegin s).cond.arg0 = s.cond.arg0 ∧ (calHoldBegin s).cond.arg1 = s.cond.arg1 ∧
    (calHoldBegin s).cond.arg2 = s.cond.arg2 ∧ (calHoldBegin s).cond.tail = s.cond.tail ∧
    (calHoldBegin s).cond.inReset = s.cond.inReset ∧ (calHoldBegin s).afe.eff = s.afe.eff ∧
    (calHoldBegin s).afe.diag = s.afe.diag ∧ (calHoldBegin s).ros.sealed = s.ros.sealed ∧
    (calHoldBegin s).out.gen = s.out.gen ∧ (calHoldBegin s).out.span = s.out.span ∧
    (calHoldBegin s).out.staged = s.out.staged ∧ (calHoldBegin s).hif.i3c = s.hif.i3c ∧
    (calHoldBegin s).hif.dynAddr = s.hif.dynAddr ∧ (calHoldBegin s).hif.crcEn = s.hif.crcEn ∧
    (calHoldBegin s).hif.txn = s.hif.txn ∧ (calHoldBegin s).hif.reply = s.hif.reply ∧
    (calHoldBegin s).nv.pages = s.nv.pages := by
  have k0 := @beginHold_frame
  have k1 := @beginHold_inner
  simp only [calHoldBegin, when]
  repeat' split
  all_goals simp [k0, k1]

theorem calDone_inner (residual : Nat) (applied : Bool) (s : State) :
    (calDone residual applied s).evin.incfg = s.evin.incfg ∧ (calDone residual applied s).tt.ctl = s.tt.ctl ∧
    (calDone residual applied s).tt.instA = s.tt.instA ∧ (calDone residual applied s).tt.instB = s.tt.instB ∧
    (calDone residual applied s).tt.active = s.tt.active ∧
    (calDone residual applied s).tt.activeValid = s.tt.activeValid ∧
    (calDone residual applied s).tt.startSec = s.tt.startSec ∧
    (calDone residual applied s).tt.startFrac = s.tt.startFrac ∧
    (calDone residual applied s).tt.swPend = s.tt.swPend ∧ (calDone residual applied s).tt.protHit = s.tt.protHit ∧
    (calDone residual applied s).sys.phase = s.sys.phase ∧ (calDone residual applied s).sys.cause = s.sys.cause ∧
    (calDone residual applied s).sys.cfgState = s.sys.cfgState ∧
    (calDone residual applied s).sys.x32Run = s.sys.x32Run ∧
    (calDone residual applied s).sys.measRst = s.sys.measRst ∧
    (calDone residual applied s).sys.earlyWr = s.sys.earlyWr ∧
    (calDone residual applied s).sys.lostCmds = s.sys.lostCmds ∧ (calDone residual applied s).clk.src = s.clk.src ∧
    (calDone residual applied s).clk.limits = s.clk.limits ∧ (calDone residual applied s).clk.spread = s.clk.spread ∧
    (calDone residual applied s).clk.active = s.clk.active ∧ (calDone residual applied s).clk.plans = s.clk.plans ∧
    (calDone residual applied s).clk.drift = s.clk.drift ∧ (calDone residual applied s).cond.arg0 = s.cond.arg0 ∧
    (calDone residual applied s).cond.arg1 = s.cond.arg1 ∧ (calDone residual applied s).cond.arg2 = s.cond.arg2 ∧
    (calDone residual applied s).cond.tail = s.cond.tail ∧
    (calDone residual applied s).cond.switches = s.cond.switches ∧
    (calDone residual applied s).cond.inReset = s.cond.inReset ∧ (calDone residual applied s).afe.ctl = s.afe.ctl ∧
    (calDone residual applied s).afe.eff = s.afe.eff ∧ (calDone residual applied s).afe.diag = s.afe.diag ∧
    (calDone residual applied s).ros.sealed = s.ros.sealed ∧ (calDone residual applied s).out.cfg = s.out.cfg ∧
    (calDone residual applied s).out.gen = s.out.gen ∧ (calDone residual applied s).out.span = s.out.span ∧
    (calDone residual applied s).out.staged = s.out.staged ∧ (calDone residual applied s).nv.pages = s.nv.pages ∧
    (calDone residual applied s).nv.running = s.nv.running ∧ (calDone residual applied s).nv.suspend = s.nv.suspend ∧
    (calDone residual applied s).nv.todo = s.nv.todo ∧ (calDone residual applied s).disc.en = s.disc.en ∧
    (calDone residual applied s).cal.map = s.cal.map ∧ (calDone residual applied s).cal.quality = s.cal.quality ∧
    (calDone residual applied s).cal.modTrim = s.cal.modTrim ∧
    (calDone residual applied s).cal.evtTrim = s.cal.evtTrim ∧
    (calDone residual applied s).cal.calibrated = s.cal.calibrated ∧
    (calDone residual applied s).evt.mask = s.evt.mask ∧ (calDone residual applied s).evt.copy = s.evt.copy := by
  simp only [calDone, when]
  repeat' split
  all_goals simp

theorem applyTdc_inner (counts : List Nat) (s : State) :
    (applyTdc counts s).evin.incfg = s.evin.incfg ∧ (applyTdc counts s).tt.ctl = s.tt.ctl ∧
    (applyTdc counts s).tt.instA = s.tt.instA ∧ (applyTdc counts s).tt.instB = s.tt.instB ∧
    (applyTdc counts s).tt.active = s.tt.active ∧ (applyTdc counts s).tt.activeValid = s.tt.activeValid ∧
    (applyTdc counts s).tt.startSec = s.tt.startSec ∧ (applyTdc counts s).tt.startFrac = s.tt.startFrac ∧
    (applyTdc counts s).tt.swPend = s.tt.swPend ∧ (applyTdc counts s).tt.protHit = s.tt.protHit ∧
    (applyTdc counts s).sys.phase = s.sys.phase ∧ (applyTdc counts s).sys.cause = s.sys.cause ∧
    (applyTdc counts s).sys.cfgState = s.sys.cfgState ∧ (applyTdc counts s).sys.x32Run = s.sys.x32Run ∧
    (applyTdc counts s).sys.measRst = s.sys.measRst ∧ (applyTdc counts s).sys.earlyWr = s.sys.earlyWr ∧
    (applyTdc counts s).sys.lostCmds = s.sys.lostCmds ∧ (applyTdc counts s).clk.src = s.clk.src ∧
    (applyTdc counts s).clk.limits = s.clk.limits ∧ (applyTdc counts s).clk.spread = s.clk.spread ∧
    (applyTdc counts s).clk.active = s.clk.active ∧ (applyTdc counts s).clk.plans = s.clk.plans ∧
    (applyTdc counts s).clk.drift = s.clk.drift ∧ (applyTdc counts s).cond.arg0 = s.cond.arg0 ∧
    (applyTdc counts s).cond.arg1 = s.cond.arg1 ∧ (applyTdc counts s).cond.arg2 = s.cond.arg2 ∧
    (applyTdc counts s).cond.tail = s.cond.tail ∧ (applyTdc counts s).cond.switches = s.cond.switches ∧
    (applyTdc counts s).cond.inReset = s.cond.inReset ∧ (applyTdc counts s).afe.ctl = s.afe.ctl ∧
    (applyTdc counts s).afe.eff = s.afe.eff ∧ (applyTdc counts s).afe.diag = s.afe.diag ∧
    (applyTdc counts s).ros.sealed = s.ros.sealed ∧ (applyTdc counts s).out.cfg = s.out.cfg ∧
    (applyTdc counts s).out.gen = s.out.gen ∧ (applyTdc counts s).out.span = s.out.span ∧
    (applyTdc counts s).out.staged = s.out.staged ∧ (applyTdc counts s).nv.pages = s.nv.pages ∧
    (applyTdc counts s).nv.running = s.nv.running ∧ (applyTdc counts s).nv.suspend = s.nv.suspend ∧
    (applyTdc counts s).nv.todo = s.nv.todo ∧ (applyTdc counts s).disc.en = s.disc.en ∧
    (applyTdc counts s).cal.modTrim = s.cal.modTrim ∧ (applyTdc counts s).cal.evtTrim = s.cal.evtTrim ∧
    (applyTdc counts s).evt.mask = s.evt.mask ∧ (applyTdc counts s).evt.copy = s.evt.copy := by
  have k0 := @calDone_frame
  have k1 := @calDone_inner
  simp only [applyTdc, when]
  repeat' split
  all_goals simp [k0, k1]

theorem applyMod_inner (c : Cmd) (offsets : List Int) (trims : List Byte) (s : State) :
    (applyMod c offsets trims s).evin.incfg = s.evin.incfg ∧ (applyMod c offsets trims s).tt.ctl = s.tt.ctl ∧
    (applyMod c offsets trims s).tt.instA = s.tt.instA ∧ (applyMod c offsets trims s).tt.instB = s.tt.instB ∧
    (applyMod c offsets trims s).tt.active = s.tt.active ∧
    (applyMod c offsets trims s).tt.activeValid = s.tt.activeValid ∧
    (applyMod c offsets trims s).tt.startSec = s.tt.startSec ∧
    (applyMod c offsets trims s).tt.startFrac = s.tt.startFrac ∧
    (applyMod c offsets trims s).tt.swPend = s.tt.swPend ∧ (applyMod c offsets trims s).tt.protHit = s.tt.protHit ∧
    (applyMod c offsets trims s).sys.phase = s.sys.phase ∧ (applyMod c offsets trims s).sys.cause = s.sys.cause ∧
    (applyMod c offsets trims s).sys.cfgState = s.sys.cfgState ∧
    (applyMod c offsets trims s).sys.x32Run = s.sys.x32Run ∧
    (applyMod c offsets trims s).sys.measRst = s.sys.measRst ∧
    (applyMod c offsets trims s).sys.earlyWr = s.sys.earlyWr ∧
    (applyMod c offsets trims s).sys.lostCmds = s.sys.lostCmds ∧ (applyMod c offsets trims s).clk.src = s.clk.src ∧
    (applyMod c offsets trims s).clk.limits = s.clk.limits ∧ (applyMod c offsets trims s).clk.spread = s.clk.spread ∧
    (applyMod c offsets trims s).clk.active = s.clk.active ∧ (applyMod c offsets trims s).clk.plans = s.clk.plans ∧
    (applyMod c offsets trims s).clk.drift = s.clk.drift ∧ (applyMod c offsets trims s).cond.arg0 = s.cond.arg0 ∧
    (applyMod c offsets trims s).cond.arg1 = s.cond.arg1 ∧ (applyMod c offsets trims s).cond.arg2 = s.cond.arg2 ∧
    (applyMod c offsets trims s).cond.tail = s.cond.tail ∧
    (applyMod c offsets trims s).cond.switches = s.cond.switches ∧
    (applyMod c offsets trims s).cond.inReset = s.cond.inReset ∧ (applyMod c offsets trims s).afe.ctl = s.afe.ctl ∧
    (applyMod c offsets trims s).afe.eff = s.afe.eff ∧ (applyMod c offsets trims s).afe.diag = s.afe.diag ∧
    (applyMod c offsets trims s).ros.sealed = s.ros.sealed ∧ (applyMod c offsets trims s).out.cfg = s.out.cfg ∧
    (applyMod c offsets trims s).out.gen = s.out.gen ∧ (applyMod c offsets trims s).out.span = s.out.span ∧
    (applyMod c offsets trims s).out.staged = s.out.staged ∧ (applyMod c offsets trims s).nv.pages = s.nv.pages ∧
    (applyMod c offsets trims s).nv.running = s.nv.running ∧ (applyMod c offsets trims s).nv.suspend = s.nv.suspend ∧
    (applyMod c offsets trims s).nv.todo = s.nv.todo ∧ (applyMod c offsets trims s).disc.en = s.disc.en ∧
    (applyMod c offsets trims s).cal.map = s.cal.map ∧ (applyMod c offsets trims s).cal.evtTrim = s.cal.evtTrim ∧
    (applyMod c offsets trims s).evt.mask = s.evt.mask ∧ (applyMod c offsets trims s).evt.copy = s.evt.copy := by
  have k0 := @calDone_frame
  have k1 := @calDone_inner
  simp only [applyMod, when]
  repeat' split
  all_goals simp [k0, k1]

theorem applyEvt_inner (c : Cmd) (ths : List (Nat × Nat)) (trims : List Byte) (s : State) :
    (applyEvt c ths trims s).evin.incfg = s.evin.incfg ∧ (applyEvt c ths trims s).tt.ctl = s.tt.ctl ∧
    (applyEvt c ths trims s).tt.instA = s.tt.instA ∧ (applyEvt c ths trims s).tt.instB = s.tt.instB ∧
    (applyEvt c ths trims s).tt.active = s.tt.active ∧ (applyEvt c ths trims s).tt.activeValid = s.tt.activeValid ∧
    (applyEvt c ths trims s).tt.startSec = s.tt.startSec ∧ (applyEvt c ths trims s).tt.startFrac = s.tt.startFrac ∧
    (applyEvt c ths trims s).tt.swPend = s.tt.swPend ∧ (applyEvt c ths trims s).tt.protHit = s.tt.protHit ∧
    (applyEvt c ths trims s).sys.phase = s.sys.phase ∧ (applyEvt c ths trims s).sys.cause = s.sys.cause ∧
    (applyEvt c ths trims s).sys.cfgState = s.sys.cfgState ∧ (applyEvt c ths trims s).sys.x32Run = s.sys.x32Run ∧
    (applyEvt c ths trims s).sys.measRst = s.sys.measRst ∧ (applyEvt c ths trims s).sys.earlyWr = s.sys.earlyWr ∧
    (applyEvt c ths trims s).sys.lostCmds = s.sys.lostCmds ∧ (applyEvt c ths trims s).clk.src = s.clk.src ∧
    (applyEvt c ths trims s).clk.limits = s.clk.limits ∧ (applyEvt c ths trims s).clk.spread = s.clk.spread ∧
    (applyEvt c ths trims s).clk.active = s.clk.active ∧ (applyEvt c ths trims s).clk.plans = s.clk.plans ∧
    (applyEvt c ths trims s).clk.drift = s.clk.drift ∧ (applyEvt c ths trims s).cond.arg0 = s.cond.arg0 ∧
    (applyEvt c ths trims s).cond.arg1 = s.cond.arg1 ∧ (applyEvt c ths trims s).cond.arg2 = s.cond.arg2 ∧
    (applyEvt c ths trims s).cond.tail = s.cond.tail ∧ (applyEvt c ths trims s).cond.switches = s.cond.switches ∧
    (applyEvt c ths trims s).cond.inReset = s.cond.inReset ∧ (applyEvt c ths trims s).afe.ctl = s.afe.ctl ∧
    (applyEvt c ths trims s).afe.eff = s.afe.eff ∧ (applyEvt c ths trims s).afe.diag = s.afe.diag ∧
    (applyEvt c ths trims s).ros.sealed = s.ros.sealed ∧ (applyEvt c ths trims s).out.cfg = s.out.cfg ∧
    (applyEvt c ths trims s).out.gen = s.out.gen ∧ (applyEvt c ths trims s).out.span = s.out.span ∧
    (applyEvt c ths trims s).out.staged = s.out.staged ∧ (applyEvt c ths trims s).nv.pages = s.nv.pages ∧
    (applyEvt c ths trims s).nv.running = s.nv.running ∧ (applyEvt c ths trims s).nv.suspend = s.nv.suspend ∧
    (applyEvt c ths trims s).nv.todo = s.nv.todo ∧ (applyEvt c ths trims s).disc.en = s.disc.en ∧
    (applyEvt c ths trims s).cal.map = s.cal.map ∧ (applyEvt c ths trims s).cal.modTrim = s.cal.modTrim ∧
    (applyEvt c ths trims s).evt.mask = s.evt.mask ∧ (applyEvt c ths trims s).evt.copy = s.evt.copy := by
  have k0 := @calDone_frame
  have k1 := @calDone_inner
  simp only [applyEvt, when]
  repeat' split
  all_goals simp [k0, k1]

theorem applyMeasured_inner (c : Cmd) (m : Measured) (s : State) :
    (applyMeasured c m s).evin.incfg = s.evin.incfg ∧ (applyMeasured c m s).tt.ctl = s.tt.ctl ∧
    (applyMeasured c m s).tt.instA = s.tt.instA ∧ (applyMeasured c m s).tt.instB = s.tt.instB ∧
    (applyMeasured c m s).tt.active = s.tt.active ∧ (applyMeasured c m s).tt.activeValid = s.tt.activeValid ∧
    (applyMeasured c m s).tt.startSec = s.tt.startSec ∧ (applyMeasured c m s).tt.startFrac = s.tt.startFrac ∧
    (applyMeasured c m s).tt.swPend = s.tt.swPend ∧ (applyMeasured c m s).tt.protHit = s.tt.protHit ∧
    (applyMeasured c m s).sys.phase = s.sys.phase ∧ (applyMeasured c m s).sys.cause = s.sys.cause ∧
    (applyMeasured c m s).sys.cfgState = s.sys.cfgState ∧ (applyMeasured c m s).sys.x32Run = s.sys.x32Run ∧
    (applyMeasured c m s).sys.measRst = s.sys.measRst ∧ (applyMeasured c m s).sys.earlyWr = s.sys.earlyWr ∧
    (applyMeasured c m s).sys.lostCmds = s.sys.lostCmds ∧ (applyMeasured c m s).clk.src = s.clk.src ∧
    (applyMeasured c m s).clk.limits = s.clk.limits ∧ (applyMeasured c m s).clk.spread = s.clk.spread ∧
    (applyMeasured c m s).clk.active = s.clk.active ∧ (applyMeasured c m s).clk.plans = s.clk.plans ∧
    (applyMeasured c m s).clk.drift = s.clk.drift ∧ (applyMeasured c m s).cond.arg0 = s.cond.arg0 ∧
    (applyMeasured c m s).cond.arg1 = s.cond.arg1 ∧ (applyMeasured c m s).cond.arg2 = s.cond.arg2 ∧
    (applyMeasured c m s).cond.tail = s.cond.tail ∧ (applyMeasured c m s).cond.switches = s.cond.switches ∧
    (applyMeasured c m s).cond.inReset = s.cond.inReset ∧ (applyMeasured c m s).afe.ctl = s.afe.ctl ∧
    (applyMeasured c m s).afe.eff = s.afe.eff ∧ (applyMeasured c m s).afe.diag = s.afe.diag ∧
    (applyMeasured c m s).ros.sealed = s.ros.sealed ∧ (applyMeasured c m s).out.cfg = s.out.cfg ∧
    (applyMeasured c m s).out.gen = s.out.gen ∧ (applyMeasured c m s).out.span = s.out.span ∧
    (applyMeasured c m s).out.staged = s.out.staged ∧ (applyMeasured c m s).nv.pages = s.nv.pages ∧
    (applyMeasured c m s).nv.running = s.nv.running ∧ (applyMeasured c m s).nv.suspend = s.nv.suspend ∧
    (applyMeasured c m s).nv.todo = s.nv.todo ∧ (applyMeasured c m s).disc.en = s.disc.en ∧
    (applyMeasured c m s).evt.mask = s.evt.mask ∧ (applyMeasured c m s).evt.copy = s.evt.copy := by
  have k0 := @applyEvt_frame
  have k1 := @applyEvt_inner
  have k2 := @applyMod_frame
  have k3 := @applyMod_inner
  have k4 := @applyTdc_frame
  have k5 := @applyTdc_inner
  have k6 := @finishSelftest_frame
  have k7 := @finishSelftest_inner
  simp only [applyMeasured, when]
  repeat' split
  all_goals simp [k0, k1, k2, k3, k4, k5, k6, k7]

@[simp] theorem calResultApply_inner (m : Measured) (t : Nat) (s : State) :
    (calResultApply m t s).tt.ctl = s.tt.ctl ∧ (calResultApply m t s).tt.instA = s.tt.instA ∧
    (calResultApply m t s).tt.instB = s.tt.instB ∧ (calResultApply m t s).tt.startSec = s.tt.startSec ∧
    (calResultApply m t s).tt.startFrac = s.tt.startFrac ∧ (calResultApply m t s).tt.protHit = s.tt.protHit ∧
    (calResultApply m t s).sys.phase = s.sys.phase ∧ (calResultApply m t s).sys.cause = s.sys.cause ∧
    (calResultApply m t s).sys.cfgState = s.sys.cfgState ∧ (calResultApply m t s).sys.x32Run = s.sys.x32Run ∧
    (calResultApply m t s).sys.measRst = s.sys.measRst ∧ (calResultApply m t s).sys.earlyWr = s.sys.earlyWr ∧
    (calResultApply m t s).sys.lostCmds = s.sys.lostCmds ∧ (calResultApply m t s).pwr.trickle = s.pwr.trickle ∧
    (calResultApply m t s).pwr.onVbat = s.pwr.onVbat ∧ (calResultApply m t s).pwr.mainOn = s.pwr.mainOn ∧
    (calResultApply m t s).pwr.aonOn = s.pwr.aonOn ∧ (calResultApply m t s).pwr.warn = s.pwr.warn ∧
    (calResultApply m t s).pwr.ship = s.pwr.ship ∧ (calResultApply m t s).pwr.castleCount = s.pwr.castleCount ∧
    (calResultApply m t s).pwr.firstValid = s.pwr.firstValid ∧ (calResultApply m t s).pwr.firstSec = s.pwr.firstSec ∧
    (calResultApply m t s).pwr.firstFrac = s.pwr.firstFrac ∧ (calResultApply m t s).pwr.castlings = s.pwr.castlings ∧
    (calResultApply m t s).cond.arg0 = s.cond.arg0 ∧ (calResultApply m t s).cond.arg1 = s.cond.arg1 ∧
    (calResultApply m t s).cond.arg2 = s.cond.arg2 ∧ (calResultApply m t s).cond.tail = s.cond.tail ∧
    (calResultApply m t s).cond.inReset = s.cond.inReset ∧ (calResultApply m t s).afe.eff = s.afe.eff ∧
    (calResultApply m t s).afe.diag = s.afe.diag ∧ (calResultApply m t s).ros.sealed = s.ros.sealed ∧
    (calResultApply m t s).out.gen = s.out.gen ∧ (calResultApply m t s).out.span = s.out.span ∧
    (calResultApply m t s).out.staged = s.out.staged ∧ (calResultApply m t s).hif.i3c = s.hif.i3c ∧
    (calResultApply m t s).hif.dynAddr = s.hif.dynAddr ∧ (calResultApply m t s).hif.crcEn = s.hif.crcEn ∧
    (calResultApply m t s).hif.txn = s.hif.txn ∧ (calResultApply m t s).hif.reply = s.hif.reply ∧
    (calResultApply m t s).nv.pages = s.nv.pages := by
  have k0 := @applyMeasured_frame
  have k1 := @applyMeasured_inner
  simp only [calResultApply, when]
  repeat' split
  all_goals simp [k0, k1]

theorem nvTestReads_inner (s : State) :
    (nvTestReads s).nv.pages = s.nv.pages ∧ (nvTestReads s).nv.op = s.nv.op ∧
    (nvTestReads s).nv.running = s.nv.running ∧ (nvTestReads s).nv.suspend = s.nv.suspend ∧
    (nvTestReads s).evt.mask = s.evt.mask ∧ (nvTestReads s).evt.copy = s.evt.copy := by
  simp only [nvTestReads, when]
  repeat' split
  all_goals simp

theorem testClock_inner (c : Cmd) (s : State) :
    (testClock c s).evin.incfg = s.evin.incfg ∧ (testClock c s).evin.level = s.evin.level ∧
    (testClock c s).evin.syncLevel = s.evin.syncLevel ∧ (testClock c s).tt.ctl = s.tt.ctl ∧
    (testClock c s).tt.instA = s.tt.instA ∧ (testClock c s).tt.instB = s.tt.instB ∧
    (testClock c s).tt.active = s.tt.active ∧ (testClock c s).tt.activeValid = s.tt.activeValid ∧
    (testClock c s).tt.startSec = s.tt.startSec ∧ (testClock c s).tt.startFrac = s.tt.startFrac ∧
    (testClock c s).tt.swPend = s.tt.swPend ∧ (testClock c s).tt.protHit = s.tt.protHit ∧
    (testClock c s).clk.src = s.clk.src ∧ (testClock c s).clk.limits = s.clk.limits ∧
    (testClock c s).clk.spread = s.clk.spread ∧ (testClock c s).clk.active = s.clk.active ∧
    (testClock c s).clk.plans = s.clk.plans ∧ (testClock c s).clk.drift = s.clk.drift ∧
    (testClock c s).afe.ctl = s.afe.ctl ∧ (testClock c s).afe.eff = s.afe.eff ∧
    (testClock c s).afe.diag = s.afe.diag ∧ (testClock c s).ros.sealed = s.ros.sealed ∧
    (testClock c s).evt.mask = s.evt.mask ∧ (testClock c s).evt.copy = s.evt.copy := by
  simp only [testClock, when]
  repeat' split
  all_goals simp

@[simp] theorem selftest_inner (failed : BitVec 11) (c : Cmd) (s : State) :
    (selftest failed c s).evin.incfg = s.evin.incfg ∧ (selftest failed c s).tt.ctl = s.tt.ctl ∧
    (selftest failed c s).tt.instA = s.tt.instA ∧ (selftest failed c s).tt.instB = s.tt.instB ∧
    (selftest failed c s).tt.active = s.tt.active ∧ (selftest failed c s).tt.activeValid = s.tt.activeValid ∧
    (selftest failed c s).tt.startSec = s.tt.startSec ∧ (selftest failed c s).tt.startFrac = s.tt.startFrac ∧
    (selftest failed c s).tt.swPend = s.tt.swPend ∧ (selftest failed c s).tt.protHit = s.tt.protHit ∧
    (selftest failed c s).sys.phase = s.sys.phase ∧ (selftest failed c s).sys.cause = s.sys.cause ∧
    (selftest failed c s).sys.cfgState = s.sys.cfgState ∧ (selftest failed c s).sys.x32Run = s.sys.x32Run ∧
    (selftest failed c s).sys.measRst = s.sys.measRst ∧ (selftest failed c s).sys.earlyWr = s.sys.earlyWr ∧
    (selftest failed c s).sys.lostCmds = s.sys.lostCmds ∧ (selftest failed c s).clk.src = s.clk.src ∧
    (selftest failed c s).clk.limits = s.clk.limits ∧ (selftest failed c s).clk.spread = s.clk.spread ∧
    (selftest failed c s).clk.active = s.clk.active ∧ (selftest failed c s).clk.plans = s.clk.plans ∧
    (selftest failed c s).clk.drift = s.clk.drift ∧ (selftest failed c s).cond.arg0 = s.cond.arg0 ∧
    (selftest failed c s).cond.arg1 = s.cond.arg1 ∧ (selftest failed c s).cond.arg2 = s.cond.arg2 ∧
    (selftest failed c s).cond.tail = s.cond.tail ∧ (selftest failed c s).cond.switches = s.cond.switches ∧
    (selftest failed c s).cond.inReset = s.cond.inReset ∧ (selftest failed c s).afe.ctl = s.afe.ctl ∧
    (selftest failed c s).afe.eff = s.afe.eff ∧ (selftest failed c s).afe.diag = s.afe.diag ∧
    (selftest failed c s).ros.sealed = s.ros.sealed ∧ (selftest failed c s).out.cfg = s.out.cfg ∧
    (selftest failed c s).out.gen = s.out.gen ∧ (selftest failed c s).out.span = s.out.span ∧
    (selftest failed c s).out.staged = s.out.staged ∧ (selftest failed c s).nv.pages = s.nv.pages ∧
    (selftest failed c s).nv.running = s.nv.running ∧ (selftest failed c s).nv.suspend = s.nv.suspend ∧
    (selftest failed c s).disc.en = s.disc.en ∧ (selftest failed c s).cal.map = s.cal.map ∧
    (selftest failed c s).cal.quality = s.cal.quality ∧ (selftest failed c s).cal.modTrim = s.cal.modTrim ∧
    (selftest failed c s).cal.evtTrim = s.cal.evtTrim ∧ (selftest failed c s).cal.calibrated = s.cal.calibrated ∧
    (selftest failed c s).evt.mask = s.evt.mask ∧ (selftest failed c s).evt.copy = s.evt.copy := by
  have k0 := @beginHold_frame
  have k1 := @beginHold_inner
  have k2 := @finishSelftest_frame
  have k3 := @finishSelftest_inner
  have k4 := @nvTestReads_frame
  have k5 := @nvTestReads_inner
  have k6 := @testClock_frame
  have k7 := @testClock_inner
  simp only [selftest, when]
  repeat' split
  all_goals simp [k0, k1, k2, k3, k4, k5, k6, k7]

@[simp] theorem nvRead_inner (c : Cmd) (s : State) :
    (nvRead c s).evin.incfg = s.evin.incfg ∧ (nvRead c s).tt.ctl = s.tt.ctl ∧ (nvRead c s).tt.instA = s.tt.instA ∧
    (nvRead c s).tt.instB = s.tt.instB ∧ (nvRead c s).tt.active = s.tt.active ∧
    (nvRead c s).tt.activeValid = s.tt.activeValid ∧ (nvRead c s).tt.startSec = s.tt.startSec ∧
    (nvRead c s).tt.startFrac = s.tt.startFrac ∧ (nvRead c s).tt.swPend = s.tt.swPend ∧
    (nvRead c s).tt.protHit = s.tt.protHit ∧ (nvRead c s).sys.phase = s.sys.phase ∧
    (nvRead c s).sys.cause = s.sys.cause ∧ (nvRead c s).sys.cfgState = s.sys.cfgState ∧
    (nvRead c s).sys.x32Run = s.sys.x32Run ∧ (nvRead c s).sys.measRst = s.sys.measRst ∧
    (nvRead c s).sys.earlyWr = s.sys.earlyWr ∧ (nvRead c s).sys.lostCmds = s.sys.lostCmds ∧
    (nvRead c s).clk.src = s.clk.src ∧ (nvRead c s).clk.limits = s.clk.limits ∧
    (nvRead c s).clk.spread = s.clk.spread ∧ (nvRead c s).clk.active = s.clk.active ∧
    (nvRead c s).clk.plans = s.clk.plans ∧ (nvRead c s).clk.drift = s.clk.drift ∧
    (nvRead c s).cond.arg0 = s.cond.arg0 ∧ (nvRead c s).cond.arg1 = s.cond.arg1 ∧
    (nvRead c s).cond.arg2 = s.cond.arg2 ∧ (nvRead c s).cond.tail = s.cond.tail ∧
    (nvRead c s).cond.switches = s.cond.switches ∧ (nvRead c s).cond.inReset = s.cond.inReset ∧
    (nvRead c s).afe.ctl = s.afe.ctl ∧ (nvRead c s).afe.eff = s.afe.eff ∧ (nvRead c s).afe.diag = s.afe.diag ∧
    (nvRead c s).ros.sealed = s.ros.sealed ∧ (nvRead c s).out.cfg = s.out.cfg ∧ (nvRead c s).out.gen = s.out.gen ∧
    (nvRead c s).out.span = s.out.span ∧ (nvRead c s).out.staged = s.out.staged ∧ (nvRead c s).nv.pages = s.nv.pages ∧
    (nvRead c s).nv.running = s.nv.running ∧ (nvRead c s).nv.suspend = s.nv.suspend ∧
    (nvRead c s).nv.todo = s.nv.todo ∧ (nvRead c s).disc.en = s.disc.en ∧ (nvRead c s).cal.map = s.cal.map ∧
    (nvRead c s).cal.quality = s.cal.quality ∧ (nvRead c s).cal.modTrim = s.cal.modTrim ∧
    (nvRead c s).cal.evtTrim = s.cal.evtTrim ∧ (nvRead c s).cal.calibrated = s.cal.calibrated ∧
    (nvRead c s).evt.mask = s.evt.mask ∧ (nvRead c s).evt.copy = s.evt.copy := by
  simp only [nvRead, when]
  repeat' split
  all_goals simp

@[simp] theorem nvWrite_inner (c : Cmd) (s : State) :
    (nvWrite c s).evin.incfg = s.evin.incfg ∧ (nvWrite c s).tt.ctl = s.tt.ctl ∧ (nvWrite c s).tt.instA = s.tt.instA ∧
    (nvWrite c s).tt.instB = s.tt.instB ∧ (nvWrite c s).tt.active = s.tt.active ∧
    (nvWrite c s).tt.activeValid = s.tt.activeValid ∧ (nvWrite c s).tt.startSec = s.tt.startSec ∧
    (nvWrite c s).tt.startFrac = s.tt.startFrac ∧ (nvWrite c s).tt.swPend = s.tt.swPend ∧
    (nvWrite c s).tt.protHit = s.tt.protHit ∧ (nvWrite c s).sys.phase = s.sys.phase ∧
    (nvWrite c s).sys.cause = s.sys.cause ∧ (nvWrite c s).sys.cfgState = s.sys.cfgState ∧
    (nvWrite c s).sys.x32Run = s.sys.x32Run ∧ (nvWrite c s).sys.measRst = s.sys.measRst ∧
    (nvWrite c s).sys.earlyWr = s.sys.earlyWr ∧ (nvWrite c s).sys.lostCmds = s.sys.lostCmds ∧
    (nvWrite c s).clk.src = s.clk.src ∧ (nvWrite c s).clk.limits = s.clk.limits ∧
    (nvWrite c s).clk.spread = s.clk.spread ∧ (nvWrite c s).clk.active = s.clk.active ∧
    (nvWrite c s).clk.plans = s.clk.plans ∧ (nvWrite c s).clk.drift = s.clk.drift ∧
    (nvWrite c s).cond.arg0 = s.cond.arg0 ∧ (nvWrite c s).cond.arg1 = s.cond.arg1 ∧
    (nvWrite c s).cond.arg2 = s.cond.arg2 ∧ (nvWrite c s).cond.tail = s.cond.tail ∧
    (nvWrite c s).cond.switches = s.cond.switches ∧ (nvWrite c s).cond.inReset = s.cond.inReset ∧
    (nvWrite c s).afe.ctl = s.afe.ctl ∧ (nvWrite c s).afe.eff = s.afe.eff ∧ (nvWrite c s).afe.diag = s.afe.diag ∧
    (nvWrite c s).ros.sealed = s.ros.sealed ∧ (nvWrite c s).out.cfg = s.out.cfg ∧ (nvWrite c s).out.gen = s.out.gen ∧
    (nvWrite c s).out.span = s.out.span ∧ (nvWrite c s).out.staged = s.out.staged ∧
    (nvWrite c s).nv.pages = s.nv.pages ∧ (nvWrite c s).nv.running = s.nv.running ∧
    (nvWrite c s).nv.suspend = s.nv.suspend ∧ (nvWrite c s).nv.todo = s.nv.todo ∧ (nvWrite c s).disc.en = s.disc.en ∧
    (nvWrite c s).cal.map = s.cal.map ∧ (nvWrite c s).cal.quality = s.cal.quality ∧
    (nvWrite c s).cal.modTrim = s.cal.modTrim ∧ (nvWrite c s).cal.evtTrim = s.cal.evtTrim ∧
    (nvWrite c s).cal.calibrated = s.cal.calibrated ∧ (nvWrite c s).evt.mask = s.evt.mask ∧
    (nvWrite c s).evt.copy = s.evt.copy := by
  simp only [nvWrite, when]
  repeat' split
  all_goals simp

theorem startClear_inner (c : Cmd) (todo : List Nat) (first count : Nat) (sec : Word) (s : State) :
    (startClear c todo first count sec s).cond.arg0 = s.cond.arg0 ∧
    (startClear c todo first count sec s).cond.arg1 = s.cond.arg1 ∧
    (startClear c todo first count sec s).cond.arg2 = s.cond.arg2 ∧
    (startClear c todo first count sec s).cond.queue = s.cond.queue ∧
    (startClear c todo first count sec s).cond.head = s.cond.head ∧
    (startClear c todo first count sec s).cond.seq = s.cond.seq ∧
    (startClear c todo first count sec s).cond.tail = s.cond.tail ∧
    (startClear c todo first count sec s).cond.switches = s.cond.switches ∧
    (startClear c todo first count sec s).cond.inReset = s.cond.inReset ∧
    (startClear c todo first count sec s).nv.pages = s.nv.pages ∧
    (startClear c todo first count sec s).nv.op = s.nv.op ∧
    (startClear c todo first count sec s).nv.suspend = s.nv.suspend ∧
    (startClear c todo first count sec s).nv.todo = s.nv.todo := by
  simp only [startClear, when]
  repeat' split
  all_goals simp

@[simp] theorem nvClear_inner (c : Cmd) (s : State) :
    (nvClear c s).evin.incfg = s.evin.incfg ∧ (nvClear c s).tt.ctl = s.tt.ctl ∧ (nvClear c s).tt.instA = s.tt.instA ∧
    (nvClear c s).tt.instB = s.tt.instB ∧ (nvClear c s).tt.active = s.tt.active ∧
    (nvClear c s).tt.activeValid = s.tt.activeValid ∧ (nvClear c s).tt.startSec = s.tt.startSec ∧
    (nvClear c s).tt.startFrac = s.tt.startFrac ∧ (nvClear c s).tt.swPend = s.tt.swPend ∧
    (nvClear c s).tt.protHit = s.tt.protHit ∧ (nvClear c s).sys.phase = s.sys.phase ∧
    (nvClear c s).sys.cause = s.sys.cause ∧ (nvClear c s).sys.cfgState = s.sys.cfgState ∧
    (nvClear c s).sys.x32Run = s.sys.x32Run ∧ (nvClear c s).sys.measRst = s.sys.measRst ∧
    (nvClear c s).sys.earlyWr = s.sys.earlyWr ∧ (nvClear c s).sys.lostCmds = s.sys.lostCmds ∧
    (nvClear c s).clk.src = s.clk.src ∧ (nvClear c s).clk.limits = s.clk.limits ∧
    (nvClear c s).clk.spread = s.clk.spread ∧ (nvClear c s).clk.active = s.clk.active ∧
    (nvClear c s).clk.plans = s.clk.plans ∧ (nvClear c s).clk.drift = s.clk.drift ∧
    (nvClear c s).cond.arg0 = s.cond.arg0 ∧ (nvClear c s).cond.arg1 = s.cond.arg1 ∧
    (nvClear c s).cond.arg2 = s.cond.arg2 ∧ (nvClear c s).cond.tail = s.cond.tail ∧
    (nvClear c s).cond.switches = s.cond.switches ∧ (nvClear c s).cond.inReset = s.cond.inReset ∧
    (nvClear c s).afe.ctl = s.afe.ctl ∧ (nvClear c s).afe.eff = s.afe.eff ∧ (nvClear c s).afe.diag = s.afe.diag ∧
    (nvClear c s).ros.sealed = s.ros.sealed ∧ (nvClear c s).out.cfg = s.out.cfg ∧ (nvClear c s).out.gen = s.out.gen ∧
    (nvClear c s).out.span = s.out.span ∧ (nvClear c s).out.staged = s.out.staged ∧
    (nvClear c s).nv.pages = s.nv.pages ∧ (nvClear c s).nv.suspend = s.nv.suspend ∧
    (nvClear c s).nv.todo = s.nv.todo ∧ (nvClear c s).disc.en = s.disc.en ∧ (nvClear c s).cal.map = s.cal.map ∧
    (nvClear c s).cal.quality = s.cal.quality ∧ (nvClear c s).cal.modTrim = s.cal.modTrim ∧
    (nvClear c s).cal.evtTrim = s.cal.evtTrim ∧ (nvClear c s).cal.calibrated = s.cal.calibrated ∧
    (nvClear c s).evt.mask = s.evt.mask ∧ (nvClear c s).evt.copy = s.evt.copy := by
  have k0 := @startClear_frame
  have k1 := @startClear_inner
  simp only [nvClear, when]
  repeat' split
  all_goals simp [k0, k1]

@[simp] theorem nvResume_inner (c : Cmd) (s : State) :
    (nvResume c s).evin.incfg = s.evin.incfg ∧ (nvResume c s).tt.ctl = s.tt.ctl ∧
    (nvResume c s).tt.instA = s.tt.instA ∧ (nvResume c s).tt.instB = s.tt.instB ∧
    (nvResume c s).tt.active = s.tt.active ∧ (nvResume c s).tt.activeValid = s.tt.activeValid ∧
    (nvResume c s).tt.startSec = s.tt.startSec ∧ (nvResume c s).tt.startFrac = s.tt.startFrac ∧
    (nvResume c s).tt.swPend = s.tt.swPend ∧ (nvResume c s).tt.protHit = s.tt.protHit ∧
    (nvResume c s).sys.phase = s.sys.phase ∧ (nvResume c s).sys.cause = s.sys.cause ∧
    (nvResume c s).sys.cfgState = s.sys.cfgState ∧ (nvResume c s).sys.x32Run = s.sys.x32Run ∧
    (nvResume c s).sys.measRst = s.sys.measRst ∧ (nvResume c s).sys.earlyWr = s.sys.earlyWr ∧
    (nvResume c s).sys.lostCmds = s.sys.lostCmds ∧ (nvResume c s).clk.src = s.clk.src ∧
    (nvResume c s).clk.limits = s.clk.limits ∧ (nvResume c s).clk.spread = s.clk.spread ∧
    (nvResume c s).clk.active = s.clk.active ∧ (nvResume c s).clk.plans = s.clk.plans ∧
    (nvResume c s).clk.drift = s.clk.drift ∧ (nvResume c s).cond.arg0 = s.cond.arg0 ∧
    (nvResume c s).cond.arg1 = s.cond.arg1 ∧ (nvResume c s).cond.arg2 = s.cond.arg2 ∧
    (nvResume c s).cond.tail = s.cond.tail ∧ (nvResume c s).cond.switches = s.cond.switches ∧
    (nvResume c s).cond.inReset = s.cond.inReset ∧ (nvResume c s).afe.ctl = s.afe.ctl ∧
    (nvResume c s).afe.eff = s.afe.eff ∧ (nvResume c s).afe.diag = s.afe.diag ∧
    (nvResume c s).ros.sealed = s.ros.sealed ∧ (nvResume c s).out.cfg = s.out.cfg ∧
    (nvResume c s).out.gen = s.out.gen ∧ (nvResume c s).out.span = s.out.span ∧
    (nvResume c s).out.staged = s.out.staged ∧ (nvResume c s).nv.pages = s.nv.pages ∧
    (nvResume c s).nv.suspend = s.nv.suspend ∧ (nvResume c s).nv.todo = s.nv.todo ∧
    (nvResume c s).disc.en = s.disc.en ∧ (nvResume c s).cal.map = s.cal.map ∧
    (nvResume c s).cal.quality = s.cal.quality ∧ (nvResume c s).cal.modTrim = s.cal.modTrim ∧
    (nvResume c s).cal.evtTrim = s.cal.evtTrim ∧ (nvResume c s).cal.calibrated = s.cal.calibrated ∧
    (nvResume c s).evt.mask = s.evt.mask ∧ (nvResume c s).evt.copy = s.evt.copy := by
  have k0 := @startClear_frame
  have k1 := @startClear_inner
  simp only [nvResume, when]
  repeat' split
  all_goals simp [k0, k1]

@[simp] theorem nvAbandon_inner (c : Cmd) (s : State) :
    (nvAbandon c s).evin.incfg = s.evin.incfg ∧ (nvAbandon c s).tt.ctl = s.tt.ctl ∧
    (nvAbandon c s).tt.instA = s.tt.instA ∧ (nvAbandon c s).tt.instB = s.tt.instB ∧
    (nvAbandon c s).tt.active = s.tt.active ∧ (nvAbandon c s).tt.activeValid = s.tt.activeValid ∧
    (nvAbandon c s).tt.startSec = s.tt.startSec ∧ (nvAbandon c s).tt.startFrac = s.tt.startFrac ∧
    (nvAbandon c s).tt.swPend = s.tt.swPend ∧ (nvAbandon c s).tt.protHit = s.tt.protHit ∧
    (nvAbandon c s).sys.phase = s.sys.phase ∧ (nvAbandon c s).sys.cause = s.sys.cause ∧
    (nvAbandon c s).sys.cfgState = s.sys.cfgState ∧ (nvAbandon c s).sys.x32Run = s.sys.x32Run ∧
    (nvAbandon c s).sys.measRst = s.sys.measRst ∧ (nvAbandon c s).sys.earlyWr = s.sys.earlyWr ∧
    (nvAbandon c s).sys.lostCmds = s.sys.lostCmds ∧ (nvAbandon c s).clk.src = s.clk.src ∧
    (nvAbandon c s).clk.limits = s.clk.limits ∧ (nvAbandon c s).clk.spread = s.clk.spread ∧
    (nvAbandon c s).clk.active = s.clk.active ∧ (nvAbandon c s).clk.plans = s.clk.plans ∧
    (nvAbandon c s).clk.drift = s.clk.drift ∧ (nvAbandon c s).cond.arg0 = s.cond.arg0 ∧
    (nvAbandon c s).cond.arg1 = s.cond.arg1 ∧ (nvAbandon c s).cond.arg2 = s.cond.arg2 ∧
    (nvAbandon c s).cond.tail = s.cond.tail ∧ (nvAbandon c s).cond.switches = s.cond.switches ∧
    (nvAbandon c s).cond.inReset = s.cond.inReset ∧ (nvAbandon c s).afe.ctl = s.afe.ctl ∧
    (nvAbandon c s).afe.eff = s.afe.eff ∧ (nvAbandon c s).afe.diag = s.afe.diag ∧
    (nvAbandon c s).ros.sealed = s.ros.sealed ∧ (nvAbandon c s).out.cfg = s.out.cfg ∧
    (nvAbandon c s).out.gen = s.out.gen ∧ (nvAbandon c s).out.span = s.out.span ∧
    (nvAbandon c s).out.staged = s.out.staged ∧ (nvAbandon c s).nv.pages = s.nv.pages ∧
    (nvAbandon c s).nv.running = s.nv.running ∧ (nvAbandon c s).nv.suspend = s.nv.suspend ∧
    (nvAbandon c s).nv.todo = s.nv.todo ∧ (nvAbandon c s).disc.en = s.disc.en ∧ (nvAbandon c s).cal.map = s.cal.map ∧
    (nvAbandon c s).cal.quality = s.cal.quality ∧ (nvAbandon c s).cal.modTrim = s.cal.modTrim ∧
    (nvAbandon c s).cal.evtTrim = s.cal.evtTrim ∧ (nvAbandon c s).cal.calibrated = s.cal.calibrated ∧
    (nvAbandon c s).evt.mask = s.evt.mask ∧ (nvAbandon c s).evt.copy = s.evt.copy := by
  simp only [nvAbandon, when]
  repeat' split
  all_goals simp

@[simp] theorem nvSuspend_inner (t : Nat) (s : State) :
    (nvSuspend t s).tt.ctl = s.tt.ctl ∧ (nvSuspend t s).tt.instA = s.tt.instA ∧
    (nvSuspend t s).tt.instB = s.tt.instB ∧ (nvSuspend t s).tt.startSec = s.tt.startSec ∧
    (nvSuspend t s).tt.startFrac = s.tt.startFrac ∧ (nvSuspend t s).tt.protHit = s.tt.protHit ∧
    (nvSuspend t s).sys.phase = s.sys.phase ∧ (nvSuspend t s).sys.cause = s.sys.cause ∧
    (nvSuspend t s).sys.cfgState = s.sys.cfgState ∧ (nvSuspend t s).sys.x32Run = s.sys.x32Run ∧
    (nvSuspend t s).sys.measRst = s.sys.measRst ∧ (nvSuspend t s).sys.earlyWr = s.sys.earlyWr ∧
    (nvSuspend t s).sys.lostCmds = s.sys.lostCmds ∧ (nvSuspend t s).pwr.trickle = s.pwr.trickle ∧
    (nvSuspend t s).pwr.onVbat = s.pwr.onVbat ∧ (nvSuspend t s).pwr.mainOn = s.pwr.mainOn ∧
    (nvSuspend t s).pwr.aonOn = s.pwr.aonOn ∧ (nvSuspend t s).pwr.warn = s.pwr.warn ∧
    (nvSuspend t s).pwr.ship = s.pwr.ship ∧ (nvSuspend t s).pwr.castleCount = s.pwr.castleCount ∧
    (nvSuspend t s).pwr.firstValid = s.pwr.firstValid ∧ (nvSuspend t s).pwr.firstSec = s.pwr.firstSec ∧
    (nvSuspend t s).pwr.firstFrac = s.pwr.firstFrac ∧ (nvSuspend t s).pwr.castlings = s.pwr.castlings ∧
    (nvSuspend t s).cond.arg0 = s.cond.arg0 ∧ (nvSuspend t s).cond.arg1 = s.cond.arg1 ∧
    (nvSuspend t s).cond.arg2 = s.cond.arg2 ∧ (nvSuspend t s).cond.tail = s.cond.tail ∧
    (nvSuspend t s).cond.inReset = s.cond.inReset ∧ (nvSuspend t s).afe.eff = s.afe.eff ∧
    (nvSuspend t s).afe.diag = s.afe.diag ∧ (nvSuspend t s).ros.sealed = s.ros.sealed ∧
    (nvSuspend t s).out.gen = s.out.gen ∧ (nvSuspend t s).out.span = s.out.span ∧
    (nvSuspend t s).out.staged = s.out.staged ∧ (nvSuspend t s).hif.i3c = s.hif.i3c ∧
    (nvSuspend t s).hif.dynAddr = s.hif.dynAddr ∧ (nvSuspend t s).hif.crcEn = s.hif.crcEn ∧
    (nvSuspend t s).hif.txn = s.hif.txn ∧ (nvSuspend t s).hif.reply = s.hif.reply ∧
    (nvSuspend t s).nv.pages = s.nv.pages := by
  have k0 := @endSuspends_frame
  have k1 := @endSuspends_inner
  simp only [nvSuspend, when]
  repeat' split
  all_goals simp [k0, k1]

@[simp] theorem saveConfig_inner (c : Cmd) (s : State) :
    (saveConfig c s).evin.incfg = s.evin.incfg ∧ (saveConfig c s).tt.ctl = s.tt.ctl ∧
    (saveConfig c s).tt.instA = s.tt.instA ∧ (saveConfig c s).tt.instB = s.tt.instB ∧
    (saveConfig c s).tt.active = s.tt.active ∧ (saveConfig c s).tt.activeValid = s.tt.activeValid ∧
    (saveConfig c s).tt.startSec = s.tt.startSec ∧ (saveConfig c s).tt.startFrac = s.tt.startFrac ∧
    (saveConfig c s).tt.swPend = s.tt.swPend ∧ (saveConfig c s).tt.protHit = s.tt.protHit ∧
    (saveConfig c s).sys.phase = s.sys.phase ∧ (saveConfig c s).sys.cause = s.sys.cause ∧
    (saveConfig c s).sys.cfgState = s.sys.cfgState ∧ (saveConfig c s).sys.x32Run = s.sys.x32Run ∧
    (saveConfig c s).sys.measRst = s.sys.measRst ∧ (saveConfig c s).sys.earlyWr = s.sys.earlyWr ∧
    (saveConfig c s).sys.lostCmds = s.sys.lostCmds ∧ (saveConfig c s).clk.src = s.clk.src ∧
    (saveConfig c s).clk.limits = s.clk.limits ∧ (saveConfig c s).clk.spread = s.clk.spread ∧
    (saveConfig c s).clk.active = s.clk.active ∧ (saveConfig c s).clk.plans = s.clk.plans ∧
    (saveConfig c s).clk.drift = s.clk.drift ∧ (saveConfig c s).cond.arg0 = s.cond.arg0 ∧
    (saveConfig c s).cond.arg1 = s.cond.arg1 ∧ (saveConfig c s).cond.arg2 = s.cond.arg2 ∧
    (saveConfig c s).cond.tail = s.cond.tail ∧ (saveConfig c s).cond.switches = s.cond.switches ∧
    (saveConfig c s).cond.inReset = s.cond.inReset ∧ (saveConfig c s).afe.ctl = s.afe.ctl ∧
    (saveConfig c s).afe.eff = s.afe.eff ∧ (saveConfig c s).afe.diag = s.afe.diag ∧
    (saveConfig c s).ros.sealed = s.ros.sealed ∧ (saveConfig c s).out.cfg = s.out.cfg ∧
    (saveConfig c s).out.gen = s.out.gen ∧ (saveConfig c s).out.span = s.out.span ∧
    (saveConfig c s).out.staged = s.out.staged ∧ (saveConfig c s).nv.pages = s.nv.pages ∧
    (saveConfig c s).nv.running = s.nv.running ∧ (saveConfig c s).nv.suspend = s.nv.suspend ∧
    (saveConfig c s).nv.todo = s.nv.todo ∧ (saveConfig c s).disc.en = s.disc.en ∧
    (saveConfig c s).cal.map = s.cal.map ∧ (saveConfig c s).cal.quality = s.cal.quality ∧
    (saveConfig c s).cal.modTrim = s.cal.modTrim ∧ (saveConfig c s).cal.evtTrim = s.cal.evtTrim ∧
    (saveConfig c s).cal.calibrated = s.cal.calibrated ∧ (saveConfig c s).evt.mask = s.evt.mask ∧
    (saveConfig c s).evt.copy = s.evt.copy := by
  simp only [saveConfig, when]
  repeat' split
  all_goals simp

@[simp] theorem restoreConfig_inner (c : Cmd) (s : State) :
    (restoreConfig c s).evin.incfg = s.evin.incfg ∧ (restoreConfig c s).tt.ctl = s.tt.ctl ∧
    (restoreConfig c s).tt.instA = s.tt.instA ∧ (restoreConfig c s).tt.instB = s.tt.instB ∧
    (restoreConfig c s).tt.active = s.tt.active ∧ (restoreConfig c s).tt.activeValid = s.tt.activeValid ∧
    (restoreConfig c s).tt.startSec = s.tt.startSec ∧ (restoreConfig c s).tt.startFrac = s.tt.startFrac ∧
    (restoreConfig c s).tt.swPend = s.tt.swPend ∧ (restoreConfig c s).tt.protHit = s.tt.protHit ∧
    (restoreConfig c s).sys.phase = s.sys.phase ∧ (restoreConfig c s).sys.cause = s.sys.cause ∧
    (restoreConfig c s).sys.cfgState = s.sys.cfgState ∧ (restoreConfig c s).sys.x32Run = s.sys.x32Run ∧
    (restoreConfig c s).sys.measRst = s.sys.measRst ∧ (restoreConfig c s).sys.earlyWr = s.sys.earlyWr ∧
    (restoreConfig c s).sys.lostCmds = s.sys.lostCmds ∧ (restoreConfig c s).clk.src = s.clk.src ∧
    (restoreConfig c s).clk.limits = s.clk.limits ∧ (restoreConfig c s).clk.spread = s.clk.spread ∧
    (restoreConfig c s).clk.active = s.clk.active ∧ (restoreConfig c s).clk.plans = s.clk.plans ∧
    (restoreConfig c s).clk.drift = s.clk.drift ∧ (restoreConfig c s).cond.arg0 = s.cond.arg0 ∧
    (restoreConfig c s).cond.arg1 = s.cond.arg1 ∧ (restoreConfig c s).cond.arg2 = s.cond.arg2 ∧
    (restoreConfig c s).cond.tail = s.cond.tail ∧ (restoreConfig c s).cond.switches = s.cond.switches ∧
    (restoreConfig c s).cond.inReset = s.cond.inReset ∧ (restoreConfig c s).afe.ctl = s.afe.ctl ∧
    (restoreConfig c s).afe.eff = s.afe.eff ∧ (restoreConfig c s).afe.diag = s.afe.diag ∧
    (restoreConfig c s).ros.sealed = s.ros.sealed ∧ (restoreConfig c s).out.cfg = s.out.cfg ∧
    (restoreConfig c s).out.gen = s.out.gen ∧ (restoreConfig c s).out.span = s.out.span ∧
    (restoreConfig c s).out.staged = s.out.staged ∧ (restoreConfig c s).nv.pages = s.nv.pages ∧
    (restoreConfig c s).nv.running = s.nv.running ∧ (restoreConfig c s).nv.suspend = s.nv.suspend ∧
    (restoreConfig c s).disc.en = s.disc.en ∧ (restoreConfig c s).cal.map = s.cal.map ∧
    (restoreConfig c s).cal.quality = s.cal.quality ∧ (restoreConfig c s).cal.modTrim = s.cal.modTrim ∧
    (restoreConfig c s).cal.evtTrim = s.cal.evtTrim ∧ (restoreConfig c s).cal.calibrated = s.cal.calibrated ∧
    (restoreConfig c s).evt.mask = s.evt.mask ∧ (restoreConfig c s).evt.copy = s.evt.copy := by
  simp only [restoreConfig, when]
  repeat' split
  all_goals simp

@[simp] theorem ledgerCommands_inner (lap : Bool) (t : Nat) (s : State) :
    (ledgerCommands lap t s).tt.ctl = s.tt.ctl ∧ (ledgerCommands lap t s).tt.instA = s.tt.instA ∧
    (ledgerCommands lap t s).tt.instB = s.tt.instB ∧ (ledgerCommands lap t s).tt.startSec = s.tt.startSec ∧
    (ledgerCommands lap t s).tt.startFrac = s.tt.startFrac ∧ (ledgerCommands lap t s).tt.protHit = s.tt.protHit ∧
    (ledgerCommands lap t s).sys.phase = s.sys.phase ∧ (ledgerCommands lap t s).sys.cause = s.sys.cause ∧
    (ledgerCommands lap t s).sys.cfgState = s.sys.cfgState ∧ (ledgerCommands lap t s).sys.x32Run = s.sys.x32Run ∧
    (ledgerCommands lap t s).sys.measRst = s.sys.measRst ∧ (ledgerCommands lap t s).sys.earlyWr = s.sys.earlyWr ∧
    (ledgerCommands lap t s).sys.lostCmds = s.sys.lostCmds ∧ (ledgerCommands lap t s).pwr.trickle = s.pwr.trickle ∧
    (ledgerCommands lap t s).pwr.onVbat = s.pwr.onVbat ∧ (ledgerCommands lap t s).pwr.mainOn = s.pwr.mainOn ∧
    (ledgerCommands lap t s).pwr.aonOn = s.pwr.aonOn ∧ (ledgerCommands lap t s).pwr.warn = s.pwr.warn ∧
    (ledgerCommands lap t s).pwr.ship = s.pwr.ship ∧ (ledgerCommands lap t s).pwr.castleCount = s.pwr.castleCount ∧
    (ledgerCommands lap t s).pwr.firstValid = s.pwr.firstValid ∧
    (ledgerCommands lap t s).pwr.firstSec = s.pwr.firstSec ∧
    (ledgerCommands lap t s).pwr.firstFrac = s.pwr.firstFrac ∧
    (ledgerCommands lap t s).pwr.castlings = s.pwr.castlings ∧ (ledgerCommands lap t s).cond.arg0 = s.cond.arg0 ∧
    (ledgerCommands lap t s).cond.arg1 = s.cond.arg1 ∧ (ledgerCommands lap t s).cond.arg2 = s.cond.arg2 ∧
    (ledgerCommands lap t s).cond.tail = s.cond.tail ∧ (ledgerCommands lap t s).cond.inReset = s.cond.inReset ∧
    (ledgerCommands lap t s).afe.eff = s.afe.eff ∧ (ledgerCommands lap t s).afe.diag = s.afe.diag ∧
    (ledgerCommands lap t s).ros.sealed = s.ros.sealed ∧ (ledgerCommands lap t s).out.gen = s.out.gen ∧
    (ledgerCommands lap t s).out.span = s.out.span ∧ (ledgerCommands lap t s).out.staged = s.out.staged ∧
    (ledgerCommands lap t s).hif.i3c = s.hif.i3c ∧ (ledgerCommands lap t s).hif.dynAddr = s.hif.dynAddr ∧
    (ledgerCommands lap t s).hif.crcEn = s.hif.crcEn ∧ (ledgerCommands lap t s).hif.txn = s.hif.txn ∧
    (ledgerCommands lap t s).hif.reply = s.hif.reply ∧ (ledgerCommands lap t s).nv.pages = s.nv.pages := by
  simp only [ledgerCommands, when]
  repeat' split
  all_goals simp

@[simp] theorem ship_inner (x1 : Cmd) (s : State) :
    (ship x1 s).evin.incfg = s.evin.incfg ∧ (ship x1 s).tt.ctl = s.tt.ctl ∧ (ship x1 s).tt.instA = s.tt.instA ∧
    (ship x1 s).tt.instB = s.tt.instB ∧ (ship x1 s).tt.active = s.tt.active ∧
    (ship x1 s).tt.activeValid = s.tt.activeValid ∧ (ship x1 s).tt.startSec = s.tt.startSec ∧
    (ship x1 s).tt.startFrac = s.tt.startFrac ∧ (ship x1 s).tt.swPend = s.tt.swPend ∧
    (ship x1 s).tt.protHit = s.tt.protHit ∧ (ship x1 s).sys.phase = s.sys.phase ∧
    (ship x1 s).sys.cause = s.sys.cause ∧ (ship x1 s).sys.cfgState = s.sys.cfgState ∧
    (ship x1 s).sys.x32Run = s.sys.x32Run ∧ (ship x1 s).sys.measRst = s.sys.measRst ∧
    (ship x1 s).sys.earlyWr = s.sys.earlyWr ∧ (ship x1 s).sys.lostCmds = s.sys.lostCmds ∧
    (ship x1 s).pwr.ctl = s.pwr.ctl ∧ (ship x1 s).pwr.trickle = s.pwr.trickle ∧
    (ship x1 s).pwr.onVbat = s.pwr.onVbat ∧ (ship x1 s).pwr.mainOn = s.pwr.mainOn ∧
    (ship x1 s).pwr.aonOn = s.pwr.aonOn ∧ (ship x1 s).pwr.warn = s.pwr.warn ∧ (ship x1 s).pwr.ship = s.pwr.ship ∧
    (ship x1 s).pwr.castleCount = s.pwr.castleCount ∧ (ship x1 s).pwr.firstValid = s.pwr.firstValid ∧
    (ship x1 s).pwr.firstSec = s.pwr.firstSec ∧ (ship x1 s).pwr.firstFrac = s.pwr.firstFrac ∧
    (ship x1 s).pwr.castlings = s.pwr.castlings ∧ (ship x1 s).clk.src = s.clk.src ∧
    (ship x1 s).clk.limits = s.clk.limits ∧ (ship x1 s).clk.spread = s.clk.spread ∧
    (ship x1 s).clk.active = s.clk.active ∧ (ship x1 s).clk.plans = s.clk.plans ∧
    (ship x1 s).clk.drift = s.clk.drift ∧ (ship x1 s).cond.arg0 = s.cond.arg0 ∧ (ship x1 s).cond.arg1 = s.cond.arg1 ∧
    (ship x1 s).cond.arg2 = s.cond.arg2 ∧ (ship x1 s).cond.tail = s.cond.tail ∧
    (ship x1 s).cond.switches = s.cond.switches ∧ (ship x1 s).cond.inReset = s.cond.inReset ∧
    (ship x1 s).afe.ctl = s.afe.ctl ∧ (ship x1 s).afe.eff = s.afe.eff ∧ (ship x1 s).afe.diag = s.afe.diag ∧
    (ship x1 s).ros.sealed = s.ros.sealed ∧ (ship x1 s).out.cfg = s.out.cfg ∧ (ship x1 s).out.gen = s.out.gen ∧
    (ship x1 s).out.span = s.out.span ∧ (ship x1 s).out.staged = s.out.staged ∧ (ship x1 s).nv.pages = s.nv.pages ∧
    (ship x1 s).nv.running = s.nv.running ∧ (ship x1 s).nv.suspend = s.nv.suspend ∧ (ship x1 s).nv.todo = s.nv.todo ∧
    (ship x1 s).disc.en = s.disc.en ∧ (ship x1 s).cal.map = s.cal.map ∧ (ship x1 s).cal.quality = s.cal.quality ∧
    (ship x1 s).cal.modTrim = s.cal.modTrim ∧ (ship x1 s).cal.evtTrim = s.cal.evtTrim ∧
    (ship x1 s).cal.calibrated = s.cal.calibrated ∧ (ship x1 s).evt.mask = s.evt.mask ∧
    (ship x1 s).evt.copy = s.evt.copy := by
  have k0 := @drainQueue_frame
  have k1 := @drainQueue_inner
  simp only [ship, when]
  repeat' split
  all_goals simp [k0, k1]

@[simp] theorem watchdogExpiry_inner (s : State) :
    (watchdogExpiry s).evin.incfg = s.evin.incfg ∧ (watchdogExpiry s).tt.ctl = s.tt.ctl ∧
    (watchdogExpiry s).tt.instA = s.tt.instA ∧ (watchdogExpiry s).tt.instB = s.tt.instB ∧
    (watchdogExpiry s).tt.active = s.tt.active ∧ (watchdogExpiry s).tt.activeValid = s.tt.activeValid ∧
    (watchdogExpiry s).tt.startSec = s.tt.startSec ∧ (watchdogExpiry s).tt.startFrac = s.tt.startFrac ∧
    (watchdogExpiry s).tt.swPend = s.tt.swPend ∧ (watchdogExpiry s).tt.protHit = s.tt.protHit ∧
    (watchdogExpiry s).sys.phase = s.sys.phase ∧ (watchdogExpiry s).sys.cfgState = s.sys.cfgState ∧
    (watchdogExpiry s).sys.x32Run = s.sys.x32Run ∧ (watchdogExpiry s).sys.measRst = s.sys.measRst ∧
    (watchdogExpiry s).sys.earlyWr = s.sys.earlyWr ∧ (watchdogExpiry s).sys.lostCmds = s.sys.lostCmds ∧
    (watchdogExpiry s).clk.src = s.clk.src ∧ (watchdogExpiry s).clk.limits = s.clk.limits ∧
    (watchdogExpiry s).clk.spread = s.clk.spread ∧ (watchdogExpiry s).clk.active = s.clk.active ∧
    (watchdogExpiry s).clk.plans = s.clk.plans ∧ (watchdogExpiry s).clk.drift = s.clk.drift ∧
    (watchdogExpiry s).cond.arg0 = s.cond.arg0 ∧ (watchdogExpiry s).cond.arg1 = s.cond.arg1 ∧
    (watchdogExpiry s).cond.arg2 = s.cond.arg2 ∧ (watchdogExpiry s).cond.queue = s.cond.queue ∧
    (watchdogExpiry s).cond.running = s.cond.running ∧ (watchdogExpiry s).cond.tail = s.cond.tail ∧
    (watchdogExpiry s).cond.switches = s.cond.switches ∧ (watchdogExpiry s).afe.ctl = s.afe.ctl ∧
    (watchdogExpiry s).afe.eff = s.afe.eff ∧ (watchdogExpiry s).afe.diag = s.afe.diag ∧
    (watchdogExpiry s).ros.sealed = s.ros.sealed ∧ (watchdogExpiry s).out.cfg = s.out.cfg ∧
    (watchdogExpiry s).out.gen = s.out.gen ∧ (watchdogExpiry s).out.span = s.out.span ∧
    (watchdogExpiry s).out.staged = s.out.staged ∧ (watchdogExpiry s).nv.pages = s.nv.pages ∧
    (watchdogExpiry s).nv.running = s.nv.running ∧ (watchdogExpiry s).nv.suspend = s.nv.suspend ∧
    (watchdogExpiry s).nv.todo = s.nv.todo ∧ (watchdogExpiry s).cal.map = s.cal.map ∧
    (watchdogExpiry s).cal.quality = s.cal.quality ∧ (watchdogExpiry s).cal.modTrim = s.cal.modTrim ∧
    (watchdogExpiry s).cal.evtTrim = s.cal.evtTrim ∧ (watchdogExpiry s).cal.calibrated = s.cal.calibrated ∧
    (watchdogExpiry s).evt.mask = s.evt.mask ∧ (watchdogExpiry s).evt.copy = s.evt.copy := by
  have k0 := @setCause_frame
  have k1 := @setCause_inner
  simp only [watchdogExpiry, when]
  repeat' split
  all_goals simp [k0, k1]

theorem ledgerRestart_inner (s : State) :
    (ledgerRestart s).sys.phase = s.sys.phase ∧ (ledgerRestart s).sys.cause = s.sys.cause ∧
    (ledgerRestart s).sys.cfgState = s.sys.cfgState ∧ (ledgerRestart s).sys.x32Run = s.sys.x32Run ∧
    (ledgerRestart s).sys.measRst = s.sys.measRst ∧ (ledgerRestart s).sys.earlyWr = s.sys.earlyWr ∧
    (ledgerRestart s).sys.lostCmds = s.sys.lostCmds ∧ (ledgerRestart s).cond.arg0 = s.cond.arg0 ∧
    (ledgerRestart s).cond.arg1 = s.cond.arg1 ∧ (ledgerRestart s).cond.arg2 = s.cond.arg2 ∧
    (ledgerRestart s).cond.queue = s.cond.queue ∧ (ledgerRestart s).cond.running = s.cond.running ∧
    (ledgerRestart s).cond.tail = s.cond.tail ∧ (ledgerRestart s).cond.switches = s.cond.switches ∧
    (ledgerRestart s).cond.inReset = s.cond.inReset ∧ (ledgerRestart s).out.code = s.out.code ∧
    (ledgerRestart s).out.cfg = s.out.cfg ∧ (ledgerRestart s).out.gen = s.out.gen ∧
    (ledgerRestart s).out.span = s.out.span ∧ (ledgerRestart s).out.staged = s.out.staged ∧
    (ledgerRestart s).nv.pages = s.nv.pages ∧ (ledgerRestart s).nv.running = s.nv.running ∧
    (ledgerRestart s).nv.suspend = s.nv.suspend ∧ (ledgerRestart s).evt.mask = s.evt.mask ∧
    (ledgerRestart s).evt.copy = s.evt.copy := by
  have k0 := @recordDone_frame
  have k1 := @recordDone_inner
  simp only [ledgerRestart, when]
  repeat' split
  all_goals simp [k0, k1]

theorem dropUnbegun_inner (s : State) :
    (dropUnbegun s).nv.pages = s.nv.pages ∧ (dropUnbegun s).nv.running = s.nv.running ∧
    (dropUnbegun s).nv.suspend = s.nv.suspend := by
  simp only [dropUnbegun, when]
  repeat' split
  all_goals simp

@[simp] theorem conductorRestart_inner (t : Nat) (s : State) :
    (conductorRestart t s).tt.ctl = s.tt.ctl ∧ (conductorRestart t s).tt.instA = s.tt.instA ∧
    (conductorRestart t s).tt.instB = s.tt.instB ∧ (conductorRestart t s).tt.startSec = s.tt.startSec ∧
    (conductorRestart t s).tt.startFrac = s.tt.startFrac ∧ (conductorRestart t s).tt.protHit = s.tt.protHit ∧
    (conductorRestart t s).sys.cause = s.sys.cause ∧ (conductorRestart t s).sys.cfgState = s.sys.cfgState ∧
    (conductorRestart t s).sys.x32Run = s.sys.x32Run ∧ (conductorRestart t s).sys.measRst = s.sys.measRst ∧
    (conductorRestart t s).sys.earlyWr = s.sys.earlyWr ∧ (conductorRestart t s).sys.lostCmds = s.sys.lostCmds ∧
    (conductorRestart t s).pwr.trickle = s.pwr.trickle ∧ (conductorRestart t s).pwr.onVbat = s.pwr.onVbat ∧
    (conductorRestart t s).pwr.mainOn = s.pwr.mainOn ∧ (conductorRestart t s).pwr.aonOn = s.pwr.aonOn ∧
    (conductorRestart t s).pwr.warn = s.pwr.warn ∧ (conductorRestart t s).pwr.ship = s.pwr.ship ∧
    (conductorRestart t s).pwr.castleCount = s.pwr.castleCount ∧
    (conductorRestart t s).pwr.firstValid = s.pwr.firstValid ∧ (conductorRestart t s).pwr.firstSec = s.pwr.firstSec ∧
    (conductorRestart t s).pwr.firstFrac = s.pwr.firstFrac ∧ (conductorRestart t s).pwr.castlings = s.pwr.castlings ∧
    (conductorRestart t s).cond.arg0 = s.cond.arg0 ∧ (conductorRestart t s).cond.arg1 = s.cond.arg1 ∧
    (conductorRestart t s).cond.arg2 = s.cond.arg2 ∧ (conductorRestart t s).cond.tail = s.cond.tail ∧
    (conductorRestart t s).afe.eff = s.afe.eff ∧ (conductorRestart t s).afe.diag = s.afe.diag ∧
    (conductorRestart t s).ros.sealed = s.ros.sealed ∧ (conductorRestart t s).out.gen = s.out.gen ∧
    (conductorRestart t s).out.span = s.out.span ∧ (conductorRestart t s).out.staged = s.out.staged ∧
    (conductorRestart t s).hif.i3c = s.hif.i3c ∧ (conductorRestart t s).hif.dynAddr = s.hif.dynAddr ∧
    (conductorRestart t s).hif.crcEn = s.hif.crcEn ∧ (conductorRestart t s).hif.txn = s.hif.txn ∧
    (conductorRestart t s).hif.reply = s.hif.reply ∧ (conductorRestart t s).nv.pages = s.nv.pages := by
  have k0 := @dropUnbegun_frame
  have k1 := @dropUnbegun_inner
  have k2 := @ledgerRestart_frame
  have k3 := @ledgerRestart_inner
  simp only [conductorRestart, when]
  repeat' split
  all_goals simp [k0, k1, k2, k3]

theorem clearMain_inner (keepHif : Bool) (s : State) :
    (clearMain keepHif s).rtc.sec = s.rtc.sec ∧ (clearMain keepHif s).rtc.presc = s.rtc.presc ∧
    (clearMain keepHif s).rtc.halted = s.rtc.halted ∧ (clearMain keepHif s).rtc.timePend = s.rtc.timePend ∧
    (clearMain keepHif s).rtc.trim = s.rtc.trim ∧ (clearMain keepHif s).rtc.offset = s.rtc.offset ∧
    (clearMain keepHif s).rtc.dst = s.rtc.dst ∧ (clearMain keepHif s).rtc.started = s.rtc.started ∧
    (clearMain keepHif s).sys.phase = s.sys.phase ∧ (clearMain keepHif s).sys.cause = s.sys.cause ∧
    (clearMain keepHif s).sys.x32Run = s.sys.x32Run ∧ (clearMain keepHif s).sys.lostCmds = s.sys.lostCmds ∧
    (clearMain keepHif s).pwr.trickle = s.pwr.trickle ∧ (clearMain keepHif s).pwr.onVbat = s.pwr.onVbat ∧
    (clearMain keepHif s).pwr.mainOn = s.pwr.mainOn ∧ (clearMain keepHif s).pwr.aonOn = s.pwr.aonOn ∧
    (clearMain keepHif s).pwr.ship = s.pwr.ship ∧ (clearMain keepHif s).pwr.castleCount = s.pwr.castleCount ∧
    (clearMain keepHif s).pwr.firstValid = s.pwr.firstValid ∧ (clearMain keepHif s).pwr.firstSec = s.pwr.firstSec ∧
    (clearMain keepHif s).pwr.firstFrac = s.pwr.firstFrac ∧ (clearMain keepHif s).pwr.castlings = s.pwr.castlings ∧
    (clearMain keepHif s).evt.copy = s.evt.copy := by
  simp only [clearMain, when]
  repeat' split
  all_goals simp

theorem beginStart_inner (bits : BitVec 11) (soft powerOn : Bool) (lost : Nat) (s : State) :
    (beginStart bits soft powerOn lost s).rtc.sec = s.rtc.sec ∧
    (beginStart bits soft powerOn lost s).rtc.presc = s.rtc.presc ∧
    (beginStart bits soft powerOn lost s).rtc.halted = s.rtc.halted ∧
    (beginStart bits soft powerOn lost s).rtc.timePend = s.rtc.timePend ∧
    (beginStart bits soft powerOn lost s).rtc.trim = s.rtc.trim ∧
    (beginStart bits soft powerOn lost s).rtc.offset = s.rtc.offset ∧
    (beginStart bits soft powerOn lost s).rtc.dst = s.rtc.dst ∧
    (beginStart bits soft powerOn lost s).rtc.started = s.rtc.started ∧
    (beginStart bits soft powerOn lost s).sys.x32Run = s.sys.x32Run ∧
    (beginStart bits soft powerOn lost s).pwr.trickle = s.pwr.trickle ∧
    (beginStart bits soft powerOn lost s).pwr.onVbat = s.pwr.onVbat ∧
    (beginStart bits soft powerOn lost s).pwr.mainOn = s.pwr.mainOn ∧
    (beginStart bits soft powerOn lost s).pwr.aonOn = s.pwr.aonOn ∧
    (beginStart bits soft powerOn lost s).pwr.ship = s.pwr.ship ∧
    (beginStart bits soft powerOn lost s).pwr.castleCount = s.pwr.castleCount ∧
    (beginStart bits soft powerOn lost s).pwr.firstValid = s.pwr.firstValid ∧
    (beginStart bits soft powerOn lost s).pwr.firstSec = s.pwr.firstSec ∧
    (beginStart bits soft powerOn lost s).pwr.firstFrac = s.pwr.firstFrac ∧
    (beginStart bits soft powerOn lost s).pwr.castlings = s.pwr.castlings ∧
    (beginStart bits soft powerOn lost s).evt.copy = s.evt.copy := by
  have k0 := @clearMain_frame
  have k1 := @clearMain_inner
  simp only [beginStart, when]
  repeat' split
  all_goals simp [k0, k1]

theorem keepShip_inner (s t : State) :
    (keepShip s t).pwr.ctl = t.pwr.ctl ∧ (keepShip s t).pwr.trickle = t.pwr.trickle ∧
    (keepShip s t).pwr.onVbat = t.pwr.onVbat ∧ (keepShip s t).pwr.mainOn = t.pwr.mainOn ∧
    (keepShip s t).pwr.aonOn = t.pwr.aonOn ∧ (keepShip s t).pwr.warn = t.pwr.warn ∧
    (keepShip s t).pwr.ship = t.pwr.ship ∧ (keepShip s t).pwr.castleCount = t.pwr.castleCount ∧
    (keepShip s t).pwr.firstValid = t.pwr.firstValid ∧ (keepShip s t).pwr.firstSec = t.pwr.firstSec ∧
    (keepShip s t).pwr.firstFrac = t.pwr.firstFrac ∧ (keepShip s t).pwr.castlings = t.pwr.castlings ∧
    (keepShip s t).cond.arg0 = t.cond.arg0 ∧ (keepShip s t).cond.arg1 = t.cond.arg1 ∧
    (keepShip s t).cond.arg2 = t.cond.arg2 ∧ (keepShip s t).cond.queue = t.cond.queue ∧
    (keepShip s t).cond.running = t.cond.running ∧ (keepShip s t).cond.head = t.cond.head ∧
    (keepShip s t).cond.seq = t.cond.seq ∧ (keepShip s t).cond.tail = t.cond.tail ∧
    (keepShip s t).cond.switches = t.cond.switches ∧ (keepShip s t).cond.inReset = t.cond.inReset := by
  simp only [keepShip, when]
  repeat' split
  all_goals simp

theorem softReset_inner (s : State) :
    (softReset s).rtc.sec = s.rtc.sec ∧ (softReset s).rtc.presc = s.rtc.presc ∧
    (softReset s).rtc.halted = s.rtc.halted ∧ (softReset s).rtc.timePend = s.rtc.timePend ∧
    (softReset s).rtc.trim = s.rtc.trim ∧ (softReset s).rtc.offset = s.rtc.offset ∧
    (softReset s).rtc.dst = s.rtc.dst ∧ (softReset s).rtc.started = s.rtc.started ∧
    (softReset s).sys.x32Run = s.sys.x32Run ∧ (softReset s).pwr.trickle = s.pwr.trickle ∧
    (softReset s).pwr.onVbat = s.pwr.onVbat ∧ (softReset s).pwr.mainOn = s.pwr.mainOn ∧
    (softReset s).pwr.aonOn = s.pwr.aonOn ∧ (softReset s).pwr.ship = s.pwr.ship ∧
    (softReset s).pwr.castleCount = s.pwr.castleCount ∧ (softReset s).pwr.firstValid = s.pwr.firstValid ∧
    (softReset s).pwr.firstSec = s.pwr.firstSec ∧ (softReset s).pwr.firstFrac = s.pwr.firstFrac ∧
    (softReset s).pwr.castlings = s.pwr.castlings ∧ (softReset s).evt.copy = s.evt.copy := by
  have k0 := @beginStart_frame
  have k1 := @beginStart_inner
  have k2 := @keepShip_frame
  have k3 := @keepShip_inner
  simp only [softReset, when]
  repeat' split
  all_goals simp [k0, k1, k2, k3]

theorem hifReset_inner (s : State) :
    (hifReset s).sys.phase = s.sys.phase ∧ (hifReset s).sys.cfgState = s.sys.cfgState ∧
    (hifReset s).sys.x32Run = s.sys.x32Run ∧ (hifReset s).sys.measRst = s.sys.measRst ∧
    (hifReset s).sys.earlyWr = s.sys.earlyWr ∧ (hifReset s).sys.lostCmds = s.sys.lostCmds ∧
    (hifReset s).sys.pstate = s.sys.pstate ∧ (hifReset s).pwr.trickle = s.pwr.trickle ∧
    (hifReset s).pwr.onVbat = s.pwr.onVbat ∧ (hifReset s).pwr.mainOn = s.pwr.mainOn ∧
    (hifReset s).pwr.aonOn = s.pwr.aonOn ∧ (hifReset s).pwr.warn = s.pwr.warn ∧ (hifReset s).pwr.ship = s.pwr.ship ∧
    (hifReset s).pwr.castleCount = s.pwr.castleCount ∧ (hifReset s).pwr.firstValid = s.pwr.firstValid ∧
    (hifReset s).pwr.firstSec = s.pwr.firstSec ∧ (hifReset s).pwr.firstFrac = s.pwr.firstFrac ∧
    (hifReset s).pwr.castlings = s.pwr.castlings := by
  have k0 := @setCause_frame
  have k1 := @setCause_inner
  simp only [hifReset, when]
  repeat' split
  all_goals simp [k0, k1]

theorem rstactReset_inner (s : State) :
    (rstactReset s).rtc.sec = s.rtc.sec ∧ (rstactReset s).rtc.presc = s.rtc.presc ∧
    (rstactReset s).rtc.halted = s.rtc.halted ∧ (rstactReset s).rtc.timePend = s.rtc.timePend ∧
    (rstactReset s).rtc.trim = s.rtc.trim ∧ (rstactReset s).rtc.offset = s.rtc.offset ∧
    (rstactReset s).rtc.dst = s.rtc.dst ∧ (rstactReset s).rtc.started = s.rtc.started ∧
    (rstactReset s).sys.x32Run = s.sys.x32Run ∧ (rstactReset s).pwr.trickle = s.pwr.trickle ∧
    (rstactReset s).pwr.onVbat = s.pwr.onVbat ∧ (rstactReset s).pwr.mainOn = s.pwr.mainOn ∧
    (rstactReset s).pwr.aonOn = s.pwr.aonOn ∧ (rstactReset s).pwr.ship = s.pwr.ship ∧
    (rstactReset s).pwr.castleCount = s.pwr.castleCount ∧ (rstactReset s).pwr.firstValid = s.pwr.firstValid ∧
    (rstactReset s).pwr.firstSec = s.pwr.firstSec ∧ (rstactReset s).pwr.firstFrac = s.pwr.firstFrac ∧
    (rstactReset s).pwr.castlings = s.pwr.castlings ∧ (rstactReset s).evt.copy = s.evt.copy := by
  have k0 := @beginStart_frame
  have k1 := @beginStart_inner
  have k2 := @keepShip_frame
  have k3 := @keepShip_inner
  simp only [rstactReset, when]
  repeat' split
  all_goals simp [k0, k1, k2, k3]

@[simp] theorem rstn_inner (lowNs : Nat) (s : State) :
    (rstn lowNs s).rtc.sec = s.rtc.sec ∧ (rstn lowNs s).rtc.presc = s.rtc.presc ∧
    (rstn lowNs s).rtc.halted = s.rtc.halted ∧ (rstn lowNs s).rtc.timePend = s.rtc.timePend ∧
    (rstn lowNs s).rtc.trim = s.rtc.trim ∧ (rstn lowNs s).rtc.offset = s.rtc.offset ∧
    (rstn lowNs s).rtc.dst = s.rtc.dst ∧ (rstn lowNs s).rtc.started = s.rtc.started ∧
    (rstn lowNs s).sys.x32Run = s.sys.x32Run ∧ (rstn lowNs s).pwr.trickle = s.pwr.trickle ∧
    (rstn lowNs s).pwr.onVbat = s.pwr.onVbat ∧ (rstn lowNs s).pwr.mainOn = s.pwr.mainOn ∧
    (rstn lowNs s).pwr.aonOn = s.pwr.aonOn ∧ (rstn lowNs s).pwr.ship = s.pwr.ship ∧
    (rstn lowNs s).pwr.castleCount = s.pwr.castleCount ∧ (rstn lowNs s).pwr.firstValid = s.pwr.firstValid ∧
    (rstn lowNs s).pwr.firstSec = s.pwr.firstSec ∧ (rstn lowNs s).pwr.firstFrac = s.pwr.firstFrac ∧
    (rstn lowNs s).pwr.castlings = s.pwr.castlings ∧ (rstn lowNs s).evt.copy = s.evt.copy := by
  have k0 := @beginStart_frame
  have k1 := @beginStart_inner
  have k2 := @keepShip_frame
  have k3 := @keepShip_inner
  simp only [rstn, when]
  repeat' split
  all_goals simp [k0, k1, k2, k3]

@[simp] theorem mainResetRelease_inner (ifsel addr : Bool) (s : State) :
    (mainResetRelease ifsel addr s).sys.cause = s.sys.cause ∧
    (mainResetRelease ifsel addr s).sys.cfgState = s.sys.cfgState ∧
    (mainResetRelease ifsel addr s).sys.x32Run = s.sys.x32Run ∧
    (mainResetRelease ifsel addr s).sys.measRst = s.sys.measRst ∧
    (mainResetRelease ifsel addr s).sys.earlyWr = s.sys.earlyWr ∧
    (mainResetRelease ifsel addr s).sys.lostCmds = s.sys.lostCmds ∧
    (mainResetRelease ifsel addr s).sys.pstate = s.sys.pstate ∧
    (mainResetRelease ifsel addr s).hif.dynAddr = s.hif.dynAddr ∧
    (mainResetRelease ifsel addr s).hif.crcEn = s.hif.crcEn ∧ (mainResetRelease ifsel addr s).hif.txn = s.hif.txn ∧
    (mainResetRelease ifsel addr s).hif.reply = s.hif.reply := by
  simp only [mainResetRelease, when]
  repeat' split
  all_goals simp

@[simp] theorem hfrcRunning_inner (s : State) :
    (hfrcRunning s).sys.cause = s.sys.cause ∧ (hfrcRunning s).sys.cfgState = s.sys.cfgState ∧
    (hfrcRunning s).sys.x32Run = s.sys.x32Run ∧ (hfrcRunning s).sys.measRst = s.sys.measRst ∧
    (hfrcRunning s).sys.earlyWr = s.sys.earlyWr ∧ (hfrcRunning s).sys.lostCmds = s.sys.lostCmds ∧
    (hfrcRunning s).sys.pstate = s.sys.pstate ∧ (hfrcRunning s).cond.arg0 = s.cond.arg0 ∧
    (hfrcRunning s).cond.arg1 = s.cond.arg1 ∧ (hfrcRunning s).cond.arg2 = s.cond.arg2 ∧
    (hfrcRunning s).cond.queue = s.cond.queue ∧ (hfrcRunning s).cond.running = s.cond.running ∧
    (hfrcRunning s).cond.head = s.cond.head ∧ (hfrcRunning s).cond.seq = s.cond.seq ∧
    (hfrcRunning s).cond.tail = s.cond.tail ∧ (hfrcRunning s).cond.switches = s.cond.switches ∧
    (hfrcRunning s).cond.inReset = s.cond.inReset ∧ (hfrcRunning s).out.code = s.out.code ∧
    (hfrcRunning s).out.cfg = s.out.cfg ∧ (hfrcRunning s).out.gen = s.out.gen ∧
    (hfrcRunning s).out.span = s.out.span ∧ (hfrcRunning s).out.staged = s.out.staged := by
  simp only [hfrcRunning, when]
  repeat' split
  all_goals simp

@[simp] theorem journalRead_inner (s : State) :
    (journalRead s).sys.cause = s.sys.cause ∧ (journalRead s).sys.cfgState = s.sys.cfgState ∧
    (journalRead s).sys.x32Run = s.sys.x32Run ∧ (journalRead s).sys.measRst = s.sys.measRst ∧
    (journalRead s).sys.earlyWr = s.sys.earlyWr ∧ (journalRead s).sys.lostCmds = s.sys.lostCmds ∧
    (journalRead s).sys.pstate = s.sys.pstate ∧ (journalRead s).cond.arg0 = s.cond.arg0 ∧
    (journalRead s).cond.arg1 = s.cond.arg1 ∧ (journalRead s).cond.arg2 = s.cond.arg2 ∧
    (journalRead s).cond.queue = s.cond.queue ∧ (journalRead s).cond.running = s.cond.running ∧
    (journalRead s).cond.head = s.cond.head ∧ (journalRead s).cond.seq = s.cond.seq ∧
    (journalRead s).cond.tail = s.cond.tail ∧ (journalRead s).cond.switches = s.cond.switches ∧
    (journalRead s).cond.inReset = s.cond.inReset ∧ (journalRead s).nv.pages = s.nv.pages ∧
    (journalRead s).nv.op = s.nv.op ∧ (journalRead s).nv.running = s.nv.running ∧
    (journalRead s).nv.suspend = s.nv.suspend ∧ (journalRead s).evt.mask = s.evt.mask ∧
    (journalRead s).evt.copy = s.evt.copy := by
  simp only [journalRead, when]
  repeat' split
  all_goals simp

@[simp] theorem sramClearDone_inner (s : State) :
    (sramClearDone s).sys.cause = s.sys.cause ∧ (sramClearDone s).sys.cfgState = s.sys.cfgState ∧
    (sramClearDone s).sys.x32Run = s.sys.x32Run ∧ (sramClearDone s).sys.measRst = s.sys.measRst ∧
    (sramClearDone s).sys.earlyWr = s.sys.earlyWr ∧ (sramClearDone s).sys.lostCmds = s.sys.lostCmds ∧
    (sramClearDone s).sys.pstate = s.sys.pstate := by
  simp only [sramClearDone, when]
  repeat' split
  all_goals simp

@[simp] theorem configImageApply_inner (present : BitVec 4) (t : Nat) (s : State) :
    (configImageApply present t s).tt.ctl = s.tt.ctl ∧ (configImageApply present t s).tt.instA = s.tt.instA ∧
    (configImageApply present t s).tt.instB = s.tt.instB ∧ (configImageApply present t s).tt.active = s.tt.active ∧
    (configImageApply present t s).tt.activeValid = s.tt.activeValid ∧
    (configImageApply present t s).tt.startSec = s.tt.startSec ∧
    (configImageApply present t s).tt.startFrac = s.tt.startFrac ∧
    (configImageApply present t s).tt.swPend = s.tt.swPend ∧
    (configImageApply present t s).tt.protHit = s.tt.protHit ∧
    (configImageApply present t s).sys.cause = s.sys.cause ∧
    (configImageApply present t s).sys.x32Run = s.sys.x32Run ∧
    (configImageApply present t s).sys.measRst = s.sys.measRst ∧
    (configImageApply present t s).sys.earlyWr = s.sys.earlyWr ∧
    (configImageApply present t s).sys.lostCmds = s.sys.lostCmds ∧
    (configImageApply present t s).pwr.trickle = s.pwr.trickle ∧
    (configImageApply present t s).pwr.onVbat = s.pwr.onVbat ∧
    (configImageApply present t s).pwr.mainOn = s.pwr.mainOn ∧
    (configImageApply present t s).pwr.aonOn = s.pwr.aonOn ∧ (configImageApply present t s).pwr.warn = s.pwr.warn ∧
    (configImageApply present t s).pwr.ship = s.pwr.ship ∧
    (configImageApply present t s).pwr.castleCount = s.pwr.castleCount ∧
    (configImageApply present t s).pwr.firstValid = s.pwr.firstValid ∧
    (configImageApply present t s).pwr.firstSec = s.pwr.firstSec ∧
    (configImageApply present t s).pwr.firstFrac = s.pwr.firstFrac ∧
    (configImageApply present t s).pwr.castlings = s.pwr.castlings ∧
    (configImageApply present t s).cond.arg0 = s.cond.arg0 ∧ (configImageApply present t s).cond.arg1 = s.cond.arg1 ∧
    (configImageApply present t s).cond.arg2 = s.cond.arg2 ∧
    (configImageApply present t s).cond.running = s.cond.running ∧
    (configImageApply present t s).cond.tail = s.cond.tail ∧
    (configImageApply present t s).cond.switches = s.cond.switches ∧
    (configImageApply present t s).cond.inReset = s.cond.inReset ∧
    (configImageApply present t s).afe.eff = s.afe.eff ∧ (configImageApply present t s).afe.diag = s.afe.diag ∧
    (configImageApply present t s).ros.sealed = s.ros.sealed ∧ (configImageApply present t s).out.gen = s.out.gen ∧
    (configImageApply present t s).out.span = s.out.span ∧ (configImageApply present t s).out.staged = s.out.staged ∧
    (configImageApply present t s).hif.i3c = s.hif.i3c ∧ (configImageApply present t s).hif.dynAddr = s.hif.dynAddr ∧
    (configImageApply present t s).hif.crcEn = s.hif.crcEn ∧ (configImageApply present t s).hif.txn = s.hif.txn ∧
    (configImageApply present t s).hif.reply = s.hif.reply ∧ (configImageApply present t s).nv.pages = s.nv.pages ∧
    (configImageApply present t s).nv.running = s.nv.running ∧
    (configImageApply present t s).nv.suspend = s.nv.suspend := by
  have k0 := @configStep_frame
  have k1 := @configStep_inner
  have k2 := @firstReading_frame
  have k3 := @firstReading_inner
  simp only [configImageApply, when]
  repeat' split
  all_goals simp [k0, k1, k2, k3]

@[simp] theorem ledgerRecovery_inner (s : State) :
    (ledgerRecovery s).sys.cause = s.sys.cause ∧ (ledgerRecovery s).sys.cfgState = s.sys.cfgState ∧
    (ledgerRecovery s).sys.x32Run = s.sys.x32Run ∧ (ledgerRecovery s).sys.measRst = s.sys.measRst ∧
    (ledgerRecovery s).sys.earlyWr = s.sys.earlyWr ∧ (ledgerRecovery s).sys.lostCmds = s.sys.lostCmds ∧
    (ledgerRecovery s).sys.pstate = s.sys.pstate ∧ (ledgerRecovery s).cond.arg0 = s.cond.arg0 ∧
    (ledgerRecovery s).cond.arg1 = s.cond.arg1 ∧ (ledgerRecovery s).cond.arg2 = s.cond.arg2 ∧
    (ledgerRecovery s).cond.queue = s.cond.queue ∧ (ledgerRecovery s).cond.running = s.cond.running ∧
    (ledgerRecovery s).cond.head = s.cond.head ∧ (ledgerRecovery s).cond.seq = s.cond.seq ∧
    (ledgerRecovery s).cond.tail = s.cond.tail ∧ (ledgerRecovery s).cond.switches = s.cond.switches ∧
    (ledgerRecovery s).cond.inReset = s.cond.inReset ∧ (ledgerRecovery s).ldg.ctl = s.ldg.ctl ∧
    (ledgerRecovery s).nv.pages = s.nv.pages ∧ (ledgerRecovery s).nv.op = s.nv.op ∧
    (ledgerRecovery s).nv.running = s.nv.running ∧ (ledgerRecovery s).nv.suspend = s.nv.suspend ∧
    (ledgerRecovery s).evt.mask = s.evt.mask ∧ (ledgerRecovery s).evt.copy = s.evt.copy := by
  have k0 := @recover_frame
  have k1 := @recover_inner
  simp only [ledgerRecovery, when]
  repeat' split
  all_goals simp [k0, k1]

theorem takeLevels_inner (s : State) :
    (takeLevels s).evin.incfg = s.evin.incfg := by
  simp only [takeLevels, when]
  repeat' split
  all_goals simp

@[simp] theorem bootRecord_inner (t : Nat) (s : State) :
    (bootRecord t s).tt.ctl = s.tt.ctl ∧ (bootRecord t s).tt.instA = s.tt.instA ∧
    (bootRecord t s).tt.instB = s.tt.instB ∧ (bootRecord t s).tt.startSec = s.tt.startSec ∧
    (bootRecord t s).tt.startFrac = s.tt.startFrac ∧ (bootRecord t s).tt.protHit = s.tt.protHit ∧
    (bootRecord t s).sys.cause = s.sys.cause ∧ (bootRecord t s).sys.cfgState = s.sys.cfgState ∧
    (bootRecord t s).sys.x32Run = s.sys.x32Run ∧ (bootRecord t s).sys.measRst = s.sys.measRst ∧
    (bootRecord t s).sys.earlyWr = s.sys.earlyWr ∧ (bootRecord t s).sys.lostCmds = s.sys.lostCmds ∧
    (bootRecord t s).pwr.trickle = s.pwr.trickle ∧ (bootRecord t s).pwr.onVbat = s.pwr.onVbat ∧
    (bootRecord t s).pwr.mainOn = s.pwr.mainOn ∧ (bootRecord t s).pwr.aonOn = s.pwr.aonOn ∧
    (bootRecord t s).pwr.warn = s.pwr.warn ∧ (bootRecord t s).pwr.ship = s.pwr.ship ∧
    (bootRecord t s).pwr.castleCount = s.pwr.castleCount ∧ (bootRecord t s).pwr.firstValid = s.pwr.firstValid ∧
    (bootRecord t s).pwr.firstSec = s.pwr.firstSec ∧ (bootRecord t s).pwr.firstFrac = s.pwr.firstFrac ∧
    (bootRecord t s).pwr.castlings = s.pwr.castlings ∧ (bootRecord t s).cond.arg0 = s.cond.arg0 ∧
    (bootRecord t s).cond.arg1 = s.cond.arg1 ∧ (bootRecord t s).cond.arg2 = s.cond.arg2 ∧
    (bootRecord t s).cond.tail = s.cond.tail ∧ (bootRecord t s).cond.inReset = s.cond.inReset ∧
    (bootRecord t s).afe.eff = s.afe.eff ∧ (bootRecord t s).afe.diag = s.afe.diag ∧
    (bootRecord t s).ros.sealed = s.ros.sealed ∧ (bootRecord t s).out.gen = s.out.gen ∧
    (bootRecord t s).out.span = s.out.span ∧ (bootRecord t s).out.staged = s.out.staged ∧
    (bootRecord t s).hif.i3c = s.hif.i3c ∧ (bootRecord t s).hif.dynAddr = s.hif.dynAddr ∧
    (bootRecord t s).hif.crcEn = s.hif.crcEn ∧ (bootRecord t s).hif.txn = s.hif.txn ∧
    (bootRecord t s).hif.reply = s.hif.reply ∧ (bootRecord t s).nv.pages = s.nv.pages := by
  have k0 := @acquire_frame
  have k1 := @acquire_inner
  have k2 := @copySpread_frame
  have k3 := @copySpread_inner
  have k4 := @drainQueue_frame
  have k5 := @drainQueue_inner
  have k6 := @resume_frame
  have k7 := @takeLevels_frame
  have k8 := @takeLevels_inner
  simp only [bootRecord, when]
  repeat' split
  all_goals simp [k0, k1, k2, k3, k4, k5, k6, k7, k8]

theorem neighbourOne_inner (stamp : Stamp) (i : Nat) (s : State) :
    (neighbourOne stamp i s).tt.ctl = s.tt.ctl ∧ (neighbourOne stamp i s).tt.instA = s.tt.instA ∧
    (neighbourOne stamp i s).tt.instB = s.tt.instB ∧ (neighbourOne stamp i s).tt.active = s.tt.active ∧
    (neighbourOne stamp i s).tt.activeValid = s.tt.activeValid ∧
    (neighbourOne stamp i s).tt.startSec = s.tt.startSec ∧ (neighbourOne stamp i s).tt.startFrac = s.tt.startFrac ∧
    (neighbourOne stamp i s).tt.swPend = s.tt.swPend ∧ (neighbourOne stamp i s).tt.protHit = s.tt.protHit ∧
    (neighbourOne stamp i s).out.cfg = s.out.cfg ∧ (neighbourOne stamp i s).out.gen = s.out.gen ∧
    (neighbourOne stamp i s).out.span = s.out.span ∧ (neighbourOne stamp i s).out.staged = s.out.staged ∧
    (neighbourOne stamp i s).evt.mask = s.evt.mask ∧ (neighbourOne stamp i s).evt.copy = s.evt.copy := by
  have k0 := @failRecord_frame
  have k1 := @failRecord_inner
  simp only [neighbourOne, when]
  repeat' split
  all_goals simp [k0, k1]

theorem neighbourFrame_inner (s : State) :
    (neighbourFrame s).tt.ctl = s.tt.ctl ∧ (neighbourFrame s).tt.instA = s.tt.instA ∧
    (neighbourFrame s).tt.instB = s.tt.instB ∧ (neighbourFrame s).tt.active = s.tt.active ∧
    (neighbourFrame s).tt.activeValid = s.tt.activeValid ∧ (neighbourFrame s).tt.startSec = s.tt.startSec ∧
    (neighbourFrame s).tt.startFrac = s.tt.startFrac ∧ (neighbourFrame s).tt.swPend = s.tt.swPend ∧
    (neighbourFrame s).tt.protHit = s.tt.protHit ∧ (neighbourFrame s).out.cfg = s.out.cfg ∧
    (neighbourFrame s).out.gen = s.out.gen ∧ (neighbourFrame s).out.span = s.out.span ∧
    (neighbourFrame s).out.staged = s.out.staged ∧ (neighbourFrame s).evt.mask = s.evt.mask ∧
    (neighbourFrame s).evt.copy = s.evt.copy := by
  have k0 := @markFailRecord_frame
  have k1 := @markFailRecord_inner
  have k2 := @neighbourOne_frame
  have k3 := @neighbourOne_inner
  simp only [neighbourFrame, when]
  repeat' split
  all_goals simp [k0, k1, k2, k3]

theorem neighbourLedger_inner (s : State) :
    (neighbourLedger s).cond.arg0 = s.cond.arg0 ∧ (neighbourLedger s).cond.arg1 = s.cond.arg1 ∧
    (neighbourLedger s).cond.arg2 = s.cond.arg2 ∧ (neighbourLedger s).cond.queue = s.cond.queue ∧
    (neighbourLedger s).cond.running = s.cond.running ∧ (neighbourLedger s).cond.tail = s.cond.tail ∧
    (neighbourLedger s).cond.switches = s.cond.switches ∧ (neighbourLedger s).cond.inReset = s.cond.inReset ∧
    (neighbourLedger s).ldg.ctl = s.ldg.ctl ∧ (neighbourLedger s).ldg.run = s.ldg.run ∧
    (neighbourLedger s).ldg.cnt = s.ldg.cnt ∧ (neighbourLedger s).ldg.lap = s.ldg.lap ∧
    (neighbourLedger s).evt.mask = s.evt.mask ∧ (neighbourLedger s).evt.copy = s.evt.copy := by
  have k0 := @ldgCmdDone_frame
  have k1 := @ldgCmdDone_inner
  simp only [neighbourLedger, when]
  repeat' split
  all_goals simp [k0, k1]

theorem clearMeas_inner (s : State) :
    (clearMeas s).evin.incfg = s.evin.incfg ∧ (clearMeas s).evin.level = s.evin.level ∧
    (clearMeas s).evin.syncLevel = s.evin.syncLevel ∧ (clearMeas s).tt.ctl = s.tt.ctl ∧
    (clearMeas s).tt.instA = s.tt.instA ∧ (clearMeas s).tt.instB = s.tt.instB ∧
    (clearMeas s).tt.active = s.tt.active ∧ (clearMeas s).tt.activeValid = s.tt.activeValid ∧
    (clearMeas s).tt.startSec = s.tt.startSec ∧ (clearMeas s).tt.startFrac = s.tt.startFrac ∧
    (clearMeas s).tt.swPend = s.tt.swPend ∧ (clearMeas s).sys.phase = s.sys.phase ∧
    (clearMeas s).sys.cfgState = s.sys.cfgState ∧ (clearMeas s).sys.x32Run = s.sys.x32Run ∧
    (clearMeas s).sys.earlyWr = s.sys.earlyWr ∧ (clearMeas s).sys.lostCmds = s.sys.lostCmds ∧
    (clearMeas s).sys.pstate = s.sys.pstate ∧ (clearMeas s).clk.src = s.clk.src ∧
    (clearMeas s).clk.limits = s.clk.limits ∧ (clearMeas s).clk.spread = s.clk.spread ∧
    (clearMeas s).clk.active = s.clk.active ∧ (clearMeas s).clk.plans = s.clk.plans ∧
    (clearMeas s).ldg.ctl = s.ldg.ctl ∧ (clearMeas s).ldg.run = s.ldg.run ∧ (clearMeas s).ldg.cnt = s.ldg.cnt ∧
    (clearMeas s).ldg.lap = s.ldg.lap ∧ (clearMeas s).afe.ctl = s.afe.ctl ∧ (clearMeas s).afe.eff = s.afe.eff ∧
    (clearMeas s).ros.sealed = s.ros.sealed ∧ (clearMeas s).out.code = s.out.code ∧
    (clearMeas s).out.cfg = s.out.cfg ∧ (clearMeas s).out.gen = s.out.gen ∧ (clearMeas s).out.span = s.out.span ∧
    (clearMeas s).out.staged = s.out.staged := by
  have k0 := @genZero_frame
  have k1 := @genZero_inner
  have k2 := @setCause_frame
  have k3 := @setCause_inner
  simp only [clearMeas, when]
  repeat' split
  all_goals simp [k0, k1, k2, k3]

theorem measReset_inner (t : Nat) (s : State) :
    (measReset t s).evin.incfg = s.evin.incfg ∧ (measReset t s).tt.ctl = s.tt.ctl ∧
    (measReset t s).tt.instA = s.tt.instA ∧ (measReset t s).tt.instB = s.tt.instB ∧
    (measReset t s).tt.active = s.tt.active ∧ (measReset t s).tt.activeValid = s.tt.activeValid ∧
    (measReset t s).tt.startSec = s.tt.startSec ∧ (measReset t s).tt.startFrac = s.tt.startFrac ∧
    (measReset t s).tt.swPend = s.tt.swPend ∧ (measReset t s).sys.phase = s.sys.phase ∧
    (measReset t s).sys.cfgState = s.sys.cfgState ∧ (measReset t s).sys.x32Run = s.sys.x32Run ∧
    (measReset t s).sys.earlyWr = s.sys.earlyWr ∧ (measReset t s).sys.lostCmds = s.sys.lostCmds ∧
    (measReset t s).clk.src = s.clk.src ∧ (measReset t s).clk.limits = s.clk.limits ∧
    (measReset t s).clk.spread = s.clk.spread ∧ (measReset t s).clk.active = s.clk.active ∧
    (measReset t s).clk.plans = s.clk.plans ∧ (measReset t s).cond.arg0 = s.cond.arg0 ∧
    (measReset t s).cond.arg1 = s.cond.arg1 ∧ (measReset t s).cond.arg2 = s.cond.arg2 ∧
    (measReset t s).cond.tail = s.cond.tail ∧ (measReset t s).cond.switches = s.cond.switches ∧
    (measReset t s).cond.inReset = s.cond.inReset ∧ (measReset t s).afe.ctl = s.afe.ctl ∧
    (measReset t s).afe.eff = s.afe.eff ∧ (measReset t s).ros.sealed = s.ros.sealed ∧
    (measReset t s).out.cfg = s.out.cfg ∧ (measReset t s).out.gen = s.out.gen ∧
    (measReset t s).out.span = s.out.span ∧ (measReset t s).out.staged = s.out.staged ∧
    (measReset t s).nv.pages = s.nv.pages ∧ (measReset t s).nv.suspend = s.nv.suspend ∧
    (measReset t s).nv.todo = s.nv.todo ∧ (measReset t s).disc.en = s.disc.en ∧ (measReset t s).cal.map = s.cal.map ∧
    (measReset t s).cal.quality = s.cal.quality ∧ (measReset t s).cal.modTrim = s.cal.modTrim ∧
    (measReset t s).cal.evtTrim = s.cal.evtTrim ∧ (measReset t s).cal.calibrated = s.cal.calibrated ∧
    (measReset t s).evt.mask = s.evt.mask ∧ (measReset t s).evt.copy = s.evt.copy := by
  have k0 := @clearMeas_frame
  have k1 := @clearMeas_inner
  have k2 := @neighbourCut_frame
  have k3 := @neighbourCut_inner
  have k4 := @neighbourFrame_frame
  have k5 := @neighbourFrame_inner
  have k6 := @neighbourLedger_frame
  have k7 := @neighbourLedger_inner
  simp only [measReset, when]
  repeat' split
  all_goals simp [k0, k1, k2, k3, k4, k5, k6, k7]

@[simp] theorem measResetComplete_inner (t : Nat) (s : State) :
    (measResetComplete t s).tt.ctl = s.tt.ctl ∧ (measResetComplete t s).tt.instA = s.tt.instA ∧
    (measResetComplete t s).tt.instB = s.tt.instB ∧ (measResetComplete t s).tt.startSec = s.tt.startSec ∧
    (measResetComplete t s).tt.startFrac = s.tt.startFrac ∧ (measResetComplete t s).tt.protHit = s.tt.protHit ∧
    (measResetComplete t s).sys.phase = s.sys.phase ∧ (measResetComplete t s).sys.cause = s.sys.cause ∧
    (measResetComplete t s).sys.cfgState = s.sys.cfgState ∧ (measResetComplete t s).sys.x32Run = s.sys.x32Run ∧
    (measResetComplete t s).sys.earlyWr = s.sys.earlyWr ∧ (measResetComplete t s).sys.lostCmds = s.sys.lostCmds ∧
    (measResetComplete t s).pwr.trickle = s.pwr.trickle ∧ (measResetComplete t s).pwr.onVbat = s.pwr.onVbat ∧
    (measResetComplete t s).pwr.mainOn = s.pwr.mainOn ∧ (measResetComplete t s).pwr.aonOn = s.pwr.aonOn ∧
    (measResetComplete t s).pwr.warn = s.pwr.warn ∧ (measResetComplete t s).pwr.ship = s.pwr.ship ∧
    (measResetComplete t s).pwr.castleCount = s.pwr.castleCount ∧
    (measResetComplete t s).pwr.firstValid = s.pwr.firstValid ∧
    (measResetComplete t s).pwr.firstSec = s.pwr.firstSec ∧ (measResetComplete t s).pwr.firstFrac = s.pwr.firstFrac ∧
    (measResetComplete t s).pwr.castlings = s.pwr.castlings ∧ (measResetComplete t s).cond.arg0 = s.cond.arg0 ∧
    (measResetComplete t s).cond.arg1 = s.cond.arg1 ∧ (measResetComplete t s).cond.arg2 = s.cond.arg2 ∧
    (measResetComplete t s).cond.tail = s.cond.tail ∧ (measResetComplete t s).cond.inReset = s.cond.inReset ∧
    (measResetComplete t s).afe.eff = s.afe.eff ∧ (measResetComplete t s).afe.diag = s.afe.diag ∧
    (measResetComplete t s).ros.sealed = s.ros.sealed ∧ (measResetComplete t s).out.gen = s.out.gen ∧
    (measResetComplete t s).out.span = s.out.span ∧ (measResetComplete t s).out.staged = s.out.staged ∧
    (measResetComplete t s).hif.i3c = s.hif.i3c ∧ (measResetComplete t s).hif.dynAddr = s.hif.dynAddr ∧
    (measResetComplete t s).hif.crcEn = s.hif.crcEn ∧ (measResetComplete t s).hif.txn = s.hif.txn ∧
    (measResetComplete t s).hif.reply = s.hif.reply ∧ (measResetComplete t s).nv.pages = s.nv.pages := by
  have k0 := @acquire_frame
  have k1 := @acquire_inner
  have k2 := @applySwitch_frame
  have k3 := @applySwitch_inner
  have k4 := @recoverBy_frame
  have k5 := @recoverBy_inner
  simp only [measResetComplete, when]
  repeat' split
  all_goals simp [k0, k1, k2, k3, k4, k5]

theorem select_inner (s : State) :
    (select s).pwr.ctl = s.pwr.ctl ∧ (select s).pwr.trickle = s.pwr.trickle ∧ (select s).pwr.mainOn = s.pwr.mainOn ∧
    (select s).pwr.aonOn = s.pwr.aonOn ∧ (select s).pwr.warn = s.pwr.warn ∧ (select s).pwr.ship = s.pwr.ship ∧
    (select s).pwr.castleCount = s.pwr.castleCount ∧ (select s).pwr.firstValid = s.pwr.firstValid ∧
    (select s).pwr.firstSec = s.pwr.firstSec ∧ (select s).pwr.firstFrac = s.pwr.firstFrac := by
  simp only [select, when]
  repeat' split
  all_goals simp

theorem trickleEval_inner (s : State) :
    (trickleEval s).pwr.ctl = s.pwr.ctl ∧ (trickleEval s).pwr.trickle = s.pwr.trickle ∧
    (trickleEval s).pwr.onVbat = s.pwr.onVbat ∧ (trickleEval s).pwr.mainOn = s.pwr.mainOn ∧
    (trickleEval s).pwr.aonOn = s.pwr.aonOn ∧ (trickleEval s).pwr.warn = s.pwr.warn ∧
    (trickleEval s).pwr.ship = s.pwr.ship ∧ (trickleEval s).pwr.castleCount = s.pwr.castleCount ∧
    (trickleEval s).pwr.firstValid = s.pwr.firstValid ∧ (trickleEval s).pwr.firstSec = s.pwr.firstSec ∧
    (trickleEval s).pwr.firstFrac = s.pwr.firstFrac ∧ (trickleEval s).pwr.castlings = s.pwr.castlings ∧
    (trickleEval s).evt.mask = s.evt.mask ∧ (trickleEval s).evt.copy = s.evt.copy := by
  simp only [trickleEval, when]
  repeat' split
  all_goals simp

theorem tearOp_inner (s : State) :
    (tearOp s).nv.running = s.nv.running ∧ (tearOp s).nv.suspend = s.nv.suspend ∧ (tearOp s).nv.todo = s.nv.todo := by
  simp only [tearOp, when]
  repeat' split
  all_goals simp

theorem mainDown_inner (s : State) :
    (mainDown s).rtc.sec = s.rtc.sec ∧ (mainDown s).rtc.presc = s.rtc.presc ∧ (mainDown s).rtc.halted = s.rtc.halted ∧
    (mainDown s).rtc.timePend = s.rtc.timePend ∧ (mainDown s).rtc.trim = s.rtc.trim ∧
    (mainDown s).rtc.offset = s.rtc.offset ∧ (mainDown s).rtc.dst = s.rtc.dst ∧
    (mainDown s).rtc.started = s.rtc.started ∧ (mainDown s).sys.x32Run = s.sys.x32Run ∧
    (mainDown s).pwr.trickle = s.pwr.trickle ∧ (mainDown s).pwr.onVbat = s.pwr.onVbat ∧
    (mainDown s).pwr.aonOn = s.pwr.aonOn ∧ (mainDown s).pwr.ship = s.pwr.ship ∧
    (mainDown s).pwr.castleCount = s.pwr.castleCount ∧ (mainDown s).pwr.firstValid = s.pwr.firstValid ∧
    (mainDown s).pwr.firstSec = s.pwr.firstSec ∧ (mainDown s).pwr.firstFrac = s.pwr.firstFrac ∧
    (mainDown s).pwr.castlings = s.pwr.castlings ∧ (mainDown s).evt.copy = s.evt.copy := by
  have k0 := @clearMain_frame
  have k1 := @clearMain_inner
  simp only [mainDown, when]
  repeat' split
  all_goals simp [k0, k1]

theorem mainOff_inner (s : State) :
    (mainOff s).rtc.sec = s.rtc.sec ∧ (mainOff s).rtc.presc = s.rtc.presc ∧ (mainOff s).rtc.halted = s.rtc.halted ∧
    (mainOff s).rtc.timePend = s.rtc.timePend ∧ (mainOff s).rtc.trim = s.rtc.trim ∧
    (mainOff s).rtc.offset = s.rtc.offset ∧ (mainOff s).rtc.dst = s.rtc.dst ∧
    (mainOff s).rtc.started = s.rtc.started ∧ (mainOff s).sys.x32Run = s.sys.x32Run ∧
    (mainOff s).pwr.trickle = s.pwr.trickle ∧ (mainOff s).pwr.onVbat = s.pwr.onVbat ∧
    (mainOff s).pwr.aonOn = s.pwr.aonOn ∧ (mainOff s).pwr.ship = s.pwr.ship ∧
    (mainOff s).pwr.castleCount = s.pwr.castleCount ∧ (mainOff s).pwr.firstValid = s.pwr.firstValid ∧
    (mainOff s).pwr.firstSec = s.pwr.firstSec ∧ (mainOff s).pwr.firstFrac = s.pwr.firstFrac ∧
    (mainOff s).pwr.castlings = s.pwr.castlings ∧ (mainOff s).evt.copy = s.evt.copy := by
  have k0 := @mainDown_frame
  have k1 := @mainDown_inner
  have k2 := @tearOp_frame
  have k3 := @tearOp_inner
  simp only [mainOff, when]
  repeat' split
  all_goals simp [k0, k1, k2, k3]

theorem mainOn_inner (ship : Bool) (s : State) :
    (mainOn ship s).rtc.sec = s.rtc.sec ∧ (mainOn ship s).rtc.presc = s.rtc.presc ∧
    (mainOn ship s).rtc.halted = s.rtc.halted ∧ (mainOn ship s).rtc.timePend = s.rtc.timePend ∧
    (mainOn ship s).rtc.trim = s.rtc.trim ∧ (mainOn ship s).rtc.offset = s.rtc.offset ∧
    (mainOn ship s).rtc.dst = s.rtc.dst ∧ (mainOn ship s).rtc.started = s.rtc.started ∧
    (mainOn ship s).sys.x32Run = s.sys.x32Run ∧ (mainOn ship s).pwr.trickle = s.pwr.trickle ∧
    (mainOn ship s).pwr.onVbat = s.pwr.onVbat ∧ (mainOn ship s).pwr.aonOn = s.pwr.aonOn ∧
    (mainOn ship s).pwr.ship = s.pwr.ship ∧ (mainOn ship s).pwr.castleCount = s.pwr.castleCount ∧
    (mainOn ship s).pwr.firstValid = s.pwr.firstValid ∧ (mainOn ship s).pwr.firstSec = s.pwr.firstSec ∧
    (mainOn ship s).pwr.firstFrac = s.pwr.firstFrac ∧ (mainOn ship s).pwr.castlings = s.pwr.castlings ∧
    (mainOn ship s).evt.copy = s.evt.copy := by
  have k0 := @beginStart_frame
  have k1 := @beginStart_inner
  simp only [mainOn, when]
  repeat' split
  all_goals simp [k0, k1]

theorem aonOff_inner (s : State) :
    (aonOff s).rtc.sec = s.rtc.sec ∧ (aonOff s).rtc.presc = s.rtc.presc ∧ (aonOff s).rtc.halted = s.rtc.halted ∧
    (aonOff s).rtc.timePend = s.rtc.timePend ∧ (aonOff s).rtc.trim = s.rtc.trim ∧
    (aonOff s).rtc.offset = s.rtc.offset ∧ (aonOff s).rtc.dst = s.rtc.dst ∧ (aonOff s).pwr.trickle = s.pwr.trickle ∧
    (aonOff s).pwr.onVbat = s.pwr.onVbat ∧ (aonOff s).pwr.castleCount = s.pwr.castleCount ∧
    (aonOff s).pwr.firstValid = s.pwr.firstValid ∧ (aonOff s).pwr.firstSec = s.pwr.firstSec ∧
    (aonOff s).pwr.firstFrac = s.pwr.firstFrac ∧ (aonOff s).evt.copy = s.evt.copy := by
  have k0 := @mainOff_frame
  have k1 := @mainOff_inner
  have k2 := @mainOn_frame
  have k3 := @mainOn_inner
  simp only [aonOff, when]
  repeat' split
  all_goals simp [k0, k1, k2, k3]

theorem leaveShip_inner (s : State) :
    (leaveShip s).rtc.sec = s.rtc.sec ∧ (leaveShip s).rtc.presc = s.rtc.presc ∧
    (leaveShip s).rtc.halted = s.rtc.halted ∧ (leaveShip s).rtc.timePend = s.rtc.timePend ∧
    (leaveShip s).rtc.trim = s.rtc.trim ∧ (leaveShip s).rtc.offset = s.rtc.offset ∧
    (leaveShip s).rtc.dst = s.rtc.dst ∧ (leaveShip s).rtc.started = s.rtc.started ∧
    (leaveShip s).sys.x32Run = s.sys.x32Run ∧ (leaveShip s).pwr.trickle = s.pwr.trickle ∧
    (leaveShip s).pwr.aonOn = s.pwr.aonOn ∧ (leaveShip s).pwr.castleCount = s.pwr.castleCount ∧
    (leaveShip s).pwr.firstValid = s.pwr.firstValid ∧ (leaveShip s).pwr.firstSec = s.pwr.firstSec ∧
    (leaveShip s).pwr.firstFrac = s.pwr.firstFrac ∧ (leaveShip s).evt.copy = s.evt.copy := by
  have k0 := @mainOn_frame
  have k1 := @mainOn_inner
  have k2 := @select_frame
  have k3 := @select_inner
  have k4 := @trickleEval_frame
  have k5 := @trickleEval_inner
  simp only [leaveShip, when]
  repeat' split
  all_goals simp [k0, k1, k2, k3, k4, k5]

theorem shipEval_inner (s : State) :
    (shipEval s).rtc.sec = s.rtc.sec ∧ (shipEval s).rtc.presc = s.rtc.presc ∧ (shipEval s).rtc.halted = s.rtc.halted ∧
    (shipEval s).rtc.timePend = s.rtc.timePend ∧ (shipEval s).rtc.trim = s.rtc.trim ∧
    (shipEval s).rtc.offset = s.rtc.offset ∧ (shipEval s).rtc.dst = s.rtc.dst ∧
    (shipEval s).rtc.started = s.rtc.started ∧ (shipEval s).sys.x32Run = s.sys.x32Run ∧
    (shipEval s).pwr.trickle = s.pwr.trickle ∧ (shipEval s).pwr.aonOn = s.pwr.aonOn ∧
    (shipEval s).pwr.castleCount = s.pwr.castleCount ∧ (shipEval s).pwr.firstValid = s.pwr.firstValid ∧
    (shipEval s).pwr.firstSec = s.pwr.firstSec ∧ (shipEval s).pwr.firstFrac = s.pwr.firstFrac ∧
    (shipEval s).evt.copy = s.evt.copy := by
  have k0 := @leaveShip_frame
  have k1 := @leaveShip_inner
  have k2 := @tearOp_frame
  have k3 := @tearOp_inner
  simp only [shipEval, when]
  repeat' split
  all_goals simp [k0, k1, k2, k3]

theorem railsEval_inner (s : State) :
    (railsEval s).rtc.sec = s.rtc.sec ∧ (railsEval s).rtc.presc = s.rtc.presc ∧
    (railsEval s).rtc.halted = s.rtc.halted ∧ (railsEval s).rtc.timePend = s.rtc.timePend ∧
    (railsEval s).rtc.trim = s.rtc.trim ∧ (railsEval s).rtc.offset = s.rtc.offset ∧
    (railsEval s).rtc.dst = s.rtc.dst ∧ (railsEval s).pwr.trickle = s.pwr.trickle ∧
    (railsEval s).pwr.castleCount = s.pwr.castleCount ∧ (railsEval s).pwr.firstValid = s.pwr.firstValid ∧
    (railsEval s).pwr.firstSec = s.pwr.firstSec ∧ (railsEval s).pwr.firstFrac = s.pwr.firstFrac ∧
    (railsEval s).evt.copy = s.evt.copy := by
  have k0 := @aonOff_frame
  have k1 := @aonOff_inner
  have k2 := @mainOff_frame
  have k3 := @mainOff_inner
  have k4 := @mainOn_frame
  have k5 := @mainOn_inner
  have k6 := @select_frame
  have k7 := @select_inner
  have k8 := @shipEval_frame
  have k9 := @shipEval_inner
  have k10 := @trickleEval_frame
  have k11 := @trickleEval_inner
  simp only [railsEval, when]
  repeat' split
  all_goals simp [k0, k1, k2, k3, k4, k5, k6, k7, k8, k9, k10, k11]

theorem enterShip_inner (s : State) :
    (enterShip s).rtc.sec = s.rtc.sec ∧ (enterShip s).rtc.presc = s.rtc.presc ∧
    (enterShip s).rtc.halted = s.rtc.halted ∧ (enterShip s).rtc.timePend = s.rtc.timePend ∧
    (enterShip s).rtc.trim = s.rtc.trim ∧ (enterShip s).rtc.offset = s.rtc.offset ∧
    (enterShip s).rtc.dst = s.rtc.dst ∧ (enterShip s).rtc.started = s.rtc.started ∧
    (enterShip s).pwr.trickle = s.pwr.trickle ∧ (enterShip s).pwr.onVbat = s.pwr.onVbat ∧
    (enterShip s).pwr.aonOn = s.pwr.aonOn ∧ (enterShip s).pwr.castleCount = s.pwr.castleCount ∧
    (enterShip s).pwr.firstValid = s.pwr.firstValid ∧ (enterShip s).pwr.firstSec = s.pwr.firstSec ∧
    (enterShip s).pwr.firstFrac = s.pwr.firstFrac ∧ (enterShip s).pwr.castlings = s.pwr.castlings ∧
    (enterShip s).evt.copy = s.evt.copy := by
  have k0 := @mainDown_frame
  have k1 := @mainDown_inner
  simp only [enterShip, when]
  repeat' split
  all_goals simp [k0, k1]

theorem countEdge_inner (s : State) :
    (countEdge s).2.evt.mask = s.evt.mask ∧ (countEdge s).2.evt.copy = s.evt.copy := by
  simp only [countEdge, when]
  repeat' split
  all_goals simp

theorem rtcEdge_inner (s : State) :
    (rtcEdge s).2.evt.mask = s.evt.mask ∧ (rtcEdge s).2.evt.copy = s.evt.copy := by
  have k0 := @countEdge_frame
  have k1 := @countEdge_inner
  have k2 := @startEdge_frame
  simp only [rtcEdge, when]
  repeat' split
  all_goals simp [k0, k1, k2]

theorem captureEdge_inner (e : Edge) (k : Tick) (s : State) :
    (captureEdge e k s).clk.src = s.clk.src ∧ (captureEdge e k s).clk.limits = s.clk.limits ∧
    (captureEdge e k s).clk.spread = s.clk.spread ∧ (captureEdge e k s).clk.active = s.clk.active ∧
    (captureEdge e k s).clk.plans = s.clk.plans ∧ (captureEdge e k s).clk.bypass = s.clk.bypass ∧
    (captureEdge e k s).clk.drift = s.clk.drift ∧ (captureEdge e k s).clk.q = s.clk.q := by
  simp only [captureEdge, when]
  repeat' split
  all_goals simp

theorem driftEdge_inner (e : Edge) (s : State) :
    (driftEdge e s).clk.src = s.clk.src ∧ (driftEdge e s).clk.limits = s.clk.limits ∧
    (driftEdge e s).clk.spread = s.clk.spread ∧ (driftEdge e s).clk.active = s.clk.active ∧
    (driftEdge e s).clk.plans = s.clk.plans ∧ (driftEdge e s).clk.bypass = s.clk.bypass ∧
    (driftEdge e s).clk.drift = s.clk.drift ∧ (driftEdge e s).clk.q = s.clk.q := by
  simp only [driftEdge, when]
  repeat' split
  all_goals simp

theorem slowTake_inner (stamp : Stamp) (s : State) :
    (slowTake stamp s).evin.incfg = s.evin.incfg := by
  have k0 := @setAccepted_frame
  have k1 := @setAccepted_inner
  simp only [slowTake, when]
  repeat' split
  all_goals simp [k0, k1]

theorem slowSync_inner (a : Nat) (stamp : Stamp) (s : State) :
    (slowSync a stamp s).2.evin.incfg = s.evin.incfg ∧ (slowSync a stamp s).2.evin.level = s.evin.level ∧
    (slowSync a stamp s).2.evin.syncLevel = s.evin.syncLevel ∧ (slowSync a stamp s).2.tt.ctl = s.tt.ctl ∧
    (slowSync a stamp s).2.tt.instA = s.tt.instA ∧ (slowSync a stamp s).2.tt.instB = s.tt.instB ∧
    (slowSync a stamp s).2.tt.active = s.tt.active ∧ (slowSync a stamp s).2.tt.activeValid = s.tt.activeValid ∧
    (slowSync a stamp s).2.tt.startSec = s.tt.startSec ∧ (slowSync a stamp s).2.tt.startFrac = s.tt.startFrac ∧
    (slowSync a stamp s).2.tt.swPend = s.tt.swPend ∧ (slowSync a stamp s).2.tt.protHit = s.tt.protHit ∧
    (slowSync a stamp s).2.evt.mask = s.evt.mask ∧ (slowSync a stamp s).2.evt.copy = s.evt.copy := by
  have k0 := @syncReset_frame
  have k1 := @syncReset_inner
  simp only [slowSync, when]
  repeat' split
  all_goals simp [k0, k1]

theorem lateTtStart_inner (f : Option Firing) (target : Nat) (fate : Fate) (s : State) :
    (lateTtStart f target fate s).tt.ctl = s.tt.ctl ∧ (lateTtStart f target fate s).tt.instA = s.tt.instA ∧
    (lateTtStart f target fate s).tt.instB = s.tt.instB ∧ (lateTtStart f target fate s).tt.active = s.tt.active ∧
    (lateTtStart f target fate s).tt.activeValid = s.tt.activeValid ∧
    (lateTtStart f target fate s).tt.startSec = s.tt.startSec ∧
    (lateTtStart f target fate s).tt.startFrac = s.tt.startFrac ∧
    (lateTtStart f target fate s).tt.swPend = s.tt.swPend ∧ (lateTtStart f target fate s).tt.protHit = s.tt.protHit := by
  simp only [lateTtStart, when]
  repeat' split
  all_goals simp

theorem skippedTtStart_inner (stamp : Stamp) (f : Option Firing) (s : State) :
    (skippedTtStart stamp f s).evin.incfg = s.evin.incfg ∧ (skippedTtStart stamp f s).evin.level = s.evin.level ∧
    (skippedTtStart stamp f s).evin.syncLevel = s.evin.syncLevel ∧ (skippedTtStart stamp f s).evt.mask = s.evt.mask ∧
    (skippedTtStart stamp f s).evt.copy = s.evt.copy := by
  have k0 := @lateTrigger_frame
  have k1 := @lateTrigger_inner
  simp only [skippedTtStart, when]
  repeat' split
  all_goals simp [k0, k1]

theorem ttAfter_inner (f : Option Firing) (s : State) :
    (ttAfter f s).tt.instA = s.tt.instA ∧ (ttAfter f s).tt.instB = s.tt.instB ∧
    (ttAfter f s).tt.active = s.tt.active ∧ (ttAfter f s).tt.activeValid = s.tt.activeValid ∧
    (ttAfter f s).tt.startSec = s.tt.startSec ∧ (ttAfter f s).tt.startFrac = s.tt.startFrac ∧
    (ttAfter f s).tt.swPend = s.tt.swPend ∧ (ttAfter f s).tt.protHit = s.tt.protHit := by
  simp only [ttAfter, when]
  repeat' split
  all_goals simp

theorem alarmAout_inner (asleep : Bool) (s : State) :
    (alarmAout asleep s).sys.phase = s.sys.phase ∧ (alarmAout asleep s).sys.cause = s.sys.cause ∧
    (alarmAout asleep s).sys.cfgState = s.sys.cfgState ∧ (alarmAout asleep s).sys.x32Run = s.sys.x32Run ∧
    (alarmAout asleep s).sys.measRst = s.sys.measRst ∧ (alarmAout asleep s).sys.earlyWr = s.sys.earlyWr ∧
    (alarmAout asleep s).sys.lostCmds = s.sys.lostCmds ∧ (alarmAout asleep s).out.cfg = s.out.cfg ∧
    (alarmAout asleep s).out.gen = s.out.gen ∧ (alarmAout asleep s).out.span = s.out.span ∧
    (alarmAout asleep s).out.staged = s.out.staged := by
  have k0 := @applyCode_frame
  have k1 := @applyCode_inner
  simp only [alarmAout, when]
  repeat' split
  all_goals simp [k0, k1]

theorem syncAtEdge_inner (a : Nat) (o : Option Stamp) (s : State) :
    (syncAtEdge a o s).2.evin.incfg = s.evin.incfg ∧ (syncAtEdge a o s).2.evin.level = s.evin.level ∧
    (syncAtEdge a o s).2.evin.syncLevel = s.evin.syncLevel ∧ (syncAtEdge a o s).2.tt.ctl = s.tt.ctl ∧
    (syncAtEdge a o s).2.tt.instA = s.tt.instA ∧ (syncAtEdge a o s).2.tt.instB = s.tt.instB ∧
    (syncAtEdge a o s).2.tt.active = s.tt.active ∧ (syncAtEdge a o s).2.tt.activeValid = s.tt.activeValid ∧
    (syncAtEdge a o s).2.tt.startSec = s.tt.startSec ∧ (syncAtEdge a o s).2.tt.startFrac = s.tt.startFrac ∧
    (syncAtEdge a o s).2.tt.swPend = s.tt.swPend ∧ (syncAtEdge a o s).2.tt.protHit = s.tt.protHit ∧
    (syncAtEdge a o s).2.evt.mask = s.evt.mask ∧ (syncAtEdge a o s).2.evt.copy = s.evt.copy := by
  have k0 := @slowSync_frame
  have k1 := @slowSync_inner
  simp only [syncAtEdge, when]
  repeat' split
  all_goals simp [k0, k1]

theorem edgeInputs_inner (e : Edge) (k : Tick) (s : State) :
    (edgeInputs e k s).2.2.evin.incfg = s.evin.incfg ∧ (edgeInputs e k s).2.2.tt.ctl = s.tt.ctl ∧
    (edgeInputs e k s).2.2.tt.instA = s.tt.instA ∧ (edgeInputs e k s).2.2.tt.instB = s.tt.instB ∧
    (edgeInputs e k s).2.2.tt.active = s.tt.active ∧ (edgeInputs e k s).2.2.tt.activeValid = s.tt.activeValid ∧
    (edgeInputs e k s).2.2.tt.startSec = s.tt.startSec ∧ (edgeInputs e k s).2.2.tt.startFrac = s.tt.startFrac ∧
    (edgeInputs e k s).2.2.tt.swPend = s.tt.swPend ∧ (edgeInputs e k s).2.2.tt.protHit = s.tt.protHit ∧
    (edgeInputs e k s).2.2.sys.phase = s.sys.phase ∧ (edgeInputs e k s).2.2.sys.cause = s.sys.cause ∧
    (edgeInputs e k s).2.2.sys.cfgState = s.sys.cfgState ∧ (edgeInputs e k s).2.2.sys.x32Run = s.sys.x32Run ∧
    (edgeInputs e k s).2.2.sys.measRst = s.sys.measRst ∧ (edgeInputs e k s).2.2.sys.earlyWr = s.sys.earlyWr ∧
    (edgeInputs e k s).2.2.sys.lostCmds = s.sys.lostCmds ∧ (edgeInputs e k s).2.2.out.code = s.out.code ∧
    (edgeInputs e k s).2.2.out.cfg = s.out.cfg ∧ (edgeInputs e k s).2.2.out.gen = s.out.gen ∧
    (edgeInputs e k s).2.2.out.span = s.out.span ∧ (edgeInputs e k s).2.2.out.staged = s.out.staged ∧
    (edgeInputs e k s).2.2.evt.mask = s.evt.mask ∧ (edgeInputs e k s).2.2.evt.copy = s.evt.copy := by
  have k0 := @inputsAt_frame
  have k1 := @inputsAt_inner
  have k2 := @slowTake_frame
  have k3 := @slowTake_inner
  have k4 := @syncAtEdge_frame
  have k5 := @syncAtEdge_inner
  simp only [edgeInputs, when]
  repeat' split
  all_goals simp [k0, k1, k2, k3, k4, k5]

theorem edgeLatch_inner (f : Fires) (s : State) :
    (edgeLatch f s).evt.mask = s.evt.mask ∧ (edgeLatch f s).evt.copy = s.evt.copy := by
  simp only [edgeLatch, when]
  repeat' split
  all_goals simp

theorem edgeDeliver_inner (m : Moment) (k : Tick) (f : Fires) (ins : List Occ) (s u : State) :
    (edgeDeliver m k f ins s u).evin.incfg = u.evin.incfg ∧ (edgeDeliver m k f ins s u).evin.level = u.evin.level ∧
    (edgeDeliver m k f ins s u).evin.syncLevel = u.evin.syncLevel ∧ (edgeDeliver m k f ins s u).tt.ctl = u.tt.ctl ∧
    (edgeDeliver m k f ins s u).tt.instA = u.tt.instA ∧ (edgeDeliver m k f ins s u).tt.instB = u.tt.instB ∧
    (edgeDeliver m k f ins s u).tt.active = u.tt.active ∧
    (edgeDeliver m k f ins s u).tt.activeValid = u.tt.activeValid ∧
    (edgeDeliver m k f ins s u).tt.startSec = u.tt.startSec ∧
    (edgeDeliver m k f ins s u).tt.startFrac = u.tt.startFrac ∧ (edgeDeliver m k f ins s u).tt.swPend = u.tt.swPend ∧
    (edgeDeliver m k f ins s u).tt.protHit = u.tt.protHit ∧ (edgeDeliver m k f ins s u).sys.phase = u.sys.phase ∧
    (edgeDeliver m k f ins s u).sys.cause = u.sys.cause ∧ (edgeDeliver m k f ins s u).sys.cfgState = u.sys.cfgState ∧
    (edgeDeliver m k f ins s u).sys.x32Run = u.sys.x32Run ∧ (edgeDeliver m k f ins s u).sys.measRst = u.sys.measRst ∧
    (edgeDeliver m k f ins s u).sys.earlyWr = u.sys.earlyWr ∧
    (edgeDeliver m k f ins s u).sys.lostCmds = u.sys.lostCmds ∧ (edgeDeliver m k f ins s u).clk.src = u.clk.src ∧
    (edgeDeliver m k f ins s u).clk.limits = u.clk.limits ∧ (edgeDeliver m k f ins s u).clk.spread = u.clk.spread ∧
    (edgeDeliver m k f ins s u).clk.active = u.clk.active ∧ (edgeDeliver m k f ins s u).clk.plans = u.clk.plans ∧
    (edgeDeliver m k f ins s u).clk.drift = u.clk.drift ∧ (edgeDeliver m k f ins s u).ldg.ctl = u.ldg.ctl ∧
    (edgeDeliver m k f ins s u).ldg.run = u.ldg.run ∧ (edgeDeliver m k f ins s u).ldg.cnt = u.ldg.cnt ∧
    (edgeDeliver m k f ins s u).ldg.lap = u.ldg.lap ∧ (edgeDeliver m k f ins s u).afe.ctl = u.afe.ctl ∧
    (edgeDeliver m k f ins s u).afe.eff = u.afe.eff ∧ (edgeDeliver m k f ins s u).afe.diag = u.afe.diag ∧
    (edgeDeliver m k f ins s u).ros.sealed = u.ros.sealed ∧ (edgeDeliver m k f ins s u).out.code = u.out.code ∧
    (edgeDeliver m k f ins s u).out.cfg = u.out.cfg ∧ (edgeDeliver m k f ins s u).out.gen = u.out.gen ∧
    (edgeDeliver m k f ins s u).out.span = u.out.span ∧ (edgeDeliver m k f ins s u).out.staged = u.out.staged ∧
    (edgeDeliver m k f ins s u).evt.mask = u.evt.mask ∧ (edgeDeliver m k f ins s u).evt.copy = u.evt.copy := by
  have k0 := @lateTtStart_frame
  have k1 := @lateTtStart_inner
  have k2 := @skippedTtStart_frame
  have k3 := @skippedTtStart_inner
  simp only [edgeDeliver, when]
  repeat' split
  all_goals simp [k0, k1, k2, k3]

theorem edgeAout_inner (f : Fires) (s u : State) :
    (edgeAout f s u).sys.phase = u.sys.phase ∧ (edgeAout f s u).sys.cause = u.sys.cause ∧
    (edgeAout f s u).sys.cfgState = u.sys.cfgState ∧ (edgeAout f s u).sys.x32Run = u.sys.x32Run ∧
    (edgeAout f s u).sys.measRst = u.sys.measRst ∧ (edgeAout f s u).sys.earlyWr = u.sys.earlyWr ∧
    (edgeAout f s u).sys.lostCmds = u.sys.lostCmds ∧ (edgeAout f s u).out.cfg = u.out.cfg ∧
    (edgeAout f s u).out.gen = u.out.gen ∧ (edgeAout f s u).out.span = u.out.span ∧
    (edgeAout f s u).out.staged = u.out.staged := by
  have k0 := @alarmAout_frame
  have k1 := @alarmAout_inner
  simp only [edgeAout, when]
  repeat' split
  all_goals simp [k0, k1]

theorem edgeLaps_inner (n : Nat) (f : Fires) (s u : State) :
    (edgeLaps n f s u).2.ldg.ctl = u.ldg.ctl ∧ (edgeLaps n f s u).2.ldg.run = u.ldg.run ∧
    (edgeLaps n f s u).2.ldg.cnt = u.ldg.cnt ∧ (edgeLaps n f s u).2.evt.mask = u.evt.mask ∧
    (edgeLaps n f s u).2.evt.copy = u.evt.copy := by
  have k0 := @lapReq_frame
  have k1 := @lapReq_inner
  simp only [edgeLaps, when]
  repeat' split
  all_goals simp [k0, k1]

theorem edgeDone_inner (k : Tick) (f : Fires) (reached lap : Bool) (s u : State) :
    (edgeDone k f reached lap s u).tt.instA = u.tt.instA ∧ (edgeDone k f reached lap s u).tt.instB = u.tt.instB ∧
    (edgeDone k f reached lap s u).tt.active = u.tt.active ∧
    (edgeDone k f reached lap s u).tt.activeValid = u.tt.activeValid ∧
    (edgeDone k f reached lap s u).tt.startSec = u.tt.startSec ∧
    (edgeDone k f reached lap s u).tt.startFrac = u.tt.startFrac ∧
    (edgeDone k f reached lap s u).tt.swPend = u.tt.swPend ∧
    (edgeDone k f reached lap s u).tt.protHit = u.tt.protHit := by
  have k0 := @almAfter_frame
  have k1 := @cdMiss_frame
  have k2 := @ttAfter_frame
  have k3 := @ttAfter_inner
  simp only [edgeDone, when]
  repeat' split
  all_goals simp [k0, k1, k2, k3]

theorem edgeRegister_inner (e : Edge) (k : Tick) (s : State) :
    (edgeRegister e k s).2.evin.incfg = s.evin.incfg ∧ (edgeRegister e k s).2.tt.instA = s.tt.instA ∧
    (edgeRegister e k s).2.tt.instB = s.tt.instB ∧ (edgeRegister e k s).2.tt.active = s.tt.active ∧
    (edgeRegister e k s).2.tt.activeValid = s.tt.activeValid ∧ (edgeRegister e k s).2.tt.startSec = s.tt.startSec ∧
    (edgeRegister e k s).2.tt.startFrac = s.tt.startFrac ∧ (edgeRegister e k s).2.tt.swPend = s.tt.swPend ∧
    (edgeRegister e k s).2.tt.protHit = s.tt.protHit ∧ (edgeRegister e k s).2.sys.phase = s.sys.phase ∧
    (edgeRegister e k s).2.sys.cause = s.sys.cause ∧ (edgeRegister e k s).2.sys.cfgState = s.sys.cfgState ∧
    (edgeRegister e k s).2.sys.x32Run = s.sys.x32Run ∧ (edgeRegister e k s).2.sys.measRst = s.sys.measRst ∧
    (edgeRegister e k s).2.sys.earlyWr = s.sys.earlyWr ∧ (edgeRegister e k s).2.sys.lostCmds = s.sys.lostCmds ∧
    (edgeRegister e k s).2.clk.src = s.clk.src ∧ (edgeRegister e k s).2.clk.limits = s.clk.limits ∧
    (edgeRegister e k s).2.clk.spread = s.clk.spread ∧ (edgeRegister e k s).2.clk.active = s.clk.active ∧
    (edgeRegister e k s).2.clk.plans = s.clk.plans ∧ (edgeRegister e k s).2.clk.drift = s.clk.drift ∧
    (edgeRegister e k s).2.ldg.ctl = s.ldg.ctl ∧ (edgeRegister e k s).2.ldg.run = s.ldg.run ∧
    (edgeRegister e k s).2.ldg.cnt = s.ldg.cnt ∧ (edgeRegister e k s).2.afe.ctl = s.afe.ctl ∧
    (edgeRegister e k s).2.afe.eff = s.afe.eff ∧ (edgeRegister e k s).2.afe.diag = s.afe.diag ∧
    (edgeRegister e k s).2.ros.sealed = s.ros.sealed ∧ (edgeRegister e k s).2.out.cfg = s.out.cfg ∧
    (edgeRegister e k s).2.out.gen = s.out.gen ∧ (edgeRegister e k s).2.out.span = s.out.span ∧
    (edgeRegister e k s).2.out.staged = s.out.staged ∧ (edgeRegister e k s).2.evt.mask = s.evt.mask ∧
    (edgeRegister e k s).2.evt.copy = s.evt.copy := by
  have k0 := @edgeAout_frame
  have k1 := @edgeAout_inner
  have k2 := @edgeDeliver_frame
  have k3 := @edgeDeliver_inner
  have k4 := @edgeDone_frame
  have k5 := @edgeDone_inner
  have k6 := @edgeInputs_frame
  have k7 := @edgeInputs_inner
  have k8 := @edgeLaps_frame
  have k9 := @edgeLaps_inner
  have k10 := @edgeLatch_frame
  have k11 := @edgeLatch_inner
  simp only [edgeRegister, when]
  repeat' split
  all_goals simp [k0, k1, k2, k3, k4, k5, k6, k7, k8, k9, k10, k11]

theorem registerCastling_inner (sec frac : Word) (back : Bool) (s : State) :
    (registerCastling sec frac back s).pwr.ctl = s.pwr.ctl ∧
    (registerCastling sec frac back s).pwr.trickle = s.pwr.trickle ∧
    (registerCastling sec frac back s).pwr.onVbat = s.pwr.onVbat ∧
    (registerCastling sec frac back s).pwr.mainOn = s.pwr.mainOn ∧
    (registerCastling sec frac back s).pwr.aonOn = s.pwr.aonOn ∧
    (registerCastling sec frac back s).pwr.warn = s.pwr.warn ∧
    (registerCastling sec frac back s).pwr.ship = s.pwr.ship ∧
    (registerCastling sec frac back s).pwr.castlings = s.pwr.castlings ∧
    (registerCastling sec frac back s).evt.mask = s.evt.mask ∧
    (registerCastling sec frac back s).evt.copy = s.evt.copy := by
  simp only [registerCastling, when]
  repeat' split
  all_goals simp

theorem clearFirst_inner (s : State) :
    (clearFirst s).pwr.ctl = s.pwr.ctl ∧ (clearFirst s).pwr.trickle = s.pwr.trickle ∧
    (clearFirst s).pwr.onVbat = s.pwr.onVbat ∧ (clearFirst s).pwr.mainOn = s.pwr.mainOn ∧
    (clearFirst s).pwr.aonOn = s.pwr.aonOn ∧ (clearFirst s).pwr.warn = s.pwr.warn ∧
    (clearFirst s).pwr.ship = s.pwr.ship ∧ (clearFirst s).pwr.castlings = s.pwr.castlings := by
  simp only [clearFirst, when]
  repeat' split
  all_goals simp

theorem castleEdge_inner (s : State) :
    (castleEdge s).pwr.ctl = s.pwr.ctl ∧ (castleEdge s).pwr.trickle = s.pwr.trickle ∧
    (castleEdge s).pwr.onVbat = s.pwr.onVbat ∧ (castleEdge s).pwr.mainOn = s.pwr.mainOn ∧
    (castleEdge s).pwr.aonOn = s.pwr.aonOn ∧ (castleEdge s).pwr.warn = s.pwr.warn ∧
    (castleEdge s).pwr.ship = s.pwr.ship ∧ (castleEdge s).evt.mask = s.evt.mask ∧
    (castleEdge s).evt.copy = s.evt.copy := by
  have k0 := @clearFirst_frame
  have k1 := @clearFirst_inner
  have k2 := @registerCastling_frame
  have k3 := @registerCastling_inner
  simp only [castleEdge, when]
  repeat' split
  all_goals simp [k0, k1, k2, k3]

theorem warnBegin_inner (s : State) :
    (warnBegin s).evin.incfg = s.evin.incfg ∧ (warnBegin s).tt.ctl = s.tt.ctl ∧ (warnBegin s).tt.instA = s.tt.instA ∧
    (warnBegin s).tt.instB = s.tt.instB ∧ (warnBegin s).tt.startSec = s.tt.startSec ∧
    (warnBegin s).tt.startFrac = s.tt.startFrac ∧ (warnBegin s).tt.protHit = s.tt.protHit ∧
    (warnBegin s).sys.phase = s.sys.phase ∧ (warnBegin s).sys.cause = s.sys.cause ∧
    (warnBegin s).sys.cfgState = s.sys.cfgState ∧ (warnBegin s).sys.x32Run = s.sys.x32Run ∧
    (warnBegin s).sys.measRst = s.sys.measRst ∧ (warnBegin s).sys.earlyWr = s.sys.earlyWr ∧
    (warnBegin s).sys.lostCmds = s.sys.lostCmds ∧ (warnBegin s).pwr.ctl = s.pwr.ctl ∧
    (warnBegin s).pwr.trickle = s.pwr.trickle ∧ (warnBegin s).pwr.onVbat = s.pwr.onVbat ∧
    (warnBegin s).pwr.mainOn = s.pwr.mainOn ∧ (warnBegin s).pwr.aonOn = s.pwr.aonOn ∧
    (warnBegin s).pwr.ship = s.pwr.ship ∧ (warnBegin s).pwr.castleCount = s.pwr.castleCount ∧
    (warnBegin s).pwr.firstValid = s.pwr.firstValid ∧ (warnBegin s).pwr.firstSec = s.pwr.firstSec ∧
    (warnBegin s).pwr.firstFrac = s.pwr.firstFrac ∧ (warnBegin s).pwr.castlings = s.pwr.castlings ∧
    (warnBegin s).clk.src = s.clk.src ∧ (warnBegin s).clk.limits = s.clk.limits ∧
    (warnBegin s).clk.spread = s.clk.spread ∧ (warnBegin s).clk.active = s.clk.active ∧
    (warnBegin s).clk.plans = s.clk.plans ∧ (warnBegin s).clk.drift = s.clk.drift ∧
    (warnBegin s).cond.arg0 = s.cond.arg0 ∧ (warnBegin s).cond.arg1 = s.cond.arg1 ∧
    (warnBegin s).cond.arg2 = s.cond.arg2 ∧ (warnBegin s).cond.queue = s.cond.queue ∧
    (warnBegin s).cond.running = s.cond.running ∧ (warnBegin s).cond.tail = s.cond.tail ∧
    (warnBegin s).cond.inReset = s.cond.inReset ∧ (warnBegin s).afe.ctl = s.afe.ctl ∧
    (warnBegin s).afe.eff = s.afe.eff ∧ (warnBegin s).afe.diag = s.afe.diag ∧
    (warnBegin s).ros.sealed = s.ros.sealed ∧ (warnBegin s).out.cfg = s.out.cfg ∧ (warnBegin s).out.gen = s.out.gen ∧
    (warnBegin s).out.span = s.out.span ∧ (warnBegin s).out.staged = s.out.staged ∧
    (warnBegin s).nv.pages = s.nv.pages ∧ (warnBegin s).nv.running = s.nv.running ∧
    (warnBegin s).nv.suspend = s.nv.suspend ∧ (warnBegin s).nv.todo = s.nv.todo ∧
    (warnBegin s).evt.mask = s.evt.mask ∧ (warnBegin s).evt.copy = s.evt.copy := by
  have k0 := @allPairsOff_frame
  have k1 := @allPairsOff_inner
  have k2 := @cutWarn_frame
  have k3 := @cutWarn_inner
  have k4 := @dropAhead_frame
  have k5 := @dropAhead_inner
  have k6 := @pairPowered_frame
  have k7 := @pairPowered_inner
  simp only [warnBegin, when]
  repeat' split
  all_goals simp [k0, k1, k2, k3, k4, k5, k6, k7]

theorem warnCount_inner (s : State) :
    (warnCount s).pwr.ctl = s.pwr.ctl ∧ (warnCount s).pwr.trickle = s.pwr.trickle ∧
    (warnCount s).pwr.onVbat = s.pwr.onVbat ∧ (warnCount s).pwr.mainOn = s.pwr.mainOn ∧
    (warnCount s).pwr.aonOn = s.pwr.aonOn ∧ (warnCount s).pwr.ship = s.pwr.ship ∧
    (warnCount s).pwr.castleCount = s.pwr.castleCount ∧ (warnCount s).pwr.firstValid = s.pwr.firstValid ∧
    (warnCount s).pwr.firstSec = s.pwr.firstSec ∧ (warnCount s).pwr.firstFrac = s.pwr.firstFrac ∧
    (warnCount s).pwr.castlings = s.pwr.castlings ∧ (warnCount s).out.code = s.out.code ∧
    (warnCount s).out.cfg = s.out.cfg ∧ (warnCount s).out.gen = s.out.gen ∧ (warnCount s).out.span = s.out.span ∧
    (warnCount s).out.staged = s.out.staged := by
  simp only [warnCount, when]
  repeat' split
  all_goals simp

theorem ledgerEdge_inner (e : Edge) (k : Tick) (r : LdgReq) (cut : Bool) (s : State) :
    (ledgerEdge e k r cut s).tt.ctl = s.tt.ctl ∧ (ledgerEdge e k r cut s).tt.instA = s.tt.instA ∧
    (ledgerEdge e k r cut s).tt.instB = s.tt.instB ∧ (ledgerEdge e k r cut s).tt.active = s.tt.active ∧
    (ledgerEdge e k r cut s).tt.activeValid = s.tt.activeValid ∧
    (ledgerEdge e k r cut s).tt.startSec = s.tt.startSec ∧ (ledgerEdge e k r cut s).tt.startFrac = s.tt.startFrac ∧
    (ledgerEdge e k r cut s).tt.swPend = s.tt.swPend ∧ (ledgerEdge e k r cut s).tt.protHit = s.tt.protHit ∧
    (ledgerEdge e k r cut s).sys.phase = s.sys.phase ∧ (ledgerEdge e k r cut s).sys.cause = s.sys.cause ∧
    (ledgerEdge e k r cut s).sys.cfgState = s.sys.cfgState ∧ (ledgerEdge e k r cut s).sys.x32Run = s.sys.x32Run ∧
    (ledgerEdge e k r cut s).sys.measRst = s.sys.measRst ∧ (ledgerEdge e k r cut s).sys.earlyWr = s.sys.earlyWr ∧
    (ledgerEdge e k r cut s).sys.lostCmds = s.sys.lostCmds ∧ (ledgerEdge e k r cut s).clk.src = s.clk.src ∧
    (ledgerEdge e k r cut s).clk.limits = s.clk.limits ∧ (ledgerEdge e k r cut s).clk.spread = s.clk.spread ∧
    (ledgerEdge e k r cut s).clk.active = s.clk.active ∧ (ledgerEdge e k r cut s).clk.plans = s.clk.plans ∧
    (ledgerEdge e k r cut s).clk.bypass = s.clk.bypass ∧ (ledgerEdge e k r cut s).clk.drift = s.clk.drift ∧
    (ledgerEdge e k r cut s).clk.q = s.clk.q ∧ (ledgerEdge e k r cut s).cond.arg0 = s.cond.arg0 ∧
    (ledgerEdge e k r cut s).cond.arg1 = s.cond.arg1 ∧ (ledgerEdge e k r cut s).cond.arg2 = s.cond.arg2 ∧
    (ledgerEdge e k r cut s).cond.queue = s.cond.queue ∧ (ledgerEdge e k r cut s).cond.running = s.cond.running ∧
    (ledgerEdge e k r cut s).cond.tail = s.cond.tail ∧ (ledgerEdge e k r cut s).cond.switches = s.cond.switches ∧
    (ledgerEdge e k r cut s).cond.inReset = s.cond.inReset ∧ (ledgerEdge e k r cut s).afe.ctl = s.afe.ctl ∧
    (ledgerEdge e k r cut s).afe.eff = s.afe.eff ∧ (ledgerEdge e k r cut s).afe.diag = s.afe.diag ∧
    (ledgerEdge e k r cut s).ros.sealed = s.ros.sealed ∧ (ledgerEdge e k r cut s).out.cfg = s.out.cfg ∧
    (ledgerEdge e k r cut s).out.gen = s.out.gen ∧ (ledgerEdge e k r cut s).out.span = s.out.span ∧
    (ledgerEdge e k r cut s).out.staged = s.out.staged ∧ (ledgerEdge e k r cut s).nv.pages = s.nv.pages ∧
    (ledgerEdge e k r cut s).nv.running = s.nv.running ∧ (ledgerEdge e k r cut s).nv.suspend = s.nv.suspend ∧
    (ledgerEdge e k r cut s).nv.todo = s.nv.todo ∧ (ledgerEdge e k r cut s).evt.mask = s.evt.mask ∧
    (ledgerEdge e k r cut s).evt.copy = s.evt.copy := by
  have k0 := @instantAt_frame
  have k1 := @instantAt_inner
  have k2 := @ldgTakeCmds_frame
  have k3 := @ldgTakeCmds_inner
  simp only [ledgerEdge, when]
  repeat' split
  all_goals simp [k0, k1, k2, k3]

theorem headerEnds_inner (s : State) :
    (headerEnds s).hif.i3c = s.hif.i3c ∧ (headerEnds s).hif.dynAddr = s.hif.dynAddr ∧
    (headerEnds s).hif.crcEn = s.hif.crcEn ∧ (headerEnds s).hif.txn = s.hif.txn ∧
    (headerEnds s).hif.reply = s.hif.reply := by
  simp only [headerEnds, when]
  repeat' split
  all_goals simp

theorem countKtick_inner (s : State) :
    (countKtick s).rtc.sec = s.rtc.sec ∧ (countKtick s).rtc.presc = s.rtc.presc ∧
    (countKtick s).rtc.halted = s.rtc.halted ∧ (countKtick s).rtc.timePend = s.rtc.timePend ∧
    (countKtick s).rtc.trim = s.rtc.trim ∧ (countKtick s).rtc.offset = s.rtc.offset ∧
    (countKtick s).rtc.dst = s.rtc.dst ∧ (countKtick s).rtc.ctl = s.rtc.ctl ∧
    (countKtick s).rtc.started = s.rtc.started ∧ (countKtick s).cond.arg0 = s.cond.arg0 ∧
    (countKtick s).cond.arg1 = s.cond.arg1 ∧ (countKtick s).cond.arg2 = s.cond.arg2 ∧
    (countKtick s).cond.queue = s.cond.queue ∧ (countKtick s).cond.running = s.cond.running ∧
    (countKtick s).cond.head = s.cond.head ∧ (countKtick s).cond.seq = s.cond.seq ∧
    (countKtick s).cond.tail = s.cond.tail ∧ (countKtick s).cond.switches = s.cond.switches ∧
    (countKtick s).cond.inReset = s.cond.inReset ∧ (countKtick s).out.code = s.out.code ∧
    (countKtick s).out.cfg = s.out.cfg ∧ (countKtick s).out.gen = s.out.gen ∧ (countKtick s).out.span = s.out.span ∧
    (countKtick s).out.staged = s.out.staged ∧ (countKtick s).hif.i3c = s.hif.i3c ∧
    (countKtick s).hif.dynAddr = s.hif.dynAddr ∧ (countKtick s).hif.crcEn = s.hif.crcEn ∧
    (countKtick s).hif.txn = s.hif.txn ∧ (countKtick s).hif.reply = s.hif.reply := by
  simp only [countKtick, when]
  repeat' split
  all_goals simp

theorem shipCount_inner (s : State) :
    (shipCount s).rtc.sec = s.rtc.sec ∧ (shipCount s).rtc.presc = s.rtc.presc ∧
    (shipCount s).rtc.halted = s.rtc.halted ∧ (shipCount s).rtc.timePend = s.rtc.timePend ∧
    (shipCount s).rtc.trim = s.rtc.trim ∧ (shipCount s).rtc.offset = s.rtc.offset ∧
    (shipCount s).rtc.dst = s.rtc.dst ∧ (shipCount s).rtc.started = s.rtc.started ∧
    (shipCount s).pwr.trickle = s.pwr.trickle ∧ (shipCount s).pwr.onVbat = s.pwr.onVbat ∧
    (shipCount s).pwr.aonOn = s.pwr.aonOn ∧ (shipCount s).pwr.castleCount = s.pwr.castleCount ∧
    (shipCount s).pwr.firstValid = s.pwr.firstValid ∧ (shipCount s).pwr.firstSec = s.pwr.firstSec ∧
    (shipCount s).pwr.firstFrac = s.pwr.firstFrac ∧ (shipCount s).pwr.castlings = s.pwr.castlings ∧
    (shipCount s).evt.copy = s.evt.copy := by
  have k0 := @enterShip_frame
  have k1 := @enterShip_inner
  simp only [shipCount, when]
  repeat' split
  all_goals simp [k0, k1]

theorem preWakeEdge_inner (s : State) :
    (preWakeEdge s).evin.incfg = s.evin.incfg ∧ (preWakeEdge s).evin.level = s.evin.level ∧
    (preWakeEdge s).evin.syncLevel = s.evin.syncLevel ∧ (preWakeEdge s).tt.ctl = s.tt.ctl ∧
    (preWakeEdge s).tt.instA = s.tt.instA ∧ (preWakeEdge s).tt.instB = s.tt.instB ∧
    (preWakeEdge s).tt.active = s.tt.active ∧ (preWakeEdge s).tt.activeValid = s.tt.activeValid ∧
    (preWakeEdge s).tt.startSec = s.tt.startSec ∧ (preWakeEdge s).tt.startFrac = s.tt.startFrac ∧
    (preWakeEdge s).tt.swPend = s.tt.swPend ∧ (preWakeEdge s).tt.protHit = s.tt.protHit ∧
    (preWakeEdge s).sys.phase = s.sys.phase ∧ (preWakeEdge s).sys.cause = s.sys.cause ∧
    (preWakeEdge s).sys.cfgState = s.sys.cfgState ∧ (preWakeEdge s).sys.x32Run = s.sys.x32Run ∧
    (preWakeEdge s).sys.measRst = s.sys.measRst ∧ (preWakeEdge s).sys.earlyWr = s.sys.earlyWr ∧
    (preWakeEdge s).sys.lostCmds = s.sys.lostCmds ∧ (preWakeEdge s).clk.src = s.clk.src ∧
    (preWakeEdge s).clk.limits = s.clk.limits ∧ (preWakeEdge s).clk.spread = s.clk.spread ∧
    (preWakeEdge s).clk.active = s.clk.active ∧ (preWakeEdge s).clk.plans = s.clk.plans ∧
    (preWakeEdge s).clk.drift = s.clk.drift ∧ (preWakeEdge s).afe.ctl = s.afe.ctl ∧
    (preWakeEdge s).afe.eff = s.afe.eff ∧ (preWakeEdge s).afe.diag = s.afe.diag ∧
    (preWakeEdge s).ros.sealed = s.ros.sealed ∧ (preWakeEdge s).out.code = s.out.code ∧
    (preWakeEdge s).out.cfg = s.out.cfg ∧ (preWakeEdge s).out.gen = s.out.gen ∧
    (preWakeEdge s).out.span = s.out.span ∧ (preWakeEdge s).out.staged = s.out.staged ∧
    (preWakeEdge s).evt.mask = s.evt.mask ∧ (preWakeEdge s).evt.copy = s.evt.copy := by
  have k0 := @fetchFirst_frame
  have k1 := @fetchFirst_inner
  simp only [preWakeEdge, when]
  repeat' split
  all_goals simp [k0, k1]

theorem newKtick_inner (s : State) :
    (newKtick s).evt.mask = s.evt.mask ∧ (newKtick s).evt.copy = s.evt.copy := by
  simp only [newKtick, when]
  repeat' split
  all_goals simp

theorem edgeCount_inner (e : Edge) (s : State) :
    (edgeCount e s).2.evin.incfg = s.evin.incfg ∧ (edgeCount e s).2.tt.ctl = s.tt.ctl ∧
    (edgeCount e s).2.tt.instA = s.tt.instA ∧ (edgeCount e s).2.tt.instB = s.tt.instB ∧
    (edgeCount e s).2.tt.active = s.tt.active ∧ (edgeCount e s).2.tt.activeValid = s.tt.activeValid ∧
    (edgeCount e s).2.tt.startSec = s.tt.startSec ∧ (edgeCount e s).2.tt.startFrac = s.tt.startFrac ∧
    (edgeCount e s).2.tt.swPend = s.tt.swPend ∧ (edgeCount e s).2.tt.protHit = s.tt.protHit ∧
    (edgeCount e s).2.sys.phase = s.sys.phase ∧ (edgeCount e s).2.sys.cause = s.sys.cause ∧
    (edgeCount e s).2.sys.cfgState = s.sys.cfgState ∧ (edgeCount e s).2.sys.x32Run = s.sys.x32Run ∧
    (edgeCount e s).2.sys.measRst = s.sys.measRst ∧ (edgeCount e s).2.sys.earlyWr = s.sys.earlyWr ∧
    (edgeCount e s).2.sys.lostCmds = s.sys.lostCmds ∧ (edgeCount e s).2.clk.src = s.clk.src ∧
    (edgeCount e s).2.clk.limits = s.clk.limits ∧ (edgeCount e s).2.clk.spread = s.clk.spread ∧
    (edgeCount e s).2.clk.active = s.clk.active ∧ (edgeCount e s).2.clk.plans = s.clk.plans ∧
    (edgeCount e s).2.clk.drift = s.clk.drift ∧ (edgeCount e s).2.cond.arg0 = s.cond.arg0 ∧
    (edgeCount e s).2.cond.arg1 = s.cond.arg1 ∧ (edgeCount e s).2.cond.arg2 = s.cond.arg2 ∧
    (edgeCount e s).2.cond.queue = s.cond.queue ∧ (edgeCount e s).2.cond.running = s.cond.running ∧
    (edgeCount e s).2.cond.tail = s.cond.tail ∧ (edgeCount e s).2.cond.switches = s.cond.switches ∧
    (edgeCount e s).2.cond.inReset = s.cond.inReset ∧ (edgeCount e s).2.afe.ctl = s.afe.ctl ∧
    (edgeCount e s).2.afe.eff = s.afe.eff ∧ (edgeCount e s).2.afe.diag = s.afe.diag ∧
    (edgeCount e s).2.ros.sealed = s.ros.sealed ∧ (edgeCount e s).2.out.cfg = s.out.cfg ∧
    (edgeCount e s).2.out.gen = s.out.gen ∧ (edgeCount e s).2.out.span = s.out.span ∧
    (edgeCount e s).2.out.staged = s.out.staged ∧ (edgeCount e s).2.nv.pages = s.nv.pages ∧
    (edgeCount e s).2.nv.running = s.nv.running ∧ (edgeCount e s).2.nv.suspend = s.nv.suspend ∧
    (edgeCount e s).2.nv.todo = s.nv.todo ∧ (edgeCount e s).2.evt.mask = s.evt.mask ∧
    (edgeCount e s).2.evt.copy = s.evt.copy := by
  have k0 := @captureEdge_frame
  have k1 := @captureEdge_inner
  have k2 := @driftEdge_frame
  have k3 := @driftEdge_inner
  have k4 := @newKtick_frame
  have k5 := @newKtick_inner
  have k6 := @rtcEdge_frame
  have k7 := @rtcEdge_inner
  have k8 := @takeFresh_frame
  have k9 := @takeFresh_inner
  simp only [edgeCount, when]
  repeat' split
  all_goals simp [k0, k1, k2, k3, k4, k5, k6, k7, k8, k9]

@[simp] theorem nextTick_inner (e : Edge) (s : State) :
    (nextTick e s).2.evin.incfg = s.evin.incfg ∧ (nextTick e s).2.tt.ctl = s.tt.ctl ∧
    (nextTick e s).2.tt.instA = s.tt.instA ∧ (nextTick e s).2.tt.instB = s.tt.instB ∧
    (nextTick e s).2.tt.active = s.tt.active ∧ (nextTick e s).2.tt.activeValid = s.tt.activeValid ∧
    (nextTick e s).2.tt.startSec = s.tt.startSec ∧ (nextTick e s).2.tt.startFrac = s.tt.startFrac ∧
    (nextTick e s).2.tt.swPend = s.tt.swPend ∧ (nextTick e s).2.tt.protHit = s.tt.protHit ∧
    (nextTick e s).2.sys.phase = s.sys.phase ∧ (nextTick e s).2.sys.cause = s.sys.cause ∧
    (nextTick e s).2.sys.cfgState = s.sys.cfgState ∧ (nextTick e s).2.sys.x32Run = s.sys.x32Run ∧
    (nextTick e s).2.sys.measRst = s.sys.measRst ∧ (nextTick e s).2.sys.earlyWr = s.sys.earlyWr ∧
    (nextTick e s).2.sys.lostCmds = s.sys.lostCmds ∧ (nextTick e s).2.clk.src = s.clk.src ∧
    (nextTick e s).2.clk.limits = s.clk.limits ∧ (nextTick e s).2.clk.spread = s.clk.spread ∧
    (nextTick e s).2.clk.active = s.clk.active ∧ (nextTick e s).2.clk.plans = s.clk.plans ∧
    (nextTick e s).2.clk.drift = s.clk.drift ∧ (nextTick e s).2.cond.arg0 = s.cond.arg0 ∧
    (nextTick e s).2.cond.arg1 = s.cond.arg1 ∧ (nextTick e s).2.cond.arg2 = s.cond.arg2 ∧
    (nextTick e s).2.cond.queue = s.cond.queue ∧ (nextTick e s).2.cond.running = s.cond.running ∧
    (nextTick e s).2.cond.tail = s.cond.tail ∧ (nextTick e s).2.cond.switches = s.cond.switches ∧
    (nextTick e s).2.cond.inReset = s.cond.inReset ∧ (nextTick e s).2.afe.ctl = s.afe.ctl ∧
    (nextTick e s).2.afe.eff = s.afe.eff ∧ (nextTick e s).2.afe.diag = s.afe.diag ∧
    (nextTick e s).2.ros.sealed = s.ros.sealed ∧ (nextTick e s).2.out.cfg = s.out.cfg ∧
    (nextTick e s).2.out.gen = s.out.gen ∧ (nextTick e s).2.out.span = s.out.span ∧
    (nextTick e s).2.out.staged = s.out.staged ∧ (nextTick e s).2.nv.pages = s.nv.pages ∧
    (nextTick e s).2.nv.running = s.nv.running ∧ (nextTick e s).2.nv.suspend = s.nv.suspend ∧
    (nextTick e s).2.nv.todo = s.nv.todo ∧ (nextTick e s).2.evt.mask = s.evt.mask ∧
    (nextTick e s).2.evt.copy = s.evt.copy := by
  have k0 := @edgeCount_frame
  have k1 := @edgeCount_inner
  simp only [nextTick, when]
  repeat' split
  all_goals simp [k0, k1]

@[simp] theorem openTxn_inner (s : State) :
    (openTxn s).hif.i3c = s.hif.i3c ∧ (openTxn s).hif.dynAddr = s.hif.dynAddr ∧ (openTxn s).hif.crcEn = s.hif.crcEn ∧
    (openTxn s).hif.reply = s.hif.reply := by
  simp only [openTxn, when]
  repeat' split
  all_goals simp

@[simp] theorem note_inner (f : Txn → Txn) (s : State) :
    (note f s).hif.i3c = s.hif.i3c ∧ (note f s).hif.dynAddr = s.hif.dynAddr ∧ (note f s).hif.crcEn = s.hif.crcEn ∧
    (note f s).hif.reply = s.hif.reply := by
  simp only [note, when]
  repeat' split
  all_goals simp

theorem flagErr_inner (b : Nat) (addr : Option (BitVec 16)) (s : State) :
    (flagErr b addr s).hif.i3c = s.hif.i3c ∧ (flagErr b addr s).hif.dynAddr = s.hif.dynAddr ∧
    (flagErr b addr s).hif.crcEn = s.hif.crcEn ∧ (flagErr b addr s).hif.reply = s.hif.reply := by
  simp only [flagErr, when]
  repeat' split
  all_goals simp

theorem countRejected_inner (s : State) :
    (countRejected s).hif.i3c = s.hif.i3c ∧ (countRejected s).hif.dynAddr = s.hif.dynAddr ∧
    (countRejected s).hif.crcEn = s.hif.crcEn ∧ (countRejected s).hif.reply = s.hif.reply := by
  simp only [countRejected, when]
  repeat' split
  all_goals simp

theorem captureShadow_inner (s : State) :
    (captureShadow s).hif.i3c = s.hif.i3c ∧ (captureShadow s).hif.dynAddr = s.hif.dynAddr ∧
    (captureShadow s).hif.crcEn = s.hif.crcEn ∧ (captureShadow s).hif.reply = s.hif.reply := by
  simp only [captureShadow, when]
  repeat' split
  all_goals simp

theorem readBytes_inner (header : BitVec 16) (a n : Nat) (s : State) :
    (readBytes header a n s).2.hif.i3c = s.hif.i3c ∧ (readBytes header a n s).2.hif.dynAddr = s.hif.dynAddr ∧
    (readBytes header a n s).2.hif.crcEn = s.hif.crcEn ∧ (readBytes header a n s).2.hif.reply = s.hif.reply := by
  have k0 := @captureShadow_frame
  have k1 := @captureShadow_inner
  have k2 := @flagErr_frame
  have k3 := @flagErr_inner
  simp only [readBytes, when]
  repeat' split
  all_goals simp [k0, k1, k2, k3]

theorem calReject_inner (rej : Nat) (s : State) :
    (calReject rej s).rtc.sec = s.rtc.sec ∧ (calReject rej s).rtc.presc = s.rtc.presc ∧
    (calReject rej s).rtc.halted = s.rtc.halted ∧ (calReject rej s).rtc.timePend = s.rtc.timePend ∧
    (calReject rej s).rtc.trim = s.rtc.trim ∧ (calReject rej s).rtc.offset = s.rtc.offset ∧
    (calReject rej s).rtc.dst = s.rtc.dst ∧ (calReject rej s).rtc.started = s.rtc.started ∧
    (calReject rej s).evt.mask = s.evt.mask ∧ (calReject rej s).evt.copy = s.evt.copy := by
  simp only [calReject, when]
  repeat' split
  all_goals simp

theorem holdTime_inner (w : Word) (s : State) :
    (holdTime w s).rtc.sec = s.rtc.sec ∧ (holdTime w s).rtc.presc = s.rtc.presc ∧
    (holdTime w s).rtc.halted = s.rtc.halted ∧ (holdTime w s).rtc.trim = s.rtc.trim ∧
    (holdTime w s).rtc.offset = s.rtc.offset ∧ (holdTime w s).rtc.dst = s.rtc.dst ∧
    (holdTime w s).rtc.ctl = s.rtc.ctl ∧ (holdTime w s).rtc.started = s.rtc.started := by
  simp only [holdTime, when]
  repeat' split
  all_goals simp

@[simp] theorem endCalendar_inner (c0 c1 : Option Word) (s : State) :
    (endCalendar c0 c1 s).rtc.sec = s.rtc.sec ∧ (endCalendar c0 c1 s).rtc.presc = s.rtc.presc ∧
    (endCalendar c0 c1 s).rtc.halted = s.rtc.halted ∧ (endCalendar c0 c1 s).rtc.trim = s.rtc.trim ∧
    (endCalendar c0 c1 s).rtc.offset = s.rtc.offset ∧ (endCalendar c0 c1 s).rtc.dst = s.rtc.dst ∧
    (endCalendar c0 c1 s).rtc.started = s.rtc.started ∧ (endCalendar c0 c1 s).evt.mask = s.evt.mask ∧
    (endCalendar c0 c1 s).evt.copy = s.evt.copy := by
  have k0 := @calReject_frame
  have k1 := @calReject_inner
  have k2 := @holdTime_frame
  have k3 := @holdTime_inner
  simp only [endCalendar, when]
  repeat' split
  all_goals simp [k0, k1, k2, k3]

@[simp] theorem clearRc_inner (t : Txn) (s : State) :
    (clearRc t s).evin.incfg = s.evin.incfg ∧ (clearRc t s).evin.level = s.evin.level ∧
    (clearRc t s).evin.syncLevel = s.evin.syncLevel ∧ (clearRc t s).tt.ctl = s.tt.ctl ∧
    (clearRc t s).tt.instA = s.tt.instA ∧ (clearRc t s).tt.instB = s.tt.instB ∧
    (clearRc t s).tt.active = s.tt.active ∧ (clearRc t s).tt.activeValid = s.tt.activeValid ∧
    (clearRc t s).tt.startSec = s.tt.startSec ∧ (clearRc t s).tt.startFrac = s.tt.startFrac ∧
    (clearRc t s).tt.swPend = s.tt.swPend ∧ (clearRc t s).sys.phase = s.sys.phase ∧
    (clearRc t s).sys.cause = s.sys.cause ∧ (clearRc t s).sys.cfgState = s.sys.cfgState ∧
    (clearRc t s).sys.x32Run = s.sys.x32Run ∧ (clearRc t s).sys.measRst = s.sys.measRst ∧
    (clearRc t s).sys.lostCmds = s.sys.lostCmds ∧ (clearRc t s).sys.pstate = s.sys.pstate ∧
    (clearRc t s).cond.arg0 = s.cond.arg0 ∧ (clearRc t s).cond.arg1 = s.cond.arg1 ∧
    (clearRc t s).cond.arg2 = s.cond.arg2 ∧ (clearRc t s).cond.queue = s.cond.queue ∧
    (clearRc t s).cond.running = s.cond.running ∧ (clearRc t s).cond.head = s.cond.head ∧
    (clearRc t s).cond.seq = s.cond.seq ∧ (clearRc t s).cond.tail = s.cond.tail ∧
    (clearRc t s).cond.switches = s.cond.switches ∧ (clearRc t s).cond.inReset = s.cond.inReset ∧
    (clearRc t s).ldg.ctl = s.ldg.ctl ∧ (clearRc t s).ldg.run = s.ldg.run ∧ (clearRc t s).ldg.cnt = s.ldg.cnt ∧
    (clearRc t s).ldg.lap = s.ldg.lap ∧ (clearRc t s).hif.i3c = s.hif.i3c ∧
    (clearRc t s).hif.dynAddr = s.hif.dynAddr ∧ (clearRc t s).hif.crcEn = s.hif.crcEn ∧
    (clearRc t s).hif.txn = s.hif.txn ∧ (clearRc t s).hif.reply = s.hif.reply := by
  unfold clearRc
  split <;> and_intros <;> rfl

@[simp] theorem closeTxn_inner (s : State) :
    (closeTxn s).evin.incfg = s.evin.incfg ∧ (closeTxn s).evin.level = s.evin.level ∧
    (closeTxn s).evin.syncLevel = s.evin.syncLevel ∧ (closeTxn s).tt.ctl = s.tt.ctl ∧
    (closeTxn s).tt.instA = s.tt.instA ∧ (closeTxn s).tt.instB = s.tt.instB ∧ (closeTxn s).tt.active = s.tt.active ∧
    (closeTxn s).tt.activeValid = s.tt.activeValid ∧ (closeTxn s).tt.startSec = s.tt.startSec ∧
    (closeTxn s).tt.startFrac = s.tt.startFrac ∧ (closeTxn s).tt.swPend = s.tt.swPend ∧
    (closeTxn s).rtc.sec = s.rtc.sec ∧ (closeTxn s).rtc.presc = s.rtc.presc ∧ (closeTxn s).rtc.halted = s.rtc.halted ∧
    (closeTxn s).rtc.trim = s.rtc.trim ∧ (closeTxn s).rtc.offset = s.rtc.offset ∧ (closeTxn s).rtc.dst = s.rtc.dst ∧
    (closeTxn s).rtc.started = s.rtc.started ∧ (closeTxn s).sys.phase = s.sys.phase ∧
    (closeTxn s).sys.cfgState = s.sys.cfgState ∧ (closeTxn s).sys.x32Run = s.sys.x32Run ∧
    (closeTxn s).sys.measRst = s.sys.measRst ∧ (closeTxn s).sys.lostCmds = s.sys.lostCmds ∧
    (closeTxn s).sys.pstate = s.sys.pstate ∧ (closeTxn s).pwr.trickle = s.pwr.trickle ∧
    (closeTxn s).pwr.onVbat = s.pwr.onVbat ∧ (closeTxn s).pwr.mainOn = s.pwr.mainOn ∧
    (closeTxn s).pwr.aonOn = s.pwr.aonOn ∧ (closeTxn s).pwr.warn = s.pwr.warn ∧ (closeTxn s).pwr.ship = s.pwr.ship ∧
    (closeTxn s).pwr.castleCount = s.pwr.castleCount ∧ (closeTxn s).pwr.firstValid = s.pwr.firstValid ∧
    (closeTxn s).pwr.firstSec = s.pwr.firstSec ∧ (closeTxn s).pwr.firstFrac = s.pwr.firstFrac ∧
    (closeTxn s).pwr.castlings = s.pwr.castlings ∧ (closeTxn s).cond.arg0 = s.cond.arg0 ∧
    (closeTxn s).cond.arg1 = s.cond.arg1 ∧ (closeTxn s).cond.arg2 = s.cond.arg2 ∧
    (closeTxn s).cond.queue = s.cond.queue ∧ (closeTxn s).cond.running = s.cond.running ∧
    (closeTxn s).cond.head = s.cond.head ∧ (closeTxn s).cond.seq = s.cond.seq ∧ (closeTxn s).cond.tail = s.cond.tail ∧
    (closeTxn s).cond.switches = s.cond.switches ∧ (closeTxn s).cond.inReset = s.cond.inReset ∧
    (closeTxn s).ldg.ctl = s.ldg.ctl ∧ (closeTxn s).ldg.run = s.ldg.run ∧ (closeTxn s).ldg.cnt = s.ldg.cnt ∧
    (closeTxn s).ldg.lap = s.ldg.lap ∧ (closeTxn s).evt.mask = s.evt.mask ∧ (closeTxn s).evt.copy = s.evt.copy := by
  have k0 := @hifReset_frame
  have k1 := @hifReset_inner
  simp only [closeTxn, when]
  repeat' split
  all_goals simp [k0, k1]

theorem writePwrCtl_inner (w : Word) (s : State) :
    (writePwrCtl w s).pwr.trickle = s.pwr.trickle ∧ (writePwrCtl w s).pwr.onVbat = s.pwr.onVbat ∧
    (writePwrCtl w s).pwr.mainOn = s.pwr.mainOn ∧ (writePwrCtl w s).pwr.aonOn = s.pwr.aonOn ∧
    (writePwrCtl w s).pwr.warn = s.pwr.warn ∧ (writePwrCtl w s).pwr.ship = s.pwr.ship ∧
    (writePwrCtl w s).pwr.castleCount = s.pwr.castleCount ∧ (writePwrCtl w s).pwr.firstValid = s.pwr.firstValid ∧
    (writePwrCtl w s).pwr.firstSec = s.pwr.firstSec ∧ (writePwrCtl w s).pwr.firstFrac = s.pwr.firstFrac ∧
    (writePwrCtl w s).pwr.castlings = s.pwr.castlings := by
  simp only [writePwrCtl, when]
  repeat' split
  all_goals simp

theorem writeTrickle_inner (w : Word) (s : State) :
    (writeTrickle w s).pwr.ctl = s.pwr.ctl ∧ (writeTrickle w s).pwr.onVbat = s.pwr.onVbat ∧
    (writeTrickle w s).pwr.mainOn = s.pwr.mainOn ∧ (writeTrickle w s).pwr.aonOn = s.pwr.aonOn ∧
    (writeTrickle w s).pwr.warn = s.pwr.warn ∧ (writeTrickle w s).pwr.ship = s.pwr.ship ∧
    (writeTrickle w s).pwr.castleCount = s.pwr.castleCount ∧ (writeTrickle w s).pwr.firstValid = s.pwr.firstValid ∧
    (writeTrickle w s).pwr.firstSec = s.pwr.firstSec ∧ (writeTrickle w s).pwr.firstFrac = s.pwr.firstFrac ∧
    (writeTrickle w s).pwr.castlings = s.pwr.castlings ∧ (writeTrickle w s).evt.mask = s.evt.mask ∧
    (writeTrickle w s).evt.copy = s.evt.copy := by
  have k0 := @trickleEval_frame
  have k1 := @trickleEval_inner
  simp only [writeTrickle, when]
  repeat' split
  all_goals simp [k0, k1]

theorem writeSec_inner (w : Word) (s : State) :
    (writeSec w s).rtc.sec = s.rtc.sec ∧ (writeSec w s).rtc.presc = s.rtc.presc ∧
    (writeSec w s).rtc.halted = s.rtc.halted ∧ (writeSec w s).rtc.trim = s.rtc.trim ∧
    (writeSec w s).rtc.offset = s.rtc.offset ∧ (writeSec w s).rtc.dst = s.rtc.dst ∧
    (writeSec w s).rtc.ctl = s.rtc.ctl ∧ (writeSec w s).rtc.started = s.rtc.started ∧
    (writeSec w s).hif.i3c = s.hif.i3c ∧ (writeSec w s).hif.dynAddr = s.hif.dynAddr ∧
    (writeSec w s).hif.crcEn = s.hif.crcEn ∧ (writeSec w s).hif.reply = s.hif.reply := by
  have k0 := @holdTime_frame
  have k1 := @holdTime_inner
  simp only [writeSec, when]
  repeat' split
  all_goals simp [k0, k1]

theorem writeRtcCtl_inner (w : Word) (s : State) :
    (writeRtcCtl w s).rtc.sec = s.rtc.sec ∧ (writeRtcCtl w s).rtc.presc = s.rtc.presc ∧
    (writeRtcCtl w s).rtc.halted = s.rtc.halted ∧ (writeRtcCtl w s).rtc.timePend = s.rtc.timePend ∧
    (writeRtcCtl w s).rtc.trim = s.rtc.trim ∧ (writeRtcCtl w s).rtc.offset = s.rtc.offset ∧
    (writeRtcCtl w s).rtc.dst = s.rtc.dst ∧ (writeRtcCtl w s).rtc.started = s.rtc.started := by
  simp only [writeRtcCtl, when]
  repeat' split
  all_goals simp

theorem writeShift_inner (v : BitVec 16) (s : State) :
    (writeShift v s).rtc.sec = s.rtc.sec ∧ (writeShift v s).rtc.presc = s.rtc.presc ∧
    (writeShift v s).rtc.halted = s.rtc.halted ∧ (writeShift v s).rtc.timePend = s.rtc.timePend ∧
    (writeShift v s).rtc.trim = s.rtc.trim ∧ (writeShift v s).rtc.offset = s.rtc.offset ∧
    (writeShift v s).rtc.dst = s.rtc.dst ∧ (writeShift v s).rtc.started = s.rtc.started ∧
    (writeShift v s).evt.mask = s.evt.mask ∧ (writeShift v s).evt.copy = s.evt.copy := by
  have k0 := @calReject_frame
  have k1 := @calReject_inner
  simp only [writeShift, when]
  repeat' split
  all_goals simp [k0, k1]

theorem writeLocal_inner (w : Word) (s : State) :
    (writeLocal w s).rtc.sec = s.rtc.sec ∧ (writeLocal w s).rtc.presc = s.rtc.presc ∧
    (writeLocal w s).rtc.halted = s.rtc.halted ∧ (writeLocal w s).rtc.timePend = s.rtc.timePend ∧
    (writeLocal w s).rtc.trim = s.rtc.trim ∧ (writeLocal w s).rtc.started = s.rtc.started ∧
    (writeLocal w s).evt.mask = s.evt.mask ∧ (writeLocal w s).evt.copy = s.evt.copy := by
  have k0 := @calReject_frame
  have k1 := @calReject_inner
  simp only [writeLocal, when]
  repeat' split
  all_goals simp [k0, k1]

theorem writeTtCtl_inner (w : Word) (s : State) :
    (writeTtCtl w s).tt.instA = s.tt.instA ∧ (writeTtCtl w s).tt.instB = s.tt.instB ∧
    (writeTtCtl w s).tt.active = s.tt.active ∧ (writeTtCtl w s).tt.activeValid = s.tt.activeValid ∧
    (writeTtCtl w s).tt.startSec = s.tt.startSec ∧ (writeTtCtl w s).tt.startFrac = s.tt.startFrac ∧
    (writeTtCtl w s).tt.swPend = s.tt.swPend ∧ (writeTtCtl w s).tt.protHit = s.tt.protHit := by
  have k0 := @applyPortEn_frame
  simp only [writeTtCtl, when]
  repeat' split
  all_goals simp [k0]

theorem writeAoutCode_inner (w : Word) (s : State) :
    (writeAoutCode w s).out.cfg = s.out.cfg ∧ (writeAoutCode w s).out.gen = s.out.gen ∧
    (writeAoutCode w s).out.span = s.out.span := by
  have k0 := @applyCode_frame
  have k1 := @applyCode_inner
  simp only [writeAoutCode, when]
  repeat' split
  all_goals simp [k0, k1]

theorem clearSources_inner (b : BitVec 64) (s : State) :
    (clearSources b s).hif.i3c = s.hif.i3c ∧ (clearSources b s).hif.dynAddr = s.hif.dynAddr ∧
    (clearSources b s).hif.crcEn = s.hif.crcEn ∧ (clearSources b s).hif.txn = s.hif.txn ∧
    (clearSources b s).hif.reply = s.hif.reply ∧ (clearSources b s).evt.mask = s.evt.mask ∧
    (clearSources b s).evt.copy = s.evt.copy := by
  have k0 := @trimServed_frame
  have k1 := @trimServed_inner
  simp only [clearSources, when]
  repeat' split
  all_goals simp [k0, k1]

@[simp] theorem regWrite_inner (k : Nat) (w : Word) (s : State) :
    (regWrite k w s).tt.instA = s.tt.instA ∧ (regWrite k w s).tt.instB = s.tt.instB ∧
    (regWrite k w s).tt.active = s.tt.active ∧ (regWrite k w s).tt.activeValid = s.tt.activeValid ∧
    (regWrite k w s).tt.swPend = s.tt.swPend ∧ (regWrite k w s).tt.protHit = s.tt.protHit ∧
    (regWrite k w s).rtc.sec = s.rtc.sec ∧ (regWrite k w s).rtc.presc = s.rtc.presc ∧
    (regWrite k w s).rtc.halted = s.rtc.halted ∧ (regWrite k w s).rtc.started = s.rtc.started ∧
    (regWrite k w s).sys.phase = s.sys.phase ∧ (regWrite k w s).sys.cfgState = s.sys.cfgState ∧
    (regWrite k w s).sys.x32Run = s.sys.x32Run ∧ (regWrite k w s).sys.measRst = s.sys.measRst ∧
    (regWrite k w s).sys.earlyWr = s.sys.earlyWr ∧ (regWrite k w s).sys.lostCmds = s.sys.lostCmds ∧
    (regWrite k w s).pwr.onVbat = s.pwr.onVbat ∧ (regWrite k w s).pwr.mainOn = s.pwr.mainOn ∧
    (regWrite k w s).pwr.aonOn = s.pwr.aonOn ∧ (regWrite k w s).pwr.warn = s.pwr.warn ∧
    (regWrite k w s).pwr.ship = s.pwr.ship ∧ (regWrite k w s).pwr.castleCount = s.pwr.castleCount ∧
    (regWrite k w s).pwr.firstValid = s.pwr.firstValid ∧ (regWrite k w s).pwr.firstSec = s.pwr.firstSec ∧
    (regWrite k w s).pwr.firstFrac = s.pwr.firstFrac ∧ (regWrite k w s).pwr.castlings = s.pwr.castlings ∧
    (regWrite k w s).clk.drift = s.clk.drift ∧ (regWrite k w s).cond.queue = s.cond.queue ∧
    (regWrite k w s).cond.running = s.cond.running ∧ (regWrite k w s).cond.switches = s.cond.switches ∧
    (regWrite k w s).cond.inReset = s.cond.inReset ∧ (regWrite k w s).afe.eff = s.afe.eff ∧
    (regWrite k w s).ros.sealed = s.ros.sealed ∧ (regWrite k w s).out.span = s.out.span ∧
    (regWrite k w s).hif.i3c = s.hif.i3c ∧ (regWrite k w s).hif.dynAddr = s.hif.dynAddr ∧
    (regWrite k w s).hif.reply = s.hif.reply ∧ (regWrite k w s).nv.pages = s.nv.pages ∧
    (regWrite k w s).nv.running = s.nv.running ∧ (regWrite k w s).nv.suspend = s.nv.suspend := by
  have k0 := @clearSources_frame
  have k1 := @clearSources_inner
  have k2 := @copySpread_frame
  have k3 := @copySpread_inner
  have k4 := @restartGen_frame
  have k5 := @restartGen_inner
  have k6 := @setAoutCfg_frame
  have k7 := @setAoutCfg_inner
  have k8 := @writeAfeCtl_frame
  have k9 := @writeAfeCtl_inner
  have k10 := @writeAoutCode_frame
  have k11 := @writeAoutCode_inner
  have k12 := @writeClkPlan_frame
  have k13 := @writeClkPlan_inner
  have k14 := @writeClkSrc_frame
  have k15 := @writeClkSrc_inner
  have k16 := @writeIncfg_frame
  have k17 := @writeIncfg_inner
  have k18 := @writeLdgCtl_frame
  have k19 := @writeLdgCtl_inner
  have k20 := @writeLocal_frame
  have k21 := @writeLocal_inner
  have k22 := @writeMask0_frame
  have k23 := @writeMask0_inner
  have k24 := @writeMask1_frame
  have k25 := @writeMask1_inner
  have k26 := @writePwrCtl_frame
  have k27 := @writePwrCtl_inner
  have k28 := @writeRtcCtl_frame
  have k29 := @writeRtcCtl_inner
  have k30 := @writeSec_frame
  have k31 := @writeSec_inner
  have k32 := @writeShift_frame
  have k33 := @writeShift_inner
  have k34 := @writeTrickle_frame
  have k35 := @writeTrickle_inner
  have k36 := @writeTtCtl_frame
  have k37 := @writeTtCtl_inner
  simp only [regWrite, when]
  repeat' split
  all_goals simp [k0, k1, k2, k3, k4, k5, k6, k7, k8, k9, k10, k11, k12, k13, k14, k15, k16, k17, k18, k19, k20, k21, k22, k23, k24, k25, k26, k27, k28, k29, k30, k31, k32, k33, k34, k35, k36, k37]

theorem tableByte_inner (b : Bool) (a : Nat) (v : Byte) (s : State) :
    (tableByte b a v s).tt.ctl = s.tt.ctl ∧ (tableByte b a v s).tt.active = s.tt.active ∧
    (tableByte b a v s).tt.startSec = s.tt.startSec ∧ (tableByte b a v s).tt.startFrac = s.tt.startFrac ∧
    (tableByte b a v s).cond.arg0 = s.cond.arg0 ∧ (tableByte b a v s).cond.arg1 = s.cond.arg1 ∧
    (tableByte b a v s).cond.arg2 = s.cond.arg2 ∧ (tableByte b a v s).cond.queue = s.cond.queue ∧
    (tableByte b a v s).cond.running = s.cond.running ∧ (tableByte b a v s).cond.tail = s.cond.tail ∧
    (tableByte b a v s).cond.inReset = s.cond.inReset ∧ (tableByte b a v s).hif.i3c = s.hif.i3c ∧
    (tableByte b a v s).hif.dynAddr = s.hif.dynAddr ∧ (tableByte b a v s).hif.crcEn = s.hif.crcEn ∧
    (tableByte b a v s).hif.reply = s.hif.reply ∧ (tableByte b a v s).evt.mask = s.evt.mask ∧
    (tableByte b a v s).evt.copy = s.evt.copy := by
  have k0 := @uninstall_frame
  have k1 := @uninstall_inner
  simp only [tableByte, when]
  repeat' split
  all_goals simp [k0, k1]

theorem rosterByte_inner (a : Nat) (v : Byte) (s : State) :
    (rosterByte a v s).tt.ctl = s.tt.ctl ∧ (rosterByte a v s).tt.instA = s.tt.instA ∧
    (rosterByte a v s).tt.instB = s.tt.instB ∧ (rosterByte a v s).tt.active = s.tt.active ∧
    (rosterByte a v s).tt.activeValid = s.tt.activeValid ∧ (rosterByte a v s).tt.startSec = s.tt.startSec ∧
    (rosterByte a v s).tt.startFrac = s.tt.startFrac ∧ (rosterByte a v s).tt.swPend = s.tt.swPend ∧
    (rosterByte a v s).tt.protHit = s.tt.protHit ∧ (rosterByte a v s).afe.ctl = s.afe.ctl ∧
    (rosterByte a v s).afe.eff = s.afe.eff ∧ (rosterByte a v s).afe.diag = s.afe.diag ∧
    (rosterByte a v s).evt.mask = s.evt.mask ∧ (rosterByte a v s).evt.copy = s.evt.copy := by
  have k0 := @sealNow_frame
  have k1 := @sealNow_inner
  simp only [rosterByte, when]
  repeat' split
  all_goals simp [k0, k1]

theorem smByte_inner (a : Nat) (v : Byte) (s : State) :
    (smByte a v s).evin.incfg = s.evin.incfg ∧ (smByte a v s).evin.level = s.evin.level ∧
    (smByte a v s).evin.syncLevel = s.evin.syncLevel := by
  simp only [smByte, when]
  repeat' split
  all_goals simp

theorem byteWrite_inner (a : Nat) (v : Byte) (s : State) :
    (byteWrite a v s).evin.incfg = s.evin.incfg ∧ (byteWrite a v s).evin.level = s.evin.level ∧
    (byteWrite a v s).evin.syncLevel = s.evin.syncLevel ∧ (byteWrite a v s).tt.ctl = s.tt.ctl ∧
    (byteWrite a v s).tt.active = s.tt.active ∧ (byteWrite a v s).tt.startSec = s.tt.startSec ∧
    (byteWrite a v s).tt.startFrac = s.tt.startFrac ∧ (byteWrite a v s).cond.arg0 = s.cond.arg0 ∧
    (byteWrite a v s).cond.arg1 = s.cond.arg1 ∧ (byteWrite a v s).cond.arg2 = s.cond.arg2 ∧
    (byteWrite a v s).cond.queue = s.cond.queue ∧ (byteWrite a v s).cond.running = s.cond.running ∧
    (byteWrite a v s).cond.tail = s.cond.tail ∧ (byteWrite a v s).cond.inReset = s.cond.inReset ∧
    (byteWrite a v s).afe.ctl = s.afe.ctl ∧ (byteWrite a v s).afe.eff = s.afe.eff ∧
    (byteWrite a v s).afe.diag = s.afe.diag ∧ (byteWrite a v s).hif.i3c = s.hif.i3c ∧
    (byteWrite a v s).hif.dynAddr = s.hif.dynAddr ∧ (byteWrite a v s).hif.crcEn = s.hif.crcEn ∧
    (byteWrite a v s).hif.reply = s.hif.reply ∧ (byteWrite a v s).evt.mask = s.evt.mask ∧
    (byteWrite a v s).evt.copy = s.evt.copy := by
  have k0 := @rosterByte_frame
  have k1 := @rosterByte_inner
  have k2 := @smByte_frame
  have k3 := @smByte_inner
  have k4 := @tableByte_frame
  have k5 := @tableByte_inner
  simp only [byteWrite, when]
  repeat' split
  all_goals simp [k0, k1, k2, k3, k4, k5]

theorem noteEarly_inner (s : State) :
    (noteEarly s).sys.phase = s.sys.phase ∧ (noteEarly s).sys.cause = s.sys.cause ∧
    (noteEarly s).sys.cfgState = s.sys.cfgState ∧ (noteEarly s).sys.x32Run = s.sys.x32Run ∧
    (noteEarly s).sys.measRst = s.sys.measRst ∧ (noteEarly s).sys.lostCmds = s.sys.lostCmds ∧
    (noteEarly s).sys.pstate = s.sys.pstate ∧ (noteEarly s).hif.i3c = s.hif.i3c ∧
    (noteEarly s).hif.dynAddr = s.hif.dynAddr ∧ (noteEarly s).hif.crcEn = s.hif.crcEn ∧
    (noteEarly s).hif.reply = s.hif.reply := by
  simp only [noteEarly, when]
  repeat' split
  all_goals simp

@[simp] theorem commitItem_inner (early : Bool) (i : Item) (s : State) :
    (commitItem early i s).tt.active = s.tt.active ∧ (commitItem early i s).rtc.sec = s.rtc.sec ∧
    (commitItem early i s).rtc.presc = s.rtc.presc ∧ (commitItem early i s).rtc.halted = s.rtc.halted ∧
    (commitItem early i s).rtc.started = s.rtc.started ∧ (commitItem early i s).sys.phase = s.sys.phase ∧
    (commitItem early i s).sys.cfgState = s.sys.cfgState ∧ (commitItem early i s).sys.x32Run = s.sys.x32Run ∧
    (commitItem early i s).sys.measRst = s.sys.measRst ∧ (commitItem early i s).sys.lostCmds = s.sys.lostCmds ∧
    (commitItem early i s).pwr.onVbat = s.pwr.onVbat ∧ (commitItem early i s).pwr.mainOn = s.pwr.mainOn ∧
    (commitItem early i s).pwr.aonOn = s.pwr.aonOn ∧ (commitItem early i s).pwr.warn = s.pwr.warn ∧
    (commitItem early i s).pwr.ship = s.pwr.ship ∧ (commitItem early i s).pwr.castleCount = s.pwr.castleCount ∧
    (commitItem early i s).pwr.firstValid = s.pwr.firstValid ∧ (commitItem early i s).pwr.firstSec = s.pwr.firstSec ∧
    (commitItem early i s).pwr.firstFrac = s.pwr.firstFrac ∧ (commitItem early i s).pwr.castlings = s.pwr.castlings ∧
    (commitItem early i s).clk.drift = s.clk.drift ∧ (commitItem early i s).cond.queue = s.cond.queue ∧
    (commitItem early i s).cond.running = s.cond.running ∧ (commitItem early i s).cond.inReset = s.cond.inReset ∧
    (commitItem early i s).afe.eff = s.afe.eff ∧ (commitItem early i s).out.span = s.out.span ∧
    (commitItem early i s).hif.i3c = s.hif.i3c ∧ (commitItem early i s).hif.dynAddr = s.hif.dynAddr ∧
    (commitItem early i s).hif.reply = s.hif.reply ∧ (commitItem early i s).nv.pages = s.nv.pages ∧
    (commitItem early i s).nv.running = s.nv.running ∧ (commitItem early i s).nv.suspend = s.nv.suspend := by
  have k0 := @byteWrite_frame
  have k1 := @byteWrite_inner
  have k2 := @noteEarly_frame
  have k3 := @noteEarly_inner
  simp only [commitItem, when]
  repeat' split
  all_goals simp [k0, k1, k2, k3]

@[simp] theorem armChecks_inner (ws : List (Nat × Word)) (s : State) :
    (armChecks ws s).tt.ctl = s.tt.ctl ∧ (armChecks ws s).tt.instA = s.tt.instA ∧
    (armChecks ws s).tt.instB = s.tt.instB ∧ (armChecks ws s).tt.active = s.tt.active ∧
    (armChecks ws s).tt.activeValid = s.tt.activeValid ∧ (armChecks ws s).tt.startSec = s.tt.startSec ∧
    (armChecks ws s).tt.startFrac = s.tt.startFrac ∧ (armChecks ws s).tt.swPend = s.tt.swPend ∧
    (armChecks ws s).tt.protHit = s.tt.protHit := by
  simp only [armChecks, when]
  repeat' split
  all_goals simp

@[simp] theorem clockEnd_inner (ws : List (Nat × Word)) (s : State) :
    (clockEnd ws s).evin.incfg = s.evin.incfg ∧ (clockEnd ws s).tt.ctl = s.tt.ctl ∧
    (clockEnd ws s).tt.instA = s.tt.instA ∧ (clockEnd ws s).tt.instB = s.tt.instB ∧
    (clockEnd ws s).tt.startSec = s.tt.startSec ∧ (clockEnd ws s).tt.startFrac = s.tt.startFrac ∧
    (clockEnd ws s).tt.protHit = s.tt.protHit ∧ (clockEnd ws s).sys.phase = s.sys.phase ∧
    (clockEnd ws s).sys.cause = s.sys.cause ∧ (clockEnd ws s).sys.cfgState = s.sys.cfgState ∧
    (clockEnd ws s).sys.x32Run = s.sys.x32Run ∧ (clockEnd ws s).sys.measRst = s.sys.measRst ∧
    (clockEnd ws s).sys.earlyWr = s.sys.earlyWr ∧ (clockEnd ws s).sys.lostCmds = s.sys.lostCmds ∧
    (clockEnd ws s).clk.src = s.clk.src ∧ (clockEnd ws s).clk.limits = s.clk.limits ∧
    (clockEnd ws s).clk.spread = s.clk.spread ∧ (clockEnd ws s).clk.active = s.clk.active ∧
    (clockEnd ws s).clk.plans = s.clk.plans ∧ (clockEnd ws s).clk.drift = s.clk.drift ∧
    (clockEnd ws s).cond.arg0 = s.cond.arg0 ∧ (clockEnd ws s).cond.arg1 = s.cond.arg1 ∧
    (clockEnd ws s).cond.arg2 = s.cond.arg2 ∧ (clockEnd ws s).cond.queue = s.cond.queue ∧
    (clockEnd ws s).cond.running = s.cond.running ∧ (clockEnd ws s).cond.tail = s.cond.tail ∧
    (clockEnd ws s).cond.inReset = s.cond.inReset ∧ (clockEnd ws s).afe.ctl = s.afe.ctl ∧
    (clockEnd ws s).afe.eff = s.afe.eff ∧ (clockEnd ws s).afe.diag = s.afe.diag ∧
    (clockEnd ws s).ros.sealed = s.ros.sealed ∧ (clockEnd ws s).out.cfg = s.out.cfg ∧
    (clockEnd ws s).out.gen = s.out.gen ∧ (clockEnd ws s).out.span = s.out.span ∧
    (clockEnd ws s).out.staged = s.out.staged ∧ (clockEnd ws s).nv.pages = s.nv.pages ∧
    (clockEnd ws s).nv.running = s.nv.running ∧ (clockEnd ws s).nv.suspend = s.nv.suspend ∧
    (clockEnd ws s).nv.todo = s.nv.todo ∧ (clockEnd ws s).evt.mask = s.evt.mask ∧
    (clockEnd ws s).evt.copy = s.evt.copy := by
  have k0 := @restartClock_frame
  have k1 := @restartClock_inner
  simp only [clockEnd, when]
  repeat' split
  all_goals simp [k0, k1]

theorem kick_inner (s : State) :
    (kick s).evin.incfg = s.evin.incfg ∧ (kick s).tt.ctl = s.tt.ctl ∧ (kick s).tt.instA = s.tt.instA ∧
    (kick s).tt.instB = s.tt.instB ∧ (kick s).tt.active = s.tt.active ∧ (kick s).tt.activeValid = s.tt.activeValid ∧
    (kick s).tt.startSec = s.tt.startSec ∧ (kick s).tt.startFrac = s.tt.startFrac ∧ (kick s).tt.swPend = s.tt.swPend ∧
    (kick s).tt.protHit = s.tt.protHit ∧ (kick s).sys.phase = s.sys.phase ∧ (kick s).sys.cause = s.sys.cause ∧
    (kick s).sys.cfgState = s.sys.cfgState ∧ (kick s).sys.x32Run = s.sys.x32Run ∧
    (kick s).sys.measRst = s.sys.measRst ∧ (kick s).sys.earlyWr = s.sys.earlyWr ∧
    (kick s).sys.lostCmds = s.sys.lostCmds ∧ (kick s).clk.src = s.clk.src ∧ (kick s).clk.limits = s.clk.limits ∧
    (kick s).clk.spread = s.clk.spread ∧ (kick s).clk.active = s.clk.active ∧ (kick s).clk.plans = s.clk.plans ∧
    (kick s).clk.drift = s.clk.drift ∧ (kick s).cond.arg0 = s.cond.arg0 ∧ (kick s).cond.arg1 = s.cond.arg1 ∧
    (kick s).cond.arg2 = s.cond.arg2 ∧ (kick s).cond.queue = s.cond.queue ∧ (kick s).cond.running = s.cond.running ∧
    (kick s).cond.tail = s.cond.tail ∧ (kick s).cond.switches = s.cond.switches ∧
    (kick s).cond.inReset = s.cond.inReset ∧ (kick s).afe.ctl = s.afe.ctl ∧ (kick s).afe.eff = s.afe.eff ∧
    (kick s).afe.diag = s.afe.diag ∧ (kick s).ros.sealed = s.ros.sealed ∧ (kick s).out.cfg = s.out.cfg ∧
    (kick s).out.gen = s.out.gen ∧ (kick s).out.span = s.out.span ∧ (kick s).out.staged = s.out.staged ∧
    (kick s).nv.pages = s.nv.pages ∧ (kick s).nv.running = s.nv.running ∧ (kick s).nv.suspend = s.nv.suspend ∧
    (kick s).nv.todo = s.nv.todo ∧ (kick s).evt.mask = s.evt.mask ∧ (kick s).evt.copy = s.evt.copy := by
  simp only [kick, when]
  repeat' split
  all_goals simp

theorem submitWord_inner (w : Word) (s : State) :
    (submitWord w s).sys.phase = s.sys.phase ∧ (submitWord w s).sys.cause = s.sys.cause ∧
    (submitWord w s).sys.cfgState = s.sys.cfgState ∧ (submitWord w s).sys.x32Run = s.sys.x32Run ∧
    (submitWord w s).sys.measRst = s.sys.measRst ∧ (submitWord w s).sys.earlyWr = s.sys.earlyWr ∧
    (submitWord w s).sys.lostCmds = s.sys.lostCmds ∧ (submitWord w s).cond.arg0 = s.cond.arg0 ∧
    (submitWord w s).cond.arg1 = s.cond.arg1 ∧ (submitWord w s).cond.arg2 = s.cond.arg2 ∧
    (submitWord w s).cond.running = s.cond.running ∧ (submitWord w s).cond.tail = s.cond.tail ∧
    (submitWord w s).cond.switches = s.cond.switches ∧ (submitWord w s).cond.inReset = s.cond.inReset ∧
    (submitWord w s).ldg.ctl = s.ldg.ctl ∧ (submitWord w s).ldg.run = s.ldg.run ∧
    (submitWord w s).ldg.cnt = s.ldg.cnt ∧ (submitWord w s).out.code = s.out.code ∧
    (submitWord w s).out.cfg = s.out.cfg ∧ (submitWord w s).out.gen = s.out.gen ∧
    (submitWord w s).out.span = s.out.span ∧ (submitWord w s).out.staged = s.out.staged ∧
    (submitWord w s).nv.pages = s.nv.pages ∧ (submitWord w s).nv.op = s.nv.op ∧
    (submitWord w s).nv.running = s.nv.running ∧ (submitWord w s).nv.todo = s.nv.todo ∧
    (submitWord w s).evt.mask = s.evt.mask ∧ (submitWord w s).evt.copy = s.evt.copy := by
  have k0 := @submit_frame
  have k1 := @submit_inner
  simp only [submitWord, when]
  repeat' split
  all_goals simp [k0, k1]

theorem sysControl_inner (w : Word) (s : State) :
    (sysControl w s).rtc.sec = s.rtc.sec ∧ (sysControl w s).rtc.presc = s.rtc.presc ∧
    (sysControl w s).rtc.halted = s.rtc.halted ∧ (sysControl w s).rtc.timePend = s.rtc.timePend ∧
    (sysControl w s).rtc.trim = s.rtc.trim ∧ (sysControl w s).rtc.offset = s.rtc.offset ∧
    (sysControl w s).rtc.dst = s.rtc.dst ∧ (sysControl w s).rtc.started = s.rtc.started ∧
    (sysControl w s).sys.x32Run = s.sys.x32Run ∧ (sysControl w s).pwr.trickle = s.pwr.trickle ∧
    (sysControl w s).pwr.onVbat = s.pwr.onVbat ∧ (sysControl w s).pwr.mainOn = s.pwr.mainOn ∧
    (sysControl w s).pwr.aonOn = s.pwr.aonOn ∧ (sysControl w s).pwr.ship = s.pwr.ship ∧
    (sysControl w s).pwr.castleCount = s.pwr.castleCount ∧ (sysControl w s).pwr.firstValid = s.pwr.firstValid ∧
    (sysControl w s).pwr.firstSec = s.pwr.firstSec ∧ (sysControl w s).pwr.firstFrac = s.pwr.firstFrac ∧
    (sysControl w s).pwr.castlings = s.pwr.castlings ∧ (sysControl w s).evt.copy = s.evt.copy := by
  have k0 := @measReset_frame
  have k1 := @measReset_inner
  have k2 := @softReset_frame
  have k3 := @softReset_inner
  simp only [sysControl, when]
  repeat' split
  all_goals simp [k0, k1, k2, k3]

@[simp] theorem commitEnd_inner (ws : List (Nat × Word)) (s : State) :
    (commitEnd ws s).rtc.sec = s.rtc.sec ∧ (commitEnd ws s).rtc.presc = s.rtc.presc ∧
    (commitEnd ws s).rtc.halted = s.rtc.halted ∧ (commitEnd ws s).rtc.timePend = s.rtc.timePend ∧
    (commitEnd ws s).rtc.trim = s.rtc.trim ∧ (commitEnd ws s).rtc.offset = s.rtc.offset ∧
    (commitEnd ws s).rtc.dst = s.rtc.dst ∧ (commitEnd ws s).rtc.started = s.rtc.started ∧
    (commitEnd ws s).sys.x32Run = s.sys.x32Run ∧ (commitEnd ws s).pwr.trickle = s.pwr.trickle ∧
    (commitEnd ws s).pwr.onVbat = s.pwr.onVbat ∧ (commitEnd ws s).pwr.mainOn = s.pwr.mainOn ∧
    (commitEnd ws s).pwr.aonOn = s.pwr.aonOn ∧ (commitEnd ws s).pwr.ship = s.pwr.ship ∧
    (commitEnd ws s).pwr.castleCount = s.pwr.castleCount ∧ (commitEnd ws s).pwr.firstValid = s.pwr.firstValid ∧
    (commitEnd ws s).pwr.firstSec = s.pwr.firstSec ∧ (commitEnd ws s).pwr.firstFrac = s.pwr.firstFrac ∧
    (commitEnd ws s).pwr.castlings = s.pwr.castlings := by
  have k0 := @kick_frame
  have k1 := @kick_inner
  have k2 := @ledgerOff_frame
  have k3 := @ledgerOff_inner
  have k4 := @submitWord_frame
  have k5 := @submitWord_inner
  have k6 := @sysControl_frame
  have k7 := @sysControl_inner
  simp only [commitEnd, when]
  repeat' split
  all_goals simp [k0, k1, k2, k3, k4, k5, k6, k7]

@[simp] theorem commit_inner (is : List Item) (s : State) :
    (commit is s).rtc.sec = s.rtc.sec ∧ (commit is s).rtc.presc = s.rtc.presc ∧
    (commit is s).rtc.halted = s.rtc.halted ∧ (commit is s).rtc.started = s.rtc.started ∧
    (commit is s).sys.x32Run = s.sys.x32Run ∧ (commit is s).pwr.onVbat = s.pwr.onVbat ∧
    (commit is s).pwr.mainOn = s.pwr.mainOn ∧ (commit is s).pwr.aonOn = s.pwr.aonOn ∧
    (commit is s).pwr.ship = s.pwr.ship ∧ (commit is s).pwr.castleCount = s.pwr.castleCount ∧
    (commit is s).pwr.firstValid = s.pwr.firstValid ∧ (commit is s).pwr.firstSec = s.pwr.firstSec ∧
    (commit is s).pwr.firstFrac = s.pwr.firstFrac ∧ (commit is s).pwr.castlings = s.pwr.castlings := by
  have k0 := @raceFormats_frame
  have k1 := @raceFormats_inner
  have k2 := @raceTables_frame
  have k3 := @raceTables_inner
  simp only [commit, when]
  repeat' split
  all_goals simp [k0, k1, k2, k3]

@[simp] theorem reject_inner (es : List Nat) (addr : Option (BitVec 16)) (s : State) :
    (reject es addr s).hif.i3c = s.hif.i3c ∧ (reject es addr s).hif.dynAddr = s.hif.dynAddr ∧
    (reject es addr s).hif.crcEn = s.hif.crcEn ∧ (reject es addr s).hif.reply = s.hif.reply := by
  have k0 := @countRejected_frame
  have k1 := @countRejected_inner
  have k2 := @flagErr_frame
  have k3 := @flagErr_inner
  simp only [reject, when]
  repeat' split
  all_goals simp [k0, k1, k2, k3]

@[simp] theorem writeBytes_inner (addr : BitVec 16) (data : List Byte) (s : State) :
    (writeBytes addr data s).rtc.sec = s.rtc.sec ∧ (writeBytes addr data s).rtc.presc = s.rtc.presc ∧
    (writeBytes addr data s).rtc.halted = s.rtc.halted ∧ (writeBytes addr data s).rtc.started = s.rtc.started ∧
    (writeBytes addr data s).sys.x32Run = s.sys.x32Run ∧ (writeBytes addr data s).pwr.onVbat = s.pwr.onVbat ∧
    (writeBytes addr data s).pwr.mainOn = s.pwr.mainOn ∧ (writeBytes addr data s).pwr.aonOn = s.pwr.aonOn ∧
    (writeBytes addr data s).pwr.ship = s.pwr.ship ∧ (writeBytes addr data s).pwr.castleCount = s.pwr.castleCount ∧
    (writeBytes addr data s).pwr.firstValid = s.pwr.firstValid ∧
    (writeBytes addr data s).pwr.firstSec = s.pwr.firstSec ∧
    (writeBytes addr data s).pwr.firstFrac = s.pwr.firstFrac ∧
    (writeBytes addr data s).pwr.castlings = s.pwr.castlings := by
  have k0 := @flagErr_frame
  have k1 := @flagErr_inner
  simp only [writeBytes, when]
  repeat' split
  all_goals simp [k0, k1]

theorem setPtr_inner (a : BitVec 16) (s : State) :
    (setPtr a s).hif.i3c = s.hif.i3c ∧ (setPtr a s).hif.dynAddr = s.hif.dynAddr ∧
    (setPtr a s).hif.crcEn = s.hif.crcEn ∧ (setPtr a s).hif.txn = s.hif.txn ∧ (setPtr a s).hif.reply = s.hif.reply := by
  simp only [setPtr, when]
  repeat' split
  all_goals simp

@[simp] theorem busMoved_inner (a : Nat) (s : State) :
    (busMoved a s).hif.i3c = s.hif.i3c ∧ (busMoved a s).hif.dynAddr = s.hif.dynAddr ∧
    (busMoved a s).hif.crcEn = s.hif.crcEn ∧ (busMoved a s).hif.txn = s.hif.txn ∧
    (busMoved a s).hif.reply = s.hif.reply := by
  simp only [busMoved, when]
  repeat' split
  all_goals simp

@[simp] theorem ownTxn_evin_incfg (a : Nat) (f : State → State) (s : State)
    (h : ∀ t, (f t).evin.incfg = t.evin.incfg) : (ownTxn a f s).evin.incfg = s.evin.incfg := by
  simp only [ownTxn]
  repeat' split
  all_goals simp [h, when]

@[simp] theorem ownTxn_evin_level (a : Nat) (f : State → State) (s : State)
    (h : ∀ t, (f t).evin.level = t.evin.level) : (ownTxn a f s).evin.level = s.evin.level := by
  simp only [ownTxn]
  repeat' split
  all_goals simp [h, when]

@[simp] theorem ownTxn_evin_syncLevel (a : Nat) (f : State → State) (s : State)
    (h : ∀ t, (f t).evin.syncLevel = t.evin.syncLevel) : (ownTxn a f s).evin.syncLevel = s.evin.syncLevel := by
  simp only [ownTxn]
  repeat' split
  all_goals simp [h, when]

@[simp] theorem ownTxn_tt_ctl (a : Nat) (f : State → State) (s : State)
    (h : ∀ t, (f t).tt.ctl = t.tt.ctl) : (ownTxn a f s).tt.ctl = s.tt.ctl := by
  simp only [ownTxn]
  repeat' split
  all_goals simp [h, when]

@[simp] theorem ownTxn_tt_instA (a : Nat) (f : State → State) (s : State)
    (h : ∀ t, (f t).tt.instA = t.tt.instA) : (ownTxn a f s).tt.instA = s.tt.instA := by
  simp only [ownTxn]
  repeat' split
  all_goals simp [h, when]

@[simp] theorem ownTxn_tt_instB (a : Nat) (f : State → State) (s : State)
    (h : ∀ t, (f t).tt.instB = t.tt.instB) : (ownTxn a f s).tt.instB = s.tt.instB := by
  simp only [ownTxn]
  repeat' split
  all_goals simp [h, when]

@[simp] theorem ownTxn_tt_active (a : Nat) (f : State → State) (s : State)
    (h : ∀ t, (f t).tt.active = t.tt.active) : (ownTxn a f s).tt.active = s.tt.active := by
  simp only [ownTxn]
  repeat' split
  all_goals simp [h, when]

@[simp] theorem ownTxn_tt_activeValid (a : Nat) (f : State → State) (s : State)
    (h : ∀ t, (f t).tt.activeValid = t.tt.activeValid) : (ownTxn a f s).tt.activeValid = s.tt.activeValid := by
  simp only [ownTxn]
  repeat' split
  all_goals simp [h, when]

@[simp] theorem ownTxn_tt_startSec (a : Nat) (f : State → State) (s : State)
    (h : ∀ t, (f t).tt.startSec = t.tt.startSec) : (ownTxn a f s).tt.startSec = s.tt.startSec := by
  simp only [ownTxn]
  repeat' split
  all_goals simp [h, when]

@[simp] theorem ownTxn_tt_startFrac (a : Nat) (f : State → State) (s : State)
    (h : ∀ t, (f t).tt.startFrac = t.tt.startFrac) : (ownTxn a f s).tt.startFrac = s.tt.startFrac := by
  simp only [ownTxn]
  repeat' split
  all_goals simp [h, when]

@[simp] theorem ownTxn_tt_swPend (a : Nat) (f : State → State) (s : State)
    (h : ∀ t, (f t).tt.swPend = t.tt.swPend) : (ownTxn a f s).tt.swPend = s.tt.swPend := by
  simp only [ownTxn]
  repeat' split
  all_goals simp [h, when]

@[simp] theorem ownTxn_rtc_sec (a : Nat) (f : State → State) (s : State)
    (h : ∀ t, (f t).rtc.sec = t.rtc.sec) : (ownTxn a f s).rtc.sec = s.rtc.sec := by
  simp only [ownTxn]
  repeat' split
  all_goals simp [h, when]

@[simp] theorem ownTxn_rtc_presc (a : Nat) (f : State → State) (s : State)
    (h : ∀ t, (f t).rtc.presc = t.rtc.presc) : (ownTxn a f s).rtc.presc = s.rtc.presc := by
  simp only [ownTxn]
  repeat' split
  all_goals simp [h, when]

@[simp] theorem ownTxn_rtc_halted (a : Nat) (f : State → State) (s : State)
    (h : ∀ t, (f t).rtc.halted = t.rtc.halted) : (ownTxn a f s).rtc.halted = s.rtc.halted := by
  simp only [ownTxn]
  repeat' split
  all_goals simp [h, when]

@[simp] theorem ownTxn_rtc_trim (a : Nat) (f : State → State) (s : State)
    (h : ∀ t, (f t).rtc.trim = t.rtc.trim) : (ownTxn a f s).rtc.trim = s.rtc.trim := by
  simp only [ownTxn]
  repeat' split
  all_goals simp [h, when]

@[simp] theorem ownTxn_rtc_offset (a : Nat) (f : State → State) (s : State)
    (h : ∀ t, (f t).rtc.offset = t.rtc.offset) : (ownTxn a f s).rtc.offset = s.rtc.offset := by
  simp only [ownTxn]
  repeat' split
  all_goals simp [h, when]

@[simp] theorem ownTxn_rtc_dst (a : Nat) (f : State → State) (s : State)
    (h : ∀ t, (f t).rtc.dst = t.rtc.dst) : (ownTxn a f s).rtc.dst = s.rtc.dst := by
  simp only [ownTxn]
  repeat' split
  all_goals simp [h, when]

@[simp] theorem ownTxn_rtc_started (a : Nat) (f : State → State) (s : State)
    (h : ∀ t, (f t).rtc.started = t.rtc.started) : (ownTxn a f s).rtc.started = s.rtc.started := by
  simp only [ownTxn]
  repeat' split
  all_goals simp [h, when]

@[simp] theorem ownTxn_sys_phase (a : Nat) (f : State → State) (s : State)
    (h : ∀ t, (f t).sys.phase = t.sys.phase) : (ownTxn a f s).sys.phase = s.sys.phase := by
  simp only [ownTxn]
  repeat' split
  all_goals simp [h, when]

@[simp] theorem ownTxn_sys_cfgState (a : Nat) (f : State → State) (s : State)
    (h : ∀ t, (f t).sys.cfgState = t.sys.cfgState) : (ownTxn a f s).sys.cfgState = s.sys.cfgState := by
  simp only [ownTxn]
  repeat' split
  all_goals simp [h, when]

@[simp] theorem ownTxn_sys_x32Run (a : Nat) (f : State → State) (s : State)
    (h : ∀ t, (f t).sys.x32Run = t.sys.x32Run) : (ownTxn a f s).sys.x32Run = s.sys.x32Run := by
  simp only [ownTxn]
  repeat' split
  all_goals simp [h, when]

@[simp] theorem ownTxn_sys_measRst (a : Nat) (f : State → State) (s : State)
    (h : ∀ t, (f t).sys.measRst = t.sys.measRst) : (ownTxn a f s).sys.measRst = s.sys.measRst := by
  simp only [ownTxn]
  repeat' split
  all_goals simp [h, when]

@[simp] theorem ownTxn_sys_lostCmds (a : Nat) (f : State → State) (s : State)
    (h : ∀ t, (f t).sys.lostCmds = t.sys.lostCmds) : (ownTxn a f s).sys.lostCmds = s.sys.lostCmds := by
  simp only [ownTxn]
  repeat' split
  all_goals simp [h, when]

@[simp] theorem ownTxn_sys_pstate (a : Nat) (f : State → State) (s : State)
    (h : ∀ t, (f t).sys.pstate = t.sys.pstate) : (ownTxn a f s).sys.pstate = s.sys.pstate := by
  simp only [ownTxn]
  repeat' split
  all_goals simp [h, when]

@[simp] theorem ownTxn_pwr_trickle (a : Nat) (f : State → State) (s : State)
    (h : ∀ t, (f t).pwr.trickle = t.pwr.trickle) : (ownTxn a f s).pwr.trickle = s.pwr.trickle := by
  simp only [ownTxn]
  repeat' split
  all_goals simp [h, when]

@[simp] theorem ownTxn_pwr_onVbat (a : Nat) (f : State → State) (s : State)
    (h : ∀ t, (f t).pwr.onVbat = t.pwr.onVbat) : (ownTxn a f s).pwr.onVbat = s.pwr.onVbat := by
  simp only [ownTxn]
  repeat' split
  all_goals simp [h, when]

@[simp] theorem ownTxn_pwr_mainOn (a : Nat) (f : State → State) (s : State)
    (h : ∀ t, (f t).pwr.mainOn = t.pwr.mainOn) : (ownTxn a f s).pwr.mainOn = s.pwr.mainOn := by
  simp only [ownTxn]
  repeat' split
  all_goals simp [h, when]

@[simp] theorem ownTxn_pwr_aonOn (a : Nat) (f : State → State) (s : State)
    (h : ∀ t, (f t).pwr.aonOn = t.pwr.aonOn) : (ownTxn a f s).pwr.aonOn = s.pwr.aonOn := by
  simp only [ownTxn]
  repeat' split
  all_goals simp [h, when]

@[simp] theorem ownTxn_pwr_warn (a : Nat) (f : State → State) (s : State)
    (h : ∀ t, (f t).pwr.warn = t.pwr.warn) : (ownTxn a f s).pwr.warn = s.pwr.warn := by
  simp only [ownTxn]
  repeat' split
  all_goals simp [h, when]

@[simp] theorem ownTxn_pwr_ship (a : Nat) (f : State → State) (s : State)
    (h : ∀ t, (f t).pwr.ship = t.pwr.ship) : (ownTxn a f s).pwr.ship = s.pwr.ship := by
  simp only [ownTxn]
  repeat' split
  all_goals simp [h, when]

@[simp] theorem ownTxn_pwr_castleCount (a : Nat) (f : State → State) (s : State)
    (h : ∀ t, (f t).pwr.castleCount = t.pwr.castleCount) : (ownTxn a f s).pwr.castleCount = s.pwr.castleCount := by
  simp only [ownTxn]
  repeat' split
  all_goals simp [h, when]

@[simp] theorem ownTxn_pwr_firstValid (a : Nat) (f : State → State) (s : State)
    (h : ∀ t, (f t).pwr.firstValid = t.pwr.firstValid) : (ownTxn a f s).pwr.firstValid = s.pwr.firstValid := by
  simp only [ownTxn]
  repeat' split
  all_goals simp [h, when]

@[simp] theorem ownTxn_pwr_firstSec (a : Nat) (f : State → State) (s : State)
    (h : ∀ t, (f t).pwr.firstSec = t.pwr.firstSec) : (ownTxn a f s).pwr.firstSec = s.pwr.firstSec := by
  simp only [ownTxn]
  repeat' split
  all_goals simp [h, when]

@[simp] theorem ownTxn_pwr_firstFrac (a : Nat) (f : State → State) (s : State)
    (h : ∀ t, (f t).pwr.firstFrac = t.pwr.firstFrac) : (ownTxn a f s).pwr.firstFrac = s.pwr.firstFrac := by
  simp only [ownTxn]
  repeat' split
  all_goals simp [h, when]

@[simp] theorem ownTxn_pwr_castlings (a : Nat) (f : State → State) (s : State)
    (h : ∀ t, (f t).pwr.castlings = t.pwr.castlings) : (ownTxn a f s).pwr.castlings = s.pwr.castlings := by
  simp only [ownTxn]
  repeat' split
  all_goals simp [h, when]

@[simp] theorem ownTxn_clk_src (a : Nat) (f : State → State) (s : State)
    (h : ∀ t, (f t).clk.src = t.clk.src) : (ownTxn a f s).clk.src = s.clk.src := by
  simp only [ownTxn]
  repeat' split
  all_goals simp [h, when]

@[simp] theorem ownTxn_clk_limits (a : Nat) (f : State → State) (s : State)
    (h : ∀ t, (f t).clk.limits = t.clk.limits) : (ownTxn a f s).clk.limits = s.clk.limits := by
  simp only [ownTxn]
  repeat' split
  all_goals simp [h, when]

@[simp] theorem ownTxn_clk_spread (a : Nat) (f : State → State) (s : State)
    (h : ∀ t, (f t).clk.spread = t.clk.spread) : (ownTxn a f s).clk.spread = s.clk.spread := by
  simp only [ownTxn]
  repeat' split
  all_goals simp [h, when]

@[simp] theorem ownTxn_clk_active (a : Nat) (f : State → State) (s : State)
    (h : ∀ t, (f t).clk.active = t.clk.active) : (ownTxn a f s).clk.active = s.clk.active := by
  simp only [ownTxn]
  repeat' split
  all_goals simp [h, when]

@[simp] theorem ownTxn_clk_plans (a : Nat) (f : State → State) (s : State)
    (h : ∀ t, (f t).clk.plans = t.clk.plans) : (ownTxn a f s).clk.plans = s.clk.plans := by
  simp only [ownTxn]
  repeat' split
  all_goals simp [h, when]

@[simp] theorem ownTxn_clk_bypass (a : Nat) (f : State → State) (s : State)
    (h : ∀ t, (f t).clk.bypass = t.clk.bypass) : (ownTxn a f s).clk.bypass = s.clk.bypass := by
  simp only [ownTxn]
  repeat' split
  all_goals simp [h, when]

@[simp] theorem ownTxn_clk_drift (a : Nat) (f : State → State) (s : State)
    (h : ∀ t, (f t).clk.drift = t.clk.drift) : (ownTxn a f s).clk.drift = s.clk.drift := by
  simp only [ownTxn]
  repeat' split
  all_goals simp [h, when]

@[simp] theorem ownTxn_clk_q (a : Nat) (f : State → State) (s : State)
    (h : ∀ t, (f t).clk.q = t.clk.q) : (ownTxn a f s).clk.q = s.clk.q := by
  simp only [ownTxn]
  repeat' split
  all_goals simp [h, when]

@[simp] theorem ownTxn_cond_arg0 (a : Nat) (f : State → State) (s : State)
    (h : ∀ t, (f t).cond.arg0 = t.cond.arg0) : (ownTxn a f s).cond.arg0 = s.cond.arg0 := by
  simp only [ownTxn]
  repeat' split
  all_goals simp [h, when]

@[simp] theorem ownTxn_cond_arg1 (a : Nat) (f : State → State) (s : State)
    (h : ∀ t, (f t).cond.arg1 = t.cond.arg1) : (ownTxn a f s).cond.arg1 = s.cond.arg1 := by
  simp only [ownTxn]
  repeat' split
  all_goals simp [h, when]

@[simp] theorem ownTxn_cond_arg2 (a : Nat) (f : State → State) (s : State)
    (h : ∀ t, (f t).cond.arg2 = t.cond.arg2) : (ownTxn a f s).cond.arg2 = s.cond.arg2 := by
  simp only [ownTxn]
  repeat' split
  all_goals simp [h, when]

@[simp] theorem ownTxn_cond_queue (a : Nat) (f : State → State) (s : State)
    (h : ∀ t, (f t).cond.queue = t.cond.queue) : (ownTxn a f s).cond.queue = s.cond.queue := by
  simp only [ownTxn]
  repeat' split
  all_goals simp [h, when]

@[simp] theorem ownTxn_cond_running (a : Nat) (f : State → State) (s : State)
    (h : ∀ t, (f t).cond.running = t.cond.running) : (ownTxn a f s).cond.running = s.cond.running := by
  simp only [ownTxn]
  repeat' split
  all_goals simp [h, when]

@[simp] theorem ownTxn_cond_head (a : Nat) (f : State → State) (s : State)
    (h : ∀ t, (f t).cond.head = t.cond.head) : (ownTxn a f s).cond.head = s.cond.head := by
  simp only [ownTxn]
  repeat' split
  all_goals simp [h, when]

@[simp] theorem ownTxn_cond_seq (a : Nat) (f : State → State) (s : State)
    (h : ∀ t, (f t).cond.seq = t.cond.seq) : (ownTxn a f s).cond.seq = s.cond.seq := by
  simp only [ownTxn]
  repeat' split
  all_goals simp [h, when]

@[simp] theorem ownTxn_cond_tail (a : Nat) (f : State → State) (s : State)
    (h : ∀ t, (f t).cond.tail = t.cond.tail) : (ownTxn a f s).cond.tail = s.cond.tail := by
  simp only [ownTxn]
  repeat' split
  all_goals simp [h, when]

@[simp] theorem ownTxn_cond_switches (a : Nat) (f : State → State) (s : State)
    (h : ∀ t, (f t).cond.switches = t.cond.switches) : (ownTxn a f s).cond.switches = s.cond.switches := by
  simp only [ownTxn]
  repeat' split
  all_goals simp [h, when]

@[simp] theorem ownTxn_cond_inReset (a : Nat) (f : State → State) (s : State)
    (h : ∀ t, (f t).cond.inReset = t.cond.inReset) : (ownTxn a f s).cond.inReset = s.cond.inReset := by
  simp only [ownTxn]
  repeat' split
  all_goals simp [h, when]

@[simp] theorem ownTxn_ldg_ctl (a : Nat) (f : State → State) (s : State)
    (h : ∀ t, (f t).ldg.ctl = t.ldg.ctl) : (ownTxn a f s).ldg.ctl = s.ldg.ctl := by
  simp only [ownTxn]
  repeat' split
  all_goals simp [h, when]

@[simp] theorem ownTxn_ldg_run (a : Nat) (f : State → State) (s : State)
    (h : ∀ t, (f t).ldg.run = t.ldg.run) : (ownTxn a f s).ldg.run = s.ldg.run := by
  simp only [ownTxn]
  repeat' split
  all_goals simp [h, when]

@[simp] theorem ownTxn_ldg_cnt (a : Nat) (f : State → State) (s : State)
    (h : ∀ t, (f t).ldg.cnt = t.ldg.cnt) : (ownTxn a f s).ldg.cnt = s.ldg.cnt := by
  simp only [ownTxn]
  repeat' split
  all_goals simp [h, when]

@[simp] theorem ownTxn_ldg_lap (a : Nat) (f : State → State) (s : State)
    (h : ∀ t, (f t).ldg.lap = t.ldg.lap) : (ownTxn a f s).ldg.lap = s.ldg.lap := by
  simp only [ownTxn]
  repeat' split
  all_goals simp [h, when]

@[simp] theorem ownTxn_afe_ctl (a : Nat) (f : State → State) (s : State)
    (h : ∀ t, (f t).afe.ctl = t.afe.ctl) : (ownTxn a f s).afe.ctl = s.afe.ctl := by
  simp only [ownTxn]
  repeat' split
  all_goals simp [h, when]

@[simp] theorem ownTxn_afe_eff (a : Nat) (f : State → State) (s : State)
    (h : ∀ t, (f t).afe.eff = t.afe.eff) : (ownTxn a f s).afe.eff = s.afe.eff := by
  simp only [ownTxn]
  repeat' split
  all_goals simp [h, when]

@[simp] theorem ownTxn_afe_diag (a : Nat) (f : State → State) (s : State)
    (h : ∀ t, (f t).afe.diag = t.afe.diag) : (ownTxn a f s).afe.diag = s.afe.diag := by
  simp only [ownTxn]
  repeat' split
  all_goals simp [h, when]

@[simp] theorem ownTxn_ros_sealed (a : Nat) (f : State → State) (s : State)
    (h : ∀ t, (f t).ros.sealed = t.ros.sealed) : (ownTxn a f s).ros.sealed = s.ros.sealed := by
  simp only [ownTxn]
  repeat' split
  all_goals simp [h, when]

@[simp] theorem ownTxn_out_code (a : Nat) (f : State → State) (s : State)
    (h : ∀ t, (f t).out.code = t.out.code) : (ownTxn a f s).out.code = s.out.code := by
  simp only [ownTxn]
  repeat' split
  all_goals simp [h, when]

@[simp] theorem ownTxn_out_cfg (a : Nat) (f : State → State) (s : State)
    (h : ∀ t, (f t).out.cfg = t.out.cfg) : (ownTxn a f s).out.cfg = s.out.cfg := by
  simp only [ownTxn]
  repeat' split
  all_goals simp [h, when]

@[simp] theorem ownTxn_out_gen (a : Nat) (f : State → State) (s : State)
    (h : ∀ t, (f t).out.gen = t.out.gen) : (ownTxn a f s).out.gen = s.out.gen := by
  simp only [ownTxn]
  repeat' split
  all_goals simp [h, when]

@[simp] theorem ownTxn_out_span (a : Nat) (f : State → State) (s : State)
    (h : ∀ t, (f t).out.span = t.out.span) : (ownTxn a f s).out.span = s.out.span := by
  simp only [ownTxn]
  repeat' split
  all_goals simp [h, when]

@[simp] theorem ownTxn_out_staged (a : Nat) (f : State → State) (s : State)
    (h : ∀ t, (f t).out.staged = t.out.staged) : (ownTxn a f s).out.staged = s.out.staged := by
  simp only [ownTxn]
  repeat' split
  all_goals simp [h, when]

@[simp] theorem ownTxn_nv_pages (a : Nat) (f : State → State) (s : State)
    (h : ∀ t, (f t).nv.pages = t.nv.pages) : (ownTxn a f s).nv.pages = s.nv.pages := by
  simp only [ownTxn]
  repeat' split
  all_goals simp [h, when]

@[simp] theorem ownTxn_nv_op (a : Nat) (f : State → State) (s : State)
    (h : ∀ t, (f t).nv.op = t.nv.op) : (ownTxn a f s).nv.op = s.nv.op := by
  simp only [ownTxn]
  repeat' split
  all_goals simp [h, when]

@[simp] theorem ownTxn_nv_running (a : Nat) (f : State → State) (s : State)
    (h : ∀ t, (f t).nv.running = t.nv.running) : (ownTxn a f s).nv.running = s.nv.running := by
  simp only [ownTxn]
  repeat' split
  all_goals simp [h, when]

@[simp] theorem ownTxn_nv_suspend (a : Nat) (f : State → State) (s : State)
    (h : ∀ t, (f t).nv.suspend = t.nv.suspend) : (ownTxn a f s).nv.suspend = s.nv.suspend := by
  simp only [ownTxn]
  repeat' split
  all_goals simp [h, when]

@[simp] theorem ownTxn_nv_todo (a : Nat) (f : State → State) (s : State)
    (h : ∀ t, (f t).nv.todo = t.nv.todo) : (ownTxn a f s).nv.todo = s.nv.todo := by
  simp only [ownTxn]
  repeat' split
  all_goals simp [h, when]

@[simp] theorem ownTxn_disc_en (a : Nat) (f : State → State) (s : State)
    (h : ∀ t, (f t).disc.en = t.disc.en) : (ownTxn a f s).disc.en = s.disc.en := by
  simp only [ownTxn]
  repeat' split
  all_goals simp [h, when]

@[simp] theorem ownTxn_cal_map (a : Nat) (f : State → State) (s : State)
    (h : ∀ t, (f t).cal.map = t.cal.map) : (ownTxn a f s).cal.map = s.cal.map := by
  simp only [ownTxn]
  repeat' split
  all_goals simp [h, when]

@[simp] theorem ownTxn_cal_quality (a : Nat) (f : State → State) (s : State)
    (h : ∀ t, (f t).cal.quality = t.cal.quality) : (ownTxn a f s).cal.quality = s.cal.quality := by
  simp only [ownTxn]
  repeat' split
  all_goals simp [h, when]

@[simp] theorem ownTxn_cal_modTrim (a : Nat) (f : State → State) (s : State)
    (h : ∀ t, (f t).cal.modTrim = t.cal.modTrim) : (ownTxn a f s).cal.modTrim = s.cal.modTrim := by
  simp only [ownTxn]
  repeat' split
  all_goals simp [h, when]

@[simp] theorem ownTxn_cal_evtTrim (a : Nat) (f : State → State) (s : State)
    (h : ∀ t, (f t).cal.evtTrim = t.cal.evtTrim) : (ownTxn a f s).cal.evtTrim = s.cal.evtTrim := by
  simp only [ownTxn]
  repeat' split
  all_goals simp [h, when]

@[simp] theorem ownTxn_cal_calibrated (a : Nat) (f : State → State) (s : State)
    (h : ∀ t, (f t).cal.calibrated = t.cal.calibrated) : (ownTxn a f s).cal.calibrated = s.cal.calibrated := by
  simp only [ownTxn]
  repeat' split
  all_goals simp [h, when]

@[simp] theorem ownTxn_evt_mask (a : Nat) (f : State → State) (s : State)
    (h : ∀ t, (f t).evt.mask = t.evt.mask) : (ownTxn a f s).evt.mask = s.evt.mask := by
  simp only [ownTxn]
  repeat' split
  all_goals simp [h, when]

@[simp] theorem ownTxn_evt_copy (a : Nat) (f : State → State) (s : State)
    (h : ∀ t, (f t).evt.copy = t.evt.copy) : (ownTxn a f s).evt.copy = s.evt.copy := by
  simp only [ownTxn]
  repeat' split
  all_goals simp [h, when]

@[simp] theorem hostItems_inner (is : List Item) (s : State) :
    (hostItems is s).rtc.sec = s.rtc.sec ∧ (hostItems is s).rtc.presc = s.rtc.presc ∧
    (hostItems is s).rtc.halted = s.rtc.halted ∧ (hostItems is s).rtc.started = s.rtc.started ∧
    (hostItems is s).sys.x32Run = s.sys.x32Run ∧ (hostItems is s).pwr.onVbat = s.pwr.onVbat ∧
    (hostItems is s).pwr.mainOn = s.pwr.mainOn ∧ (hostItems is s).pwr.aonOn = s.pwr.aonOn ∧
    (hostItems is s).pwr.ship = s.pwr.ship ∧ (hostItems is s).pwr.castleCount = s.pwr.castleCount ∧
    (hostItems is s).pwr.firstValid = s.pwr.firstValid ∧ (hostItems is s).pwr.firstSec = s.pwr.firstSec ∧
    (hostItems is s).pwr.firstFrac = s.pwr.firstFrac ∧ (hostItems is s).pwr.castlings = s.pwr.castlings := by
  simp only [hostItems, when]
  repeat' split
  all_goals simp

@[simp] theorem hostWord_inner (k : Nat) (w : Word) (s : State) :
    (hostWord k w s).rtc.sec = s.rtc.sec ∧ (hostWord k w s).rtc.presc = s.rtc.presc ∧
    (hostWord k w s).rtc.halted = s.rtc.halted ∧ (hostWord k w s).rtc.started = s.rtc.started ∧
    (hostWord k w s).sys.x32Run = s.sys.x32Run ∧ (hostWord k w s).pwr.onVbat = s.pwr.onVbat ∧
    (hostWord k w s).pwr.mainOn = s.pwr.mainOn ∧ (hostWord k w s).pwr.aonOn = s.pwr.aonOn ∧
    (hostWord k w s).pwr.ship = s.pwr.ship ∧ (hostWord k w s).pwr.castleCount = s.pwr.castleCount ∧
    (hostWord k w s).pwr.firstValid = s.pwr.firstValid ∧ (hostWord k w s).pwr.firstSec = s.pwr.firstSec ∧
    (hostWord k w s).pwr.firstFrac = s.pwr.firstFrac ∧ (hostWord k w s).pwr.castlings = s.pwr.castlings := by
  simp only [hostWord, when]
  repeat' split
  all_goals simp

@[simp] theorem hostBytes_inner (a : Nat) (data : List Byte) (s : State) :
    (hostBytes a data s).rtc.sec = s.rtc.sec ∧ (hostBytes a data s).rtc.presc = s.rtc.presc ∧
    (hostBytes a data s).rtc.halted = s.rtc.halted ∧ (hostBytes a data s).rtc.started = s.rtc.started ∧
    (hostBytes a data s).sys.x32Run = s.sys.x32Run ∧ (hostBytes a data s).pwr.onVbat = s.pwr.onVbat ∧
    (hostBytes a data s).pwr.mainOn = s.pwr.mainOn ∧ (hostBytes a data s).pwr.aonOn = s.pwr.aonOn ∧
    (hostBytes a data s).pwr.ship = s.pwr.ship ∧ (hostBytes a data s).pwr.castleCount = s.pwr.castleCount ∧
    (hostBytes a data s).pwr.firstValid = s.pwr.firstValid ∧ (hostBytes a data s).pwr.firstSec = s.pwr.firstSec ∧
    (hostBytes a data s).pwr.firstFrac = s.pwr.firstFrac ∧ (hostBytes a data s).pwr.castlings = s.pwr.castlings := by
  simp only [hostBytes, when]
  repeat' split
  all_goals simp

@[simp] theorem answer_inner (bs : List Byte) (s : State) :
    (answer bs s).hif.i3c = s.hif.i3c ∧ (answer bs s).hif.dynAddr = s.hif.dynAddr ∧
    (answer bs s).hif.crcEn = s.hif.crcEn ∧ (answer bs s).hif.txn = s.hif.txn := by
  simp only [answer, when]
  repeat' split
  all_goals simp

theorem spiWrite_inner (errs : List Nat) (addr : BitVec 16) (data : List Byte) (s : State) :
    (spiWrite errs addr data s).rtc.sec = s.rtc.sec ∧ (spiWrite errs addr data s).rtc.presc = s.rtc.presc ∧
    (spiWrite errs addr data s).rtc.halted = s.rtc.halted ∧ (spiWrite errs addr data s).rtc.started = s.rtc.started ∧
    (spiWrite errs addr data s).sys.x32Run = s.sys.x32Run ∧ (spiWrite errs addr data s).pwr.onVbat = s.pwr.onVbat ∧
    (spiWrite errs addr data s).pwr.mainOn = s.pwr.mainOn ∧ (spiWrite errs addr data s).pwr.aonOn = s.pwr.aonOn ∧
    (spiWrite errs addr data s).pwr.ship = s.pwr.ship ∧
    (spiWrite errs addr data s).pwr.castleCount = s.pwr.castleCount ∧
    (spiWrite errs addr data s).pwr.firstValid = s.pwr.firstValid ∧
    (spiWrite errs addr data s).pwr.firstSec = s.pwr.firstSec ∧
    (spiWrite errs addr data s).pwr.firstFrac = s.pwr.firstFrac ∧
    (spiWrite errs addr data s).pwr.castlings = s.pwr.castlings := by
  simp only [spiWrite, when]
  repeat' split
  all_goals simp

theorem spiWriteFrame_inner (bytes : List Byte) (extra : BitVec 3) (s : State) :
    (spiWriteFrame bytes extra s).rtc.sec = s.rtc.sec ∧ (spiWriteFrame bytes extra s).rtc.presc = s.rtc.presc ∧
    (spiWriteFrame bytes extra s).rtc.halted = s.rtc.halted ∧
    (spiWriteFrame bytes extra s).rtc.started = s.rtc.started ∧
    (spiWriteFrame bytes extra s).sys.x32Run = s.sys.x32Run ∧
    (spiWriteFrame bytes extra s).pwr.onVbat = s.pwr.onVbat ∧
    (spiWriteFrame bytes extra s).pwr.mainOn = s.pwr.mainOn ∧ (spiWriteFrame bytes extra s).pwr.aonOn = s.pwr.aonOn ∧
    (spiWriteFrame bytes extra s).pwr.ship = s.pwr.ship ∧
    (spiWriteFrame bytes extra s).pwr.castleCount = s.pwr.castleCount ∧
    (spiWriteFrame bytes extra s).pwr.firstValid = s.pwr.firstValid ∧
    (spiWriteFrame bytes extra s).pwr.firstSec = s.pwr.firstSec ∧
    (spiWriteFrame bytes extra s).pwr.firstFrac = s.pwr.firstFrac ∧
    (spiWriteFrame bytes extra s).pwr.castlings = s.pwr.castlings := by
  have k0 := @spiWrite_frame
  have k1 := @spiWrite_inner
  simp only [spiWriteFrame, when]
  repeat' split
  all_goals simp [k0, k1]

theorem spiReadPlain_inner (bytes : List Byte) (extra : BitVec 3) (s : State) :
    (spiReadPlain bytes extra s).hif.i3c = s.hif.i3c ∧ (spiReadPlain bytes extra s).hif.dynAddr = s.hif.dynAddr ∧
    (spiReadPlain bytes extra s).hif.crcEn = s.hif.crcEn := by
  have k0 := @readBytes_frame
  have k1 := @readBytes_inner
  simp only [spiReadPlain, when]
  repeat' split
  all_goals simp [k0, k1]

theorem spiReadCrc_inner (bytes : List Byte) (extra : BitVec 3) (s : State) :
    (spiReadCrc bytes extra s).hif.i3c = s.hif.i3c ∧ (spiReadCrc bytes extra s).hif.dynAddr = s.hif.dynAddr ∧
    (spiReadCrc bytes extra s).hif.crcEn = s.hif.crcEn := by
  have k0 := @readBytes_frame
  have k1 := @readBytes_inner
  simp only [spiReadCrc, when]
  repeat' split
  all_goals simp [k0, k1]

theorem spiReadFrame_inner (bytes : List Byte) (extra : BitVec 3) (s : State) :
    (spiReadFrame bytes extra s).hif.i3c = s.hif.i3c ∧ (spiReadFrame bytes extra s).hif.dynAddr = s.hif.dynAddr ∧
    (spiReadFrame bytes extra s).hif.crcEn = s.hif.crcEn := by
  have k0 := @spiReadCrc_frame
  have k1 := @spiReadCrc_inner
  have k2 := @spiReadPlain_frame
  have k3 := @spiReadPlain_inner
  simp only [spiReadFrame, when]
  repeat' split
  all_goals simp [k0, k1, k2, k3]

theorem spiBody_inner (bytes : List Byte) (extra : BitVec 3) (s : State) :
    (spiBody bytes extra s).rtc.sec = s.rtc.sec ∧ (spiBody bytes extra s).rtc.presc = s.rtc.presc ∧
    (spiBody bytes extra s).rtc.halted = s.rtc.halted ∧ (spiBody bytes extra s).rtc.started = s.rtc.started ∧
    (spiBody bytes extra s).sys.x32Run = s.sys.x32Run ∧ (spiBody bytes extra s).pwr.onVbat = s.pwr.onVbat ∧
    (spiBody bytes extra s).pwr.mainOn = s.pwr.mainOn ∧ (spiBody bytes extra s).pwr.aonOn = s.pwr.aonOn ∧
    (spiBody bytes extra s).pwr.ship = s.pwr.ship ∧ (spiBody bytes extra s).pwr.castleCount = s.pwr.castleCount ∧
    (spiBody bytes extra s).pwr.firstValid = s.pwr.firstValid ∧
    (spiBody bytes extra s).pwr.firstSec = s.pwr.firstSec ∧ (spiBody bytes extra s).pwr.firstFrac = s.pwr.firstFrac ∧
    (spiBody bytes extra s).pwr.castlings = s.pwr.castlings := by
  have k0 := @spiReadFrame_frame
  have k1 := @spiReadFrame_inner
  have k2 := @spiWriteFrame_frame
  have k3 := @spiWriteFrame_inner
  simp only [spiBody, when]
  repeat' split
  all_goals simp [k0, k1, k2, k3]

@[simp] theorem spiFrame_inner (bytes : List Byte) (extra : BitVec 3) (s : State) :
    (spiFrame bytes extra s).rtc.sec = s.rtc.sec ∧ (spiFrame bytes extra s).rtc.presc = s.rtc.presc ∧
    (spiFrame bytes extra s).rtc.halted = s.rtc.halted ∧ (spiFrame bytes extra s).rtc.started = s.rtc.started ∧
    (spiFrame bytes extra s).sys.x32Run = s.sys.x32Run ∧ (spiFrame bytes extra s).pwr.onVbat = s.pwr.onVbat ∧
    (spiFrame bytes extra s).pwr.mainOn = s.pwr.mainOn ∧ (spiFrame bytes extra s).pwr.aonOn = s.pwr.aonOn ∧
    (spiFrame bytes extra s).pwr.ship = s.pwr.ship ∧ (spiFrame bytes extra s).pwr.castleCount = s.pwr.castleCount ∧
    (spiFrame bytes extra s).pwr.firstValid = s.pwr.firstValid ∧
    (spiFrame bytes extra s).pwr.firstSec = s.pwr.firstSec ∧
    (spiFrame bytes extra s).pwr.firstFrac = s.pwr.firstFrac ∧
    (spiFrame bytes extra s).pwr.castlings = s.pwr.castlings := by
  have k0 := @spiBody_frame
  have k1 := @spiBody_inner
  simp only [spiFrame, when]
  repeat' split
  all_goals simp [k0, k1]

@[simp] theorem spiBusy_inner (s : State) :
    (spiBusy s).hif.i3c = s.hif.i3c ∧ (spiBusy s).hif.dynAddr = s.hif.dynAddr ∧ (spiBusy s).hif.crcEn = s.hif.crcEn ∧
    (spiBusy s).hif.txn = s.hif.txn ∧ (spiBusy s).evt.mask = s.evt.mask ∧ (spiBusy s).evt.copy = s.evt.copy := by
  simp only [spiBusy, when]
  repeat' split
  all_goals simp

@[simp] theorem acked_inner (bs : List Bool) (s : State) :
    (acked bs s).hif.i3c = s.hif.i3c ∧ (acked bs s).hif.dynAddr = s.hif.dynAddr ∧
    (acked bs s).hif.crcEn = s.hif.crcEn ∧ (acked bs s).hif.txn = s.hif.txn ∧ (acked bs s).hif.reply = s.hif.reply := by
  simp only [acked, when]
  repeat' split
  all_goals simp

theorem beginXfer_inner (sr : Bool) (s : State) :
    (beginXfer sr s).evin.incfg = s.evin.incfg ∧ (beginXfer sr s).evin.level = s.evin.level ∧
    (beginXfer sr s).evin.syncLevel = s.evin.syncLevel ∧ (beginXfer sr s).tt.ctl = s.tt.ctl ∧
    (beginXfer sr s).tt.instA = s.tt.instA ∧ (beginXfer sr s).tt.instB = s.tt.instB ∧
    (beginXfer sr s).tt.active = s.tt.active ∧ (beginXfer sr s).tt.activeValid = s.tt.activeValid ∧
    (beginXfer sr s).tt.startSec = s.tt.startSec ∧ (beginXfer sr s).tt.startFrac = s.tt.startFrac ∧
    (beginXfer sr s).tt.swPend = s.tt.swPend ∧ (beginXfer sr s).rtc.sec = s.rtc.sec ∧
    (beginXfer sr s).rtc.presc = s.rtc.presc ∧ (beginXfer sr s).rtc.halted = s.rtc.halted ∧
    (beginXfer sr s).rtc.trim = s.rtc.trim ∧ (beginXfer sr s).rtc.offset = s.rtc.offset ∧
    (beginXfer sr s).rtc.dst = s.rtc.dst ∧ (beginXfer sr s).rtc.started = s.rtc.started ∧
    (beginXfer sr s).sys.phase = s.sys.phase ∧ (beginXfer sr s).sys.cfgState = s.sys.cfgState ∧
    (beginXfer sr s).sys.x32Run = s.sys.x32Run ∧ (beginXfer sr s).sys.measRst = s.sys.measRst ∧
    (beginXfer sr s).sys.lostCmds = s.sys.lostCmds ∧ (beginXfer sr s).sys.pstate = s.sys.pstate ∧
    (beginXfer sr s).pwr.trickle = s.pwr.trickle ∧ (beginXfer sr s).pwr.onVbat = s.pwr.onVbat ∧
    (beginXfer sr s).pwr.mainOn = s.pwr.mainOn ∧ (beginXfer sr s).pwr.aonOn = s.pwr.aonOn ∧
    (beginXfer sr s).pwr.warn = s.pwr.warn ∧ (beginXfer sr s).pwr.ship = s.pwr.ship ∧
    (beginXfer sr s).pwr.castleCount = s.pwr.castleCount ∧ (beginXfer sr s).pwr.firstValid = s.pwr.firstValid ∧
    (beginXfer sr s).pwr.firstSec = s.pwr.firstSec ∧ (beginXfer sr s).pwr.firstFrac = s.pwr.firstFrac ∧
    (beginXfer sr s).pwr.castlings = s.pwr.castlings ∧ (beginXfer sr s).cond.arg0 = s.cond.arg0 ∧
    (beginXfer sr s).cond.arg1 = s.cond.arg1 ∧ (beginXfer sr s).cond.arg2 = s.cond.arg2 ∧
    (beginXfer sr s).cond.queue = s.cond.queue ∧ (beginXfer sr s).cond.running = s.cond.running ∧
    (beginXfer sr s).cond.head = s.cond.head ∧ (beginXfer sr s).cond.seq = s.cond.seq ∧
    (beginXfer sr s).cond.tail = s.cond.tail ∧ (beginXfer sr s).cond.switches = s.cond.switches ∧
    (beginXfer sr s).cond.inReset = s.cond.inReset ∧ (beginXfer sr s).ldg.ctl = s.ldg.ctl ∧
    (beginXfer sr s).ldg.run = s.ldg.run ∧ (beginXfer sr s).ldg.cnt = s.ldg.cnt ∧
    (beginXfer sr s).ldg.lap = s.ldg.lap ∧ (beginXfer sr s).evt.mask = s.evt.mask ∧
    (beginXfer sr s).evt.copy = s.evt.copy := by
  simp only [beginXfer, when]
  repeat' split
  all_goals simp

@[simp] theorem onBus_evin_incfg (x : Xfer) (f : State → State) (s : State)
    (h : ∀ t, (f t).evin.incfg = t.evin.incfg) : (onBus x f s).evin.incfg = s.evin.incfg := by
  have k0 := @beginXfer_frame
  have k1 := @beginXfer_inner
  simp only [onBus]
  repeat' split
  all_goals simp [h, when, k0, k1]

@[simp] theorem onBus_evin_level (x : Xfer) (f : State → State) (s : State)
    (h : ∀ t, (f t).evin.level = t.evin.level) : (onBus x f s).evin.level = s.evin.level := by
  have k0 := @beginXfer_frame
  have k1 := @beginXfer_inner
  simp only [onBus]
  repeat' split
  all_goals simp [h, when, k0, k1]

@[simp] theorem onBus_evin_syncLevel (x : Xfer) (f : State → State) (s : State)
    (h : ∀ t, (f t).evin.syncLevel = t.evin.syncLevel) : (onBus x f s).evin.syncLevel = s.evin.syncLevel := by
  have k0 := @beginXfer_frame
  have k1 := @beginXfer_inner
  simp only [onBus]
  repeat' split
  all_goals simp [h, when, k0, k1]

@[simp] theorem onBus_tt_ctl (x : Xfer) (f : State → State) (s : State)
    (h : ∀ t, (f t).tt.ctl = t.tt.ctl) : (onBus x f s).tt.ctl = s.tt.ctl := by
  have k0 := @beginXfer_frame
  have k1 := @beginXfer_inner
  simp only [onBus]
  repeat' split
  all_goals simp [h, when, k0, k1]

@[simp] theorem onBus_tt_instA (x : Xfer) (f : State → State) (s : State)
    (h : ∀ t, (f t).tt.instA = t.tt.instA) : (onBus x f s).tt.instA = s.tt.instA := by
  have k0 := @beginXfer_frame
  have k1 := @beginXfer_inner
  simp only [onBus]
  repeat' split
  all_goals simp [h, when, k0, k1]

@[simp] theorem onBus_tt_instB (x : Xfer) (f : State → State) (s : State)
    (h : ∀ t, (f t).tt.instB = t.tt.instB) : (onBus x f s).tt.instB = s.tt.instB := by
  have k0 := @beginXfer_frame
  have k1 := @beginXfer_inner
  simp only [onBus]
  repeat' split
  all_goals simp [h, when, k0, k1]

@[simp] theorem onBus_tt_active (x : Xfer) (f : State → State) (s : State)
    (h : ∀ t, (f t).tt.active = t.tt.active) : (onBus x f s).tt.active = s.tt.active := by
  have k0 := @beginXfer_frame
  have k1 := @beginXfer_inner
  simp only [onBus]
  repeat' split
  all_goals simp [h, when, k0, k1]

@[simp] theorem onBus_tt_activeValid (x : Xfer) (f : State → State) (s : State)
    (h : ∀ t, (f t).tt.activeValid = t.tt.activeValid) : (onBus x f s).tt.activeValid = s.tt.activeValid := by
  have k0 := @beginXfer_frame
  have k1 := @beginXfer_inner
  simp only [onBus]
  repeat' split
  all_goals simp [h, when, k0, k1]

@[simp] theorem onBus_tt_startSec (x : Xfer) (f : State → State) (s : State)
    (h : ∀ t, (f t).tt.startSec = t.tt.startSec) : (onBus x f s).tt.startSec = s.tt.startSec := by
  have k0 := @beginXfer_frame
  have k1 := @beginXfer_inner
  simp only [onBus]
  repeat' split
  all_goals simp [h, when, k0, k1]

@[simp] theorem onBus_tt_startFrac (x : Xfer) (f : State → State) (s : State)
    (h : ∀ t, (f t).tt.startFrac = t.tt.startFrac) : (onBus x f s).tt.startFrac = s.tt.startFrac := by
  have k0 := @beginXfer_frame
  have k1 := @beginXfer_inner
  simp only [onBus]
  repeat' split
  all_goals simp [h, when, k0, k1]

@[simp] theorem onBus_tt_swPend (x : Xfer) (f : State → State) (s : State)
    (h : ∀ t, (f t).tt.swPend = t.tt.swPend) : (onBus x f s).tt.swPend = s.tt.swPend := by
  have k0 := @beginXfer_frame
  have k1 := @beginXfer_inner
  simp only [onBus]
  repeat' split
  all_goals simp [h, when, k0, k1]

@[simp] theorem onBus_rtc_sec (x : Xfer) (f : State → State) (s : State)
    (h : ∀ t, (f t).rtc.sec = t.rtc.sec) : (onBus x f s).rtc.sec = s.rtc.sec := by
  have k0 := @beginXfer_frame
  have k1 := @beginXfer_inner
  simp only [onBus]
  repeat' split
  all_goals simp [h, when, k0, k1]

@[simp] theorem onBus_rtc_presc (x : Xfer) (f : State → State) (s : State)
    (h : ∀ t, (f t).rtc.presc = t.rtc.presc) : (onBus x f s).rtc.presc = s.rtc.presc := by
  have k0 := @beginXfer_frame
  have k1 := @beginXfer_inner
  simp only [onBus]
  repeat' split
  all_goals simp [h, when, k0, k1]

@[simp] theorem onBus_rtc_halted (x : Xfer) (f : State → State) (s : State)
    (h : ∀ t, (f t).rtc.halted = t.rtc.halted) : (onBus x f s).rtc.halted = s.rtc.halted := by
  have k0 := @beginXfer_frame
  have k1 := @beginXfer_inner
  simp only [onBus]
  repeat' split
  all_goals simp [h, when, k0, k1]

@[simp] theorem onBus_rtc_trim (x : Xfer) (f : State → State) (s : State)
    (h : ∀ t, (f t).rtc.trim = t.rtc.trim) : (onBus x f s).rtc.trim = s.rtc.trim := by
  have k0 := @beginXfer_frame
  have k1 := @beginXfer_inner
  simp only [onBus]
  repeat' split
  all_goals simp [h, when, k0, k1]

@[simp] theorem onBus_rtc_offset (x : Xfer) (f : State → State) (s : State)
    (h : ∀ t, (f t).rtc.offset = t.rtc.offset) : (onBus x f s).rtc.offset = s.rtc.offset := by
  have k0 := @beginXfer_frame
  have k1 := @beginXfer_inner
  simp only [onBus]
  repeat' split
  all_goals simp [h, when, k0, k1]

@[simp] theorem onBus_rtc_dst (x : Xfer) (f : State → State) (s : State)
    (h : ∀ t, (f t).rtc.dst = t.rtc.dst) : (onBus x f s).rtc.dst = s.rtc.dst := by
  have k0 := @beginXfer_frame
  have k1 := @beginXfer_inner
  simp only [onBus]
  repeat' split
  all_goals simp [h, when, k0, k1]

@[simp] theorem onBus_rtc_started (x : Xfer) (f : State → State) (s : State)
    (h : ∀ t, (f t).rtc.started = t.rtc.started) : (onBus x f s).rtc.started = s.rtc.started := by
  have k0 := @beginXfer_frame
  have k1 := @beginXfer_inner
  simp only [onBus]
  repeat' split
  all_goals simp [h, when, k0, k1]

@[simp] theorem onBus_sys_phase (x : Xfer) (f : State → State) (s : State)
    (h : ∀ t, (f t).sys.phase = t.sys.phase) : (onBus x f s).sys.phase = s.sys.phase := by
  have k0 := @beginXfer_frame
  have k1 := @beginXfer_inner
  simp only [onBus]
  repeat' split
  all_goals simp [h, when, k0, k1]

@[simp] theorem onBus_sys_cfgState (x : Xfer) (f : State → State) (s : State)
    (h : ∀ t, (f t).sys.cfgState = t.sys.cfgState) : (onBus x f s).sys.cfgState = s.sys.cfgState := by
  have k0 := @beginXfer_frame
  have k1 := @beginXfer_inner
  simp only [onBus]
  repeat' split
  all_goals simp [h, when, k0, k1]

@[simp] theorem onBus_sys_x32Run (x : Xfer) (f : State → State) (s : State)
    (h : ∀ t, (f t).sys.x32Run = t.sys.x32Run) : (onBus x f s).sys.x32Run = s.sys.x32Run := by
  have k0 := @beginXfer_frame
  have k1 := @beginXfer_inner
  simp only [onBus]
  repeat' split
  all_goals simp [h, when, k0, k1]

@[simp] theorem onBus_sys_measRst (x : Xfer) (f : State → State) (s : State)
    (h : ∀ t, (f t).sys.measRst = t.sys.measRst) : (onBus x f s).sys.measRst = s.sys.measRst := by
  have k0 := @beginXfer_frame
  have k1 := @beginXfer_inner
  simp only [onBus]
  repeat' split
  all_goals simp [h, when, k0, k1]

@[simp] theorem onBus_sys_lostCmds (x : Xfer) (f : State → State) (s : State)
    (h : ∀ t, (f t).sys.lostCmds = t.sys.lostCmds) : (onBus x f s).sys.lostCmds = s.sys.lostCmds := by
  have k0 := @beginXfer_frame
  have k1 := @beginXfer_inner
  simp only [onBus]
  repeat' split
  all_goals simp [h, when, k0, k1]

@[simp] theorem onBus_sys_pstate (x : Xfer) (f : State → State) (s : State)
    (h : ∀ t, (f t).sys.pstate = t.sys.pstate) : (onBus x f s).sys.pstate = s.sys.pstate := by
  have k0 := @beginXfer_frame
  have k1 := @beginXfer_inner
  simp only [onBus]
  repeat' split
  all_goals simp [h, when, k0, k1]

@[simp] theorem onBus_pwr_trickle (x : Xfer) (f : State → State) (s : State)
    (h : ∀ t, (f t).pwr.trickle = t.pwr.trickle) : (onBus x f s).pwr.trickle = s.pwr.trickle := by
  have k0 := @beginXfer_frame
  have k1 := @beginXfer_inner
  simp only [onBus]
  repeat' split
  all_goals simp [h, when, k0, k1]

@[simp] theorem onBus_pwr_onVbat (x : Xfer) (f : State → State) (s : State)
    (h : ∀ t, (f t).pwr.onVbat = t.pwr.onVbat) : (onBus x f s).pwr.onVbat = s.pwr.onVbat := by
  have k0 := @beginXfer_frame
  have k1 := @beginXfer_inner
  simp only [onBus]
  repeat' split
  all_goals simp [h, when, k0, k1]

@[simp] theorem onBus_pwr_mainOn (x : Xfer) (f : State → State) (s : State)
    (h : ∀ t, (f t).pwr.mainOn = t.pwr.mainOn) : (onBus x f s).pwr.mainOn = s.pwr.mainOn := by
  have k0 := @beginXfer_frame
  have k1 := @beginXfer_inner
  simp only [onBus]
  repeat' split
  all_goals simp [h, when, k0, k1]

@[simp] theorem onBus_pwr_aonOn (x : Xfer) (f : State → State) (s : State)
    (h : ∀ t, (f t).pwr.aonOn = t.pwr.aonOn) : (onBus x f s).pwr.aonOn = s.pwr.aonOn := by
  have k0 := @beginXfer_frame
  have k1 := @beginXfer_inner
  simp only [onBus]
  repeat' split
  all_goals simp [h, when, k0, k1]

@[simp] theorem onBus_pwr_warn (x : Xfer) (f : State → State) (s : State)
    (h : ∀ t, (f t).pwr.warn = t.pwr.warn) : (onBus x f s).pwr.warn = s.pwr.warn := by
  have k0 := @beginXfer_frame
  have k1 := @beginXfer_inner
  simp only [onBus]
  repeat' split
  all_goals simp [h, when, k0, k1]

@[simp] theorem onBus_pwr_ship (x : Xfer) (f : State → State) (s : State)
    (h : ∀ t, (f t).pwr.ship = t.pwr.ship) : (onBus x f s).pwr.ship = s.pwr.ship := by
  have k0 := @beginXfer_frame
  have k1 := @beginXfer_inner
  simp only [onBus]
  repeat' split
  all_goals simp [h, when, k0, k1]

@[simp] theorem onBus_pwr_castleCount (x : Xfer) (f : State → State) (s : State)
    (h : ∀ t, (f t).pwr.castleCount = t.pwr.castleCount) : (onBus x f s).pwr.castleCount = s.pwr.castleCount := by
  have k0 := @beginXfer_frame
  have k1 := @beginXfer_inner
  simp only [onBus]
  repeat' split
  all_goals simp [h, when, k0, k1]

@[simp] theorem onBus_pwr_firstValid (x : Xfer) (f : State → State) (s : State)
    (h : ∀ t, (f t).pwr.firstValid = t.pwr.firstValid) : (onBus x f s).pwr.firstValid = s.pwr.firstValid := by
  have k0 := @beginXfer_frame
  have k1 := @beginXfer_inner
  simp only [onBus]
  repeat' split
  all_goals simp [h, when, k0, k1]

@[simp] theorem onBus_pwr_firstSec (x : Xfer) (f : State → State) (s : State)
    (h : ∀ t, (f t).pwr.firstSec = t.pwr.firstSec) : (onBus x f s).pwr.firstSec = s.pwr.firstSec := by
  have k0 := @beginXfer_frame
  have k1 := @beginXfer_inner
  simp only [onBus]
  repeat' split
  all_goals simp [h, when, k0, k1]

@[simp] theorem onBus_pwr_firstFrac (x : Xfer) (f : State → State) (s : State)
    (h : ∀ t, (f t).pwr.firstFrac = t.pwr.firstFrac) : (onBus x f s).pwr.firstFrac = s.pwr.firstFrac := by
  have k0 := @beginXfer_frame
  have k1 := @beginXfer_inner
  simp only [onBus]
  repeat' split
  all_goals simp [h, when, k0, k1]

@[simp] theorem onBus_pwr_castlings (x : Xfer) (f : State → State) (s : State)
    (h : ∀ t, (f t).pwr.castlings = t.pwr.castlings) : (onBus x f s).pwr.castlings = s.pwr.castlings := by
  have k0 := @beginXfer_frame
  have k1 := @beginXfer_inner
  simp only [onBus]
  repeat' split
  all_goals simp [h, when, k0, k1]

@[simp] theorem onBus_clk_src (x : Xfer) (f : State → State) (s : State)
    (h : ∀ t, (f t).clk.src = t.clk.src) : (onBus x f s).clk.src = s.clk.src := by
  have k0 := @beginXfer_frame
  have k1 := @beginXfer_inner
  simp only [onBus]
  repeat' split
  all_goals simp [h, when, k0, k1]

@[simp] theorem onBus_clk_limits (x : Xfer) (f : State → State) (s : State)
    (h : ∀ t, (f t).clk.limits = t.clk.limits) : (onBus x f s).clk.limits = s.clk.limits := by
  have k0 := @beginXfer_frame
  have k1 := @beginXfer_inner
  simp only [onBus]
  repeat' split
  all_goals simp [h, when, k0, k1]

@[simp] theorem onBus_clk_spread (x : Xfer) (f : State → State) (s : State)
    (h : ∀ t, (f t).clk.spread = t.clk.spread) : (onBus x f s).clk.spread = s.clk.spread := by
  have k0 := @beginXfer_frame
  have k1 := @beginXfer_inner
  simp only [onBus]
  repeat' split
  all_goals simp [h, when, k0, k1]

@[simp] theorem onBus_clk_active (x : Xfer) (f : State → State) (s : State)
    (h : ∀ t, (f t).clk.active = t.clk.active) : (onBus x f s).clk.active = s.clk.active := by
  have k0 := @beginXfer_frame
  have k1 := @beginXfer_inner
  simp only [onBus]
  repeat' split
  all_goals simp [h, when, k0, k1]

@[simp] theorem onBus_clk_plans (x : Xfer) (f : State → State) (s : State)
    (h : ∀ t, (f t).clk.plans = t.clk.plans) : (onBus x f s).clk.plans = s.clk.plans := by
  have k0 := @beginXfer_frame
  have k1 := @beginXfer_inner
  simp only [onBus]
  repeat' split
  all_goals simp [h, when, k0, k1]

@[simp] theorem onBus_clk_bypass (x : Xfer) (f : State → State) (s : State)
    (h : ∀ t, (f t).clk.bypass = t.clk.bypass) : (onBus x f s).clk.bypass = s.clk.bypass := by
  have k0 := @beginXfer_frame
  have k1 := @beginXfer_inner
  simp only [onBus]
  repeat' split
  all_goals simp [h, when, k0, k1]

@[simp] theorem onBus_clk_drift (x : Xfer) (f : State → State) (s : State)
    (h : ∀ t, (f t).clk.drift = t.clk.drift) : (onBus x f s).clk.drift = s.clk.drift := by
  have k0 := @beginXfer_frame
  have k1 := @beginXfer_inner
  simp only [onBus]
  repeat' split
  all_goals simp [h, when, k0, k1]

@[simp] theorem onBus_clk_q (x : Xfer) (f : State → State) (s : State)
    (h : ∀ t, (f t).clk.q = t.clk.q) : (onBus x f s).clk.q = s.clk.q := by
  have k0 := @beginXfer_frame
  have k1 := @beginXfer_inner
  simp only [onBus]
  repeat' split
  all_goals simp [h, when, k0, k1]

@[simp] theorem onBus_cond_arg0 (x : Xfer) (f : State → State) (s : State)
    (h : ∀ t, (f t).cond.arg0 = t.cond.arg0) : (onBus x f s).cond.arg0 = s.cond.arg0 := by
  have k0 := @beginXfer_frame
  have k1 := @beginXfer_inner
  simp only [onBus]
  repeat' split
  all_goals simp [h, when, k0, k1]

@[simp] theorem onBus_cond_arg1 (x : Xfer) (f : State → State) (s : State)
    (h : ∀ t, (f t).cond.arg1 = t.cond.arg1) : (onBus x f s).cond.arg1 = s.cond.arg1 := by
  have k0 := @beginXfer_frame
  have k1 := @beginXfer_inner
  simp only [onBus]
  repeat' split
  all_goals simp [h, when, k0, k1]

@[simp] theorem onBus_cond_arg2 (x : Xfer) (f : State → State) (s : State)
    (h : ∀ t, (f t).cond.arg2 = t.cond.arg2) : (onBus x f s).cond.arg2 = s.cond.arg2 := by
  have k0 := @beginXfer_frame
  have k1 := @beginXfer_inner
  simp only [onBus]
  repeat' split
  all_goals simp [h, when, k0, k1]

@[simp] theorem onBus_cond_queue (x : Xfer) (f : State → State) (s : State)
    (h : ∀ t, (f t).cond.queue = t.cond.queue) : (onBus x f s).cond.queue = s.cond.queue := by
  have k0 := @beginXfer_frame
  have k1 := @beginXfer_inner
  simp only [onBus]
  repeat' split
  all_goals simp [h, when, k0, k1]

@[simp] theorem onBus_cond_running (x : Xfer) (f : State → State) (s : State)
    (h : ∀ t, (f t).cond.running = t.cond.running) : (onBus x f s).cond.running = s.cond.running := by
  have k0 := @beginXfer_frame
  have k1 := @beginXfer_inner
  simp only [onBus]
  repeat' split
  all_goals simp [h, when, k0, k1]

@[simp] theorem onBus_cond_head (x : Xfer) (f : State → State) (s : State)
    (h : ∀ t, (f t).cond.head = t.cond.head) : (onBus x f s).cond.head = s.cond.head := by
  have k0 := @beginXfer_frame
  have k1 := @beginXfer_inner
  simp only [onBus]
  repeat' split
  all_goals simp [h, when, k0, k1]

@[simp] theorem onBus_cond_seq (x : Xfer) (f : State → State) (s : State)
    (h : ∀ t, (f t).cond.seq = t.cond.seq) : (onBus x f s).cond.seq = s.cond.seq := by
  have k0 := @beginXfer_frame
  have k1 := @beginXfer_inner
  simp only [onBus]
  repeat' split
  all_goals simp [h, when, k0, k1]

@[simp] theorem onBus_cond_tail (x : Xfer) (f : State → State) (s : State)
    (h : ∀ t, (f t).cond.tail = t.cond.tail) : (onBus x f s).cond.tail = s.cond.tail := by
  have k0 := @beginXfer_frame
  have k1 := @beginXfer_inner
  simp only [onBus]
  repeat' split
  all_goals simp [h, when, k0, k1]

@[simp] theorem onBus_cond_switches (x : Xfer) (f : State → State) (s : State)
    (h : ∀ t, (f t).cond.switches = t.cond.switches) : (onBus x f s).cond.switches = s.cond.switches := by
  have k0 := @beginXfer_frame
  have k1 := @beginXfer_inner
  simp only [onBus]
  repeat' split
  all_goals simp [h, when, k0, k1]

@[simp] theorem onBus_cond_inReset (x : Xfer) (f : State → State) (s : State)
    (h : ∀ t, (f t).cond.inReset = t.cond.inReset) : (onBus x f s).cond.inReset = s.cond.inReset := by
  have k0 := @beginXfer_frame
  have k1 := @beginXfer_inner
  simp only [onBus]
  repeat' split
  all_goals simp [h, when, k0, k1]

@[simp] theorem onBus_ldg_ctl (x : Xfer) (f : State → State) (s : State)
    (h : ∀ t, (f t).ldg.ctl = t.ldg.ctl) : (onBus x f s).ldg.ctl = s.ldg.ctl := by
  have k0 := @beginXfer_frame
  have k1 := @beginXfer_inner
  simp only [onBus]
  repeat' split
  all_goals simp [h, when, k0, k1]

@[simp] theorem onBus_ldg_run (x : Xfer) (f : State → State) (s : State)
    (h : ∀ t, (f t).ldg.run = t.ldg.run) : (onBus x f s).ldg.run = s.ldg.run := by
  have k0 := @beginXfer_frame
  have k1 := @beginXfer_inner
  simp only [onBus]
  repeat' split
  all_goals simp [h, when, k0, k1]

@[simp] theorem onBus_ldg_cnt (x : Xfer) (f : State → State) (s : State)
    (h : ∀ t, (f t).ldg.cnt = t.ldg.cnt) : (onBus x f s).ldg.cnt = s.ldg.cnt := by
  have k0 := @beginXfer_frame
  have k1 := @beginXfer_inner
  simp only [onBus]
  repeat' split
  all_goals simp [h, when, k0, k1]

@[simp] theorem onBus_ldg_lap (x : Xfer) (f : State → State) (s : State)
    (h : ∀ t, (f t).ldg.lap = t.ldg.lap) : (onBus x f s).ldg.lap = s.ldg.lap := by
  have k0 := @beginXfer_frame
  have k1 := @beginXfer_inner
  simp only [onBus]
  repeat' split
  all_goals simp [h, when, k0, k1]

@[simp] theorem onBus_afe_ctl (x : Xfer) (f : State → State) (s : State)
    (h : ∀ t, (f t).afe.ctl = t.afe.ctl) : (onBus x f s).afe.ctl = s.afe.ctl := by
  have k0 := @beginXfer_frame
  have k1 := @beginXfer_inner
  simp only [onBus]
  repeat' split
  all_goals simp [h, when, k0, k1]

@[simp] theorem onBus_afe_eff (x : Xfer) (f : State → State) (s : State)
    (h : ∀ t, (f t).afe.eff = t.afe.eff) : (onBus x f s).afe.eff = s.afe.eff := by
  have k0 := @beginXfer_frame
  have k1 := @beginXfer_inner
  simp only [onBus]
  repeat' split
  all_goals simp [h, when, k0, k1]

@[simp] theorem onBus_afe_diag (x : Xfer) (f : State → State) (s : State)
    (h : ∀ t, (f t).afe.diag = t.afe.diag) : (onBus x f s).afe.diag = s.afe.diag := by
  have k0 := @beginXfer_frame
  have k1 := @beginXfer_inner
  simp only [onBus]
  repeat' split
  all_goals simp [h, when, k0, k1]

@[simp] theorem onBus_ros_sealed (x : Xfer) (f : State → State) (s : State)
    (h : ∀ t, (f t).ros.sealed = t.ros.sealed) : (onBus x f s).ros.sealed = s.ros.sealed := by
  have k0 := @beginXfer_frame
  have k1 := @beginXfer_inner
  simp only [onBus]
  repeat' split
  all_goals simp [h, when, k0, k1]

@[simp] theorem onBus_out_cfg (x : Xfer) (f : State → State) (s : State)
    (h : ∀ t, (f t).out.cfg = t.out.cfg) : (onBus x f s).out.cfg = s.out.cfg := by
  have k0 := @beginXfer_frame
  have k1 := @beginXfer_inner
  simp only [onBus]
  repeat' split
  all_goals simp [h, when, k0, k1]

@[simp] theorem onBus_out_gen (x : Xfer) (f : State → State) (s : State)
    (h : ∀ t, (f t).out.gen = t.out.gen) : (onBus x f s).out.gen = s.out.gen := by
  have k0 := @beginXfer_frame
  have k1 := @beginXfer_inner
  simp only [onBus]
  repeat' split
  all_goals simp [h, when, k0, k1]

@[simp] theorem onBus_out_span (x : Xfer) (f : State → State) (s : State)
    (h : ∀ t, (f t).out.span = t.out.span) : (onBus x f s).out.span = s.out.span := by
  have k0 := @beginXfer_frame
  have k1 := @beginXfer_inner
  simp only [onBus]
  repeat' split
  all_goals simp [h, when, k0, k1]

@[simp] theorem onBus_out_staged (x : Xfer) (f : State → State) (s : State)
    (h : ∀ t, (f t).out.staged = t.out.staged) : (onBus x f s).out.staged = s.out.staged := by
  have k0 := @beginXfer_frame
  have k1 := @beginXfer_inner
  simp only [onBus]
  repeat' split
  all_goals simp [h, when, k0, k1]

@[simp] theorem onBus_nv_pages (x : Xfer) (f : State → State) (s : State)
    (h : ∀ t, (f t).nv.pages = t.nv.pages) : (onBus x f s).nv.pages = s.nv.pages := by
  have k0 := @beginXfer_frame
  have k1 := @beginXfer_inner
  simp only [onBus]
  repeat' split
  all_goals simp [h, when, k0, k1]

@[simp] theorem onBus_nv_op (x : Xfer) (f : State → State) (s : State)
    (h : ∀ t, (f t).nv.op = t.nv.op) : (onBus x f s).nv.op = s.nv.op := by
  have k0 := @beginXfer_frame
  have k1 := @beginXfer_inner
  simp only [onBus]
  repeat' split
  all_goals simp [h, when, k0, k1]

@[simp] theorem onBus_nv_running (x : Xfer) (f : State → State) (s : State)
    (h : ∀ t, (f t).nv.running = t.nv.running) : (onBus x f s).nv.running = s.nv.running := by
  have k0 := @beginXfer_frame
  have k1 := @beginXfer_inner
  simp only [onBus]
  repeat' split
  all_goals simp [h, when, k0, k1]

@[simp] theorem onBus_nv_suspend (x : Xfer) (f : State → State) (s : State)
    (h : ∀ t, (f t).nv.suspend = t.nv.suspend) : (onBus x f s).nv.suspend = s.nv.suspend := by
  have k0 := @beginXfer_frame
  have k1 := @beginXfer_inner
  simp only [onBus]
  repeat' split
  all_goals simp [h, when, k0, k1]

@[simp] theorem onBus_nv_todo (x : Xfer) (f : State → State) (s : State)
    (h : ∀ t, (f t).nv.todo = t.nv.todo) : (onBus x f s).nv.todo = s.nv.todo := by
  have k0 := @beginXfer_frame
  have k1 := @beginXfer_inner
  simp only [onBus]
  repeat' split
  all_goals simp [h, when, k0, k1]

@[simp] theorem onBus_disc_en (x : Xfer) (f : State → State) (s : State)
    (h : ∀ t, (f t).disc.en = t.disc.en) : (onBus x f s).disc.en = s.disc.en := by
  have k0 := @beginXfer_frame
  have k1 := @beginXfer_inner
  simp only [onBus]
  repeat' split
  all_goals simp [h, when, k0, k1]

@[simp] theorem onBus_cal_map (x : Xfer) (f : State → State) (s : State)
    (h : ∀ t, (f t).cal.map = t.cal.map) : (onBus x f s).cal.map = s.cal.map := by
  have k0 := @beginXfer_frame
  have k1 := @beginXfer_inner
  simp only [onBus]
  repeat' split
  all_goals simp [h, when, k0, k1]

@[simp] theorem onBus_cal_quality (x : Xfer) (f : State → State) (s : State)
    (h : ∀ t, (f t).cal.quality = t.cal.quality) : (onBus x f s).cal.quality = s.cal.quality := by
  have k0 := @beginXfer_frame
  have k1 := @beginXfer_inner
  simp only [onBus]
  repeat' split
  all_goals simp [h, when, k0, k1]

@[simp] theorem onBus_cal_modTrim (x : Xfer) (f : State → State) (s : State)
    (h : ∀ t, (f t).cal.modTrim = t.cal.modTrim) : (onBus x f s).cal.modTrim = s.cal.modTrim := by
  have k0 := @beginXfer_frame
  have k1 := @beginXfer_inner
  simp only [onBus]
  repeat' split
  all_goals simp [h, when, k0, k1]

@[simp] theorem onBus_cal_evtTrim (x : Xfer) (f : State → State) (s : State)
    (h : ∀ t, (f t).cal.evtTrim = t.cal.evtTrim) : (onBus x f s).cal.evtTrim = s.cal.evtTrim := by
  have k0 := @beginXfer_frame
  have k1 := @beginXfer_inner
  simp only [onBus]
  repeat' split
  all_goals simp [h, when, k0, k1]

@[simp] theorem onBus_cal_calibrated (x : Xfer) (f : State → State) (s : State)
    (h : ∀ t, (f t).cal.calibrated = t.cal.calibrated) : (onBus x f s).cal.calibrated = s.cal.calibrated := by
  have k0 := @beginXfer_frame
  have k1 := @beginXfer_inner
  simp only [onBus]
  repeat' split
  all_goals simp [h, when, k0, k1]

@[simp] theorem onBus_evt_mask (x : Xfer) (f : State → State) (s : State)
    (h : ∀ t, (f t).evt.mask = t.evt.mask) : (onBus x f s).evt.mask = s.evt.mask := by
  have k0 := @beginXfer_frame
  have k1 := @beginXfer_inner
  simp only [onBus]
  repeat' split
  all_goals simp [h, when, k0, k1]

@[simp] theorem onBus_evt_copy (x : Xfer) (f : State → State) (s : State)
    (h : ∀ t, (f t).evt.copy = t.evt.copy) : (onBus x f s).evt.copy = s.evt.copy := by
  have k0 := @beginXfer_frame
  have k1 := @beginXfer_inner
  simp only [onBus]
  repeat' split
  all_goals simp [h, when, k0, k1]

@[simp] theorem onCcc_evin_incfg (b : Ends) (f : State → State) (s : State)
    (h : ∀ t, (f t).evin.incfg = t.evin.incfg) : (onCcc b f s).evin.incfg = s.evin.incfg := by
  simp only [onCcc]
  repeat' split
  all_goals simp [h, when]

@[simp] theorem onCcc_evin_level (b : Ends) (f : State → State) (s : State)
    (h : ∀ t, (f t).evin.level = t.evin.level) : (onCcc b f s).evin.level = s.evin.level := by
  simp only [onCcc]
  repeat' split
  all_goals simp [h, when]

@[simp] theorem onCcc_evin_syncLevel (b : Ends) (f : State → State) (s : State)
    (h : ∀ t, (f t).evin.syncLevel = t.evin.syncLevel) : (onCcc b f s).evin.syncLevel = s.evin.syncLevel := by
  simp only [onCcc]
  repeat' split
  all_goals simp [h, when]

@[simp] theorem onCcc_tt_ctl (b : Ends) (f : State → State) (s : State)
    (h : ∀ t, (f t).tt.ctl = t.tt.ctl) : (onCcc b f s).tt.ctl = s.tt.ctl := by
  simp only [onCcc]
  repeat' split
  all_goals simp [h, when]

@[simp] theorem onCcc_tt_instA (b : Ends) (f : State → State) (s : State)
    (h : ∀ t, (f t).tt.instA = t.tt.instA) : (onCcc b f s).tt.instA = s.tt.instA := by
  simp only [onCcc]
  repeat' split
  all_goals simp [h, when]

@[simp] theorem onCcc_tt_instB (b : Ends) (f : State → State) (s : State)
    (h : ∀ t, (f t).tt.instB = t.tt.instB) : (onCcc b f s).tt.instB = s.tt.instB := by
  simp only [onCcc]
  repeat' split
  all_goals simp [h, when]

@[simp] theorem onCcc_tt_active (b : Ends) (f : State → State) (s : State)
    (h : ∀ t, (f t).tt.active = t.tt.active) : (onCcc b f s).tt.active = s.tt.active := by
  simp only [onCcc]
  repeat' split
  all_goals simp [h, when]

@[simp] theorem onCcc_tt_activeValid (b : Ends) (f : State → State) (s : State)
    (h : ∀ t, (f t).tt.activeValid = t.tt.activeValid) : (onCcc b f s).tt.activeValid = s.tt.activeValid := by
  simp only [onCcc]
  repeat' split
  all_goals simp [h, when]

@[simp] theorem onCcc_tt_startSec (b : Ends) (f : State → State) (s : State)
    (h : ∀ t, (f t).tt.startSec = t.tt.startSec) : (onCcc b f s).tt.startSec = s.tt.startSec := by
  simp only [onCcc]
  repeat' split
  all_goals simp [h, when]

@[simp] theorem onCcc_tt_startFrac (b : Ends) (f : State → State) (s : State)
    (h : ∀ t, (f t).tt.startFrac = t.tt.startFrac) : (onCcc b f s).tt.startFrac = s.tt.startFrac := by
  simp only [onCcc]
  repeat' split
  all_goals simp [h, when]

@[simp] theorem onCcc_tt_swPend (b : Ends) (f : State → State) (s : State)
    (h : ∀ t, (f t).tt.swPend = t.tt.swPend) : (onCcc b f s).tt.swPend = s.tt.swPend := by
  simp only [onCcc]
  repeat' split
  all_goals simp [h, when]

@[simp] theorem onCcc_rtc_sec (b : Ends) (f : State → State) (s : State)
    (h : ∀ t, (f t).rtc.sec = t.rtc.sec) : (onCcc b f s).rtc.sec = s.rtc.sec := by
  simp only [onCcc]
  repeat' split
  all_goals simp [h, when]

@[simp] theorem onCcc_rtc_presc (b : Ends) (f : State → State) (s : State)
    (h : ∀ t, (f t).rtc.presc = t.rtc.presc) : (onCcc b f s).rtc.presc = s.rtc.presc := by
  simp only [onCcc]
  repeat' split
  all_goals simp [h, when]

@[simp] theorem onCcc_rtc_halted (b : Ends) (f : State → State) (s : State)
    (h : ∀ t, (f t).rtc.halted = t.rtc.halted) : (onCcc b f s).rtc.halted = s.rtc.halted := by
  simp only [onCcc]
  repeat' split
  all_goals simp [h, when]

@[simp] theorem onCcc_rtc_trim (b : Ends) (f : State → State) (s : State)
    (h : ∀ t, (f t).rtc.trim = t.rtc.trim) : (onCcc b f s).rtc.trim = s.rtc.trim := by
  simp only [onCcc]
  repeat' split
  all_goals simp [h, when]

@[simp] theorem onCcc_rtc_offset (b : Ends) (f : State → State) (s : State)
    (h : ∀ t, (f t).rtc.offset = t.rtc.offset) : (onCcc b f s).rtc.offset = s.rtc.offset := by
  simp only [onCcc]
  repeat' split
  all_goals simp [h, when]

@[simp] theorem onCcc_rtc_dst (b : Ends) (f : State → State) (s : State)
    (h : ∀ t, (f t).rtc.dst = t.rtc.dst) : (onCcc b f s).rtc.dst = s.rtc.dst := by
  simp only [onCcc]
  repeat' split
  all_goals simp [h, when]

@[simp] theorem onCcc_rtc_started (b : Ends) (f : State → State) (s : State)
    (h : ∀ t, (f t).rtc.started = t.rtc.started) : (onCcc b f s).rtc.started = s.rtc.started := by
  simp only [onCcc]
  repeat' split
  all_goals simp [h, when]

@[simp] theorem onCcc_sys_phase (b : Ends) (f : State → State) (s : State)
    (h : ∀ t, (f t).sys.phase = t.sys.phase) : (onCcc b f s).sys.phase = s.sys.phase := by
  simp only [onCcc]
  repeat' split
  all_goals simp [h, when]

@[simp] theorem onCcc_sys_cfgState (b : Ends) (f : State → State) (s : State)
    (h : ∀ t, (f t).sys.cfgState = t.sys.cfgState) : (onCcc b f s).sys.cfgState = s.sys.cfgState := by
  simp only [onCcc]
  repeat' split
  all_goals simp [h, when]

@[simp] theorem onCcc_sys_x32Run (b : Ends) (f : State → State) (s : State)
    (h : ∀ t, (f t).sys.x32Run = t.sys.x32Run) : (onCcc b f s).sys.x32Run = s.sys.x32Run := by
  simp only [onCcc]
  repeat' split
  all_goals simp [h, when]

@[simp] theorem onCcc_sys_measRst (b : Ends) (f : State → State) (s : State)
    (h : ∀ t, (f t).sys.measRst = t.sys.measRst) : (onCcc b f s).sys.measRst = s.sys.measRst := by
  simp only [onCcc]
  repeat' split
  all_goals simp [h, when]

@[simp] theorem onCcc_sys_lostCmds (b : Ends) (f : State → State) (s : State)
    (h : ∀ t, (f t).sys.lostCmds = t.sys.lostCmds) : (onCcc b f s).sys.lostCmds = s.sys.lostCmds := by
  simp only [onCcc]
  repeat' split
  all_goals simp [h, when]

@[simp] theorem onCcc_sys_pstate (b : Ends) (f : State → State) (s : State)
    (h : ∀ t, (f t).sys.pstate = t.sys.pstate) : (onCcc b f s).sys.pstate = s.sys.pstate := by
  simp only [onCcc]
  repeat' split
  all_goals simp [h, when]

@[simp] theorem onCcc_pwr_trickle (b : Ends) (f : State → State) (s : State)
    (h : ∀ t, (f t).pwr.trickle = t.pwr.trickle) : (onCcc b f s).pwr.trickle = s.pwr.trickle := by
  simp only [onCcc]
  repeat' split
  all_goals simp [h, when]

@[simp] theorem onCcc_pwr_onVbat (b : Ends) (f : State → State) (s : State)
    (h : ∀ t, (f t).pwr.onVbat = t.pwr.onVbat) : (onCcc b f s).pwr.onVbat = s.pwr.onVbat := by
  simp only [onCcc]
  repeat' split
  all_goals simp [h, when]

@[simp] theorem onCcc_pwr_mainOn (b : Ends) (f : State → State) (s : State)
    (h : ∀ t, (f t).pwr.mainOn = t.pwr.mainOn) : (onCcc b f s).pwr.mainOn = s.pwr.mainOn := by
  simp only [onCcc]
  repeat' split
  all_goals simp [h, when]

@[simp] theorem onCcc_pwr_aonOn (b : Ends) (f : State → State) (s : State)
    (h : ∀ t, (f t).pwr.aonOn = t.pwr.aonOn) : (onCcc b f s).pwr.aonOn = s.pwr.aonOn := by
  simp only [onCcc]
  repeat' split
  all_goals simp [h, when]

@[simp] theorem onCcc_pwr_warn (b : Ends) (f : State → State) (s : State)
    (h : ∀ t, (f t).pwr.warn = t.pwr.warn) : (onCcc b f s).pwr.warn = s.pwr.warn := by
  simp only [onCcc]
  repeat' split
  all_goals simp [h, when]

@[simp] theorem onCcc_pwr_ship (b : Ends) (f : State → State) (s : State)
    (h : ∀ t, (f t).pwr.ship = t.pwr.ship) : (onCcc b f s).pwr.ship = s.pwr.ship := by
  simp only [onCcc]
  repeat' split
  all_goals simp [h, when]

@[simp] theorem onCcc_pwr_castleCount (b : Ends) (f : State → State) (s : State)
    (h : ∀ t, (f t).pwr.castleCount = t.pwr.castleCount) : (onCcc b f s).pwr.castleCount = s.pwr.castleCount := by
  simp only [onCcc]
  repeat' split
  all_goals simp [h, when]

@[simp] theorem onCcc_pwr_firstValid (b : Ends) (f : State → State) (s : State)
    (h : ∀ t, (f t).pwr.firstValid = t.pwr.firstValid) : (onCcc b f s).pwr.firstValid = s.pwr.firstValid := by
  simp only [onCcc]
  repeat' split
  all_goals simp [h, when]

@[simp] theorem onCcc_pwr_firstSec (b : Ends) (f : State → State) (s : State)
    (h : ∀ t, (f t).pwr.firstSec = t.pwr.firstSec) : (onCcc b f s).pwr.firstSec = s.pwr.firstSec := by
  simp only [onCcc]
  repeat' split
  all_goals simp [h, when]

@[simp] theorem onCcc_pwr_firstFrac (b : Ends) (f : State → State) (s : State)
    (h : ∀ t, (f t).pwr.firstFrac = t.pwr.firstFrac) : (onCcc b f s).pwr.firstFrac = s.pwr.firstFrac := by
  simp only [onCcc]
  repeat' split
  all_goals simp [h, when]

@[simp] theorem onCcc_pwr_castlings (b : Ends) (f : State → State) (s : State)
    (h : ∀ t, (f t).pwr.castlings = t.pwr.castlings) : (onCcc b f s).pwr.castlings = s.pwr.castlings := by
  simp only [onCcc]
  repeat' split
  all_goals simp [h, when]

@[simp] theorem onCcc_clk_src (b : Ends) (f : State → State) (s : State)
    (h : ∀ t, (f t).clk.src = t.clk.src) : (onCcc b f s).clk.src = s.clk.src := by
  simp only [onCcc]
  repeat' split
  all_goals simp [h, when]

@[simp] theorem onCcc_clk_limits (b : Ends) (f : State → State) (s : State)
    (h : ∀ t, (f t).clk.limits = t.clk.limits) : (onCcc b f s).clk.limits = s.clk.limits := by
  simp only [onCcc]
  repeat' split
  all_goals simp [h, when]

@[simp] theorem onCcc_clk_spread (b : Ends) (f : State → State) (s : State)
    (h : ∀ t, (f t).clk.spread = t.clk.spread) : (onCcc b f s).clk.spread = s.clk.spread := by
  simp only [onCcc]
  repeat' split
  all_goals simp [h, when]

@[simp] theorem onCcc_clk_active (b : Ends) (f : State → State) (s : State)
    (h : ∀ t, (f t).clk.active = t.clk.active) : (onCcc b f s).clk.active = s.clk.active := by
  simp only [onCcc]
  repeat' split
  all_goals simp [h, when]

@[simp] theorem onCcc_clk_plans (b : Ends) (f : State → State) (s : State)
    (h : ∀ t, (f t).clk.plans = t.clk.plans) : (onCcc b f s).clk.plans = s.clk.plans := by
  simp only [onCcc]
  repeat' split
  all_goals simp [h, when]

@[simp] theorem onCcc_clk_bypass (b : Ends) (f : State → State) (s : State)
    (h : ∀ t, (f t).clk.bypass = t.clk.bypass) : (onCcc b f s).clk.bypass = s.clk.bypass := by
  simp only [onCcc]
  repeat' split
  all_goals simp [h, when]

@[simp] theorem onCcc_clk_drift (b : Ends) (f : State → State) (s : State)
    (h : ∀ t, (f t).clk.drift = t.clk.drift) : (onCcc b f s).clk.drift = s.clk.drift := by
  simp only [onCcc]
  repeat' split
  all_goals simp [h, when]

@[simp] theorem onCcc_clk_q (b : Ends) (f : State → State) (s : State)
    (h : ∀ t, (f t).clk.q = t.clk.q) : (onCcc b f s).clk.q = s.clk.q := by
  simp only [onCcc]
  repeat' split
  all_goals simp [h, when]

@[simp] theorem onCcc_cond_arg0 (b : Ends) (f : State → State) (s : State)
    (h : ∀ t, (f t).cond.arg0 = t.cond.arg0) : (onCcc b f s).cond.arg0 = s.cond.arg0 := by
  simp only [onCcc]
  repeat' split
  all_goals simp [h, when]

@[simp] theorem onCcc_cond_arg1 (b : Ends) (f : State → State) (s : State)
    (h : ∀ t, (f t).cond.arg1 = t.cond.arg1) : (onCcc b f s).cond.arg1 = s.cond.arg1 := by
  simp only [onCcc]
  repeat' split
  all_goals simp [h, when]

@[simp] theorem onCcc_cond_arg2 (b : Ends) (f : State → State) (s : State)
    (h : ∀ t, (f t).cond.arg2 = t.cond.arg2) : (onCcc b f s).cond.arg2 = s.cond.arg2 := by
  simp only [onCcc]
  repeat' split
  all_goals simp [h, when]

@[simp] theorem onCcc_cond_queue (b : Ends) (f : State → State) (s : State)
    (h : ∀ t, (f t).cond.queue = t.cond.queue) : (onCcc b f s).cond.queue = s.cond.queue := by
  simp only [onCcc]
  repeat' split
  all_goals simp [h, when]

@[simp] theorem onCcc_cond_running (b : Ends) (f : State → State) (s : State)
    (h : ∀ t, (f t).cond.running = t.cond.running) : (onCcc b f s).cond.running = s.cond.running := by
  simp only [onCcc]
  repeat' split
  all_goals simp [h, when]

@[simp] theorem onCcc_cond_head (b : Ends) (f : State → State) (s : State)
    (h : ∀ t, (f t).cond.head = t.cond.head) : (onCcc b f s).cond.head = s.cond.head := by
  simp only [onCcc]
  repeat' split
  all_goals simp [h, when]

@[simp] theorem onCcc_cond_seq (b : Ends) (f : State → State) (s : State)
    (h : ∀ t, (f t).cond.seq = t.cond.seq) : (onCcc b f s).cond.seq = s.cond.seq := by
  simp only [onCcc]
  repeat' split
  all_goals simp [h, when]

@[simp] theorem onCcc_cond_tail (b : Ends) (f : State → State) (s : State)
    (h : ∀ t, (f t).cond.tail = t.cond.tail) : (onCcc b f s).cond.tail = s.cond.tail := by
  simp only [onCcc]
  repeat' split
  all_goals simp [h, when]

@[simp] theorem onCcc_cond_switches (b : Ends) (f : State → State) (s : State)
    (h : ∀ t, (f t).cond.switches = t.cond.switches) : (onCcc b f s).cond.switches = s.cond.switches := by
  simp only [onCcc]
  repeat' split
  all_goals simp [h, when]

@[simp] theorem onCcc_cond_inReset (b : Ends) (f : State → State) (s : State)
    (h : ∀ t, (f t).cond.inReset = t.cond.inReset) : (onCcc b f s).cond.inReset = s.cond.inReset := by
  simp only [onCcc]
  repeat' split
  all_goals simp [h, when]

@[simp] theorem onCcc_ldg_ctl (b : Ends) (f : State → State) (s : State)
    (h : ∀ t, (f t).ldg.ctl = t.ldg.ctl) : (onCcc b f s).ldg.ctl = s.ldg.ctl := by
  simp only [onCcc]
  repeat' split
  all_goals simp [h, when]

@[simp] theorem onCcc_ldg_run (b : Ends) (f : State → State) (s : State)
    (h : ∀ t, (f t).ldg.run = t.ldg.run) : (onCcc b f s).ldg.run = s.ldg.run := by
  simp only [onCcc]
  repeat' split
  all_goals simp [h, when]

@[simp] theorem onCcc_ldg_cnt (b : Ends) (f : State → State) (s : State)
    (h : ∀ t, (f t).ldg.cnt = t.ldg.cnt) : (onCcc b f s).ldg.cnt = s.ldg.cnt := by
  simp only [onCcc]
  repeat' split
  all_goals simp [h, when]

@[simp] theorem onCcc_ldg_lap (b : Ends) (f : State → State) (s : State)
    (h : ∀ t, (f t).ldg.lap = t.ldg.lap) : (onCcc b f s).ldg.lap = s.ldg.lap := by
  simp only [onCcc]
  repeat' split
  all_goals simp [h, when]

@[simp] theorem onCcc_afe_ctl (b : Ends) (f : State → State) (s : State)
    (h : ∀ t, (f t).afe.ctl = t.afe.ctl) : (onCcc b f s).afe.ctl = s.afe.ctl := by
  simp only [onCcc]
  repeat' split
  all_goals simp [h, when]

@[simp] theorem onCcc_afe_eff (b : Ends) (f : State → State) (s : State)
    (h : ∀ t, (f t).afe.eff = t.afe.eff) : (onCcc b f s).afe.eff = s.afe.eff := by
  simp only [onCcc]
  repeat' split
  all_goals simp [h, when]

@[simp] theorem onCcc_afe_diag (b : Ends) (f : State → State) (s : State)
    (h : ∀ t, (f t).afe.diag = t.afe.diag) : (onCcc b f s).afe.diag = s.afe.diag := by
  simp only [onCcc]
  repeat' split
  all_goals simp [h, when]

@[simp] theorem onCcc_ros_sealed (b : Ends) (f : State → State) (s : State)
    (h : ∀ t, (f t).ros.sealed = t.ros.sealed) : (onCcc b f s).ros.sealed = s.ros.sealed := by
  simp only [onCcc]
  repeat' split
  all_goals simp [h, when]

@[simp] theorem onCcc_out_cfg (b : Ends) (f : State → State) (s : State)
    (h : ∀ t, (f t).out.cfg = t.out.cfg) : (onCcc b f s).out.cfg = s.out.cfg := by
  simp only [onCcc]
  repeat' split
  all_goals simp [h, when]

@[simp] theorem onCcc_out_gen (b : Ends) (f : State → State) (s : State)
    (h : ∀ t, (f t).out.gen = t.out.gen) : (onCcc b f s).out.gen = s.out.gen := by
  simp only [onCcc]
  repeat' split
  all_goals simp [h, when]

@[simp] theorem onCcc_out_span (b : Ends) (f : State → State) (s : State)
    (h : ∀ t, (f t).out.span = t.out.span) : (onCcc b f s).out.span = s.out.span := by
  simp only [onCcc]
  repeat' split
  all_goals simp [h, when]

@[simp] theorem onCcc_out_staged (b : Ends) (f : State → State) (s : State)
    (h : ∀ t, (f t).out.staged = t.out.staged) : (onCcc b f s).out.staged = s.out.staged := by
  simp only [onCcc]
  repeat' split
  all_goals simp [h, when]

@[simp] theorem onCcc_nv_pages (b : Ends) (f : State → State) (s : State)
    (h : ∀ t, (f t).nv.pages = t.nv.pages) : (onCcc b f s).nv.pages = s.nv.pages := by
  simp only [onCcc]
  repeat' split
  all_goals simp [h, when]

@[simp] theorem onCcc_nv_op (b : Ends) (f : State → State) (s : State)
    (h : ∀ t, (f t).nv.op = t.nv.op) : (onCcc b f s).nv.op = s.nv.op := by
  simp only [onCcc]
  repeat' split
  all_goals simp [h, when]

@[simp] theorem onCcc_nv_running (b : Ends) (f : State → State) (s : State)
    (h : ∀ t, (f t).nv.running = t.nv.running) : (onCcc b f s).nv.running = s.nv.running := by
  simp only [onCcc]
  repeat' split
  all_goals simp [h, when]

@[simp] theorem onCcc_nv_suspend (b : Ends) (f : State → State) (s : State)
    (h : ∀ t, (f t).nv.suspend = t.nv.suspend) : (onCcc b f s).nv.suspend = s.nv.suspend := by
  simp only [onCcc]
  repeat' split
  all_goals simp [h, when]

@[simp] theorem onCcc_nv_todo (b : Ends) (f : State → State) (s : State)
    (h : ∀ t, (f t).nv.todo = t.nv.todo) : (onCcc b f s).nv.todo = s.nv.todo := by
  simp only [onCcc]
  repeat' split
  all_goals simp [h, when]

@[simp] theorem onCcc_disc_en (b : Ends) (f : State → State) (s : State)
    (h : ∀ t, (f t).disc.en = t.disc.en) : (onCcc b f s).disc.en = s.disc.en := by
  simp only [onCcc]
  repeat' split
  all_goals simp [h, when]

@[simp] theorem onCcc_cal_map (b : Ends) (f : State → State) (s : State)
    (h : ∀ t, (f t).cal.map = t.cal.map) : (onCcc b f s).cal.map = s.cal.map := by
  simp only [onCcc]
  repeat' split
  all_goals simp [h, when]

@[simp] theorem onCcc_cal_quality (b : Ends) (f : State → State) (s : State)
    (h : ∀ t, (f t).cal.quality = t.cal.quality) : (onCcc b f s).cal.quality = s.cal.quality := by
  simp only [onCcc]
  repeat' split
  all_goals simp [h, when]

@[simp] theorem onCcc_cal_modTrim (b : Ends) (f : State → State) (s : State)
    (h : ∀ t, (f t).cal.modTrim = t.cal.modTrim) : (onCcc b f s).cal.modTrim = s.cal.modTrim := by
  simp only [onCcc]
  repeat' split
  all_goals simp [h, when]

@[simp] theorem onCcc_cal_evtTrim (b : Ends) (f : State → State) (s : State)
    (h : ∀ t, (f t).cal.evtTrim = t.cal.evtTrim) : (onCcc b f s).cal.evtTrim = s.cal.evtTrim := by
  simp only [onCcc]
  repeat' split
  all_goals simp [h, when]

@[simp] theorem onCcc_cal_calibrated (b : Ends) (f : State → State) (s : State)
    (h : ∀ t, (f t).cal.calibrated = t.cal.calibrated) : (onCcc b f s).cal.calibrated = s.cal.calibrated := by
  simp only [onCcc]
  repeat' split
  all_goals simp [h, when]

@[simp] theorem onCcc_evt_mask (b : Ends) (f : State → State) (s : State)
    (h : ∀ t, (f t).evt.mask = t.evt.mask) : (onCcc b f s).evt.mask = s.evt.mask := by
  simp only [onCcc]
  repeat' split
  all_goals simp [h, when]

@[simp] theorem onCcc_evt_copy (b : Ends) (f : State → State) (s : State)
    (h : ∀ t, (f t).evt.copy = t.evt.copy) : (onCcc b f s).evt.copy = s.evt.copy := by
  simp only [onCcc]
  repeat' split
  all_goals simp [h, when]

@[simp] theorem addressed_evin_incfg (c : State → Bool) (f : State → State) (s : State)
    (h : ∀ t, (f t).evin.incfg = t.evin.incfg) : (addressed c f s).evin.incfg = s.evin.incfg := by
  simp only [addressed]
  repeat' split
  all_goals simp [h, when]

@[simp] theorem addressed_evin_level (c : State → Bool) (f : State → State) (s : State)
    (h : ∀ t, (f t).evin.level = t.evin.level) : (addressed c f s).evin.level = s.evin.level := by
  simp only [addressed]
  repeat' split
  all_goals simp [h, when]

@[simp] theorem addressed_evin_syncLevel (c : State → Bool) (f : State → State) (s : State)
    (h : ∀ t, (f t).evin.syncLevel = t.evin.syncLevel) : (addressed c f s).evin.syncLevel = s.evin.syncLevel := by
  simp only [addressed]
  repeat' split
  all_goals simp [h, when]

@[simp] theorem addressed_tt_ctl (c : State → Bool) (f : State → State) (s : State)
    (h : ∀ t, (f t).tt.ctl = t.tt.ctl) : (addressed c f s).tt.ctl = s.tt.ctl := by
  simp only [addressed]
  repeat' split
  all_goals simp [h, when]

@[simp] theorem addressed_tt_instA (c : State → Bool) (f : State → State) (s : State)
    (h : ∀ t, (f t).tt.instA = t.tt.instA) : (addressed c f s).tt.instA = s.tt.instA := by
  simp only [addressed]
  repeat' split
  all_goals simp [h, when]

@[simp] theorem addressed_tt_instB (c : State → Bool) (f : State → State) (s : State)
    (h : ∀ t, (f t).tt.instB = t.tt.instB) : (addressed c f s).tt.instB = s.tt.instB := by
  simp only [addressed]
  repeat' split
  all_goals simp [h, when]

@[simp] theorem addressed_tt_active (c : State → Bool) (f : State → State) (s : State)
    (h : ∀ t, (f t).tt.active = t.tt.active) : (addressed c f s).tt.active = s.tt.active := by
  simp only [addressed]
  repeat' split
  all_goals simp [h, when]

@[simp] theorem addressed_tt_activeValid (c : State → Bool) (f : State → State) (s : State)
    (h : ∀ t, (f t).tt.activeValid = t.tt.activeValid) : (addressed c f s).tt.activeValid = s.tt.activeValid := by
  simp only [addressed]
  repeat' split
  all_goals simp [h, when]

@[simp] theorem addressed_tt_startSec (c : State → Bool) (f : State → State) (s : State)
    (h : ∀ t, (f t).tt.startSec = t.tt.startSec) : (addressed c f s).tt.startSec = s.tt.startSec := by
  simp only [addressed]
  repeat' split
  all_goals simp [h, when]

@[simp] theorem addressed_tt_startFrac (c : State → Bool) (f : State → State) (s : State)
    (h : ∀ t, (f t).tt.startFrac = t.tt.startFrac) : (addressed c f s).tt.startFrac = s.tt.startFrac := by
  simp only [addressed]
  repeat' split
  all_goals simp [h, when]

@[simp] theorem addressed_tt_swPend (c : State → Bool) (f : State → State) (s : State)
    (h : ∀ t, (f t).tt.swPend = t.tt.swPend) : (addressed c f s).tt.swPend = s.tt.swPend := by
  simp only [addressed]
  repeat' split
  all_goals simp [h, when]

@[simp] theorem addressed_tt_protHit (c : State → Bool) (f : State → State) (s : State)
    (h : ∀ t, (f t).tt.protHit = t.tt.protHit) : (addressed c f s).tt.protHit = s.tt.protHit := by
  simp only [addressed]
  repeat' split
  all_goals simp [h, when]

@[simp] theorem addressed_rtc_sec (c : State → Bool) (f : State → State) (s : State)
    (h : ∀ t, (f t).rtc.sec = t.rtc.sec) : (addressed c f s).rtc.sec = s.rtc.sec := by
  simp only [addressed]
  repeat' split
  all_goals simp [h, when]

@[simp] theorem addressed_rtc_presc (c : State → Bool) (f : State → State) (s : State)
    (h : ∀ t, (f t).rtc.presc = t.rtc.presc) : (addressed c f s).rtc.presc = s.rtc.presc := by
  simp only [addressed]
  repeat' split
  all_goals simp [h, when]

@[simp] theorem addressed_rtc_halted (c : State → Bool) (f : State → State) (s : State)
    (h : ∀ t, (f t).rtc.halted = t.rtc.halted) : (addressed c f s).rtc.halted = s.rtc.halted := by
  simp only [addressed]
  repeat' split
  all_goals simp [h, when]

@[simp] theorem addressed_rtc_timePend (c : State → Bool) (f : State → State) (s : State)
    (h : ∀ t, (f t).rtc.timePend = t.rtc.timePend) : (addressed c f s).rtc.timePend = s.rtc.timePend := by
  simp only [addressed]
  repeat' split
  all_goals simp [h, when]

@[simp] theorem addressed_rtc_trim (c : State → Bool) (f : State → State) (s : State)
    (h : ∀ t, (f t).rtc.trim = t.rtc.trim) : (addressed c f s).rtc.trim = s.rtc.trim := by
  simp only [addressed]
  repeat' split
  all_goals simp [h, when]

@[simp] theorem addressed_rtc_offset (c : State → Bool) (f : State → State) (s : State)
    (h : ∀ t, (f t).rtc.offset = t.rtc.offset) : (addressed c f s).rtc.offset = s.rtc.offset := by
  simp only [addressed]
  repeat' split
  all_goals simp [h, when]

@[simp] theorem addressed_rtc_dst (c : State → Bool) (f : State → State) (s : State)
    (h : ∀ t, (f t).rtc.dst = t.rtc.dst) : (addressed c f s).rtc.dst = s.rtc.dst := by
  simp only [addressed]
  repeat' split
  all_goals simp [h, when]

@[simp] theorem addressed_rtc_ctl (c : State → Bool) (f : State → State) (s : State)
    (h : ∀ t, (f t).rtc.ctl = t.rtc.ctl) : (addressed c f s).rtc.ctl = s.rtc.ctl := by
  simp only [addressed]
  repeat' split
  all_goals simp [h, when]

@[simp] theorem addressed_rtc_started (c : State → Bool) (f : State → State) (s : State)
    (h : ∀ t, (f t).rtc.started = t.rtc.started) : (addressed c f s).rtc.started = s.rtc.started := by
  simp only [addressed]
  repeat' split
  all_goals simp [h, when]

@[simp] theorem addressed_sys_phase (c : State → Bool) (f : State → State) (s : State)
    (h : ∀ t, (f t).sys.phase = t.sys.phase) : (addressed c f s).sys.phase = s.sys.phase := by
  simp only [addressed]
  repeat' split
  all_goals simp [h, when]

@[simp] theorem addressed_sys_cause (c : State → Bool) (f : State → State) (s : State)
    (h : ∀ t, (f t).sys.cause = t.sys.cause) : (addressed c f s).sys.cause = s.sys.cause := by
  simp only [addressed]
  repeat' split
  all_goals simp [h, when]

@[simp] theorem addressed_sys_cfgState (c : State → Bool) (f : State → State) (s : State)
    (h : ∀ t, (f t).sys.cfgState = t.sys.cfgState) : (addressed c f s).sys.cfgState = s.sys.cfgState := by
  simp only [addressed]
  repeat' split
  all_goals simp [h, when]

@[simp] theorem addressed_sys_x32Run (c : State → Bool) (f : State → State) (s : State)
    (h : ∀ t, (f t).sys.x32Run = t.sys.x32Run) : (addressed c f s).sys.x32Run = s.sys.x32Run := by
  simp only [addressed]
  repeat' split
  all_goals simp [h, when]

@[simp] theorem addressed_sys_measRst (c : State → Bool) (f : State → State) (s : State)
    (h : ∀ t, (f t).sys.measRst = t.sys.measRst) : (addressed c f s).sys.measRst = s.sys.measRst := by
  simp only [addressed]
  repeat' split
  all_goals simp [h, when]

@[simp] theorem addressed_sys_earlyWr (c : State → Bool) (f : State → State) (s : State)
    (h : ∀ t, (f t).sys.earlyWr = t.sys.earlyWr) : (addressed c f s).sys.earlyWr = s.sys.earlyWr := by
  simp only [addressed]
  repeat' split
  all_goals simp [h, when]

@[simp] theorem addressed_sys_lostCmds (c : State → Bool) (f : State → State) (s : State)
    (h : ∀ t, (f t).sys.lostCmds = t.sys.lostCmds) : (addressed c f s).sys.lostCmds = s.sys.lostCmds := by
  simp only [addressed]
  repeat' split
  all_goals simp [h, when]

@[simp] theorem addressed_sys_pstate (c : State → Bool) (f : State → State) (s : State)
    (h : ∀ t, (f t).sys.pstate = t.sys.pstate) : (addressed c f s).sys.pstate = s.sys.pstate := by
  simp only [addressed]
  repeat' split
  all_goals simp [h, when]

@[simp] theorem addressed_pwr_ctl (c : State → Bool) (f : State → State) (s : State)
    (h : ∀ t, (f t).pwr.ctl = t.pwr.ctl) : (addressed c f s).pwr.ctl = s.pwr.ctl := by
  simp only [addressed]
  repeat' split
  all_goals simp [h, when]

@[simp] theorem addressed_pwr_trickle (c : State → Bool) (f : State → State) (s : State)
    (h : ∀ t, (f t).pwr.trickle = t.pwr.trickle) : (addressed c f s).pwr.trickle = s.pwr.trickle := by
  simp only [addressed]
  repeat' split
  all_goals simp [h, when]

@[simp] theorem addressed_pwr_onVbat (c : State → Bool) (f : State → State) (s : State)
    (h : ∀ t, (f t).pwr.onVbat = t.pwr.onVbat) : (addressed c f s).pwr.onVbat = s.pwr.onVbat := by
  simp only [addressed]
  repeat' split
  all_goals simp [h, when]

@[simp] theorem addressed_pwr_mainOn (c : State → Bool) (f : State → State) (s : State)
    (h : ∀ t, (f t).pwr.mainOn = t.pwr.mainOn) : (addressed c f s).pwr.mainOn = s.pwr.mainOn := by
  simp only [addressed]
  repeat' split
  all_goals simp [h, when]

@[simp] theorem addressed_pwr_aonOn (c : State → Bool) (f : State → State) (s : State)
    (h : ∀ t, (f t).pwr.aonOn = t.pwr.aonOn) : (addressed c f s).pwr.aonOn = s.pwr.aonOn := by
  simp only [addressed]
  repeat' split
  all_goals simp [h, when]

@[simp] theorem addressed_pwr_warn (c : State → Bool) (f : State → State) (s : State)
    (h : ∀ t, (f t).pwr.warn = t.pwr.warn) : (addressed c f s).pwr.warn = s.pwr.warn := by
  simp only [addressed]
  repeat' split
  all_goals simp [h, when]

@[simp] theorem addressed_pwr_ship (c : State → Bool) (f : State → State) (s : State)
    (h : ∀ t, (f t).pwr.ship = t.pwr.ship) : (addressed c f s).pwr.ship = s.pwr.ship := by
  simp only [addressed]
  repeat' split
  all_goals simp [h, when]

@[simp] theorem addressed_pwr_castleCount (c : State → Bool) (f : State → State) (s : State)
    (h : ∀ t, (f t).pwr.castleCount = t.pwr.castleCount) : (addressed c f s).pwr.castleCount = s.pwr.castleCount := by
  simp only [addressed]
  repeat' split
  all_goals simp [h, when]

@[simp] theorem addressed_pwr_firstValid (c : State → Bool) (f : State → State) (s : State)
    (h : ∀ t, (f t).pwr.firstValid = t.pwr.firstValid) : (addressed c f s).pwr.firstValid = s.pwr.firstValid := by
  simp only [addressed]
  repeat' split
  all_goals simp [h, when]

@[simp] theorem addressed_pwr_firstSec (c : State → Bool) (f : State → State) (s : State)
    (h : ∀ t, (f t).pwr.firstSec = t.pwr.firstSec) : (addressed c f s).pwr.firstSec = s.pwr.firstSec := by
  simp only [addressed]
  repeat' split
  all_goals simp [h, when]

@[simp] theorem addressed_pwr_firstFrac (c : State → Bool) (f : State → State) (s : State)
    (h : ∀ t, (f t).pwr.firstFrac = t.pwr.firstFrac) : (addressed c f s).pwr.firstFrac = s.pwr.firstFrac := by
  simp only [addressed]
  repeat' split
  all_goals simp [h, when]

@[simp] theorem addressed_pwr_castlings (c : State → Bool) (f : State → State) (s : State)
    (h : ∀ t, (f t).pwr.castlings = t.pwr.castlings) : (addressed c f s).pwr.castlings = s.pwr.castlings := by
  simp only [addressed]
  repeat' split
  all_goals simp [h, when]

@[simp] theorem addressed_clk_src (c : State → Bool) (f : State → State) (s : State)
    (h : ∀ t, (f t).clk.src = t.clk.src) : (addressed c f s).clk.src = s.clk.src := by
  simp only [addressed]
  repeat' split
  all_goals simp [h, when]

@[simp] theorem addressed_clk_limits (c : State → Bool) (f : State → State) (s : State)
    (h : ∀ t, (f t).clk.limits = t.clk.limits) : (addressed c f s).clk.limits = s.clk.limits := by
  simp only [addressed]
  repeat' split
  all_goals simp [h, when]

@[simp] theorem addressed_clk_spread (c : State → Bool) (f : State → State) (s : State)
    (h : ∀ t, (f t).clk.spread = t.clk.spread) : (addressed c f s).clk.spread = s.clk.spread := by
  simp only [addressed]
  repeat' split
  all_goals simp [h, when]

@[simp] theorem addressed_clk_active (c : State → Bool) (f : State → State) (s : State)
    (h : ∀ t, (f t).clk.active = t.clk.active) : (addressed c f s).clk.active = s.clk.active := by
  simp only [addressed]
  repeat' split
  all_goals simp [h, when]

@[simp] theorem addressed_clk_plans (c : State → Bool) (f : State → State) (s : State)
    (h : ∀ t, (f t).clk.plans = t.clk.plans) : (addressed c f s).clk.plans = s.clk.plans := by
  simp only [addressed]
  repeat' split
  all_goals simp [h, when]

@[simp] theorem addressed_clk_bypass (c : State → Bool) (f : State → State) (s : State)
    (h : ∀ t, (f t).clk.bypass = t.clk.bypass) : (addressed c f s).clk.bypass = s.clk.bypass := by
  simp only [addressed]
  repeat' split
  all_goals simp [h, when]

@[simp] theorem addressed_clk_drift (c : State → Bool) (f : State → State) (s : State)
    (h : ∀ t, (f t).clk.drift = t.clk.drift) : (addressed c f s).clk.drift = s.clk.drift := by
  simp only [addressed]
  repeat' split
  all_goals simp [h, when]

@[simp] theorem addressed_clk_q (c : State → Bool) (f : State → State) (s : State)
    (h : ∀ t, (f t).clk.q = t.clk.q) : (addressed c f s).clk.q = s.clk.q := by
  simp only [addressed]
  repeat' split
  all_goals simp [h, when]

@[simp] theorem addressed_cond_arg0 (c : State → Bool) (f : State → State) (s : State)
    (h : ∀ t, (f t).cond.arg0 = t.cond.arg0) : (addressed c f s).cond.arg0 = s.cond.arg0 := by
  simp only [addressed]
  repeat' split
  all_goals simp [h, when]

@[simp] theorem addressed_cond_arg1 (c : State → Bool) (f : State → State) (s : State)
    (h : ∀ t, (f t).cond.arg1 = t.cond.arg1) : (addressed c f s).cond.arg1 = s.cond.arg1 := by
  simp only [addressed]
  repeat' split
  all_goals simp [h, when]

@[simp] theorem addressed_cond_arg2 (c : State → Bool) (f : State → State) (s : State)
    (h : ∀ t, (f t).cond.arg2 = t.cond.arg2) : (addressed c f s).cond.arg2 = s.cond.arg2 := by
  simp only [addressed]
  repeat' split
  all_goals simp [h, when]

@[simp] theorem addressed_cond_queue (c : State → Bool) (f : State → State) (s : State)
    (h : ∀ t, (f t).cond.queue = t.cond.queue) : (addressed c f s).cond.queue = s.cond.queue := by
  simp only [addressed]
  repeat' split
  all_goals simp [h, when]

@[simp] theorem addressed_cond_running (c : State → Bool) (f : State → State) (s : State)
    (h : ∀ t, (f t).cond.running = t.cond.running) : (addressed c f s).cond.running = s.cond.running := by
  simp only [addressed]
  repeat' split
  all_goals simp [h, when]

@[simp] theorem addressed_cond_head (c : State → Bool) (f : State → State) (s : State)
    (h : ∀ t, (f t).cond.head = t.cond.head) : (addressed c f s).cond.head = s.cond.head := by
  simp only [addressed]
  repeat' split
  all_goals simp [h, when]

@[simp] theorem addressed_cond_seq (c : State → Bool) (f : State → State) (s : State)
    (h : ∀ t, (f t).cond.seq = t.cond.seq) : (addressed c f s).cond.seq = s.cond.seq := by
  simp only [addressed]
  repeat' split
  all_goals simp [h, when]

@[simp] theorem addressed_cond_tail (c : State → Bool) (f : State → State) (s : State)
    (h : ∀ t, (f t).cond.tail = t.cond.tail) : (addressed c f s).cond.tail = s.cond.tail := by
  simp only [addressed]
  repeat' split
  all_goals simp [h, when]

@[simp] theorem addressed_cond_switches (c : State → Bool) (f : State → State) (s : State)
    (h : ∀ t, (f t).cond.switches = t.cond.switches) : (addressed c f s).cond.switches = s.cond.switches := by
  simp only [addressed]
  repeat' split
  all_goals simp [h, when]

@[simp] theorem addressed_cond_inReset (c : State → Bool) (f : State → State) (s : State)
    (h : ∀ t, (f t).cond.inReset = t.cond.inReset) : (addressed c f s).cond.inReset = s.cond.inReset := by
  simp only [addressed]
  repeat' split
  all_goals simp [h, when]

@[simp] theorem addressed_ldg_ctl (c : State → Bool) (f : State → State) (s : State)
    (h : ∀ t, (f t).ldg.ctl = t.ldg.ctl) : (addressed c f s).ldg.ctl = s.ldg.ctl := by
  simp only [addressed]
  repeat' split
  all_goals simp [h, when]

@[simp] theorem addressed_ldg_run (c : State → Bool) (f : State → State) (s : State)
    (h : ∀ t, (f t).ldg.run = t.ldg.run) : (addressed c f s).ldg.run = s.ldg.run := by
  simp only [addressed]
  repeat' split
  all_goals simp [h, when]

@[simp] theorem addressed_ldg_cnt (c : State → Bool) (f : State → State) (s : State)
    (h : ∀ t, (f t).ldg.cnt = t.ldg.cnt) : (addressed c f s).ldg.cnt = s.ldg.cnt := by
  simp only [addressed]
  repeat' split
  all_goals simp [h, when]

@[simp] theorem addressed_ldg_lap (c : State → Bool) (f : State → State) (s : State)
    (h : ∀ t, (f t).ldg.lap = t.ldg.lap) : (addressed c f s).ldg.lap = s.ldg.lap := by
  simp only [addressed]
  repeat' split
  all_goals simp [h, when]

@[simp] theorem addressed_afe_ctl (c : State → Bool) (f : State → State) (s : State)
    (h : ∀ t, (f t).afe.ctl = t.afe.ctl) : (addressed c f s).afe.ctl = s.afe.ctl := by
  simp only [addressed]
  repeat' split
  all_goals simp [h, when]

@[simp] theorem addressed_afe_eff (c : State → Bool) (f : State → State) (s : State)
    (h : ∀ t, (f t).afe.eff = t.afe.eff) : (addressed c f s).afe.eff = s.afe.eff := by
  simp only [addressed]
  repeat' split
  all_goals simp [h, when]

@[simp] theorem addressed_afe_diag (c : State → Bool) (f : State → State) (s : State)
    (h : ∀ t, (f t).afe.diag = t.afe.diag) : (addressed c f s).afe.diag = s.afe.diag := by
  simp only [addressed]
  repeat' split
  all_goals simp [h, when]

@[simp] theorem addressed_ros_sealed (c : State → Bool) (f : State → State) (s : State)
    (h : ∀ t, (f t).ros.sealed = t.ros.sealed) : (addressed c f s).ros.sealed = s.ros.sealed := by
  simp only [addressed]
  repeat' split
  all_goals simp [h, when]

@[simp] theorem addressed_out_code (c : State → Bool) (f : State → State) (s : State)
    (h : ∀ t, (f t).out.code = t.out.code) : (addressed c f s).out.code = s.out.code := by
  simp only [addressed]
  repeat' split
  all_goals simp [h, when]

@[simp] theorem addressed_out_cfg (c : State → Bool) (f : State → State) (s : State)
    (h : ∀ t, (f t).out.cfg = t.out.cfg) : (addressed c f s).out.cfg = s.out.cfg := by
  simp only [addressed]
  repeat' split
  all_goals simp [h, when]

@[simp] theorem addressed_out_gen (c : State → Bool) (f : State → State) (s : State)
    (h : ∀ t, (f t).out.gen = t.out.gen) : (addressed c f s).out.gen = s.out.gen := by
  simp only [addressed]
  repeat' split
  all_goals simp [h, when]

@[simp] theorem addressed_out_span (c : State → Bool) (f : State → State) (s : State)
    (h : ∀ t, (f t).out.span = t.out.span) : (addressed c f s).out.span = s.out.span := by
  simp only [addressed]
  repeat' split
  all_goals simp [h, when]

@[simp] theorem addressed_out_staged (c : State → Bool) (f : State → State) (s : State)
    (h : ∀ t, (f t).out.staged = t.out.staged) : (addressed c f s).out.staged = s.out.staged := by
  simp only [addressed]
  repeat' split
  all_goals simp [h, when]

@[simp] theorem addressed_hif_i3c (c : State → Bool) (f : State → State) (s : State)
    (h : ∀ t, (f t).hif.i3c = t.hif.i3c) : (addressed c f s).hif.i3c = s.hif.i3c := by
  simp only [addressed]
  repeat' split
  all_goals simp [h, when]

@[simp] theorem addressed_hif_dynAddr (c : State → Bool) (f : State → State) (s : State)
    (h : ∀ t, (f t).hif.dynAddr = t.hif.dynAddr) : (addressed c f s).hif.dynAddr = s.hif.dynAddr := by
  simp only [addressed]
  repeat' split
  all_goals simp [h, when]

@[simp] theorem addressed_hif_crcEn (c : State → Bool) (f : State → State) (s : State)
    (h : ∀ t, (f t).hif.crcEn = t.hif.crcEn) : (addressed c f s).hif.crcEn = s.hif.crcEn := by
  simp only [addressed]
  repeat' split
  all_goals simp [h, when]

@[simp] theorem addressed_hif_txn (c : State → Bool) (f : State → State) (s : State)
    (h : ∀ t, (f t).hif.txn = t.hif.txn) : (addressed c f s).hif.txn = s.hif.txn := by
  simp only [addressed]
  repeat' split
  all_goals simp [h, when]

@[simp] theorem addressed_nv_pages (c : State → Bool) (f : State → State) (s : State)
    (h : ∀ t, (f t).nv.pages = t.nv.pages) : (addressed c f s).nv.pages = s.nv.pages := by
  simp only [addressed]
  repeat' split
  all_goals simp [h, when]

@[simp] theorem addressed_nv_op (c : State → Bool) (f : State → State) (s : State)
    (h : ∀ t, (f t).nv.op = t.nv.op) : (addressed c f s).nv.op = s.nv.op := by
  simp only [addressed]
  repeat' split
  all_goals simp [h, when]

@[simp] theorem addressed_nv_running (c : State → Bool) (f : State → State) (s : State)
    (h : ∀ t, (f t).nv.running = t.nv.running) : (addressed c f s).nv.running = s.nv.running := by
  simp only [addressed]
  repeat' split
  all_goals simp [h, when]

@[simp] theorem addressed_nv_suspend (c : State → Bool) (f : State → State) (s : State)
    (h : ∀ t, (f t).nv.suspend = t.nv.suspend) : (addressed c f s).nv.suspend = s.nv.suspend := by
  simp only [addressed]
  repeat' split
  all_goals simp [h, when]

@[simp] theorem addressed_nv_todo (c : State → Bool) (f : State → State) (s : State)
    (h : ∀ t, (f t).nv.todo = t.nv.todo) : (addressed c f s).nv.todo = s.nv.todo := by
  simp only [addressed]
  repeat' split
  all_goals simp [h, when]

@[simp] theorem addressed_disc_en (c : State → Bool) (f : State → State) (s : State)
    (h : ∀ t, (f t).disc.en = t.disc.en) : (addressed c f s).disc.en = s.disc.en := by
  simp only [addressed]
  repeat' split
  all_goals simp [h, when]

@[simp] theorem addressed_cal_map (c : State → Bool) (f : State → State) (s : State)
    (h : ∀ t, (f t).cal.map = t.cal.map) : (addressed c f s).cal.map = s.cal.map := by
  simp only [addressed]
  repeat' split
  all_goals simp [h, when]

@[simp] theorem addressed_cal_quality (c : State → Bool) (f : State → State) (s : State)
    (h : ∀ t, (f t).cal.quality = t.cal.quality) : (addressed c f s).cal.quality = s.cal.quality := by
  simp only [addressed]
  repeat' split
  all_goals simp [h, when]

@[simp] theorem addressed_cal_modTrim (c : State → Bool) (f : State → State) (s : State)
    (h : ∀ t, (f t).cal.modTrim = t.cal.modTrim) : (addressed c f s).cal.modTrim = s.cal.modTrim := by
  simp only [addressed]
  repeat' split
  all_goals simp [h, when]

@[simp] theorem addressed_cal_evtTrim (c : State → Bool) (f : State → State) (s : State)
    (h : ∀ t, (f t).cal.evtTrim = t.cal.evtTrim) : (addressed c f s).cal.evtTrim = s.cal.evtTrim := by
  simp only [addressed]
  repeat' split
  all_goals simp [h, when]

@[simp] theorem addressed_cal_calibrated (c : State → Bool) (f : State → State) (s : State)
    (h : ∀ t, (f t).cal.calibrated = t.cal.calibrated) : (addressed c f s).cal.calibrated = s.cal.calibrated := by
  simp only [addressed]
  repeat' split
  all_goals simp [h, when]

@[simp] theorem addressed_evt_mask (c : State → Bool) (f : State → State) (s : State)
    (h : ∀ t, (f t).evt.mask = t.evt.mask) : (addressed c f s).evt.mask = s.evt.mask := by
  simp only [addressed]
  repeat' split
  all_goals simp [h, when]

@[simp] theorem addressed_evt_copy (c : State → Bool) (f : State → State) (s : State)
    (h : ∀ t, (f t).evt.copy = t.evt.copy) : (addressed c f s).evt.copy = s.evt.copy := by
  simp only [addressed]
  repeat' split
  all_goals simp [h, when]

@[simp] theorem busWrite_inner (errs : List Nat) (bytes : List Byte) (s : State) :
    (busWrite errs bytes s).rtc.sec = s.rtc.sec ∧ (busWrite errs bytes s).rtc.presc = s.rtc.presc ∧
    (busWrite errs bytes s).rtc.halted = s.rtc.halted ∧ (busWrite errs bytes s).rtc.started = s.rtc.started ∧
    (busWrite errs bytes s).sys.x32Run = s.sys.x32Run ∧ (busWrite errs bytes s).pwr.onVbat = s.pwr.onVbat ∧
    (busWrite errs bytes s).pwr.mainOn = s.pwr.mainOn ∧ (busWrite errs bytes s).pwr.aonOn = s.pwr.aonOn ∧
    (busWrite errs bytes s).pwr.ship = s.pwr.ship ∧ (busWrite errs bytes s).pwr.castleCount = s.pwr.castleCount ∧
    (busWrite errs bytes s).pwr.firstValid = s.pwr.firstValid ∧
    (busWrite errs bytes s).pwr.firstSec = s.pwr.firstSec ∧ (busWrite errs bytes s).pwr.firstFrac = s.pwr.firstFrac ∧
    (busWrite errs bytes s).pwr.castlings = s.pwr.castlings := by
  have k0 := @setPtr_frame
  have k1 := @setPtr_inner
  simp only [busWrite, when]
  repeat' split
  all_goals simp [k0, k1]

theorem busRead_inner (len : Nat) (s : State) :
    (busRead len s).hif.i3c = s.hif.i3c ∧ (busRead len s).hif.dynAddr = s.hif.dynAddr ∧
    (busRead len s).hif.crcEn = s.hif.crcEn := by
  have k0 := @readBytes_frame
  have k1 := @readBytes_inner
  have k2 := @setPtr_frame
  have k3 := @setPtr_inner
  simp only [busRead, when]
  repeat' split
  all_goals simp [k0, k1, k2, k3]

@[simp] theorem i2cWrite_inner (dev : BitVec 7) (bytes : List Byte) (x : Xfer) (s : State) :
    (i2cWrite dev bytes x s).rtc.sec = s.rtc.sec ∧ (i2cWrite dev bytes x s).rtc.presc = s.rtc.presc ∧
    (i2cWrite dev bytes x s).rtc.halted = s.rtc.halted ∧ (i2cWrite dev bytes x s).rtc.started = s.rtc.started ∧
    (i2cWrite dev bytes x s).sys.x32Run = s.sys.x32Run ∧ (i2cWrite dev bytes x s).pwr.onVbat = s.pwr.onVbat ∧
    (i2cWrite dev bytes x s).pwr.mainOn = s.pwr.mainOn ∧ (i2cWrite dev bytes x s).pwr.aonOn = s.pwr.aonOn ∧
    (i2cWrite dev bytes x s).pwr.ship = s.pwr.ship ∧ (i2cWrite dev bytes x s).pwr.castleCount = s.pwr.castleCount ∧
    (i2cWrite dev bytes x s).pwr.firstValid = s.pwr.firstValid ∧
    (i2cWrite dev bytes x s).pwr.firstSec = s.pwr.firstSec ∧
    (i2cWrite dev bytes x s).pwr.firstFrac = s.pwr.firstFrac ∧
    (i2cWrite dev bytes x s).pwr.castlings = s.pwr.castlings := by
  simp only [i2cWrite, when]
  repeat' split
  all_goals simp

theorem readXfer_inner (len : Nat) (cut : Bool) (s : State) :
    (readXfer len cut s).hif.i3c = s.hif.i3c ∧ (readXfer len cut s).hif.dynAddr = s.hif.dynAddr ∧
    (readXfer len cut s).hif.crcEn = s.hif.crcEn := by
  have k0 := @busRead_frame
  have k1 := @busRead_inner
  simp only [readXfer, when]
  repeat' split
  all_goals simp [k0, k1]

@[simp] theorem i2cRead_inner (dev : BitVec 7) (len : Nat) (x : Xfer) (s : State) :
    (i2cRead dev len x s).evin.incfg = s.evin.incfg ∧ (i2cRead dev len x s).evin.level = s.evin.level ∧
    (i2cRead dev len x s).evin.syncLevel = s.evin.syncLevel ∧ (i2cRead dev len x s).tt.ctl = s.tt.ctl ∧
    (i2cRead dev len x s).tt.instA = s.tt.instA ∧ (i2cRead dev len x s).tt.instB = s.tt.instB ∧
    (i2cRead dev len x s).tt.active = s.tt.active ∧ (i2cRead dev len x s).tt.activeValid = s.tt.activeValid ∧
    (i2cRead dev len x s).tt.startSec = s.tt.startSec ∧ (i2cRead dev len x s).tt.startFrac = s.tt.startFrac ∧
    (i2cRead dev len x s).tt.swPend = s.tt.swPend ∧ (i2cRead dev len x s).rtc.sec = s.rtc.sec ∧
    (i2cRead dev len x s).rtc.presc = s.rtc.presc ∧ (i2cRead dev len x s).rtc.halted = s.rtc.halted ∧
    (i2cRead dev len x s).rtc.trim = s.rtc.trim ∧ (i2cRead dev len x s).rtc.offset = s.rtc.offset ∧
    (i2cRead dev len x s).rtc.dst = s.rtc.dst ∧ (i2cRead dev len x s).rtc.started = s.rtc.started ∧
    (i2cRead dev len x s).sys.phase = s.sys.phase ∧ (i2cRead dev len x s).sys.cfgState = s.sys.cfgState ∧
    (i2cRead dev len x s).sys.x32Run = s.sys.x32Run ∧ (i2cRead dev len x s).sys.measRst = s.sys.measRst ∧
    (i2cRead dev len x s).sys.lostCmds = s.sys.lostCmds ∧ (i2cRead dev len x s).sys.pstate = s.sys.pstate ∧
    (i2cRead dev len x s).pwr.trickle = s.pwr.trickle ∧ (i2cRead dev len x s).pwr.onVbat = s.pwr.onVbat ∧
    (i2cRead dev len x s).pwr.mainOn = s.pwr.mainOn ∧ (i2cRead dev len x s).pwr.aonOn = s.pwr.aonOn ∧
    (i2cRead dev len x s).pwr.warn = s.pwr.warn ∧ (i2cRead dev len x s).pwr.ship = s.pwr.ship ∧
    (i2cRead dev len x s).pwr.castleCount = s.pwr.castleCount ∧
    (i2cRead dev len x s).pwr.firstValid = s.pwr.firstValid ∧ (i2cRead dev len x s).pwr.firstSec = s.pwr.firstSec ∧
    (i2cRead dev len x s).pwr.firstFrac = s.pwr.firstFrac ∧ (i2cRead dev len x s).pwr.castlings = s.pwr.castlings ∧
    (i2cRead dev len x s).clk.src = s.clk.src ∧ (i2cRead dev len x s).clk.limits = s.clk.limits ∧
    (i2cRead dev len x s).clk.spread = s.clk.spread ∧ (i2cRead dev len x s).clk.active = s.clk.active ∧
    (i2cRead dev len x s).clk.plans = s.clk.plans ∧ (i2cRead dev len x s).clk.bypass = s.clk.bypass ∧
    (i2cRead dev len x s).clk.drift = s.clk.drift ∧ (i2cRead dev len x s).clk.q = s.clk.q ∧
    (i2cRead dev len x s).cond.arg0 = s.cond.arg0 ∧ (i2cRead dev len x s).cond.arg1 = s.cond.arg1 ∧
    (i2cRead dev len x s).cond.arg2 = s.cond.arg2 ∧ (i2cRead dev len x s).cond.queue = s.cond.queue ∧
    (i2cRead dev len x s).cond.running = s.cond.running ∧ (i2cRead dev len x s).cond.head = s.cond.head ∧
    (i2cRead dev len x s).cond.seq = s.cond.seq ∧ (i2cRead dev len x s).cond.tail = s.cond.tail ∧
    (i2cRead dev len x s).cond.switches = s.cond.switches ∧ (i2cRead dev len x s).cond.inReset = s.cond.inReset ∧
    (i2cRead dev len x s).ldg.ctl = s.ldg.ctl ∧ (i2cRead dev len x s).ldg.run = s.ldg.run ∧
    (i2cRead dev len x s).ldg.cnt = s.ldg.cnt ∧ (i2cRead dev len x s).ldg.lap = s.ldg.lap ∧
    (i2cRead dev len x s).afe.ctl = s.afe.ctl ∧ (i2cRead dev len x s).afe.eff = s.afe.eff ∧
    (i2cRead dev len x s).afe.diag = s.afe.diag ∧ (i2cRead dev len x s).out.cfg = s.out.cfg ∧
    (i2cRead dev len x s).out.gen = s.out.gen ∧ (i2cRead dev len x s).out.span = s.out.span ∧
    (i2cRead dev len x s).out.staged = s.out.staged ∧ (i2cRead dev len x s).evt.mask = s.evt.mask ∧
    (i2cRead dev len x s).evt.copy = s.evt.copy := by
  have k0 := @readXfer_frame
  have k1 := @readXfer_inner
  simp only [i2cRead, when]
  repeat' split
  all_goals simp [k0, k1]

@[simp] theorem parityMark_inner (ok : Bool) (s : State) :
    (parityMark ok s).hif.i3c = s.hif.i3c ∧ (parityMark ok s).hif.dynAddr = s.hif.dynAddr ∧
    (parityMark ok s).hif.crcEn = s.hif.crcEn ∧ (parityMark ok s).hif.txn = s.hif.txn ∧
    (parityMark ok s).hif.reply = s.hif.reply := by
  simp only [parityMark, when]
  repeat' split
  all_goals simp

@[simp] theorem i3cWrite_inner (dev : BitVec 7) (bytes : List Byte) (parityOk : Bool) (x : Xfer) (s : State) :
    (i3cWrite dev bytes parityOk x s).rtc.sec = s.rtc.sec ∧
    (i3cWrite dev bytes parityOk x s).rtc.presc = s.rtc.presc ∧
    (i3cWrite dev bytes parityOk x s).rtc.halted = s.rtc.halted ∧
    (i3cWrite dev bytes parityOk x s).rtc.started = s.rtc.started ∧
    (i3cWrite dev bytes parityOk x s).sys.x32Run = s.sys.x32Run ∧
    (i3cWrite dev bytes parityOk x s).pwr.onVbat = s.pwr.onVbat ∧
    (i3cWrite dev bytes parityOk x s).pwr.mainOn = s.pwr.mainOn ∧
    (i3cWrite dev bytes parityOk x s).pwr.aonOn = s.pwr.aonOn ∧
    (i3cWrite dev bytes parityOk x s).pwr.ship = s.pwr.ship ∧
    (i3cWrite dev bytes parityOk x s).pwr.castleCount = s.pwr.castleCount ∧
    (i3cWrite dev bytes parityOk x s).pwr.firstValid = s.pwr.firstValid ∧
    (i3cWrite dev bytes parityOk x s).pwr.firstSec = s.pwr.firstSec ∧
    (i3cWrite dev bytes parityOk x s).pwr.firstFrac = s.pwr.firstFrac ∧
    (i3cWrite dev bytes parityOk x s).pwr.castlings = s.pwr.castlings := by
  simp only [i3cWrite, when]
  repeat' split
  all_goals simp

@[simp] theorem i3cRead_inner (dev : BitVec 7) (len : Nat) (x : Xfer) (s : State) :
    (i3cRead dev len x s).evin.incfg = s.evin.incfg ∧ (i3cRead dev len x s).evin.level = s.evin.level ∧
    (i3cRead dev len x s).evin.syncLevel = s.evin.syncLevel ∧ (i3cRead dev len x s).tt.ctl = s.tt.ctl ∧
    (i3cRead dev len x s).tt.instA = s.tt.instA ∧ (i3cRead dev len x s).tt.instB = s.tt.instB ∧
    (i3cRead dev len x s).tt.active = s.tt.active ∧ (i3cRead dev len x s).tt.activeValid = s.tt.activeValid ∧
    (i3cRead dev len x s).tt.startSec = s.tt.startSec ∧ (i3cRead dev len x s).tt.startFrac = s.tt.startFrac ∧
    (i3cRead dev len x s).tt.swPend = s.tt.swPend ∧ (i3cRead dev len x s).rtc.sec = s.rtc.sec ∧
    (i3cRead dev len x s).rtc.presc = s.rtc.presc ∧ (i3cRead dev len x s).rtc.halted = s.rtc.halted ∧
    (i3cRead dev len x s).rtc.trim = s.rtc.trim ∧ (i3cRead dev len x s).rtc.offset = s.rtc.offset ∧
    (i3cRead dev len x s).rtc.dst = s.rtc.dst ∧ (i3cRead dev len x s).rtc.started = s.rtc.started ∧
    (i3cRead dev len x s).sys.phase = s.sys.phase ∧ (i3cRead dev len x s).sys.cfgState = s.sys.cfgState ∧
    (i3cRead dev len x s).sys.x32Run = s.sys.x32Run ∧ (i3cRead dev len x s).sys.measRst = s.sys.measRst ∧
    (i3cRead dev len x s).sys.lostCmds = s.sys.lostCmds ∧ (i3cRead dev len x s).sys.pstate = s.sys.pstate ∧
    (i3cRead dev len x s).pwr.trickle = s.pwr.trickle ∧ (i3cRead dev len x s).pwr.onVbat = s.pwr.onVbat ∧
    (i3cRead dev len x s).pwr.mainOn = s.pwr.mainOn ∧ (i3cRead dev len x s).pwr.aonOn = s.pwr.aonOn ∧
    (i3cRead dev len x s).pwr.warn = s.pwr.warn ∧ (i3cRead dev len x s).pwr.ship = s.pwr.ship ∧
    (i3cRead dev len x s).pwr.castleCount = s.pwr.castleCount ∧
    (i3cRead dev len x s).pwr.firstValid = s.pwr.firstValid ∧ (i3cRead dev len x s).pwr.firstSec = s.pwr.firstSec ∧
    (i3cRead dev len x s).pwr.firstFrac = s.pwr.firstFrac ∧ (i3cRead dev len x s).pwr.castlings = s.pwr.castlings ∧
    (i3cRead dev len x s).clk.src = s.clk.src ∧ (i3cRead dev len x s).clk.limits = s.clk.limits ∧
    (i3cRead dev len x s).clk.spread = s.clk.spread ∧ (i3cRead dev len x s).clk.active = s.clk.active ∧
    (i3cRead dev len x s).clk.plans = s.clk.plans ∧ (i3cRead dev len x s).clk.bypass = s.clk.bypass ∧
    (i3cRead dev len x s).clk.drift = s.clk.drift ∧ (i3cRead dev len x s).clk.q = s.clk.q ∧
    (i3cRead dev len x s).cond.arg0 = s.cond.arg0 ∧ (i3cRead dev len x s).cond.arg1 = s.cond.arg1 ∧
    (i3cRead dev len x s).cond.arg2 = s.cond.arg2 ∧ (i3cRead dev len x s).cond.queue = s.cond.queue ∧
    (i3cRead dev len x s).cond.running = s.cond.running ∧ (i3cRead dev len x s).cond.head = s.cond.head ∧
    (i3cRead dev len x s).cond.seq = s.cond.seq ∧ (i3cRead dev len x s).cond.tail = s.cond.tail ∧
    (i3cRead dev len x s).cond.switches = s.cond.switches ∧ (i3cRead dev len x s).cond.inReset = s.cond.inReset ∧
    (i3cRead dev len x s).ldg.ctl = s.ldg.ctl ∧ (i3cRead dev len x s).ldg.run = s.ldg.run ∧
    (i3cRead dev len x s).ldg.cnt = s.ldg.cnt ∧ (i3cRead dev len x s).ldg.lap = s.ldg.lap ∧
    (i3cRead dev len x s).afe.ctl = s.afe.ctl ∧ (i3cRead dev len x s).afe.eff = s.afe.eff ∧
    (i3cRead dev len x s).afe.diag = s.afe.diag ∧ (i3cRead dev len x s).out.cfg = s.out.cfg ∧
    (i3cRead dev len x s).out.gen = s.out.gen ∧ (i3cRead dev len x s).out.span = s.out.span ∧
    (i3cRead dev len x s).out.staged = s.out.staged ∧ (i3cRead dev len x s).evt.mask = s.evt.mask ∧
    (i3cRead dev len x s).evt.copy = s.evt.copy := by
  have k0 := @readXfer_frame
  have k1 := @readXfer_inner
  simp only [i3cRead, when]
  repeat' split
  all_goals simp [k0, k1]

@[simp] theorem broadcastAddress_inner (s : State) :
    (broadcastAddress s).hif.i3c = s.hif.i3c ∧ (broadcastAddress s).hif.dynAddr = s.hif.dynAddr ∧
    (broadcastAddress s).hif.crcEn = s.hif.crcEn ∧ (broadcastAddress s).hif.txn = s.hif.txn := by
  simp only [broadcastAddress, when]
  repeat' split
  all_goals simp

@[simp] theorem broadcastHeader_inner (b : Ends) (s : State) :
    (broadcastHeader b s).evin.incfg = s.evin.incfg ∧ (broadcastHeader b s).evin.level = s.evin.level ∧
    (broadcastHeader b s).evin.syncLevel = s.evin.syncLevel ∧ (broadcastHeader b s).tt.ctl = s.tt.ctl ∧
    (broadcastHeader b s).tt.instA = s.tt.instA ∧ (broadcastHeader b s).tt.instB = s.tt.instB ∧
    (broadcastHeader b s).tt.active = s.tt.active ∧ (broadcastHeader b s).tt.activeValid = s.tt.activeValid ∧
    (broadcastHeader b s).tt.startSec = s.tt.startSec ∧ (broadcastHeader b s).tt.startFrac = s.tt.startFrac ∧
    (broadcastHeader b s).tt.swPend = s.tt.swPend ∧ (broadcastHeader b s).rtc.sec = s.rtc.sec ∧
    (broadcastHeader b s).rtc.presc = s.rtc.presc ∧ (broadcastHeader b s).rtc.halted = s.rtc.halted ∧
    (broadcastHeader b s).rtc.trim = s.rtc.trim ∧ (broadcastHeader b s).rtc.offset = s.rtc.offset ∧
    (broadcastHeader b s).rtc.dst = s.rtc.dst ∧ (broadcastHeader b s).rtc.started = s.rtc.started ∧
    (broadcastHeader b s).sys.phase = s.sys.phase ∧ (broadcastHeader b s).sys.cfgState = s.sys.cfgState ∧
    (broadcastHeader b s).sys.x32Run = s.sys.x32Run ∧ (broadcastHeader b s).sys.measRst = s.sys.measRst ∧
    (broadcastHeader b s).sys.lostCmds = s.sys.lostCmds ∧ (broadcastHeader b s).sys.pstate = s.sys.pstate ∧
    (broadcastHeader b s).pwr.trickle = s.pwr.trickle ∧ (broadcastHeader b s).pwr.onVbat = s.pwr.onVbat ∧
    (broadcastHeader b s).pwr.mainOn = s.pwr.mainOn ∧ (broadcastHeader b s).pwr.aonOn = s.pwr.aonOn ∧
    (broadcastHeader b s).pwr.warn = s.pwr.warn ∧ (broadcastHeader b s).pwr.ship = s.pwr.ship ∧
    (broadcastHeader b s).pwr.castleCount = s.pwr.castleCount ∧
    (broadcastHeader b s).pwr.firstValid = s.pwr.firstValid ∧ (broadcastHeader b s).pwr.firstSec = s.pwr.firstSec ∧
    (broadcastHeader b s).pwr.firstFrac = s.pwr.firstFrac ∧ (broadcastHeader b s).pwr.castlings = s.pwr.castlings ∧
    (broadcastHeader b s).clk.src = s.clk.src ∧ (broadcastHeader b s).clk.limits = s.clk.limits ∧
    (broadcastHeader b s).clk.spread = s.clk.spread ∧ (broadcastHeader b s).clk.active = s.clk.active ∧
    (broadcastHeader b s).clk.plans = s.clk.plans ∧ (broadcastHeader b s).clk.bypass = s.clk.bypass ∧
    (broadcastHeader b s).clk.drift = s.clk.drift ∧ (broadcastHeader b s).clk.q = s.clk.q ∧
    (broadcastHeader b s).cond.arg0 = s.cond.arg0 ∧ (broadcastHeader b s).cond.arg1 = s.cond.arg1 ∧
    (broadcastHeader b s).cond.arg2 = s.cond.arg2 ∧ (broadcastHeader b s).cond.queue = s.cond.queue ∧
    (broadcastHeader b s).cond.running = s.cond.running ∧ (broadcastHeader b s).cond.head = s.cond.head ∧
    (broadcastHeader b s).cond.seq = s.cond.seq ∧ (broadcastHeader b s).cond.tail = s.cond.tail ∧
    (broadcastHeader b s).cond.switches = s.cond.switches ∧ (broadcastHeader b s).cond.inReset = s.cond.inReset ∧
    (broadcastHeader b s).ldg.ctl = s.ldg.ctl ∧ (broadcastHeader b s).ldg.run = s.ldg.run ∧
    (broadcastHeader b s).ldg.cnt = s.ldg.cnt ∧ (broadcastHeader b s).ldg.lap = s.ldg.lap ∧
    (broadcastHeader b s).afe.ctl = s.afe.ctl ∧ (broadcastHeader b s).afe.eff = s.afe.eff ∧
    (broadcastHeader b s).afe.diag = s.afe.diag ∧ (broadcastHeader b s).out.cfg = s.out.cfg ∧
    (broadcastHeader b s).out.gen = s.out.gen ∧ (broadcastHeader b s).out.span = s.out.span ∧
    (broadcastHeader b s).out.staged = s.out.staged ∧ (broadcastHeader b s).evt.mask = s.evt.mask ∧
    (broadcastHeader b s).evt.copy = s.evt.copy := by
  simp only [broadcastHeader, when]
  repeat' split
  all_goals simp

@[simp] theorem broadcastCcc_evin_incfg (b : Ends) (f : State → State) (s : State)
    (h : ∀ t, (f t).evin.incfg = t.evin.incfg) : (broadcastCcc b f s).evin.incfg = s.evin.incfg := by
  simp only [broadcastCcc]
  repeat' split
  all_goals simp [h, when]

@[simp] theorem broadcastCcc_evin_level (b : Ends) (f : State → State) (s : State)
    (h : ∀ t, (f t).evin.level = t.evin.level) : (broadcastCcc b f s).evin.level = s.evin.level := by
  simp only [broadcastCcc]
  repeat' split
  all_goals simp [h, when]

@[simp] theorem broadcastCcc_evin_syncLevel (b : Ends) (f : State → State) (s : State)
    (h : ∀ t, (f t).evin.syncLevel = t.evin.syncLevel) : (broadcastCcc b f s).evin.syncLevel = s.evin.syncLevel := by
  simp only [broadcastCcc]
  repeat' split
  all_goals simp [h, when]

@[simp] theorem broadcastCcc_tt_ctl (b : Ends) (f : State → State) (s : State)
    (h : ∀ t, (f t).tt.ctl = t.tt.ctl) : (broadcastCcc b f s).tt.ctl = s.tt.ctl := by
  simp only [broadcastCcc]
  repeat' split
  all_goals simp [h, when]

@[simp] theorem broadcastCcc_tt_instA (b : Ends) (f : State → State) (s : State)
    (h : ∀ t, (f t).tt.instA = t.tt.instA) : (broadcastCcc b f s).tt.instA = s.tt.instA := by
  simp only [broadcastCcc]
  repeat' split
  all_goals simp [h, when]

@[simp] theorem broadcastCcc_tt_instB (b : Ends) (f : State → State) (s : State)
    (h : ∀ t, (f t).tt.instB = t.tt.instB) : (broadcastCcc b f s).tt.instB = s.tt.instB := by
  simp only [broadcastCcc]
  repeat' split
  all_goals simp [h, when]

@[simp] theorem broadcastCcc_tt_active (b : Ends) (f : State → State) (s : State)
    (h : ∀ t, (f t).tt.active = t.tt.active) : (broadcastCcc b f s).tt.active = s.tt.active := by
  simp only [broadcastCcc]
  repeat' split
  all_goals simp [h, when]

@[simp] theorem broadcastCcc_tt_activeValid (b : Ends) (f : State → State) (s : State)
    (h : ∀ t, (f t).tt.activeValid = t.tt.activeValid) : (broadcastCcc b f s).tt.activeValid = s.tt.activeValid := by
  simp only [broadcastCcc]
  repeat' split
  all_goals simp [h, when]

@[simp] theorem broadcastCcc_tt_startSec (b : Ends) (f : State → State) (s : State)
    (h : ∀ t, (f t).tt.startSec = t.tt.startSec) : (broadcastCcc b f s).tt.startSec = s.tt.startSec := by
  simp only [broadcastCcc]
  repeat' split
  all_goals simp [h, when]

@[simp] theorem broadcastCcc_tt_startFrac (b : Ends) (f : State → State) (s : State)
    (h : ∀ t, (f t).tt.startFrac = t.tt.startFrac) : (broadcastCcc b f s).tt.startFrac = s.tt.startFrac := by
  simp only [broadcastCcc]
  repeat' split
  all_goals simp [h, when]

@[simp] theorem broadcastCcc_tt_swPend (b : Ends) (f : State → State) (s : State)
    (h : ∀ t, (f t).tt.swPend = t.tt.swPend) : (broadcastCcc b f s).tt.swPend = s.tt.swPend := by
  simp only [broadcastCcc]
  repeat' split
  all_goals simp [h, when]

@[simp] theorem broadcastCcc_rtc_sec (b : Ends) (f : State → State) (s : State)
    (h : ∀ t, (f t).rtc.sec = t.rtc.sec) : (broadcastCcc b f s).rtc.sec = s.rtc.sec := by
  simp only [broadcastCcc]
  repeat' split
  all_goals simp [h, when]

@[simp] theorem broadcastCcc_rtc_presc (b : Ends) (f : State → State) (s : State)
    (h : ∀ t, (f t).rtc.presc = t.rtc.presc) : (broadcastCcc b f s).rtc.presc = s.rtc.presc := by
  simp only [broadcastCcc]
  repeat' split
  all_goals simp [h, when]

@[simp] theorem broadcastCcc_rtc_halted (b : Ends) (f : State → State) (s : State)
    (h : ∀ t, (f t).rtc.halted = t.rtc.halted) : (broadcastCcc b f s).rtc.halted = s.rtc.halted := by
  simp only [broadcastCcc]
  repeat' split
  all_goals simp [h, when]

@[simp] theorem broadcastCcc_rtc_trim (b : Ends) (f : State → State) (s : State)
    (h : ∀ t, (f t).rtc.trim = t.rtc.trim) : (broadcastCcc b f s).rtc.trim = s.rtc.trim := by
  simp only [broadcastCcc]
  repeat' split
  all_goals simp [h, when]

@[simp] theorem broadcastCcc_rtc_offset (b : Ends) (f : State → State) (s : State)
    (h : ∀ t, (f t).rtc.offset = t.rtc.offset) : (broadcastCcc b f s).rtc.offset = s.rtc.offset := by
  simp only [broadcastCcc]
  repeat' split
  all_goals simp [h, when]

@[simp] theorem broadcastCcc_rtc_dst (b : Ends) (f : State → State) (s : State)
    (h : ∀ t, (f t).rtc.dst = t.rtc.dst) : (broadcastCcc b f s).rtc.dst = s.rtc.dst := by
  simp only [broadcastCcc]
  repeat' split
  all_goals simp [h, when]

@[simp] theorem broadcastCcc_rtc_started (b : Ends) (f : State → State) (s : State)
    (h : ∀ t, (f t).rtc.started = t.rtc.started) : (broadcastCcc b f s).rtc.started = s.rtc.started := by
  simp only [broadcastCcc]
  repeat' split
  all_goals simp [h, when]

@[simp] theorem broadcastCcc_sys_phase (b : Ends) (f : State → State) (s : State)
    (h : ∀ t, (f t).sys.phase = t.sys.phase) : (broadcastCcc b f s).sys.phase = s.sys.phase := by
  simp only [broadcastCcc]
  repeat' split
  all_goals simp [h, when]

@[simp] theorem broadcastCcc_sys_cfgState (b : Ends) (f : State → State) (s : State)
    (h : ∀ t, (f t).sys.cfgState = t.sys.cfgState) : (broadcastCcc b f s).sys.cfgState = s.sys.cfgState := by
  simp only [broadcastCcc]
  repeat' split
  all_goals simp [h, when]

@[simp] theorem broadcastCcc_sys_x32Run (b : Ends) (f : State → State) (s : State)
    (h : ∀ t, (f t).sys.x32Run = t.sys.x32Run) : (broadcastCcc b f s).sys.x32Run = s.sys.x32Run := by
  simp only [broadcastCcc]
  repeat' split
  all_goals simp [h, when]

@[simp] theorem broadcastCcc_sys_measRst (b : Ends) (f : State → State) (s : State)
    (h : ∀ t, (f t).sys.measRst = t.sys.measRst) : (broadcastCcc b f s).sys.measRst = s.sys.measRst := by
  simp only [broadcastCcc]
  repeat' split
  all_goals simp [h, when]

@[simp] theorem broadcastCcc_sys_lostCmds (b : Ends) (f : State → State) (s : State)
    (h : ∀ t, (f t).sys.lostCmds = t.sys.lostCmds) : (broadcastCcc b f s).sys.lostCmds = s.sys.lostCmds := by
  simp only [broadcastCcc]
  repeat' split
  all_goals simp [h, when]

@[simp] theorem broadcastCcc_sys_pstate (b : Ends) (f : State → State) (s : State)
    (h : ∀ t, (f t).sys.pstate = t.sys.pstate) : (broadcastCcc b f s).sys.pstate = s.sys.pstate := by
  simp only [broadcastCcc]
  repeat' split
  all_goals simp [h, when]

@[simp] theorem broadcastCcc_pwr_trickle (b : Ends) (f : State → State) (s : State)
    (h : ∀ t, (f t).pwr.trickle = t.pwr.trickle) : (broadcastCcc b f s).pwr.trickle = s.pwr.trickle := by
  simp only [broadcastCcc]
  repeat' split
  all_goals simp [h, when]

@[simp] theorem broadcastCcc_pwr_onVbat (b : Ends) (f : State → State) (s : State)
    (h : ∀ t, (f t).pwr.onVbat = t.pwr.onVbat) : (broadcastCcc b f s).pwr.onVbat = s.pwr.onVbat := by
  simp only [broadcastCcc]
  repeat' split
  all_goals simp [h, when]

@[simp] theorem broadcastCcc_pwr_mainOn (b : Ends) (f : State → State) (s : State)
    (h : ∀ t, (f t).pwr.mainOn = t.pwr.mainOn) : (broadcastCcc b f s).pwr.mainOn = s.pwr.mainOn := by
  simp only [broadcastCcc]
  repeat' split
  all_goals simp [h, when]

@[simp] theorem broadcastCcc_pwr_aonOn (b : Ends) (f : State → State) (s : State)
    (h : ∀ t, (f t).pwr.aonOn = t.pwr.aonOn) : (broadcastCcc b f s).pwr.aonOn = s.pwr.aonOn := by
  simp only [broadcastCcc]
  repeat' split
  all_goals simp [h, when]

@[simp] theorem broadcastCcc_pwr_warn (b : Ends) (f : State → State) (s : State)
    (h : ∀ t, (f t).pwr.warn = t.pwr.warn) : (broadcastCcc b f s).pwr.warn = s.pwr.warn := by
  simp only [broadcastCcc]
  repeat' split
  all_goals simp [h, when]

@[simp] theorem broadcastCcc_pwr_ship (b : Ends) (f : State → State) (s : State)
    (h : ∀ t, (f t).pwr.ship = t.pwr.ship) : (broadcastCcc b f s).pwr.ship = s.pwr.ship := by
  simp only [broadcastCcc]
  repeat' split
  all_goals simp [h, when]

@[simp] theorem broadcastCcc_pwr_castleCount (b : Ends) (f : State → State) (s : State)
    (h : ∀ t, (f t).pwr.castleCount = t.pwr.castleCount) : (broadcastCcc b f s).pwr.castleCount = s.pwr.castleCount := by
  simp only [broadcastCcc]
  repeat' split
  all_goals simp [h, when]

@[simp] theorem broadcastCcc_pwr_firstValid (b : Ends) (f : State → State) (s : State)
    (h : ∀ t, (f t).pwr.firstValid = t.pwr.firstValid) : (broadcastCcc b f s).pwr.firstValid = s.pwr.firstValid := by
  simp only [broadcastCcc]
  repeat' split
  all_goals simp [h, when]

@[simp] theorem broadcastCcc_pwr_firstSec (b : Ends) (f : State → State) (s : State)
    (h : ∀ t, (f t).pwr.firstSec = t.pwr.firstSec) : (broadcastCcc b f s).pwr.firstSec = s.pwr.firstSec := by
  simp only [broadcastCcc]
  repeat' split
  all_goals simp [h, when]

@[simp] theorem broadcastCcc_pwr_firstFrac (b : Ends) (f : State → State) (s : State)
    (h : ∀ t, (f t).pwr.firstFrac = t.pwr.firstFrac) : (broadcastCcc b f s).pwr.firstFrac = s.pwr.firstFrac := by
  simp only [broadcastCcc]
  repeat' split
  all_goals simp [h, when]

@[simp] theorem broadcastCcc_pwr_castlings (b : Ends) (f : State → State) (s : State)
    (h : ∀ t, (f t).pwr.castlings = t.pwr.castlings) : (broadcastCcc b f s).pwr.castlings = s.pwr.castlings := by
  simp only [broadcastCcc]
  repeat' split
  all_goals simp [h, when]

@[simp] theorem broadcastCcc_clk_src (b : Ends) (f : State → State) (s : State)
    (h : ∀ t, (f t).clk.src = t.clk.src) : (broadcastCcc b f s).clk.src = s.clk.src := by
  simp only [broadcastCcc]
  repeat' split
  all_goals simp [h, when]

@[simp] theorem broadcastCcc_clk_limits (b : Ends) (f : State → State) (s : State)
    (h : ∀ t, (f t).clk.limits = t.clk.limits) : (broadcastCcc b f s).clk.limits = s.clk.limits := by
  simp only [broadcastCcc]
  repeat' split
  all_goals simp [h, when]

@[simp] theorem broadcastCcc_clk_spread (b : Ends) (f : State → State) (s : State)
    (h : ∀ t, (f t).clk.spread = t.clk.spread) : (broadcastCcc b f s).clk.spread = s.clk.spread := by
  simp only [broadcastCcc]
  repeat' split
  all_goals simp [h, when]

@[simp] theorem broadcastCcc_clk_active (b : Ends) (f : State → State) (s : State)
    (h : ∀ t, (f t).clk.active = t.clk.active) : (broadcastCcc b f s).clk.active = s.clk.active := by
  simp only [broadcastCcc]
  repeat' split
  all_goals simp [h, when]

@[simp] theorem broadcastCcc_clk_plans (b : Ends) (f : State → State) (s : State)
    (h : ∀ t, (f t).clk.plans = t.clk.plans) : (broadcastCcc b f s).clk.plans = s.clk.plans := by
  simp only [broadcastCcc]
  repeat' split
  all_goals simp [h, when]

@[simp] theorem broadcastCcc_clk_bypass (b : Ends) (f : State → State) (s : State)
    (h : ∀ t, (f t).clk.bypass = t.clk.bypass) : (broadcastCcc b f s).clk.bypass = s.clk.bypass := by
  simp only [broadcastCcc]
  repeat' split
  all_goals simp [h, when]

@[simp] theorem broadcastCcc_clk_drift (b : Ends) (f : State → State) (s : State)
    (h : ∀ t, (f t).clk.drift = t.clk.drift) : (broadcastCcc b f s).clk.drift = s.clk.drift := by
  simp only [broadcastCcc]
  repeat' split
  all_goals simp [h, when]

@[simp] theorem broadcastCcc_clk_q (b : Ends) (f : State → State) (s : State)
    (h : ∀ t, (f t).clk.q = t.clk.q) : (broadcastCcc b f s).clk.q = s.clk.q := by
  simp only [broadcastCcc]
  repeat' split
  all_goals simp [h, when]

@[simp] theorem broadcastCcc_cond_arg0 (b : Ends) (f : State → State) (s : State)
    (h : ∀ t, (f t).cond.arg0 = t.cond.arg0) : (broadcastCcc b f s).cond.arg0 = s.cond.arg0 := by
  simp only [broadcastCcc]
  repeat' split
  all_goals simp [h, when]

@[simp] theorem broadcastCcc_cond_arg1 (b : Ends) (f : State → State) (s : State)
    (h : ∀ t, (f t).cond.arg1 = t.cond.arg1) : (broadcastCcc b f s).cond.arg1 = s.cond.arg1 := by
  simp only [broadcastCcc]
  repeat' split
  all_goals simp [h, when]

@[simp] theorem broadcastCcc_cond_arg2 (b : Ends) (f : State → State) (s : State)
    (h : ∀ t, (f t).cond.arg2 = t.cond.arg2) : (broadcastCcc b f s).cond.arg2 = s.cond.arg2 := by
  simp only [broadcastCcc]
  repeat' split
  all_goals simp [h, when]

@[simp] theorem broadcastCcc_cond_queue (b : Ends) (f : State → State) (s : State)
    (h : ∀ t, (f t).cond.queue = t.cond.queue) : (broadcastCcc b f s).cond.queue = s.cond.queue := by
  simp only [broadcastCcc]
  repeat' split
  all_goals simp [h, when]

@[simp] theorem broadcastCcc_cond_running (b : Ends) (f : State → State) (s : State)
    (h : ∀ t, (f t).cond.running = t.cond.running) : (broadcastCcc b f s).cond.running = s.cond.running := by
  simp only [broadcastCcc]
  repeat' split
  all_goals simp [h, when]

@[simp] theorem broadcastCcc_cond_head (b : Ends) (f : State → State) (s : State)
    (h : ∀ t, (f t).cond.head = t.cond.head) : (broadcastCcc b f s).cond.head = s.cond.head := by
  simp only [broadcastCcc]
  repeat' split
  all_goals simp [h, when]

@[simp] theorem broadcastCcc_cond_seq (b : Ends) (f : State → State) (s : State)
    (h : ∀ t, (f t).cond.seq = t.cond.seq) : (broadcastCcc b f s).cond.seq = s.cond.seq := by
  simp only [broadcastCcc]
  repeat' split
  all_goals simp [h, when]

@[simp] theorem broadcastCcc_cond_tail (b : Ends) (f : State → State) (s : State)
    (h : ∀ t, (f t).cond.tail = t.cond.tail) : (broadcastCcc b f s).cond.tail = s.cond.tail := by
  simp only [broadcastCcc]
  repeat' split
  all_goals simp [h, when]

@[simp] theorem broadcastCcc_cond_switches (b : Ends) (f : State → State) (s : State)
    (h : ∀ t, (f t).cond.switches = t.cond.switches) : (broadcastCcc b f s).cond.switches = s.cond.switches := by
  simp only [broadcastCcc]
  repeat' split
  all_goals simp [h, when]

@[simp] theorem broadcastCcc_cond_inReset (b : Ends) (f : State → State) (s : State)
    (h : ∀ t, (f t).cond.inReset = t.cond.inReset) : (broadcastCcc b f s).cond.inReset = s.cond.inReset := by
  simp only [broadcastCcc]
  repeat' split
  all_goals simp [h, when]

@[simp] theorem broadcastCcc_ldg_ctl (b : Ends) (f : State → State) (s : State)
    (h : ∀ t, (f t).ldg.ctl = t.ldg.ctl) : (broadcastCcc b f s).ldg.ctl = s.ldg.ctl := by
  simp only [broadcastCcc]
  repeat' split
  all_goals simp [h, when]

@[simp] theorem broadcastCcc_ldg_run (b : Ends) (f : State → State) (s : State)
    (h : ∀ t, (f t).ldg.run = t.ldg.run) : (broadcastCcc b f s).ldg.run = s.ldg.run := by
  simp only [broadcastCcc]
  repeat' split
  all_goals simp [h, when]

@[simp] theorem broadcastCcc_ldg_cnt (b : Ends) (f : State → State) (s : State)
    (h : ∀ t, (f t).ldg.cnt = t.ldg.cnt) : (broadcastCcc b f s).ldg.cnt = s.ldg.cnt := by
  simp only [broadcastCcc]
  repeat' split
  all_goals simp [h, when]

@[simp] theorem broadcastCcc_ldg_lap (b : Ends) (f : State → State) (s : State)
    (h : ∀ t, (f t).ldg.lap = t.ldg.lap) : (broadcastCcc b f s).ldg.lap = s.ldg.lap := by
  simp only [broadcastCcc]
  repeat' split
  all_goals simp [h, when]

@[simp] theorem broadcastCcc_afe_ctl (b : Ends) (f : State → State) (s : State)
    (h : ∀ t, (f t).afe.ctl = t.afe.ctl) : (broadcastCcc b f s).afe.ctl = s.afe.ctl := by
  simp only [broadcastCcc]
  repeat' split
  all_goals simp [h, when]

@[simp] theorem broadcastCcc_afe_eff (b : Ends) (f : State → State) (s : State)
    (h : ∀ t, (f t).afe.eff = t.afe.eff) : (broadcastCcc b f s).afe.eff = s.afe.eff := by
  simp only [broadcastCcc]
  repeat' split
  all_goals simp [h, when]

@[simp] theorem broadcastCcc_afe_diag (b : Ends) (f : State → State) (s : State)
    (h : ∀ t, (f t).afe.diag = t.afe.diag) : (broadcastCcc b f s).afe.diag = s.afe.diag := by
  simp only [broadcastCcc]
  repeat' split
  all_goals simp [h, when]

@[simp] theorem broadcastCcc_ros_sealed (b : Ends) (f : State → State) (s : State)
    (h : ∀ t, (f t).ros.sealed = t.ros.sealed) : (broadcastCcc b f s).ros.sealed = s.ros.sealed := by
  simp only [broadcastCcc]
  repeat' split
  all_goals simp [h, when]

@[simp] theorem broadcastCcc_out_cfg (b : Ends) (f : State → State) (s : State)
    (h : ∀ t, (f t).out.cfg = t.out.cfg) : (broadcastCcc b f s).out.cfg = s.out.cfg := by
  simp only [broadcastCcc]
  repeat' split
  all_goals simp [h, when]

@[simp] theorem broadcastCcc_out_gen (b : Ends) (f : State → State) (s : State)
    (h : ∀ t, (f t).out.gen = t.out.gen) : (broadcastCcc b f s).out.gen = s.out.gen := by
  simp only [broadcastCcc]
  repeat' split
  all_goals simp [h, when]

@[simp] theorem broadcastCcc_out_span (b : Ends) (f : State → State) (s : State)
    (h : ∀ t, (f t).out.span = t.out.span) : (broadcastCcc b f s).out.span = s.out.span := by
  simp only [broadcastCcc]
  repeat' split
  all_goals simp [h, when]

@[simp] theorem broadcastCcc_out_staged (b : Ends) (f : State → State) (s : State)
    (h : ∀ t, (f t).out.staged = t.out.staged) : (broadcastCcc b f s).out.staged = s.out.staged := by
  simp only [broadcastCcc]
  repeat' split
  all_goals simp [h, when]

@[simp] theorem broadcastCcc_nv_pages (b : Ends) (f : State → State) (s : State)
    (h : ∀ t, (f t).nv.pages = t.nv.pages) : (broadcastCcc b f s).nv.pages = s.nv.pages := by
  simp only [broadcastCcc]
  repeat' split
  all_goals simp [h, when]

@[simp] theorem broadcastCcc_nv_op (b : Ends) (f : State → State) (s : State)
    (h : ∀ t, (f t).nv.op = t.nv.op) : (broadcastCcc b f s).nv.op = s.nv.op := by
  simp only [broadcastCcc]
  repeat' split
  all_goals simp [h, when]

@[simp] theorem broadcastCcc_nv_running (b : Ends) (f : State → State) (s : State)
    (h : ∀ t, (f t).nv.running = t.nv.running) : (broadcastCcc b f s).nv.running = s.nv.running := by
  simp only [broadcastCcc]
  repeat' split
  all_goals simp [h, when]

@[simp] theorem broadcastCcc_nv_suspend (b : Ends) (f : State → State) (s : State)
    (h : ∀ t, (f t).nv.suspend = t.nv.suspend) : (broadcastCcc b f s).nv.suspend = s.nv.suspend := by
  simp only [broadcastCcc]
  repeat' split
  all_goals simp [h, when]

@[simp] theorem broadcastCcc_nv_todo (b : Ends) (f : State → State) (s : State)
    (h : ∀ t, (f t).nv.todo = t.nv.todo) : (broadcastCcc b f s).nv.todo = s.nv.todo := by
  simp only [broadcastCcc]
  repeat' split
  all_goals simp [h, when]

@[simp] theorem broadcastCcc_disc_en (b : Ends) (f : State → State) (s : State)
    (h : ∀ t, (f t).disc.en = t.disc.en) : (broadcastCcc b f s).disc.en = s.disc.en := by
  simp only [broadcastCcc]
  repeat' split
  all_goals simp [h, when]

@[simp] theorem broadcastCcc_cal_map (b : Ends) (f : State → State) (s : State)
    (h : ∀ t, (f t).cal.map = t.cal.map) : (broadcastCcc b f s).cal.map = s.cal.map := by
  simp only [broadcastCcc]
  repeat' split
  all_goals simp [h, when]

@[simp] theorem broadcastCcc_cal_quality (b : Ends) (f : State → State) (s : State)
    (h : ∀ t, (f t).cal.quality = t.cal.quality) : (broadcastCcc b f s).cal.quality = s.cal.quality := by
  simp only [broadcastCcc]
  repeat' split
  all_goals simp [h, when]

@[simp] theorem broadcastCcc_cal_modTrim (b : Ends) (f : State → State) (s : State)
    (h : ∀ t, (f t).cal.modTrim = t.cal.modTrim) : (broadcastCcc b f s).cal.modTrim = s.cal.modTrim := by
  simp only [broadcastCcc]
  repeat' split
  all_goals simp [h, when]

@[simp] theorem broadcastCcc_cal_evtTrim (b : Ends) (f : State → State) (s : State)
    (h : ∀ t, (f t).cal.evtTrim = t.cal.evtTrim) : (broadcastCcc b f s).cal.evtTrim = s.cal.evtTrim := by
  simp only [broadcastCcc]
  repeat' split
  all_goals simp [h, when]

@[simp] theorem broadcastCcc_cal_calibrated (b : Ends) (f : State → State) (s : State)
    (h : ∀ t, (f t).cal.calibrated = t.cal.calibrated) : (broadcastCcc b f s).cal.calibrated = s.cal.calibrated := by
  simp only [broadcastCcc]
  repeat' split
  all_goals simp [h, when]

@[simp] theorem broadcastCcc_evt_mask (b : Ends) (f : State → State) (s : State)
    (h : ∀ t, (f t).evt.mask = t.evt.mask) : (broadcastCcc b f s).evt.mask = s.evt.mask := by
  simp only [broadcastCcc]
  repeat' split
  all_goals simp [h, when]

@[simp] theorem broadcastCcc_evt_copy (b : Ends) (f : State → State) (s : State)
    (h : ∀ t, (f t).evt.copy = t.evt.copy) : (broadcastCcc b f s).evt.copy = s.evt.copy := by
  simp only [broadcastCcc]
  repeat' split
  all_goals simp [h, when]

@[simp] theorem directCcc_evin_incfg (b : Ends) (c : State → Bool) (f : State → State) (s : State)
    (h : ∀ t, (f t).evin.incfg = t.evin.incfg) : (directCcc b c f s).evin.incfg = s.evin.incfg := by
  simp only [directCcc]
  apply onCcc_evin_incfg; intro t; split <;> simp [h]

@[simp] theorem directCcc_evin_level (b : Ends) (c : State → Bool) (f : State → State) (s : State)
    (h : ∀ t, (f t).evin.level = t.evin.level) : (directCcc b c f s).evin.level = s.evin.level := by
  simp only [directCcc]
  apply onCcc_evin_level; intro t; split <;> simp [h]

@[simp] theorem directCcc_evin_syncLevel (b : Ends) (c : State → Bool) (f : State → State) (s : State)
    (h : ∀ t, (f t).evin.syncLevel = t.evin.syncLevel) : (directCcc b c f s).evin.syncLevel = s.evin.syncLevel := by
  simp only [directCcc]
  apply onCcc_evin_syncLevel; intro t; split <;> simp [h]

@[simp] theorem directCcc_tt_ctl (b : Ends) (c : State → Bool) (f : State → State) (s : State)
    (h : ∀ t, (f t).tt.ctl = t.tt.ctl) : (directCcc b c f s).tt.ctl = s.tt.ctl := by
  simp only [directCcc]
  apply onCcc_tt_ctl; intro t; split <;> simp [h]

@[simp] theorem directCcc_tt_instA (b : Ends) (c : State → Bool) (f : State → State) (s : State)
    (h : ∀ t, (f t).tt.instA = t.tt.instA) : (directCcc b c f s).tt.instA = s.tt.instA := by
  simp only [directCcc]
  apply onCcc_tt_instA; intro t; split <;> simp [h]

@[simp] theorem directCcc_tt_instB (b : Ends) (c : State → Bool) (f : State → State) (s : State)
    (h : ∀ t, (f t).tt.instB = t.tt.instB) : (directCcc b c f s).tt.instB = s.tt.instB := by
  simp only [directCcc]
  apply onCcc_tt_instB; intro t; split <;> simp [h]

@[simp] theorem directCcc_tt_active (b : Ends) (c : State → Bool) (f : State → State) (s : State)
    (h : ∀ t, (f t).tt.active = t.tt.active) : (directCcc b c f s).tt.active = s.tt.active := by
  simp only [directCcc]
  apply onCcc_tt_active; intro t; split <;> simp [h]

@[simp] theorem directCcc_tt_activeValid (b : Ends) (c : State → Bool) (f : State → State) (s : State)
    (h : ∀ t, (f t).tt.activeValid = t.tt.activeValid) : (directCcc b c f s).tt.activeValid = s.tt.activeValid := by
  simp only [directCcc]
  apply onCcc_tt_activeValid; intro t; split <;> simp [h]

@[simp] theorem directCcc_tt_startSec (b : Ends) (c : State → Bool) (f : State → State) (s : State)
    (h : ∀ t, (f t).tt.startSec = t.tt.startSec) : (directCcc b c f s).tt.startSec = s.tt.startSec := by
  simp only [directCcc]
  apply onCcc_tt_startSec; intro t; split <;> simp [h]

@[simp] theorem directCcc_tt_startFrac (b : Ends) (c : State → Bool) (f : State → State) (s : State)
    (h : ∀ t, (f t).tt.startFrac = t.tt.startFrac) : (directCcc b c f s).tt.startFrac = s.tt.startFrac := by
  simp only [directCcc]
  apply onCcc_tt_startFrac; intro t; split <;> simp [h]

@[simp] theorem directCcc_tt_swPend (b : Ends) (c : State → Bool) (f : State → State) (s : State)
    (h : ∀ t, (f t).tt.swPend = t.tt.swPend) : (directCcc b c f s).tt.swPend = s.tt.swPend := by
  simp only [directCcc]
  apply onCcc_tt_swPend; intro t; split <;> simp [h]

@[simp] theorem directCcc_rtc_sec (b : Ends) (c : State → Bool) (f : State → State) (s : State)
    (h : ∀ t, (f t).rtc.sec = t.rtc.sec) : (directCcc b c f s).rtc.sec = s.rtc.sec := by
  simp only [directCcc]
  apply onCcc_rtc_sec; intro t; split <;> simp [h]

@[simp] theorem directCcc_rtc_presc (b : Ends) (c : State → Bool) (f : State → State) (s : State)
    (h : ∀ t, (f t).rtc.presc = t.rtc.presc) : (directCcc b c f s).rtc.presc = s.rtc.presc := by
  simp only [directCcc]
  apply onCcc_rtc_presc; intro t; split <;> simp [h]

@[simp] theorem directCcc_rtc_halted (b : Ends) (c : State → Bool) (f : State → State) (s : State)
    (h : ∀ t, (f t).rtc.halted = t.rtc.halted) : (directCcc b c f s).rtc.halted = s.rtc.halted := by
  simp only [directCcc]
  apply onCcc_rtc_halted; intro t; split <;> simp [h]

@[simp] theorem directCcc_rtc_trim (b : Ends) (c : State → Bool) (f : State → State) (s : State)
    (h : ∀ t, (f t).rtc.trim = t.rtc.trim) : (directCcc b c f s).rtc.trim = s.rtc.trim := by
  simp only [directCcc]
  apply onCcc_rtc_trim; intro t; split <;> simp [h]

@[simp] theorem directCcc_rtc_offset (b : Ends) (c : State → Bool) (f : State → State) (s : State)
    (h : ∀ t, (f t).rtc.offset = t.rtc.offset) : (directCcc b c f s).rtc.offset = s.rtc.offset := by
  simp only [directCcc]
  apply onCcc_rtc_offset; intro t; split <;> simp [h]

@[simp] theorem directCcc_rtc_dst (b : Ends) (c : State → Bool) (f : State → State) (s : State)
    (h : ∀ t, (f t).rtc.dst = t.rtc.dst) : (directCcc b c f s).rtc.dst = s.rtc.dst := by
  simp only [directCcc]
  apply onCcc_rtc_dst; intro t; split <;> simp [h]

@[simp] theorem directCcc_rtc_started (b : Ends) (c : State → Bool) (f : State → State) (s : State)
    (h : ∀ t, (f t).rtc.started = t.rtc.started) : (directCcc b c f s).rtc.started = s.rtc.started := by
  simp only [directCcc]
  apply onCcc_rtc_started; intro t; split <;> simp [h]

@[simp] theorem directCcc_sys_phase (b : Ends) (c : State → Bool) (f : State → State) (s : State)
    (h : ∀ t, (f t).sys.phase = t.sys.phase) : (directCcc b c f s).sys.phase = s.sys.phase := by
  simp only [directCcc]
  apply onCcc_sys_phase; intro t; split <;> simp [h]

@[simp] theorem directCcc_sys_cfgState (b : Ends) (c : State → Bool) (f : State → State) (s : State)
    (h : ∀ t, (f t).sys.cfgState = t.sys.cfgState) : (directCcc b c f s).sys.cfgState = s.sys.cfgState := by
  simp only [directCcc]
  apply onCcc_sys_cfgState; intro t; split <;> simp [h]

@[simp] theorem directCcc_sys_x32Run (b : Ends) (c : State → Bool) (f : State → State) (s : State)
    (h : ∀ t, (f t).sys.x32Run = t.sys.x32Run) : (directCcc b c f s).sys.x32Run = s.sys.x32Run := by
  simp only [directCcc]
  apply onCcc_sys_x32Run; intro t; split <;> simp [h]

@[simp] theorem directCcc_sys_measRst (b : Ends) (c : State → Bool) (f : State → State) (s : State)
    (h : ∀ t, (f t).sys.measRst = t.sys.measRst) : (directCcc b c f s).sys.measRst = s.sys.measRst := by
  simp only [directCcc]
  apply onCcc_sys_measRst; intro t; split <;> simp [h]

@[simp] theorem directCcc_sys_lostCmds (b : Ends) (c : State → Bool) (f : State → State) (s : State)
    (h : ∀ t, (f t).sys.lostCmds = t.sys.lostCmds) : (directCcc b c f s).sys.lostCmds = s.sys.lostCmds := by
  simp only [directCcc]
  apply onCcc_sys_lostCmds; intro t; split <;> simp [h]

@[simp] theorem directCcc_sys_pstate (b : Ends) (c : State → Bool) (f : State → State) (s : State)
    (h : ∀ t, (f t).sys.pstate = t.sys.pstate) : (directCcc b c f s).sys.pstate = s.sys.pstate := by
  simp only [directCcc]
  apply onCcc_sys_pstate; intro t; split <;> simp [h]

@[simp] theorem directCcc_pwr_trickle (b : Ends) (c : State → Bool) (f : State → State) (s : State)
    (h : ∀ t, (f t).pwr.trickle = t.pwr.trickle) : (directCcc b c f s).pwr.trickle = s.pwr.trickle := by
  simp only [directCcc]
  apply onCcc_pwr_trickle; intro t; split <;> simp [h]

@[simp] theorem directCcc_pwr_onVbat (b : Ends) (c : State → Bool) (f : State → State) (s : State)
    (h : ∀ t, (f t).pwr.onVbat = t.pwr.onVbat) : (directCcc b c f s).pwr.onVbat = s.pwr.onVbat := by
  simp only [directCcc]
  apply onCcc_pwr_onVbat; intro t; split <;> simp [h]

@[simp] theorem directCcc_pwr_mainOn (b : Ends) (c : State → Bool) (f : State → State) (s : State)
    (h : ∀ t, (f t).pwr.mainOn = t.pwr.mainOn) : (directCcc b c f s).pwr.mainOn = s.pwr.mainOn := by
  simp only [directCcc]
  apply onCcc_pwr_mainOn; intro t; split <;> simp [h]

@[simp] theorem directCcc_pwr_aonOn (b : Ends) (c : State → Bool) (f : State → State) (s : State)
    (h : ∀ t, (f t).pwr.aonOn = t.pwr.aonOn) : (directCcc b c f s).pwr.aonOn = s.pwr.aonOn := by
  simp only [directCcc]
  apply onCcc_pwr_aonOn; intro t; split <;> simp [h]

@[simp] theorem directCcc_pwr_warn (b : Ends) (c : State → Bool) (f : State → State) (s : State)
    (h : ∀ t, (f t).pwr.warn = t.pwr.warn) : (directCcc b c f s).pwr.warn = s.pwr.warn := by
  simp only [directCcc]
  apply onCcc_pwr_warn; intro t; split <;> simp [h]

@[simp] theorem directCcc_pwr_ship (b : Ends) (c : State → Bool) (f : State → State) (s : State)
    (h : ∀ t, (f t).pwr.ship = t.pwr.ship) : (directCcc b c f s).pwr.ship = s.pwr.ship := by
  simp only [directCcc]
  apply onCcc_pwr_ship; intro t; split <;> simp [h]

@[simp] theorem directCcc_pwr_castleCount (b : Ends) (c : State → Bool) (f : State → State) (s : State)
    (h : ∀ t, (f t).pwr.castleCount = t.pwr.castleCount) : (directCcc b c f s).pwr.castleCount = s.pwr.castleCount := by
  simp only [directCcc]
  apply onCcc_pwr_castleCount; intro t; split <;> simp [h]

@[simp] theorem directCcc_pwr_firstValid (b : Ends) (c : State → Bool) (f : State → State) (s : State)
    (h : ∀ t, (f t).pwr.firstValid = t.pwr.firstValid) : (directCcc b c f s).pwr.firstValid = s.pwr.firstValid := by
  simp only [directCcc]
  apply onCcc_pwr_firstValid; intro t; split <;> simp [h]

@[simp] theorem directCcc_pwr_firstSec (b : Ends) (c : State → Bool) (f : State → State) (s : State)
    (h : ∀ t, (f t).pwr.firstSec = t.pwr.firstSec) : (directCcc b c f s).pwr.firstSec = s.pwr.firstSec := by
  simp only [directCcc]
  apply onCcc_pwr_firstSec; intro t; split <;> simp [h]

@[simp] theorem directCcc_pwr_firstFrac (b : Ends) (c : State → Bool) (f : State → State) (s : State)
    (h : ∀ t, (f t).pwr.firstFrac = t.pwr.firstFrac) : (directCcc b c f s).pwr.firstFrac = s.pwr.firstFrac := by
  simp only [directCcc]
  apply onCcc_pwr_firstFrac; intro t; split <;> simp [h]

@[simp] theorem directCcc_pwr_castlings (b : Ends) (c : State → Bool) (f : State → State) (s : State)
    (h : ∀ t, (f t).pwr.castlings = t.pwr.castlings) : (directCcc b c f s).pwr.castlings = s.pwr.castlings := by
  simp only [directCcc]
  apply onCcc_pwr_castlings; intro t; split <;> simp [h]

@[simp] theorem directCcc_clk_src (b : Ends) (c : State → Bool) (f : State → State) (s : State)
    (h : ∀ t, (f t).clk.src = t.clk.src) : (directCcc b c f s).clk.src = s.clk.src := by
  simp only [directCcc]
  apply onCcc_clk_src; intro t; split <;> simp [h]

@[simp] theorem directCcc_clk_limits (b : Ends) (c : State → Bool) (f : State → State) (s : State)
    (h : ∀ t, (f t).clk.limits = t.clk.limits) : (directCcc b c f s).clk.limits = s.clk.limits := by
  simp only [directCcc]
  apply onCcc_clk_limits; intro t; split <;> simp [h]

@[simp] theorem directCcc_clk_spread (b : Ends) (c : State → Bool) (f : State → State) (s : State)
    (h : ∀ t, (f t).clk.spread = t.clk.spread) : (directCcc b c f s).clk.spread = s.clk.spread := by
  simp only [directCcc]
  apply onCcc_clk_spread; intro t; split <;> simp [h]

@[simp] theorem directCcc_clk_active (b : Ends) (c : State → Bool) (f : State → State) (s : State)
    (h : ∀ t, (f t).clk.active = t.clk.active) : (directCcc b c f s).clk.active = s.clk.active := by
  simp only [directCcc]
  apply onCcc_clk_active; intro t; split <;> simp [h]

@[simp] theorem directCcc_clk_plans (b : Ends) (c : State → Bool) (f : State → State) (s : State)
    (h : ∀ t, (f t).clk.plans = t.clk.plans) : (directCcc b c f s).clk.plans = s.clk.plans := by
  simp only [directCcc]
  apply onCcc_clk_plans; intro t; split <;> simp [h]

@[simp] theorem directCcc_clk_bypass (b : Ends) (c : State → Bool) (f : State → State) (s : State)
    (h : ∀ t, (f t).clk.bypass = t.clk.bypass) : (directCcc b c f s).clk.bypass = s.clk.bypass := by
  simp only [directCcc]
  apply onCcc_clk_bypass; intro t; split <;> simp [h]

@[simp] theorem directCcc_clk_drift (b : Ends) (c : State → Bool) (f : State → State) (s : State)
    (h : ∀ t, (f t).clk.drift = t.clk.drift) : (directCcc b c f s).clk.drift = s.clk.drift := by
  simp only [directCcc]
  apply onCcc_clk_drift; intro t; split <;> simp [h]

@[simp] theorem directCcc_clk_q (b : Ends) (c : State → Bool) (f : State → State) (s : State)
    (h : ∀ t, (f t).clk.q = t.clk.q) : (directCcc b c f s).clk.q = s.clk.q := by
  simp only [directCcc]
  apply onCcc_clk_q; intro t; split <;> simp [h]

@[simp] theorem directCcc_cond_arg0 (b : Ends) (c : State → Bool) (f : State → State) (s : State)
    (h : ∀ t, (f t).cond.arg0 = t.cond.arg0) : (directCcc b c f s).cond.arg0 = s.cond.arg0 := by
  simp only [directCcc]
  apply onCcc_cond_arg0; intro t; split <;> simp [h]

@[simp] theorem directCcc_cond_arg1 (b : Ends) (c : State → Bool) (f : State → State) (s : State)
    (h : ∀ t, (f t).cond.arg1 = t.cond.arg1) : (directCcc b c f s).cond.arg1 = s.cond.arg1 := by
  simp only [directCcc]
  apply onCcc_cond_arg1; intro t; split <;> simp [h]

@[simp] theorem directCcc_cond_arg2 (b : Ends) (c : State → Bool) (f : State → State) (s : State)
    (h : ∀ t, (f t).cond.arg2 = t.cond.arg2) : (directCcc b c f s).cond.arg2 = s.cond.arg2 := by
  simp only [directCcc]
  apply onCcc_cond_arg2; intro t; split <;> simp [h]

@[simp] theorem directCcc_cond_queue (b : Ends) (c : State → Bool) (f : State → State) (s : State)
    (h : ∀ t, (f t).cond.queue = t.cond.queue) : (directCcc b c f s).cond.queue = s.cond.queue := by
  simp only [directCcc]
  apply onCcc_cond_queue; intro t; split <;> simp [h]

@[simp] theorem directCcc_cond_running (b : Ends) (c : State → Bool) (f : State → State) (s : State)
    (h : ∀ t, (f t).cond.running = t.cond.running) : (directCcc b c f s).cond.running = s.cond.running := by
  simp only [directCcc]
  apply onCcc_cond_running; intro t; split <;> simp [h]

@[simp] theorem directCcc_cond_head (b : Ends) (c : State → Bool) (f : State → State) (s : State)
    (h : ∀ t, (f t).cond.head = t.cond.head) : (directCcc b c f s).cond.head = s.cond.head := by
  simp only [directCcc]
  apply onCcc_cond_head; intro t; split <;> simp [h]

@[simp] theorem directCcc_cond_seq (b : Ends) (c : State → Bool) (f : State → State) (s : State)
    (h : ∀ t, (f t).cond.seq = t.cond.seq) : (directCcc b c f s).cond.seq = s.cond.seq := by
  simp only [directCcc]
  apply onCcc_cond_seq; intro t; split <;> simp [h]

@[simp] theorem directCcc_cond_tail (b : Ends) (c : State → Bool) (f : State → State) (s : State)
    (h : ∀ t, (f t).cond.tail = t.cond.tail) : (directCcc b c f s).cond.tail = s.cond.tail := by
  simp only [directCcc]
  apply onCcc_cond_tail; intro t; split <;> simp [h]

@[simp] theorem directCcc_cond_switches (b : Ends) (c : State → Bool) (f : State → State) (s : State)
    (h : ∀ t, (f t).cond.switches = t.cond.switches) : (directCcc b c f s).cond.switches = s.cond.switches := by
  simp only [directCcc]
  apply onCcc_cond_switches; intro t; split <;> simp [h]

@[simp] theorem directCcc_cond_inReset (b : Ends) (c : State → Bool) (f : State → State) (s : State)
    (h : ∀ t, (f t).cond.inReset = t.cond.inReset) : (directCcc b c f s).cond.inReset = s.cond.inReset := by
  simp only [directCcc]
  apply onCcc_cond_inReset; intro t; split <;> simp [h]

@[simp] theorem directCcc_ldg_ctl (b : Ends) (c : State → Bool) (f : State → State) (s : State)
    (h : ∀ t, (f t).ldg.ctl = t.ldg.ctl) : (directCcc b c f s).ldg.ctl = s.ldg.ctl := by
  simp only [directCcc]
  apply onCcc_ldg_ctl; intro t; split <;> simp [h]

@[simp] theorem directCcc_ldg_run (b : Ends) (c : State → Bool) (f : State → State) (s : State)
    (h : ∀ t, (f t).ldg.run = t.ldg.run) : (directCcc b c f s).ldg.run = s.ldg.run := by
  simp only [directCcc]
  apply onCcc_ldg_run; intro t; split <;> simp [h]

@[simp] theorem directCcc_ldg_cnt (b : Ends) (c : State → Bool) (f : State → State) (s : State)
    (h : ∀ t, (f t).ldg.cnt = t.ldg.cnt) : (directCcc b c f s).ldg.cnt = s.ldg.cnt := by
  simp only [directCcc]
  apply onCcc_ldg_cnt; intro t; split <;> simp [h]

@[simp] theorem directCcc_ldg_lap (b : Ends) (c : State → Bool) (f : State → State) (s : State)
    (h : ∀ t, (f t).ldg.lap = t.ldg.lap) : (directCcc b c f s).ldg.lap = s.ldg.lap := by
  simp only [directCcc]
  apply onCcc_ldg_lap; intro t; split <;> simp [h]

@[simp] theorem directCcc_afe_ctl (b : Ends) (c : State → Bool) (f : State → State) (s : State)
    (h : ∀ t, (f t).afe.ctl = t.afe.ctl) : (directCcc b c f s).afe.ctl = s.afe.ctl := by
  simp only [directCcc]
  apply onCcc_afe_ctl; intro t; split <;> simp [h]

@[simp] theorem directCcc_afe_eff (b : Ends) (c : State → Bool) (f : State → State) (s : State)
    (h : ∀ t, (f t).afe.eff = t.afe.eff) : (directCcc b c f s).afe.eff = s.afe.eff := by
  simp only [directCcc]
  apply onCcc_afe_eff; intro t; split <;> simp [h]

@[simp] theorem directCcc_afe_diag (b : Ends) (c : State → Bool) (f : State → State) (s : State)
    (h : ∀ t, (f t).afe.diag = t.afe.diag) : (directCcc b c f s).afe.diag = s.afe.diag := by
  simp only [directCcc]
  apply onCcc_afe_diag; intro t; split <;> simp [h]

@[simp] theorem directCcc_ros_sealed (b : Ends) (c : State → Bool) (f : State → State) (s : State)
    (h : ∀ t, (f t).ros.sealed = t.ros.sealed) : (directCcc b c f s).ros.sealed = s.ros.sealed := by
  simp only [directCcc]
  apply onCcc_ros_sealed; intro t; split <;> simp [h]

@[simp] theorem directCcc_out_cfg (b : Ends) (c : State → Bool) (f : State → State) (s : State)
    (h : ∀ t, (f t).out.cfg = t.out.cfg) : (directCcc b c f s).out.cfg = s.out.cfg := by
  simp only [directCcc]
  apply onCcc_out_cfg; intro t; split <;> simp [h]

@[simp] theorem directCcc_out_gen (b : Ends) (c : State → Bool) (f : State → State) (s : State)
    (h : ∀ t, (f t).out.gen = t.out.gen) : (directCcc b c f s).out.gen = s.out.gen := by
  simp only [directCcc]
  apply onCcc_out_gen; intro t; split <;> simp [h]

@[simp] theorem directCcc_out_span (b : Ends) (c : State → Bool) (f : State → State) (s : State)
    (h : ∀ t, (f t).out.span = t.out.span) : (directCcc b c f s).out.span = s.out.span := by
  simp only [directCcc]
  apply onCcc_out_span; intro t; split <;> simp [h]

@[simp] theorem directCcc_out_staged (b : Ends) (c : State → Bool) (f : State → State) (s : State)
    (h : ∀ t, (f t).out.staged = t.out.staged) : (directCcc b c f s).out.staged = s.out.staged := by
  simp only [directCcc]
  apply onCcc_out_staged; intro t; split <;> simp [h]

@[simp] theorem directCcc_nv_pages (b : Ends) (c : State → Bool) (f : State → State) (s : State)
    (h : ∀ t, (f t).nv.pages = t.nv.pages) : (directCcc b c f s).nv.pages = s.nv.pages := by
  simp only [directCcc]
  apply onCcc_nv_pages; intro t; split <;> simp [h]

@[simp] theorem directCcc_nv_op (b : Ends) (c : State → Bool) (f : State → State) (s : State)
    (h : ∀ t, (f t).nv.op = t.nv.op) : (directCcc b c f s).nv.op = s.nv.op := by
  simp only [directCcc]
  apply onCcc_nv_op; intro t; split <;> simp [h]

@[simp] theorem directCcc_nv_running (b : Ends) (c : State → Bool) (f : State → State) (s : State)
    (h : ∀ t, (f t).nv.running = t.nv.running) : (directCcc b c f s).nv.running = s.nv.running := by
  simp only [directCcc]
  apply onCcc_nv_running; intro t; split <;> simp [h]

@[simp] theorem directCcc_nv_suspend (b : Ends) (c : State → Bool) (f : State → State) (s : State)
    (h : ∀ t, (f t).nv.suspend = t.nv.suspend) : (directCcc b c f s).nv.suspend = s.nv.suspend := by
  simp only [directCcc]
  apply onCcc_nv_suspend; intro t; split <;> simp [h]

@[simp] theorem directCcc_nv_todo (b : Ends) (c : State → Bool) (f : State → State) (s : State)
    (h : ∀ t, (f t).nv.todo = t.nv.todo) : (directCcc b c f s).nv.todo = s.nv.todo := by
  simp only [directCcc]
  apply onCcc_nv_todo; intro t; split <;> simp [h]

@[simp] theorem directCcc_disc_en (b : Ends) (c : State → Bool) (f : State → State) (s : State)
    (h : ∀ t, (f t).disc.en = t.disc.en) : (directCcc b c f s).disc.en = s.disc.en := by
  simp only [directCcc]
  apply onCcc_disc_en; intro t; split <;> simp [h]

@[simp] theorem directCcc_cal_map (b : Ends) (c : State → Bool) (f : State → State) (s : State)
    (h : ∀ t, (f t).cal.map = t.cal.map) : (directCcc b c f s).cal.map = s.cal.map := by
  simp only [directCcc]
  apply onCcc_cal_map; intro t; split <;> simp [h]

@[simp] theorem directCcc_cal_quality (b : Ends) (c : State → Bool) (f : State → State) (s : State)
    (h : ∀ t, (f t).cal.quality = t.cal.quality) : (directCcc b c f s).cal.quality = s.cal.quality := by
  simp only [directCcc]
  apply onCcc_cal_quality; intro t; split <;> simp [h]

@[simp] theorem directCcc_cal_modTrim (b : Ends) (c : State → Bool) (f : State → State) (s : State)
    (h : ∀ t, (f t).cal.modTrim = t.cal.modTrim) : (directCcc b c f s).cal.modTrim = s.cal.modTrim := by
  simp only [directCcc]
  apply onCcc_cal_modTrim; intro t; split <;> simp [h]

@[simp] theorem directCcc_cal_evtTrim (b : Ends) (c : State → Bool) (f : State → State) (s : State)
    (h : ∀ t, (f t).cal.evtTrim = t.cal.evtTrim) : (directCcc b c f s).cal.evtTrim = s.cal.evtTrim := by
  simp only [directCcc]
  apply onCcc_cal_evtTrim; intro t; split <;> simp [h]

@[simp] theorem directCcc_cal_calibrated (b : Ends) (c : State → Bool) (f : State → State) (s : State)
    (h : ∀ t, (f t).cal.calibrated = t.cal.calibrated) : (directCcc b c f s).cal.calibrated = s.cal.calibrated := by
  simp only [directCcc]
  apply onCcc_cal_calibrated; intro t; split <;> simp [h]

@[simp] theorem directCcc_evt_mask (b : Ends) (c : State → Bool) (f : State → State) (s : State)
    (h : ∀ t, (f t).evt.mask = t.evt.mask) : (directCcc b c f s).evt.mask = s.evt.mask := by
  simp only [directCcc]
  apply onCcc_evt_mask; intro t; split <;> simp [h]

@[simp] theorem directCcc_evt_copy (b : Ends) (c : State → Bool) (f : State → State) (s : State)
    (h : ∀ t, (f t).evt.copy = t.evt.copy) : (directCcc b c f s).evt.copy = s.evt.copy := by
  simp only [directCcc]
  apply onCcc_evt_copy; intro t; split <;> simp [h]

@[simp] theorem eitherCcc_evin_incfg (dev : Option (BitVec 7)) (b : Ends) (f : State → State) (s : State)
    (h : ∀ t, (f t).evin.incfg = t.evin.incfg) : (eitherCcc dev b f s).evin.incfg = s.evin.incfg := by
  simp only [eitherCcc]
  repeat' split
  all_goals simp [h, when]

@[simp] theorem eitherCcc_evin_level (dev : Option (BitVec 7)) (b : Ends) (f : State → State) (s : State)
    (h : ∀ t, (f t).evin.level = t.evin.level) : (eitherCcc dev b f s).evin.level = s.evin.level := by
  simp only [eitherCcc]
  repeat' split
  all_goals simp [h, when]

@[simp] theorem eitherCcc_evin_syncLevel (dev : Option (BitVec 7)) (b : Ends) (f : State → State) (s : State)
    (h : ∀ t, (f t).evin.syncLevel = t.evin.syncLevel) : (eitherCcc dev b f s).evin.syncLevel = s.evin.syncLevel := by
  simp only [eitherCcc]
  repeat' split
  all_goals simp [h, when]

@[simp] theorem eitherCcc_tt_ctl (dev : Option (BitVec 7)) (b : Ends) (f : State → State) (s : State)
    (h : ∀ t, (f t).tt.ctl = t.tt.ctl) : (eitherCcc dev b f s).tt.ctl = s.tt.ctl := by
  simp only [eitherCcc]
  repeat' split
  all_goals simp [h, when]

@[simp] theorem eitherCcc_tt_instA (dev : Option (BitVec 7)) (b : Ends) (f : State → State) (s : State)
    (h : ∀ t, (f t).tt.instA = t.tt.instA) : (eitherCcc dev b f s).tt.instA = s.tt.instA := by
  simp only [eitherCcc]
  repeat' split
  all_goals simp [h, when]

@[simp] theorem eitherCcc_tt_instB (dev : Option (BitVec 7)) (b : Ends) (f : State → State) (s : State)
    (h : ∀ t, (f t).tt.instB = t.tt.instB) : (eitherCcc dev b f s).tt.instB = s.tt.instB := by
  simp only [eitherCcc]
  repeat' split
  all_goals simp [h, when]

@[simp] theorem eitherCcc_tt_active (dev : Option (BitVec 7)) (b : Ends) (f : State → State) (s : State)
    (h : ∀ t, (f t).tt.active = t.tt.active) : (eitherCcc dev b f s).tt.active = s.tt.active := by
  simp only [eitherCcc]
  repeat' split
  all_goals simp [h, when]

@[simp] theorem eitherCcc_tt_activeValid (dev : Option (BitVec 7)) (b : Ends) (f : State → State) (s : State)
    (h : ∀ t, (f t).tt.activeValid = t.tt.activeValid) : (eitherCcc dev b f s).tt.activeValid = s.tt.activeValid := by
  simp only [eitherCcc]
  repeat' split
  all_goals simp [h, when]

@[simp] theorem eitherCcc_tt_startSec (dev : Option (BitVec 7)) (b : Ends) (f : State → State) (s : State)
    (h : ∀ t, (f t).tt.startSec = t.tt.startSec) : (eitherCcc dev b f s).tt.startSec = s.tt.startSec := by
  simp only [eitherCcc]
  repeat' split
  all_goals simp [h, when]

@[simp] theorem eitherCcc_tt_startFrac (dev : Option (BitVec 7)) (b : Ends) (f : State → State) (s : State)
    (h : ∀ t, (f t).tt.startFrac = t.tt.startFrac) : (eitherCcc dev b f s).tt.startFrac = s.tt.startFrac := by
  simp only [eitherCcc]
  repeat' split
  all_goals simp [h, when]

@[simp] theorem eitherCcc_tt_swPend (dev : Option (BitVec 7)) (b : Ends) (f : State → State) (s : State)
    (h : ∀ t, (f t).tt.swPend = t.tt.swPend) : (eitherCcc dev b f s).tt.swPend = s.tt.swPend := by
  simp only [eitherCcc]
  repeat' split
  all_goals simp [h, when]

@[simp] theorem eitherCcc_rtc_sec (dev : Option (BitVec 7)) (b : Ends) (f : State → State) (s : State)
    (h : ∀ t, (f t).rtc.sec = t.rtc.sec) : (eitherCcc dev b f s).rtc.sec = s.rtc.sec := by
  simp only [eitherCcc]
  repeat' split
  all_goals simp [h, when]

@[simp] theorem eitherCcc_rtc_presc (dev : Option (BitVec 7)) (b : Ends) (f : State → State) (s : State)
    (h : ∀ t, (f t).rtc.presc = t.rtc.presc) : (eitherCcc dev b f s).rtc.presc = s.rtc.presc := by
  simp only [eitherCcc]
  repeat' split
  all_goals simp [h, when]

@[simp] theorem eitherCcc_rtc_halted (dev : Option (BitVec 7)) (b : Ends) (f : State → State) (s : State)
    (h : ∀ t, (f t).rtc.halted = t.rtc.halted) : (eitherCcc dev b f s).rtc.halted = s.rtc.halted := by
  simp only [eitherCcc]
  repeat' split
  all_goals simp [h, when]

@[simp] theorem eitherCcc_rtc_trim (dev : Option (BitVec 7)) (b : Ends) (f : State → State) (s : State)
    (h : ∀ t, (f t).rtc.trim = t.rtc.trim) : (eitherCcc dev b f s).rtc.trim = s.rtc.trim := by
  simp only [eitherCcc]
  repeat' split
  all_goals simp [h, when]

@[simp] theorem eitherCcc_rtc_offset (dev : Option (BitVec 7)) (b : Ends) (f : State → State) (s : State)
    (h : ∀ t, (f t).rtc.offset = t.rtc.offset) : (eitherCcc dev b f s).rtc.offset = s.rtc.offset := by
  simp only [eitherCcc]
  repeat' split
  all_goals simp [h, when]

@[simp] theorem eitherCcc_rtc_dst (dev : Option (BitVec 7)) (b : Ends) (f : State → State) (s : State)
    (h : ∀ t, (f t).rtc.dst = t.rtc.dst) : (eitherCcc dev b f s).rtc.dst = s.rtc.dst := by
  simp only [eitherCcc]
  repeat' split
  all_goals simp [h, when]

@[simp] theorem eitherCcc_rtc_started (dev : Option (BitVec 7)) (b : Ends) (f : State → State) (s : State)
    (h : ∀ t, (f t).rtc.started = t.rtc.started) : (eitherCcc dev b f s).rtc.started = s.rtc.started := by
  simp only [eitherCcc]
  repeat' split
  all_goals simp [h, when]

@[simp] theorem eitherCcc_sys_phase (dev : Option (BitVec 7)) (b : Ends) (f : State → State) (s : State)
    (h : ∀ t, (f t).sys.phase = t.sys.phase) : (eitherCcc dev b f s).sys.phase = s.sys.phase := by
  simp only [eitherCcc]
  repeat' split
  all_goals simp [h, when]

@[simp] theorem eitherCcc_sys_cfgState (dev : Option (BitVec 7)) (b : Ends) (f : State → State) (s : State)
    (h : ∀ t, (f t).sys.cfgState = t.sys.cfgState) : (eitherCcc dev b f s).sys.cfgState = s.sys.cfgState := by
  simp only [eitherCcc]
  repeat' split
  all_goals simp [h, when]

@[simp] theorem eitherCcc_sys_x32Run (dev : Option (BitVec 7)) (b : Ends) (f : State → State) (s : State)
    (h : ∀ t, (f t).sys.x32Run = t.sys.x32Run) : (eitherCcc dev b f s).sys.x32Run = s.sys.x32Run := by
  simp only [eitherCcc]
  repeat' split
  all_goals simp [h, when]

@[simp] theorem eitherCcc_sys_measRst (dev : Option (BitVec 7)) (b : Ends) (f : State → State) (s : State)
    (h : ∀ t, (f t).sys.measRst = t.sys.measRst) : (eitherCcc dev b f s).sys.measRst = s.sys.measRst := by
  simp only [eitherCcc]
  repeat' split
  all_goals simp [h, when]

@[simp] theorem eitherCcc_sys_lostCmds (dev : Option (BitVec 7)) (b : Ends) (f : State → State) (s : State)
    (h : ∀ t, (f t).sys.lostCmds = t.sys.lostCmds) : (eitherCcc dev b f s).sys.lostCmds = s.sys.lostCmds := by
  simp only [eitherCcc]
  repeat' split
  all_goals simp [h, when]

@[simp] theorem eitherCcc_sys_pstate (dev : Option (BitVec 7)) (b : Ends) (f : State → State) (s : State)
    (h : ∀ t, (f t).sys.pstate = t.sys.pstate) : (eitherCcc dev b f s).sys.pstate = s.sys.pstate := by
  simp only [eitherCcc]
  repeat' split
  all_goals simp [h, when]

@[simp] theorem eitherCcc_pwr_trickle (dev : Option (BitVec 7)) (b : Ends) (f : State → State) (s : State)
    (h : ∀ t, (f t).pwr.trickle = t.pwr.trickle) : (eitherCcc dev b f s).pwr.trickle = s.pwr.trickle := by
  simp only [eitherCcc]
  repeat' split
  all_goals simp [h, when]

@[simp] theorem eitherCcc_pwr_onVbat (dev : Option (BitVec 7)) (b : Ends) (f : State → State) (s : State)
    (h : ∀ t, (f t).pwr.onVbat = t.pwr.onVbat) : (eitherCcc dev b f s).pwr.onVbat = s.pwr.onVbat := by
  simp only [eitherCcc]
  repeat' split
  all_goals simp [h, when]

@[simp] theorem eitherCcc_pwr_mainOn (dev : Option (BitVec 7)) (b : Ends) (f : State → State) (s : State)
    (h : ∀ t, (f t).pwr.mainOn = t.pwr.mainOn) : (eitherCcc dev b f s).pwr.mainOn = s.pwr.mainOn := by
  simp only [eitherCcc]
  repeat' split
  all_goals simp [h, when]

@[simp] theorem eitherCcc_pwr_aonOn (dev : Option (BitVec 7)) (b : Ends) (f : State → State) (s : State)
    (h : ∀ t, (f t).pwr.aonOn = t.pwr.aonOn) : (eitherCcc dev b f s).pwr.aonOn = s.pwr.aonOn := by
  simp only [eitherCcc]
  repeat' split
  all_goals simp [h, when]

@[simp] theorem eitherCcc_pwr_warn (dev : Option (BitVec 7)) (b : Ends) (f : State → State) (s : State)
    (h : ∀ t, (f t).pwr.warn = t.pwr.warn) : (eitherCcc dev b f s).pwr.warn = s.pwr.warn := by
  simp only [eitherCcc]
  repeat' split
  all_goals simp [h, when]

@[simp] theorem eitherCcc_pwr_ship (dev : Option (BitVec 7)) (b : Ends) (f : State → State) (s : State)
    (h : ∀ t, (f t).pwr.ship = t.pwr.ship) : (eitherCcc dev b f s).pwr.ship = s.pwr.ship := by
  simp only [eitherCcc]
  repeat' split
  all_goals simp [h, when]

@[simp] theorem eitherCcc_pwr_castleCount (dev : Option (BitVec 7)) (b : Ends) (f : State → State) (s : State)
    (h : ∀ t, (f t).pwr.castleCount = t.pwr.castleCount) : (eitherCcc dev b f s).pwr.castleCount = s.pwr.castleCount := by
  simp only [eitherCcc]
  repeat' split
  all_goals simp [h, when]

@[simp] theorem eitherCcc_pwr_firstValid (dev : Option (BitVec 7)) (b : Ends) (f : State → State) (s : State)
    (h : ∀ t, (f t).pwr.firstValid = t.pwr.firstValid) : (eitherCcc dev b f s).pwr.firstValid = s.pwr.firstValid := by
  simp only [eitherCcc]
  repeat' split
  all_goals simp [h, when]

@[simp] theorem eitherCcc_pwr_firstSec (dev : Option (BitVec 7)) (b : Ends) (f : State → State) (s : State)
    (h : ∀ t, (f t).pwr.firstSec = t.pwr.firstSec) : (eitherCcc dev b f s).pwr.firstSec = s.pwr.firstSec := by
  simp only [eitherCcc]
  repeat' split
  all_goals simp [h, when]

@[simp] theorem eitherCcc_pwr_firstFrac (dev : Option (BitVec 7)) (b : Ends) (f : State → State) (s : State)
    (h : ∀ t, (f t).pwr.firstFrac = t.pwr.firstFrac) : (eitherCcc dev b f s).pwr.firstFrac = s.pwr.firstFrac := by
  simp only [eitherCcc]
  repeat' split
  all_goals simp [h, when]

@[simp] theorem eitherCcc_pwr_castlings (dev : Option (BitVec 7)) (b : Ends) (f : State → State) (s : State)
    (h : ∀ t, (f t).pwr.castlings = t.pwr.castlings) : (eitherCcc dev b f s).pwr.castlings = s.pwr.castlings := by
  simp only [eitherCcc]
  repeat' split
  all_goals simp [h, when]

@[simp] theorem eitherCcc_clk_src (dev : Option (BitVec 7)) (b : Ends) (f : State → State) (s : State)
    (h : ∀ t, (f t).clk.src = t.clk.src) : (eitherCcc dev b f s).clk.src = s.clk.src := by
  simp only [eitherCcc]
  repeat' split
  all_goals simp [h, when]

@[simp] theorem eitherCcc_clk_limits (dev : Option (BitVec 7)) (b : Ends) (f : State → State) (s : State)
    (h : ∀ t, (f t).clk.limits = t.clk.limits) : (eitherCcc dev b f s).clk.limits = s.clk.limits := by
  simp only [eitherCcc]
  repeat' split
  all_goals simp [h, when]

@[simp] theorem eitherCcc_clk_spread (dev : Option (BitVec 7)) (b : Ends) (f : State → State) (s : State)
    (h : ∀ t, (f t).clk.spread = t.clk.spread) : (eitherCcc dev b f s).clk.spread = s.clk.spread := by
  simp only [eitherCcc]
  repeat' split
  all_goals simp [h, when]

@[simp] theorem eitherCcc_clk_active (dev : Option (BitVec 7)) (b : Ends) (f : State → State) (s : State)
    (h : ∀ t, (f t).clk.active = t.clk.active) : (eitherCcc dev b f s).clk.active = s.clk.active := by
  simp only [eitherCcc]
  repeat' split
  all_goals simp [h, when]

@[simp] theorem eitherCcc_clk_plans (dev : Option (BitVec 7)) (b : Ends) (f : State → State) (s : State)
    (h : ∀ t, (f t).clk.plans = t.clk.plans) : (eitherCcc dev b f s).clk.plans = s.clk.plans := by
  simp only [eitherCcc]
  repeat' split
  all_goals simp [h, when]

@[simp] theorem eitherCcc_clk_bypass (dev : Option (BitVec 7)) (b : Ends) (f : State → State) (s : State)
    (h : ∀ t, (f t).clk.bypass = t.clk.bypass) : (eitherCcc dev b f s).clk.bypass = s.clk.bypass := by
  simp only [eitherCcc]
  repeat' split
  all_goals simp [h, when]

@[simp] theorem eitherCcc_clk_drift (dev : Option (BitVec 7)) (b : Ends) (f : State → State) (s : State)
    (h : ∀ t, (f t).clk.drift = t.clk.drift) : (eitherCcc dev b f s).clk.drift = s.clk.drift := by
  simp only [eitherCcc]
  repeat' split
  all_goals simp [h, when]

@[simp] theorem eitherCcc_clk_q (dev : Option (BitVec 7)) (b : Ends) (f : State → State) (s : State)
    (h : ∀ t, (f t).clk.q = t.clk.q) : (eitherCcc dev b f s).clk.q = s.clk.q := by
  simp only [eitherCcc]
  repeat' split
  all_goals simp [h, when]

@[simp] theorem eitherCcc_cond_arg0 (dev : Option (BitVec 7)) (b : Ends) (f : State → State) (s : State)
    (h : ∀ t, (f t).cond.arg0 = t.cond.arg0) : (eitherCcc dev b f s).cond.arg0 = s.cond.arg0 := by
  simp only [eitherCcc]
  repeat' split
  all_goals simp [h, when]

@[simp] theorem eitherCcc_cond_arg1 (dev : Option (BitVec 7)) (b : Ends) (f : State → State) (s : State)
    (h : ∀ t, (f t).cond.arg1 = t.cond.arg1) : (eitherCcc dev b f s).cond.arg1 = s.cond.arg1 := by
  simp only [eitherCcc]
  repeat' split
  all_goals simp [h, when]

@[simp] theorem eitherCcc_cond_arg2 (dev : Option (BitVec 7)) (b : Ends) (f : State → State) (s : State)
    (h : ∀ t, (f t).cond.arg2 = t.cond.arg2) : (eitherCcc dev b f s).cond.arg2 = s.cond.arg2 := by
  simp only [eitherCcc]
  repeat' split
  all_goals simp [h, when]

@[simp] theorem eitherCcc_cond_queue (dev : Option (BitVec 7)) (b : Ends) (f : State → State) (s : State)
    (h : ∀ t, (f t).cond.queue = t.cond.queue) : (eitherCcc dev b f s).cond.queue = s.cond.queue := by
  simp only [eitherCcc]
  repeat' split
  all_goals simp [h, when]

@[simp] theorem eitherCcc_cond_running (dev : Option (BitVec 7)) (b : Ends) (f : State → State) (s : State)
    (h : ∀ t, (f t).cond.running = t.cond.running) : (eitherCcc dev b f s).cond.running = s.cond.running := by
  simp only [eitherCcc]
  repeat' split
  all_goals simp [h, when]

@[simp] theorem eitherCcc_cond_head (dev : Option (BitVec 7)) (b : Ends) (f : State → State) (s : State)
    (h : ∀ t, (f t).cond.head = t.cond.head) : (eitherCcc dev b f s).cond.head = s.cond.head := by
  simp only [eitherCcc]
  repeat' split
  all_goals simp [h, when]

@[simp] theorem eitherCcc_cond_seq (dev : Option (BitVec 7)) (b : Ends) (f : State → State) (s : State)
    (h : ∀ t, (f t).cond.seq = t.cond.seq) : (eitherCcc dev b f s).cond.seq = s.cond.seq := by
  simp only [eitherCcc]
  repeat' split
  all_goals simp [h, when]

@[simp] theorem eitherCcc_cond_tail (dev : Option (BitVec 7)) (b : Ends) (f : State → State) (s : State)
    (h : ∀ t, (f t).cond.tail = t.cond.tail) : (eitherCcc dev b f s).cond.tail = s.cond.tail := by
  simp only [eitherCcc]
  repeat' split
  all_goals simp [h, when]

@[simp] theorem eitherCcc_cond_switches (dev : Option (BitVec 7)) (b : Ends) (f : State → State) (s : State)
    (h : ∀ t, (f t).cond.switches = t.cond.switches) : (eitherCcc dev b f s).cond.switches = s.cond.switches := by
  simp only [eitherCcc]
  repeat' split
  all_goals simp [h, when]

@[simp] theorem eitherCcc_cond_inReset (dev : Option (BitVec 7)) (b : Ends) (f : State → State) (s : State)
    (h : ∀ t, (f t).cond.inReset = t.cond.inReset) : (eitherCcc dev b f s).cond.inReset = s.cond.inReset := by
  simp only [eitherCcc]
  repeat' split
  all_goals simp [h, when]

@[simp] theorem eitherCcc_ldg_ctl (dev : Option (BitVec 7)) (b : Ends) (f : State → State) (s : State)
    (h : ∀ t, (f t).ldg.ctl = t.ldg.ctl) : (eitherCcc dev b f s).ldg.ctl = s.ldg.ctl := by
  simp only [eitherCcc]
  repeat' split
  all_goals simp [h, when]

@[simp] theorem eitherCcc_ldg_run (dev : Option (BitVec 7)) (b : Ends) (f : State → State) (s : State)
    (h : ∀ t, (f t).ldg.run = t.ldg.run) : (eitherCcc dev b f s).ldg.run = s.ldg.run := by
  simp only [eitherCcc]
  repeat' split
  all_goals simp [h, when]

@[simp] theorem eitherCcc_ldg_cnt (dev : Option (BitVec 7)) (b : Ends) (f : State → State) (s : State)
    (h : ∀ t, (f t).ldg.cnt = t.ldg.cnt) : (eitherCcc dev b f s).ldg.cnt = s.ldg.cnt := by
  simp only [eitherCcc]
  repeat' split
  all_goals simp [h, when]

@[simp] theorem eitherCcc_ldg_lap (dev : Option (BitVec 7)) (b : Ends) (f : State → State) (s : State)
    (h : ∀ t, (f t).ldg.lap = t.ldg.lap) : (eitherCcc dev b f s).ldg.lap = s.ldg.lap := by
  simp only [eitherCcc]
  repeat' split
  all_goals simp [h, when]

@[simp] theorem eitherCcc_afe_ctl (dev : Option (BitVec 7)) (b : Ends) (f : State → State) (s : State)
    (h : ∀ t, (f t).afe.ctl = t.afe.ctl) : (eitherCcc dev b f s).afe.ctl = s.afe.ctl := by
  simp only [eitherCcc]
  repeat' split
  all_goals simp [h, when]

@[simp] theorem eitherCcc_afe_eff (dev : Option (BitVec 7)) (b : Ends) (f : State → State) (s : State)
    (h : ∀ t, (f t).afe.eff = t.afe.eff) : (eitherCcc dev b f s).afe.eff = s.afe.eff := by
  simp only [eitherCcc]
  repeat' split
  all_goals simp [h, when]

@[simp] theorem eitherCcc_afe_diag (dev : Option (BitVec 7)) (b : Ends) (f : State → State) (s : State)
    (h : ∀ t, (f t).afe.diag = t.afe.diag) : (eitherCcc dev b f s).afe.diag = s.afe.diag := by
  simp only [eitherCcc]
  repeat' split
  all_goals simp [h, when]

@[simp] theorem eitherCcc_ros_sealed (dev : Option (BitVec 7)) (b : Ends) (f : State → State) (s : State)
    (h : ∀ t, (f t).ros.sealed = t.ros.sealed) : (eitherCcc dev b f s).ros.sealed = s.ros.sealed := by
  simp only [eitherCcc]
  repeat' split
  all_goals simp [h, when]

@[simp] theorem eitherCcc_out_cfg (dev : Option (BitVec 7)) (b : Ends) (f : State → State) (s : State)
    (h : ∀ t, (f t).out.cfg = t.out.cfg) : (eitherCcc dev b f s).out.cfg = s.out.cfg := by
  simp only [eitherCcc]
  repeat' split
  all_goals simp [h, when]

@[simp] theorem eitherCcc_out_gen (dev : Option (BitVec 7)) (b : Ends) (f : State → State) (s : State)
    (h : ∀ t, (f t).out.gen = t.out.gen) : (eitherCcc dev b f s).out.gen = s.out.gen := by
  simp only [eitherCcc]
  repeat' split
  all_goals simp [h, when]

@[simp] theorem eitherCcc_out_span (dev : Option (BitVec 7)) (b : Ends) (f : State → State) (s : State)
    (h : ∀ t, (f t).out.span = t.out.span) : (eitherCcc dev b f s).out.span = s.out.span := by
  simp only [eitherCcc]
  repeat' split
  all_goals simp [h, when]

@[simp] theorem eitherCcc_out_staged (dev : Option (BitVec 7)) (b : Ends) (f : State → State) (s : State)
    (h : ∀ t, (f t).out.staged = t.out.staged) : (eitherCcc dev b f s).out.staged = s.out.staged := by
  simp only [eitherCcc]
  repeat' split
  all_goals simp [h, when]

@[simp] theorem eitherCcc_nv_pages (dev : Option (BitVec 7)) (b : Ends) (f : State → State) (s : State)
    (h : ∀ t, (f t).nv.pages = t.nv.pages) : (eitherCcc dev b f s).nv.pages = s.nv.pages := by
  simp only [eitherCcc]
  repeat' split
  all_goals simp [h, when]

@[simp] theorem eitherCcc_nv_op (dev : Option (BitVec 7)) (b : Ends) (f : State → State) (s : State)
    (h : ∀ t, (f t).nv.op = t.nv.op) : (eitherCcc dev b f s).nv.op = s.nv.op := by
  simp only [eitherCcc]
  repeat' split
  all_goals simp [h, when]

@[simp] theorem eitherCcc_nv_running (dev : Option (BitVec 7)) (b : Ends) (f : State → State) (s : State)
    (h : ∀ t, (f t).nv.running = t.nv.running) : (eitherCcc dev b f s).nv.running = s.nv.running := by
  simp only [eitherCcc]
  repeat' split
  all_goals simp [h, when]

@[simp] theorem eitherCcc_nv_suspend (dev : Option (BitVec 7)) (b : Ends) (f : State → State) (s : State)
    (h : ∀ t, (f t).nv.suspend = t.nv.suspend) : (eitherCcc dev b f s).nv.suspend = s.nv.suspend := by
  simp only [eitherCcc]
  repeat' split
  all_goals simp [h, when]

@[simp] theorem eitherCcc_nv_todo (dev : Option (BitVec 7)) (b : Ends) (f : State → State) (s : State)
    (h : ∀ t, (f t).nv.todo = t.nv.todo) : (eitherCcc dev b f s).nv.todo = s.nv.todo := by
  simp only [eitherCcc]
  repeat' split
  all_goals simp [h, when]

@[simp] theorem eitherCcc_disc_en (dev : Option (BitVec 7)) (b : Ends) (f : State → State) (s : State)
    (h : ∀ t, (f t).disc.en = t.disc.en) : (eitherCcc dev b f s).disc.en = s.disc.en := by
  simp only [eitherCcc]
  repeat' split
  all_goals simp [h, when]

@[simp] theorem eitherCcc_cal_map (dev : Option (BitVec 7)) (b : Ends) (f : State → State) (s : State)
    (h : ∀ t, (f t).cal.map = t.cal.map) : (eitherCcc dev b f s).cal.map = s.cal.map := by
  simp only [eitherCcc]
  repeat' split
  all_goals simp [h, when]

@[simp] theorem eitherCcc_cal_quality (dev : Option (BitVec 7)) (b : Ends) (f : State → State) (s : State)
    (h : ∀ t, (f t).cal.quality = t.cal.quality) : (eitherCcc dev b f s).cal.quality = s.cal.quality := by
  simp only [eitherCcc]
  repeat' split
  all_goals simp [h, when]

@[simp] theorem eitherCcc_cal_modTrim (dev : Option (BitVec 7)) (b : Ends) (f : State → State) (s : State)
    (h : ∀ t, (f t).cal.modTrim = t.cal.modTrim) : (eitherCcc dev b f s).cal.modTrim = s.cal.modTrim := by
  simp only [eitherCcc]
  repeat' split
  all_goals simp [h, when]

@[simp] theorem eitherCcc_cal_evtTrim (dev : Option (BitVec 7)) (b : Ends) (f : State → State) (s : State)
    (h : ∀ t, (f t).cal.evtTrim = t.cal.evtTrim) : (eitherCcc dev b f s).cal.evtTrim = s.cal.evtTrim := by
  simp only [eitherCcc]
  repeat' split
  all_goals simp [h, when]

@[simp] theorem eitherCcc_cal_calibrated (dev : Option (BitVec 7)) (b : Ends) (f : State → State) (s : State)
    (h : ∀ t, (f t).cal.calibrated = t.cal.calibrated) : (eitherCcc dev b f s).cal.calibrated = s.cal.calibrated := by
  simp only [eitherCcc]
  repeat' split
  all_goals simp [h, when]

@[simp] theorem eitherCcc_evt_mask (dev : Option (BitVec 7)) (b : Ends) (f : State → State) (s : State)
    (h : ∀ t, (f t).evt.mask = t.evt.mask) : (eitherCcc dev b f s).evt.mask = s.evt.mask := by
  simp only [eitherCcc]
  repeat' split
  all_goals simp [h, when]

@[simp] theorem eitherCcc_evt_copy (dev : Option (BitVec 7)) (b : Ends) (f : State → State) (s : State)
    (h : ∀ t, (f t).evt.copy = t.evt.copy) : (eitherCcc dev b f s).evt.copy = s.evt.copy := by
  simp only [eitherCcc]
  repeat' split
  all_goals simp [h, when]

theorem takeAddress_inner (a : BitVec 7) (s : State) :
    (takeAddress a s).hif.i3c = s.hif.i3c ∧ (takeAddress a s).hif.crcEn = s.hif.crcEn ∧
    (takeAddress a s).hif.txn = s.hif.txn ∧ (takeAddress a s).hif.reply = s.hif.reply := by
  simp only [takeAddress, when]
  repeat' split
  all_goals simp

theorem arbitrate_inner (a : BitVec 7) (s : State) :
    (arbitrate a s).hif.i3c = s.hif.i3c ∧ (arbitrate a s).hif.crcEn = s.hif.crcEn ∧
    (arbitrate a s).hif.txn = s.hif.txn := by
  have k0 := @takeAddress_frame
  have k1 := @takeAddress_inner
  simp only [arbitrate, when]
  repeat' split
  all_goals simp [k0, k1]

@[simp] theorem entdaa_inner (a : BitVec 7) (b : Ends) (s : State) :
    (entdaa a b s).evin.incfg = s.evin.incfg ∧ (entdaa a b s).evin.level = s.evin.level ∧
    (entdaa a b s).evin.syncLevel = s.evin.syncLevel ∧ (entdaa a b s).tt.ctl = s.tt.ctl ∧
    (entdaa a b s).tt.instA = s.tt.instA ∧ (entdaa a b s).tt.instB = s.tt.instB ∧
    (entdaa a b s).tt.active = s.tt.active ∧ (entdaa a b s).tt.activeValid = s.tt.activeValid ∧
    (entdaa a b s).tt.startSec = s.tt.startSec ∧ (entdaa a b s).tt.startFrac = s.tt.startFrac ∧
    (entdaa a b s).tt.swPend = s.tt.swPend ∧ (entdaa a b s).rtc.sec = s.rtc.sec ∧
    (entdaa a b s).rtc.presc = s.rtc.presc ∧ (entdaa a b s).rtc.halted = s.rtc.halted ∧
    (entdaa a b s).rtc.trim = s.rtc.trim ∧ (entdaa a b s).rtc.offset = s.rtc.offset ∧
    (entdaa a b s).rtc.dst = s.rtc.dst ∧ (entdaa a b s).rtc.started = s.rtc.started ∧
    (entdaa a b s).sys.phase = s.sys.phase ∧ (entdaa a b s).sys.cfgState = s.sys.cfgState ∧
    (entdaa a b s).sys.x32Run = s.sys.x32Run ∧ (entdaa a b s).sys.measRst = s.sys.measRst ∧
    (entdaa a b s).sys.lostCmds = s.sys.lostCmds ∧ (entdaa a b s).sys.pstate = s.sys.pstate ∧
    (entdaa a b s).pwr.trickle = s.pwr.trickle ∧ (entdaa a b s).pwr.onVbat = s.pwr.onVbat ∧
    (entdaa a b s).pwr.mainOn = s.pwr.mainOn ∧ (entdaa a b s).pwr.aonOn = s.pwr.aonOn ∧
    (entdaa a b s).pwr.warn = s.pwr.warn ∧ (entdaa a b s).pwr.ship = s.pwr.ship ∧
    (entdaa a b s).pwr.castleCount = s.pwr.castleCount ∧ (entdaa a b s).pwr.firstValid = s.pwr.firstValid ∧
    (entdaa a b s).pwr.firstSec = s.pwr.firstSec ∧ (entdaa a b s).pwr.firstFrac = s.pwr.firstFrac ∧
    (entdaa a b s).pwr.castlings = s.pwr.castlings ∧ (entdaa a b s).clk.src = s.clk.src ∧
    (entdaa a b s).clk.limits = s.clk.limits ∧ (entdaa a b s).clk.spread = s.clk.spread ∧
    (entdaa a b s).clk.active = s.clk.active ∧ (entdaa a b s).clk.plans = s.clk.plans ∧
    (entdaa a b s).clk.bypass = s.clk.bypass ∧ (entdaa a b s).clk.drift = s.clk.drift ∧
    (entdaa a b s).clk.q = s.clk.q ∧ (entdaa a b s).cond.arg0 = s.cond.arg0 ∧ (entdaa a b s).cond.arg1 = s.cond.arg1 ∧
    (entdaa a b s).cond.arg2 = s.cond.arg2 ∧ (entdaa a b s).cond.queue = s.cond.queue ∧
    (entdaa a b s).cond.running = s.cond.running ∧ (entdaa a b s).cond.head = s.cond.head ∧
    (entdaa a b s).cond.seq = s.cond.seq ∧ (entdaa a b s).cond.tail = s.cond.tail ∧
    (entdaa a b s).cond.switches = s.cond.switches ∧ (entdaa a b s).cond.inReset = s.cond.inReset ∧
    (entdaa a b s).ldg.ctl = s.ldg.ctl ∧ (entdaa a b s).ldg.run = s.ldg.run ∧ (entdaa a b s).ldg.cnt = s.ldg.cnt ∧
    (entdaa a b s).ldg.lap = s.ldg.lap ∧ (entdaa a b s).afe.ctl = s.afe.ctl ∧ (entdaa a b s).afe.eff = s.afe.eff ∧
    (entdaa a b s).afe.diag = s.afe.diag ∧ (entdaa a b s).out.cfg = s.out.cfg ∧ (entdaa a b s).out.gen = s.out.gen ∧
    (entdaa a b s).out.span = s.out.span ∧ (entdaa a b s).out.staged = s.out.staged ∧
    (entdaa a b s).evt.mask = s.evt.mask ∧ (entdaa a b s).evt.copy = s.evt.copy := by
  have k0 := @arbitrate_frame
  have k1 := @arbitrate_inner
  simp only [entdaa, when]
  repeat' split
  all_goals simp [k0, k1]

@[simp] theorem setdasa_inner (x : Dasa) (b : Ends) (s : State) :
    (setdasa x b s).evin.incfg = s.evin.incfg ∧ (setdasa x b s).evin.level = s.evin.level ∧
    (setdasa x b s).evin.syncLevel = s.evin.syncLevel ∧ (setdasa x b s).tt.ctl = s.tt.ctl ∧
    (setdasa x b s).tt.instA = s.tt.instA ∧ (setdasa x b s).tt.instB = s.tt.instB ∧
    (setdasa x b s).tt.active = s.tt.active ∧ (setdasa x b s).tt.activeValid = s.tt.activeValid ∧
    (setdasa x b s).tt.startSec = s.tt.startSec ∧ (setdasa x b s).tt.startFrac = s.tt.startFrac ∧
    (setdasa x b s).tt.swPend = s.tt.swPend ∧ (setdasa x b s).rtc.sec = s.rtc.sec ∧
    (setdasa x b s).rtc.presc = s.rtc.presc ∧ (setdasa x b s).rtc.halted = s.rtc.halted ∧
    (setdasa x b s).rtc.trim = s.rtc.trim ∧ (setdasa x b s).rtc.offset = s.rtc.offset ∧
    (setdasa x b s).rtc.dst = s.rtc.dst ∧ (setdasa x b s).rtc.started = s.rtc.started ∧
    (setdasa x b s).sys.phase = s.sys.phase ∧ (setdasa x b s).sys.cfgState = s.sys.cfgState ∧
    (setdasa x b s).sys.x32Run = s.sys.x32Run ∧ (setdasa x b s).sys.measRst = s.sys.measRst ∧
    (setdasa x b s).sys.lostCmds = s.sys.lostCmds ∧ (setdasa x b s).sys.pstate = s.sys.pstate ∧
    (setdasa x b s).pwr.trickle = s.pwr.trickle ∧ (setdasa x b s).pwr.onVbat = s.pwr.onVbat ∧
    (setdasa x b s).pwr.mainOn = s.pwr.mainOn ∧ (setdasa x b s).pwr.aonOn = s.pwr.aonOn ∧
    (setdasa x b s).pwr.warn = s.pwr.warn ∧ (setdasa x b s).pwr.ship = s.pwr.ship ∧
    (setdasa x b s).pwr.castleCount = s.pwr.castleCount ∧ (setdasa x b s).pwr.firstValid = s.pwr.firstValid ∧
    (setdasa x b s).pwr.firstSec = s.pwr.firstSec ∧ (setdasa x b s).pwr.firstFrac = s.pwr.firstFrac ∧
    (setdasa x b s).pwr.castlings = s.pwr.castlings ∧ (setdasa x b s).clk.src = s.clk.src ∧
    (setdasa x b s).clk.limits = s.clk.limits ∧ (setdasa x b s).clk.spread = s.clk.spread ∧
    (setdasa x b s).clk.active = s.clk.active ∧ (setdasa x b s).clk.plans = s.clk.plans ∧
    (setdasa x b s).clk.bypass = s.clk.bypass ∧ (setdasa x b s).clk.drift = s.clk.drift ∧
    (setdasa x b s).clk.q = s.clk.q ∧ (setdasa x b s).cond.arg0 = s.cond.arg0 ∧
    (setdasa x b s).cond.arg1 = s.cond.arg1 ∧ (setdasa x b s).cond.arg2 = s.cond.arg2 ∧
    (setdasa x b s).cond.queue = s.cond.queue ∧ (setdasa x b s).cond.running = s.cond.running ∧
    (setdasa x b s).cond.head = s.cond.head ∧ (setdasa x b s).cond.seq = s.cond.seq ∧
    (setdasa x b s).cond.tail = s.cond.tail ∧ (setdasa x b s).cond.switches = s.cond.switches ∧
    (setdasa x b s).cond.inReset = s.cond.inReset ∧ (setdasa x b s).ldg.ctl = s.ldg.ctl ∧
    (setdasa x b s).ldg.run = s.ldg.run ∧ (setdasa x b s).ldg.cnt = s.ldg.cnt ∧ (setdasa x b s).ldg.lap = s.ldg.lap ∧
    (setdasa x b s).afe.ctl = s.afe.ctl ∧ (setdasa x b s).afe.eff = s.afe.eff ∧
    (setdasa x b s).afe.diag = s.afe.diag ∧ (setdasa x b s).out.cfg = s.out.cfg ∧
    (setdasa x b s).out.gen = s.out.gen ∧ (setdasa x b s).out.span = s.out.span ∧
    (setdasa x b s).out.staged = s.out.staged ∧ (setdasa x b s).evt.mask = s.evt.mask ∧
    (setdasa x b s).evt.copy = s.evt.copy := by
  have k0 := @takeAddress_frame
  have k1 := @takeAddress_inner
  simp only [setdasa, when]
  repeat' split
  all_goals simp [k0, k1]

@[simp] theorem rstdaa_inner (b : Ends) (s : State) :
    (rstdaa b s).evin.incfg = s.evin.incfg ∧ (rstdaa b s).evin.level = s.evin.level ∧
    (rstdaa b s).evin.syncLevel = s.evin.syncLevel ∧ (rstdaa b s).tt.ctl = s.tt.ctl ∧
    (rstdaa b s).tt.instA = s.tt.instA ∧ (rstdaa b s).tt.instB = s.tt.instB ∧ (rstdaa b s).tt.active = s.tt.active ∧
    (rstdaa b s).tt.activeValid = s.tt.activeValid ∧ (rstdaa b s).tt.startSec = s.tt.startSec ∧
    (rstdaa b s).tt.startFrac = s.tt.startFrac ∧ (rstdaa b s).tt.swPend = s.tt.swPend ∧
    (rstdaa b s).rtc.sec = s.rtc.sec ∧ (rstdaa b s).rtc.presc = s.rtc.presc ∧ (rstdaa b s).rtc.halted = s.rtc.halted ∧
    (rstdaa b s).rtc.trim = s.rtc.trim ∧ (rstdaa b s).rtc.offset = s.rtc.offset ∧ (rstdaa b s).rtc.dst = s.rtc.dst ∧
    (rstdaa b s).rtc.started = s.rtc.started ∧ (rstdaa b s).sys.phase = s.sys.phase ∧
    (rstdaa b s).sys.cfgState = s.sys.cfgState ∧ (rstdaa b s).sys.x32Run = s.sys.x32Run ∧
    (rstdaa b s).sys.measRst = s.sys.measRst ∧ (rstdaa b s).sys.lostCmds = s.sys.lostCmds ∧
    (rstdaa b s).sys.pstate = s.sys.pstate ∧ (rstdaa b s).pwr.trickle = s.pwr.trickle ∧
    (rstdaa b s).pwr.onVbat = s.pwr.onVbat ∧ (rstdaa b s).pwr.mainOn = s.pwr.mainOn ∧
    (rstdaa b s).pwr.aonOn = s.pwr.aonOn ∧ (rstdaa b s).pwr.warn = s.pwr.warn ∧ (rstdaa b s).pwr.ship = s.pwr.ship ∧
    (rstdaa b s).pwr.castleCount = s.pwr.castleCount ∧ (rstdaa b s).pwr.firstValid = s.pwr.firstValid ∧
    (rstdaa b s).pwr.firstSec = s.pwr.firstSec ∧ (rstdaa b s).pwr.firstFrac = s.pwr.firstFrac ∧
    (rstdaa b s).pwr.castlings = s.pwr.castlings ∧ (rstdaa b s).clk.src = s.clk.src ∧
    (rstdaa b s).clk.limits = s.clk.limits ∧ (rstdaa b s).clk.spread = s.clk.spread ∧
    (rstdaa b s).clk.active = s.clk.active ∧ (rstdaa b s).clk.plans = s.clk.plans ∧
    (rstdaa b s).clk.bypass = s.clk.bypass ∧ (rstdaa b s).clk.drift = s.clk.drift ∧ (rstdaa b s).clk.q = s.clk.q ∧
    (rstdaa b s).cond.arg0 = s.cond.arg0 ∧ (rstdaa b s).cond.arg1 = s.cond.arg1 ∧
    (rstdaa b s).cond.arg2 = s.cond.arg2 ∧ (rstdaa b s).cond.queue = s.cond.queue ∧
    (rstdaa b s).cond.running = s.cond.running ∧ (rstdaa b s).cond.head = s.cond.head ∧
    (rstdaa b s).cond.seq = s.cond.seq ∧ (rstdaa b s).cond.tail = s.cond.tail ∧
    (rstdaa b s).cond.switches = s.cond.switches ∧ (rstdaa b s).cond.inReset = s.cond.inReset ∧
    (rstdaa b s).ldg.ctl = s.ldg.ctl ∧ (rstdaa b s).ldg.run = s.ldg.run ∧ (rstdaa b s).ldg.cnt = s.ldg.cnt ∧
    (rstdaa b s).ldg.lap = s.ldg.lap ∧ (rstdaa b s).afe.ctl = s.afe.ctl ∧ (rstdaa b s).afe.eff = s.afe.eff ∧
    (rstdaa b s).afe.diag = s.afe.diag ∧ (rstdaa b s).out.cfg = s.out.cfg ∧ (rstdaa b s).out.gen = s.out.gen ∧
    (rstdaa b s).out.span = s.out.span ∧ (rstdaa b s).out.staged = s.out.staged ∧ (rstdaa b s).evt.mask = s.evt.mask ∧
    (rstdaa b s).evt.copy = s.evt.copy := by
  simp only [rstdaa, when]
  repeat' split
  all_goals simp

@[simp] theorem setIbi_inner (i : Ibis) (on_ : Bool) (b : Ends) (s : State) :
    (setIbi i on_ b s).evin.incfg = s.evin.incfg ∧ (setIbi i on_ b s).evin.level = s.evin.level ∧
    (setIbi i on_ b s).evin.syncLevel = s.evin.syncLevel ∧ (setIbi i on_ b s).tt.ctl = s.tt.ctl ∧
    (setIbi i on_ b s).tt.instA = s.tt.instA ∧ (setIbi i on_ b s).tt.instB = s.tt.instB ∧
    (setIbi i on_ b s).tt.active = s.tt.active ∧ (setIbi i on_ b s).tt.activeValid = s.tt.activeValid ∧
    (setIbi i on_ b s).tt.startSec = s.tt.startSec ∧ (setIbi i on_ b s).tt.startFrac = s.tt.startFrac ∧
    (setIbi i on_ b s).tt.swPend = s.tt.swPend ∧ (setIbi i on_ b s).rtc.sec = s.rtc.sec ∧
    (setIbi i on_ b s).rtc.presc = s.rtc.presc ∧ (setIbi i on_ b s).rtc.halted = s.rtc.halted ∧
    (setIbi i on_ b s).rtc.trim = s.rtc.trim ∧ (setIbi i on_ b s).rtc.offset = s.rtc.offset ∧
    (setIbi i on_ b s).rtc.dst = s.rtc.dst ∧ (setIbi i on_ b s).rtc.started = s.rtc.started ∧
    (setIbi i on_ b s).sys.phase = s.sys.phase ∧ (setIbi i on_ b s).sys.cfgState = s.sys.cfgState ∧
    (setIbi i on_ b s).sys.x32Run = s.sys.x32Run ∧ (setIbi i on_ b s).sys.measRst = s.sys.measRst ∧
    (setIbi i on_ b s).sys.lostCmds = s.sys.lostCmds ∧ (setIbi i on_ b s).sys.pstate = s.sys.pstate ∧
    (setIbi i on_ b s).pwr.trickle = s.pwr.trickle ∧ (setIbi i on_ b s).pwr.onVbat = s.pwr.onVbat ∧
    (setIbi i on_ b s).pwr.mainOn = s.pwr.mainOn ∧ (setIbi i on_ b s).pwr.aonOn = s.pwr.aonOn ∧
    (setIbi i on_ b s).pwr.warn = s.pwr.warn ∧ (setIbi i on_ b s).pwr.ship = s.pwr.ship ∧
    (setIbi i on_ b s).pwr.castleCount = s.pwr.castleCount ∧ (setIbi i on_ b s).pwr.firstValid = s.pwr.firstValid ∧
    (setIbi i on_ b s).pwr.firstSec = s.pwr.firstSec ∧ (setIbi i on_ b s).pwr.firstFrac = s.pwr.firstFrac ∧
    (setIbi i on_ b s).pwr.castlings = s.pwr.castlings ∧ (setIbi i on_ b s).clk.src = s.clk.src ∧
    (setIbi i on_ b s).clk.limits = s.clk.limits ∧ (setIbi i on_ b s).clk.spread = s.clk.spread ∧
    (setIbi i on_ b s).clk.active = s.clk.active ∧ (setIbi i on_ b s).clk.plans = s.clk.plans ∧
    (setIbi i on_ b s).clk.bypass = s.clk.bypass ∧ (setIbi i on_ b s).clk.drift = s.clk.drift ∧
    (setIbi i on_ b s).clk.q = s.clk.q ∧ (setIbi i on_ b s).cond.arg0 = s.cond.arg0 ∧
    (setIbi i on_ b s).cond.arg1 = s.cond.arg1 ∧ (setIbi i on_ b s).cond.arg2 = s.cond.arg2 ∧
    (setIbi i on_ b s).cond.queue = s.cond.queue ∧ (setIbi i on_ b s).cond.running = s.cond.running ∧
    (setIbi i on_ b s).cond.head = s.cond.head ∧ (setIbi i on_ b s).cond.seq = s.cond.seq ∧
    (setIbi i on_ b s).cond.tail = s.cond.tail ∧ (setIbi i on_ b s).cond.switches = s.cond.switches ∧
    (setIbi i on_ b s).cond.inReset = s.cond.inReset ∧ (setIbi i on_ b s).ldg.ctl = s.ldg.ctl ∧
    (setIbi i on_ b s).ldg.run = s.ldg.run ∧ (setIbi i on_ b s).ldg.cnt = s.ldg.cnt ∧
    (setIbi i on_ b s).ldg.lap = s.ldg.lap ∧ (setIbi i on_ b s).afe.ctl = s.afe.ctl ∧
    (setIbi i on_ b s).afe.eff = s.afe.eff ∧ (setIbi i on_ b s).afe.diag = s.afe.diag ∧
    (setIbi i on_ b s).out.cfg = s.out.cfg ∧ (setIbi i on_ b s).out.gen = s.out.gen ∧
    (setIbi i on_ b s).out.span = s.out.span ∧ (setIbi i on_ b s).out.staged = s.out.staged ∧
    (setIbi i on_ b s).evt.mask = s.evt.mask ∧ (setIbi i on_ b s).evt.copy = s.evt.copy := by
  simp only [setIbi, when]
  repeat' split
  all_goals simp

@[simp] theorem directAnswer_inner (b : Ends) (bs : State → List Byte) (s : State) :
    (directAnswer b bs s).evin.incfg = s.evin.incfg ∧ (directAnswer b bs s).evin.level = s.evin.level ∧
    (directAnswer b bs s).evin.syncLevel = s.evin.syncLevel ∧ (directAnswer b bs s).tt.ctl = s.tt.ctl ∧
    (directAnswer b bs s).tt.instA = s.tt.instA ∧ (directAnswer b bs s).tt.instB = s.tt.instB ∧
    (directAnswer b bs s).tt.active = s.tt.active ∧ (directAnswer b bs s).tt.activeValid = s.tt.activeValid ∧
    (directAnswer b bs s).tt.startSec = s.tt.startSec ∧ (directAnswer b bs s).tt.startFrac = s.tt.startFrac ∧
    (directAnswer b bs s).tt.swPend = s.tt.swPend ∧ (directAnswer b bs s).rtc.sec = s.rtc.sec ∧
    (directAnswer b bs s).rtc.presc = s.rtc.presc ∧ (directAnswer b bs s).rtc.halted = s.rtc.halted ∧
    (directAnswer b bs s).rtc.trim = s.rtc.trim ∧ (directAnswer b bs s).rtc.offset = s.rtc.offset ∧
    (directAnswer b bs s).rtc.dst = s.rtc.dst ∧ (directAnswer b bs s).rtc.started = s.rtc.started ∧
    (directAnswer b bs s).sys.phase = s.sys.phase ∧ (directAnswer b bs s).sys.cfgState = s.sys.cfgState ∧
    (directAnswer b bs s).sys.x32Run = s.sys.x32Run ∧ (directAnswer b bs s).sys.measRst = s.sys.measRst ∧
    (directAnswer b bs s).sys.lostCmds = s.sys.lostCmds ∧ (directAnswer b bs s).sys.pstate = s.sys.pstate ∧
    (directAnswer b bs s).pwr.trickle = s.pwr.trickle ∧ (directAnswer b bs s).pwr.onVbat = s.pwr.onVbat ∧
    (directAnswer b bs s).pwr.mainOn = s.pwr.mainOn ∧ (directAnswer b bs s).pwr.aonOn = s.pwr.aonOn ∧
    (directAnswer b bs s).pwr.warn = s.pwr.warn ∧ (directAnswer b bs s).pwr.ship = s.pwr.ship ∧
    (directAnswer b bs s).pwr.castleCount = s.pwr.castleCount ∧
    (directAnswer b bs s).pwr.firstValid = s.pwr.firstValid ∧ (directAnswer b bs s).pwr.firstSec = s.pwr.firstSec ∧
    (directAnswer b bs s).pwr.firstFrac = s.pwr.firstFrac ∧ (directAnswer b bs s).pwr.castlings = s.pwr.castlings ∧
    (directAnswer b bs s).clk.src = s.clk.src ∧ (directAnswer b bs s).clk.limits = s.clk.limits ∧
    (directAnswer b bs s).clk.spread = s.clk.spread ∧ (directAnswer b bs s).clk.active = s.clk.active ∧
    (directAnswer b bs s).clk.plans = s.clk.plans ∧ (directAnswer b bs s).clk.bypass = s.clk.bypass ∧
    (directAnswer b bs s).clk.drift = s.clk.drift ∧ (directAnswer b bs s).clk.q = s.clk.q ∧
    (directAnswer b bs s).cond.arg0 = s.cond.arg0 ∧ (directAnswer b bs s).cond.arg1 = s.cond.arg1 ∧
    (directAnswer b bs s).cond.arg2 = s.cond.arg2 ∧ (directAnswer b bs s).cond.queue = s.cond.queue ∧
    (directAnswer b bs s).cond.running = s.cond.running ∧ (directAnswer b bs s).cond.head = s.cond.head ∧
    (directAnswer b bs s).cond.seq = s.cond.seq ∧ (directAnswer b bs s).cond.tail = s.cond.tail ∧
    (directAnswer b bs s).cond.switches = s.cond.switches ∧ (directAnswer b bs s).cond.inReset = s.cond.inReset ∧
    (directAnswer b bs s).ldg.ctl = s.ldg.ctl ∧ (directAnswer b bs s).ldg.run = s.ldg.run ∧
    (directAnswer b bs s).ldg.cnt = s.ldg.cnt ∧ (directAnswer b bs s).ldg.lap = s.ldg.lap ∧
    (directAnswer b bs s).afe.ctl = s.afe.ctl ∧ (directAnswer b bs s).afe.eff = s.afe.eff ∧
    (directAnswer b bs s).afe.diag = s.afe.diag ∧ (directAnswer b bs s).out.cfg = s.out.cfg ∧
    (directAnswer b bs s).out.gen = s.out.gen ∧ (directAnswer b bs s).out.span = s.out.span ∧
    (directAnswer b bs s).out.staged = s.out.staged ∧ (directAnswer b bs s).evt.mask = s.evt.mask ∧
    (directAnswer b bs s).evt.copy = s.evt.copy := by
  simp only [directAnswer, when]
  repeat' split
  all_goals simp

@[simp] theorem getstatus_inner (b : Ends) (s : State) :
    (getstatus b s).evin.incfg = s.evin.incfg ∧ (getstatus b s).evin.level = s.evin.level ∧
    (getstatus b s).evin.syncLevel = s.evin.syncLevel ∧ (getstatus b s).tt.ctl = s.tt.ctl ∧
    (getstatus b s).tt.instA = s.tt.instA ∧ (getstatus b s).tt.instB = s.tt.instB ∧
    (getstatus b s).tt.active = s.tt.active ∧ (getstatus b s).tt.activeValid = s.tt.activeValid ∧
    (getstatus b s).tt.startSec = s.tt.startSec ∧ (getstatus b s).tt.startFrac = s.tt.startFrac ∧
    (getstatus b s).tt.swPend = s.tt.swPend ∧ (getstatus b s).rtc.sec = s.rtc.sec ∧
    (getstatus b s).rtc.presc = s.rtc.presc ∧ (getstatus b s).rtc.halted = s.rtc.halted ∧
    (getstatus b s).rtc.trim = s.rtc.trim ∧ (getstatus b s).rtc.offset = s.rtc.offset ∧
    (getstatus b s).rtc.dst = s.rtc.dst ∧ (getstatus b s).rtc.started = s.rtc.started ∧
    (getstatus b s).sys.phase = s.sys.phase ∧ (getstatus b s).sys.cfgState = s.sys.cfgState ∧
    (getstatus b s).sys.x32Run = s.sys.x32Run ∧ (getstatus b s).sys.measRst = s.sys.measRst ∧
    (getstatus b s).sys.lostCmds = s.sys.lostCmds ∧ (getstatus b s).sys.pstate = s.sys.pstate ∧
    (getstatus b s).pwr.trickle = s.pwr.trickle ∧ (getstatus b s).pwr.onVbat = s.pwr.onVbat ∧
    (getstatus b s).pwr.mainOn = s.pwr.mainOn ∧ (getstatus b s).pwr.aonOn = s.pwr.aonOn ∧
    (getstatus b s).pwr.warn = s.pwr.warn ∧ (getstatus b s).pwr.ship = s.pwr.ship ∧
    (getstatus b s).pwr.castleCount = s.pwr.castleCount ∧ (getstatus b s).pwr.firstValid = s.pwr.firstValid ∧
    (getstatus b s).pwr.firstSec = s.pwr.firstSec ∧ (getstatus b s).pwr.firstFrac = s.pwr.firstFrac ∧
    (getstatus b s).pwr.castlings = s.pwr.castlings ∧ (getstatus b s).clk.src = s.clk.src ∧
    (getstatus b s).clk.limits = s.clk.limits ∧ (getstatus b s).clk.spread = s.clk.spread ∧
    (getstatus b s).clk.active = s.clk.active ∧ (getstatus b s).clk.plans = s.clk.plans ∧
    (getstatus b s).clk.bypass = s.clk.bypass ∧ (getstatus b s).clk.drift = s.clk.drift ∧
    (getstatus b s).clk.q = s.clk.q ∧ (getstatus b s).cond.arg0 = s.cond.arg0 ∧
    (getstatus b s).cond.arg1 = s.cond.arg1 ∧ (getstatus b s).cond.arg2 = s.cond.arg2 ∧
    (getstatus b s).cond.queue = s.cond.queue ∧ (getstatus b s).cond.running = s.cond.running ∧
    (getstatus b s).cond.head = s.cond.head ∧ (getstatus b s).cond.seq = s.cond.seq ∧
    (getstatus b s).cond.tail = s.cond.tail ∧ (getstatus b s).cond.switches = s.cond.switches ∧
    (getstatus b s).cond.inReset = s.cond.inReset ∧ (getstatus b s).ldg.ctl = s.ldg.ctl ∧
    (getstatus b s).ldg.run = s.ldg.run ∧ (getstatus b s).ldg.cnt = s.ldg.cnt ∧ (getstatus b s).ldg.lap = s.ldg.lap ∧
    (getstatus b s).afe.ctl = s.afe.ctl ∧ (getstatus b s).afe.eff = s.afe.eff ∧
    (getstatus b s).afe.diag = s.afe.diag ∧ (getstatus b s).out.cfg = s.out.cfg ∧
    (getstatus b s).out.gen = s.out.gen ∧ (getstatus b s).out.span = s.out.span ∧
    (getstatus b s).out.staged = s.out.staged ∧ (getstatus b s).evt.mask = s.evt.mask ∧
    (getstatus b s).evt.copy = s.evt.copy := by
  simp only [getstatus, when]
  repeat' split
  all_goals simp

theorem unacknowledged_inner (s : State) :
    (unacknowledged s).hif.i3c = s.hif.i3c ∧ (unacknowledged s).hif.dynAddr = s.hif.dynAddr ∧
    (unacknowledged s).hif.crcEn = s.hif.crcEn ∧ (unacknowledged s).hif.txn = s.hif.txn ∧
    (unacknowledged s).hif.reply = s.hif.reply := by
  simp only [unacknowledged, when]
  repeat' split
  all_goals simp

@[simp] theorem unacknowledgedCcc_inner (b : Ends) (s : State) :
    (unacknowledgedCcc b s).evin.incfg = s.evin.incfg ∧ (unacknowledgedCcc b s).evin.level = s.evin.level ∧
    (unacknowledgedCcc b s).evin.syncLevel = s.evin.syncLevel ∧ (unacknowledgedCcc b s).tt.ctl = s.tt.ctl ∧
    (unacknowledgedCcc b s).tt.instA = s.tt.instA ∧ (unacknowledgedCcc b s).tt.instB = s.tt.instB ∧
    (unacknowledgedCcc b s).tt.active = s.tt.active ∧ (unacknowledgedCcc b s).tt.activeValid = s.tt.activeValid ∧
    (unacknowledgedCcc b s).tt.startSec = s.tt.startSec ∧ (unacknowledgedCcc b s).tt.startFrac = s.tt.startFrac ∧
    (unacknowledgedCcc b s).tt.swPend = s.tt.swPend ∧ (unacknowledgedCcc b s).rtc.sec = s.rtc.sec ∧
    (unacknowledgedCcc b s).rtc.presc = s.rtc.presc ∧ (unacknowledgedCcc b s).rtc.halted = s.rtc.halted ∧
    (unacknowledgedCcc b s).rtc.trim = s.rtc.trim ∧ (unacknowledgedCcc b s).rtc.offset = s.rtc.offset ∧
    (unacknowledgedCcc b s).rtc.dst = s.rtc.dst ∧ (unacknowledgedCcc b s).rtc.started = s.rtc.started ∧
    (unacknowledgedCcc b s).sys.phase = s.sys.phase ∧ (unacknowledgedCcc b s).sys.cfgState = s.sys.cfgState ∧
    (unacknowledgedCcc b s).sys.x32Run = s.sys.x32Run ∧ (unacknowledgedCcc b s).sys.measRst = s.sys.measRst ∧
    (unacknowledgedCcc b s).sys.lostCmds = s.sys.lostCmds ∧ (unacknowledgedCcc b s).sys.pstate = s.sys.pstate ∧
    (unacknowledgedCcc b s).pwr.trickle = s.pwr.trickle ∧ (unacknowledgedCcc b s).pwr.onVbat = s.pwr.onVbat ∧
    (unacknowledgedCcc b s).pwr.mainOn = s.pwr.mainOn ∧ (unacknowledgedCcc b s).pwr.aonOn = s.pwr.aonOn ∧
    (unacknowledgedCcc b s).pwr.warn = s.pwr.warn ∧ (unacknowledgedCcc b s).pwr.ship = s.pwr.ship ∧
    (unacknowledgedCcc b s).pwr.castleCount = s.pwr.castleCount ∧
    (unacknowledgedCcc b s).pwr.firstValid = s.pwr.firstValid ∧
    (unacknowledgedCcc b s).pwr.firstSec = s.pwr.firstSec ∧ (unacknowledgedCcc b s).pwr.firstFrac = s.pwr.firstFrac ∧
    (unacknowledgedCcc b s).pwr.castlings = s.pwr.castlings ∧ (unacknowledgedCcc b s).clk.src = s.clk.src ∧
    (unacknowledgedCcc b s).clk.limits = s.clk.limits ∧ (unacknowledgedCcc b s).clk.spread = s.clk.spread ∧
    (unacknowledgedCcc b s).clk.active = s.clk.active ∧ (unacknowledgedCcc b s).clk.plans = s.clk.plans ∧
    (unacknowledgedCcc b s).clk.bypass = s.clk.bypass ∧ (unacknowledgedCcc b s).clk.drift = s.clk.drift ∧
    (unacknowledgedCcc b s).clk.q = s.clk.q ∧ (unacknowledgedCcc b s).cond.arg0 = s.cond.arg0 ∧
    (unacknowledgedCcc b s).cond.arg1 = s.cond.arg1 ∧ (unacknowledgedCcc b s).cond.arg2 = s.cond.arg2 ∧
    (unacknowledgedCcc b s).cond.queue = s.cond.queue ∧ (unacknowledgedCcc b s).cond.running = s.cond.running ∧
    (unacknowledgedCcc b s).cond.head = s.cond.head ∧ (unacknowledgedCcc b s).cond.seq = s.cond.seq ∧
    (unacknowledgedCcc b s).cond.tail = s.cond.tail ∧ (unacknowledgedCcc b s).cond.switches = s.cond.switches ∧
    (unacknowledgedCcc b s).cond.inReset = s.cond.inReset ∧ (unacknowledgedCcc b s).ldg.ctl = s.ldg.ctl ∧
    (unacknowledgedCcc b s).ldg.run = s.ldg.run ∧ (unacknowledgedCcc b s).ldg.cnt = s.ldg.cnt ∧
    (unacknowledgedCcc b s).ldg.lap = s.ldg.lap ∧ (unacknowledgedCcc b s).afe.ctl = s.afe.ctl ∧
    (unacknowledgedCcc b s).afe.eff = s.afe.eff ∧ (unacknowledgedCcc b s).afe.diag = s.afe.diag ∧
    (unacknowledgedCcc b s).out.cfg = s.out.cfg ∧ (unacknowledgedCcc b s).out.gen = s.out.gen ∧
    (unacknowledgedCcc b s).out.span = s.out.span ∧ (unacknowledgedCcc b s).out.staged = s.out.staged ∧
    (unacknowledgedCcc b s).evt.mask = s.evt.mask ∧ (unacknowledgedCcc b s).evt.copy = s.evt.copy := by
  have k0 := @unacknowledged_frame
  have k1 := @unacknowledged_inner
  simp only [unacknowledgedCcc, when]
  repeat' split
  all_goals simp [k0, k1]

theorem armAction_inner (direct : Bool) (d : Byte) (s : State) :
    (armAction direct d s).hif.i3c = s.hif.i3c ∧ (armAction direct d s).hif.dynAddr = s.hif.dynAddr ∧
    (armAction direct d s).hif.crcEn = s.hif.crcEn ∧ (armAction direct d s).hif.txn = s.hif.txn ∧
    (armAction direct d s).hif.reply = s.hif.reply := by
  have k0 := @unacknowledged_frame
  have k1 := @unacknowledged_inner
  simp only [armAction, when]
  repeat' split
  all_goals simp [k0, k1]

@[simp] theorem rstact_inner (dev : Option (BitVec 7)) (d : Byte) (b : Ends) (s : State) :
    (rstact dev d b s).evin.incfg = s.evin.incfg ∧ (rstact dev d b s).evin.level = s.evin.level ∧
    (rstact dev d b s).evin.syncLevel = s.evin.syncLevel ∧ (rstact dev d b s).tt.ctl = s.tt.ctl ∧
    (rstact dev d b s).tt.instA = s.tt.instA ∧ (rstact dev d b s).tt.instB = s.tt.instB ∧
    (rstact dev d b s).tt.active = s.tt.active ∧ (rstact dev d b s).tt.activeValid = s.tt.activeValid ∧
    (rstact dev d b s).tt.startSec = s.tt.startSec ∧ (rstact dev d b s).tt.startFrac = s.tt.startFrac ∧
    (rstact dev d b s).tt.swPend = s.tt.swPend ∧ (rstact dev d b s).rtc.sec = s.rtc.sec ∧
    (rstact dev d b s).rtc.presc = s.rtc.presc ∧ (rstact dev d b s).rtc.halted = s.rtc.halted ∧
    (rstact dev d b s).rtc.trim = s.rtc.trim ∧ (rstact dev d b s).rtc.offset = s.rtc.offset ∧
    (rstact dev d b s).rtc.dst = s.rtc.dst ∧ (rstact dev d b s).rtc.started = s.rtc.started ∧
    (rstact dev d b s).sys.phase = s.sys.phase ∧ (rstact dev d b s).sys.cfgState = s.sys.cfgState ∧
    (rstact dev d b s).sys.x32Run = s.sys.x32Run ∧ (rstact dev d b s).sys.measRst = s.sys.measRst ∧
    (rstact dev d b s).sys.lostCmds = s.sys.lostCmds ∧ (rstact dev d b s).sys.pstate = s.sys.pstate ∧
    (rstact dev d b s).pwr.trickle = s.pwr.trickle ∧ (rstact dev d b s).pwr.onVbat = s.pwr.onVbat ∧
    (rstact dev d b s).pwr.mainOn = s.pwr.mainOn ∧ (rstact dev d b s).pwr.aonOn = s.pwr.aonOn ∧
    (rstact dev d b s).pwr.warn = s.pwr.warn ∧ (rstact dev d b s).pwr.ship = s.pwr.ship ∧
    (rstact dev d b s).pwr.castleCount = s.pwr.castleCount ∧ (rstact dev d b s).pwr.firstValid = s.pwr.firstValid ∧
    (rstact dev d b s).pwr.firstSec = s.pwr.firstSec ∧ (rstact dev d b s).pwr.firstFrac = s.pwr.firstFrac ∧
    (rstact dev d b s).pwr.castlings = s.pwr.castlings ∧ (rstact dev d b s).clk.src = s.clk.src ∧
    (rstact dev d b s).clk.limits = s.clk.limits ∧ (rstact dev d b s).clk.spread = s.clk.spread ∧
    (rstact dev d b s).clk.active = s.clk.active ∧ (rstact dev d b s).clk.plans = s.clk.plans ∧
    (rstact dev d b s).clk.bypass = s.clk.bypass ∧ (rstact dev d b s).clk.drift = s.clk.drift ∧
    (rstact dev d b s).clk.q = s.clk.q ∧ (rstact dev d b s).cond.arg0 = s.cond.arg0 ∧
    (rstact dev d b s).cond.arg1 = s.cond.arg1 ∧ (rstact dev d b s).cond.arg2 = s.cond.arg2 ∧
    (rstact dev d b s).cond.queue = s.cond.queue ∧ (rstact dev d b s).cond.running = s.cond.running ∧
    (rstact dev d b s).cond.head = s.cond.head ∧ (rstact dev d b s).cond.seq = s.cond.seq ∧
    (rstact dev d b s).cond.tail = s.cond.tail ∧ (rstact dev d b s).cond.switches = s.cond.switches ∧
    (rstact dev d b s).cond.inReset = s.cond.inReset ∧ (rstact dev d b s).ldg.ctl = s.ldg.ctl ∧
    (rstact dev d b s).ldg.run = s.ldg.run ∧ (rstact dev d b s).ldg.cnt = s.ldg.cnt ∧
    (rstact dev d b s).ldg.lap = s.ldg.lap ∧ (rstact dev d b s).afe.ctl = s.afe.ctl ∧
    (rstact dev d b s).afe.eff = s.afe.eff ∧ (rstact dev d b s).afe.diag = s.afe.diag ∧
    (rstact dev d b s).out.cfg = s.out.cfg ∧ (rstact dev d b s).out.gen = s.out.gen ∧
    (rstact dev d b s).out.span = s.out.span ∧ (rstact dev d b s).out.staged = s.out.staged ∧
    (rstact dev d b s).evt.mask = s.evt.mask ∧ (rstact dev d b s).evt.copy = s.evt.copy := by
  have k0 := @armAction_frame
  have k1 := @armAction_inner
  simp only [rstact, when]
  repeat' split
  all_goals simp [k0, k1]

@[simp] theorem enthdr_inner (b : Ends) (s : State) :
    (enthdr b s).evin.incfg = s.evin.incfg ∧ (enthdr b s).evin.level = s.evin.level ∧
    (enthdr b s).evin.syncLevel = s.evin.syncLevel ∧ (enthdr b s).tt.ctl = s.tt.ctl ∧
    (enthdr b s).tt.instA = s.tt.instA ∧ (enthdr b s).tt.instB = s.tt.instB ∧ (enthdr b s).tt.active = s.tt.active ∧
    (enthdr b s).tt.activeValid = s.tt.activeValid ∧ (enthdr b s).tt.startSec = s.tt.startSec ∧
    (enthdr b s).tt.startFrac = s.tt.startFrac ∧ (enthdr b s).tt.swPend = s.tt.swPend ∧
    (enthdr b s).rtc.sec = s.rtc.sec ∧ (enthdr b s).rtc.presc = s.rtc.presc ∧ (enthdr b s).rtc.halted = s.rtc.halted ∧
    (enthdr b s).rtc.trim = s.rtc.trim ∧ (enthdr b s).rtc.offset = s.rtc.offset ∧ (enthdr b s).rtc.dst = s.rtc.dst ∧
    (enthdr b s).rtc.started = s.rtc.started ∧ (enthdr b s).sys.phase = s.sys.phase ∧
    (enthdr b s).sys.cfgState = s.sys.cfgState ∧ (enthdr b s).sys.x32Run = s.sys.x32Run ∧
    (enthdr b s).sys.measRst = s.sys.measRst ∧ (enthdr b s).sys.lostCmds = s.sys.lostCmds ∧
    (enthdr b s).sys.pstate = s.sys.pstate ∧ (enthdr b s).pwr.trickle = s.pwr.trickle ∧
    (enthdr b s).pwr.onVbat = s.pwr.onVbat ∧ (enthdr b s).pwr.mainOn = s.pwr.mainOn ∧
    (enthdr b s).pwr.aonOn = s.pwr.aonOn ∧ (enthdr b s).pwr.warn = s.pwr.warn ∧ (enthdr b s).pwr.ship = s.pwr.ship ∧
    (enthdr b s).pwr.castleCount = s.pwr.castleCount ∧ (enthdr b s).pwr.firstValid = s.pwr.firstValid ∧
    (enthdr b s).pwr.firstSec = s.pwr.firstSec ∧ (enthdr b s).pwr.firstFrac = s.pwr.firstFrac ∧
    (enthdr b s).pwr.castlings = s.pwr.castlings ∧ (enthdr b s).clk.src = s.clk.src ∧
    (enthdr b s).clk.limits = s.clk.limits ∧ (enthdr b s).clk.spread = s.clk.spread ∧
    (enthdr b s).clk.active = s.clk.active ∧ (enthdr b s).clk.plans = s.clk.plans ∧
    (enthdr b s).clk.bypass = s.clk.bypass ∧ (enthdr b s).clk.drift = s.clk.drift ∧ (enthdr b s).clk.q = s.clk.q ∧
    (enthdr b s).cond.arg0 = s.cond.arg0 ∧ (enthdr b s).cond.arg1 = s.cond.arg1 ∧
    (enthdr b s).cond.arg2 = s.cond.arg2 ∧ (enthdr b s).cond.queue = s.cond.queue ∧
    (enthdr b s).cond.running = s.cond.running ∧ (enthdr b s).cond.head = s.cond.head ∧
    (enthdr b s).cond.seq = s.cond.seq ∧ (enthdr b s).cond.tail = s.cond.tail ∧
    (enthdr b s).cond.switches = s.cond.switches ∧ (enthdr b s).cond.inReset = s.cond.inReset ∧
    (enthdr b s).ldg.ctl = s.ldg.ctl ∧ (enthdr b s).ldg.run = s.ldg.run ∧ (enthdr b s).ldg.cnt = s.ldg.cnt ∧
    (enthdr b s).ldg.lap = s.ldg.lap ∧ (enthdr b s).afe.ctl = s.afe.ctl ∧ (enthdr b s).afe.eff = s.afe.eff ∧
    (enthdr b s).afe.diag = s.afe.diag ∧ (enthdr b s).out.cfg = s.out.cfg ∧ (enthdr b s).out.gen = s.out.gen ∧
    (enthdr b s).out.span = s.out.span ∧ (enthdr b s).out.staged = s.out.staged ∧ (enthdr b s).evt.mask = s.evt.mask ∧
    (enthdr b s).evt.copy = s.evt.copy := by
  simp only [enthdr, when]
  repeat' split
  all_goals simp

@[simp] theorem hdrExit_inner (s : State) :
    (hdrExit s).evin.incfg = s.evin.incfg ∧ (hdrExit s).evin.level = s.evin.level ∧
    (hdrExit s).evin.syncLevel = s.evin.syncLevel ∧ (hdrExit s).tt.ctl = s.tt.ctl ∧
    (hdrExit s).tt.instA = s.tt.instA ∧ (hdrExit s).tt.instB = s.tt.instB ∧ (hdrExit s).tt.active = s.tt.active ∧
    (hdrExit s).tt.activeValid = s.tt.activeValid ∧ (hdrExit s).tt.startSec = s.tt.startSec ∧
    (hdrExit s).tt.startFrac = s.tt.startFrac ∧ (hdrExit s).tt.swPend = s.tt.swPend ∧
    (hdrExit s).rtc.sec = s.rtc.sec ∧ (hdrExit s).rtc.presc = s.rtc.presc ∧ (hdrExit s).rtc.halted = s.rtc.halted ∧
    (hdrExit s).rtc.trim = s.rtc.trim ∧ (hdrExit s).rtc.offset = s.rtc.offset ∧ (hdrExit s).rtc.dst = s.rtc.dst ∧
    (hdrExit s).rtc.started = s.rtc.started ∧ (hdrExit s).sys.phase = s.sys.phase ∧
    (hdrExit s).sys.cfgState = s.sys.cfgState ∧ (hdrExit s).sys.x32Run = s.sys.x32Run ∧
    (hdrExit s).sys.measRst = s.sys.measRst ∧ (hdrExit s).sys.lostCmds = s.sys.lostCmds ∧
    (hdrExit s).sys.pstate = s.sys.pstate ∧ (hdrExit s).pwr.trickle = s.pwr.trickle ∧
    (hdrExit s).pwr.onVbat = s.pwr.onVbat ∧ (hdrExit s).pwr.mainOn = s.pwr.mainOn ∧
    (hdrExit s).pwr.aonOn = s.pwr.aonOn ∧ (hdrExit s).pwr.warn = s.pwr.warn ∧ (hdrExit s).pwr.ship = s.pwr.ship ∧
    (hdrExit s).pwr.castleCount = s.pwr.castleCount ∧ (hdrExit s).pwr.firstValid = s.pwr.firstValid ∧
    (hdrExit s).pwr.firstSec = s.pwr.firstSec ∧ (hdrExit s).pwr.firstFrac = s.pwr.firstFrac ∧
    (hdrExit s).pwr.castlings = s.pwr.castlings ∧ (hdrExit s).cond.arg0 = s.cond.arg0 ∧
    (hdrExit s).cond.arg1 = s.cond.arg1 ∧ (hdrExit s).cond.arg2 = s.cond.arg2 ∧
    (hdrExit s).cond.queue = s.cond.queue ∧ (hdrExit s).cond.running = s.cond.running ∧
    (hdrExit s).cond.head = s.cond.head ∧ (hdrExit s).cond.seq = s.cond.seq ∧ (hdrExit s).cond.tail = s.cond.tail ∧
    (hdrExit s).cond.switches = s.cond.switches ∧ (hdrExit s).cond.inReset = s.cond.inReset ∧
    (hdrExit s).ldg.ctl = s.ldg.ctl ∧ (hdrExit s).ldg.run = s.ldg.run ∧ (hdrExit s).ldg.cnt = s.ldg.cnt ∧
    (hdrExit s).ldg.lap = s.ldg.lap ∧ (hdrExit s).evt.mask = s.evt.mask ∧ (hdrExit s).evt.copy = s.evt.copy := by
  simp only [hdrExit, when]
  repeat' split
  all_goals simp

@[simp] theorem hifResetRow_inner (s : State) :
    (hifResetRow s).evin.incfg = s.evin.incfg ∧ (hifResetRow s).evin.level = s.evin.level ∧
    (hifResetRow s).evin.syncLevel = s.evin.syncLevel ∧ (hifResetRow s).tt.ctl = s.tt.ctl ∧
    (hifResetRow s).tt.instA = s.tt.instA ∧ (hifResetRow s).tt.instB = s.tt.instB ∧
    (hifResetRow s).tt.active = s.tt.active ∧ (hifResetRow s).tt.activeValid = s.tt.activeValid ∧
    (hifResetRow s).tt.startSec = s.tt.startSec ∧ (hifResetRow s).tt.startFrac = s.tt.startFrac ∧
    (hifResetRow s).tt.swPend = s.tt.swPend ∧ (hifResetRow s).rtc.sec = s.rtc.sec ∧
    (hifResetRow s).rtc.presc = s.rtc.presc ∧ (hifResetRow s).rtc.halted = s.rtc.halted ∧
    (hifResetRow s).rtc.trim = s.rtc.trim ∧ (hifResetRow s).rtc.offset = s.rtc.offset ∧
    (hifResetRow s).rtc.dst = s.rtc.dst ∧ (hifResetRow s).rtc.started = s.rtc.started ∧
    (hifResetRow s).sys.phase = s.sys.phase ∧ (hifResetRow s).sys.cfgState = s.sys.cfgState ∧
    (hifResetRow s).sys.x32Run = s.sys.x32Run ∧ (hifResetRow s).sys.measRst = s.sys.measRst ∧
    (hifResetRow s).sys.lostCmds = s.sys.lostCmds ∧ (hifResetRow s).sys.pstate = s.sys.pstate ∧
    (hifResetRow s).pwr.trickle = s.pwr.trickle ∧ (hifResetRow s).pwr.onVbat = s.pwr.onVbat ∧
    (hifResetRow s).pwr.mainOn = s.pwr.mainOn ∧ (hifResetRow s).pwr.aonOn = s.pwr.aonOn ∧
    (hifResetRow s).pwr.warn = s.pwr.warn ∧ (hifResetRow s).pwr.ship = s.pwr.ship ∧
    (hifResetRow s).pwr.castleCount = s.pwr.castleCount ∧ (hifResetRow s).pwr.firstValid = s.pwr.firstValid ∧
    (hifResetRow s).pwr.firstSec = s.pwr.firstSec ∧ (hifResetRow s).pwr.firstFrac = s.pwr.firstFrac ∧
    (hifResetRow s).pwr.castlings = s.pwr.castlings ∧ (hifResetRow s).cond.arg0 = s.cond.arg0 ∧
    (hifResetRow s).cond.arg1 = s.cond.arg1 ∧ (hifResetRow s).cond.arg2 = s.cond.arg2 ∧
    (hifResetRow s).cond.queue = s.cond.queue ∧ (hifResetRow s).cond.running = s.cond.running ∧
    (hifResetRow s).cond.head = s.cond.head ∧ (hifResetRow s).cond.seq = s.cond.seq ∧
    (hifResetRow s).cond.tail = s.cond.tail ∧ (hifResetRow s).cond.switches = s.cond.switches ∧
    (hifResetRow s).cond.inReset = s.cond.inReset ∧ (hifResetRow s).ldg.ctl = s.ldg.ctl ∧
    (hifResetRow s).ldg.run = s.ldg.run ∧ (hifResetRow s).ldg.cnt = s.ldg.cnt ∧ (hifResetRow s).ldg.lap = s.ldg.lap ∧
    (hifResetRow s).evt.mask = s.evt.mask ∧ (hifResetRow s).evt.copy = s.evt.copy := by
  have k0 := @hifReset_frame
  have k1 := @hifReset_inner
  simp only [hifResetRow, when]
  repeat' split
  all_goals simp [k0, k1]

@[simp] theorem targetReset_inner (s : State) :
    (targetReset s).rtc.sec = s.rtc.sec ∧ (targetReset s).rtc.presc = s.rtc.presc ∧
    (targetReset s).rtc.halted = s.rtc.halted ∧ (targetReset s).rtc.trim = s.rtc.trim ∧
    (targetReset s).rtc.offset = s.rtc.offset ∧ (targetReset s).rtc.dst = s.rtc.dst ∧
    (targetReset s).rtc.started = s.rtc.started ∧ (targetReset s).sys.x32Run = s.sys.x32Run ∧
    (targetReset s).pwr.trickle = s.pwr.trickle ∧ (targetReset s).pwr.onVbat = s.pwr.onVbat ∧
    (targetReset s).pwr.mainOn = s.pwr.mainOn ∧ (targetReset s).pwr.aonOn = s.pwr.aonOn ∧
    (targetReset s).pwr.ship = s.pwr.ship ∧ (targetReset s).pwr.castleCount = s.pwr.castleCount ∧
    (targetReset s).pwr.firstValid = s.pwr.firstValid ∧ (targetReset s).pwr.firstSec = s.pwr.firstSec ∧
    (targetReset s).pwr.firstFrac = s.pwr.firstFrac ∧ (targetReset s).pwr.castlings = s.pwr.castlings ∧
    (targetReset s).evt.copy = s.evt.copy := by
  have k0 := @hifReset_frame
  have k1 := @hifReset_inner
  have k2 := @rstactReset_frame
  have k3 := @rstactReset_inner
  simp only [targetReset, when]
  repeat' split
  all_goals simp [k0, k1, k2, k3]

theorem ibiBegin_inner (s : State) :
    (ibiBegin s).evin.incfg = s.evin.incfg ∧ (ibiBegin s).evin.level = s.evin.level ∧
    (ibiBegin s).evin.syncLevel = s.evin.syncLevel ∧ (ibiBegin s).tt.ctl = s.tt.ctl ∧
    (ibiBegin s).tt.instA = s.tt.instA ∧ (ibiBegin s).tt.instB = s.tt.instB ∧ (ibiBegin s).tt.active = s.tt.active ∧
    (ibiBegin s).tt.activeValid = s.tt.activeValid ∧ (ibiBegin s).tt.startSec = s.tt.startSec ∧
    (ibiBegin s).tt.startFrac = s.tt.startFrac ∧ (ibiBegin s).tt.swPend = s.tt.swPend ∧
    (ibiBegin s).rtc.sec = s.rtc.sec ∧ (ibiBegin s).rtc.presc = s.rtc.presc ∧ (ibiBegin s).rtc.halted = s.rtc.halted ∧
    (ibiBegin s).rtc.trim = s.rtc.trim ∧ (ibiBegin s).rtc.offset = s.rtc.offset ∧ (ibiBegin s).rtc.dst = s.rtc.dst ∧
    (ibiBegin s).rtc.started = s.rtc.started ∧ (ibiBegin s).sys.phase = s.sys.phase ∧
    (ibiBegin s).sys.cfgState = s.sys.cfgState ∧ (ibiBegin s).sys.x32Run = s.sys.x32Run ∧
    (ibiBegin s).sys.measRst = s.sys.measRst ∧ (ibiBegin s).sys.lostCmds = s.sys.lostCmds ∧
    (ibiBegin s).sys.pstate = s.sys.pstate ∧ (ibiBegin s).pwr.trickle = s.pwr.trickle ∧
    (ibiBegin s).pwr.onVbat = s.pwr.onVbat ∧ (ibiBegin s).pwr.mainOn = s.pwr.mainOn ∧
    (ibiBegin s).pwr.aonOn = s.pwr.aonOn ∧ (ibiBegin s).pwr.warn = s.pwr.warn ∧ (ibiBegin s).pwr.ship = s.pwr.ship ∧
    (ibiBegin s).pwr.castleCount = s.pwr.castleCount ∧ (ibiBegin s).pwr.firstValid = s.pwr.firstValid ∧
    (ibiBegin s).pwr.firstSec = s.pwr.firstSec ∧ (ibiBegin s).pwr.firstFrac = s.pwr.firstFrac ∧
    (ibiBegin s).pwr.castlings = s.pwr.castlings ∧ (ibiBegin s).cond.arg0 = s.cond.arg0 ∧
    (ibiBegin s).cond.arg1 = s.cond.arg1 ∧ (ibiBegin s).cond.arg2 = s.cond.arg2 ∧
    (ibiBegin s).cond.queue = s.cond.queue ∧ (ibiBegin s).cond.running = s.cond.running ∧
    (ibiBegin s).cond.head = s.cond.head ∧ (ibiBegin s).cond.seq = s.cond.seq ∧ (ibiBegin s).cond.tail = s.cond.tail ∧
    (ibiBegin s).cond.switches = s.cond.switches ∧ (ibiBegin s).cond.inReset = s.cond.inReset ∧
    (ibiBegin s).ldg.ctl = s.ldg.ctl ∧ (ibiBegin s).ldg.run = s.ldg.run ∧ (ibiBegin s).ldg.cnt = s.ldg.cnt ∧
    (ibiBegin s).ldg.lap = s.ldg.lap ∧ (ibiBegin s).evt.mask = s.evt.mask ∧ (ibiBegin s).evt.copy = s.evt.copy := by
  have k0 := @beginXfer_frame
  have k1 := @beginXfer_inner
  simp only [ibiBegin, when]
  repeat' split
  all_goals simp [k0, k1]

@[simp] theorem ibiRequest_inner (s : State) :
    (ibiRequest s).evin.incfg = s.evin.incfg ∧ (ibiRequest s).evin.level = s.evin.level ∧
    (ibiRequest s).evin.syncLevel = s.evin.syncLevel ∧ (ibiRequest s).tt.ctl = s.tt.ctl ∧
    (ibiRequest s).tt.instA = s.tt.instA ∧ (ibiRequest s).tt.instB = s.tt.instB ∧
    (ibiRequest s).tt.active = s.tt.active ∧ (ibiRequest s).tt.activeValid = s.tt.activeValid ∧
    (ibiRequest s).tt.startSec = s.tt.startSec ∧ (ibiRequest s).tt.startFrac = s.tt.startFrac ∧
    (ibiRequest s).tt.swPend = s.tt.swPend ∧ (ibiRequest s).rtc.sec = s.rtc.sec ∧
    (ibiRequest s).rtc.presc = s.rtc.presc ∧ (ibiRequest s).rtc.halted = s.rtc.halted ∧
    (ibiRequest s).rtc.trim = s.rtc.trim ∧ (ibiRequest s).rtc.offset = s.rtc.offset ∧
    (ibiRequest s).rtc.dst = s.rtc.dst ∧ (ibiRequest s).rtc.started = s.rtc.started ∧
    (ibiRequest s).sys.phase = s.sys.phase ∧ (ibiRequest s).sys.cfgState = s.sys.cfgState ∧
    (ibiRequest s).sys.x32Run = s.sys.x32Run ∧ (ibiRequest s).sys.measRst = s.sys.measRst ∧
    (ibiRequest s).sys.lostCmds = s.sys.lostCmds ∧ (ibiRequest s).sys.pstate = s.sys.pstate ∧
    (ibiRequest s).pwr.trickle = s.pwr.trickle ∧ (ibiRequest s).pwr.onVbat = s.pwr.onVbat ∧
    (ibiRequest s).pwr.mainOn = s.pwr.mainOn ∧ (ibiRequest s).pwr.aonOn = s.pwr.aonOn ∧
    (ibiRequest s).pwr.warn = s.pwr.warn ∧ (ibiRequest s).pwr.ship = s.pwr.ship ∧
    (ibiRequest s).pwr.castleCount = s.pwr.castleCount ∧ (ibiRequest s).pwr.firstValid = s.pwr.firstValid ∧
    (ibiRequest s).pwr.firstSec = s.pwr.firstSec ∧ (ibiRequest s).pwr.firstFrac = s.pwr.firstFrac ∧
    (ibiRequest s).pwr.castlings = s.pwr.castlings ∧ (ibiRequest s).cond.arg0 = s.cond.arg0 ∧
    (ibiRequest s).cond.arg1 = s.cond.arg1 ∧ (ibiRequest s).cond.arg2 = s.cond.arg2 ∧
    (ibiRequest s).cond.queue = s.cond.queue ∧ (ibiRequest s).cond.running = s.cond.running ∧
    (ibiRequest s).cond.head = s.cond.head ∧ (ibiRequest s).cond.seq = s.cond.seq ∧
    (ibiRequest s).cond.tail = s.cond.tail ∧ (ibiRequest s).cond.switches = s.cond.switches ∧
    (ibiRequest s).cond.inReset = s.cond.inReset ∧ (ibiRequest s).ldg.ctl = s.ldg.ctl ∧
    (ibiRequest s).ldg.run = s.ldg.run ∧ (ibiRequest s).ldg.cnt = s.ldg.cnt ∧ (ibiRequest s).ldg.lap = s.ldg.lap ∧
    (ibiRequest s).evt.mask = s.evt.mask ∧ (ibiRequest s).evt.copy = s.evt.copy := by
  have k0 := @ibiBegin_frame
  have k1 := @ibiBegin_inner
  simp only [ibiRequest, when]
  repeat' split
  all_goals simp [k0, k1]

theorem ibiOver_inner (stop : Bool) (s : State) :
    (ibiOver stop s).evin.incfg = s.evin.incfg ∧ (ibiOver stop s).evin.level = s.evin.level ∧
    (ibiOver stop s).evin.syncLevel = s.evin.syncLevel ∧ (ibiOver stop s).tt.ctl = s.tt.ctl ∧
    (ibiOver stop s).tt.instA = s.tt.instA ∧ (ibiOver stop s).tt.instB = s.tt.instB ∧
    (ibiOver stop s).tt.active = s.tt.active ∧ (ibiOver stop s).tt.activeValid = s.tt.activeValid ∧
    (ibiOver stop s).tt.startSec = s.tt.startSec ∧ (ibiOver stop s).tt.startFrac = s.tt.startFrac ∧
    (ibiOver stop s).tt.swPend = s.tt.swPend ∧ (ibiOver stop s).rtc.sec = s.rtc.sec ∧
    (ibiOver stop s).rtc.presc = s.rtc.presc ∧ (ibiOver stop s).rtc.halted = s.rtc.halted ∧
    (ibiOver stop s).rtc.trim = s.rtc.trim ∧ (ibiOver stop s).rtc.offset = s.rtc.offset ∧
    (ibiOver stop s).rtc.dst = s.rtc.dst ∧ (ibiOver stop s).rtc.started = s.rtc.started ∧
    (ibiOver stop s).sys.phase = s.sys.phase ∧ (ibiOver stop s).sys.cfgState = s.sys.cfgState ∧
    (ibiOver stop s).sys.x32Run = s.sys.x32Run ∧ (ibiOver stop s).sys.measRst = s.sys.measRst ∧
    (ibiOver stop s).sys.lostCmds = s.sys.lostCmds ∧ (ibiOver stop s).sys.pstate = s.sys.pstate ∧
    (ibiOver stop s).pwr.trickle = s.pwr.trickle ∧ (ibiOver stop s).pwr.onVbat = s.pwr.onVbat ∧
    (ibiOver stop s).pwr.mainOn = s.pwr.mainOn ∧ (ibiOver stop s).pwr.aonOn = s.pwr.aonOn ∧
    (ibiOver stop s).pwr.warn = s.pwr.warn ∧ (ibiOver stop s).pwr.ship = s.pwr.ship ∧
    (ibiOver stop s).pwr.castleCount = s.pwr.castleCount ∧ (ibiOver stop s).pwr.firstValid = s.pwr.firstValid ∧
    (ibiOver stop s).pwr.firstSec = s.pwr.firstSec ∧ (ibiOver stop s).pwr.firstFrac = s.pwr.firstFrac ∧
    (ibiOver stop s).pwr.castlings = s.pwr.castlings ∧ (ibiOver stop s).cond.arg0 = s.cond.arg0 ∧
    (ibiOver stop s).cond.arg1 = s.cond.arg1 ∧ (ibiOver stop s).cond.arg2 = s.cond.arg2 ∧
    (ibiOver stop s).cond.queue = s.cond.queue ∧ (ibiOver stop s).cond.running = s.cond.running ∧
    (ibiOver stop s).cond.head = s.cond.head ∧ (ibiOver stop s).cond.seq = s.cond.seq ∧
    (ibiOver stop s).cond.tail = s.cond.tail ∧ (ibiOver stop s).cond.switches = s.cond.switches ∧
    (ibiOver stop s).cond.inReset = s.cond.inReset ∧ (ibiOver stop s).ldg.ctl = s.ldg.ctl ∧
    (ibiOver stop s).ldg.run = s.ldg.run ∧ (ibiOver stop s).ldg.cnt = s.ldg.cnt ∧
    (ibiOver stop s).ldg.lap = s.ldg.lap ∧ (ibiOver stop s).evt.mask = s.evt.mask ∧
    (ibiOver stop s).evt.copy = s.evt.copy := by
  simp only [ibiOver, when]
  repeat' split
  all_goals simp

@[simp] theorem ibiAck_inner (stop : Bool) (s : State) :
    (ibiAck stop s).evin.incfg = s.evin.incfg ∧ (ibiAck stop s).evin.level = s.evin.level ∧
    (ibiAck stop s).evin.syncLevel = s.evin.syncLevel ∧ (ibiAck stop s).tt.ctl = s.tt.ctl ∧
    (ibiAck stop s).tt.instA = s.tt.instA ∧ (ibiAck stop s).tt.instB = s.tt.instB ∧
    (ibiAck stop s).tt.active = s.tt.active ∧ (ibiAck stop s).tt.activeValid = s.tt.activeValid ∧
    (ibiAck stop s).tt.startSec = s.tt.startSec ∧ (ibiAck stop s).tt.startFrac = s.tt.startFrac ∧
    (ibiAck stop s).tt.swPend = s.tt.swPend ∧ (ibiAck stop s).rtc.sec = s.rtc.sec ∧
    (ibiAck stop s).rtc.presc = s.rtc.presc ∧ (ibiAck stop s).rtc.halted = s.rtc.halted ∧
    (ibiAck stop s).rtc.trim = s.rtc.trim ∧ (ibiAck stop s).rtc.offset = s.rtc.offset ∧
    (ibiAck stop s).rtc.dst = s.rtc.dst ∧ (ibiAck stop s).rtc.started = s.rtc.started ∧
    (ibiAck stop s).sys.phase = s.sys.phase ∧ (ibiAck stop s).sys.cfgState = s.sys.cfgState ∧
    (ibiAck stop s).sys.x32Run = s.sys.x32Run ∧ (ibiAck stop s).sys.measRst = s.sys.measRst ∧
    (ibiAck stop s).sys.lostCmds = s.sys.lostCmds ∧ (ibiAck stop s).sys.pstate = s.sys.pstate ∧
    (ibiAck stop s).pwr.trickle = s.pwr.trickle ∧ (ibiAck stop s).pwr.onVbat = s.pwr.onVbat ∧
    (ibiAck stop s).pwr.mainOn = s.pwr.mainOn ∧ (ibiAck stop s).pwr.aonOn = s.pwr.aonOn ∧
    (ibiAck stop s).pwr.warn = s.pwr.warn ∧ (ibiAck stop s).pwr.ship = s.pwr.ship ∧
    (ibiAck stop s).pwr.castleCount = s.pwr.castleCount ∧ (ibiAck stop s).pwr.firstValid = s.pwr.firstValid ∧
    (ibiAck stop s).pwr.firstSec = s.pwr.firstSec ∧ (ibiAck stop s).pwr.firstFrac = s.pwr.firstFrac ∧
    (ibiAck stop s).pwr.castlings = s.pwr.castlings ∧ (ibiAck stop s).cond.arg0 = s.cond.arg0 ∧
    (ibiAck stop s).cond.arg1 = s.cond.arg1 ∧ (ibiAck stop s).cond.arg2 = s.cond.arg2 ∧
    (ibiAck stop s).cond.queue = s.cond.queue ∧ (ibiAck stop s).cond.running = s.cond.running ∧
    (ibiAck stop s).cond.head = s.cond.head ∧ (ibiAck stop s).cond.seq = s.cond.seq ∧
    (ibiAck stop s).cond.tail = s.cond.tail ∧ (ibiAck stop s).cond.switches = s.cond.switches ∧
    (ibiAck stop s).cond.inReset = s.cond.inReset ∧ (ibiAck stop s).ldg.ctl = s.ldg.ctl ∧
    (ibiAck stop s).ldg.run = s.ldg.run ∧ (ibiAck stop s).ldg.cnt = s.ldg.cnt ∧ (ibiAck stop s).ldg.lap = s.ldg.lap ∧
    (ibiAck stop s).evt.mask = s.evt.mask ∧ (ibiAck stop s).evt.copy = s.evt.copy := by
  have k0 := @ibiOver_frame
  have k1 := @ibiOver_inner
  simp only [ibiAck, when]
  repeat' split
  all_goals simp [k0, k1]

@[simp] theorem ibiNack_inner (stop : Bool) (s : State) :
    (ibiNack stop s).evin.incfg = s.evin.incfg ∧ (ibiNack stop s).evin.level = s.evin.level ∧
    (ibiNack stop s).evin.syncLevel = s.evin.syncLevel ∧ (ibiNack stop s).tt.ctl = s.tt.ctl ∧
    (ibiNack stop s).tt.instA = s.tt.instA ∧ (ibiNack stop s).tt.instB = s.tt.instB ∧
    (ibiNack stop s).tt.active = s.tt.active ∧ (ibiNack stop s).tt.activeValid = s.tt.activeValid ∧
    (ibiNack stop s).tt.startSec = s.tt.startSec ∧ (ibiNack stop s).tt.startFrac = s.tt.startFrac ∧
    (ibiNack stop s).tt.swPend = s.tt.swPend ∧ (ibiNack stop s).rtc.sec = s.rtc.sec ∧
    (ibiNack stop s).rtc.presc = s.rtc.presc ∧ (ibiNack stop s).rtc.halted = s.rtc.halted ∧
    (ibiNack stop s).rtc.trim = s.rtc.trim ∧ (ibiNack stop s).rtc.offset = s.rtc.offset ∧
    (ibiNack stop s).rtc.dst = s.rtc.dst ∧ (ibiNack stop s).rtc.started = s.rtc.started ∧
    (ibiNack stop s).sys.phase = s.sys.phase ∧ (ibiNack stop s).sys.cfgState = s.sys.cfgState ∧
    (ibiNack stop s).sys.x32Run = s.sys.x32Run ∧ (ibiNack stop s).sys.measRst = s.sys.measRst ∧
    (ibiNack stop s).sys.lostCmds = s.sys.lostCmds ∧ (ibiNack stop s).sys.pstate = s.sys.pstate ∧
    (ibiNack stop s).pwr.trickle = s.pwr.trickle ∧ (ibiNack stop s).pwr.onVbat = s.pwr.onVbat ∧
    (ibiNack stop s).pwr.mainOn = s.pwr.mainOn ∧ (ibiNack stop s).pwr.aonOn = s.pwr.aonOn ∧
    (ibiNack stop s).pwr.warn = s.pwr.warn ∧ (ibiNack stop s).pwr.ship = s.pwr.ship ∧
    (ibiNack stop s).pwr.castleCount = s.pwr.castleCount ∧ (ibiNack stop s).pwr.firstValid = s.pwr.firstValid ∧
    (ibiNack stop s).pwr.firstSec = s.pwr.firstSec ∧ (ibiNack stop s).pwr.firstFrac = s.pwr.firstFrac ∧
    (ibiNack stop s).pwr.castlings = s.pwr.castlings ∧ (ibiNack stop s).cond.arg0 = s.cond.arg0 ∧
    (ibiNack stop s).cond.arg1 = s.cond.arg1 ∧ (ibiNack stop s).cond.arg2 = s.cond.arg2 ∧
    (ibiNack stop s).cond.queue = s.cond.queue ∧ (ibiNack stop s).cond.running = s.cond.running ∧
    (ibiNack stop s).cond.head = s.cond.head ∧ (ibiNack stop s).cond.seq = s.cond.seq ∧
    (ibiNack stop s).cond.tail = s.cond.tail ∧ (ibiNack stop s).cond.switches = s.cond.switches ∧
    (ibiNack stop s).cond.inReset = s.cond.inReset ∧ (ibiNack stop s).ldg.ctl = s.ldg.ctl ∧
    (ibiNack stop s).ldg.run = s.ldg.run ∧ (ibiNack stop s).ldg.cnt = s.ldg.cnt ∧
    (ibiNack stop s).ldg.lap = s.ldg.lap ∧ (ibiNack stop s).evt.mask = s.evt.mask ∧
    (ibiNack stop s).evt.copy = s.evt.copy := by
  have k0 := @ibiOver_frame
  have k1 := @ibiOver_inner
  simp only [ibiNack, when]
  repeat' split
  all_goals simp [k0, k1]

@[simp] theorem ibiReminder_inner (s : State) :
    (ibiReminder s).evin.incfg = s.evin.incfg ∧ (ibiReminder s).evin.level = s.evin.level ∧
    (ibiReminder s).evin.syncLevel = s.evin.syncLevel ∧ (ibiReminder s).tt.ctl = s.tt.ctl ∧
    (ibiReminder s).tt.instA = s.tt.instA ∧ (ibiReminder s).tt.instB = s.tt.instB ∧
    (ibiReminder s).tt.active = s.tt.active ∧ (ibiReminder s).tt.activeValid = s.tt.activeValid ∧
    (ibiReminder s).tt.startSec = s.tt.startSec ∧ (ibiReminder s).tt.startFrac = s.tt.startFrac ∧
    (ibiReminder s).tt.swPend = s.tt.swPend ∧ (ibiReminder s).rtc.sec = s.rtc.sec ∧
    (ibiReminder s).rtc.presc = s.rtc.presc ∧ (ibiReminder s).rtc.halted = s.rtc.halted ∧
    (ibiReminder s).rtc.trim = s.rtc.trim ∧ (ibiReminder s).rtc.offset = s.rtc.offset ∧
    (ibiReminder s).rtc.dst = s.rtc.dst ∧ (ibiReminder s).rtc.started = s.rtc.started ∧
    (ibiReminder s).sys.phase = s.sys.phase ∧ (ibiReminder s).sys.cfgState = s.sys.cfgState ∧
    (ibiReminder s).sys.x32Run = s.sys.x32Run ∧ (ibiReminder s).sys.measRst = s.sys.measRst ∧
    (ibiReminder s).sys.lostCmds = s.sys.lostCmds ∧ (ibiReminder s).sys.pstate = s.sys.pstate ∧
    (ibiReminder s).pwr.trickle = s.pwr.trickle ∧ (ibiReminder s).pwr.onVbat = s.pwr.onVbat ∧
    (ibiReminder s).pwr.mainOn = s.pwr.mainOn ∧ (ibiReminder s).pwr.aonOn = s.pwr.aonOn ∧
    (ibiReminder s).pwr.warn = s.pwr.warn ∧ (ibiReminder s).pwr.ship = s.pwr.ship ∧
    (ibiReminder s).pwr.castleCount = s.pwr.castleCount ∧ (ibiReminder s).pwr.firstValid = s.pwr.firstValid ∧
    (ibiReminder s).pwr.firstSec = s.pwr.firstSec ∧ (ibiReminder s).pwr.firstFrac = s.pwr.firstFrac ∧
    (ibiReminder s).pwr.castlings = s.pwr.castlings ∧ (ibiReminder s).cond.arg0 = s.cond.arg0 ∧
    (ibiReminder s).cond.arg1 = s.cond.arg1 ∧ (ibiReminder s).cond.arg2 = s.cond.arg2 ∧
    (ibiReminder s).cond.queue = s.cond.queue ∧ (ibiReminder s).cond.running = s.cond.running ∧
    (ibiReminder s).cond.head = s.cond.head ∧ (ibiReminder s).cond.seq = s.cond.seq ∧
    (ibiReminder s).cond.tail = s.cond.tail ∧ (ibiReminder s).cond.switches = s.cond.switches ∧
    (ibiReminder s).cond.inReset = s.cond.inReset ∧ (ibiReminder s).ldg.ctl = s.ldg.ctl ∧
    (ibiReminder s).ldg.run = s.ldg.run ∧ (ibiReminder s).ldg.cnt = s.ldg.cnt ∧ (ibiReminder s).ldg.lap = s.ldg.lap ∧
    (ibiReminder s).evt.mask = s.evt.mask ∧ (ibiReminder s).evt.copy = s.evt.copy := by
  have k0 := @ibiBegin_frame
  have k1 := @ibiBegin_inner
  simp only [ibiReminder, when]
  repeat' split
  all_goals simp [k0, k1]

@[simp] theorem declareX32_inner (s : State) :
    (declareX32 s).rtc.sec = s.rtc.sec ∧ (declareX32 s).rtc.presc = s.rtc.presc ∧
    (declareX32 s).rtc.halted = s.rtc.halted ∧ (declareX32 s).rtc.timePend = s.rtc.timePend ∧
    (declareX32 s).rtc.trim = s.rtc.trim ∧ (declareX32 s).rtc.offset = s.rtc.offset ∧
    (declareX32 s).rtc.dst = s.rtc.dst ∧ (declareX32 s).rtc.ctl = s.rtc.ctl ∧
    (declareX32 s).rtc.started = s.rtc.started ∧ (declareX32 s).sys.phase = s.sys.phase ∧
    (declareX32 s).sys.cause = s.sys.cause ∧ (declareX32 s).sys.cfgState = s.sys.cfgState ∧
    (declareX32 s).sys.measRst = s.sys.measRst ∧ (declareX32 s).sys.earlyWr = s.sys.earlyWr ∧
    (declareX32 s).sys.lostCmds = s.sys.lostCmds ∧ (declareX32 s).sys.pstate = s.sys.pstate ∧
    (declareX32 s).disc.en = s.disc.en := by
  simp only [declareX32, when]
  repeat' split
  all_goals simp

@[simp] theorem detachInConversion_inner (k t : Nat) (s : State) :
    (detachInConversion k t s).tt.ctl = s.tt.ctl ∧ (detachInConversion k t s).tt.instA = s.tt.instA ∧
    (detachInConversion k t s).tt.instB = s.tt.instB ∧ (detachInConversion k t s).tt.startSec = s.tt.startSec ∧
    (detachInConversion k t s).tt.startFrac = s.tt.startFrac ∧ (detachInConversion k t s).tt.protHit = s.tt.protHit ∧
    (detachInConversion k t s).sys.phase = s.sys.phase ∧ (detachInConversion k t s).sys.cause = s.sys.cause ∧
    (detachInConversion k t s).sys.cfgState = s.sys.cfgState ∧ (detachInConversion k t s).sys.x32Run = s.sys.x32Run ∧
    (detachInConversion k t s).sys.measRst = s.sys.measRst ∧ (detachInConversion k t s).sys.earlyWr = s.sys.earlyWr ∧
    (detachInConversion k t s).sys.lostCmds = s.sys.lostCmds ∧
    (detachInConversion k t s).pwr.trickle = s.pwr.trickle ∧ (detachInConversion k t s).pwr.onVbat = s.pwr.onVbat ∧
    (detachInConversion k t s).pwr.mainOn = s.pwr.mainOn ∧ (detachInConversion k t s).pwr.aonOn = s.pwr.aonOn ∧
    (detachInConversion k t s).pwr.warn = s.pwr.warn ∧ (detachInConversion k t s).pwr.ship = s.pwr.ship ∧
    (detachInConversion k t s).pwr.castleCount = s.pwr.castleCount ∧
    (detachInConversion k t s).pwr.firstValid = s.pwr.firstValid ∧
    (detachInConversion k t s).pwr.firstSec = s.pwr.firstSec ∧
    (detachInConversion k t s).pwr.firstFrac = s.pwr.firstFrac ∧
    (detachInConversion k t s).pwr.castlings = s.pwr.castlings ∧ (detachInConversion k t s).cond.arg0 = s.cond.arg0 ∧
    (detachInConversion k t s).cond.arg1 = s.cond.arg1 ∧ (detachInConversion k t s).cond.arg2 = s.cond.arg2 ∧
    (detachInConversion k t s).cond.tail = s.cond.tail ∧ (detachInConversion k t s).cond.inReset = s.cond.inReset ∧
    (detachInConversion k t s).afe.eff = s.afe.eff ∧ (detachInConversion k t s).afe.diag = s.afe.diag ∧
    (detachInConversion k t s).ros.sealed = s.ros.sealed ∧ (detachInConversion k t s).out.gen = s.out.gen ∧
    (detachInConversion k t s).out.span = s.out.span ∧ (detachInConversion k t s).out.staged = s.out.staged ∧
    (detachInConversion k t s).hif.i3c = s.hif.i3c ∧ (detachInConversion k t s).hif.dynAddr = s.hif.dynAddr ∧
    (detachInConversion k t s).hif.crcEn = s.hif.crcEn ∧ (detachInConversion k t s).hif.txn = s.hif.txn ∧
    (detachInConversion k t s).hif.reply = s.hif.reply ∧ (detachInConversion k t s).nv.pages = s.nv.pages := by
  simp only [detachInConversion, when]
  repeat' split
  all_goals simp

@[simp] theorem generatorUpdate_inner (s : State) :
    (generatorUpdate s).tt.ctl = s.tt.ctl ∧ (generatorUpdate s).tt.instA = s.tt.instA ∧
    (generatorUpdate s).tt.instB = s.tt.instB ∧ (generatorUpdate s).tt.active = s.tt.active ∧
    (generatorUpdate s).tt.activeValid = s.tt.activeValid ∧ (generatorUpdate s).tt.startSec = s.tt.startSec ∧
    (generatorUpdate s).tt.startFrac = s.tt.startFrac ∧ (generatorUpdate s).tt.swPend = s.tt.swPend ∧
    (generatorUpdate s).tt.protHit = s.tt.protHit ∧ (generatorUpdate s).clk.src = s.clk.src ∧
    (generatorUpdate s).clk.limits = s.clk.limits ∧ (generatorUpdate s).clk.spread = s.clk.spread ∧
    (generatorUpdate s).clk.active = s.clk.active ∧ (generatorUpdate s).clk.plans = s.clk.plans ∧
    (generatorUpdate s).clk.bypass = s.clk.bypass ∧ (generatorUpdate s).clk.drift = s.clk.drift ∧
    (generatorUpdate s).clk.q = s.clk.q ∧ (generatorUpdate s).afe.ctl = s.afe.ctl ∧
    (generatorUpdate s).afe.eff = s.afe.eff ∧ (generatorUpdate s).afe.diag = s.afe.diag := by
  simp only [generatorUpdate, when]
  repeat' split
  all_goals simp

@[simp] theorem complianceLoss_inner (s : State) :
    (complianceLoss s).out.cfg = s.out.cfg ∧ (complianceLoss s).out.gen = s.out.gen ∧
    (complianceLoss s).out.span = s.out.span ∧ (complianceLoss s).out.staged = s.out.staged ∧
    (complianceLoss s).evt.mask = s.evt.mask ∧ (complianceLoss s).evt.copy = s.evt.copy := by
  have k0 := @faultCode_frame
  have k1 := @faultCode_inner
  simp only [complianceLoss, when]
  repeat' split
  all_goals simp [k0, k1]

@[simp] theorem complianceRecovery_inner (s : State) :
    (complianceRecovery s).out.code = s.out.code ∧ (complianceRecovery s).out.cfg = s.out.cfg ∧
    (complianceRecovery s).out.gen = s.out.gen ∧ (complianceRecovery s).out.span = s.out.span ∧
    (complianceRecovery s).out.staged = s.out.staged := by
  simp only [complianceRecovery, when]
  repeat' split
  all_goals simp

@[simp] theorem slotReading_inner (k : Nat) (present : Bool) (t : Nat) (s : State) :
    (slotReading k present t s).tt.ctl = s.tt.ctl ∧ (slotReading k present t s).tt.instA = s.tt.instA ∧
    (slotReading k present t s).tt.instB = s.tt.instB ∧ (slotReading k present t s).tt.startSec = s.tt.startSec ∧
    (slotReading k present t s).tt.startFrac = s.tt.startFrac ∧
    (slotReading k present t s).tt.protHit = s.tt.protHit ∧ (slotReading k present t s).sys.phase = s.sys.phase ∧
    (slotReading k present t s).sys.cause = s.sys.cause ∧ (slotReading k present t s).sys.cfgState = s.sys.cfgState ∧
    (slotReading k present t s).sys.x32Run = s.sys.x32Run ∧ (slotReading k present t s).sys.measRst = s.sys.measRst ∧
    (slotReading k present t s).sys.earlyWr = s.sys.earlyWr ∧
    (slotReading k present t s).sys.lostCmds = s.sys.lostCmds ∧
    (slotReading k present t s).pwr.trickle = s.pwr.trickle ∧ (slotReading k present t s).pwr.onVbat = s.pwr.onVbat ∧
    (slotReading k present t s).pwr.mainOn = s.pwr.mainOn ∧ (slotReading k present t s).pwr.aonOn = s.pwr.aonOn ∧
    (slotReading k present t s).pwr.warn = s.pwr.warn ∧ (slotReading k present t s).pwr.ship = s.pwr.ship ∧
    (slotReading k present t s).pwr.castleCount = s.pwr.castleCount ∧
    (slotReading k present t s).pwr.firstValid = s.pwr.firstValid ∧
    (slotReading k present t s).pwr.firstSec = s.pwr.firstSec ∧
    (slotReading k present t s).pwr.firstFrac = s.pwr.firstFrac ∧
    (slotReading k present t s).pwr.castlings = s.pwr.castlings ∧
    (slotReading k present t s).cond.arg0 = s.cond.arg0 ∧ (slotReading k present t s).cond.arg1 = s.cond.arg1 ∧
    (slotReading k present t s).cond.arg2 = s.cond.arg2 ∧ (slotReading k present t s).cond.tail = s.cond.tail ∧
    (slotReading k present t s).cond.inReset = s.cond.inReset ∧ (slotReading k present t s).afe.eff = s.afe.eff ∧
    (slotReading k present t s).afe.diag = s.afe.diag ∧ (slotReading k present t s).ros.sealed = s.ros.sealed ∧
    (slotReading k present t s).out.gen = s.out.gen ∧ (slotReading k present t s).out.span = s.out.span ∧
    (slotReading k present t s).out.staged = s.out.staged ∧ (slotReading k present t s).hif.i3c = s.hif.i3c ∧
    (slotReading k present t s).hif.dynAddr = s.hif.dynAddr ∧ (slotReading k present t s).hif.crcEn = s.hif.crcEn ∧
    (slotReading k present t s).hif.txn = s.hif.txn ∧ (slotReading k present t s).hif.reply = s.hif.reply ∧
    (slotReading k present t s).nv.pages = s.nv.pages := by
  have k0 := @presenceSlot_frame
  have k1 := @presenceSlot_inner
  simp only [slotReading, when]
  repeat' split
  all_goals simp [k0, k1]

end Sys2Proof.Machine
end

