-- ==== Sys2Proof/Laws/Completion.lean ====
section
/-! SUPPORT. Completion records, the end of a command without holds, and what `settle` comes to where nothing is cut. -/

namespace Sys2Proof.Machine

/-- Four little-endian bytes hold a word. -/
theorem leNat_wordBytes (w : Word) : word (leNat (wordBytes w)) = w := by
  have h : leNat (wordBytes w) = w.toNat := by
    have := w.isLt
    simp only [wordBytes, leBytes, leNat, BitVec.toNat_ofNat]
    omega
  simp [word, h]

theorem wordBytes_length (w : Word) : (wordBytes w).length = 4 := rfl

theorem memLoad_eq (m : List Host.Cell) (a k : Nat) (bs : List Byte) (hl : bs.length = k)
    (h : ∀ i, i < k → memByte m (a + i) = bs.getD i 0) : memLoad m a k = bs := by
  induction k generalizing a bs with
  | zero => cases bs with | nil => rfl | cons => simp at hl
  | succ n ih =>
    cases bs with
    | nil => simp at hl
    | cons b r =>
      have h0 := h 0 (by omega)
      simp at h0
      simp only [memLoad, h0]
      congr 1
      refine ih (a + 1) r (by simpa using hl) ?_
      intro i hi
      have := h (i + 1) (by omega)
      rw [show a + 1 + i = a + (i + 1) by omega, this]
      simp

/-- A word of a record just stored. -/
theorem memWord_stored (m : List Host.Cell) (a : Nat) (w0 w1 w2 w3 : Word) (h : Memory.wf m = true) :
    memWord (memStore m a ([w0, w1, w2, w3].flatMap wordBytes)) (a + 8) = w2 ∧
    memWord (memStore m a ([w0, w1, w2, w3].flatMap wordBytes)) (a + 12) = w3 := by
  have hl : ([w0, w1, w2, w3].flatMap wordBytes) = wordBytes w0 ++ (wordBytes w1 ++ (wordBytes w2 ++ wordBytes w3)) := by simp
  constructor
  · rw [memWord, memLoad_eq (bs := wordBytes w2), leNat_wordBytes]
    · rfl
    · intro i hi
      rw [memByte_memStore _ _ _ _ h, hl]
      simp only [List.length_append, wordBytes_length]
      rw [if_pos (by omega), show a + 8 + i - a = 8 + i by omega]
      rcases (by omega : i = 0 ∨ i = 1 ∨ i = 2 ∨ i = 3) with rfl | rfl | rfl | rfl <;> rfl
  · rw [memWord, memLoad_eq (bs := wordBytes w3), leNat_wordBytes]
    · rfl
    · intro i hi
      rw [memByte_memStore _ _ _ _ h, hl]
      simp only [List.length_append, wordBytes_length]
      rw [if_pos (by omega), show a + 12 + i - a = 12 + i by omega]
      rcases (by omega : i = 0 ∨ i = 1 ∨ i = 2 ∨ i = 3) with rfl | rfl | rfl | rfl <;> rfl

/-- A record appended to the completion ring (R336 to R338). -/
theorem cplRecord_room (op : Nat) (auto direct : Bool) (reason : Nat) (tag : Byte) (detail : Word) (s : State) (h : ringRoom s) :
    ∃ w0 w1 w3, w3 = (put 0 6 op ||| put 6 1 auto.toNat ||| put 7 1 direct.toNat ||| put 8 8 reason ||| put 16 8 tag.toNat |||
      put 24 8 s.cond.seq.toNat) ∧
    cplRecord op auto direct reason tag detail s =
      { raiseIf (reason != rOk && reason != rPartial) 57 (raise 56 s) with
        mem := memStore s.mem (nextRecordAt s) ([w0, w1, detail, w3].flatMap wordBytes)
        cond := { s.cond with seq := s.cond.seq + 1, head := s.cond.head + 1 } } := by
  refine ⟨(nowStamp s).frac, (nowStamp s).sec, _, rfl, ?_⟩
  unfold cplRecord
  simp only [ringRoom] at h
  dsimp only
  rw [if_neg (by show ¬ (16 ≤ (s.cond.head - s.cond.tail).toNat); omega)]
  rfl

theorem mainUp_of_condRuns (s : State) (h : condRuns s = true) : mainUp s = true := by
  simp [condRuns] at h; exact h.1.1

/-- A condition latches its source, and no other. -/
theorem latched_raiseIf (c : Bool) (n m : Nat) (s : State) :
    latched m (raiseIf c n s) = (latched m s || (c && (raisable n s).getLsbD m)) := by
  cases c <;> simp [latched, raiseIf]

/-- A record appended while the main domain is up is an answer. -/
theorem cplRecord_answered (op : Nat) (auto direct : Bool) (reason : Nat) (tag : Byte) (detail : Word) (s : State)
    (h : ringRoom s) (hw : Memory.wf s.mem = true) (hm : mainUp s = true) :
    answered op auto direct reason tag detail s (cplRecord op auto direct reason tag detail s) ∧
    onlyBytes (nextRecordAt s) 16 s (cplRecord op auto direct reason tag detail s) := by
  obtain ⟨w0, w1, w3, e3, e⟩ := cplRecord_room op auto direct reason tag detail s h
  have hs := memWord_stored s.mem (nextRecordAt s) w0 w1 detail w3 hw
  rw [e]
  refine ⟨⟨rfl, rfl, rfl, ⟨hs.1, by rw [← e3]; exact hs.2⟩, ?_, ?_⟩, ?_⟩
  · simp [latched, raiseIf, raise, raisable, hm, src]
  · intro h1 h2
    have hm2 : mainUp (raiseIf true 56 s) = true := by simpa [mainUp] using hm
    have h57 : (raisable 57 (raise 56 s)).getLsbD 57 = true := by simp [raisable, raise, hm2, src]
    show latched 57 (raiseIf _ 57 (raise 56 s)) = true
    rw [latched_raiseIf, h57]
    simp [h1, h2]
  · intro x hx
    have hl : ([w0, w1, detail, w3].flatMap wordBytes).length = 16 := rfl
    rw [memByte_memStore _ _ _ _ hw, hl, if_neg (by omega)]

/-! ## The end of a command without holds -/

/-- A port neither waits with a job nor installs. -/
def quietPort (p : Port) : Bool := p.jobWait == 0 && !p.installing

theorem stopInstalls_quiet (s : State) (h : s.disc.ports.all quietPort = true) : stopInstalls s = s := by
  have e : s.disc.ports.map (fun p => { p with installing := false }) = s.disc.ports := by
    conv => rhs; rw [← List.map_id s.disc.ports]
    apply List.map_congr_left
    intro p hp
    have := List.all_eq_true.mp h p hp
    simp [quietPort] at this
    obtain ⟨_, hi⟩ := this
    cases p
    simp_all
  simp [stopInstalls, e]

theorem endHolds_quiet (s : State) (h : noHolds s) : endHolds s = s := by
  obtain ⟨h1, h2, h3, h4, _⟩ := h
  have e1 : { s.cal with holdMod := 0, holdPair := 0, holdExc := false, holdEv := 0 } = s.cal := by
    have hc : s.cal = ⟨s.cal.map, s.cal.modTrim, s.cal.evtTrim, s.cal.calibrated, s.cal.quality, s.cal.holdMod, s.cal.holdPair,
      s.cal.holdExc, s.cal.holdEv⟩ := rfl
    rw [hc]; simp [h1, h2, h3, h4]
  simp [endHolds, h2, h4]
  cases s
  simp_all

theorem portAt_quiet (s : State) (h : s.disc.ports.all quietPort = true) (k : Nat) : (portAt s k).jobWait = 0 := by
  unfold portAt
  by_cases hk : k < s.disc.ports.length
  · have hm : s.disc.ports[k] ∈ s.disc.ports := List.getElem_mem hk
    have := List.all_eq_true.mp h _ hm
    simp [quietPort] at this
    simp [hk, this.1]
  · simp [hk, Port.reset]

theorem admitJobs_quiet (s : State) (h : s.disc.ports.all quietPort = true) : admitJobs s = s := by
  have e : ∀ k, admitJob k s = s := fun k => by simp [admitJob, portAt_quiet s h k]
  simp [admitJobs, forAll, List.range, List.range.loop, e]

/-- Without holds, waiting jobs or installations the end of a command is its record. -/
theorem finishCmd_quiet (reason : Nat) (detail : Word) (s : State) (c : Cmd) (j : Job) (hr : s.cond.running = some (c, j))
    (h : noHolds s) :
    finishCmd reason detail s =
      cmdRecord c false reason detail (orphanOp (serve { s with cond := { s.cond with running := none } })) := by
  have hp : s.disc.ports.all quietPort = true := h.2.2.2.2
  simp only [finishCmd, hr]
  rw [stopInstalls_quiet _ (by simpa [orphanOp, serve] using hp), endHolds_quiet _ (by simpa [orphanOp, serve, noHolds] using h),
    admitJobs_quiet _ (by simpa using hp)]

/-! ## What follows an event where nothing is cut -/

@[simp] theorem cplRecord_switchDone (op : Nat) (auto direct : Bool) (reason : Nat) (tag : Byte) (detail : Word) (s : State) :
    (cplRecord op auto direct reason tag detail s).cond.switchDone = s.cond.switchDone := by
  simp only [cplRecord]
  split <;> simp

/-- No switch's record waits: none is written. -/
theorem flushSwitches_none (s : State) (h : s.cond.switchDone = []) : flushSwitches s = s := by
  simp [flushSwitches, h]

/-- With nothing running or waiting and no warning, what follows is the next page and the return to rest. -/
theorem settle_rested (s : State) (hr : s.cond.running = none) (hd : s.cond.switchDone = []) (hw : s.pwr.warn = false) :
    settle s = rest (pump s) := by
  have e1 : clockCut s = s := by unfold clockCut; split <;> simp_all
  have e0 : selftestLock s = s := by simp [selftestLock, hr]
  have ea : selftestAcquire s = s := by simp [selftestAcquire, hr]
  have e2 : restoreHere s = s := by unfold restoreHere; split <;> simp_all
  have e3 : cutHere s = s := by unfold cutHere; split <;> simp_all [flushSwitches_none]
  have e4 : warnCut s = s := by unfold warnCut; simp [hw]
  have e5 : suspendHere s = s := by unfold suspendHere; split <;> simp_all
  simp [settle, ea, e0, e1, e2, e3, e4, e5]

/-- A job that nothing of `settle` acts on: it neither waits for MEAS, nor for a frame boundary, nor is it cut or suspended. -/
def Job.steady (s : State) (c : Cmd) : Job → Bool
  | .waitHold => !s.clk.bypass && c.op != 0x12
  | .holding => !s.clk.bypass && c.op != 0x12
  | .disc .. => !s.clk.bypass
  | .restore => s.tt.frame.isSome || s.cond.inReset || s.sys.measRst
  | .cut _ => false
  | .clear _ _ st .. => s.nv.suspend.isEmpty || (st != 1 && st != 2 && st != 6)
  | _ => true

/-- With such a job running and no warning, what follows is the next page and the return to rest. -/
theorem settle_steady (s : State) (c : Cmd) (j : Job) (hr : s.cond.running = some (c, j)) (hj : j.steady s c = true)
    (hw : s.pwr.warn = false) : settle s = rest (pump s) := by
  have e1 : clockCut s = s := by
    unfold clockCut
    by_cases hb : s.clk.bypass
    · simp only [hb, Bool.not_true, hr]
      cases j with
      | _ => simp_all [Job.steady]
    · simp [hb]
  have e0 : selftestLock s = s := by unfold selftestLock; cases j <;> simp_all [Job.steady]
  have ea : selftestAcquire s = s := by unfold selftestAcquire testMayAcquire; cases j <;> simp_all [Job.steady]
  have e2 : restoreHere s = s := by
    unfold restoreHere
    cases j <;> simp_all [Job.steady]
  have e3 : cutHere s = s := by unfold cutHere; cases j <;> simp_all [Job.steady]
  have e4 : warnCut s = s := by unfold warnCut; simp [hw]
  have e5 : suspendHere s = s := by
    unfold suspendHere
    split
    · rfl
    · cases j <;> simp_all [Job.steady]
  simp [settle, ea, e0, e1, e2, e3, e4, e5]

/-- A command that has started ends at once: its record, then the next page and the return to rest. -/
theorem settle_finished (reason : Nat) (detail : Word) (s : State) (c : Cmd) (j : Job) (hr : s.cond.running = some (c, j))
    (h : noHolds s) (hd : s.cond.switchDone = []) (hw : s.pwr.warn = false) :
    settle (finishCmd reason detail s) =
      rest (pump (cmdRecord c false reason detail (orphanOp (serve { s with cond := { s.cond with running := none } })))) := by
  rw [finishCmd_quiet reason detail s c j hr h]
  exact settle_rested _ (by simp [cmdRecord, orphanOp, serve]) (by simpa [cmdRecord, orphanOp, serve] using hd) (by simpa [orphanOp, serve] using hw)

theorem rest_ovf (s : State) : (rest s).cond.ovf = s.cond.ovf := by
  have k := @park_frame
  simp only [rest]; split <;> simp [k]

/-- The record a command that has just started ends with, and what its end leaves as it was. -/
theorem finishCmd_ended (reason : Nat) (detail : Word) (s : State) (c : Cmd) (h : startedAs c s) :
    ended c reason detail s (settle (finishCmd reason detail s)) ∧
    onlyBytes (nextRecordAt s) 16 s (settle (finishCmd reason detail s)) ∧
    besideConductor s (settle (finishCmd reason detail s)) := by
  obtain ⟨hr, hc, hw, hroom, hh, hd, hm⟩ := h
  rw [settle_finished reason detail s c .fresh hr hh hd hw]
  have hn : nextRecordAt (orphanOp (serve { s with cond := { s.cond with running := none } })) = nextRecordAt s := rfl
  have ha := cplRecord_answered c.op c.auto false reason c.tag detail
    (orphanOp (serve { s with cond := { s.cond with running := none } })) hroom hm (mainUp_of_condRuns s hc)
  rw [hn] at ha
  simp only [answered, recordStands, onlyBytes, latched] at ha
  obtain ⟨⟨a1, a2, a3, ⟨a4, a5⟩, a6, a7⟩, a8⟩ := ha
  have hb : besideConductor s (rest (pump (cmdRecord c false reason detail
      (orphanOp (serve { s with cond := { s.cond with running := none } }))))) := by
    simp [besideConductor, cmdRecord, orphanOp, serve]
  have hrun : (rest (pump (cmdRecord c false reason detail
      (orphanOp (serve { s with cond := { s.cond with running := none } }))))).cond.running = none := by
    simp [cmdRecord, orphanOp, serve]
  simp only [cmdRecord] at hb hrun ⊢
  refine ⟨⟨hrun, ⟨by simpa using a1, by simpa using a2, ?_, ⟨by simpa using a4, by simpa using a5⟩, ?_, ?_⟩⟩, ?_, hb⟩
  · rw [rest_ovf]; simpa [serve] using a3
  · simpa [latched] using a6
  · intro h1 h2; simpa [latched] using a7 h1 h2
  · intro x hx; simpa using a8 x hx

end Sys2Proof.Machine
end

