-- ==== Sys2Proof/Laws/Port.lean ====
section
/-! SUPPORT. The host port's shared operations: a transaction that opens and closes with nothing noted, and a committed write of
one register after the main start. -/

namespace Sys2Proof.Machine

theorem fld_put_zero (b : Bool) : bitOf (put 0 1 b.toNat) 0 = b := by cases b <;> decide

theorem put_low (lo len v : Nat) (hlo : 0 < lo) : (put lo len v).getLsbD 0 = false := by
  obtain ⟨n, rfl⟩ : ∃ n, lo = n + 1 := ⟨lo - 1, by omega⟩
  have h : (v % 2 ^ len * 2 ^ (n + 1)) % 2 = 0 := by rw [Nat.pow_succ, ← Nat.mul_assoc]; exact Nat.mul_mod_left _ 2
  simp only [put, BitVec.getLsbD_ofNat, Nat.testBit_zero, h]
  decide

/-- Bit 0 of SYS_STAT is main_ready (Table 4.9). -/
theorem sysStat_ready (s : State) : bitOf (sysStat s) 0 = mainReady s := by
  have h0 : (put 0 1 (mainReady s).toNat).getLsbD 0 = mainReady s := fld_put_zero _
  simp only [bitOf, sysStat, bit, BitVec.getLsbD_or, h0, put_low _ _ _ (Nat.succ_pos _), Bool.or_false]

@[simp] theorem openTxn_snap (s : State) (k : Nat) (hk : k < 64) : snapWord (openTxn s) k = regRead s k := by
  simp [snapWord, openTxn, Txn.new, hk]

/-- A transaction is early exactly before main_ready (R85). -/
@[simp] theorem earlyTxn_openTxn (s : State) : earlyTxn (openTxn s) = !mainReady s := by
  simp [earlyTxn, regRead, sysStat_ready]

/-- A transaction that read no window byte and was not rejected clears nothing (R11). -/
theorem clearRc_fresh (t : Txn) (s : State) (h : t.sent = []) : clearRc t s = s := by
  unfold clearRc
  simp [Txn.has, h]

/-- A transaction closes with nothing noted. -/
theorem closeTxn_fresh (s : State) (t : Txn) (h : s.hif.txn = some t) (h1 : t.sent = []) (h2 : t.cal0 = none)
    (h3 : t.cal1 = none) (h4 : t.newErr = 0) (h5 : t.rst = false) :
    closeTxn s = { s with hif := { s.hif with txn := none, header := false } } := by
  simp [closeTxn, h, h2, h3, h4, h5, endCalendar, clearRc_fresh t s h1, raiseIf, Txn.errRose]

@[simp] theorem openTxn_txn (s : State) : (openTxn s).hif.txn = some (Txn.new s) := rfl

/-- A transaction that moves the bus changes its idle count alone. -/
theorem busMoved_ready (a : Nat) (s : State) (h : HostReady s) : HostReady (busMoved a s) := h

/-- A committed write of one register after the main start: the register's effect, the end of the commit sequence, the end of
its transaction. -/
theorem hostWord_ready (k : Nat) (w : Word) (r : State) (h : HostReady r) :
    hostWord k w r =
      closeTxn (commitEnd [(k, w)] (regWrite k w (when (Item.actsOnMeas (.reg k w)) newWriter (openTxn (moved k r))))) := by
  have hc : closeTxn r = r := by simp [closeTxn, h.2.2.1]
  have hm : mainReady (moved k r) = true := h.2.1
  have hb : busMoved (Item.reg k w).behind r = moved k r := rfl
  simp [hostWord, hb, hostItems, ownTxn, hc, h.1, commit, hm, wordsIn, forAll, commitItem, Item.inStore, Item.inFormats, when]

/-- The registers a committed write of which has an effect at the end of the commit sequence. -/
def endWords : List Nat := [2, 19, 20, 21, 24, 25, 32, 34, 35, 36, 51, 57]

/-- A write of any other register has no effect at the end of the commit sequence. -/
theorem commitEnd_plain (k : Nat) (w : Word) (s : State) (hk : k ∉ endWords) : commitEnd [(k, w)] s = s := by
  simp only [endWords, List.mem_cons, List.not_mem_nil, or_false, not_or] at hk
  simp [commitEnd, clockEnd, armChecks, wrote, lastWord, hk]

/-- What is applied on no condition is not applied. -/
@[simp] theorem when_false (f : State → State) (s : State) : when false f s = s := rfl

/-- A committed write of one register whose effect notes nothing in its transaction is that effect. -/
theorem hostWord_of (k : Nat) (w : Word) (r s u : State) (h : HostReady r) (e : s = moved k r) (hk : k ∉ endWords)
    (hu : regWrite k w (openTxn s) = { u with hif := { u.hif with txn := some (Txn.new s) } }) :
    hostWord k w r = { u with hif := { u.hif with txn := none, header := false } } := by
  subst e
  have ha : Item.actsOnMeas (.reg k w) = false := by simp only [endWords, List.mem_cons] at hk; simp [Item.actsOnMeas]; tauto
  rw [hostWord_ready k w r h, ha, when_false, commitEnd_plain k w _ hk, hu, closeTxn_fresh (t := Txn.new (moved k r))] <;> rfl

/-- A host interface without an open transaction. -/
@[simp] theorem hif_no_txn (x : Hif) (h : x.txn = none) (h' : x.header = false) : { x with txn := none, header := false } = x := by
  cases x; simp_all

end Sys2Proof.Machine
end

