-- ==== Sys2Proof/Tests/Slice0.lean ====
section
/-! SUPPORT. The model's own tests: well-formedness, the manual's own numbers, and for each statement a state and operands that
meet its hypotheses. -/

namespace Sys2Proof.Tests

set_option Elab.async false

open Sys2Proof.Machine

/-! ## Helpers -/

/-- After the main start, X32 running, supplies at 3.0 V, nothing enabled. -/
def ready : State :=
  { State.reset with
    sys := { Sys.reset with phase := .ready, powerOn := false, sramDone := true, cfgDone := true, cfgState := 0, x32Run := true }
    rtc := { Rtc.reset with started := true, ctl := 0, winEdge := 5 }
    disc := { Disc.reset with ports := List.replicate 4 { Port.reset with state := 1 }, en := 15 } }

/-- As `ready`, with VBAT at 1.5 V. -/
def supply : State := { ready with pins := { Pins.reset with vbat := 1500 } }

/-- HF locked on REFIN, MEAS on it. -/
def locked : State :=
  { supply with clk := { Clk.reset with src := 1, state := .locked, ref := .refin, bypass := false, episode := false, hf := 1000, qbase := 0 } }

/-- The host port strapped for I2C and I3C. -/
def bus (dyn : BitVec 7) : State := { ready with hif := { Hif.reset with i3c := true, dynAddr := dyn } }

/-- The RTC as given. -/
def withRtc (r : Rtc) (s : State) : State := { s with rtc := r }

/-- A command just started. -/
def started (op : Nat) (a0 a1 : Word) (s : State) : State :=
  { s with cond := { s.cond with running := some ({ op := op, tag := 7, a0 := a0, a1 := a1, a2 := 0, auto := false }, .fresh) } }

/-- The command of `started`. -/
def cmdOf (op : Nat) (a0 a1 : Word) : Cmd := { op := op, tag := 7, a0 := a0, a1 := a1, a2 := 0, auto := false }

/-- The state a command leaves. -/
def after (c : Instr) (s : State) : State := match exec c s with | .next t => t | _ => State.reset

/-- Port 0 in a state. -/
def withPort (st : BitVec 3) (s : State) : State :=
  { s with disc := { s.disc with ports := s.disc.ports.set 0 { Port.reset with state := st } } }

/-- A transfer between a START and a STOP of its own. -/
def alone : Ends := ⟨false, true⟩

/-! ## Well-formedness: a term each check refuses, beside one it accepts -/

theorem test_wf_frames : wellFormed (.spiWriteFrame [] 0 0) = false ∧ wellFormed (.spiReadFrame [] 0 0) = false ∧
    wellFormed (.spiStatusPoll [] 0) = false ∧ wellFormed (.spiStatusPoll [] 1) = true := by decide

theorem test_wf_addresses : wellFormed (.entdaa 0 alone) = false ∧ wellFormed (.setdasa ⟨0x2C, 0⟩ alone) = false ∧ wellFormed (.entdaa 1 alone) = true := by
  decide

theorem test_wf_alarm_register : wellFormed (.alarmWrite 3 0) = false ∧ wellFormed (.alarmWrite 2 0) = true := by decide

theorem test_wf_tables : wellFormed (.timetableWrite false 4095 [1, 2]) = false ∧ wellFormed (.timetableWrite false 4095 [1]) = true ∧
    wellFormed (.smTableWrite 6 0 []) = false ∧ wellFormed (.smTableWrite 5 31 [1, 2]) = false ∧
    wellFormed (.smTableWrite 5 31 [1]) = true := by decide

theorem test_wf_inputs : wellFormed (.evTransition 7 true ⟨0, 0⟩) = true ∧ wellFormed (.evChangeAccepted 7 ⟨0, 0⟩) = false ∧
    wellFormed (.evChangeAccepted 6 ⟨0, 0⟩) = true := by decide

theorem test_wf_density : wellFormed (.calResultApply (.tdc [1]) 0) = false ∧
    wellFormed (.calResultApply (.tdc (List.replicate 8 8192)) 0) = true := by decide

/-! ## Numbers the manual gives -/

/-- Table 18.6 test 9: the CRCs of "123456789" (R67, R192, R292). -/
theorem test_crcs :
    crc8 0 [0x31, 0x32, 0x33, 0x34, 0x35, 0x36, 0x37, 0x38, 0x39] = 0xF4 ∧
    crc16 [0x31, 0x32, 0x33, 0x34, 0x35, 0x36, 0x37, 0x38, 0x39] = 0x29B1 ∧
    crc32 [0x31, 0x32, 0x33, 0x34, 0x35, 0x36, 0x37, 0x38, 0x39] = 0xCBF43926 := by decide +kernel

/-- R220: rshr(6, 2) = 2, rshr(10, 2) = 2, rshr(-6, 2) = -2, rshr(-10, 2) = -2. -/
theorem test_rshr : rshr 6 2 = 2 ∧ rshr 10 2 = 2 ∧ rshr (-6) 2 = -2 ∧ rshr (-10) 2 = -2 := by decide

/-- Registers that read a stated word after reset (Tables 2.9, 7.6, 7.9, 7.10, 15.4). -/
theorem test_reset_words : regRead State.reset 25 = 0x0186A100 ∧ regRead State.reset 28 = 0x19006402 ∧
    regRead State.reset 29 = 0x00640081 := by decide

/-- An empty queue leaves the block as it is. -/
theorem test_step_idles : step ready = .next ready := rfl

/-- The queue is first in, first out. -/
theorem test_queue : step { ready with pending := [.rtcHalt, .rtcRelease] } =
    .next { ready with pending := [.rtcRelease], rtc := { ready.rtc with ctl := 1 } } := rfl

/-- R351: nothing is specified beyond 4.0 V. -/
theorem test_absolute_maximum : exec (.mainPowerOn 4001 3000) ready = .fault .beyondAbsoluteMaximum := rfl

/-- R74: GETBCR answers 0x06. -/
theorem test_getbcr : exec (.getbcr alone) (bus 5) = .next { bus 5 with hif := { cccHif alone (bus 5) [true, true] with reply := [0x06] } } := rfl

/-- No word spells a command. -/
theorem test_no_word : State.withFetchWord ready 16 0x1234 = ready := rfl

/-! ## Witnesses: what the hypotheses of each statement ask for -/

theorem test_witness_TimeAndCalendarWrites : HostReady ready ∧
    calendarSec 0x00000000 0x00000101 (offsetOf ready.rtc.offset) = .inr 0 ∧
    calendarSec 0xFFFFFFFF 0xFFFFFFFF (offsetOf ready.rtc.offset) = .inl 1 := by
  decide +kernel

theorem test_witness_LocalTimeAndDaylightSaving :
    (let s := withRtc { ready.rtc with offset := 59 } ready; HostReady s ∧ s.rtc.dst = false ∧ offsetOf s.rtc.offset ≤ 59) ∧
    (let s := withRtc { ready.rtc with offset := 60 } ready; HostReady s ∧ 59 < offsetOf s.rtc.offset) ∧
    (let s := withRtc { ready.rtc with offset := 0x44, dst := true } ready;
      HostReady s ∧ s.rtc.dst = true ∧ -60 ≤ offsetOf s.rtc.offset) ∧
    (let s := withRtc { ready.rtc with offset := 0x43, dst := true } ready; HostReady s ∧ offsetOf s.rtc.offset < -60) ∧ ready.rtc.dst = false ∧
    bitOf 0x300 8 = true ∧ bitOf 0x300 9 = true := by decide

theorem test_witness_ShiftHaltTrim : HostReady ready ∧ (0x7FFF : BitVec 16) ≠ 0x8000 ∧ bitOf ready.rtc.ctl 0 = false ∧
    ready.rtc.started = true ∧
    (let s := withRtc { ready.rtc with ctl := 1 } ready; HostReady s ∧ bitOf s.rtc.ctl 0 = true) ∧
    (let s := withRtc { ready.rtc with started := false } ready; HostReady s ∧ s.rtc.started = false) := by decide

theorem test_witness_AlarmWrites_RingTails_OutputWrites : HostReady ready := by decide

theorem test_witness_PowerWrites : HostReady ready ∧ fld 0x2 0 2 ≠ 3 ∧ fld 0x3 0 2 = 3 ∧ fld 0x5D000000 24 8 ≠ 0x5C ∧
    (fld 0x5C000021 24 8 = 0x5C ∧ fld 0x5C000021 1 2 ≠ 3 ∧ fld 0x5C000021 4 2 ≠ 3) ∧
    (fld 0x5C000036 24 8 = 0x5C ∧ fld 0x5C000036 1 2 = 3 ∧ fld 0x5C000036 4 2 = 3) := by decide

theorem test_witness_EventWrites :
    (let s := { ready with evt := { ready.evt with stat := 0xFFFFFFFFFFFFFFFF } }; HostReady s ∧ isNow 16 s = false) ∧
    (let s := raise 16 (raise 8 locked); HostReady s ∧ isNow 16 s = true ∧ isNow 8 s = true) := by decide

theorem test_witness_FrontEndWrites : HostReady ready ∧ ready.ldg.wait = [] ∧ bitOf 0 0 = false ∧
    (bitOf 0x40001 0 = true ∧ bitOf 0x40001 1 = false ∧ 4 ≤ fld 0x40001 16 12) ∧
    (bitOf 0x30001 0 = true ∧ bitOf 0x30001 1 = false ∧ fld 0x30001 16 12 < 4) ∧ ttEn ready = false ∧
    ttEn { ready with tt := { ready.tt with ctl := 1 } } = true := by decide

/-- The profile table's first point: 1310 codes below nominal, 64 periods of the reference. -/
def profiled (low : Byte) (s : State) : State :=
  { s with mem := memStore s.mem 0x7600 [low, 5, 64, 0], clk := { s.clk with spread := 3 } }

theorem test_witness_FrontEndWrites_profile : bitOf 3 0 = true ∧ bitOf 3 1 = true ∧
    (∀ x ∈ profilePts (after (.clkSpreadWrite 3) (profiled 0x1E ready)), x.1 ≤ 1310 ∧ x.2 ≠ 0) ∧
    64 ≤ ((profilePts (after (.clkSpreadWrite 3) (profiled 0x1E ready))).map (fun x => x.2)).sum ∧
    (∃ x ∈ profilePts (after (.clkSpreadWrite 3) (profiled 0x1F ready)), 1310 < x.1 ∨ x.2 = 0) := by decide +kernel

theorem test_witness_SequencerWrites : HostReady ready ∧ ready.tt.activeValid = false ∧
    (let s := { ready with tt := { ready.tt with activeValid := true, ctl := 1 } }; HostReady s ∧ s.tt.activeValid = true ∧
      ttEn s = true) := by decide

theorem test_witness_RegisterWriteBytes : HostReady ready ∧ Memory.wf ready.mem = true ∧ inertRange 0x7BFF 1 = true ∧
    inertRange 0x4000 256 = true ∧ formatRange 0x7640 256 = true ∧ formatRange 0x773F 1 = true ∧ 256 < (List.replicate 257 (0 : Byte)).length := by
  decide +kernel

theorem test_witness_SpiWriteFrame : HostReady ready ∧ ready.hif.i3c = false ∧ ready.hif.crcEn = false ∧
    Memory.wf ready.mem = true ∧ inertRange 0x5FFF 1 = true ∧
    (let s := { ready with hif := { ready.hif with crcEn := true } }; HostReady s ∧ s.hif.i3c = false ∧ s.hif.crcEn = true ∧
      crc8 0 (spiHeader 0x3C 0x4000 ++ [0, 0]) ≠ 0) := by
  decide +kernel

theorem test_witness_SpiReads : HostReady ready ∧ ready.hif.i3c = false ∧ ready.hif.crcEn = false ∧
    plainRange 0x7640 256 = true ∧ 0 < [0x5A, 0, (0 : Byte)].length ∧ [0x5A, 0, (0 : Byte)].length < 4 := by decide

theorem test_witness_BusyAndHifReset : portOpen ready = true ∧ ready.hif.i3c = false ∧ mainUp ready = true := by decide

theorem test_witness_BusTransfers : HostReady (bus 0) ∧ busOpen (bus 0) = true ∧ (bus 0).hif.dynAddr = 0 ∧ HostReady (bus 5) ∧
    busOpen (bus 5) = true ∧ (bus 5).hif.dynAddr ≠ 0 ∧ Memory.wf (bus 0).mem = true ∧ inertRange 0x4000 1 = true ∧
    plainRange 0x4000 256 = true ∧ (0x2D : BitVec 7) ≠ staticAddr (bus 0) ∧
    (let s := { bus 5 with hif := { (bus 5).hif with ptr := 0x7800 } }; HostReady s ∧ plainRange s.hif.ptr.toNat 1024 = true) := by
  decide +kernel

/-- A transaction is open and the pointer stands at register k. -/
def reading (k : Nat) (x : Txn → Txn) : State :=
  { bus 0 with hif := { (bus 0).hif with ptr := BitVec.ofNat 16 (4 * k), txn := some (x (Txn.new (bus 0))) } }

theorem test_witness_BusTransfers_registers :
    (let s := reading 63 id
     busOpen s = true ∧ s.hif.txn.isSome = true ∧ s.hif.dynAddr = 0 ∧ s.hif.ptr = BitVec.ofNat 16 (4 * 63) ∧ shadowIdx 63 = none) ∧
    (let s := reading 11 id
     busOpen s = true ∧ s.hif.txn.map (fun x => (x.shadow, x.timeSet)) = some (none, false) ∧ shadowIdx 11 = some 0) ∧
    (let s := reading 17 (fun x => { x with shadow := some [1, 2, 3, 4, 5] })
     busOpen s = true ∧ s.hif.txn.map (fun x => x.shadow) = some (some [1, 2, 3, 4, 5]) ∧ shadowIdx 17 = some 4) := by
  decide +kernel

theorem test_witness_DynamicAddress_CommonCommands_BusControl : busOpen (bus 0) = true ∧ noTxn (bus 0) ∧
    (bus 0).hif.dynAddr = 0 ∧ busOpen (bus 5) = true ∧ (bus 5).hif.dynAddr ≠ 0 ∧ noTxn (bus 5) ∧
    (0x2D : BitVec 7) ≠ staticAddr (bus 0) ∧ (2 : Byte) ≠ 0 ∧ (2 : Byte) ≠ 1 ∧ (0xFF : Byte) ≠ 1 ∧
    (let s := { bus 5 with hif := { (bus 5).hif with hdr := true } }; portOpen s = true ∧ s.hif.i3c = true ∧ noTxn s) := by
  decide

theorem test_witness_TargetReset : busOpen (bus 5) = true ∧ (bus 5).pwr.mainOn = true ∧ (bus 5).pwr.ship = false ∧
    (bus 5).hif.armSoft = false ∧ (bus 5).hif.patternSeen = false ∧ noTxn (bus 5) ∧
    (let s := { bus 5 with hif := { (bus 5).hif with armSoft := true } }; busOpen s = true ∧ noTxn s ∧ s.hif.armSoft = true) ∧
    (let s := { bus 5 with hif := { (bus 5).hif with patternSeen := true } }; busOpen s = true ∧ s.hif.patternSeen = true ∧
      noTxn s ∧ mainReady s = true) := by decide

/-- Source 56 pending, requests enabled. -/
def ibi (req : Bool) (k : Option Nat) (served : BitVec 64) : State :=
  { bus 5 with
    evt := { ready.evt with stat := 0x100000000000000 }
    hif := { (bus 5).hif with ibiEn := true, ibiReq := req, sinceAck := k, served := served } }

theorem test_witness_InBandInterrupt :
    (let s := ibi false none 0
     busOpen s = true ∧ s.hif.ibiReq = false ∧ ibiCalled s = true ∧ noTxn s ∧ s.hif.nacked = false ∧ 1 < s.hif.busIdle) ∧
    (let t := ibi false none 0
     let s := { t with hif := { t.hif with header := true, txn := some (Txn.new t), busIdle := 0 } }
     busOpen s = true ∧ ibiCalled s = true ∧ s.hif.header = true) ∧
    (let t := ibi false none 0
     let s := { t with hif := { t.hif with nacked := true, busIdle := 33 } }
     ibiCalled s = true ∧ noTxn s ∧ s.hif.nacked = true ∧ 32 < s.hif.busIdle) ∧
    (let t := ibi false none 0
     let s := { t with hif := { t.hif with nacked := true, busIdle := 32 } }
     ibiCalled s = true ∧ s.hif.header = false ∧ s.hif.busIdle ≤ 32) ∧
    (let t := ibi false none 0
     let s := { t with hif := { t.hif with busIdle := 1 } }; ibiCalled s = true ∧ s.hif.header = false ∧ s.hif.busIdle ≤ 1) ∧
    (let s := ibi false (some 32768) 0x100000000000000
     busOpen s = true ∧ (ibiEnabled s && pendingSet s != 0 && s.hif.sinceAck == some 32768) = true ∧ s.hif.ibiReq = false ∧
       noTxn s ∧ 1 < s.hif.busIdle) ∧
    (let s := ibi true none 0
     busOpen s = true ∧ s.hif.ibiReq = true ∧ bareTxn s = true ∧ ibiCalled s = true) := by
  decide +kernel


theorem test_witness_ResetRegisters : (1000 ≤ 1000 ∧ ready.pwr.mainOn = true ∧ ready.pwr.ship = false) ∧
    (1000 ≤ 1000 ∧ State.reset.pwr.mainOn = true ∧ State.reset.pwr.ship = false) := by decide

/-- A run of one command from reset: a pulse on RSTN too short to count. -/
theorem test_witness_ResetMeetsInvariant : ∃ run : Nat → State, run 0 = { State.reset with pending := [.rstn 100] } ∧
    (∀ k : Nat, k < 1 → step (run k) = .next (run (k + 1))) :=
  ⟨fun k => if k = 0 then { State.reset with pending := [.rstn 100] } else State.reset, rfl, by
    intro k hk
    obtain rfl : k = 0 := by omega
    rfl⟩

theorem test_witness_StepKeepsInvariant : Invariant ready ∧ restoreWaits ready = true ∧ (∃ t, step ready = .next t) :=
  ⟨by decide, by decide, ready, rfl⟩

theorem test_witness_ExecKeepsQueue : ∃ t, exec .rtcHalt ready = .next t := ⟨_, rfl⟩

theorem test_witness_OnlyLevelsBeyondTheMaximumStop :
    (levelsOf (.mainPowerOn 4001 0)).any (fun v => decide (4000 < v)) = true ∧
    (levelsOf (.mainPowerOn 4000 4000)).any (fun v => decide (4000 < v)) = false := by decide

theorem test_witness_StepRunsTheFrontCommand : ready.pending = [] := rfl

theorem test_witness_TableWrites : HostReady ready ∧ Memory.wf ready.mem = true ∧ ready.tt.activeValid = false ∧
    ready.tt.swPend ≠ some true ∧ 0 < [(1 : Byte)].length ∧ (4095 : BitVec 12).toNat + [(1 : Byte)].length ≤ 4096 ∧
    (let s := { ready with tt := { ready.tt with activeValid := true, ctl := 1 } }; HostReady s ∧ s.tt.activeValid = true ∧
      s.tt.active = false ∧ ttEn s = true) ∧
    (5 : BitVec 3).toNat < 6 ∧ (31 : BitVec 5).toNat + [(1 : Byte)].length ≤ 32 := by decide

theorem test_witness_ClockSourceWrites : HostReady ready ∧ nothingRuns ready ∧ fld 0 0 2 = 0 ∧ fld 1 0 2 = 1 ∧ fld 2 0 2 = 2 ∧
    fld 3 0 2 = 3 ∧ planValid .refin (activePlan ready) = true ∧ planValid .hfrc (activePlan ready) = true ∧ clkSel ready = 0 ∧
    (let s := { ready with clk := { ready.clk with src := 1, plans := List.replicate 4 ⟨0, 0, false⟩ } }
     HostReady s ∧ nothingRuns s ∧ clkSel s ≠ 0 ∧ planValid .refin (activePlan s) = false) ∧
    (HostReady locked ∧ nothingRuns locked ∧ clkSel locked ≠ 0 ∧ planValid (selRef locked) (planOf 0x06104000) = false ∧
      planValid (selRef locked) ⟨16, 25000, false⟩ = true) := by decide

/-- A timetable that starts at any trigger, with one MARK. -/
def oneMark : Image :=
  { secTick := false, sync := false, freeRun := false, body := 64, lead := 0,
    cars := [{ start := 0, dur := 48, op := oMark, ch := 0, res := 10, needA := none, needB := none, arg := 0, aux := 0 }] }

/-- A frame of an image from HF counter 1000, nothing started. -/
def frameOf (im : Image) : Frame :=
  { img := im, tableB := false, t0 := 1000, stamp := { sec := 0, frac := 0, coarse := true }, code := 11, delay := 4,
    lateStart := false, coincident := false, queued := false, runs := List.replicate im.cars.length CarRun.fresh, vers := [],
    vals := [], raws := [], late := [], revA := false, revB := false, cut := false, slow := false, markFail := none, nFailed := 0, qtick := 0,
    syncAt := none, seals := [] }

/-- A frame runs. -/
def inFrame (f : Frame) (s : State) : State := { s with tt := { s.tt with frame := some f } }

/-- The active table A is enabled. -/
def running (s : State) : State :=
  { s with tt := { s.tt with ctl := 3, instA := some oneMark, active := false, activeValid := true } }

theorem test_witness_AsynchronousTrigger :
    (let s := running locked
     HostReady s ∧ nothingRuns s ∧ quietMoment s ∧ trigReaches s = true ∧ s.clk.bypass = false ∧ s.tt.frame = none ∧
       s.tt.await = none ∧ hfRunning s = true) ∧
    (let s := running { locked with clk := { locked.clk with state := .parked } }
     HostReady s ∧ nothingRuns s ∧ quietMoment s ∧ trigReaches s = true ∧ s.clk.bypass = false ∧ s.tt.frame = none ∧
       s.tt.await = none ∧ hfRunning s = false ∧ clkSel s ≠ 0 ∧ planValid (selRef s) (activePlan s) = true) ∧
    (let s := running { locked with clk := { locked.clk with state := .parked, src := 2, ref := .hfrc } }
     HostReady s ∧ clkSel s = 2 ∧ planValid (selRef s) (activePlan s) = true) ∧
    (let s := running ready; HostReady s ∧ nothingRuns s ∧ quietMoment s ∧ trigReaches s = true ∧ s.clk.bypass = true) ∧
    (HostReady ready ∧ nothingRuns ready ∧ quietMoment ready ∧ trigReaches ready = false) ∧
    (let s := { locked with out := { locked.out with wakeK := 1 } }
     HostReady s ∧ nothingRuns s ∧ quietMoment s ∧ trigReaches s = false ∧ mayRest s = false) := by
  (repeat' apply And.intro) <;> decide

theorem test_witness_AsynchronousTrigger_in_a_frame :
    (let s := inFrame (frameOf oneMark) (running locked)
     HostReady s ∧ nothingRuns s ∧ quietMoment s ∧ trigReaches s = true ∧ s.clk.bypass = false ∧ s.tt.frame ≠ none ∧
       bitOf s.tt.ctl 1 = true ∧ s.tt.queued = none) ∧
    (let t := inFrame (frameOf oneMark) (running locked)
     let s := { t with tt := { t.tt with ctl := 1 } }
     HostReady s ∧ trigReaches s = true ∧ s.tt.frame ≠ none ∧ bitOf s.tt.ctl 1 = false) := by
  (repeat' apply And.intro) <;> decide

/-- A trigger is queued that registered at a qtick. -/
def queuedAt (reg : Option Nat) (s : State) : State :=
  { s with tt := { s.tt with queued := some ⟨12, { sec := 0, frac := 0, coarse := true }, false, reg, none, []⟩ } }

theorem test_witness_AsynchronousTrigger_queued :
    (let s := queuedAt (some (qtickAt (running locked) 1000)) (inFrame (frameOf oneMark) (running locked))
     let u := advance 1000 s
     trigReaches s = true ∧ s.clk.bypass = false ∧ s.tt.frame ≠ none ∧ s.tt.queued ≠ none ∧ hfLocked s = true ∧
       s.tt.queued.bind (fun x => x.reg) = some (qtickAt u u.clk.hf)) ∧
    (let s := queuedAt none (inFrame (frameOf oneMark) (running locked))
     s.tt.queued ≠ none ∧ s.tt.queued.map (fun x => x.reg) = some none) := by
  (repeat' apply And.intro) <;> decide

theorem test_witness_LedgerSwitch : HostReady ready ∧ nothingRuns ready ∧ ldgEn ready = false ∧ ready.sys.measRst = false ∧
    ready.ldg.job = none ∧ ready.ldg.jobs = [] ∧ ready.ldg.offPend = false ∧ ldgOn ready = false ∧
    (let s := { ready with ldg := { ready.ldg with ctl := 1 } }
     HostReady s ∧ nothingRuns s ∧ ldgOn s = true ∧ ldgStarted s = true ∧ fineClock s = false) ∧
    ldgStarted State.reset = false ∧
    (let s := { locked with ldg := { locked.ldg with ctl := 1 } }
     HostReady s ∧ nothingRuns s ∧ ldgOn s = true ∧ fineClock s = true ∧ quietMoment s ∧ s.ldg.job = none) := by decide

theorem test_witness_CommandedResets : HostReady ready ∧ nothingRuns ready ∧
    (let s := { ready with sys := { ready.sys with measRst := true }, clk := { ready.clk with src := 1 } }
     HostReady s ∧ nothingRuns s ∧ s.sys.measRst = true ∧ s.tt.swPend = none ∧ clkSel s = 1 ∧
       planValid .refin (activePlan s) = true) := by decide

theorem test_witness_CommandStarts :
    (let s := { ready with cond := { ready.cond with queue := [cmdOf 0x14 0 0] } }
     s.cond.queue.head? = some (cmdOf 0x14 0 0) ∧ s.cond.running = none ∧ condRuns s = true ∧ mainReady s = true ∧
       s.cond.shipped = false ∧ s.cond.switchDone = [] ∧ ringRoom s ∧ s.pwr.warn = false ∧ (cmdOf 0x14 0 0).op ≠ 1) ∧
    (let s := { running ready with cond := { ready.cond with queue := [cmdOf 1 0 0] } }
     s.cond.queue.head? = some (cmdOf 1 0 0) ∧ condRuns s = true ∧ mainReady s = true ∧ ringRoom s ∧
       loadRefused (cmdOf 1 0 0) s = true ∧ loadRefused (cmdOf 1 1 0) s = false) ∧
    (let s := { ready with cond := { ready.cond with queue := [cmdOf 0x14 0 0] }, pwr := { ready.pwr with warn := true } }
     s.cond.queue.head? = some (cmdOf 0x14 0 0) ∧ condRuns s = true ∧ mainReady s = true ∧ ringRoom s ∧ s.pwr.warn = true) ∧
    (startedAs (cmdOf 0x14 0 0) (started 0x14 0 0 ready) ∧ 0x14 ≤ (cmdOf 0x14 0 0).op) := by decide

/-- A DISCOVER of port 0 is the front command. -/
def discoverNext (s : State) : State := { s with cond := { s.cond with queue := [cmdOf 3 0 0] } }

theorem test_witness_CommandStarts_discover :
    (let s := discoverNext (withPort 3 locked)
     s.cond.running = none ∧ condRuns s = true ∧ mainReady s = true ∧ s.cond.shipped = false ∧ s.cond.switchDone = [] ∧ ringRoom s ∧
       s.pwr.warn = false ∧ discoverRuns (cmdOf 3 0 0) s = true ∧ hfRunning s = true ∧ attached s 0 = true ∧ clockFault s = none) ∧
    (let s := discoverNext (withPort 2 { locked with clk := { locked.clk with state := .parked } })
     discoverRuns (cmdOf 3 0 0) s = true ∧ hfRunning s = false ∧ planValid (selRef s) (activePlan s) = true) := by
  (repeat' apply And.intro) <;> decide

/-- The image of a timetable with one MARK at offset 0 (Tables 10.1 and 10.2), its CRC as R192 gives it. -/
def oneMarkBytes : List Byte :=
  let l : List Byte := leBytes 4 0x5454484F ++ [1, 1, 0, 0] ++ leBytes 4 64 ++ leBytes 2 0 ++ leBytes 2 52 ++ List.replicate 16 0 ++
    leBytes 4 0 ++ leBytes 4 48 ++ [10, 0, 10, 0, 0, 0, 0, 0]
  l ++ leBytes 4 (crc32 l).toNat

/-- Table A holds an image. -/
def withImage (bs : List Byte) (s : State) : State := { s with mem := memStore s.mem 0x2000 bs }

theorem test_witness_TimetableLoad :
    (let s := started 1 0 0 (running ready)
     startedAs (cmdOf 1 0 0) s ∧ s.tt.activeValid = true ∧ s.tt.active = bitOf (cmdOf 1 0 0).a0 0 ∧ ttEn s = true) ∧
    (let s := started 1 0 0 ready
     startedAs (cmdOf 1 0 0) s ∧ s.tt.activeValid = false ∧ s.tt.swPend ≠ some (bitOf (cmdOf 1 0 0).a0 0) ∧
       loadFault (memLoad s.mem (ttBase (bitOf (cmdOf 1 0 0).a0 0)) 4096) = some (1, 0xFF)) ∧
    (let s := started 1 0 0 (withImage oneMarkBytes ready)
     startedAs (cmdOf 1 0 0) s ∧ s.tt.activeValid = false ∧
       loadFault (memLoad s.mem (ttBase (bitOf (cmdOf 1 0 0).a0 0)) 4096) = none) := by
  decide +kernel

theorem test_witness_TimetableSwitch :
    (let s := started 2 0 0 ready; startedAs (cmdOf 2 0 0) s ∧ instOf s (bitOf (cmdOf 2 0 0).a0 0) = none) ∧
    (let s := started 2 0 0 (running ready); startedAs (cmdOf 2 0 0) s ∧ instOf s (bitOf (cmdOf 2 0 0).a0 0) ≠ none ∧
      s.tt.frame = none ∧ s.cond.switches = []) := by decide

theorem test_witness_TimetableSwitch_in_a_frame :
    (let s := started 2 0 0 (inFrame (frameOf oneMark) (running ready))
     startedAs (cmdOf 2 0 0) s ∧ instOf s (bitOf (cmdOf 2 0 0).a0 0) ≠ none ∧ s.tt.frame ≠ none) := by
  (repeat' apply And.intro) <;> decide

/-- Pages as given are in the array. -/
def withPages (ps : List (Nat × NvPage)) (susp : Bool) (s : State) : State :=
  { s with nv := { s.nv with pages := ps, susp := susp, spares := 64 } }

/-- Journal page 8 holds a RUNNING clear of pages 48 to 50. -/
def journalled : State :=
  withPages [(8, madePage 8 0x5A 0 (journalBytes { jseq := 0, state := 1, cause := 0, first := 48, count := 3, next := 49, sec := 5 })
    .clean)] true ready

theorem test_witness_NvCommandStarts :
    (startedAs (cmdOf 8 8 1) (started 8 8 1 ready) ∧ nvPages readable (cmdOf 8 8 1) = none) ∧
    (startedAs (cmdOf 8 447 1) (started 8 447 1 ready) ∧ nvPages readable (cmdOf 8 447 1) = some [447] ∧
      (started 8 447 1 ready).nv.op = none ∧ (started 8 447 1 ready).nv.todo = [] ∧ (started 8 447 1 ready).ldg.job = none) ∧
    (startedAs (cmdOf 9 47 1) (started 9 47 1 ready) ∧ nvPages writable (cmdOf 9 47 1) = none) ∧
    (startedAs (cmdOf 9 48 1) (started 9 48 1 ready) ∧ nvPages writable (cmdOf 9 48 1) = some [48] ∧
      (clearHeld (started 9 48 1 ready) && journalTouches (started 9 48 1 ready) 48 49) = false) ∧
    (startedAs (cmdOf 10 7 2) (started 10 7 2 ready) ∧ fld (7 : Word) 0 9 < 16 ∧ 8 < fld (7 : Word) 0 9 + fld (2 : Word) 0 9) ∧
    (startedAs (cmdOf 10 0 0) (started 10 0 0 ready) ∧ fld (0 : Word) 0 9 = 0) ∧
    (startedAs (cmdOf 10 448 1) (started 10 448 1 ready) ∧ 448 < fld (448 : Word) 0 9 + fld (1 : Word) 0 9) ∧
    (startedAs (cmdOf 10 16 432) (started 10 16 432 ready) ∧ 16 ≤ fld (16 : Word) 0 9 ∧ fld (16 : Word) 0 9 + fld (432 : Word) 0 9 ≤ 448) ∧
    (startedAs (cmdOf 10 0 8) (started 10 0 8 ready) ∧ fld (0 : Word) 0 9 + fld (8 : Word) 0 9 ≤ 8 ∧
      clearHeld (started 10 0 8 ready) = false) := by
  (repeat' apply And.intro) <;> decide +kernel

theorem test_witness_NvCommandStarts_suspended :
    (startedAs (cmdOf 10 48 400) (started 10 48 400 journalled) ∧ clearHeld (started 10 48 400 journalled) = true) ∧
    (startedAs (cmdOf 12 0 0) (started 12 0 0 journalled) ∧ clearHeld (started 12 0 0 journalled) = true ∧
      (journal (started 12 0 0 journalled)).isSome = true) ∧
    (startedAs (cmdOf 13 0 0) (started 13 0 0 journalled) ∧ clearHeld (started 13 0 0 journalled) = true) ∧
    (startedAs (cmdOf 12 0 0) (started 12 0 0 ready) ∧ clearHeld (started 12 0 0 ready) = false) ∧
    (startedAs (cmdOf 13 0 0) (started 13 0 0 ready) ∧ clearHeld (started 13 0 0 ready) = false) := by
  (repeat' apply And.intro) <;> decide +kernel

theorem test_witness_NvCommandStarts_journalled :
    startedAs (cmdOf 9 48 1) (started 9 48 1 journalled) ∧ nvPages writable (cmdOf 9 48 1) = some [48] ∧
    clearHeld (started 9 48 1 journalled) = true ∧ journalTouches (started 9 48 1 journalled) 48 49 = true := by
  (repeat' apply And.intro) <;> decide +kernel

/-- The array holds a valid config image: that of a save. -/
def saved : State :=
  withPages ((savePages 3 ready).map (fun x => (x.1, madePage x.1 0x5A 3 x.2 .clean))) true ready

theorem test_witness_ConfigCommands :
    (let s := started 16 0 0 (withPages [(8, madePage 8 0x5A 0 (journalBytes
        { jseq := 0, state := 1, cause := 0, first := 7, count := 1, next := 7, sec := 5 }) .clean)] true ready)
     startedAs (cmdOf 16 0 0) s ∧ (clearHeld s && journalTouches s 0 8) = true) ∧
    (startedAs (cmdOf 16 0 0) (started 16 0 0 ready) ∧
      (clearHeld (started 16 0 0 ready) && journalTouches (started 16 0 0 ready) 0 8) = false) ∧
    (startedAs (cmdOf 17 0 0) (started 17 0 0 ready) ∧ imageValid (started 17 0 0 ready) = false) ∧
    (startedAs (cmdOf 17 0 0) (started 17 0 0 saved) ∧ imageValid (started 17 0 0 saved) = true ∧
      (started 17 0 0 saved).tt.frame = none ∧ (started 17 0 0 saved).sys.measRst = false) ∧
    (let s := started 17 0 0 { saved with sys := { saved.sys with measRst := true } }
     startedAs (cmdOf 17 0 0) s ∧ imageValid s = true ∧ s.sys.measRst = true) ∧
    (let s := started 17 0 0 (inFrame (frameOf oneMark) saved)
     startedAs (cmdOf 17 0 0) s ∧ imageValid s = true ∧ s.tt.frame ≠ none) := by
  (repeat' apply And.intro) <;> decide +kernel

theorem test_witness_SlotBinding :
    (startedAs (cmdOf 4 0 16) (started 4 0 16 ready) ∧ 16 ≤ fld (16 : Word) 0 5 ∧ fld (30 : Word) 0 5 ≤ 30 ∧
      (started 4 0 16 ready).disc.ports.length = 4) ∧
    (startedAs (cmdOf 4 0 31) (started 4 0 31 ready) ∧ fld (31 : Word) 0 5 = 31 ∧ attached (started 4 0 31 ready) 0 = false) ∧
    (startedAs (cmdOf 4 0 31) (started 4 0 31 (withPort 2 ready)) ∧ attached (started 4 0 31 (withPort 2 ready)) 0 = true) ∧
    (startedAs (cmdOf 4 0 15) (started 4 0 15 (withPort 2 ready)) ∧ fld (15 : Word) 0 5 < 16 ∧
      attached (started 4 0 15 (withPort 2 ready)) (fld (cmdOf 4 0 15).a0 0 2) = true) := by
  (repeat' apply And.intro) <;> decide

theorem test_witness_DiscoveryStarts :
    (startedAs (cmdOf 3 0x200 0) (started 3 0x200 0 ready) ∧ (cmdOf 3 0x200 0).auto = false ∧ bitOf (cmdOf 3 0x200 0).a0 9 = true) ∧
    (startedAs (cmdOf 3 0 0) (started 3 0 0 (withPort 0 ready)) ∧ bitOf (cmdOf 3 0 0).a0 9 = false ∧
      (portAt (started 3 0 0 (withPort 0 ready)) (fld (cmdOf 3 0 0).a0 0 2)).state = 0) ∧
    (startedAs (cmdOf 3 0 0) (started 3 0 0 ready) ∧ (portAt (started 3 0 0 ready) (fld (cmdOf 3 0 0).a0 0 2)).state = 1) ∧
    (let s := started 3 0 0 (withPort 2 ready)
     startedAs (cmdOf 3 0 0) s ∧ clockFault s = some rUnlocked ∧ (portAt s (fld (cmdOf 3 0 0).a0 0 2)).state = 2 ∧
       waitsForLine (cmdOf 3 0 0) s = false) ∧
    (let s := started 3 0 0 (withPort 2 locked)
     startedAs (cmdOf 3 0 0) s ∧ clockFault s = none ∧ hfRunning s = true ∧ (portAt s (fld (cmdOf 3 0 0).a0 0 2)).state = 2 ∧
       waitsForLine (cmdOf 3 0 0) s = false) ∧
    (let c : Cmd := { cmdOf 3 0 0 with auto := true }
     let t := withPort 3 locked
     let s := { t with cond := { t.cond with running := some (c, .fresh) } }
     startedAs c s ∧ c.auto = true ∧ attached s (fld c.a0 0 2) = true ∧ (portAt s (fld c.a0 0 2)).state ≠ 2 ∧
       waitsForLine c s = false) := by
  (repeat' apply And.intro) <;> decide

/-- A frame in which an ID_THERM conversion of pair A runs. -/
def thermFrame : Frame :=
  let c : Carriage :=
    { start := 0, dur := 4000, op := oAux, ch := 0, res := 4, needA := none, needB := none, arg := 0, aux := 0x0F }
  { frameOf { oneMark with cars := [c] } with runs := [{ CarRun.fresh with state := .running, converting := true }] }

/-- A discovery job of port 0 at a stage. -/
def discovering (stage : Nat) : State :=
  let s := withPort 2 locked
  { s with cond := { s.cond with running := some (cmdOf 3 0 0, .disc (DiscJob.new 0) stage 0) } }

theorem test_witness_DiscoveryStarts_line :
    (let s := inFrame thermFrame (discovering 0)
     atLine (cmdOf 3 0 0) (DiscJob.new 0) 0 s ∧ waitsForLine (cmdOf 3 0 0) s = true) ∧
    (let s := discovering 0
     atLine (cmdOf 3 0 0) (DiscJob.new 0) 0 s ∧ waitsForLine (cmdOf 3 0 0) s = false) := by
  (repeat' apply And.intro) <;> decide

theorem test_witness_DiscoveryHold :
    (let s := discovering 1
     s.pwr.warn = false ∧ condRuns s = true ∧ hfLocked s = true ∧ s.clk.bypass = false ∧ s.disc.ports.length = 4 ∧
       s.cond.running = some (cmdOf 3 0 0, .disc (DiscJob.new 0) 1 0) ∧ s.tt.frame = none) ∧
    (let s := discovering 2
     s.cond.running = some (cmdOf 3 0 0, .disc (DiscJob.new 0) 2 0) ∧ attached s (DiscJob.new 0).port.toNat = true) ∧
    (let t := discovering 2
     let s := { t with cal := { t.cal with holdPair := 1 } }
     s.cond.running = some (cmdOf 3 0 0, .disc (DiscJob.new 0) 2 0) ∧ (pairAt s (pairOf (DiscJob.new 0).port.toNat)).on = false ∧
       0 + leakCycles ≤ max s.clk.hf leakCycles) ∧
    armFault 50001 50001 = true ∧ armFault 100 100 = false ∧ (DiscJob.new 0).mine = none := by
  (repeat' apply And.intro) <;> decide

/-- The running command waits for its hold, or holds. -/
def holding (op : Nat) (a0 : Word) (j : Job) (s : State) : State :=
  { s with cond := { s.cond with running := some (cmdOf op a0 0, j) } }

theorem test_witness_CalibrationStarts :
    (startedAs (cmdOf 6 0x10 0) (started 6 0x10 0 locked) ∧ calArgsBad (cmdOf 6 0x10 0) = true) ∧
    (startedAs (cmdOf 5 0 0) (started 5 0 0 ready) ∧ clockFault (started 5 0 0 ready) = some rUnlocked ∧
      calArgsBad (cmdOf 5 0 0) = false) ∧
    (let s := started 7 0x101 0 locked
     startedAs (cmdOf 7 0x101 0) s ∧ clockFault s = none ∧ calArgsBad (cmdOf 7 0x101 0) = false ∧ hfRunning s = true ∧
       modeS (cmdOf 7 0x101 0) = true) ∧
    (let s := started 6 0x10010 0 locked
     startedAs (cmdOf 6 0x10010 0) s ∧ clockFault s = none ∧ calArgsBad (cmdOf 6 0x10010 0) = false ∧
       modeS (cmdOf 6 0x10010 0) = false) ∧
    (let s := started 6 0x10010 0 { locked with clk := { locked.clk with state := .parked } }
     startedAs (cmdOf 6 0x10010 0) s ∧ clockFault s = none ∧ hfRunning s = false ∧ planValid (selRef s) (activePlan s) = true) ∧
    (let s := holding 5 0 .waitHold locked
     (cmdOf 5 0 0).op = 5 ∧ s.cond.running = some (cmdOf 5 0 0, .waitHold) ∧ s.tt.frame = none ∧ condRuns s = true ∧ s.clk.bypass = false ∧
       s.pwr.warn = false) := by
  (repeat' apply And.intro) <;> decide

theorem test_witness_CalibrationResults :
    (let s := holding 5 0 .holding locked
     s.cond.running = some (cmdOf 5 0 0, .holding) ∧ condRuns s = true ∧ hfLocked s = true ∧ s.clk.bypass = false ∧
       s.pwr.warn = false ∧ s.tt.frame = none ∧ ringRoom s ∧ s.cond.switchDone = [] ∧ Memory.wf s.mem = true) ∧
    ((List.replicate 8 8192).length = 8 ∧ (List.replicate 8 8192).foldl (· + ·) 0 = 65536 ∧
      (tapMap (List.replicate 8 8192)).2 ≤ 128) ∧
    ([65536, 0, 0, 0, 0, 0, 0, 0].foldl (· + ·) 0 = 65536 ∧ 128 < (tapMap [65536, 0, 0, 0, 0, 0, 0, 0]).2) ∧
    ((holding 6 0x10010 .holding locked).cond.running = some (cmdOf 6 0x10010 0, .holding) ∧
      (List.range 45).any (modMeasured 0x10010) = true ∧ modResidual 0x10010 [-500] 0 = 500 ∧ modResidual 0x10010 [501] 0 = 501 ∧
      locked.cal.modTrim.length = 45) ∧
    ((holding 7 0x100 .holding locked).cond.running = some (cmdOf 7 0x100 0, .holding) ∧
      10 ≤ leastMargin 0x100 3000 [(1700000, 1370000)] ∧ leastMargin 0x100 3000 [(1649000, 1410000)] < 10 ∧
      locked.cal.evtTrim.length = 7) := by
  (repeat' apply And.intro) <;> decide +kernel

theorem test_witness_SelftestAndShip :
    (startedAs (cmdOf 0x12 0x800 0) (started 0x12 0x800 0 locked) ∧ (cmdOf 0x12 0x800 0).a0 &&& 0x7FF = 0) ∧
    (let s := started 0x12 0x39F 0 locked
     startedAs (cmdOf 0x12 0x30F 0) (started 0x12 0x30F 0 locked) ∧ (cmdOf 0x12 0x30F 0).a0 &&& 0x7FF ≠ 0 ∧
       (cmdOf 0x12 0x30F 0).a0 &&& 0x4F0 = 0 ∧ clockFault s = none ∧ nvTestFails s = false) ∧
    (let s := started 0x12 0x7FF 0 ready
     startedAs (cmdOf 0x12 0x7FF 0) s ∧ (cmdOf 0x12 0x7FF 0).a0 &&& 0x7FF ≠ 0 ∧ clockFault s = some rUnlocked) ∧
    (let s := started 0x12 0x400 0 locked
     startedAs (cmdOf 0x12 0x400 0) s ∧ (cmdOf 0x12 0x400 0).a0 &&& 0x460 ≠ 0 ∧ clockFault s = none ∧
       planValid (selRef s) (activePlan s) = true) ∧
    (let s := started 0x13 0 0 { ready with pins := { ready.pins with waken := false } }
     startedAs (cmdOf 0x13 0 0) s ∧ s.pins.waken = false) ∧
    (startedAs (cmdOf 0x13 0 0) (started 0x13 0 0 ready) ∧ ready.pins.waken = true ∧ ready.cond.queue = []) := by
  (repeat' apply And.intro) <;> decide +kernel

theorem test_witness_WatchdogAndRestart :
    (let s := { ready with cond := { ready.cond with awake := true, wdog := 1639 } }
     s.cond.awake = true ∧ condRuns s = true ∧ 1639 ≤ s.cond.wdog) ∧
    (let s := { ready with cond := { ready.cond with inReset := true }, sys := { ready.sys with phase := .journal } }
     s.cond.inReset = true ∧ mainUp s = true ∧ mainReady s = false ∧ nothingRuns s ∧ orphanBusy s = false) ∧
    (let s := { ready with
       cond := { ready.cond with inReset := true }
       nv := { ready.nv with op := some { ledger := false, orphan := true, page := 48, write := some (0x5A, 0, [1]), task := none } } }
     s.cond.inReset = true ∧ orphanBusy s = true) ∧
    (let t := started 1 0 0 ready
     let s := { t with cond := { t.cond with inReset := true } }
     s.cond.inReset = true ∧ mainReady s = true ∧ mainUp s = true ∧ s.cond.running = some (cmdOf 1 0 0, .fresh) ∧ s.pwr.warn = false ∧
       s.ldg.job = none ∧ s.nv.op = none ∧ s.cond.switchDone = [] ∧ s.nv.suspend = [] ∧ ringRoom s ∧ noHolds s ∧
       Memory.wf s.mem = true) := by
  (repeat' apply And.intro) <;> decide

/-- A page operation of the running command. -/
def pageOp (op : Nat) (w : Option (Byte × Byte × List Byte)) (s : State) : State :=
  let t := { s with nv := { s.nv with op := some { ledger := false, orphan := false, page := 48, write := w, task := none } } }
  { t with cond := { t.cond with running := some (cmdOf op 48 1, .pages [48] 0 0 0 false false) } }

theorem test_witness_PageOperations :
    (let s := { ready with nv := { ready.nv with op := some { ledger := false, orphan := false, page := 48, write := some (0x5A, 0, [1]), task := none } } }
     s.nv.op.isSome = true ∧ nothingRuns s) ∧
    (let s := pageOp 9 (some (0x5A, 0, [1])) ready
     s.cond.running = some (cmdOf 9 48 1, .pages [48] 0 0 0 false false) ∧ s.pwr.warn = false ∧ condRuns s = true ∧ ringRoom s ∧
       noHolds s ∧ s.cond.switchDone = [] ∧ Memory.wf s.mem = true) ∧
    (let s := pageOp 8 none (withPages [(48, madePage 48 0x5A 0 (List.replicate 64 7) .clean)] true ready)
     s.cond.running = some (cmdOf 8 48 1, .pages [48] 0 0 0 false false) ∧ validData 48 (pageAt s 48) = true ∧
       (pageAt s 48).data.length = 64 ∧ condRuns s = true ∧ noHolds s ∧ ringRoom s ∧ s.cond.switchDone = [] ∧
       s.pwr.warn = false) := by
  (repeat' apply And.intro) <;> decide +kernel

/-- The health table's page 12 counts 7 for physical page 48. -/
def worn : State := withPages [(12, madePage 12 0x5A 0 (List.replicate 24 0 ++ [7]) .clean)] true ready

/-- As `worn`, with no spare free: the map names page 16 in every entry. -/
def wornOut : State :=
  withPages ([(10, madePage 10 0x5A 0 ((List.range 32).flatMap (fun _ => [16, 0])) .clean),
              (11, madePage 11 0x5A 0 ((List.range 32).flatMap (fun _ => [16, 0])) .clean),
              (12, madePage 12 0x5A 0 (List.replicate 24 0 ++ [7]) .clean)]) true ready

theorem test_witness_PageOperations_verify :
    (let s := pageOp 9 (some (0x5A, 0, [1])) ready
     s.nv.op.isSome = true ∧ s.pwr.mainOn = true ∧ countDue s (physOf s 48) < 7) ∧
    (let w : NvOp := { ledger := false, orphan := false, page := 48, write := some (0x5A, 0, [1]), task := none }
     let s := { worn with nv := { worn.nv with op := some w } }
     s.nv.op = some w ∧ nothingRuns s ∧ s.pwr.mainOn = true ∧ countDue s (physOf s 48) = 7 ∧ freeSpares s ≠ []) ∧
    (let w : NvOp := { ledger := false, orphan := false, page := 48, write := some (0x5A, 0, [1]), task := none }
     let s := { wornOut with nv := { wornOut.nv with op := some w } }
     nothingRuns s ∧ countDue s (physOf s 48) = 7 ∧ freeSpares s = []) ∧
    (let s := { ready with nv := { ready.nv with op := some (opRead 16) } }
     nothingRuns s ∧ s.pwr.mainOn = true ∧ s.nv.op = some (opRead 16) ∧ worstOf (pageAt s 16).ecc .corrected = .corrected ∧
       worstOf (pageAt s 16).ecc .uncorrectable = .uncorrectable) := by
  (repeat' apply And.intro) <;> decide +kernel

theorem test_witness_DirectCommands :
    (let s := { locked with ldg := { locked.ldg with ctl := 1, wait := [({ lap := true, tag := 3 }, true)] } }
     condRuns s = true ∧ nothingRuns s ∧ ringRoom s ∧ Memory.wf s.mem = true ∧ s.ldg.wait = [({ lap := true, tag := 3 }, true)] ∧
       s.ldg.laps = 0 ∧ s.sys.measRst = false ∧ ldgOn s = true ∧ s.ldg.job = none ∧ fineClock s = true ∧ quietInputs s ∧
       s.tt.frame = none) ∧
    (let s := { locked with ldg := { locked.ldg with wait := [({ lap := false, tag := 3 }, false)] } }
     condRuns s = true ∧ s.ldg.wait = [({ lap := false, tag := 3 }, false)] ∧ s.ldg.laps = 0 ∧ ldgEn s = false ∧
       s.ldg.recovers = none ∧ s.ldg.offPend = false ∧ s.sys.measRst = false ∧ fineClock s = true ∧ quietInputs s) ∧
    fineClock ready = false ∧
    (let s := { ready with nv := { ready.nv with suspend := [4] } }
     condRuns s = true ∧ nothingRuns s ∧ ringRoom s ∧ s.nv.suspend = [4] ∧ s.nv.running = false) ∧
    (let t := holding 10 48 (.clear [49] 1 1 48 2 0 false) ready
     let s := { t with nv := { t.nv with suspend := [4], running := true } }
     condRuns s = true ∧ s.pwr.warn = false ∧ s.nv.suspend ≠ [] ∧ s.nv.running = true ∧ jobOpBusy s = false ∧ s.nv.op = none ∧
       s.nv.todo = [] ∧ s.ldg.job = none) ∧
    (let t := holding 10 48 (.clear [49] 1 1 48 2 0 false) ready
     let s := { t with nv := { t.nv with suspend := [4], running := true, op := some (opRead 49) } }
     condRuns s = true ∧ s.nv.running = true ∧ jobOpBusy s = true) := by
  (repeat' apply And.intro) <;> decide

theorem test_witness_DirectCommands_joined :
    (let t := { locked with ldg := { locked.ldg with ctl := 1, wait := [({ lap := true, tag := 3 }, true)] } }
     let x : LdgInst := { qtick := qtickAt t 1000, req := LdgReq.none, seq := 5 }
     let s := { t with ldg := { t.ldg with
       inst := some x
       job := some { snap := { stamp := { sec := 0, frac := 0, coarse := true }, seq := 5, kind := 1, flags := 0, lap := 0, run := [], cnt := [],
                               refused := 0, ivlStart := 0, srcSeq := 0, wfail := 0, cause := 0 }, pages := 0, bad := false, cmds := [] } } }
     condRuns s = true ∧ nothingRuns s ∧ ringRoom s ∧ s.ldg.wait = [({ lap := true, tag := 3 }, true)] ∧ s.ldg.laps = 0 ∧
       s.sys.measRst = false ∧ quietInputs s ∧ ldgOn s = true ∧ fineClock s = true ∧ s.ldg.inst = some x ∧ x.qtick = qtickAt (advance 1000 s) (advance 1000 s).clk.hf ∧
       s.ldg.job.map (fun j => (j.snap.seq, j.pages)) = some (x.seq, 0) ∧ s.ldg.jobs = []) := by
  (repeat' apply And.intro) <;> decide +kernel

/-- The main start stands at a phase. -/
def atPhase (p : Phase) (s : State) : State := { s with sys := { s.sys with phase := p } }

theorem test_witness_MainStartSteps : ready.pwr.mainOn = true ∧ (atPhase .held ready).sys.phase = .held ∧
    (atPhase .released ready).sys.phase = .released ∧ (atPhase .config ready).cond.inReset = false ∧
    (atPhase .hfrc ready).cond.inReset = false ∧ Memory.wf (atPhase .journal ready).mem = true := by decide

theorem test_witness_ConfigStepAndBootRecord :
    (let s := { atPhase .cleared ready with sys := { (atPhase .cleared ready).sys with cfgDone := false } }
     s.pwr.mainOn = true ∧ s.cond.inReset = false ∧ s.sys.phase = .cleared ∧ s.sys.cfgDone = false ∧ imageValid s = false ∧
       s.disc.ports.length = 4) ∧
    imageValid (atPhase .cleared saved) = true ∧
    (let s := atPhase .ledger ready
     s.sys.phase = .ledger ∧ s.pwr.mainOn = true ∧ s.cond.inReset = false ∧ ringRoom s ∧ Memory.wf s.mem = true ∧
       nothingRuns s ∧ clkSel { s with clk := { s.clk with src := 1 } } = 1 ∧ planValid .refin (activePlan s) = true) := by
  (repeat' apply And.intro) <;> decide +kernel

theorem test_witness_ResetsAndColdStart : ready.pwr.mainOn = true ∧ ready.pwr.ship = false ∧ mainReady ready = true ∧
    (let s := { ready with pwr := { ready.pwr with aonOn := false } }; s.pwr.aonOn = false ∧ aonRelease s < 1501) ∧
    (aonRelease ready < 1881 ∧ aonRelease ready < 1820) ∧
    (let s := { ready with sys := { ready.sys with x32Run := false } }
     s.pwr.aonOn = true ∧ s.pwr.ship = false ∧ s.sys.x32Run = false) := by decide

/-- With supplies as given. -/
def at_ (vdd vbat : Nat) (s : State) : State := { s with pins := { s.pins with vdd := vdd, vbat := vbat } }

theorem test_witness_SelectorAndFallback :
    (ready.pwr.aonOn = true ∧ ready.pwr.ship = false) ∧
    (calledVbat (at_ 1400 1426 ready) ≠ ready.pwr.sideVbat ∧ 1400 ≤ sideLevel (at_ 1400 1426 ready) (calledVbat (at_ 1400 1426 ready))) ∧
    (let s := { ready with pwr := { ready.pwr with eff := 0x12, ctl := 0x12 } }
     calledVbat (at_ 1399 1400 s) = s.pwr.sideVbat ∧ sideLevel (at_ 1399 1400 s) s.pwr.sideVbat < 1400 ∧
       1400 ≤ sideLevel (at_ 1399 1400 s) (!s.pwr.sideVbat)) ∧
    bothLow (at_ 1399 1399 ready) = true ∧
    (bothLow (at_ 1599 1400 ready) = false ∧ ready.pwr.mainOn = true ∧ 1599 < vOff (at_ 1599 1400 ready) ∧ ready.nv.op = none) ∧
    (let s := { ready with pwr := { ready.pwr with mainOn := false, ranVbat := true } }
     bothLow (at_ 1851 1400 s) = false ∧ s.pwr.mainOn = false ∧ vOff (at_ 1851 1400 s) + 50 < 1851 ∧ s.pwr.coldNew = false) := by decide

theorem test_witness_ChargerAndPortSupply :
    (let s := { supply with pwr := { supply.pwr with trickle := 0x41, trickleOn := true } }
     supplied s ∧ s.pwr.trickleOn = true ∧ vTerm s ≤ 2800 ∧ vOff { s with pins := { s.pins with vbat := 2800 } } ≤ s.pins.vdd) ∧
    (let s := { supply with pwr := { supply.pwr with trickle := 0x41, trickleOn := false } }
     supplied s ∧ s.pwr.trickleOn = false ∧ 2699 + 100 < vTerm s ∧ bitOf s.pwr.trickle 0 = true ∧ 2699 + 200 ≤ s.pins.vdd ∧
       vOff { s with pins := { s.pins with vbat := 2699 } } ≤ s.pins.vdd) ∧
    (let s := { supply with pwr := { supply.pwr with trickle := 0x41, trickleOn := true } }
     supplied s ∧ 2000 < vTerm s ∧ 2199 < 2000 + 200 ∧ 1400 ≤ 2199 ∧
       vOff { s with pins := { s.pins with vdd := 2199, vbat := 2000 } } ≤ 2199) := by
  (repeat' apply And.intro) <;> decide

theorem test_witness_ResetsAndColdStart_ship :
    (let s := { supply with pwr := { supply.pwr with shipIn := some 1 } }
     supplied { s with pwr := { s.pwr with shipIn := none } } ∧ s.pwr.shipIn = some 1 ∧ s.pwr.castlings = [] ∧
       s.pwr.clearPend = false ∧ bitOf s.alm.alctl 0 = false ∧ bitOf s.alm.alctl 16 = false ∧ Memory.wf s.mem = true) ∧
    (let s := { supply with pwr := { supply.pwr with ship := true, mainOn := false, shipVddLow := true } }
     s.pwr.ship = true ∧ vOff s + 50 < s.pins.vdd ∧ s.pwr.shipVddLow = true ∧ s.pwr.aonOn = true ∧ s.pins.vbat ≤ 4000 ∧
       vOff { s with pins := { s.pins with vdd := 1851 } } + 50 < 1851) := by
  (repeat' apply And.intro) <;> decide

theorem test_witness_SelectorAndFallback_castlings :
    (let s := { ready with pwr := { ready.pwr with castlings := [true], firstValid := true } }
     s.pwr.castlings ≠ [] ∧ ktickRuns s = true ∧ (s.pwr.firstValid && !s.pwr.clearPend) = true) ∧
    (let s := { ready with pwr := { ready.pwr with castlings := [false, true], firstValid := true, clearPend := true, castleCount := 7 } }
     s.pwr.castlings ≠ [] ∧ ktickRuns s = true ∧ (s.pwr.firstValid && !s.pwr.clearPend) = false) := by decide

theorem test_witness_CastlingRegistration :
    (let s := { ready with pwr := { ready.pwr with castlings := [true], firstValid := true } }
     s.pwr.castlings = [true] ∧ s.pwr.clearPend = false ∧ s.sys.x32Run = true ∧ ktickRuns s = true ∧ s.pwr.firstValid = true) ∧
    (let s := { ready with pwr := { ready.pwr with castlings := [false] } }
     s.pwr.castlings = [false] ∧ s.pwr.clearPend = false ∧ s.sys.x32Run = true ∧ ktickRuns s = true ∧ s.pwr.firstValid = false) := by
  decide

theorem test_witness_CountAtAnEdge :
    (supply.pwr.aonOn = true ∧ supply.pwr.ship = false ∧ bothLow supply = false ∧ restoreWaits supply = true ∧
      supply.pwr.mainOn = true) ∧
    (let s := { supply with sys := { supply.sys with x32Run := false } }; supplied s ∧ s.sys.x32Run = false) ∧
    (let s := withRtc { supply.rtc with started := false } supply; supplied s ∧ s.sys.x32Run = true ∧ s.rtc.started = false) ∧
    (let s := withRtc { supply.rtc with ctl := 1, shiftPend := some 1 } supply
     supplied s ∧ bitOf s.rtc.ctl 0 = true ∧ s.rtc.shiftPend ≠ none) ∧
    (let s := withRtc { supply.rtc with halted := true } supply; supplied s ∧ bitOf s.rtc.ctl 0 = false ∧ s.rtc.halted = true) ∧
    (let s := withRtc { supply.rtc with presc := 0x7FFF } supply
     supplied s ∧ counts s ∧ correctionFalls s = false ∧ s.rtc.shiftPend = none ∧ s.rtc.presc = 0x7FFF) ∧
    (let s := withRtc { supply.rtc with shiftPend := some 0x8001 } supply; counts s ∧ correctionFalls s = false) ∧
    (let s := withRtc { supply.rtc with trimT := -1, trimAcc := 2097151 } supply; counts s ∧ correctionFalls s = true) ∧
    (let s := withRtc { supply.rtc with winEdge := 2097152 } supply; supplied s ∧ s.rtc.started = true ∧ 2097152 ≤ s.rtc.winEdge) ∧
    (let s := withRtc { supply.rtc with winEdge := 2097151, trimT := 1, trimAcc := 2097151 } supply
     s.rtc.started = true ∧ s.rtc.winEdge < 2097152 ∧ correctionFalls s = true) ∧
    (let s := withRtc { supply.rtc with winEdge := 2093056 } supply; supplied s ∧ s.rtc.winEdge = 2093056 ∧ s.pwr.onVbat = false) := by
  (repeat' apply And.intro) <;> decide

/-- Alarm 0 at second 1, repeating as given, its commit check as given. -/
def alarmed (rep : Nat) (chk : Bool) (sec : Word) (presc : BitVec 15) : State :=
  { withRtc { supply.rtc with sec := sec, presc := presc } supply with
    alm := { Alm.reset with alm0 := 1, alctl := 1 ||| put 1 2 rep, chk0 := chk } }

theorem test_witness_AlarmsAtAnEdge :
    (let s := alarmed 0 true 1 0
     supplied s ∧ plainEdge s ∧ alBit s false 0 = true ∧ alChk s false = true ∧ alarmTarget s false ≤ countNow s ∧ alarmRep s false = 0) ∧
    (let s := alarmed 0 true 0 0x7FFE
     supplied s ∧ plainEdge s ∧ alChk s false = true ∧ countNow s + 1 < alarmTarget s false) ∧
    (let s := alarmed 1 false 0 0x7FFF
     supplied s ∧ plainEdge s ∧ alBit s false 0 = true ∧ alarmTarget s false = countNow s + 1 ∧ alarmRep s false ≠ 0) ∧
    (alarmTarget (alarmed 0 false 0 0x7FFF) false = countNow (alarmed 0 false 0 0x7FFF) + 1 ∧ alarmRep (alarmed 0 false 0 0) false = 0) := by
  (repeat' apply And.intro) <;> decide

/-- The countdown stands at a count, enabled. -/
def counting (n : BitVec 24) (presc : BitVec 15) (load : Option (BitVec 24)) : State :=
  { withRtc { supply.rtc with presc := presc } supply with alm := { Alm.reset with count := n, cdctl := 1, loadPend := load } }

theorem test_witness_CountdownAndTtStart :
    (let s := counting 2 7 none
     supplied s ∧ plainEdge s ∧ s.alm.loadPend = none ∧ s.alm.tsel = BitVec.ofNat 2 (fld s.alm.cdctl 1 2) ∧ bitOf s.alm.cdctl 0 = true ∧
       (s.rtc.presc.toNat + 1) % tickLen s.alm.tsel = 0 ∧ 1 < s.alm.count.toNat) ∧
    (let s := { counting 1 0x7FFF none with alm := { (counting 1 0x7FFF none).alm with cdctl := 7, tsel := 3, sub60 := 59 } }
     supplied s ∧ plainEdge s ∧ s.alm.tsel = BitVec.ofNat 2 (fld s.alm.cdctl 1 2) ∧
       (s.rtc.presc.toNat + 1) % tickLen s.alm.tsel = 0 ∧ s.alm.sub60 = 59 ∧ s.alm.count = 1) ∧
    (let s := counting 1 7 (some 0); plainEdge s ∧ s.alm.loadPend = some 0) ∧
    (let s := { withRtc { supply.rtc with presc := 0x7FFF } supply with tt := { supply.tt with ctl := 8, startSec := 1 } }
     supplied s ∧ plainEdge s ∧ bitOf s.tt.ctl 3 = true ∧ ttTarget s = countNow s + 1) := by
  (repeat' apply And.intro) <;> decide

/-- A coming edge. -/
def e0 : Edge := ⟨1000, 0⟩

theorem test_witness_OtherEdgeOccurrences_clock :
    (let s := { running supply with
       tt := { (running supply).tt with ctl := 9, startSec := 0, startFrac := 0x80000, instA := some { oneMark with lead := 6 } }
       clk := { Clk.reset with src := 1, state := .parked, bypass := false } }
     restoreWaits s = true ∧ supplied s ∧ clkSel s ≠ 0 ∧ planValid (selRef s) (activePlan s) = true ∧ preWakeFalls e0 s = true ∧
       s.pwr.warn = false ∧ warnLatches s = false) ∧
    (let s := { supply with clk := { Clk.reset with src := 2, state := .bypass, retryIn := some 1 } }
     restoreWaits s = true ∧ supplied s ∧ clkSel s = 2 ∧ planValid (selRef s) (activePlan s) = true ∧ s.clk.bypass = true ∧ s.clk.retryIn = some 1 ∧
       s.clk.acq = none ∧ s.clk.verifying = false) ∧
    (let s := { supply with out := { supply.out with ivl := some 1 } }; supplied s ∧ s.out.ivl = some 1) := by
  (repeat' apply And.intro) <;> decide +kernel

theorem test_witness_OtherEdgeOccurrences :
    (let s := { withRtc { supply.rtc with presc := 0x7FFF } supply with ldg := { Ldg.reset with ctl := 0x11 } }
     supplied s ∧ intervalEnds (nextTick e0 s).1 (nextTick e0 s).2 = true) ∧
    (let s := { withRtc { supply.rtc with presc := 0x7FFF } supply with ldg := { Ldg.reset with ctl := 0x10001, added := true } }
     supplied s ∧ checkpointFalls (nextTick e0 s).1 (nextTick e0 s).2 = true) ∧
    (let u := setSupplies 1949 supply.pins.vbat supply; restoreWaits supply = true ∧ supplied u ∧ warnLatches u = true) ∧
    (let s := { supply with pwr := { supply.pwr with warn := true, warnAbove := 31 } }
     let u := setSupplies 2001 s.pins.vbat s
     supplied u ∧ warnEnds u = true) := by
  (repeat' apply And.intro) <;> decide +kernel

/-- An acquisition of a cause, in its first or second window. -/
def acquiring (cause : AcqBy) (windows : Nat) (hop : Bool) : State :=
  { supply with clk := { Clk.reset with
      src := 9, state := .acq, ref := .refin, acq := some { cause := cause, hop := hop, windows := windows, fromHf := false, prev := .none } } }

theorem test_witness_LockAndDrift_windows :
    mainUp (acquiring .clkSrc 0 true) = true ∧ noRestore (acquiring .clkSrc 0 true) = true ∧ (acquiring .clkSrc 0 true).clk.acq.isSome = true ∧
    windowPasses (acquiring .clkSrc 0 true) 381 = true ∧ windowPasses (acquiring .clkSrc 0 true) 0 = false ∧
    (acquiring .clkSrc 0 true).clk.verify = false ∧ (acquiring .clkSrc 0 true).clk.bypass = true ∧
    (acquiring .clkSrc 0 true).clk.episode = true ∧
    (let s := acquiring .retry 1 false
     windowPasses { s with clk := { s.clk with verify := true } } 381 = true ∧ windowPasses s 0 = false) ∧
    windowPasses (acquiring .clkPlan 1 true) 0 = false ∧
    (let s := acquiring .clkSrc 1 false
     windowPasses { s with clk := { s.clk with retryIn := some 5 } } 0 = false) ∧
    (acquiring .retry 1 false).clk.ref = .refin ∧ hfRunning (acquiring .retry 1 false) = true ∧
    bitOf (acquiring .retry 1 false).clk.src 3 = true := by
  (repeat' apply And.intro) <;> decide +kernel

theorem test_witness_LockAndDrift_locked :
    mainUp locked = true ∧ locked.clk.acq = none ∧ hfLocked locked = true ∧ windowPasses locked 0 = false ∧ clkSel locked = 1 ∧
    planValid .refin (activePlan locked) = true ∧ locked.clk.ref = .refin ∧ hfRunning locked = true ∧
    (let s := { locked with clk := { locked.clk with periods := 1024, winQ := 12510000 } }
     noRestore s = true ∧ s.clk.winQ = 12510000 ∧ hfLocked s = true ∧ 1024 ≤ s.clk.periods ∧ s.clk.ref = .refin ∧ (activePlan s).rel = false ∧ s.clk.verifying = false ∧
       fld s.clk.limits 20 12 ≠ 0 ∧ fld s.clk.limits 8 12 ≠ 0 ∧
       16 * fld s.clk.limits 20 12 < (limit (-8388607) 8388607
        (divrhe (16000000 * (32 * (12510000 : Int) - (fNomKHz s * 1000 : Nat))) (fNomKHz s * 1000 : Nat))).1.natAbs) ∧
    (let s := { locked with clk := { locked.clk with limits := 0 } }; fld s.clk.limits 20 12 = 0 ∧ s.clk.verifying = false) ∧
    (let s := { locked with clk := { locked.clk with spreadNow := .triangle 1 4, spreadFrom := 1000 } }
     spreadLen s.clk.spreadNow = 512 ∧ hfRunning s = true ∧ s.clk.spreadFrom ≤ s.clk.hf) ∧
    hfRunning ready = false ∧ locked.clk.spreadNow = .off := by
  (repeat' apply And.intro) <;> decide +kernel

/-- Input 0 enabled with fast filter 0 and slow filter 1, its pin high, its accepted level low. -/
def watched (s : State) : State :=
  { s with
    pins := { s.pins with ev := 1, sync := true }
    evin := { s.evin with incfg := 0x01000004 } }

/-- Inputs 0 and SYNC each confirm a change on the fast path. -/
def confirming : State :=
  let c : Option Confirm := some (.fast { sec := 0, frac := 0, coarse := true } 1000 1008 none)
  let t := watched locked
  { t with evin := { t.evin with conf := [c, none, none, none, none, none, c] } }

theorem test_witness_InputsAndSync :
    (mainUp (watched ready) = true ∧ restoreWaits (watched ready) = true ∧ fastPath (watched ready) = false ∧ (6 : BitVec 3).toNat ≤ 6 ∧
      (watched ready).evin.cmpAt = none) ∧
    (let t := watched locked
     let s := { t with pins := { t.pins with ev := 0, sync := false } }
     fastPath s = true ∧ inEn s 0 = true ∧ pinOf s 0 = accepted s 0 ∧ true ≠ pinOf s 0 ∧ confOf s 0 = none ∧
       s.evin.conf.length = 7) ∧
    (let s := confirming
     (fastReady s 0).isSome = true ∧ (fastReady s 6).isSome = true ∧ accepted s 6 = false ∧ s.evin.conf.length = 7 ∧
       s.evin.st.length = 6) ∧
    (let s := watched supply
     supplied s ∧ fastReady s 0 = none ∧ slowFalls 0 e0 s = true ∧ s.evin.conf.length = 7 ∧ accepted s 6 = false ∧
       fastReady s 6 = none ∧ slowFalls 6 e0 s = true ∧ fineClock s = false) ∧
    (let s := { ready with evin := { ready.evin with syncLevel := true } }; mainUp s = true ∧ accepted s 6 = true) := by
  (repeat' apply And.intro) <;> decide +kernel

/-- Input 0 alone confirms a change, its machine's entry for a low level as given. -/
def confirmingAs (entry : Byte) : State :=
  let c : Option Confirm := some (.fast { sec := 0, frac := 0, coarse := true } 1000 1008 none)
  let t := watched locked
  { t with mem := memStore t.mem 0x7500 [entry], evin := { t.evin with conf := [c, none, none, none, none, none, none] } }

theorem test_witness_InputsAndSync_logged :
    (let s := confirmingAs 0x08
     freshFalls 0 s = false ∧ (fastReady s 0).isSome = true ∧ s.evin.conf.length = 7 ∧ s.evin.st.length = 6 ∧ nothingRuns s ∧ nothingWaits s ∧
       s.evin.rise = none ∧ s.evin.conf.tail.all Option.isNone = true ∧ Memory.wf s.mem = true ∧ smEntry s 0 (!pinOf s 0).toNat = 0x08) ∧
    (let s := confirmingAs 0
     (fastReady s 0).isSome = true ∧ smEntry s 0 (!pinOf s 0).toNat = 0) ∧
    (let t := watched locked
     let s := { t with evin := { t.evin with fresh := 1, cmpAt := some 1008 } }
     mainUp s = true ∧ freshFalls 0 s = true ∧ s.evin.conf.length = 7 ∧ s.evin.st.length = 6) := by
  (repeat' apply And.intro) <;> decide +kernel

/-- A carriage. -/
def carOf (start dur op res : Nat) (arg aux : Byte) : Carriage :=
  { start := start, dur := dur, op := op, ch := 0, res := res, needA := none, needB := none, arg := arg, aux := aux }

/-- A frame whose only carriage is as given, beside a MARK at its end, with frame values of channels 0 and 1. -/
def single (c : Carriage) : Frame :=
  { frameOf { oneMark with body := 100000, cars := [c, carOf 90000 48 oMark 10 0 0] } with
    vals := [(0, { v := 5, stamp := { sec := 0, frac := 0, coarse := true }, flags := 0 }),
             (1, { v := 6, stamp := { sec := 0, frac := 0, coarse := true }, flags := 0 })]
    raws := [(0, { v := 5, stamp := { sec := 0, frac := 0, coarse := true }, flags := 0 })] }

/-- Channel 0 sealed with a kind byte and an aux code, enabled. -/
def sealedAs (kind aux : Byte) : State :=
  { locked with ros := { locked.ros with sealed := locked.ros.sealed.set 0 ([kind, 0, 0, 0, aux, 0, 0, 0, 0, 1, 1] ++ List.replicate 20 0 ++ [0x80]) }
                afe := { locked.afe with eff := 0x703F, ctl := 0x703F }, ldg := { locked.ldg with ctl := 1 }
                disc := { locked.disc with ports := List.replicate 4 { Port.reset with state := 2 } } }

/-- A carriage starts next in a state, R206 passes it or not, and the machine at its start is as asked. -/
def meets (c : Carriage) (ok : Bool) (s0 : State) (p : State → Frame → List Byte → Bool) : Bool :=
  let s := inFrame (single c) s0
  let u := toStart 0 s
  match u.tt.frame with
  | some f =>
    let d := versionOr u f c.ch
    mayStart 0 c.op s && carAt f.img.cars 0 == c && (startFault u f c d == none) == ok && p u f d
  | none => false

/-- A carriage is the next to start, and R206 passes it. -/
def passes (c : Carriage) (kind aux : Byte) : Bool := meets c true (sealedAs kind aux) (fun _ _ _ => true)

theorem test_witness_CarriageStarts :
    passes (carOf 0 16 oExcite 5 0 0) 0 0 = true ∧ passes (carOf 0 16 oExcOff 5 0 0) 0 0 = true ∧
    passes (carOf 0 4000 oConvert 0 0 0) 0x40 0 = true ∧ passes (carOf 0 4000 oAux 4 0 0) 1 0 = true ∧
    passes (carOf 0 400 oCorrect 7 0 0) 0 0 = true ∧ passes (carOf 0 96 oCouple 7 0 0) 2 0 = true ∧
    passes (carOf 0 48 oEmit 10 0 0) 0 0 = true ∧ passes (carOf 0 16 oAoutSet 8 0 0) 0 0 = true ∧
    passes (carOf 0 32 oLedgerAdd 9 3 0) 0 0 = true ∧ passes (carOf 0 48 oMark 10 0 0) 0 0 = true := by
  (repeat' apply And.intro) <;> decide +kernel

/-- Channel 0's last conversion gave 9, modulator 0 and pair A are held. -/
def heldAs : State :=
  let s := sealedAs 0x40 0
  { s with
    cal := { s.cal with holdMod := 1, holdPair := 1 }
    ros := { s.ros with lastConv := s.ros.lastConv.set 0 (some { v := 9, stamp := { sec := 0, frac := 0, coarse := true }, flags := 0 }) } }

/-- Format entry 0 is active, with a shift as given. -/
def formatted (shift : Byte) (s : State) : State := { s with mem := memStore s.mem 0x7640 (leBytes 4 3 ++ leBytes 4 0 ++ [shift, 31, 1]) }

/-- The entry that the EMIT of `meets` reads is bad, or not, and no commit of its qtick changed it. -/
def entryBad (bad : Bool) (u : State) (f : Frame) (d : List Byte) : Bool :=
  match fmtRead u f 0 (carOf 0 48 oEmit 10 0 0) d with
  | some x => fmtBad (x.entry u.mem) == bad && u.tt.fmtWas == none
  | none => false

theorem test_witness_CarriageStarts_stops :
    meets { carOf 0 48 oEmit 10 0 0 with ch := 5 } false (sealedAs 0 0) (fun _ _ _ => true) = true ∧
    meets (carOf 0 4000 oConvert 0 0 0) true (sealedAs 0 0)
      (fun u _ d => convertFault u (carOf 0 4000 oConvert 0 0 0) d == some rResource) = true ∧
    meets (carOf 0 4000 oAux 4 0 0x0F) true { sealedAs 1 0x0F with cond := (discovering 0).cond }
      (fun u _ _ => auxFault u (carOf 0 4000 oAux 4 0 0x0F) == some rResource) = true ∧
    meets (carOf 0 400 oCorrect 7 0 0) true
      (let s := sealedAs 0 0
       { s with ros := { s.ros with sealed := s.ros.sealed.set 0 ([0, 0, 0, 0, 0, 0, 0, 8] ++ List.replicate 23 0 ++ [0x80]) } })
      (fun u f d => dCorrEn d && (match correctOutcome u f (carOf 0 400 oCorrect 7 0 0) d with | .inl _ => true | .inr _ => false)) = true ∧
    meets (carOf 0 48 oEmit 10 0 0) true (formatted 63 (sealedAs 0 0)) (entryBad true) = true ∧
    meets (carOf 0 48 oEmit 10 0 0) true (formatted 62 (sealedAs 0 0)) (entryBad false) = true := by
  (repeat' apply And.intro) <;> decide +kernel

theorem test_witness_CarriageStarts_holds :
    meets (carOf 0 16 oExcite 5 0 0) true heldAs (fun u _ _ => pairHeld u false) = true ∧
    meets (carOf 0 16 oExcOff 5 0 0) true heldAs (fun u _ _ => pairHeld u false) = true ∧
    meets (carOf 0 4000 oConvert 0 0 0) true heldAs (fun u _ d =>
      convertFault u (carOf 0 4000 oConvert 0 0 0) d == none && modHeld u (carOf 0 4000 oConvert 0 0 0) &&
        (u.ros.lastConv.getD 0 none).isSome) = true ∧
    meets (carOf 0 4000 oConvert 0 0 0) true (sealedAs 0x40 0) (fun u _ d =>
      convertFault u (carOf 0 4000 oConvert 0 0 0) d == none && !modHeld u (carOf 0 4000 oConvert 0 0 0)) = true ∧
    meets (carOf 0 4000 oAux 4 0 0) true (sealedAs 1 0) (fun u _ _ =>
      auxFault u (carOf 0 4000 oAux 4 0 0) == none && !modHeld u (carOf 0 4000 oAux 4 0 0)) = true := by
  (repeat' apply And.intro) <;> decide +kernel

/-- The delivered value of a carriage is 5, or none can be delivered. -/
def delivers (c : Carriage) (five : Bool) (u : State) (f : Frame) (d : List Byte) : Bool :=
  match delivered u f 0 c d with
  | .inr v => five && v.v == 5 && v.flags &&& (fSettling ||| fStale ||| fCalHold) == 0
  | .inl _ => !five

theorem test_witness_CarriageStarts_deliveries :
    meets (carOf 0 16 oAoutSet 8 0 0) true (formatted 63 (sealedAs 0 0)) (delivers (carOf 0 16 oAoutSet 8 0 0) false) = true ∧
    meets (carOf 0 16 oAoutSet 8 0 0) true { sealedAs 0 0 with out := { Out.reset with cfg := 3 } } (fun u f d =>
      delivers (carOf 0 16 oAoutSet 8 0 0) true u f d && cfgSpan u == 3) = true ∧
    meets (carOf 0 16 oAoutSet 8 0 0) true { sealedAs 0 0 with pwr := { ready.pwr with warn := true } } (fun u f d =>
      delivers (carOf 0 16 oAoutSet 8 0 0) true u f d && cfgSpan u != 3 && u.pwr.warn) = true ∧
    meets (carOf 0 16 oAoutSet 8 0 0) true (sealedAs 0 0) (fun u f d =>
      delivers (carOf 0 16 oAoutSet 8 0 0) true u f d && cfgSpan u != 3 && !u.pwr.warn) = true ∧
    meets (carOf 0 32 oLedgerAdd 9 7 0) true (formatted 63 (sealedAs 0 0)) (delivers (carOf 0 32 oLedgerAdd 9 7 0) false) = true ∧
    meets (carOf 0 32 oLedgerAdd 9 7 0) true { sealedAs 0 0 with ldg := Ldg.reset } (fun u f d =>
      delivers (carOf 0 32 oLedgerAdd 9 7 0) true u f d && !ldgEn u) = true ∧
    meets (carOf 0 32 oLedgerAdd 9 7 0) true (sealedAs 0 0) (fun u f d =>
      delivers (carOf 0 32 oLedgerAdd 9 7 0) true u f d && ldgEn u && u.ldg.run.length == 8 && u.ldg.cnt.length == 8) = true := by
  (repeat' apply And.intro) <;> decide +kernel

/-- A frame whose first carriage runs. -/
def runningFirst (c : Carriage) (conv : Bool) : Frame :=
  { single c with
    img := { (single c).img with cars := [c] }
    runs := [{ CarRun.fresh with state := .running, converting := conv, filter := 1000 }] }

/-- A frame of the active table is awaited. -/
def awaiting : State :=
  let a : Await := { code := 11, stamp := { sec := 0, frac := 0, coarse := true }, lateStart := false, coincident := false,
                     queued := false, needLock := false, base := some 2000, cont := false, reg := none, seals := [], lateFrom := none,
                     trigs := [], syncAt := none }
  let t := running locked
  { t with tt := { t.tt with await := some a } }

theorem test_witness_FramesAndConversions :
    (let s := awaiting
     s.tt.await.isSome = true ∧ s.tt.await.bind (fun a => a.base) = some 2000 ∧ s.tt.await.map (fun a => a.needLock) = some false ∧
       activeImage s = some oneMark ∧ s.tt.frame = none ∧ hfLocked s = true ∧ s.pwr.warn = false ∧
       s.cond.shipped = false ∧ s.clk.bypass = false) ∧
    (let f := runningFirst (carOf 0 4000 oConvert 0 0 0) true
     let s := inFrame f (sealedAs 0x40 0)
     f.cut = false ∧ hfRunning s = true ∧ (runAt f 0).state = .running ∧ (runAt f 0).converting = true ∧ (runAt f 0).reason = 0 ∧
       (finishUpTo 2048 (advance (f.at 2048) s)).tt.frame.isSome = true ∧ convQtick (carAt f.img.cars 0) = 2048) ∧
    (let f := runningFirst (carOf 0 4000 oConvert 0 0 0) false
     nextWaiting f = none ∧ overdue f 4000 = false ∧ overdue f f.img.body = false ∧ f.cut = false ∧
       hfRunning (inFrame f (sealedAs 0x40 0)) = true ∧ mainUp (inFrame f (sealedAs 0x40 0)) = true ∧
       noRestore (inFrame f (sealedAs 0x40 0)) = true) := by
  (repeat' apply And.intro) <;> decide +kernel

/-- The machine and its frame at the end of the conversion that runs first. -/
def atConvEnd (f : Frame) (s0 : State) (p : State → Frame → List Byte → Bool) : Bool :=
  let q := convQtick (carAt f.img.cars 0)
  let u := finishUpTo q (advance (f.at q) (inFrame f s0))
  match u.tt.frame with | some g => p u g (versionOr u g 0) | none => false

theorem test_witness_FramesAndConversions_values :
    (let c := carOf 0 4000 oConvert 0 0 0
     atConvEnd (runningFirst c true) (sealedAs 0x40 0) (fun _ g d =>
       let m := min (outputsOf g c (runAt g 0)) (firstValid d)
       decide (0 < m) && decide (bitsFor d m ≤ (List.replicate 2048 true).length) && !lowRef (stageOf d) 500000)) = true ∧
    (let c := carOf 0 4000 oConvert 0 0 0
     atConvEnd (runningFirst c true) (sealedAs 0 0) (fun _ g d =>
       decide (min (outputsOf g c (runAt g 0)) (firstValid d) ≠ 0) && lowRef (stageOf d) 499999 && !lowRef (stageOf d) 500000)) = true ∧
    (let c := carOf 0 4000 oAux 4 0 0
     atConvEnd (runningFirst c true) (sealedAs 1 0) (fun _ g _ =>
       auxFixed c.aux.toNat || decide (0 < outputsOf g c (runAt g 0)))) = true ∧
    (let c := carOf 0 16 oAoutSet 8 0 0
     let f := runningFirst c false
     let t := inFrame f (sealedAs 0 0)
     let s := { t with out := { t.out with due := some (1032, 5, false) } }
     nextWaiting f = none ∧ (runAt f 0).reason = 0 ∧ overdue f c.stop = false ∧ s.out.due = some (1032, 5, false) ∧ s.out.lastAt ≠ some 1032) := by
  (repeat' apply And.intro) <;> decide +kernel

theorem test_witness_FramesAndConversions_ends :
    (let f := { runningFirst (carOf 0 4000 oConvert 0 0 0) false with cut := true }
     let s := inFrame f (sealedAs 0x40 0)
     f.cut = true ∧ hfRunning s = true ∧ noRestore s = true ∧ (carAt f.img.cars 0).stop ≤ f.img.body ∧
       (runAt f 0).converting = false ∧ nextWaiting f = none ∧ mainUp s = true) ∧
    (let f := runningFirst (carOf 0 4000 oConvert 0 0 0) false
     let t := inFrame f (sealedAs 0x40 0)
     let s := { t with tt := { t.tt with swPend := some true } }
     s.tt.swPend = some true ∧ s.cal.holdPair = 0 ∧ nothingRuns s ∧ s.cond.queue = [] ∧ nothingWaits s) ∧
    (let f := { runningFirst (carOf 0 4000 oConvert 0 0 0) false with
                  cut := true, slow := true, runs := [{ CarRun.fresh with state := .done }] }
     let s := inFrame f (sealedAs 0x40 0)
     f.cut = true ∧ f.slow = true ∧ allDone f = true ∧ noRestore s = true ∧ mainUp s = true) := by
  (repeat' apply And.intro) <;> decide +kernel

/-- The first carriage of a frame has ended its work, with a value or a reason. -/
def ending (c : Carriage) (reason : Nat) (v : Option Val) : Frame :=
  let f := runningFirst c false
  { f with runs := [{ CarRun.fresh with state := .running, reason := reason, val := v }] }

/-- The frame can end its first carriage here with nothing else going on. -/
def recordable (f : Frame) : Bool :=
  let s := inFrame f (sealedAs 0 0)
  nextWaiting f == none && f.cut == false && !(runAt f 0).converting && !overdue f (carAt f.img.cars 0).stop && mainUp s && hfRunning s &&
    Memory.wf s.mem && s.cond.running.isNone && s.cond.switchDone.isEmpty && !s.pwr.warn && f.runs.length == 1

theorem test_witness_FramesAndConversions_records :
    (let f := ending (carOf 0 48 oEmit 10 0 0) 0 (some { v := 5, stamp := { sec := 0, frac := 0, coarse := true }, flags := 0 })
     recordable f = true ∧ (runAt f 0).reason = 0 ∧ (runAt f 0).held = false ∧ (runAt f 0).val.isSome = true) ∧
    (let f := ending (carOf 0 4000 oConvert 0 0 0) 17 none; recordable f = true ∧ (runAt f 0).reason ≠ 0 ∧ oConvert ≠ oMark) ∧
    (let f := ending (carOf 0 48 oMark 10 0 0) 0 none; recordable f = true ∧ (runAt f 0).reason = 0) := by
  (repeat' apply And.intro) <;> decide +kernel

theorem test_witness_WatchesPresenceAndOutput :
    (let f := runningFirst (carOf 0 4000 oConvert 0 0 0) true
     let t := inFrame f (sealedAs 0x40 0)
     let s := { t with afe := { t.afe with pairA := { t.afe.pairA with on := true } } }
     mainUp s = true ∧ restoreWaits s = true ∧ converting s 0 = true ∧ (pairAt s (pairOf 0)).on = true ∧ bitOf s.afe.eff 12 = true ∧
       bitOf s.afe.eff 14 = true ∧ watchesPort s 0 = true ∧ attached s 0 = true ∧ s.disc.ports.length = 4 ∧
       pulseOmitted s 0 = true) ∧
    (let f := runningFirst (carOf 0 4000 oConvert 0 0 0) true
     let s := inFrame f (sealedAs 0x40 0)
     converting s 0 = true ∧ discConverts s 0 = false ∧ lowRef (convStage s 0) 499999 = false ∧ clips s (convStage s 0) 1260001 0 = true ∧
       clips s (convStage s 0) (-1260000) 0 = false) ∧
    (let s := inFrame (runningFirst (carOf 0 4000 oConvert 0 0 0) true) (sealedAs 0 0)
     converting s 0 = true ∧ lowRef (convStage s 0) 500000 = false ∧ lowRef (convStage s 0) 499999 = true ∧
       clips s (convStage s 0) 525001 500000 = true ∧ clips s (convStage s 0) (-525000) 500000 = false) ∧
    (let s := withRtc { ready.rtc with edges := 0 } ready
     let t := inFrame (runningFirst (carOf 0 4000 oConvert 0 0 0) true) s
     ktickRuns t = true ∧ isSlot 0 t.rtc.edges = true ∧ sentinelOn t 0 = true ∧ pulseOmitted t 0 = true ∧
       (portAt t 0).slotAt ≠ some t.rtc.edges) ∧
    (let s := { ready with disc := { ready.disc with ports := List.replicate 4 { Port.reset with state := 2, absent := 2 } } }
     detachDue s 3 = true) ∧
    (let s := { ready with disc := { ready.disc with ports := List.replicate 4 { Port.reset with state := 1, present := 2 } } }
     attachDue s 3 = true) ∧
    (let s := withRtc { ready.rtc with edges := 6144 } ready
     ktickRuns s = true ∧ isSlot 3 s.rtc.edges = true ∧ sentinelOn s 3 = true ∧ pulseOmitted s 3 = false ∧ (portAt s 3).slotAt ≠ some s.rtc.edges) ∧
    dacClock { ready with sys := { ready.sys with pstate := .nap } } = false ∧ genMode ready = 0 ∧
    (let s := { locked with out := { locked.out with gen := 2 } }; dacFromHf s = true ∧ genMode s ≠ 0) ∧
    (let s := { ready with out := { ready.out with gen := 2 } }; dacClock s = true ∧ dacFromHf s = false ∧ genMode s ≠ 0) ∧
    (let s := { ready with out := { ready.out with gen := 0x00100002 } }; dacClock s = true ∧ s.out.due = none ∧ genMode s = 2) ∧
    (let s := { ready with out := { ready.out with gen := 0x00100003 } }; dacClock s = true ∧ genMode s = 3) ∧
    (let s := { ready with out := { ready.out with gen := 0x00100001 } }
     dacClock s = true ∧ genMode s = 1 ∧ s.out.dirUp = true ∧ 0 < fld s.out.gen 16 16) ∧
    (let s := { ready with out := { ready.out with gen := 0x00100001, dirUp := false, g := 16 } }
     genMode s = 1 ∧ s.out.dirUp = false ∧ s.out.g ≤ fld s.out.gen 16 16) ∧
    (let s := { ready with out := { ready.out with cfg := 2, span := 2, code := 0x100 } }
     supervised s = true ∧ s.out.lowHr = false ∧ bitOf s.out.cfg 6 = false) ∧
    (let s := { ready with out := { ready.out with cfg := 0x42, span := 2, code := 0x100 } }
     supervised s = true ∧ bitOf s.out.cfg 6 = true ∧ hfRunning s = false) := by
  (repeat' apply And.intro) <;> decide +kernel

/-! ## Single steps, each on the numbers of its rule -/

/-- Table 8.4's examples: T_conv in qticks at q = 32. -/
theorem test_t_conv : tConv 0 false 32 = 2048 ∧ tConv 0 true 32 = 14336 ∧ tConv 4 false 32 = 32768 ∧ tConv 8 true 32 = 3670016 := by
  decide +kernel

/-- R6: SEC counts from 2000-01-01T00:00:00, a Saturday (R109). -/
theorem test_epoch : calendarSec 0 0x101 0 = .inr 0 := by decide +kernel

/-- R316: slots at 8192 n + 2048 k + 7 (n mod 32). -/
theorem test_slots : isSlot 0 0 = true ∧ isSlot 1 2048 = true ∧ isSlot 1 (8192 + 2048 + 7) = true ∧ isSlot 1 (8192 + 2048) = false := by
  decide +kernel

/-- R94, R95: the edge at 0x7FFF kticks raises the second tick. -/
theorem test_second_tick : (let t := after (.x32Edge e0) (withRtc { supply.rtc with presc := 0x7FFF } supply)
    t.rtc.sec = 1 ∧ t.rtc.presc = 0 ∧ latched 11 t = true) := by
  decide +kernel

/-- R103: a negative correction makes the edge count none. -/
theorem test_trim_back : (after (.trimCorrection e0)
    (withRtc { supply.rtc with presc := 9, trimT := -1, trimAcc := 2097151 } supply)).rtc.presc = 9 := by
  decide +kernel

/-- R118: a one-shot alarm fires once and disables itself. -/
theorem test_alarm : (let t := after (.alarmFiring false e0) (alarmed 0 false 0 0x7FFF)
    latched 8 t = true ∧ alBit t false 0 = false) := by
  decide +kernel

/-- R132: 381 counts of HF/64 lock on 400 MHz, within 2 of 381.47. -/
theorem test_lock : (after (.lockWindowClose 381 ⟨2000, true⟩) (acquiring .clkSrc 0 false)).clk.acq = none ∧
    ((after (.lockWindowClose 378 ⟨2000, false⟩) (acquiring .clkSrc 0 false)).clk.acq.map (fun a => a.windows)) = some 1 := by
  decide +kernel

/-- R42: at 1.95 V with VSW 1.8 V the warning latches source 63. -/
theorem test_warning : latched 63 (after (.brownOutWarning 1949 e0) supply) = true ∧
    latched 63 (after (.brownOutWarning 1950 e0) supply) = false := by
  decide +kernel

/-- R152: EXCITE drives pair A at its code, pol 0, unreversed. -/
theorem test_excite : (let t := after (.excite 0) (inFrame (single (carOf 0 16 oExcite 5 0 0)) (sealedAs 0 0))
    t.afe.pairA.on = true ∧ t.afe.pairA.drive = false ∧ t.afe.pairB.on = false) := by
  decide +kernel

/-- R279: LEDGER_ADD adds the delivered 5 to run[3] and 1 to cnt[3]. -/
theorem test_ledger_add : (let t := after (.ledgerAdd 0) (inFrame (single (carOf 0 32 oLedgerAdd 9 3 0)) (sealedAs 0 0))
    t.ldg.run.getD 3 0 = 5 ∧ t.ldg.cnt.getD 3 0 = 1 ∧ t.ldg.run.getD 2 0 = 0) := by
  decide +kernel

/-- R317: the second reading of present in a row registers nothing yet; ATTACH_REGISTERED then makes the port PRESENT. -/
theorem test_attach : (portAt (after (.attachRegistered 0 0)
    { ready with disc := { ready.disc with ports := List.replicate 4 { Port.reset with state := 1, present := 2 } } }) 0).state = 2 := by
  decide +kernel

/-- R334: an op from 0x14 on ends REJECTED_ARGS. -/
theorem test_undefined_command : memByte (after (.undefinedCommand 0) (started 0x14 0 0 ready)).mem 0x740D = BitVec.ofNat 8 rArgs := by
  decide +kernel

/-- R69: a HIF reset clears HIF_ERR and sets its cause. -/
theorem test_hif_reset : (let t := after .hifReset { ready with hif := { ready.hif with err := 0xFF, crcEn := true } }
    t.hif.err = 0 ∧ t.hif.crcEn = false ∧ t.sys.cause.getLsbD 10 = true) := by
  decide +kernel

/-- R52: a WAKEN pulse under 100 us is ignored. -/
theorem test_short_wake : (after (.shipExit (.waken 99)) { ready with pwr := { ready.pwr with ship := true } }).pwr.ship = true ∧
    (after (.shipExit (.waken 1000)) { ready with pwr := { ready.pwr with ship := true } }).pwr.ship = false := by
  decide +kernel

/-- Chapter 1's worked value stamp: M0 from qtick 2 500 at D = 512, 350 qticks of 64 periods each, on a locked 400 MHz clock. -/
theorem test_conversion_stamp :
    cogStamp
      { ready with clk := { ready.clk with
          state := .locked, bypass := false, src := 1, ref := .refin, hf := 100000, qbase := 32
          caps := [⟨48828, 32, 0x15180, 0x2004⟩, ⟨0, 0, 0x15180, 0x2000⟩] } }
      (Carriage.mk 2500 8196 3 5 0 none none 2 0) [0, 0x27, 0x98, 8, 0, 0x34, 0, 0x18] (32 + 8 * 2500) 4 =
      { sec := 0x15180, frac := 0x4008A698, coarse := false } := by
  decide +kernel

/-! ## Witnesses of the clauses on records, ends of page operations, installations and firings -/

theorem test_witness_bus_writes : moved 17 ready = ready ∧ HostReady (bus 5) ∧ (moved 17 (bus 5)).hif.busIdle = 0 ∧ (moved 17 (bus 5)).hif.ptr = 72 := by
  (repeat' apply And.intro) <;> decide +kernel

theorem test_witness_EventWrites_irqn :
    ({ ready with pwr := { ready.pwr with ship := true } }).pwr.ship = true ∧
    (let v := { ready with pwr := { ready.pwr with mainOn := false } }
     v.pwr.ship = false ∧ v.pwr.aonOn = true ∧ v.pwr.mainOn = false) ∧
    (let v := { ready with sys := { ready.sys with phase := .held } }; v.pwr.mainOn = true ∧ v.sys.phase = .held) ∧
    (let v := { ready with sys := { ready.sys with phase := .config } }; v.pwr.ship = false ∧ mainUp v = true ∧ mainReady v = false) ∧
    (let v := { ready with pwr := { ready.pwr with mainOn := false } }
     v.pwr.ship = false ∧ v.pwr.aonOn = true ∧ mainReady v = true ∧ v.pwr.mainOn = false ∧ mainUp v = false) ∧
    (ready.pwr.ship = false ∧ mainReady ready = true ∧ mainUp ready = true) := by
  (repeat' apply And.intro) <;> decide

theorem test_witness_CommandStarts_warning :
    (let q := [cmdOf 3 0 0, cmdOf 5 0 0]
     let s := { ready with cond := { ready.cond with queue := q }, pwr := { ready.pwr with warn := true } }
     s.cond.queue.head? = some (cmdOf 3 0 0) ∧ s.pwr.warn = true ∧ noHolds s ∧ s.nv.suspend = [] ∧ Memory.wf s.mem = true ∧
       (s.cond.head - s.cond.tail).toNat + s.cond.queue.length ≤ 16 ∧ mainReady s = true ∧ condRuns s = true ∧ ringRoom s) := by
  (repeat' apply And.intro) <;> decide

/-- A ledger record waits to be written. -/
def recordWaits (s : State) : State :=
  { s with ldg := { s.ldg with
      job := some { snap := { stamp := { sec := 0, frac := 0, coarse := true }, seq := 5, kind := 1, flags := 0, lap := 0, run := [], cnt := [],
                              refused := 0, ivlStart := 0, srcSeq := 0, wfail := 0, cause := 0 }, pages := 0, bad := false, cmds := [] } } }

theorem test_witness_LedgerSwitch_waits :
    (let s := recordWaits ready
     HostReady s ∧ nothingRuns s ∧ ldgEn s = false ∧ s.sys.measRst = false ∧ recordsDone s = false ∧ s.ldg.offPend = false) := by
  (repeat' apply And.intro) <;> decide

theorem test_witness_DirectCommands_recovery :
    (let t := recordWaits locked
     let s := { t with ldg := { t.ldg with ctl := 1, recovers := some 2, wait := [({ lap := true, tag := 3 }, false)] } }
     condRuns s = true ∧ nothingRuns s ∧ ringRoom s ∧ Memory.wf s.mem = true ∧ ldgBusy s = true ∧ fineClock s = true ∧
       quietInputs s) ∧
    (let s := { locked with ldg := { locked.ldg with ctl := 1 }, sys := { locked.sys with phase := .config } }
     condRuns s = true ∧ ldgBusy s = true ∧ quietInputs s) ∧
    ldgBusy locked = false := by
  (repeat' apply And.intro) <;> decide

/-- As `saved`, the bytes of page 0 as given. -/
def savedAs (f : List Byte → List Byte) : State :=
  withPages ((savePages 3 ready).map (fun x => (x.1, madePage x.1 0x5A 3 (if x.1 = 0 then f x.2 else x.2) .clean))) true ready

theorem test_witness_ConfigCommands_image :
    imageWhole saved = true ∧ Memory.wf saved.mem = true ∧ nothingWaits (started 17 0 0 saved) ∧ fld (imgWord saved 1) 0 2 ≠ 3 := by
  (repeat' apply And.intro) <;> decide +kernel

theorem test_witness_ConfigStep_image :
    aoutRecordGood saved = true ∧
    (let s := savedAs (fun l => l.set 16 0x55); imageValid s = true ∧ aoutRecordGood s = false) ∧
    (let s := { saved with out := { saved.out with cfg := 2 } }; imageValid s = true ∧ (imgWord s 13).setWidth 2 ≠ cfgSpan s) := by
  (repeat' apply And.intro) <;> decide +kernel

theorem test_witness_BootRecord_shipped :
    (let s := atPhase .ledger ready; s.cond.shipped = false) ∧
    (let t := atPhase .ledger ready
     let s := { t with cond := { t.cond with shipped := true, queue := [cmdOf 5 0 0] } }
     s.sys.phase = .ledger ∧ ringRoom s ∧ nothingRuns s ∧ s.cond.shipped = true) := by
  (repeat' apply And.intro) <;> decide

/-! ### A device and its slots -/

/-- A device of manufacturer, model and serial 0. -/
def device : Teds :=
  { romId := 5, basic := 0, template := 33, bridgeType := 0, ohmNum := 350, ohmDen := 1, voltNum := 5, voltDen := 1 }

/-- Slot k holds a valid calibration for `device`, of a version as given. -/
def slotAs (k : Nat) (version : Byte) : Nat × NvPage :=
  (slotPage k, madePage (slotPage k) 0x5A 0 ([0, 0, 0, 0, version, 0, 0, 0, 0, 0, 0, 0, 0, 0, 1, 0]) .clean)

/-- The array holds slots. -/
def withSlots (ks : List (Nat × NvPage)) (s : State) : State := { s with nv := { s.nv with pages := ks } }

/-- The discovery job of port k with its device. -/
def jobOf (k : BitVec 2) (slot : Option Nat) : DiscJob :=
  { DiscJob.new k.toNat with teds := [device], mine := some device, slot := slot, flags := 0 }

/-- The running command is a DISCOVER of port k at a stage. -/
def discoversAt (k : BitVec 2) (slot : Option Nat) (stage l : Nat) (s : State) : State :=
  { s with
    cond := { s.cond with running := some (cmdOf 3 (k.setWidth 32) 0, .disc (jobOf k slot) stage l) }
    disc := { s.disc with ports := List.replicate 4 { Port.reset with state := 2 } } }

theorem test_witness_DiscoveryHold_slots :
    (let s := discoversAt 1 none 2 0 locked
     attached s 1 = true ∧ armFault 100 100 = false ∧ (jobOf 1 none).mine = some device ∧ matching s device = []) ∧
    (let s := discoversAt 1 none 2 0 (withSlots [slotAs 3 0] locked)
     matching s device = [3] ∧ verDiffers s 3 device = false) ∧
    (let s := discoversAt 1 none 2 0 (withSlots [slotAs 3 1, slotAs 5 1] locked)
     matching s device = [3, 5] ∧ verDiffers s 5 device = true ∧ condRuns s = true ∧ hfLocked s = true ∧ s.clk.bypass = false ∧
       s.pwr.warn = false ∧ s.disc.ports.length = 4) ∧
    matching (discoversAt 0 none 2 0 (withSlots [slotAs 3 1, slotAs 5 1] locked)) device = [3, 5] := by
  (repeat' apply And.intro) <;> decide +kernel

/-- A page of the running command is read. -/
def reads (l : Nat) (s : State) : State := { s with nv := { s.nv with op := some (opRead l) } }

/-- Slot 3 holds a table of one page, which reads as given. -/
def tabled (e : Ecc) : List (Nat × NvPage) :=
  [(slotPage 3, madePage (slotPage 3) 0x5A 0 ([0, 0, 0, 0, 0, 0, 0, 0, 0, 0, 0, 0, 16, 0, 1, 0]) .clean),
   (slotPage 3 + 1, madePage (slotPage 3 + 1) 0x5A 0 [1, 2, 3] e)]

theorem test_witness_PageOperations_installs :
    (let s := reads 124 (discoversAt 1 (some 3) 3 1 (withSlots (tabled .clean) locked))
     s.nv.op = some (opRead 124) ∧ (jobOf 1 (some 3)).slot = some 3 ∧ attached s 1 = true ∧ ownPage (opRead 124) ∧ installEnds s ∧
       slotUnc s 3 = false ∧ slotValid s 3 = true) ∧
    (let s := reads 123 (discoversAt 1 (some 3) 3 1 locked)
     installEnds s ∧ slotUnc s 3 = false ∧ slotValid s 3 = false) ∧
    (let s := reads 124 (discoversAt 1 (some 3) 3 1 (withSlots (tabled .uncorrectable) locked))
     installEnds s ∧ slotUnc s 3 = true) := by
  (repeat' apply And.intro) <;> decide +kernel

/-- The running command is a SLOT_BIND of slot 3 to port 0 at its last page. -/
def binds (s : State) : State := holding 4 0 (.bind 3 1) { s with disc := { s.disc with ports := List.replicate 4 { Port.reset with state := 2 } } }

theorem test_witness_PageOperations_binds :
    (let s := reads 124 (binds (withSlots (tabled .clean) locked))
     s.cond.running = some (cmdOf 4 0 0, .bind 3 1) ∧ attached s (fld (cmdOf 4 0 0).a0 0 2) = true ∧ installEnds s ∧ slotUnc s 3 = false ∧
       slotValid s 3 = true) ∧
    (let s := reads 123 (binds locked); installEnds s ∧ slotUnc s 3 = false ∧ slotValid s 3 = false) ∧
    (let s := reads 124 (binds (withSlots (tabled .uncorrectable) locked)); installEnds s ∧ slotUnc s 3 = true) := by
  (repeat' apply And.intro) <;> decide +kernel

theorem test_witness_PageOperations_ends :
    (let s := pageOp 9 (some (0x5A, 0, [1])) ready
     s.nv.op.isSome = true ∧ s.nv.op.map (fun o => (o.task, o.ledger, o.orphan)) = some (none, false, false)) ∧
    (let t := holding 10 48 (.clear [] 3 2 48 3 0 true) ready
     let s := { t with nv := { t.nv with running := true, op := some (journalOp 0 0 48 3 (clearNext [] 48 3) 0 t) } }
     s.cond.running = some (cmdOf 10 48 0, .clear [] 3 2 48 3 0 true) ∧ s.nv.op = some (journalOp 0 0 48 3 (clearNext [] 48 3) 0 s) ∧
       s.nv.suspend = [] ∧ s.pwr.warn = false ∧ condRuns s = true ∧ ringRoom s ∧ noHolds s ∧ s.cond.switchDone = [] ∧
       Memory.wf s.mem = true) ∧
    (let o : NvOp := { ledger := false, orphan := false, page := 0, write := some (0x5A, 3, savePage0 65535 ready), task := none }
     let t := holding 16 0 (.save [(0, [])] 3 65535 7) ready
     let s := { t with nv := { t.nv with op := some o } }
     s.nv.op = some o ∧ o.write.isSome = true ∧ ownPage o ∧ s.cond.running = some (cmdOf 16 0 0, .save [(0, [])] 3 65535 7) ∧ ringRoom s ∧
       noHolds s ∧ s.cond.switchDone = []) := by
  (repeat' apply And.intro) <;> decide +kernel

theorem test_witness_PageOperations_relocation :
    (let o := (NvTask.spare 48 3 450).op ready
     let s := { ready with nv := { ready.nv with op := some o } }
     s.nv.op = some ((NvTask.spare 48 3 450).op s) ∧ s.pwr.mainOn = true ∧ nothingRuns s ∧ 448 ≤ 450) ∧
    (let o := (NvTask.entry 40 48).op ready
     let s := { ready with nv := { ready.nv with op := some o } }
     s.nv.op = some ((NvTask.entry 40 48).op s) ∧ physOf s o.page = o.page ∧ 40 < 64 ∧ 48 < 65536 ∧ nothingRuns s) ∧
    (let o := (NvTask.count 129 15 (some 48)).op worn
     let s := { worn with nv := { worn.nv with op := some o } }
     s.nv.op = some ((NvTask.count 129 15 (some 48)).op s) ∧ physOf s o.page = o.page ∧ (physPage s o.page).data.length = 64 ∧
       mainUp s = true ∧ nothingRuns s) := by
  (repeat' apply And.intro) <;> decide +kernel

/-! ### Firings -/

/-- Alarm 0 with action bits, due at the coming edge, or its commit check LATE. -/
def acting (bits : Nat) (late : Bool) (s0 : State) : State :=
  let a := if late then alarmed 0 true 1 0 else alarmed 0 false 0 0x7FFF
  { s0 with rtc := a.rtc, alm := { a.alm with alctl := a.alm.alctl ||| put 4 3 bits } }

theorem test_witness_AlarmsAtAnEdge_actions :
    (let s := acting 0 false (running locked)
     supplied s ∧ plainEdge s ∧ mainUp s = true ∧ s.pwr.warn = false ∧ warnLatches s = false ∧ firingsAlone s ∧ alBit s true 0 = false ∧
       bitOf s.alm.cdctl 0 = false ∧ Memory.wf s.mem = true ∧ alarmTarget s false = countNow s + 1 ∧ alAct s false 0 = false) ∧
    (let s := acting 7 false (running { locked with ldg := { locked.ldg with ctl := 1 } })
     firingsAlone s ∧ alAct s false 0 = true ∧ alAct s false 1 = true ∧ alAct s false 2 = true ∧ trigReaches s = true ∧
       s.clk.bypass = false ∧ hfRunning s = true ∧ lapAllowed s = true ∧ s.out.due = none ∧ s.out.lastAt = none ∧ s.ldg.job = none ∧
       s.ldg.jobs = [] ∧ s.ldg.inst = none) ∧
    (let s := acting 7 false locked
     firingsAlone s ∧ alAct s false 2 = true ∧ lapAllowed s = false ∧ s.ldg.offPend = false) ∧
    (let s := acting 6 true locked
     firingsAlone s ∧ alChk s false = true ∧ alarmTarget s false ≤ countNow s ∧ alAct s false 0 = false) := by
  (repeat' apply And.intro) <;> decide +kernel

/-- The countdown steps to zero at the coming edge, with act_frame as given. -/
def zeroing (frame : Bool) (s0 : State) : State :=
  let a := counting 1 7 none
  { s0 with rtc := a.rtc, alm := { a.alm with cdctl := 1 ||| put 4 1 frame.toNat } }

theorem test_witness_CountdownAndTtStart_actions :
    (let s := zeroing false (running locked)
     supplied s ∧ plainEdge s ∧ firingsAlone s ∧ mainUp s = true ∧ s.pwr.warn = false ∧ warnLatches s = false ∧ alBit s false 0 = false ∧
       alBit s true 0 = false ∧ Memory.wf s.mem = true ∧ s.alm.loadPend = none ∧ s.alm.tsel = BitVec.ofNat 2 (fld s.alm.cdctl 1 2) ∧
       bitOf s.alm.cdctl 0 = true ∧ (s.rtc.presc.toNat + 1) % tickLen s.alm.tsel = 0 ∧ s.alm.count = 1 ∧ bitOf s.alm.cdctl 4 = false) ∧
    (let s := zeroing true (running locked)
     firingsAlone s ∧ bitOf s.alm.cdctl 4 = true ∧ trigReaches s = true ∧ s.clk.bypass = false ∧ hfRunning s = true) := by
  (repeat' apply And.intro) <;> decide +kernel

/-! ### Transactions that a repeated START may go on with, HDR mode, the generator on the HFRC -/

/-- A transaction of the bus is open, which has noted nothing. -/
def open_ (s : State) : State := { s with hif := { s.hif with txn := some (Txn.new s) } }

theorem test_witness_bus_open :
    (let s := open_ (bus 5); busOpen s = true ∧ bareTxn s = true ∧ s.hif.dynAddr ≠ 0 ∧ s.hif.txn.isSome = true) ∧
    (let s := open_ (bus 0); busOpen s = true ∧ bareTxn s = true ∧ s.hif.dynAddr = 0) ∧
    (busOpen (bus 5) = true ∧ bareTxn (bus 5) = true ∧ (bus 5).hif.txn = none ∧ (bus 5).hif.header = false) ∧
    (let t := ibi false none 0
     let s := { t with hif := { t.hif with txn := some (Txn.new t) } }
     ibiCalled s = true ∧ s.hif.header = false ∧ s.hif.txn.isSome = true) ∧
    (let s := { bus 5 with hif := { (bus 5).hif with hdr := true } }; s.hif.i3c = true ∧ s.hif.hdr = true) := by
  (repeat' apply And.intro) <;> decide

theorem test_witness_WatchesPresenceAndOutput_hfrc :
    (let s := { ready with out := { ready.out with gen := 0x00100002, genRoom := 2097151 } }
     dacClock s = true ∧ dacFromHf s = false ∧ genMode s = 2 ∧ s.out.genRoom < 2097152 * max 1 s.out.genCnt) ∧
    (let s := { ready with out := { ready.out with gen := 0x00100002, genRoom := 2097152 } }
     dacClock s = true ∧ dacFromHf s = false ∧ genMode s ≠ 0 ∧ 2097152 * max 1 s.out.genCnt ≤ s.out.genRoom ∧ updateComes s = true ∧
       s.out.due = none) ∧
    (let s := { locked with out := { locked.out with gen := 0x00100003 } }; updateComes s = true ∧ genMode s = 3 ∧ s.out.due = none) ∧
    (let s := { locked with out := { locked.out with gen := 0x00100001 } }
     updateComes s = true ∧ genMode s = 1 ∧ s.out.dirUp = true ∧ 0 < fld s.out.gen 16 16 ∧ s.out.due = none) ∧
    (let s := { locked with out := { locked.out with gen := 0x00100001, dirUp := false, g := 16 } }
     updateComes s = true ∧ genMode s = 1 ∧ s.out.dirUp = false ∧ s.out.g ≤ fld s.out.gen 16 16 ∧ s.out.due = none) := by
  (repeat' apply And.intro) <;> decide

/-! ### Steps of a discovery hold, a rise of SYNC that waits, a ledger that takes no lap yet, a transaction that goes on -/

/-- DISCOVER of port 0 in its hold, some of its measurements over. -/
def measuring (done hf : Nat) : State :=
  { discovering 2 with
    clk := { locked.clk with hf := hf }
    cond := { locked.cond with running := some (cmdOf 3 0 0, .disc { DiscJob.new 0 with done := done } 2 0) } }

theorem test_witness_DiscoveryHold_steps :
    (let s := measuring 0 1000
     s.pwr.warn = false ∧ condRuns s = true ∧ hfLocked s = true ∧ s.clk.bypass = false ∧ s.disc.ports.length = 4 ∧
       s.cond.running = some (cmdOf 3 0 0, .disc { DiscJob.new 0 with done := 0 } 2 0) ∧ max s.clk.hf 0 < leakCycles) ∧
    (let s := measuring 0 leakCycles
     leakCycles ≤ max s.clk.hf 0 ∧ max s.clk.hf 0 < armCycles s ∧ leakThr s.afe.eff ≤ 300000 ∧ ¬ leakThr s.afe.eff ≤ 0) ∧
    (let s := measuring 1 (armCycles locked)
     armCycles s ≤ max s.clk.hf 0 ∧ max s.clk.hf 0 < balanceCycles s ∧ armOpen 60000 100 = true ∧ armOpen 100 60000 = false ∧
       armOpen 100 100 = false ∧ armShort 100 100 = false) ∧
    (let s := measuring 2 (balanceCycles locked)
     balanceCycles s ≤ max s.clk.hf 0 ∧ 1024 ≤ (List.replicate 1024 true).length ∧ attached s 0 = true ∧
       lowRef (balanceStage 0) 500000 = false ∧ lowRef (balanceStage 0) 499999 = true) := by
  (repeat' apply And.intro) <;> decide +kernel

/-- R322: LEAK latches AFE_DIAG when it ends, before the job goes on. -/
theorem test_discover_leak :
    (after (.discover [] ⟨300000, 100, 100, [], 500000⟩ 0) (measuring 0 leakCycles)).afe.diag = BitVec.ofNat 22 (2 ^ 18) := by
  decide +kernel

/-- A confirmed change of SYNC to high, a fall, and a rise that waits for its sync qtick. -/
def riseWaits : State := { locked with evin := { locked.evin with syncLevel := true, rise := some ({ sec := 0, frac := 0, coarse := true }, 1016) } }

theorem test_witness_InputsAndSync_rise :
    (mainUp riseWaits = true ∧ restoreWaits riseWaits = true ∧ riseWaits.evin.rise.isSome = true ∧ fastPath riseWaits = true ∧
      nothingRuns riseWaits ∧ fastReady riseWaits 6 = none) ∧
    (let u := advance 5000 confirming
     false ≠ u.pins.sync ∧ accepted u 6 = false ∧ (fastReady u 6).any (fun r => decide (r.2 ≤ 5000)) = true) ∧
    confirming.evin.rise = none := by
  (repeat' apply And.intro) <;> decide +kernel

/-- R240: the rise that waits registers with source 6. -/
theorem test_sync_rise_held : (let t := after (.syncRise e0) riseWaits; latched 6 t = true ∧ t.evin.rise = none) := by
  decide +kernel

theorem test_witness_AlarmsAtAnEdge_busy :
    (let s := acting 4 false (running { locked with ldg := { locked.ldg with ctl := 1 }, sys := { locked.sys with phase := .config } })
     alAct s false 2 = true ∧ lapAllowed s = true ∧ ldgBusy s = true ∧ plainEdge s ∧ supplied s ∧ mainUp s = true ∧ firingsAlone s) ∧
    ldgBusy { locked with ldg := { locked.ldg with ctl := 1 } } = false := by
  (repeat' apply And.intro) <;> decide

/-- R118: a repeating minute alarm whose target 0 the wrapping count reaches moves to 60. -/
theorem test_alarm_wraps : (let s0 := alarmed 1 false 0 0x7FFF
    let s := { s0 with rtc := { s0.rtc with sec := 0xFFFFFFFF }, alm := { s0.alm with alm0 := 0 } }
    (after (.alarmFiring false e0) s).alm.alm0 = 60) := by
  decide +kernel

theorem test_witness_LockAndDrift_awaited :
    (let t := { awaiting with tt := { awaiting.tt with await := awaiting.tt.await.map (fun a => { a with trigs := [(11, a.stamp)] }) } }
     mainUp t = true ∧ noRestore t = true ∧ t.clk.acq = none ∧ hfLocked t = true ∧ windowPasses t 0 = false ∧ clkSel t = 1 ∧
       planValid (selRef t) (activePlan t) = true ∧ t.tt.await.map (fun y => y.trigs.isEmpty) = some false) := by
  (repeat' apply And.intro) <;> decide +kernel

end Sys2Proof.Tests
end

section
/-! SUPPORT. Event latches and masks (R12, R254 to R259): committed writes of EVT_STAT and EVT_MASK, and the level of IRQN. -/

namespace Sys2Proof.Machine

/-- A committed write of one register after the main start is its register's effect, where that effect neither reads nor notes anything in
the transaction and nothing waits for the end of the commit sequence. -/
theorem hostWord_effect (k : Nat) (w : Word) (z : State) (h : HostReady z) (hk : k ∉ endWords)
    (hn : noTxn (regWrite k w (moved k z)))
    (hu : regWrite k w (openTxn (moved k z)) = { regWrite k w (moved k z) with
      hif := { (regWrite k w (moved k z)).hif with txn := some (Txn.new (moved k z)) } }) :
    hostWord k w z = regWrite k w (moved k z) := by
  rw [hostWord_of k w z (moved k z) _ h rfl hk hu, hif_no_txn _ hn.1 hn.2]

/-- EVT_STAT0 written by the host (R254). -/
theorem exec_evtStatClear_low (w : Word) (z : State) (h : HostReady z) :
    exec (.evtStatClear false w) z = .next (clearSources (w.setWidth 64) (moved 40 z)) :=
  congrArg _ (hostWord_effect 40 w z h (by decide) h.2.2 rfl)

/-- EVT_STAT1 written by the host (R254). -/
theorem exec_evtStatClear_high (w : Word) (z : State) (h : HostReady z) :
    exec (.evtStatClear true w) z = .next (clearSources (w.setWidth 64 <<< 32) (moved 41 z)) :=
  congrArg _ (hostWord_effect 41 w z h (by decide) h.2.2 rfl)

/-- EVT_MASK0 written by the host (R256). -/
theorem exec_evtMaskWrite_low (w : Word) (z : State) (h : HostReady z) :
    exec (.evtMaskWrite false w) z = .next (writeMask0 w (moved 42 z)) :=
  congrArg _ (hostWord_effect 42 w z h (by decide) h.2.2 rfl)

/-- EVT_MASK1 written by the host (R256). -/
theorem exec_evtMaskWrite_high (w : Word) (z : State) (h : HostReady z) :
    exec (.evtMaskWrite true w) z = .next (writeMask1 w (moved 43 z)) :=
  congrArg _ (hostWord_effect 43 w z h (by decide) h.2.2 rfl)

/-- A W1C write clears the sources written 1 that were not raised in the write's own qtick or ktick (R12, R254). -/
theorem latched_clearSources (b : BitVec 64) (s : State) (n : Nat) :
    latched n (clearSources b s) = (latched n s && (isNow n s || !b.getLsbD n)) := by
  change (s.evt.stat &&& ~~~(b &&& ~~~keptNow s)).getLsbD n = (s.evt.stat.getLsbD n && ((keptNow s).getLsbD n || !b.getLsbD n))
  by_cases hn : n < 64
  · simp [hn, Bool.or_comm]
  · simp [BitVec.getLsbD_of_ge _ _ (Nat.le_of_not_lt hn)]

/-- EVT_STAT0 or EVT_MASK0 at its place among the 64 sources. -/
theorem getLsbD_lowSources (w : Word) (n : Nat) : (w.setWidth 64).getLsbD n = (decide (n < 32) && w.getLsbD n) := by
  by_cases hn : n < 32
  · simp [hn, Nat.lt_trans hn (by decide : 32 < 64)]
  · simp [hn, BitVec.getLsbD_of_ge w n (Nat.le_of_not_lt hn)]

/-- EVT_STAT1 or EVT_MASK1 at its place among the 64 sources. -/
theorem getLsbD_highSources (w : Word) (n : Nat) :
    (w.setWidth 64 <<< 32).getLsbD n = (decide (32 ≤ n) && w.getLsbD (n - 32)) := by
  by_cases hl : n < 32
  · simp [hl]
  · by_cases hn : n < 64
    · simp [hn, hl, Nat.le_of_not_lt hl]
    · simp [hn, BitVec.getLsbD_of_ge w (n - 32) (by omega)]

/-- The sources of EVT_MASK0, and those of EVT_MASK1, as masks of the 64. -/
theorem getLsbD_wordSources (i : Nat) (hi : i < 32) :
    (0xFFFFFFFF#64).getLsbD i = true ∧ (0xFFFFFFFF#64).getLsbD (32 + i) = false ∧
    (0xFFFFFFFF00000000#64).getLsbD i = false ∧ (0xFFFFFFFF00000000#64).getLsbD (32 + i) = true := by
  have h : ∀ j < 32, (0xFFFFFFFF#64).getLsbD j = true ∧ (0xFFFFFFFF#64).getLsbD (32 + j) = false ∧
      (0xFFFFFFFF00000000#64).getLsbD j = false ∧ (0xFFFFFFFF00000000#64).getLsbD (32 + j) = true := by decide
  exact h i hi

/-- EVT_MASK0 takes the word whole, EVT_MASK1 stands (R256). -/
theorem masks_writeMask0 (w : Word) (s : State) :
    regRead (writeMask0 w s) 42 = w ∧ regRead (writeMask0 w s) 43 = regRead s 43 := by
  change ((s.evt.mask &&& 0xFFFFFFFF00000000#64 ||| w.setWidth 64).setWidth 32 = w) ∧
    ((s.evt.mask &&& 0xFFFFFFFF00000000#64 ||| w.setWidth 64) >>> 32).setWidth 32 = (s.evt.mask >>> 32).setWidth 32
  constructor <;> apply BitVec.eq_of_getLsbD_eq <;> intro i hi <;> obtain ⟨-, -, h0, h1⟩ := getLsbD_wordSources i hi
  · rw [BitVec.getLsbD_setWidth, BitVec.getLsbD_or, BitVec.getLsbD_and, h0, getLsbD_lowSources]
    simp [hi]
  · rw [BitVec.getLsbD_setWidth, BitVec.getLsbD_ushiftRight, BitVec.getLsbD_or, BitVec.getLsbD_and, h1, getLsbD_lowSources]
    simp

/-- EVT_MASK1 takes the word whole, EVT_MASK0 stands (R256). -/
theorem masks_writeMask1 (w : Word) (s : State) :
    regRead (writeMask1 w s) 43 = w ∧ regRead (writeMask1 w s) 42 = regRead s 42 := by
  change (((s.evt.mask &&& 0xFFFFFFFF#64 ||| w.setWidth 64 <<< 32) >>> 32).setWidth 32 = w) ∧
    (s.evt.mask &&& 0xFFFFFFFF#64 ||| w.setWidth 64 <<< 32).setWidth 32 = s.evt.mask.setWidth 32
  constructor <;> apply BitVec.eq_of_getLsbD_eq <;> intro i hi <;> obtain ⟨h0, h1, -, -⟩ := getLsbD_wordSources i hi
  · rw [BitVec.getLsbD_setWidth, BitVec.getLsbD_ushiftRight, BitVec.getLsbD_or, BitVec.getLsbD_and, h1, getLsbD_highSources]
    simp [hi]
  · rw [BitVec.getLsbD_setWidth, BitVec.getLsbD_or, BitVec.getLsbD_and, h0, getLsbD_highSources]
    simp [hi]

/-- A set of sources is not empty where it holds a source. -/
theorem sources_ne_zero_iff (b : BitVec 64) : b ≠ 0 ↔ ∃ n ∈ List.range 64, b.getLsbD n = true := by
  constructor
  · intro h
    by_contra hn
    refine h (BitVec.eq_of_getLsbD_eq fun i hi => ?_)
    simpa using fun hb => hn ⟨i, List.mem_range.mpr hi, hb⟩
  · rintro ⟨n, _, hb⟩ rfl
    simp at hb

/-- Some latched source is not masked. -/
theorem unmasked_ne_zero_iff (b m : BitVec 64) :
    ((b &&& ~~~m) != 0) = true ↔ ∃ n ∈ List.range 64, b.getLsbD n = true ∧ m.getLsbD n = false := by
  rw [bne_iff_ne, sources_ne_zero_iff]
  refine exists_congr fun n => and_congr_right fun hn => ?_
  simp [List.mem_range.mp hn]

/-- The sources of the always-on domain are 8 to 15 (R254). -/
theorem getLsbD_aonSources (n : Nat) (hn : n < 64) : aonSources.getLsbD n = (decide (8 ≤ n) && decide (n ≤ 15)) := by
  have h : ∀ m < 64, aonSources.getLsbD m = (decide (8 ≤ m) && decide (m ≤ 15)) := by decide
  exact h n hn

/-- The always-on copy at the place of its sources (R258). -/
theorem getLsbD_copySources (c : BitVec 8) (n : Nat) (hn : n < 64) :
    (c.setWidth 64 <<< 8).getLsbD n = (decide (8 ≤ n) && c.getLsbD (n - 8)) := by
  by_cases hl : n < 8
  · simp [hl]
  · simp [hn, hl, Nat.le_of_not_lt hl]

/-- Until main_ready the copy decides for the sources of the always-on domain (R258). -/
theorem getLsbD_maskInForce_early (v : State) (h : mainReady v = false) (n : Nat) (hn : n < 64) :
    (maskInForce v).getLsbD n = if 8 ≤ n ∧ n ≤ 15 then v.evt.copy.getLsbD (n - 8) else v.evt.mask.getLsbD n := by
  simp only [maskInForce, h, Bool.false_eq_true, if_false, BitVec.getLsbD_or, BitVec.getLsbD_and, BitVec.getLsbD_not,
    getLsbD_aonSources n hn, getLsbD_copySources _ n hn, hn, decide_true, Bool.true_and]
  by_cases h8 : 8 ≤ n
  · by_cases h15 : n ≤ 15
    · simp [h8, h15]
    · simp [h8, h15, BitVec.getLsbD_of_ge v.evt.copy (n - 8) (by omega)]
  · simp [h8]

/-- After main_ready EVT_MASK is in force (R258). -/
theorem maskInForce_ready (v : State) (h : mainReady v = true) : maskInForce v = v.evt.mask := by simp [maskInForce, h]

/-- IRQN with the main domain out of main reset (R257, R258). -/
theorem irqnLow_up_iff (v : State) (hs : v.pwr.ship = false) (hm : mainUp v = true) :
    irqnLow v = true ↔ ∃ n ∈ List.range 64, latched n v = true ∧ (maskInForce v).getLsbD n = false := by
  have ho : v.pwr.mainOn = true := by simp [mainUp] at hm; exact hm.1.1
  simpa [irqnLow, latched, hs, hm, ho] using unmasked_ne_zero_iff v.evt.stat (maskInForce v)

/-- IRQN while the main domain is off: the copy decides, for the sources of the always-on domain alone (R258). -/
theorem irqnLow_mainOff_iff (v : State) (hs : v.pwr.ship = false) (ha : v.pwr.aonOn = true) (hm : v.pwr.mainOn = false) :
    irqnLow v = true ↔ ∃ n ∈ List.range' 8 8, latched n v = true ∧ v.evt.copy.getLsbD (n - 8) = false := by
  have e : irqnLow v = ((v.evt.stat &&& aonSources &&& ~~~(v.evt.copy.setWidth 64 <<< 8)) != 0) := by simp [irqnLow, hs, ha, hm]
  rw [e, unmasked_ne_zero_iff]
  refine exists_congr fun n => ?_
  simp only [List.mem_range, List.mem_range'_1, BitVec.getLsbD_and, latched]
  constructor
  · rintro ⟨hn, hb, hc⟩
    rw [getLsbD_aonSources n hn] at hb
    rw [getLsbD_copySources _ n hn] at hc
    simp at hb hc
    exact ⟨⟨hb.2.1, by omega⟩, hb.1, hc hb.2.1⟩
  · rintro ⟨⟨h8, h16⟩, hb, hc⟩
    have hn : n < 64 := by omega
    rw [getLsbD_aonSources n hn, getLsbD_copySources _ n hn]
    simp [hb, hc, h8, hn]
    omega

/-- IRQN is released in main reset (R51, R257). -/
theorem irqnLow_held (v : State) (hm : v.pwr.mainOn = true) (hp : v.sys.phase = .held) : irqnLow v = false := by
  simp [irqnLow, mainUp, hm, hp]

/-- What clearing sources leaves: the masks and everything beside the latches and the served set (R259). -/
theorem clearSources_rest (b : BitVec 64) (s : State) :
    (clearSources b s).evt.mask = s.evt.mask ∧ (clearSources b s).evt.copy = s.evt.copy ∧
    (clearSources b s).hif = { s.hif with served := s.hif.served &&& pendingSet (clearSources b s) } ∧
    { clearSources b s with evt := s.evt, hif := s.hif } = s := ⟨rfl, rfl, rfl, rfl⟩

/-- Settles O7: each write is its register's effect, and IRQN is read off the mask in force bit by bit. -/
theorem eventWrites : Obligations.EventWrites := by
  unfold Obligations.EventWrites
  refine ⟨fun z h => ⟨?_, ?_, ?_, ?_⟩, fun v => ⟨?_, ?_, ?_, ?_, ?_⟩⟩
  · rintro s rfl w
    refine ⟨_, exec_evtStatClear_low w z h, fun n => ?_, clearSources_rest _ _⟩
    rw [latched_clearSources, getLsbD_lowSources]
  · rintro s rfl w
    refine ⟨_, exec_evtStatClear_high w z h, fun n => ?_, clearSources_rest _ _⟩
    rw [latched_clearSources, getLsbD_highSources]
  · rintro s rfl w
    obtain ⟨h0, h1⟩ := masks_writeMask0 w (moved 42 z)
    exact ⟨_, exec_evtMaskWrite_low w z h, h0, h1, rfl, rfl, rfl, rfl⟩
  · rintro s rfl w
    obtain ⟨h1, h0⟩ := masks_writeMask1 w (moved 43 z)
    exact ⟨_, exec_evtMaskWrite_high w z h, h1, h0, rfl, rfl, rfl, rfl⟩
  · intro hs
    simp [irqnLow, hs]
  · exact irqnLow_mainOff_iff v
  · exact irqnLow_held v
  · intro hs hm hr
    rw [irqnLow_up_iff v hs hm]
    refine exists_congr fun n => and_congr_right fun hn => ?_
    rw [getLsbD_maskInForce_early v hr n (List.mem_range.mp hn)]
  · intro hs hm hr
    rw [irqnLow_up_iff v hs hm, maskInForce_ready v hr]

end Sys2Proof.Machine
end

section
/-! SUPPORT. Transfers of the host port that are a transaction of their own (R55): what they read (R10, R11, R61, R97), how they commit
inert bytes (R57), how they are rejected (R66, R77), and what their end leaves. -/

namespace Sys2Proof.Machine

/-! ## The port and its transaction -/

/-- A port that is ready for the host has the main domain out of main reset. -/
theorem mainUp_of_hostReady (s : State) (h : HostReady s) : mainUp s = true := by
  obtain ⟨hp, hr, -⟩ := h
  simp [portHears, portOpen, mainReady] at hp hr
  simp [mainUp, hp, hr]

/-- The passing of time leaves the port ready. -/
theorem hostReady_advance (n : Nat) (s : State) (h : HostReady s) : HostReady (advance n s) := by
  simpa [HostReady, portHears, portOpen, mainUp, mainReady] using h

/-- With no transaction open none closes. -/
theorem closeTxn_none (s : State) (h : s.hif.txn = none) : closeTxn s = s := by simp [closeTxn, h]

/-- What is raised on no condition is not latched. -/
theorem raiseIf_false (n : Nat) (s : State) : raiseIf false n s = s := by simp [raiseIf]

/-- The end of a transaction that holds no calendar word, saw no error and asked for no reset: its RC clears alone (R11). -/
theorem closeTxn_clears (t : State) (x : Txn) (h : t.hif.txn = some x) (h0 : x.cal0 = none) (h1 : x.cal1 = none) (he : x.newErr = 0)
    (hr : x.rst = false) : closeTxn t = betweenTxns (clearRc x t) := by
  simp [closeTxn, h, h0, h1, he, hr, endCalendar, Txn.errRose, raiseIf_false, betweenTxns]

/-- The end of a transaction with a rejected transfer: nothing clears, and source 59 tells of a flag that rose (R11, R77). -/
theorem closeTxn_bad (t : State) (x : Txn) (h : t.hif.txn = some x) (h0 : x.cal0 = none) (h1 : x.cal1 = none) (hb : x.bad = true)
    (hr : x.rst = false) : closeTxn t = betweenTxns (raiseIf x.errRose 59 t) := by
  simp [closeTxn, h, h0, h1, hb, hr, endCalendar, clearRc, betweenTxns]

/-! ## Reads (R10, R61, R97) -/

/-- The window shows neither the bus nor the transaction. -/
theorem regRead_bus (s : State) (x : Option Txn) (n : Nat) (b : Bool) (k : Nat) :
    regRead { s with hif := { s.hif with txn := x, busIdle := n, header := b } } k = regRead s k := by
  unfold regRead; rfl

/-- A word of the window that is not of the five time registers: the snapshot where it is not RW (R10, R62). -/
theorem txnWord_plain (s : State) (k : Nat) (h : shadowIdx k = none) :
    txnWord s k = maskIn (rwMask k) (snapWord s k) (regRead s k) := by simp [txnWord, h]

/-- One of the five time registers: its shadow, captured at the first such read (R97). -/
theorem txnWord_shadow (s : State) (k i : Nat) (x : Txn) (h : shadowIdx k = some i) (hx : s.hif.txn = some x) :
    txnWord s k = (x.shadow.getD (rtcShadow s)).getD i 0 := by simp [txnWord, h, hx]

/-- Captured shadows read as they would have. -/
theorem txnWord_captureShadow (s : State) (x : Txn) (hx : s.hif.txn = some x) (k : Nat) : txnWord (captureShadow s) k = txnWord s k := by
  have hc : (captureShadow s).hif.txn = some { x with shadow := some (x.shadow.getD (rtcShadow s)) } := by
    simp [captureShadow, note, hx]
  cases hi : shadowIdx k with
  | none =>
    have hr : regRead (captureShadow s) k = regRead s k := regRead_bus s _ s.hif.busIdle s.hif.header k
    simp [txnWord_plain _ k hi, hr, snapWord, hc, hx]
  | some i => simp [txnWord_shadow _ k i _ hi hc, txnWord_shadow _ k i _ hi hx]

/-- The bytes of a word, the least significant first (R9). -/
theorem bytesOf_eq_leBytes (w : Word) : [byteOf w 0, byteOf w 1, byteOf w 2, byteOf w 3] = leBytes 4 w.toNat := by
  simp [byteOf, leBytes, Nat.div_div_eq_div_mul]

/-- The addresses of the bytes of register k. -/
def regBytes (k : Nat) : List Nat := [4 * k, 4 * k + 1, 4 * k + 2, 4 * k + 3]

/-- They are the addresses of a transfer of the whole register (R64). -/
theorem xferAddrs_register (k : Nat) (hk : k < 64) : xferAddrs (4 * k) 4 = regBytes k := by
  simp [xferAddrs, regBytes, List.range, List.range.loop]
  omega

/-- What the transaction x notes of a read of register k (R11, R97). -/
def regNoted (k : Nat) (s : State) (x : Txn) : Txn :=
  { x with
    shadow := if (shadowIdx k).isSome then some (x.shadow.getD (rtcShadow s)) else x.shadow
    sent := regBytes k ++ x.sent }

/-- A read of one whole register: the bytes of its word, its shadows captured, its bytes noted. -/
theorem readBytes_register (hd : BitVec 16) (k : Nat) (hk : k < 64) (s : State) (x : Txn) (hx : s.hif.txn = some x) :
    readBytes hd (4 * k) 4 s =
      (leBytes 4 (txnWord s k).toNat, { s with hif := { s.hif with txn := some (regNoted k s x) } }) := by
  have hlt : ∀ a ∈ regBytes k, a < 256 := by simp [regBytes]; omega
  have hdiv : ∀ a ∈ regBytes k, a / 4 = k := by simp [regBytes]; omega
  have hcap : (regBytes k).any (fun a => decide (a < 0x100) && (shadowIdx (a / 4)).isSome) = (shadowIdx k).isSome := by
    rw [Bool.eq_iff_iff, List.any_eq_true]
    constructor
    · rintro ⟨a, m, ha⟩
      simpa [hlt a m, hdiv a m] using ha
    · intro hi
      have m : 4 * k ∈ regBytes k := List.mem_cons_self
      exact ⟨4 * k, m, by simpa only [hlt _ m, hdiv _ m, decide_true, Bool.true_and] using hi⟩
  have hmap : (regBytes k).any (fun a => !mapped a) = false :=
    List.any_eq_false.mpr fun a m => by simp [mapped, hlt a m]
  have hsent : (regBytes k).filter (fun a => decide (a < 0x100)) = regBytes k :=
    List.filter_eq_self.mpr fun a m => by simp [hlt a m]
  have hread : ∀ t, (regBytes k).map (readByte t) = leBytes 4 (txnWord t k).toNat := by
    intro t
    rw [← bytesOf_eq_leBytes, List.map_congr_left (g := fun a => byteOf (txnWord t k) (a % 4)) fun a m => by
      simp [readByte, hlt a m, hdiv a m]]
    simp [regBytes, Nat.add_mod]
  simp only [readBytes, xferAddrs_register k hk, hcap, hmap, hsent, hread, when]
  cases hi : (shadowIdx k).isSome
  · simp [note, hx, regNoted, hi]
  · simp [txnWord_captureShadow s x hx, regNoted, hi]
    simp [captureShadow, note, hx]

/-- Bytes of memory one after another. -/
theorem memLoad_eq_map (m : List Host.Cell) (a n : Nat) : memLoad m a n = (List.range n).map (fun i => memByte m (a + i)) := by
  induction n generalizing a with
  | zero => rfl
  | succ n ih => simp [memLoad, List.range_succ_eq_map, ih, Function.comp_def, Nat.add_assoc, Nat.add_comm 1]

/-- A byte of a range whose bytes the host reads as it wrote them. -/
theorem plainRange_byte (a n i : Nat) (h : plainRange a n = true) (hi : i < n) :
    0x100 ≤ a + i ∧ (a + i) % 65536 = a + i ∧ inClassV (a + i) = true := by
  simp [plainRange, inertRange, formatRange] at h
  simp [inClassV]
  omega

/-- A read of such a range after the main start gives the bytes of memory and notes nothing. -/
theorem readBytes_plain (hd : BitVec 16) (a n : Nat) (s : State) (h : plainRange a n = true) (he : earlyTxn s = false) :
    readBytes hd a n s = (memLoad s.mem a n, s) := by
  have hx : ∀ x ∈ xferAddrs a n, 0x100 ≤ x ∧ inClassV x = true := by
    intro x hx
    obtain ⟨i, hi, rfl⟩ := List.mem_map.mp hx
    obtain ⟨hlo, hmod, hv⟩ := plainRange_byte a n i h (List.mem_range.mp hi)
    rw [hmod]; exact ⟨hlo, hv⟩
  have hlo : ∀ x ∈ xferAddrs a n, decide (x < 0x100) = false := fun x m => by have := (hx x m).1; simp; omega
  have hcap : (xferAddrs a n).any (fun x => decide (x < 0x100) && (shadowIdx (x / 4)).isSome) = false :=
    List.any_eq_false.mpr fun x m => by simp [hlo x m]
  have hmap : (xferAddrs a n).any (fun x => !mapped x) = false :=
    List.any_eq_false.mpr fun x m => by simp [mapped, (hx x m).2]
  have hsent : (xferAddrs a n).filter (fun x => decide (x < 0x100)) = [] :=
    List.filter_eq_nil_iff.mpr fun x m => by simp [hlo x m]
  have hread : (xferAddrs a n).map (readByte s) = memLoad s.mem a n := by
    rw [memLoad_eq_map, xferAddrs, List.map_map]
    refine List.map_congr_left fun i hi => ?_
    obtain ⟨hge, hmod, hv⟩ := plainRange_byte a n i h (List.mem_range.mp hi)
    simp [readByte, hmod, mapped, hv, he, Nat.not_lt.mpr hge]
  simp only [readBytes, hcap, hmap, hsent, when_false, hread]
  simp [note]

/-! ## Rejected transfers (R59, R60, R66, R77) -/

/-- x is a transaction opened at u that holds no calendar word and asked for no reset. -/
structure OpenedAt (u : State) (x : Txn) : Prop where
  cal0 : x.cal0 = none
  cal1 : x.cal1 = none
  rst : x.rst = false
  errs : x.snap.getD 5 0 = hifErr u

/-- t stands in a transaction opened at u that has only read. -/
structure OnlyRead (u t : State) : Prop where
  rest : { t with hif := u.hif } = u
  err : t.hif.err = u.hif.err
  count : t.hif.errCount = u.hif.errCount
  txn : ∃ x, t.hif.txn = some x ∧ OpenedAt u x

/-- t stands in a transaction opened at u whose transfer is rejected with flag b and header address a. -/
structure Rejecting (b : Nat) (a : BitVec 16) (u t : State) : Prop where
  rest : { t with hif := u.hif } = u
  flag : t.hif.err.getLsbD b = true
  count : t.hif.errCount = min 255 (u.hif.errCount + 1)
  addr : t.hif.lastAddr = a
  txn : ∃ x, t.hif.txn = some x ∧ OpenedAt u x ∧ x.bad = true ∧ x.newErr.getLsbD b = true

/-- A transaction opened at u, with the idle kticks of the bus counted anew or not, has only read. -/
theorem onlyRead_openTxn (u : State) (n : Nat) : OnlyRead u (openTxn { u with hif := { u.hif with busIdle := n } }) :=
  ⟨rfl, rfl, rfl, _, rfl, rfl, rfl, rfl, rfl⟩

theorem OnlyRead.answer {u t : State} (h : OnlyRead u t) (bs : List Byte) : OnlyRead u (answer bs t) :=
  ⟨h.rest, h.err, h.count, h.txn⟩

theorem OnlyRead.setPtr {u t : State} (h : OnlyRead u t) (p : BitVec 16) : OnlyRead u (setPtr p t) :=
  ⟨h.rest, h.err, h.count, h.txn⟩

/-- Several flags of one transfer, each of them set. -/
theorem forAll_flagErr (es : List Nat) (a : BitVec 16) (s : State) (x : Txn) (hx : s.hif.txn = some x) :
    ∃ e : BitVec 8, (∀ b ∈ es, b < 8 → e.getLsbD b = true) ∧
      forAll es (fun b => flagErr b (some a)) s =
        { s with hif := { s.hif with
            err := s.hif.err ||| e, lastAddr := if es = [] then s.hif.lastAddr else a
            txn := some { x with newErr := x.newErr ||| e } } } := by
  induction es generalizing s x with
  | nil => exact ⟨0, by simp, by simp [forAll, ← hx]⟩
  | cons c r ih =>
    obtain ⟨e, he, heq⟩ := ih (flagErr c (some a) s) { x with newErr := x.newErr ||| BitVec.ofNat 8 (2 ^ c) } (by simp [flagErr, hx])
    refine ⟨BitVec.ofNat 8 (2 ^ c) ||| e, ?_, ?_⟩
    · intro b hb h8
      rw [BitVec.getLsbD_or, Bool.or_eq_true]
      rcases List.mem_cons.mp hb with rfl | hm
      · exact .inl (by rw [BitVec.getLsbD_ofNat, Nat.testBit_two_pow_self, decide_eq_true h8]; rfl)
      · exact .inr (he b hm h8)
    · change forAll r _ (flagErr c (some a) s) = _
      rw [heq]
      simp [flagErr, BitVec.or_assoc]

/-- A rejected transfer counts once, with its header address and each of its flags (R66). -/
theorem rejecting_reject (es : List Nat) (b : Nat) (a : BitVec 16) (u t : State) (h : OnlyRead u t) (hb : b ∈ es) (h8 : b < 8) :
    Rejecting b a u (reject es (some a) t) := by
  obtain ⟨x, hx, ho⟩ := h.txn
  obtain ⟨e, he, heq⟩ := forAll_flagErr es a t x hx
  rw [reject, heq, if_neg (List.ne_nil_of_mem hb)]
  refine ⟨h.rest, ?_, ?_, rfl, _, rfl, ⟨ho.cal0, ho.cal1, ho.rst, ho.errs⟩, rfl, ?_⟩
  · simp [countRejected, he b hb h8]
  · simp [countRejected, satAdd, h.count]
  · simp [he b hb h8]

/-- What the port drives, acknowledges or points at beside the flags leaves the rejection. -/
theorem Rejecting.withHif {b : Nat} {a : BitVec 16} {u t : State} (h : Rejecting b a u t) (f : Hif) (he : f.err = t.hif.err)
    (hc : f.errCount = t.hif.errCount) (ha : f.lastAddr = t.hif.lastAddr) (hx : f.txn = t.hif.txn) :
    Rejecting b a u { t with hif := f } :=
  ⟨h.rest, by simpa [he] using h.flag, by simpa [hc] using h.count, by simpa [ha] using h.addr, by simpa [hx] using h.txn⟩

theorem Rejecting.answer {b : Nat} {a : BitVec 16} {u t : State} (h : Rejecting b a u t) (bs : List Byte) :
    Rejecting b a u (answer bs t) := h.withHif _ rfl rfl rfl rfl

theorem Rejecting.acked {b : Nat} {a : BitVec 16} {u t : State} (h : Rejecting b a u t) (bs : List Bool) :
    Rejecting b a u (acked bs t) := h.withHif _ rfl rfl rfl rfl

theorem Rejecting.setPtr {b : Nat} {a : BitVec 16} {u t : State} (h : Rejecting b a u t) (p : BitVec 16) :
    Rejecting b a u (setPtr p t) := h.withHif _ rfl rfl rfl rfl

theorem Rejecting.parityMark {b : Nat} {a : BitVec 16} {u t : State} (h : Rejecting b a u t) (ok : Bool) :
    Rejecting b a u (parityMark ok t) := h.withHif _ rfl rfl rfl rfl

/-- A rejection as such marks no protocol error (R74). -/
theorem reject_protoErr (es : List Nat) (addr : Option (BitVec 16)) (s : State) :
    (reject es addr s).hif.protoErr = s.hif.protoErr := by
  have h : ∀ t : State, (forAll es (fun b => flagErr b addr) t).hif.protoErr = t.hif.protoErr := by
    induction es with
    | nil => exact fun t => rfl
    | cons c r ih => exact fun t => ih (flagErr c addr t)
  exact h s

/-- A field of a word, bit by bit. -/
theorem getLsbD_put (lo len v i : Nat) :
    (put lo len v).getLsbD i = (decide (i < 32) && (decide (lo ≤ i) && (decide (i - lo < len) && v.testBit (i - lo)))) := by
  rw [put, BitVec.getLsbD_ofNat, Nat.testBit_mul_two_pow, Nat.testBit_mod_two_pow]

/-- The flags of HIF_ERR are its low byte (Table 3.8). -/
theorem getLsbD_hifErr (s : State) (b : Nat) (hb : b < 8) : (hifErr s).getLsbD b = s.hif.err.getLsbD b := by
  rw [hifErr, BitVec.getLsbD_or, BitVec.getLsbD_or, getLsbD_put, getLsbD_put, getLsbD_put]
  simp [hb, Nat.not_le.mpr hb, show ¬ 16 ≤ b by omega, show b < 32 by omega, BitVec.testBit_toNat]

/-- A flag that a transaction set and that its snapshot did not hold rose in it (R77). -/
theorem errRose_of_flag (u : State) (x : Txn) (b : Nat) (h8 : b < 8) (ho : OpenedAt u x) (hn : x.newErr.getLsbD b = true)
    (hu : u.hif.err.getLsbD b = false) : x.errRose = true := by
  rw [Txn.errRose, ho.errs, bne_iff_ne]
  intro h0
  have hb := congrArg (fun y => BitVec.getLsbD y b) h0
  rw [BitVec.getLsbD_and, BitVec.getLsbD_not, BitVec.getLsbD_setWidth, getLsbD_hifErr u b h8, hn, hu] at hb
  simp [h8] at hb

/-- The end of a rejected transfer (R66, R77). -/
theorem rejectedWith_closeTxn (b : Nat) (a : BitVec 16) (u t : State) (h : Rejecting b a u t) (h8 : b < 8) (hm : mainUp u = true) :
    rejectedWith b a u (closeTxn t) ∧ (closeTxn t).hif = { t.hif with txn := none, header := false } := by
  obtain ⟨x, hx, ho, hbad, hn⟩ := h.txn
  have hmt : mainUp t = true := (congrArg mainUp h.rest).trans hm
  have hmem := congrArg State.mem h.rest
  rw [closeTxn_bad t x hx ho.cal0 ho.cal1 hbad ho.rst]
  refine ⟨⟨h.flag, h.count, h.addr, fun hu => ?_, hmem, rfl, ?_⟩, rfl⟩
  · change latched 59 (raiseIf x.errRose 59 t) = true
    rw [latched_raiseIf, errRose_of_flag u x b h8 ho hn hu]
    simp [raisable, hmt, src]
  · exact congrArg (fun v => { v with evt := u.evt }) h.rest

/-! ## Committed bytes that have no effect but their own (R57) -/

/-- What the model calls inert the host reads as it wrote it. -/
theorem plainRange_of_inert (a n : Nat) (h : inertRange a n = true) : plainRange a n = true := by simp [plainRange, h]

/-- A byte of an inert range is stored. -/
theorem byteWrite_inert (a : Nat) (v : Byte) (s : State) (h : inertRange a 1 = true) : byteWrite a v s = store a [v] s := by
  have hr : (0x4000 ≤ a ∧ a < 0x6000) ∨ (0x7800 ≤ a ∧ a < 0x7C00) := by simp [inertRange] at h; omega
  have hv : inClassV a = true := by simp [inClassV]; omega
  have hm : mapped a = true := by simp [mapped, hv]
  have ht : tableAt a = none := by rw [tableAt, if_neg (by omega), if_neg (by omega)]
  have h1 : ¬ a < 0x100 := by omega
  have h2 : ¬ (0x1000 ≤ a ∧ a < 0x1400) := by omega
  have h3 : ¬ (0x7500 ≤ a ∧ a < 0x75C0) := by omega
  simp only [byteWrite, hm, ht, h1, h2, h3]
  rfl

/-- An inert range and its first byte and the rest of it. -/
theorem inertRange_cons (a n : Nat) (h : inertRange a (n + 1) = true) :
    inertRange a 1 = true ∧ (0 < n → inertRange (a + 1) n = true) ∧ a % 65536 = a ∧ ¬ a < 0x100 := by
  simp [inertRange] at h ⊢
  omega

/-- The places of a commit of inert bytes: each one a byte of the range. -/
theorem itemsOf_inert (a : Nat) (data : List Byte) (h : inertRange a data.length = true) (i : Item) (hi : i ∈ itemsOf a [] data) :
    ∃ x v, i = .byte x v ∧ inertRange x 1 = true := by
  induction data generalizing a with
  | nil => simp [itemsOf] at hi
  | cons b r ih =>
    obtain ⟨h1, hr, hmod, hlo⟩ := inertRange_cons a r.length h
    simp only [itemsOf, hmod, hlo, if_false, List.mem_cons] at hi
    rcases hi with rfl | hi
    · exact ⟨a, b, rfl, h1⟩
    · exact ih (a + 1) (hr (by cases r with | nil => simp [itemsOf] at hi | cons => simp)) hi

/-- The commit of inert bytes stores them. -/
theorem forAll_itemsOf_inert (a : Nat) (data : List Byte) (s : State) (h : inertRange a data.length = true) :
    forAll (itemsOf a [] data) (commitItem false) s = store a data s := by
  induction data generalizing a s with
  | nil => rfl
  | cons b r ih =>
    obtain ⟨h1, hr, hmod, hlo⟩ := inertRange_cons a r.length h
    have e : itemsOf a [] (b :: r) = .byte a b :: itemsOf (a + 1) [] r := by simp [itemsOf, hmod, hlo]
    have hb : commitItem false (.byte a b) s = store a [b] s := by simp [commitItem, byteWrite_inert a b s h1]
    rw [e]
    change forAll (itemsOf (a + 1) [] r) (commitItem false) (commitItem false (.byte a b) s) = _
    rw [hb]
    cases r with
    | nil => rfl
    | cons c q => exact ih (a + 1) _ (hr (by simp))

/-- With no register written nothing falls at the end of a commit sequence. -/
theorem commitEnd_nil (s : State) : commitEnd [] s = s := by
  simp [commitEnd, clockEnd, armChecks, wrote, lastWord]

/-- A commit of inert bytes after the main start stores them; what it races with is the sequencer alone (R225). -/
theorem commit_inert (a : Nat) (data : List Byte) (s : State) (h : inertRange a data.length = true) (he : earlyTxn s = false) :
    ∃ tt, commit (itemsOf a [] data) s = { store a data s with tt := tt } := by
  have hw : wordsIn false (itemsOf a [] data) = [] := by
    refine List.filterMap_eq_nil_iff.mpr fun i hi => ?_
    obtain ⟨x, v, rfl, -⟩ := itemsOf_inert a data h i hi
    rfl
  have hm : (itemsOf a [] data).any Item.actsOnMeas = false := by
    refine List.any_eq_false.mpr fun i hi => ?_
    obtain ⟨x, v, rfl, -⟩ := itemsOf_inert a data h i hi
    simp [Item.actsOnMeas]
  have hf : (itemsOf a [] data).any Item.inFormats = false := by
    refine List.any_eq_false.mpr fun i hi => ?_
    obtain ⟨x, v, rfl, hx⟩ := itemsOf_inert a data h i hi
    simp [inertRange] at hx
    simp [Item.inFormats]
    omega
  simp only [commit, he, hw, hm, hf, when_false, commitEnd_nil, forAll_itemsOf_inert a data s h]
  cases (itemsOf a [] data).any Item.inStore
  · exact ⟨s.tt, rfl⟩
  · exact ⟨_, rfl⟩

/-- A transfer that long into such a range is rejected for nothing and meets no unmapped byte (R59 to R61). -/
theorem extentErrs_inert (a n : Nat) (h : inertRange a n = true) (hn : n ≤ 256) : extentErrs a n = [] := by
  have hp : partialWrite a n = false := by
    simp [inertRange] at h
    simp [partialWrite]
    omega
  simp [extentErrs, hp, hn]

/-- A write of inert bytes stores them (R57). -/
theorem writeBytes_inert (a : BitVec 16) (data : List Byte) (s : State) (hn : data.length ≤ 256)
    (h : inertRange a.toNat data.length = true) (he : earlyTxn s = false) :
    ∃ tt, writeBytes a data s = { store a.toNat data s with tt := tt } := by
  have hmap : (xferAddrs a.toNat data.length).any (fun x => !mapped x) = false := by
    refine List.any_eq_false.mpr fun x hx => ?_
    obtain ⟨i, hi, rfl⟩ := List.mem_map.mp hx
    obtain ⟨-, hmod, hv⟩ := plainRange_byte _ _ i (plainRange_of_inert _ _ h) (List.mem_range.mp hi)
    simp [mapped, hmod, hv]
  simp only [writeBytes, extentErrs_inert _ _ h hn, hmap, when_false]
  exact commit_inert a.toNat data s h he

/-! ## Transfers on the bus (R55, R70) -/

/-- The bus is in use. -/
def busInUse (s : State) : State := { s with hif := { s.hif with busIdle := 0 } }

/-- The bus does not show in the snapshot that a transaction takes (R55). -/
theorem openTxn_busInUse (s : State) : openTxn (busInUse s) = busInUse (openTxn s) := by
  have e : Txn.new (busInUse s) = Txn.new s := by
    simp only [Txn.new, busInUse]
    rfl
  simp [openTxn, e]
  rfl

/-- A transfer between a START and a STOP of its own. -/
theorem onBus_own (c : Bool) (n : Nat) (f : State → State) (s : State) (h : HostReady s) (hb : busOpen s = true) :
    onBus ⟨false, true, c, n⟩ f s = closeTxn (f (openTxn (busInUse (advance n s)))) := by
  obtain ⟨-, -, ht, hh⟩ := hostReady_advance n s h
  have e : beginXfer false (advance n s) = openTxn (busInUse (advance n s)) := by
    rw [openTxn_busInUse, beginXfer, Bool.false_and, if_neg Bool.false_ne_true, closeTxn_none _ ht, ← hh]
    rfl
  simp [onBus, hb, e]

/-- In the transaction of a ready port no range is barred (R85). -/
theorem earlyTxn_own (u : State) (h : HostReady u) : earlyTxn (openTxn (busInUse u)) = false := by
  have hr : mainReady (busInUse u) = true := h.2.1
  simp [hr]

/-- Between two transactions none is open. -/
theorem betweenTxns_of_noTxn (s : State) (h : noTxn s) : betweenTxns s = s := by
  rw [betweenTxns, hif_no_txn _ h.1 h.2]

/-- A transaction of its own in which nothing was noted ends in the state w that is as it was but for the transaction. -/
theorem closeTxn_own (t v w : State) (h : t.hif.txn = some (Txn.new v)) (hw : noTxn w) (e : betweenTxns t = betweenTxns w) :
    closeTxn t = w :=
  (closeTxn_fresh t (Txn.new v) h rfl rfl rfl rfl rfl).trans (e.trans (betweenTxns_of_noTxn w hw))

/-- The header address of a write on the bus (R70). -/
theorem addr_of_bytes (a : BitVec 16) :
    BitVec.ofNat 16 ((BitVec.ofNat 8 (a.toNat / 256)).toNat * 256 + (BitVec.ofNat 8 a.toNat).toNat) = a := by
  have h := a.isLt
  apply BitVec.eq_of_toNat_eq
  simp only [BitVec.toNat_ofNat]
  omega

/-- A write of data without errors of its frame: the pointer moves past it and it is committed (R70). -/
theorem busWrite_inert (a : BitVec 16) (data : List Byte) (s : State) (hd : data ≠ []) (hn : data.length ≤ 256)
    (h : inertRange a.toNat data.length = true) (he : earlyTxn s = false) :
    ∃ tt, busWrite [] (busBytes a data) s = { store a.toNat data (setPtr (a + BitVec.ofNat 16 data.length) s) with tt := tt } := by
  have he' : earlyTxn (setPtr (a + BitVec.ofNat 16 data.length) s) = false := by rw [← he]; rfl
  obtain ⟨tt, e⟩ := writeBytes_inert a data (setPtr (a + BitVec.ofNat 16 data.length) s) hn h he'
  refine ⟨tt, ?_⟩
  rw [← e]
  simp only [busWrite, busBytes, busAddr, addr_of_bytes, List.drop_succ_cons, List.drop_zero, List.nil_append,
    extentErrs_inert _ _ h hn, ne_eq, not_true, if_false, List.isEmpty_eq_false_iff.mpr hd, Bool.false_eq_true]

/-- A write with errors of its frame or its extent: rejected, with the pointer at its header address (R59, R70). -/
theorem busWrite_rejected (errs : List Nat) (a : BitVec 16) (data : List Byte) (s : State)
    (h : errs ++ extentErrs a.toNat data.length ≠ []) :
    busWrite errs (busBytes a data) s = setPtr a (reject (errs ++ extentErrs a.toNat data.length) (some a) s) := by
  simp only [busWrite, busBytes, busAddr, addr_of_bytes, List.drop_succ_cons, List.drop_zero]
  exact if_pos h

/-- A read of a plain range moves the pointer past it (R70). -/
theorem busRead_plain (len : Nat) (s : State) (h : plainRange s.hif.ptr.toNat len = true) (he : earlyTxn s = false) :
    busRead len s = answer (memLoad s.mem s.hif.ptr.toNat len) (setPtr (s.hif.ptr + BitVec.ofNat 16 len) s) := by
  simp [busRead, readBytes_plain _ _ _ s h he]

/-! ## I2C and I3C transfers to this device -/

/-- The device answers at its static address while it has no other (R70). -/
theorem atStatic_own (n : Nat) (s : State) (hd : s.hif.dynAddr = 0) :
    atStatic (staticAddr s) (openTxn (busInUse (advance n s))) = true := by
  simp [atStatic, staticAddr, openTxn, busInUse, hd]

/-- It answers at its dynamic address (R71). -/
theorem atDynamic_own (n : Nat) (s : State) (hd : s.hif.dynAddr ≠ 0) :
    atDynamic s.hif.dynAddr (openTxn (busInUse (advance n s))) = true := by
  simpa [atDynamic, openTxn, busInUse] using hd

/-- An I2C write to this device in a transaction of its own (R70). -/
theorem exec_i2cWrite_own (bytes : List Byte) (c : Bool) (n : Nat) (s : State) (h : HostReady s) (hb : busOpen s = true)
    (hd : s.hif.dynAddr = 0) :
    exec (.i2cWriteTransfer false (staticAddr s) bytes c true n) s = .next (closeTxn (acked (writeAcks bytes) (answer []
      (busWrite (if c then [1] else []) bytes (openTxn (busInUse (advance n s))))))) := by
  change Host.Outcome.next (i2cWrite (staticAddr s) bytes ⟨false, true, c, n⟩ s) = _
  rw [i2cWrite, onBus_own c n _ s h hb, addressed, if_pos (atStatic_own n s hd)]

/-- An I3C write to this device in a transaction of its own (R72). -/
theorem exec_i3cWrite_own (bytes : List Byte) (f : Framing) (n : Nat) (s : State) (h : HostReady s) (hb : busOpen s = true)
    (hd : s.hif.dynAddr ≠ 0) :
    exec (.i3cPrivateWrite false s.hif.dynAddr bytes f true n) s = .next (closeTxn (parityMark f.parityOk (acked [true] (answer []
      (busWrite ((if f.cut then [1] else []) ++ if f.parityOk then [] else [7]) bytes (openTxn (busInUse (advance n s)))))))) := by
  change Host.Outcome.next (i3cWrite s.hif.dynAddr bytes f.parityOk ⟨false, true, f.cut, n⟩ s) = _
  rw [i3cWrite, onBus_own f.cut n _ s h hb, addressed, if_pos (atDynamic_own n s hd)]

/-- An I2C read of this device in a transaction of its own (R70). -/
theorem exec_i2cRead_own (len : Nat) (c : Bool) (n : Nat) (s : State) (h : HostReady s) (hb : busOpen s = true)
    (hd : s.hif.dynAddr = 0) :
    exec (.i2cReadTransfer (staticAddr s) len ⟨false, true, c, n⟩) s =
      .next (closeTxn (readXfer len c (openTxn (busInUse (advance n s))))) := by
  change Host.Outcome.next (i2cRead (staticAddr s) len ⟨false, true, c, n⟩ s) = _
  rw [i2cRead, onBus_own c n _ s h hb, addressed, if_pos (atStatic_own n s hd)]

/-- An I3C read of this device in a transaction of its own (R72). -/
theorem exec_i3cRead_own (len : Nat) (c : Bool) (n : Nat) (s : State) (h : HostReady s) (hb : busOpen s = true)
    (hd : s.hif.dynAddr ≠ 0) :
    exec (.i3cPrivateRead s.hif.dynAddr len ⟨false, true, c, n⟩) s =
      .next (closeTxn (readXfer len c (openTxn (busInUse (advance n s))))) := by
  change Host.Outcome.next (i3cRead s.hif.dynAddr len ⟨false, true, c, n⟩ s) = _
  rw [i3cRead, onBus_own c n _ s h hb, addressed, if_pos (atDynamic_own n s hd)]

/-- A transfer that nobody answers. -/
theorem closeTxn_unanswered (u : State) (hu : HostReady u) :
    closeTxn (answer [] (acked [false] (openTxn (busInUse u)))) =
      { u with hif := { u.hif with reply := [], acks := [false], busIdle := 0 } } := by
  exact closeTxn_own _ (busInUse u) _ rfl hu.2.2 (by simp only [betweenTxns, answer, acked, openTxn, busInUse])

/-- A write transfer to another address is not acknowledged (R70). -/
theorem exec_i2cWrite_other (dev : BitVec 7) (bytes : List Byte) (c : Bool) (n : Nat) (s : State) (h : HostReady s)
    (hb : busOpen s = true) (hd : s.hif.dynAddr ≠ 0 ∨ dev ≠ staticAddr s) :
    exec (.i2cWriteTransfer false dev bytes c true n) s = .next { advance n s with
      hif := { (advance n s).hif with reply := [], acks := [false], busIdle := 0 } } := by
  have ha : atStatic dev (openTxn (busInUse (advance n s))) = false := by
    simpa [atStatic, staticAddr, openTxn, busInUse, ← imp_iff_not_or] using hd
  change Host.Outcome.next (i2cWrite dev bytes ⟨false, true, c, n⟩ s) = _
  rw [i2cWrite, onBus_own c n _ s h hb, addressed, ha, if_neg Bool.false_ne_true, closeTxn_unanswered _ (hostReady_advance n s h)]

/-- What a write transfer of inert bytes leaves at the end of its transaction: the bytes stored, the pointer behind them (R57, R70). -/
theorem busWrite_stored (a : BitVec 16) (data : List Byte) (u : State) (hu : HostReady u) (hw : Memory.wf u.mem = true)
    (hd : data ≠ []) (hn : data.length ≤ 256) (hr : inertRange a.toNat data.length = true) (acks : List Bool) (t : State)
    (ht : t = closeTxn (acked acks (answer [] (busWrite [] (busBytes a data) (openTxn (busInUse u)))))) :
    storedAt a.toNat data u.mem t.mem ∧
    t.hif = { u.hif with ptr := a + BitVec.ofNat 16 data.length, reply := [], acks := acks, busIdle := 0 } ∧
    { t with mem := u.mem, hif := u.hif, tt := u.tt } = u := by
  obtain ⟨tt, e⟩ := busWrite_inert a data (openTxn (busInUse u)) hd hn hr (earlyTxn_own u hu)
  have h : t = { u with
      mem := memStore u.mem a.toNat data, tt := tt
      hif := { u.hif with ptr := a + BitVec.ofNat 16 data.length, reply := [], acks := acks, busIdle := 0 } } := by
    rw [ht, e]
    exact closeTxn_own _ (busInUse u) _ rfl hu.2.2 (by simp only [betweenTxns, store, setPtr, answer, acked, openTxn, busInUse])
  rw [h]
  exact ⟨fun x => memByte_memStore data u.mem a.toNat x hw, rfl, rfl⟩

/-- A whole read of a plain range from the pointer (R70). -/
theorem readXfer_whole (len : Nat) (u : State) (hu : HostReady u) (hr : plainRange u.hif.ptr.toNat len = true) :
    closeTxn (readXfer len false (openTxn (busInUse u))) = { u with hif := { u.hif with
      reply := memLoad u.mem u.hif.ptr.toNat len, ptr := u.hif.ptr + BitVec.ofNat 16 len, acks := [true], busIdle := 0 } } := by
  have e : busRead len (openTxn (busInUse u)) = _ := busRead_plain len (openTxn (busInUse u)) hr (earlyTxn_own u hu)
  rw [readXfer, if_neg Bool.false_ne_true, e]
  exact closeTxn_own _ (busInUse u) _ rfl hu.2.2 (by simp only [betweenTxns, setPtr, answer, acked, openTxn, busInUse])

/-- A read of a plain range that is cut inside a byte is rejected, with the pointer it began at (R70, Table 3.8). -/
theorem readXfer_cut (len : Nat) (u : State) (hu : HostReady u) (hr : plainRange u.hif.ptr.toNat len = true) :
    rejectedWith 1 u.hif.ptr u (closeTxn (readXfer len true (openTxn (busInUse u)))) := by
  have e : busRead len (openTxn (busInUse u)) = _ := busRead_plain len (openTxn (busInUse u)) hr (earlyTxn_own u hu)
  have ho : OnlyRead u (busRead len (openTxn (busInUse u))) := by
    rw [e]
    exact ((onlyRead_openTxn u 0).setPtr _).answer _
  have hj := (rejecting_reject [1] 1 u.hif.ptr u _ ho (by simp) (by decide)).acked [true]
  exact (rejectedWith_closeTxn 1 u.hif.ptr u _ hj (by decide) (mainUp_of_hostReady u hu)).1

/-- A write transfer that is rejected, with flag b among its flags: what its transaction leaves, the pointer at its header address (R66,
R70). -/
theorem busWrite_rejecting (errs : List Nat) (b : Nat) (a : BitVec 16) (data : List Byte) (u : State)
    (hb : b ∈ errs ++ extentErrs a.toNat data.length) (h8 : b < 8) :
    Rejecting b a u (busWrite errs (busBytes a data) (openTxn (busInUse u))) ∧
    (busWrite errs (busBytes a data) (openTxn (busInUse u))).hif.ptr = a ∧
    (busWrite errs (busBytes a data) (openTxn (busInUse u))).hif.protoErr = u.hif.protoErr := by
  rw [busWrite_rejected errs a data _ (List.ne_nil_of_mem hb)]
  have hj := rejecting_reject _ b a u _ (onlyRead_openTxn u 0) hb h8
  exact ⟨hj.setPtr a, rfl, reject_protoErr _ _ _⟩

/-- The end of a rejected I2C write (R59, R70). -/
theorem i2cWrite_rejected (errs : List Nat) (b : Nat) (a : BitVec 16) (data : List Byte) (u : State) (hu : HostReady u)
    (hb : b ∈ errs ++ extentErrs a.toNat data.length) (h8 : b < 8) (acks : List Bool) (t : State)
    (ht : t = closeTxn (acked acks (answer [] (busWrite errs (busBytes a data) (openTxn (busInUse u)))))) :
    rejectedWith b a u t ∧ t.hif.acks = acks ∧ t.hif.ptr = a := by
  obtain ⟨hj, hp, -⟩ := busWrite_rejecting errs b a data u hb h8
  obtain ⟨hr, hf⟩ := rejectedWith_closeTxn b a u _ ((hj.answer []).acked acks) h8 (mainUp_of_hostReady u hu)
  rw [ht]
  exact ⟨hr, by rw [hf]; rfl, by rw [hf]; exact hp⟩

/-- The end of a rejected I3C write (R72, R74). -/
theorem i3cWrite_rejected (errs : List Nat) (b : Nat) (a : BitVec 16) (data : List Byte) (u : State) (hu : HostReady u)
    (hb : b ∈ errs ++ extentErrs a.toNat data.length) (h8 : b < 8) (ok : Bool) (t : State)
    (ht : t = closeTxn (parityMark ok (acked [true] (answer [] (busWrite errs (busBytes a data) (openTxn (busInUse u))))))) :
    rejectedWith b a u t ∧ t.hif.protoErr = (u.hif.protoErr || !ok) ∧ t.hif.ptr = a := by
  obtain ⟨hj, hp, hq⟩ := busWrite_rejecting errs b a data u hb h8
  obtain ⟨hr, hf⟩ := rejectedWith_closeTxn b a u _ (((hj.answer []).acked [true]).parityMark ok) h8 (mainUp_of_hostReady u hu)
  rw [ht]
  exact ⟨hr, by rw [hf, ← hq]; rfl, by rw [hf]; exact hp⟩

/-- The acknowledges of the data bytes, and of the two of the address before them, up to the 257th (R59). -/
theorem map_lt_eq_replicate (n : Nat) (h : n ≤ 258) : (List.range n).map (fun i => decide (i < 258)) = List.replicate n true := by
  refine List.eq_replicate_iff.mpr ⟨by simp, fun b hb => ?_⟩
  obtain ⟨i, hi, rfl⟩ := List.mem_map.mp hb
  have := List.mem_range.mp hi
  simp
  omega

/-- What the device acknowledges of an I2C write of up to 256 data bytes: everything (R70). -/
theorem writeAcks_whole (a : BitVec 16) (data : List Byte) (hn : data.length ≤ 256) :
    writeAcks (busBytes a data) = List.replicate (data.length + 3) true := by
  rw [writeAcks, map_lt_eq_replicate _ (by simp [busBytes]; omega)]
  rfl

/-- Of more than 256 data bytes the 257th and all after it are not acknowledged (R59). -/
theorem writeAcks_long (a : BitVec 16) (data : List Byte) (hn : 256 < data.length) :
    writeAcks (busBytes a data) = List.replicate 259 true ++ List.replicate (data.length - 256) false := by
  have hl : (busBytes a data).length = 258 + (data.length - 256) := by simp [busBytes]; omega
  have hr : ((List.range (data.length - 256)).map (258 + ·)).map (fun i => decide (i < 258)) = List.replicate (data.length - 256) false :=
    List.eq_replicate_iff.mpr ⟨by simp, by simp⟩
  rw [writeAcks, hl, List.range_add, List.map_append, map_lt_eq_replicate 258 (Nat.le_refl _), hr]
  rfl

/-- A right parity marks nothing (R74). -/
theorem parityMark_true (s : State) : parityMark true s = s := by simp [parityMark]

/-! ## A read behind a repeated START (R55, R97) -/

/-- The machine after a repeated START (R55). -/
def restarted (s : State) : State := { s with hif := { s.hif with busIdle := 0, header := false } }

/-- A transfer that a repeated START adds to the open transaction, which takes no new snapshot and stays open. -/
theorem onBus_repeated (n : Nat) (f : State → State) (s : State) (x : Txn) (hb : busOpen s = true) (hx : s.hif.txn = some x) :
    onBus ⟨true, false, false, n⟩ f s = f (restarted (advance n s)) := by
  simp [onBus, hb, beginXfer, hx, restarted]

/-- A repeated START changes no word that is read. -/
theorem txnWord_restarted (u : State) (k : Nat) : txnWord (restarted u) k = txnWord u k := by
  unfold txnWord; rfl

/-- A register read behind a repeated START. -/
theorem readXfer_register (k : Nat) (hk : k < 64) (u : State) (x : Txn) (hx : u.hif.txn = some x) (hp : u.hif.ptr = BitVec.ofNat 16 (4 * k)) :
    readXfer 4 false (restarted u) = { u with hif := { u.hif with
      busIdle := 0, header := false, txn := some (regNoted k u x), reply := leBytes 4 (txnWord u k).toNat
      ptr := BitVec.ofNat 16 (4 * k + 4), acks := [true] } } := by
  have hn : (restarted u).hif.ptr.toNat = 4 * k := by
    have e : (restarted u).hif.ptr = BitVec.ofNat 16 (4 * k) := hp
    rw [e, BitVec.toNat_ofNat]
    omega
  have hv : BitVec.ofNat 16 (4 * k) + BitVec.ofNat 16 4 = BitVec.ofNat 16 (4 * k + 4) := (BitVec.ofNat_add ..).symm
  have hm : regNoted k (restarted u) x = regNoted k u x := by simp only [regNoted, rtcShadow, restarted]; rfl
  rw [readXfer, if_neg Bool.false_ne_true, busRead, hn, readBytes_register _ k hk (restarted u) x hx, txnWord_restarted, hm]
  simp only [acked, answer, setPtr, restarted, hp, hv]

/-- The five time registers as they stand, where the open transaction has not itself written the time (R97, R98). -/
theorem rtcShadow_present (u : State) (x : Txn) (hx : u.hif.txn = some x) (ht : x.timeSet = false) :
    rtcShadow u = [u.rtc.sec, rtcFrac u, (rtcCal u).1, (rtcCal u).2, rtcLocal u] := by
  simp [rtcShadow, hx, ht]

/-- A register that the host reads by I2C behind a repeated START (R10, R55, R97). -/
theorem exec_i2cRead_register (n k : Nat) (s : State) (x : Txn) (hb : busOpen s = true) (hx : s.hif.txn = some x) (hd : s.hif.dynAddr = 0)
    (hk : k < 64) (hp : s.hif.ptr = BitVec.ofNat 16 (4 * k)) :
    exec (.i2cReadTransfer (staticAddr s) 4 ⟨true, false, false, n⟩) s = .next { advance n s with hif := { (advance n s).hif with
      busIdle := 0, header := false, txn := some (regNoted k (advance n s) x), reply := leBytes 4 (txnWord (advance n s) k).toNat
      ptr := BitVec.ofNat 16 (4 * k + 4), acks := [true] } } := by
  have hf : (advance n s).hif = s.hif := by simp
  have ha : atStatic (staticAddr s) (restarted (advance n s)) = true := by simp [atStatic, staticAddr, restarted, hd]
  change Host.Outcome.next (i2cRead (staticAddr s) 4 ⟨true, false, false, n⟩ s) = _
  rw [i2cRead, onBus_repeated n _ s x hb hx, addressed, if_pos ha, readXfer_register k hk _ x (hf ▸ hx) (hf ▸ hp)]

/-- Settles O15: each transfer is its own transaction, whose body stores, is rejected or reads, and whose end follows from that; behind a
repeated START the register's word is read in the open one. -/
theorem busTransfers : Obligations.BusTransfers := by
  unfold Obligations.BusTransfers
  refine ⟨?_, ?_⟩
  · rintro s n h hb hw u rfl
    have hu := hostReady_advance n s h
    have hf : (advance n s).hif = s.hif := by simp
    have hm : (advance n s).mem = s.mem := by simp
    refine ⟨fun a data hd => ⟨fun hn hr => ⟨fun h0 => ?_, fun h0 => ?_⟩, fun hl h0 => ?_, fun h0 => ⟨?_, ?_⟩, fun h0 => ?_⟩,
      fun len hp => ⟨fun h0 => ?_, fun h0 => ?_, fun h0 => ?_, fun h0 => ?_⟩, fun dev bytes c h0 => ?_⟩
    · -- whole writes, by I2C and by I3C (R57, R70, R72)
      rw [← hm, ← writeAcks_whole a data hn]
      exact ⟨_, exec_i2cWrite_own _ false n s h hb h0, busWrite_stored a data _ hu (hm ▸ hw) hd hn hr _ _ rfl⟩
    · rw [← hm]
      exact ⟨_, exec_i3cWrite_own _ ⟨true, false⟩ n s h hb h0,
        busWrite_stored a data _ hu (hm ▸ hw) hd hn hr [true] _ (parityMark_true _ ▸ rfl)⟩
    · -- more than 256 data bytes (R59)
      obtain ⟨hr, hk, -⟩ := i2cWrite_rejected [] 3 a data (advance n s) hu (by simp [extentErrs, hl]) (by decide) _ _ rfl
      exact ⟨_, exec_i2cWrite_own _ false n s h hb h0, hr, hk.trans (writeAcks_long a data hl)⟩
    · -- a parity error (R74)
      obtain ⟨hr, hq, hp⟩ := i3cWrite_rejected [7] 7 a data (advance n s) hu (by simp) (by decide) false _ rfl
      exact ⟨_, exec_i3cWrite_own _ ⟨false, false⟩ n s h hb h0, hr, hq.trans (Bool.or_true _), hp⟩
    · -- writes cut inside a byte
      obtain ⟨hr, hq, hp⟩ := i3cWrite_rejected [1] 1 a data (advance n s) hu (by simp) (by decide) true _ rfl
      exact ⟨_, exec_i3cWrite_own _ ⟨true, true⟩ n s h hb h0, hr, hq.trans (by simp), hp⟩
    · obtain ⟨hr, -, hp⟩ := i2cWrite_rejected [1] 1 a data (advance n s) hu (by simp) (by decide) _ _ rfl
      exact ⟨_, exec_i2cWrite_own _ true n s h hb h0, hr, hp⟩
    · -- reads, whole and cut (R70)
      rw [exec_i2cRead_own len false n s h hb h0, readXfer_whole len _ hu (hf ▸ hp), hf, hm]
    · exact ⟨_, exec_i2cRead_own len true n s h hb h0, hf ▸ readXfer_cut len _ hu (hf ▸ hp)⟩
    · exact ⟨_, exec_i3cRead_own len true n s h hb h0, hf ▸ readXfer_cut len _ hu (hf ▸ hp)⟩
    · rw [exec_i3cRead_own len false n s h hb h0, readXfer_whole len _ hu (hf ▸ hp), hf, hm]
    · exact exec_i2cWrite_other dev bytes c n s h hb h0
  · rintro s n k x hb hx hd hk hp u rfl
    have hu : (advance n s).hif.txn = some x := by simpa using hx
    -- the word is the snapshot's where it is not RW, or the shadow's (R10, R97)
    refine ⟨_, exec_i2cRead_register n k s x hb hx hd hk hp, fun hi => ?_, fun i hi => ⟨fun w hw => ?_, fun hw ht => ?_⟩, rfl, rfl, rfl⟩
    · have e : snapWord (advance n s) k = x.snap.getD k 0 := by simp only [snapWord, hu]
      simp only [txnWord_plain _ k hi, e]
    · simp only [txnWord_shadow _ k i x hi hu, hw, Option.getD_some]
    · have e := rtcShadow_present (advance n s) x hu ht
      refine ⟨_, rfl, ?_, ?_⟩
      · simp only [regNoted, hi, hw, e, Option.isSome_some, if_true, Option.getD_none]
      · simp only [txnWord_shadow _ k i x hi hu, hw, e, Option.getD_none]

end Sys2Proof.Machine
end

section
/-! SUPPORT. SPI frames that are a transaction of their own (R62, R64, R65), and the RC fields that a whole read clears (R11). -/

namespace Sys2Proof.Machine

/-! ## Frames -/

/-- An SPI frame between its opening and its closing edge. -/
theorem spiFrame_own (bytes : List Byte) (extra : BitVec 3) (u : State) (hu : HostReady u) (hs : u.hif.i3c = false) (hb : bytes ≠ []) :
    spiFrame bytes extra u = closeTxn (spiBody bytes extra (openTxn u)) := by
  have ho : portOpen u = true := by
    have h := hu.1
    simp only [portHears, Bool.and_eq_true] at h
    exact h.1
  simp [spiFrame, spiOpen, ho, hs, hb, closeTxn_none u hu.2.2.1]

/-- A frame of one to three bytes sends the status byte alone (R65). -/
theorem spiBody_poll (bytes : List Byte) (t : State) (h0 : 0 < bytes.length) (h4 : bytes.length < 4) :
    spiBody bytes 0 t = answer (statusByte t :: List.replicate (bytes.length - 1) 0) t := by
  have hr : resetFrame bytes 0 = false := by simp [resetFrame]; omega
  obtain ⟨m, hm⟩ : ∃ m, bytes.length = m + 1 := ⟨bytes.length - 1, by omega⟩
  have hl : statusOnly bytes.length (statusByte t) = statusByte t :: List.replicate (bytes.length - 1) 0 := by
    simp [statusOnly, hm]
  simp only [spiBody, hr, h4, hl]
  rfl

/-- The header address of a frame (Table 3.2). -/
theorem headerAddr_spiHeader (cmd : Byte) (a : BitVec 16) (rest : List Byte) : headerAddr (spiHeader cmd a ++ rest) = a :=
  addr_of_bytes a

/-- A read frame without CRC (R62). -/
theorem spiBody_read (a : BitVec 16) (dummy : Byte) (rest : List Byte) (extra : BitVec 3) (t : State) (hc : t.hif.crcEn = false) :
    spiBody (spiHeader 0x5A a ++ dummy :: rest) extra t =
      spiReadPlain (spiHeader 0x5A a ++ dummy :: rest) extra t := by
  have hr : resetFrame (spiHeader 0x5A a ++ dummy :: rest) extra = false := by simp [resetFrame, spiHeader]
  have hl : ¬ (spiHeader 0x5A a ++ dummy :: rest).length < 4 := by simp [spiHeader]
  have hb : byteAt (spiHeader 0x5A a ++ dummy :: rest) 0 = 0x5A := rfl
  simp only [spiBody, hr, hl, hb, spiReadFrame, hc, if_false, Bool.false_eq_true, if_true]
  rfl

/-- What a read frame without CRC sends and notes, or is rejected for where it is not whole bytes (R62, R66). -/
theorem spiReadPlain_eq (a : BitVec 16) (dummy : Byte) (rest : List Byte) (extra : BitVec 3) (t v : State) (bs : List Byte)
    (h : readBytes a a.toNat rest.length t = (bs, v)) :
    spiReadPlain (spiHeader 0x5A a ++ dummy :: rest) extra t =
      if extra = 0 then answer ([statusByte t, 0, 0, 0] ++ bs) v
      else reject (bitsErr extra) (some a) (answer ([statusByte t, 0, 0, 0] ++ bs) v) := by
  have hl : (spiHeader 0x5A a ++ dummy :: rest).length - 4 = rest.length := by simp [spiHeader]
  simp only [spiReadPlain, headerAddr_spiHeader, hl, h]

/-! ## RC fields (R11) -/

/-- The bytes that the read of register k sent. -/
theorem has_regNoted (k : Nat) (s u : State) (a : Nat) : (regNoted k s (Txn.new u)).has a = decide (k = a / 4) := by
  rw [Bool.eq_iff_iff, decide_eq_true_eq]
  simp [Txn.has, regNoted, regBytes, Txn.new]
  omega

/-- A field of the snapshot of register k. -/
theorem fld_regNoted (k : Nat) (s u : State) (j lo len : Nat) (hj : j < 64) :
    (regNoted k s (Txn.new u)).fld j lo len = fld (regRead u j) lo len := by
  simp [Txn.fld, regNoted, Txn.new, hj]

/-- A whole read of register k clears its RC fields at the end of its transaction (R11). -/
theorem clearRc_register (k : Nat) (s u : State) (f : Hif) (he : f.err = u.hif.err) (hc : f.errCount = u.hif.errCount)
    (ha : f.lastAddr = u.hif.lastAddr) :
    clearRc (regNoted k s (Txn.new u)) { u with hif := f } = { readClears k u with hif := { f with
      err := (readClears k u).hif.err, errCount := (readClears k u).hif.errCount, lastAddr := (readClears k u).hif.lastAddr } } := by
  have hn : (regNoted k s (Txn.new u)).newErr = 0 := rfl
  have hbad : (regNoted k s (Txn.new u)).bad = false := rfl
  have hear : (regNoted k s (Txn.new u)).early = false := rfl
  have hprot : (regNoted k s (Txn.new u)).prot = false := rfl
  unfold readClears
  split <;> simp_all [clearRc, has_regNoted, fld_regNoted]

/-- The RC fields of the host port are those of HIF_ERR (Table 3.8). -/
theorem readClears_hif (k : Nat) (u : State) : (readClears k u).hif = { u.hif with
    err := (readClears k u).hif.err, errCount := (readClears k u).hif.errCount, lastAddr := (readClears k u).hif.lastAddr } := by
  unfold readClears
  split <;> rfl

/-- A word masked into itself. -/
theorem maskIn_same (mask w : Word) : maskIn mask w w = w := by
  rw [maskIn, ← BitVec.and_or_distrib_left, BitVec.or_comm, BitVec.or_not_self, BitVec.and_allOnes]

/-- A whole word read by the transaction that its snapshot opens is the register's (R10, R97). -/
theorem txnWord_openTxn (u : State) (k : Nat) (hk : k < 64) : txnWord (openTxn u) k = regRead u k := by
  cases hi : shadowIdx k with
  | none =>
    have hr : regRead (openTxn u) k = regRead u k := regRead_bus u _ u.hif.busIdle u.hif.header k
    rw [txnWord_plain _ k hi, openTxn_snap u k hk, hr, maskIn_same]
  | some i =>
    rw [txnWord_shadow _ k i _ hi (openTxn_txn u)]
    unfold shadowIdx at hi
    split at hi <;> cases hi <;> rfl

/-- A read of register k in the transaction that its frame opens. -/
theorem readBytes_openTxn (k : Nat) (hk : k < 64) (u : State) (a : BitVec 16) (ha : a.toNat = 4 * k) :
    readBytes a a.toNat 4 (openTxn u) = (leBytes 4 (regRead u k).toNat,
      { openTxn u with hif := { (openTxn u).hif with txn := some (regNoted k (openTxn u) (Txn.new u)) } }) := by
  rw [ha, readBytes_register a k hk (openTxn u) _ (openTxn_txn u), txnWord_openTxn u k hk]

/-- The end of a frame that read register k whole (R11). -/
theorem closeTxn_register (k : Nat) (u : State) (hu : HostReady u) (bs : List Byte) :
    closeTxn (answer bs { openTxn u with hif := { (openTxn u).hif with txn := some (regNoted k (openTxn u) (Txn.new u)) } }) =
      { readClears k u with hif := { (readClears k u).hif with reply := bs } } := by
  rw [closeTxn_clears _ (regNoted k (openTxn u) (Txn.new u)) rfl rfl rfl rfl rfl]
  have e := clearRc_register k (openTxn u) u { u.hif with reply := bs, txn := some (regNoted k (openTxn u) (Txn.new u)) } rfl rfl rfl
  rw [show answer bs { openTxn u with hif := { (openTxn u).hif with txn := some (regNoted k (openTxn u) (Txn.new u)) } } =
    { u with hif := { u.hif with reply := bs, txn := some (regNoted k (openTxn u) (Txn.new u)) } } by simp only [answer, openTxn], e]
  conv_rhs => rw [readClears_hif]
  simp only [betweenTxns, hu.2.2.1, hu.2.2.2]

/-- The end of a frame that sent bytes and noted nothing. -/
theorem closeTxn_answer (u : State) (hu : HostReady u) (bs : List Byte) :
    closeTxn (answer bs (openTxn u)) = { u with hif := { u.hif with reply := bs } } :=
  closeTxn_own _ u _ rfl hu.2.2 (by simp only [betweenTxns, answer, openTxn])

/-- The opening edge does not show in the status byte (R65). -/
theorem statusByte_openTxn (u : State) : statusByte (openTxn u) = statusByte u := rfl

/-- The read frame of a ready port without CRC, at its moment. -/
theorem exec_spiRead_own (a : BitVec 16) (dummy : Byte) (rest : List Byte) (extra : BitVec 3) (n : Nat) (s : State) (h : HostReady s)
    (hs : s.hif.i3c = false) (hc : s.hif.crcEn = false) (bs : List Byte) (v : State)
    (hr : readBytes a a.toNat rest.length (openTxn (advance n s)) = (bs, v)) :
    exec (.spiReadFrame (spiHeader 0x5A a ++ dummy :: rest) extra n) s =
      .next (closeTxn (if extra = 0 then answer ([statusByte (advance n s), 0, 0, 0] ++ bs) v
        else reject (bitsErr extra) (some a) (answer ([statusByte (advance n s), 0, 0, 0] ++ bs) v))) := by
  have hs' : (advance n s).hif.i3c = false := by simpa using hs
  have hc' : (openTxn (advance n s)).hif.crcEn = false := by simpa [openTxn] using hc
  change Host.Outcome.next (spiFrame _ extra (advance n s)) = _
  rw [spiFrame_own _ extra _ (hostReady_advance n s h) hs' (by simp), spiBody_read a dummy rest extra _ hc',
    spiReadPlain_eq a dummy rest extra _ v bs hr, statusByte_openTxn]

/-- A read of register k changes its transaction alone. -/
theorem onlyRead_register (k : Nat) (u : State) :
    OnlyRead u { openTxn u with hif := { (openTxn u).hif with txn := some (regNoted k (openTxn u) (Txn.new u)) } } :=
  ⟨by simp only [openTxn], rfl, rfl, _, rfl, rfl, rfl, rfl, rfl⟩

/-- The end of a frame that read and is not whole bytes: nothing clears, what was sent stands (R11, R66). -/
theorem closeTxn_spiCut (a : BitVec 16) (extra : BitVec 3) (he : extra ≠ 0) (u v : State) (hu : HostReady u) (hv : OnlyRead u v)
    (bs : List Byte) :
    rejectedWith 1 a u (closeTxn (reject (bitsErr extra) (some a) (answer bs v))) ∧
    (closeTxn (reject (bitsErr extra) (some a) (answer bs v))).hif.reply = bs := by
  have hb : bitsErr extra = [1] := if_neg he
  have hj := rejecting_reject [1] 1 a u _ (hv.answer bs) (by simp) (by decide)
  obtain ⟨hr, hf⟩ := rejectedWith_closeTxn 1 a u _ hj (by decide) (mainUp_of_hostReady u hu)
  rw [hb]
  exact ⟨hr, by rw [hf]; simp [answer]⟩

/-- Settles O13: a frame is its own transaction, whose snapshot gives the word or whose memory the bytes, and whose end clears the RC
fields it sent. -/
theorem spiReads : Obligations.SpiReads := by
  unfold Obligations.SpiReads
  refine fun s h hs => ⟨?_, ?_, ?_⟩
  · rintro a dummy rest n hc hr u rfl
    have hu := hostReady_advance n s h
    have hm : mainReady (advance n s) = true := hu.2.1
    have he : earlyTxn (openTxn (advance n s)) = false := by simp [hm]
    have hmem : (openTxn (advance n s)).mem = s.mem := by simp [openTxn]
    rw [exec_spiRead_own a dummy rest 0 n s h hs hc _ _ (readBytes_plain a a.toNat _ _ hr he), if_pos rfl, closeTxn_answer _ hu, hmem]
  · rintro k dummy b0 b1 b2 b3 n hc hk u rfl
    have hu := hostReady_advance n s h
    have ha : (BitVec.ofNat 16 (4 * k)).toNat = 4 * k := by rw [BitVec.toNat_ofNat]; omega
    have hx := fun extra => exec_spiRead_own _ dummy [b0, b1, b2, b3] extra n s h hs hc _ _
      (readBytes_openTxn k hk (advance n s) _ ha)
    refine ⟨?_, fun extra he => ?_⟩
    · rw [hx 0, if_pos rfl, closeTxn_register k _ hu]
    · have e := hx extra
      rw [if_neg he] at e
      exact ⟨_, e, closeTxn_spiCut _ extra he _ _ hu (onlyRead_register k _) _⟩
  · intro bytes h0 h4
    change Host.Outcome.next (spiFrame bytes 0 s) = _
    rw [spiFrame_own bytes 0 s h hs (List.ne_nil_of_length_pos h0), spiBody_poll bytes _ h0 h4, closeTxn_answer s h, statusByte_openTxn]

end Sys2Proof.Machine
end

section
/-! SUPPORT. The steps of the main start, from the release of main reset to the ledger's recovery (R31, R84, R186, R287, Table 4.6). -/

namespace Sys2Proof.Machine

/-- What every step of a fold keeps, the fold keeps. -/
theorem forAll_keeps {α β : Type} (g : State → β) (l : List α) (f : α → State → State) (s : State)
    (h : ∀ a t, g (f a t) = g t) : g (forAll l f s) = g s := by
  induction l generalizing s with
  | nil => rfl
  | cons a r ih => exact (ih (f a s)).trans (h a s)

/-- A scrub owed takes no spare (R297). -/
theorem freeSpares_oweScrub (l : Nat) (s : State) : freeSpares (oweScrub l s) = freeSpares s := by
  unfold oweScrub owe
  split
  · rfl
  · split
    · have ht : ∀ k, (s.nv.todo ++ [NvTask.scrub l]).any (NvTask.takes k) = s.nv.todo.any (NvTask.takes k) := by
        simp [NvTask.takes]
      simp only [freeSpares, ht]
      rfl
    · rfl

/-- Pages that are read leave the free spares (R294, R297). -/
theorem freeSpares_scrubAll (ls : List Nat) (s : State) : freeSpares (scrubAll ls s) = freeSpares s :=
  forAll_keeps freeSpares _ _ s freeSpares_oweScrub

/-- An uncorrectable word changes no count of spares (R293). -/
theorem nvUnc_spares (s : State) : (nvUnc s).nv.spares = s.nv.spares ∧ (nvUnc s).nv.susp = s.nv.susp := ⟨rfl, rfl⟩

/-- MAIN_RESET_RELEASE in main reset (R31). -/
theorem mainResetRelease_held (ifsel addr : Bool) (s : State) (hm : s.pwr.mainOn = true) (hp : s.sys.phase = .held) :
    mainResetRelease ifsel addr s = { s with
      sys := { s.sys with phase := .released, powerOn := false, soft := false }
      hif := if s.sys.powerOn then { s.hif with i3c := ifsel, addrHi := addr } else s.hif } := by
  simp only [mainResetRelease, hm, hp]
  cases s.sys.powerOn <;> rfl

/-- MAIN_START_HFRC_RUNNING behind the release: AOUT follows the clock that now runs. -/
theorem hfrcRunning_released (s : State) (hm : s.pwr.mainOn = true) (hp : s.sys.phase = .released) :
    hfrcRunning s = outSettle { s with sys := { s.sys with phase := .hfrc }, cond := { s.cond with awake := true, wdog := 0 } } := by
  simp [hfrcRunning, hm, hp]

/-- The conductor runs in a main start that has reached the HFRC, unless its watchdog holds it (Table 4.6). -/
theorem condRuns_at (s : State) (hm : s.pwr.mainOn = true) (hr : s.cond.inReset = false) (h1 : s.sys.phase ≠ .off)
    (h2 : s.sys.phase ≠ .held) (h3 : s.sys.phase ≠ .released) : condRuns s = true := by
  simp [condRuns, mainUp, hm, hr, h1, h2, h3]

/-- SRAM_CLEAR_DONE behind the journal read (R186, Table 4.1). -/
theorem sramClearDone_journal (s : State) (hm : s.pwr.mainOn = true) (hp : s.sys.phase = .journal) :
    sramClearDone s = { s with
      mem := memClear (memClear (memClear s.mem 0x1000 0x7500) 0x7640 0x7740) 0x7800 0x7C00
      ros := { s.ros with sealed := Ros.reset.sealed }
      sys := { s.sys with phase := .cleared, sramDone := true } } := by
  simp [sramClearDone, mainUp, hm, hp]

/-- Settles O46: each step of the main start is its own effect at the phase that it waits for. -/
theorem mainStartSteps : Obligations.MainStartSteps := by
  unfold Obligations.MainStartSteps
  refine fun s hm => ⟨?release, ?hfrc, ?journal, ?clear, ?ledger⟩
  case release =>
    exact fun hp ifsel addr => congrArg _ (mainResetRelease_held ifsel addr s hm hp)
  case hfrc =>
    refine fun hp => ⟨hfrcRunning s, rfl, ?_⟩
    simp [hfrcRunning_released s hm hp]
  case journal =>
    refine fun hp hr => ⟨journalRead s, rfl, ?_⟩
    have hc : condRuns s = true := condRuns_at s hm hr (by simp [hp]) (by simp [hp]) (by simp [hp])
    simp only [journalRead, hc, hp, serve, freeSpares_scrubAll]
    split
    · contradiction
    · split <;> simp [nvUnc_spares]
  case clear =>
    refine fun hp hw => ⟨sramClearDone s, rfl, ?_⟩
    have h1 := memClear_wf s.mem 0x1000 0x7500 hw
    rw [sramClearDone_journal s hm hp]
    refine ⟨rfl, fun a => ?_, rfl, rfl⟩
    rw [memByte_memClear _ _ _ _ (memClear_wf _ _ _ h1), memByte_memClear _ _ _ _ h1, memByte_memClear _ _ _ _ hw]
    grind
  case ledger =>
    refine fun hp hr => ⟨ledgerRecovery s, rfl, ?_⟩
    have hc : condRuns s = true := condRuns_at s hm hr (by simp [hp]) (by simp [hp]) (by simp [hp])
    simp [ledgerRecovery, hc, hp, serve, recover_frame, recover_inner]

end Sys2Proof.Machine
end

section
/-! SUPPORT. Committed writes of the power registers (R40, R46, Tables 2.9 to 2.11). -/

namespace Sys2Proof.Machine

/-! ## Fields of a word, bit by bit (R8) -/

/-- Bit j of a field is a bit of its word. -/
theorem testBit_fld (w : Word) (lo len j : Nat) : (fld w lo len).testBit j = (decide (j < len) && w.getLsbD (lo + j)) := by
  rw [fld, Nat.testBit_mod_two_pow, Nat.testBit_div_two_pow, BitVec.getLsbD, Nat.add_comm]

/-- A field is no wider than its place. -/
theorem fld_mod (w : Word) (lo len : Nat) : fld w lo len % 2 ^ len = fld w lo len := Nat.mod_mod _ _

/-- A field that was set holds the value; the other bits are as before. -/
theorem getLsbD_setFld (w : Word) (lo len v i : Nat) (hi : i < 32) :
    (setFld w lo len v).getLsbD i = if lo ≤ i ∧ i < lo + len then v.testBit (i - lo) else w.getLsbD i := by
  rw [setFld, maskIn, BitVec.getLsbD_or, BitVec.getLsbD_and, BitVec.getLsbD_and, BitVec.getLsbD_not, getLsbD_put, getLsbD_put,
    Nat.testBit_two_pow_sub_one]
  by_cases hl : lo ≤ i
  · by_cases hh : i - lo < len
    · simp [hi, hl, hh, show i < lo + len by omega]
    · simp [hi, hl, hh, show ¬ i < lo + len by omega]
  · simp [hi, hl]

/-- The field that was set reads the value. -/
theorem fld_setFld_same (w : Word) (lo len v : Nat) (h : lo + len ≤ 32) : fld (setFld w lo len v) lo len = v % 2 ^ len := by
  apply Nat.eq_of_testBit_eq
  intro j
  rw [testBit_fld, Nat.testBit_mod_two_pow]
  by_cases hj : j < len
  · rw [getLsbD_setFld _ _ _ _ _ (by omega), if_pos (by omega), Nat.add_sub_cancel_left]
  · simp [hj]

/-- A field apart from the one that was set reads as before. -/
theorem fld_setFld_other (w : Word) (lo len v lo' len' : Nat) (h : lo' + len' ≤ 32) (hd : lo' + len' ≤ lo ∨ lo + len ≤ lo') :
    fld (setFld w lo len v) lo' len' = fld w lo' len' := by
  apply Nat.eq_of_testBit_eq
  intro j
  rw [testBit_fld, testBit_fld]
  by_cases hj : j < len'
  · rw [getLsbD_setFld _ _ _ _ _ (by omega), if_neg (by omega)]
  · simp [hj]

/-- The bits of a mask that does not reach a field's place change nothing of the field. -/
theorem fld_and_mask (w m : Word) (lo len : Nat) (h : ∀ j < len, m.getLsbD (lo + j) = true) : fld (w &&& m) lo len = fld w lo len := by
  apply Nat.eq_of_testBit_eq
  intro j
  rw [testBit_fld, testBit_fld, BitVec.getLsbD_and]
  by_cases hj : j < len
  · simp [hj, h j hj]
  · simp [hj]

/-! ## PWR_CTL (R38, Table 2.9) -/

/-- PWR_CTL written by the host. -/
theorem exec_castleModeWrite (w : Word) (z : State) (h : HostReady z) :
    exec (.castleModeWrite w) z = .next (writePwrCtl w (moved 6 z)) :=
  congrArg _ (hostWord_effect 6 w z h (by decide) h.2.2 rfl)

/-- A castle_mode that exists is taken with the other bits. -/
theorem writePwrCtl_mode (w : Word) (s : State) (h : fld w 0 2 ≠ 3) :
    writePwrCtl w s = { s with pwr := { s.pwr with ctl := maskIn 0x1137 s.pwr.ctl w } } := by
  simp [writePwrCtl, h]

/-- The reserved castle_mode leaves its field, which its mask then leaves out. -/
theorem maskIn_keepMode (old w : Word) : maskIn 0x1137 old (setFld w 0 2 (fld old 0 2)) = maskIn 0x1134 old w := by
  apply BitVec.eq_of_getLsbD_eq
  intro i hi
  have hm : ∀ j < 32, (0x1137 : Word).getLsbD j = ((0x1134 : Word).getLsbD j || decide (j < 2)) ∧
      (j < 2 → (0x1134 : Word).getLsbD j = false) := by decide
  obtain ⟨h7, h4⟩ := hm i hi
  simp only [maskIn, BitVec.getLsbD_or, BitVec.getLsbD_and, BitVec.getLsbD_not, getLsbD_setFld _ _ _ _ _ hi, testBit_fld, h7]
  grind

/-- The reserved castle_mode leaves its field; the other bits are taken. -/
theorem writePwrCtl_reserved (w : Word) (s : State) (h : fld w 0 2 = 3) :
    writePwrCtl w s = { s with pwr := { s.pwr with ctl := maskIn 0x1134 s.pwr.ctl w } } := by
  rw [writePwrCtl, if_pos h, maskIn_keepMode]

/-! ## PWR_STAT (R40, Table 2.10) -/

/-- PWR_STAT.first_valid written 1: the first-castling fields await their clear edge. -/
theorem exec_firstCastlingClear (z : State) (h : HostReady z) :
    exec .firstCastlingClear z = .next { moved 7 z with pwr := { (moved 7 z).pwr with clearPend := true } } := by
  have hr : regWrite 7 0x10000 (moved 7 z) = { moved 7 z with pwr := { (moved 7 z).pwr with clearPend := true } } := by
    have h16 : bitOf 0x10000 16 = true := by decide
    have h18 : bitOf 0x10000 18 = false := by decide
    simp only [regWrite, h16, h18, Bool.or_true, Bool.not_false, Bool.and_true]
  exact congrArg _ ((hostWord_effect 7 0x10000 z h (by decide) h.2.2 rfl).trans hr)

/-! ## PWR_TRICKLE (R46, Table 2.11) -/

/-- PWR_TRICKLE written by the host. -/
theorem exec_trickleWrite (w : Word) (z : State) (h : HostReady z) :
    exec (.trickleWrite w) z = .next (writeTrickle w (moved 8 z)) := by
  have hf := writeTrickle_frame w (moved 8 z)
  refine congrArg _ (hostWord_effect 8 w z h (by decide) ?_ ?_)
  · change noTxn (writeTrickle w (moved 8 z))
    simp only [noTxn, hf]
    exact h.2.2
  · simp only [regWrite, writeTrickle]
    split <;> rfl

/-- The value PWR_TRICKLE takes under its key: a reserved code 0b11 leaves i_sel or vterm as it was. -/
def trickleTaken (w old : Word) : Word :=
  let v := if fld w 1 2 = 3 then setFld w 1 2 (fld old 1 2) else w
  (if fld w 4 2 = 3 then setFld v 4 2 (fld old 4 2) else v) &&& 0x77

/-- Without its key PWR_TRICKLE takes nothing. -/
theorem writeTrickle_unkeyed (w : Word) (s : State) (h : fld w 24 8 ≠ 0x5C) : writeTrickle w s = s := if_pos h

/-- Under its key it takes its value, and the charger follows. -/
theorem writeTrickle_keyed (w : Word) (s : State) (h : fld w 24 8 = 0x5C) :
    writeTrickle w s = trickleEval { s with pwr := { s.pwr with trickle := trickleTaken w s.pwr.trickle } } := if_neg (not_not.mpr h)

/-- The charger keeps the registers PWR_CTL and PWR_TRICKLE. -/
theorem trickleEval_registers (s : State) : (trickleEval s).pwr.trickle = s.pwr.trickle ∧ (trickleEval s).pwr.ctl = s.pwr.ctl := by
  simp [trickleEval]

/-- A keyed write changes the power unit and the latches alone. -/
theorem writeTrickle_rest (w : Word) (s : State) : { writeTrickle w s with pwr := s.pwr, evt := s.evt } = s := by
  simp [writeTrickle_frame w s]

/-- What a keyed write leaves in PWR_TRICKLE and PWR_CTL. -/
theorem trickle_writeTrickle (w : Word) (s : State) (h : fld w 24 8 = 0x5C) :
    (writeTrickle w s).pwr.trickle = trickleTaken w s.pwr.trickle ∧ (writeTrickle w s).pwr.ctl = s.pwr.ctl := by
  rw [writeTrickle_keyed w s h]
  exact trickleEval_registers _

/-- The reserved code of i_sel leaves it as it was. -/
theorem iSel_trickleTaken (w old : Word) (h : fld w 1 2 = 3) : fld (trickleTaken w old) 1 2 = fld old 1 2 := by
  have hv : fld (setFld w 1 2 (fld old 1 2)) 1 2 = fld old 1 2 := by
    rw [fld_setFld_same _ _ _ _ (by omega), fld_mod]
  rw [trickleTaken, fld_and_mask _ _ _ _ (by decide), if_pos h]
  split
  · rw [fld_setFld_other _ _ _ _ _ _ (by omega) (by omega), hv]
  · exact hv

/-- The reserved code of vterm leaves it as it was. -/
theorem vterm_trickleTaken (w old : Word) (h : fld w 4 2 = 3) : fld (trickleTaken w old) 4 2 = fld old 4 2 := by
  rw [trickleTaken, fld_and_mask _ _ _ _ (by decide), if_pos h, fld_setFld_same _ _ _ _ (by omega), fld_mod]

/-- Settles O6: each write is its register's effect, read off field by field. -/
theorem powerWrites : Obligations.PowerWrites := by
  unfold Obligations.PowerWrites
  refine fun z h => ⟨?mode, ?reserved, ?clear, ?unkeyed, ?keyed, ?codes⟩
  case mode =>
    rintro s rfl w hw
    rw [exec_castleModeWrite w z h, writePwrCtl_mode w _ hw]
  case reserved =>
    rintro s rfl w hw
    rw [exec_castleModeWrite w z h, writePwrCtl_reserved w _ hw]
  case clear =>
    rintro s rfl
    exact exec_firstCastlingClear z h
  case unkeyed =>
    rintro s rfl w hk
    rw [exec_trickleWrite w z h, writeTrickle_unkeyed w _ hk]
  case keyed =>
    rintro s rfl w hk h1 h4
    obtain ⟨ht, hc⟩ := trickle_writeTrickle w (moved 8 z) hk
    refine ⟨_, exec_trickleWrite w z h, ht.trans ?_, hc, writeTrickle_rest _ _⟩
    simp [trickleTaken, h1, h4]
  case codes =>
    rintro s rfl w hk
    have ht := (trickle_writeTrickle w (moved 8 z) hk).1
    exact ⟨_, exec_trickleWrite w z h, fun h1 => by rw [ht, iSel_trickleTaken _ _ h1], fun h4 => by rw [ht, vterm_trickleTaken _ _ h4],
      writeTrickle_rest _ _⟩

end Sys2Proof.Machine
end

section
/-! SUPPORT. Common commands of the I3C bus where the open transaction, if one is open, has noted nothing (R55, R71, R72). -/

namespace Sys2Proof.Machine

/-- The machine inside the transaction x of a transfer that has just begun (R55). -/
def inTxn (x : Txn) (u : State) : State := { u with hif := { u.hif with txn := some x, header := false, busIdle := 0 } }

/-- A transaction that has noted nothing. -/
def Txn.bare (x : Txn) : Prop := x.sent = [] ∧ x.cal0 = none ∧ x.cal1 = none ∧ x.newErr = 0 ∧ x.rst = false

/-- A transaction that has just opened has noted nothing. -/
theorem bare_new (s : State) : (Txn.new s).bare := ⟨rfl, rfl, rfl, rfl, rfl⟩

/-- `bareTxn` says so of the open one. -/
theorem bare_of_bareTxn (s : State) (x : Txn) (h : bareTxn s = true) (hx : s.hif.txn = some x) : x.bare := by
  simpa [bareTxn, hx, Txn.bare, and_assoc] using h

/-- The transaction in which a common command acts has noted nothing before it. -/
theorem bare_busTxn (b : Ends) (u : State) (h : bareTxn u = true) : (busTxn b u).bare := by
  unfold busTxn
  split
  · cases hx : u.hif.txn with
    | none => exact bare_new _
    | some x => exact bare_of_bareTxn u x h hx
  · exact bare_new _

/-- Its end has no effect but that it is over. -/
theorem closeTxn_bare (t : State) (x : Txn) (hx : t.hif.txn = some x) (h : x.bare) : closeTxn t = betweenTxns t := by
  obtain ⟨hs, h0, h1, he, hr⟩ := h
  exact closeTxn_fresh t x hx hs h0 h1 he hr

/-- The snapshot shows neither the transaction nor its header. -/
theorem new_betweenTxns (u : State) : Txn.new (betweenTxns u) = Txn.new u := by
  unfold Txn.new
  rfl

/-- A START, or a repeated one, begins a command of the bus in its transaction (R55). -/
theorem beginXfer_bare (b : Ends) (u : State) (h : bareTxn u = true) : beginXfer b.sr u = inTxn (busTxn b u) u := by
  cases hx : u.hif.txn with
  | none =>
    have hn : busTxn b u = Txn.new u := by simp [busTxn, hx, new_betweenTxns]
    rw [hn, beginXfer, hx, Option.isSome_none, Bool.and_false, if_neg Bool.false_ne_true, closeTxn_none u hx]
    rfl
  | some x =>
    have hc : openTxn (closeTxn u) = openTxn (betweenTxns u) := by rw [closeTxn_bare u x hx (bare_of_bareTxn u x h hx)]
    cases hs : b.sr with
    | true => simp [beginXfer, busTxn, hx, hs, inTxn]
    | false =>
      rw [beginXfer, Bool.false_and, if_neg Bool.false_ne_true, hc, busTxn, if_neg (by simp [hs])]
      rfl

/-- A common command that leaves the transaction to its end: what it does, between its START and its STOP or the repeated START behind
it. -/
theorem onCcc_bare (b : Ends) (f : State → State) (s : State) (ho : busOpen s = true) (hb : bareTxn s = true)
    (hf : ∀ t, (f t).hif.txn = t.hif.txn) :
    onCcc b f s = when b.stop betweenTxns (f (inTxn (busTxn b (advance s.clk.hf s)) (advance s.clk.hf s))) := by
  have hu : bareTxn (advance s.clk.hf s) = true := by simpa [bareTxn] using hb
  have hx : (f (inTxn (busTxn b (advance s.clk.hf s)) (advance s.clk.hf s))).hif.txn = some (busTxn b (advance s.clk.hf s)) := hf _
  rw [onCcc, onBus, ho, Bool.not_true, if_neg Bool.false_ne_true, beginXfer_bare b _ hu]
  cases b.stop with
  | true => exact closeTxn_bare _ _ hx (bare_busTxn b _ hu)
  | false => rfl

/-- The device after the broadcast address in its transaction: acknowledged, the spike filter off (R71). -/
def atBroadcast (b : Ends) (u : State) : State := broadcastAddress (inTxn (busTxn b u) u)

/-- That is the host port as the command leaves it, but for its transaction, which is still open. -/
theorem atBroadcast_eq (b : Ends) (u : State) :
    atBroadcast b u = { u with hif := { cccHif b u [true] with txn := some (busTxn b u) } } := rfl

/-- The machine behind a common command that changed the host port at the broadcast address alone. -/
theorem when_betweenTxns_atBroadcast (b : Ends) (u : State) (acks : List Bool) :
    when b.stop betweenTxns (acked acks (atBroadcast b u)) = { u with hif := cccHif b u acks } := by
  rcases b with ⟨sr, stop⟩
  cases stop <;> rfl

/-- A broadcast command. -/
theorem broadcastCcc_bare (b : Ends) (f : State → State) (s : State) (ho : busOpen s = true) (hb : bareTxn s = true)
    (hf : ∀ t, (f t).hif.txn = t.hif.txn) :
    broadcastCcc b f s = when b.stop betweenTxns (f (atBroadcast b (advance s.clk.hf s))) :=
  onCcc_bare b _ s ho hb (fun _ => hf _)

/-- A direct command: the device's own address is acknowledged under its condition, which then is carried out. -/
theorem directCcc_bare (b : Ends) (c : State → Bool) (f : State → State) (s : State) (ho : busOpen s = true) (hb : bareTxn s = true)
    (hf : ∀ t, (f t).hif.txn = t.hif.txn) :
    directCcc b c f s = when b.stop betweenTxns
      (if c (atBroadcast b (advance s.clk.hf s)) then f (acked [true, true] (atBroadcast b (advance s.clk.hf s)))
        else acked [true, false] (atBroadcast b (advance s.clk.hf s))) := by
  refine onCcc_bare b _ s ho hb (fun _ => ?_)
  dsimp only
  split
  · exact hf _
  · rfl

/-- The address, the strap and the PID at the broadcast address are those before it. -/
theorem address_atBroadcast (b : Ends) (n : Nat) (s : State) :
    (atBroadcast b (advance n s)).hif.dynAddr = s.hif.dynAddr ∧ staticAddr (atBroadcast b (advance n s)) = staticAddr s ∧
    pidBytes (atBroadcast b (advance n s)) = pidBytes s := by
  simp [atBroadcast, broadcastAddress, inTxn, answer, acked, staticAddr, pidBytes]

/-- ENTDAA leaves the transaction to its end. -/
theorem arbitrate_txn (d : BitVec 7) (t : State) : (arbitrate d t).hif.txn = t.hif.txn := by
  unfold arbitrate
  split <;> rfl

/-- Settles O16: each command is what it does to the address, in its own transaction or the open one. -/
theorem dynamicAddress : Obligations.DynamicAddress := by
  unfold Obligations.DynamicAddress
  rintro s ho hb u rfl b
  obtain ⟨hd, hs, hp⟩ := address_atBroadcast b s.clk.hf s
  refine ⟨fun d h0 => ?entdaa, fun d h0 => ?entdaaKept, fun d h0 => ?setdasa, fun dev d h0 => ?setdasaOther, ?rstdaa, ?header⟩
  case entdaa =>
    refine congrArg _ ((broadcastCcc_bare b _ s ho hb (arbitrate_txn d)).trans ?_)
    rw [arbitrate, if_pos (by simp [hd, h0]), hp]
    rw [atBroadcast_eq]
    rcases b with ⟨sr, stop⟩
    cases stop <;> rfl
  case entdaaKept =>
    refine congrArg _ ((broadcastCcc_bare b _ s ho hb (arbitrate_txn d)).trans ?_)
    rw [arbitrate, if_neg (by simpa [hd] using h0)]
    exact when_betweenTxns_atBroadcast b _ [true]
  case setdasa =>
    change Host.Outcome.next (setdasa _ b s) = _
    rw [setdasa, directCcc_bare b (atStatic _) (takeAddress _) s ho hb (fun _ => rfl), if_pos (by simp [atStatic, hd, hs, h0]), atBroadcast_eq]
    rcases b with ⟨sr, stop⟩
    cases stop <;> rfl
  case setdasaOther =>
    change Host.Outcome.next (setdasa _ b s) = _
    rw [setdasa, directCcc_bare b (atStatic _) (takeAddress _) s ho hb (fun _ => rfl),
      if_neg (by simpa [atStatic, hd, hs, imp_iff_not_or] using h0)]
    exact congrArg _ (when_betweenTxns_atBroadcast b _ [true, false])
  case rstdaa =>
    change Host.Outcome.next (rstdaa b s) = _
    rw [rstdaa, broadcastCcc_bare b (fun u => { u with hif := { u.hif with dynAddr := 0, filtOn := true, ibiReq := false } }) s ho hb
      (fun _ => rfl), atBroadcast_eq]
    rcases b with ⟨sr, stop⟩
    cases stop <;> rfl
  case header =>
    change Host.Outcome.next (broadcastHeader b s) = _
    refine congrArg _ ((onCcc_bare b (fun u => let t := broadcastAddress u; { t with hif := { t.hif with header := !b.sr } }) s ho hb
      (fun _ => rfl)).trans ?_)
    change when b.stop betweenTxns { atBroadcast b _ with hif := { (atBroadcast b _).hif with header := !b.sr } } = _
    rw [atBroadcast_eq]
    rcases b with ⟨sr, stop⟩
    cases stop <;> cases sr <;> rfl

end Sys2Proof.Machine
end

section
/-! SUPPORT. The registers behind a reset of the main domain (R81, R82). -/

namespace Sys2Proof.Machine

/-- A low pulse of 1 us on RSTN begins a main start (R32, R81). -/
theorem rstn_counted (w : Nat) (s : State) (hw : 1000 ≤ w) (hm : s.pwr.mainOn = true) (hs : s.pwr.ship = false) :
    rstn w s = keepShip s (beginStart 0x010 false false (cmdsInFlight s) s) := by
  simp [rstn, rstnCounts, hm, hs, hw, Nat.not_lt.mpr hw]

/-- No source of the main domain stays latched. -/
theorem aonSources_high (v : BitVec 64) : ((v &&& aonSources) >>> 32).setWidth 32 = 0#32 := by
  rw [BitVec.ushiftRight_and_distrib, show aonSources >>> 32 = 0 from rfl, show (0 : BitVec 64) = 0#64 from rfl, BitVec.and_zero]
  rfl

/-- The registers of the clock, MEAS, the ledger, the results, the event inputs and the outputs read their own fields. -/
theorem regRead_mainFields (s t : State) (hclk : t.clk = s.clk) (hafe : t.afe = s.afe) (htt : t.tt = s.tt) (hres : t.res = s.res)
    (hevin : t.evin = s.evin) (hout : t.out = s.out) (hldg : t.ldg = s.ldg) (hcal : t.cal = s.cal) :
    ∀ k ∈ [24, 25, 26, 27, 28, 29, 30, 31, 32, 33, 35, 36, 37, 38, 39, 44, 45, 46, 47, 48, 49, 51, 52, 60], regRead t k = regRead s k := by
  intro k hk
  fin_cases hk <;>
    simp only [regRead, clkPlan, planWord, hasBand, clkStat, spreadOn, hfRunning, bandSlot, afeDiag, ttStat, resHead, logHead, logTail,
      ldgStat, hclk, hafe, htt, hres, hevin, hout, hldg, hcal]

/-- The always-on registers read the always-on fields. -/
theorem regRead_aon (s t : State) (hpwr : t.pwr.trickle = s.pwr.trickle ∧ t.pwr.firstSec = s.pwr.firstSec ∧ t.pwr.firstFrac = s.pwr.firstFrac)
    (hrtc : t.rtc = { s.rtc with shiftShown := t.rtc.shiftShown }) (halm : t.alm = s.alm) :
    ∀ k ∈ [8, 9, 10, 11, 13, 15, 16, 17, 18, 19, 20, 21, 22, 23], regRead t k = regRead s k := by
  obtain ⟨h8, h9, h10⟩ := hpwr
  intro k hk
  fin_cases hk <;> simp [regRead, rtcCal, rtcLocal, rtcTrim, h8, h9, h10, halm] <;> rw [hrtc]

/-- AOUT is safe in main reset (Table 14.2). -/
theorem aoutState_held (t : State) (hm : t.pwr.mainOn = true) (hs : t.pwr.ship = false) (ho : t.out = Out.reset) (hp : t.sys.phase = .held) :
    aoutState t = 1 := by
  simp [aoutState, aoutSafe, mainUp, hm, hs, ho, hp, Out.reset]

/-- The registers of the host port, the events and the conductor, RTC_SHIFT and OUT_STAT read their reset values where a reset of the main
domain leaves its fields. -/
theorem regRead_otherReset (t : State) (hhif : t.hif.err = 0 ∧ t.hif.errCount = 0 ∧ t.hif.lastAddr = 0) (hshift : t.rtc.shiftShown = false)
    (hstat : ∃ v, t.evt.stat = v &&& aonSources) (hmask : t.evt.mask = Evt.reset.mask) (hout : t.out = Out.reset) (haout : aoutState t = 1)
    (hcond : ∃ b, t.cond = { Cond.reset with shipped := b }) :
    ∀ k ∈ [5, 14, 41, 42, 43, 50, 54, 55, 56, 58, 59], regRead t k = regRead State.reset k := by
  obtain ⟨he, hn, ha⟩ := hhif
  obtain ⟨v, hv⟩ := hstat
  obtain ⟨b, hb⟩ := hcond
  intro k hk
  fin_cases hk
  · simp only [regRead, hifErr, he, hn, ha]; rfl
  · simp only [regRead, rtcShift, hshift]; cases t.rtc.shiftPend <;> rfl
  · simp only [regRead, hv, aonSources_high]; rfl
  · simp only [regRead, hmask]; rfl
  · simp only [regRead, hmask]; rfl
  · simp only [regRead, outStat, haout, outCode, genMode, hout]; rfl
  · simp only [regRead, hb]; rfl
  · simp only [regRead, hb]; rfl
  · simp only [regRead, hb]; rfl
  · simp only [regRead, cmdStat, cmdCount, hb]; rfl
  · simp only [regRead, hb]; rfl

/-- Settles O22: the reset values by evaluation; RSTN by the fields it leaves at reset and those of class A it keeps. -/
theorem resetRegisters : Obligations.ResetRegisters := by
  unfold Obligations.ResetRegisters
  refine ⟨by decide, by decide, by decide, by decide, by decide, by decide, by decide, by decide, by decide, by decide, by decide,
    by decide, by decide, by decide, by decide, by decide, by decide, by decide, by decide, fun w s hw hm hs => ?rstn⟩
  refine ⟨_, congrArg Host.Outcome.next (rstn_counted w s hw hm hs), ?main, ?mode, ?busy, ?aon⟩
  case main =>
    intro k hk
    by_cases hf : k ∈ [24, 25, 26, 27, 28, 29, 30, 31, 32, 33, 35, 36, 37, 38, 39, 44, 45, 46, 47, 48, 49, 51, 52, 60]
    · exact regRead_mainFields State.reset (keepShip s (beginStart _ _ _ _ s)) rfl rfl rfl rfl rfl rfl rfl rfl k hf
    · have hr : k ∈ [5, 14, 41, 42, 43, 50, 54, 55, 56, 58, 59] := by
        simp only [List.mem_cons, List.not_mem_nil, or_false] at hk hf ⊢
        omega
      exact regRead_otherReset (keepShip s (beginStart _ _ _ _ s)) ⟨rfl, rfl, rfl⟩ rfl ⟨_, rfl⟩ rfl rfl
        (aoutState_held (keepShip s (beginStart _ _ _ _ s)) hm hs rfl rfl) ⟨s.cond.shipped, rfl⟩ k hr
  case mode => cases h : s.hif.i3c <;> simp [regRead, hifCfg, hifMode, keepShip, beginStart, clearMain, hifCleared, Hif.reset, h] <;> rfl
  case busy => cases h : s.nv.op <;> simp [regRead, nvStat, clearHeld, keepShip, beginStart, clearMain, nvReset, h, put, bit]
  case aon => exact regRead_aon s _ ⟨rfl, rfl, rfl⟩ rfl rfl

end Sys2Proof.Machine
end

section
/-! SUPPORT. The supplies: what a change of level leaves, the selector, the charger (R37, R38, R41, R45). -/

namespace Sys2Proof.Machine

/-- Levels within the maximum ratings have their effect. -/
theorem atLevels_within (mv : List Nat) (f : State → State) (s : State) (h : ∀ v ∈ mv, v ≤ 4000) : atLevels mv f s = .next (f s) := by
  have hb : mv.any beyond = false := by simpa [beyond] using h
  rw [atLevels, hb]
  rfl

/-- The machine with its supplies at other levels. -/
def withLevels (vdd vbat : Nat) (s : State) : State := { s with pins := { s.pins with vdd := vdd, vbat := vbat } }

@[simp] theorem withLevels_rest (vdd vbat : Nat) (s : State) :
    (withLevels vdd vbat s).pwr = s.pwr ∧ (withLevels vdd vbat s).rtc = s.rtc ∧ (withLevels vdd vbat s).alm = s.alm ∧
    (withLevels vdd vbat s).nv = s.nv ∧ (withLevels vdd vbat s).pins = { s.pins with vdd := vdd, vbat := vbat } :=
  ⟨rfl, rfl, rfl, rfl, rfl⟩

theorem setSupplies_eq (vdd vbat : Nat) (s : State) : setSupplies vdd vbat s = outSettle (powerEval (withLevels vdd vbat s)) := rfl

/-- Where the always-on domain runs, the supplies act through the rails alone. -/
theorem powerEval_running (s : State) (h : s.pwr.aonOn = true) : powerEval s = railsEval s := by
  simp [powerEval, aonColdStart, h]

/-- The selector changes its own fields of PWR alone. -/
theorem select_levels (s : State) : vOff (select s) = vOff s ∧ vTerm (select s) = vTerm s := ⟨rfl, rfl⟩

/-- Outside SHIP, with a supply there, the rails switch the main domain, and the charger follows. -/
theorem railsEval_awake (s : State) (hb : bothLow s = false) (hs : s.pwr.ship = false) :
    railsEval s = trickleEval
      (if s.pwr.mainOn && decide (s.pins.vdd < vOff s) then mainOff (select s)
       else if !s.pwr.mainOn && decide (vOff s + 50 < s.pins.vdd) then mainOn false (select s) else select s) := by
  rw [railsEval, if_neg (by simp [hb]), if_neg (by simp [hs])]
  rfl

/-- VDD at or above V_OFF leaves the main domain on. -/
theorem powerEval_held (s : State) (ha : s.pwr.aonOn = true) (hm : s.pwr.mainOn = true) (hs : s.pwr.ship = false)
    (hb : bothLow s = false) (hv : vOff s ≤ s.pins.vdd) : powerEval s = trickleEval (select s) := by
  rw [powerEval_running s ha, railsEval_awake s hb hs, if_neg (by simpa using fun _ => hv), if_neg (by simp [hm])]

/-- A battery at 1.40 V or more is a supply. -/
theorem bothLow_of_vbat (s : State) (h : 1400 ≤ s.pins.vbat) : bothLow s = false := by
  simpa [bothLow] using fun _ => h

/-- The charger's state (R45): the charge has ended, the battery is full, the charger is on. -/
def chargeDone (s : State) : Bool := s.pwr.trickleOn && decide (vTerm s ≤ s.pins.vbat)
def batteryFull (s : State) : Bool := (s.pwr.vbatFull || chargeDone s) && decide (vTerm s - 100 ≤ s.pins.vbat)
def chargerOn (s : State) : Bool :=
  bitOf s.pwr.trickle 0 && s.pwr.mainOn && decide (s.pins.vbat + 200 ≤ s.pins.vdd) && decide (s.pins.vbat < vTerm s) && !batteryFull s

theorem trickleEval_eq (s : State) :
    trickleEval s = raiseIf (chargeDone s) 14 { s with pwr := { s.pwr with vbatFull := batteryFull s, trickleOn := chargerOn s } } := rfl

theorem chargeDone_levels (vdd vbat : Nat) (s : State) :
    chargeDone (select (withLevels vdd vbat s)) = (s.pwr.trickleOn && decide (vTerm s ≤ vbat)) := rfl

theorem batteryFull_levels (vdd vbat : Nat) (s : State) :
    batteryFull (select (withLevels vdd vbat s)) =
      ((s.pwr.vbatFull || (s.pwr.trickleOn && decide (vTerm s ≤ vbat))) && decide (vTerm s - 100 ≤ vbat)) := rfl

theorem chargerOn_levels (vdd vbat : Nat) (s : State) :
    chargerOn (select (withLevels vdd vbat s)) =
      (bitOf s.pwr.trickle 0 && s.pwr.mainOn && decide (vbat + 200 ≤ vdd) && decide (vbat < vTerm s) &&
        !batteryFull (select (withLevels vdd vbat s))) := rfl

/-- Levels that hold the main domain act on the selector, the charger and the output alone. -/
theorem setSupplies_held (vdd vbat : Nat) (s : State) (hs : supplied s) (hb : 1400 ≤ vbat) (hv : vOff (withLevels vdd vbat s) ≤ vdd) :
    setSupplies vdd vbat s = outSettle (trickleEval (select (withLevels vdd vbat s))) := by
  obtain ⟨ha, hm, hp, -⟩ := hs
  rw [setSupplies_eq, powerEval_held (withLevels vdd vbat s) ha hm hp (bothLow_of_vbat _ hb) hv]

/-- Outside the supplies, the power unit, the latches and the output nothing changes. -/
theorem charged_rest (vdd vbat : Nat) (s : State) (t : State) (ht : t = outSettle (trickleEval (select (withLevels vdd vbat s)))) :
    { t with pins := s.pins, pwr := s.pwr, evt := s.evt, out := s.out } = s ∧ t.pins = { s.pins with vdd := vdd, vbat := vbat } ∧
    t.out.code = s.out.code ∧ t.out.cfg = s.out.cfg ∧ t.out.span = s.out.span ∧ t.pwr.trickle = s.pwr.trickle := by
  subst ht
  simp [trickleEval_frame, trickleEval_inner, select_frame, select_inner, withLevels]

/-- What becomes of the charger's fields. -/
theorem charged_pwr (s : State) : (outSettle (trickleEval s)).pwr.trickleOn = chargerOn s ∧
    (outSettle (trickleEval s)).pwr.vbatFull = batteryFull s := by
  simp [trickleEval_eq]

/-- A charge that does not end raises nothing. -/
theorem charged_quiet (s : State) (h : chargeDone s = false) : (outSettle (trickleEval s)).evt = s.evt := by
  simp [trickleEval_eq, h, raiseIf_false]

/-- A charge that ends raises source 14 (R45). -/
theorem charged_latched (s : State) (h : chargeDone s = true) : latched 14 (outSettle (trickleEval s)) = true := by
  simp [latched, trickleEval_eq, h, raiseIf, raisable]
  exact .inr rfl

/-- VDDIO outside the band that leaves it to the part (R35, log entry 7). -/
theorem vddioChange_clear (mv : Nat) (s : State) (h : mv < 900 ∨ 1100 < mv) :
    vddioChange mv s = { s with
      pins := { s.pins with vddio := mv, vddioOk := decide (1100 < mv) }
      hif := if 1100 < mv then s.hif else { s.hif with txn := none, header := false } } := by
  have ho : (decide (900 ≤ mv) && decide (mv ≤ 1100)) = false := by
    rcases h with h | h <;> simp [h]
  simp [vddioChange, ho]

/-- Settles O50: the charger's fields at the new levels, and VDDIO outside its band. -/
theorem chargerAndPortSupply : Obligations.ChargerAndPortSupply := by
  unfold Obligations.ChargerAndPortSupply
  intro s vdd vbat hd hb hs h14
  refine ⟨fun hon hv hoff => ?done, fun hon hv hbit hroom hoff => ?resume, fun hon hv hroom h140 hoff => ?headroom,
    fun mv hmv => ?absent, fun mv hmv hmax => ?present⟩
  case done =>
    have hdone : chargeDone (select (withLevels s.pins.vdd vbat s)) = true := by simp [chargeDone_levels, hon, hv]
    have hfull : batteryFull (select (withLevels s.pins.vdd vbat s)) = true := by
      simp [batteryFull_levels, hon, hv, show vTerm s ≤ vbat + 100 by omega]
    obtain ⟨hr, hp, hc, hg, hn, ht⟩ := charged_rest s.pins.vdd vbat s _ rfl
    obtain ⟨hto, hvf⟩ := charged_pwr (select (withLevels s.pins.vdd vbat s))
    refine ⟨_, (atLevels_within _ _ s (by simpa using hb)).trans (congrArg _ (setSupplies_held _ _ s hs h14 hoff)), ?_⟩
    exact ⟨by rw [hto, chargerOn, hfull, Bool.not_true, Bool.and_false], hvf.trans hfull, charged_latched _ hdone, ht, hp, hc, hg, hn, hr⟩
  case resume =>
    have hdone : chargeDone (select (withLevels s.pins.vdd vbat s)) = false := by simp [chargeDone_levels, hon]
    have hfull : batteryFull (select (withLevels s.pins.vdd vbat s)) = false := by
      simp [batteryFull_levels, show ¬ vTerm s ≤ vbat + 100 by omega]
    have hgoes : chargerOn (select (withLevels s.pins.vdd vbat s)) = true := by
      simp [chargerOn_levels, hfull, hbit, hroom, hs.2.1, show vbat < vTerm s by omega]
    obtain ⟨hr, hp, hc, hg, hn, -⟩ := charged_rest s.pins.vdd vbat s _ rfl
    obtain ⟨hto, hvf⟩ := charged_pwr (select (withLevels s.pins.vdd vbat s))
    have he := charged_quiet _ hdone
    refine ⟨_, (atLevels_within _ _ s (by simpa using hb)).trans (congrArg _ (setSupplies_held _ _ s hs h14 hoff)), ?_⟩
    exact ⟨hto.trans hgoes, hvf.trans hfull, he, hp, hc, hg, hn, he ▸ hr⟩
  case headroom =>
    have hdone : chargeDone (select (withLevels vdd vbat s)) = false := by simp [chargeDone_levels, Nat.not_le.mpr hv]
    have hoff' : chargerOn (select (withLevels vdd vbat s)) = false := by simp [chargerOn_levels, Nat.not_le.mpr hroom]
    obtain ⟨hr, hp, hc, hg, hn, -⟩ := charged_rest vdd vbat s _ rfl
    obtain ⟨hto, -⟩ := charged_pwr (select (withLevels vdd vbat s))
    have he := charged_quiet _ hdone
    refine ⟨_, (atLevels_within _ _ s (by simpa using ⟨hd, hb⟩)).trans (congrArg _ (setSupplies_held _ _ s hs h14 hoff)), ?_⟩
    exact ⟨hto.trans hoff', he, hp, hc, hg, hn, he ▸ hr⟩
  case absent =>
    refine (atLevels_within _ _ s (by simpa using by omega)).trans (congrArg _ ?_)
    simp [vddioChange_clear mv s (.inl hmv), show ¬ 1100 < mv by omega]
  case present =>
    refine (atLevels_within _ _ s (by simpa using hmax)).trans (congrArg _ ?_)
    simp [vddioChange_clear mv s (.inr hmv), hmv]

end Sys2Proof.Machine
end

section
/-! SUPPORT. SHIP entry with a note of the event log's trigger group that points into the always-on RAM. -/

namespace Sys2Proof.Machine

/-- The last ktick of the grace of SHIP on a locked clock, a frame awaited since the coming edge's registration qtick, and the record of
its trigger noted at the address 0x100 of the always-on RAM (Table 4.1), where no record of the log can stand. -/
def strayNote : State :=
  { State.reset with
    pins := { Pins.reset with vbat := 1500 }
    pwr := { Pwr.reset with shipIn := some 1 }
    sys := { Sys.reset with phase := .ready, x32Run := true }
    clk := { Clk.reset with src := 1, state := .locked, ref := .refin, bypass := false }
    tt := { Tt.reset with
      ctl := 1, activeValid := true
      instA := some { secTick := false, sync := false, freeRun := false, body := 0, lead := 0, cars := [] }
      await := some {
        code := 0, stamp := ⟨0, 0, false⟩, lateStart := false, coincident := false, queued := false, needLock := false
        base := none, cont := false, reg := some 1008, seals := [], lateFrom := none, trigs := [], syncAt := none }
      group := some { qtick := 1008, recs := [⟨0x100, 0, ⟨0, 0, false⟩⟩] } } }

/-- The edge at which SHIP is entered. -/
def strayEdge : Edge := ⟨1000, 0⟩

/-- Its registration joins the awaited frame, and the fourth word of the noted record takes the COINCIDENT flag (R252), over a byte of the
always-on RAM. -/
theorem strayNote_overwrites :
    memByte (ktickIf (fun u => match u.pwr.shipIn with | some k => decide (k ≤ 1) | none => false) strayEdge strayNote).mem 0x10C ≠
      memByte strayNote.mem 0x10C := by
  decide +kernel

/-- Refutes O48: the clause on SHIP_ENTRY keeps the always-on RAM, which the record of a trigger group noted at an address outside
the event log overwrites; the statement asks nothing of the noted addresses. -/
theorem not_resetsAndColdStart : ¬ Obligations.ResetsAndColdStart := by
  unfold Obligations.ResetsAndColdStart
  intro h
  obtain ⟨-, -, -, -, hship, -⟩ := h strayNote strayEdge
  obtain ⟨t, ht, -, -, -, -, -, -, -, -, -, -, -, -, -, -, -, -, hram⟩ := hship (by decide) rfl rfl rfl rfl rfl rfl
  have he := Host.Outcome.next.inj (show Host.Outcome.next (ktickIf _ strayEdge strayNote) = _ from ht)
  exact strayNote_overwrites (he ▸ hram 0x10C (by decide) (by decide))

end Sys2Proof.Machine
end

section
/-! SUPPORT. A retry acquisition at the very edge of a pre-wake. -/

namespace Sys2Proof.Machine

/-- In NAP with the HF clock parked, off the bypass clock, a retry acquisition due at the coming edge; the second tick that starts a frame is
68 kticks away, within the lead time of 200. -/
def retryAtPreWake : State :=
  { State.reset with
    pins := { Pins.reset with vbat := 1500 }
    sys := { Sys.reset with phase := .ready, x32Run := true, cfgDone := true, pstate := .nap }
    rtc := { Rtc.reset with started := true, ctl := 0, winEdge := 5, presc := 32700 }
    clk := { Clk.reset with src := 1, state := .parked, ref := .refin, bypass := false, retryIn := some 1 }
    tt := { Tt.reset with
      ctl := 1, activeValid := true
      instA := some { secTick := true, sync := false, freeRun := false, body := 0, lead := 200, cars := [] } } }

/-- The edge of both. -/
def preWakeEdgeOfRetry : Edge := ⟨1000, 0⟩

/-- The pre-wake falls at that edge. -/
theorem retryAtPreWake_falls : preWakeFalls preWakeEdgeOfRetry retryAtPreWake = true := by decide +kernel

/-- The retry starts the HF clock before the pre-wake is considered, which then has nothing to start: the device stays in NAP. -/
theorem retryAtPreWake_naps :
    (ktickIf (preWakeFalls preWakeEdgeOfRetry) preWakeEdgeOfRetry retryAtPreWake).sys.pstate = .nap := by decide +kernel

/-- Refutes O55: the clause on PRE_WAKE has the device in RUN behind the edge, where a retry acquisition due at that edge starts the HF clock
first and the device stays in NAP. -/
theorem not_otherEdgeOccurrences : ¬ Obligations.OtherEdgeOccurrences := by
  unfold Obligations.OtherEdgeOccurrences
  intro h
  obtain ⟨hwake, -⟩ := h retryAtPreWake preWakeEdgeOfRetry rfl
  obtain ⟨hpre, -⟩ := hwake (by decide) (by decide) (by decide)
  obtain ⟨t, ht, -, hrun, -⟩ := hpre retryAtPreWake_falls rfl (by decide)
  have he := Host.Outcome.next.inj (show Host.Outcome.next (ktickIf _ _ _) = _ from ht)
  rw [← he, retryAtPreWake_naps] at hrun
  exact absurd hrun (by decide)

end Sys2Proof.Machine
end

section
/-! SUPPORT. The main domain switched with its supply (R37, R38, R41, R84). -/

namespace Sys2Proof.Machine

/-! ## PWR -/

/-- What the loss of the main domain leaves of PWR. -/
theorem mainDown_pwr (s : State) : (mainDown s).pwr = { pwrKept 0x1100 s with
    shipIn := none, mainOn := false, trickleOn := false, ranVbat := s.pwr.onVbat } := rfl

theorem mainOff_pwr (s : State) : (mainOff s).pwr = { pwrKept 0x1100 s with
    shipIn := none, mainOn := false, trickleOn := false, ranVbat := s.pwr.onVbat } := by
  rw [mainOff, mainDown_pwr, pwrKept, pwrKept, (tearOp_frame s).2.1]

/-- What a main power-on leaves of it. -/
theorem mainOn_pwr (ship : Bool) (s : State) : (mainOn ship s).pwr = { pwrKept 0x1100 s with
    shipIn := none, mainOn := true, coldNew := false, ranVbat := false } := rfl

theorem trickleEval_pwr (s : State) :
    (trickleEval s).pwr = { s.pwr with vbatFull := batteryFull s, trickleOn := chargerOn s } := rfl

/-- A switch of the main domain, either way, leaves the selector's fields, the castlings and the first-castling fields. -/
theorem railsEval_selects (s : State) (hb : bothLow s = false) (hs : s.pwr.ship = false) :
    (railsEval s).pwr.sideVbat = (select s).pwr.sideVbat ∧ (railsEval s).pwr.onVbat = (select s).pwr.onVbat ∧
    (railsEval s).pwr.castlings = (select s).pwr.castlings := by
  rw [railsEval_awake s hb hs]
  split
  · simp [trickleEval_pwr, mainOff_pwr, pwrKept]
  · split
    · simp [trickleEval_pwr, mainOn_pwr, pwrKept]
    · simp [trickleEval_pwr]

/-- With both supplies low nothing of the always-on domain runs on (R41). -/
theorem railsEval_lost (s : State) (h : bothLow s = true) :
    (railsEval s).pwr.aonOn = false ∧ (railsEval s).pwr.mainOn = false ∧ (railsEval s).sys.phase = .off ∧
    (railsEval s).sys.x32Run = false := by
  rw [railsEval, if_pos h]
  exact ⟨rfl, rfl, rfl, rfl⟩

/-- VDD below V_OFF switches the main domain off (R37). -/
theorem railsEval_off (s : State) (hb : bothLow s = false) (hs : s.pwr.ship = false) (hm : s.pwr.mainOn = true)
    (hv : s.pins.vdd < vOff s) : railsEval s = trickleEval (mainOff (select s)) := by
  rw [railsEval_awake s hb hs, if_pos (by simp [hm, hv])]

/-- VDD above V_OFF + 50 mV switches it on. -/
theorem railsEval_on (s : State) (hb : bothLow s = false) (hs : s.pwr.ship = false) (hm : s.pwr.mainOn = false)
    (hv : vOff s + 50 < s.pins.vdd) : railsEval s = trickleEval (mainOn false (select s)) := by
  rw [railsEval_awake s hb hs, if_neg (by simp [hm]), if_pos (by simp [hm, hv])]

/-- A castling the mode calls for and the supply allows is made (R38). -/
theorem select_moves (s : State) (hm : calledVbat s ≠ s.pwr.sideVbat) (hl : 1400 ≤ sideLevel s (calledVbat s)) :
    (select s).pwr.sideVbat = calledVbat s ∧ (select s).pwr.onVbat = calledVbat s ∧
    (select s).pwr.castlings = s.pwr.castlings ++ [!calledVbat s] := by
  simp [select, hm, hl]

/-- A supply that fails under its side is replaced without a castling (R41). -/
theorem select_fallsBack (s : State) (hm : calledVbat s = s.pwr.sideVbat) (hl : sideLevel s s.pwr.sideVbat < 1400) :
    (select s).pwr.sideVbat = s.pwr.sideVbat ∧ (select s).pwr.onVbat = (!s.pwr.sideVbat) ∧
    (select s).pwr.castlings = s.pwr.castlings := by
  simp [select, hm, Nat.not_le.mpr hl]

/-- A side at 1.40 V or more is a supply. -/
theorem bothLow_of_side (s : State) (b : Bool) (h : 1400 ≤ sideLevel s b) : bothLow s = false := by
  cases b <;> simp [sideLevel] at h <;> simp [bothLow] <;> omega

/-! ## A main start -/

/-- The selector keeps what the cause bits of a main start count from (Table 4.4). -/
theorem select_starts (s : State) : (select s).pwr.coldNew = s.pwr.coldNew ∧
    (s.pwr.ranVbat = true → (select s).pwr.ranVbat = true) := ⟨rfl, fun h => by simp [select, h]⟩

/-- A main power-on (R37, R84): a start begins with its cause bits, everything of the main domain at reset, class A kept. -/
theorem mainOn_starts (ship : Bool) (s : State) (bits : BitVec 11)
    (hb : (if ship then 0x008 else if s.pwr.coldNew then 0x003 else if s.pwr.ranVbat then 0x006 else 0x002 : BitVec 11) = bits) :
    (mainOn ship s).pwr.mainOn = true ∧ (mainOn ship s).sys.phase = .held ∧ (mainOn ship s).sys.powerOn = true ∧
    (mainOn ship s).sys.lostCmds = 0 ∧ (mainOn ship s).sys.cause = bits ∧ (mainOn ship s).tt = Tt.reset ∧
    (mainOn ship s).cond = Cond.reset ∧ (mainOn ship s).rtc = { s.rtc with shiftShown := false } ∧
    (mainOn ship s).nv.pages = s.nv.pages :=
  ⟨rfl, rfl, rfl, rfl, hb, rfl, rfl, rfl, rfl⟩

/-- The loss of the main domain with no page operation in progress (R37): everything of it at reset, class A kept. -/
theorem mainOff_clears (s : State) (h : s.nv.op = none) :
    (mainOff s).pwr.mainOn = false ∧ (mainOff s).sys.phase = .off ∧ (mainOff s).tt = Tt.reset ∧ (mainOff s).cond = Cond.reset ∧
    (mainOff s).clk = Clk.reset ∧ (mainOff s).rtc = { s.rtc with shiftShown := false } ∧ (mainOff s).nv.pages = s.nv.pages := by
  have ht : tearOp s = s := by simp [tearOp, h]
  rw [mainOff, ht]
  exact ⟨rfl, rfl, rfl, rfl, rfl, rfl, rfl⟩

end Sys2Proof.Machine
end

section
/-! SUPPORT. What an event does leaves the latched sources latched (R12, R254): one lemma per operation that raises any, in the order of the
model. The loss of the main domain keeps those of the always-on domain. -/

namespace Sys2Proof.Machine

@[simp] theorem raiseIf_latches (c : Bool) (n : Nat) (s : State) (b : Nat) (h : s.evt.stat.getLsbD b = true) :
    (raiseIf c n s).evt.stat.getLsbD b = true := by
  simp [raiseIf, h]

@[simp] theorem when_latches (c : Bool) (f : State → State) (s : State) (n : Nat) (h : s.evt.stat.getLsbD n = true)
    (hf : ∀ t, t.evt.stat.getLsbD n = true → (f t).evt.stat.getLsbD n = true) : (when c f s).evt.stat.getLsbD n = true := by
  cases c
  · exact h
  · exact hf s h

@[simp] theorem forAll_latches {α : Type} (l : List α) (f : α → State → State) (s : State) (n : Nat)
    (h : s.evt.stat.getLsbD n = true) (hf : ∀ a t, t.evt.stat.getLsbD n = true → (f a t).evt.stat.getLsbD n = true) :
    (forAll l f s).evt.stat.getLsbD n = true := by
  induction l generalizing s with
  | nil => exact h
  | cons a r ih => exact ih (f a s) (hf a s h)

@[simp] theorem raise_latches (n : Nat) (s : State) (b : Nat) (h : s.evt.stat.getLsbD b = true) :
    (raise n s).evt.stat.getLsbD b = true := by simp [raise, h]

@[simp] theorem logRecord_latches (source : Nat) (stamp : Stamp) (detail : Word) (fl : LogFlags) (s : State)
    (n : Nat) (h : s.evt.stat.getLsbD n = true) :
    (logRecord source stamp detail fl s).evt.stat.getLsbD n = true := by
  simp only [logRecord]
  repeat' split
  all_goals simp [h, logPass_frame]

@[simp] theorem resultRecord_latches (ch : BitVec 5) (stamp : Stamp) (value : Word) (flags : BitVec 16) (latest : Bool) (s : State)
    (n : Nat) (h : s.evt.stat.getLsbD n = true) :
    (resultRecord ch stamp value flags latest s).evt.stat.getLsbD n = true := by
  simp only [resultRecord]
  repeat' split
  all_goals simp [h]

@[simp] theorem cplRecord_latches (op : Nat) (auto direct : Bool) (reason : Nat) (tag : Byte) (detail : Word) (s : State)
    (n : Nat) (h : s.evt.stat.getLsbD n = true) :
    (cplRecord op auto direct reason tag detail s).evt.stat.getLsbD n = true := by
  simp only [cplRecord]
  repeat' split
  all_goals simp (maxDischargeDepth := 40) +contextual [h]

@[simp] theorem lateTrigger_latches (cause : Nat) (lateness : Nat) (fl : LogFlags) (g : Nat × Stamp) (s : State)
    (n : Nat) (h : s.evt.stat.getLsbD n = true) :
    (lateTrigger cause lateness fl g s).evt.stat.getLsbD n = true := by simp [lateTrigger, h]

@[simp] theorem dropAwait_latches (s : State) (n : Nat) (h : s.evt.stat.getLsbD n = true) :
    (dropAwait s).evt.stat.getLsbD n = true := by
  unfold dropAwait
  split <;> simp +contextual [h]

@[simp] theorem dropQueued_latches (s : State) (n : Nat) (h : s.evt.stat.getLsbD n = true) :
    (dropQueued s).evt.stat.getLsbD n = true := by
  unfold dropQueued
  split <;> simp +contextual [h]

@[simp] theorem acqFailed_latches (err : BitVec 3) (s : State) (n : Nat) (h : s.evt.stat.getLsbD n = true) :
    (acqFailed err s).evt.stat.getLsbD n = true := by
  simp only [acqFailed]
  repeat' split
  all_goals simp (maxDischargeDepth := 40) +contextual [h, changeRef_frame, dropAhead_frame, dropFast_frame, haltOnBypass_frame]

@[simp] theorem retry_latches (s : State) (n : Nat) (h : s.evt.stat.getLsbD n = true) :
    (retry s).evt.stat.getLsbD n = true := by
  simp only [retry]
  repeat' split
  all_goals simp [h, acqBegin_frame]

@[simp] theorem acqFail_latches (err : BitVec 3) (s : State) (n : Nat) (h : s.evt.stat.getLsbD n = true) :
    (acqFail err s).evt.stat.getLsbD n = true := by
  simp only [acqFail]
  repeat' split
  all_goals simp [h]

@[simp] theorem acquire_latches (cause : AcqBy) (s : State) (n : Nat) (h : s.evt.stat.getLsbD n = true) :
    (acquire cause s).evt.stat.getLsbD n = true := by
  simp only [acquire]
  repeat' split
  all_goals simp [h, acqBegin_frame]

@[simp] theorem wakeHf_latches (cause : AcqBy) (s : State) (n : Nat) (h : s.evt.stat.getLsbD n = true) :
    (wakeHf cause s).evt.stat.getLsbD n = true := by
  unfold wakeHf
  split <;> simp [h]

@[simp] theorem bypassIn_latches (s : State) (n : Nat) (h : s.evt.stat.getLsbD n = true) :
    (bypassIn s).evt.stat.getLsbD n = true := by simp [bypassIn, h, dropFast_frame]

@[simp] theorem ldgNew_latches (q : Option Nat) (r : LdgReq) (stamp : Stamp) (s : State) (n : Nat) (h : s.evt.stat.getLsbD n = true) :
    (ldgNew q r stamp s).evt.stat.getLsbD n = true := by simp [ldgNew, h]

@[simp] theorem ldgJoin_latches (x : LdgInst) (r : LdgReq) (s : State) (n : Nat) (h : s.evt.stat.getLsbD n = true) :
    (ldgJoin x r s).evt.stat.getLsbD n = true := by simp [ldgJoin, h, ldgRewrite_frame]

@[simp] theorem ldgInstant_latches (q : Option Nat) (r : LdgReq) (stamp : Stamp) (s : State) (n : Nat) (h : s.evt.stat.getLsbD n = true) :
    (ldgInstant q r stamp s).evt.stat.getLsbD n = true := by
  unfold ldgInstant
  repeat' split
  all_goals simp [h]

@[simp] theorem lapRefused_latches (s : State) (n : Nat) (h : s.evt.stat.getLsbD n = true) :
    (lapRefused s).evt.stat.getLsbD n = true := by simp [lapRefused, h]

@[simp] theorem ldgCmdDone_latches (reason : Nat) (detail : Word) (c : LdgCmd) (s : State) (n : Nat) (h : s.evt.stat.getLsbD n = true) :
    (ldgCmdDone reason detail c s).evt.stat.getLsbD n = true := by simp [ldgCmdDone, h]

@[simp] theorem ldgTakeCmds_latches (r : LdgReq) (s : State) (n : Nat) (h : s.evt.stat.getLsbD n = true) :
    (ldgTakeCmds r s).2.evt.stat.getLsbD n = true := by
  simp only [ldgTakeCmds]
  repeat' split
  all_goals simp (maxDischargeDepth := 40) +contextual [h]

@[simp] theorem restartDivider_latches (a : Nat) (s : State) (n : Nat) (h : s.evt.stat.getLsbD n = true) :
    (restartDivider a s).evt.stat.getLsbD n = true := by simp [restartDivider, h]

@[simp] theorem alignTo_latches (m : Moment) (code : Nat) (s : State) (n : Nat) (h : s.evt.stat.getLsbD n = true) :
    (alignTo m code s).evt.stat.getLsbD n = true := by
  unfold alignTo
  split <;> simp [h]

@[simp] theorem awaitFrame_latches (g : Trig) (gs : List Trig) (m : Moment) (s : State) (n : Nat) (h : s.evt.stat.getLsbD n = true) :
    (awaitFrame g gs m s).evt.stat.getLsbD n = true := by
  simp only [awaitFrame]
  repeat' split
  all_goals simp [h, fetchFirst_frame]

@[simp] theorem joinAwait_latches (g : Trig) (gs : List Trig) (m : Moment) (a : Await) (s : State)
    (n : Nat) (h : s.evt.stat.getLsbD n = true) :
    (joinAwait g gs m a s).evt.stat.getLsbD n = true := by
  simp only [joinAwait]
  repeat' split
  all_goals simp [h]

@[simp] theorem deliver_latches (gs : List Trig) (m : Moment) (s : State) (n : Nat) (h : s.evt.stat.getLsbD n = true) :
    (deliver gs m s).evt.stat.getLsbD n = true := by
  simp only [deliver]
  repeat' split
  all_goals simp +contextual [h, joinQueued_frame]

@[simp] theorem logOcc_latches (reg : Stamp) (coin reached : Bool) (o : Occ) (s : State) (n : Nat) (h : s.evt.stat.getLsbD n = true) :
    (logOcc reg coin reached o s).evt.stat.getLsbD n = true := by
  unfold logOcc
  split <;> simp [h]

@[simp] theorem register_latches (m : Moment) (os : List Occ) (s : State) (n : Nat) (h : s.evt.stat.getLsbD n = true) :
    (register m os s).evt.stat.getLsbD n = true := by
  simp only [register]
  repeat' split
  all_goals simp (maxDischargeDepth := 40) +contextual [h, amendGroup_frame, moveMarks_frame, noteOcc_frame, openRecs_frame]

@[simp] theorem smStep_latches (k c : Nat) (stamp : Stamp) (resumed : Bool) (s : State) (n : Nat) (h : s.evt.stat.getLsbD n = true) :
    (smStep k c stamp resumed s).2.2.evt.stat.getLsbD n = true := by simp [smStep, h]

@[simp] theorem smSteps_latches (steps : List (Nat × Nat × Stamp × Bool)) (s : State) (n : Nat) (h : s.evt.stat.getLsbD n = true) :
    (smSteps steps s).2.2.evt.stat.getLsbD n = true := by
  unfold smSteps
  generalize hr : (([] : List Occ), 0, s) = r
  have hs : s = r.2.2 := by rw [← hr]
  rw [hs] at h
  clear hr hs
  induction steps generalizing r with
  | nil => exact h
  | cons p q ih => exact ih _ (smStep_latches p.1 p.2.1 p.2.2.1 p.2.2.2 r.2.2 n h)

@[simp] theorem failRecord_latches (i : Nat) (reason : Nat) (stamp : Stamp) (started late : Bool) (f : Frame) (s : State)
    (n : Nat) (h : s.evt.stat.getLsbD n = true) :
    (failRecord i reason stamp started late f s).evt.stat.getLsbD n = true := by
  simp only [failRecord]
  repeat' split
  all_goals simp [h, aoutFailed_frame]

@[simp] theorem markRecord_latches (i : Nat) (f : Frame) (s : State) (n : Nat) (h : s.evt.stat.getLsbD n = true) :
    (markRecord i f s).evt.stat.getLsbD n = true := by simp [markRecord, h]

@[simp] theorem markFailRecord_latches (f : Frame) (s : State) (n : Nat) (h : s.evt.stat.getLsbD n = true) :
    (markFailRecord f s).evt.stat.getLsbD n = true := by
  unfold markFailRecord
  split <;> simp [h]

@[simp] theorem endRecords_latches (f : Frame) (i : Nat) (s : State) (n : Nat) (h : s.evt.stat.getLsbD n = true) :
    (endRecords f i s).evt.stat.getLsbD n = true := by
  simp only [endRecords]
  repeat' split
  all_goals simp [h, aoutOk_frame]

@[simp] theorem finish_latches (i : Nat) (s : State) (n : Nat) (h : s.evt.stat.getLsbD n = true) :
    (finish i s).evt.stat.getLsbD n = true := by
  simp only [finish]
  repeat' split
  all_goals simp [h, keepLast_frame]

@[simp] theorem finishUpTo_latches (q : Nat) (s : State) (n : Nat) (h : s.evt.stat.getLsbD n = true) :
    (finishUpTo q s).evt.stat.getLsbD n = true := by
  unfold finishUpTo
  split <;> simp +contextual [h]

@[simp] theorem toStart_latches (i : Nat) (s : State) (n : Nat) (h : s.evt.stat.getLsbD n = true) :
    (toStart i s).evt.stat.getLsbD n = true := by
  unfold toStart
  split <;> simp [h]

@[simp] theorem startOp_latches (i op : Nat) (s : State) (n : Nat) (h : s.evt.stat.getLsbD n = true) :
    (startOp i op s).evt.stat.getLsbD n = true := by
  simp only [startOp, startCarriage]
  repeat' split
  all_goals simp [h, actOp_frame, fetchNext_frame, dropPresettle_frame, failRun_frame]

@[simp] theorem startDue_latches (n i : Nat) (s : State) (b : Nat) (h : s.evt.stat.getLsbD b = true) :
    (startDue n i s).evt.stat.getLsbD b = true := by
  unfold startDue
  repeat' split
  all_goals simp [h]

@[simp] theorem addsFirst_latches (n : Nat) (s : State) (b : Nat) (h : s.evt.stat.getLsbD b = true) :
    (addsFirst n s).evt.stat.getLsbD b = true := by
  simp only [addsFirst]
  repeat' split
  all_goals simp +contextual [h]

@[simp] theorem instantAt_latches (m : Moment) (r : LdgReq) (stamp : Stamp) (s : State) (n : Nat) (h : s.evt.stat.getLsbD n = true) :
    (instantAt m r stamp s).evt.stat.getLsbD n = true := by
  simp only [instantAt, when]
  repeat' split
  all_goals simp [h]

@[simp] theorem withRise_latches (q : Option Nat) (rise : Option Stamp) (xs : List Occ) (laps : Nat) (s : State)
    (n : Nat) (h : s.evt.stat.getLsbD n = true) :
    (withRise q rise xs laps s).2.2.evt.stat.getLsbD n = true := by
  unfold withRise
  split <;> simp [h, syncReset_frame]

@[simp] theorem inputsAt_latches (q : Option Nat) (steps : List Step) (s : State) (n : Nat) (h : s.evt.stat.getLsbD n = true) :
    (inputsAt q steps s).2.2.evt.stat.getLsbD n = true := by
  simp only [inputsAt]
  simp (maxDischargeDepth := 40) +contextual [h, comparedAt_frame, setAccepted_frame]

@[simp] theorem lapReq_latches (n : Nat) (r : LdgReq) (s : State) (b : Nat) (h : s.evt.stat.getLsbD b = true) :
    (lapReq n r s).2.evt.stat.getLsbD b = true := by
  simp only [lapReq]
  repeat' split
  all_goals simp +contextual [h]

@[simp] theorem takeCmdsAt_latches (m : Moment) (r : LdgReq) (s : State) (n : Nat) (h : s.evt.stat.getLsbD n = true) :
    (takeCmdsAt m r s).2.evt.stat.getLsbD n = true := by
  unfold takeCmdsAt
  split <;> simp [h]

@[simp] theorem registerAt_latches (m : Moment) (steps : List Step) (extra : List Occ) (s : State)
    (n : Nat) (h : s.evt.stat.getLsbD n = true) :
    (registerAt m steps extra s).evt.stat.getLsbD n = true := by
  simp only [registerAt]
  simp (maxDischargeDepth := 40) +contextual [h]

@[simp] theorem applySwitch_latches (s : State) (n : Nat) (h : s.evt.stat.getLsbD n = true) :
    (applySwitch s).evt.stat.getLsbD n = true := by
  simp only [applySwitch]
  repeat' split
  all_goals simp +contextual [h]

@[simp] theorem followUp_latches (f : Frame) (n : Nat) (s : State) (b : Nat) (h : s.evt.stat.getLsbD b = true) :
    (followUp f n s).evt.stat.getLsbD b = true := by
  simp only [followUp]
  repeat' split
  all_goals simp +contextual [h]

@[simp] theorem frameSteps_latches (n : Nat) (stamp : Stamp) (s : State) (b : Nat) (h : s.evt.stat.getLsbD b = true) :
    (frameSteps n stamp s).evt.stat.getLsbD b = true := by simp [frameSteps, h]

@[simp] theorem closeFrame_latches (f : Frame) (s : State) (n : Nat) (h : s.evt.stat.getLsbD n = true) :
    (closeFrame f s).evt.stat.getLsbD n = true := by
  simp only [closeFrame]
  simp (maxDischargeDepth := 40) +contextual [h, releasePairs_frame, withdrawPresettles_frame]

@[simp] theorem afterFrame_latches (f : Frame) (n : Nat) (stamp : Stamp) (s : State) (b : Nat) (h : s.evt.stat.getLsbD b = true) :
    (afterFrame f n stamp s).evt.stat.getLsbD b = true := by simp [afterFrame, h]

@[simp] theorem closeIfCut_latches (s : State) (n : Nat) (h : s.evt.stat.getLsbD n = true) :
    (closeIfCut s).evt.stat.getLsbD n = true := by
  unfold closeIfCut
  repeat' split
  all_goals simp [h]

@[simp] theorem haltSeq_latches (s : State) (n : Nat) (h : s.evt.stat.getLsbD n = true) :
    (haltSeq s).evt.stat.getLsbD n = true := by simp [haltSeq, h, haltFault_frame]

@[simp] theorem cutOne_latches (reason : Nat) (stamp : Stamp) (i : Nat) (s : State) (n : Nat) (h : s.evt.stat.getLsbD n = true) :
    (cutOne reason stamp i s).evt.stat.getLsbD n = true := by
  unfold cutOne
  repeat' split
  all_goals simp [h, dropDue_frame]

@[simp] theorem cutFrame_latches (reason : Nat) (p : CarRun → Bool) (s : State) (n : Nat) (h : s.evt.stat.getLsbD n = true) :
    (cutFrame reason p s).evt.stat.getLsbD n = true := by
  unfold cutFrame
  split <;> simp +contextual [h]

@[simp] theorem cutAll_latches (s : State) (n : Nat) (h : s.evt.stat.getLsbD n = true) :
    (cutAll s).evt.stat.getLsbD n = true := by
  simp only [cutAll]
  simp (maxDischargeDepth := 40) +contextual [h]

@[simp] theorem cutWarn_latches (s : State) (n : Nat) (h : s.evt.stat.getLsbD n = true) :
    (cutWarn s).evt.stat.getLsbD n = true := by simp [cutWarn, h]

@[simp] theorem resumeFast_latches (q : Nat) (ks : List Nat) (s : State) (n : Nat) (h : s.evt.stat.getLsbD n = true) :
    (resumeFast q ks s).evt.stat.getLsbD n = true := by
  simp only [resumeFast]
  repeat' split
  all_goals simp (maxDischargeDepth := 40) +contextual [h, compared_frame, setAccepted_frame, syncReset_frame]

@[simp] theorem takeFresh_latches (n : Nat) (s : State) (b : Nat) (h : s.evt.stat.getLsbD b = true) :
    (takeFresh n s).evt.stat.getLsbD b = true := by
  unfold takeFresh
  repeat' split
  all_goals simp [h]

@[simp] theorem writeIncfg_latches (w : Word) (s : State) (n : Nat) (h : s.evt.stat.getLsbD n = true) :
    (writeIncfg w s).evt.stat.getLsbD n = true := by simp [writeIncfg, h, holdSync_frame]

@[simp] theorem restartClock_latches (cause : AcqBy) (s : State) (n : Nat) (h : s.evt.stat.getLsbD n = true) :
    (restartClock cause s).evt.stat.getLsbD n = true := by
  simp only [restartClock]
  repeat' split
  all_goals simp (maxDischargeDepth := 40) +contextual [h, discardQ_frame, dropAhead_frame, withdrawPresettles_frame]

@[simp] theorem retryTick_latches (s : State) (n : Nat) (h : s.evt.stat.getLsbD n = true) :
    (retryTick s).evt.stat.getLsbD n = true := by
  unfold retryTick
  repeat' split
  all_goals simp [h]

@[simp] theorem copySpread_latches (s : State) (n : Nat) (h : s.evt.stat.getLsbD n = true) :
    (copySpread s).evt.stat.getLsbD n = true := by
  unfold copySpread
  repeat' split
  all_goals simp [h, takeSpread_frame]

@[simp] theorem nvUnc_latches (s : State) (n : Nat) (h : s.evt.stat.getLsbD n = true) :
    (nvUnc s).evt.stat.getLsbD n = true := by simp [nvUnc, h]

@[simp] theorem recover_latches (s : State) (n : Nat) (h : s.evt.stat.getLsbD n = true) :
    (recover s).evt.stat.getLsbD n = true := by
  unfold recover
  repeat' split
  all_goals simp [h]

@[simp] theorem ldgOwed_latches (s : State) (n : Nat) (h : s.evt.stat.getLsbD n = true) :
    (ldgOwed s).evt.stat.getLsbD n = true := by
  unfold ldgOwed
  split <;> simp [h]

@[simp] theorem recoverBy_latches (cause : Nat) (s : State) (n : Nat) (h : s.evt.stat.getLsbD n = true) :
    (recoverBy cause s).evt.stat.getLsbD n = true := by
  unfold recoverBy
  split <;> simp [h, resume_frame]

@[simp] theorem writeLdgCtl_latches (w : Word) (s : State) (n : Nat) (h : s.evt.stat.getLsbD n = true) :
    (writeLdgCtl w s).evt.stat.getLsbD n = true := by
  simp only [writeLdgCtl]
  repeat' split
  all_goals simp [h]

@[simp] theorem ledgerOff_latches (s : State) (n : Nat) (h : s.evt.stat.getLsbD n = true) :
    (ledgerOff s).evt.stat.getLsbD n = true := by
  unfold ledgerOff
  split <;> simp [h]

@[simp] theorem writeMask0_latches (w : Word) (s : State) (n : Nat) (h : s.evt.stat.getLsbD n = true) :
    (writeMask0 w s).evt.stat.getLsbD n = true := by simp [writeMask0, h, trimServed_frame]

@[simp] theorem writeMask1_latches (w : Word) (s : State) (n : Nat) (h : s.evt.stat.getLsbD n = true) :
    (writeMask1 w s).evt.stat.getLsbD n = true := by simp [writeMask1, h, trimServed_frame]

@[simp] theorem setClassN_latches (s : State) (n : Nat) (h : s.evt.stat.getLsbD n = true) :
    (setClassN s).evt.stat.getLsbD n = true := by
  simp only [setClassN]
  simp (maxDischargeDepth := 40) +contextual [h, setAoutCfg_frame, writeAfeCtl_frame]

@[simp] theorem restoreImage_latches (s : State) (n : Nat) (h : s.evt.stat.getLsbD n = true) :
    (restoreImage s).evt.stat.getLsbD n = true := by
  simp only [restoreImage]
  repeat' split
  all_goals simp (maxDischargeDepth := 40) +contextual [h]

@[simp] theorem cmdRecord_latches (c : Cmd) (direct : Bool) (reason : Nat) (detail : Word) (s : State)
    (n : Nat) (h : s.evt.stat.getLsbD n = true) :
    (cmdRecord c direct reason detail s).evt.stat.getLsbD n = true := by simp [cmdRecord, h]

@[simp] theorem endHolds_latches (s : State) (n : Nat) (h : s.evt.stat.getLsbD n = true) :
    (endHolds s).evt.stat.getLsbD n = true := by
  simp only [endHolds]
  repeat' split
  all_goals simp [h]

@[simp] theorem finishCmd_latches (reason : Nat) (detail : Word) (s : State) (n : Nat) (h : s.evt.stat.getLsbD n = true) :
    (finishCmd reason detail s).evt.stat.getLsbD n = true := by
  unfold finishCmd
  split <;> simp [h]

@[simp] theorem cutCmd_latches (reason : Nat) (s : State) (n : Nat) (h : s.evt.stat.getLsbD n = true) :
    (cutCmd reason s).evt.stat.getLsbD n = true := by
  unfold cutCmd
  split <;> simp [h]

@[simp] theorem drainQueue_latches (reason : Cmd → Nat) (s : State) (n : Nat) (h : s.evt.stat.getLsbD n = true) :
    (drainQueue reason s).evt.stat.getLsbD n = true := by simp +contextual [drainQueue, h]

@[simp] theorem endSuspends_latches (reason : Nat) (detail : Word) (s : State) (n : Nat) (h : s.evt.stat.getLsbD n = true) :
    (endSuspends reason detail s).evt.stat.getLsbD n = true := by
  unfold endSuspends
  split <;> simp +contextual [h]

@[simp] theorem warnCut_latches (s : State) (n : Nat) (h : s.evt.stat.getLsbD n = true) :
    (warnCut s).evt.stat.getLsbD n = true := by
  simp only [warnCut]
  repeat' split
  all_goals simp (maxDischargeDepth := 40) +contextual [h]

@[simp] theorem finishSelftest_latches (w : Word) (s : State) (n : Nat) (h : s.evt.stat.getLsbD n = true) :
    (finishSelftest w s).evt.stat.getLsbD n = true := by simp [finishSelftest, h]

@[simp] theorem selftestNoClock_latches (c : Cmd) (s : State) (n : Nat) (h : s.evt.stat.getLsbD n = true) :
    (selftestNoClock c s).evt.stat.getLsbD n = true := by simp [selftestNoClock, h]

@[simp] theorem clockCut_latches (s : State) (n : Nat) (h : s.evt.stat.getLsbD n = true) :
    (clockCut s).evt.stat.getLsbD n = true := by
  unfold clockCut
  repeat' split
  all_goals simp [h]

@[simp] theorem selftestAcquire_latches (s : State) (n : Nat) (h : s.evt.stat.getLsbD n = true) :
    (selftestAcquire s).evt.stat.getLsbD n = true := by
  simp only [selftestAcquire]
  repeat' split
  all_goals simp [h, awaitAgain_frame, dropFast_frame]

@[simp] theorem selftestLock_latches (s : State) (n : Nat) (h : s.evt.stat.getLsbD n = true) :
    (selftestLock s).evt.stat.getLsbD n = true := by
  unfold selftestLock
  repeat' split
  all_goals simp [h]

@[simp] theorem restoreHere_latches (s : State) (n : Nat) (h : s.evt.stat.getLsbD n = true) :
    (restoreHere s).evt.stat.getLsbD n = true := by
  unfold restoreHere
  repeat' split
  all_goals simp [h]

@[simp] theorem switchRecord_latches (g : Byte × Option Bool) (s : State) (n : Nat) (h : s.evt.stat.getLsbD n = true) :
    (switchRecord g s).evt.stat.getLsbD n = true := by simp [switchRecord, h]

@[simp] theorem flushSwitches_latches (s : State) (n : Nat) (h : s.evt.stat.getLsbD n = true) :
    (flushSwitches s).evt.stat.getLsbD n = true := by
  unfold flushSwitches
  split <;> simp +contextual [h]

@[simp] theorem cutHere_latches (s : State) (n : Nat) (h : s.evt.stat.getLsbD n = true) :
    (cutHere s).evt.stat.getLsbD n = true := by
  simp only [cutHere]
  repeat' split
  all_goals simp (maxDischargeDepth := 40) +contextual [h]

@[simp] theorem settle_latches (s : State) (n : Nat) (h : s.evt.stat.getLsbD n = true) :
    (settle s).evt.stat.getLsbD n = true := by
  simp only [settle]
  simp (maxDischargeDepth := 40) +contextual [h]

@[simp] theorem clearMain_latches (keepHif : Bool) (s : State)
    (n : Nat) (ha : aonSources.getLsbD n = true) (h : s.evt.stat.getLsbD n = true) :
    (clearMain keepHif s).evt.stat.getLsbD n = true := by simp [clearMain, h, ha]

@[simp] theorem beginStart_latches (bits : BitVec 11) (soft powerOn : Bool) (lost : Nat) (s : State)
    (n : Nat) (ha : aonSources.getLsbD n = true) (h : s.evt.stat.getLsbD n = true) :
    (beginStart bits soft powerOn lost s).evt.stat.getLsbD n = true := by simp [beginStart, h, ha]

@[simp] theorem trickleEval_latches (s : State) (n : Nat) (h : s.evt.stat.getLsbD n = true) :
    (trickleEval s).evt.stat.getLsbD n = true := by simp [trickleEval, h]

@[simp] theorem mainDown_latches (s : State) (n : Nat) (ha : aonSources.getLsbD n = true) (h : s.evt.stat.getLsbD n = true) :
    (mainDown s).evt.stat.getLsbD n = true := by simp [mainDown, h, ha]

@[simp] theorem mainOff_latches (s : State) (n : Nat) (ha : aonSources.getLsbD n = true) (h : s.evt.stat.getLsbD n = true) :
    (mainOff s).evt.stat.getLsbD n = true := by simp [mainOff, h, ha, tearOp_frame]

@[simp] theorem mainOn_latches (ship : Bool) (s : State) (n : Nat) (ha : aonSources.getLsbD n = true) (h : s.evt.stat.getLsbD n = true) :
    (mainOn ship s).evt.stat.getLsbD n = true := by simp [mainOn, h, ha]

@[simp] theorem aonOff_latches (s : State) (n : Nat) (ha : aonSources.getLsbD n = true) (h : s.evt.stat.getLsbD n = true) :
    (aonOff s).evt.stat.getLsbD n = true := by
  unfold aonOff
  split <;> simp [h, ha]

@[simp] theorem leaveShip_latches (s : State) (n : Nat) (ha : aonSources.getLsbD n = true) (h : s.evt.stat.getLsbD n = true) :
    (leaveShip s).evt.stat.getLsbD n = true := by
  simp only [leaveShip]
  repeat' split
  all_goals simp [h, ha, select_frame]

@[simp] theorem shipEval_latches (s : State) (n : Nat) (ha : aonSources.getLsbD n = true) (h : s.evt.stat.getLsbD n = true) :
    (shipEval s).evt.stat.getLsbD n = true := by
  simp only [shipEval]
  repeat' split
  all_goals simp [h, ha, tearOp_frame]

@[simp] theorem railsEval_latches (s : State) (n : Nat) (ha : aonSources.getLsbD n = true) (h : s.evt.stat.getLsbD n = true) :
    (railsEval s).evt.stat.getLsbD n = true := by
  simp only [railsEval]
  repeat' split
  all_goals simp [h, ha, select_frame]

@[simp] theorem enterShip_latches (s : State) (n : Nat) (ha : aonSources.getLsbD n = true) (h : s.evt.stat.getLsbD n = true) :
    (enterShip s).evt.stat.getLsbD n = true := by simp [enterShip, h, ha]

@[simp] theorem registerCastling_latches (sec frac : Word) (back : Bool) (s : State) (n : Nat) (h : s.evt.stat.getLsbD n = true) :
    (registerCastling sec frac back s).evt.stat.getLsbD n = true := by simp [registerCastling, h]

@[simp] theorem shipCount_latches (s : State) (n : Nat) (ha : aonSources.getLsbD n = true) (h : s.evt.stat.getLsbD n = true) :
    (shipCount s).evt.stat.getLsbD n = true := by
  unfold shipCount
  repeat' split
  all_goals simp [h, ha]

@[simp] theorem preWakeEdge_latches (s : State) (n : Nat) (h : s.evt.stat.getLsbD n = true) :
    (preWakeEdge s).evt.stat.getLsbD n = true := by
  unfold preWakeEdge
  split <;> simp [h, fetchFirst_frame]

end Sys2Proof.Machine
end

section
/-! SUPPORT. The castlings at an edge, and what the rest of the edge leaves of the first-castling fields (R38 to R40). -/

namespace Sys2Proof.Machine

/-! ## The direction of the first castling -/

theorem mainOff_firstDir (s : State) : (mainOff s).pwr.firstDir = s.pwr.firstDir := by simp [mainOff_pwr, pwrKept]

theorem aonOff_firstDir (s : State) : (aonOff s).pwr.firstDir = s.pwr.firstDir := by
  simp only [aonOff]
  split
  · exact mainOff_firstDir s
  · rfl

theorem leaveShip_firstDir (s : State) : (leaveShip s).pwr.firstDir = s.pwr.firstDir := by
  simp only [leaveShip, trickleEval_pwr]
  split <;> rfl

theorem shipEval_firstDir (s : State) : (shipEval s).pwr.firstDir = s.pwr.firstDir := by
  simp only [shipEval]
  repeat' split
  all_goals simp [leaveShip_firstDir, tearOp_frame]

theorem railsEval_firstDir (s : State) : (railsEval s).pwr.firstDir = s.pwr.firstDir := by
  simp only [railsEval]
  repeat' split
  all_goals simp [aonOff_firstDir, shipEval_firstDir, trickleEval_pwr, mainOff_pwr, mainOn_pwr, pwrKept, select]

theorem shipCount_firstDir (s : State) : (shipCount s).pwr.firstDir = s.pwr.firstDir := by
  unfold shipCount
  split
  · rfl
  · split <;> rfl

theorem warnBegin_firstDir (s : State) : (warnBegin s).pwr.firstDir = s.pwr.firstDir := by
  simp [warnBegin, cutWarn_frame, dropAhead_frame, allPairsOff_frame, pairPowered_frame]

theorem warnCount_firstDir (s : State) : (warnCount s).pwr.firstDir = s.pwr.firstDir := by simp [warnCount]

theorem setClassN_firstDir (s : State) : (setClassN s).pwr.firstDir = s.pwr.firstDir := by
  simp [setClassN, setAoutCfg_frame, writeIncfg_frame, writeMask0_frame, writeMask1_frame, writeAfeCtl_frame]

theorem restoreImage_firstDir (s : State) : (restoreImage s).pwr.firstDir = s.pwr.firstDir := by
  simp only [restoreImage]
  repeat' split
  all_goals simp [setClassN_firstDir, copySpread_frame, restartClock_frame, ledgerOff_frame, writeLdgCtl_frame]

theorem restoreHere_firstDir (s : State) : (restoreHere s).pwr.firstDir = s.pwr.firstDir := by
  unfold restoreHere
  split
  · rfl
  · split <;> simp [restoreImage_firstDir]

theorem settle_firstDir (s : State) : (settle s).pwr.firstDir = s.pwr.firstDir := by
  simp [settle, restoreHere_firstDir]

/-! ## Sources latched by the steps of an edge -/

theorem ledgerEdge_latches (e : Edge) (k : Tick) (r : LdgReq) (cut : Bool) (s : State) (n : Nat) (h : s.evt.stat.getLsbD n = true) :
    (ledgerEdge e k r cut s).evt.stat.getLsbD n = true := by
  have ht : ∀ (c : Bool) (x : LdgReq) (t : State), t.evt.stat.getLsbD n = true →
      (if c then ldgTakeCmds x t else (x, t)).2.evt.stat.getLsbD n = true := by
    intro c x t g
    cases c
    · exact g
    · exact ldgTakeCmds_latches x t n g
  exact instantAt_latches _ _ _ _ n (ht _ _ _ h)

theorem warnBegin_latches (s : State) (n : Nat) (h : s.evt.stat.getLsbD n = true) : (warnBegin s).evt.stat.getLsbD n = true := by
  simp [warnBegin, dropAhead_frame, allPairsOff_frame, pairPowered_frame, h]

/-! ## What follows the castlings within an edge -/

/-- The warning at an edge: it begins, or goes on for one edge more (R42, R43). -/
def warnStep (begins : Bool) (s t : State) : State := if begins then warnBegin t else if s.pwr.warn then warnCount t else t

theorem warnStep_aonOn (b : Bool) (s t : State) : (warnStep b s t).pwr.aonOn = t.pwr.aonOn := by
  unfold warnStep
  repeat' split
  · simp [warnBegin_inner]
  · simp [warnCount_inner]
  · rfl

/-- The ticks of the edge after its supplies. -/
def edgeTicks (s : State) : State := retryTick (countKtick (hfrcTick (holdTick (headerEnds (spanEdge s)))))

/-- What an edge does after its castlings have registered. -/
def afterCastlings (e : Edge) (k : Tick) (r : LdgReq) (s : State) : State :=
  let t := warnStep (warnLatches s) s (ledgerEdge e k r (warnLatches s) s)
  settle (preWakeEdge (shipCount (edgeTicks (powerEval { t with pwr := { t.pwr with eff := t.pwr.ctl } }))))

theorem edgeRest_castlings (e : Edge) (k : Tick) (r : LdgReq) (s : State) :
    edgeRest e k r s = afterCastlings e k r (castleEdge s) := rfl

/-- The first-castling fields of a state and its coarse time are those of another (Table 2.10, R90). -/
def firstKept (s t : State) : Prop :=
  t.pwr.firstValid = s.pwr.firstValid ∧ t.pwr.firstDir = s.pwr.firstDir ∧ t.pwr.firstSec = s.pwr.firstSec ∧
  t.pwr.firstFrac = s.pwr.firstFrac ∧ t.pwr.castleCount = s.pwr.castleCount ∧ coarseNow t = coarseNow s

theorem firstKept.trans {s t u : State} (h : firstKept s t) (g : firstKept t u) : firstKept s u := by
  obtain ⟨h1, h2, h3, h4, h5, h6⟩ := h
  obtain ⟨g1, g2, g3, g4, g5, g6⟩ := g
  exact ⟨g1.trans h1, g2.trans h2, g3.trans h3, g4.trans h4, g5.trans h5, g6.trans h6⟩

theorem ledgerEdge_firstKept (e : Edge) (k : Tick) (r : LdgReq) (cut : Bool) (s : State) : firstKept s (ledgerEdge e k r cut s) := by
  simp [firstKept, coarseNow, ledgerEdge_frame]

theorem warnStep_firstKept (b : Bool) (s t : State) : firstKept t (warnStep b s t) := by
  unfold warnStep
  repeat' split
  · simp [firstKept, coarseNow, warnBegin_inner, warnBegin_frame, warnBegin_firstDir]
  · simp [firstKept, coarseNow, warnCount_inner, warnCount_frame, warnCount_firstDir]
  · simp [firstKept]

theorem railsEval_firstKept (s : State) : firstKept s (railsEval s) := by
  simp [firstKept, coarseNow, railsEval_inner, railsEval_firstDir]

theorem edgeTicks_firstKept (s : State) : firstKept s (edgeTicks s) := by
  simp [firstKept, coarseNow, edgeTicks, retryTick_frame, countKtick_frame, hfrcTick_frame, holdTick_frame, headerEnds_frame,
    spanEdge_frame, countKtick_inner]

theorem shipCount_firstKept (s : State) : firstKept s (shipCount s) := by
  simp [firstKept, coarseNow, shipCount_inner, shipCount_firstDir]

theorem settle_firstKept (s : State) : firstKept s (settle s) := by
  simp [firstKept, coarseNow, settle_firstDir]

theorem preWakeEdge_firstKept (s : State) : firstKept s (preWakeEdge s) := by
  simp [firstKept, coarseNow, preWakeEdge_frame]

theorem afterCastlings_firstKept (e : Edge) (k : Tick) (r : LdgReq) (s : State) (ha : s.pwr.aonOn = true) :
    firstKept s (afterCastlings e k r s) := by
  have hl : ∀ t, firstKept t { t with pwr := { t.pwr with eff := t.pwr.ctl } } := fun t => ⟨rfl, rfl, rfl, rfl, rfl, rfl⟩
  simp only [afterCastlings]
  rw [powerEval_running _ (by simp [warnStep_aonOn, ledgerEdge_frame, ha])]
  exact (ledgerEdge_firstKept e k r _ s).trans <| (warnStep_firstKept _ s _).trans <| (hl _).trans <| (railsEval_firstKept _).trans <|
    (edgeTicks_firstKept _).trans <| (shipCount_firstKept _).trans <| (preWakeEdge_firstKept _).trans <| settle_firstKept _

theorem afterCastlings_latches (e : Edge) (k : Tick) (r : LdgReq) (s : State) (ha : s.pwr.aonOn = true) (n : Nat)
    (hn : aonSources.getLsbD n = true) (h : s.evt.stat.getLsbD n = true) : (afterCastlings e k r s).evt.stat.getLsbD n = true := by
  have hw : ∀ b t, t.evt.stat.getLsbD n = true → (warnStep b s t).evt.stat.getLsbD n = true := by
    intro b t ht
    unfold warnStep
    repeat' split
    · exact warnBegin_latches t n ht
    · simpa [warnCount_frame] using ht
    · exact ht
  have hk : ∀ t, t.evt.stat.getLsbD n = true → (edgeTicks t).evt.stat.getLsbD n = true := by
    intro t ht
    exact retryTick_latches _ n (by simpa [countKtick_frame, hfrcTick_frame, holdTick_frame, headerEnds_frame, spanEdge_frame] using ht)
  refine settle_latches _ n (preWakeEdge_latches _ n (shipCount_latches _ n hn (hk _ ?_)))
  rw [powerEval_running _ (by simp [warnStep_aonOn, ledgerEdge_frame, ha])]
  exact railsEval_latches _ n hn (hw _ _ (ledgerEdge_latches e k r _ s n h))

end Sys2Proof.Machine
end

section
/-! SUPPORT. The castlings that register at a ktick edge (R38 to R40, R90). -/

namespace Sys2Proof.Machine

/-- Raising a source leaves PWR, and latches it where it can be raised. -/
theorem raise_castling (n : Nat) (s : State) (h : 8 ≤ n ∧ n ≤ 15) : (raise n s).evt.stat.getLsbD n = true := by
  obtain ⟨h1, h2⟩ := h
  have : n = 8 ∨ n = 9 ∨ n = 10 ∨ n = 11 ∨ n = 12 ∨ n = 13 ∨ n = 14 ∨ n = 15 := by omega
  obtain rfl | rfl | rfl | rfl | rfl | rfl | rfl | rfl := this <;> simp [raise, raiseIf, raisable, src]

/-- A castling registers with its own source (R38). -/
theorem registerCastling_latched (sec frac : Word) (b : Bool) (s : State) :
    latched (if b then 13 else 12) (registerCastling sec frac b s) = true := by
  cases b <;> exact raise_castling _ _ (by decide)

theorem registerCastlings_latched (sec frac : Word) (l : List Bool) (s : State) :
    ∀ b ∈ l, latched (if b then 13 else 12) (forAll l (registerCastling sec frac) s) = true := by
  induction l generalizing s with
  | nil => simp
  | cons a r ih =>
    intro b hb
    obtain rfl | hr := List.mem_cons.mp hb
    · exact forAll_latches r _ _ _ (registerCastling_latched sec frac b s) (fun c t => registerCastling_latches sec frac c t _)
    · exact ih (registerCastling sec frac a s) b hr

/-- With the first castling stamped, a castling counts, to 255 (R39). -/
theorem registerCastling_counts (sec frac : Word) (b : Bool) (s : State) (h : s.pwr.firstValid = true) :
    (registerCastling sec frac b s).pwr = { s.pwr with castleCount := min 255 (s.pwr.castleCount + 1) } := by
  simp [registerCastling, raise, raiseIf, satAdd, h]

/-- With none stamped, a castling sets the fields (R39). -/
theorem registerCastling_stamps (sec frac : Word) (b : Bool) (s : State) (h : s.pwr.firstValid = false) :
    (registerCastling sec frac b s).pwr = { s.pwr with firstValid := true, firstDir := b, firstSec := sec, firstFrac := frac } := by
  simp [registerCastling, raise, raiseIf, h]

theorem registerCastlings_count (sec frac : Word) (l : List Bool) (s : State) (h : s.pwr.firstValid = true) :
    (forAll l (registerCastling sec frac) s).pwr =
      { s.pwr with castleCount := if l.length = 0 then s.pwr.castleCount else min 255 (s.pwr.castleCount + l.length) } := by
  induction l generalizing s with
  | nil => rfl
  | cons a r ih =>
    have hp := registerCastling_counts sec frac a s h
    change (forAll r (registerCastling sec frac) (registerCastling sec frac a s)).pwr = _
    rw [ih _ (by simp [hp, h]), hp]
    cases r
    · simp
    · simp
      omega

/-- What the castlings of an edge leave of the first-castling fields (R39). -/
theorem registerCastlings_first (sec frac : Word) (l : List Bool) (s : State) (hl : l ≠ []) :
    (forAll l (registerCastling sec frac) s).pwr = { s.pwr with
      firstValid := true
      firstDir := if s.pwr.firstValid then s.pwr.firstDir else l.headD false
      firstSec := if s.pwr.firstValid then s.pwr.firstSec else sec
      firstFrac := if s.pwr.firstValid then s.pwr.firstFrac else frac
      castleCount := if s.pwr.firstValid then min 255 (s.pwr.castleCount + l.length)
        else if l.length = 1 then s.pwr.castleCount else min 255 (s.pwr.castleCount + (l.length - 1)) } := by
  cases l with
  | nil => exact absurd rfl hl
  | cons a r =>
    cases h : s.pwr.firstValid
    · change (forAll r (registerCastling sec frac) (registerCastling sec frac a s)).pwr = _
      rw [registerCastlings_count _ _ _ _ (by simp [registerCastling_stamps, h]), registerCastling_stamps _ _ _ _ h]
      simp
    · rw [registerCastlings_count _ _ _ _ h, ← h]
      simp [h]

/-- The state the castlings of an edge register in: the fields clear that await it (R40). -/
def firstCleared (s : State) : State := if s.pwr.clearPend then clearFirst s else s

/-- The stamp of a castling at an edge: 0 on a substitute ktick (R90). -/
def castleStamp (s : State) (w : Stamp → Word) : Word := if s.sys.x32Run then w (coarseNow s) else 0

theorem castleEdge_pwr (s : State) : (castleEdge s).pwr =
    { (forAll s.pwr.castlings (registerCastling (castleStamp s Stamp.sec) (castleStamp s Stamp.frac)) (firstCleared s)).pwr with
      castlings := [] } := rfl

/-- What the castlings l leave at an edge, where the fields stand at valid and count as they register, in PWR as s holds it: the first of
them stamped with the time of t, or all counted (R39). -/
def castlingsLeave (l : List Bool) (valid : Bool) (count : Nat) (s t : State) : Prop :=
  t.pwr.firstValid = true ∧ (∀ b ∈ l, latched (if b then 13 else 12) t = true) ∧
  (valid = false → t.pwr.firstDir = l.headD false ∧
    t.pwr.firstSec = (if s.sys.x32Run then (coarseNow t).sec else 0) ∧
    t.pwr.firstFrac = (if s.sys.x32Run then (coarseNow t).frac else 0) ∧
    t.pwr.castleCount = if l.length = 1 then count else min 255 (count + (l.length - 1))) ∧
  (valid = true → t.pwr.firstDir = s.pwr.firstDir ∧ t.pwr.firstSec = s.pwr.firstSec ∧ t.pwr.firstFrac = s.pwr.firstFrac ∧
    t.pwr.castleCount = min 255 (count + l.length))

/-- The castlings of an edge register at it (R38 to R40). -/
theorem castleEdge_registers (s : State) (hl : s.pwr.castlings ≠ []) :
    castlingsLeave s.pwr.castlings (s.pwr.firstValid && !s.pwr.clearPend) (if s.pwr.clearPend then 0 else s.pwr.castleCount) s
      (castleEdge s) := by
  have hc : coarseNow (castleEdge s) = coarseNow s := by simp [coarseNow, castleEdge_frame]
  have hf := registerCastlings_first (castleStamp s Stamp.sec) (castleStamp s Stamp.frac) s.pwr.castlings (firstCleared s) hl
  have hx : (firstCleared s).pwr.firstValid = (s.pwr.firstValid && !s.pwr.clearPend) ∧
      (firstCleared s).pwr.castleCount = (if s.pwr.clearPend then 0 else s.pwr.castleCount) := by
    unfold firstCleared
    split <;> simp_all [clearFirst]
  have hs : (s.pwr.firstValid && !s.pwr.clearPend) = true → firstCleared s = s := by
    intro h
    simp only [Bool.and_eq_true, Bool.not_eq_true'] at h
    simp [firstCleared, h.2]
  obtain ⟨hv, hn⟩ := hx
  rw [hv, hn] at hf
  refine ⟨by rw [castleEdge_pwr, hf], fun b hb => registerCastlings_latched _ _ _ _ b hb, fun h => ?_, fun h => ?_⟩
  · rw [castleEdge_pwr, hf, h, hc]
    simp [castleStamp]
  · rw [castleEdge_pwr, hf, h, hs h]
    simp

/-- What follows in the edge leaves it so. -/
theorem castlingsLeave_after (l : List Bool) (valid : Bool) (count : Nat) (s t u : State) (h : castlingsLeave l valid count s t)
    (hk : firstKept t u) (hl : ∀ n, aonSources.getLsbD n = true → latched n t = true → latched n u = true) :
    castlingsLeave l valid count s u := by
  obtain ⟨k1, k2, k3, k4, k5, k6⟩ := hk
  obtain ⟨h1, h2, h3, h4⟩ := h
  refine ⟨k1.trans h1, fun b hb => hl _ ?_ (h2 b hb), ?_, ?_⟩
  · cases b <;> decide
  · rw [k2, k3, k4, k5, k6]
    exact h3
  · rw [k2, k3, k4, k5]
    exact h4

/-- A ktick edge to its castlings: the count, and what registers at it. -/
def edgeToCastlings (e : Edge) (s : State) : State := (edgeRegister e (edgeCount e s).1 (handoverHere (edgeCount e s).2)).2

/-- It leaves PWR and the state of X32. -/
theorem edgeToCastlings_keeps (e : Edge) (s : State) :
    (edgeToCastlings e s).pwr = s.pwr ∧ (edgeToCastlings e s).sys.x32Run = s.sys.x32Run := by
  simp [edgeToCastlings, edgeRegister_frame, handoverHere_frame, edgeCount_frame, edgeRegister_inner, handoverHere_inner, edgeCount_inner]

theorem ktick_castlings (e : Edge) (s : State) (hk : ktickRuns s = true) :
    ∃ k r, ktick e s = afterCastlings e k r (castleEdge (edgeToCastlings e s)) := by
  refine ⟨(edgeCount e s).1, (edgeRegister e (edgeCount e s).1 (handoverHere (edgeCount e s).2)).1, ?_⟩
  rw [ktick, hk]
  exact edgeRest_castlings _ _ _ _

/-- The castlings made since the last edge register at the next (R38 to R40). -/
theorem castlingRegistered_leaves (e : Edge) (s : State) (hl : s.pwr.castlings ≠ []) (hk : ktickRuns s = true) :
    Completes (.castlingRegistered e) s (castlingsLeave s.pwr.castlings (s.pwr.firstValid && !s.pwr.clearPend)
      (if s.pwr.clearPend then 0 else s.pwr.castleCount) s) := by
  have hif : exec (.castlingRegistered e) s = .next (ktickIf (fun u => !u.pwr.castlings.isEmpty) e s) := rfl
  have hon : s.pwr.aonOn = true := by
    simp only [ktickRuns, Bool.and_eq_true] at hk
    exact hk.1.1
  obtain ⟨hp, hx⟩ := edgeToCastlings_keeps e s
  obtain ⟨k, r, he⟩ := ktick_castlings e s hk
  have ha : (castleEdge (edgeToCastlings e s)).pwr.aonOn = true := by simp [castleEdge_inner, hp, hon]
  have hc := castleEdge_registers (edgeToCastlings e s) (by rw [hp]; exact hl)
  refine ⟨ktick e s, ?_, ?_⟩
  · rw [hif, ktickIf, hk]
    simp [hl]
  · rw [he]
    refine castlingsLeave_after _ _ _ _ _ _ ?_ (afterCastlings_firstKept e k r _ ha) (fun n => afterCastlings_latches e k r _ ha n)
    simpa [castlingsLeave, hp, hx] using hc

end Sys2Proof.Machine
end

section
/-! SUPPORT. The selector, the main domain and the castlings settled: O49 and O51. -/
namespace Sys2Proof.Machine

/-- Settles O49: each outcome of the selector and of the main domain's switch by its own lemma, the registration at an edge by
`castlingRegistered_leaves`. -/
theorem selectorAndFallback : Obligations.SelectorAndFallback := by
  unfold Obligations.SelectorAndFallback
  intro s u vdd vbat hu hd hb ha hs
  obtain rfl : u = withLevels vdd vbat s := hu
  have hexec : ∀ f, atLevels [vdd, vbat] f s = .next (f s) := fun f => atLevels_within _ f s (by simpa using ⟨hd, hb⟩)
  have hset : setSupplies vdd vbat s = outSettle (railsEval (withLevels vdd vbat s)) := by
    rw [setSupplies_eq, powerEval_running (withLevels vdd vbat s) ha]
  refine ⟨fun hm hl => ?castling, fun hm hl h14 => ?fallback, fun hlow => ?lost, fun hnb hon hv hop => ?off,
    fun hnb hoff hv => ?on, fun e hc hk => ?edge⟩
  case castling =>
    obtain ⟨h1, h2, h3⟩ := railsEval_selects (withLevels vdd vbat s) (bothLow_of_side _ _ hl) hs
    obtain ⟨g1, g2, g3⟩ := select_moves (withLevels vdd vbat s) hm hl
    refine ⟨_, (hexec _).trans (congrArg _ hset), ?_⟩
    simp [railsEval_frame, railsEval_inner, h1, h2, h3, g1, g2, g3]
  case fallback =>
    obtain ⟨h1, h2, h3⟩ := railsEval_selects (withLevels vdd vbat s) (bothLow_of_side _ _ h14) hs
    obtain ⟨g1, g2, g3⟩ := select_fallsBack (withLevels vdd vbat s) hm hl
    refine ⟨_, (hexec _).trans (congrArg _ hset), ?_⟩
    simp [railsEval_frame, railsEval_inner, h1, h2, h3, g1, g2, g3]
  case lost =>
    obtain ⟨h1, h2, h3, h4⟩ := railsEval_lost (withLevels vdd vbat s) hlow
    refine ⟨_, (hexec _).trans (congrArg _ hset), ?_⟩
    simp [railsEval_frame, h1, h2, h3, h4]
  case off =>
    obtain ⟨h1, h2, h3, h4, h5, h6, h7⟩ := mainOff_clears (select (withLevels vdd vbat s)) hop
    refine ⟨_, (hexec _).trans (congrArg _ (hset.trans (congrArg _ (railsEval_off _ hnb hs hon hv)))), ?_⟩
    simp [trickleEval_frame, trickleEval_inner, mainOff_frame, select_frame, h1, h2, h3, h4, h5, h6, h7]
  case on =>
    obtain ⟨h1, h2, h3, h4, h5, h6, h7, h8, h9⟩ := mainOn_starts false (select (withLevels vdd vbat s)) _ rfl
    refine ⟨_, (hexec _).trans (congrArg _ (hset.trans (congrArg _ (railsEval_on _ hnb hs hoff hv)))), ?_⟩
    simp +contextual [trickleEval_frame, trickleEval_inner, mainOn_frame, select_frame, select_starts, h1, h2, h3, h4, h5, h6, h7, h8, h9]
  case edge =>
    intro l hl valid hv count hn
    subst hl hv hn
    exact castlingRegistered_leaves e s hc hk

/-- Settles O51: the case of one castling with no clear pending of what an edge does to them. -/
theorem castlingRegistration : Obligations.CastlingRegistration := by
  unfold Obligations.CastlingRegistration
  intro s e b hb hp hx hk
  obtain ⟨t, ht, h1, -, h3, h4⟩ := castlingRegistered_leaves e s (by simp [hb]) hk
  simp only [hb, hp, hx] at h3 h4
  refine ⟨t, ht, fun hv => ?first, fun hv => ?later⟩
  case first =>
    obtain ⟨hd, hsec, hfrac, hn⟩ := h3 (by simp [hv])
    exact ⟨h1, hsec, hfrac, hd, hn⟩
  case later =>
    obtain ⟨hd, hsec, hfrac, hn⟩ := h4 (by simp [hv])
    exact ⟨h1, hsec, hfrac, hd, hn⟩

end Sys2Proof.Machine
end

section
/-! SUPPORT. The queue ended by a warning while a hold of an EV input waits to end. -/

namespace Sys2Proof.Machine

/-- A command for the front of the queue. -/
def queuedCmd : Cmd := { op := 2, tag := 7, a0 := 0, a1 := 0, a2 := 0, auto := false }

/-- Under a warning, on a locked clock, with one command queued; EV1 is high, held and enabled to rise, and a direct LEDGER_LAP that zeroes
the running sums waits for its instant. -/
def heldLapAtWarning : State :=
  { State.reset with
    pins := { Pins.reset with vbat := 1500, ev := 1 }
    pwr := { Pwr.reset with warn := true }
    sys := { Sys.reset with phase := .ready, x32Run := true, cfgDone := true }
    clk := { Clk.reset with src := 1, state := .locked, ref := .refin, bypass := false }
    evin := { Evin.reset with incfg := 0x01000000 }
    ldg := { Ldg.reset with ctl := 1, run := List.replicate 8 1, wait := [({ lap := true, tag := 1 }, true)] }
    cond := { Cond.reset with queue := [queuedCmd], awake := true }
    cal := { Cal.reset with holdEv := 1 } }

/-- The end of the queue ends the hold, the rise that registers then takes the waiting lap along, and the sums are zeroed. -/
theorem heldLapAtWarning_zeroes : (commandStart 0 heldLapAtWarning).ldg.run ≠ heldLapAtWarning.ldg.run := by decide +kernel

/-- Refutes O32: the clause on the queue under a warning has everything beside the conductor as before, running sums of the ledger among it,
where a hold that ends with the queue lets an input register, with a ledger command that waits. -/
theorem not_commandStarts : ¬ Obligations.CommandStarts := by
  unfold Obligations.CommandStarts
  intro h
  obtain ⟨hfront, -⟩ := h queuedCmd heldLapAtWarning 0
  obtain ⟨-, -, -, hwarn⟩ := hfront rfl rfl (by decide) (by decide) rfl rfl (by decide)
  obtain ⟨t, ht, -, -, hb, -⟩ := hwarn rfl
  have he := Host.Outcome.next.inj (show Host.Outcome.next (commandStart 0 heldLapAtWarning) = _ from ht)
  obtain ⟨-, -, -, -, -, -, -, -, -, -, -, -, -, -, -, hrun, -⟩ := hb
  rw [← he] at hrun
  exact heldLapAtWarning_zeroes hrun

end Sys2Proof.Machine
end

section
/-! SUPPORT. SELFTEST and SHIP at their start (R49, R347, R348). -/

namespace Sys2Proof.Machine

/-! ## A command at its start -/

/-- With no code due, the passing of time leaves the output. -/
theorem advance_out (n : Nat) (s : State) (h : s.out.due = none) : (advance n s).out = s.out := by
  unfold advance
  split
  · simp [discExcites_frame, dueBy, latchFrame_frame, h]
  · rfl

/-- What two steps leave beside the conductor, where the first brings no code due. -/
theorem besideConductor_trans (s t u : State) (h : besideConductor s t) (g : besideConductor t u)
    (hd : s.out.due = none → t.out.due = none) : besideConductor s u := by
  unfold besideConductor at *
  simp_all

/-- The state a command starts in: time has passed, and the watchdog is served (R333, R340). -/
def startOf (n : Nat) (s : State) : State := serve (advance n s)

theorem startOf_due (n : Nat) (s : State) (h : s.out.due = none) : (startOf n s).out.due = none := by
  simp [startOf, advance_out n s h, h]

theorem startOf_beside (n : Nat) (s : State) : besideConductor s (startOf n s) := by
  simp +contextual [besideConductor, startOf, advance_out]

@[simp] theorem startOf_cond (n : Nat) (s : State) : (startOf n s).cond = { s.cond with wdog := 0 } := by
  simp [startOf, serve]

@[simp] theorem startOf_keeps (n : Nat) (s : State) : (startOf n s).pins = s.pins ∧ (startOf n s).pwr = s.pwr ∧
    (startOf n s).sys = s.sys ∧ (startOf n s).cal = s.cal ∧ (startOf n s).disc = s.disc ∧ (startOf n s).mem = s.mem ∧
    (startOf n s).nv = s.nv := by
  simp [startOf]

theorem startOf_startedAs (n : Nat) (s : State) (c : Cmd) (h : startedAs c s) : startedAs c (startOf n s) := by
  simpa [startedAs, condRuns, mainUp, noHolds] using h

/-- An instruction that starts a command acts on the state the command starts in. -/
theorem onStart_started (op n : Nat) (f : Cmd → State → State) (c : Cmd) (s : State) (h : startedAs c s) (hop : c.op = op) :
    onStart op n f s = settle (f c (startOf n s)) := by
  obtain ⟨hr, hc, -⟩ := h
  simp [onStart, started, hr, hc, hop, startOf]

/-- What a command's start does before its end leaves the conductor and all beside it. -/
structure Untouched (n : Nat) (s v : State) : Prop where
  cond : v.cond = (startOf n s).cond
  mem : v.mem = s.mem
  cal : v.cal = s.cal
  disc : v.disc = s.disc
  due : s.out.due = none → v.out.due = none
  clk : v.clk.bypass = s.clk.bypass ∧ v.clk.active = s.clk.active
  beside : besideConductor s v

theorem startOf_untouched (n : Nat) (s : State) : Untouched n s (startOf n s) :=
  ⟨rfl, by simp, by simp, by simp, startOf_due n s, by simp [startOf], startOf_beside n s⟩

/-- A command that ends as it starts: its record, and what is as before. -/
theorem finishCmd_untouched (reason : Nat) (detail : Word) (n : Nat) (s v : State) (c : Cmd) (h : startedAs c s) (hv : Untouched n s v) :
    ended c reason detail s (settle (finishCmd reason detail v)) ∧ (settle (finishCmd reason detail v)).cal = s.cal ∧
    besideConductor s (settle (finishCmd reason detail v)) := by
  obtain ⟨hc, hm, hcal, hdisc, hdue, -, hb⟩ := hv
  have hs : startedAs c v := by
    obtain ⟨-, hp, -, -, -, -, -, -, -, -, -, -, -, -, -, -, -, -, hph, -⟩ := hb
    simpa [startedAs, condRuns, mainUp, noHolds, hc, hm, hcal, hdisc, hp, hph] using h
  obtain ⟨he, -, hbv⟩ := finishCmd_ended reason detail v c hs
  refine ⟨by simpa [ended, answered, hc] using he, ?_, besideConductor_trans s v _ hb hbv hdue⟩
  obtain ⟨hr, -, hw, -, hh, hd, -⟩ := hs
  rw [settle_finished reason detail v c .fresh hr hh hd hw]
  simpa using hcal

/-! ## SELFTEST: its word (Table 18.6) -/

/-- The mask of the tests (Table 18.6). -/
theorem getLsbD_testMask (i : Nat) : (0x7FF : Word).getLsbD i = decide (i < 11) := by
  change (BitVec.ofNat 32 (2 ^ 11 - 1)).getLsbD i = _
  rw [BitVec.getLsbD_ofNat, Nat.testBit_two_pow_sub_one]
  by_cases hi : i < 32
  · simp [hi]
  · simp [hi]
    omega

/-- A word of tests has eleven bits. -/
theorem getLsbD_tests (w : Word) (h : w &&& 0x7FF = w) (i : Nat) : w.getLsbD i = (decide (i < 11) && w.getLsbD i) := by
  conv_lhs => rw [← h, BitVec.getLsbD_and, getLsbD_testMask, Bool.and_comm]

/-- The late tests that have run and failed, with test 7 not run: tests 8 and 9 alone. -/
theorem late_failures (bad runs m : Word) (hm : m = 0x7E0 ∨ m = 0x7F0) (hb : bad &&& runs = bad) (hr : runs &&& 0x7FF = runs)
    (h7 : runs.getLsbD 7 = false) :
    ((runs &&& m ||| ((bad &&& 0x380) <<< 16)) >>> 16) &&& (runs &&& m ||| ((bad &&& 0x380) <<< 16)) &&& 0x380 = bad &&& 0x300 := by
  have hbi : ∀ i, bad.getLsbD i = (bad.getLsbD i && runs.getLsbD i) := by
    intro i
    rw [← BitVec.getLsbD_and, hb]
  apply BitVec.eq_of_getLsbD_eq
  intro i hlt
  have h1 := getLsbD_tests runs hr (i + 16)
  have h2 := hbi i
  obtain rfl | rfl := hm <;> interval_cases i <;> simp_all

/-- The reason of a SELFTEST by its word (R348). -/
theorem finishSelftest_word (bad skip : Word) (s : State) (hb : bad &&& 0x7FF = bad) (hs : skip &&& 0x7FF = skip) :
    finishSelftest (bad ||| (skip <<< 16)) s =
      finishCmd (if bad ≠ 0 then rDiag else if skip ≠ 0 then rPartial else rOk) (bad ||| (skip <<< 16)) s := by
  have hlow : fld (bad ||| (skip <<< 16)) 0 11 = bad.toNat := by
    apply Nat.eq_of_testBit_eq
    intro j
    rw [testBit_fld, BitVec.getLsbD_or, BitVec.getLsbD_shiftLeft, BitVec.testBit_toNat, getLsbD_tests bad hb j]
    by_cases hj : j < 11 <;> simp [hj]
    omega
  have hhigh : fld (bad ||| (skip <<< 16)) 16 11 = skip.toNat := by
    apply Nat.eq_of_testBit_eq
    intro j
    have hbad : bad.getLsbD (16 + j) = false := by rw [getLsbD_tests bad hb]; simp; omega
    rw [testBit_fld, BitVec.getLsbD_or, BitVec.getLsbD_shiftLeft, BitVec.testBit_toNat, hbad, Nat.add_sub_cancel_left]
    by_cases hj : j < 11
    · simp [hj]
      omega
    · rw [getLsbD_tests skip hs j]
      simp [hj]
  have hz : ∀ w : Word, w.toNat ≠ 0 ↔ w ≠ 0 := fun w => by simp [BitVec.toNat_eq]
  simp only [finishSelftest, hlow, hhigh, hz]

/-- The tests a SELFTEST leaves out where the clock fails, and those that need no clock and fail (R348). -/
def testsSkipped (c : Cmd) (s : State) : Word := if (clockFault s).isSome then c.a0 &&& 0x4E0 else 0

def testsFailed (failed : BitVec 11) (c : Cmd) (s : State) : Word :=
  (failed.setWidth 32 &&& c.a0 &&& ~~~testsSkipped c s &&& 0x317) ||| (if bitOf c.a0 3 && nvTestFails s then 8 else 0)

/-- Its tests that run. -/
def testsRun (c : Cmd) (s : State) : Word := c.a0 &&& 0x7FF &&& ~~~testsSkipped c s

theorem testsRun_small (c : Cmd) (s : State) : testsRun c s &&& 0x7FF = testsRun c s := by
  apply BitVec.eq_of_getLsbD_eq
  intro i _
  simp only [testsRun, BitVec.getLsbD_and]
  cases (0x7FF : Word).getLsbD i <;> simp

/-- A test that is not skipped runs where it is selected. -/
theorem testsRun_bit (c : Cmd) (s : State) (i : Nat) (hi : (0x7FF : Word).getLsbD i = true) (hs : (0x4E0 : Word).getLsbD i = false) :
    (testsRun c s).getLsbD i = c.a0.getLsbD i := by
  have hk : (testsSkipped c s).getLsbD i = false := by
    unfold testsSkipped
    split
    · rw [BitVec.getLsbD_and, hs, Bool.and_false]
    · simp
  have hlt : i < 32 := BitVec.lt_of_getLsbD hi
  rw [testsRun, BitVec.getLsbD_and, BitVec.getLsbD_and, hi, BitVec.getLsbD_not, hk]
  simp [hlt]

/-- A test that needs the clock does not run without it, nor where it is not selected. -/
theorem testsRun_clock (c : Cmd) (s : State) (h : c.a0 &&& 0x4F0 = 0 ∨ clockFault s ≠ none) (i : Nat)
    (hi : (0x4E0 : Word).getLsbD i = true) : (testsRun c s).getLsbD i = false := by
  have hj : (0x4F0 : Word).getLsbD i = true := by
    rw [show (0x4E0 : Word) = 0x4F0 &&& 0x4E0 from rfl, BitVec.getLsbD_and, Bool.and_eq_true] at hi
    exact hi.1
  rw [testsRun, BitVec.getLsbD_and, BitVec.getLsbD_and, BitVec.getLsbD_not]
  obtain h | h := h
  · have hz : c.a0.getLsbD i = false := by
      have hb : (c.a0 &&& 0x4F0).getLsbD i = (0 : Word).getLsbD i := by rw [h]
      rw [BitVec.getLsbD_and, hj, Bool.and_true] at hb
      simpa using hb
    simp [hz]
  · have hs : testsSkipped c s = c.a0 &&& 0x4E0 := by simp [testsSkipped, Option.isSome_iff_ne_none, h]
    rw [hs, BitVec.getLsbD_and, hi]
    cases c.a0.getLsbD i <;> simp

/-- The tests behind which a SELFTEST's stage goes on without the clock or with it: 4 to 10 as far as they are to run (R347). -/
def lateTests (s : State) : Word := if (clockFault s).isSome then 0x7E0 else 0x7F0

/-- The bit of test 3, where it runs and fails. -/
def pagesFailed (c : Cmd) (s : State) : Word := if bitOf (testsRun c s) 3 && nvTestFails s then 8 else 0

/-- The command of a SELFTEST that goes on, with what is left and what has failed. -/
def selftestCmd (failed : BitVec 11) (c : Cmd) (s : State) : Cmd :=
  { c with
    a1 := (failed.setWidth 32 &&& testsRun c s &&& 0x17) ||| pagesFailed c s ||| (testsSkipped c s <<< 16)
    a2 := testsRun c s &&& lateTests s ||| ((failed.setWidth 32 &&& testsRun c s &&& 0x380) <<< 16) }

/-- What test 3 does where it is selected. -/
def testReads (c : Cmd) (s : State) : State := when (bitOf (testsRun c s) 3) nvTestReads s

theorem selftest_eq (failed : BitVec 11) (c : Cmd) (s : State) (h : c.a0 &&& 0x7FF ≠ 0) : selftest failed c s =
    if testsRun c s &&& lateTests s &&& 0x4F0 = 0 then
      finishSelftest ((selftestCmd failed c s).a1 ||| testsLate (selftestCmd failed c s)) (testReads c s)
    else if testsRun c s &&& lateTests s &&& 0x460 = 0 then
      setJob (selftestCmd failed c s) .holding (testClock (selftestCmd failed c s) (testReads c s))
    else if modeS c then beginHold (selftestCmd failed c s) (testClock (selftestCmd failed c s) (testReads c s))
    else setJob (selftestCmd failed c s) .waitHold (testClock (selftestCmd failed c s) (testReads c s)) := by
  have hskip : (if (clockFault s).isSome then c.a0 &&& 0x7FF &&& 0x4E0 else 0 : Word) = testsSkipped c s := by
    rw [testsSkipped, BitVec.and_assoc]
    rfl
  rw [selftest, if_neg h]
  simp only [hskip]
  rfl

/-- The word of a SELFTEST that ends as it starts. -/
theorem selftest_word (failed : BitVec 11) (c : Cmd) (s : State) (h : c.a0 &&& 0x4F0 = 0 ∨ clockFault s ≠ none) :
    (selftestCmd failed c s).a1 ||| testsLate (selftestCmd failed c s) = testsFailed failed c s ||| (testsSkipped c s <<< 16) := by
  have hbit : bitOf (testsRun c s) 3 = bitOf c.a0 3 := testsRun_bit c s 3 rfl rfl
  have hm : lateTests s = 0x7E0 ∨ lateTests s = 0x7F0 := by
    unfold lateTests
    split
    · exact .inl rfl
    · exact .inr rfl
  have hself : failed.setWidth 32 &&& testsRun c s &&& testsRun c s = failed.setWidth 32 &&& testsRun c s := by
    rw [BitVec.and_assoc, BitVec.and_self]
  have hlate : testsLate (selftestCmd failed c s) = failed.setWidth 32 &&& testsRun c s &&& 0x300 :=
    late_failures _ _ _ hm hself (testsRun_small c s) (testsRun_clock c s h 7 rfl)
  have hfail : failed.setWidth 32 &&& c.a0 &&& ~~~testsSkipped c s &&& 0x317 =
      (failed.setWidth 32 &&& testsRun c s &&& 0x17) ||| (failed.setWidth 32 &&& testsRun c s &&& 0x300) := by
    have hac : ∀ f a m k n : Word, f &&& (a &&& m &&& k) &&& n = f &&& a &&& k &&& (m &&& n) := by
      intro f a m k n
      ac_rfl
    rw [← BitVec.and_or_distrib_left, testsRun, hac]
    rfl
  have ha : (selftestCmd failed c s).a1 = (failed.setWidth 32 &&& testsRun c s &&& (0x17 : Word)) ||| pagesFailed c s |||
      (testsSkipped c s <<< 16) := rfl
  have hac : ∀ x n k y : Word, x ||| n ||| k ||| y = x ||| y ||| n ||| k := by
    intro x n k y
    ac_rfl
  rw [hlate, testsFailed, hfail, ha, pagesFailed, hbit, hac]

theorem testsSkipped_small (c : Cmd) (s : State) : testsSkipped c s &&& 0x7FF = testsSkipped c s := by
  unfold testsSkipped
  split
  · rw [BitVec.and_assoc]
    rfl
  · rfl

theorem testsFailed_small (failed : BitVec 11) (c : Cmd) (s : State) : testsFailed failed c s &&& 0x7FF = testsFailed failed c s := by
  rw [testsFailed, BitVec.and_comm, BitVec.and_or_distrib_left, BitVec.and_comm, BitVec.and_assoc]
  split <;> rfl

/-- No test that needs the clock is left. -/
theorem lateTests_none (c : Cmd) (s : State) (h : c.a0 &&& 0x4F0 = 0 ∨ clockFault s ≠ none) :
    testsRun c s &&& lateTests s &&& 0x4F0 = 0 := by
  cases hf : clockFault s with
  | none =>
    have ha : c.a0 &&& 0x4F0 = 0 := by simpa [hf] using h
    have hr : testsRun c s = c.a0 &&& 0x7FF := by
      have hs : testsSkipped c s = 0 := by simp [testsSkipped, hf]
      rw [testsRun, hs]
      exact BitVec.and_allOnes
    have hl : lateTests s = 0x7F0 := by simp [lateTests, hf]
    rw [hr, hl, BitVec.and_assoc, BitVec.and_assoc]
    exact ha
  | some r =>
    have hl : lateTests s = 0x7E0 := by simp [lateTests, hf]
    have hz : testsRun c s &&& 0x4E0 = 0 := by
      apply BitVec.eq_of_getLsbD_eq
      intro i _
      cases hi : (0x4E0 : Word).getLsbD i
      · rw [BitVec.getLsbD_and, hi]
        simp
      · rw [BitVec.getLsbD_and, testsRun_clock c s h i hi]
        simp
    rw [hl, BitVec.and_assoc]
    exact hz

/-- A SELFTEST ends as it starts where no test needs the clock, or none that does can run (R347). -/
theorem selftest_ends (failed : BitVec 11) (c : Cmd) (s : State) (h : c.a0 &&& 0x7FF ≠ 0)
    (hno : c.a0 &&& 0x4F0 = 0 ∨ clockFault s ≠ none) :
    selftest failed c s = finishCmd (if testsFailed failed c s ≠ 0 then rDiag else if testsSkipped c s ≠ 0 then rPartial else rOk)
      (testsFailed failed c s ||| (testsSkipped c s <<< 16)) (testReads c s) := by
  rw [selftest_eq failed c s h, if_pos (lateTests_none c s hno), selftest_word failed c s hno,
    finishSelftest_word _ _ _ (testsFailed_small failed c s) (testsSkipped_small c s)]

/-! ## SELFTEST: the tests that wait for the clock -/

/-- An acquisition of the selected clock begins (R133): a clock is selected, and its plan is within the ratings. -/
def acquires (s : State) : Prop := clkSel s ≠ 0 ∧ planValid (selRef s) (activePlan s) = true

theorem acquire_begins (cause : AcqBy) (s : State) (h : acquires s) : acquire cause s = acqBegin cause s := by
  obtain ⟨h0, hp⟩ := h
  have hp' : planValid (acqBegin cause s).clk.ref (activePlan (acqBegin cause s)) = true := hp
  simp [acquire, h0, hp']

theorem wakeHf_begins (cause : AcqBy) (s : State) (h : acquires s) : wakeHf cause s = s ∨ wakeHf cause s = acqBegin cause s := by
  unfold wakeHf
  split
  · exact .inl rfl
  · exact .inr (acquire_begins cause s h)

/-- A SELFTEST with a test of a hold left goes on at stage j, and what it does leaves all beside the conductor. -/
structure TestGoesOn (c : Cmd) (j : Job) (s t : State) : Prop where
  run : ∃ x : Cmd, t.cond.running = some (x, j) ∧ x.op = c.op ∧ x.tag = c.tag ∧ x.a0 = c.a0 ∧ testsLeft x &&& 0x460 ≠ 0
  cond : t.cond.inReset = s.cond.inReset
  cal : t.cal = s.cal
  mem : t.mem = s.mem
  out : t.out = s.out
  clk : t.clk.bypass = s.clk.bypass ∧ t.clk.active = s.clk.active
  beside : besideConductor s t

/-- The acquisition of test 4 leaves the tests that are left. -/
theorem testsLeft_acquired (x : Cmd) : testsLeft { x with a2 := x.a2 ||| 0x8000 } = testsLeft x := by
  simp only [testsLeft]
  rw [BitVec.and_comm, BitVec.and_or_distrib_left, BitVec.and_comm]
  simp

/-- Its end leaves the tests of a hold. -/
theorem testsLeft_locked (x : Cmd) : testsLeft { x with a2 := x.a2 &&& 0xFFFFFFEF } &&& 0x460 = testsLeft x &&& 0x460 := by
  simp [testsLeft, BitVec.and_assoc]

/-- An acquisition begun for it, with HF locked or not, leaves it going on. -/
theorem acquire_goesOn (c : Cmd) (j : Job) (s t : State) (h : TestGoesOn c j s t) (ha : acquires t) :
    TestGoesOn c j s (acquire .job (awaitAgain (dropFast (serve t)))) ∧ TestGoesOn c j s (wakeHf .job (serve t)) := by
  obtain ⟨hrun, hc, hcal, hm, hout, hclk, hb⟩ := h
  constructor
  · rw [acquire_begins .job (awaitAgain (dropFast (serve t))) ha]
    exact ⟨hrun, hc, hcal, hm, hout, hclk, hb⟩
  · obtain hw | hw := wakeHf_begins .job (serve t) ha
    all_goals
      rw [hw]
      exact ⟨hrun, hc, hcal, hm, hout, hclk, hb⟩

theorem selftestAcquire_goesOn (c : Cmd) (j : Job) (s t : State) (h : TestGoesOn c j s t) (ha : acquires t) :
    TestGoesOn c j s (selftestAcquire t) := by
  obtain ⟨⟨x, hx, ho, ht, h0, hl⟩, hc, hcal, hm, hout, hclk, hb⟩ := h
  have hl' : testsLeft { x with a2 := x.a2 ||| 0x8000 } &&& 0x460 ≠ 0 := by rwa [testsLeft_acquired]
  have hu := acquire_goesOn c j s { t with cond := { t.cond with running := some ({ x with a2 := x.a2 ||| 0x8000 }, j) } }
    ⟨⟨_, rfl, ho, ht, h0, hl'⟩, hc, hcal, hm, hout, hclk, hb⟩ ha
  simp only [selftestAcquire, hx]
  split
  · split
    · exact hu.1
    · exact hu.2
  · exact ⟨⟨x, hx, ho, ht, h0, hl⟩, hc, hcal, hm, hout, hclk, hb⟩

theorem selftestLock_goesOn (c : Cmd) (j : Job) (s t : State) (h : TestGoesOn c j s t) :
    TestGoesOn c j s (selftestLock t) := by
  obtain ⟨⟨x, hx, ho, ht, h0, hl⟩, hc, hcal, hm, hout, hclk, hb⟩ := h
  simp only [selftestLock, hx, hl, if_false]
  split
  · exact ⟨⟨_, rfl, ho, ht, h0, by rwa [testsLeft_locked]⟩, hc, hcal, hm, hout, hclk, hb⟩
  · exact ⟨⟨x, hx, ho, ht, h0, hl⟩, hc, hcal, hm, hout, hclk, hb⟩

/-- With such a test waiting, what follows an event is its acquisition and its lock, the next page and the return to rest. -/
theorem settle_goesOn (c : Cmd) (j : Job) (s t : State) (h : TestGoesOn c j s t) (ha : acquires t) (hj : j = .waitHold ∨ j = .holding)
    (hb : s.clk.bypass = false) (hw : s.pwr.warn = false) : ∃ u, TestGoesOn c j s u ∧ settle t = rest (pump u) := by
  have hg := selftestLock_goesOn c j s _ (selftestAcquire_goesOn c j s t h ha)
  refine ⟨_, hg, ?_⟩
  have e1 : clockCut t = t := by simp [clockCut, h.clk.1, hb]
  obtain ⟨x, hx, -⟩ := hg.run
  have hpw : t.pwr.warn = false := by rw [h.beside.2.1, hw]
  have e2 : restoreHere (selftestLock (selftestAcquire t)) = selftestLock (selftestAcquire t) := by
    unfold restoreHere
    obtain rfl | rfl := hj <;> simp [hx]
  have e3 : cutHere (selftestLock (selftestAcquire t)) = selftestLock (selftestAcquire t) := by
    unfold cutHere
    obtain rfl | rfl := hj <;> simp [hx]
  have e4 : warnCut (selftestLock (selftestAcquire t)) = selftestLock (selftestAcquire t) := by simp [warnCut, hpw]
  have e5 : suspendHere (selftestLock (selftestAcquire t)) = selftestLock (selftestAcquire t) := by
    unfold suspendHere
    obtain rfl | rfl := hj <;> simp [hx]
  rw [settle, e1, e2, e3, e4, e5]

/-- The next page and the return to rest leave it so. -/
theorem rested_goesOn (c : Cmd) (j : Job) (s t : State) (h : TestGoesOn c j s t) :
    (∃ x : Cmd, (rest (pump t)).cond.running = some (x, j) ∧ x.op = c.op ∧ x.tag = c.tag ∧ x.a0 = c.a0) ∧
    (rest (pump t)).cal = s.cal ∧ (rest (pump t)).mem = s.mem ∧ besideConductor s (rest (pump t)) := by
  obtain ⟨⟨x, hx, ho, ht, h0, -⟩, -, hcal, hm, hout, -, hb⟩ := h
  refine ⟨⟨x, by simpa using hx, ho, ht, h0⟩, by simpa using hcal, by simpa using hm,
    besideConductor_trans s t _ hb ?_ (by simp [hout])⟩
  simp [besideConductor]

end Sys2Proof.Machine
end

section
/-! SUPPORT. SELFTEST and SHIP at their start settled: O42. -/

namespace Sys2Proof.Machine

/-! ## SELFTEST -/

/-- The reads of test 3 leave the conductor and all beside it. -/
theorem nvTestReads_untouched (n : Nat) (s v : State) (h : Untouched n s v) : Untouched n s (nvTestReads v) := by
  obtain ⟨hc, hm, hcal, hdisc, hdue, hclk, hb⟩ := h
  have hn : besideConductor v (nvTestReads v) := by simp [besideConductor, nvTestReads_frame]
  exact ⟨by simpa [nvTestReads_frame] using hc, by simpa [nvTestReads_frame] using hm, by simpa [nvTestReads_frame] using hcal,
    by simpa [nvTestReads_frame] using hdisc, by simpa [nvTestReads_frame] using hdue, by simpa [nvTestReads_frame] using hclk,
    besideConductor_trans s v _ hb hn hdue⟩

theorem testReads_untouched (c : Cmd) (n : Nat) (s : State) : Untouched n s (testReads c (startOf n s)) := by
  unfold testReads
  cases bitOf (testsRun c (startOf n s)) 3
  · exact startOf_untouched n s
  · exact nvTestReads_untouched n s _ (startOf_untouched n s)

/-- The acquisition a test's clock starts with leaves the conductor and all beside it. -/
theorem testClock_untouched (c : Cmd) (n : Nat) (s v : State) (h : Untouched n s v) (ha : acquires v) : Untouched n s (testClock c v) := by
  have hw : Untouched n s (wakeHf .job v) := by
    obtain ⟨hc, hm, hcal, hdisc, hdue, hclk, hb⟩ := h
    obtain hw | hw := wakeHf_begins .job v ha
    all_goals
      rw [hw]
      exact ⟨hc, hm, hcal, hdisc, hdue, hclk, hb⟩
  unfold testClock
  split
  · exact h
  · exact hw

/-- The clock as a command's start finds it. -/
theorem untouched_acquires (n : Nat) (s v : State) (h : Untouched n s v) (ha : acquires s) : acquires v := by
  obtain ⟨-, -, -, -, -, ⟨-, hact⟩, hb⟩ := h
  obtain ⟨-, -, -, -, -, -, -, -, hsrc, hplans, -⟩ := hb
  unfold acquires clkSel selRef activePlan clkSel at *
  rwa [hsrc, hplans, hact]

theorem startOf_clockFault (n : Nat) (s : State) : clockFault (startOf n s) = clockFault s := by
  have hb : (startOf n s).clk.src = s.clk.src ∧ (startOf n s).clk.bypass = s.clk.bypass := by simp [startOf]
  obtain ⟨hsrc, hbyp⟩ := hb
  unfold clockFault clkSel
  rw [hsrc, hbyp]

/-- What a SELFTEST has left as it goes on. -/
theorem testsLeft_selftestCmd (failed : BitVec 11) (c : Cmd) (s : State) :
    testsLeft (selftestCmd failed c s) = testsRun c s &&& lateTests s &&& 0x7FF := by
  have hz : ∀ x : Word, (0x7FF : Word) &&& (x <<< 16) = 0#32 := by
    intro x
    apply BitVec.eq_of_getLsbD_eq
    intro i _
    rw [BitVec.getLsbD_and, getLsbD_testMask, BitVec.getLsbD_shiftLeft]
    by_cases hi : i < 11
    · simp [show i < 16 by omega]
    · simp [hi]
  rw [testsLeft, selftestCmd, BitVec.and_comm, BitVec.and_or_distrib_left, hz, BitVec.or_zero, BitVec.and_comm]

/-- Test 3 depends on the array alone. -/
theorem nvTestFails_nv (s t : State) (h : t.nv = s.nv) : nvTestFails t = nvTestFails s :=
  congrArg (fun v => nvTestFails { s with nv := v }) h

/-- A SELFTEST with a test of a hold selected, on a good clock, waits for its hold or begins it (R347). -/
theorem selftest_waits (failed : BitVec 11) (c : Cmd) (s : State) (h : c.a0 &&& 0x460 ≠ 0) (hf : clockFault s = none) :
    testsLeft (selftestCmd failed c s) &&& 0x460 ≠ 0 ∧
    selftest failed c s =
      if modeS c then beginHold (selftestCmd failed c s) (testClock (selftestCmd failed c s) (testReads c s))
      else setJob (selftestCmd failed c s) .waitHold (testClock (selftestCmd failed c s) (testReads c s)) := by
  have hr : testsRun c s = c.a0 &&& 0x7FF := by
    have hs : testsSkipped c s = 0 := by simp [testsSkipped, hf]
    rw [testsRun, hs]
    exact BitVec.and_allOnes
  have hl : lateTests s = 0x7F0 := by simp [lateTests, hf]
  have hsel : ∀ m : Word, m &&& 0x460 = 0x460 → c.a0 &&& m ≠ 0 := by
    intro m hm hz
    apply h
    rw [← hm, ← BitVec.and_assoc, hz]
    rfl
  have h4 : testsRun c s &&& lateTests s &&& 0x4F0 ≠ 0 := by
    rw [hr, hl, BitVec.and_assoc, BitVec.and_assoc]
    exact hsel _ rfl
  have h6 : testsRun c s &&& lateTests s &&& 0x460 ≠ 0 := by
    rw [hr, hl, BitVec.and_assoc, BitVec.and_assoc]
    exact hsel _ rfl
  refine ⟨?_, by rw [selftest_eq failed c s (hsel _ rfl), if_neg h4, if_neg h6]⟩
  rw [testsLeft_selftestCmd, BitVec.and_assoc]
  exact h6

/-- A SELFTEST that goes on with a test of a hold left stays at its stage through what follows its start. -/
theorem settle_testRuns (c : Cmd) (j : Job) (s w : State) (hr : w.cond.running = some (c, j)) (hl : testsLeft c &&& 0x460 ≠ 0)
    (hj : j = .waitHold ∨ j = .holding) (ha : acquires w) (hby : w.clk.bypass = false) (hwarn : w.pwr.warn = false)
    (hb : besideConductor s w) (hdue : s.out.due = none → w.out.due = none) :
    (∃ x : Cmd, (settle w).cond.running = some (x, j) ∧ x.op = c.op ∧ x.tag = c.tag ∧ x.a0 = c.a0) ∧
    (settle w).cal = w.cal ∧ (settle w).mem = w.mem ∧ besideConductor s (settle w) := by
  have hgo : TestGoesOn c j w w := ⟨⟨c, hr, rfl, rfl, rfl, hl⟩, rfl, rfl, rfl, rfl, ⟨rfl, rfl⟩, by simp [besideConductor]⟩
  obtain ⟨u, hu, he⟩ := settle_goesOn c j w w hgo ha hj hby hwarn
  obtain ⟨hx, hcal, hm, hbw⟩ := rested_goesOn c j w u hu
  rw [he]
  exact ⟨hx, hcal, hm, besideConductor_trans s w _ hb hbw hdue⟩

/-- A SELFTEST with its hold begun (R311). -/
def testHeld (c : Cmd) (s : State) : State := { setJob c .holding s with
    cal := { s.cal with holdMod := if bitOf c.a0 5 then 0x1F else 0x10, holdExc := bitOf c.a0 6 } }

theorem beginHold_selftest (c : Cmd) (s : State) (h : c.op = 0x12) : beginHold c s = testHeld c s := by
  simp [beginHold, testHeld, setJob, h]

/-- The stage a SELFTEST with a hold goes on at, and what it holds (R311, R347). -/
theorem selftest_holds (failed : BitVec 11) (c : Cmd) (n : Nat) (s : State) (h : startedAs c s) (hop : c.op = 0x12)
    (hsel : c.a0 &&& 0x460 ≠ 0) (hf : clockFault s = none) (ha : acquires s) (t : State)
    (ht : t = settle (selftest failed c (startOf n s))) :
    (∃ x : Cmd, t.cond.running = some (x, if modeS c then .holding else .waitHold) ∧ x.op = c.op ∧ x.tag = c.tag ∧ x.a0 = c.a0) ∧
    t.cal.holdMod = (if modeS c then (if bitOf c.a0 5 then 0x1F else 0x10) else 0) ∧
    t.cal.holdExc = (modeS c && bitOf c.a0 6) ∧ t.cal.holdPair = 0 ∧ t.mem = s.mem ∧ besideConductor s t := by
  obtain ⟨-, -, hwarn, -, ⟨hmod, hpair, hexc, -⟩, -⟩ := h
  obtain ⟨hleft, he⟩ := selftest_waits failed c (startOf n s) hsel (by rw [startOf_clockFault, hf])
  have hr := testReads_untouched c n s
  have hu := testClock_untouched (selftestCmd failed c (startOf n s)) n s _ hr (untouched_acquires n s _ hr ha)
  have hau := untouched_acquires n s _ hu ha
  obtain ⟨-, hm, hcal, -, hdue, ⟨hbyp, -⟩, hb⟩ := hu
  have hby : s.clk.bypass = false := by
    unfold clockFault at hf
    split at hf <;> simp_all
  rw [ht, he]
  generalize testClock (selftestCmd failed c (startOf n s)) (testReads c (startOf n s)) = v at hau hm hcal hdue hbyp hb ⊢
  have hw : v.pwr.warn = false := by rw [hb.2.1, hwarn]
  cases hs : modeS c
  · obtain ⟨⟨x, hx, ho, hg, h0⟩, hcal', hm', hb'⟩ :=
      settle_testRuns _ .waitHold s (setJob (selftestCmd failed c (startOf n s)) .waitHold v) rfl hleft (.inl rfl) hau
        (hbyp.trans hby) hw hb hdue
    refine ⟨⟨x, hx, ho, hg, h0⟩, ?_, ?_, ?_, hm'.trans hm, hb'⟩
    all_goals
      rw [if_neg (by decide), hcal']
      simp [setJob, hcal, hmod, hpair, hexc]
  · rw [if_pos rfl, beginHold_selftest (selftestCmd failed c (startOf n s)) v hop]
    obtain ⟨⟨x, hx, ho, hg, h0⟩, hcal', hm', hb'⟩ :=
      settle_testRuns _ .holding s (testHeld (selftestCmd failed c (startOf n s)) v) rfl hleft (.inr rfl) hau
        (hbyp.trans hby) hw hb hdue
    refine ⟨⟨x, hx, ho, hg, h0⟩, ?_, ?_, ?_, hm'.trans hm, hb'⟩ <;> rw [hcal']
    · rfl
    · rfl
    · exact (congrArg Cal.holdPair hcal).trans hpair

/-! ## SHIP -/

theorem rest_shipped (s : State) : (rest s).cond.shipped = s.cond.shipped := by
  have k := @park_frame
  simp only [rest]
  split <;> simp [k]

/-- The queue refused: each of its commands has its record. -/
theorem drainQueue_quiet (reason : Cmd → Nat) (s : State) (h : s.disc.ports.all quietPort = true) :
    drainQueue reason s = forAll s.cond.queue (fun c u => cmdRecord c false (reason c) (restDetail u c) u)
      { s with cond := { s.cond with queue := [], wdog := 0 } } := by
  have hw : waitingJobs s = [] := by simp [waitingJobs, portAt_quiet s h]
  have hp : s.disc.ports.map (fun p => { p with jobWait := 0 }) = s.disc.ports := by
    conv_rhs => rw [← List.map_id s.disc.ports]
    apply List.map_congr_left
    intro p hp
    have hq := List.all_eq_true.mp h p hp
    simp only [quietPort, Bool.and_eq_true, beq_iff_eq] at hq
    rw [← hq.1]
    rfl
  rw [drainQueue, hw, hp, List.append_nil]

theorem drainQueue_leaves (reason : Cmd → Nat) (s : State) (h : s.disc.ports.all quietPort = true) :
    (drainQueue reason s).cond.queue = [] ∧ (drainQueue reason s).cond.switchDone = s.cond.switchDone ∧
    (drainQueue reason s).disc = s.disc := by
  rw [drainQueue_quiet reason s h]
  refine ⟨?_, ?_, ?_⟩
  · simp
  · exact forAll_keeps (fun u => u.cond.switchDone) _ _ _ (fun c u => by simp [cmdRecord])
  · simp

/-- The grace of SHIP begun: triggers are dropped, commands refused, 32 kticks left (R49). -/
def shipGrace (s : State) : State := { s with
  cond := { s.cond with shipped := true }
  tt := { s.tt with await := none, queued := none, freeRun := false }
  pwr := { s.pwr with shipIn := some 32 } }

theorem ship_high (c : Cmd) (s : State) (h : s.pins.waken = true) :
    ship c s = shipGrace (finishCmd rOk 0 (drainQueue refusal s)) := by
  simp [ship, shipGrace, h]

/-- Nothing of the grace is cut: what follows is the next page and the return to rest. -/
theorem settle_shipGrace (s : State) (hr : s.cond.running = none) (hd : s.cond.switchDone = []) (hw : s.pwr.warn = false) :
    settle (shipGrace s) = rest (pump (shipGrace s)) := settle_rested (shipGrace s) hr hd hw

/-- The record of a command stands at the end of the grace's start. -/
theorem shipGrace_answered (op : Nat) (auto direct : Bool) (reason : Nat) (tag : Byte) (detail : Word) (s t : State)
    (h : answered op auto direct reason tag detail s t) :
    answered op auto direct reason tag detail s (rest (pump (shipGrace t))) := by
  obtain ⟨h1, h2, h3, h4, h5, h6⟩ := h
  refine ⟨?_, ?_, ?_, ?_, ?_, ?_⟩
  · simpa [shipGrace] using h1
  · simpa [shipGrace] using h2
  · rw [rest_ovf]
    simpa [shipGrace] using h3
  · simpa [shipGrace] using h4
  · simpa [shipGrace, latched] using h5
  · simpa [shipGrace, latched] using h6

/-- A SHIP with WAKEN high, as it ends (R49). -/
theorem ship_ends (c : Cmd) (n : Nat) (s : State) (h : startedAs c s) (hw : s.pins.waken = true) (t : State)
    (ht : t = settle (ship c (startOf n s))) :
    t.cond.shipped = true ∧ t.cond.queue = [] ∧ t.cond.running = none ∧ t.pwr = { s.pwr with shipIn := some 32 } ∧
    t.tt.await = none ∧ t.tt.queued = none ∧ t.tt.freeRun = false ∧ t.tt.frame = (advance n s).tt.frame ∧
    (s.cond.queue = [] → answered c.op c.auto false rOk c.tag 0 s t) ∧
    t.pins = s.pins ∧ t.rtc = s.rtc ∧ t.alm = s.alm ∧ t.hif = s.hif ∧ t.nv.pages = s.nv.pages ∧ t.cal = s.cal := by
  obtain ⟨hr, hc, hwarn, hroom, hh, hd, hm⟩ := startOf_startedAs n s c h
  have hports : (startOf n s).disc.ports.all quietPort = true := hh.2.2.2.2
  have ha : s.cond.queue = [] → drainQueue refusal (startOf n s) =
      { startOf n s with cond := { (startOf n s).cond with queue := [], wdog := 0 } } := by
    intro hq
    rw [drainQueue_quiet _ _ hports, startOf_cond, hq]
    rfl
  obtain ⟨hq, hsd, hdisc⟩ := drainQueue_leaves refusal (startOf n s) hports
  have hf := drainQueue_frame refusal (startOf n s)
  have hrun : (drainQueue refusal (startOf n s)).cond.running = some (c, .fresh) := by simpa [drainQueue_inner] using hr
  rw [ship_high c _ (by simpa using hw)] at ht
  generalize drainQueue refusal (startOf n s) = d at ha hq hsd hdisc hf hrun ht
  have hcal : d.cal = (startOf n s).cal := by simp [hf]
  have hholds : noHolds d := by
    unfold noHolds at hh ⊢
    rwa [hdisc, hcal]
  rw [finishCmd_quiet rOk 0 d c .fresh hrun hholds, settle_shipGrace] at ht
  · subst ht
    refine ⟨?_, ?_, ?_, ?_, ?_, ?_, ?_, ?_, fun hz => shipGrace_answered _ _ _ _ _ _ _ _ ?answer, ?_⟩
    case answer =>
      obtain ⟨hans, -⟩ := cplRecord_answered c.op c.auto false rOk c.tag 0
        (orphanOp (serve { d with cond := { d.cond with running := none } }))
        (by simpa [ha hz, orphanOp, serve] using hroom) (by simpa [ha hz] using hm)
        (by simpa [ha hz, mainUp] using mainUp_of_condRuns _ hc)
      simpa [ha hz, answered, cmdRecord, orphanOp, serve] using hans
    · simp [rest_shipped, shipGrace]
    · simp [hq, orphanOp, serve, cmdRecord, shipGrace]
    · simp [shipGrace]
    · simp [shipGrace, hf]
    · simp [shipGrace]
    · simp [shipGrace]
    · simp [shipGrace]
    · simp [shipGrace, hf, startOf]
    · simp [shipGrace, hf, startOf]
  · simp
  · simpa [cmdRecord, orphanOp, serve, hsd] using hd
  · simpa [hf] using hwarn

/-- Settles O42: a SELFTEST's three ways by `finishCmd_untouched`, `selftest_ends` and `selftest_holds`, SHIP by `ship_ends`. -/
theorem selftestAndShip : Obligations.SelftestAndShip := by
  unfold Obligations.SelftestAndShip
  intro c s n h
  have hone : ∀ failed, c.op = 0x12 → exec (.selftest failed n) s = .next (settle (selftest failed c (startOf n s))) :=
    fun failed hop => congrArg _ (onStart_started 0x12 n (selftest failed) c s h hop)
  have hship : c.op = 0x13 → exec (.ship n) s = .next (settle (ship c (startOf n s))) :=
    fun hop => congrArg _ (onStart_started 0x13 n ship c s h hop)
  refine ⟨fun failed hop => ⟨fun hz => ?none, fun hsel hno skip bad hs hb => ?ends, fun hsel hf hp => ?waits⟩,
    fun hop hwk => ?refused, fun hop hwk => ⟨_, hship hop, ship_ends c n s h hwk _ rfl⟩⟩
  case none =>
    refine ⟨_, hone failed hop, ?_⟩
    rw [selftest, if_pos hz]
    obtain ⟨he, -, hb⟩ := finishCmd_untouched rArgs 0 n s _ c h (startOf_untouched n s)
    exact ⟨he, hb⟩
  case ends =>
    have hskip : testsSkipped c (startOf n s) = skip := by rw [hs, testsSkipped, startOf_clockFault]
    have hbad : testsFailed failed c (startOf n s) = bad := by rw [hb, testsFailed, hskip, nvTestFails_nv s _ (by simp)]
    refine ⟨_, hone failed hop, ?_⟩
    rw [selftest_ends failed c _ hsel (by rwa [startOf_clockFault]), hskip, hbad]
    exact finishCmd_untouched _ _ n s _ c h (testReads_untouched c n s)
  case waits =>
    have hclk : clkSel s ≠ 0 := by
      intro h0
      simp [clockFault, h0] at hf
    obtain ⟨⟨x, hr, ho, ht, h0⟩, hmod, hexc, hpair, hm, hb⟩ := selftest_holds failed c n s h hop hsel hf ⟨hclk, hp⟩ _ rfl
    exact ⟨_, hone failed hop, ⟨_, hr, ho.trans hop, ht, h0, rfl⟩, hmod, hexc, hpair, hm, hb⟩
  case refused =>
    refine ⟨_, hship hop, ?_⟩
    rw [ship, if_pos (by simp [hwk])]
    obtain ⟨he, -, hb⟩ := finishCmd_untouched rState 0 n s _ c h (startOf_untouched n s)
    exact ⟨he, hb⟩

end Sys2Proof.Machine
end

section
/-! SUPPORT. The queue of waiting commands, which a step takes its command from and no command changes (log entry 2). -/

namespace Sys2Proof.Machine

/-- Settles O21: by the definition of a step. -/
theorem stepRunsTheFrontCommand : Obligations.StepRunsTheFrontCommand := by
  unfold Obligations.StepRunsTheFrontCommand
  exact ⟨fun c rest s => rfl, fun s h => by simp only [step, h]⟩

/-- What a command answers leaves the queue q. -/
def LeavesQueue (q : List Instr) (o : Host.Outcome State Fault Refusal) : Prop := ∀ t, o = .next t → t.pending = q

/-- A command that completes in a state with that queue. -/
theorem leavesQueue_next {q : List Instr} {u : State} (h : u.pending = q) : LeavesQueue q (.next u) := by
  rintro t ⟨⟩
  exact h

/-- A command that carries supply levels: beyond the maximum it answers no state (R351). -/
theorem leavesQueue_atLevels {q : List Instr} (mv : List Nat) (f : State → State) (s : State) (h : (f s).pending = q) :
    LeavesQueue q (atLevels mv f s) := by
  unfold atLevels
  split
  · rintro t ⟨⟩
  · exact leavesQueue_next h

/-- Settles O25: each command is one operation of the model, with levels, on a condition, or plain, and that operation's frame keeps the
queue. -/
theorem execKeepsQueue : Obligations.ExecKeepsQueue := by
  unfold Obligations.ExecKeepsQueue
  intro c s
  change LeavesQueue s.pending (exec c s)
  cases c
  case mainPowerOn | aonColdStart | selectorSwitch | aonSupplyFallback | mainDomainOff | brownOutWarning | warningEnd | trickleDone |
      trickleResume | shipExit | trickleHeadroomChange | vddioPresenceChange =>
    exact leavesQueue_atLevels _ _ s (by simp)
  case alarmWrite | smTableWrite | attachRegistered | detachRegistered =>
    refine leavesQueue_next ?_
    split <;> simp
  all_goals exact leavesQueue_next (by simp)

end Sys2Proof.Machine
end

section
/-! SUPPORT. The resets of the host port (R69, R76), and a frame in the commit time of a write (R58). -/

namespace Sys2Proof.Machine

/-! ## A HIF reset (R69) -/

/-- What a HIF reset returns, adds and leaves. -/
theorem hifReset_returns (u : State) :
    (hifReset u).hif = hifCleared u.hif ∧ causeSet 0x400 u (hifReset u) ∧
    (hifReset u).pwr = { u.pwr with ctl := maskIn 0x1000 u.pwr.ctl 0 } ∧
    { hifReset u with hif := u.hif, sys := u.sys, pwr := u.pwr } = u :=
  ⟨rfl, rfl, rfl, rfl⟩

/-! ## A frame in the commit time (R58) -/

/-- A port that hears what the host sends responds (R72). -/
theorem portOpen_of_portHears (s : State) (h : portHears s = true) : portOpen s = true := by
  simp only [portHears, Bool.and_eq_true] at h
  exact h.1

/-- The frame in the commit time of a write is counted, with flag 5, busy, and sends nothing (R58, R66). -/
def busyCounted (s : State) : State :=
  { s with hif := { s.hif with err := s.hif.err ||| 0x20, errCount := satAdd 255 s.hif.errCount 1, reply := [] } }

/-- It raises source 59 where its flag rises (R77). -/
theorem exec_spiBusy (s : State) (ho : spiOpen s = true) :
    exec .spiFrameDuringCommit s = .next (raiseIf (!s.hif.err.getLsbD 5) 59 (busyCounted s)) := by
  change Host.Outcome.next (spiBusy s) = _
  rw [spiBusy, ho, Bool.not_true, if_neg Bool.false_ne_true]
  rfl

/-- Settles O14: the busy frame by its flag, bit 5, and its source; the reset by what it returns behind the transaction that stood
open. -/
theorem busyAndHifReset : Obligations.BusyAndHifReset := by
  unfold Obligations.BusyAndHifReset
  refine fun s h => ⟨fun hs => ?busy, ?reset⟩
  case busy =>
    have ho : spiOpen s = true := by simp [spiOpen, portOpen_of_portHears s h, hs]
    refine ⟨_, exec_spiBusy s ho, ?flag, rfl, rfl, fun he hm => ?source, rfl⟩
    case flag =>
      change (s.hif.err ||| 0x20).getLsbD 5 = true
      rw [BitVec.getLsbD_or]
      simp
    case source =>
      have hm' : mainUp (busyCounted s) = true := hm
      rw [latched_raiseIf, he, raisable, hm']
      simp [src]
  case reset =>
    rintro u rfl
    refine ⟨hifReset (closeTxn s), ?_, hifReset_returns _⟩
    change Host.Outcome.next (hifResetRow s) = _
    rw [hifResetRow, if_pos h]

/-! ## The target reset pattern (R76) -/

/-- The pattern has been seen, and the bus is in use. -/
def patternDone (u : State) : State := { u with hif := { u.hif with patternSeen := true, busIdle := 0 } }

/-- The pattern between two transactions: main reset where the action 0x01 is armed or a pattern came before it, else a HIF reset. -/
theorem exec_targetReset (s : State) (hb : busOpen s = true) (hx : s.hif.txn = none) :
    exec .targetResetPattern s =
      .next (patternDone (if s.hif.armSoft || s.hif.patternSeen then rstactReset s else hifReset s)) := by
  change Host.Outcome.next (targetReset s) = _
  rw [targetReset, hb, Bool.not_true, if_neg Bool.false_ne_true, closeTxn_none s hx]
  rfl

/-- The action 0x01 with the main domain on and out of SHIP begins a main start; the grace of SHIP goes on (R49, log entry 73). -/
theorem rstactReset_powered (s : State) (hm : s.pwr.mainOn = true) (hs : s.pwr.ship = false) :
    rstactReset s = keepShip s (beginStart 0x440 false false (cmdsInFlight s) s) := by
  simp [rstactReset, hm, hs]

/-- The causes of a main start that no other one precedes are its own (R84). -/
theorem beginStart_cause (bits : BitVec 11) (soft powerOn : Bool) (lost : Nat) (s : State) (h : mainReady s = true) :
    (beginStart bits soft powerOn lost s).sys.cause = bits := by
  simp [beginStart, h]

end Sys2Proof.Machine

namespace Sys2Proof

open Machine

/-- Settles O19: a HIF reset, or the main start with the causes of both. -/
theorem targetReset : Obligations.TargetReset := by
  unfold Obligations.TargetReset
  refine fun s hb hm hs ht => ⟨fun ha hp => ?hif, fun hap => ?main⟩
  case hif =>
    refine ⟨_, exec_targetReset s hb ht.1, ?_⟩
    rw [if_neg (by simp [ha, hp])]
    exact ⟨rfl, rfl, rfl, rfl⟩
  case main =>
    refine ⟨_, exec_targetReset s hb ht.1, ?_⟩
    rw [if_pos (by simpa using hap), rstactReset_powered s hm hs]
    exact ⟨rfl, beginStart_cause _ _ _ _ s, rfl, rfl, rfl, rfl, rfl, rfl, rfl, rfl, rfl, rfl, rfl⟩

end Sys2Proof
end

section
/-! SUPPORT. Write frames of SPI (R57, R65, R66). -/

namespace Sys2Proof.Machine

/-- SDO of a write frame: the status byte, then zeros (R65). -/
theorem statusOnly_write (a : BitVec 16) (data : List Byte) (st : Byte) :
    statusOnly (spiHeader 0x3C a ++ data).length st = st :: List.replicate (data.length + 2) 0 := by
  have hl : (spiHeader 0x3C a ++ data).length = data.length + 2 + 1 := by simp [spiHeader]
  rw [hl, statusOnly, List.take_succ_cons, List.take_replicate, Nat.min_eq_left (by omega)]

/-- A frame whose command byte is that of a write (Table 3.2). -/
theorem spiBody_write (a : BitVec 16) (data : List Byte) (t : State) (hd : data ≠ []) :
    spiBody (spiHeader 0x3C a ++ data) 0 t =
      spiWriteFrame (spiHeader 0x3C a ++ data) 0 (answer (statusByte t :: List.replicate (data.length + 2) 0) t) := by
  have hr : resetFrame (spiHeader 0x3C a ++ data) 0 = false := by simp [resetFrame, spiHeader]
  have hl : ¬ (spiHeader 0x3C a ++ data).length < 4 := by
    have := List.length_pos_iff.mpr hd
    simp [spiHeader]
    omega
  have hb : byteAt (spiHeader 0x3C a ++ data) 0 = 0x3C := rfl
  rw [← statusOnly_write a data]
  simp only [spiBody, hr, hl, hb, if_false, Bool.false_eq_true, if_true]

/-- Without CRC the bytes behind the header are the data (Table 3.2). -/
theorem spiWriteFrame_plain (a : BitVec 16) (data : List Byte) (t : State) (hc : t.hif.crcEn = false) :
    spiWriteFrame (spiHeader 0x3C a ++ data) 0 t = writeBytes a data t := by
  have hb : (spiHeader 0x3C a ++ data).drop 3 = data := rfl
  rw [spiWriteFrame, hc, if_neg Bool.false_ne_true, headerAddr_spiHeader, hb]
  rfl

/-- Under CRC a frame whose CRC is wrong is rejected with flag 0, crc, among its flags (R66, Table 3.4). -/
theorem spiWriteFrame_badCrc (a : BitVec 16) (data : List Byte) (t : State) (hc : t.hif.crcEn = true)
    (hx : crc8 0 (spiHeader 0x3C a ++ data) ≠ 0) :
    ∃ es, spiWriteFrame (spiHeader 0x3C a ++ data) 0 t = reject (0 :: es) (some a) t := by
  refine ⟨extentErrs a.toNat (((spiHeader 0x3C a ++ data).drop 3).dropLast).length, ?_⟩
  rw [spiWriteFrame, hc, if_pos rfl, if_pos ⟨rfl, hx⟩, headerAddr_spiHeader]
  exact if_neg (List.cons_ne_nil 0 [])

/-- The write frame of a ready port, at its moment. -/
theorem exec_spiWrite_own (a : BitVec 16) (data : List Byte) (n : Nat) (s : State) (h : HostReady s) (hs : s.hif.i3c = false)
    (hd : data ≠ []) :
    exec (.spiWriteFrame (spiHeader 0x3C a ++ data) 0 n) s = .next (closeTxn (spiWriteFrame (spiHeader 0x3C a ++ data) 0
      (answer (statusByte (advance n s) :: List.replicate (data.length + 2) 0) (openTxn (advance n s))))) := by
  have hs' : (advance n s).hif.i3c = false := by simpa using hs
  change Host.Outcome.next (spiFrame _ 0 (advance n s)) = _
  rw [spiFrame_own _ 0 _ (hostReady_advance n s h) hs' (by simp [hd]), spiBody_write a data _ hd, statusByte_openTxn]

/-- The end of a write frame of inert bytes: they are stored, what was sent stands (R57). -/
theorem spiWrite_stored (a : BitVec 16) (data : List Byte) (u : State) (hu : HostReady u) (hw : Memory.wf u.mem = true)
    (hn : data.length ≤ 256) (hr : inertRange a.toNat data.length = true) (bs : List Byte) (t : State)
    (ht : t = closeTxn (writeBytes a data (answer bs (openTxn u)))) :
    storedAt a.toNat data u.mem t.mem ∧ t.hif = { u.hif with reply := bs } ∧ { t with mem := u.mem, hif := u.hif, tt := u.tt } = u := by
  have he : earlyTxn (answer bs (openTxn u)) = false := by
    have hm : mainReady u = true := hu.2.1
    exact (earlyTxn_openTxn u).trans (by simp [hm])
  obtain ⟨tt, e⟩ := writeBytes_inert a data _ hn hr he
  have h : t = { u with mem := memStore u.mem a.toNat data, tt := tt, hif := { u.hif with reply := bs } } := by
    rw [ht, e]
    exact closeTxn_own _ u _ rfl hu.2.2 (by simp only [betweenTxns, store, answer, openTxn])
  rw [h]
  exact ⟨fun x => memByte_memStore data u.mem a.toNat x hw, rfl, rfl⟩

end Sys2Proof.Machine

namespace Sys2Proof

open Machine

/-- Settles O12: a frame is its own transaction, whose bytes are stored or whose wrong CRC rejects it. -/
theorem spiWriteFrame : Obligations.SpiWriteFrame := by
  unfold Obligations.SpiWriteFrame
  rintro s n h hs u rfl
  have hu := hostReady_advance n s h
  have hf : (advance n s).hif = s.hif := by simp
  have hm : (advance n s).mem = s.mem := by simp
  refine ⟨fun a data hc hw hd hn hr => ?plain, fun a data hc hd hx => ?crc⟩
  case plain =>
    have hc' : (answer (statusByte (advance n s) :: List.replicate (data.length + 2) 0) (openTxn (advance n s))).hif.crcEn = false := by
      simpa [answer, openTxn] using hc
    refine ⟨_, exec_spiWrite_own a data n s h hs hd, ?_⟩
    rw [spiWriteFrame_plain a data _ hc', ← hm, ← hf]
    exact spiWrite_stored a data _ hu (hm ▸ hw) hn hr _ _ rfl
  case crc =>
    have hc' : (answer (statusByte (advance n s) :: List.replicate (data.length + 2) 0) (openTxn (advance n s))).hif.crcEn = true := by
      simpa [answer, openTxn] using hc
    obtain ⟨es, e⟩ := spiWriteFrame_badCrc a data _ hc' hx
    refine ⟨_, exec_spiWrite_own a data n s h hs hd, ?_⟩
    have ho : OnlyRead (advance n s) (openTxn (advance n s)) := onlyRead_openTxn (advance n s) (advance n s).hif.busIdle
    rw [e]
    exact (rejectedWith_closeTxn 0 a _ _ (rejecting_reject (0 :: es) 0 a _ _ (ho.answer _) List.mem_cons_self (by decide)) (by decide)
      (mainUp_of_hostReady _ hu)).1

end Sys2Proof
end

section
/-! SUPPORT. Common commands that set fields of the host port alone (R72 to R76), HDR mode, and the in-band interrupt (R75, R259). -/

namespace Sys2Proof.Machine

/-! ## The end of a transaction that noted nothing -/

/-- With nothing noted the end of what stands open is that it is over (R55). -/
theorem closeTxn_of_bareTxn (t : State) (h : bareTxn t = true) (hh : t.hif.txn = none → t.hif.header = false) :
    closeTxn t = betweenTxns t := by
  cases hx : t.hif.txn with
  | none => rw [closeTxn_none t hx, betweenTxns_of_noTxn t ⟨hx, hh hx⟩]
  | some x => exact closeTxn_bare t x hx (bare_of_bareTxn t x h hx)

/-! ## Commands that set fields of the host port -/

/-- g sets fields of the host port beside its transaction. -/
def BesideTxn (g : Hif → Hif) : Prop := ∀ h, g { h with txn := none, header := false } = { g h with txn := none, header := false }

/-- The end of a command that set such fields. -/
theorem when_betweenTxns_set (b : Ends) (u : State) (acks : List Bool) (g : Hif → Hif) (hg : BesideTxn g) :
    when b.stop betweenTxns { acked acks (atBroadcast b u) with hif := g (acked acks (atBroadcast b u)).hif } =
      { u with hif := g (cccHif b u acks) } := by
  have e : acked acks (atBroadcast b u) = { u with hif := { cccHif b u acks with txn := some (busTxn b u) } } := rfl
  rw [e]
  rcases b with ⟨sr, stop⟩
  cases stop with
  | false => rfl
  | true => exact congrArg (fun x => { u with hif := x }) (hg _).symm

/-- A broadcast command that sets fields of the host port. -/
theorem broadcastCcc_set (b : Ends) (f : State → State) (g : Hif → Hif) (s : State) (ho : busOpen s = true) (hb : bareTxn s = true)
    (hx : ∀ t, (f t).hif.txn = t.hif.txn) (hg : BesideTxn g)
    (hf : ∀ t, t = atBroadcast b (advance s.clk.hf s) → f t = { t with hif := g t.hif }) :
    broadcastCcc b f s = { advance s.clk.hf s with hif := g (cccHif b (advance s.clk.hf s) [true]) } := by
  rw [broadcastCcc_bare b f s ho hb hx, hf _ rfl]
  exact when_betweenTxns_set b _ [true] g hg

/-- A direct command that the device acknowledges and that sets fields of the host port. -/
theorem directCcc_set (b : Ends) (c : State → Bool) (f : State → State) (g : Hif → Hif) (s : State) (ho : busOpen s = true)
    (hb : bareTxn s = true) (hc : c (atBroadcast b (advance s.clk.hf s)) = true) (hx : ∀ t, (f t).hif.txn = t.hif.txn) (hg : BesideTxn g)
    (hf : ∀ t, t = acked [true, true] (atBroadcast b (advance s.clk.hf s)) → f t = { t with hif := g t.hif }) :
    directCcc b c f s = { advance s.clk.hf s with hif := g (cccHif b (advance s.clk.hf s) [true, true]) } := by
  rw [directCcc_bare b c f s ho hb hx, if_pos hc, hf _ rfl]
  exact when_betweenTxns_set b _ [true, true] g hg

/-- A device with a dynamic address answers a direct command that reads. -/
theorem hasAddress_atBroadcast (b : Ends) (s : State) (hd : s.hif.dynAddr ≠ 0) : hasAddress (atBroadcast b (advance s.clk.hf s)) = true := by
  simpa [hasAddress, (address_atBroadcast b s.clk.hf s).1] using hd

/-- It answers a direct command at that address. -/
theorem atDynamic_atBroadcast (b : Ends) (s : State) (hd : s.hif.dynAddr ≠ 0) :
    atDynamic s.hif.dynAddr (atBroadcast b (advance s.clk.hf s)) = true := by
  simpa [atDynamic, (address_atBroadcast b s.clk.hf s).1] using hd

/-- A direct command that reads bytes fixed before it (R73). -/
theorem directAnswer_bytes (b : Ends) (bs : State → List Byte) (v : List Byte) (s : State) (ho : busOpen s = true) (hb : bareTxn s = true)
    (hd : s.hif.dynAddr ≠ 0) (hv : bs (acked [true, true] (atBroadcast b (advance s.clk.hf s))) = v) :
    directAnswer b bs s = { advance s.clk.hf s with hif := { cccHif b (advance s.clk.hf s) [true, true] with reply := v } } :=
  directCcc_set b hasAddress (fun u => answer (bs u) u) (fun h => { h with reply := v }) s ho hb (hasAddress_atBroadcast b s hd)
    (fun _ => rfl) (fun _ => rfl) (fun t ht => by rw [ht, hv]; rfl)

/-! ## GETSTATUS (R74) -/

/-- The two halves of a set of sources (Table 13.3). -/
theorem halves_joined (v : BitVec 64) : (v.setWidth 32).setWidth 64 ||| (((v >>> 32).setWidth 32).setWidth 64 <<< 32) = v := by
  refine BitVec.eq_of_getLsbD_eq fun i hi => ?_
  by_cases h : i < 32
  · simp [h, hi]
  · have he : 32 + (i - 32) = i := by omega
    simp [h, hi, he]
    omega

/-- The snapshot that a transaction takes shows the sources then pending (R55, R74). -/
theorem snapPending_new (v t : State) (h : t.hif.txn = some (Txn.new v)) : snapPending t = pendingSet v := by
  have hw : ∀ k < 64, (Txn.new v).snap.getD k 0 = regRead v k := fun k hk => by simp [Txn.new, hk]
  simp only [snapPending, h, hw 40 (by decide), hw 41 (by decide), hw 42 (by decide), hw 43 (by decide)]
  exact congrArg₂ (fun x y => x &&& ~~~y) (halves_joined v.evt.stat) (halves_joined v.evt.mask)

/-- What GETSTATUS sends and clears, by the snapshot x of its transaction, which shows the sources p pending. -/
theorem getstatus_snapshot (b : Ends) (s : State) (ho : busOpen s = true) (hb : bareTxn s = true) (hd : s.hif.dynAddr ≠ 0) (x : Txn)
    (p : BitVec 64) (hx : busTxn b (advance s.clk.hf s) = x) (hp : ∀ t : State, t.hif.txn = some x → snapPending t = p) :
    getstatus b s = { advance s.clk.hf s with hif := { cccHif b (advance s.clk.hf s) [true, true] with
      reply := [x.status, BitVec.ofNat 8 (32 * x.proto.toNat + min 15 (countOf p))]
      protoErr := (advance s.clk.hf s).hif.protoErr && !x.proto, patternSeen := false } } := by
  refine directCcc_set b hasAddress _ (fun h => { h with
    reply := [x.status, BitVec.ofNat 8 (32 * x.proto.toNat + min 15 (countOf p))], protoErr := h.protoErr && !x.proto, patternSeen := false })
    s ho hb (hasAddress_atBroadcast b s hd) (fun _ => rfl) (fun _ => rfl) (fun t ht => ?_)
  have ht' : t.hif.txn = some x := by rw [ht, ← hx]; rfl
  simp only [answer, statusBytes, snapStatus, snapProto, ht', hp t ht']

/-! ## ENEC and DISEC (R72, R75) -/

/-- What ENEC and DISEC set: requests on or off where the command names ENINT; none stands while they are off. -/
def ibiSet (enint on_ : Bool) (h : Hif) : Hif := { h with ibiEn := if enint then on_ else h.ibiEn, ibiReq := h.ibiReq && (on_ || !enint) }

/-- ENEC with ENINT. -/
theorem ibiSet_on (h : Hif) : ibiSet true true h = { h with ibiEn := true } := by simp [ibiSet]

/-- DISEC with ENINT. -/
theorem ibiSet_off (h : Hif) : ibiSet true false h = { h with ibiEn := false, ibiReq := false } := by simp [ibiSet]

/-- Either without it sets nothing. -/
theorem ibiSet_neither (on_ : Bool) (h : Hif) : ibiSet false on_ h = h := by simp [ibiSet]

/-- In broadcast form. -/
theorem setIbi_broadcast (enint on_ : Bool) (b : Ends) (s : State) (ho : busOpen s = true) (hb : bareTxn s = true) :
    setIbi ⟨none, enint⟩ on_ b s =
      { advance s.clk.hf s with hif := ibiSet enint on_ (cccHif b (advance s.clk.hf s) [true]) } :=
  broadcastCcc_set b (fun t => { t with hif := ibiSet enint on_ t.hif }) (ibiSet enint on_) s ho hb (fun _ => rfl) (fun _ => rfl)
    (fun _ _ => rfl)

/-- In direct form to this device. -/
theorem setIbi_direct (enint on_ : Bool) (b : Ends) (s : State) (ho : busOpen s = true) (hb : bareTxn s = true) (hd : s.hif.dynAddr ≠ 0) :
    setIbi ⟨some s.hif.dynAddr, enint⟩ on_ b s =
      { advance s.clk.hf s with hif := ibiSet enint on_ (cccHif b (advance s.clk.hf s) [true, true]) } :=
  directCcc_set b _ (fun t => { t with hif := ibiSet enint on_ t.hif }) (ibiSet enint on_) s ho hb (atDynamic_atBroadcast b s hd)
    (fun _ => rfl) (fun _ => rfl) (fun _ _ => rfl)

/-- Settles O17: each command sets its fields of the host port, or answers by the device or the snapshot. -/
theorem commonCommands : Obligations.CommonCommands := by
  unfold Obligations.CommonCommands
  rintro s ho hd hb u rfl b
  obtain ⟨-, -, hpid⟩ := address_atBroadcast b s.clk.hf s
  have hf : (advance s.clk.hf s).hif = s.hif := by simp
  have hread := fun bs v hv => directAnswer_bytes b bs v s ho hb hd hv
  have hall := fun enint on_ => setIbi_broadcast enint on_ b s ho hb
  have hone := fun enint on_ => setIbi_direct enint on_ b s ho hb hd
  refine ⟨⟨?_, ?_, ?_⟩, fun hn => ?own, fun hsr x hx => ?open_, ⟨?_, ?_⟩, ⟨?_, ?_⟩, ?_, ?_⟩
  · exact congrArg _ (hread pidBytes _ hpid)
  · exact congrArg _ (hread (fun _ => [bcr]) _ rfl)
  · exact congrArg _ (hread (fun _ => [dcr]) _ rfl)
  case own =>
    have hx : busTxn b (advance s.clk.hf s) = Txn.new (betweenTxns (advance s.clk.hf s)) := by
      rcases hn with hn | hn <;> simp [busTxn, hn]
    have hs := getstatus_snapshot b s ho hb hd _ (pendingSet s) hx fun t ht =>
      (snapPending_new _ t ht).trans (by simp [pendingSet, betweenTxns])
    have hq : (Txn.new (betweenTxns (advance s.clk.hf s))).proto = (advance s.clk.hf s).hif.protoErr := rfl
    rw [hq, Bool.and_not_self, hf] at hs
    exact congrArg _ hs
  case open_ =>
    have hx' : busTxn b (advance s.clk.hf s) = x := by simp [busTxn, hsr, hx]
    have hs := getstatus_snapshot b s ho hb hd x (snapPending s) hx' fun t ht => by simp only [snapPending, ht, hx]
    rw [hf] at hs
    exact congrArg _ hs
  · exact congrArg _ ((hall true true).trans (by rw [ibiSet_on]))
  · exact congrArg _ ((hone true true).trans (by rw [ibiSet_on]))
  · exact congrArg _ ((hall true false).trans (by rw [ibiSet_off]))
  · exact congrArg _ ((hone true false).trans (by rw [ibiSet_off]))
  · exact congrArg _ ((hall false true).trans (by rw [ibiSet_neither]))
  · exact congrArg _ ((hall false false).trans (by rw [ibiSet_neither]))

/-! ## Bus control (R72, R74, R76) -/

/-- RSTACT with another action than 0x00 and 0x01 is ignored (R76). -/
theorem armAction_ignored (d : Byte) (t : State) (h0 : d ≠ 0) (h1 : d ≠ 1) : armAction false d t = t := by
  rw [armAction, if_neg (not_or.mpr ⟨h0, h1⟩), if_neg Bool.false_ne_true]

/-- In direct form it is not acknowledged (R72). -/
theorem armAction_refused (d : Byte) (t : State) (h0 : d ≠ 0) (h1 : d ≠ 1) : armAction true d t = unacknowledged t := by
  rw [armAction, if_neg (not_or.mpr ⟨h0, h1⟩), if_pos rfl]

/-- Where a direct command to this device is not acknowledged, the protocol-error flag is set (R74). -/
theorem directCcc_unacknowledged (b : Ends) (c : State → Bool) (f : State → State) (s : State) (ho : busOpen s = true)
    (hb : bareTxn s = true) (hc : c (atBroadcast b (advance s.clk.hf s)) = true) (hf : ∀ t, f t = unacknowledged t) :
    directCcc b c f s =
      { advance s.clk.hf s with hif := { cccHif b (advance s.clk.hf s) [true, false] with protoErr := true } } :=
  directCcc_set b c f (fun h => { h with protoErr := true, acks := [true, false] }) s ho hb hc (fun t => by rw [hf]; rfl) (fun _ => rfl)
    (fun t _ => by rw [hf]; rfl)

/-- Not heard, a transfer on the bus does nothing (R72). -/
theorem onBus_unheard (x : Xfer) (f : State → State) (s : State) (h : s.hif.hdr = true) : onBus x f s = s := by
  simp [onBus, busOpen, h]

/-- Nor does a common command. -/
theorem broadcastCcc_unheard (b : Ends) (f : State → State) (s : State) (h : s.hif.hdr = true) : broadcastCcc b f s = s := by
  rw [broadcastCcc, onCcc, onBus_unheard _ _ s h]

/-- Nor does a committed write. -/
theorem ownTxn_unheard (a : Nat) (f : State → State) (s : State) (hi : s.hif.i3c = true) (h : s.hif.hdr = true) : ownTxn a f s = s := by
  simp [ownTxn, portHears, hi, h]

/-- Settles O18: each command sets its fields of the host port; in HDR mode the port hears nothing. -/
theorem busControl : Obligations.BusControl := by
  unfold Obligations.BusControl
  refine ⟨?commands, fun s hp hi hb hh => ?exit, fun s hi hx => ?ignored⟩
  case commands =>
    rintro s ho hb u rfl b
    have hset := fun f g hx hg hf => broadcastCcc_set b f g s ho hb hx hg hf
    refine ⟨⟨?_, ?_⟩, fun d h0 h1 => ?_, fun hd => ⟨fun d h0 h1 => ?_, ?_, ?_⟩, ?_⟩
    · exact congrArg _ (hset (armAction false 0) (fun h => { h with armSoft := false }) (fun _ => rfl) (fun _ => rfl) (fun _ _ => rfl))
    · exact congrArg _ (hset (armAction false 1) (fun h => { h with armSoft := true }) (fun _ => rfl) (fun _ => rfl) (fun _ _ => rfl))
    · exact congrArg _ (hset (armAction false d) id (fun t => by rw [armAction_ignored d t h0 h1]) (fun _ => rfl)
        (fun t _ => armAction_ignored d t h0 h1))
    · exact congrArg _ (directCcc_unacknowledged b _ (armAction true d) s ho hb (atDynamic_atBroadcast b s hd)
        (fun t => armAction_refused d t h0 h1))
    · exact congrArg _ (directCcc_set b _ (armAction true 1) (fun h => { h with armSoft := true }) s ho hb
        (atDynamic_atBroadcast b s hd) (fun _ => rfl) (fun _ => rfl) (fun _ _ => rfl))
    · exact congrArg _ (directCcc_unacknowledged b _ unacknowledged s ho hb (hasAddress_atBroadcast b s hd) (fun _ => rfl))
    · exact congrArg _ (hset (fun u => { u with hif := { u.hif with hdr := true } }) (fun h => { h with hdr := true })
        (fun _ => rfl) (fun _ => rfl) (fun _ _ => rfl))
  case exit =>
    change Host.Outcome.next (hdrExit s) = _
    rw [hdrExit, hp, hi, Bool.and_true, Bool.not_true, if_neg Bool.false_ne_true]
    exact congrArg _ (closeTxn_of_bareTxn _ hb hh)
  case ignored =>
    have hn : portHears s = false := by simp [portHears, hi, hx]
    refine ⟨?_, fun d b => ?_, fun w => ?_, fun dev bytes c stop n => ?_, fun a data n => ?_⟩
    · change Host.Outcome.next (hifResetRow s) = _
      rw [hifResetRow, hn, if_neg Bool.false_ne_true]
    · exact congrArg _ (broadcastCcc_unheard b (arbitrate d) s hx)
    · exact congrArg _ (ownTxn_unheard _ _ s hi hx)
    · change Host.Outcome.next (i3cWrite dev bytes c.parityOk ⟨false, stop, c.cut, n⟩ s) = _
      rw [i3cWrite, onBus_unheard _ _ s hx]
    · exact congrArg _ (ownTxn_unheard _ _ (advance n s) (by simpa using hi) (by simpa using hx))

/-! ## The in-band interrupt (R75, R259) -/

/-- The idle kticks of the bus beyond which the device may drive SDA: one, or 32 after a NACK (R75, R259). -/
def idleKticks (s : State) : Nat := if s.hif.nacked then 32 else 1

/-- Where a request begins, in the three states of the bus (R55, R75, R259). -/
structure RequestBegins (s t : State) : Prop where
  inHeader : s.hif.header = true → t = { s with hif := { s.hif with ibiReq := true } }
  onIdleBus : s.hif.header = false → s.hif.txn = none → idleKticks s < s.hif.busIdle →
    t = { s with hif := { s.hif with ibiReq := true, busIdle := 0, txn := some (Txn.new (betweenTxns s)) } }
  notYet : s.hif.header = false → (s.hif.txn ≠ none ∨ s.hif.busIdle ≤ idleKticks s) → t = s

/-- A request that is called for begins where the bus lets it. -/
theorem requestBegins_if (s : State) : RequestBegins s (if ibiWay s then ibiBegin s else s) where
  inHeader h := by simp [ibiWay, ibiBegin, h]
  onIdleBus h hx hi := by
    have hw : ibiWay s = true := by simpa [ibiWay, idleFor, h, hx, idleKticks] using hi
    have hs : (if s.hif.header = true then s else beginXfer false s) =
        { s with hif := { s.hif with busIdle := 0, txn := some (Txn.new (betweenTxns s)) } } := by
      rw [h, if_neg Bool.false_ne_true, beginXfer, Bool.false_and, if_neg Bool.false_ne_true, closeTxn_none s hx, new_betweenTxns]
      simp only [openTxn, h]
    rw [if_pos hw, ibiBegin, hs]
  notYet h hn := by
    have hw : ibiWay s = false := by
      cases hx : s.hif.txn with
      | some x => simp [ibiWay, idleFor, h, hx]
      | none =>
        have hi : s.hif.busIdle ≤ idleKticks s := by simpa [hx] using hn
        simpa [ibiWay, idleFor, h, hx, idleKticks] using hi
    rw [hw, if_neg Bool.false_ne_true]

/-- A request for a new source, or as the reminder, where none stands. -/
theorem ibiRequest_called (s : State) (hb : busOpen s = true) (hr : s.hif.ibiReq = false) (hc : ibiCalled s = true) :
    ibiRequest s = if ibiWay s then ibiBegin s else s := by
  simp [ibiRequest, hb, hr, hc]

/-- The reminder, 32 768 kticks after the last ACK (R259). -/
theorem ibiReminder_due (s : State) (hb : busOpen s = true) (hr : s.hif.ibiReq = false)
    (hd : (ibiEnabled s && pendingSet s != 0 && s.hif.sinceAck == some 32768) = true) :
    ibiReminder s = if ibiWay s then ibiBegin s else s := by
  simp only [Bool.and_eq_true, beq_iff_eq] at hd
  obtain ⟨⟨he, hp⟩, hk⟩ := hd
  have hdue : reminderDue s = true := by rw [reminderDue, he, hp, hk]; rfl
  simp [ibiReminder, hb, hr, hdue]

/-- A request that is over, with the STOP that ends its transaction or the repeated START that goes on with it (R55). -/
theorem ibiOver_bare (stop : Bool) (t : State) (h : stop = true → bareTxn t = true) :
    ibiOver stop t = { t with hif := { t.hif with
      ibiReq := false, header := false, busIdle := 0, txn := if stop = true then none else t.hif.txn } } := by
  cases stop with
  | false => rfl
  | true => exact closeTxn_of_bareTxn _ (h rfl) (fun _ => rfl)

/-- Settles O20: a request begins where the bus lets it; an ACK and a NACK are what they set, and the end of the request. -/
theorem inBandInterrupt : Obligations.InBandInterrupt := by
  unfold Obligations.InBandInterrupt
  refine fun s hb => ⟨fun hr i hi hc => ?request, fun hr stop hst => ⟨fun hc => ?ack, ?nack⟩⟩
  case request =>
    have hw := requestBegins_if s
    have he : exec i.2 s = .next (if ibiWay s then ibiBegin s else s) := by
      simp only [List.mem_cons, List.not_mem_nil, or_false] at hi
      rcases hi with rfl | rfl
      · exact congrArg _ (ibiRequest_called s hb hr hc)
      · exact congrArg _ (ibiReminder_due s hb hr hc)
    rw [he]
    exact ⟨fun h => congrArg _ (hw.inHeader h), fun h hx hk => congrArg _ (hw.onIdleBus h hx hk), fun h hn => congrArg _ (hw.notYet h hn)⟩
  case ack =>
    change Host.Outcome.next (ibiAck stop s) = _
    rw [ibiAck, hb, hr, hc, Bool.and_true, Bool.and_true, if_pos rfl]
    exact congrArg _ (ibiOver_bare stop _ hst)
  case nack =>
    change Host.Outcome.next (ibiNack stop s) = _
    rw [ibiNack, hb, hr, Bool.and_true, if_pos rfl]
    exact congrArg _ (ibiOver_bare stop _ hst)

end Sys2Proof.Machine
end

section
/-! SUPPORT. A committed write of an output-format entry at the start qtick of a 129th carriage (R234). -/

namespace Sys2Proof.Machine

/-- An AOUT_SET at the first qtick of its frame (Table 10.2). -/
def setsAout : Carriage :=
  { start := 0, dur := 16, op := oAoutSet, ch := 0, res := 8, needA := none, needB := none, arg := 0, aux := 0 }

/-- What its start read: the first entry, with OUT_STAT.held 1. -/
def firstEntryRead : FmtRead :=
  { addr := 0x7640, val := { v := 0, stamp := ⟨0, 0, false⟩, flags := 0 }, old := [], was := true }

/-- It runs: it has read the first entry, and what it found of OUT_STAT.held at its start is 1. -/
def lastSets : CarRun :=
  { CarRun.fresh with state := .running, fmt := some firstEntryRead }

/-- A frame of 129 AOUT_SETs of which only the last runs. An image holds 128 carriages at most (Table 10.1), and so no image gives it. -/
def crowdedFrame : Frame :=
  { img := { secTick := false, sync := false, freeRun := false, body := 48, lead := 0, cars := List.replicate 129 setsAout }
    tableB := false, t0 := 0, stamp := ⟨0, 0, false⟩, code := 0, delay := 0, lateStart := false, coincident := false, queued := false
    runs := List.replicate 128 CarRun.fresh ++ [lastSets]
    vers := [], vals := [], raws := [], late := [], revA := false, revB := false, cut := false, slow := false, markFail := none
    nFailed := 0, qtick := 0, syncAt := none, seals := [] }

/-- The part after its main start, in that frame, with OUT_STAT.held 0. -/
def crowded : State :=
  { State.reset with sys := { Sys.reset with phase := .ready }, tt := { Tt.reset with frame := some crowdedFrame } }

/-- What operations that change nothing do one after another. -/
theorem forAll_id {α : Type} (l : List α) (f : α → State → State) (s : State) (h : ∀ a ∈ l, f a s = s) : forAll l f s = s := by
  induction l with
  | nil => rfl
  | cons a r ih =>
    have e : forAll (a :: r) f s = forAll r f (f a s) := rfl
    rw [e, h a List.mem_cons_self, ih fun b hb => h b (List.mem_cons_of_mem a hb)]

/-- An AOUT_SET holds or sets a code, by whatever it reads: what is held stays held (R268, R271). -/
theorem aoutBy_held (i n : Nat) (x : FmtRead) (s : State) (h : s.out.held = true) : (aoutBy i n x s).out.held = true := by
  unfold aoutBy aoutSet placeFmt
  repeat' split
  all_goals simp [h]

/-- An AOUT_SET that reads its entry anew, and whose start found OUT_STAT.held 1, leaves it 1 (R234). -/
theorem rereadBy_held (before : List Host.Cell) (i : Nat) (f : Frame) (c : Carriage) (r : CarRun) (x y : FmtRead) (s : State)
    (hc : c.op = oAoutSet) (hw : x.was = true) : (rereadBy before i f c r x y s).out.held = true := by
  have hne : oAoutSet ≠ oEmit := by decide
  rw [rereadBy, deliverBy, if_pos hc, if_neg (hc ▸ hne), if_pos hc]
  exact aoutBy_held _ _ _ _ hw

/-- A run that reads no entry is not concerned (R234). -/
theorem raceFormat_noRead (before : List Host.Cell) (i : Nat) (s : State) (f : Frame) (hf : s.tt.frame = some f)
    (hr : (runAt f i).fmt = none) : raceFormat before i s = s := by
  simp [raceFormat, hf, hr]

/-- An AOUT_SET whose entry changes within its start qtick reads it anew, whichever words it had read (R234, log entry 75). -/
theorem raceFormat_held (before : List Host.Cell) (i : Nat) (s : State) (f : Frame) (x : FmtRead) (hf : s.tt.frame = some f)
    (hr : (runAt f i).fmt = some x) (hs : (runAt f i).state = .running) (hc : (carAt f.img.cars i).op = oAoutSet) (hw : x.was = true)
    (hlo : f.at (carAt f.img.cars i).start ≤ s.clk.hf) (hhi : s.clk.hf < f.at (carAt f.img.cars i).start + 8)
    (hch : ((wordsChanged x.addr 16 before s.mem).flatMap (wordCells before)).isEmpty = false) :
    (raceFormat before i s).out.held = true := by
  simp only [raceFormat, hf, hr, hs, hc, hlo, hhi, hch]
  exact rereadBy_held _ _ _ _ _ _ _ _ hc hw

/-- Operations over a range end with that at its last place. -/
theorem forAll_range_succ (n : Nat) (f : Nat → State → State) (s : State) :
    forAll (List.range (n + 1)) f s = f n (forAll (List.range n) f s) := by
  rw [forAll, List.range_succ, List.foldl_append]
  rfl

/-- Where of the carriages only the last, an AOUT_SET, has read an entry, and reads it anew, it leaves OUT_STAT.held 1. -/
theorem raceFormats_held (before : List Host.Cell) (k : Nat) (s : State) (f : Frame) (hf : s.tt.frame = some f)
    (hk : f.runs.length = k + 1) (hfirst : ∀ i < k, (runAt f i).fmt = none) (hlast : (raceFormat before k s).out.held = true) :
    (raceFormats before s).out.held = true := by
  have hid : forAll (List.range k) (raceFormat before) s = s :=
    forAll_id _ _ _ fun i hi => raceFormat_noRead _ i _ f hf (hfirst i (List.mem_range.mp hi))
  have hall : (forAll (List.range f.runs.length) (raceFormat before) s).out.held = true := by rwa [hk, forAll_range_succ, hid]
  simp only [raceFormats, hf]
  split
  · exact hall
  · exact hall

/-- No run that a seven-bit index names has read an entry. -/
theorem runAt_crowdedFrame_first (i : Nat) (hi : i < 128) : (runAt crowdedFrame i).fmt = none := by
  have h : runAt crowdedFrame i = CarRun.fresh := by
    rw [runAt, crowdedFrame, List.getD_append _ _ _ _ (by rwa [List.length_replicate]), List.getD_replicate _ hi]
  rw [h]
  rfl

/-- The run behind them is the one that has. -/
theorem runAt_crowdedFrame_last : runAt crowdedFrame 128 = lastSets := by
  rw [runAt, crowdedFrame, List.getD_append_right _ _ _ _ (by rw [List.length_replicate]), List.length_replicate]
  rfl

/-- Its carriage. -/
theorem carAt_crowdedFrame_last : carAt crowdedFrame.img.cars 128 = setsAout :=
  List.getD_replicate _ (by decide)

/-- The first byte of the entry is stored in the transaction of its write. -/
def entryWritten : State := store 0x7640 [1] (openTxn crowded)

/-- Run 128 reads its entry anew. -/
theorem raceFormat_entryWritten : (raceFormat [] 128 entryWritten).out.held = true := by
  refine raceFormat_held [] 128 entryWritten crowdedFrame firstEntryRead rfl ?_ ?_ ?_ rfl ?_ ?_ (by decide)
  · rw [runAt_crowdedFrame_last]; rfl
  · rw [runAt_crowdedFrame_last]; rfl
  · rw [carAt_crowdedFrame_last]; rfl
  · rw [carAt_crowdedFrame_last]; decide
  · rw [carAt_crowdedFrame_last]; decide

/-- The commit of a byte of the first entry: it is stored, and the carriages that read the entry read it anew (R234). -/
theorem commit_entryByte (v : Byte) (s : State) (he : earlyTxn s = false) :
    commit [.byte 0x7640 v] s = raceFormats s.mem (store 0x7640 [v] s) := by
  have ht : forAll [.byte 0x7640 v] (commitItem false) s = store 0x7640 [v] s := rfl
  have hw : wordsIn false [.byte 0x7640 v] = [] := rfl
  have hf : [Item.byte 0x7640 v].any Item.inFormats = true := rfl
  have hs : [Item.byte 0x7640 v].any Item.inStore = false := rfl
  have hm : [Item.byte 0x7640 v].any Item.actsOnMeas = false := rfl
  rw [commit, he, hw, hf, hs, hm, commitEnd_nil, when_false, when_false, ht, when, if_pos rfl]

/-- A write transfer of that byte. -/
theorem writeBytes_entryByte (v : Byte) (s : State) (he : earlyTxn s = false) :
    writeBytes 0x7640 [v] s = raceFormats s.mem (store 0x7640 [v] s) := by
  have hx : extentErrs (0x7640 : BitVec 16).toNat [v].length = [] := rfl
  have hm : (xferAddrs (0x7640 : BitVec 16).toNat [v].length).any (fun x => !mapped x) = false := by
    rw [List.length_singleton]
    decide
  rw [← commit_entryByte v s he, writeBytes, hx, if_neg (not_not_intro rfl), hm, when_false]
  rfl

/-- The write of that byte leaves OUT_STAT.held 1. -/
theorem registerWrite_crowded : ∃ t, exec (.registerWrite 0x7640 [1] 0) crowded = .next t ∧ t.out.held = true := by
  refine ⟨closeTxn (raceFormats [] entryWritten), ?_, ?_⟩
  · have hp : portHears crowded = true := by decide
    have ha : advance 0 crowded = crowded := rfl
    have hb : ∀ a, busMoved a crowded = crowded := fun _ => rfl
    change Host.Outcome.next (hostBytes 0x7640 [1] (advance 0 crowded)) = _
    rw [ha, hostBytes, ownTxn, if_pos hp, closeTxn_none crowded rfl, hb]
    exact congrArg (fun t => Host.Outcome.next (closeTxn t)) (writeBytes_entryByte 1 (openTxn crowded) (earlyTxn_openTxn crowded))
  · simpa using raceFormats_held [] 128 entryWritten crowdedFrame rfl (by simp [crowdedFrame]) runAt_crowdedFrame_first
      raceFormat_entryWritten

/-- Refutes O11: the clause on output formats keeps the output where no run of a seven-bit index reads an entry, and asks nothing of a 129th
run, which reads it anew; the statement asks nothing of the number of runs. -/
theorem not_registerWriteBytes : ¬ Obligations.RegisterWriteBytes := by
  unfold Obligations.RegisterWriteBytes
  rintro ⟨-, h⟩
  obtain ⟨-, hfmt, -⟩ := h crowded 0x7640 [1] 0 (by decide) rfl _ rfl
  obtain ⟨t, ht, -, -, -, hkeep⟩ := hfmt (by decide) (by decide)
  obtain ⟨hout, -, -⟩ := hkeep fun i => .inl (runAt_crowdedFrame_first i.toNat i.isLt)
  obtain ⟨v, hv, hheld⟩ := registerWrite_crowded
  obtain rfl := Host.Outcome.next.inj (hv.symm.trans ht)
  rw [hout] at hheld
  exact absurd hheld (by decide)

end Sys2Proof.Machine
end

section
/-! SUPPORT. Committed writes of the time registers (R99 to R102, R104, R110 to R112): what each leaves pending, sets or rejects. -/

namespace Sys2Proof.Machine

/-! ## The open transaction -/

/-- The machine with a transaction open, or none. -/
def withTxn (x : Option Txn) (s : State) : State := { s with hif := { s.hif with txn := x } }

/-- A rejected time write neither reads nor notes anything in the transaction. -/
theorem calReject_withTxn (rej : Nat) (x : Option Txn) (s : State) : calReject rej (withTxn x s) = withTxn x (calReject rej s) := rfl

/-- What leaves the host interface as it was leaves it without a transaction. -/
theorem noTxn_of_hif {s t : State} (h : noTxn s) (e : t.hif = s.hif) : noTxn t := by rwa [noTxn, e]

/-- Before a committed write of its own no transaction is open. -/
theorem noTxn_moved (k : Nat) (z : State) (h : HostReady z) : noTxn (moved k z) := h.2.2

/-- The transaction of a write of RTC_SEC or RTC_LOCAL, which does not show the time it writes (R98). -/
def timedTxn (s : State) : Txn := { Txn.new s with timeSet := true }

/-- It ends without an effect of its own. -/
theorem bare_timedTxn (s : State) : (timedTxn s).bare := bare_new s

/-- A committed write of one register after the main start leaves what its register's effect leaves beside the transaction, where the
transaction ends without an effect of its own and nothing waits for the end of the commit sequence. -/
theorem hostWord_bare (k : Nat) (w : Word) (z u : State) (x : Txn) (h : HostReady z) (hk : k ∉ endWords) (hx : x.bare) (hn : noTxn u)
    (hu : regWrite k w (openTxn (moved k z)) = withTxn (some x) u) : hostWord k w z = u := by
  have ha : Item.actsOnMeas (.reg k w) = false := by simp only [endWords, List.mem_cons] at hk; simp [Item.actsOnMeas]; tauto
  rw [hostWord_ready k w z h, ha, when_false, commitEnd_plain k w _ hk, hu, closeTxn_bare _ x rfl hx]
  exact betweenTxns_of_noTxn u hn

/-! ## RTC_SEC, RTC_CTL, RTC_SHIFT and RTC_TRIM -/

/-- RTC_SEC written by the host (R100). -/
theorem exec_timeWrite (w : Word) (z : State) (h : HostReady z) : exec (.timeWrite w) z = .next (holdTime w (moved 11 z)) :=
  congrArg _ (hostWord_bare 11 w z (holdTime w (moved 11 z)) (timedTxn (moved 11 z)) h (by decide) (bare_timedTxn _)
    (noTxn_moved 11 z h) rfl)

/-- RTC_CTL.halt written 1 with the other fields as they are (R99). -/
theorem exec_rtcHalt (z : State) (h : HostReady z) :
    exec .rtcHalt z = .next (writeRtcCtl (z.rtc.ctl &&& 0xC ||| 1) (moved 13 z)) :=
  congrArg _ (hostWord_effect 13 _ z h (by decide) (noTxn_moved 13 z h) rfl)

/-- RTC_CTL.halt written 0 with the other fields as they are (R101). -/
theorem exec_rtcRelease (z : State) (h : HostReady z) :
    exec .rtcRelease z = .next (writeRtcCtl (z.rtc.ctl &&& 0xC) (moved 13 z)) :=
  congrArg _ (hostWord_effect 13 _ z h (by decide) (noTxn_moved 13 z h) rfl)

/-- RTC_CTL with its RW fields as they are and halt as given changes in its bit 0 alone. -/
theorem maskIn_rtcCtl (c : Word) :
    maskIn 0xD c (c &&& 0xC ||| 1) &&& ~~~((c &&& 0xC ||| 1) &&& 2) = c ||| 1 ∧
    maskIn 0xD c (c &&& 0xC) &&& ~~~(c &&& 0xC &&& 2) = c &&& ~~~1 := by
  have hm : ∀ i < 32, (0xD : Word).getLsbD i = ((0xC : Word).getLsbD i || (1 : Word).getLsbD i) ∧
      ((2 : Word).getLsbD i = true → (0xC : Word).getLsbD i = false ∧ (1 : Word).getLsbD i = false) ∧
      ((1 : Word).getLsbD i = true → (0xC : Word).getLsbD i = false) := by decide
  constructor <;> apply BitVec.eq_of_getLsbD_eq <;> intro i hi <;> obtain ⟨hD, h2, h1⟩ := hm i hi
  · simp only [maskIn, BitVec.getLsbD_or, BitVec.getLsbD_and, BitVec.getLsbD_not, hD]
    grind
  · simp only [maskIn, BitVec.getLsbD_or, BitVec.getLsbD_and, BitVec.getLsbD_not, hD]
    grind

/-- A write of RTC_SHIFT neither reads nor notes anything in the transaction. -/
theorem writeShift_withTxn (v : BitVec 16) (x : Option Txn) (s : State) : writeShift v (withTxn x s) = withTxn x (writeShift v s) := by
  rw [writeShift, writeShift, apply_ite (withTxn x)]
  rfl

/-- RTC_SHIFT written by the host (R102). -/
theorem exec_shiftWrite (v : BitVec 16) (z : State) (h : HostReady z) :
    exec (.shiftWrite v) z = .next (writeShift v (moved 14 z)) := by
  have hv : (v.setWidth 32).setWidth 16 = v := by simp
  refine congrArg _ (hostWord_bare 14 _ z _ _ h (by decide) (bare_new (moved 14 z)) ?_ ?_)
  · exact noTxn_of_hif (noTxn_moved 14 z h) (by simp [writeShift_frame])
  · change writeShift ((v.setWidth 32).setWidth 16) (withTxn _ (moved 14 z)) = _
    rw [hv, writeShift_withTxn]

/-- RTC_TRIM written by the host (R104). -/
theorem exec_trimWrite (v : BitVec 12) (z : State) (h : HostReady z) :
    exec (.trimWrite v) z = .next { moved 18 z with rtc := { (moved 18 z).rtc with trim := v } } := by
  have hv : (v.setWidth 32).setWidth 12 = v := by simp
  have he : regWrite 18 (v.setWidth 32) (moved 18 z) = { moved 18 z with rtc := { (moved 18 z).rtc with trim := v } } := by
    simp only [regWrite, hv]
  exact congrArg _ ((hostWord_effect 18 _ z h (by decide) (noTxn_moved 18 z h) rfl).trans he)

/-- Settles O3: each write is its register's effect; a shift written while halted is rejected whatever its value (log entry 39). -/
theorem shiftHaltTrim : Obligations.ShiftHaltTrim := by
  unfold Obligations.ShiftHaltTrim
  refine fun z h => ⟨?taken, ?rejected, ?halt, ?release, ?trim⟩
  case taken =>
    rintro s rfl v hv hh hs
    have hn : ¬(v = 0x8000 ∨ bitOf (moved 14 z).rtc.ctl 0 = true ∨ (!(moved 14 z).rtc.started) = true) := by
      rintro (h8 | h0 | hn)
      · exact hv h8
      · simp [hh] at h0
      · simp [hs] at hn
    rw [exec_shiftWrite v z h, writeShift, if_neg hn]
  case rejected =>
    rintro s rfl v hr
    rw [exec_shiftWrite v z h, writeShift, if_pos (by simpa using hr), calReject]
  case halt =>
    rintro s rfl
    rw [exec_rtcHalt z h, writeRtcCtl, show (moved 13 z).rtc.ctl = z.rtc.ctl from rfl, (maskIn_rtcCtl _).1]
  case release =>
    rintro s rfl
    rw [exec_rtcRelease z h, writeRtcCtl, show (moved 13 z).rtc.ctl = z.rtc.ctl from rfl, (maskIn_rtcCtl _).2]
  case trim =>
    rintro s rfl v
    exact exec_trimWrite v z h

/-! ## RTC_CAL0 and RTC_CAL1 (R110, R111) -/

/-- Both words of a pair are converted together; the conversion neither reads nor notes anything in the transaction. -/
theorem endCalendar_withTxn (a b : Word) (x : Option Txn) (s : State) :
    endCalendar (some a) (some b) (withTxn x s) = withTxn x (endCalendar (some a) (some b) s) := by
  simp only [endCalendar, show (withTxn x s).rtc = s.rtc from rfl]
  cases calendarSec a b (offsetOf s.rtc.offset) <;> rfl

/-- A transaction that wrote calendar words and noted nothing else ends with their conversion (R110). -/
theorem closeTxn_calendar (t : State) (x : Txn) (hx : t.hif.txn = some x) (hs : x.sent = []) (he : x.newErr = 0) (hr : x.rst = false) :
    closeTxn t = betweenTxns (endCalendar x.cal0 x.cal1 t) := by
  simp [closeTxn, hx, clearRc_fresh x _ hs, Txn.errRose, he, raiseIf_false, hr, betweenTxns]

/-- A calendar pair has no effect at the end of the commit sequence. -/
theorem commitEnd_calendar (c0 c1 : Word) (s : State) : commitEnd [(15, c0), (16, c1)] s = s := by
  simp [commitEnd, clockEnd, armChecks, wrote, lastWord]

/-- RTC_CAL0 and RTC_CAL1 written by the host in one transaction. -/
theorem exec_calendarWrite (c0 c1 : Word) (z : State) (h : HostReady z) :
    exec (.calendarWrite c0 c1) z = .next (endCalendar (some c0) (some c1) (moved 16 z)) := by
  obtain ⟨hp, hm, hx, -⟩ := id h
  have he : earlyTxn (openTxn (moved 16 z)) = false := by
    rw [earlyTxn_openTxn, show mainReady (moved 16 z) = true from hm, Bool.not_true]
  have hc : commit [.reg 15 c0, .reg 16 c1] (openTxn (moved 16 z)) =
      withTxn (some { Txn.new (moved 16 z) with cal0 := some c0, cal1 := some c1 }) (moved 16 z) := by
    rw [commit, he]
    exact commitEnd_calendar c0 c1 _
  have hb : hostItems [.reg 15 c0, .reg 16 c1] z = closeTxn (commit [.reg 15 c0, .reg 16 c1] (openTxn (moved 16 z))) := by
    rw [hostItems, ownTxn, if_pos hp, closeTxn_none z hx]
    rfl
  refine congrArg _ (hb.trans ?_)
  rw [hc, closeTxn_calendar _ _ rfl rfl rfl rfl, endCalendar_withTxn]
  have hf : (endCalendar (some c0) (some c1) (moved 16 z)).hif = (moved 16 z).hif := by simp
  exact betweenTxns_of_noTxn _ (noTxn_of_hif (noTxn_moved 16 z h) hf)

/-- Settles O1: what a time write leaves pending, and both outcomes of the conversion. -/
theorem timeAndCalendarWrites : Obligations.TimeAndCalendarWrites := by
  unfold Obligations.TimeAndCalendarWrites
  refine fun z h => ⟨?time, ?pair, ?rejected⟩
  case time =>
    rintro s rfl w
    exact exec_timeWrite w z h
  case pair =>
    rintro s rfl c0 c1 sec hc
    simp only [exec_calendarWrite c0 c1 z h, endCalendar, hc, holdTime]
  case rejected =>
    rintro s rfl c0 c1 rej hc
    simp only [exec_calendarWrite c0 c1 z h, endCalendar, hc, calReject]

/-! ## RTC_LOCAL (R112) -/

/-- Without a DST command RTC_LOCAL takes offset and dst as written. -/
theorem writeLocal_fields (w : Word) (s : State) (h8 : bitOf w 8 = false) (h9 : bitOf w 9 = false) :
    writeLocal w s = { s with rtc := { s.rtc with offset := BitVec.ofNat 7 (fld w 0 7), dst := bitOf w 7 } } := by
  simp only [writeLocal, h8, h9]

/-- The DST command one hour on. -/
theorem writeLocal_fwd (w : Word) (s : State) (h8 : bitOf w 8 = true) (h9 : bitOf w 9 = false) :
    writeLocal w s = if s.rtc.dst = false ∧ offsetOf s.rtc.offset ≤ 59 then
        { s with rtc := { s.rtc with offset := s.rtc.offset + 4, dst := true } }
      else calReject 5 s := by
  simp [writeLocal, h8, h9]

/-- The DST command one hour back. -/
theorem writeLocal_back (w : Word) (s : State) (h8 : bitOf w 8 = false) (h9 : bitOf w 9 = true) :
    writeLocal w s = if s.rtc.dst = true ∧ -60 ≤ offsetOf s.rtc.offset then
        { s with rtc := { s.rtc with offset := s.rtc.offset - 4, dst := false } }
      else calReject 5 s := by
  simp [writeLocal, h8, h9]

/-- Both DST commands at once are rejected. -/
theorem writeLocal_both (w : Word) (s : State) (h8 : bitOf w 8 = true) (h9 : bitOf w 9 = true) : writeLocal w s = calReject 5 s := by
  simp only [writeLocal, h8, h9]

/-- What a write of RTC_LOCAL sets or rejects neither reads nor notes anything in the transaction. -/
theorem writeLocal_withTxn (w : Word) (x : Option Txn) (s : State) : writeLocal w (withTxn x s) = withTxn x (writeLocal w s) := by
  cases h8 : bitOf w 8 <;> cases h9 : bitOf w 9
  case false.false =>
    rw [writeLocal_fields w _ h8 h9, writeLocal_fields w _ h8 h9]
    rfl
  case false.true =>
    rw [writeLocal_back w _ h8 h9, writeLocal_back w _ h8 h9, apply_ite (withTxn x)]
    rfl
  case true.false =>
    rw [writeLocal_fwd w _ h8 h9, writeLocal_fwd w _ h8 h9, apply_ite (withTxn x)]
    rfl
  case true.true => rw [writeLocal_both w _ h8 h9, writeLocal_both w _ h8 h9, calReject_withTxn]

/-- A committed write of RTC_LOCAL. -/
theorem hostWord_local (w : Word) (z : State) (h : HostReady z) : hostWord 17 w z = writeLocal w (moved 17 z) := by
  refine hostWord_bare 17 w z _ _ h (by decide) (bare_timedTxn (moved 17 z)) ?_ ?_
  · exact noTxn_of_hif (noTxn_moved 17 z h) (by simp [writeLocal_frame])
  · exact writeLocal_withTxn w (some (timedTxn (moved 17 z))) (moved 17 z)

/-- The fields of the word that LOCAL_OFFSET_WRITE writes: no DST command, the offset and dst given. -/
theorem localWord_fields (o : BitVec 7) (d : Bool) :
    bitOf (put 0 7 o.toNat ||| bit 7 d) 8 = false ∧ bitOf (put 0 7 o.toNat ||| bit 7 d) 9 = false ∧
    BitVec.ofNat 7 (fld (put 0 7 o.toNat ||| bit 7 d) 0 7) = o ∧ bitOf (put 0 7 o.toNat ||| bit 7 d) 7 = d := by
  simp only [bitOf, bit, BitVec.getLsbD_or, getLsbD_put]
  refine ⟨by simp, by simp, ?_, by cases d <;> simp⟩
  apply BitVec.eq_of_getLsbD_eq
  intro i hi
  rw [BitVec.getLsbD_ofNat, testBit_fld, BitVec.getLsbD_or, getLsbD_put, getLsbD_put]
  simp [hi, Nat.not_le.mpr hi, show i < 32 by omega, BitVec.testBit_toNat]

/-- LOCAL_OFFSET_WRITE sets offset and dst. -/
theorem exec_localOffsetWrite (o : BitVec 7) (d : Bool) (z : State) (h : HostReady z) :
    exec (.localOffsetWrite o d) z = .next { moved 17 z with rtc := { (moved 17 z).rtc with offset := o, dst := d } } := by
  obtain ⟨h8, h9, ho, hd⟩ := localWord_fields o d
  refine congrArg _ ((hostWord_local _ z h).trans ?_)
  rw [writeLocal_fields _ _ h8 h9, ho, hd]

/-- DST_FWD is a write of RTC_LOCAL with its command one hour on. -/
theorem exec_dstFwd (z : State) (h : HostReady z) : exec .dstFwd z = .next (writeLocal 0x100 (moved 17 z)) :=
  congrArg _ (hostWord_local _ z h)

/-- DST_BACK is a write of RTC_LOCAL with its command one hour back. -/
theorem exec_dstBack (z : State) (h : HostReady z) : exec .dstBack z = .next (writeLocal 0x200 (moved 17 z)) :=
  congrArg _ (hostWord_local _ z h)

/-! ## RTC_LOCAL written as bytes, at a moment -/

/-- The four bytes of a window word commit as that word (R57, R60). -/
theorem itemsOf_word (k : Nat) (hk : k < 64) (w : Word) : itemsOf (4 * k) [] (wordBytes w) = [.reg k w] := by
  have hw : bytesWord (wordBytes w) = w := leNat_wordBytes w
  have h0 : 4 * k % 65536 < 256 := by omega
  have h1 : (4 * k + 1) % 65536 < 256 := by omega
  have h2 : (4 * k + 1 + 1) % 65536 < 256 := by omega
  have h3 : (4 * k + 1 + 1 + 1) % 65536 < 256 := by omega
  have hd : (4 * k + 1 + 1 + 1) % 65536 / 4 = k := by omega
  simp only [wordBytes, leBytes] at hw ⊢
  simpa [itemsOf, h0, h1, h2, h3, hd] using hw

/-- A write transfer of one whole window word is a committed write of its register. -/
theorem hostBytes_word (k : Nat) (hk : k < 64) (w : Word) (z : State) : hostBytes (4 * k) (wordBytes w) z = hostWord k w z := by
  have ha : (BitVec.ofNat 16 (4 * k)).toNat = 4 * k := by rw [BitVec.toNat_ofNat]; omega
  have he : extentErrs (4 * k) (wordBytes w).length = [] := by
    have hp : partialWrite (4 * k) 4 = false := by simp [partialWrite]
    simp [extentErrs, wordBytes_length, hp]
  have hm : (xferAddrs (4 * k) (wordBytes w).length).any (fun x => !mapped x) = false := by
    rw [wordBytes_length, xferAddrs_register k hk]
    have hlt : 4 * k + 3 < 256 := by omega
    simp [regBytes, mapped]
    omega
  have hw : writeBytes (BitVec.ofNat 16 (4 * k)) (wordBytes w) = commit [.reg k w] := by
    funext s
    simp only [writeBytes, ha, he, hm, when_false, itemsOf_word k hk w]
    rfl
  rw [hostBytes, if_pos he, hw]
  rfl

/-- The running frame latches descriptors; the rest of the sequencer stands (R176). -/
theorem latchFrame_tt (n : Nat) (s : State) (x : Option Frame) : { (latchFrame n s).tt with frame := x } = { s.tt with frame := x } := by
  unfold latchFrame
  split
  · rfl
  · split
    · rfl
    · simp [applyStages_frame]

/-- The passing of time moves the HF counter on, and of the sequencer only what the frame latches. -/
theorem advance_clk_tt (n : Nat) (s : State) (c : Nat) (x : Option Frame) :
    { (advance n s).clk with hf := c } = { s.clk with hf := c } ∧ { (advance n s).tt with frame := x } = { s.tt with frame := x } := by
  unfold advance
  split
  · simp [discExcites_frame, dueBy_frame, latchFrame_frame, latchFrame_tt]
  · exact ⟨rfl, rfl⟩

/-- The passing of time to a moment (R176, R180, R268). -/
theorem besideMoment_advance (n : Nat) (s : State) : besideMoment s (advance n s) := by
  obtain ⟨hc, ht⟩ := advance_clk_tt n s s.clk.hf s.tt.frame
  rw [besideMoment, hc, ht]
  simp

/-- Settles O2: each outcome of a write of RTC_LOCAL, as a command of its own and as bytes. -/
theorem localTimeAndDaylightSaving : Obligations.LocalTimeAndDaylightSaving := by
  unfold Obligations.LocalTimeAndDaylightSaving
  refine fun z h => ⟨?fields, ?fwd, ?noFwd, ?back, ?noBack, ?both⟩
  case fields =>
    rintro s rfl o d
    exact exec_localOffsetWrite o d z h
  case fwd =>
    rintro s rfl hd ho
    rw [exec_dstFwd z h, writeLocal_fwd _ _ rfl rfl, if_pos ⟨hd, ho⟩]
  case noFwd =>
    rintro s rfl hr
    have hn := not_and_or.mpr (hr.imp ne_false_of_eq_true not_le.mpr)
    rw [exec_dstFwd z h, writeLocal_fwd _ _ rfl rfl, if_neg hn, calReject]
  case back =>
    rintro s rfl hd ho
    rw [exec_dstBack z h, writeLocal_back _ _ rfl rfl, if_pos ⟨hd, ho⟩]
  case noBack =>
    rintro s rfl hr
    have hn := not_and_or.mpr (hr.imp ne_true_of_eq_false not_le.mpr)
    rw [exec_dstBack z h, writeLocal_back _ _ rfl rfl, if_neg hn, calReject]
  case both =>
    rintro s rfl w n h8 h9
    have hr := hostReady_advance n z h
    have he : exec (.registerWrite 0x44 (leBytes 4 w.toNat) n) z = .next (calReject 5 (moved 17 (advance n z))) :=
      congrArg _ ((hostBytes_word 17 (by decide) w _).trans ((hostWord_local w _ hr).trans (writeLocal_both w _ h8 h9)))
    have hrtc : (advance n z).rtc = z.rtc := by simp
    have halm : (advance n z).alm = z.alm := by simp
    have hevt : (advance n z).evt = z.evt := by simp
    have hb : besideMoment (moved 17 z) (moved 17 (advance n z)) := congrArg (moved 17) (besideMoment_advance n z)
    refine ⟨_, he, ?_, raise_castling 15 _ (by decide), halm, ?_⟩
    · change { (advance n z).rtc with ctl := setFld (advance n z).rtc.ctl 8 3 5 } = { z.rtc with ctl := setFld z.rtc.ctl 8 3 5 }
      rw [hrtc]
    · have hu : { moved 17 (advance n z) with rtc := z.rtc, evt := z.evt } = moved 17 (advance n z) := by
        rw [← hrtc, ← hevt]
        rfl
      exact hu ▸ hb

end Sys2Proof.Machine
end

section
/-! SUPPORT. Committed writes of the alarm registers and the load of the countdown (R116, R125). -/

namespace Sys2Proof.Machine

/-- The machine with a commit check pending for each enabled alarm (R116). -/
def alarmsChecked (s : State) : State :=
  { s with alm := { s.alm with chk0 := s.alm.chk0 || bitOf s.alm.alctl 0, chk1 := s.alm.chk1 || bitOf s.alm.alctl 16 } }

/-- RTC_ALM0, RTC_ALM1 and RTC_ALCTL. -/
def alarmWords : List Nat := [19, 20, 21]

theorem mem_alarmWords {k : Nat} : k ∈ alarmWords ↔ k = 19 ∨ k = 20 ∨ k = 21 := by simp [alarmWords]

/-- The end of a commit sequence that wrote one of the alarm registers asks for the commit checks alone. -/
theorem commitEnd_alarm (k : Nat) (w : Word) (s : State) (hk : k ∈ alarmWords) : commitEnd [(k, w)] s = alarmsChecked s := by
  rcases mem_alarmWords.mp hk with rfl | rfl | rfl <;> simp [commitEnd, clockEnd, armChecks, wrote, lastWord, alarmsChecked]

/-- A write of an alarm register neither reads nor notes anything in the transaction. -/
theorem regWrite_alarm_withTxn (k : Nat) (w : Word) (x : Option Txn) (s : State) (hk : k ∈ alarmWords) :
    regWrite k w (withTxn x s) = withTxn x (regWrite k w s) := by
  rcases mem_alarmWords.mp hk with rfl | rfl | rfl <;> rfl

/-- It changes the registers of the alarms alone. -/
theorem regWrite_alarm_hif (k : Nat) (w : Word) (s : State) (hk : k ∈ alarmWords) : (regWrite k w s).hif = s.hif := by
  rcases mem_alarmWords.mp hk with rfl | rfl | rfl <;> rfl

/-- A committed write of an alarm register is its register's effect, with the commit checks that follow it. -/
theorem hostWord_alarm (k : Nat) (w : Word) (z : State) (h : HostReady z) (hk : k ∈ alarmWords) :
    hostWord k w z = alarmsChecked (regWrite k w (moved k z)) := by
  have ha : Item.actsOnMeas (.reg k w) = false := by rcases mem_alarmWords.mp hk with rfl | rfl | rfl <;> rfl
  have hn : noTxn (alarmsChecked (regWrite k w (moved k z))) := noTxn_of_hif (noTxn_moved k z h) (regWrite_alarm_hif k w _ hk)
  rw [hostWord_ready k w z h, ha, when_false, commitEnd_alarm k w _ hk,
    show openTxn (moved k z) = withTxn (some (Txn.new (moved k z))) (moved k z) from rfl, regWrite_alarm_withTxn k w _ _ hk,
    closeTxn_bare _ _ rfl (bare_new (moved k z))]
  exact betweenTxns_of_noTxn _ hn

/-- The enable bits of RTC_ALCTL are as written. -/
theorem enables_maskIn (c w : Word) : bitOf (maskIn 0x1FFF1FFF c w) 0 = bitOf w 0 ∧ bitOf (maskIn 0x1FFF1FFF c w) 16 = bitOf w 16 := by
  simp [bitOf, maskIn]

/-- COUNTDOWN_LOAD holds its value for the next edge (R125). -/
theorem exec_countdownLoad (v : BitVec 24) (z : State) (h : HostReady z) :
    exec (.countdownLoad v) z = .next { moved 22 z with alm := { (moved 22 z).alm with loadPend := some v } } := by
  have hv : (v.setWidth 32).setWidth 24 = v := by simp
  have he : regWrite 22 (v.setWidth 32) (moved 22 z) = { moved 22 z with alm := { (moved 22 z).alm with loadPend := some v } } := by
    simp only [regWrite, hv]
  exact congrArg _ ((hostWord_effect 22 _ z h (by decide) (noTxn_moved 22 z h) rfl).trans he)

/-- Settles O4: an alarm register takes its bits and asks for the commit checks; the load of the countdown is held. -/
theorem alarmWrites : Obligations.AlarmWrites := by
  unfold Obligations.AlarmWrites
  refine fun z h => ⟨?alarm0, ?alarm1, ?control, ?load⟩
  case alarm0 =>
    rintro s rfl w
    exact congrArg _ (hostWord_alarm 19 w z h (by decide))
  case alarm1 =>
    rintro s rfl w
    exact congrArg _ (hostWord_alarm 20 w z h (by decide))
  case control =>
    rintro s rfl w
    obtain ⟨h0, h1⟩ := enables_maskIn (moved 21 z).alm.alctl w
    rw [← h0, ← h1]
    exact congrArg _ (hostWord_alarm 21 w z h (by decide))
  case load =>
    rintro s rfl v
    exact exec_countdownLoad v z h

end Sys2Proof.Machine
end

section
/-! SUPPORT. A frame trigger at an edge (R120, R125) that finds the HF clock parked, MEAS not on the bypass clock, and the active plan invalid
on its reference (R130). -/

namespace Sys2Proof.Machine

/-- HF parked with REFIN selected, off the bypass clock; the active plan, of mult 0 and fref 0, is invalid. The sequencer is enabled with an
active table, and nothing but what `a` lets fire registers at the coming edge, the one after the prescaler `presc`. -/
def parkedOnInvalidPlan (presc : BitVec 15) (a : Alm) : State :=
  { State.reset with
    pins := { Pins.reset with vbat := 1500 }
    sys := { Sys.reset with phase := .ready, x32Run := true, cfgDone := true }
    rtc := { Rtc.reset with started := true, ctl := 0, winEdge := 5, presc := presc }
    alm := a
    clk := { Clk.reset with src := 1, state := .parked, ref := .refin, bypass := false, plans := [⟨0, 0, false⟩] }
    tt := { Tt.reset with
      ctl := 1, activeValid := true
      instA := some { secTick := false, sync := false, freeRun := false, body := 0, lead := 0, cars := [] } } }

/-- Alarm 0, enabled with its frame action, is due at the coming edge. -/
def frameAlarmDue : State := parkedOnInvalidPlan 0x7FFF { Alm.reset with alm0 := 1, alctl := 0x11 }

/-- The countdown, enabled with act_frame, steps to zero at the coming edge. -/
def frameCountdownDue : State := parkedOnInvalidPlan 7 { Alm.reset with count := 1, cdctl := 0x11 }

/-- The edge of the firing. -/
def firingEdge : Edge := ⟨1000, 0⟩

/-- The acquisition that the alarm's trigger starts fails at once (R130, R131), so that the frame awaited is dropped and its trigger reported
(R142, R203): the record of source 46 follows the alarm's own in the event log. -/
theorem frameAlarmDue_twoRecords :
    (ktickIf (fun u => u.sys.x32Run && (almFires (nextTick firingEdge u).1 (nextTick firingEdge u).2 false).isSome)
      firingEdge frameAlarmDue).evin.seq = frameAlarmDue.evin.seq + 2 := by
  decide +kernel

/-- So does that of the countdown's trigger. -/
theorem frameCountdownDue_twoRecords :
    (ktickIf (fun u => u.sys.x32Run && (cdEdge (nextTick firingEdge u).1 u.alm).2.1) firingEdge frameCountdownDue).evin.seq =
      frameCountdownDue.evin.seq + 2 := by
  decide +kernel

/-- Refutes O53: off the bypass clock the clause on the record has a firing with the frame action write one record of the event log, where
its trigger, on a plan that is not valid, writes one of source 46 behind it; the clause on the awaited frame asks for a valid plan, this one
does not. -/
theorem not_alarmsAtAnEdge : ¬ Obligations.AlarmsAtAnEdge := by
  unfold Obligations.AlarmsAtAnEdge
  intro h
  obtain ⟨-, -, -, hup⟩ := h frameAlarmDue firingEdge false rfl rfl (by decide) rfl (by decide) (by decide)
  obtain ⟨hfire, -⟩ := hup (by decide) (by decide) rfl (by decide) (by decide) (by decide) (by decide) (by decide)
  obtain ⟨t, ht, hlog, -⟩ := hfire (by decide)
  obtain ⟨hseq, -⟩ := hlog (.inr rfl)
  have he := Host.Outcome.next.inj (show Host.Outcome.next (ktickIf _ firingEdge frameAlarmDue) = _ from ht)
  rw [← he, frameAlarmDue_twoRecords] at hseq
  exact absurd hseq (by decide)

/-- Refutes O54: the clause on the record of a zero with act_frame asks for no valid plan either, and the trigger's record of source 46
follows that of the zero. -/
theorem not_countdownAndTtStart : ¬ Obligations.CountdownAndTtStart := by
  unfold Obligations.CountdownAndTtStart
  intro h
  obtain ⟨hcount, -⟩ := h frameCountdownDue firingEdge rfl rfl (by decide) rfl (by decide)
  obtain ⟨-, hzero⟩ := hcount rfl (by decide) (by decide) (by decide) (by decide)
  obtain ⟨t, ht, -, -, -, -, hup⟩ := hzero rfl
  obtain ⟨hlog, -⟩ := hup (by decide) (by decide) rfl (by decide) (by decide) (by decide) (by decide) (by decide)
  obtain ⟨hseq, -⟩ := hlog (.inr rfl)
  have he := Host.Outcome.next.inj (show Host.Outcome.next (ktickIf _ firingEdge frameCountdownDue) = _ from ht)
  rw [← he, frameCountdownDue_twoRecords] at hseq
  exact absurd hseq (by decide)

end Sys2Proof.Machine
end

section
/-! SUPPORT. A drift window that closes with nothing left to do (R138, R199). -/

namespace Sys2Proof.Machine

/-- HF locked on REFIN, no drift limit set, and nothing that keeps the device in RUN but a drift window whose 1024th period has ended (R138). -/
def lastDriftWindow : State :=
  { State.reset with
    pins := { Pins.reset with vbat := 1500 }
    sys := { Sys.reset with phase := .ready, x32Run := true, cfgDone := true }
    clk := { Clk.reset with src := 1, state := .locked, ref := .refin, bypass := false, limits := 0, periods := 1024, winQ := 12500000 } }

/-- Its close leaves nothing that keeps the device in RUN, and the MDLL is parked (R136, R199). -/
theorem lastDriftWindow_parks : (settle (driftWindowClose 12500000 0 lastDriftWindow)).clk.state = .parked := by decide +kernel

/-- Refutes O56: the clause on a drift window without a fail limit has HF locked behind its close, where the device, which nothing else kept
in RUN, goes to rest with the MDLL parked. -/
theorem not_lockAndDrift : ¬ Obligations.LockAndDrift := by
  unfold Obligations.LockAndDrift
  intro h
  obtain ⟨-, -, -, -, hdrift, -⟩ := h lastDriftWindow 0 ⟨0, false⟩ rfl rfl
  obtain ⟨t, ht, -, -, -, hlocked, -⟩ := hdrift 12500000 rfl rfl (by decide) rfl rfl _ rfl
  obtain ⟨hstate, -⟩ := hlocked rfl rfl
  have he := Host.Outcome.next.inj
    (show Host.Outcome.next (settle (driftWindowClose 12500000 0 lastDriftWindow)) = _ from ht)
  rw [← he, lastDriftWindow_parks] at hstate
  cases hstate

end Sys2Proof.Machine
end

section
/-! SUPPORT. A write of EVT_INCFG that makes a first comparison at the qtick of a snapshot instant whose record is being written (R238, R280). -/

namespace Sys2Proof.Machine

/-- The occasion of a CHECKPOINT (R283). -/
def checkpointReq : LdgReq := { LdgReq.none with ckpt := true }

/-- Its record, of kind 1 (Table 15.2). -/
def checkpointRec : LdgRec :=
  { stamp := ⟨0, 0, false⟩, seq := 0, kind := checkpointReq.kind, flags := checkpointReq.flags false false, lap := 0
    run := List.replicate 8 0, cnt := List.replicate 8 0, refused := 0, ivlStart := 0, srcSeq := 0, wfail := 0, cause := 0 }

/-- HF locked with its counter at 1010. The ledger took a checkpoint at the qtick 1008, and the first page of its record is being written. EV1,
whose first entry asks for a lap, was enabled with its pin high, and its first comparison, due at the same qtick, is still to be made. -/
def comparedAtCheckpoint : State :=
  { State.reset with
    pins := { Pins.reset with vbat := 1500, ev := 1 }
    sys := { Sys.reset with phase := .ready, x32Run := true, cfgDone := true }
    clk := { Clk.reset with src := 1, state := .locked, ref := .refin, bypass := false, hf := 1010 }
    evin := { Evin.reset with incfg := 0x01000000, fresh := 1, cmpAt := some 1008 }
    ldg := { Ldg.reset with
      ctl := 1, seq := 1, inst := some { qtick := 1008, req := checkpointReq, seq := 0 }
      job := some { snap := checkpointRec, pages := 0, bad := false, cmds := [] } }
    nv := { Nv.reset with op := some (opWrite true 16 0x5A 0 (recPage0 checkpointRec)) }
    mem := memStore [] 0x7500 [0x40] }

/-- The comparison is made before EVT_INCFG takes its value (R238); its lap joins the instant of its qtick, and the page in hand takes the
record's new kind (R280). -/
theorem comparedAtCheckpoint_rewrites : (hostWord 44 0 comparedAtCheckpoint).nv ≠ comparedAtCheckpoint.nv := by decide +kernel

/-- Refutes O9: the clause on EVT_INCFG has the array as before, its page operation in progress among it, where the change that the write finds
asks for a lap, and that lap rewrites the page of the ledger's record in hand. -/
theorem not_frontEndWrites : ¬ Obligations.FrontEndWrites := by
  unfold Obligations.FrontEndWrites
  intro h
  obtain ⟨-, -, hincfg⟩ := h comparedAtCheckpoint (by decide)
  obtain ⟨t, ht, -, -, -, -, -, hnv, -⟩ := hincfg _ rfl 0
  have he := Host.Outcome.next.inj (show Host.Outcome.next (hostWord 44 0 comparedAtCheckpoint) = _ from ht)
  rw [← he] at hnv
  exact comparedAtCheckpoint_rewrites hnv

end Sys2Proof.Machine
end

section
/-! SUPPORT. A cut of the frame on the bypass clock, which leaves the clock as it is and the sequencer halted (R134, R142). -/

namespace Sys2Proof.Machine

/-- A switch at a frame boundary resumes no halted sequencer. -/
theorem applySwitch_halted (s : State) : (applySwitch s).tt.halted = s.tt.halted := by
  simp only [applySwitch]
  repeat' split
  all_goals simp

theorem closeFrame_halted (f : Frame) (s : State) : (closeFrame f s).tt.halted = s.tt.halted := by
  simp [closeFrame, applySwitch_halted, releasePairs_frame, withdrawPresettles_frame, markFailRecord_frame]

theorem followUp_halted (f : Frame) (n : Nat) (s : State) : (followUp f n s).tt.halted = s.tt.halted := by
  simp only [followUp]
  repeat' split
  all_goals simp [lateTrigger_frame]

theorem dropAwait_halted (s : State) : (dropAwait s).tt.halted = s.tt.halted := by
  unfold dropAwait
  split <;> simp [lateTrigger_frame]

theorem dropQueued_halted (s : State) : (dropQueued s).tt.halted = s.tt.halted := by
  unfold dropQueued
  split <;> simp [lateTrigger_frame]

/-- On the bypass clock no trigger of a group reaches the sequencer: each is ignored or reported (R142, R197). -/
theorem deliver_onBypass (gs : List Trig) (m : Moment) (s : State) (hb : s.clk.bypass = true) :
    (deliver gs m s).clk = s.clk ∧ (deliver gs m s).tt = s.tt := by
  have hf : fateOf m gs s = .ignored ∨ fateOf m gs s = .bypass := by
    unfold fateOf
    by_cases ht : trigReaches s = true
    · exact .inr (by simp [ht, hb])
    · exact .inl (by simp [ht])
  unfold deliver
  split
  · exact ⟨rfl, rfl⟩
  · obtain hf | hf := hf
    · rw [hf]; exact ⟨rfl, rfl⟩
    · rw [hf]; simp [lateTrigger_frame]

/-- The record of an occurrence leaves the clock and the halt. -/
theorem logged_clk_halted (reg : Stamp) (coin reached : Bool) (q : Option Nat) (o : Occ) (s : State) :
    (logOcc reg coin reached o (noteOcc q o (moveMarks o s))).clk = s.clk ∧
    (logOcc reg coin reached o (noteOcc q o (moveMarks o s))).tt.halted = s.tt.halted := by
  have hn : ∀ t, (noteOcc q o t).tt.halted = t.tt.halted := by
    intro t
    unfold noteOcc
    repeat' split
    all_goals rfl
  have hm : (moveMarks o s).tt.halted = s.tt.halted := by
    unfold moveMarks
    split <;> rfl
  exact ⟨by simp [logOcc_frame, noteOcc_frame, moveMarks_frame], by simp [logOcc_frame, hn, hm]⟩

/-- What registers on the bypass clock starts no acquisition and moves no qtick grid. -/
theorem register_onBypass (m : Moment) (os : List Occ) (s : State) (hb : s.clk.bypass = true) :
    (register m os s).clk = s.clk ∧ (register m os s).tt.halted = s.tt.halted := by
  simp only [register]
  generalize hu : forAll os _ _ = u
  have hk : u.clk = s.clk ∧ u.tt.halted = s.tt.halted := by
    rw [← hu]
    constructor
    · rw [forAll_keeps (fun t => t.clk) _ _ _ fun o t => (logged_clk_halted ..).1]
      simp [openRecs_frame, amendGroup_frame]
    · rw [forAll_keeps (fun t => t.tt.halted) _ _ _ fun o t => (logged_clk_halted ..).2]
      simp [openRecs_frame, amendGroup_frame]
  obtain ⟨hclk, hhalt⟩ := hk
  obtain ⟨hc, ht⟩ := deliver_onBypass (os.filterMap fun o => o.trig) _ u (by rw [hclk, hb])
  exact ⟨hc.trans hclk, (congrArg Tt.halted ht).trans hhalt⟩

/-- Where no qtick is, the inputs take their steps alone. -/
theorem inputsAt_noQtick_tt (steps : List Step) (s : State) : (inputsAt none steps s).2.2.tt = s.tt := by
  simp [inputsAt, withRise, comparedAt, forAll, smSteps_frame]

/-- A registration on the bypass clock, which has no qtick. -/
theorem registerAt_onBypass (m : Moment) (steps : List Step) (extra : List Occ) (s : State) (hq : m.qtick = none)
    (hb : s.clk.bypass = true) :
    (registerAt m steps extra s).clk = s.clk ∧ (registerAt m steps extra s).tt.halted = s.tt.halted := by
  have hg : ∀ t, Moment.onGrid t m = m := fun t => by simp [Moment.onGrid, hq]
  have hi : ∀ r st t, (instantAt m r st t).clk = t.clk ∧ (instantAt m r st t).tt = t.tt := fun r st t => by
    simp [instantAt, hq, ldgInstant_frame]
  obtain ⟨hc, hh⟩ := register_onBypass m ((inputsAt m.qtick steps s).1 ++ extra) (inputsAt m.qtick steps s).2.2
    (by rw [← hb]; simp [inputsAt_frame])
  simp only [registerAt, hg, hi, takeCmdsAt_frame, lapReq_frame, hc, hh]
  exact ⟨by simp [inputsAt_frame], by rw [hq, inputsAt_noQtick_tt]⟩

/-- A frame that ends on the bypass clock. -/
theorem afterFrame_onBypass (f : Frame) (n : Nat) (stamp : Stamp) (s : State) (hb : s.clk.bypass = true) :
    (afterFrame f n stamp s).clk = s.clk ∧ (afterFrame f n stamp s).tt.halted = s.tt.halted := by
  have hfc : (followUp f n s).clk = s.clk := by simp [followUp_frame]
  have hb' : (followUp f n s).clk.bypass = true := by rw [hfc, hb]
  obtain ⟨hc, hh⟩ := registerAt_onBypass { momentAt n (followUp f n s) with stamp := stamp }
    (((List.range 6).filter (evEn (followUp f n s))).map (fun k => (k, 3, stamp, false))) [] (followUp f n s)
    (by simp [momentAt, fineClock, hb']) hb'
  exact ⟨hc.trans hfc, hh.trans (followUp_halted f n s)⟩

theorem closeIfCut_onBypass (s : State) (hb : s.clk.bypass = true) :
    (closeIfCut s).clk = s.clk ∧ (closeIfCut s).tt.halted = s.tt.halted := by
  unfold closeIfCut
  split
  · exact ⟨rfl, rfl⟩
  · next f _ =>
    split
    · have hc : (closeFrame f s).clk = s.clk := by simp [closeFrame_frame]
      obtain ⟨ha, hh⟩ := afterFrame_onBypass f s.clk.hf (nowStamp s) (closeFrame f s) (by rw [hc, hb])
      exact ⟨ha.trans hc, hh.trans (closeFrame_halted f s)⟩
    · exact ⟨rfl, rfl⟩

/-- A cut halts the sequencer; on the bypass clock it leaves the clock as it is (R134, R142). -/
theorem cutAll_onBypass (s : State) (hb : s.clk.bypass = true) : (cutAll s).clk = s.clk ∧ (cutAll s).tt.halted = true := by
  have hc : (dropQueued (haltSeq (cutFrame rUnlocked (fun r => r.state != .done) s))).clk = s.clk := by
    simp [dropQueued_frame, haltSeq_frame, cutFrame_frame]
  obtain ⟨hk, hh⟩ := closeIfCut_onBypass (dropQueued (haltSeq (cutFrame rUnlocked (fun r => r.state != .done) s))) (by rw [hc, hb])
  refine ⟨hk.trans hc, hh.trans ?_⟩
  rw [dropQueued_halted, haltSeq, dropAwait_halted]
  simp [haltFault_frame]

end Sys2Proof.Machine
end

section
/-! SUPPORT. The acquisition that a write of CLK_SRC or CLK_PLAN restarts (R129 to R131, R134). -/

namespace Sys2Proof.Machine

/-- A failed acquisition leaves MEAS on the bypass clock with its error code, and the sequencer halted (R131, R142). -/
theorem acqFailed_clk (err : BitVec 3) (s : State) :
    (acqFailed err s).clk =
      { (changeRef s).clk with
        acq := none, state := .bypass, bypass := true, episode := true, accErr := err, periods := 0, winQ := 0, runEdge := false } ∧
    (acqFailed err s).tt.halted = true := by
  constructor
  · simp [acqFailed, dropQueued_frame, dropAwait_frame, dropAhead_frame, dropFast_frame, haltOnBypass_frame]
  · rw [acqFailed, dropQueued_halted, dropAwait_halted]
    simp [dropAhead_frame, dropFast_frame, haltOnBypass]

/-- A source that is raised with the main domain out of main reset is latched (R254). -/
theorem raise_latched (n : Nat) (s : State) (hn : n < 64) (hm : mainUp s = true) : (raise n s).evt.stat.getLsbD n = true := by
  have hs : (src n).getLsbD n = true := by rw [src, BitVec.getLsbD_ofNat, Nat.testBit_two_pow_self, Bool.and_true, decide_eq_true hn]
  have hr : raisable n s = src n := by rw [raisable, hm, Bool.true_or, if_pos rfl]
  rw [raise, raiseIf, BitVec.getLsbD_or, if_pos rfl, hr, hs, Bool.or_true]

/-- A failed acquisition raises source 17 (R131). -/
theorem acqFailed_source17 (err : BitVec 3) (s : State) (hm : mainUp s = true) : latched 17 (acqFailed err s) = true := by
  have hm' : mainUp (changeRef s) = true := by simpa [mainUp, changeRef_frame] using hm
  rw [latched, acqFailed]
  refine dropQueued_latches _ _ (dropAwait_latches _ _ ?_)
  simp only [dropAhead_frame, dropFast_frame]
  exact raiseIf_latches _ _ _ _ (raise_latched 17 _ (by decide) hm')

/-- The registers of the clock that name its reference and plan are as they were (R129, R149). -/
def SameSource (s t : State) : Prop :=
  t.clk.src = s.clk.src ∧ t.clk.active = s.clk.active ∧ t.clk.view = s.clk.view ∧ t.clk.plans = s.clk.plans

theorem SameSource.trans {s t u : State} (h : SameSource s t) (k : SameSource t u) : SameSource s u := by
  obtain ⟨h1, h2, h3, h4⟩ := h
  obtain ⟨k1, k2, k3, k4⟩ := k
  exact ⟨k1.trans h1, k2.trans h2, k3.trans h3, k4.trans h4⟩

/-- The same registers select the same reference by the same plan. -/
theorem SameSource.selects {s t : State} (h : SameSource s t) :
    clkSel t = clkSel s ∧ selRef t = selRef s ∧ activePlan t = activePlan s := by
  obtain ⟨hsrc, hactive, -, hplans⟩ := h
  exact ⟨by rw [clkSel, clkSel, hsrc], by rw [selRef, selRef, clkSel, clkSel, hsrc], by rw [activePlan, activePlan, hactive, hplans]⟩

/-- Q and the drift window apart, `changeRef` leaves the clock (R138). -/
theorem changeRef_source (s : State) : SameSource s (changeRef s) := by
  unfold changeRef
  split <;> exact ⟨rfl, rfl, rfl, rfl⟩

theorem acqFailed_source (err : BitVec 3) (s : State) : SameSource s (acqFailed err s) := by
  obtain ⟨hsrc, hactive, hview, hplans⟩ := changeRef_source s
  obtain ⟨hclk, -⟩ := acqFailed_clk err s
  rw [SameSource, hclk]
  exact ⟨hsrc, hactive, hview, hplans⟩

/-- A selected reference without a valid plan (R130). -/
def invalidSource (s : State) : Prop := clkSel s ≠ 0 ∧ planValid (selRef s) (activePlan s) = false

/-- A retry counts, and sets when the next is due (R143). -/
def retryCounted (s : State) : State := { s with clk := { s.clk with retries := satAdd 255 s.clk.retries 1, retryIn := some 8192 } }

/-- A retry on an invalid plan fails at once (R143). -/
theorem retry_invalid (s : State) (h : invalidSource s) : retry s = acqFailed 3 (acqBegin .retry (retryCounted s)) := by
  obtain ⟨h0, hp⟩ := h
  have hv : planValid (acqBegin .retry (retryCounted s)).clk.ref (activePlan (acqBegin .retry (retryCounted s))) = false := hp
  rw [retry, if_neg h0]
  exact if_neg (Bool.eq_false_iff.mp hv)

/-- A failed acquisition is repeated at most once in the same occurrence (R143). -/
theorem acqFail_or (err : BitVec 3) (s : State) : acqFail err s = acqFailed err s ∨ acqFail err s = retry (acqFailed err s) :=
  ite_eq_or_eq _ _ _

/-- An acquisition on an invalid plan ends with a failure of error 3, at its start or at that of its retry (R130, R143). -/
theorem acquire_invalid (cause : AcqBy) (s : State) (h : invalidSource s) :
    ∃ u, acquire cause s = acqFailed 3 u ∧ SameSource s u ∧ mainUp u = mainUp s := by
  have hb : SameSource s (acqBegin cause s) := ⟨rfl, rfl, rfl, rfl⟩
  have hv : planValid (acqBegin cause s).clk.ref (activePlan (acqBegin cause s)) = false := h.2
  have ha : acquire cause s = acqFail 3 (acqBegin cause s) := by
    rw [acquire, if_neg h.1]
    exact if_neg (Bool.eq_false_iff.mp hv)
  rw [ha]
  obtain hf | hf := acqFail_or 3 (acqBegin cause s)
  · exact ⟨acqBegin cause s, hf, hb, rfl⟩
  · have hm : mainUp (acqFailed 3 (acqBegin cause s)) = mainUp s := by simp [mainUp, acqFailed_frame, acqBegin_frame]
    have hs : SameSource s (acqFailed 3 (acqBegin cause s)) := hb.trans (acqFailed_source 3 _)
    generalize acqFailed 3 (acqBegin cause s) = t at hf hm hs
    obtain ⟨hsel, href, hplan⟩ := hs.selects
    have hi : invalidSource t := by rwa [invalidSource, hsel, href, hplan]
    exact ⟨acqBegin .retry (retryCounted t), hf.trans (retry_invalid t hi), hs.trans ⟨rfl, rfl, rfl, rfl⟩, hm⟩

/-- What a restart of the acquisition leaves (R129 to R131, R134): the registers as they are, MEAS on the bypass clock and the sequencer
halted; without a reference the clock is OFF, else an acquisition runs, or on an invalid plan has failed with source 17. -/
structure ClockRestarted (s t : State) : Prop where
  source : SameSource s t
  bypass : t.clk.bypass = true
  halted : t.tt.halted = true
  off : clkSel s = 0 → t.clk.state = .off ∧ t.clk.ref = .none ∧ t.clk.acq = none
  begins : clkSel s ≠ 0 → planValid (selRef s) (activePlan s) = true →
    t.clk.state = .acq ∧ t.clk.ref = selRef s ∧ t.clk.acq.isSome = true
  fails : invalidSource s → t.clk.state = .bypass ∧ t.clk.accErr = 3 ∧ t.clk.acq = none ∧ latched 17 t = true

/-- HF is not locked behind it. -/
theorem ClockRestarted.unlocked {s t : State} (h : ClockRestarted s t) : t.clk.state ≠ .locked := by
  by_cases h0 : clkSel s = 0
  · simp [(h.off h0).1]
  · cases hp : planValid (selRef s) (activePlan s) with
    | true => simp [(h.begins h0 hp).1]
    | false => simp [(h.fails ⟨h0, hp⟩).1]

/-- What leaves the clock, the sequencer and the latched sources leaves it so. -/
theorem ClockRestarted.kept {s t u : State} (h : ClockRestarted s t) (hc : u.clk = t.clk) (ht : u.tt = t.tt)
    (hl : latched 17 t = true → latched 17 u = true) : ClockRestarted s u := by
  obtain ⟨hs, hb, hh, ho, hg, hf⟩ := h
  rw [← hc] at hb ho hg hf
  rw [← ht] at hh
  refine ⟨by rwa [SameSource, hc], hb, hh, ho, hg, fun hi => ?_⟩
  obtain ⟨h1, h2, h3, h4⟩ := hf hi
  exact ⟨h1, h2, h3, hl h4⟩

/-- The restart depends on the registers alone. -/
theorem ClockRestarted.of_source {s t u : State} (h : ClockRestarted t u) (hs : SameSource s t) : ClockRestarted s u := by
  obtain ⟨hsel, href, hplan⟩ := hs.selects
  obtain ⟨hsrc, hb, hh, hoff, hbeg, hfail⟩ := h
  rw [hsel] at hoff
  rw [hsel, href, hplan] at hbeg
  rw [invalidSource, hsel, href, hplan] at hfail
  exact ⟨hs.trans hsrc, hb, hh, hoff, hbeg, hfail⟩

/-- The machine with the frame cut and the sequencer halted, before the acquisition (R134). -/
def clockCleared (s : State) : State :=
  discardQ (cutAll (withdrawPresettles (dropAhead (bypassIn
    { s with clk := { s.clk with acq := none, verify := false, verifying := false } }))))

theorem clockCleared_clk (s : State) :
    SameSource s (clockCleared s) ∧ (clockCleared s).clk.acq = none ∧ (clockCleared s).tt.halted = true := by
  let u : State := withdrawPresettles (dropAhead (bypassIn { s with clk := { s.clk with acq := none, verify := false, verifying := false } }))
  have hu : SameSource s u ∧ u.clk.acq = none ∧ u.clk.bypass = true := by
    simp [u, SameSource, withdrawPresettles_frame, dropAhead_frame, bypassIn, dropFast_frame]
  obtain ⟨hs, ha, hb⟩ := hu
  obtain ⟨hc, hh⟩ := cutAll_onBypass u hb
  have hk : SameSource u (cutAll u) := by simp [SameSource, hc]
  exact ⟨hs.trans (hk.trans ⟨rfl, rfl, rfl, rfl⟩), (congrArg Clk.acq hc).trans ha, hh⟩

theorem clockCleared_mainUp (s : State) : mainUp (clockCleared s) = mainUp s := by
  simp [clockCleared, mainUp, discardQ_frame, cutAll_frame, cutAll_inner, withdrawPresettles_frame, dropAhead_frame, bypassIn_frame]

/-- An acquisition that starts with MEAS on the bypass clock and the sequencer halted. -/
theorem acquire_restarts (cause : AcqBy) (s : State) (h0 : clkSel s ≠ 0) (hb : s.clk.bypass = true) (hh : s.tt.halted = true)
    (hm : mainUp s = true) : ClockRestarted s (acquire cause s) := by
  cases hp : planValid (selRef s) (activePlan s) with
  | true =>
    rw [acquire_begins cause s ⟨h0, hp⟩]
    exact ⟨⟨rfl, rfl, rfl, rfl⟩, hb, hh, fun h => absurd h h0, fun _ _ => ⟨rfl, rfl, rfl⟩, fun h => by simp [invalidSource, hp] at h⟩
  | false =>
    obtain ⟨u, hu, hs, hmu⟩ := acquire_invalid cause s ⟨h0, hp⟩
    obtain ⟨hc, hhalt⟩ := acqFailed_clk 3 u
    rw [hu]
    exact ⟨hs.trans (acqFailed_source 3 u), by rw [hc], hhalt, fun h => absurd h h0, fun _ h => by simp [hp] at h,
      fun _ => ⟨by rw [hc], by rw [hc], by rw [hc], acqFailed_source17 3 u (hmu.trans hm)⟩⟩

/-- The restart that a committed write of CLK_SRC or CLK_PLAN ends with (R134). -/
theorem restartClock_restarts (cause : AcqBy) (s : State) (hm : mainUp s = true) : ClockRestarted s (restartClock cause s) := by
  obtain ⟨hs, ha, hh⟩ := clockCleared_clk s
  obtain ⟨hsel, -⟩ := hs.selects
  by_cases h0 : clkSel s = 0
  · have e : restartClock cause s = { clockCleared s with
        clk := { (clockCleared s).clk with state := .off, ref := .none, bypass := true, retryIn := none } } :=
      if_pos (hsel.trans h0)
    rw [e]
    exact ⟨hs, rfl, hh, fun _ => ⟨rfl, rfl, ha⟩, fun h => absurd h0 h, fun h => absurd h0 h.1⟩
  · have e : ∃ c, restartClock cause s = acquire cause { clockCleared s with clk := c } ∧ SameSource s { clockCleared s with clk := c } ∧
        c.bypass = true :=
      ⟨_, if_neg (hsel.trans_ne h0), hs, rfl⟩
    obtain ⟨c, e, hs', hb⟩ := e
    obtain ⟨hsel', -⟩ := hs'.selects
    rw [e]
    exact (acquire_restarts cause { clockCleared s with clk := c } (hsel'.trans_ne h0) hb hh ((clockCleared_mainUp s).trans hm)).of_source hs'

end Sys2Proof.Machine
end

section
/-! SUPPORT. Committed writes of CLK_SRC and CLK_PLAN settled: O28. -/

namespace Sys2Proof.Machine

/-- With no command and no warning what follows an event is the records of switches that wait, the next page and the return to rest. -/
theorem settle_noCommand (s : State) (hr : s.cond.running = none) (hw : s.pwr.warn = false) :
    settle s = rest (pump s) ∨ settle s = rest (pump (flushSwitches s)) := by
  have e1 : clockCut s = s := by unfold clockCut; split <;> simp_all
  have e2 : selftestAcquire s = s := by simp [selftestAcquire, hr]
  have e3 : selftestLock s = s := by simp [selftestLock, hr]
  have e4 : restoreHere s = s := by unfold restoreHere; split <;> simp_all
  have e5 : cutHere s = s ∨ cutHere s = flushSwitches s := by unfold cutHere; split <;> simp_all
  have e6 : warnCut (cutHere s) = cutHere s := by obtain e5 | e5 := e5 <;> simp [e5, warnCut, hw]
  have e7 : suspendHere (cutHere s) = cutHere s := by
    have hr' : (cutHere s).cond.running = none := by obtain e5 | e5 := e5 <;> simp [e5, hr]
    unfold suspendHere
    split <;> simp_all
  rw [settle, e1, e2, e3, e4, e6, e7]
  obtain e5 | e5 := e5 <;> simp [e5]

/-- The MDLL is parked from its lock alone (R199). -/
theorem rest_unlocked_clk (s : State) (h : s.clk.state ≠ .locked) : (rest s).clk = s.clk := by
  have hp : park (outSettle s) = outSettle s := by simp [park, h]
  simp only [rest, hp]
  split <;> simp

theorem settle_unlocked (s : State) (hr : s.cond.running = none) (hw : s.pwr.warn = false) (h : s.clk.state ≠ .locked) :
    (settle s).clk = s.clk ∧ (settle s).tt = s.tt ∧ (settle s).pwr = s.pwr ∧ (settle s).hif = s.hif := by
  obtain e | e := settle_noCommand s hr hw
  all_goals
    rw [e, rest_unlocked_clk _ (by simpa using h)]
    simp

/-- The registers whose committed write restarts the acquisition, with its cause (R134). -/
def restartsClock (k : Nat) (cause : AcqBy) : Prop := (k = 24 ∧ cause = .clkSrc) ∨ (k = 25 ∧ cause = .clkPlan)

/-- The end of a commit sequence that wrote one of them. -/
theorem commitEnd_clock (k : Nat) (cause : AcqBy) (w : Word) (s : State) (hk : restartsClock k cause) :
    commitEnd [(k, w)] s = settle (restartClock cause s) := by
  obtain ⟨rfl, rfl⟩ | ⟨rfl, rfl⟩ := hk <;> simp [commitEnd, clockEnd, armChecks, wrote, lastWord]

/-- The effect of one of them is on the clock alone, and neither the transaction nor the output bears on it. -/
theorem regWrite_clock (k : Nat) (cause : AcqBy) (w : Word) (s : State) (hk : restartsClock k cause) :
    regWrite k w (newWriter (openTxn s)) = { newWriter (openTxn s) with clk := (regWrite k w s).clk } := by
  obtain ⟨rfl, -⟩ | ⟨rfl, -⟩ := hk <;> rfl

/-- A committed write of one of them: its effect and the restart of the acquisition; the pins, the always-on domain, the host port and the queue
are as before (R134). -/
theorem hostWord_clock (k : Nat) (cause : AcqBy) (w : Word) (z s : State) (h : HostReady z) (hn : nothingRuns z) (e : s = moved k z)
    (hk : restartsClock k cause) :
    ClockRestarted (regWrite k w s) (hostWord k w z) ∧
    (hostWord k w z).pins = s.pins ∧ (hostWord k w z).pwr = s.pwr ∧ (hostWord k w z).rtc = s.rtc ∧
    (hostWord k w z).alm = s.alm ∧ (hostWord k w z).hif = s.hif ∧ (hostWord k w z).pending = s.pending := by
  obtain ⟨hrun, -, hwarn⟩ : nothingRuns s := e ▸ hn
  obtain ⟨htxn, hheader⟩ : noTxn s := e ▸ noTxn_moved k z h
  have hup : mainUp s = true := e ▸ mainUp_of_hostReady z h
  have ha : Item.actsOnMeas (.reg k w) = true := by obtain ⟨rfl, -⟩ | ⟨rfl, -⟩ := hk <;> rfl
  obtain ⟨x, hx⟩ : ∃ x, x = { newWriter (openTxn s) with clk := (regWrite k w s).clk } := ⟨_, rfl⟩
  have hrestart : ClockRestarted (regWrite k w s) (restartClock cause x) :=
    (restartClock_restarts cause x (by rw [hx]; exact hup)).of_source (by rw [hx]; exact ⟨rfl, rfl, rfl, rfl⟩)
  have hr : (restartClock cause x).cond.running = none := by simpa [restartClock_inner, hx] using hrun
  obtain ⟨hpins, hpwr, hrtc, halm, hhif, hpend⟩ : (restartClock cause x).pins = s.pins ∧ (restartClock cause x).pwr = s.pwr ∧
      (restartClock cause x).rtc = s.rtc ∧ (restartClock cause x).alm = s.alm ∧ (restartClock cause x).hif = (openTxn s).hif ∧
      (restartClock cause x).pending = s.pending := by
    simp [restartClock_frame, hx]
  obtain ⟨hclk, htt, hpwr', hhif'⟩ := settle_unlocked (restartClock cause x) hr (by rw [hpwr, hwarn]) hrestart.unlocked
  obtain ⟨hpins', hrtc', halm', -, hpend'⟩ := settle_frame (restartClock cause x)
  have hend := hrestart.kept hclk htt (settle_latches (restartClock cause x) 17)
  rw [hostWord_ready k w z h, ← e, ha, when, if_pos rfl, regWrite_clock k cause w s hk, ← hx, commitEnd_clock k cause w x hk]
  generalize settle (restartClock cause x) = t at *
  have hclose : closeTxn t = betweenTxns t := closeTxn_fresh t (Txn.new s) (by rw [hhif', hhif]; rfl) rfl rfl rfl rfl rfl
  have hport : (betweenTxns t).hif = s.hif := by
    rw [betweenTxns, hhif', hhif]
    exact hif_no_txn s.hif htxn hheader
  rw [hclose]
  exact ⟨hend.kept rfl rfl id, hpins'.trans hpins, hpwr'.trans hpwr, hrtc'.trans hrtc, halm'.trans halm, hport, hpend'.trans hpend⟩

/-- CLK_PLAN.active as its write takes it (Table 7.6). -/
theorem ofNat_fld_active (w : Word) : BitVec.ofNat 2 (fld w 0 2) = w.setWidth 2 := by
  apply BitVec.eq_of_toNat_eq
  simp [fld]

/-- The plan in use behind a write of CLK_PLAN (R149). -/
theorem activePlan_writeClkPlan (w : Word) (s : State) :
    activePlan (writeClkPlan w s) = (s.clk.plans.set (fld w 2 2) (planOf w)).getD (fld w 0 2) ⟨0, 0, false⟩ := by
  have hn : (BitVec.ofNat 2 (fld w 0 2)).toNat = fld w 0 2 := (BitVec.toNat_ofNat _ _).trans (fld_mod w 0 2)
  exact congrArg (fun n => (s.clk.plans.set (fld w 2 2) (planOf w)).getD n ⟨0, 0, false⟩) hn

/-- Settles O28: either write takes its registers and restarts the acquisition. -/
theorem clockSourceWrites : Obligations.ClockSourceWrites := by
  unfold Obligations.ClockSourceWrites
  intro z hz hn
  constructor
  · rintro s hs w v rfl r rfl
    have he : exec (.clkSrcWrite w) z = .next (hostWord 24 w z) := rfl
    obtain ⟨hr, hpins, hpwr, hrtc, halm, hhif, hpend⟩ := hostWord_clock 24 .clkSrc w z s hz hn hs (.inl ⟨rfl, rfl⟩)
    generalize hostWord 24 w z = t at *
    obtain ⟨hsel, -⟩ := hr.source.selects
    obtain ⟨⟨hsrc, hactive, -, hplans⟩, hb, hh, hoff, hbeg, hfail⟩ := hr
    refine ⟨t, he, hsrc, hb, hh, hplans, hactive, ?_, ?_, ?_, hpins, hpwr, hrtc, halm, hhif, hpend⟩
    · exact fun h0 => hoff (hsel.symm.trans h0)
    · exact fun h0 hp => hbeg (hsel.symm.trans_ne h0) hp
    · exact fun h0 hp => hfail ⟨hsel.symm.trans_ne h0, hp⟩
  · rintro s hs w ps rfl p rfl
    have he : exec (.clkPlanWrite w) z = .next (hostWord 25 w z) := rfl
    obtain ⟨hr, hpins, hpwr, hrtc, halm, hhif, hpend⟩ := hostWord_clock 25 .clkPlan w z s hz hn hs (.inr ⟨rfl, rfl⟩)
    generalize hostWord 25 w z = t at *
    obtain ⟨⟨hsrc, hactive, hview, hplans⟩, hb, hh, hoff, hbeg, hfail⟩ := hr
    have hp : activePlan (regWrite 25 w s) = _ := activePlan_writeClkPlan w s
    rw [hp] at hbeg
    rw [invalidSource, hp] at hfail
    refine ⟨t, he, hactive.trans (ofNat_fld_active w), hview, hplans, hb, hh, hsrc, ?_, hbeg, ?_, hpins, hpwr, hrtc, halm, hhif, hpend⟩
    · intro h0
      obtain ⟨hstate, href, -⟩ := hoff h0
      exact ⟨hstate, href⟩
    · exact fun h0 hinv => hfail ⟨h0, hinv⟩

end Sys2Proof.Machine
end

section
/-! SUPPORT. DISCOVER at a start that runs no job, and its job at its identification line (R307, R322, R323, R326, R339): O38. -/

namespace Sys2Proof.Machine

/-- A command may end at v, which is as s was but for its job's stage and what lies outside the conductor's record: it stands as one that has
just started, with the ring, the ports and all beside the conductor of s. -/
structure EndsFrom (c : Cmd) (s v : State) : Prop where
  started : startedAs c v
  ring : v.cond.head = s.cond.head ∧ v.cond.seq = s.cond.seq ∧ v.cond.ovf = s.cond.ovf
  disc : v.disc = s.disc
  due : s.out.due = none → v.out.due = none
  beside : besideConductor s v

/-- It then ends with its record, and its ports and all beside the conductor are as in s. -/
theorem EndsFrom.ends {c : Cmd} {s v : State} (h : EndsFrom c s v) (reason : Nat) (detail : Word) :
    ended c reason detail s (settle (finishCmd reason detail v)) ∧ (settle (finishCmd reason detail v)).disc = s.disc ∧
    besideConductor s (settle (finishCmd reason detail v)) ∧ onlyBytes (nextRecordAt v) 16 v (settle (finishCmd reason detail v)) := by
  obtain ⟨hs, ⟨hhead, hseq, hovf⟩, hdisc, hdue, hb⟩ := h
  obtain ⟨he, ho, hbv⟩ := finishCmd_ended reason detail v c hs
  refine ⟨by simpa [ended, answered, hhead, hseq, hovf] using he, ?_, besideConductor_trans s v _ hb hbv hdue, ho⟩
  obtain ⟨hr, -, hw, -, hh, hd, -⟩ := hs
  rw [settle_finished reason detail v c .fresh hr hh hd hw]
  simpa [cmdRecord, orphanOp, serve] using hdisc

/-- Its start leaves it so. -/
theorem endsFrom_startOf (c : Cmd) (n : Nat) (s : State) (h : startedAs c s) : EndsFrom c s (startOf n s) :=
  ⟨startOf_startedAs n s c h, by simp, by simp, startOf_due n s, startOf_beside n s⟩

/-- So do bytes stored. -/
theorem EndsFrom.store {c : Cmd} {s v : State} (h : EndsFrom c s v) (a : Nat) (bs : List Byte) : EndsFrom c s (store a bs v) := by
  obtain ⟨⟨hr, hc, hw, hroom, hh, hd, hm⟩, hring, hdisc, hdue, hb⟩ := h
  exact ⟨⟨hr, hc, hw, hroom, hh, hd, memStore_wf bs v.mem a hm⟩, hring, hdisc, hdue, hb⟩

/-- The end of a command takes no note of the stage of its job. -/
theorem finishCmd_anyStage (reason : Nat) (detail : Word) (s : State) (c : Cmd) (j : Job) (h : s.cond.running = some (c, j)) :
    finishCmd reason detail s = finishCmd reason detail (setJob c .fresh s) := by
  simp [finishCmd, setJob, h]

/-- The ports as a command's start finds them. -/
theorem startOf_ports (n : Nat) (s : State) (k : Nat) : portAt (startOf n s) k = portAt s k ∧ portWord (startOf n s) k = portWord s k ∧
    attached (startOf n s) k = attached s k ∧ blankReport k (startOf n s) = blankReport k s := by
  simp [portWord, attached, blankReport, portAt]

/-- A DISCOVER whose start runs no job acts on the state it starts in. -/
theorem exec_discover_noJob (c : Cmd) (s : State) (teds : List Teds) (d : DiscData) (n : Nat) (h : startedAs c s) (hop : c.op = 3)
    (hj : discoverRuns c s = false) : exec (.discover teds d n) s = .next (settle (discoverStart c teds (startOf n s))) := by
  obtain ⟨hr, hc, -⟩ := h
  exact congrArg Host.Outcome.next (by simp [discover, hr, hop, hc, hj, startOf])

/-- One that asks for the report alone (R326). -/
theorem discoverStart_report (c : Cmd) (teds : List Teds) (s : State) (ha : c.auto = false) (h9 : bitOf c.a0 9 = true) :
    discoverStart c teds s = finishCmd rOk (portWord s (fld c.a0 0 2)) (store (0x7800 + 64 * fld c.a2 0 4)
      ((portAt s (fld c.a0 0 2)).report.getD (blankReport (fld c.a0 0 2) s)) s) := by
  simp [discoverStart, ha, h9]

/-- One that asks for a job: its port's state is checked before the clock (R307, R322). -/
theorem discoverStart_job (c : Cmd) (teds : List Teds) (s : State) (hj : c.auto = true ∨ bitOf c.a0 9 = false) :
    discoverStart c teds s =
      if (portAt s (fld c.a0 0 2)).state = 0 then finishCmd rState (portWord s (fld c.a0 0 2)) s
      else if (portAt s (fld c.a0 0 2)).state = 1 then finishCmd rSensorGone (portWord s (fld c.a0 0 2)) s
      else if (c.auto && (portAt s (fld c.a0 0 2)).state != 2) = true then finishCmd rState (portWord s (fld c.a0 0 2)) s
      else match clockFault s with
        | some r => finishCmd r (portWord s (fld c.a0 0 2)) s
        | none => discoverRead c teds (wakeHf .job s) := by
  have hrep : ¬ (!c.auto && bitOf c.a0 9) = true := by obtain h | h := hj <;> simp [h]
  exact if_neg hrep

/-- An attached port is neither disabled nor absent (R314). -/
theorem attached_state (s : State) (k : Nat) (h : attached s k = true) : (portAt s k).state ≠ 0 ∧ (portAt s k).state ≠ 1 := by
  constructor
  all_goals
    intro h0
    simp [attached, h0] at h

/-- Bytes stored behind the completion ring stand after the record of a command. -/
theorem memLoad_behindRecord (a : Nat) (bs : List Byte) (v t : State) (ha : 0x7500 ≤ a) (hm : Memory.wf v.mem = true)
    (h : onlyBytes (nextRecordAt (store a bs v)) 16 (store a bs v) t) : memLoad t.mem a bs.length = bs := by
  refine memLoad_eq t.mem a bs.length bs rfl fun i hi => ?_
  have hr : nextRecordAt (store a bs v) + 16 ≤ a + i := by
    unfold nextRecordAt
    omega
  rw [h (a + i) (.inr hr), store, memByte_memStore _ _ _ _ hm, if_pos (by omega), Nat.add_sub_cancel_left]

/-- A DISCOVER that a check of its start refuses ends with the reason and its port as it stands (R322). -/
theorem discover_refused (c : Cmd) (s : State) (teds : List Teds) (d : DiscData) (n reason : Nat) (h : startedAs c s) (hop : c.op = 3)
    (hj : discoverRuns c s = false)
    (hs : discoverStart c teds (startOf n s) = finishCmd reason (portWord (startOf n s) (fld c.a0 0 2)) (startOf n s)) :
    Completes (.discover teds d n) s (fun t =>
      ended c reason (portWord s (fld c.a0 0 2)) s t ∧ t.disc = s.disc ∧ besideConductor s t) := by
  obtain ⟨-, hword, -⟩ := startOf_ports n s (fld c.a0 0 2)
  obtain ⟨he, hd, hb, -⟩ := (endsFrom_startOf c n s h).ends reason (portWord s (fld c.a0 0 2))
  refine ⟨_, exec_discover_noJob c s teds d n h hop hj, ?_⟩
  rw [hs, hword]
  exact ⟨he, hd, hb⟩

/-- The job of a DISCOVER with its devices found goes on: the next page and the return to rest follow (R323). -/
theorem settle_discoverRead (c : Cmd) (teds : List Teds) (s : State) (hb : s.clk.bypass = false) (hw : s.pwr.warn = false) :
    settle (discoverRead c teds s) = rest (pump (discoverRead c teds s)) :=
  settle_steady _ c _ rfl (by simp [Job.steady, discoverRead, setJob, hb]) hw

/-- What a job finds at its line, as the present ports have it (R323). -/
theorem discoverRead_startOf (c : Cmd) (teds : List Teds) (n : Nat) (s : State) (m : Option Teds × BitVec 17)
    (h : m = chooseTeds teds (if attached s (Nat.xor (fld c.a0 0 2) 1) then (portAt s (Nat.xor (fld c.a0 0 2) 1)).taken else none)) :
    discoverRead c teds (startOf n s) =
      setJob c (.disc { DiscJob.new (fld c.a0 0 2) with teds := teds, mine := m.1, flags := m.2 } 1 0) (startOf n s) := by
  obtain ⟨hport, -, hatt, -⟩ := startOf_ports n s (Nat.xor (fld c.a0 0 2) 1)
  simp only [discoverRead, hport, hatt, ← h]

/-- At its identification line a job ends as a command that has just started (R339). -/
theorem endsFrom_line (c : Cmd) (j : DiscJob) (l n : Nat) (s : State) (h : atLine c j l s) :
    EndsFrom c s (setJob c .fresh (startOf n s)) := by
  obtain ⟨-, hc, hw, -, hroom, hh, hd, hm⟩ := h
  have hs : startedAs c (setJob c .fresh s) := ⟨rfl, hc, hw, hroom, hh, hd, hm⟩
  refine ⟨?_, by simp [setJob], by simp [setJob], startOf_due n s, startOf_beside n s⟩
  simpa [startedAs, condRuns, mainUp, noHolds, setJob] using hs

/-- A job whose line stayed low ends by its timeout (R339). -/
theorem exec_idLineTimeout (c : Cmd) (j : DiscJob) (l n : Nat) (s : State) (h : atLine c j l s) (hw : waitsForLine c s = false) :
    exec (.idLineTimeout n) s =
      .next (settle (finishCmd rTimeout (portWord s (fld c.a0 0 2)) (setJob c .fresh (startOf n s)))) := by
  obtain ⟨hr, hc, -⟩ := h
  rw [← finishCmd_anyStage _ _ (startOf n s) c (.disc j 0 l) (by simpa using hr)]
  exact congrArg Host.Outcome.next (by simp [idLineTimeout, hr, hc, hw, startOf])

/-- Settles O38: a start that runs no job by `discover_refused`, the report by `memLoad_behindRecord`, a job at its identification line by
`discoverRead_startOf` and `endsFrom_line`. -/
theorem discoveryStarts : Obligations.DiscoveryStarts := by
  unfold Obligations.DiscoveryStarts
  refine ⟨fun c s teds d n h hop => ?start, fun c j l s teds d n h => ⟨fun hw => ?waits, fun hw m hm => ⟨?read, ?timeout⟩⟩⟩
  case start =>
    obtain ⟨hport, hword, hatt, hblank⟩ := startOf_ports n s (fld c.a0 0 2)
    refine ⟨fun ha h9 => ?report, fun hj => ?job⟩
    case report =>
      obtain ⟨he, hd, hb, ho⟩ := ((endsFrom_startOf c n s h).store (0x7800 + 64 * fld c.a2 0 4)
        ((portAt s (fld c.a0 0 2)).report.getD (blankReport (fld c.a0 0 2) s))).ends rOk (portWord s (fld c.a0 0 2))
      obtain ⟨-, -, -, -, -, -, hm⟩ := startOf_startedAs n s c h
      refine ⟨_, exec_discover_noJob c s teds d n h hop (by simp [discoverRuns, Cmd.runsJob, ha, h9]), ?_⟩
      rw [discoverStart_report c teds _ ha h9, hport, hword, hblank]
      exact ⟨he, hd, hb, (memLoad_behindRecord _ _ _ _ (by omega) hm ho).symm⟩
    case job =>
      have hs := discoverStart_job c teds (startOf n s) hj
      rw [hport] at hs
      refine ⟨fun h0 => ?off, fun h1 => ?absent, fun ha hk h2 => ?notPresent, fun r hf hk hp => ?noClock⟩
      case off =>
        rw [if_pos h0] at hs
        exact discover_refused c s teds d n _ h hop (by simp [discoverRuns, attached, h0]) hs
      case absent =>
        rw [if_neg (by rw [h1]; decide), if_pos h1] at hs
        exact discover_refused c s teds d n _ h hop (by simp [discoverRuns, attached, h1]) hs
      case notPresent =>
        obtain ⟨h0, h1⟩ := attached_state s _ hk
        have hauto : (c.auto && (portAt s (fld c.a0 0 2)).state != 2) = true := by rw [ha, Bool.true_and, bne_iff_ne]; exact h2
        rw [if_neg h0, if_neg h1, if_pos hauto] at hs
        refine discover_refused c s teds d n _ h hop ?_ hs
        rw [discoverRuns, ha, beq_false_of_ne h2]
        simp
      case noClock =>
        obtain ⟨h0, h1⟩ := attached_state s _ hk
        have hauto : ¬ (c.auto && (portAt s (fld c.a0 0 2)).state != 2) = true := by obtain hp | hp := hp <;> simp [hp]
        rw [if_neg h0, if_neg h1, if_neg hauto, startOf_clockFault, hf] at hs
        exact discover_refused c s teds d n _ h hop (by simp [discoverRuns, hf]) hs
  case waits =>
    obtain ⟨hr, -⟩ := h
    exact ⟨congrArg Host.Outcome.next (by simp [discover, hr, hw]), congrArg Host.Outcome.next (by simp [idLineTimeout, hr, hw])⟩
  case read =>
    obtain ⟨hr, hc, hwarn, hby, -⟩ := h
    have he : discover teds d n s = settle (discoverRead c teds (startOf n s)) := by simp [discover, hr, hc, hw, startOf]
    refine ⟨_, congrArg Host.Outcome.next he, ?_⟩
    rw [settle_discoverRead c teds _ (by simpa [startOf] using hby) (by simpa using hwarn), discoverRead_startOf c teds n s m hm]
    refine ⟨by simp [setJob], by simp, by simp, ?_⟩
    exact besideConductor_trans s _ _ (startOf_beside n s) (by simp [besideConductor]) (startOf_due n s)
  case timeout =>
    obtain ⟨hend, hd, hb, -⟩ := (endsFrom_line c j l n s h).ends rTimeout (portWord s (fld c.a0 0 2))
    exact ⟨_, exec_idLineTimeout c j l n s h hw, hend, hd, hb⟩

end Sys2Proof.Machine
end

section
/-! SUPPORT. States with a frame on a locked clock, from which the statements on frames and holds are refuted. -/

namespace Sys2Proof.Machine

/-- The part after its main start, with HF locked on REFIN at an HF counter. -/
def lockedAt (n : Nat) : State :=
  { State.reset with
    pins := { Pins.reset with vbat := 1500 }
    sys := { Sys.reset with phase := .ready, x32Run := true, cfgDone := true }
    clk := { Clk.reset with src := 1, state := .locked, ref := .refin, bypass := false, hf := n } }

/-- A carriage of channel 0 without prerequisites, shape and AUX code (Table 10.2). -/
def bareCarriage (start dur op res : Nat) : Carriage :=
  { start := start, dur := dur, op := op, ch := 0, res := res, needA := none, needB := none, arg := 0, aux := 0 }

/-- A frame with qtick 0 at an HF counter: its carriages, each with how far it has come. -/
def frameFrom (t0 body : Nat) (cs : List (Carriage × CarRun)) : Frame :=
  { img := { secTick := false, sync := false, freeRun := false, body := body, lead := 0, cars := cs.map (fun c => c.1) }
    tableB := false, t0 := t0, stamp := ⟨0, 0, false⟩, code := 0, delay := 0, lateStart := false, coincident := false, queued := false
    runs := cs.map (fun c => c.2), vers := [], vals := [], raws := [], late := [], revA := false, revB := false, cut := false
    slow := false, markFail := none, nFailed := 0, qtick := 0, syncAt := none, seals := [] }

/-- The state with a frame running. -/
def framed (f : Frame) (s : State) : State := { s with tt := { s.tt with frame := some f } }

/-- A command of the host. -/
def cmdWith (op : Nat) (a0 : Word) : Cmd := { op := op, tag := 1, a0 := a0, a1 := 0, a2 := 0, auto := false }

/-- A command runs, with its job at a stage. -/
def busyWith (c : Cmd) (j : Job) (s : State) : State := { s with cond := { s.cond with running := some (c, j), awake := true } }

/-- Every port is PRESENT (Table 17.1). -/
def portsPresent (s : State) : State := { s with disc := { s.disc with ports := List.replicate 4 { Port.reset with state := 2 } } }

/-- EV0 is enabled, held for a calibration and, since the hold began, high; a direct LEDGER_LAP, which may zero the running sums, waits for its
instant (R281, R311). -/
def riseHeld (zeroes : Bool) (s : State) : State :=
  { s with
    pins := { s.pins with ev := 1 }
    evin := { s.evin with incfg := 0x01000000 }
    ldg := { s.ldg with ctl := 1, run := List.replicate 8 1, wait := [({ lap := true, tag := 1 }, zeroes)] }
    cal := { s.cal with holdEv := 1 } }

end Sys2Proof.Machine
end

section
/-! SUPPORT. A frame runs while the balance of a discovery hold ends, with an input held. -/

namespace Sys2Proof.Machine

/-- A running EXC_OFF that has failed, and a LEDGER_ADD that starts 16 qticks later. -/
def failedThenAdd : Frame :=
  frameFrom 1000000 48
    [(bareCarriage 0 16 oExcOff 5, { CarRun.fresh with state := .running, reason := rArgs }), (bareCarriage 16 32 oLedgerAdd 9, CarRun.fresh)]

/-- A discovery job that has measured LEAK and ARM, both nodes open. -/
def armOpened : DiscJob := { DiscJob.new 0 with done := 2, data := { leakPa := 0, zp := 50001, zn := 50001, balance := 0 } }

/-- Its balance is over at the very qtick of the LEDGER_ADD, and the rise of a held input waits with a LEDGER_LAP: a hold of a calibration
beside that of the job, which the statement's hypotheses admit. -/
def riseAtBalance : State :=
  busyWith (cmdWith 3 0) (.disc armOpened 2 0) (riseHeld false (portsPresent (framed failedThenAdd (lockedAt 1000128))))

/-- What the balance finds. -/
def balanced : DiscData := { leakPa := 0, zp := 0, zn := 0, senseUv := 500000, bits := List.replicate 1024 true }

/-- The hold's end lets the rise register with the lap; its snapshot waits for the LEDGER_ADD of the qtick (R280), which starts after the record
of the EXC_OFF. -/
theorem riseAtBalance_records : (discover [] balanced 0 riseAtBalance).res.seq ≠ riseAtBalance.res.seq := by decide +kernel

/-- Refutes O39: the clauses on the balance have the result ring as before where a hold of an input ends with the job's, though what
registers then brings the frame's carriages, and their records, up to its instant. -/
theorem not_discoveryHold : ¬ Obligations.DiscoveryHold := by
  unfold Obligations.DiscoveryHold
  intro h
  obtain ⟨-, -, hmeasured⟩ := h riseAtBalance (cmdWith 3 0) armOpened 0 rfl (by decide) rfl rfl rfl
  obtain ⟨-, -, -, hbalance⟩ := hmeasured [] balanced 0 rfl
  obtain ⟨-, hfault, -⟩ := hbalance rfl (by decide) List.length_replicate.ge (by decide) _ rfl _ rfl
  obtain ⟨t, ht, -, -, -, -, -, -, -, -, hbeside, -⟩ := hfault (by decide)
  have he := Host.Outcome.next.inj (show Host.Outcome.next (discover [] balanced 0 riseAtBalance) = _ from ht)
  have hrecords := riseAtBalance_records
  rw [he] at hrecords
  obtain ⟨-, -, -, -, -, hres, -⟩ := hbeside
  exact hrecords (congrArg Res.seq hres)

end Sys2Proof.Machine
end

section
/-! SUPPORT. An EMIT in a discovery hold whose LEAK ends before the EMIT does. -/

namespace Sys2Proof.Machine

/-- An EMIT of a channel without a value. -/
def emitsNothing : Frame := frameFrom (leakCycles - 8) 48 [(bareCarriage 0 48 oEmit 10, CarRun.fresh)]

/-- It starts one qtick before the LEAK of the hold of pair A is over. -/
def emitInHold : State :=
  let s := busyWith (cmdWith 3 0) (.disc (DiscJob.new 0) 2 0) (portsPresent (framed emitsNothing (lockedAt (leakCycles - 8))))
  { s with cal := { s.cal with holdMod := discMods false, holdPair := 1 } }

/-- At its start qtick the frame has latched its channel (R181). -/
def emitLatched : Frame := { emitsNothing with vers := [(0, List.replicate 32 0)] }

theorem toStart_emitInHold : (toStart 0 emitInHold).tt.frame = some emitLatched ∧ (toStart 0 emitInHold).afe.pairA.on = false := by
  decide +kernel

/-- Nothing else starts before its end: its record is made at once, and by then the conductor has excited the pair (R322 step 5). -/
theorem emitInHold_excites : (endAtOnce 0 (startOp 0 oEmit emitInHold)).afe.pairA.on = true := by decide +kernel

/-- The EMIT fails with DEP. -/
theorem startFault_emitInHold : startFault (toStart 0 emitInHold) emitLatched (bareCarriage 0 48 oEmit 10)
    (versionOr (toStart 0 emitInHold) emitLatched (bareCarriage 0 48 oEmit 10).ch) = some rDep := by decide +kernel

/-- Refutes O58: the clause on the carriages that R206 stops has both pairs as they are at the start qtick, though an EMIT is one step with its
record, and a pair that a discovery job holds comes on between them. -/
theorem not_carriageStarts : ¬ Obligations.CarriageStarts := by
  unfold Obligations.CarriageStarts
  intro h
  obtain ⟨hframe, hoff⟩ := toStart_emitInHold
  obtain ⟨hstopped, -⟩ := h emitInHold (toStart 0 emitInHold) 0 emitLatched (bareCarriage 0 48 oEmit 10) _
    ⟨rfl, hframe, rfl, rfl, by decide +kernel⟩
  obtain ⟨t, ht, -, -, -, -, hpair, -⟩ := hstopped rDep (by rw [startFault_emitInHold]; exact List.mem_singleton_self _) (.emit 0)
    (List.mem_singleton_self _)
  have he := Host.Outcome.next.inj (show Host.Outcome.next (endAtOnce 0 (startOp 0 oEmit emitInHold)) = _ from ht)
  rw [← he, emitInHold_excites, hoff] at hpair
  exact Bool.noConfusion hpair

end Sys2Proof.Machine
end

section
/-! SUPPORT. A carriage ends under a warning that has still to end the hold of an input. -/

namespace Sys2Proof.Machine

/-- A frame whose only carriage, an EXC_OFF, runs. -/
def excOffRuns : Frame := frameFrom 0 48 [(bareCarriage 0 16 oExcOff 5, { CarRun.fresh with state := .running })]

/-- Under a warning, which the statement's hypotheses admit, a CAL_EVT holds EV0, whose rise waits with a LEDGER_LAP that zeroes the running
sums. -/
def riseAtCarriageEnd : State :=
  let s := busyWith (cmdWith 7 0x100) .holding (riseHeld true (framed excOffRuns (lockedAt 0)))
  { s with pwr := { s.pwr with warn := true } }

/-- What follows the carriage's end cuts the command (R42); the rise that then registers takes the lap along. -/
theorem riseAtCarriageEnd_zeroes : (settle (carriageEndOp 0 riseAtCarriageEnd)).ldg.run ≠ riseAtCarriageEnd.ldg.run := by decide +kernel

/-- Refutes O59: the clause on CARRIAGE_END has the running sums as before without asking, as the one on FRAME_END does, that no ledger command
waits, though the end of a hold that follows lets an input register, with a LEDGER_LAP that waits and zeroes them. -/
theorem not_framesAndConversions : ¬ Obligations.FramesAndConversions := by
  unfold Obligations.FramesAndConversions
  intro h
  obtain ⟨-, hruns, -⟩ := h riseAtCarriageEnd 0 0
  obtain ⟨-, -, hend, -⟩ := hruns excOffRuns rfl rfl rfl _ rfl (by decide) rfl
  obtain ⟨t, ht, -, -, -, -, -, -, hrun, -⟩ := hend (by decide) rfl (by decide)
  have he := Host.Outcome.next.inj (show Host.Outcome.next (settle (carriageEndOp 0 riseAtCarriageEnd)) = _ from ht)
  rw [← he] at hrun
  exact riseAtCarriageEnd_zeroes hrun

end Sys2Proof.Machine
end

section
/-! SUPPORT. A detach on a port whose held CONVERT is past its T_conv by the time of the detach. -/

namespace Sys2Proof.Machine

/-- A CONVERT of port 0 that repeats a value, its modulator held (R308): T_conv is its qtick 2048. -/
def heldConvert : Frame :=
  frameFrom 0 4000
    [(bareCarriage 0 4000 oConvert 0,
      { CarRun.fresh with state := .running, held := true, val := some { v := 0, stamp := ⟨0, 0, true⟩, flags := fStale ||| fCalHold } })]

/-- At its start, with pair A excited and a CAL_MOD holding the modulator. -/
def convertInHold : State :=
  let s := busyWith (cmdWith 6 0x10010) .holding (portsPresent (framed heldConvert (lockedAt 0)))
  { s with afe := { s.afe with pairA := { s.afe.pairA with on := true } }, cal := { s.cal with holdMod := 1 } }

/-- The CONVERT watches its port (R319), but no more at its qtick 2500. -/
theorem convertInHold_watches : watchesPort convertInHold 0 = true ∧ watchesPort (advance 20000 convertInHold) 0 = false := by
  decide +kernel

/-- Refutes O60: the clause on DETACH_IN_CONVERSION asks whether a CONVERT watches the port before time has passed to the detach, by when its
T_conv may be over: the row then changes nothing. -/
theorem not_watchesPresenceAndOutput : ¬ Obligations.WatchesPresenceAndOutput := by
  unfold Obligations.WatchesPresenceAndOutput
  intro h
  obtain ⟨hwatches, hpast⟩ := convertInHold_watches
  obtain ⟨-, -, -, -, hports, -⟩ := h convertInHold 0 20000 (by decide) (by decide)
  obtain ⟨hdetach, -⟩ := hports rfl
  obtain ⟨t, ht, hstate, -⟩ := hdetach hwatches (by decide)
  have hsame : detachInConversion 0 20000 convertInHold = convertInHold := by simp [detachInConversion, hpast]
  have he := Host.Outcome.next.inj (show Host.Outcome.next (detachInConversion 0 20000 convertInHold) = _ from ht)
  rw [← he, hsame] at hstate
  exact absurd hstate (by decide)

end Sys2Proof.Machine
end

section
/-! SUPPORT. Committed bytes of the timetables, the state-machine tables and the roster (R173, R188, R244): O27. -/

namespace Sys2Proof.Machine

/-! ## Transfers into the ranges of the tables -/

/-- The n bytes from a lie in the roster's descriptors, in the two timetables, or in the state-machine tables (Table 4.1). -/
def tableRange (a n : Nat) : Prop :=
  (0x1000 ≤ a ∧ a + n ≤ 0x1400) ∨ (0x2000 ≤ a ∧ a + n ≤ 0x4000) ∨ (0x7500 ≤ a ∧ a + n ≤ 0x75C0)

/-- A place of a commit that is a byte of such a range. -/
def Item.inTables : Item → Prop
  | .reg _ _ => False
  | .byte a _ => tableRange a 1

/-- A byte outside the window is a place of its own in the commit. -/
theorem itemsOf_cons (a : Nat) (b : Byte) (r : List Byte) (hlo : 0x100 ≤ a) (hhi : a < 0x10000) :
    itemsOf a [] (b :: r) = .byte a b :: itemsOf (a + 1) [] r := by
  simp [itemsOf, Nat.mod_eq_of_lt hhi, Nat.not_lt.mpr hlo]

/-- The places of a commit of bytes of such a range lie in it. -/
theorem itemsOf_inTables (a : Nat) (data : List Byte) (h : tableRange a data.length) : ∀ i ∈ itemsOf a [] data, i.inTables := by
  induction data generalizing a with
  | nil => simp [itemsOf]
  | cons b r ih =>
    simp only [tableRange, List.length_cons] at h
    rw [itemsOf_cons a b r (by omega) (by omega), List.forall_mem_cons]
    exact ⟨by simp only [Item.inTables, tableRange]; omega, ih (a + 1) (by simp only [tableRange]; omega)⟩

/-- It races with nothing that MEAS runs (R225, R234). -/
theorem Item.inTables_races (i : Item) (h : i.inTables) : i.actsOnMeas = false ∧ i.inStore = false ∧ i.inFormats = false := by
  cases i with
  | reg k w => exact h.elim
  | byte a b =>
    simp only [Item.inTables, tableRange] at h
    simp [Item.actsOnMeas, Item.inStore, Item.inFormats]
    omega

/-- A commit of such bytes writes no register. -/
theorem wordsIn_inTables (is : List Item) (h : ∀ i ∈ is, i.inTables) : wordsIn false is = [] :=
  List.filterMap_eq_nil_iff.mpr fun i hi => by
    cases i with
    | reg k w => exact (h _ hi).elim
    | byte a b => rfl

/-- After the main start it is the effect of each byte: nothing races with them, and nothing falls at its end. -/
theorem commit_inTables (is : List Item) (s : State) (h : ∀ i ∈ is, i.inTables) (he : earlyTxn s = false) :
    commit is s = forAll is (commitItem false) s := by
  have hm : is.any Item.actsOnMeas = false := List.any_eq_false.mpr fun i hi => by simp [i.inTables_races (h i hi)]
  have hs : is.any Item.inStore = false := List.any_eq_false.mpr fun i hi => by simp [i.inTables_races (h i hi)]
  have hf : is.any Item.inFormats = false := List.any_eq_false.mpr fun i hi => by simp [i.inTables_races (h i hi)]
  simp only [commit, he, wordsIn_inTables is h, hm, hs, hf, when_false, commitEnd_nil]

/-- A transaction of its own on a ready port. -/
theorem ownTxn_ready (a : Nat) (f : State → State) (z : State) (h : HostReady z) :
    ownTxn a f z = closeTxn (f (openTxn (busMoved a z))) := by
  obtain ⟨hp, -, ht, -⟩ := h
  rw [ownTxn, if_pos hp, closeTxn_none z ht]

/-- In it no range is barred (R85). -/
theorem earlyTxn_ready (a : Nat) (z : State) (h : HostReady z) : earlyTxn (openTxn (busMoved a z)) = false := by
  obtain ⟨-, hr, -⟩ := busMoved_ready a z h
  simp [hr]

/-- A write transfer into such a range is rejected for nothing and meets no unmapped byte (R59 to R61): each byte has its effect. -/
theorem hostBytes_inTables (a : Nat) (data : List Byte) (z : State) (h : HostReady z) (hn : data.length ≤ 256)
    (hr : tableRange a data.length) :
    hostBytes a data z = closeTxn (forAll (itemsOf a [] data) (commitItem false) (openTxn (busMoved (a + data.length) z))) := by
  have hr' := hr
  simp only [tableRange] at hr'
  have ha : (BitVec.ofNat 16 a).toNat = a := by rw [BitVec.toNat_ofNat]; omega
  have he : extentErrs a data.length = [] := by
    have hp : partialWrite a data.length = false := by simp [partialWrite]; omega
    simp [extentErrs, hp, hn]
  have hm : (xferAddrs a data.length).any (fun x => !mapped x) = false := List.any_eq_false.mpr fun x hx => by
    obtain ⟨i, hi, rfl⟩ := List.mem_map.mp hx
    have hi := List.mem_range.mp hi
    have hv : inClassV ((a + i) % 65536) = true ∨ inClassN ((a + i) % 65536) = true := by simp [inClassV, inClassN]; omega
    rcases hv with hv | hv <;> simp [mapped, hv]
  rw [hostBytes, if_pos he, ownTxn_ready _ _ z h]
  simp only [writeBytes, ha, he, hm, when_false, ne_eq, not_true, if_false]
  rw [commit_inTables _ _ (itemsOf_inTables a data hr) (earlyTxn_ready _ z h)]

/-! ## Bytes that take effect one after another -/

/-- Each byte from lo on and below hi has the effect `bulk` on a state of which P holds, which keeps P; and `bulk` of several bytes is
that of the first, then that of the others. -/
structure CommitsAs (bulk : Nat → List Byte → State → State) (P : State → Prop) (lo hi : Nat) : Prop where
  one : ∀ x v s, lo ≤ x → x < hi → P s → byteWrite x v s = bulk x [v] s
  keeps : ∀ x v s, P s → P (bulk x [v] s)
  more : ∀ x v r s, r ≠ [] → bulk (x + 1) r (bulk x [v] s) = bulk x (v :: r) s

/-- Such bytes, committed in their order. -/
theorem CommitsAs.forAll_itemsOf {bulk : Nat → List Byte → State → State} {P : State → Prop} {lo hi : Nat}
    (h : CommitsAs bulk P lo hi) (a : Nat) (data : List Byte) (s : State) (hw : 0x100 ≤ a) (hm : a + data.length ≤ 0x10000)
    (ha : lo ≤ a) (hb : a + data.length ≤ hi) (hd : data ≠ []) (hP : P s) :
    forAll (itemsOf a [] data) (commitItem false) s = bulk a data s := by
  induction data generalizing a s with
  | nil => exact absurd rfl hd
  | cons v r ih =>
    rw [List.length_cons] at hm hb
    have hv : commitItem false (.byte a v) s = bulk a [v] s := h.one a v s ha (by omega) hP
    rw [itemsOf_cons a v r (by omega) (by omega)]
    change forAll (itemsOf (a + 1) [] r) (commitItem false) (commitItem false (.byte a v) s) = _
    rw [hv]
    by_cases hr : r = []
    · subst hr; rfl
    · rw [ih (a + 1) _ (by omega) (by omega) (by omega) (by omega) hr (h.keeps a v s hP), h.more a v r s hr]

/-- Such bytes, written in a transfer of their own on a ready port. -/
theorem CommitsAs.hostBytes_eq {bulk : Nat → List Byte → State → State} {P : State → Prop} {lo hi : Nat}
    (h : CommitsAs bulk P lo hi) (a : Nat) (data : List Byte) (z s : State) (hz : HostReady z) (e : s = busMoved (a + data.length) z)
    (hd : 0 < data.length) (hn : data.length ≤ 256) (hr : tableRange a data.length) (ha : lo ≤ a) (hb : a + data.length ≤ hi)
    (hP : P (openTxn s)) : hostBytes a data z = closeTxn (bulk a data (openTxn s)) := by
  subst e
  have hr' := hr
  simp only [tableRange] at hr'
  rw [hostBytes_inTables a data z hz hn hr,
    h.forAll_itemsOf a data _ (by omega) (by omega) ha hb (List.length_pos_iff.mp hd) hP]

/-! ## Timetables (R188) -/

/-- A byte of a timetable range is one of its table's. -/
theorem byteWrite_timetable (b : Bool) (x : Nat) (v : Byte) (s : State) (hlo : ttBase b ≤ x) (hhi : x < ttBase b + 4096) :
    byteWrite x v s = tableByte b x v s := by
  have hr : 0x2000 ≤ x ∧ x < 0x4000 := by cases b <;> simp [ttBase] at hlo hhi <;> omega
  have hm : mapped x = true := by simp [mapped, inClassV]; omega
  have ht : tableAt x = some b := by cases b <;> simp [ttBase] at hlo hhi <;> grind [tableAt]
  have hw : ¬ x < 0x100 := by omega
  simp [byteWrite, hm, ht, hw]

/-- A table takes no bytes: it is active, and TT_CTL.en is 1. -/
def protectedTable (b : Bool) (s : State) : Bool := s.tt.activeValid && s.tt.active == b && ttEn s

/-- A byte was discarded, in a transaction or between two. -/
def discarded (s : State) : State := note (fun t => { t with prot := true }) { s with tt := { s.tt with protHit := true } }

/-- The table is no longer installed, and where it was the active one none is. -/
def unloaded (b : Bool) (s : State) : State :=
  { s with tt := { s.tt with
    instA := if b then s.tt.instA else none, instB := if b then none else s.tt.instB
    activeValid := s.tt.activeValid && s.tt.active != b } }

/-- A table that no switch awaits stops being installed. -/
theorem uninstall_unawaited (b : Bool) (s : State) (h : s.tt.swPend ≠ some b) : uninstall b s = unloaded b s := by
  rw [uninstall, if_neg h, unloaded]

/-- The bytes of a protected table are discarded. -/
theorem timetable_discards (b : Bool) :
    CommitsAs (fun _ _ => discarded) (fun s => protectedTable b s = true) (ttBase b) (ttBase b + 4096) where
  one x v s hlo hhi hP := by rw [byteWrite_timetable b x v s hlo hhi]; exact if_pos hP
  keeps _ _ _ hP := hP
  more _ _ _ s _ := by simp [discarded, note, Function.comp_def]

/-- The bytes of any other table that no switch awaits are stored, and it is no longer installed. -/
theorem timetable_takes (b : Bool) :
    CommitsAs (fun x bs s => store x bs (unloaded b s)) (fun s => protectedTable b s = false ∧ s.tt.swPend ≠ some b) (ttBase b)
      (ttBase b + 4096) where
  one x v s hlo hhi hP := by
    rw [byteWrite_timetable b x v s hlo hhi, ← uninstall_unawaited b s hP.2]
    exact if_neg (Bool.eq_false_iff.mp hP.1)
  keeps x v s hP := by
    refine ⟨?_, hP.2⟩
    change (s.tt.activeValid && s.tt.active != b && s.tt.active == b && ttEn s) = false
    cases h : s.tt.active == b <;> simp [bne, h]
  more x v r s _ := by cases b <;> simp [store, memStore, unloaded]

/-- A table is open exactly where it is not active or TT_CTL.en is 0. -/
theorem protectedTable_eq_false_iff (b : Bool) (s : State) :
    protectedTable b s = false ↔ s.tt.activeValid = false ∨ s.tt.active ≠ b ∨ ttEn s = false := by
  simp only [protectedTable, Bool.and_eq_false_iff, beq_eq_false_iff_ne, or_assoc]

/-- The image of a table that is no longer installed, and of the other one. -/
theorem instOf_unloaded (b : Bool) (s : State) : instOf (unloaded b s) b = none ∧ instOf (unloaded b s) (!b) = instOf s (!b) := by
  cases b <;> exact ⟨rfl, rfl⟩

/-! ## State-machine tables (R244) -/

/-- An input returns to state 0. -/
def inputRestarted (i : Nat) (s : State) : State := { s with evin := { s.evin with st := s.evin.st.set i 0 } }

/-- The bytes of an input's table are stored, and the input returns to state 0. -/
theorem stateTable_restarts (i : Nat) (hi : i < 6) :
    CommitsAs (fun x bs s => store x bs (inputRestarted i s)) (fun _ => True) (0x7500 + 32 * i) (0x7500 + 32 * i + 32) where
  one x v s hlo hhi _ := by
    have hm : mapped x = true := by simp [mapped, inClassN]; omega
    have ht : tableAt x = none := by rw [tableAt, if_neg (by omega), if_neg (by omega)]
    have h1 : ¬ x < 0x100 := by omega
    have h2 : ¬ (0x1000 ≤ x ∧ x < 0x1400) := by omega
    have h3 : 0x7500 ≤ x ∧ x < 0x75C0 := by omega
    have hk : (x - 0x7500) / 32 = i := by omega
    simp [byteWrite, hm, ht, h1, h2, h3, smByte, hk, inputRestarted]
  keeps _ _ _ _ := trivial
  more x v r s _ := by simp [store, memStore, inputRestarted]

/-! ## Seals (R173) -/

/-- Byte 31 of the descriptor of a channel is stored and seals it. -/
theorem byteWrite_seal (ch : BitVec 5) (v : Byte) (s : State) :
    byteWrite (0x1000 + 32 * ch.toNat + 31) v s = sealNow ch (store (0x1000 + 32 * ch.toNat + 31) [v] s) := by
  have hc := ch.isLt
  have hm : mapped (0x1000 + 32 * ch.toNat + 31) = true := by simp [mapped, inClassV]; omega
  have ht : tableAt (0x1000 + 32 * ch.toNat + 31) = none := by rw [tableAt, if_neg (by omega), if_neg (by omega)]
  have h1 : ¬ 0x1000 + 32 * ch.toNat + 31 < 0x100 := by omega
  have h2 : 0x1000 ≤ 0x1000 + 32 * ch.toNat + 31 ∧ 0x1000 + 32 * ch.toNat + 31 < 0x1400 := by omega
  have h31 : (0x1000 + 32 * ch.toNat + 31) % 32 = 31 := by omega
  have hk : BitVec.ofNat 5 ((0x1000 + 32 * ch.toNat + 31 - 0x1000) / 32) = ch := by
    rw [show (0x1000 + 32 * ch.toNat + 31 - 0x1000) / 32 = ch.toNat by omega, BitVec.ofNat_toNat]
    simp
  simp only [byteWrite, hm, ht, if_pos h2, rosterByte, h31, hk]
  simp [h1, when]

/-- What a seal leaves of the roster: the sealed copy of the channel is the host copy, the residents of the depot stand. -/
theorem sealNow_ros (c : BitVec 5) (s : State) :
    (sealNow c s).ros = { s.ros with sealed := s.ros.sealed.set c.toNat (memLoad s.mem (0x1000 + 32 * c.toNat) 32) } := by
  have hc : (sealChannel c s).ros =
      { s.ros with sealed := s.ros.sealed.set c.toNat (memLoad s.mem (0x1000 + 32 * c.toNat) 32) } := by
    unfold sealChannel
    dsimp only
    split <;> split <;> simp [sealInFrame_frame, holdSeal_frame, latchFrame_frame]
  simp [sealNow, presettleFor_frame, hc]

/-- The seal of a ready port. -/
theorem exec_seal (ch : BitVec 5) (v : Byte) (z s : State) (h : HostReady z) (e : s = busMoved (0x1000 + 32 * ch.toNat + 32) z) :
    exec (.seal ch v) z = .next (betweenTxns (sealNow ch (store (0x1000 + 32 * ch.toNat + 31) [v] (openTxn s)))) := by
  subst e
  have hc := ch.isLt
  have hi : ∀ i ∈ [Item.byte (0x1000 + 32 * ch.toNat + 31) v], i.inTables := by
    simp only [List.mem_singleton, forall_eq, Item.inTables, tableRange]
    omega
  change Host.Outcome.next (ownTxn (0x1000 + 32 * ch.toNat + 32) (commit [.byte (0x1000 + 32 * ch.toNat + 31) v]) z) = _
  rw [ownTxn_ready _ _ z h, commit_inTables _ _ hi (earlyTxn_ready _ z h)]
  change Host.Outcome.next (closeTxn (byteWrite _ v _)) = _
  rw [byteWrite_seal]
  exact congrArg _ (closeTxn_bare _ _ (by simp only [sealNow_frame]; rfl) (bare_new _))

/-- Bytes of a timetable lie in the ranges of the tables. -/
theorem tableRange_timetable (b : Bool) (off n : Nat) (h : off + n ≤ 4096) : tableRange (ttBase b + off) n := by
  cases b <;> simp [tableRange, ttBase] <;> omega

/-- Settles O27: a seal by what it leaves of the roster, bytes of the other tables by what they commit as. -/
theorem tableWrites : Obligations.TableWrites := by
  unfold Obligations.TableWrites
  intro z h hw
  refine ⟨?descriptor, ?taken, ?refused, ?states⟩
  case descriptor =>
    intro ch v s e
    obtain ⟨-, -, ht, hh⟩ : HostReady s := e ▸ busMoved_ready _ z h
    have hws : Memory.wf s.mem = true := e ▸ hw
    refine ⟨_, exec_seal ch v z s h e, ?_⟩
    simp only [betweenTxns, sealNow_frame, sealNow_inner, sealNow_ros, store, openTxn, hif_no_txn _ ht hh, and_true]
    intro x
    exact memByte_memStore [v] s.mem _ x hws
  case taken =>
    intro b off data hd hn ho s e hopen hsw
    obtain ⟨-, -, hns⟩ : HostReady s := e ▸ busMoved_ready _ z h
    have hws : Memory.wf s.mem = true := e ▸ hw
    have hc := (timetable_takes b).hostBytes_eq _ data z s h e hd hn (tableRange_timetable b _ _ ho) (Nat.le_add_right ..) (by omega)
      ⟨(protectedTable_eq_false_iff b s).mpr hopen, hsw⟩
    obtain ⟨hnone, hother⟩ := instOf_unloaded b s
    have ht := closeTxn_own (store (ttBase b + off.toNat) data (unloaded b (openTxn s))) s
      (store (ttBase b + off.toNat) data (unloaded b s)) rfl hns rfl
    exact ⟨_, congrArg Host.Outcome.next (hc.trans ht), fun x => memByte_memStore data s.mem _ x hws, hnone, hother, rfl, rfl, rfl⟩
  case refused =>
    intro b off data hd hn ho s e hv ha hen
    obtain ⟨-, -, hns⟩ : HostReady s := e ▸ busMoved_ready _ z h
    have hp : protectedTable b s = true := by simp [protectedTable, hv, ha, hen]
    have hc := (timetable_discards b).hostBytes_eq _ data z s h e hd hn (tableRange_timetable b _ _ ho) (Nat.le_add_right ..) (by omega) hp
    have ht := closeTxn_bare (discarded (openTxn s)) { Txn.new s with prot := true } rfl (bare_new s)
    exact congrArg _ (hc.trans (ht.trans (betweenTxns_of_noTxn { s with tt := { s.tt with protHit := true } } hns)))
  case states =>
    intro input off data hi hd ho s e
    obtain ⟨-, -, hns⟩ : HostReady s := e ▸ busMoved_ready _ z h
    have hws : Memory.wf s.mem = true := e ▸ hw
    have hc := (stateTable_restarts input.toNat hi).hostBytes_eq _ data z s h e hd (by omega) (by simp only [tableRange]; omega) (by omega)
      (by omega) trivial
    have hx : exec (.smTableWrite input off data) z = .next (hostBytes (0x7500 + 32 * input.toNat + off.toNat) data z) :=
      congrArg _ (if_neg (Nat.not_le.mpr hi))
    have ht := closeTxn_own (store (0x7500 + 32 * input.toNat + off.toNat) data (inputRestarted input.toNat (openTxn s))) s
      (store (0x7500 + 32 * input.toNat + off.toNat) data (inputRestarted input.toNat s)) rfl hns rfl
    exact ⟨_, hx.trans (congrArg _ (hc.trans ht)), fun x => memByte_memStore data s.mem _ x hws, rfl, rfl⟩

end Sys2Proof.Machine
end

section
/-! SUPPORT. Committed writes of the ring tails (R214, R251, R337): O5. -/

namespace Sys2Proof.Machine

/-- The low n bits of a word that holds a value of n bits. -/
theorem fld_setWidth {n : Nat} (h : n ≤ 32) (v : BitVec n) : fld (v.setWidth 32) 0 n = v.toNat := by
  have hv : v.toNat < 2 ^ n := v.isLt
  rw [fld, Nat.pow_zero, Nat.div_one, BitVec.toNat_setWidth_of_le h, Nat.mod_eq_of_lt hv]

/-- The count by which a tail is judged is the difference of the indices, modulo their width. -/
theorem tailOk_eq {n : Nat} (h : n ≤ 32) (head v : BitVec n) (size : Nat) :
    tailOk head.toNat (fld (v.setWidth 32) 0 n) size (2 ^ n) = decide ((head - v).toNat ≤ size) := by
  have hv : v.toNat < 2 ^ n := v.isLt
  have hd : head.toNat + 2 ^ n - v.toNat = 2 ^ n - v.toNat + head.toNat := by omega
  rw [tailOk, fld_setWidth h, Nat.mod_eq_of_lt hv, BitVec.toNat_sub, hd]

/-- A tail as a committed word of its register leaves it. -/
theorem tail_written {n : Nat} (h : n ≤ 32) (head tail v : BitVec n) (size : Nat) :
    (if tailOk head.toNat (fld (v.setWidth 32) 0 n) size (2 ^ n) = true then (v.setWidth 32).setWidth n else tail) =
      if (head - v).toNat ≤ size then v else tail := by
  simp only [tailOk_eq h, decide_eq_true_eq, BitVec.setWidth_setWidth_of_le v h, BitVec.setWidth_eq]

/-- Settles O5: each write is its register's effect, and the count it would leave is the difference of the indices. -/
theorem ringTails : Obligations.RingTails := by
  unfold Obligations.RingTails
  refine fun z h => ⟨?result, ?log, ?completion⟩
  case result =>
    rintro s rfl v
    rw [← tail_written (by decide : 9 ≤ 32) (moved 38 z).res.head (moved 38 z).res.tail v 256]
    exact congrArg _ (hostWord_effect 38 _ z h (by decide) (noTxn_moved 38 z h) rfl)
  case log =>
    rintro s rfl v
    rw [← tail_written (by decide : 7 ≤ 32) (moved 46 z).evin.head (moved 46 z).evin.tail v 64]
    exact congrArg _ (hostWord_effect 46 _ z h (by decide) (noTxn_moved 46 z h) rfl)
  case completion =>
    rintro s rfl v
    rw [← tail_written (by decide : 5 ≤ 32) (moved 59 z).cond.head (moved 59 z).cond.tail v 16]
    exact congrArg _ (hostWord_effect 59 _ z h (by decide) (noTxn_moved 59 z h) rfl)

end Sys2Proof.Machine
end

section
/-! SUPPORT. Committed writes of TT_CTL and TT_START (R197, R201, R205, R217): O10. -/

namespace Sys2Proof.Machine

/-- The machine with a commit check pending where TT_START is armed (R217). -/
def startChecked (s : State) : State := { s with tt := { s.tt with startChk := s.tt.startChk || bitOf s.tt.ctl 3 } }

/-- The end of a commit sequence that wrote TT_CTL asks for the commit check of TT_START alone. -/
theorem commitEnd_ttCtl (w : Word) (s : State) : commitEnd [(32, w)] s = startChecked s := by
  simp [commitEnd, clockEnd, armChecks, wrote, lastWord, startChecked]

/-- So does that of one that wrote the two words of TT_START. -/
theorem commitEnd_ttStart (sec frac : Word) (s : State) : commitEnd [(35, sec), (36, frac)] s = startChecked s := by
  simp [commitEnd, clockEnd, armChecks, wrote, lastWord, startChecked]

/-- A write of TT_CTL neither reads nor notes anything in the transaction. -/
theorem writeTtCtl_withTxn (w : Word) (x : Option Txn) (s : State) : writeTtCtl w (withTxn x s) = withTxn x (writeTtCtl w s) := by
  unfold writeTtCtl
  rw [apply_ite (withTxn x)]
  rfl

/-- The sequencer as TT_CTL leaves it, without an active table or with en written 0 disabled (R197, R201, R205). -/
def ttWritten (w : Word) (s : State) : Tt :=
  let on_ := bitOf w 0 && s.tt.activeValid
  { s.tt with
    ctl := setFld (w &&& 0xF) 0 1 on_.toNat
    queued := if on_ then s.tt.queued else none
    freeRun := s.tt.freeRun && on_
    await := if on_ then s.tt.await else s.tt.await.filter (fun a => !a.cont) }

/-- Where the sequencer was enabled and is no more, port_en applies at once (R315); nothing else changes. -/
theorem writeTtCtl_eq (w : Word) (s : State) :
    writeTtCtl w s = { s with
      tt := ttWritten w s
      disc := if ttEn s && !(bitOf w 0 && s.tt.activeValid) then (applyPortEn (s.afe.ctl.setWidth 4) s).disc else s.disc } := by
  have hw : writeTtCtl w s = if ttEn s && !(bitOf w 0 && s.tt.activeValid) then
      applyPortEn (s.afe.ctl.setWidth 4) { s with tt := ttWritten w s } else { s with tt := ttWritten w s } := rfl
  rw [hw]
  split <;> rfl

/-- TT_CTL.en as it is left (R197). -/
theorem en_ttWritten (w : Word) (s : State) : bitOf (ttWritten w s).ctl 0 = (bitOf w 0 && s.tt.activeValid) := by
  rw [bitOf, ttWritten, getLsbD_setFld _ _ _ _ _ (by decide), if_pos (by decide)]
  cases bitOf w 0 && s.tt.activeValid <;> rfl

/-- A committed write of TT_CTL is its effect and the commit check. -/
theorem hostWord_ttCtl (w : Word) (z : State) (h : HostReady z) :
    hostWord 32 w z = startChecked (writeTtCtl w (moved 32 z)) := by
  have hr : regWrite 32 w (openTxn (moved 32 z)) = withTxn (some (Txn.new (moved 32 z))) (writeTtCtl w (moved 32 z)) :=
    writeTtCtl_withTxn w _ _
  have hn : noTxn (startChecked (writeTtCtl w (moved 32 z))) :=
    noTxn_of_hif (noTxn_moved 32 z h) (by rw [writeTtCtl_eq]; rfl)
  have ha : Item.actsOnMeas (.reg 32 w) = false := rfl
  rw [hostWord_ready 32 w z h, ha, when_false, commitEnd_ttCtl, hr, closeTxn_bare _ _ rfl (bare_new (moved 32 z))]
  exact betweenTxns_of_noTxn _ hn

/-- The machine with the two words of TT_START, of the second its upper 15 bits. -/
def startWritten (sec frac : Word) (s : State) : State :=
  { s with tt := { s.tt with startSec := sec, startFrac := frac &&& 0xFFFE0000 } }

/-- TT_START_SEC and TT_START_FRAC written by the host in one transaction. -/
theorem exec_ttStartArm (sec frac : Word) (z : State) (h : HostReady z) :
    exec (.ttStartArm sec frac) z = .next (startChecked (startWritten sec frac (moved 36 z))) := by
  have he : earlyTxn (openTxn (moved 36 z)) = false := earlyTxn_ready (4 * 36 + 4) z h
  have hc : commit [.reg 35 sec, .reg 36 frac] (openTxn (moved 36 z)) =
      withTxn (some (Txn.new (moved 36 z))) (startChecked (startWritten sec frac (moved 36 z))) := by
    rw [commit, he]
    exact commitEnd_ttStart sec frac _
  have hb : hostItems [.reg 35 sec, .reg 36 frac] z = closeTxn (commit [.reg 35 sec, .reg 36 frac] (openTxn (moved 36 z))) :=
    ownTxn_ready _ _ z h
  refine congrArg Host.Outcome.next (hb.trans ?_)
  rw [hc, closeTxn_bare _ _ rfl (bare_new (moved 36 z))]
  exact betweenTxns_of_noTxn (startChecked (startWritten sec frac (moved 36 z))) (noTxn_of_hif (noTxn_moved 36 z h) rfl)

/-- Bit 0 of the words that TT_ENABLE and TT_DISABLE write. -/
theorem en_written (c : Word) : bitOf (c ||| 1) 0 = true ∧ bitOf (c &&& 0xE) 0 = false := by
  simp [bitOf]

/-- Settles O10: a write of TT_CTL is what it leaves of the sequencer and of port_en, with the commit check of TT_START behind it. -/
theorem sequencerWrites : Obligations.SequencerWrites := by
  unfold Obligations.SequencerWrites
  refine fun z h => ⟨?enable, ?noTable, ?disable, ?arm⟩
  case enable =>
    rintro s rfl hv
    have hv' : z.tt.activeValid = true := hv
    refine ⟨_, congrArg Host.Outcome.next (hostWord_ttCtl _ z h), ?_⟩
    obtain ⟨hen, -⟩ := en_written z.tt.ctl
    have hon : (bitOf (z.tt.ctl ||| 1) 0 && (moved 32 z).tt.activeValid) = true := by rw [hen, hv]; rfl
    rw [writeTtCtl_eq, hon, Bool.not_true, Bool.and_false, if_neg Bool.false_ne_true]
    refine ⟨(en_ttWritten _ _).trans hon, ?_, rfl, ?_, rfl⟩
    · exact if_pos hon
    · exact if_pos hon
  case noTable =>
    rintro s rfl hv
    refine ⟨_, congrArg Host.Outcome.next (hostWord_ttCtl _ z h), ?_⟩
    rw [writeTtCtl_eq]
    exact (en_ttWritten _ _).trans (by rw [hv, Bool.and_false])
  case disable =>
    rintro s rfl
    refine ⟨_, congrArg Host.Outcome.next (hostWord_ttCtl _ z h), ?_⟩
    obtain ⟨-, hen⟩ := en_written z.tt.ctl
    have hoff : (bitOf (z.tt.ctl &&& 0xE) 0 && (moved 32 z).tt.activeValid) = false := by rw [hen, Bool.false_and]
    rw [writeTtCtl_eq, hoff, Bool.not_false, Bool.and_true]
    refine ⟨(en_ttWritten _ _).trans hoff, ?_, ?_, rfl, fun he => ?_, fun he => ?_, rfl⟩
    · exact if_neg (Bool.eq_false_iff.mp hoff)
    · exact (congrArg (_ && ·) hoff).trans (Bool.and_false _)
    · exact congrArg Disc.en (if_pos he)
    · exact if_neg (Bool.eq_false_iff.mp he)
  case arm =>
    rintro s rfl sec frac
    exact exec_ttStartArm sec frac z h

end Sys2Proof.Machine
end

section
/-! SUPPORT. LOAD_TT (R194, R195): O33. -/

namespace Sys2Proof.Machine

/-! ## The start of a timetable command -/

/-- A command's start leaves the sequencer, but for what its running frame latches. -/
@[simp] theorem startOf_tables (n : Nat) (s : State) :
    (startOf n s).tt.instA = s.tt.instA ∧ (startOf n s).tt.instB = s.tt.instB ∧ (startOf n s).tt.active = s.tt.active ∧
    (startOf n s).tt.activeValid = s.tt.activeValid ∧ (startOf n s).tt.swPend = s.tt.swPend ∧ (startOf n s).tt.ctl = s.tt.ctl := by
  simp [startOf]

/-- It leaves the images. -/
theorem instOf_startOf (n : Nat) (s : State) (b : Bool) : instOf (startOf n s) b = instOf s b := by simp [instOf]

/-- It leaves the table that takes no bytes. -/
theorem protectedTable_startOf (n : Nat) (s : State) (b : Bool) : protectedTable b (startOf n s) = protectedTable b s := by
  simp [protectedTable, ttEn]

/-- A command that is to end may change the tables, TT_CTL apart. -/
theorem EndsFrom.withTables {c : Cmd} {s v : State} (h : EndsFrom c s v) (x : Tt) (hx : x.ctl = v.tt.ctl) :
    EndsFrom c s { v with tt := x } := by
  obtain ⟨hstarted, hring, hdisc, hdue, hb⟩ := h
  refine ⟨hstarted, hring, hdisc, hdue, ?_⟩
  simpa [besideConductor, hx] using hb

/-- It may raise a source. -/
theorem EndsFrom.raise {c : Cmd} {s v : State} (h : EndsFrom c s v) (n : Nat) : EndsFrom c s (raise n v) := by
  obtain ⟨hstarted, hring, hdisc, hdue, hb⟩ := h
  exact ⟨hstarted, hring, hdisc, hdue, hb⟩

/-- Where memory is as it was, its end writes its record alone; the images stand. -/
theorem EndsFrom.recorded {c : Cmd} {s v : State} (h : EndsFrom c s v) (hm : v.mem = s.mem) (reason : Nat) (detail : Word) :
    ended c reason detail s (settle (finishCmd reason detail v)) ∧
    onlyBytes (nextRecordAt s) 16 s (settle (finishCmd reason detail v)) ∧
    besideConductor s (settle (finishCmd reason detail v)) ∧
    ∀ b, instOf (settle (finishCmd reason detail v)) b = instOf v b := by
  obtain ⟨he, -, hb, ho⟩ := h.ends reason detail
  obtain ⟨hhead, -⟩ := h.ring
  refine ⟨he, ?_, hb, fun b => by simp [instOf]⟩
  simpa [onlyBytes, nextRecordAt, hhead, hm] using ho

/-! ## LOAD_TT -/

/-- A byte of a range of memory. -/
theorem byteAt_memLoad (m : List Host.Cell) (a n i : Nat) (h : i < n) : byteAt (memLoad m a n) i = memByte m (a + i) := by
  simp [byteAt, memLoad_eq_map, h]

/-- The 4 096 bytes of a table's range. -/
def tableBytes (b : Bool) (s : State) : List Byte := memLoad s.mem (ttBase b) 4096

/-- The table is installed with an image. -/
def installedWith (b : Bool) (im : Image) (s : State) : State :=
  { s with tt := { s.tt with instA := if b then s.tt.instA else some im, instB := if b then some im else s.tt.instB } }

/-- Its image is that one; the other table's stands. -/
theorem instOf_installedWith (b : Bool) (im : Image) (s : State) :
    instOf (installedWith b im s) b = some im ∧ instOf (installedWith b im s) (!b) = instOf s (!b) := by
  cases b <;> exact ⟨rfl, rfl⟩

/-- LOAD_TT of a table that takes no bytes. -/
theorem loadTt_refused (c : Cmd) (s : State) (h : protectedTable (bitOf c.a0 0) s = true) : loadTt c s = finishCmd rState 0 s :=
  if_pos h

/-- LOAD_TT of any other table that no switch awaits: it is no longer installed; the command ends with the check that fails, or installs
the image. -/
theorem loadTt_checked (c : Cmd) (s : State) (h : protectedTable (bitOf c.a0 0) s = false) (hw : s.tt.swPend ≠ some (bitOf c.a0 0)) :
    loadTt c s =
      match loadFault (tableBytes (bitOf c.a0 0) s) with
      | some e => finishCmd rArgs (put 0 8 e.1 ||| put 8 8 e.2 ||| put 16 8 (memByte s.mem (ttBase (bitOf c.a0 0) + 5)).toNat)
          (raise 45 (unloaded (bitOf c.a0 0) s))
      | none => finishCmd rOk (put 16 8 (memByte s.mem (ttBase (bitOf c.a0 0) + 5)).toNat)
          (installedWith (bitOf c.a0 0) (imageOf (tableBytes (bitOf c.a0 0) s)) (unloaded (bitOf c.a0 0) s)) := by
  have hn : ¬ loadRefused c s = true := Bool.eq_false_iff.mp h
  have h5 := byteAt_memLoad s.mem (ttBase (bitOf c.a0 0)) 4096 5 (by decide)
  simp only [loadTt, if_neg hn, uninstall_unawaited _ s hw, h5, tableBytes]
  cases loadFault (memLoad s.mem (ttBase (bitOf c.a0 0)) 4096) <;> rfl

/-- LOAD_TT acts on the state it starts in. -/
theorem exec_loadTt (c : Cmd) (n : Nat) (s : State) (h : startedAs c s) (hop : c.op = 1) :
    exec (.loadTt n) s = .next (settle (loadTt c (startOf n s))) :=
  congrArg _ (onStart_started 1 n loadTt c s h hop)

/-- Settles O33: each outcome of the checks by what it leaves before the command's end, which writes the record and keeps the images. -/
theorem timetableLoad : Obligations.TimetableLoad := by
  unfold Obligations.TimetableLoad
  intro c s n h hop
  have hv := endsFrom_startOf c n s h
  obtain ⟨-, -, -, -, -, hmem, -⟩ := startOf_keeps n s
  obtain ⟨hA, hB, -, -, hsw, -⟩ := startOf_tables n s
  have hp := protectedTable_startOf n s (bitOf c.a0 0)
  refine ⟨fun hr => ?refused, fun hopen hw => ?checked⟩
  case refused =>
    obtain ⟨hvalid, hactive, hen⟩ := hr
    have hprot : protectedTable (bitOf c.a0 0) s = true := by simp [protectedTable, hvalid, hactive, hen]
    obtain ⟨he, ho, hb, hi⟩ := hv.recorded hmem rState 0
    refine ⟨_, exec_loadTt c n s h hop, ?_⟩
    rw [loadTt_refused c _ (hp.trans hprot)]
    exact ⟨he, ho, hb, (hi false).trans hA, (hi true).trans hB⟩
  case checked =>
    have hfree := hp.trans ((protectedTable_eq_false_iff _ s).mpr hopen)
    have hx := exec_loadTt c n s h hop
    have hu : EndsFrom c s (unloaded (bitOf c.a0 0) (startOf n s)) := hv.withTables _ rfl
    obtain ⟨hnone, hother⟩ := instOf_unloaded (bitOf c.a0 0) (startOf n s)
    rw [instOf_startOf] at hother
    rw [loadTt_checked c _ hfree (hsw.trans_ne hw), tableBytes, hmem] at hx
    refine ⟨fun hf => ?_, fun e hf => ?_⟩
    · rw [hf] at hx
      obtain ⟨he, ho, hb, hi⟩ := (hu.withTables _ rfl : EndsFrom c s (installedWith _ _ _)).recorded hmem rOk _
      obtain ⟨hthis, hrest⟩ := instOf_installedWith (bitOf c.a0 0) (imageOf (memLoad s.mem (ttBase (bitOf c.a0 0)) 4096))
        (unloaded (bitOf c.a0 0) (startOf n s))
      exact ⟨_, hx, he, ho, hb, (hi _).trans hthis, (hi _).trans (hrest.trans hother)⟩
    · rw [hf] at hx
      obtain ⟨he, ho, hb, hi⟩ := (hu.raise 45).recorded hmem rArgs _
      have hup : mainUp (unloaded (bitOf c.a0 0) (startOf n s)) = true := mainUp_of_condRuns _ hu.started.2.1
      refine ⟨_, hx, he, ho, hb, settle_latches _ _ (finishCmd_latches _ _ _ _ (raise_latched 45 _ (by decide) hup)),
        (hi _).trans hnone, (hi _).trans hother⟩

end Sys2Proof.Machine
end

section
/-! SUPPORT. SWITCH_TT (R195, R196): O34. -/

namespace Sys2Proof.Machine

/-! ## A frame and the passing of time -/

/-- The running frame latches descriptors and goes on. -/
theorem isNone_latchFrame (n : Nat) (s : State) : (latchFrame n s).tt.frame.isNone = s.tt.frame.isNone := by
  unfold latchFrame
  split
  · rfl
  · next f hf =>
    split
    · rfl
    · simp [applyStages_frame, hf]

/-- The passing of time neither starts nor ends a frame. -/
theorem isNone_startOf (n : Nat) (s : State) : (startOf n s).tt.frame.isNone = s.tt.frame.isNone := by
  simp only [startOf, serve, advance]
  split
  · simp [discExcites_frame, dueBy_frame, isNone_latchFrame]
  · rfl

/-! ## A completion record, and the return to rest behind it -/

/-- Behind a completion record where nothing runs come the next page and the return to rest: its answer, and what is as before (R336
to R338). -/
theorem settle_cplRecord (op : Nat) (auto direct : Bool) (reason : Nat) (tag : Byte) (detail : Word) (v t : State)
    (e : t = settle (cplRecord op auto direct reason tag detail v)) (hr : v.cond.running = none) (hd : v.cond.switchDone = [])
    (hwarn : v.pwr.warn = false) (h : ringRoom v) (hw : Memory.wf v.mem = true) (hm : mainUp v = true) :
    answered op auto direct reason tag detail v t ∧ onlyBytes (nextRecordAt v) 16 v t ∧ besideConductor v t ∧ t.tt = v.tt ∧
    t.cond.running = none ∧ ∀ n, latched n v = true → latched n t = true := by
  obtain ⟨⟨hhead, hseq, hovf, hrec, h56, h57⟩, ho⟩ := cplRecord_answered op auto direct reason tag detail v h hw hm
  rw [settle_rested _ (by simpa using hr) (by simpa using hd) (by simpa using hwarn)] at e
  subst e
  refine ⟨⟨by simpa using hhead, by simpa using hseq, ?_, by simpa using hrec, ?_, fun h1 h2 => ?_⟩, fun x hx => ?_, ?_, by simp,
    by simpa using hr, fun n hn => ?_⟩
  · rw [rest_ovf]
    simpa using hovf
  · simpa [latched] using h56
  · simpa [latched] using h57 h1 h2
  · simpa using ho x hx
  · simp [besideConductor]
  · simpa [latched] using cplRecord_latches op auto direct reason tag detail v n hn

/-! ## SWITCH_TT -/

/-- A switch to a table is pending, and a SWITCH_TT awaits it and runs no longer (R195). -/
def switchAwaited (c : Cmd) (s : State) : State :=
  { s with
    tt := { s.tt with swPend := some (bitOf c.a0 0) }
    cond := { s.cond with running := none, switches := s.cond.switches ++ [c.tag] } }

/-- The sequencer behind a switch to a table: a free run and its continuation end at one without free_run (R205). -/
def switchedTt (b : Bool) (s : State) : Tt :=
  let goesOn : Bool := match instOf s b with | some i => i.freeRun | none => false
  { s.tt with
    active := b, activeValid := true, swPend := none
    freeRun := s.tt.freeRun && goesOn
    await := if goesOn then s.tt.await else s.tt.await.filter (fun a => !a.cont) }

/-- The switch is made, with source 44, and its record is about to be written (R195, R340). -/
def switched (b : Bool) (s : State) : State :=
  { raise 44 { s with tt := switchedTt b s } with cond := { s.cond with switches := [], wdog := 0 } }

/-- A switch that one SWITCH_TT awaits is made with that command's record. -/
theorem applySwitch_one (s : State) (b : Bool) (g : Byte) (hp : s.tt.swPend = some b) (hr : s.cond.inReset = false)
    (hg : s.cond.switches = [g]) :
    applySwitch s = cplRecord 0x02 false false rOk g (put 0 1 b.toNat) (switched b s) := by
  have hawaits : ¬ (s.cond.inReset || s.cond.switches.isEmpty) = true := by simp [hr, hg]
  have hdone : (if s.cond.inReset = true then s.cond.switchDone ++ s.cond.switches.map (fun x => (x, some b)) else s.cond.switchDone) =
      s.cond.switchDone := if_neg (Bool.eq_false_iff.mp hr)
  unfold applySwitch
  rw [hp]
  refine (if_neg hawaits).trans ((congrArg (forAll · _ _) hg).trans ?_)
  exact congrArg (fun d => cplRecord 0x02 false false rOk g (put 0 1 b.toNat)
    { switched b s with cond := { (switched b s).cond with switchDone := d } }) hdone

/-- SWITCH_TT to a table that is not installed. -/
theorem switchTt_refused (c : Cmd) (s : State) (h : instOf s (bitOf c.a0 0) = none) : switchTt c s = finishCmd rState 0 s := by
  rw [switchTt, h]
  rfl

/-- SWITCH_TT to an installed table, where no job waits outside the queue. -/
theorem switchTt_installed (c : Cmd) (s : State) (h : instOf s (bitOf c.a0 0) ≠ none) (hq : noHolds s) :
    switchTt c s = if s.tt.frame.isNone then applySwitch (switchAwaited c s) else switchAwaited c s := by
  obtain ⟨-, -, -, -, hports⟩ := hq
  have hn : ¬ (instOf s (bitOf c.a0 0)).isNone = true := by simpa using h
  simp only [switchTt, if_neg hn]
  refine admitJobs_quiet _ ?_
  split
  · obtain ⟨-, -, -, -, -, -, -, -, -, -, -, -, -, -, hdisc, -⟩ := applySwitch_frame (switchAwaited c s)
    exact (congrArg (fun d => d.ports.all quietPort) hdisc).trans hports
  · exact hports

/-- Between frames the switch is made, and the command's record is written behind it (R195, R196). -/
theorem switchTt_between (c : Cmd) (s : State) (h : startedAs c s) (hi : instOf s (bitOf c.a0 0) ≠ none)
    (hf : s.tt.frame.isNone = true) (hs : s.cond.switches = []) :
    ∃ t, settle (switchTt c s) = t ∧ t.tt = switchedTt (bitOf c.a0 0) (switchAwaited c s) ∧ latched 44 t = true ∧
      t.cond.running = none ∧ answered 2 false false rOk c.tag (put 0 1 (bitOf c.a0 0).toNat) s t ∧ onlyBytes (nextRecordAt s) 16 s t ∧
      besideConductor s t := by
  obtain ⟨-, hc, hwarn, hroom, hq, hd, hwf⟩ := h
  have hup := mainUp_of_condRuns _ hc
  have hin : s.cond.inReset = false := by
    simp only [condRuns, Bool.and_eq_true, Bool.not_eq_true'] at hc
    exact hc.2
  have hg : s.cond.switches ++ [c.tag] = [c.tag] := by rw [hs, List.nil_append]
  rw [switchTt_installed c s hi hq, if_pos hf, applySwitch_one (switchAwaited c s) (bitOf c.a0 0) c.tag rfl hin hg]
  obtain ⟨ha, hbytes, hb, htt, hnone, hl⟩ := settle_cplRecord 2 false false rOk c.tag (put 0 1 (bitOf c.a0 0).toNat)
    (switched (bitOf c.a0 0) (switchAwaited c s)) _ rfl rfl hd hwarn hroom hwf hup
  exact ⟨_, rfl, htt, hl 44 (raise_latched 44 _ (by decide) hup), hnone, ha, hbytes, hb⟩

/-- In a frame the switch waits (R196). -/
theorem switchTt_inFrame (c : Cmd) (s : State) (h : startedAs c s) (hi : instOf s (bitOf c.a0 0) ≠ none)
    (hf : ¬ s.tt.frame.isNone = true) :
    ∃ t, settle (switchTt c s) = t ∧ t.tt = (switchAwaited c s).tt ∧ t.cond.switches = s.cond.switches ++ [c.tag] ∧
      t.cond.running = none ∧ t.cond.head = s.cond.head ∧ t.mem = s.mem ∧ besideConductor s t := by
  obtain ⟨-, -, hwarn, -, hq, hd, -⟩ := h
  rw [switchTt_installed c s hi hq, if_neg hf, settle_rested (switchAwaited c s) rfl hd hwarn]
  exact ⟨_, rfl, by simp, by simp [switchAwaited], by simp [switchAwaited], by simp [switchAwaited], by simp [switchAwaited],
    by simp [besideConductor, switchAwaited]⟩

/-- SWITCH_TT acts on the state it starts in. -/
theorem exec_switchTt (c : Cmd) (n : Nat) (s : State) (h : startedAs c s) (hop : c.op = 2) :
    exec (.switchTt n) s = .next (settle (switchTt c (startOf n s))) :=
  congrArg _ (onStart_started 2 n switchTt c s h hop)

/-- Settles O34: a refusal is the command's end, a switch between frames is `applySwitch_one`, and one in a frame waits. -/
theorem timetableSwitch : Obligations.TimetableSwitch := by
  unfold Obligations.TimetableSwitch
  intro c s n h hop
  have hv := endsFrom_startOf c n s h
  have hx := exec_switchTt c n s h hop
  have hi := instOf_startOf n s (bitOf c.a0 0)
  have hf := isNone_startOf n s
  obtain ⟨-, -, -, -, -, hmem, -⟩ := startOf_keeps n s
  obtain ⟨-, -, hactive, -⟩ := startOf_tables n s
  obtain ⟨hrun, -, hwarn, -, hq, hd, -⟩ := hv.started
  refine ⟨fun hnone => ?refused, fun hsome hnoFrame hnoSwitch => ?between, fun hsome hframe => ?awaits⟩
  case refused =>
    rw [switchTt_refused c _ (hi.trans hnone)] at hx
    obtain ⟨he, ho, hb, -⟩ := hv.recorded hmem rState 0
    refine ⟨_, hx, he, ho, hb, ?_⟩
    rw [settle_finished _ _ _ c .fresh hrun hq hd hwarn]
    simp [cmdRecord, orphanOp, serve]
  case between =>
    obtain ⟨t, rfl, htt, hl, hnone, ha, hbytes, hb⟩ := switchTt_between c _ hv.started (hi.trans_ne hsome)
      (by rw [hf, hnoFrame]; rfl) (by simpa using hnoSwitch)
    refine ⟨_, hx, by rw [htt]; rfl, by rw [htt]; rfl, by rw [htt]; rfl, hl, hnone, ?_, ?_, besideConductor_trans s _ _ hv.beside hb hv.due⟩
    · simpa [answered] using ha
    · simpa [onlyBytes, nextRecordAt] using hbytes
  case awaits =>
    obtain ⟨t, rfl, htt, hw, hnone, hh, hm, hb⟩ := switchTt_inFrame c _ hv.started (hi.trans_ne hsome) (by simpa [hf] using hframe)
    exact ⟨_, hx, by rw [htt]; rfl, by simpa using hw, hnone, (congrArg Tt.active htt).trans hactive, by simpa using hh, hm.trans hmem,
      besideConductor_trans s _ _ hv.beside hb hv.due⟩

end Sys2Proof.Machine
end

section
/-! SUPPORT. TT_KICK in the qtick in which an input is compared for the first time. -/

namespace Sys2Proof.Machine

/-- A timetable that starts at any trigger, with one MARK (Tables 10.1 and 10.2). -/
def markTable : Image :=
  { secTick := false, sync := false, freeRun := false, body := 64, lead := 0, cars := [bareCarriage 0 48 oMark 10] }

/-- On a locked clock, with table A active and enabled. EV0 has just been enabled: its pin, which is high, is compared at the present qtick,
the first sample (R238), and its entry for a rise is a trigger (R241). -/
def comparedAtKick : State :=
  { lockedAt 1000 with
    pins := { Pins.reset with vbat := 1500, ev := 1 }
    evin := { Evin.reset with incfg := 0x01000000, fresh := 1, cmpAt := some 1000 }
    tt := { Tt.reset with ctl := 3, instA := some markTable, activeValid := true }
    mem := [(0x7500, 0x20)] }

/-- The rise of EV0 that the comparison finds registers with the kick, and names the frame by its lower code (R202, R238). -/
theorem comparedAtKick_code :
    (hostWord 34 1 (advance 0 comparedAtKick)).tt.await.map (fun a => a.code) = some 4 := by decide +kernel

/-- Refutes O29: the clause on an awaited frame gives it trigger code 11, and has the event inputs and latches as before, also where an input
whose en bit was just written 1 is compared in the qtick of the kick: what the comparison finds registers with the kick. -/
theorem not_asynchronousTrigger : ¬ Obligations.AsynchronousTrigger := by
  unfold Obligations.AsynchronousTrigger
  intro h
  obtain ⟨hawaited, -⟩ := h comparedAtKick 0 (by decide) _ rfl (by decide) (by decide) _ rfl
  obtain ⟨t, ht, ⟨a, ha, hcode, -⟩, -⟩ := hawaited (by decide) rfl rfl rfl (.inl (by decide))
  have he := Host.Outcome.next.inj (show Host.Outcome.next (hostWord 34 1 (advance 0 comparedAtKick)) = _ from ht)
  have hfour := comparedAtKick_code
  rw [he, ha, Option.map_some, hcode] at hfour
  exact absurd hfour (by decide)

end Sys2Proof.Machine
end

section
/-! SUPPORT. A change that the fast filter confirms for the qtick at which another input takes its first sample. -/

namespace Sys2Proof.Machine

/-- On a locked clock EV0 is watched without a filter, its machine all zeros, and EV1 is high but not enabled; EV1's entry for a rise is a
log record (R241). -/
def beforeRise : State :=
  { lockedAt 1000 with
    pins := { Pins.reset with vbat := 1500, ev := 2 }
    evin := { Evin.reset with incfg := 0x01000000 }
    mem := [(0x7520, 0x08)] }

/-- EV0 rises, a change its filter confirms for the qtick 1008. EVT_INCFG.en of EV1 is written 1 in the qtick before, so that EV1's pin is compared
at 1008 too, its first sample (R236, R238). -/
def riseAtFirstSample : State := writeIncfg 0x03000000 (transition 0 true { n := 1001, tap := 0 } beforeRise)

/-- Both changes register at that qtick, EV0's without a record and EV1's with one (R243, R249). -/
theorem riseAtFirstSample_logs :
    (acceptRow 0 { n := 1010, tap := 0 } riseAtFirstSample).evin.head ≠ riseAtFirstSample.evin.head := by decide +kernel

/-- Refutes O57: the clause on the record of a confirmed change excludes inputs that confirm a change, but not
one that waits for its first sample. It has the event log as before where the change asks for no record, though that sample falls in the very
qtick of the change and finds a difference that writes its own. -/
theorem not_inputsAndSync : ¬ Obligations.InputsAndSync := by
  unfold Obligations.InputsAndSync
  intro h
  obtain ⟨-, -, hconfirmed, -⟩ := h riseAtFirstSample 0 { n := 1010, tap := 0 } (by decide) (by decide)
  obtain ⟨t, ht, -, -, -, -, -, hrecord⟩ := hconfirmed (by decide) (⟨0, 0, true⟩, 1008) (by decide) (by decide) (by decide) (by decide)
    _ rfl
  obtain ⟨-, hquiet⟩ := hrecord (by decide) (by decide) (by decide) (by decide) (by decide) (by decide) (by decide)
  obtain ⟨hhead, -⟩ := hquiet (by decide)
  have he := Host.Outcome.next.inj (show Host.Outcome.next (acceptRow 0 { n := 1010, tap := 0 } riseAtFirstSample) = _ from ht)
  exact riseAtFirstSample_logs (he ▸ hhead)

end Sys2Proof.Machine
end

section
/-! SUPPORT. A command stops exactly on a supply level beyond the absolute maximum (R351). -/

namespace Sys2Proof.Machine

/-- A command that carries supply levels stops exactly on one beyond the absolute maximum (R351). -/
theorem atLevels_stops (mv : List Nat) (f : State → State) (s : State) :
    (mv.any (fun v => decide (4000 < v)) = true → atLevels mv f s = .fault .beyondAbsoluteMaximum) ∧
    (mv.any (fun v => decide (4000 < v)) = false → ∃ t, atLevels mv f s = .next t) := by
  refine ⟨fun h => if_pos h, fun h => ⟨f s, if_neg ?_⟩⟩
  exact Bool.eq_false_iff.mp h

/-- Settles O26: a command with supply levels is `atLevels` of them, and any other answers a next state and carries none. -/
theorem onlyLevelsBeyondTheMaximumStop : Obligations.OnlyLevelsBeyondTheMaximumStop := by
  unfold Obligations.OnlyLevelsBeyondTheMaximumStop
  intro c s
  cases c
  case mainPowerOn | aonColdStart | selectorSwitch | aonSupplyFallback | mainDomainOff | brownOutWarning | warningEnd | trickleDone |
      trickleResume | shipExit | trickleHeadroomChange | vddioPresenceChange =>
    exact atLevels_stops _ _ s
  all_goals exact ⟨fun h => (Bool.false_ne_true h).elim, fun _ => ⟨_, rfl⟩⟩

end Sys2Proof.Machine
end

section
/-! SUPPORT. A code of the host in the qtick of a write that R269 puts behind it. -/

namespace Sys2Proof.Machine

/-- On a locked clock the code was last written in the present qtick, with a rank that none of the writers of R269 has: theirs go from 1 to 4,
and no run leaves another, but `HostReady` asks for no bound. -/
def writtenAbove : State := { lockedAt 1000 with out := { Out.reset with lastAt := some 1000, lastRank := 5 } }

/-- The host's code of that qtick is taken for one that comes before it, and is not applied (R269). -/
theorem writtenAbove_keepsCode : (hostWord 47 5 writtenAbove).out.code = 0 := by decide

/-- Refutes O8: the clause on AOUT_CODE_WRITE has the code applied in every state in which the host port is ready, among them one whose
last writer of the present qtick has a rank above the host's, which R269 applies behind the host. -/
theorem not_outputWrites : ¬ Obligations.OutputWrites := by
  unfold Obligations.OutputWrites
  intro h
  obtain ⟨hcode, -⟩ := h writtenAbove (by decide)
  obtain ⟨t, ht, happlied, -⟩ := hcode _ rfl 5
  have he := Host.Outcome.next.inj (show Host.Outcome.next (hostWord 47 5 writtenAbove) = _ from ht)
  have hkept := writtenAbove_keepsCode
  rw [he, happlied] at hkept
  exact absurd hkept (by decide)

end Sys2Proof.Machine
end

section
/-! SUPPORT. The memory and the supplies behind every command. -/

namespace Sys2Proof.Machine

/-- What a command answers meets the invariant. -/
def LeavesInvariant (o : Host.Outcome State Fault Refusal) : Prop := ∀ t, o = .next t → Invariant t

theorem leavesInvariant_next {u : State} (h : Invariant u) : LeavesInvariant (.next u) := by
  rintro t ⟨⟩
  exact h

/-- A command that leaves the supplies. -/
theorem leavesInvariant_of_supplies {s u : State} (h : Invariant s) (hm : Memory.wf u.mem = true)
    (hp : u.pins.vdd = s.pins.vdd ∧ u.pins.vbat = s.pins.vbat ∧ u.pins.vddio = s.pins.vddio) : LeavesInvariant (.next u) := by
  obtain ⟨hvdd, hvbat, hvddio⟩ := hp
  refine leavesInvariant_next ⟨hm, ?_⟩
  rw [withinRatings, hvdd, hvbat, hvddio]
  exact h.2

/-- A command that leaves the pins. -/
theorem leavesInvariant_of_pins {s u : State} (h : Invariant s) (hm : Memory.wf u.mem = true) (hp : u.pins = s.pins) :
    LeavesInvariant (.next u) := leavesInvariant_of_supplies h hm (by simp [hp])

/-- A command that carries supply levels meets it where it does so at levels within the ratings (R351). -/
theorem leavesInvariant_atLevels (mv : List Nat) (f : State → State) (s : State)
    (h : (∀ v ∈ mv, v ≤ 4000) → Invariant (f s)) : LeavesInvariant (atLevels mv f s) := by
  unfold atLevels
  split
  · rintro t ⟨⟩
  · next hb => exact leavesInvariant_next (h (by simpa [beyond] using hb))

theorem withinRatings_iff (p : Pins) : withinRatings p = true ↔ p.vdd ≤ 4000 ∧ p.vbat ≤ 4000 ∧ p.vddio ≤ 4000 := by
  simp [withinRatings, and_assoc]

theorem setSupplies_pins (vdd vbat : Nat) (s : State) : (setSupplies vdd vbat s).pins = { s.pins with vdd := vdd, vbat := vbat } := by
  simp [setSupplies, powerEval_frame]

theorem setSupplies_invariant (vdd vbat : Nat) (s : State) (h : Invariant s) (hd : vdd ≤ 4000) (hb : vbat ≤ 4000) :
    Invariant (setSupplies vdd vbat s) := by
  obtain ⟨hm, hp⟩ := h
  obtain ⟨-, -, hio⟩ := (withinRatings_iff _).mp hp
  exact ⟨by simp [hm], by rw [setSupplies_pins, withinRatings_iff]; exact ⟨hd, hb, hio⟩⟩

theorem edgeAt_pins (vdd : Nat) (p : State → Bool) (e : Edge) (s : State) : (edgeAt vdd p e s).pins = { s.pins with vdd := vdd } := by
  simp [edgeAt, setSupplies_pins]

theorem exec_inv (c : Instr) (s : State) (h : Invariant s) : LeavesInvariant (exec c s) := by
  obtain ⟨hm, hp⟩ := id h
  obtain ⟨hvdd, hvbat, hio⟩ := (withinRatings_iff _).mp hp
  cases c
  case mainPowerOn | aonColdStart | selectorSwitch | aonSupplyFallback | mainDomainOff | trickleHeadroomChange =>
    exact leavesInvariant_atLevels _ _ s fun hv => setSupplies_invariant _ _ s h (hv _ (by simp)) (hv _ (by simp))
  case trickleDone | trickleResume =>
    exact leavesInvariant_atLevels _ _ s fun hv => setSupplies_invariant _ _ s h hvdd (hv _ (by simp))
  case brownOutWarning | warningEnd =>
    refine leavesInvariant_atLevels _ _ s fun hv => ⟨by simp [hm], ?_⟩
    rw [edgeAt_pins, withinRatings_iff]
    exact ⟨hv _ (by simp), hvbat, hio⟩
  case vddioPresenceChange mv =>
    refine leavesInvariant_atLevels _ _ s fun hv => ⟨by simp [hm], ?_⟩
    exact (withinRatings_iff _).mpr ⟨hvdd, hvbat, hv mv (by simp)⟩
  case shipExit w =>
    refine leavesInvariant_atLevels _ _ s fun hv => ?_
    cases w with
    | waken us =>
      refine ⟨by simp [hm], ?_⟩
      have hk : (shipExit (.waken us) s).pins = s.pins := by
        unfold shipExit
        simp only
        split <;> simp [leaveShip_frame]
      rwa [hk]
    | vddReturn v => exact setSupplies_invariant _ _ s h (hv _ (by simp [wakeLevel])) hvbat
  case evTransition =>
    refine leavesInvariant_of_supplies h (by simp [hm]) ?_
    simp only [transition]
    split
    · simp
    · split <;> split <;> simp [fastEdge_frame, holdSync_frame, takeFresh_frame]
  case tempConversionStart =>
    refine leavesInvariant_of_supplies h (by simp [hm]) ?_
    simp
  case alarmWrite | smTableWrite | attachRegistered | detachRegistered =>
    refine leavesInvariant_of_pins h ?_ ?_ <;> split <;> simp [hm]
  all_goals exact leavesInvariant_of_pins h (by simp +contextual [hm]) (by simp)

end Sys2Proof.Machine
end

section
/-! SUPPORT. A frame goes on through what is no settling of an event. -/

namespace Sys2Proof.Machine

@[simp] theorem forAll_inFrame {α : Type} (l : List α) (f : α → State → State) (s : State)
    (hf : ∀ a t, t.tt.frame.isSome = true → (f a t).tt.frame.isSome = true) (h : s.tt.frame.isSome = true) :
    (forAll l f s).tt.frame.isSome = true := by
  induction l generalizing s with
  | nil => exact h
  | cons a r ih => exact ih (f a s) (hf a s h)

@[simp] theorem latchFrame_inFrame (n : Nat) (s : State)
    (h : s.tt.frame.isSome = true) : (latchFrame n s).tt.frame.isSome = true := by
  simp only [latchFrame]
  repeat' split
  all_goals simp (maxDischargeDepth := 40) [h, applyStages_frame]

@[simp] theorem advance_inFrame (n : Nat) (s : State)
    (h : s.tt.frame.isSome = true) : (advance n s).tt.frame.isSome = true := by
  simp only [advance]
  repeat' split
  all_goals simp (maxDischargeDepth := 40) [h, dueBy_frame, discExcites_frame]

@[simp] theorem holdSeal_inFrame (c : BitVec 5) (s : State)
    (h : s.tt.frame.isSome = true) : (holdSeal c s).tt.frame.isSome = true := by
  simp (maxDischargeDepth := 40) [holdSeal, h]

@[simp] theorem sealInFrame_inFrame (c : BitVec 5) (old : List Byte) (f : Frame) (s : State)
    (h : s.tt.frame.isSome = true) : (sealInFrame c old f s).tt.frame.isSome = true := by
  simp only [sealInFrame]
  repeat' split
  all_goals simp (maxDischargeDepth := 40) [h]

@[simp] theorem sealChannel_inFrame (c : BitVec 5) (s : State)
    (h : s.tt.frame.isSome = true) : (sealChannel c s).tt.frame.isSome = true := by
  obtain ⟨f, hf⟩ := Option.isSome_iff_exists.mp (latchFrame_inFrame s.clk.hf s h)
  simp [sealChannel, hf]

@[simp] theorem haltOnBypass_inFrame (s : State)
    (h : s.tt.frame.isSome = true) : (haltOnBypass s).tt.frame.isSome = true := by
  simp (maxDischargeDepth := 40) [haltOnBypass, h]

@[simp] theorem dropAwait_inFrame (s : State) (h : s.tt.frame.isSome = true) : (dropAwait s).tt.frame.isSome = true := by
  simp only [dropAwait]
  repeat' split
  all_goals simp (maxDischargeDepth := 40) +contextual [h, lateTrigger_frame]

@[simp] theorem dropQueued_inFrame (s : State) (h : s.tt.frame.isSome = true) : (dropQueued s).tt.frame.isSome = true := by
  simp only [dropQueued]
  repeat' split
  all_goals simp (maxDischargeDepth := 40) +contextual [h, lateTrigger_frame]

@[simp] theorem acqFailed_inFrame (err : BitVec 3) (s : State)
    (h : s.tt.frame.isSome = true) : (acqFailed err s).tt.frame.isSome = true := by
  simp only [acqFailed]
  repeat' split
  all_goals simp (maxDischargeDepth := 40) [h, changeRef_frame, dropFast_frame, dropAhead_frame]

@[simp] theorem retry_inFrame (s : State) (h : s.tt.frame.isSome = true) : (retry s).tt.frame.isSome = true := by
  simp only [retry]
  repeat' split
  all_goals simp (maxDischargeDepth := 40) [h, acqBegin_frame]

@[simp] theorem acqFail_inFrame (err : BitVec 3) (s : State)
    (h : s.tt.frame.isSome = true) : (acqFail err s).tt.frame.isSome = true := by
  simp only [acqFail]
  repeat' split
  all_goals simp (maxDischargeDepth := 40) [h]

@[simp] theorem acquire_inFrame (cause : AcqBy) (s : State)
    (h : s.tt.frame.isSome = true) : (acquire cause s).tt.frame.isSome = true := by
  simp only [acquire]
  repeat' split
  all_goals simp (maxDischargeDepth := 40) [h, acqBegin_frame]

@[simp] theorem wakeHf_inFrame (cause : AcqBy) (s : State)
    (h : s.tt.frame.isSome = true) : (wakeHf cause s).tt.frame.isSome = true := by
  simp only [wakeHf]
  repeat' split
  all_goals simp (maxDischargeDepth := 40) [h]

@[simp] theorem restartDivider_inFrame (a : Nat) (s : State)
    (h : s.tt.frame.isSome = true) : (restartDivider a s).tt.frame.isSome = true := by
  simp (maxDischargeDepth := 40) [restartDivider, h]

@[simp] theorem alignTo_inFrame (m : Moment) (code : Nat) (s : State)
    (h : s.tt.frame.isSome = true) : (alignTo m code s).tt.frame.isSome = true := by
  simp only [alignTo]
  repeat' split
  all_goals simp (maxDischargeDepth := 40) [h]

@[simp] theorem awaitFrame_inFrame (g : Trig) (gs : List Trig) (m : Moment) (s : State)
    (h : s.tt.frame.isSome = true) : (awaitFrame g gs m s).tt.frame.isSome = true := by
  simp only [awaitFrame]
  repeat' split
  all_goals simp (maxDischargeDepth := 40) [h, fetchFirst_frame]

@[simp] theorem joinAwait_inFrame (g : Trig) (gs : List Trig) (m : Moment) (a : Await) (s : State)
    (h : s.tt.frame.isSome = true) : (joinAwait g gs m a s).tt.frame.isSome = true := by
  simp only [joinAwait]
  repeat' split
  all_goals simp (maxDischargeDepth := 40) [h]

@[simp] theorem joinQueued_inFrame (g : Trig) (gs : List Trig) (x : Queued) (s : State)
    (h : s.tt.frame.isSome = true) : (joinQueued g gs x s).tt.frame.isSome = true := by
  simp (maxDischargeDepth := 40) [joinQueued, h]

@[simp] theorem deliver_inFrame (gs : List Trig) (m : Moment) (s : State)
    (h : s.tt.frame.isSome = true) : (deliver gs m s).tt.frame.isSome = true := by
  simp only [deliver]
  repeat' split
  all_goals simp (maxDischargeDepth := 40) +contextual [h, lateTrigger_frame]

@[simp] theorem moveMarks_inFrame (o : Occ) (s : State)
    (h : s.tt.frame.isSome = true) : (moveMarks o s).tt.frame.isSome = true := by
  simp only [moveMarks]
  repeat' split
  all_goals simp (maxDischargeDepth := 40) [h]

@[simp] theorem noteOcc_inFrame (q : Option Nat) (o : Occ) (s : State)
    (h : s.tt.frame.isSome = true) : (noteOcc q o s).tt.frame.isSome = true := by
  simp only [noteOcc]
  repeat' split
  all_goals simp (maxDischargeDepth := 40) [h]

@[simp] theorem register_inFrame (m : Moment) (os : List Occ) (s : State)
    (h : s.tt.frame.isSome = true) : (register m os s).tt.frame.isSome = true := by
  simp only [register]
  repeat' split
  all_goals simp (maxDischargeDepth := 40) +contextual [h, openRecs_frame, logOcc_frame, amendGroup_frame]

@[simp] theorem finish_inFrame (i : Nat) (s : State)
    (h : s.tt.frame.isSome = true) : (finish i s).tt.frame.isSome = true := by
  simp only [finish]
  repeat' split
  all_goals simp (maxDischargeDepth := 40) [h, keepLast_frame, endRecords_frame]

@[simp] theorem finishUpTo_inFrame (q : Nat) (s : State)
    (h : s.tt.frame.isSome = true) : (finishUpTo q s).tt.frame.isSome = true := by
  simp only [finishUpTo]
  repeat' split
  all_goals simp (maxDischargeDepth := 40) +contextual [h]

@[simp] theorem mapRuns_inFrame (p : Carriage → CarRun → Bool) (g : Carriage → CarRun → CarRun) (s : State)
    (h : s.tt.frame.isSome = true) : (mapRuns p g s).tt.frame.isSome = true := by
  simpa [mapRuns] using h

@[simp] theorem pairChanged_inFrame (p : Bool) (s : State)
    (h : s.tt.frame.isSome = true) : (pairChanged p s).tt.frame.isSome = true := by
  simp (maxDischargeDepth := 40) [pairChanged, h]

@[simp] theorem toStart_inFrame (i : Nat) (s : State)
    (h : s.tt.frame.isSome = true) : (toStart i s).tt.frame.isSome = true := by
  simp only [toStart]
  repeat' split
  all_goals simp (maxDischargeDepth := 40) [h]

@[simp] theorem placeRun_inFrame (i : Nat) (g : CarRun → CarRun) (s : State)
    (h : s.tt.frame.isSome = true) : (placeRun i g s).tt.frame.isSome = true := by
  simp (maxDischargeDepth := 40) [placeRun, h]

@[simp] theorem failRun_inFrame (i reason : Nat) (s : State)
    (h : s.tt.frame.isSome = true) : (failRun i reason s).tt.frame.isSome = true := by
  simp (maxDischargeDepth := 40) [failRun, h]

/-- The act of a started carriage keeps the frame, and so do what precedes and follows it. -/
@[simp] theorem startCarriage_inFrame (i op : Nat) (act : Frame → Carriage → List Byte → State → State) (s : State)
    (ha : ∀ f c d t, t.tt.frame.isSome = true → (act f c d t).tt.frame.isSome = true) (h : s.tt.frame.isSome = true) :
    (startCarriage i op act s).tt.frame.isSome = true := by
  have hn := toStart_inFrame i s h
  obtain ⟨f, hf⟩ := Option.isSome_iff_exists.mp hn
  simp only [startCarriage, hf]
  split
  · exact h
  · split
    · simp (maxDischargeDepth := 40) [fetchNext_frame, dropPresettle_frame, hn]
    · simpa [fetchNext_frame] using ha _ _ _ _ hn

@[simp] theorem settleValue_inFrame (i : Nat) (o : Nat ⊕ Val) (s : State)
    (h : s.tt.frame.isSome = true) : (settleValue i o s).tt.frame.isSome = true := by
  simp only [settleValue]
  repeat' split
  all_goals simp (maxDischargeDepth := 40) [h]

@[simp] theorem actCorrect_inFrame (i : Nat) (f : Frame) (c : Carriage) (d : List Byte) (s : State)
    (h : s.tt.frame.isSome = true) : (actCorrect i f c d s).tt.frame.isSome = true := by
  simp only [actCorrect]
  repeat' split
  all_goals simp (maxDischargeDepth := 40) [h]

@[simp] theorem actExcite_inFrame (i : Nat) (x : Frame) (c : Carriage) (d : List Byte) (s : State)
    (h : s.tt.frame.isSome = true) : (actExcite i x c d s).tt.frame.isSome = true := by
  simp only [actExcite]
  repeat' split
  all_goals simp (maxDischargeDepth := 40) [h]

@[simp] theorem actExcOff_inFrame (i : Nat) (x : Frame) (c : Carriage) (y : List Byte) (s : State)
    (h : s.tt.frame.isSome = true) : (actExcOff i x c y s).tt.frame.isSome = true := by
  simp only [actExcOff]
  repeat' split
  all_goals simp (maxDischargeDepth := 40) [h]

@[simp] theorem actConvert_inFrame (i : Nat) (fault : Option Nat) (f : Frame) (c : Carriage) (s : State)
    (h : s.tt.frame.isSome = true) : (actConvert i fault f c s).tt.frame.isSome = true := by
  simp only [actConvert]
  repeat' split
  all_goals simp (maxDischargeDepth := 40) [h]

@[simp] theorem placeFmt_inFrame (i reason : Nat) (x : FmtRead) (s : State)
    (h : s.tt.frame.isSome = true) : (placeFmt i reason x s).tt.frame.isSome = true := by
  simp (maxDischargeDepth := 40) [placeFmt, h]

@[simp] theorem emitBy_inFrame (i : Nat) (x : FmtRead) (s : State)
    (h : s.tt.frame.isSome = true) : (emitBy i x s).tt.frame.isSome = true := by
  simp only [emitBy]
  repeat' split
  all_goals simp (maxDischargeDepth := 40) [h]

@[simp] theorem aoutBy_inFrame (i n : Nat) (x : FmtRead) (s : State)
    (h : s.tt.frame.isSome = true) : (aoutBy i n x s).tt.frame.isSome = true := by
  simp only [aoutBy]
  repeat' split
  all_goals simp (maxDischargeDepth := 40) [h, aoutSet_frame]

@[simp] theorem ledgerBy_inFrame (i : Nat) (c : Carriage) (x : FmtRead) (s : State)
    (h : s.tt.frame.isSome = true) : (ledgerBy i c x s).tt.frame.isSome = true := by
  simp only [ledgerBy]
  repeat' split
  all_goals simp (maxDischargeDepth := 40) [h, ldgAdd_frame]

@[simp] theorem deliverBy_inFrame (i : Nat) (f : Frame) (c : Carriage) (x : FmtRead) (s : State)
    (h : s.tt.frame.isSome = true) : (deliverBy i f c x s).tt.frame.isSome = true := by
  simp only [deliverBy]
  repeat' split
  all_goals simp (maxDischargeDepth := 40) [h]

@[simp] theorem actDeliver_inFrame (i : Nat) (f : Frame) (c : Carriage) (d : List Byte) (s : State)
    (h : s.tt.frame.isSome = true) : (actDeliver i f c d s).tt.frame.isSome = true := by
  simp only [actDeliver]
  repeat' split
  all_goals simp (maxDischargeDepth := 40) [h]

@[simp] theorem endAtOnce_inFrame (i : Nat) (s : State)
    (h : s.tt.frame.isSome = true) : (endAtOnce i s).tt.frame.isSome = true := by
  simp only [endAtOnce]
  repeat' split
  all_goals simp (maxDischargeDepth := 40) [h]

@[simp] theorem actOp_inFrame (i op : Nat) (f : Frame) (c : Carriage) (d : List Byte) (s : State)
    (h : s.tt.frame.isSome = true) : (actOp i op f c d s).tt.frame.isSome = true := by
  simp only [actOp]
  repeat' split
  all_goals simp [h, takeStage_frame]

@[simp] theorem startOp_inFrame (i op : Nat) (s : State)
    (h : s.tt.frame.isSome = true) : (startOp i op s).tt.frame.isSome = true := by
  exact startCarriage_inFrame i op (actOp i op) s (actOp_inFrame i op) h

@[simp] theorem startDue_inFrame (n i : Nat) (s : State)
    (h : s.tt.frame.isSome = true) : (startDue n i s).tt.frame.isSome = true := by
  simp only [startDue]
  repeat' split
  all_goals simp (maxDischargeDepth := 40) [h]

@[simp] theorem addsFirst_inFrame (n : Nat) (s : State)
    (h : s.tt.frame.isSome = true) : (addsFirst n s).tt.frame.isSome = true := by
  simp only [addsFirst]
  repeat' split
  all_goals simp (maxDischargeDepth := 40) +contextual [h]

@[simp] theorem instantAt_inFrame (m : Moment) (r : LdgReq) (stamp : Stamp) (s : State)
    (h : s.tt.frame.isSome = true) : (instantAt m r stamp s).tt.frame.isSome = true := by
  simp only [instantAt, when]
  repeat' split
  all_goals simp (maxDischargeDepth := 40) [h, ldgInstant_frame]

@[simp] theorem syncRestart_inFrame (n : Nat) (s : State)
    (h : s.tt.frame.isSome = true) : (syncRestart n s).tt.frame.isSome = true := by
  simp (maxDischargeDepth := 40) [syncRestart, h]

@[simp] theorem syncReset_inFrame (n : Nat) (s : State)
    (h : s.tt.frame.isSome = true) : (syncReset n s).tt.frame.isSome = true := by
  simp only [syncReset]
  repeat' split
  all_goals simp (maxDischargeDepth := 40) [h]

@[simp] theorem withRise_inFrame (q : Option Nat) (rise : Option Stamp) (xs : List Occ) (laps : Nat) (s : State)
    (h : s.tt.frame.isSome = true) : (withRise q rise xs laps s).2.2.tt.frame.isSome = true := by
  simp only [withRise]
  repeat' split
  all_goals simp (maxDischargeDepth := 40) [h]

@[simp] theorem inputsAt_inFrame (q : Option Nat) (steps : List Step) (s : State)
    (h : s.tt.frame.isSome = true) : (inputsAt q steps s).2.2.tt.frame.isSome = true := by
  simp (maxDischargeDepth := 40) +contextual [inputsAt, h, smSteps_frame, setAccepted_frame, comparedAt_frame]

@[simp] theorem registerAt_inFrame (m : Moment) (steps : List Step) (extra : List Occ) (s : State)
    (h : s.tt.frame.isSome = true) : (registerAt m steps extra s).tt.frame.isSome = true := by
  simp (maxDischargeDepth := 40) [registerAt, h, lapReq_frame, takeCmdsAt_frame]

@[simp] theorem endRun_inFrame (i : Nat) (v : Val) (s : State)
    (h : s.tt.frame.isSome = true) : (endRun i v s).tt.frame.isSome = true := by
  simp (maxDischargeDepth := 40) [endRun, h]

@[simp] theorem endConvert_inFrame (i : Nat) (x : ConvData) (f : Frame) (c : Carriage) (s : State)
    (h : s.tt.frame.isSome = true) : (endConvert i x f c s).tt.frame.isSome = true := by
  simp only [endConvert, when]
  repeat' split
  all_goals simp (maxDischargeDepth := 40) [h, diagOver_frame]

@[simp] theorem endAux_inFrame (i : Nat) (x : ConvData) (f : Frame) (c : Carriage) (s : State)
    (h : s.tt.frame.isSome = true) : (endAux i x f c s).tt.frame.isSome = true := by
  simp only [endAux]
  repeat' split
  all_goals simp (maxDischargeDepth := 40) [h, classifyLeak_frame, classifyArm_frame]

@[simp] theorem conversionEnd_inFrame (i : Nat) (x : ConvData) (s : State)
    (h : s.tt.frame.isSome = true) : (conversionEnd i x s).tt.frame.isSome = true := by
  obtain ⟨f, hf⟩ := Option.isSome_iff_exists.mp h
  have hd : (when (!f.slow) (finishUpTo (convQtick (carAt f.img.cars i)))
      (when (!f.slow) (advance (f.at (convQtick (carAt f.img.cars i)))) s)).tt.frame.isSome = true := by
    cases f.slow <;> simp [when, h]
  obtain ⟨g, hg⟩ := Option.isSome_iff_exists.mp hd
  simp only [conversionEnd, hf, hg]
  repeat' split
  all_goals simp [h, hg]

@[simp] theorem blameDiag_inFrame (onPort : Nat → Bool) (q : List Byte → Bool) (s : State)
    (h : s.tt.frame.isSome = true) : (blameDiag onPort q s).tt.frame.isSome = true := by
  simp only [blameDiag]
  repeat' split
  all_goals simp (maxDischargeDepth := 40) [h]

@[simp] theorem clipFire_inFrame (k : Nat) (inUv : Int) (senseUv : Nat) (s : State)
    (h : s.tt.frame.isSome = true) : (clipFire k inUv senseUv s).tt.frame.isSome = true := by
  simp only [clipFire]
  repeat' split
  all_goals simp (maxDischargeDepth := 40) [h, diagOver_frame]

@[simp] theorem diagFire_inFrame (d : Diag) (s : State)
    (h : s.tt.frame.isSome = true) : (diagFire d s).tt.frame.isSome = true := by
  simp only [diagFire]
  repeat' split
  all_goals simp (maxDischargeDepth := 40) [h, diagPort_frame, diagPair_frame]

@[simp] theorem sealNow_inFrame (c : BitVec 5) (s : State)
    (h : s.tt.frame.isSome = true) : (sealNow c s).tt.frame.isSome = true := by
  simp only [sealNow]
  repeat' split
  all_goals simp (maxDischargeDepth := 40) +contextual [h, presettleFor_frame]

@[simp] theorem raceTables_inFrame (before : List Host.Cell) (s : State)
    (h : s.tt.frame.isSome = true) : (raceTables before s).tt.frame.isSome = true := by
  simp (maxDischargeDepth := 40) [raceTables, h]

@[simp] theorem rereadBy_inFrame (before : List Host.Cell) (i : Nat) (f : Frame) (c : Carriage) (r : CarRun) (x y : FmtRead) (s : State)
    (h : s.tt.frame.isSome = true) : (rereadBy before i f c r x y s).tt.frame.isSome = true := by
  simp only [rereadBy]
  repeat' split
  all_goals simp (maxDischargeDepth := 40) [h, ledgerUndo_frame]

@[simp] theorem raceFormat_inFrame (before : List Host.Cell) (i : Nat) (s : State)
    (h : s.tt.frame.isSome = true) : (raceFormat before i s).tt.frame.isSome = true := by
  simp only [raceFormat]
  repeat' split
  all_goals simp (maxDischargeDepth := 40) [h]

@[simp] theorem raceFormats_inFrame (before : List Host.Cell) (s : State)
    (h : s.tt.frame.isSome = true) : (raceFormats before s).tt.frame.isSome = true := by
  simp only [raceFormats]
  repeat' split
  all_goals simp (maxDischargeDepth := 40) +contextual [h]

@[simp] theorem resumeFast_inFrame (q : Nat) (ks : List Nat) (s : State)
    (h : s.tt.frame.isSome = true) : (resumeFast q ks s).tt.frame.isSome = true := by
  simp only [resumeFast]
  repeat' split
  all_goals simp (maxDischargeDepth := 40) +contextual [h, setAccepted_frame, compared_frame]

@[simp] theorem takeFresh_inFrame (n : Nat) (s : State)
    (h : s.tt.frame.isSome = true) : (takeFresh n s).tt.frame.isSome = true := by
  simp only [takeFresh]
  repeat' split
  all_goals simp (maxDischargeDepth := 40) [h]

@[simp] theorem transition_inFrame (k : Nat) (level : Bool) (e : Edge) (s : State)
    (h : s.tt.frame.isSome = true) : (transition k level e s).tt.frame.isSome = true := by
  simp only [transition]
  repeat' split
  all_goals simp (maxDischargeDepth := 40) [h, holdSync_frame, fastEdge_frame]

@[simp] theorem writeIncfg_inFrame (w : Word) (s : State)
    (h : s.tt.frame.isSome = true) : (writeIncfg w s).tt.frame.isSome = true := by
  simp (maxDischargeDepth := 40) [writeIncfg, h, holdSync_frame]

@[simp] theorem spreadWrap_inFrame (s : State) (h : s.tt.frame.isSome = true) : (spreadWrap s).tt.frame.isSome = true := by
  simp only [spreadWrap]
  repeat' split
  all_goals simp (maxDischargeDepth := 40) [h]

@[simp] theorem setClassN_inFrame (s : State) (h : s.tt.frame.isSome = true) : (setClassN s).tt.frame.isSome = true := by
  simp (maxDischargeDepth := 40) [setClassN, h, setAoutCfg_frame, writeAfeCtl_frame, writeMask0_frame, writeMask1_frame]

@[simp] theorem configStep_inFrame (s : State) (h : s.tt.frame.isSome = true) : (configStep s).tt.frame.isSome = true := by
  simp only [configStep]
  repeat' split
  all_goals simp (maxDischargeDepth := 40) [h, aoutAtStart_frame]

@[simp] theorem uninstall_inFrame (b : Bool) (s : State)
    (h : s.tt.frame.isSome = true) : (uninstall b s).tt.frame.isSome = true := by
  simp only [uninstall]
  repeat' split
  all_goals simp (maxDischargeDepth := 40) +contextual [h]

@[simp] theorem configImageApply_inFrame (present : BitVec 4) (t : Nat) (s : State)
    (h : s.tt.frame.isSome = true) : (configImageApply present t s).tt.frame.isSome = true := by
  simp only [configImageApply, when]
  repeat' split
  all_goals simp (maxDischargeDepth := 40) +contextual [h, firstReading_frame]

@[simp] theorem writeTtCtl_inFrame (w : Word) (s : State)
    (h : s.tt.frame.isSome = true) : (writeTtCtl w s).tt.frame.isSome = true := by
  simp only [writeTtCtl]
  repeat' split
  all_goals simp (maxDischargeDepth := 40) [h, applyPortEn_frame]

@[simp] theorem regWrite_inFrame (k : Nat) (w : Word) (s : State)
    (h : s.tt.frame.isSome = true) : (regWrite k w s).tt.frame.isSome = true := by
  simp only [regWrite]
  repeat' split
  all_goals simp (maxDischargeDepth := 40) [h, setAoutCfg_frame, restartGen_frame,
    writeClkSrc_frame, writeClkPlan_frame, copySpread_frame, writeAfeCtl_frame, writeLdgCtl_frame, writeMask0_frame, writeMask1_frame,
    writePwrCtl_frame, writeTrickle_frame, writeSec_frame, writeRtcCtl_frame, writeShift_frame, writeLocal_frame, writeAoutCode_frame, clearSources_frame]

@[simp] theorem tableByte_inFrame (b : Bool) (a : Nat) (v : Byte) (s : State)
    (h : s.tt.frame.isSome = true) : (tableByte b a v s).tt.frame.isSome = true := by
  simp only [tableByte]
  repeat' split
  all_goals simp (maxDischargeDepth := 40) [h]

@[simp] theorem rosterByte_inFrame (a : Nat) (v : Byte) (s : State)
    (h : s.tt.frame.isSome = true) : (rosterByte a v s).tt.frame.isSome = true := by
  simp only [rosterByte, when]
  repeat' split
  all_goals simp (maxDischargeDepth := 40) [h]

@[simp] theorem byteWrite_inFrame (a : Nat) (v : Byte) (s : State)
    (h : s.tt.frame.isSome = true) : (byteWrite a v s).tt.frame.isSome = true := by
  simp only [byteWrite]
  repeat' split
  all_goals simp (maxDischargeDepth := 40) [h, smByte_frame]

@[simp] theorem commitItem_inFrame (early : Bool) (i : Item) (s : State)
    (h : s.tt.frame.isSome = true) : (commitItem early i s).tt.frame.isSome = true := by
  simp only [commitItem]
  repeat' split
  all_goals simp (maxDischargeDepth := 40) [h, noteEarly_frame]

@[simp] theorem generatorUpdate_inFrame (s : State)
    (h : s.tt.frame.isSome = true) : (generatorUpdate s).tt.frame.isSome = true := by
  simp only [generatorUpdate]
  repeat' split
  all_goals simp (maxDischargeDepth := 40) [h]

end Sys2Proof.Machine
end

section
/-! SUPPORT. A restore behind the settling of an event. -/

namespace Sys2Proof.Machine

/-- With no command running no restore does. -/
theorem restoreWaits_idle {s : State} (h : s.cond.running = none) : restoreWaits s = true := by simp [restoreWaits, h]

/-- A restore goes on waiting where it runs on and a frame, a reset of the conductor and a MEAS reset go on. -/
theorem restoreWaits_of {s t : State} (h : restoreWaits s = true) (hr : t.cond.running = s.cond.running)
    (hf : s.tt.frame.isSome = true → t.tt.frame.isSome = true) (hi : t.cond.inReset = s.cond.inReset)
    (hm : t.sys.measRst = s.sys.measRst) : restoreWaits t = true := by
  unfold restoreWaits at h ⊢
  rw [hr, hi, hm]
  split at h
  · simp only [Bool.or_eq_true] at h ⊢
    exact h.imp_left (Or.imp_left hf)
  · rfl

/-- One that changes none of them. -/
theorem restoreWaits_kept {s t : State} (h : restoreWaits s = true) (hr : t.cond = s.cond) (ht : t.tt = s.tt) (hs : t.sys = s.sys) :
    restoreWaits t = true := restoreWaits_of h (by rw [hr]) (by rw [ht]; exact id) (by rw [hr]) (by rw [hs])

/-! ## What follows an event -/

/-- The end of a command leaves none running. -/
theorem finishCmd_running (reason : Nat) (detail : Word) (s : State) : (finishCmd reason detail s).cond.running = none := by
  unfold finishCmd
  split
  · assumption
  · simp [cmdRecord, stopInstalls, orphanOp, serve]

/-- At its boundary a restore is applied and ends (R306): none is left that does not wait. -/
theorem restoreHere_waits (s : State) : restoreWaits (restoreHere s) = true := by
  unfold restoreHere
  split
  · next hw =>
    unfold restoreWaits
    split
    · exact hw
    · rfl
  · split
    · exact restoreWaits_idle (finishCmd_running _ _ _)
    · next hn =>
      unfold restoreWaits
      split
      · next c hc => exact absurd hc (hn c)
      · rfl

theorem cutHere_waits (s : State) (h : restoreWaits s = true) : restoreWaits (cutHere s) = true := by
  unfold cutHere
  split
  · exact h
  · split
    · exact restoreWaits_idle (by simp [endSuspends_inner, finishCmd_running])
    · exact h
    · next hn => exact restoreWaits_idle (by simpa using hn)

theorem cutCmd_running (reason : Nat) (s : State) (h : ∀ c w, s.cond.running ≠ some (c, .cut w)) : (cutCmd reason s).cond.running = none := by
  unfold cutCmd
  split
  · assumption
  · next c w hc => exact absurd hc (h c w)
  · exact finishCmd_running _ _ _

theorem warnCut_waits (s : State) (h : restoreWaits s = true) : restoreWaits (warnCut s) = true := by
  unfold warnCut
  split
  · exact h
  · split
    · exact h
    · split
      · exact h
      · exact h
      · next hn _ =>
        split
        · next hi =>
          exact restoreWaits_idle (by simp at hi; simp [endSuspends_inner, hi])
        · exact restoreWaits_idle (by simp [drainQueue_inner, endSuspends_inner, cutCmd_running _ _ hn])

theorem suspendHere_waits (s : State) (h : restoreWaits s = true) : restoreWaits (suspendHere s) = true := by
  unfold suspendHere
  split
  · exact h
  · split
    · split
      · simp [restoreWaits, setJob]
      · exact h
    · exact h

/-- Whatever came before, behind what follows an event a restore waits. -/
theorem settle_waits (s : State) : restoreWaits (settle s) = true := by
  unfold settle
  refine restoreWaits_of (suspendHere_waits _ (warnCut_waits _ (cutHere_waits _ (restoreHere_waits (selftestLock (selftestAcquire (clockCut s)))))))
    (by simp) (by simp) (by simp) (by simp)

end Sys2Proof.Machine
end

section
/-! SUPPORT. A restore behind a committed write and a transfer. -/

namespace Sys2Proof.Machine

/-! ## The end of a transaction, and a commit -/

theorem clearRc_inFrame (t : Txn) (s : State) : (clearRc t s).tt.frame = s.tt.frame := by
  unfold clearRc
  split <;> rfl

theorem closeTxn_inFrame (s : State) : (closeTxn s).tt.frame = s.tt.frame := by
  unfold closeTxn
  split
  · rfl
  · split <;> simp [hifReset_frame, clearRc_inFrame, endCalendar_frame]

theorem closeTxn_waits (s : State) (h : restoreWaits s = true) : restoreWaits (closeTxn s) = true :=
  restoreWaits_of h (by simp) (by rw [closeTxn_inFrame]; exact id) (by simp) (by simp)

/-- A commit sequence that wrote none of some registers wrote no last word to one of them. -/
theorem wrote_lastWord {ws : List (Nat × Word)} {ks : List Nat} {k : Nat} (h : wrote ws ks = false) (hk : k ∈ ks) :
    wrote ws [k] = false ∧ lastWord ws k = none := by
  have hx : ∀ x ∈ ws, x.1 ≠ k := fun x hx e => by
    have hc := List.any_eq_false.mp h x hx
    exact hc (by simpa [e] using hk)
  constructor
  · simpa [wrote] using fun a b hab => hx (a, b) hab
  · have hf : ws.filter (fun x => x.1 == k) = [] := List.filter_eq_nil_iff.mpr fun x hm => by simpa using hx x hm
    simp [lastWord, hf]

/-- The end of a commit sequence that cuts and starts nothing arms checks alone. -/
theorem commitEnd_arms (ws : List (Nat × Word)) (s : State) (h : wrote ws [2, 24, 25, 34, 51, 57] = false) :
    commitEnd ws s = armChecks ws s := by
  obtain ⟨-, h2⟩ := wrote_lastWord (k := 2) h (by decide)
  obtain ⟨h24, -⟩ := wrote_lastWord (k := 24) h (by decide)
  obtain ⟨h25, -⟩ := wrote_lastWord (k := 25) h (by decide)
  obtain ⟨-, h34⟩ := wrote_lastWord (k := 34) h (by decide)
  obtain ⟨h51, -⟩ := wrote_lastWord (k := 51) h (by decide)
  obtain ⟨-, h57⟩ := wrote_lastWord (k := 57) h (by decide)
  simp [commitEnd, clockEnd, h, h2, h24, h25, h34, h51, h57]

/-- One that does is followed as an event is. -/
theorem commitEnd_waits (ws : List (Nat × Word)) (s : State) (h : restoreWaits s = true) : restoreWaits (commitEnd ws s) = true := by
  cases hw : wrote ws [2, 24, 25, 34, 51, 57]
  · rw [commitEnd_arms ws s hw]
    exact h
  · simp only [commitEnd, hw, if_true]
    exact settle_waits _

theorem commitItem_waits (early : Bool) (i : Item) (s : State) (h : restoreWaits s = true) : restoreWaits (commitItem early i s) = true :=
  restoreWaits_of h (by simp) (by simp +contextual) (by simp) (by simp)

theorem forAll_waits {α : Type} (l : List α) (f : α → State → State) (s : State)
    (hf : ∀ a t, restoreWaits t = true → restoreWaits (f a t) = true) (h : restoreWaits s = true) : restoreWaits (forAll l f s) = true := by
  induction l generalizing s with
  | nil => exact h
  | cons a r ih => exact ih (f a s) (hf a s h)

theorem when_waits (c : Bool) (f : State → State) (s : State) (hf : ∀ t, restoreWaits t = true → restoreWaits (f t) = true)
    (h : restoreWaits s = true) : restoreWaits (when c f s) = true := by
  cases c
  · exact h
  · exact hf s h

theorem commit_waits (is : List Item) (s : State) (h : restoreWaits s = true) : restoreWaits (commit is s) = true := by
  refine commitEnd_waits _ _ (when_waits _ (raceFormats s.mem) _ ?formats (when_waits _ (raceTables s.mem) _ ?tables
    (forAll_waits _ _ _ (fun i => commitItem_waits _ i) (when_waits _ _ _ (fun t ht => ht) h))))
  case formats => exact fun t ht => restoreWaits_of ht (by simp [raceFormats_frame]) (raceFormats_inFrame _ t) (by simp [raceFormats_frame]) (by simp [raceFormats_frame])
  case tables => exact fun t ht => restoreWaits_of ht (by simp [raceTables_frame]) (raceTables_inFrame _ t) (by simp [raceTables_frame]) (by simp [raceTables_frame])

/-! ## Transfers -/

theorem advance_waits (n : Nat) (s : State) (h : restoreWaits s = true) : restoreWaits (advance n s) = true :=
  restoreWaits_of h (by simp) (advance_inFrame n s) (by simp) (by simp)

theorem reject_waits (es : List Nat) (addr : Option (BitVec 16)) (s : State) (h : restoreWaits s = true) :
    restoreWaits (reject es addr s) = true := restoreWaits_kept h (by simp) (by simp) (by simp)

theorem writeBytes_waits (addr : BitVec 16) (data : List Byte) (s : State) (h : restoreWaits s = true) :
    restoreWaits (writeBytes addr data s) = true := by
  simp only [writeBytes]
  split
  · exact reject_waits _ _ _ h
  · exact commit_waits _ _ (when_waits _ (flagErr 6 (some addr)) _ (fun t ht => ht) h)

/-- A transaction of its own keeps a restore waiting where what it does in it keeps it. -/
theorem ownTxn_waits (a : Nat) (f : State → State) (s : State) (hf : ∀ t, restoreWaits t = true → restoreWaits (f t) = true)
    (h : restoreWaits s = true) : restoreWaits (ownTxn a f s) = true := by
  unfold ownTxn
  split
  · exact closeTxn_waits _ (hf _ (closeTxn_waits s h))
  · exact h

theorem hostItems_waits (is : List Item) (s : State) (h : restoreWaits s = true) : restoreWaits (hostItems is s) = true :=
  ownTxn_waits _ _ s (commit_waits is) h

theorem hostWord_waits (k : Nat) (w : Word) (s : State) (h : restoreWaits s = true) : restoreWaits (hostWord k w s) = true :=
  hostItems_waits _ s h

theorem hostBytes_waits (a : Nat) (data : List Byte) (s : State) (h : restoreWaits s = true) : restoreWaits (hostBytes a data s) = true :=
  ownTxn_waits _ _ s (writeBytes_waits _ data) h

theorem spiReadFrame_waits (bytes : List Byte) (extra : BitVec 3) (s : State) (h : restoreWaits s = true) :
    restoreWaits (spiReadFrame bytes extra s) = true :=
  restoreWaits_kept h (by simp [spiReadFrame_frame]) (by simp [spiReadFrame_frame]) (by simp [spiReadFrame_frame])

theorem spiBody_waits (bytes : List Byte) (extra : BitVec 3) (s : State) (h : restoreWaits s = true) :
    restoreWaits (spiBody bytes extra s) = true := by
  have hw : ∀ errs addr data t, restoreWaits t = true → restoreWaits (spiWrite errs addr data t) = true := by
    intro errs addr data t ht
    unfold spiWrite
    split
    · exact writeBytes_waits _ _ t ht
    · exact reject_waits _ _ t ht
  simp only [spiBody]
  split
  · exact h
  split
  · split
    · exact h
    · exact reject_waits _ _ _ h
  split
  · simp only [spiWriteFrame]
    split <;> exact hw _ _ _ _ h
  split
  · exact spiReadFrame_waits _ _ _ h
  · exact reject_waits _ _ _ h

theorem spiFrame_waits (bytes : List Byte) (extra : BitVec 3) (s : State) (h : restoreWaits s = true) :
    restoreWaits (spiFrame bytes extra s) = true := by
  unfold spiFrame
  split
  · exact h
  · exact closeTxn_waits _ (spiBody_waits _ _ _ (closeTxn_waits s h))

/-- So does a transfer on the bus. -/
theorem onBus_waits (x : Xfer) (f : State → State) (s : State) (hf : ∀ t, restoreWaits t = true → restoreWaits (f t) = true)
    (h : restoreWaits s = true) : restoreWaits (onBus x f s) = true := by
  have hb : restoreWaits (f (beginXfer x.sr (advance x.t s))) = true := by
    refine hf _ ?_
    unfold beginXfer
    split
    · exact advance_waits _ s h
    · exact closeTxn_waits _ (advance_waits _ s h)
  unfold onBus
  split
  · exact h
  · simp only
    split
    · exact closeTxn_waits _ hb
    · exact hb

theorem addressed_waits (c : State → Bool) (f : State → State) (s : State) (hf : ∀ t, restoreWaits t = true → restoreWaits (f t) = true)
    (h : restoreWaits s = true) : restoreWaits (addressed c f s) = true := by
  unfold addressed
  split
  · exact hf s h
  · exact h

theorem busWrite_waits (errs : List Nat) (bytes : List Byte) (s : State) (h : restoreWaits s = true) :
    restoreWaits (busWrite errs bytes s) = true := by
  simp only [busWrite]
  split
  · split
    · exact h
    · exact reject_waits _ _ _ h
  · split
    · exact reject_waits _ _ _ h
    · split
      · exact h
      · exact writeBytes_waits _ _ (setPtr _ s) h

theorem broadcastAddress_waits (s : State) : restoreWaits (broadcastAddress s) = restoreWaits s := rfl

theorem broadcastCcc_waits (b : Ends) (f : State → State) (s : State) (hf : ∀ t, restoreWaits t = true → restoreWaits (f t) = true)
    (h : restoreWaits s = true) : restoreWaits (broadcastCcc b f s) = true :=
  onBus_waits _ (fun u => f (broadcastAddress u)) s (fun t ht => hf _ ((broadcastAddress_waits t).trans ht)) h

theorem directCcc_waits (b : Ends) (c : State → Bool) (f : State → State) (s : State)
    (hf : ∀ t, restoreWaits t = true → restoreWaits (f t) = true) (h : restoreWaits s = true) :
    restoreWaits (directCcc b c f s) = true := by
  refine onBus_waits _ (fun u => let t := broadcastAddress u; if c t then f (acked [true, true] t) else acked [true, false] t) s
    (fun t ht => ?_) h
  simp only
  split
  · exact hf _ ((broadcastAddress_waits t).trans ht)
  · exact (broadcastAddress_waits t).trans ht

theorem eitherCcc_waits (dev : Option (BitVec 7)) (b : Ends) (f : State → State) (s : State)
    (hf : ∀ t, restoreWaits t = true → restoreWaits (f t) = true) (h : restoreWaits s = true) :
    restoreWaits (eitherCcc dev b f s) = true := by
  cases dev
  · exact broadcastCcc_waits b f s hf h
  · exact directCcc_waits b _ f s hf h

end Sys2Proof.Machine
end

section
/-! SUPPORT. A restore behind the rows of the host port, of supplies and of resets. -/

namespace Sys2Proof.Machine

/-! ## The host port -/

theorem readXfer_waits (len : Nat) (cut : Bool) (s : State) (h : restoreWaits s = true) : restoreWaits (readXfer len cut s) = true := by
  refine restoreWaits_kept h ?_ ?_ ?_ <;> (simp only [readXfer]; split <;> simp [busRead_frame])

theorem i2cWrite_waits (dev : BitVec 7) (bytes : List Byte) (x : Xfer) (s : State) (h : restoreWaits s = true) :
    restoreWaits (i2cWrite dev bytes x s) = true :=
  onBus_waits x _ s (fun _ ht => addressed_waits _ _ _ (fun u hu =>
    show restoreWaits (busWrite (if x.cut then [1] else []) bytes u) = true from busWrite_waits _ _ u hu) ht) h

theorem i2cRead_waits (dev : BitVec 7) (len : Nat) (x : Xfer) (s : State) (h : restoreWaits s = true) :
    restoreWaits (i2cRead dev len x s) = true :=
  onBus_waits x _ s (fun _ ht => addressed_waits _ _ _ (readXfer_waits len x.cut) ht) h

theorem i3cWrite_waits (dev : BitVec 7) (bytes : List Byte) (parityOk : Bool) (x : Xfer) (s : State) (h : restoreWaits s = true) :
    restoreWaits (i3cWrite dev bytes parityOk x s) = true :=
  onBus_waits x _ s (fun _ ht => addressed_waits _ _ _ (fun u hu =>
    show restoreWaits (busWrite ((if x.cut then [1] else []) ++ if parityOk then [] else [7]) bytes u) = true from
      busWrite_waits _ _ u hu) ht) h

theorem i3cRead_waits (dev : BitVec 7) (len : Nat) (x : Xfer) (s : State) (h : restoreWaits s = true) :
    restoreWaits (i3cRead dev len x s) = true :=
  onBus_waits x _ s (fun _ ht => addressed_waits _ _ _ (readXfer_waits len x.cut) ht) h

theorem broadcastHeader_waits (b : Ends) (s : State) (h : restoreWaits s = true) : restoreWaits (broadcastHeader b s) = true :=
  onBus_waits _ _ s (fun _ ht => ht) h

theorem arbitrate_waits (a : BitVec 7) (s : State) (h : restoreWaits s = true) : restoreWaits (arbitrate a s) = true := by
  unfold arbitrate
  split <;> exact h

theorem armAction_waits (direct : Bool) (d : Byte) (s : State) (h : restoreWaits s = true) : restoreWaits (armAction direct d s) = true := by
  unfold armAction
  split
  · exact h
  · split <;> exact h

theorem hdrExit_waits (s : State) (h : restoreWaits s = true) : restoreWaits (hdrExit s) = true := by
  unfold hdrExit
  split
  · exact h
  · exact closeTxn_waits { s with hif := _ } h

theorem hifReset_waits (s : State) (h : restoreWaits s = true) : restoreWaits (hifReset s) = true :=
  restoreWaits_of h (by simp [hifReset_frame]) (by simp [hifReset_frame]) (by simp [hifReset_frame]) (by simp [hifReset_inner])

theorem hifResetRow_waits (s : State) (h : restoreWaits s = true) : restoreWaits (hifResetRow s) = true := by
  unfold hifResetRow
  split
  · exact hifReset_waits _ (closeTxn_waits s h)
  · exact h

/-- A reset of the measurement and management parts leaves no command running (Table 4.1). -/
theorem beginStart_idle (bits : BitVec 11) (soft powerOn : Bool) (lost : Nat) (s : State) :
    (beginStart bits soft powerOn lost s).cond.running = none := rfl

theorem rstactReset_waits (s : State) (h : restoreWaits s = true) : restoreWaits (rstactReset s) = true := by
  unfold rstactReset
  split
  · exact h
  · rfl

theorem targetReset_waits (s : State) (h : restoreWaits s = true) : restoreWaits (targetReset s) = true := by
  unfold targetReset
  split
  · exact h
  · simp only
    split
    · exact rstactReset_waits _ (closeTxn_waits s h)
    · exact hifReset_waits _ (closeTxn_waits s h)

theorem ibiBegin_waits (s : State) (h : restoreWaits s = true) : restoreWaits (ibiBegin s) = true := by
  unfold ibiBegin
  split
  · exact h
  · exact closeTxn_waits s h

theorem ibiOver_waits (stop : Bool) (s : State) (h : restoreWaits s = true) : restoreWaits (ibiOver stop s) = true := by
  unfold ibiOver
  cases stop
  · exact h
  · exact closeTxn_waits { s with hif := _ } h

/-! ## Supplies and resets -/

/-- A change of the supplies leaves the running command, the frame and the resets as they are, or clears them with the main
domain (R37, R84). -/
theorem tearOp_waits (s : State) (h : restoreWaits s = true) : restoreWaits (tearOp s) = true :=
  restoreWaits_kept h (by simp [tearOp_frame]) (by simp [tearOp_frame]) (by simp [tearOp_frame])

theorem trickleEval_waits (s : State) (h : restoreWaits s = true) : restoreWaits (trickleEval s) = true :=
  restoreWaits_kept h (by simp [trickleEval_frame]) (by simp [trickleEval_frame]) (by simp [trickleEval_frame])

theorem ite_waits {c : Prop} [Decidable c] {s t : State} (hs : restoreWaits s = true) (ht : restoreWaits t = true) :
    restoreWaits (if c then s else t) = true := by
  split
  · exact hs
  · exact ht

theorem leaveShip_waits (s : State) (h : restoreWaits s = true) : restoreWaits (leaveShip s) = true :=
  trickleEval_waits _ (ite_waits rfl h)

theorem shipEval_waits (s : State) (h : restoreWaits s = true) : restoreWaits (shipEval s) = true := by
  have ht : restoreWaits (if s.pins.vdd < vOff s then tearOp s else s) = true := ite_waits (tearOp_waits s h) h
  exact ite_waits (leaveShip_waits { (if s.pins.vdd < vOff s then tearOp s else s) with pwr := _ } ht) ht

/-- Without the always-on domain nothing of the main domain runs. -/
theorem aonOff_waits (s : State) (h : restoreWaits s = true) : restoreWaits (aonOff s) = true :=
  show restoreWaits (if s.pwr.mainOn then mainOff s else s) = true from ite_waits rfl h

theorem railsEval_waits (s : State) (h : restoreWaits s = true) : restoreWaits (railsEval s) = true :=
  ite_waits (aonOff_waits s h) (ite_waits (shipEval_waits s h) (trickleEval_waits _ (ite_waits rfl (ite_waits rfl h))))

theorem powerEval_waits (s : State) (h : restoreWaits s = true) : restoreWaits (powerEval s) = true := by
  have ha : restoreWaits (aonColdStart s) = true := ite_waits h h
  exact ite_waits (railsEval_waits _ ha) ha

theorem outSettle_waits (s : State) (h : restoreWaits s = true) : restoreWaits (outSettle s) = true :=
  restoreWaits_kept h (by simp) (by simp) (by simp)

theorem setSupplies_waits (vdd vbat : Nat) (s : State) (h : restoreWaits s = true) : restoreWaits (setSupplies vdd vbat s) = true :=
  outSettle_waits _ (powerEval_waits { s with pins := _ } h)

theorem shipExit_waits (w : ShipWake) (s : State) (h : restoreWaits s = true) : restoreWaits (shipExit w s) = true := by
  cases w with
  | waken us =>
    simp only [shipExit]
    split
    · exact leaveShip_waits { s with free := _ } h
    · exact h
  | vddReturn v => exact setSupplies_waits _ _ s h

theorem ktick_waits (e : Edge) (s : State) (h : restoreWaits s = true) : restoreWaits (ktick e s) = true := by
  unfold ktick
  split
  · exact h
  · exact settle_waits _

theorem ktickIf_waits (p : State → Bool) (e : Edge) (s : State) (h : restoreWaits s = true) : restoreWaits (ktickIf p e s) = true := by
  unfold ktickIf
  split
  · exact ktick_waits e s h
  · exact h

theorem edgeAt_waits (vdd : Nat) (p : State → Bool) (e : Edge) (s : State) (h : restoreWaits s = true) :
    restoreWaits (edgeAt vdd p e s) = true := ktickIf_waits p e _ (setSupplies_waits _ _ s h)

theorem rstn_waits (lowNs : Nat) (s : State) (h : restoreWaits s = true) : restoreWaits (rstn lowNs s) = true := by
  simp only [rstn]
  split
  · rfl
  · exact h

end Sys2Proof.Machine
end

section
/-! SUPPORT. A restore behind every command. -/

namespace Sys2Proof.Machine

/-! ## The rows of the conductor, of events and of frames -/

theorem onStart_waits (op t : Nat) (f : Cmd → State → State) (s : State) (h : restoreWaits s = true) :
    restoreWaits (onStart op t f s) = true := by
  unfold onStart
  split
  · exact h
  · exact settle_waits _

theorem discover_waits (teds : List Teds) (d : DiscData) (t : Nat) (s : State) (h : restoreWaits s = true) :
    restoreWaits (discover teds d t s) = true := by
  unfold discover
  split
  · exact ite_waits (settle_waits _) h
  · exact ite_waits (settle_waits _) h
  · exact ite_waits (settle_waits _) h
  · exact h

theorem nvSuspend_waits (t : Nat) (s : State) (h : restoreWaits s = true) : restoreWaits (nvSuspend t s) = true :=
  ite_waits h (ite_waits (settle_waits _) (ite_waits (settle_waits _) (settle_waits _)))

theorem undefinedCommand_waits (t : Nat) (s : State) (h : restoreWaits s = true) : restoreWaits (undefinedCommand t s) = true := by
  unfold undefinedCommand
  split
  · exact ite_waits (settle_waits _) h
  · exact h

theorem commandStart_waits (t : Nat) (s : State) (h : restoreWaits s = true) : restoreWaits (commandStart t s) = true := by
  unfold commandStart
  split
  · exact h
  · exact ite_waits h (ite_waits (settle_waits _) (settle_waits _))

/-- In the conductor's reset a restore waits for its end (R344). -/
theorem restoreWaits_inReset {s : State} (h : s.cond.inReset = true) : restoreWaits s = true := by
  unfold restoreWaits
  split
  · simp [h]
  · rfl

/-- In a frame a restore waits for its end (R306). -/
theorem restoreWaits_inFrame {s : State} (h : s.tt.frame.isSome = true) : restoreWaits s = true := by
  unfold restoreWaits
  split
  · simp [h]
  · rfl

/-- The watchdog leaves a running restore in the conductor's reset (R341). -/
theorem watchdogExpiry_waits (s : State) (h : restoreWaits s = true) : restoreWaits (watchdogExpiry s) = true := by
  simp only [watchdogExpiry]
  split
  · exact h
  · exact restoreWaits_inReset (by simp [setCause_frame])

theorem conductorRestart_waits (t : Nat) (s : State) (h : restoreWaits s = true) : restoreWaits (conductorRestart t s) = true := by
  simp only [conductorRestart]
  split
  · exact h
  · refine ite_waits (settle_waits _) ?_
    split
    · exact settle_waits _
    · exact ite_waits (settle_waits _) (settle_waits _)
    · exact settle_waits _

theorem idLineTimeout_waits (t : Nat) (s : State) (h : restoreWaits s = true) : restoreWaits (idLineTimeout t s) = true := by
  unfold idLineTimeout
  split
  · exact ite_waits (settle_waits _) h
  · exact h

theorem discoveryHoldBegin_waits (s : State) (h : restoreWaits s = true) : restoreWaits (discoveryHoldBegin s) = true := by
  unfold discoveryHoldBegin
  split
  · exact ite_waits h (settle_waits _)
  · exact h

theorem calHoldBegin_waits (s : State) (h : restoreWaits s = true) : restoreWaits (calHoldBegin s) = true := by
  unfold calHoldBegin
  split
  · exact ite_waits h (settle_waits _)
  · exact h

theorem calResultApply_waits (m : Measured) (t : Nat) (s : State) (h : restoreWaits s = true) :
    restoreWaits (calResultApply m t s) = true := by
  unfold calResultApply
  split
  · exact ite_waits h (settle_waits _)
  · exact h

theorem pageOperationEnd_waits (ecc : Ecc) (t : Nat) (s : State) (h : restoreWaits s = true) :
    restoreWaits (pageOperationEnd ecc t s) = true := by
  unfold pageOperationEnd
  split
  · exact h
  · exact settle_waits _

theorem acceptRow_waits (k : Nat) (e : Edge) (s : State) (h : restoreWaits s = true) : restoreWaits (acceptRow k e s) = true := by
  have hc : restoreWaits (acceptChange k e s) = true := by
    refine ite_waits (settle_waits _) ?_
    split
    · exact settle_waits _
    · exact ktickIf_waits _ e s h
  unfold acceptRow
  split
  · exact ite_waits (settle_waits _) hc
  · exact hc

theorem frameStart_waits (t : Nat) (s : State) (h : restoreWaits s = true) : restoreWaits (frameStart t s) = true := by
  unfold frameStart
  split
  · split
    · exact ite_waits h (restoreWaits_inFrame (by simp [beginFrame, applyPortEn_frame]))
    · exact h
  · exact h

/-- What a command leaves keeps a restore waiting. -/
def LeavesWaiting (o : Host.Outcome State Fault Refusal) : Prop := ∀ t, o = .next t → restoreWaits t = true

theorem leavesWaiting_next {u : State} (h : restoreWaits u = true) : LeavesWaiting (.next u) := by
  rintro t ⟨⟩
  exact h

theorem leavesWaiting_atLevels (mv : List Nat) (f : State → State) (s : State) (h : restoreWaits (f s) = true) :
    LeavesWaiting (atLevels mv f s) := by
  unfold atLevels
  split
  · rintro t ⟨⟩
  · exact leavesWaiting_next h

/-- A command that leaves the running command, the frame and the resets as they are, or begins no more than a frame. -/
theorem leavesWaiting_of {s u : State} (h : restoreWaits s = true) (hr : u.cond.running = s.cond.running)
    (hf : s.tt.frame.isSome = true → u.tt.frame.isSome = true) (hi : u.cond.inReset = s.cond.inReset)
    (hm : u.sys.measRst = s.sys.measRst) : LeavesWaiting (.next u) := leavesWaiting_next (restoreWaits_of h hr hf hi hm)

theorem exec_waits (c : Instr) (s : State) (h : restoreWaits s = true) : LeavesWaiting (exec c s) := by
  cases c
  case mainPowerOn | aonColdStart | selectorSwitch | aonSupplyFallback | mainDomainOff | trickleHeadroomChange | trickleDone |
      trickleResume =>
    exact leavesWaiting_atLevels _ _ s (setSupplies_waits _ _ s h)
  case brownOutWarning | warningEnd => exact leavesWaiting_atLevels _ _ s (edgeAt_waits _ _ _ s h)
  case shipExit w => exact leavesWaiting_atLevels _ _ s (shipExit_waits w s h)
  case vddioPresenceChange mv => exact leavesWaiting_atLevels _ _ s (restoreWaits_kept h (by simp) (by simp) (by simp))
  case spiWriteFrame | spiReadFrame => exact leavesWaiting_next (spiFrame_waits _ _ _ (advance_waits _ s h))
  case spiStatusPoll => exact leavesWaiting_next (spiFrame_waits _ _ s h)
  case hifReset => exact leavesWaiting_next (hifResetRow_waits s h)
  case i2cWriteTransfer => exact leavesWaiting_next (i2cWrite_waits _ _ _ s h)
  case i2cReadTransfer => exact leavesWaiting_next (i2cRead_waits _ _ _ s h)
  case i3cPrivateWrite => exact leavesWaiting_next (i3cWrite_waits _ _ _ _ s h)
  case i3cPrivateRead => exact leavesWaiting_next (i3cRead_waits _ _ _ s h)
  case i3cBroadcastAddress => exact leavesWaiting_next (broadcastHeader_waits _ s h)
  case entdaa a b => exact leavesWaiting_next (broadcastCcc_waits _ _ s (arbitrate_waits a) h)
  case setdasa a b => exact leavesWaiting_next (directCcc_waits _ _ _ s (fun _ ht => ht) h)
  case rstdaa | enthdr => exact leavesWaiting_next (broadcastCcc_waits _ _ s (fun _ ht => ht) h)
  case enec | disec => exact leavesWaiting_next (eitherCcc_waits _ _ _ s (fun _ ht => ht) h)
  case getpid | getbcr | getdcr | getstatus | unacknowledgedCcc =>
    exact leavesWaiting_next (directCcc_waits _ _ _ s (fun _ ht => ht) h)
  case rstact dev d b => exact leavesWaiting_next (eitherCcc_waits _ _ _ s (armAction_waits dev.isSome d) h)
  case hdrExit => exact leavesWaiting_next (hdrExit_waits s h)
  case targetResetPattern => exact leavesWaiting_next (targetReset_waits s h)
  case ibiRequest | ibiReminder => exact leavesWaiting_next (ite_waits (ibiBegin_waits s h) h)
  case ibiAck | ibiNack => exact leavesWaiting_next (ite_waits (ibiOver_waits _ { s with hif := _ } h) h)
  case registerWrite => exact leavesWaiting_next (hostBytes_waits _ _ _ (advance_waits _ s h))
  case timetableWrite => exact leavesWaiting_next (hostBytes_waits _ _ s h)
  case smTableWrite => exact leavesWaiting_next (ite_waits h (hostBytes_waits _ _ s h))
  case alarmWrite => exact leavesWaiting_next (ite_waits h (hostWord_waits _ _ s h))
  case calendarWrite | ttStartArm => exact leavesWaiting_next (hostItems_waits _ s h)
  case measReset | ttKick | ledgerEnable | ledgerDisable => exact leavesWaiting_next (hostWord_waits _ _ _ (advance_waits _ s h))
  case softReset | castleModeWrite | firstCastlingClear | trickleWrite | timeWrite | localOffsetWrite | dstFwd | dstBack |
      shiftWrite | rtcHalt | rtcRelease | trimWrite | countdownLoad | clkSrcWrite | clkPlanWrite | clkSpreadWrite | afeCtlWrite |
      ttEnable | ttDisable | resultTailWrite | evtStatClear | evtMaskWrite | evtIncfgWrite | evtLogTailWrite | aoutCodeWrite |
      spanChange | generatorRestart | cmdCplTailWrite =>
    exact leavesWaiting_next (hostWord_waits _ _ s h)
  case loadTt | switchTt | slotBind | calTdc | calMod | calEvt | nvRead | nvWrite | nvClear | nvResume | nvAbandon | saveConfig |
      restoreConfig | selftest | ship =>
    exact leavesWaiting_next (onStart_waits _ _ _ s h)
  case discover => exact leavesWaiting_next (discover_waits _ _ _ s h)
  case nvSuspend => exact leavesWaiting_next (nvSuspend_waits _ s h)
  case undefinedCommand => exact leavesWaiting_next (undefinedCommand_waits _ s h)
  case commandStart => exact leavesWaiting_next (commandStart_waits _ s h)
  case watchdogExpiry => exact leavesWaiting_next (watchdogExpiry_waits s h)
  case conductorRestart => exact leavesWaiting_next (conductorRestart_waits _ s h)
  case idLineTimeout => exact leavesWaiting_next (idLineTimeout_waits _ s h)
  case discoveryHoldBegin => exact leavesWaiting_next (discoveryHoldBegin_waits s h)
  case calHoldBegin => exact leavesWaiting_next (calHoldBegin_waits s h)
  case calResultApply => exact leavesWaiting_next (calResultApply_waits _ _ s h)
  case nvPageOperationEnd => exact leavesWaiting_next (pageOperationEnd_waits _ _ s h)
  case ledgerLap | ledgerCheckpoint | measResetComplete | bootRecord => exact leavesWaiting_next (ite_waits h (settle_waits _))
  case attachRegistered | detachRegistered | presenceSlot => exact leavesWaiting_next (ite_waits (settle_waits _) h)
  case detachInConversion => exact leavesWaiting_next (ite_waits (settle_waits _) h)
  case refinMissing | lockWindowClose | driftWindowClose | carriageEnd | frameEnd => exact leavesWaiting_next (settle_waits _)
  case x32Edge => exact leavesWaiting_next (ktick_waits _ s h)
  case rtcStartingEdge | castlingRegistered | shipEntry | secondTick | trimWindowStart | trimCorrection | alarmCommitCheck |
      alarmFiring | ttStartFiring | countdownTick | countdownZero | preWake | acquisitionRetry | spanChangeEnd | intervalEnd |
      checkpointDue =>
    exact leavesWaiting_next (ktickIf_waits _ _ s h)
  case tempConversionStart => exact leavesWaiting_next (ktickIf_waits _ _ { s with pins := _ } h)
  case syncRise => exact leavesWaiting_next (ite_waits h (acceptRow_waits _ _ s h))
  case evChangeAccepted => exact leavesWaiting_next (acceptRow_waits _ _ s h)
  case frameStart => exact leavesWaiting_next (frameStart_waits _ s h)
  case rstn => exact leavesWaiting_next (rstn_waits _ s h)
  case spiFrameDuringCommit | mainResetRelease | mainStartHfrcRunning | journalRead | sramClearDone | configImageApply | ledgerRecovery |
      x32RunDeclared | spreadPeriodWrap | evTransition | excite | excOff | convert | aux | conversionEnd | diagCheckFire | correct |
      couple | emit | aoutSet | ledgerAdd | mark | generatorUpdate | aoutComplianceLoss | aoutComplianceRecovery =>
    exact leavesWaiting_of h (by simp) (fun hf => by simp [hf]) (by simp) (by simp)
  -- SEAL, whose name is also a word of Lean's
  exact leavesWaiting_next (hostItems_waits _ s h)

end Sys2Proof.Machine
end

section
/-! SUPPORT. Every step keeps the invariant. -/

namespace Sys2Proof.Machine

/-- Settles O24: an empty queue leaves the block idle, and each command keeps both parts (`exec_inv`, `exec_waits`). -/
theorem stepKeepsInvariant : Obligations.StepKeepsInvariant := by
  unfold Obligations.StepKeepsInvariant
  refine ⟨fun s t h ht => ?_, fun s t h ht => ?_⟩ <;> unfold step at ht
  · split at ht
    · exact Host.Outcome.next.inj ht ▸ h
    · next c rest _ => exact exec_inv c { s with pending := rest } h t ht
  · split at ht
    · exact Host.Outcome.next.inj ht ▸ h
    · next c rest _ => exact exec_waits c { s with pending := rest } h t ht

end Sys2Proof.Machine
end

section
/-! SUPPORT. SLOT_BIND (R327): O37. -/

namespace Sys2Proof.Machine

/-- A page holds what the array holds. -/
theorem pageAt_of_nv {s t : State} (h : t.nv = s.nv) (l : Nat) : pageAt t l = pageAt s l :=
  congrArg (fun v => pageAt { s with nv := v } l) h

/-- SLOT_BIND acts on the state it starts in. -/
theorem exec_slotBind (c : Cmd) (n : Nat) (s : State) (h : startedAs c s) (hop : c.op = 4) :
    exec (.slotBind n) s = .next (settle (slotBind c (startOf n s))) :=
  congrArg _ (onStart_started 4 n slotBind c s h hop)

theorem bindArgsBad_iff (c : Cmd) : bindArgsBad c = true ↔ 16 ≤ fld c.a1 0 5 ∧ fld c.a1 0 5 ≤ 30 := by
  simp [bindArgsBad]

theorem fld_two_lt (w : Word) : fld w 0 2 < 4 := by
  unfold fld
  omega

theorem portAt_setPort_same (k : Nat) (p : Port) (s : State) (hk : k < s.disc.ports.length) : portAt (setPort k p s) k = p := by
  simp [portAt, setPort, hk]

/-- With the port at rest, and put there again at rest, nothing is held or waits. -/
theorem noHolds_setPort (k : Nat) (p : Port) (s : State) (h : noHolds s) (hp : quietPort p = true) : noHolds (setPort k p s) := by
  obtain ⟨hmod, hpair, hexc, hev, hall⟩ := h
  refine ⟨hmod, hpair, hexc, hev, List.all_eq_true.mpr fun q hq => ?_⟩
  obtain hq | rfl := List.mem_or_eq_of_mem_set hq
  · exact List.all_eq_true.mp hall q hq
  · exact hp

/-- The port of an override: without its binding, and OVERRIDE (R327). -/
def Port.overridden (p : Port) : Port := { p.unbound with state := 4, override := true }

/-- The override of a port. -/
def overridden (k : Nat) (s : State) : State := setPort k (portAt s k).overridden s

theorem portWord_of_disc {s t : State} (h : t.disc = s.disc) (k : Nat) : portAt t k = portAt s k ∧ portWord t k = portWord s k := by
  simp [portWord, portAt, h]

/-- The override ends the command (R327). -/
theorem overridden_ends (c : Cmd) (n k : Nat) (s t : State) (h : startedAs c s) (hk : k < (startOf n s).disc.ports.length)
    (ht : t = settle (finishCmd rOk (portWord (overridden k (startOf n s)) k) (overridden k (startOf n s)))) :
    portAt t k = (portAt s k).overridden ∧ ended c rOk (portWord t k) s t ∧ besideConductor s t := by
  obtain ⟨hr, hc, hw, hroom, hh, hd, hm⟩ := startOf_startedAs n s c h
  obtain ⟨-, -, -, -, hports⟩ := id hh
  have hq : quietPort (portAt (startOf n s) k).overridden = true := by
    simp [quietPort, Port.overridden, Port.unbound, portAt_quiet _ hports k]
  have hs : startedAs c (overridden k (startOf n s)) := ⟨hr, hc, hw, hroom, noHolds_setPort k _ _ hh hq, hd, hm⟩
  have hv : EndsFrom c (overridden k (startOf n s)) (overridden k (startOf n s)) :=
    ⟨hs, ⟨rfl, rfl, rfl⟩, rfl, id, by simp [besideConductor]⟩
  obtain ⟨he, hdisc, hb, -⟩ := hv.ends rOk (portWord (overridden k (startOf n s)) k)
  rw [← ht] at he hdisc hb
  obtain ⟨hp, hword⟩ := portWord_of_disc hdisc k
  have hring : (overridden k (startOf n s)).cond = { s.cond with wdog := 0 } := startOf_cond n s
  obtain ⟨hport, -⟩ := startOf_ports n s k
  refine ⟨?_, ?_, besideConductor_trans s _ _ (startOf_beside n s) hb (startOf_due n s)⟩
  · rw [hp, ← hport]
    exact portAt_setPort_same k _ _ hk
  · rw [hword]
    simpa [ended, answered, hring] using he

/-- The pages of a slot are what the array holds. -/
theorem installPages_of_nv {s t : State} (h : t.nv = s.nv) (slot : Nat) : installPages t slot = installPages s slot :=
  congrArg (fun v => installPages { s with nv := v } slot) h

/-- The read of a slot's pages for a port that installs (R327). -/
def bindReads (c : Cmd) (s : State) : State :=
  setInstalling (fld c.a0 0 2) true (setJob c (.bind (fld c.a1 0 5) (installPages s (fld c.a1 0 5))) s)

theorem settle_bindReads (c : Cmd) (s : State) (hw : s.pwr.warn = false) : settle (bindReads c s) = rest (pump (bindReads c s)) :=
  settle_steady _ c (.bind (fld c.a1 0 5) (installPages s (fld c.a1 0 5))) rfl rfl hw

/-- Settles O37: the refusals end the command as it starts, the override by `overridden_ends`, and the read goes on (`settle_bindReads`). -/
theorem slotBinding : Obligations.SlotBinding := by
  unfold Obligations.SlotBinding
  intro c s n h hop hlen
  have hx := exec_slotBind c n s h hop
  obtain ⟨hport, hword, hatt, -⟩ := startOf_ports n s (fld c.a0 0 2)
  have hk : fld c.a0 0 2 < (startOf n s).disc.ports.length := by simpa [hlen] using fld_two_lt c.a0
  refine ⟨fun hlo hhi => ?args, fun ha hn => ?noSensor, fun h31 hn => ?override, fun hlo hn => ?reads⟩
  case args =>
    obtain ⟨he, hd, hb, -⟩ := (endsFrom_startOf c n s h).ends rArgs (portWord s (fld c.a0 0 2))
    have hs : slotBind c (startOf n s) = finishCmd rArgs (portWord s (fld c.a0 0 2)) (startOf n s) := by
      rw [← hword]
      exact if_pos ((bindArgsBad_iff c).mpr ⟨hlo, hhi⟩)
    exact ⟨_, hs ▸ hx, he, hd, hb⟩
  case noSensor =>
    obtain ⟨he, hd, hb, -⟩ := (endsFrom_startOf c n s h).ends rState (portWord s (fld c.a0 0 2))
    have hs : slotBind c (startOf n s) = finishCmd rState (portWord s (fld c.a0 0 2)) (startOf n s) := by
      rw [← hword]
      exact (if_neg (by rw [bindArgsBad_iff]; omega)).trans (if_pos (by simp [hatt, hn]))
    exact ⟨_, hs ▸ hx, he, hd, hb⟩
  case override =>
    have hs : slotBind c (startOf n s) = finishCmd rOk (portWord (overridden (fld c.a0 0 2) (startOf n s)) (fld c.a0 0 2))
        (overridden (fld c.a0 0 2) (startOf n s)) :=
      (if_neg (by rw [bindArgsBad_iff]; omega)).trans ((if_neg (by simp [hatt, hn])).trans (if_pos h31))
    obtain ⟨hp, he, hb⟩ := overridden_ends c n (fld c.a0 0 2) s _ h hk rfl
    exact ⟨_, hs ▸ hx, by rw [hp]; rfl, by rw [hp]; rfl, by rw [hp]; rfl, by rw [hp]; rfl, he, hb⟩
  case reads =>
    have hs : slotBind c (startOf n s) = bindReads c (startOf n s) :=
      (if_neg (by rw [bindArgsBad_iff]; omega)).trans ((if_neg (by simp [hatt, hn])).trans (if_neg (by omega)))
    have hw : (startOf n s).pwr.warn = false := by simpa using h.2.2.1
    have hpages : installPages (startOf n s) (fld c.a1 0 5) = installPages s (fld c.a1 0 5) := installPages_of_nv (by simp) _
    rw [hs, settle_bindReads c _ hw] at hx
    have hb : besideConductor (startOf n s) (rest (pump (bindReads c (startOf n s)))) := by
      simp [besideConductor, bindReads, setInstalling, setJob]
    have hat : portAt (rest (pump (bindReads c (startOf n s)))) (fld c.a0 0 2) = { portAt s (fld c.a0 0 2) with installing := true } := by
      rw [(portWord_of_disc (s := bindReads c (startOf n s)) (by simp) _).1, ← hport]
      exact portAt_setPort_same _ _ (setJob c _ (startOf n s)) hk
    refine ⟨_, hx, ?_, ?_, ?_, ?_, besideConductor_trans s _ _ (startOf_beside n s) hb (startOf_due n s)⟩
    · simp [bindReads, setInstalling, setJob, hpages]
    · rw [hat]
    · rw [hat]
    · simp [bindReads, setInstalling, setJob]

end Sys2Proof.Machine
end

section
/-! SUPPORT. The starts of the commands of the array (R295, R299 to R302): O35. -/

namespace Sys2Proof.Machine

/-- A command at its start has the job j, and a clear runs or not. -/
def jobStarted (c : Cmd) (j : Job) (clears : Bool) (n : Nat) (s : State) : State :=
  setJob c j { startOf n s with nv := { (startOf n s).nv with running := clears } }

theorem jobStarted_kept (c : Cmd) (j : Job) (n : Nat) (s : State) : jobStarted c j s.nv.running n s = setJob c j (startOf n s) := by
  have h : (startOf n s).nv.running = s.nv.running := by simp
  rw [jobStarted, ← h]

/-- What follows the start of a job leaves: the job, whether a clear runs, and all but the page it may begin as it was. -/
structure JobBegins (c : Cmd) (j : Job) (clears : Bool) (s t : State) : Prop where
  running : t.cond.running = some (c, j)
  clearing : t.nv.running = clears
  pages : t.nv.pages = s.nv.pages
  mem : t.mem = s.mem
  evt : t.evt = s.evt
  beside : besideConductor s t

/-- A job that nothing acts on at once begins its pages. -/
theorem settle_jobStarted (c : Cmd) (j : Job) (clears : Bool) (n : Nat) (s : State) (hj : j.steady (jobStarted c j clears n s) c = true)
    (hw : s.pwr.warn = false) : settle (jobStarted c j clears n s) = rest (pump (jobStarted c j clears n s)) :=
  settle_steady _ c j rfl hj (by simpa [jobStarted, setJob] using hw)

theorem jobStarted_begins (c : Cmd) (j : Job) (clears : Bool) (n : Nat) (s : State) (hj : j.steady (jobStarted c j clears n s) c = true)
    (hw : s.pwr.warn = false) : JobBegins c j clears s (settle (jobStarted c j clears n s)) := by
  rw [settle_jobStarted c j clears n s hj hw]
  have hb : besideConductor (startOf n s) (rest (pump (jobStarted c j clears n s))) := by
    simp [besideConductor, jobStarted, setJob]
  refine ⟨?_, ?_, ?_, ?_, ?_, besideConductor_trans s _ _ (startOf_beside n s) hb (startOf_due n s)⟩
  · simp [jobStarted, setJob]
  · simp [jobStarted, setJob]
  · simp [jobStarted, setJob]
  · simp [jobStarted, setJob]
  · simp [jobStarted, setJob, startOf]

/-- A command that its start refuses ends, and the array is as before. -/
theorem refused_atStart (c : Cmd) (n reason : Nat) (s : State) (h : startedAs c s) :
    ended c reason 0 s (settle (finishCmd reason 0 (startOf n s))) ∧
    (settle (finishCmd reason 0 (startOf n s))).nv.pages = s.nv.pages ∧
    besideConductor s (settle (finishCmd reason 0 (startOf n s))) := by
  obtain ⟨he, -, hb, -⟩ := (endsFrom_startOf c n s h).ends reason 0
  exact ⟨he, by simp, hb⟩

/-! ## What a command of the array finds at its start -/

/-- The journal, and what it holds, is what the array holds (R299). -/
theorem journal_of_nv {s t : State} (h : t.nv = s.nv) : journal t = journal s ∧ clearHeld t = clearHeld s ∧
    ∀ lo hi, journalTouches t lo hi = journalTouches s lo hi :=
  ⟨congrArg (fun v => journal { s with nv := v }) h, congrArg (fun v => clearHeld { s with nv := v }) h,
    fun lo hi => congrArg (fun v => journalTouches { s with nv := v } lo hi) h⟩

theorem clearArgsBad_iff (c : Cmd) : clearArgsBad c = true ↔
    fld c.a1 0 9 = 0 ∨ 448 < fld c.a0 0 9 + fld c.a1 0 9 ∨ (fld c.a0 0 9 < 16 ∧ 8 < fld c.a0 0 9 + fld c.a1 0 9) := by
  simp [clearArgsBad]

/-- The pages of a command are one at least. -/
theorem nvPages_ne_nil (ok : Nat → Bool) (c : Cmd) (ps : List Nat) (h : nvPages ok c = some ps) : ps ≠ [] := by
  simp only [nvPages] at h
  split at h
  · cases h
  · next hn =>
    obtain rfl := Option.some.inj h
    simp only [not_or] at hn
    simp [pageRange, hn.1]

/-- A clear suspended in the journal has its record there. -/
theorem journal_of_clearHeld (s : State) (h : clearHeld s = true) : ∃ r, journal s = some r := by
  unfold clearHeld journalled at h
  cases hj : journal s with
  | none => simp [hj] at h
  | some r => exact ⟨r, rfl⟩

/-- With nothing else to do the array begins the running command's next page (R295). -/
theorem pump_command (s : State) (hc : condRuns s = true) (ho : s.nv.op = none) (ht : s.nv.todo = []) (hl : s.ldg.job = none)
    (hs : owesSuspension s = false) : pump s = { s with nv := { s.nv with op := cmdOp s } } := by
  simp [pump, hc, ho, ht, hl, hs, cutInHand]

/-- NV_READ of pages begins with the first of them. -/
theorem pump_read (c : Cmd) (ps : List Nat) (b : Bool) (n : Nat) (s : State) (hop : c.op = 8) (hps : ps ≠ []) (hc : condRuns s = true)
    (ho : s.nv.op = none) (ht : s.nv.todo = []) (hl : s.ldg.job = none) :
    (rest (pump (jobStarted c (.pages ps 0 0 0 false false) b n s))).nv.op = some (opRead (ps.headD 0)) := by
  obtain ⟨p, r, rfl⟩ := List.exists_cons_of_ne_nil hps
  have hop' : cmdOp (jobStarted c (.pages (p :: r) 0 0 0 false false) b n s) = some (opRead p) := by
    simp [cmdOp, jobStarted, setJob, jobOp, hop]
  rw [pump_command _ (by simpa [condRuns, mainUp, jobStarted, setJob] using hc) (by simpa [jobStarted, setJob] using ho)
    (by simpa [jobStarted, setJob] using ht) (by simpa [jobStarted, setJob, startOf] using hl) rfl, hop']
  simp

/-- A command refused by its start, of whatever row. -/
theorem completes_refused (op reason n : Nat) (i : Instr) (f : Cmd → State → State) (c : Cmd) (s : State)
    (hx : exec i s = .next (onStart op n f s)) (h : startedAs c s) (hop : c.op = op)
    (hf : f c (startOf n s) = finishCmd reason 0 (startOf n s)) :
    Completes i s (fun t => ended c reason 0 s t ∧ t.nv.pages = s.nv.pages ∧ besideConductor s t) := by
  rw [onStart_started op n f c s h hop, hf] at hx
  exact ⟨_, hx, refused_atStart c n reason s h⟩

/-- One whose start gives it a job. -/
theorem completes_begun (op n : Nat) (j : Job) (clears : Bool) (i : Instr) (f : Cmd → State → State) (c : Cmd) (s : State)
    (hx : exec i s = .next (onStart op n f s)) (h : startedAs c s) (hop : c.op = op)
    (hf : f c (startOf n s) = jobStarted c j clears n s) (hj : j.steady (jobStarted c j clears n s) c = true) :
    Completes i s (fun t => t = rest (pump (jobStarted c j clears n s)) ∧ JobBegins c j clears s t) := by
  obtain ⟨-, -, hw, -⟩ := id h
  have hb := jobStarted_begins c j clears n s hj hw
  rw [onStart_started op n f c s h hop, hf] at hx
  rw [settle_jobStarted c j clears n s hj hw] at hx hb
  exact ⟨_, hx, rfl, hb⟩

/-- What a completion says may be weakened. -/
theorem Completes.imp {i : Instr} {s : State} {P Q : State → Prop} (h : Completes i s P) (hpq : ∀ t, P t → Q t) : Completes i s Q := by
  obtain ⟨t, ht, hp⟩ := h
  exact ⟨t, ht, hpq t hp⟩

/-- Settles O35: a refusal by `completes_refused`, a job by `completes_begun`, the first page of a read by `pump_read`. -/
theorem nvCommandStarts : Obligations.NvCommandStarts := by
  unfold Obligations.NvCommandStarts
  intro c s n h
  obtain ⟨hr, hc, hw, -⟩ := id h
  obtain ⟨hj, hheld, htouch⟩ := journal_of_nv (s := s) (t := startOf n s) (by simp)
  refine ⟨fun hop hps => ?readBad, fun ps hps hop => ?read, fun hop hps => ?writeBad, fun ps hps hop hfree => ?write, fun ps hps hop hh ht => ?writeHeld,
    fun hop ha => ?clearBad, fun hop h0 hhi hlo => ⟨fun hh => ?clearHeld, fun hh => ?clear⟩,
    fun r hrec hh => ⟨fun hop => ?resume, fun hop => ?abandon⟩, fun hh => ⟨fun hop => ?noResume, fun hop => ?noAbandon⟩⟩
  case readBad =>
    exact (completes_refused 8 rArgs n (.nvRead n) nvRead c s rfl h hop (by simp [nvRead, hps])).imp fun t ht => ⟨ht.1, ht.2.2⟩
  case read =>
    refine (completes_begun 8 n (.pages ps 0 0 0 false false) s.nv.running (.nvRead n) nvRead c s rfl h hop ?_ rfl).imp ?_
    · simp [nvRead, hps, jobStarted_kept]
    · rintro t ⟨rfl, ht⟩
      exact ⟨ht.running, ht.pages, ht.mem, ht.evt,
        fun ho hto hl => pump_read c ps _ n s hop (nvPages_ne_nil _ c ps hps) hc ho hto hl, ht.beside⟩
  case writeBad =>
    exact (completes_refused 9 rArgs n (.nvWrite n) nvWrite c s rfl h hop (by simp [nvWrite, hps])).imp fun t ht => ⟨ht.1, ht.2.2⟩
  case write =>
    refine (completes_begun 9 n (.pages ps 0 0 0 false false) s.nv.running (.nvWrite n) nvWrite c s rfl h hop ?_ rfl).imp ?_
    · rw [← hheld, ← htouch] at hfree
      simp [nvWrite, hps, hfree, jobStarted_kept]
    · rintro t ⟨-, ht⟩
      exact ⟨ht.running, ht.pages, ht.mem, ht.beside⟩
  case writeHeld =>
    rw [← hheld] at hh
    rw [← htouch] at ht
    exact completes_refused 9 rState n (.nvWrite n) nvWrite c s rfl h hop (by simp [nvWrite, hps, hh, ht])
  case clearBad =>
    exact (completes_refused 10 rArgs n (.nvClear n) nvClear c s rfl h hop (if_pos ((clearArgsBad_iff c).mpr ha))).imp
      fun t ht => ⟨ht.1, ht.2.2⟩
  case clearHeld =>
    rw [← hheld] at hh
    have hgood : ¬ clearArgsBad c = true := by rw [clearArgsBad_iff]; omega
    exact (completes_refused 10 rState n (.nvClear n) nvClear c s rfl h hop ((if_neg hgood).trans (if_pos hh))).imp
      fun t ht => ⟨ht.1, ht.2.2⟩
  case clear =>
    rw [← hheld] at hh
    have hgood : ¬ clearArgsBad c = true := by rw [clearArgsBad_iff]; omega
    have hsec : (coarseNow (startOf n s)).sec = s.rtc.sec := by simp [coarseNow, startOf]
    refine (completes_begun 10 n (.clear (pageRange (fld c.a0 0 9) (fld c.a1 0 9)) 0 0 (fld c.a0 0 9) (fld c.a1 0 9) s.rtc.sec false)
      true (.nvClear n) nvClear c s rfl h hop ?_ (by simp [Job.steady])).imp ?_
    · simp [nvClear, hgood, hh, hsec, startClear, jobStarted]
    · rintro t ⟨-, ht⟩
      exact ⟨ht.running, ht.clearing, ht.pages, ht.mem, ht.beside⟩
  case resume =>
    rw [← hheld] at hh
    refine (completes_begun 12 n (.clear (journalTodo r) 0 0 r.first r.count r.sec false)
      true (.nvResume n) nvResume c s rfl h hop ?_ (by simp [Job.steady])).imp ?_
    · simp [nvResume, hj, hrec, hh, startClear, jobStarted]
    · rintro t ⟨-, ht⟩
      exact ⟨ht.running, ht.clearing, ht.pages, ht.mem, ht.beside⟩
  case abandon =>
    rw [← hheld] at hh
    refine (completes_begun 13 n (.clear (journalTodo r) 0 4 r.first r.count r.sec false)
      s.nv.running (.nvAbandon n) nvAbandon c s rfl h hop ?_ (by simp [Job.steady])).imp ?_
    · simp [nvAbandon, hj, hrec, hh, jobStarted_kept]
    · rintro t ⟨-, ht⟩
      exact ⟨ht.running, ht.clearing, ht.pages, ht.mem, ht.beside⟩
  case noResume =>
    rw [← hheld] at hh
    refine (completes_refused 12 rState n (.nvResume n) nvResume c s rfl h hop ?_).imp fun t ht => ⟨ht.1, ht.2.2⟩
    cases hjr : journal (startOf n s) <;> simp [nvResume, hjr, hh]
  case noAbandon =>
    rw [← hheld] at hh
    refine (completes_refused 13 rState n (.nvAbandon n) nvAbandon c s rfl h hop ?_).imp fun t ht => ⟨ht.1, ht.2.2⟩
    cases hjr : journal (startOf n s) <;> simp [nvAbandon, hjr, hh]

end Sys2Proof.Machine
end

section
/-! SUPPORT. The starts and holds of calibrations (R307, R310, R311): O40. -/

namespace Sys2Proof.Machine

/-- The instructions that start a calibration act on the state it starts in. -/
theorem exec_calibration (c : Cmd) (n : Nat) (s : State) (h : startedAs c s) (i : Nat × Instr)
    (hi : i ∈ [(5, Instr.calTdc n), (6, .calMod n), (7, .calEvt n)]) (hop : c.op = i.1) :
    exec i.2 s = .next (settle (calStart c (startOf n s))) := by
  have hx : exec i.2 s = .next (onStart i.1 n calStart s) := by
    simp only [List.mem_cons, List.not_mem_nil, or_false] at hi
    obtain rfl | rfl | rfl := hi <;> rfl
  rw [hx, onStart_started i.1 n calStart c s h hop]

/-- A calibration that its start refuses ends, and the calibration is as before. -/
theorem calibration_refused (c : Cmd) (n reason : Nat) (s : State) (h : startedAs c s) (i : Instr)
    (hx : exec i s = .next (settle (calStart c (startOf n s))))
    (hf : calStart c (startOf n s) = finishCmd reason 0 (startOf n s)) :
    Completes i s (fun t => ended c reason 0 s t ∧ t.cal = s.cal ∧ besideConductor s t) := by
  rw [hf] at hx
  exact ⟨_, hx, finishCmd_untouched reason 0 n s _ c h (startOf_untouched n s)⟩

/-- What a calibration holds (R310, R311). -/
def calHeld (c : Cmd) (x : Cal) : Cal :=
  { x with
    holdMod := if c.op = 6 then BitVec.ofNat 5 (fld c.a0 4 5) else x.holdMod
    holdEv := if c.op = 7 then BitVec.ofNat 7 (fld c.a0 8 7) else x.holdEv }

/-- The hold of a calibration begins: it holds its modules or inputs, and goes on. -/
theorem beginHold_calibration (c : Cmd) (s : State) (hop : c.op = 5 ∨ c.op = 6 ∨ c.op = 7) :
    (beginHold c s).cond = { s.cond with running := some (c, .holding) } ∧ (beginHold c s).cal = calHeld c s.cal ∧
    (beginHold c s).mem = s.mem ∧ (beginHold c s).clk = s.clk ∧ (beginHold c s).pwr = s.pwr ∧ (beginHold c s).out = s.out ∧
    besideConductor s (beginHold c s) := by
  obtain h | h | h := hop <;>
    simp [beginHold, h, calHeld, setJob, besideConductor, holdInputs]

/-- A calibration that waits for its hold or holds goes on through what follows an event: the next page and the return to rest. -/
structure CalGoesOn (c : Cmd) (j : Job) (v t : State) : Prop where
  running : t.cond.running = some (c, j)
  cal : t.cal = v.cal
  mem : t.mem = v.mem
  clk : v.clk.state = .acq → t.clk = v.clk
  beside : besideConductor v t

theorem settle_calGoesOn (c : Cmd) (j : Job) (v : State) (hr : v.cond.running = some (c, j)) (hj : j = .waitHold ∨ j = .holding)
    (hop : c.op = 5 ∨ c.op = 6 ∨ c.op = 7) (hb : v.clk.bypass = false) (hw : v.pwr.warn = false) : CalGoesOn c j v (settle v) := by
  have h12 : c.op ≠ 0x12 := by omega
  have hs : j.steady v c = true := by obtain rfl | rfl := hj <;> simp [Job.steady, hb, h12]
  rw [settle_steady v c j hr hs hw]
  have hclk : v.clk.state = .acq → (rest (pump v)).clk = v.clk := fun ha => by
    rw [rest_unlocked_clk _ (by simp [ha])]
    simp
  exact ⟨by simpa using hr, by simp, by simp, hclk, by simp [besideConductor]⟩

/-! ## The start of a calibration -/

/-- The passing of time changes the HF counter alone of the clock. -/
theorem advance_clkState (n : Nat) (s : State) : (advance n s).clk.state = s.clk.state := by
  unfold advance
  split
  · simp [discExcites_frame, dueBy_frame, latchFrame_frame]
  · rfl

theorem startOf_acquires (n : Nat) (s : State) : hfRunning (startOf n s) = hfRunning s ∧ (acquires s → acquires (startOf n s)) :=
  ⟨by simp [hfRunning, startOf, advance_clkState], untouched_acquires n s _ (startOf_untouched n s)⟩

/-- The clock a calibration starts with runs, or begins its acquisition (R310). -/
theorem wakeHf_untouched (cause : AcqBy) (n : Nat) (s v : State) (h : Untouched n s v) (ha : hfRunning v = true ∨ acquires v) :
    Untouched n s (wakeHf cause v) := by
  have hw : wakeHf cause v = v ∨ wakeHf cause v = acqBegin cause v := by
    obtain hr | ha := ha
    · exact .inl (if_pos (by simp [hr]))
    · exact wakeHf_begins cause v ha
  obtain ⟨hc, hm, hcal, hdisc, hdue, hclk, hb⟩ := h
  obtain hw | hw := hw
  all_goals
    rw [hw]
    exact ⟨hc, hm, hcal, hdisc, hdue, hclk, hb⟩

theorem wakeHf_stopped (cause : AcqBy) (v : State) (hr : hfRunning v = false) (hb : v.clk.bypass = false) (ha : acquires v) :
    wakeHf cause v = acqBegin cause v := by
  rw [wakeHf, if_neg (by simp [hr, hb]), acquire_begins cause v ha]

/-- With no clock failure a clock is selected and HF is not on the bypass (R307). -/
theorem clockFault_none (s : State) (h : clockFault s = none) : clkSel s ≠ 0 ∧ s.clk.bypass = false := by
  unfold clockFault at h
  split at h
  · cases h
  · split at h
    · cases h
    · next h0 hb => exact ⟨h0, by simpa using hb⟩

/-- The state in which a calibration on a good clock waits for its hold or begins it: all but the calibration's own is as at the start,
and where HF was stopped its acquisition has begun (R310). -/
theorem clockWoken (n : Nat) (s : State) (hf : clockFault s = none)
    (ha : hfRunning s = true ∨ planValid (selRef s) (activePlan s) = true) :
    Untouched n s (wakeHf .job (startOf n s)) ∧
    (hfRunning s = false → (wakeHf .job (startOf n s)).clk.state = .acq ∧ (wakeHf .job (startOf n s)).clk.ref = selRef s) := by
  obtain ⟨h0, hb⟩ := clockFault_none s hf
  obtain ⟨hrun, hacq⟩ := startOf_acquires n s
  refine ⟨wakeHf_untouched .job n s _ (startOf_untouched n s) ?_, fun hr => ?_⟩
  · exact ha.imp (hrun.trans ·) (fun hp => hacq ⟨h0, hp⟩)
  · have hp := ha.resolve_left (by simp [hr])
    rw [wakeHf_stopped .job _ (hrun.trans hr) (by simpa [startOf] using hb) (hacq ⟨h0, hp⟩)]
    have hsrc : (startOf n s).clk.src = s.clk.src := by simp [startOf]
    refine ⟨rfl, (?_ : selRef (startOf n s) = selRef s)⟩
    rw [selRef, selRef, clkSel, clkSel, hsrc]

/-- So the calibration stands at its stage j behind what follows its start. -/
theorem calibration_goesOn (c : Cmd) (j : Job) (n : Nat) (s v : State) (h : startedAs c s) (hop : c.op = 5 ∨ c.op = 6 ∨ c.op = 7)
    (hf : clockFault s = none) (ha : hfRunning s = true ∨ planValid (selRef s) (activePlan s) = true) (hj : j = .waitHold ∨ j = .holding)
    (hr : v.cond.running = some (c, j)) (hm : v.mem = (wakeHf .job (startOf n s)).mem) (hclk : v.clk = (wakeHf .job (startOf n s)).clk)
    (hout : v.out = (wakeHf .job (startOf n s)).out) (hb : besideConductor (wakeHf .job (startOf n s)) v) :
    (settle v).cond.running = some (c, j) ∧ (settle v).cal = v.cal ∧
    (hfRunning s = false → (settle v).clk.state = .acq ∧ (settle v).clk.ref = selRef s) ∧ (settle v).mem = s.mem ∧
    besideConductor s (settle v) := by
  obtain ⟨hu, hacq⟩ := clockWoken n s hf ha
  obtain ⟨-, hbyp⟩ := clockFault_none s hf
  obtain ⟨-, -, hw, -⟩ := h
  have hpwr : v.pwr = s.pwr := hb.2.1.trans hu.beside.2.1
  have hg := settle_calGoesOn c j v hr hj hop (by rw [hclk, hu.clk.1, hbyp]) (by rw [hpwr, hw])
  refine ⟨hg.running, hg.cal, fun hs => ?_, by rw [hg.mem, hm, hu.mem], ?_⟩
  · obtain ⟨hstate, href⟩ := hacq hs
    rw [hg.clk (by rw [hclk, hstate]), hclk]
    exact ⟨hstate, href⟩
  · exact besideConductor_trans s v _ (besideConductor_trans s _ v hu.beside hb hu.due) hg.beside fun hd => by rw [hout, hu.due hd]

/-- Settles O40: the refusals by `calibration_refused`, a start on a good clock by `calibration_goesOn`, the hold at a frame boundary by
`beginHold_calibration`. -/
theorem calibrationStarts : Obligations.CalibrationStarts := by
  unfold Obligations.CalibrationStarts
  refine ⟨fun c s n h i hi hop => ?start, fun c s hr hframe hc hb hw hop => ?hold⟩
  case start =>
    have hx := exec_calibration c n s h i hi hop
    have hops : c.op = 5 ∨ c.op = 6 ∨ c.op = 7 := by
      simp only [List.mem_cons, List.not_mem_nil, or_false] at hi
      obtain rfl | rfl | rfl := hi <;> simp [hop]
    refine ⟨fun ha => ?args, fun r hf ha => ?clock, fun hf ha hrun => ⟨fun hs => ?modeS, fun hs => ?modeB⟩⟩
    case args => exact calibration_refused c n rArgs s h i.2 hx (if_pos ha)
    case clock => exact calibration_refused c n r s h i.2 hx (by simp [calStart, ha, startOf_clockFault, hf])
    case modeS =>
      have he : calStart c (startOf n s) = beginHold c (wakeHf .job (startOf n s)) := by
        simp [calStart, ha, startOf_clockFault, hf, hs]
      obtain ⟨hcond, hcal, hm, hclk, -, hout, hb⟩ := beginHold_calibration c (wakeHf .job (startOf n s)) hops
      obtain ⟨hrun', hcal', hacq, hm', hb'⟩ :=
        calibration_goesOn c .holding n s _ h hops hf hrun (.inr rfl) (by rw [hcond]) hm hclk hout hb
      obtain ⟨hu, -⟩ := clockWoken n s hf hrun
      obtain ⟨-, -, -, -, ⟨hmod, -, -, hev, -⟩, -⟩ := h
      rw [he] at hx
      refine ⟨_, hx, hrun', ?_, hacq, hm', hb'⟩
      rw [hcal', hcal, hu.cal, calHeld, hmod, hev]
    case modeB =>
      have he : calStart c (startOf n s) = setJob c .waitHold (wakeHf .job (startOf n s)) := by
        simp [calStart, ha, startOf_clockFault, hf, hs]
      obtain ⟨hrun', hcal', hacq, hm', hb'⟩ :=
        calibration_goesOn c .waitHold n s (setJob c .waitHold (wakeHf .job (startOf n s))) h hops hf hrun (.inl rfl) rfl rfl rfl rfl
          (by simp [besideConductor, setJob])
      obtain ⟨hu, -⟩ := clockWoken n s hf hrun
      rw [he] at hx
      exact ⟨_, hx, hrun', hcal'.trans hu.cal, hacq, hm', hb'⟩
  case hold =>
    obtain ⟨hcond, hcal, hm, hclk, hpwr, hout, hbeside⟩ := beginHold_calibration c (serve s) hop
    have hg := settle_calGoesOn c .holding (beginHold c (serve s)) (by rw [hcond]) (.inr rfl) hop (by rw [hclk]; exact hb)
      (by rw [hpwr]; exact hw)
    refine ⟨_, congrArg Host.Outcome.next (by simp [calHoldBegin, hr, hframe, hc]), hg.running, hg.cal.trans hcal, hg.mem.trans hm, ?_⟩
    exact besideConductor_trans (serve s) _ _ hbeside hg.beside fun hd => by rw [hout]; exact hd

end Sys2Proof.Machine
end

section
/-! SUPPORT. A CAL_EVT in mode S ends its hold beside a frame. -/

namespace Sys2Proof.Machine

/-- A CAL_EVT in mode S holds EV0 beside a frame (R307), whose LEDGER_ADD starts at the very qtick of the result, behind an EXC_OFF that has failed;
the rise of the held input waits with a LEDGER_LAP. -/
def riseAtResult : State := busyWith (cmdWith 7 0x101) .holding (riseHeld false (framed failedThenAdd (lockedAt 1000128)))

/-- The hold's end lets the rise register with the lap; its snapshot waits for the LEDGER_ADD of the qtick (R280), which starts after the record
of the EXC_OFF. -/
theorem riseAtResult_records : (calResultApply (.evt [] []) 0 riseAtResult).res.seq ≠ riseAtResult.res.seq := by decide +kernel

/-- Refutes O41: the clause on CAL_EVT has the result ring as before, also in mode S beside a frame, though what registers at the
hold's end brings the frame's carriages, and their records, up to its instant. -/
theorem not_calibrationResults : ¬ Obligations.CalibrationResults := by
  unfold Obligations.CalibrationResults
  intro h
  obtain ⟨-, -, hevt⟩ := h (cmdWith 7 0x101) riseAtResult 0 rfl (by decide) rfl rfl rfl (.inl (by decide)) (by decide) rfl (by decide)
  obtain ⟨t, ht, -, -, -, -, -, -, -, -, hbeside, -⟩ := hevt [] [] rfl _ rfl _ rfl
  have he := Host.Outcome.next.inj (show Host.Outcome.next (calResultApply (.evt [] []) 0 riseAtResult) = _ from ht)
  have hrecords := riseAtResult_records
  rw [he] at hrecords
  obtain ⟨-, -, -, -, -, hres, -⟩ := hbeside
  exact hrecords (congrArg Res.seq hres)

end Sys2Proof.Machine
end

section
/-! SUPPORT. An input takes its first sample in the qtick of a LEDGER_LAP. -/

namespace Sys2Proof.Machine

/-- On a locked clock the ledger is on and a LEDGER_LAP waits. EV1 is high and has just been enabled: its first sample falls at the qtick 1008
(R236, R238), where its entry for a rise is a log record (R241). -/
def firstSampleAtLap : State :=
  writeIncfg 0x02000000
    { lockedAt 1000 with
      pins := { Pins.reset with vbat := 1500, ev := 2 }
      ldg := { Ldg.reset with ctl := 1, wait := [({ lap := true, tag := 1 }, false)] }
      mem := [(0x7520, 0x08)] }

/-- The lap registers at that qtick, and with it the input's change, which writes its record (R243, R249). -/
theorem firstSampleAtLap_logs : (ledgerCommands true 1008 firstSampleAtLap).mem ≠ firstSampleAtLap.mem := by decide +kernel

/-- Refutes O45: the clause on a new snapshot has memory as before where no input confirms a change, but an input that waits for its first
sample confirms none, and writes a log record where that sample falls in the command's qtick and finds a difference. -/
theorem not_directCommands : ¬ Obligations.DirectCommands := by
  unfold Obligations.DirectCommands
  intro h
  obtain ⟨hdirect, -⟩ := h
  obtain ⟨-, hnew, -⟩ := hdirect firstSampleAtLap 1008 (by decide) (by decide) (by decide) (by decide)
  obtain ⟨t, ht, -, -, -, -, -, -, -, -, -, -, hmem⟩ := hnew { lap := true, tag := 1 } false rfl rfl rfl (by decide) rfl rfl (by decide)
    (by decide) rfl (true, .ledgerLap 1008) (by decide) rfl
  have he := Host.Outcome.next.inj (show Host.Outcome.next (ledgerCommands true 1008 firstSampleAtLap) = _ from ht)
  exact firstSampleAtLap_logs (he ▸ hmem)

end Sys2Proof.Machine
end

section
/-! SUPPORT. Carriages with the ledger off (R279). -/

namespace Sys2Proof.Machine

/-! ## Carriages with the ledger off -/

/-- With the ledger off a LEDGER_ADD adds nothing (R279). -/
theorem ledgerBy_off (i : Nat) (c : Carriage) (x : FmtRead) (s : State) (h : ldgEn s = false) : (ledgerBy i c x s).ldg = s.ldg := by
  unfold ledgerBy
  split <;> simp [h, placeFmt_frame]

theorem actDeliver_off (i : Nat) (f : Frame) (c : Carriage) (d : List Byte) (s : State) (h : ldgEn s = false) :
    (actDeliver i f c d s).ldg = s.ldg := by
  simp only [actDeliver]
  split
  · simp [failRun_frame]
  · simp only [deliverBy]
    split
    · simp [emitBy_frame]
    · split
      · simp [aoutBy_frame]
      · exact ledgerBy_off i c _ s h

theorem actOp_off (i op : Nat) (f : Frame) (c : Carriage) (d : List Byte) (s : State) (h : ldgEn s = false) :
    (actOp i op f c d s).ldg = s.ldg := by
  have hd := actDeliver_off i f c d s h
  simp only [actOp]
  repeat' split
  · simp [actExcite_frame]
  · simp [actExcOff_frame]
  · simp [takeStage_frame, actConvert_frame]
  · simp [actConvert_frame]
  · simp [actCorrect_frame]
  · simp [settleValue_frame]
  · exact hd
  · simp [placeRun_frame]

/-- A carriage that starts with the ledger off leaves it. -/
theorem startOp_off (i op : Nat) (s : State) (h : ldgEn s = false) : (startOp i op s).ldg = s.ldg := by
  have ht : (toStart i s).ldg = s.ldg := by simp [toStart_frame]
  have hact := fun f c d => actOp_off i op f c d (toStart i s) (by rw [ldgEn, ht]; exact h)
  simp only [startOp, startCarriage]
  repeat' split
  · rfl
  · exact ht
  · simpa [fetchNext_frame, dropPresettle_frame, failRun_frame] using ht
  · simp [fetchNext_frame, hact, ht]

theorem startDue_off (n i : Nat) (s : State) (h : ldgEn s = false) : (startDue n i s).ldg = s.ldg := by
  unfold startDue
  split
  · rfl
  · split
    · exact startOp_off i _ s h
    · rfl

/-- So do the LEDGER_ADDs of a qtick that start before its instant (R280). -/
theorem addsFirst_off (n : Nat) (s : State) (h : ldgEn s = false) : (addsFirst n s).ldg = s.ldg := by
  have hall : ∀ (l : List Nat) (u : State), ldgEn u = false → (forAll l (startDue n) u).ldg = u.ldg := by
    intro l
    induction l with
    | nil => exact fun _ _ => rfl
    | cons i r ih =>
      intro u hu
      have hi := startDue_off n i u hu
      exact (ih (startDue n i u) (by rw [ldgEn, hi]; exact hu)).trans hi
  unfold addsFirst
  split
  · rfl
  · split
    · exact hall _ s h
    · rfl

end Sys2Proof.Machine
end

section
/-! SUPPORT. What registers with the ledger off (R280). -/

namespace Sys2Proof.Machine

/-! ## What registers with the ledger off -/

/-- Of the ledger its registers, its sums, its sequence number, and what it still has to record are as before. -/
structure LedgerKept (s t : State) : Prop where
  ctl : t.ldg.ctl = s.ldg.ctl
  run : t.ldg.run = s.ldg.run
  cnt : t.ldg.cnt = s.ldg.cnt
  seq : t.ldg.seq = s.ldg.seq
  offPend : t.ldg.offPend = s.ldg.offPend
  recovers : t.ldg.recovers = s.ldg.recovers
  jobs : t.ldg.job = s.ldg.job ∧ t.ldg.jobs = s.ldg.jobs

theorem LedgerKept.of_eq {s t : State} (h : t.ldg = s.ldg) : LedgerKept s t := by
  constructor <;> simp [h]

theorem LedgerKept.trans {s t u : State} (h : LedgerKept s t) (k : LedgerKept t u) : LedgerKept s u where
  ctl := k.ctl.trans h.ctl
  run := k.run.trans h.run
  cnt := k.cnt.trans h.cnt
  seq := k.seq.trans h.seq
  offPend := k.offPend.trans h.offPend
  recovers := k.recovers.trans h.recovers
  jobs := ⟨k.jobs.1.trans h.jobs.1, k.jobs.2.trans h.jobs.2⟩

theorem LedgerKept.off {s t : State} (h : LedgerKept s t) (hs : ldgEn s = false) : ldgEn t = false := by
  rw [ldgEn, h.ctl]
  exact hs

theorem LedgerKept.forAll {α : Type} (l : List α) (f : α → State → State) (hf : ∀ a t, LedgerKept t (f a t)) (s : State) :
    LedgerKept s (forAll l f s) := by
  induction l generalizing s with
  | nil => exact .of_eq rfl
  | cons a r ih => exact (hf a s).trans (ih (f a s))

/-- A grid that moves takes the present instant along, and nothing else of the ledger (R202, R280). -/
theorem alignTo_kept (m : Moment) (code : Nat) (s : State) : LedgerKept s (alignTo m code s) := by
  unfold alignTo
  split
  · exact .of_eq rfl
  · exact ⟨rfl, rfl, rfl, rfl, rfl, rfl, rfl, rfl⟩

theorem awaitFrame_kept (g : Trig) (gs : List Trig) (m : Moment) (s : State) : LedgerKept s (awaitFrame g gs m s) := by
  have hw : ∀ x : Option Await, LedgerKept s (wakeMain { s with tt := { s.tt with await := x } }) := fun x => .of_eq (by simp [wakeMain])
  simp only [awaitFrame]
  split
  · exact (hw _).trans (alignTo_kept m _ _)
  · split
    · exact hw _
    · exact .of_eq (by simp [fetchFirst_frame, wakeHf_frame, wakeMain])

theorem joinAwait_kept (g : Trig) (gs : List Trig) (m : Moment) (a : Await) (s : State) : LedgerKept s (joinAwait g gs m a s) := by
  simp only [joinAwait]
  split
  · refine LedgerKept.trans ?_ (alignTo_kept m _ _)
    exact .of_eq rfl
  · exact .of_eq rfl

theorem raise_kept (n : Nat) (s : State) : LedgerKept s (raise n s) := .of_eq (by simp)

theorem raiseIf_kept (c : Bool) (n : Nat) (s : State) : LedgerKept s (raiseIf c n s) := .of_eq (by simp)

theorem deliver_kept (gs : List Trig) (m : Moment) (s : State) : LedgerKept s (deliver gs m s) := by
  have hl : ∀ (n : Nat), LedgerKept s (Machine.forAll gs (lateTrigger n 0 {}) s) := fun n =>
    LedgerKept.forAll gs _ (fun g t => .of_eq (by simp [lateTrigger_frame])) s
  simp only [deliver]
  split
  · exact .of_eq rfl
  · split
    · exact .of_eq rfl
    · exact hl 1
    · exact hl 0
    · exact (awaitFrame_kept _ _ _ _).trans (raiseIf_kept _ _ _)
    · refine LedgerKept.trans ?_ (raiseIf_kept _ _ _)
      exact .of_eq rfl
    · split
      · exact (joinAwait_kept _ _ _ _ s).trans (raise_kept _ _)
      · exact .of_eq rfl
    · split
      · exact .of_eq (by simp [joinQueued_frame])
      · exact .of_eq rfl

theorem register_kept (m : Moment) (os : List Occ) (s : State) : LedgerKept s (register m os s) := by
  simp only [register]
  refine LedgerKept.trans ?_ (deliver_kept _ _ _)
  refine LedgerKept.trans (.of_eq ?_) (LedgerKept.forAll _ _ (fun o t => .of_eq ?_) _)
  · simp [openRecs_frame, amendGroup_frame]
  · simp [logOcc_frame, noteOcc_frame, moveMarks_frame]

theorem inputsAt_kept (q : Option Nat) (steps : List Step) (s : State) : LedgerKept s (inputsAt q steps s).2.2 :=
  .of_eq (by simp [inputsAt_frame])

theorem lapRefused_kept (s : State) : LedgerKept s (lapRefused s) := by
  constructor <;> simp [lapRefused]

/-- With the ledger off a lap that is asked for is refused (R281). -/
theorem lapReq_off (n : Nat) (s : State) (h : ldgEn s = false) :
    (lapReq n LdgReq.none s).1 = LdgReq.none ∧ LedgerKept s (lapReq n LdgReq.none s).2 := by
  have hl : lapAllowed s = false := by simp [lapAllowed, h]
  unfold lapReq
  rw [hl]
  split
  · exact ⟨rfl, .of_eq rfl⟩
  · exact ⟨rfl, LedgerKept.forAll _ _ (fun _ t => lapRefused_kept t) s⟩

/-- The request of an occasion with the ledger off: the CHECKPOINT that is owed at most (R288). -/
def owedReq (owed : Bool) : LdgReq := { LdgReq.none with ckpt := owed }

/-- The commands that wait with the ledger off are refused, and the CHECKPOINT that is owed is asked for, unless the ledger is busy. -/
theorem ldgTakeCmds_off (s : State) (h : ldgEn s = false) :
    (ldgTakeCmds LdgReq.none s).1 = owedReq (s.ldg.offPend && !ldgBusy s) ∧ LedgerKept s (ldgTakeCmds LdgReq.none s).2 := by
  unfold ldgTakeCmds
  split
  · next hb => exact ⟨by simp [hb, owedReq, LdgReq.none], .of_eq rfl⟩
  · next hb =>
    refine ⟨by simp [hb, h, owedReq, LdgReq.none], ?_⟩
    simp only [h]
    have hw : LedgerKept s { s with ldg := { s.ldg with wait := [], laps := 0 } } := ⟨rfl, rfl, rfl, rfl, rfl, rfl, rfl, rfl⟩
    refine hw.trans (LedgerKept.trans (LedgerKept.forAll s.ldg.wait (fun c => ldgCmdDone rState 0 c.1) ?_ _) (LedgerKept.forAll _ _ (fun _ t => lapRefused_kept t) _))
    exact fun c t => .of_eq (by simp [ldgCmdDone])

end Sys2Proof.Machine
end

section
/-! SUPPORT. The CHECKPOINT that is owed with the ledger off (R288). -/

namespace Sys2Proof.Machine

/-! ## The CHECKPOINT that is owed -/

/-- The sums are as before. -/
structure SumsKept (s t : State) : Prop where
  ctl : t.ldg.ctl = s.ldg.ctl
  run : t.ldg.run = s.ldg.run
  cnt : t.ldg.cnt = s.ldg.cnt

theorem LedgerKept.sums {s t : State} (h : LedgerKept s t) : SumsKept s t := ⟨h.ctl, h.run, h.cnt⟩

theorem SumsKept.trans {s t u : State} (h : SumsKept s t) (k : SumsKept t u) : SumsKept s u :=
  ⟨k.ctl.trans h.ctl, k.run.trans h.run, k.cnt.trans h.cnt⟩

/-- Its instant keeps the sums, whatever it joins (R280, R288). -/
theorem owedInstant_sums (q : Option Nat) (b : Bool) (stamp : Stamp) (s : State) : SumsKept s (ldgInstant q (owedReq b) stamp s) := by
  have hq : ∀ (j : LdgJob) (l : Ldg) (c : Bool),
      (ldgQueue j false l c).ctl = l.ctl ∧ (ldgQueue j false l c).run = l.run ∧ (ldgQueue j false l c).cnt = l.cnt := by
    intro j l c
    unfold ldgQueue
    split <;> simp
  have hn : SumsKept s (ldgNew q (owedReq b) stamp s) := by
    constructor <;> simp [ldgNew, owedReq, LdgReq.none, wakeMain, hq]
  have hj : ∀ x, SumsKept s (ldgJoin x (owedReq b) s) := fun x => by
    constructor <;> simp [ldgJoin, owedReq, LdgReq.none, wakeMain, ldgRewrite, apply_ite]
  unfold ldgInstant
  split
  · exact ⟨rfl, rfl, rfl⟩
  · split
    · split
      · exact hj _
      · exact hn
    · exact hn

/-- Where no record is in hand or waits it is a new one: a CHECKPOINT of the sums. -/
theorem owedInstant_new (q : Option Nat) (stamp : Stamp) (s : State) (hj : s.ldg.job = none) (hjs : s.ldg.jobs = []) :
    (ldgInstant q (owedReq true) stamp s).ldg.offPend = false ∧ (ldgInstant q (owedReq true) stamp s).ldg.seq = s.ldg.seq + 1 ∧
    ∃ j, (ldgInstant q (owedReq true) stamp s).ldg.job = some j ∧ j.pages = 0 ∧ j.snap.kind = 1 ∧ j.snap.run = s.ldg.run ∧
      j.snap.cnt = s.ldg.cnt := by
  have ho : ∀ x, instOpen x s = false := fun x => by simp [instOpen, hj, hjs]
  have he : ldgInstant q (owedReq true) stamp s = ldgNew q (owedReq true) stamp s := by
    unfold ldgInstant
    simp only [owedReq, LdgReq.any, LdgReq.none]
    cases s.ldg.inst <;> simp [ho]
  rw [he]
  simp [ldgNew, owedReq, LdgReq.none, LdgReq.kind, wakeMain, ldgQueue, hj]

/-- Whether the ledger is busy with it off. -/
theorem ldgBusy_off {s t : State} (h : ldgEn s = false) (hk : LedgerKept s t) (hm : t.sys.measRst = s.sys.measRst) : ldgBusy t = ldgBusy s := by
  simp [ldgBusy, h, hk.off h, hm, hk.recovers]

/-- The instant of an owed CHECKPOINT at a moment, behind the LEDGER_ADDs of its qtick, which add nothing. -/
theorem instantAt_off (m : Moment) (b : Bool) (stamp : Stamp) (s : State) (h : ldgEn s = false) :
    ∃ u, instantAt m (owedReq b) stamp s = ldgInstant m.qtick (owedReq b) stamp u ∧ LedgerKept s u := by
  refine ⟨_, rfl, ?_⟩
  split
  · cases (owedReq b).any
    · exact .of_eq rfl
    · exact .of_eq (addsFirst_off _ s h)
  · exact .of_eq rfl

/-- What the instant of a moment with the ledger off is (R280, R288): behind what registers beside it, which leaves the ledger, the CHECKPOINT
that is owed, where there is one and the ledger is not busy. -/
theorem registerAt_off (m : Moment) (s : State) (h : ldgEn s = false) :
    ∃ (q : Option Nat) (stamp : Stamp) (u : State),
      registerAt m [] [] s = ldgInstant q (owedReq (m.qtick.isSome && s.ldg.offPend && !ldgBusy s)) stamp u ∧ LedgerKept s u := by
  have hkept : LedgerKept s (register m ((inputsAt m.qtick [] s).1 ++ []) (inputsAt m.qtick [] s).2.2) :=
    (inputsAt_kept m.qtick [] s).trans (register_kept m _ _)
  have hoff := hkept.off h
  have hrst : (register m ((inputsAt m.qtick [] s).1 ++ []) (inputsAt m.qtick [] s).2.2).sys.measRst = s.sys.measRst := by
    simp [register_inner, inputsAt_frame]
  simp only [registerAt]
  generalize register m ((inputsAt m.qtick [] s).1 ++ []) (inputsAt m.qtick [] s).2.2 = v at *
  obtain ⟨hreq, hlap⟩ := lapReq_off (inputsAt m.qtick [] s).2.1 v hoff
  have hrst' : (lapReq (inputsAt m.qtick [] s).2.1 LdgReq.none v).2.sys.measRst = s.sys.measRst := by simpa [lapReq_frame] using hrst
  rw [hreq]
  generalize (lapReq (inputsAt m.qtick [] s).2.1 LdgReq.none v).2 = w at *
  have hw := hkept.trans hlap
  obtain ⟨htake, htook⟩ := ldgTakeCmds_off w (hw.off h)
  have hbusy := ldgBusy_off h hw hrst'
  unfold takeCmdsAt
  cases hq : m.qtick with
  | none =>
    obtain ⟨u, he, hu⟩ := instantAt_off (m.onGrid w) false (m.onGrid w).stamp w (hw.off h)
    exact ⟨_, _, u, he, hw.trans hu⟩
  | some q =>
    have ht := hw.trans htook
    obtain ⟨u, he, hu⟩ := instantAt_off (m.onGrid (ldgTakeCmds LdgReq.none w).2) (w.ldg.offPend && !ldgBusy w)
      (m.onGrid (ldgTakeCmds LdgReq.none w).2).stamp
      (ldgTakeCmds LdgReq.none w).2 (ht.off h)
    rw [hw.offPend, hbusy] at he htake
    simp only [Option.isSome_some, if_true, Bool.true_and, htake]
    exact ⟨_, _, u, he, ht.trans hu⟩

/-- It keeps the sums. -/
theorem registerAt_sums (m : Moment) (s : State) (h : ldgEn s = false) : SumsKept s (registerAt m [] [] s) := by
  obtain ⟨q, stamp, u, he, hu⟩ := registerAt_off m s h
  rw [he]
  exact hu.sums.trans (owedInstant_sums q _ stamp u)

/-- On a locked clock, with no record in hand or waiting, the CHECKPOINT that is owed is taken (R288). -/
theorem registerAt_owed (m : Moment) (s : State) (h : ldgEn s = false) (hq : m.qtick.isSome = true) (ho : s.ldg.offPend = true)
    (hb : ldgBusy s = false) (hj : s.ldg.job = none) (hjs : s.ldg.jobs = []) :
    (registerAt m [] [] s).ldg.offPend = false ∧ (registerAt m [] [] s).ldg.seq = s.ldg.seq + 1 ∧
    ∃ j, (registerAt m [] [] s).ldg.job = some j ∧ j.pages = 0 ∧ j.snap.kind = 1 ∧ j.snap.run = s.ldg.run ∧ j.snap.cnt = s.ldg.cnt := by
  obtain ⟨q, stamp, u, he, hu⟩ := registerAt_off m s h
  rw [he, hq, ho, hb, ← hu.seq, ← hu.run, ← hu.cnt]
  exact owedInstant_new q stamp u (hu.jobs.1.trans hj) (hu.jobs.2.trans hjs)

end Sys2Proof.Machine
end

section
/-! SUPPORT. The ledger behind what follows a committed write. -/

namespace Sys2Proof.Machine

/-! ## What follows the write of LDG_CTL -/

/-- The next page leaves the ledger, but for the counts a record in hand takes at its second page (R282). -/
theorem pump_ldg (s : State) : (pump s).ldg = (lateCounts s).ldg ∨ (pump s).ldg = s.ldg := by
  unfold pump
  split
  · exact .inr rfl
  split
  · exact .inr rfl
  split
  · exact .inl rfl
  cases s.nv.todo with
  | cons _ _ => exact .inr rfl
  | nil => cases s.ldg.job.isSome <;> simp [ldgPage]

theorem pump_ledger (s : State) : (pump s).ldg.seq = s.ldg.seq ∧ (pump s).ldg.offPend = s.ldg.offPend ∧
    (pump s).ldg.recovers = s.ldg.recovers := by
  have hl : (lateCounts s).ldg.seq = s.ldg.seq ∧ (lateCounts s).ldg.offPend = s.ldg.offPend ∧
      (lateCounts s).ldg.recovers = s.ldg.recovers := by
    unfold lateCounts
    split
    · split <;> exact ⟨rfl, rfl, rfl⟩
    · exact ⟨rfl, rfl, rfl⟩
  obtain h | h := pump_ldg s <;> rw [h]
  · exact hl
  · exact ⟨rfl, rfl, rfl⟩

/-- With the first page of a record still to write it leaves the ledger. -/
theorem pump_firstPage (s : State) (h : ∀ j, s.ldg.job = some j → j.pages = 0) : (pump s).ldg = s.ldg := by
  have hl : (lateCounts s).ldg = s.ldg := by
    unfold lateCounts
    cases hj : s.ldg.job with
    | none => rfl
    | some j => simp [h j hj]
  obtain e | e := pump_ldg s
  · exact e.trans hl
  · exact e

theorem settle_ledger (s : State) (hr : s.cond.running = none) (hw : s.pwr.warn = false) :
    SumsKept s (settle s) ∧ (settle s).ldg.seq = s.ldg.seq ∧ (settle s).ldg.offPend = s.ldg.offPend ∧
    (settle s).ldg.recovers = s.ldg.recovers ∧ ((∀ j, s.ldg.job = some j → j.pages = 0) → (settle s).ldg = s.ldg) := by
  obtain e | e := settle_noCommand s hr hw
  all_goals
    rw [e]
    refine ⟨⟨by simp, by simp, by simp⟩, ?_⟩
    simp only [rest_frame]
  · obtain ⟨h1, h2, h3⟩ := pump_ledger s
    exact ⟨h1, h2, h3, pump_firstPage s⟩
  · obtain ⟨h1, h2, h3⟩ := pump_ledger (flushSwitches s)
    have h4 := pump_firstPage (flushSwitches s)
    simp only [flushSwitches_frame] at h1 h2 h3 h4
    exact ⟨h1, h2, h3, h4⟩

end Sys2Proof.Machine
end

section
/-! SUPPORT. A committed write of LDG_CTL. -/

namespace Sys2Proof.Machine

theorem commitEnd_ldgCtl (w : Word) (s : State) : commitEnd [(51, w)] s = settle (ledgerOff s) := by
  simp [commitEnd, clockEnd, armChecks, wrote, lastWord]

/-- A write of LDG_CTL in its transaction, to the end of its commit sequence. -/
def ldgCtlWritten (w : Word) (s : State) : State := ledgerOff (writeLdgCtl w (openTxn s))

/-- What the write leaves beside the ledger. -/
theorem ldgCtlWritten_beside (w : Word) (s : State) :
    (ldgCtlWritten w s).pins = s.pins ∧ (ldgCtlWritten w s).pwr = s.pwr ∧ (ldgCtlWritten w s).rtc = s.rtc ∧
    (ldgCtlWritten w s).alm = s.alm ∧ (ldgCtlWritten w s).hif = (openTxn s).hif ∧ (ldgCtlWritten w s).cond.running = s.cond.running ∧
    (ldgCtlWritten w s).nv.pages = s.nv.pages := by
  simp [ldgCtlWritten, writeLdgCtl_frame, writeLdgCtl_inner, ledgerOff_frame, ledgerOff_inner]

/-- What the host finds behind a committed write of LDG_CTL: what follows it, its transaction closed. -/
structure LdgCtlHost (w : Word) (z s t : State) : Prop where
  ledger : t.ldg = (settle (ldgCtlWritten w s)).ldg
  recovered : ldgOn t = ldgOn (settle (ldgCtlWritten w s))
  beside : t.pins = s.pins ∧ t.pwr = s.pwr ∧ t.rtc = s.rtc ∧ t.alm = s.alm ∧ t.hif = s.hif ∧ t.nv.pages = s.nv.pages

theorem hostWord_ldgCtl (w : Word) (z s : State) (h : HostReady z) (hn : nothingRuns z) (e : s = moved 51 z) :
    LdgCtlHost w z s (hostWord 51 w z) := by
  obtain ⟨hrun, -, hwarn⟩ : nothingRuns s := e ▸ hn
  obtain ⟨htxn, hheader⟩ : noTxn s := e ▸ noTxn_moved 51 z h
  obtain ⟨hpins, hpwr, hrtc, halm, hhif, hr, hpages⟩ := ldgCtlWritten_beside w s
  have hx : hostWord 51 w z = closeTxn (settle (ldgCtlWritten w s)) := by
    rw [hostWord_ready 51 w z h, ← e, commitEnd_ldgCtl]
    rfl
  obtain ⟨hpwr', hhif'⟩ : (settle (ldgCtlWritten w s)).pwr = s.pwr ∧ (settle (ldgCtlWritten w s)).hif = (openTxn s).hif := by
    obtain e' | e' := settle_noCommand (ldgCtlWritten w s) (hr.trans hrun) (by rw [hpwr, hwarn]) <;> simp [e', hpwr, hhif]
  have hpages' : (settle (ldgCtlWritten w s)).nv.pages = s.nv.pages := by simp [hpages]
  obtain ⟨hpins', hrtc', halm', -⟩ := settle_frame (ldgCtlWritten w s)
  rw [hx]
  generalize ht : settle (ldgCtlWritten w s) = t at *
  have hclose : closeTxn t = betweenTxns t := closeTxn_fresh t (Txn.new s) (by rw [hhif']; rfl) rfl rfl rfl rfl rfl
  have hport : (betweenTxns t).hif = s.hif := by
    rw [betweenTxns, hhif']
    exact hif_no_txn s.hif htxn hheader
  rw [hclose]
  exact ⟨by rw [ht]; rfl, by rw [ht]; rfl, hpins'.trans hpins, hpwr', hrtc'.trans hrtc, halm'.trans halm, hport, hpages'⟩

end Sys2Proof.Machine
end

section
/-! SUPPORT. The ledger switched on and off in its write (R287, R288). -/

namespace Sys2Proof.Machine

/-- LDG_CTL.en as the two writes take it (Table 15.4). -/
theorem ldgEn_written (c : Word) : bitOf ((c ||| 1) &&& 0x00FFFFF1) 0 = true ∧ bitOf ((c &&& 0x00FFFFF0) &&& 0x00FFFFF1) 0 = false ∧
    (c &&& 0x00FFFFF0) &&& 0x00FFFFF1 = c &&& 0x00FFFFF0 := by
  refine ⟨by simp [bitOf], by simp [bitOf], ?_⟩
  rw [BitVec.and_assoc]
  rfl

/-- LDG_CTL takes a word: its fields, a new interval where the interval moves, and a CHECKPOINT owed where the ledger goes off (R288). -/
def ctlTaken (w : Word) (s : State) : State :=
  let moved := decide (fld (w &&& 0x00FFFFF1) 4 12 ≠ fld s.ldg.ctl 4 12)
  { s with ldg := { s.ldg with
      ctl := w &&& 0x00FFFFF1, short := s.ldg.short || moved, ivlStart := if moved then s.rtc.sec else s.ldg.ivlStart
      offPend := s.ldg.offPend || (ldgEn s && !bitOf (w &&& 0x00FFFFF1) 0 && ldgStarted s) } }

theorem writeLdgCtl_off (w : Word) (s : State) (hb : bitOf (w &&& 0x00FFFFF1) 0 = false) : writeLdgCtl w s = ctlTaken w s := by
  have hn : ¬ (bitOf (w &&& 0x00FFFFF1) 0 && !ldgEn s && !s.sys.measRst) = true := by rw [hb]; simp
  unfold writeLdgCtl
  exact if_neg hn

/-- With nothing owed a write that switches the ledger on recovers it (R287). -/
theorem writeLdgCtl_on (w : Word) (s : State) (hb : bitOf (w &&& 0x00FFFFF1) 0 = true) (he : ldgEn s = false)
    (hm : s.sys.measRst = false) (ho : s.ldg.offPend = false) : writeLdgCtl w s = wakeMain (recoverBy 2 (ctlTaken w s)) := by
  have hn : ldgOwed (ctlTaken w s) = ctlTaken w s := if_neg (by simp [ctlTaken, ho, he])
  have hi : (if (ctlTaken w s).ldg.recovers.isSome then ctlTaken w s else ldgOwed (ctlTaken w s)) = ctlTaken w s := by rw [hn, ite_self]
  have hx : writeLdgCtl w s =
      wakeMain (recoverBy 2 (if (ctlTaken w s).ldg.recovers.isSome then ctlTaken w s else ldgOwed (ctlTaken w s))) := by
    have hp : (bitOf (w &&& 0x00FFFFF1) 0 && !ldgEn s && !s.sys.measRst) = true := by rw [hb, he, hm]; rfl
    unfold writeLdgCtl
    exact if_pos hp
  rw [hx, hi]

/-- The records of the array are what the array holds (R286). -/
theorem records_of_nv {s t : State} (h : t.nv = s.nv) : records t = records s := congrArg (fun v => records { s with nv := v }) h

/-- What a recovery takes from the array (R287), and what it leaves of the ledger. -/
theorem recover_ledger (s t : State) (h : t.nv = s.nv) :
    (recover t).ldg.run = (recover s).ldg.run ∧ (recover t).ldg.cnt = (recover s).ldg.cnt ∧ (recover t).ldg.seq = (recover s).ldg.seq ∧
    (recover t).ldg.ctl = t.ldg.ctl ∧ (recover t).ldg.offPend = t.ldg.offPend ∧ (recover t).ldg.job = t.ldg.job := by
  unfold recover
  rw [records_of_nv h]
  cases newestOf (records s) <;> simp [apply_ite]

/-- A recovery with no record in hand or waiting: the sums of the array, and a RESUME record of its cause (R287). -/
theorem recoverBy_now (cause : Nat) (s t : State) (h : t.nv = s.nv) (he : ldgEn t = true) (ho : t.ldg.offPend = false)
    (hj : t.ldg.job = none) (hjs : t.ldg.jobs = []) :
    (recoverBy cause t).ldg.ctl = t.ldg.ctl ∧ (recoverBy cause t).ldg.run = (recover s).ldg.run ∧
    (recoverBy cause t).ldg.cnt = (recover s).ldg.cnt ∧ (recoverBy cause t).ldg.offPend = false ∧
    ∃ j, (recoverBy cause t).ldg.job = some j ∧ j.pages = 0 ∧ j.snap.kind = 5 ∧ j.snap.cause = cause ∧
      j.snap.seq = (recover s).ldg.seq := by
  obtain ⟨hrun, hcnt, hseq, hctl, hoff, hjob⟩ := recover_ledger s { t with ldg := { t.ldg with recovers := none } } h
  have hx : recoverBy cause t = resume cause (recover { t with ldg := { t.ldg with recovers := none } }) := by
    have hn : ldgOwed (recover { t with ldg := { t.ldg with recovers := none } }) = recover { t with ldg := { t.ldg with recovers := none } } :=
      if_neg (by rw [hoff, ho]; simp)
    rw [recoverBy, if_pos (by simp [recordsDone, hj, hjs]), hn]
  have he' : ldgEn (recover { t with ldg := { t.ldg with recovers := none } }) = true := by
    rw [ldgEn, hctl]
    exact he
  rw [hx]
  generalize recover { t with ldg := { t.ldg with recovers := none } } = x at *
  have hq : x.ldg.job = none := hjob.trans hj
  simp [resume, he', ldgQueue, hq, hctl, hrun, hcnt, hseq, hoff, ho]

end Sys2Proof.Machine
end

section
/-! SUPPORT. The ledger switched on and off (R280, R287, R288): O30. -/

namespace Sys2Proof.Machine

/-- The ledger a write of LDG_CTL in its transaction finds, and what bears on it, at whatever time. -/
structure LedgerAt (s x : State) : Prop where
  ldg : x.ldg = s.ldg
  nv : x.nv = s.nv
  sys : x.sys = s.sys
  fine : fineClock x = fineClock s

theorem ledgerAt_moved (n : Nat) (z : State) : LedgerAt (moved 51 z) (openTxn (moved 51 (advance n z))) := by
  refine ⟨?_, ?_, ?_, ?_⟩
  · simp [moved, busMoved, openTxn]
  · simp [moved, busMoved, openTxn]
  · simp [moved, busMoved, openTxn]
  · simp [fineClock, hfLocked, moved, busMoved, openTxn, advance_clkState]

/-- A write of LDG_CTL at a later time, as the host finds it. -/
theorem exec_ldgCtl (w : Word) (n : Nat) (z s : State) (h : HostReady z) (e : s = moved 51 z) (hn : nothingRuns s) :
    LdgCtlHost w (advance n z) (moved 51 (advance n z)) (hostWord 51 w (advance n z)) ∧
    ((hostWord 51 w (advance n z)).pins = s.pins ∧ (hostWord 51 w (advance n z)).pwr = s.pwr ∧
      (hostWord 51 w (advance n z)).rtc = s.rtc ∧ (hostWord 51 w (advance n z)).alm = s.alm ∧
      (hostWord 51 w (advance n z)).hif = s.hif ∧ (hostWord 51 w (advance n z)).nv.pages = s.nv.pages) ∧
    (ldgCtlWritten w (moved 51 (advance n z))).cond.running = none ∧ (ldgCtlWritten w (moved 51 (advance n z))).pwr.warn = false := by
  subst e
  obtain ⟨hrun, hd, hwarn⟩ := hn
  have hz : nothingRuns (advance n z) := by
    have hr : z.cond.running = none ∧ z.cond.switchDone = [] ∧ z.pwr.warn = false := ⟨hrun, hd, hwarn⟩
    simpa [nothingRuns] using hr
  have hw := hostWord_ldgCtl w (advance n z) (moved 51 (advance n z)) (hostReady_advance n z h) hz rfl
  obtain ⟨-, hpwr, -, -, -, hr, -⟩ := ldgCtlWritten_beside w (moved 51 (advance n z))
  refine ⟨hw, ?_, hr.trans hz.1, by rw [hpwr]; exact hz.2.2⟩
  obtain ⟨-, -, h1, h2, h3, h4, h5, h6⟩ := hw
  rw [h1, h2, h3, h4, h5, h6]
  simp [moved, busMoved]

theorem ledgerOff_notOwed (s : State) (h : s.ldg.offPend = false) : ledgerOff s = s := if_neg (by simp [h])

theorem wakeMain_ldg (s : State) : (wakeMain s).ldg = s.ldg := by simp [wakeMain]

/-- The write that switches the ledger on, to the end of its commit sequence: the recovery (R287). -/
theorem ldgCtlWritten_on (s u : State) (hx : LedgerAt s (openTxn u)) (he : ldgEn s = false) (hm : s.sys.measRst = false)
    (ho : s.ldg.offPend = false) :
    ∃ t, ldgCtlWritten (s.ldg.ctl ||| 1) u = ledgerOff (wakeMain (recoverBy 2 t)) ∧ t.nv = s.nv ∧ t.sys = s.sys ∧
      t.ldg.ctl = (s.ldg.ctl ||| 1) &&& 0x00FFFFF1 ∧ ldgEn t = true ∧ t.ldg.offPend = false ∧ t.ldg.run = s.ldg.run ∧
      t.ldg.cnt = s.ldg.cnt ∧ t.ldg.seq = s.ldg.seq ∧ t.ldg.job = s.ldg.job ∧ t.ldg.jobs = s.ldg.jobs := by
  obtain ⟨hl, hnv, hsys, -⟩ := hx
  obtain ⟨hen, -, -⟩ := ldgEn_written s.ldg.ctl
  have he' : ldgEn (openTxn u) = false := by rw [ldgEn, hl]; exact he
  refine ⟨ctlTaken (s.ldg.ctl ||| 1) (openTxn u), ?_, hnv, hsys, rfl, hen, ?_, ?_, ?_, ?_, ?_, ?_⟩
  · rw [ldgCtlWritten, writeLdgCtl_on _ _ hen he' (by rw [hsys, hm]) (by rw [hl, ho])]
  · simp only [ctlTaken, hl, ho, he', Bool.false_and, Bool.or_false]
  all_goals simp only [ctlTaken, hl]

theorem ledgerOff_sums (s : State) (h : ldgEn s = false) : SumsKept s (ledgerOff s) := by
  unfold ledgerOff
  split
  · exact registerAt_sums _ s h
  · exact ⟨rfl, rfl, rfl⟩

/-- On a locked clock, with no record in hand or waiting, the CHECKPOINT that is owed is taken there. -/
theorem ledgerOff_taken (s : State) (h : ldgEn s = false) (ho : s.ldg.offPend = true) (hf : fineClock s = true)
    (hb : ldgBusy s = false) (hj : s.ldg.job = none) (hjs : s.ldg.jobs = []) :
    (ledgerOff s).ldg.offPend = false ∧ (ledgerOff s).ldg.seq = s.ldg.seq + 1 ∧
    ∃ j, (ledgerOff s).ldg.job = some j ∧ j.pages = 0 ∧ j.snap.kind = 1 ∧ j.snap.run = s.ldg.run ∧ j.snap.cnt = s.ldg.cnt := by
  rw [ledgerOff, if_pos (by rw [ho, hf]; rfl)]
  exact registerAt_owed _ s h (by simp [momentAt, hf]) ho hb hj hjs

/-- The ledger switched off, before what is owed is taken. -/
structure SwitchedOff (s t : State) : Prop where
  off : ldgEn t = false
  ctl : t.ldg.ctl = s.ldg.ctl &&& 0x00FFFFF0
  sums : t.ldg.run = s.ldg.run ∧ t.ldg.cnt = s.ldg.cnt
  seq : t.ldg.seq = s.ldg.seq
  owed : t.ldg.offPend = (s.ldg.offPend || (ldgEn s && ldgStarted s))
  jobs : t.ldg.job = s.ldg.job ∧ t.ldg.jobs = s.ldg.jobs
  fine : fineClock t = fineClock s
  busy : ldgOn s = true → ldgBusy t = false

/-- The write that switches the ledger off, to the end of its commit sequence (R288). -/
theorem ldgCtlWritten_off (s u : State) (hx : LedgerAt s (openTxn u)) :
    ∃ t, ldgCtlWritten (s.ldg.ctl &&& 0x00FFFFF0) u = ledgerOff t ∧ SwitchedOff s t := by
  obtain ⟨hl, -, hsys, hfine⟩ := hx
  obtain ⟨-, hen, hctl⟩ := ldgEn_written s.ldg.ctl
  have he : ldgEn (openTxn u) = ldgEn s := by rw [ldgEn, hl]; rfl
  have hs : ldgStarted (openTxn u) = ldgStarted s := by rw [ldgStarted, hsys]; rfl
  refine ⟨ctlTaken (s.ldg.ctl &&& 0x00FFFFF0) (openTxn u), by rw [ldgCtlWritten, writeLdgCtl_off _ _ hen], hen, hctl, ?_, ?_, ?_, ?_, hfine, ?_⟩
  · simp only [ctlTaken, hl, and_self]
  · simp only [ctlTaken, hl]
  · simp only [ctlTaken, hl, he, hs, hen, Bool.not_false, Bool.and_true]
  · simp only [ctlTaken, hl, and_self]
  · intro hon
    obtain ⟨⟨-, hm⟩, hr⟩ : ((ldgEn s = true ∧ ldgStarted s = true) ∧ s.sys.measRst = false) ∧ s.ldg.recovers = none := by
      simpa [ldgOn] using hon
    have hoff : ldgEn (ctlTaken (s.ldg.ctl &&& 0x00FFFFF0) (openTxn u)) = false := hen
    have hm' : (ctlTaken (s.ldg.ctl &&& 0x00FFFFF0) (openTxn u)).sys.measRst = false := by simp only [ctlTaken, hsys, hm]
    have hr' : (ctlTaken (s.ldg.ctl &&& 0x00FFFFF0) (openTxn u)).ldg.recovers = none := by simp only [ctlTaken, hl, hr]
    rw [ldgBusy, hoff, hm', hr']
    rfl

/-- Settles O30, from what a write of LDG_CTL leaves before its commit sequence ends and what `settle` then leaves of the ledger. -/
theorem ledgerSwitch : Obligations.LedgerSwitch := by
  unfold Obligations.LedgerSwitch
  intro z n h s e hn u hu
  have hat : LedgerAt s (openTxn (moved 51 (advance n z))) := e ▸ ledgerAt_moved n z
  have hctl : z.ldg.ctl = s.ldg.ctl := by rw [e]; rfl
  refine ⟨fun he hm hj hjs ho => ?now, fun he hm hd ho => ?later, ?off⟩
  case now =>
    obtain ⟨hw, hbeside, hrun, hwarn⟩ := exec_ldgCtl (s.ldg.ctl ||| 1) n z s h e hn
    obtain ⟨t, ht, hnv, -, hc, hen, ho', -, -, -, hj', hjs'⟩ := ldgCtlWritten_on s _ hat he hm ho
    obtain ⟨r1, r2, r3, r4, j, r5, r6, r7, r8, r9⟩ := recoverBy_now 2 s t hnv hen ho' (hj'.trans hj) (hjs'.trans hjs)
    have hl : (ldgCtlWritten (s.ldg.ctl ||| 1) (moved 51 (advance n z))).ldg = (recoverBy 2 t).ldg := by
      rw [ht, ledgerOff_notOwed _ (by rw [wakeMain_ldg, r4]), wakeMain_ldg]
    obtain ⟨-, -, -, -, hs⟩ := settle_ledger _ hrun hwarn
    have hall := hs fun k hk => by
      rw [hl, r5] at hk
      obtain rfl := Option.some.inj hk
      exact r6
    have hfin := hw.ledger.trans (hall.trans hl)
    refine ⟨hostWord 51 (s.ldg.ctl ||| 1) (advance n z), by rw [← hctl]; rfl, ?_⟩
    beta_reduce
    rw [hfin]
    exact ⟨r1.trans hc, r2, r3, ⟨j, r5, r7, r8, r9⟩, hbeside⟩
  case later =>
    obtain ⟨hw, hbeside, hrun, hwarn⟩ := exec_ldgCtl (s.ldg.ctl ||| 1) n z s h e hn
    obtain ⟨t, ht, hnv, -, hc, hen, ho', hr, hcnt, hsq, hj', hjs'⟩ := ldgCtlWritten_on s _ hat he hm ho
    have hd' : recordsDone t = false := by simpa [recordsDone, hj', hjs'] using hd
    have hrec : recoverBy 2 t = { t with ldg := { t.ldg with recovers := some 2 } } := if_neg (by simp [hd'])
    have hl : (ldgCtlWritten (s.ldg.ctl ||| 1) (moved 51 (advance n z))).ldg = { t.ldg with recovers := some 2 } := by
      rw [ht, hrec, ledgerOff_notOwed _ (by rw [wakeMain_ldg]; exact ho'), wakeMain_ldg]
    obtain ⟨⟨s1, s2, s3⟩, s4, -, s6, -⟩ := settle_ledger _ hrun hwarn
    rw [hl] at s1 s2 s3 s4 s6
    refine ⟨hostWord 51 (s.ldg.ctl ||| 1) (advance n z), by rw [← hctl]; rfl, ?_⟩
    beta_reduce
    rw [hw.recovered, hw.ledger]
    have hon : (settle (ldgCtlWritten (s.ldg.ctl ||| 1) (moved 51 (advance n z)))).ldg.recovers = some 2 := s6
    obtain ⟨-, -, -, -, -, hpages⟩ := hbeside
    exact ⟨s1.trans hc, s6, s2.trans hr, s3.trans hcnt, s4.trans hsq, by rw [ldgOn, hon]; exact Bool.and_false _, hpages⟩
  case off =>
    obtain ⟨hw, hbeside, hrun, hwarn⟩ := exec_ldgCtl (s.ldg.ctl &&& 0x00FFFFF0) n z s h e hn
    obtain ⟨t, ht, hoff, hc, ⟨hr, hcnt⟩, hsq, howed, ⟨hj, hjs⟩, hfine, hbusy⟩ := ldgCtlWritten_off s _ hat
    have hsums := ledgerOff_sums t hoff
    have hset := settle_ledger _ hrun hwarn
    rw [ht] at hset
    obtain ⟨⟨s1, s2, s3⟩, s4, s5, -, hfirst⟩ := hset
    refine ⟨hostWord 51 (s.ldg.ctl &&& 0x00FFFFF0) (advance n z), by rw [← hctl]; rfl, ?_⟩
    beta_reduce
    rw [hw.ledger, ht]
    refine ⟨(s1.trans hsums.ctl).trans hc, (s2.trans hsums.run).trans hr, (s3.trans hsums.cnt).trans hcnt, ?_, ?_, ?_, hbeside⟩
    · intro hno ho
      have hnone : t.ldg.offPend = false := by
        rw [howed, ho]
        rcases hno with hno | hno <;> simp [hno]
      rw [ledgerOff_notOwed t hnone] at s4 s5 ⊢
      exact ⟨s5.trans hnone, s4.trans hsq⟩
    · intro he hst hf
      have hwait : ledgerOff t = t := if_neg (by simp [hfine, hf])
      rw [hwait] at s4 s5 ⊢
      exact ⟨s5.trans (by simp [howed, he, hst]), s4.trans hsq⟩
    · intro hon hf _ hnj hnjs
      obtain ⟨⟨⟨he, hst⟩, -⟩, -⟩ : ((ldgEn s = true ∧ ldgStarted s = true) ∧ s.sys.measRst = false) ∧ s.ldg.recovers = none := by
        simpa [ldgOn] using hon
      obtain ⟨t1, t2, j, t3, t4, t5, t6, t7⟩ := ledgerOff_taken t hoff (by simp [howed, he, hst]) (hfine.trans hf) (hbusy hon)
        (hj.trans hnj) (hjs.trans hnjs)
      have hall := hfirst fun k hk => by
        rw [t3] at hk
        obtain rfl := Option.some.inj hk
        exact t4
      rw [hall]
      exact ⟨t1, t2.trans (by rw [hsq]), j, t3, t5, t6.trans hr, t7.trans hcnt⟩

end Sys2Proof.Machine
end

section
/-! SUPPORT. A restore while a log record is said to lie in the state tables. -/

namespace Sys2Proof.Machine

/-- A frame is awaited whose trigger registered at the qtick 1000, that of the state; its log record is said to lie in a state table. EV1 is
high, and takes its first sample at that qtick (R236, R238). -/
def markedInTables : State :=
  { lockedAt 1000 with
    pins := { Pins.reset with vbat := 1500, ev := 2 }
    evin := { Evin.reset with incfg := 0x02000000, fresh := 2, cmpAt := some 1000 }
    tt := { Tt.reset with
      ctl := 1, activeValid := true
      instA := some { secTick := false, sync := false, freeRun := false, body := 100, lead := 0, cars := [] }
      await := some
        { code := 4, stamp := ⟨0, 0, false⟩, lateStart := false, coincident := false, queued := false, needLock := false, base := some 1032
          cont := false, reg := some 1000, seals := [], lateFrom := none, trigs := [], syncAt := none }
      group := some { qtick := 1000, recs := [{ addr := 0x7580, source := 0, own := ⟨0, 0, false⟩ }] } } }

/-- The image is what a save would write, with an entry of its state table that makes the rise of EV1 a trigger. -/
def restoresMarked : State :=
  busyWith (cmdWith 17 0) .fresh
    { markedInTables with nv := { markedInTables.nv with
        pages := (savePages 1 { markedInTables with mem := [(0x7520, 0x20)] }).map (fun x => (x.1, madePage x.1 0x5A 1 x.2 .clean)) } }

/-- The rise joins the frame that is awaited, and its record, with the flag of a coincidence (R202, R252), falls on the table. -/
theorem restoresMarked_amends : memByte (onStart 0x11 1000 restoreConfig restoresMarked).mem (0x7500 + 140) ≠
    byteAt (pageAt restoresMarked (2 + 140 / 64)).data (140 % 64) := by decide +kernel

/-- Refutes O36: the clause on a valid image has the state tables as the image gives them from whatever state, also from one that puts a log record
of a trigger into them, which another trigger amends while the inputs are configured. The records of the log itself lie at 0x7000 to 0x73FF (R251). -/
theorem not_configCommands : ¬ Obligations.ConfigCommands := by
  unfold Obligations.ConfigCommands
  intro h
  obtain ⟨-, -, -, -, hvalid⟩ := h (cmdWith 17 0) restoresMarked 1000
    ⟨rfl, by decide +kernel, rfl, by decide +kernel, by decide +kernel, rfl, rfl⟩
  obtain ⟨t, ht, -, -, -, himage, -⟩ := hvalid rfl (by decide +kernel) rfl rfl
  obtain ⟨-, -, -, -, -, -, -, -, -, -, -, -, hmem, -⟩ := himage
  obtain ⟨htables, -⟩ := hmem (by decide +kernel) rfl
  have he := Host.Outcome.next.inj (show Host.Outcome.next (onStart 0x11 1000 restoreConfig restoresMarked) = _ from ht)
  exact restoresMarked_amends (he ▸ htables 140 (by decide))

end Sys2Proof.Machine
end

section
/-! SUPPORT. A write that outlasts a reset. -/

namespace Sys2Proof.Machine

/-- A write of page 48 is in progress when the host resets the device (R81); the write outlasts the reset (R343). -/
def resetDuringWrite : State :=
  softReset { lockedAt 1000 with nv := { Nv.reset with op := some (opWrite false 48 0x5A 0 []) } }

/-- The write left without its command. -/
def outlastingWrite : NvOp := { opWrite false 48 0x5A 0 [] with orphan := true }

theorem resetDuringWrite_op : resetDuringWrite.nv.op = some outlastingWrite := by decide +kernel

theorem resetDuringWrite_quiet : nothingRuns resetDuringWrite ∧ resetDuringWrite.pwr.mainOn = true := by decide +kernel

/-- A main domain in reset raises no source of its own. -/
theorem resetDuringWrite_unlatched : latched 49 (pageOperationEnd .uncorrectable 0 resetDuringWrite) = false := by decide +kernel

/-- Refutes O44: the clause on an uncorrectable verify has source 49 latched wherever the main domain has its supply, but a write that outlasts a
reset may end while the domain is still held in that reset, where the source latches nothing. -/
theorem not_pageOperations : ¬ Obligations.PageOperations := by
  unfold Obligations.PageOperations
  intro h
  obtain ⟨hquiet, hon⟩ := resetDuringWrite_quiet
  obtain ⟨-, hverify, -⟩ := h resetDuringWrite 0 outlastingWrite resetDuringWrite_op
  obtain ⟨-, t, ht, -, h49, -⟩ := hverify _ rfl rfl hquiet rfl hon (.inr (by decide))
  have he := Host.Outcome.next.inj (show Host.Outcome.next (pageOperationEnd .uncorrectable 0 resetDuringWrite) = _ from ht)
  exact absurd (he ▸ h49) (by simp [resetDuringWrite_unlatched])

end Sys2Proof.Machine
end
